-- ==== Sys2Proof/Word.lean ====
section
/-! DEFINITION. The word types of the device (bytes, register words, byte strings) and the types of the commands' operands. -/

namespace Sys2Proof

/-- A byte. -/
abbrev Byte := BitVec 8

/-- A 32-bit register or scalar word. -/
abbrev Word := BitVec 32

/-- A 64-bit register or memory word. -/
abbrev DWord := BitVec 64

/-- A byte string, byte 0 first. -/
abbrev Bytes := List (BitVec 8)

/-- The path of a register access: one of the three BARs, or a transfer of the I3C port to the target (mailbox channel 1). -/
inductive Bus where | bar0 | bar2 | bar4 | i3c
  deriving DecidableEq, Repr

/-- How a read the device makes ends: with data, with a failed access (R41), or, of LPDDR5X, with an uncorrectable error of line `line`
of the range or with a corrected error (R371). Each carries the data there is; for an element of a gather list a fault names the
element. -/
inductive DmaResult where
  | data (bs : Bytes)
  | fault (elem : Option Nat)
  | ecc (line : Nat := 0)
  | corrected
  deriving DecidableEq, Repr

/-- What the lines of an output that are written in part meet when they are read (R41, R371): nothing, a code that the first or the last
fails, or a corrected error. -/
inductive LineUe where | none | first | last | corrected
  deriving DecidableEq, Repr

/-- What the reads of step 5 of Table 03-5 meet beside what is held (R308, R358, R371): the contents of KEY_SLOT or KEY2_SLOT, or of
its extent, KEY_SLOT's attribute record, the NEXT value or the traversal state of a stateful key fails its code; or a single-bit error
of KEY_SLOT's or KEY2_SLOT's contents, or of the attribute record or NEXT value, is corrected. -/
inductive SlotUe where | none | key | key2 | attr | next | traversal | corrected | corrected2 | correctedAttr
  deriving DecidableEq, Repr

/-- A write of the host's configuration space or MSI-X masks (R44, R68, R40): the sizes as Device Control codes them,
`128 * 2 ^ code` bytes. -/
inductive ConfigWrite where
  | maxPayload (code : Nat)
  | maxRead (code : Nat)
  | relaxedOrdering (on : Bool)
  | busMaster (on : Bool)
  | pasidEnable (on : Bool)
  | functionMask (on : Bool)
  | vectorMask (v : Nat) (on : Bool)
  | vectorEntry (v : Nat) (addr : DWord) (data : Word)
  deriving DecidableEq, Repr

/-- A link reset's cause, as RST_LINK.LAST codes it (R433). -/
inductive LinkEvent where | perst | hotReset | linkDown
  deriving DecidableEq, Repr

/-- A unit a job runs on: a shell, a frame of a BNE core, a core of a hash-field partition, or the SC. -/
inductive JobUnit where
  | shell (s : Nat)
  | bne (core frame : Nat)
  | hash (core : Nat)
  | sc
  deriving DecidableEq, Repr

/-- The fields of a tile instruction word (Table 05-4): width, MOD bits (or COND), three registers, and the immediate. -/
structure TileFields where
  w : Nat
  mod : Nat
  d : Nat
  a : Nat
  b : Nat
  c : Nat
  imm : BitVec 30
  deriving DecidableEq, Repr

/-- Who uses a register digest context (R235). -/
inductive Claimant where
  | slice (n : Nat)
  | manager
  | sc
  deriving DecidableEq, Repr

/-- The set-up registers of a register digest context (R237). -/
inductive RdeSetup where | mode | key | len
  deriving DecidableEq, Repr

/-- How the OTP programming of a life-cycle transition ends (R391): every word verified, a word that fails before the intent
word is valid, or a word that fails after it, with the number of pattern words already valid. -/
inductive OtpOutcome where
  | ok
  | failBeforeIntent
  | failAfterIntent (words : Nat)
  deriving DecidableEq, Repr

/-- A host access to memory: a read of `n` bytes, or a write of bytes with byte enables (none for a byte not enabled). -/
inductive MemAccess where
  | read (n : Nat)
  | write (bs : List (Option Byte))
  deriving DecidableEq, Repr

/-- What the error code of the memory accessed finds (R362, R371). -/
inductive Ecc where | clean | corrected | uncorrectable
  deriving DecidableEq, Repr

/-- A unit being reset when a crossing fails to quiet (R14). -/
inductive ResetUnit where
  | tile (t : Nat)
  | hash (k : Nat)
  | bne (c : Nat)
  | other
  deriving DecidableEq, Repr

/-- Why a start fails (R449), in the coding of RST_BOOT.LAST_FAIL from 1 up. -/
inductive StartFault where | timeout | firmware | patch | rig | ddrTrain | rng | otp | scFatal
  deriving DecidableEq, Repr

/-- A supply rail as PWR_RAILS reports it (R460, R469). -/
inductive Rail where | core | sram | io | ddr | pcie | vbat
  deriving DecidableEq, Repr

/-- What a debug access does with unit `u` of a right of Table 12-6: halts it, lets it go on, runs one step, or reads `n` bytes of it. -/
inductive CoreOp where
  | halt (u : Nat)
  | resume (u : Nat)
  | step (u : Nat)
  | read (u n : Nat)
  deriving DecidableEq, Repr

/-- An event of the JTAG port (R478). -/
inductive JtagOp where
  | trst
  | idcode
  | bypass (bit : Bool)
  | sample (pins : Bytes)
  | extest (pins : Bytes)
  | intest (pins : Bytes)
  | trace (addr n : Nat)
  | perf (r : Nat)
  | memRead (ddr : Bool) (addr n : Nat)
  | memWrite (ddr : Bool) (addr : Nat) (bs : Bytes)
  | coreDebug (right : Nat) (op : CoreOp)
  deriving DecidableEq, Repr

/-- A common command code of the I3C controller that the target supports (R477). -/
inductive I3cCommand where
  | entdaa (addr : Nat)
  | setdasa (addr : Nat)
  | setnewda (addr : Nat)
  | rstdaa
  | getpid | getbcr | getdcr | getstatus
  | enec | disec
  | getmwl | getmrl
  deriving DecidableEq, Repr

/-- A periodic monitor sample (R407): hottest junction in signed degrees, field in 0.1 mT, SYSCLK in kHz, VDD_CORE in mV,
samples of a noise cell that are not conditioned (R335, R336), or what TMP_MESH_IN[0] to [3] read at the two sampling points of a bit
period (R409). -/
inductive Sample where
  | temp (c : Int)
  | mag (x : Nat)
  | clk (khz : Nat)
  | vdd (mv : Nat)
  | cell (k : Nat) (bits : List Bool)
  | mesh (ins : List (Bool × Bool))
  deriving DecidableEq, Repr

end Sys2Proof
end

