-- ==== Sys2Proof/Syntax.lean ====
section
/-! DEFINITION. The commands of the block: one constructor per row of spec/opcode_table.json, rows with operands first. -/

namespace Sys2Proof

/-- A command: a host access, an event inside the device, an arrival of data, a timer expiry, a pin or supply event. -/
inductive Instr where
  /-- REGISTER_WRITE (R6): A host write to a register that has no row of its own, applied field by field by access code, with clamping under R8. -/
  | registerWrite (bus : Bus) (off : Nat) (width : Nat) (v : DWord)
  /-- RC_READ (R6): A read of an RC field returns its value and clears it, without losing an event that lands in the same cycle. -/
  | rcRead (bus : Bus) (off : Nat) (width : Nat) (ev : Nat) (ecc : Ecc := .clean)
  /-- PCIE_CONFIG_WRITE (R68): A configuration, MSI-X table or mask write that changes masking or Bus Master Enable. -/
  | pcieConfigWrite (w : ConfigWrite)
  /-- SQ_DOORBELL (R50): A 64-bit write of a submission-tail doorbell records the new tail modulo the ring size. -/
  | sqDoorbell (n : Nat) (i : Nat) (width : Nat) (v : DWord)
  /-- CQ_DOORBELL (R65): A completion-head doorbell releases the entries before HEAD, clamped to the completion tail in force. -/
  | cqDoorbell (n : Nat) (i : Nat) (width : Nat) (v : DWord)
  /-- DESCRIPTOR_FETCH (R61): A fetched 128 B descriptor arrives and is copied whole, and its header checks are made in table order. -/
  | descriptorFetch (q : Nat) (d : DmaResult) (gl : DmaResult)
  /-- JOB_DISPATCH (R70): The cox hands a waiting job to a free unit by weighted deficit round robin across slices. -/
  | jobDispatch (p : Nat) (u : JobUnit) (ue : SlotUe := .none)
  /-- JOB_SEALED (R17): An engine's result passes its checks and is sealed, after which no later fault affects the job. -/
  | jobSealed (j : Nat)
  /-- COMPLETION_ENTRY_WRITE (R16): After the job's output has been written, the queue manager writes the 32 B completion entry. -/
  | completionEntryWrite (j : Nat) (outUe : LineUe) (cqUe : Bool) (cqCe : Bool := false)
  /-- MOD_TIME_EXPIRY (R67): MOD_TIME µs after the oldest pending completion, the queue's message is sent and its count is zeroed. -/
  | modTimeExpiry (q : Nat)
  /-- HYBRID_JOIN (R18): When both halves of a hybrid job have ended, a hash-field partition forms the combined output, or the job completes under R19. -/
  | hybridJoin (j : Nat)
  /-- QUEUE_ENABLE (R53): ENABLE going from 0 to 1 zeroes the queue's pointers and errors, sets phase 1 and makes the queue RUNNING. -/
  | queueEnable (q : Nat) (v : DWord)
  /-- QUEUE_DISABLE (R56): ENABLE = 0 stops fetching, cancels jobs that have not started and drains the queue to DISABLED. -/
  | queueDisable (q : Nat) (v : DWord)
  /-- QMG_Q_RESTART (R75): QMG_Q_CTRL.RESTART restarts a queue in ERROR: it writes the held completions, clears QMG_Q_ERR and resumes fetching. -/
  | qmgQRestart (q : Nat) (v : DWord) (ue : List Nat := [])
  /-- SLM_PG_QRESTART (R75): A slice-page write that restarts one of the slice's queues that is in ERROR. -/
  | slmPgQrestart (n : Nat) (v : DWord) (ue : List Nat := [])
  /-- SLICE_ENABLE (R44): ENABLE = 1 makes a slice ACTIVE, or is refused whole with PASID_OFF. -/
  | sliceEnable (n : Nat) (v : DWord)
  /-- SLICE_QUIESCE (R76): Setting QUIESCE stops fetching, cancels fetched jobs that have not started and waits for started jobs to finish. -/
  | sliceQuiesce (n : Nat) (v : DWord)
  /-- SLICE_UNQUIESCE (R79): Clearing QUIESCE returns the slice to ACTIVE, or is refused under R444. -/
  | sliceUnquiesce (n : Nat) (v : DWord)
  /-- SLICE_RESET (R78): An accepted SLICE_RESET disables the slice's queues, clears its vectors and releases its RDE context and BNE resources. -/
  | sliceReset (n : Nat) (v : DWord)
  /-- SLICE_DISABLE (R77): ENABLE = 0 performs a slice reset while the slice is QUIESCED and is refused with SLICE_BUSY otherwise. -/
  | sliceDisable (n : Nat) (v : DWord)
  /-- SLICE_RESET_COMPLETE (R78): A slice reset ends within 50 µs and the slice reads DISABLED. -/
  | sliceResetComplete (n : Nat)
  /-- BNE_COMPAT_SET (R263): Setting BNE_COMPAT wipes every frame and releases every resident entry that the slice owns. -/
  | bneCompatSet (n : Nat) (v : DWord)
  /-- VEC_COUNT_WRITE (R80): Lowering VEC_COUNT clears the removed vectors' pending bits and re-clamps each queue's VECTOR. -/
  | vecCountWrite (n : Nat) (v : DWord)
  /-- POOL_HOLD_WRITE (R152): FAB_POOL_CTRL.HOLD starts or stops new dispatch to a pool. -/
  | poolHoldWrite (p : Nat) (v : DWord)
  /-- MLKEM_KEYGEN (R100): ML-KEM key generation, from a supplied seed or from DRBG output, into an empty slot. -/
  | mlkemKeygen (j : Nat)
  /-- MLKEM_ENCAPS (R98): ML-KEM encapsulation, with the modulus check on an inline ek. -/
  | mlkemEncaps (j : Nat)
  /-- MLKEM_DECAPS (R96): ML-KEM decapsulation with implicit rejection, and the optional DESTROY_AFTER. -/
  | mlkemDecaps (j : Nat)
  /-- MLDSA_KEYGEN (R102): ML-DSA key generation into an empty slot. -/
  | mldsaKeygen (j : Nat)
  /-- MLDSA_SIGN (R104): ML-DSA hedged or deterministic signing. -/
  | mldsaSign (j : Nat)
  /-- MLDSA_VERIFY (R105): ML-DSA verification, completing DONE or VERIFY_FAIL. -/
  | mldsaVerify (j : Nat)
  /-- SLHDSA_KEYGEN (R109): SLH-DSA key generation, seeded or drawn from the DRBG. -/
  | slhdsaKeygen (j : Nat)
  /-- SLHDSA_SIGN (R109): SLH-DSA signing on a hash-field gang, using the memo where it is present. -/
  | slhdsaSign (j : Nat) (ue : List Nat := [])
  /-- SLHDSA_VERIFY (R110): SLH-DSA verification. -/
  | slhdsaVerify (j : Nat)
  /-- LMS_KEYGEN (R111): HSS/LMS key generation inside the device, binding a counter cell. -/
  | lmsKeygen (j : Nat)
  /-- LMS_SIGN (R114): HSS/LMS signing with a reserved index that is never reused. -/
  | lmsSign (j : Nat)
  /-- LMS_VERIFY (R115): HSS/LMS verification. -/
  | lmsVerify (j : Nat)
  /-- XMSS_KEYGEN (R112): XMSS or XMSS^MT key generation inside the device. -/
  | xmssKeygen (j : Nat)
  /-- XMSS_SIGN (R114): XMSS signing with a reserved index. -/
  | xmssSign (j : Nat)
  /-- XMSS_VERIFY (R115): XMSS verification. -/
  | xmssVerify (j : Nat)
  /-- HQC_KEYGEN (R106): HQC key generation into an extent-form slot. -/
  | hqcKeygen (j : Nat)
  /-- HQC_ENCAPS (R107): HQC encapsulation, with the padding check on an inline pk. -/
  | hqcEncaps (j : Nat)
  /-- HQC_DECAPS (R96): HQC decapsulation with implicit rejection. -/
  | hqcDecaps (j : Nat)
  /-- ECC_KEYGEN (R116): ECC key generation on P-256, P-384 or P-521. -/
  | eccKeygen (j : Nat)
  /-- ECC_SIGN (R117): ECDSA signing with an RFC 6979 nonce, optionally hedged. -/
  | eccSign (j : Nat)
  /-- ECC_VERIFY (R119): ECDSA verification. -/
  | eccVerify (j : Nat)
  /-- ECC_DERIVE (R116): ECDH derivation of the x-coordinate with a peer point. -/
  | eccDerive (j : Nat)
  /-- CHECK_PUBLIC (R118): Full public-key validation of a SEC 1 point. -/
  | checkPublic (j : Nat)
  /-- EDMONT_KEYGEN (R120): Key generation for X25519, X448, Ed25519 or Ed448. -/
  | edmontKeygen (j : Nat)
  /-- EDMONT_SIGN (R122): EdDSA signing in the pure, ctx or ph variant. -/
  | edmontSign (j : Nat)
  /-- EDMONT_VERIFY (R123): EdDSA verification with the cofactored equation. -/
  | edmontVerify (j : Nat)
  /-- EDMONT_DERIVE (R121): X25519 or X448 derivation, with ZERO_SHARED for an all-zero result. -/
  | edmontDerive (j : Nat)
  /-- RSA_KEYGEN (R124): RSA key generation of the requested modulus size. -/
  | rsaKeygen (j : Nat)
  /-- RSA_SIGN (R126): RSA PKCS #1 v1.5 or PSS signing with blinded CRT and a public check. -/
  | rsaSign (j : Nat)
  /-- RSA_VERIFY (R125): RSA signature verification. -/
  | rsaVerify (j : Nat)
  /-- RSA_ENCRYPT (R124): RSA-OAEP encryption. -/
  | rsaEncrypt (j : Nat)
  /-- RSA_DECRYPT (R125): RSA-OAEP decryption, with one uniform refusal for every decoding failure. -/
  | rsaDecrypt (j : Nat)
  /-- RAW_PRIVATE (R125): The raw RSA operation with the secret exponent. -/
  | rawPrivate (j : Nat)
  /-- RAW_PUBLIC (R125): A raw RSA public operation on a representative. -/
  | rawPublic (j : Nat)
  /-- MODMUL (R128): Raw modular multiplication. -/
  | modmul (j : Nat)
  /-- MODEXP (R128): Raw constant-time modular exponentiation. -/
  | modexp (j : Nat)
  /-- MODINV (R128): Raw modular inversion in fixed time. -/
  | modinv (j : Nat)
  /-- LOAD (R259): Makes an operand resident on a BNE core and returns its handle. -/
  | loadOperand (j : Nat)
  /-- FREE (R259): Releases a resident-operand handle. -/
  | freeHandle (j : Nat)
  /-- DIGEST (R129): A hash digest of the message. -/
  | digest (j : Nat)
  /-- XOF (R129): SHAKE or cSHAKE output of AUX bytes. -/
  | xof (j : Nat)
  /-- MAC (R129): HMAC, KMAC or KMACXOF under a MAC-usage slot. -/
  | macTag (j : Nat)
  /-- MAC_VERIFY (R130): Constant-time MAC tag comparison. -/
  | macVerify (j : Nat)
  /-- GENERATE (R134): Generates an AES key or a secret into an empty slot. -/
  | generate (j : Nat)
  /-- IMPORT (R135): Imports a checked clear-form key into an empty slot under the IMPORT right. -/
  | importKey (j : Nat)
  /-- WRAP (R136): Wraps a slot's key as a device blob or as AES-KWP ciphertext. -/
  | wrap (j : Nat)
  /-- UNWRAP (R317): Unwraps a device blob or KWP ciphertext into an empty slot. -/
  | unwrap (j : Nat)
  /-- DESTROY (R307): Empties a slot in its commit, freeing its memo and its counter cell. -/
  | destroy (j : Nat)
  /-- ATTEST (R322): Returns a key-origin statement signed by KAK. -/
  | attest (j : Nat)
  /-- SET_MEMO_DEPTH (R225): Sets an SLH-DSA slot's memo depth and reserves or frees memo space. -/
  | setMemoDepth (j : Nat)
  /-- GET_PUBLIC (R134): Returns the public key of an asymmetric slot. -/
  | getPublic (j : Nat)
  /-- RANDOM (R131): Writes AUX bytes drawn from the slice's DRBG instance. -/
  | randomBytes (j : Nat)
  /-- HYBRID_KEYGEN (R140): Hybrid initiator key generation. -/
  | hybridKeygen (j : Nat)
  /-- HYBRID_ENCAPS (R140): Hybrid responder encapsulation, run as two concurrent halves. -/
  | hybridEncaps (j : Nat)
  /-- HYBRID_DECAPS (R140): Hybrid initiator decapsulation. -/
  | hybridDecaps (j : Nat)
  /-- LINK_RESET (R437): PERST_N, a hot reset or the link going down ends in-flight jobs, records reported heads and resets DM2. -/
  | linkReset (k : LinkEvent)
  /-- D0_WAKE (R455): A write of D0 wakes the device from STANDBY. -/
  | d0Wake (us : Nat)
  /-- WATCHDOG_EXPIRY (R159): A kernel phase exceeds its cycle budget and the tile raises a WATCHDOG machine check. -/
  | watchdogExpiry (t : Nat)
  /-- RING_TIMEOUT (R159): A shell peer has not answered within 4,096 tc and the silent peer is blamed. -/
  | ringTimeout (t : Nat)
  /-- TILE_IDLE_SCRUB (R159): Every 10 ms an idle tile scrubs its control store and patch RAM. -/
  | tileIdleScrub (t : Nat) (found : Nat)
  /-- SPARE_PERIODIC_BIST (R160): Every 10 minutes each spare runs a full BIST in the background. -/
  | sparePeriodicBist (t : Nat)
  /-- SPARE_JOIN (R160): A chosen spare finishes loading kernels and seeding, and joins the shell, which returns to IN_SERVICE. -/
  | spareJoin (t : Nat) (sh : Nat) (ok : Bool)
  /-- TILE_BIST_COMPLETE (R162): A tile's BIST ends and the tile fills a shell, becomes SPARE, is RETIRED or waits UNSEEDED. -/
  | tileBistComplete (t : Nat) (ok : Bool)
  /-- MASK_RESEED_REQUEST (R157): After 3,584 jobs a tile's mask generator requests a reseed, taken between jobs. -/
  | maskReseedRequest (t : Nat)
  /-- MASK_BUDGET_SPENT (R157): After 4,096 jobs without a reseed a tile's mask budget is spent. -/
  | maskBudgetSpent (t : Nat)
  /-- TIL_DBG_ATTACH (R199): Writing ATTACH attaches a tile for debug, or on clearing resumes it and disables its breakpoints. -/
  | tilDbgAttach (t : Nat) (on : Bool)
  /-- TIL_DBG_HALT (R196): A HALT request halts the attached tile at the next beat boundary. -/
  | tilDbgHalt (t : Nat) (beats : Nat := 0)
  /-- TIL_DBG_RESUME (R199): RESUME continues a halted tile from its resume index. -/
  | tilDbgResume (t : Nat)
  /-- TIL_DBG_STEP (R199): STEP runs one instruction and halts again. -/
  | tilDbgStep (t : Nat)
  /-- TIL_DBG_ABANDON (R199): ABANDON ends the halted tile's job as for a kernel fault. -/
  | tilDbgAbandon (t : Nat)
  /-- FAB_TILE_BRING_UP (R165): The BRING_UP command runs BIST on a RETIRED or UNUSED tile. -/
  | fabTileBringUp (t : Nat)
  /-- FAB_TILE_RETIRE (R165): The RETIRE command retires a tile, draining its shell first if the tile is in service. -/
  | fabTileRetire (t : Nat)
  /-- ISLAND_FREQ_WRITE (R166): FREQ switches the island's clock without a glitch within 1 µs. -/
  | islandFreqWrite (n : Nat) (fq : Nat)
  /-- ISLAND_GATE (R168): GATE = 1 takes the island's shells out of their pools and drains them. -/
  | islandGate (n : Nat)
  /-- ISLAND_POWER_OFF (R168): Once every tile of a draining island is idle, the island is powered off and reads GATED. -/
  | islandPowerOff (n : Nat)
  /-- ISLAND_UNGATE (R168): GATE = 0 wakes a gated island, or cancels a drain that is in progress. -/
  | islandUngate (n : Nat)
  /-- ISLAND_POWER_ON (R168): Power is restored to a waking island, and its tiles run BIST together. -/
  | islandPowerOn (n : Nat)
  /-- NOP (R190): Tile no-op. -/
  | nop (t : Nat) (f : TileFields)
  /-- BR (R190): Conditional branch. -/
  | br (t : Nat) (f : TileFields)
  /-- END (R193): End of kernel: the stroke tile copies its output to the seal buffer, and the shell wipes. -/
  | endKernel (t : Nat) (f : TileFields)
  /-- WAIT (R190): Waits until the tile's background transfers complete. -/
  | wait (t : Nat) (f : TileFields)
  /-- CSRR (R178): Reads a control register. -/
  | csrr (t : Nat) (f : TileFields)
  /-- CSRW (R178): Writes a control register, or raises a CSR kernel fault. -/
  | csrw (t : Nat) (f : TileFields)
  /-- SADD (R190): Scalar add. -/
  | sadd (t : Nat) (f : TileFields)
  /-- SSUB (R190): Scalar subtract. -/
  | ssub (t : Nat) (f : TileFields)
  /-- SMUL (R190): Scalar multiply, low 32 bits. -/
  | smul (t : Nat) (f : TileFields)
  /-- SAND (R190): Scalar AND. -/
  | sand (t : Nat) (f : TileFields)
  /-- SOR (R190): Scalar OR. -/
  | sor (t : Nat) (f : TileFields)
  /-- SXOR (R190): Scalar XOR. -/
  | sxor (t : Nat) (f : TileFields)
  /-- SSHL (R190): Scalar shift left. -/
  | sshl (t : Nat) (f : TileFields)
  /-- SSHR (R190): Scalar logical shift right. -/
  | sshr (t : Nat) (f : TileFields)
  /-- SADDI (R190): Scalar add immediate. -/
  | saddi (t : Nat) (f : TileFields)
  /-- SLI (R190): Scalar load immediate. -/
  | sli (t : Nat) (f : TileFields)
  /-- SLH (R190): Scalar load high half. -/
  | slh (t : Nat) (f : TileFields)
  /-- SCMP (R190): Scalar compare into cflag. -/
  | scmp (t : Nat) (f : TileFields)
  /-- VADD (R183): Short-vector add, wrapping or saturating. -/
  | vadd (t : Nat) (f : TileFields)
  /-- VSUB (R183): Short-vector subtract. -/
  | vsub (t : Nat) (f : TileFields)
  /-- VADDM (R182): Short-vector modular add. -/
  | vaddm (t : Nat) (f : TileFields)
  /-- VSUBM (R182): Short-vector modular subtract. -/
  | vsubm (t : Nat) (f : TileFields)
  /-- VMULM (R182): Short-vector modular multiply. -/
  | vmulm (t : Nat) (f : TileFields)
  /-- VAND (R190): Short-vector AND. -/
  | vand (t : Nat) (f : TileFields)
  /-- VOR (R190): Short-vector OR. -/
  | vor (t : Nat) (f : TileFields)
  /-- VXOR (R190): Short-vector XOR. -/
  | vxor (t : Nat) (f : TileFields)
  /-- VSHL (R190): Short-vector shift left. -/
  | vshl (t : Nat) (f : TileFields)
  /-- VSHR (R183): Short-vector arithmetic shift right, optionally rounded. -/
  | vshr (t : Nat) (f : TileFields)
  /-- VMULH (R183): Short-vector high multiply. -/
  | vmulh (t : Nat) (f : TileFields)
  /-- VCLMUL (R184): Short-vector carry-less multiply. -/
  | vclmul (t : Nat) (f : TileFields)
  /-- VBCAST (R190): Broadcasts a scalar to every lane. -/
  | vbcast (t : Nat) (f : TileFields)
  /-- VEXT (R190): Extracts a lane into a scalar. -/
  | vext (t : Nat) (f : TileFields)
  /-- VPERM (R190): Permutes lanes. -/
  | vperm (t : Nat) (f : TileFields)
  /-- PADD (R183): Long-vector add. -/
  | padd (t : Nat) (f : TileFields)
  /-- PSUB (R183): Long-vector subtract. -/
  | psub (t : Nat) (f : TileFields)
  /-- PADDM (R182): Long-vector modular add, maskable. -/
  | paddm (t : Nat) (f : TileFields)
  /-- PSUBM (R182): Long-vector modular subtract, maskable. -/
  | psubm (t : Nat) (f : TileFields)
  /-- PMULM (R182): Long-vector modular pointwise multiply. -/
  | pmulm (t : Nat) (f : TileFields)
  /-- PMACM (R182): Long-vector modular multiply-accumulate. -/
  | pmacm (t : Nat) (f : TileFields)
  /-- PAND (R190): Long-vector AND. -/
  | pand (t : Nat) (f : TileFields)
  /-- PXOR (R190): Long-vector XOR, maskable. -/
  | pxor (t : Nat) (f : TileFields)
  /-- PSHL (R190): Long-vector shift left. -/
  | pshl (t : Nat) (f : TileFields)
  /-- PSHR (R183): Long-vector shift right. -/
  | pshr (t : Nat) (f : TileFields)
  /-- PMULH (R183): Long-vector high multiply. -/
  | pmulh (t : Nat) (f : TileFields)
  /-- PCLMUL (R184): Long-vector carry-less multiply. -/
  | pclmul (t : Nat) (f : TileFields)
  /-- PMOV (R190): Long-vector move. -/
  | pmov (t : Nat) (f : TileFields)
  /-- MREFR (R190): Refreshes a masked pair with a fresh mask. -/
  | mrefr (t : Nat) (f : TileFields)
  /-- MSKP (R190): Fills a long vector with a fresh mask. -/
  | mskp (t : Nat) (f : TileFields)
  /-- NTT (R190): Microcoded forward NTT layers. -/
  | ntt (t : Nat) (f : TileFields)
  /-- INTT (R190): Microcoded inverse NTT layers. -/
  | intt (t : Nat) (f : TileFields)
  /-- CBD (R190): Microcoded centred binomial sampling. -/
  | cbd (t : Nat) (f : TileFields)
  /-- SAMPU (R190): Microcoded uniform rejection sampling from the sponge. -/
  | sampu (t : Nat) (f : TileFields)
  /-- SAMPETA (R190): Microcoded bounded rejection sampling from the sponge. -/
  | sampeta (t : Nat) (f : TileFields)
  /-- SIB (R190): Microcoded SampleInBall. -/
  | sib (t : Nat) (f : TileFields)
  /-- COMP (R190): Microcoded compress. -/
  | comp (t : Nat) (f : TileFields)
  /-- DECOMPR (R190): Microcoded decompress. -/
  | decompr (t : Nat) (f : TileFields)
  /-- DECOMP (R190): Microcoded high/low decomposition. -/
  | decomp (t : Nat) (f : TileFields)
  /-- P2R (R190): Microcoded Power2Round. -/
  | p2r (t : Nat) (f : TileFields)
  /-- MKHINT (R190): Microcoded hint generation. -/
  | mkhint (t : Nat) (f : TileFields)
  /-- USEHINT (R190): Microcoded UseHint. -/
  | usehint (t : Nat) (f : TileFields)
  /-- NORMCHK (R190): Microcoded norm check into cflag. -/
  | normchk (t : Nat) (f : TileFields)
  /-- PACK (R190): Microcoded packing of coefficients into operand memory. -/
  | pack (t : Nat) (f : TileFields)
  /-- UNPACK (R190): Microcoded unpacking of coefficients from operand memory. -/
  | unpack (t : Nat) (f : TileFields)
  /-- CONV (R186): Microcoded conversion between arithmetic and Boolean shares. -/
  | conv (t : Nat) (f : TileFields)
  /-- LDS (R190): Loads a scalar from operand memory. -/
  | lds (t : Nat) (f : TileFields)
  /-- STS (R190): Stores a scalar to operand memory. -/
  | sts (t : Nat) (f : TileFields)
  /-- LDV (R190): Loads a short vector. -/
  | ldv (t : Nat) (f : TileFields)
  /-- STV (R190): Stores a short vector. -/
  | stv (t : Nat) (f : TileFields)
  /-- LDP (R190): Loads a long vector or a masked pair. -/
  | ldp (t : Nat) (f : TileFields)
  /-- STP (R190): Stores a long vector or a masked pair. -/
  | stp (t : Nat) (f : TileFields)
  /-- LDPX (R190): Gather load into a long vector. -/
  | ldpx (t : Nat) (f : TileFields)
  /-- SPINIT (R190): Zeroes the sponge and selects its mode. -/
  | spinit (t : Nat) (f : TileFields)
  /-- SPABS (R190): Absorbs bytes into the sponge. -/
  | spabs (t : Nat) (f : TileFields)
  /-- SPFIN (R190): Pads and permutes the sponge and switches it to squeezing. -/
  | spfin (t : Nat) (f : TileFields)
  /-- SPSQZ (R190): Squeezes bytes from the sponge. -/
  | spsqz (t : Nat) (f : TileFields)
  /-- RSEND (R191): Issues a ring send to another tile of the shell. -/
  | rsend (t : Nat) (f : TileFields)
  /-- RRECV (R191): Issues a ring receive from another tile of the shell. -/
  | rrecv (t : Nat) (f : TileFields)
  /-- DMAIN (R192): Issues a copy of job input into operand memory on the stroke tile. -/
  | dmain (t : Nat) (f : TileFields)
  /-- RAND (R192): Issues a DRBG draw into operand memory on the stroke tile. -/
  | rand (t : Nat) (f : TileFields)
  /-- RING_TRANSFER_ARRIVAL (R191): A ring transfer between shell tiles has fully arrived, releasing a waiting RRECV or WAIT. -/
  | ringTransferArrival (t : Nat) (parityOk : Bool := true)
  /-- DMAIN_COMPLETE (R185): A background DMAIN copy completes. -/
  | dmainComplete (t : Nat) (d : DmaResult)
  /-- RAND_COMPLETE (R185): A background RAND draw completes. -/
  | randComplete (t : Nat)
  /-- HSF_CORE_MACHINE_CHECK (R215): A hash core's duplicate or parity check fails: its jobs are retried and the core is reset and tested. -/
  | hsfCoreMachineCheck (k : Nat)
  /-- HSF_CORE_BIST_COMPLETE (R215): A hash core's 20 µs BIST ends and the core rejoins its partition or is retired. -/
  | hsfCoreBistComplete (k : Nat) (ok : Bool)
  /-- HSF_CORE_BRING_UP (R216): The BRING_UP command on a hash core. -/
  | hsfCoreBringUp (k : Nat)
  /-- HSF_CORE_RETIRE (R216): The RETIRE command on a hash core. -/
  | hsfCoreRetire (k : Nat)
  /-- MESSAGE_SEGMENT_FETCH (R218): A 4 KiB segment of a class 0x0C message arrives, or its fetch faults. -/
  | messageSegmentFetch (j : Nat) (d : DmaResult)
  /-- COUNTER_WRITE_ACK (R228): A LIMIT reservation write to a counter cell is acknowledged over the AON crossing, releasing waiting SIGN jobs. -/
  | counterWriteAck (c : Nat)
  /-- CELL_FREE_ACK (R231): The BBRAM write that frees a cell is acknowledged, and the DESTROY commits and completes. -/
  | cellFreeAck (c : Nat)
  /-- TRAVERSAL_REBUILD_DONE (R233): The rebuild of a stateful key's traversal state ends and waiting SIGN jobs proceed. -/
  | traversalRebuildDone (c : Nat)
  /-- RDE_CLAIM (R236): CLAIM takes a FREE RDE context or reports OWNER_CONFLICT. -/
  | rdeClaim (c : Nat) (who : Claimant)
  /-- RDE_RELEASE (R236): RELEASE abandons any message and returns the context to FREE. -/
  | rdeRelease (c : Nat) (who : Claimant)
  /-- RDE_CLEAR (R240): CLEAR abandons any message and returns the context to IDLE. -/
  | rdeClear (c : Nat) (who : Claimant)
  /-- RDE_SETUP_WRITE (R237): A write to RDE_MODE, RDE_KEY or RDE_LEN, taken only in IDLE or DONE, with TAGLEN clamped. -/
  | rdeSetupWrite (c : Nat) (who : Claimant) (r : RdeSetup) (v : DWord)
  /-- RDE_DATA (R239): A 64-bit data word is taken into the context or dropped. -/
  | rdeData (c : Nat) (who : Claimant) (width : Nat) (v : DWord) (ue : SlotUe := .none)
  /-- RDE_FINISH (R240): FINISH checks the lengths and enters FINISHING or POISONED. -/
  | rdeFinish (c : Nat) (who : Claimant) (v : DWord) (ue : SlotUe := .none)
  /-- RDE_FINISH_DONE (R241): The hash or HMAC completes and the context enters DONE with its result or MATCH. -/
  | rdeFinishDone (c : Nat)
  /-- CATCH_POINT (R256): Every 32,768 BNE cycles a job cancels under quiesce, yields to an offered job, or runs on. -/
  | catchPoint (c : Nat)
  /-- BNE_RESUME (R257): Once the preempting job is sealed, the yielded job is restored and resumes. -/
  | bneResume (c : Nat)
  /-- BNE_MACHINE_CHECK (R265): A BNE core machine check retries or aborts its jobs and resets the core. -/
  | bneMachineCheck (c : Nat) (cause : Nat)
  /-- BNE_CORE_BIST_COMPLETE (R265): A BNE core's 40 µs BIST ends and the core rejoins its group or is retired. -/
  | bneCoreBistComplete (c : Nat) (ok : Bool)
  /-- BNE_CORE_BRING_UP (R266): The BRING_UP command on a BNE core. -/
  | bneCoreBringUp (c : Nat)
  /-- BNE_CORE_RETIRE (R266): The RETIRE command on a BNE core. -/
  | bneCoreRetire (c : Nat)
  /-- RIG_STAGE (R289): Copies a rig image into the staging buffer. -/
  | rigStage (d : DmaResult)
  /-- FLASH_WRITE_COMMIT (R290): Erase, program and read-back end and MAGIC is written, committing the copy. -/
  | flashWriteCommit (ok : Bool)
  /-- RIG_PARTIAL_COMMIT (R292): The MAGIC write commits the partial image and the pool reads RE_RIGGING. -/
  | rigPartialCommit (ok : Bool)
  /-- RIG_PARTIAL_COMPLETE (R292): The re-rigged pool returns to service, waiting jobs are resolved, and the command completes. -/
  | rigPartialComplete (failed : List Nat)
  /-- MBX_CLEAR (R326): CLEAR returns a DONE channel to IDLE and zeroes its response. -/
  | mbxClear (ch : Nat)
  /-- KEY_WRITE (R304): The manager writes a checked clear-form key into an empty slot. -/
  | keyWrite (d : DmaResult)
  /-- LC_TRANSITION_DRAINED (R391): Started jobs have ended, and the transition wipes, programs its OTP group and resets. -/
  | lcTransitionDrained (w : OtpOutcome)
  /-- PRESENCE_PRESS (R401): A debounced button press serves the command waiting for presence, with jumper and seal checked at that moment. -/
  | presencePress (jmp : Bool) (sealOpen : Bool)
  /-- FW_WRITE (R458): Writes one part of an SC firmware image to the copy not in force, committing on LAST. -/
  | fwWrite (d : DmaResult) (flashOk : Bool := true)
  /-- PATCH_WRITE (R458): Writes one part of a microcode patch image to the copy not in force. -/
  | patchWrite (d : DmaResult) (flashOk : Bool := true)
  /-- TAMPER_ALARM (R413): A monitor source's condition becomes active and its effective response class executes. -/
  | tamperAlarm (k : Nat) (val : Nat) (same : Bool)
  /-- SOURCE_INACTIVE (R408): A source's condition clears, which re-arms its alarm and lifts a temperature ceiling. -/
  | sourceInactive (k : Nat)
  /-- SUPPLY_DIP (R420): VDD_CORE falls below the warning level: sealing stops, jobs are marked suspect and dispatch pauses. -/
  | supplyDip (mv : Nat) (same : Bool := false)
  /-- DIP_RECOVERY (R420): The supply recovers: suspect jobs are re-executed, dispatch resumes and deferred writes proceed. -/
  | dipRecovery (mv : Nat) (us : Nat)
  /-- DIP_HALT (R420): A dip lasting 5 ms puts the device in HALTED and completes unsealed jobs ABORTED_FAULT. -/
  | dipHalt (mv : Nat)
  /-- BACKUP_ALARM (R422): An AON source alarms on the backup cell and zeroises the BBRAM rows at once. -/
  | backupAlarm (k : Nat) (val : Nat)
  /-- TMP_VDD_WRITE (R419): Sets the clamped supply-warning level, which applies at once. -/
  | tmpVddWrite (v : DWord)
  /-- TMP_TEMP_CTRL_WRITE (R410): Sets the temperature ceiling, which applies at once. -/
  | tmpTempCtrlWrite (v : DWord)
  /-- HEALTH_TEST_FAILURE (R338): A continuous health test fails: the pool is emptied and the source restarts. -/
  | healthTestFailure (cell : Nat) (test : Nat) (also : List Nat := [])
  /-- SOURCE_RESTART_END (R346): A restart's start-up test passes or fails, and the source becomes RUNNING, restarts again or becomes FAILED. -/
  | sourceRestartEnd (fail : Option (Nat × Nat)) (samples : Bytes := [])
  /-- DRBG_RESEED_REQUEST (R342): An instance reaching 4,096 requests asks for a reseed and becomes stretched. -/
  | drbgReseedRequest (k : Nat)
  /-- DRBG_AT_LIMIT (R342): An instance reaching 1,048,576 requests stops serving until it is reseeded. -/
  | drbgAtLimit (k : Nat)
  /-- BANK_HANDOVER (R364): Starts handing a scratch bank to a new owner, or is refused. -/
  | bankHandover (b : Nat) (v : DWord)
  /-- BANK_HANDOVER_DRAINED (R364): The old owner's accesses complete, and the bank passes to the new owner or starts its wipe. -/
  | bankHandoverDrained (b : Nat)
  /-- BANK_WIPE_DONE (R364): The bank's 65.5 µs wipe ends and the new owner's port opens. -/
  | bankWipeDone (b : Nat)
  /-- BAR4_NORMAL_ACCESS (R361): A host access through the normal view of BAR4, applied only if the host owns the bank. -/
  | bar4NormalAccess (off : Nat) (acc : MemAccess) (ecc : Ecc)
  /-- SET_ALIAS_WRITE (R367): An indivisible OR of the written word into a bank word. -/
  | setAliasWrite (off : Nat) (width : Nat) (v : DWord) (ecc : Ecc := .clean)
  /-- CLEAR_ALIAS_WRITE (R367): An indivisible AND-NOT of the written word into a bank word. -/
  | clearAliasWrite (off : Nat) (width : Nat) (v : DWord) (ecc : Ecc := .clean)
  /-- FETCH_AND_SET (R368): An on-chip master's set that returns the old word. -/
  | fetchAndSet (who : Nat) (a : Nat) (v : DWord) (ecc : Ecc := .clean) (job : Option Nat := none)
  /-- FETCH_AND_CLEAR (R368): An on-chip master's clear that returns the old word. -/
  | fetchAndClear (who : Nat) (a : Nat) (v : DWord) (ecc : Ecc := .clean) (job : Option Nat := none)
  /-- APERTURE_ACCESS (R380): A host access through an aperture bank that reaches a slice's LPDDR5X window. -/
  | apertureAccess (off : Nat) (acc : MemAccess) (ecc : Ecc)
  /-- PATROL_SCRUB_PASS (R372): The patrol scrub completes a pass over every line. -/
  | patrolScrubPass (ce : Nat) (ue : List Nat)
  /-- DDR_MACHINE_CHECK (R373): The LPDDR5X controller faults, stops all access and escalates to a cold reset. -/
  | ddrMachineCheck (cause : Nat)
  /-- CROSSING_QUIET_TIMEOUT (R14): A crossing fails to quiet within 10 µs outside a system reset. -/
  | crossingQuietTimeout (dm : Nat) (u : ResetUnit)
  /-- RST_BLOCK (R438): Requests a reset of one unit, accepted only if the unit is idle. -/
  | rstBlock (kind : Nat) (idx : Nat)
  /-- BLOCK_RESET_BIST_DONE (R439): The reset unit's BIST ends and the unit returns to its role. -/
  | blockResetBistDone (ok : Bool)
  /-- RESET_N_INPUT (R440): A low on RESET_N of 500 ns or more is accepted as a RESET_PIN reset. -/
  | resetNInput (ns : Nat)
  /-- RESET_RELEASE (R434): The system reset is released and a start begins, or enters RECOVERY. -/
  | resetRelease (refreshOk : Bool) (groupOk : Bool := true)
  /-- DDR_TRAINING_DONE (R447): LPDDR5X training ends, the boot keys are drawn and initialisation begins. -/
  | ddrTrainingDone (mask : Nat) (gib : Nat) (mts : Nat)
  /-- START_COMPLETE (R447): BIST passes, GEN_BOOT_SEQ is incremented, the device enters SERVICE and PLAT_HOLD_N is released. -/
  | startComplete (us : Nat)
  /-- START_FAILURE (R449): A start fails and takes a FAILED_START reset. -/
  | startFailure (why : StartFault)
  /-- RDE_BLOCK_PROCESSED (R239): An RDE context finishes compressing a buffered block, which frees buffer space and lets BUSY fall. -/
  | rdeBlockProcessed (c : Nat)
  /-- INPUTS_GATHERED (R41): The engine's DMA finishes gathering a job's inputs and key into the frame or gang, or a read of an operand faults with DMA_FAULT, WHERE 0. -/
  | inputsGathered (j : Nat) (main : DmaResult) (in2 : DmaResult) (in3 : DmaResult) (ctx : DmaResult)
  /-- RAIL_RANGE_CHANGE (R469): A supply rail enters or leaves its operating range, which restarts the POR count or changes its PWR_RAILS bit. -/
  | railRangeChange (r : Rail) (ok : Bool)
  /-- JTAG_ACCESS (R478): A JTAG TAP instruction or TRST_N event: IDCODE, BYPASS, SAMPLE, EXTEST, INTEST or a debug access, gated by the debug rights in force. -/
  | jtagAccess (op : JtagOp)
  /-- I3C_COMMON_COMMAND (R477): The I3C controller sends a common command such as ENTDAA, SETDASA, RSTDAA or ENEC/DISEC, which assigns addresses or enables in-band interrupts. -/
  | i3cCommonCommand (cc : I3cCommand)
  /-- MONITOR_SAMPLE (R407): A periodic monitor sample of temperature, magnetic field, SYSCLK or VDD_CORE updates the NOW and MAX fields of the TMP registers. -/
  | monitorSample (m : Sample)
  /-- PWR_MW_UPDATE (R460): Every 1 ms the device updates its power estimate PWR_MW.NOW and raises PWR_MW_PEAK if it is higher. -/
  | pwrMwUpdate (mw : Nat)
  /-- ASPM_L1_2_CHANGE (R454): The link enters or leaves ASPM L1.2, which sets or clears PWR_STATE.L12. -/
  | aspmL12Change (on : Bool)
  /-- LINK_UP (R437): The link reaches DL_Active after a link reset, and DEV_STATE returns to SERVICE or stays HALTED. -/
  | linkUp (us : Nat := 0)
  /-- D3HOT_ENTRY (R454): A host write of D3hot puts the device in STANDBY. -/
  | d3hotEntry
  /-- RIG_CHECK (R285): Runs the image checks on the staged image and reports the result. -/
  | rigCheck
  /-- RIG_WRITE (R290): Checks the staged full image and starts writing it to the copy not in force. -/
  | rigWrite
  /-- RIG_PARTIAL (R292): Checks a partial image and starts writing it for a live re-rig of one pool. -/
  | rigPartial
  /-- RIG_PARTIAL_DRAINED (R292): The pool's running jobs are sealed, and the new kernels and maps are loaded. -/
  | rigPartialDrained
  /-- RIG_AUTH_ROTATE (R296): Rotates the rig authority to the next OTP position under presence. -/
  | rigAuthRotate
  /-- RIG_INFO (R289): Reports the rig copies, positions, SVN and re-rig phase. -/
  | rigInfo
  /-- MBX_PUT (R327): Writes data into the staging buffer. -/
  | mbxPut
  /-- KEY_SET_ATTR (R306): Narrows a slot's usage, sets NON_EXPORTABLE or changes its OWNER. -/
  | keySetAttr
  /-- KEY_DESTROY (R307): Empties a range of slots. -/
  | keyDestroy
  /-- KEY_GET_PUBLIC (R328): Returns a slot's public key. -/
  | keyGetPublic (ue : SlotUe := .none)
  /-- KEY_ATTEST (R322): Returns a key-origin statement for a slot. -/
  | keyAttest (ue : SlotUe := .none)
  /-- VAULT_STORE (R314): Copies a slot's key into an empty vault entry, attribute word last. -/
  | vaultStore (ue : SlotUe := .none)
  /-- VAULT_LOAD (R315): Copies a vault entry into an empty slot. -/
  | vaultLoad
  /-- VAULT_ERASE (R315): Empties one vault entry. -/
  | vaultErase
  /-- VAULT_CLEAR (R315): Empties the vault and creates a new epoch. -/
  | vaultClear
  /-- VAULT_INFO (R328): Returns the 64 vault attribute words. -/
  | vaultInfo
  /-- GET_IDENTITY (R321): Returns the identity record. -/
  | getIdentity
  /-- ATTEST_IDENTITY (R323): Returns the identity-and-measurement statement. -/
  | attestIdentity
  /-- ZEROISE (R324): The mailbox command that asserts the zeroisation line. -/
  | zeroise
  /-- LC_STATUS (R403): Returns the life-cycle and debug status. -/
  | lcStatus
  /-- LC_ADVANCE (R390): Checks a life-cycle transition and waits for presence. -/
  | lcAdvance
  /-- DBG_CHALLENGE (R397): Issues a fresh debug challenge nonce. -/
  | dbgChallenge
  /-- DBG_OPEN (R398): Checks a debug certificate and waits for presence. -/
  | dbgOpen
  /-- DBG_CLOSE (R400): Ends every debug right at once. -/
  | dbgClose
  /-- DBG_SET_AUTH (R395): Programs the integrator's debug-authority position. -/
  | dbgSetAuth
  /-- DBG_REVOKE (R395): Raises DEBUG_MIN. -/
  | dbgRevoke
  /-- CHALLENGE_LAPSE (R397): An outstanding challenge lapses 600 s after it was issued. -/
  | challengeLapse
  /-- PRESENCE_TIMEOUT (R401): A presence wait ends after 60 s with PRESENCE. -/
  | presenceTimeout
  /-- RESTART (R457): Takes a warm or cold reset and clears BOOT_ATTEMPTS. -/
  | restart
  /-- BOOT_INFO (R457): Returns the reset, boot and copy-validity summary. -/
  | bootInfo
  /-- SHADOW_SWEEP (R427): The SC's periodic sweep compares the shadowed registers with their inverted shadows. -/
  | shadowSweep
  /-- TMP_RESUME (R415): RESUME returns a HALTED device to SERVICE, or is refused. -/
  | tmpResume
  /-- TMP_TIME_READ (R424): A read of TMP_TIME latches GEN_TIME into TMP_TIME_GEN. -/
  | tmpTimeRead
  /-- CONDITIONED_BLOCK (R334): A conditioned 256-bit block enters the entropy pool. -/
  | conditionedBlock (samples : Bytes := [])
  /-- RESEED_SERVED (R343): Pool output is served to the next waiting instantiation or reseed in priority order. -/
  | reseedServed
  /-- RESTART_COUNT_CLEAR (R347): After 10 s without a failure, FAILED_RESTARTS returns to 0. -/
  | restartCountClear
  /-- RNG_REARM (R350): REARM restarts a FAILED source. -/
  | rngRearm
  /-- RNG_RESTART (R352): A commanded restart of the entropy source. -/
  | rngRestart
  /-- DDR_FILL_GO (R379): Starts writing encrypted zeros over a range. -/
  | ddrFillGo
  /-- DDR_FILL_DONE (R379): The fill completes and FILL_DONE is set. -/
  | ddrFillDone
  /-- RST_CTRL_WARM (R433): RST_CTRL.WARM takes a warm reset. -/
  | rstCtrlWarm
  /-- RST_CTRL_COLD (R433): RST_CTRL.COLD takes a cold reset. -/
  | rstCtrlCold
  /-- SC_WATCHDOG_EXPIRY (R433): SC firmware has not serviced its watchdog for 1 s. -/
  | scWatchdogExpiry
  /-- SC_FATAL (R433): An SC fatal error takes a warm reset. -/
  | scFatal
  /-- DDR_INIT_DONE (R375): Cold-boot initialisation of every line ends and INIT_DONE is set. -/
  | ddrInitDone
  /-- START_TIMEOUT (R449): 15 s pass without the start reaching SERVICE. -/
  | startTimeout
  /-- BOOT_ATTEMPTS_CLEAR (R450): 60 s of service with no system reset clear BOOT_ATTEMPTS. -/
  | bootAttemptsClear
  /-- MAIN_POWER_ON (R469): VDD_IO reaches its range, and the device drives RESET_N and PLAT_HOLD_N low and begins its power-on sequence. -/
  | mainPowerOn
  /-- POR_RELEASE (R469): 10 ms after every rail is in range, the power-on reset releases and the cold start begins. -/
  | porRelease
  /-- MAIN_POWER_LOSS (R456): VDD_IO stays below 1.62 V for 1 µs and the AON switches to the backup cell. -/
  | mainPowerLoss
  /-- VBAT_APPLIED (R469): A backup cell is applied while the AON is unpowered, and the AON starts running from it and starts the crystal. -/
  | vbatApplied
  /-- AON_SUPPLY_LOSS (R433): The AON loses both main power and the backup cell, falls below its power-on threshold, and loses BBRAM and the lock flag. -/
  | aonSupplyLoss
  /-- CRYSTAL_START (R469): The 32.768 kHz oscillator starts, or restarts, so that the AON sampling and the POR count can proceed. -/
  | crystalStart
  /-- CRYSTAL_STOP (R479): The 32.768 kHz crystal stops, and sources 0 to 6 sample nothing until it restarts. -/
  | crystalStop
  deriving DecidableEq, Repr

end Sys2Proof
end

