-- ==== Sys2Proof/Machine/Bits.lean ====
section
/-! DEFINITION. Bit fields of registers, byte order of strings, saturating counters: the helpers every chapter's tables use. -/

namespace Sys2Proof.Machine

/-- The field `v[hi:lo]` as a number (R4). -/
def getF (v : DWord) (hi lo : Nat) : Nat := (v.toNat / 2 ^ lo) % 2 ^ (hi + 1 - lo)

/-- `v` with the field `[hi:lo]` holding `x`, taken to the field's width. -/
def setF (v : DWord) (hi lo x : Nat) : DWord :=
  BitVec.ofNat 64 (v.toNat - getF v hi lo * 2 ^ lo + (x % 2 ^ (hi + 1 - lo)) * 2 ^ lo)

/-- Bit `i` of a register. -/
def getB (v : DWord) (i : Nat) : Bool := v.toNat.testBit i

/-- A register with bit `i` set or cleared. -/
def setB (v : DWord) (i : Nat) (b : Bool) : DWord := setF v i i (if b then 1 else 0)

/-- The little-endian number in a byte string (R9). -/
def leNat : Bytes → Nat
  | [] => 0
  | b :: bs => b.toNat + 256 * leNat bs

/-- The big-endian number in a byte string (R9). -/
def beNat (bs : Bytes) : Nat := leNat bs.reverse

/-- `n` bytes of `x`, little-endian. -/
def leBytes : Nat → Nat → Bytes
  | 0, _ => []
  | n + 1, x => BitVec.ofNat 8 x :: leBytes n (x / 256)

/-- `n` bytes of `x`, big-endian. -/
def beBytes (n x : Nat) : Bytes := (leBytes n x).reverse

/-- Bytes `o` to `o + n - 1` of a string, zero beyond its end. -/
def slice (bs : Bytes) (o n : Nat) : Bytes := (List.range n).map (fun i => (bs[o + i]?).getD 0)

/-- The little-endian field of `n` bytes at `o`. -/
def leAt (bs : Bytes) (o n : Nat) : Nat := leNat (slice bs o n)

/-- Every byte of a string is zero. -/
def allZero (bs : Bytes) : Bool := bs.all (· == 0)

/-- `n` zero bytes. -/
def zeros (n : Nat) : Bytes := List.replicate n 0

/-- A string of exactly `n` bytes: cut, or padded with zeros. -/
def padTo (n : Nat) (bs : Bytes) : Bytes := slice bs 0 n

/-- A counter field of `w` bits that saturates. -/
def satAdd (w x d : Nat) : Nat := min (2 ^ w - 1) (x + d)

end Sys2Proof.Machine
end

