-- ==== Sys2Proof/Machine/Tables.lean ====
section
/-! DEFINITION. Sparse tables as lists of key and value, with a default for an absent key; memories of bytes in canonical form. -/

namespace Sys2Proof.Machine

/-- The value at a key, or the default. -/
def tget {α β : Type} [DecidableEq α] (d : β) (k : α) : List (α × β) → β
  | [] => d
  | (k', v) :: l => if k' = k then v else tget d k l

/-- The table with a value at a key. -/
def tset {α β : Type} [DecidableEq α] (k : α) (v : β) (l : List (α × β)) : List (α × β) :=
  (k, v) :: l.filter (fun e => e.1 ≠ k)

/-- The byte at an address of a memory whose unlisted bytes read zero (R363, R375). -/
def Memory.get (a : Nat) : List (Nat × Byte) → Byte
  | [] => 0
  | (k, v) :: l => if k = a then v else Memory.get a l

/-- Write a byte: the entries stay sorted and none holds zero. -/
def Memory.put (a : Nat) (b : Byte) : List (Nat × Byte) → List (Nat × Byte)
  | [] => if b = 0 then [] else [(a, b)]
  | (k, v) :: l =>
    if k < a then (k, v) :: Memory.put a b l
    else if k = a then (if b = 0 then l else (a, b) :: l)
    else if b = 0 then (k, v) :: l else (a, b) :: (k, v) :: l

/-- Write a byte string from an address on. -/
def Memory.write (a : Nat) : Bytes → List (Nat × Byte) → List (Nat × Byte)
  | [], m => m
  | b :: bs, m => Memory.write (a + 1) bs (Memory.put a b m)

/-- `n` bytes from an address on. -/
def Memory.read (a n : Nat) (m : List (Nat × Byte)) : Bytes := (List.range n).map (fun i => Memory.get (a + i) m)

/-- Zero every byte from `lo` up to and without `hi`. -/
def Memory.clear (lo hi : Nat) (m : List (Nat × Byte)) : List (Nat × Byte) :=
  m.filter (fun c => decide (c.1 < lo) || decide (hi ≤ c.1))

/-- The canonical form: addresses strictly rising, no entry zero. -/
def Memory.wf (m : List (Nat × Byte)) : Bool :=
  m.all (fun c => c.2 != 0) && (m.zip m.tail).all (fun p => decide (p.1.1 < p.2.1))

/-- `n` bytes of an opaque byte function. -/
def bytesOf (n : Nat) (f : Nat → Byte) : Bytes := (List.range n).map f

end Sys2Proof.Machine
end

