-- ==== Sys2Proof/Machine/Aes.lean ====
section
/-! DEFINITION. AES-256 (FIPS 197), AES-256-GCM (SP 800-38D) and AES-KWP (SP 800-38F), which the spec names for device blobs and
key wrapping (R136, R308, R316). Their texts are PRESUMED from those standards (log 6). -/

namespace Sys2Proof.Machine

/-- The S-box. -/
def aesSbox : List Nat :=
  [0x63, 0x7c, 0x77, 0x7b, 0xf2, 0x6b, 0x6f, 0xc5, 0x30, 0x1, 0x67, 0x2b, 0xfe, 0xd7, 0xab, 0x76, 0xca, 0x82, 0xc9, 0x7d, 0xfa, 0x59, 0x47, 0xf0, 0xad, 0xd4, 0xa2, 0xaf, 0x9c, 0xa4, 0x72, 0xc0] ++
  [0xb7, 0xfd, 0x93, 0x26, 0x36, 0x3f, 0xf7, 0xcc, 0x34, 0xa5, 0xe5, 0xf1, 0x71, 0xd8, 0x31, 0x15, 0x4, 0xc7, 0x23, 0xc3, 0x18, 0x96, 0x5, 0x9a, 0x7, 0x12, 0x80, 0xe2, 0xeb, 0x27, 0xb2, 0x75] ++
  [0x9, 0x83, 0x2c, 0x1a, 0x1b, 0x6e, 0x5a, 0xa0, 0x52, 0x3b, 0xd6, 0xb3, 0x29, 0xe3, 0x2f, 0x84, 0x53, 0xd1, 0x0, 0xed, 0x20, 0xfc, 0xb1, 0x5b, 0x6a, 0xcb, 0xbe, 0x39, 0x4a, 0x4c, 0x58, 0xcf] ++
  [0xd0, 0xef, 0xaa, 0xfb, 0x43, 0x4d, 0x33, 0x85, 0x45, 0xf9, 0x2, 0x7f, 0x50, 0x3c, 0x9f, 0xa8, 0x51, 0xa3, 0x40, 0x8f, 0x92, 0x9d, 0x38, 0xf5, 0xbc, 0xb6, 0xda, 0x21, 0x10, 0xff, 0xf3, 0xd2] ++
  [0xcd, 0xc, 0x13, 0xec, 0x5f, 0x97, 0x44, 0x17, 0xc4, 0xa7, 0x7e, 0x3d, 0x64, 0x5d, 0x19, 0x73, 0x60, 0x81, 0x4f, 0xdc, 0x22, 0x2a, 0x90, 0x88, 0x46, 0xee, 0xb8, 0x14, 0xde, 0x5e, 0xb, 0xdb] ++
  [0xe0, 0x32, 0x3a, 0xa, 0x49, 0x6, 0x24, 0x5c, 0xc2, 0xd3, 0xac, 0x62, 0x91, 0x95, 0xe4, 0x79, 0xe7, 0xc8, 0x37, 0x6d, 0x8d, 0xd5, 0x4e, 0xa9, 0x6c, 0x56, 0xf4, 0xea, 0x65, 0x7a, 0xae, 0x8] ++
  [0xba, 0x78, 0x25, 0x2e, 0x1c, 0xa6, 0xb4, 0xc6, 0xe8, 0xdd, 0x74, 0x1f, 0x4b, 0xbd, 0x8b, 0x8a, 0x70, 0x3e, 0xb5, 0x66, 0x48, 0x3, 0xf6, 0xe, 0x61, 0x35, 0x57, 0xb9, 0x86, 0xc1, 0x1d, 0x9e] ++
  [0xe1, 0xf8, 0x98, 0x11, 0x69, 0xd9, 0x8e, 0x94, 0x9b, 0x1e, 0x87, 0xe9, 0xce, 0x55, 0x28, 0xdf, 0x8c, 0xa1, 0x89, 0xd, 0xbf, 0xe6, 0x42, 0x68, 0x41, 0x99, 0x2d, 0xf, 0xb0, 0x54, 0xbb, 0x16]

/-- The S-box of a byte. -/
def aesSub (b : Byte) : Byte := BitVec.ofNat 8 ((aesSbox[b.toNat]?).getD 0)

/-- The inverse S-box of a byte. -/
def aesInvSub (b : Byte) : Byte := BitVec.ofNat 8 (aesSbox.idxOf b.toNat)

/-- Multiplication by x in the field of AES. -/
def aesX (b : Byte) : Byte := (b <<< 1) ^^^ (if b.msb then 0x1B else 0)

/-- A byte times a small constant. -/
def aesMul (k : Nat) (b : Byte) : Byte :=
  (if k.testBit 0 then b else 0) ^^^ (if k.testBit 1 then aesX b else 0) ^^^ (if k.testBit 2 then aesX (aesX b) else 0)
    ^^^ (if k.testBit 3 then aesX (aesX (aesX b)) else 0)

/-- Byte `i` of a string. -/
def at_ (bs : Bytes) (i : Nat) : Byte := (bs[i]?).getD 0

/-- The XOR of two strings of one length. -/
def xorB (a b : Bytes) : Bytes := List.zipWith (· ^^^ ·) a b

/-- The next words of the key schedule, newest first, from word `i` on. -/
def aesExpand : Nat → Nat → List Bytes → List Bytes
  | 0, _, ws => ws
  | n + 1, i, ws =>
    let t := (ws.head?).getD []
    let t := if i % 8 = 0 then
        xorB ([at_ t 1, at_ t 2, at_ t 3, at_ t 0].map aesSub) [BitVec.ofNat 8 (2 ^ (i / 8 - 1)), 0, 0, 0]
      else if i % 8 = 4 then t.map aesSub else t
    aesExpand n (i + 1) (xorB ((ws[7]?).getD []) t :: ws)

/-- The fifteen round keys of a 32-byte key. -/
def aesKeys (key : Bytes) : List Bytes :=
  let ws := (aesExpand 52 8 ((List.range 8).map (fun i => slice key (4 * i) 4)).reverse).reverse
  (List.range 15).map (fun r => ((ws.drop (4 * r)).take 4).flatten)

/-- ShiftRows, or its inverse. -/
def aesShift (inv : Bool) (a : Bytes) : Bytes :=
  (List.range 16).map (fun i => at_ a ((i % 4) + 4 * ((i / 4 + (if inv then 4 - i % 4 else i % 4)) % 4)))

/-- MixColumns with a first row of coefficients. -/
def aesMix (co : Nat × Nat × Nat × Nat) (a : Bytes) : Bytes :=
  (List.range 16).map (fun i =>
    let c (k : Nat) : Byte := at_ a (i / 4 * 4 + (i + k) % 4)
    aesMul co.1 (c 0) ^^^ aesMul co.2.1 (c 1) ^^^ aesMul co.2.2.1 (c 2) ^^^ aesMul co.2.2.2 (c 3))

/-- The rounds after the first key, under the remaining round keys. -/
def aesEncRounds : List Bytes → Bytes → Bytes
  | [], a => a
  | [k], a => xorB (aesShift false (a.map aesSub)) k
  | k :: ks, a => aesEncRounds ks (xorB (aesMix (2, 3, 1, 1) (aesShift false (a.map aesSub))) k)

/-- AES-256 encryption of a block under expanded keys. -/
def aesEnc (ks : List Bytes) (b : Bytes) : Bytes := match ks with
  | k :: r => aesEncRounds r (xorB b k)
  | [] => b

/-- The inverse rounds, under the round keys in reverse. -/
def aesDecRounds : List Bytes → Bytes → Bytes
  | [], a => a
  | [k], a => xorB ((aesShift true a).map aesInvSub) k
  | k :: ks, a => aesDecRounds ks (aesMix (14, 11, 13, 9) (xorB ((aesShift true a).map aesInvSub) k))

/-- AES-256 decryption of a block under expanded keys. -/
def aesDec (ks : List Bytes) (b : Bytes) : Bytes := match ks.reverse with
  | k :: r => aesDecRounds r (xorB b k)
  | [] => b

/-! ### XTS -/

/-- The tweak of the next block: times the generator, the first byte least significant. -/
def xtsNext (t : Bytes) : Bytes :=
  let n := leNat t
  leBytes 16 (2 * n % 2 ^ 128 ^^^ (if n < 2 ^ 127 then 0 else 0x87))

/-- Blocks through a cipher under running tweaks; `n` whole blocks. -/
def xtsBlocks (cipher : Bytes → Bytes) : Nat → Bytes → Bytes → Bytes
  | 0, _, _ => []
  | n + 1, t, bs => xorB (cipher (xorB (bs.take 16) t)) t ++ xtsBlocks cipher n (xtsNext t) (bs.drop 16)

/-- AES-256-XTS of whole blocks: the first key for the data, the second for the tweak. -/
def xts (decrypt : Bool) (key : Bytes) (tweak : Nat) (bs : Bytes) : Bytes :=
  let ks := aesKeys (key.take 32)
  xtsBlocks (if decrypt then aesDec ks else aesEnc ks) (bs.length / 16) (aesEnc (aesKeys (key.drop 32)) (leBytes 16 tweak)) bs

/-! ### GCM -/

/-- Product in the field of GHASH, most significant bit first, over the remaining bits of `x`. -/
def ghashMul : Nat → BitVec 128 → BitVec 128 → BitVec 128 → BitVec 128
  | 0, _, _, z => z
  | n + 1, x, v, z =>
    ghashMul n (x <<< 1) ((v >>> 1) ^^^ (if v.getLsbD 0 then 0xE1000000000000000000000000000000 else 0)) (if x.msb then z ^^^ v else z)

/-- GHASH over whole blocks. -/
def ghash (h : BitVec 128) : Nat → BitVec 128 → Bytes → BitVec 128
  | 0, y, _ => y
  | n + 1, y, bs => ghash h n (ghashMul 128 (y ^^^ BitVec.ofNat 128 (beNat (bs.take 16))) h 0) (bs.drop 16)

/-- A string padded with zeros to whole blocks. -/
def padBlocks (bs : Bytes) : Bytes := bs ++ zeros ((16 - bs.length % 16) % 16)

/-- Counter-mode output from counter value 2 on, XORed into a string. -/
def gcmCtr (ks : List Bytes) (iv bs : Bytes) : Bytes :=
  xorB bs ((List.range ((bs.length + 15) / 16)).flatMap (fun i => aesEnc ks (iv ++ beBytes 4 (i + 2))))

/-- The tag of a ciphertext and its additional data, under a 12-byte IV. -/
def gcmTag (ks : List Bytes) (iv aad ct : Bytes) : Bytes :=
  let h := BitVec.ofNat 128 (beNat (aesEnc ks (zeros 16)))
  let m := padBlocks aad ++ padBlocks ct ++ beBytes 8 (8 * aad.length) ++ beBytes 8 (8 * ct.length)
  xorB (beBytes 16 (ghash h (m.length / 16) 0 m).toNat) (aesEnc ks (iv ++ beBytes 4 1))

/-- AES-256-GCM: ciphertext and tag. -/
def gcmSeal (key iv aad pt : Bytes) : Bytes :=
  let ks := aesKeys key
  let ct := gcmCtr ks iv pt
  ct ++ gcmTag ks iv aad ct

/-- The plaintext of a ciphertext with its tag, if it authenticates. -/
def gcmOpen (key iv aad ct tag : Bytes) : Option Bytes :=
  let ks := aesKeys key
  if gcmTag ks iv aad ct = tag then some (gcmCtr ks iv ct) else none

/-! ### Key wrap with padding -/

/-- Step `t` of the wrapping function on the semiblock A and the others. -/
def wrapStep (ks : List Bytes) (t : Nat) (a : Bytes) (r : Bytes) : Bytes × Bytes :=
  let b := aesEnc ks (a ++ r)
  (xorB (b.take 8) (beBytes 8 t), b.drop 8)

/-- The wrapping function from step `t` on: semiblocks rotate through the queue. -/
def wrapLoop (ks : List Bytes) : Nat → Nat → Bytes → List Bytes → Bytes × List Bytes
  | 0, _, a, q => (a, q)
  | n + 1, t, a, q =>
    match q with
    | [] => (a, [])
    | r :: q => let (a', r') := wrapStep ks t a r; wrapLoop ks n (t + 1) a' (q ++ [r'])

/-- The inverse, from step `t` down. -/
def unwrapLoop (ks : List Bytes) : Nat → Bytes → List Bytes → Bytes × List Bytes
  | 0, a, q => (a, q)
  | t + 1, a, q =>
    match q.reverse with
    | [] => (a, [])
    | r :: q' =>
      let b := aesDec ks (xorB a (beBytes 8 (t + 1)) ++ r)
      unwrapLoop ks t (b.take 8) (b.drop 8 :: q'.reverse)

/-- The semiblocks of a string. -/
def semiblocks (bs : Bytes) : List Bytes := (List.range (bs.length / 8)).map (fun i => slice bs (8 * i) 8)

/-- AES-KWP of a plaintext. -/
def kwpWrap (key pt : Bytes) : Bytes :=
  let ks := aesKeys key
  let icv : Bytes := [0xA6, 0x59, 0x59, 0xA6] ++ beBytes 4 pt.length
  let p := pt ++ zeros ((8 - pt.length % 8) % 8)
  if p.length = 8 then aesEnc ks (icv ++ p)
  else let (a, q) := wrapLoop ks (6 * (p.length / 8)) 1 icv (semiblocks p); a ++ q.flatten

/-- The plaintext of an AES-KWP ciphertext, if its integrity check passes. -/
def kwpUnwrap (key ct : Bytes) : Option Bytes :=
  let ks := aesKeys key
  if ct.length < 16 ∨ ct.length % 8 ≠ 0 then none
  else
    let (a, p) :=
      if ct.length = 16 then let b := aesDec ks ct; (b.take 8, b.drop 8)
      else let (a, q) := unwrapLoop ks (6 * (ct.length / 8 - 1)) (ct.take 8) (semiblocks (ct.drop 8)); (a, q.flatten)
    let n := beNat (a.drop 4)
    if a.take 4 = [0xA6, 0x59, 0x59, 0xA6] ∧ n ≤ p.length ∧ p.length < n + 8 ∧ allZero (p.drop n) then some (p.take n) else none

end Sys2Proof.Machine
end

