-- ==== Sys2Proof/Machine/Hashes.lean ====
section
/-! DEFINITION. The hash functions the spec names: SHA-2 (FIPS 180-4), SHA-3 and SHAKE (FIPS 202), HMAC, and cSHAKE and KMAC
(SP 800-185). The spec gives only their names; their texts are PRESUMED from those standards (log 6). -/

namespace Sys2Proof.Machine

/-! ### Keccak -/

/-- Round constants of Keccak-f[1600]. -/
def keccakRC : List (BitVec 64) :=
  [0x1, 0x8082, 0x800000000000808a, 0x8000000080008000, 0x808b, 0x80000001, 0x8000000080008081, 0x8000000000008009, 0x8a, 0x88, 0x80008009, 0x8000000a, 0x8000808b, 0x800000000000008b, 0x8000000000008089, 0x8000000000008003] ++
  [0x8000000000008002, 0x8000000000000080, 0x800a, 0x800000008000000a, 0x8000000080008081, 0x8000000000008080, 0x80000001, 0x8000000080008008]

/-- Rotation of lane `x + 5y`. -/
def keccakRot : List Nat :=
  [0, 1, 62, 28, 27, 36, 44, 6, 55, 20, 3, 10, 43, 25, 39, 41, 45, 15, 21, 8, 18, 2, 61, 56, 14]

/-- Lane `i` of a Keccak state. -/
def lane (a : List DWord) (i : Nat) : DWord := (a[i]?).getD 0

/-- One round of Keccak-f[1600] with its round constant. -/
def keccakRound (a : List DWord) (rc : DWord) : List DWord :=
  let c := (List.range 5).map (fun x => lane a x ^^^ lane a (x + 5) ^^^ lane a (x + 10) ^^^ lane a (x + 15) ^^^ lane a (x + 20))
  let d := (List.range 5).map (fun x => lane c ((x + 4) % 5) ^^^ (lane c ((x + 1) % 5)).rotateLeft 1)
  let t := (List.range 25).map (fun i => lane a i ^^^ lane d (i % 5))
  -- lane (x, y) of the permuted state comes from lane (x + 3y, x)
  let b := (List.range 25).map (fun i =>
    let src := (i % 5 + 3 * (i / 5)) % 5 + 5 * (i % 5)
    (lane t src).rotateLeft ((keccakRot[src]?).getD 0))
  (List.range 25).map (fun i =>
    let y := 5 * (i / 5)
    let v := lane b i ^^^ ((~~~ lane b (y + (i + 1) % 5)) &&& lane b (y + (i + 2) % 5))
    if i = 0 then v ^^^ rc else v)

/-- Keccak-f[1600] on 25 lanes, lane `x + 5y`. -/
def keccakF (a : List DWord) : List DWord := keccakRC.foldl keccakRound a

/-- A fresh sponge state. -/
def keccakZero : List DWord := List.replicate 25 0

/-- XOR bytes into a state from byte `o` on. -/
def keccakXor (a : List DWord) (o : Nat) (bs : Bytes) : List DWord :=
  let x := leNat bs * 2 ^ (8 * o)
  a.zipIdx.map (fun e => e.1 ^^^ BitVec.ofNat 64 (x >>> (64 * e.2)))

/-- The bytes of a state. -/
def keccakBytes (a : List DWord) : Bytes := a.flatMap (fun l => leBytes 8 l.toNat)

/-- Absorb whole blocks of `r` bytes. -/
def keccakAbsorb (r : Nat) : Nat → List DWord → Bytes → List DWord
  | 0, a, _ => a
  | n + 1, a, bs => keccakAbsorb r n (keccakF (keccakXor a 0 (bs.take r))) (bs.drop r)

/-- Squeeze `n` blocks of `r` bytes. -/
def keccakSqueeze (r : Nat) : Nat → List DWord → Bytes
  | 0, _ => []
  | n + 1, a => (keccakBytes a).take r ++ keccakSqueeze r n (keccakF a)

/-- Padding with a domain suffix, to a multiple of `r` bytes. -/
def keccakPad (r : Nat) (suffix : Byte) (bs : Bytes) : Bytes :=
  let q := r - bs.length % r
  if q = 1 then bs ++ [suffix ||| 0x80] else bs ++ [suffix] ++ zeros (q - 2) ++ [0x80]

/-- The sponge of rate `r` bytes: `n` bytes of output. -/
def keccak (r : Nat) (suffix : Byte) (bs : Bytes) (n : Nat) : Bytes :=
  let m := keccakPad r suffix bs
  (keccakSqueeze r ((n + r - 1) / r) (keccakAbsorb r (m.length / r) keccakZero m)).take n

/-- SHA3 with an output of `n` bytes. -/
def sha3 (n : Nat) (bs : Bytes) : Bytes := keccak (200 - 2 * n) 0x06 bs n

/-- SHAKE128 (`c` = 32) or SHAKE256 (`c` = 64). -/
def shake (c : Nat) (bs : Bytes) (n : Nat) : Bytes := keccak (200 - c) 0x1F bs n

/-! ### SP 800-185 -/

/-- Bytes a length takes, at least one. -/
def sizeBytes (n : Nat) : Nat := if n < 256 then 1 else if n < 65536 then 2 else if n < 16777216 then 3 else if n < 2 ^ 32 then 4 else 8

/-- left_encode. -/
def leftEncode (n : Nat) : Bytes := BitVec.ofNat 8 (sizeBytes n) :: beBytes (sizeBytes n) n

/-- right_encode. -/
def rightEncode (n : Nat) : Bytes := beBytes (sizeBytes n) n ++ [BitVec.ofNat 8 (sizeBytes n)]

/-- encode_string. -/
def encodeString (bs : Bytes) : Bytes := leftEncode (8 * bs.length) ++ bs

/-- bytepad to a multiple of `w` bytes. -/
def bytepad (w : Nat) (bs : Bytes) : Bytes :=
  let x := leftEncode w ++ bs
  x ++ zeros ((w - x.length % w) % w)

/-- cSHAKE of function name `fn` and customisation `cs`; plain SHAKE when both are empty. -/
def cshake (c : Nat) (bs : Bytes) (n : Nat) (fn cs : Bytes) : Bytes :=
  if fn.isEmpty && cs.isEmpty then shake c bs n
  else keccak (200 - c) 0x04 (bytepad (200 - c) (encodeString fn ++ encodeString cs) ++ bs) n

/-- KMAC128 or KMAC256, `xof` for KMACXOF. -/
def kmac (c : Nat) (xof : Bool) (key bs : Bytes) (n : Nat) (cs : Bytes) : Bytes :=
  cshake c (bytepad (200 - c) (encodeString key) ++ bs ++ rightEncode (if xof then 0 else 8 * n)) n [0x4B, 0x4D, 0x41, 0x43] cs

/-! ### SHA-2 -/

/-- A table of `n` words of `w` bits, written as one number with word 0 lowest. -/
def wordTable (w : Nat) : Nat → Nat → List (BitVec w)
  | 0, _ => []
  | n + 1, x => BitVec.ofNat w x :: wordTable w n (x >>> w)

/-- Round constants of SHA-256. -/
def k256 : List (BitVec 32) :=
  wordTable 32 16 0xc19bf1749bdc06a780deb1fe72be5d74550c7dc3243185be12835b01d807aa98ab1c5ed5923f82a459f111f13956c25be9b5dba5b5c0fbcf71374491428a2f98 ++
  wordTable 32 16 0x1429296706ca6351d5a79147c6e00bf3bf597fc7b00327c8a831c66d983e515276f988da5cb0a9dc4a7484aa2de92c6f240ca1cc0fc19dc6efbe4786e49b69c1 ++
  wordTable 32 16 0x106aa070f40e3585d6990624d192e819c76c51a3c24b8b70a81a664ba2bfe8a192722c8581c2c92e766a0abb650a735453380d134d2c6dfc2e1b213827b70a85 ++
  wordTable 32 16 0xc67178f2bef9a3f7a4506ceb90befffa8cc7020884c8781478a5636f748f82ee682e6ff35b9cca4f4ed8aa4a391c0cb334b0bcb52748774c1e376c0819a4c116

/-- Round constants of SHA-512. -/
def k512 : List (BitVec 64) :=
  wordTable 64 8 0xab1c5ed5da6d8118923f82a4af194f9b59f111f1b605d0193956c25bf348b538e9b5dba58189dbbcb5c0fbcfec4d3b2f7137449123ef65cd428a2f98d728ae22 ++
  wordTable 64 8 0xc19bf174cf6926949bdc06a725c7123580deb1fe3b1696b172be5d74f27b896f550c7dc3d5ffb4e2243185be4ee4b28c12835b0145706fbed807aa98a3030242 ++
  wordTable 64 8 0x76f988da831153b55cb0a9dcbd41fbd44a7484aa6ea6e4832de92c6f592b0275240ca1cc77ac9c650fc19dc68b8cd5b5efbe4786384f25e3e49b69c19ef14ad2 ++
  wordTable 64 8 0x142929670a0e6e7006ca6351e003826fd5a79147930aa725c6e00bf33da88fc2bf597fc7beef0ee4b00327c898fb213fa831c66d2db43210983e5152ee66dfab ++
  wordTable 64 8 0x92722c851482353b81c2c92e47edaee6766a0abb3c77b2a8650a73548baf63de53380d139d95b3df4d2c6dfc5ac42aed2e1b21385c26c92627b70a8546d22ffc ++
  wordTable 64 8 0x106aa07032bbd1b8f40e35855771202ad69906245565a910d192e819d6ef5218c76c51a30654be30c24b8b70d0f89791a81a664bbc423001a2bfe8a14cf10364 ++
  wordTable 64 8 0x682e6ff3d6b2b8a35b9cca4f7763e3734ed8aa4ae3418acb391c0cb3c5c95a6334b0bcb5e19b48a82748774cdf8eeb991e376c085141ab5319a4c116b8d2d0c8 ++
  wordTable 64 8 0xc67178f2e372532bbef9a3f7b2c67915a4506cebde82bde990befffa23631e288cc702081a6439ec84c87814a1f0ab7278a5636f43172f60748f82ee5defb2fc ++
  wordTable 64 8 0x1b710b35131c471b113f9804bef90dae0a637dc5a2c898a606f067aa72176fbaf57d4f7fee6ed178eada7dd6cde0eb1ed186b8c721c0c207ca273eceea26619c ++
  wordTable 64 8 0x6c44198c4a4758175fcb6fab3ad6faec597f299cfc657e2a4cc5d4becb3e42b6431d67c49c100d4c3c9ebe0a15c9bebc32caab7b40c7249328db77f523047d84

/-- Initial value of SHA-224. -/
def iv224 : List (BitVec 32) :=
  wordTable 32 8 0xbefa4fa464f98fa768581511ffc00b31f70e59393070dd17367cd507c1059ed8

/-- Initial value of SHA-256. -/
def iv256 : List (BitVec 32) :=
  wordTable 32 8 0x5be0cd191f83d9ab9b05688c510e527fa54ff53a3c6ef372bb67ae856a09e667

/-- Initial value of SHA-384. -/
def iv384 : List (BitVec 64) :=
  wordTable 64 8 0x47b5481dbefa4fa4db0c2e0d64f98fa78eb44a876858151167332667ffc00b31152fecd8f70e59399159015a3070dd17629a292a367cd507cbbb9d5dc1059ed8

/-- Initial value of SHA-512. -/
def iv512 : List (BitVec 64) :=
  wordTable 64 8 0x5be0cd19137e21791f83d9abfb41bd6b9b05688c2b3e6c1f510e527fade682d1a54ff53a5f1d36f13c6ef372fe94f82bbb67ae8584caa73b6a09e667f3bcc908

/-- Initial value of SHA-512/224. -/
def iv512t224 : List (BitVec 64) :=
  wordTable 64 8 0x1112e6ad91d692a13f9d85a86a1d36c877e36f7304c489420f6d2b697bd44da8679dd514582f9fcf1dfab7ae32ff9c8273e1996689dcd4d68c3d37c819544da2

/-- Initial value of SHA-512/256. -/
def iv512t256 : List (BitVec 64) :=
  wordTable 64 8 0xeb72ddc81c52ca22b0199fc2c85b8aabe5e1e255386399296283ee2a88effe3963877195940eabd2393b86b6f53b1519f555fa3c84c64c222312194fc2bf72c

/-- Rotation counts of the four functions of a SHA-2 word width; the last count of the small ones is a shift. -/
def sha2Turns (w : Nat) : List (List Nat) :=
  if w = 32 then [[7, 18, 3], [17, 19, 10], [2, 13, 22], [6, 11, 25]] else [[1, 8, 7], [19, 61, 6], [28, 34, 39], [14, 18, 41]]

/-- Function `i` of SHA-2 on a word: the XOR of its turns. -/
def sha2Mix {w : Nat} (i : Nat) (x : BitVec w) : BitVec w :=
  (((sha2Turns w)[i]?).getD []).zipIdx.foldl
    (fun r e => r ^^^ (if i < 2 ∧ e.2 = 2 then x >>> e.1 else x.rotateRight e.1)) 0

/-- Word `i` of a list. -/
def wordAt {w : Nat} (l : List (BitVec w)) (i : Nat) : BitVec w := (l[i]?).getD 0

/-- The message words of a block after its first 16, as a list that is read at its head and grows at its end. -/
def sha2Next {w : Nat} (l : List (BitVec w)) : List (BitVec w) :=
  l.drop 1 ++ [wordAt l 0 + sha2Mix 0 (wordAt l 1) + wordAt l 9 + sha2Mix 1 (wordAt l 14)]

/-- One step. The working variables are kept as the last four values of the sequences `u` (a, b, c, d) and `v` (e, f, g, h),
newest first: a step appends one value to each and the oldest fall out. -/
def sha2Step {w : Nat} (k : BitVec w) (x : List (BitVec w) × List (BitVec w) × List (BitVec w)) :
    List (BitVec w) × List (BitVec w) × List (BitVec w) :=
  let (u, v, m) := x
  let t := k + wordAt m 0 + wordAt v 3 + sha2Mix 3 (wordAt v 0) + (wordAt v 2 ^^^ (wordAt v 0 &&& (wordAt v 1 ^^^ wordAt v 2)))
  let maj := (wordAt u 0 &&& (wordAt u 1 ||| wordAt u 2)) ||| (wordAt u 1 &&& wordAt u 2)
  ((maj + sha2Mix 2 (wordAt u 0) + t) :: u.take 3, (wordAt u 3 + t) :: v.take 3, sha2Next m)

/-- The chaining value after a block. -/
def sha2Fold {w : Nat} (k h : List (BitVec w)) (block : Bytes) : List (BitVec w) :=
  let (u, v, _) := k.foldl (fun x c => sha2Step c x) (h.take 4, h.drop 4, (wordTable w 16 (beNat block)).reverse)
  List.zipWith (· + ·) h (u ++ v)

/-- The chaining value after `n` blocks. -/
def sha2Chain {w : Nat} (k : List (BitVec w)) : Nat → Bytes → List (BitVec w) → List (BitVec w)
  | 0, _, h => h
  | n + 1, bs, h => sha2Chain k n (bs.drop (2 * w)) (sha2Fold k h (bs.take (2 * w)))

/-- SHA-2 of word width `w` with its constants: `n` bytes. -/
def sha2 {w : Nat} (k iv : List (BitVec w)) (n : Nat) (bs : Bytes) : Bytes :=
  let len := bs.length
  let blocks := (len + w / 4 + 2 * w) / (2 * w)
  let m := bs ++ 0x80 :: zeros (blocks * (2 * w) - len - 1 - w / 4) ++ beBytes (w / 4) (8 * len)
  ((sha2Chain k blocks m iv).flatMap (fun x => beBytes (w / 8) x.toNat)).take n

/-- Output length of a hash selector, and of SHAKE as a pre-hash (Table 03-3). -/
def hashLen (h : Nat) : Nat := match h with
  | 0x1 => 28 | 0x2 => 32 | 0x3 => 48 | 0x4 => 64 | 0x5 => 28 | 0x6 => 32
  | 0x7 => 28 | 0x8 => 32 | 0x9 => 48 | 0xA => 64 | 0xB => 32 | 0xC => 64 | _ => 0

/-- The hash of a selector of Table 03-3; SHAKE codes as a pre-hash. -/
def hashOf (h : Nat) (bs : Bytes) : Bytes := match h with
  | 0x1 => sha2 k256 iv224 28 bs
  | 0x2 => sha2 k256 iv256 32 bs
  | 0x3 => sha2 k512 iv384 48 bs
  | 0x4 => sha2 k512 iv512 64 bs
  | 0x5 => sha2 k512 iv512t224 28 bs
  | 0x6 => sha2 k512 iv512t256 32 bs
  | 0x7 => sha3 28 bs
  | 0x8 => sha3 32 bs
  | 0x9 => sha3 48 bs
  | 0xA => sha3 64 bs
  | 0xB => shake 32 bs 32
  | 0xC => shake 64 bs 64
  | _ => []

/-- Block length of a hash selector. -/
def hashBlock (h : Nat) : Nat := match h with
  | 0x1 | 0x2 => 64
  | 0x3 | 0x4 | 0x5 | 0x6 => 128
  | 0x7 => 144
  | 0x8 => 136
  | 0x9 => 104
  | 0xA => 72
  | 0xB => 168
  | _ => 136

/-- HMAC with a hash selector. -/
def hmac (h : Nat) (key bs : Bytes) : Bytes :=
  let b := hashBlock h
  let k := padTo b (if b < key.length then hashOf h key else key)
  hashOf h (k.map (· ^^^ 0x5C) ++ hashOf h (k.map (· ^^^ 0x36) ++ bs))

/-- MGF1. -/
def mgf1 (h : Nat) (seed : Bytes) (n : Nat) : Bytes :=
  ((List.range ((n + hashLen h - 1) / hashLen h)).flatMap (fun i => hashOf h (seed ++ beBytes 4 i))).take n

end Sys2Proof.Machine
end

