-- ==== Sys2Proof/Machine/Drbg.lean ====
section
/-! DEFINITION. CTR_DRBG with AES-256 and the derivation function, and the continuous health tests of a noise cell, as pure
functions (R336, R339, R341). -/

namespace Sys2Proof.Machine

/-! ### CTR_DRBG (SP 800-90A) -/

/-- The state of an instance: the 32 B key, then the 16 B counter V. -/
abbrev DrbgState := Bytes

/-- V advanced by one. -/
def ctrNext (v : Bytes) : Bytes := beBytes 16 ((beNat v + 1) % 2 ^ 128)

/-- `n` blocks of output from a counter, and the counter after them. -/
def ctrBlocks (ks : List Bytes) : Nat → Bytes → Bytes × Bytes
  | 0, v => ([], v)
  | n + 1, v =>
    let v := ctrNext v
    let (bs, last) := ctrBlocks ks n v
    (aesEnc ks v ++ bs, last)

/-- The update function: three blocks from the counter, combined with 48 B of provided data. -/
def drbgUpdate (x : DrbgState) (data : Bytes) : DrbgState :=
  xorB (ctrBlocks (aesKeys (x.take 32)) 3 (x.drop 32)).1 data

/-- The chained value of whole blocks under a key. -/
def bcc (ks : List Bytes) : Nat → Bytes → Bytes → Bytes
  | 0, c, _ => c
  | n + 1, c, bs => bcc ks n (aesEnc ks (xorB c (bs.take 16))) (bs.drop 16)

/-- The derivation function: 48 B from an input string. -/
def blockDf (input : Bytes) : Bytes :=
  let str := beBytes 4 input.length ++ beBytes 4 48 ++ input ++ [0x80]
  let str := str ++ zeros ((16 - str.length % 16) % 16)
  let ks := aesKeys ((List.range 32).map (BitVec.ofNat 8))
  let chain (i : Nat) : Bytes := bcc ks (str.length / 16 + 1) (zeros 16) (beBytes 4 i ++ zeros 12 ++ str)
  let t := chain 0 ++ chain 1 ++ chain 2
  let ks := aesKeys (t.take 32)
  let a := aesEnc ks (t.drop 32)
  let b := aesEnc ks a
  a ++ b ++ aesEnc ks b

/-- Instantiation from entropy, a nonce and a personalisation string. -/
def drbgInstantiate (entropy nonce pers : Bytes) : DrbgState := drbgUpdate (zeros 48) (blockDf (entropy ++ nonce ++ pers))

/-- A reseed, with no additional input. -/
def drbgReseed (x : DrbgState) (entropy : Bytes) : DrbgState := drbgUpdate x (blockDf entropy)

/-- One Generate call of `n` bytes, with no additional input. -/
def drbgGenerate (x : DrbgState) (n : Nat) : Bytes × DrbgState :=
  let (bs, v) := ctrBlocks (aesKeys (x.take 32)) ((n + 15) / 16) (x.drop 32)
  (padTo n bs, drbgUpdate (x.take 32 ++ v) (zeros 48))

/-! ### Continuous health tests (R336) -/

/-- The tests of one cell: the run in progress, the window in progress, and what a batch of samples has shown: the longest run, the
highest completed window, the latest completed window. -/
structure CellTest where
  last : Option Bool
  run : Nat
  first : Bool
  pos : Nat
  count : Nat
  rctMax : Nat
  aptMax : Nat
  aptLast : Option Nat
  deriving DecidableEq, Repr

/-- A cell after its reset. -/
def CellTest.fresh : CellTest := ⟨none, 0, false, 0, 0, 0, 0, none⟩

/-- One sample. -/
def CellTest.take (x : CellTest) (b : Bool) : CellTest :=
  let run := if x.last = some b then x.run + 1 else 1
  let first := if x.pos = 0 then b else x.first
  let count := if x.pos = 0 then 1 else if b = x.first then x.count + 1 else x.count
  let x := { x with last := some b, run := run, first := first, count := count, rctMax := max run x.rctMax }
  if x.pos + 1 = 1024 then { x with pos := 0, aptMax := max count x.aptMax, aptLast := some count } else { x with pos := x.pos + 1 }

/-- The test that a cell fails: 0 for a run of 76, 1 for a count of 861 in a window. -/
def CellTest.fails (x : CellTest) : Option Nat := if 76 ≤ x.run then some 0 else if 861 ≤ x.count then some 1 else none

end Sys2Proof.Machine
end

