-- ==== Sys2Proof/Config.lean ====
section
/-! DEFINITION. What an implementation fixes, and the free values: every one an opaque constant, so that no proof can see a
value of it. -/

namespace Sys2Proof.Config

/-- The ordering grade: true for FJ9640-E (R1, R24). -/
opaque gradeE : Bool

/-- Reset value of GEN_ID for the grade (R24). -/
def genIdReset : BitVec 64 := if gradeE then 0x96401100 else 0x96400100

/-- Henfatan's JEP106 code in IDCODE (R478); the spec gives no number. -/
opaque jep106 : BitVec 11

/-- Henfatan's MIPI manufacturer code in the provisional ID (R477); the spec gives no number. -/
opaque mipiCode : BitVec 15

/-- The I3C target's characteristics registers, BCR (0) and DCR (1) (R477); the spec gives no values. -/
opaque i3cCharacteristic : Nat → BitVec 8

/-- The computations the spec names without giving the algorithm, and what a computation that never ends would give (log 5):
the parts of HQC's public-key encryption, the primes of an RSA KEYGEN, and the value of a rejection loop that
no attempt ends. -/
inductive Prim where
  | hqcPk | hqcCt | hqcMsg | hqcK
  | rsaPrimes | endless
  deriving DecidableEq, Repr

/-- The byte string a computation gives for its arguments, byte by byte; its length is the model's. -/
opaque prim : Prim → List Bytes → Nat → Byte

/-- Data bits of word `a` of the control-store ROM; the spec gives the fields of a word but not the microcode (R202, log 6). -/
opaque romData : Nat → BitVec 152

/-- A micro-condition of a control-store word (Table 05-8): the outcome the counters give it, for instruction draw `c`, its COND
code and the count of words run before it (log 6). -/
opaque microCond : (c code step : Nat) → Bool

/-- The residue modulo `q` that a run of mask bytes gives; the spec says uniform, not how the bytes are reduced (R190, log 6). -/
opaque maskResidue : List (BitVec 8) → (q : Nat) → Nat

/-- The bit that enters a mesh register of the value given when it shifts: the spec gives the registers' length and no taps (R409,
log 74). -/
opaque meshFeedback : Nat → Bool

/-- Byte `i` of random draw number `c`: nothing constrains it (log 7). -/
opaque random : Nat → Nat → Byte

end Sys2Proof.Config
end

