-- ==== Sys2Proof/Machine/Regs.lean ====
section
/-! DEFINITION. The registers of every register map of the spec (BAR0 blocks of Table 01-5, the slice pages of BAR2, the two
mailbox channels): names, places, widths, reset values and field access codes, as the tables of the chapters give them. -/

namespace Sys2Proof.Machine

/-- Access codes of Table 00-3 (R6). -/
inductive Acc where | rw | ro | wo | w1c | w1s | rc
  deriving DecidableEq, Repr

/-- One field of a register, `NAME[hi:lo]` with its access code (R4, R6). -/
structure Field where
  hi : Nat
  lo : Nat
  acc : Acc
  deriving DecidableEq, Repr

/-- Where a register lies: BAR0, a slice page of BAR2, or a mailbox channel reached through BAR0 (channel 0) or I3C (channel 1). -/
inductive Space where | bar0 | bar2 | mbx (ch : Nat)
  deriving DecidableEq, Repr

/-- Every register the spec names; the arguments number the instance. -/
inductive Reg where
  /-- SLM_SLICE_CTRL (R46). -/
  | slmSliceCtrl (n : Nat)
  /-- SLM_SLICE_STAT (R46). -/
  | slmSliceStat (n : Nat)
  /-- SLM_SLICE_PASID (R46). -/
  | slmSlicePasid (n : Nat)
  /-- SLM_SLICE_DRBG (R46). -/
  | slmSliceDrbg (n : Nat)
  /-- SLM_SLICE_KEYWIN (R46). -/
  | slmSliceKeywin (n : Nat)
  /-- SLM_SLICE_POOLS (R46). -/
  | slmSlicePools (n : Nat)
  /-- SLM_SLICE_MSIX (R46). -/
  | slmSliceMsix (n : Nat)
  /-- SLM_SLICE_WEIGHT0 to SLM_SLICE_WEIGHT3 (R46). -/
  | slmSliceWeight (n : Nat) (m : Nat)
  /-- SLM_SLICE_RDE (R46). -/
  | slmSliceRde (n : Nat)
  /-- SLM_SLICE_DDR_BASE (R46). -/
  | slmSliceDdrBase (n : Nat)
  /-- SLM_SLICE_DDR_SIZE (R46). -/
  | slmSliceDdrSize (n : Nat)
  /-- SLM_SLICE_QERR (R46). -/
  | slmSliceQerr (n : Nat)
  /-- SLM_SLICE_DMAWINk_BASE (k = 0 to 3) (R46). -/
  | slmSliceDmawinBase (n : Nat) (j : Nat)
  /-- SLM_SLICE_DMAWINk_LIMIT (k = 0 to 3) (R46). -/
  | slmSliceDmawinLimit (n : Nat) (j : Nat)
  /-- SLM_SLICE_CANCEL_CNT (R46). -/
  | slmSliceCancelCnt (n : Nat)
  /-- SLM_PG_SQDBi (i = 0 to 63) (R47). -/
  | slmPgSqdb (n : Nat) (i : Nat)
  /-- SLM_PG_CQDBi (R47). -/
  | slmPgCqdb (n : Nat) (i : Nat)
  /-- SLM_PG_STATUS (R47). -/
  | slmPgStatus (n : Nat)
  /-- SLM_PG_QERR (R47). -/
  | slmPgQerr (n : Nat)
  /-- SLM_PG_QRESTART (R47). -/
  | slmPgQrestart (n : Nat)
  /-- SLM_PG_BOOT_SEQ (R47). -/
  | slmPgBootSeq (n : Nat)
  /-- SLM_PG_QINFOi (R47). -/
  | slmPgQinfo (n : Nat) (i : Nat)
  /-- QMG_Q_CTRL (R57). -/
  | qmgQCtrl (q : Nat)
  /-- QMG_Q_SIZE (R57). -/
  | qmgQSize (q : Nat)
  /-- QMG_Q_SQ_BASE (R57). -/
  | qmgQSqBase (q : Nat)
  /-- QMG_Q_CQ_BASE (R57). -/
  | qmgQCqBase (q : Nat)
  /-- QMG_Q_SQ_TAIL (R57). -/
  | qmgQSqTail (q : Nat)
  /-- QMG_Q_SQ_HEAD (R57). -/
  | qmgQSqHead (q : Nat)
  /-- QMG_Q_CQ_TAIL (R57). -/
  | qmgQCqTail (q : Nat)
  /-- QMG_Q_CQ_HEAD (R57). -/
  | qmgQCqHead (q : Nat)
  /-- QMG_Q_MOD (R57). -/
  | qmgQMod (q : Nat)
  /-- QMG_Q_RPT_HEAD (R57). -/
  | qmgQRptHead (q : Nat)
  /-- QMG_Q_ERR (R57). -/
  | qmgQErr (q : Nat)
  /-- QMG_Q_INFLIGHT (R57). -/
  | qmgQInflight (q : Nat)
  /-- QMG_Q_COMPLETED (R57). -/
  | qmgQCompleted (q : Nat)
  /-- FAB_MCLOGe_TIME (R171). -/
  | fabMclogTime (e : Nat)
  /-- FAB_MCLOGe_INFO (R171). -/
  | fabMclogInfo (e : Nat)
  /-- FAB_ISL_CTRL (R172). -/
  | fabIslCtrl (n : Nat)
  /-- FAB_ISL_STAT (R172). -/
  | fabIslStat (n : Nat)
  /-- FAB_ISL_MASKDRB (R172). -/
  | fabIslMaskdrb (n : Nat)
  /-- FAB_ISL_JOBS (R172). -/
  | fabIslJobs (n : Nat)
  /-- FAB_POOL_CFG (R173). -/
  | fabPoolCfg (p : Nat)
  /-- FAB_POOL_STAT (R173). -/
  | fabPoolStat (p : Nat)
  /-- FAB_POOL_CTRL (R173). -/
  | fabPoolCtrl (p : Nat)
  /-- FAB_POOL_DONE (R173). -/
  | fabPoolDone (p : Nat)
  /-- FAB_POOL_RETRY (R173). -/
  | fabPoolRetry (p : Nat)
  /-- FAB_TILE_STAT (R174). -/
  | fabTileStat (t : Nat)
  /-- FAB_TILE_CMD (R174). -/
  | fabTileCmd (t : Nat)
  /-- FAB_SHELL_MAP (R175). -/
  | fabShellMap (s : Nat)
  /-- TIL_STAT (R210). -/
  | tilStat (t : Nat)
  /-- TIL_PATCH_STAT (R210). -/
  | tilPatchStat (t : Nat)
  /-- TIL_SCRUB (R210). -/
  | tilScrub (t : Nat)
  /-- TIL_EXC_INFO (R210). -/
  | tilExcInfo (t : Nat)
  /-- TIL_EXC_ADDR (R210). -/
  | tilExcAddr (t : Nat)
  /-- TIL_KFAULT_CNT (R210). -/
  | tilKfaultCnt (t : Nat)
  /-- TIL_JOBS (R210). -/
  | tilJobs (t : Nat)
  /-- TIL_BUSY_TC (R210). -/
  | tilBusyTc (t : Nat)
  /-- TIL_KERNEL (R210). -/
  | tilKernel (t : Nat)
  /-- TIL_DBG_CTRL (R210). -/
  | tilDbgCtrl (t : Nat)
  /-- TIL_DBG_STAT (R210). -/
  | tilDbgStat (t : Nat)
  /-- TIL_DBG_BP0 (R210). -/
  | tilDbgBp0 (t : Nat)
  /-- TIL_DBG_BP1 (R210). -/
  | tilDbgBp1 (t : Nat)
  /-- TIL_DBG_WP (R210). -/
  | tilDbgWp (t : Nat)
  /-- TIL_DBG_RSEL (R210). -/
  | tilDbgRsel (t : Nat)
  /-- TIL_DBG_RDATA (R210). -/
  | tilDbgRdata (t : Nat)
  /-- HSF_PART_CFG (R246). -/
  | hsfPartCfg (k : Nat)
  /-- HSF_PART_KC (R246). -/
  | hsfPartKc (k : Nat)
  /-- HSF_PART_SHC (R246). -/
  | hsfPartShc (k : Nat)
  /-- HSF_PART_STAT (R246). -/
  | hsfPartStat (k : Nat)
  /-- HSF_PART_DONE (R246). -/
  | hsfPartDone (k : Nat)
  /-- RDE_CMD (R247). -/
  | rdeCmd (c : Nat)
  /-- RDE_STATUS (R247). -/
  | rdeStatus (c : Nat)
  /-- RDE_MODE (R247). -/
  | rdeMode (c : Nat)
  /-- RDE_KEY (R247). -/
  | rdeKey (c : Nat)
  /-- RDE_LEN (R247). -/
  | rdeLen (c : Nat)
  /-- RDE_COUNT (R247). -/
  | rdeCount (c : Nat)
  /-- RDE_DATA (R247). -/
  | rdeData (c : Nat)
  /-- RDE_FINISH (R247). -/
  | rdeFinish (c : Nat)
  /-- RDE_MSGS (R247). -/
  | rdeMsgs (c : Nat)
  /-- RDE_EXPECTk (k = 0 to 7) (R247). -/
  | rdeExpect (c : Nat) (j : Nat)
  /-- RDE_RESULTk (k = 0 to 7) (R247). -/
  | rdeResult (c : Nat) (j : Nat)
  /-- RDE_CTX_ID (R247). -/
  | rdeCtxId (c : Nat)
  /-- BNE_CORE_STATE (R269). -/
  | bneCoreState (c : Nat)
  /-- BNE_CORE_RES (R269). -/
  | bneCoreRes (c : Nat)
  /-- BNE_CORE_JOBS (R269). -/
  | bneCoreJobs (c : Nat)
  /-- BNE_CORE_BUSY (R269). -/
  | bneCoreBusy (c : Nat)
  /-- BNE_CORE_YIELDS (R269). -/
  | bneCoreYields (c : Nat)
  /-- BNE_GRP_CFG (R270). -/
  | bneGrpCfg (g : Nat)
  /-- BNE_GRP_STAT (R270). -/
  | bneGrpStat (g : Nat)
  /-- BNE_GRP_DONE (R270). -/
  | bneGrpDone (g : Nat)
  /-- MBX_CTRL (R332). -/
  | mbxCtrl (ch : Nat)
  /-- MBX_STATUS (R332). -/
  | mbxStatus (ch : Nat)
  /-- MBX_CMD (R332). -/
  | mbxCmd (ch : Nat)
  /-- MBX_REQ_LEN (R332). -/
  | mbxReqLen (ch : Nat)
  /-- MBX_RSP_LEN (R332). -/
  | mbxRspLen (ch : Nat)
  /-- MBX_DETAIL (R332). -/
  | mbxDetail (ch : Nat)
  /-- MBX_EVT_VECTOR (R332). -/
  | mbxEvtVector (ch : Nat)
  /-- MBX_SEQ (R332). -/
  | mbxSeq (ch : Nat)
  /-- MBX_REQ (R332). -/
  | mbxReq (ch : Nat) (i : Nat)
  /-- MBX_RSP (R332). -/
  | mbxRsp (ch : Nat) (i : Nat)
  /-- RNG_CELL_STAT (R355). -/
  | rngCellStat (k : Nat)
  /-- RNG_CELL_RCT_MAX (R355). -/
  | rngCellRctMax (k : Nat)
  /-- RNG_CELL_APT_MAX (R355). -/
  | rngCellAptMax (k : Nat)
  /-- RNG_CELL_SAMPLES (R355). -/
  | rngCellSamples (k : Nat)
  /-- RNG_DRB_STAT (R356). -/
  | rngDrbStat (k : Nat)
  /-- RNG_DRB_COUNT (R356). -/
  | rngDrbCount (k : Nat)
  /-- RNG_DRB_MAXCOUNT (R356). -/
  | rngDrbMaxcount (k : Nat)
  /-- RNG_DRB_RESEEDS (R356). -/
  | rngDrbReseeds (k : Nat)
  /-- RNG_DRB_REQS (R356). -/
  | rngDrbReqs (k : Nat)
  /-- MEM_BANK_OWNER (R382). -/
  | memBankOwner (b : Nat)
  /-- MEM_BANK_HANDOVER (R382). -/
  | memBankHandover (b : Nat)
  /-- MEM_BANK_APER (R382). -/
  | memBankAper (b : Nat)
  /-- MEM_BANK_VIOL (R382). -/
  | memBankViol (b : Nat)
  /-- MEM_BANK_CE (R382). -/
  | memBankCe (b : Nat)
  /-- MEM_BANK_UE (R382). -/
  | memBankUe (b : Nat)
  /-- TMP_SRC_CFG (R431). -/
  | tmpSrcCfg (k : Nat)
  /-- TMP_SRC_COUNT (R431). -/
  | tmpSrcCount (k : Nat)
  /-- TMP_SRC_LAST (R431). -/
  | tmpSrcLast (k : Nat)
  /-- TMP_LOGe_Wj (R432). -/
  | tmpLogWord (e : Nat) (j : Nat)
  /-- GEN_ID (R24). -/
  | genId
  /-- GEN_CAP (R24). -/
  | genCap
  /-- GEN_STATE (R24). -/
  | genState
  /-- GEN_TIME (R24). -/
  | genTime
  /-- GEN_BOOT_SEQ (R24). -/
  | genBootSeq
  /-- GEN_RETRY_CNT (R24). -/
  | genRetryCnt
  /-- GEN_ABORT_CNT (R24). -/
  | genAbortCnt
  /-- GEN_XING_QUIET (R24). -/
  | genXingQuiet
  /-- GEN_XING_TMO (R24). -/
  | genXingTmo
  /-- FAB_CAP (R170). -/
  | fabCap
  /-- FAB_EVT_VECTOR (R170). -/
  | fabEvtVector
  /-- FAB_EVT_STATUS (R170). -/
  | fabEvtStatus
  /-- FAB_EVT_ENABLE (R170). -/
  | fabEvtEnable
  /-- FAB_INSVC_LO (R170). -/
  | fabInsvcLo
  /-- FAB_INSVC_HI (R170). -/
  | fabInsvcHi
  /-- FAB_SPARE_LO (R170). -/
  | fabSpareLo
  /-- FAB_SPARE_HI (R170). -/
  | fabSpareHi
  /-- FAB_RETIRED_LO (R170). -/
  | fabRetiredLo
  /-- FAB_RETIRED_HI (R170). -/
  | fabRetiredHi
  /-- FAB_MC_LIMIT (R170). -/
  | fabMcLimit
  /-- FAB_CE_COUNT (R170). -/
  | fabCeCount
  /-- FAB_MC_COUNT (R170). -/
  | fabMcCount
  /-- FAB_MCLOG_HEAD (R170). -/
  | fabMclogHead
  /-- HSF_CAP (R245). -/
  | hsfCap
  /-- HSF_EVT_VECTOR (R245). -/
  | hsfEvtVector
  /-- HSF_EVT_STATUS (R245). -/
  | hsfEvtStatus
  /-- HSF_EVT_ENABLE (R245). -/
  | hsfEvtEnable
  /-- HSF_KC_INSVC (R245). -/
  | hsfKcInsvc
  /-- HSF_SHC_INSVC (R245). -/
  | hsfShcInsvc
  /-- HSF_KC_RETIRED (R245). -/
  | hsfKcRetired
  /-- HSF_SHC_RETIRED (R245). -/
  | hsfShcRetired
  /-- HSF_CORE_CMD (R245). -/
  | hsfCoreCmd
  /-- HSF_CORE_STAT (R245). -/
  | hsfCoreStat
  /-- HSF_MC_COUNT (R245). -/
  | hsfMcCount
  /-- HSF_MEMO_BASE (R245). -/
  | hsfMemoBase
  /-- HSF_MEMO_SIZE (R245). -/
  | hsfMemoSize
  /-- HSF_MEMO_USED (R245). -/
  | hsfMemoUsed
  /-- HSF_MEMO_REBUILT (R245). -/
  | hsfMemoRebuilt
  /-- HSF_SCTR_SEL (R245). -/
  | hsfSctrSel
  /-- HSF_SCTR_LIMIT (R245). -/
  | hsfSctrLimit
  /-- HSF_SCTR_NEXT (R245). -/
  | hsfSctrNext
  /-- HSF_SCTR_INFO (R245). -/
  | hsfSctrInfo
  /-- HSF_SCTR_CAPACITY (R245). -/
  | hsfSctrCapacity
  /-- HSF_SCTR_WAITS (R245). -/
  | hsfSctrWaits
  /-- BNE_CAP (R268). -/
  | bneCap
  /-- BNE_EVT_VECTOR (R268). -/
  | bneEvtVector
  /-- BNE_EVT_STATUS (R268). -/
  | bneEvtStatus
  /-- BNE_EVT_ENABLE (R268). -/
  | bneEvtEnable
  /-- BNE_CTRL (R268). -/
  | bneCtrl
  /-- BNE_RES_QUOTA (R268). -/
  | bneResQuota
  /-- BNE_CORE_CMD (R268). -/
  | bneCoreCmd
  /-- BNE_CORE_RESULT (R268). -/
  | bneCoreResult
  /-- BNE_MC_COUNT (R268). -/
  | bneMcCount
  /-- BNE_YIELD_COUNT (R268). -/
  | bneYieldCount
  /-- BNE_HANDLES_LOST (R268). -/
  | bneHandlesLost
  /-- KEY_CAP (R331). -/
  | keyCap
  /-- KEY_STATE (R331). -/
  | keyState
  /-- KEY_EPOCH_ID (R331). -/
  | keyEpochId
  /-- KEY_SLOT_SEL (R331). -/
  | keySlotSel
  /-- KEY_SLOT_ATTR (R331). -/
  | keySlotAttr
  /-- KEY_USED (R331). -/
  | keyUsed
  /-- KEY_SHADOW_ERR (R331). -/
  | keyShadowErr
  /-- KEY_HMAC_HITS (R331). -/
  | keyHmacHits
  /-- KEY_HMAC_MISSES (R331). -/
  | keyHmacMisses
  /-- KEY_EXT_BASE (R331). -/
  | keyExtBase
  /-- KEY_VAULT_MAP (R331). -/
  | keyVaultMap
  /-- KEY_VAULT_SEL (R331). -/
  | keyVaultSel
  /-- KEY_VAULT_ATTR (R331). -/
  | keyVaultAttr
  /-- RNG_CAP (R354). -/
  | rngCap
  /-- RNG_CTRL (R354). -/
  | rngCtrl
  /-- RNG_STATUS (R354). -/
  | rngStatus
  /-- RNG_EVT_VECTOR (R354). -/
  | rngEvtVector
  /-- RNG_EVT_STATUS (R354). -/
  | rngEvtStatus
  /-- RNG_EVT_ENABLE (R354). -/
  | rngEvtEnable
  /-- RNG_HT_FAILS (R354). -/
  | rngHtFails
  /-- RNG_FAIL_INFO (R354). -/
  | rngFailInfo
  /-- RNG_FAIL_TIME (R354). -/
  | rngFailTime
  /-- RNG_RESEEDS (R354). -/
  | rngReseeds
  /-- RNG_PR_COUNT (R354). -/
  | rngPrCount
  /-- MEM_CAP (R382). -/
  | memCap
  /-- MEM_EVT_VECTOR (R382). -/
  | memEvtVector
  /-- MEM_EVT_STATUS (R382). -/
  | memEvtStatus
  /-- MEM_EVT_ENABLE (R382). -/
  | memEvtEnable
  /-- MEM_SRAM_CE (R382). -/
  | memSramCe
  /-- MEM_SRAM_UE (R382). -/
  | memSramUe
  /-- DDR_CAP (R383). -/
  | ddrCap
  /-- DDR_STAT (R383). -/
  | ddrStat
  /-- DDR_USABLE (R383). -/
  | ddrUsable
  /-- DDR_SLICE_BASE (R383). -/
  | ddrSliceBase
  /-- DDR_SLICE_LIMIT (R383). -/
  | ddrSliceLimit
  /-- DDR_EVT_VECTOR (R383). -/
  | ddrEvtVector
  /-- DDR_EVT_STATUS (R383). -/
  | ddrEvtStatus
  /-- DDR_EVT_ENABLE (R383). -/
  | ddrEvtEnable
  /-- DDR_CE_COUNT (R383). -/
  | ddrCeCount
  /-- DDR_UE_COUNT (R383). -/
  | ddrUeCount
  /-- DDR_UE_ADDR (R383). -/
  | ddrUeAddr
  /-- DDR_SCRUB_CTRL (R383). -/
  | ddrScrubCtrl
  /-- DDR_SCRUB_LAST (R383). -/
  | ddrScrubLast
  /-- DDR_FILL_BASE (R383). -/
  | ddrFillBase
  /-- DDR_FILL_LEN (R383). -/
  | ddrFillLen
  /-- DDR_FILL_CTRL (R383). -/
  | ddrFillCtrl
  /-- DDR_MC_CAUSE (R383). -/
  | ddrMcCause
  /-- LCS_STATE (R406). -/
  | lcsState
  /-- LCS_OTP_GROUP (R406). -/
  | lcsOtpGroup
  /-- LCS_SECRET (R406). -/
  | lcsSecret
  /-- LCS_MIN (R406). -/
  | lcsMin
  /-- LCS_PP (R406). -/
  | lcsPp
  /-- DBG_RIGHTS (R406). -/
  | dbgRights
  /-- DBG_STAT (R406). -/
  | dbgStat
  /-- DBG_AUTH_H_ID (R406). -/
  | dbgAuthHId
  /-- DBG_AUTH_I_ID (R406). -/
  | dbgAuthIId
  /-- DBG_OPEN_TIME (R406). -/
  | dbgOpenTime
  /-- DBG_CHAL_EXPIRY (R406). -/
  | dbgChalExpiry
  /-- DBG_OPENS (R406). -/
  | dbgOpens
  /-- TMP_CAP (R430). -/
  | tmpCap
  /-- TMP_EVT_VECTOR (R430). -/
  | tmpEvtVector
  /-- TMP_ALARM (R430). -/
  | tmpAlarm
  /-- TMP_ACTIVE (R430). -/
  | tmpActive
  /-- TMP_STATUS (R430). -/
  | tmpStatus
  /-- TMP_CTRL (R430). -/
  | tmpCtrl
  /-- TMP_VDD (R430). -/
  | tmpVdd
  /-- TMP_DIP_COUNT (R430). -/
  | tmpDipCount
  /-- TMP_DIP_LONGEST (R430). -/
  | tmpDipLongest
  /-- TMP_TEMP (R430). -/
  | tmpTemp
  /-- TMP_TEMP_CTRL (R430). -/
  | tmpTempCtrl
  /-- TMP_MAG (R430). -/
  | tmpMag
  /-- TMP_CLK (R430). -/
  | tmpClk
  /-- TMP_TIME (R430). -/
  | tmpTime
  /-- TMP_TIME_GEN (R430). -/
  | tmpTimeGen
  /-- TMP_INTEG_COUNT (R430). -/
  | tmpIntegCount
  /-- TMP_LOG_HEAD (R430). -/
  | tmpLogHead
  /-- TMP_LOG_SEQ (R430). -/
  | tmpLogSeq
  /-- RST_CAUSE (R460). -/
  | rstCause
  /-- RST_LINK (R460). -/
  | rstLink
  /-- RST_BOOT (R460). -/
  | rstBoot
  /-- RST_CTRL (R460). -/
  | rstCtrl
  /-- RST_BLOCK (R460). -/
  | rstBlock
  /-- RST_BLOCK_STAT (R460). -/
  | rstBlockStat
  /-- RST_START_US (R460). -/
  | rstStartUs
  /-- RST_SERVICE_NS (R460). -/
  | rstServiceNs
  /-- RST_WARM_COUNT (R460). -/
  | rstWarmCount
  /-- PWR_STATE (R460). -/
  | pwrState
  /-- PWR_MW (R460). -/
  | pwrMw
  /-- PWR_MW_PEAK (R460). -/
  | pwrMwPeak
  /-- PWR_RAILS (R460). -/
  | pwrRails
  /-- PWR_STBY_COUNT (R460). -/
  | pwrStbyCount
  /-- PWR_STBY_EXIT_US (R460). -/
  | pwrStbyExitUs
  deriving DecidableEq, Repr

/-- Width in bits (R4). -/
def Reg.width (r : Reg) : Nat :=
  match r with
  | .slmSliceKeywin _ => 64
  | .slmSliceWeight _ _ => 64
  | .slmSliceDdrBase _ => 64
  | .slmSliceDdrSize _ => 64
  | .slmSliceQerr _ => 64
  | .slmSliceDmawinBase _ _ => 64
  | .slmSliceDmawinLimit _ _ => 64
  | .slmPgSqdb _ _ => 64
  | .slmPgCqdb _ _ => 64
  | .slmPgQerr _ => 64
  | .slmPgQinfo _ _ => 64
  | .qmgQSqBase _ => 64
  | .qmgQCqBase _ => 64
  | .qmgQCompleted _ => 64
  | .fabMclogTime _ => 64
  | .fabMclogInfo _ => 64
  | .fabIslJobs _ => 64
  | .fabPoolCfg _ => 64
  | .fabPoolDone _ => 64
  | .fabShellMap _ => 64
  | .tilPatchStat _ => 64
  | .tilScrub _ => 64
  | .tilExcInfo _ => 64
  | .tilJobs _ => 64
  | .tilBusyTc _ => 64
  | .tilDbgWp _ => 64
  | .tilDbgRdata _ => 64
  | .hsfPartKc _ => 64
  | .hsfPartShc _ => 64
  | .hsfPartDone _ => 64
  | .rdeLen _ => 64
  | .rdeCount _ => 64
  | .rdeData _ => 64
  | .rdeFinish _ => 64
  | .rdeExpect _ _ => 64
  | .rdeResult _ _ => 64
  | .bneCoreJobs _ => 64
  | .bneCoreBusy _ => 64
  | .bneGrpDone _ => 64
  | .mbxReq _ _ => 64
  | .mbxRsp _ _ => 64
  | .rngCellSamples _ => 64
  | .rngDrbReseeds _ => 64
  | .rngDrbReqs _ => 64
  | .memBankAper _ => 64
  | .tmpSrcLast _ => 64
  | .tmpLogWord _ _ => 64
  | .genCap => 64
  | .genTime => 64
  | .fabInsvcLo => 64
  | .fabInsvcHi => 64
  | .fabSpareLo => 64
  | .fabSpareHi => 64
  | .fabRetiredLo => 64
  | .fabRetiredHi => 64
  | .hsfKcInsvc => 64
  | .hsfShcInsvc => 64
  | .hsfKcRetired => 64
  | .hsfShcRetired => 64
  | .hsfMemoBase => 64
  | .hsfMemoSize => 64
  | .hsfMemoUsed => 64
  | .hsfSctrLimit => 64
  | .hsfSctrNext => 64
  | .hsfSctrCapacity => 64
  | .keySlotAttr => 64
  | .keyExtBase => 64
  | .keyVaultMap => 64
  | .keyVaultAttr => 64
  | .rngFailTime => 64
  | .rngReseeds => 64
  | .ddrUsable => 64
  | .ddrSliceBase => 64
  | .ddrSliceLimit => 64
  | .ddrUeAddr => 64
  | .ddrScrubLast => 64
  | .ddrFillBase => 64
  | .ddrFillLen => 64
  | .dbgOpenTime => 64
  | .dbgChalExpiry => 64
  | .tmpVdd => 64
  | .tmpTime => 64
  | .tmpTimeGen => 64
  | .rstServiceNs => 64
  | _ => 32

/-- Reset value; a field whose value comes from the rig, OTP, BBRAM or AON reads 0 until it is set (log 8). -/
def Reg.resetVal (r : Reg) : BitVec 64 :=
  match r with
  | .slmSliceDmawinBase _ _ => 0xFFFFFFFFFFFFF000
  | .slmSliceWeight _ _ => 0x0101010101010101
  | .qmgQSize _ => 0x00000040
  | .qmgQCqTail _ => 0x00010000
  | .qmgQMod _ => 0x00000001
  | .fabIslStat _ => 0x00000030
  | .rdeMode _ => 0x00000002
  | .rdeCtxId c => BitVec.ofNat 64 c
  | .genId => Sys2Proof.Config.genIdReset
  | .genCap => 0x0000000002008860
  | .genXingQuiet => 0x0003FFFF
  | .fabCap => 0x0F20C860
  | .fabEvtEnable => 0x000000FF
  | .hsfCap => 0x10084040
  | .hsfEvtEnable => 0x0000003F
  | .bneCap => 0x00601008
  | .bneEvtEnable => 0x0000001F
  | .bneCtrl => 0x00000001
  | .bneResQuota => 0x00000008
  | .keyCap => 0x01020000
  | .rngCap => 0x00000104
  | .rngEvtEnable => 0x0000003F
  | .memCap => 0x4A000410
  | .memEvtEnable => 0x0000000F
  | .ddrCap => 0x25800008
  | .ddrEvtEnable => 0x0000000F
  | .ddrScrubCtrl => 0x00000118
  | .tmpCap => 0x00200012
  | .tmpVdd => 0x00000000000002BC
  | .tmpSrcCfg k =>  -- the floors of Table 13-1 (R407, R431)
    let fl := (([5, 5, 5, 5, 5, 5, 1, 2, 1, 1, 4, 4, 2, 4, 4, 1, 3, 2] : List Nat)[k]?).getD 0
    BitVec.ofNat 64 (fl + fl * 2 ^ 8 + (if k < 8 then 2 ^ 12 else 0))
  | .tmpTempCtrl => 0x00000001
  | _ => 0

/-- Fields with their access codes; bits no field covers are reserved (R7). -/
def Reg.fields (r : Reg) : List Field :=
  match r with
  | .slmSliceCtrl _ => [⟨0, 0, .rw⟩, ⟨1, 1, .rw⟩, ⟨2, 2, .wo⟩, ⟨3, 3, .rw⟩, ⟨4, 4, .rw⟩]
  | .slmSliceStat _ => [⟨2, 0, .ro⟩, ⟨15, 8, .ro⟩, ⟨26, 16, .ro⟩]
  | .slmSlicePasid _ => [⟨19, 0, .rw⟩, ⟨31, 31, .rw⟩]
  | .slmSliceDrbg _ => [⟨3, 0, .rw⟩]
  | .slmSliceKeywin _ => [⟨16, 0, .rw⟩, ⟨49, 32, .rw⟩]
  | .slmSlicePools _ => [⟨31, 0, .rw⟩]
  | .slmSliceMsix _ => [⟨2, 0, .rw⟩]
  | .slmSliceWeight _ _ => [⟨7, 0, .rw⟩, ⟨15, 8, .rw⟩, ⟨23, 16, .rw⟩, ⟨31, 24, .rw⟩, ⟨39, 32, .rw⟩, ⟨47, 40, .rw⟩, ⟨55, 48, .rw⟩, ⟨63, 56, .rw⟩]
  | .slmSliceRde _ => [⟨3, 0, .rw⟩, ⟨4, 4, .rw⟩]
  | .slmSliceDdrBase _ => [⟨35, 12, .rw⟩]
  | .slmSliceDdrSize _ => [⟨36, 12, .rw⟩]
  | .slmSliceQerr _ => [⟨63, 0, .ro⟩]
  | .slmSliceDmawinBase _ _ => [⟨63, 12, .rw⟩]
  | .slmSliceDmawinLimit _ _ => [⟨63, 12, .rw⟩]
  | .slmSliceCancelCnt _ => [⟨31, 0, .rc⟩]
  | .slmPgSqdb _ _ => [⟨15, 0, .rw⟩]
  | .slmPgCqdb _ _ => [⟨15, 0, .rw⟩]
  | .slmPgStatus _ => [⟨2, 0, .ro⟩, ⟨26, 16, .ro⟩]
  | .slmPgQerr _ => [⟨63, 0, .ro⟩]
  | .slmPgQrestart _ => [⟨5, 0, .wo⟩]
  | .slmPgBootSeq _ => [⟨31, 0, .ro⟩]
  | .slmPgQinfo _ _ => [⟨7, 0, .ro⟩, ⟨9, 8, .ro⟩, ⟨31, 16, .ro⟩, ⟨47, 32, .ro⟩, ⟨48, 48, .ro⟩, ⟨58, 56, .ro⟩]
  | .qmgQCtrl _ => [⟨0, 0, .rw⟩, ⟨1, 1, .rw⟩, ⟨2, 2, .rw⟩, ⟨3, 3, .wo⟩, ⟨5, 4, .rw⟩, ⟨10, 8, .ro⟩]
  | .qmgQSize _ => [⟨16, 0, .rw⟩]
  | .qmgQSqBase _ => [⟨63, 12, .rw⟩]
  | .qmgQCqBase _ => [⟨63, 12, .rw⟩]
  | .qmgQSqTail _ => [⟨15, 0, .ro⟩]
  | .qmgQSqHead _ => [⟨15, 0, .ro⟩]
  | .qmgQCqTail _ => [⟨15, 0, .ro⟩, ⟨16, 16, .ro⟩]
  | .qmgQCqHead _ => [⟨15, 0, .ro⟩]
  | .qmgQMod _ => [⟨8, 0, .rw⟩, ⟨25, 16, .rw⟩]
  | .qmgQRptHead _ => [⟨15, 0, .ro⟩, ⟨31, 31, .ro⟩]
  | .qmgQErr _ => [⟨7, 0, .ro⟩, ⟨9, 8, .ro⟩, ⟨31, 16, .ro⟩]
  | .qmgQInflight _ => [⟨10, 0, .ro⟩]
  | .qmgQCompleted _ => [⟨63, 0, .ro⟩]
  | .fabMclogTime _ => [⟨63, 0, .ro⟩]
  | .fabMclogInfo _ => [⟨6, 0, .ro⟩, ⟨11, 8, .ro⟩, ⟨22, 16, .ro⟩, ⟨28, 24, .ro⟩, ⟨34, 32, .ro⟩, ⟨51, 40, .ro⟩, ⟨53, 52, .ro⟩, ⟨63, 63, .ro⟩]
  | .fabIslCtrl _ => [⟨1, 0, .rw⟩, ⟨4, 4, .rw⟩]
  | .fabIslStat _ => [⟨1, 0, .ro⟩, ⟨3, 2, .ro⟩, ⟨6, 4, .ro⟩, ⟨19, 8, .ro⟩]
  | .fabIslMaskdrb _ => [⟨3, 0, .ro⟩]
  | .fabIslJobs _ => [⟨63, 0, .ro⟩]
  | .fabPoolCfg _ => [⟨1, 0, .ro⟩, ⟨5, 4, .ro⟩, ⟨7, 6, .ro⟩, ⟨9, 8, .ro⟩, ⟨10, 10, .ro⟩, ⟨22, 16, .ro⟩, ⟨40, 32, .ro⟩]
  | .fabPoolStat _ => [⟨6, 0, .ro⟩, ⟨14, 8, .ro⟩, ⟨18, 16, .ro⟩]
  | .fabPoolCtrl _ => [⟨0, 0, .rw⟩]
  | .fabPoolDone _ => [⟨63, 0, .ro⟩]
  | .fabPoolRetry _ => [⟨31, 0, .rc⟩]
  | .fabTileStat _ => [⟨2, 0, .ro⟩, ⟨14, 8, .ro⟩, ⟨15, 15, .ro⟩, ⟨19, 16, .ro⟩, ⟨23, 20, .ro⟩, ⟨25, 24, .ro⟩, ⟨26, 26, .ro⟩, ⟨30, 28, .ro⟩]
  | .fabTileCmd _ => [⟨1, 0, .wo⟩]
  | .fabShellMap _ => [⟨11, 0, .ro⟩, ⟨14, 12, .ro⟩, ⟨20, 16, .ro⟩, ⟨26, 24, .ro⟩, ⟨38, 32, .ro⟩]
  | .tilStat _ => [⟨0, 0, .ro⟩, ⟨1, 1, .ro⟩, ⟨2, 2, .ro⟩, ⟨20, 8, .ro⟩]
  | .tilPatchStat _ => [⟨0, 0, .ro⟩, ⟨1, 1, .ro⟩, ⟨13, 8, .ro⟩, ⟨31, 16, .ro⟩, ⟨38, 32, .ro⟩, ⟨50, 40, .ro⟩]
  | .tilScrub _ => [⟨63, 0, .ro⟩]
  | .tilExcInfo _ => [⟨3, 0, .ro⟩, ⟨4, 4, .ro⟩, ⟨5, 5, .ro⟩, ⟨17, 8, .ro⟩, ⟨32, 20, .ro⟩, ⟨51, 40, .ro⟩, ⟨52, 52, .ro⟩, ⟨63, 63, .w1c⟩]
  | .tilExcAddr _ => [⟨17, 0, .ro⟩]
  | .tilKfaultCnt _ => [⟨31, 0, .rc⟩]
  | .tilJobs _ => [⟨63, 0, .ro⟩]
  | .tilBusyTc _ => [⟨63, 0, .ro⟩]
  | .tilKernel _ => [⟨15, 0, .ro⟩, ⟨29, 16, .ro⟩]
  | .tilDbgCtrl _ => [⟨0, 0, .rw⟩, ⟨1, 1, .wo⟩, ⟨2, 2, .wo⟩, ⟨3, 3, .wo⟩, ⟨4, 4, .wo⟩]
  | .tilDbgStat _ => [⟨0, 0, .ro⟩, ⟨1, 1, .w1c⟩, ⟨11, 8, .ro⟩]
  | .tilDbgBp0 _ => [⟨12, 0, .rw⟩, ⟨31, 31, .rw⟩]
  | .tilDbgBp1 _ => [⟨12, 0, .rw⟩, ⟨31, 31, .rw⟩]
  | .tilDbgWp _ => [⟨17, 0, .rw⟩, ⟨49, 32, .rw⟩, ⟨62, 62, .rw⟩, ⟨63, 63, .rw⟩]
  | .tilDbgRsel _ => [⟨1, 0, .rw⟩, ⟨8, 4, .rw⟩, ⟨30, 16, .rw⟩]
  | .tilDbgRdata _ => [⟨63, 0, .rw⟩]
  | .hsfPartCfg _ => [⟨4, 0, .ro⟩, ⟨7, 7, .ro⟩, ⟨13, 8, .ro⟩]
  | .hsfPartKc _ => [⟨63, 0, .ro⟩]
  | .hsfPartShc _ => [⟨63, 0, .ro⟩]
  | .hsfPartStat _ => [⟨6, 0, .ro⟩, ⟨14, 8, .ro⟩, ⟨26, 16, .ro⟩]
  | .hsfPartDone _ => [⟨63, 0, .ro⟩]
  | .rdeCmd _ => [⟨1, 0, .wo⟩]
  | .rdeStatus _ => [⟨2, 0, .ro⟩, ⟨3, 3, .ro⟩, ⟨4, 4, .ro⟩, ⟨5, 5, .ro⟩, ⟨6, 6, .ro⟩, ⟨15, 8, .ro⟩, ⟨25, 16, .ro⟩]
  | .rdeMode _ => [⟨3, 0, .rw⟩, ⟨5, 4, .rw⟩, ⟨14, 8, .rw⟩]
  | .rdeKey _ => [⟨16, 0, .rw⟩]
  | .rdeLen _ => [⟨47, 0, .rw⟩]
  | .rdeCount _ => [⟨47, 0, .ro⟩]
  | .rdeData _ => [⟨63, 0, .wo⟩]
  | .rdeFinish _ => [⟨47, 0, .wo⟩]
  | .rdeMsgs _ => [⟨31, 0, .ro⟩]
  | .rdeExpect _ _ => [⟨63, 0, .wo⟩]
  | .rdeResult _ _ => [⟨63, 0, .ro⟩]
  | .rdeCtxId _ => [⟨3, 0, .ro⟩]
  | .bneCoreState _ => [⟨2, 0, .ro⟩, ⟨3, 3, .ro⟩, ⟨4, 4, .ro⟩, ⟨10, 8, .ro⟩, ⟨15, 12, .ro⟩, ⟨19, 16, .ro⟩, ⟨21, 20, .ro⟩]
  | .bneCoreRes _ => [⟨6, 0, .ro⟩, ⟨22, 8, .ro⟩]
  | .bneCoreJobs _ => [⟨63, 0, .ro⟩]
  | .bneCoreBusy _ => [⟨63, 0, .ro⟩]
  | .bneCoreYields _ => [⟨31, 0, .ro⟩]
  | .bneGrpCfg _ => [⟨4, 0, .ro⟩, ⟨7, 7, .ro⟩, ⟨15, 8, .ro⟩, ⟨20, 16, .ro⟩]
  | .bneGrpStat _ => [⟨3, 0, .ro⟩, ⟨11, 8, .ro⟩, ⟨26, 16, .ro⟩]
  | .bneGrpDone _ => [⟨63, 0, .ro⟩]
  | .mbxCtrl _ => [⟨0, 0, .wo⟩, ⟨1, 1, .wo⟩]
  | .mbxStatus _ => [⟨1, 0, .ro⟩, ⟨2, 2, .ro⟩, ⟨15, 8, .ro⟩]
  | .mbxCmd _ => [⟨15, 0, .rw⟩]
  | .mbxReqLen _ => [⟨13, 0, .rw⟩]
  | .mbxRspLen _ => [⟨14, 0, .ro⟩]
  | .mbxDetail _ => [⟨31, 0, .ro⟩]
  | .mbxEvtVector _ => [⟨10, 0, .rw⟩, ⟨31, 31, .rw⟩]
  | .mbxSeq _ => [⟨31, 0, .ro⟩]
  | .mbxReq _ _ => [⟨63, 0, .rw⟩]
  | .mbxRsp _ _ => [⟨63, 0, .ro⟩]
  | .rngCellStat _ => [⟨0, 0, .ro⟩, ⟨18, 8, .ro⟩]
  | .rngCellRctMax _ => [⟨6, 0, .rc⟩]
  | .rngCellAptMax _ => [⟨10, 0, .rc⟩]
  | .rngCellSamples _ => [⟨63, 0, .ro⟩]
  | .rngDrbStat _ => [⟨1, 0, .ro⟩, ⟨2, 2, .ro⟩, ⟨3, 3, .ro⟩, ⟨4, 4, .ro⟩, ⟨17, 8, .ro⟩]
  | .rngDrbCount _ => [⟨20, 0, .ro⟩]
  | .rngDrbMaxcount _ => [⟨20, 0, .rc⟩]
  | .rngDrbReseeds _ => [⟨63, 0, .ro⟩]
  | .rngDrbReqs _ => [⟨63, 0, .ro⟩]
  | .memBankOwner _ => [⟨3, 0, .ro⟩, ⟨5, 4, .ro⟩, ⟨9, 8, .ro⟩]
  | .memBankHandover _ => [⟨3, 0, .wo⟩, ⟨4, 4, .wo⟩]
  | .memBankAper _ => [⟨0, 0, .rw⟩, ⟨24, 16, .rw⟩, ⟨45, 32, .rw⟩]
  | .memBankViol _ => [⟨31, 0, .rc⟩]
  | .memBankCe _ => [⟨31, 0, .rc⟩]
  | .memBankUe _ => [⟨31, 0, .rc⟩]
  | .tmpSrcCfg _ => [⟨2, 0, .ro⟩, ⟨6, 4, .ro⟩, ⟨10, 8, .ro⟩, ⟨12, 12, .ro⟩]
  | .tmpSrcCount _ => [⟨31, 0, .rc⟩]
  | .tmpSrcLast _ => [⟨14, 0, .ro⟩, ⟨63, 16, .ro⟩]
  | .tmpLogWord _ _ => [⟨63, 0, .ro⟩]
  | .genId => [⟨31, 16, .ro⟩, ⟨15, 12, .ro⟩, ⟨11, 8, .ro⟩]
  | .genCap => [⟨7, 0, .ro⟩, ⟨11, 8, .ro⟩, ⟨15, 12, .ro⟩, ⟨25, 16, .ro⟩, ⟨32, 26, .ro⟩]
  | .genState => [⟨3, 0, .ro⟩, ⟨4, 4, .ro⟩, ⟨5, 5, .ro⟩, ⟨6, 6, .ro⟩]
  | .genTime => [⟨63, 0, .ro⟩]
  | .genBootSeq => [⟨31, 0, .ro⟩]
  | .genRetryCnt => [⟨31, 0, .rc⟩]
  | .genAbortCnt => [⟨31, 0, .rc⟩]
  | .genXingQuiet => [⟨17, 0, .ro⟩]
  | .genXingTmo => [⟨17, 0, .w1c⟩]
  | .fabCap => [⟨7, 0, .ro⟩, ⟨11, 8, .ro⟩, ⟨15, 12, .ro⟩, ⟨21, 16, .ro⟩, ⟨27, 24, .ro⟩]
  | .fabEvtVector => [⟨10, 0, .rw⟩, ⟨31, 31, .rw⟩]
  | .fabEvtStatus => [⟨0, 0, .w1c⟩, ⟨1, 1, .w1c⟩, ⟨2, 2, .w1c⟩, ⟨3, 3, .w1c⟩, ⟨4, 4, .w1c⟩, ⟨5, 5, .w1c⟩, ⟨6, 6, .w1c⟩, ⟨7, 7, .w1c⟩]
  | .fabEvtEnable => [⟨7, 0, .rw⟩]
  | .fabInsvcLo => [⟨63, 0, .ro⟩]
  | .fabInsvcHi => [⟨31, 0, .ro⟩]
  | .fabSpareLo => [⟨63, 0, .ro⟩]
  | .fabSpareHi => [⟨31, 0, .ro⟩]
  | .fabRetiredLo => [⟨63, 0, .ro⟩]
  | .fabRetiredHi => [⟨31, 0, .ro⟩]
  | .fabMcLimit => [⟨3, 0, .rw⟩]
  | .fabCeCount => [⟨31, 0, .rc⟩]
  | .fabMcCount => [⟨31, 0, .rc⟩]
  | .fabMclogHead => [⟨5, 0, .ro⟩, ⟨31, 31, .ro⟩]
  | .hsfCap => [⟨6, 0, .ro⟩, ⟨14, 8, .ro⟩, ⟨19, 16, .ro⟩, ⟨28, 24, .ro⟩]
  | .hsfEvtVector => [⟨10, 0, .rw⟩, ⟨31, 31, .rw⟩]
  | .hsfEvtStatus => [⟨0, 0, .w1c⟩, ⟨1, 1, .w1c⟩, ⟨2, 2, .w1c⟩, ⟨3, 3, .w1c⟩, ⟨4, 4, .w1c⟩, ⟨5, 5, .w1c⟩]
  | .hsfEvtEnable => [⟨5, 0, .rw⟩]
  | .hsfKcInsvc => [⟨63, 0, .ro⟩]
  | .hsfShcInsvc => [⟨63, 0, .ro⟩]
  | .hsfKcRetired => [⟨63, 0, .ro⟩]
  | .hsfShcRetired => [⟨63, 0, .ro⟩]
  | .hsfCoreCmd => [⟨6, 0, .wo⟩, ⟨9, 8, .wo⟩]
  | .hsfCoreStat => [⟨1, 0, .ro⟩]
  | .hsfMcCount => [⟨31, 0, .rc⟩]
  | .hsfMemoBase => [⟨35, 12, .ro⟩]
  | .hsfMemoSize => [⟨36, 12, .ro⟩]
  | .hsfMemoUsed => [⟨36, 0, .ro⟩]
  | .hsfMemoRebuilt => [⟨31, 0, .rc⟩]
  | .hsfSctrSel => [⟨9, 0, .rw⟩]
  | .hsfSctrLimit => [⟨63, 0, .ro⟩]
  | .hsfSctrNext => [⟨63, 0, .ro⟩]
  | .hsfSctrInfo => [⟨15, 0, .ro⟩, ⟨16, 16, .ro⟩, ⟨17, 17, .ro⟩, ⟨18, 18, .ro⟩]
  | .hsfSctrCapacity => [⟨63, 0, .ro⟩]
  | .hsfSctrWaits => [⟨31, 0, .rc⟩]
  | .bneCap => [⟨3, 0, .ro⟩, ⟨12, 4, .ro⟩, ⟨23, 16, .ro⟩]
  | .bneEvtVector => [⟨10, 0, .rw⟩, ⟨31, 31, .rw⟩]
  | .bneEvtStatus => [⟨0, 0, .w1c⟩, ⟨1, 1, .w1c⟩, ⟨2, 2, .w1c⟩, ⟨3, 3, .w1c⟩, ⟨4, 4, .w1c⟩]
  | .bneEvtEnable => [⟨4, 0, .rw⟩]
  | .bneCtrl => [⟨0, 0, .rw⟩]
  | .bneResQuota => [⟨6, 0, .rw⟩]
  | .bneCoreCmd => [⟨2, 0, .wo⟩, ⟨9, 8, .wo⟩]
  | .bneCoreResult => [⟨1, 0, .ro⟩]
  | .bneMcCount => [⟨31, 0, .rc⟩]
  | .bneYieldCount => [⟨31, 0, .rc⟩]
  | .bneHandlesLost => [⟨31, 0, .rc⟩]
  | .keyCap => [⟨17, 0, .ro⟩, ⟨25, 18, .ro⟩]
  | .keyState => [⟨0, 0, .ro⟩, ⟨14, 8, .ro⟩]
  | .keyEpochId => [⟨31, 0, .ro⟩]
  | .keySlotSel => [⟨16, 0, .rw⟩]
  | .keySlotAttr => [⟨63, 0, .ro⟩]
  | .keyUsed => [⟨17, 0, .ro⟩]
  | .keyShadowErr => [⟨31, 0, .rc⟩]
  | .keyHmacHits => [⟨31, 0, .rc⟩]
  | .keyHmacMisses => [⟨31, 0, .rc⟩]
  | .keyExtBase => [⟨35, 30, .ro⟩]
  | .keyVaultMap => [⟨63, 0, .ro⟩]
  | .keyVaultSel => [⟨5, 0, .rw⟩]
  | .keyVaultAttr => [⟨63, 0, .ro⟩]
  | .rngCap => [⟨3, 0, .ro⟩, ⟨8, 4, .ro⟩]
  | .rngCtrl => [⟨0, 0, .wo⟩, ⟨1, 1, .wo⟩]
  | .rngStatus => [⟨2, 0, .ro⟩, ⟨5, 4, .ro⟩, ⟨17, 8, .ro⟩]
  | .rngEvtVector => [⟨10, 0, .rw⟩, ⟨31, 31, .rw⟩]
  | .rngEvtStatus => [⟨0, 0, .w1c⟩, ⟨1, 1, .w1c⟩, ⟨2, 2, .w1c⟩, ⟨3, 3, .w1c⟩, ⟨4, 4, .w1c⟩, ⟨5, 5, .w1c⟩]
  | .rngEvtEnable => [⟨5, 0, .rw⟩]
  | .rngHtFails => [⟨31, 0, .rc⟩]
  | .rngFailInfo => [⟨1, 0, .ro⟩, ⟨3, 2, .ro⟩]
  | .rngFailTime => [⟨63, 0, .ro⟩]
  | .rngReseeds => [⟨63, 0, .ro⟩]
  | .rngPrCount => [⟨31, 0, .rc⟩]
  | .memCap => [⟨4, 0, .ro⟩, ⟨15, 8, .ro⟩, ⟨30, 16, .ro⟩]
  | .memEvtVector => [⟨10, 0, .rw⟩, ⟨31, 31, .rw⟩]
  | .memEvtStatus => [⟨0, 0, .w1c⟩, ⟨1, 1, .w1c⟩, ⟨2, 2, .w1c⟩, ⟨3, 3, .w1c⟩]
  | .memEvtEnable => [⟨3, 0, .rw⟩]
  | .memSramCe => [⟨31, 0, .rc⟩]
  | .memSramUe => [⟨31, 0, .rc⟩]
  | .ddrCap => [⟨3, 0, .ro⟩, ⟨31, 16, .ro⟩]
  | .ddrStat => [⟨0, 0, .ro⟩, ⟨1, 1, .ro⟩, ⟨2, 2, .ro⟩, ⟨3, 3, .ro⟩, ⟨15, 8, .ro⟩, ⟨31, 16, .ro⟩]
  | .ddrUsable => [⟨36, 0, .ro⟩]
  | .ddrSliceBase => [⟨36, 12, .ro⟩]
  | .ddrSliceLimit => [⟨36, 12, .ro⟩]
  | .ddrEvtVector => [⟨10, 0, .rw⟩, ⟨31, 31, .rw⟩]
  | .ddrEvtStatus => [⟨0, 0, .w1c⟩, ⟨1, 1, .w1c⟩, ⟨2, 2, .w1c⟩, ⟨3, 3, .w1c⟩]
  | .ddrEvtEnable => [⟨3, 0, .rw⟩]
  | .ddrCeCount => [⟨31, 0, .rc⟩]
  | .ddrUeCount => [⟨31, 0, .rc⟩]
  | .ddrUeAddr => [⟨36, 6, .ro⟩]
  | .ddrScrubCtrl => [⟨7, 0, .rw⟩, ⟨8, 8, .rw⟩]
  | .ddrScrubLast => [⟨63, 0, .ro⟩]
  | .ddrFillBase => [⟨36, 12, .rw⟩]
  | .ddrFillLen => [⟨36, 12, .rw⟩]
  | .ddrFillCtrl => [⟨0, 0, .wo⟩, ⟨5, 4, .ro⟩]
  | .ddrMcCause => [⟨2, 0, .rc⟩]
  | .lcsState => [⟨2, 0, .ro⟩, ⟨6, 4, .ro⟩, ⟨10, 8, .ro⟩, ⟨12, 12, .ro⟩]
  | .lcsOtpGroup => [⟨3, 0, .ro⟩, ⟨7, 4, .ro⟩, ⟨11, 8, .ro⟩, ⟨15, 12, .ro⟩, ⟨19, 16, .ro⟩]
  | .lcsSecret => [⟨1, 0, .ro⟩, ⟨3, 2, .ro⟩, ⟨4, 4, .ro⟩]
  | .lcsMin => [⟨5, 0, .ro⟩, ⟨13, 8, .ro⟩, ⟨21, 16, .ro⟩, ⟨29, 24, .ro⟩]
  | .lcsPp => [⟨0, 0, .ro⟩, ⟨1, 1, .ro⟩, ⟨2, 2, .ro⟩, ⟨4, 4, .w1c⟩]
  | .dbgRights => [⟨8, 0, .ro⟩]
  | .dbgStat => [⟨0, 0, .ro⟩, ⟨1, 1, .ro⟩, ⟨2, 2, .ro⟩, ⟨3, 3, .ro⟩, ⟨4, 4, .ro⟩, ⟨5, 5, .ro⟩, ⟨15, 8, .ro⟩]
  | .dbgAuthHId => [⟨31, 0, .ro⟩]
  | .dbgAuthIId => [⟨31, 0, .ro⟩]
  | .dbgOpenTime => [⟨63, 0, .ro⟩]
  | .dbgChalExpiry => [⟨63, 0, .ro⟩]
  | .dbgOpens => [⟨31, 0, .rc⟩]
  | .tmpCap => [⟨5, 0, .ro⟩, ⟨21, 16, .ro⟩]
  | .tmpEvtVector => [⟨10, 0, .rw⟩, ⟨31, 31, .rw⟩]
  | .tmpAlarm => [⟨17, 0, .w1c⟩]
  | .tmpActive => [⟨17, 0, .ro⟩]
  | .tmpStatus => [⟨0, 0, .w1c⟩, ⟨1, 1, .ro⟩, ⟨2, 2, .ro⟩, ⟨12, 8, .ro⟩, ⟨17, 16, .ro⟩]
  | .tmpCtrl => [⟨0, 0, .wo⟩]
  | .tmpVdd => [⟨9, 0, .rw⟩, ⟨25, 16, .ro⟩, ⟨41, 32, .ro⟩]
  | .tmpDipCount => [⟨31, 0, .rc⟩]
  | .tmpDipLongest => [⟨12, 0, .rc⟩]
  | .tmpTemp => [⟨8, 0, .ro⟩, ⟨24, 16, .ro⟩]
  | .tmpTempCtrl => [⟨1, 0, .rw⟩]
  | .tmpMag => [⟨9, 0, .ro⟩, ⟨25, 16, .ro⟩]
  | .tmpClk => [⟨15, 0, .ro⟩]
  | .tmpTime => [⟨14, 0, .ro⟩, ⟨63, 16, .ro⟩]
  | .tmpTimeGen => [⟨63, 0, .ro⟩]
  | .tmpIntegCount => [⟨31, 0, .rc⟩]
  | .tmpLogHead => [⟨4, 0, .ro⟩]
  | .tmpLogSeq => [⟨31, 0, .ro⟩]
  | .rstCause => [⟨3, 0, .ro⟩, ⟨5, 4, .ro⟩, ⟨12, 8, .ro⟩, ⟨23, 16, .ro⟩]
  | .rstLink => [⟨1, 0, .ro⟩, ⟨23, 8, .ro⟩]
  | .rstBoot => [⟨2, 0, .ro⟩, ⟨3, 3, .ro⟩, ⟨11, 8, .ro⟩, ⟨17, 16, .ro⟩]
  | .rstCtrl => [⟨0, 0, .wo⟩, ⟨1, 1, .wo⟩]
  | .rstBlock => [⟨2, 0, .wo⟩, ⟨14, 8, .wo⟩]
  | .rstBlockStat => [⟨1, 0, .ro⟩, ⟨5, 4, .ro⟩, ⟨9, 8, .ro⟩]
  | .rstStartUs => [⟨31, 0, .ro⟩]
  | .rstServiceNs => [⟨63, 0, .ro⟩]
  | .rstWarmCount => [⟨31, 0, .ro⟩]
  | .pwrState => [⟨1, 0, .ro⟩, ⟨15, 8, .ro⟩, ⟨17, 16, .ro⟩, ⟨18, 18, .ro⟩]
  | .pwrMw => [⟨16, 0, .ro⟩]
  | .pwrMwPeak => [⟨16, 0, .rc⟩]
  | .pwrRails => [⟨0, 0, .ro⟩, ⟨1, 1, .ro⟩, ⟨2, 2, .ro⟩, ⟨3, 3, .ro⟩, ⟨4, 4, .ro⟩, ⟨5, 5, .ro⟩]
  | .pwrStbyCount => [⟨31, 0, .ro⟩]
  | .pwrStbyExitUs => [⟨15, 0, .ro⟩]

/-- The offset of a register within its space (R20, R21, R46, R47, R57 and the register tables). -/
def Reg.offset (r : Reg) : Nat :=
  match r with
  | .slmSliceCtrl n => 0x100000 + 0x100 * n
  | .slmSliceStat n => 0x100004 + 0x100 * n
  | .slmSlicePasid n => 0x100008 + 0x100 * n
  | .slmSliceDrbg n => 0x10000C + 0x100 * n
  | .slmSliceKeywin n => 0x100010 + 0x100 * n
  | .slmSlicePools n => 0x100018 + 0x100 * n
  | .slmSliceMsix n => 0x10001C + 0x100 * n
  | .slmSliceWeight n m => 0x100020 + 0x100 * n + 0x8 * m
  | .slmSliceRde n => 0x100040 + 0x100 * n
  | .slmSliceDdrBase n => 0x100048 + 0x100 * n
  | .slmSliceDdrSize n => 0x100050 + 0x100 * n
  | .slmSliceQerr n => 0x100058 + 0x100 * n
  | .slmSliceDmawinBase n j => 0x100060 + 0x100 * n + 0x10 * j
  | .slmSliceDmawinLimit n j => 0x100068 + 0x100 * n + 0x10 * j
  | .slmSliceCancelCnt n => 0x1000A0 + 0x100 * n
  | .slmPgSqdb n i => 0x0 + 0x1000 * n + 0x8 * i
  | .slmPgCqdb n i => 0x200 + 0x1000 * n + 0x8 * i
  | .slmPgStatus n => 0x400 + 0x1000 * n
  | .slmPgQerr n => 0x408 + 0x1000 * n
  | .slmPgQrestart n => 0x410 + 0x1000 * n
  | .slmPgBootSeq n => 0x418 + 0x1000 * n
  | .slmPgQinfo n i => 0x440 + 0x1000 * n + 0x8 * i
  | .qmgQCtrl q => 0x400000 + 0x40 * q
  | .qmgQSize q => 0x400004 + 0x40 * q
  | .qmgQSqBase q => 0x400008 + 0x40 * q
  | .qmgQCqBase q => 0x400010 + 0x40 * q
  | .qmgQSqTail q => 0x400018 + 0x40 * q
  | .qmgQSqHead q => 0x40001C + 0x40 * q
  | .qmgQCqTail q => 0x400020 + 0x40 * q
  | .qmgQCqHead q => 0x400024 + 0x40 * q
  | .qmgQMod q => 0x400028 + 0x40 * q
  | .qmgQRptHead q => 0x40002C + 0x40 * q
  | .qmgQErr q => 0x400030 + 0x40 * q
  | .qmgQInflight q => 0x400034 + 0x40 * q
  | .qmgQCompleted q => 0x400038 + 0x40 * q
  | .fabMclogTime e => 0x801000 + 0x10 * e
  | .fabMclogInfo e => 0x801008 + 0x10 * e
  | .fabIslCtrl n => 0x802000 + 0x80 * n
  | .fabIslStat n => 0x802004 + 0x80 * n
  | .fabIslMaskdrb n => 0x802008 + 0x80 * n
  | .fabIslJobs n => 0x802010 + 0x80 * n
  | .fabPoolCfg p => 0x803000 + 0x40 * p
  | .fabPoolStat p => 0x803008 + 0x40 * p
  | .fabPoolCtrl p => 0x80300C + 0x40 * p
  | .fabPoolDone p => 0x803010 + 0x40 * p
  | .fabPoolRetry p => 0x803018 + 0x40 * p
  | .fabTileStat t => 0x804000 + 0x10 * t
  | .fabTileCmd t => 0x804004 + 0x10 * t
  | .fabShellMap s => 0x806000 + 0x10 * s
  | .tilStat t => 0xA00000 + 0x1000 * t
  | .tilPatchStat t => 0xA00008 + 0x1000 * t
  | .tilScrub t => 0xA00010 + 0x1000 * t
  | .tilExcInfo t => 0xA00018 + 0x1000 * t
  | .tilExcAddr t => 0xA00020 + 0x1000 * t
  | .tilKfaultCnt t => 0xA00024 + 0x1000 * t
  | .tilJobs t => 0xA00028 + 0x1000 * t
  | .tilBusyTc t => 0xA00030 + 0x1000 * t
  | .tilKernel t => 0xA00038 + 0x1000 * t
  | .tilDbgCtrl t => 0xA00100 + 0x1000 * t
  | .tilDbgStat t => 0xA00104 + 0x1000 * t
  | .tilDbgBp0 t => 0xA00108 + 0x1000 * t
  | .tilDbgBp1 t => 0xA0010C + 0x1000 * t
  | .tilDbgWp t => 0xA00110 + 0x1000 * t
  | .tilDbgRsel t => 0xA00118 + 0x1000 * t
  | .tilDbgRdata t => 0xA00120 + 0x1000 * t
  | .hsfPartCfg k => 0xC01000 + 0x40 * k
  | .hsfPartKc k => 0xC01008 + 0x40 * k
  | .hsfPartShc k => 0xC01010 + 0x40 * k
  | .hsfPartStat k => 0xC01018 + 0x40 * k
  | .hsfPartDone k => 0xC01020 + 0x40 * k
  | .rdeCmd c => 0xC40000 + 0x400 * c
  | .rdeStatus c => 0xC40004 + 0x400 * c
  | .rdeMode c => 0xC40008 + 0x400 * c
  | .rdeKey c => 0xC4000C + 0x400 * c
  | .rdeLen c => 0xC40010 + 0x400 * c
  | .rdeCount c => 0xC40018 + 0x400 * c
  | .rdeData c => 0xC40020 + 0x400 * c
  | .rdeFinish c => 0xC40028 + 0x400 * c
  | .rdeMsgs c => 0xC40030 + 0x400 * c
  | .rdeExpect c j => 0xC40040 + 0x400 * c + 0x8 * j
  | .rdeResult c j => 0xC40080 + 0x400 * c + 0x8 * j
  | .rdeCtxId c => 0xC400C0 + 0x400 * c
  | .bneCoreState c => 0xC81000 + 0x40 * c
  | .bneCoreRes c => 0xC81008 + 0x40 * c
  | .bneCoreJobs c => 0xC81010 + 0x40 * c
  | .bneCoreBusy c => 0xC81018 + 0x40 * c
  | .bneCoreYields c => 0xC81020 + 0x40 * c
  | .bneGrpCfg g => 0xC82000 + 0x10 * g
  | .bneGrpStat g => 0xC82004 + 0x10 * g
  | .bneGrpDone g => 0xC82008 + 0x10 * g
  | .mbxCtrl _ => 0x0
  | .mbxStatus _ => 0x4
  | .mbxCmd _ => 0x8
  | .mbxReqLen _ => 0xC
  | .mbxRspLen _ => 0x10
  | .mbxDetail _ => 0x14
  | .mbxEvtVector _ => 0x18
  | .mbxSeq _ => 0x20
  | .mbxReq _ i => 0x1000 + 0x8 * i
  | .mbxRsp _ i => 0x4000 + 0x8 * i
  | .rngCellStat k => 0xE00100 + 0x20 * k
  | .rngCellRctMax k => 0xE00104 + 0x20 * k
  | .rngCellAptMax k => 0xE00108 + 0x20 * k
  | .rngCellSamples k => 0xE00110 + 0x20 * k
  | .rngDrbStat k => 0xE00400 + 0x40 * k
  | .rngDrbCount k => 0xE00404 + 0x40 * k
  | .rngDrbMaxcount k => 0xE00408 + 0x40 * k
  | .rngDrbReseeds k => 0xE00410 + 0x40 * k
  | .rngDrbReqs k => 0xE00418 + 0x40 * k
  | .memBankOwner b => 0xE80100 + 0x20 * b
  | .memBankHandover b => 0xE80104 + 0x20 * b
  | .memBankAper b => 0xE80108 + 0x20 * b
  | .memBankViol b => 0xE80110 + 0x20 * b
  | .memBankCe b => 0xE80114 + 0x20 * b
  | .memBankUe b => 0xE80118 + 0x20 * b
  | .tmpSrcCfg k => 0xFC0100 + 0x10 * k
  | .tmpSrcCount k => 0xFC0104 + 0x10 * k
  | .tmpSrcLast k => 0xFC0108 + 0x10 * k
  | .tmpLogWord e j => 0xFC0800 + 0x20 * e + 0x8 * j
  | .genId => 0x0
  | .genCap => 0x8
  | .genState => 0x10
  | .genTime => 0x18
  | .genBootSeq => 0x20
  | .genRetryCnt => 0x24
  | .genAbortCnt => 0x28
  | .genXingQuiet => 0x30
  | .genXingTmo => 0x34
  | .fabCap => 0x800000
  | .fabEvtVector => 0x800008
  | .fabEvtStatus => 0x80000C
  | .fabEvtEnable => 0x800010
  | .fabInsvcLo => 0x800020
  | .fabInsvcHi => 0x800028
  | .fabSpareLo => 0x800030
  | .fabSpareHi => 0x800038
  | .fabRetiredLo => 0x800040
  | .fabRetiredHi => 0x800048
  | .fabMcLimit => 0x800050
  | .fabCeCount => 0x800054
  | .fabMcCount => 0x800058
  | .fabMclogHead => 0x800060
  | .hsfCap => 0xC00000
  | .hsfEvtVector => 0xC00008
  | .hsfEvtStatus => 0xC0000C
  | .hsfEvtEnable => 0xC00010
  | .hsfKcInsvc => 0xC00020
  | .hsfShcInsvc => 0xC00028
  | .hsfKcRetired => 0xC00030
  | .hsfShcRetired => 0xC00038
  | .hsfCoreCmd => 0xC00040
  | .hsfCoreStat => 0xC00044
  | .hsfMcCount => 0xC00048
  | .hsfMemoBase => 0xC00050
  | .hsfMemoSize => 0xC00058
  | .hsfMemoUsed => 0xC00060
  | .hsfMemoRebuilt => 0xC00068
  | .hsfSctrSel => 0xC00070
  | .hsfSctrLimit => 0xC00078
  | .hsfSctrNext => 0xC00080
  | .hsfSctrInfo => 0xC00088
  | .hsfSctrCapacity => 0xC00090
  | .hsfSctrWaits => 0xC00098
  | .bneCap => 0xC80000
  | .bneEvtVector => 0xC80008
  | .bneEvtStatus => 0xC8000C
  | .bneEvtEnable => 0xC80010
  | .bneCtrl => 0xC80014
  | .bneResQuota => 0xC80018
  | .bneCoreCmd => 0xC80020
  | .bneCoreResult => 0xC80024
  | .bneMcCount => 0xC80028
  | .bneYieldCount => 0xC8002C
  | .bneHandlesLost => 0xC80030
  | .keyCap => 0xD00000
  | .keyState => 0xD00008
  | .keyEpochId => 0xD0000C
  | .keySlotSel => 0xD00010
  | .keySlotAttr => 0xD00018
  | .keyUsed => 0xD00020
  | .keyShadowErr => 0xD00024
  | .keyHmacHits => 0xD00028
  | .keyHmacMisses => 0xD0002C
  | .keyExtBase => 0xD00030
  | .keyVaultMap => 0xD00040
  | .keyVaultSel => 0xD00048
  | .keyVaultAttr => 0xD00050
  | .rngCap => 0xE00000
  | .rngCtrl => 0xE00004
  | .rngStatus => 0xE00008
  | .rngEvtVector => 0xE00010
  | .rngEvtStatus => 0xE00014
  | .rngEvtEnable => 0xE00018
  | .rngHtFails => 0xE0001C
  | .rngFailInfo => 0xE00020
  | .rngFailTime => 0xE00028
  | .rngReseeds => 0xE00030
  | .rngPrCount => 0xE00038
  | .memCap => 0xE80000
  | .memEvtVector => 0xE80008
  | .memEvtStatus => 0xE8000C
  | .memEvtEnable => 0xE80010
  | .memSramCe => 0xE80014
  | .memSramUe => 0xE80018
  | .ddrCap => 0xF00000
  | .ddrStat => 0xF00004
  | .ddrUsable => 0xF00008
  | .ddrSliceBase => 0xF00010
  | .ddrSliceLimit => 0xF00018
  | .ddrEvtVector => 0xF00020
  | .ddrEvtStatus => 0xF00024
  | .ddrEvtEnable => 0xF00028
  | .ddrCeCount => 0xF00030
  | .ddrUeCount => 0xF00034
  | .ddrUeAddr => 0xF00038
  | .ddrScrubCtrl => 0xF00040
  | .ddrScrubLast => 0xF00048
  | .ddrFillBase => 0xF00050
  | .ddrFillLen => 0xF00058
  | .ddrFillCtrl => 0xF00060
  | .ddrMcCause => 0xF00068
  | .lcsState => 0xF80000
  | .lcsOtpGroup => 0xF80004
  | .lcsSecret => 0xF80008
  | .lcsMin => 0xF8000C
  | .lcsPp => 0xF80010
  | .dbgRights => 0xF81000
  | .dbgStat => 0xF81004
  | .dbgAuthHId => 0xF81008
  | .dbgAuthIId => 0xF8100C
  | .dbgOpenTime => 0xF81010
  | .dbgChalExpiry => 0xF81018
  | .dbgOpens => 0xF81020
  | .tmpCap => 0xFC0000
  | .tmpEvtVector => 0xFC0008
  | .tmpAlarm => 0xFC0010
  | .tmpActive => 0xFC0014
  | .tmpStatus => 0xFC0018
  | .tmpCtrl => 0xFC001C
  | .tmpVdd => 0xFC0020
  | .tmpDipCount => 0xFC0028
  | .tmpDipLongest => 0xFC002C
  | .tmpTemp => 0xFC0030
  | .tmpTempCtrl => 0xFC0034
  | .tmpMag => 0xFC0038
  | .tmpClk => 0xFC003C
  | .tmpTime => 0xFC0040
  | .tmpTimeGen => 0xFC0048
  | .tmpIntegCount => 0xFC0050
  | .tmpLogHead => 0xFC0054
  | .tmpLogSeq => 0xFC0058
  | .rstCause => 0xFE0000
  | .rstLink => 0xFE0004
  | .rstBoot => 0xFE0008
  | .rstCtrl => 0xFE000C
  | .rstBlock => 0xFE0010
  | .rstBlockStat => 0xFE0014
  | .rstStartUs => 0xFE0018
  | .rstServiceNs => 0xFE0020
  | .rstWarmCount => 0xFE0028
  | .pwrState => 0xFE1000
  | .pwrMw => 0xFE1004
  | .pwrMwPeak => 0xFE1008
  | .pwrRails => 0xFE100C
  | .pwrStbyCount => 0xFE1010
  | .pwrStbyExitUs => 0xFE1014

/-- The space a register lies in. -/
def Reg.space (r : Reg) : Space :=
  match r with
  | .slmPgSqdb _ _ => .bar2
  | .slmPgCqdb _ _ => .bar2
  | .slmPgStatus _ => .bar2
  | .slmPgQerr _ => .bar2
  | .slmPgQrestart _ => .bar2
  | .slmPgBootSeq _ => .bar2
  | .slmPgQinfo _ _ => .bar2
  | .mbxCtrl ch => .mbx ch
  | .mbxStatus ch => .mbx ch
  | .mbxCmd ch => .mbx ch
  | .mbxReqLen ch => .mbx ch
  | .mbxRspLen ch => .mbx ch
  | .mbxDetail ch => .mbx ch
  | .mbxEvtVector ch => .mbx ch
  | .mbxSeq ch => .mbx ch
  | .mbxReq ch _ => .mbx ch
  | .mbxRsp ch _ => .mbx ch
  | _ => .bar0

/-- The instance numbers name a unit the device has. -/
def Reg.valid (r : Reg) : Bool :=
  match r with
  | .slmSliceCtrl n => decide (n < 512)
  | .slmSliceStat n => decide (n < 512)
  | .slmSlicePasid n => decide (n < 512)
  | .slmSliceDrbg n => decide (n < 512)
  | .slmSliceKeywin n => decide (n < 512)
  | .slmSlicePools n => decide (n < 512)
  | .slmSliceMsix n => decide (n < 512)
  | .slmSliceWeight n m => decide (n < 512) && decide (m < 4)
  | .slmSliceRde n => decide (n < 512)
  | .slmSliceDdrBase n => decide (n < 512)
  | .slmSliceDdrSize n => decide (n < 512)
  | .slmSliceQerr n => decide (n < 512)
  | .slmSliceDmawinBase n j => decide (n < 512) && decide (j < 4)
  | .slmSliceDmawinLimit n j => decide (n < 512) && decide (j < 4)
  | .slmSliceCancelCnt n => decide (n < 512)
  | .slmPgSqdb n i => decide (n < 512) && decide (i < 64)
  | .slmPgCqdb n i => decide (n < 512) && decide (i < 64)
  | .slmPgStatus n => decide (n < 512)
  | .slmPgQerr n => decide (n < 512)
  | .slmPgQrestart n => decide (n < 512)
  | .slmPgBootSeq n => decide (n < 512)
  | .slmPgQinfo n i => decide (n < 512) && decide (i < 64)
  | .qmgQCtrl q => decide (q < 32768)
  | .qmgQSize q => decide (q < 32768)
  | .qmgQSqBase q => decide (q < 32768)
  | .qmgQCqBase q => decide (q < 32768)
  | .qmgQSqTail q => decide (q < 32768)
  | .qmgQSqHead q => decide (q < 32768)
  | .qmgQCqTail q => decide (q < 32768)
  | .qmgQCqHead q => decide (q < 32768)
  | .qmgQMod q => decide (q < 32768)
  | .qmgQRptHead q => decide (q < 32768)
  | .qmgQErr q => decide (q < 32768)
  | .qmgQInflight q => decide (q < 32768)
  | .qmgQCompleted q => decide (q < 32768)
  | .fabMclogTime e => decide (e < 64)
  | .fabMclogInfo e => decide (e < 64)
  | .fabIslCtrl n => decide (n < 8)
  | .fabIslStat n => decide (n < 8)
  | .fabIslMaskdrb n => decide (n < 8)
  | .fabIslJobs n => decide (n < 8)
  | .fabPoolCfg p => decide (p < 32)
  | .fabPoolStat p => decide (p < 32)
  | .fabPoolCtrl p => decide (p < 32)
  | .fabPoolDone p => decide (p < 32)
  | .fabPoolRetry p => decide (p < 32)
  | .fabTileStat t => decide (t < 96)
  | .fabTileCmd t => decide (t < 96)
  | .fabShellMap s => decide (s < 96)
  | .tilStat t => decide (t < 96)
  | .tilPatchStat t => decide (t < 96)
  | .tilScrub t => decide (t < 96)
  | .tilExcInfo t => decide (t < 96)
  | .tilExcAddr t => decide (t < 96)
  | .tilKfaultCnt t => decide (t < 96)
  | .tilJobs t => decide (t < 96)
  | .tilBusyTc t => decide (t < 96)
  | .tilKernel t => decide (t < 96)
  | .tilDbgCtrl t => decide (t < 96)
  | .tilDbgStat t => decide (t < 96)
  | .tilDbgBp0 t => decide (t < 96)
  | .tilDbgBp1 t => decide (t < 96)
  | .tilDbgWp t => decide (t < 96)
  | .tilDbgRsel t => decide (t < 96)
  | .tilDbgRdata t => decide (t < 96)
  | .hsfPartCfg k => decide (k < 8)
  | .hsfPartKc k => decide (k < 8)
  | .hsfPartShc k => decide (k < 8)
  | .hsfPartStat k => decide (k < 8)
  | .hsfPartDone k => decide (k < 8)
  | .rdeCmd c => decide (c < 16)
  | .rdeStatus c => decide (c < 16)
  | .rdeMode c => decide (c < 16)
  | .rdeKey c => decide (c < 16)
  | .rdeLen c => decide (c < 16)
  | .rdeCount c => decide (c < 16)
  | .rdeData c => decide (c < 16)
  | .rdeFinish c => decide (c < 16)
  | .rdeMsgs c => decide (c < 16)
  | .rdeExpect c j => decide (c < 16) && decide (j < 8)
  | .rdeResult c j => decide (c < 16) && decide (j < 8)
  | .rdeCtxId c => decide (c < 16)
  | .bneCoreState c => decide (c < 8)
  | .bneCoreRes c => decide (c < 8)
  | .bneCoreJobs c => decide (c < 8)
  | .bneCoreBusy c => decide (c < 8)
  | .bneCoreYields c => decide (c < 8)
  | .bneGrpCfg g => decide (g < 8)
  | .bneGrpStat g => decide (g < 8)
  | .bneGrpDone g => decide (g < 8)
  | .mbxCtrl ch => decide (ch < 2)
  | .mbxStatus ch => decide (ch < 2)
  | .mbxCmd ch => decide (ch < 2)
  | .mbxReqLen ch => decide (ch < 2)
  | .mbxRspLen ch => decide (ch < 2)
  | .mbxDetail ch => decide (ch < 2)
  | .mbxEvtVector ch => decide (ch < 2)
  | .mbxSeq ch => decide (ch < 2)
  | .mbxReq ch i => decide (ch < 2) && decide (i < 1024)
  | .mbxRsp ch i => decide (ch < 2) && decide (i < 2048)
  | .rngCellStat k => decide (k < 4)
  | .rngCellRctMax k => decide (k < 4)
  | .rngCellAptMax k => decide (k < 4)
  | .rngCellSamples k => decide (k < 4)
  | .rngDrbStat k => decide (k < 16)
  | .rngDrbCount k => decide (k < 16)
  | .rngDrbMaxcount k => decide (k < 16)
  | .rngDrbReseeds k => decide (k < 16)
  | .rngDrbReqs k => decide (k < 16)
  | .memBankOwner b => decide (b < 16)
  | .memBankHandover b => decide (b < 16)
  | .memBankAper b => decide (b < 16)
  | .memBankViol b => decide (b < 16)
  | .memBankCe b => decide (b < 16)
  | .memBankUe b => decide (b < 16)
  | .tmpSrcCfg k => decide (k < 18)
  | .tmpSrcCount k => decide (k < 18)
  | .tmpSrcLast k => decide (k < 18)
  | .tmpLogWord e j => decide (e < 32) && decide (j < 4)
  | _ => true

/-- Registers of the Slm block by offset within the block or instance. -/
def Reg.ofSlm (n : Nat) (o : Nat) : Option Reg :=
  match o with
  | 0x0 => some (.slmSliceCtrl n)
  | 0x4 => some (.slmSliceStat n)
  | 0x8 => some (.slmSlicePasid n)
  | 0xC => some (.slmSliceDrbg n)
  | 0x10 => some (.slmSliceKeywin n)
  | 0x18 => some (.slmSlicePools n)
  | 0x1C => some (.slmSliceMsix n)
  | 0x40 => some (.slmSliceRde n)
  | 0x48 => some (.slmSliceDdrBase n)
  | 0x50 => some (.slmSliceDdrSize n)
  | 0x58 => some (.slmSliceQerr n)
  | 0xA0 => some (.slmSliceCancelCnt n)
  | _ => if decide (0x20 ≤ o) && decide (o < 0x20 + 8 * 4) && (o - 0x20) % 8 == 0 then some (.slmSliceWeight n ((o - 0x20) / 8)) else if decide (0x60 ≤ o) && decide (o < 0x60 + 16 * 4) && (o - 0x60) % 16 == 0 then some (.slmSliceDmawinBase n ((o - 0x60) / 16)) else if decide (0x68 ≤ o) && decide (o < 0x68 + 16 * 4) && (o - 0x68) % 16 == 0 then some (.slmSliceDmawinLimit n ((o - 0x68) / 16)) else none

/-- Registers of the Page block by offset within the block or instance. -/
def Reg.ofPage (n : Nat) (o : Nat) : Option Reg :=
  match o with
  | 0x400 => some (.slmPgStatus n)
  | 0x408 => some (.slmPgQerr n)
  | 0x410 => some (.slmPgQrestart n)
  | 0x418 => some (.slmPgBootSeq n)
  | _ => if decide (0x0 ≤ o) && decide (o < 0x0 + 8 * 64) && (o - 0x0) % 8 == 0 then some (.slmPgSqdb n ((o - 0x0) / 8)) else if decide (0x200 ≤ o) && decide (o < 0x200 + 8 * 64) && (o - 0x200) % 8 == 0 then some (.slmPgCqdb n ((o - 0x200) / 8)) else if decide (0x440 ≤ o) && decide (o < 0x440 + 8 * 64) && (o - 0x440) % 8 == 0 then some (.slmPgQinfo n ((o - 0x440) / 8)) else none

/-- Registers of the Qmg block by offset within the block or instance. -/
def Reg.ofQmg (q : Nat) (o : Nat) : Option Reg :=
  match o with
  | 0x0 => some (.qmgQCtrl q)
  | 0x4 => some (.qmgQSize q)
  | 0x8 => some (.qmgQSqBase q)
  | 0x10 => some (.qmgQCqBase q)
  | 0x18 => some (.qmgQSqTail q)
  | 0x1C => some (.qmgQSqHead q)
  | 0x20 => some (.qmgQCqTail q)
  | 0x24 => some (.qmgQCqHead q)
  | 0x28 => some (.qmgQMod q)
  | 0x2C => some (.qmgQRptHead q)
  | 0x30 => some (.qmgQErr q)
  | 0x34 => some (.qmgQInflight q)
  | 0x38 => some (.qmgQCompleted q)
  | _ => none

/-- Registers of the Mclog block by offset within the block or instance. -/
def Reg.ofMclog (e : Nat) (o : Nat) : Option Reg :=
  match o with
  | 0x0 => some (.fabMclogTime e)
  | 0x8 => some (.fabMclogInfo e)
  | _ => none

/-- Registers of the Isl block by offset within the block or instance. -/
def Reg.ofIsl (n : Nat) (o : Nat) : Option Reg :=
  match o with
  | 0x0 => some (.fabIslCtrl n)
  | 0x4 => some (.fabIslStat n)
  | 0x8 => some (.fabIslMaskdrb n)
  | 0x10 => some (.fabIslJobs n)
  | _ => none

/-- Registers of the Pool block by offset within the block or instance. -/
def Reg.ofPool (p : Nat) (o : Nat) : Option Reg :=
  match o with
  | 0x0 => some (.fabPoolCfg p)
  | 0x8 => some (.fabPoolStat p)
  | 0xC => some (.fabPoolCtrl p)
  | 0x10 => some (.fabPoolDone p)
  | 0x18 => some (.fabPoolRetry p)
  | _ => none

/-- Registers of the Tile block by offset within the block or instance. -/
def Reg.ofTile (t : Nat) (o : Nat) : Option Reg :=
  match o with
  | 0x0 => some (.fabTileStat t)
  | 0x4 => some (.fabTileCmd t)
  | _ => none

/-- Registers of the Shell block by offset within the block or instance. -/
def Reg.ofShell (s : Nat) (o : Nat) : Option Reg :=
  match o with
  | 0x0 => some (.fabShellMap s)
  | _ => none

/-- Registers of the Til block by offset within the block or instance. -/
def Reg.ofTil (t : Nat) (o : Nat) : Option Reg :=
  match o with
  | 0x0 => some (.tilStat t)
  | 0x8 => some (.tilPatchStat t)
  | 0x10 => some (.tilScrub t)
  | 0x18 => some (.tilExcInfo t)
  | 0x20 => some (.tilExcAddr t)
  | 0x24 => some (.tilKfaultCnt t)
  | 0x28 => some (.tilJobs t)
  | 0x30 => some (.tilBusyTc t)
  | 0x38 => some (.tilKernel t)
  | 0x100 => some (.tilDbgCtrl t)
  | 0x104 => some (.tilDbgStat t)
  | 0x108 => some (.tilDbgBp0 t)
  | 0x10C => some (.tilDbgBp1 t)
  | 0x110 => some (.tilDbgWp t)
  | 0x118 => some (.tilDbgRsel t)
  | 0x120 => some (.tilDbgRdata t)
  | _ => none

/-- Registers of the Part block by offset within the block or instance. -/
def Reg.ofPart (k : Nat) (o : Nat) : Option Reg :=
  match o with
  | 0x0 => some (.hsfPartCfg k)
  | 0x8 => some (.hsfPartKc k)
  | 0x10 => some (.hsfPartShc k)
  | 0x18 => some (.hsfPartStat k)
  | 0x20 => some (.hsfPartDone k)
  | _ => none

/-- Registers of the Rde block by offset within the block or instance. -/
def Reg.ofRde (c : Nat) (o : Nat) : Option Reg :=
  match o with
  | 0x0 => some (.rdeCmd c)
  | 0x4 => some (.rdeStatus c)
  | 0x8 => some (.rdeMode c)
  | 0xC => some (.rdeKey c)
  | 0x10 => some (.rdeLen c)
  | 0x18 => some (.rdeCount c)
  | 0x20 => some (.rdeData c)
  | 0x28 => some (.rdeFinish c)
  | 0x30 => some (.rdeMsgs c)
  | 0xC0 => some (.rdeCtxId c)
  | _ => if decide (0x40 ≤ o) && decide (o < 0x40 + 8 * 8) && (o - 0x40) % 8 == 0 then some (.rdeExpect c ((o - 0x40) / 8)) else if decide (0x80 ≤ o) && decide (o < 0x80 + 8 * 8) && (o - 0x80) % 8 == 0 then some (.rdeResult c ((o - 0x80) / 8)) else none

/-- Registers of the Core block by offset within the block or instance. -/
def Reg.ofCore (c : Nat) (o : Nat) : Option Reg :=
  match o with
  | 0x0 => some (.bneCoreState c)
  | 0x8 => some (.bneCoreRes c)
  | 0x10 => some (.bneCoreJobs c)
  | 0x18 => some (.bneCoreBusy c)
  | 0x20 => some (.bneCoreYields c)
  | _ => none

/-- Registers of the Grp block by offset within the block or instance. -/
def Reg.ofGrp (g : Nat) (o : Nat) : Option Reg :=
  match o with
  | 0x0 => some (.bneGrpCfg g)
  | 0x4 => some (.bneGrpStat g)
  | 0x8 => some (.bneGrpDone g)
  | _ => none

/-- Registers of the Mbx block by offset within the block or instance. -/
def Reg.ofMbx (ch : Nat) (o : Nat) : Option Reg :=
  match o with
  | 0x0 => some (.mbxCtrl ch)
  | 0x4 => some (.mbxStatus ch)
  | 0x8 => some (.mbxCmd ch)
  | 0xC => some (.mbxReqLen ch)
  | 0x10 => some (.mbxRspLen ch)
  | 0x14 => some (.mbxDetail ch)
  | 0x18 => some (.mbxEvtVector ch)
  | 0x20 => some (.mbxSeq ch)
  | _ => if decide (0x1000 ≤ o) && decide (o < 0x1000 + 8 * 1024) && (o - 0x1000) % 8 == 0 then some (.mbxReq ch ((o - 0x1000) / 8)) else if decide (0x4000 ≤ o) && decide (o < 0x4000 + 8 * 2048) && (o - 0x4000) % 8 == 0 then some (.mbxRsp ch ((o - 0x4000) / 8)) else none

/-- Registers of the Cell block by offset within the block or instance. -/
def Reg.ofCell (k : Nat) (o : Nat) : Option Reg :=
  match o with
  | 0x0 => some (.rngCellStat k)
  | 0x4 => some (.rngCellRctMax k)
  | 0x8 => some (.rngCellAptMax k)
  | 0x10 => some (.rngCellSamples k)
  | _ => none

/-- Registers of the Drb block by offset within the block or instance. -/
def Reg.ofDrb (k : Nat) (o : Nat) : Option Reg :=
  match o with
  | 0x0 => some (.rngDrbStat k)
  | 0x4 => some (.rngDrbCount k)
  | 0x8 => some (.rngDrbMaxcount k)
  | 0x10 => some (.rngDrbReseeds k)
  | 0x18 => some (.rngDrbReqs k)
  | _ => none

/-- Registers of the Bank block by offset within the block or instance. -/
def Reg.ofBank (b : Nat) (o : Nat) : Option Reg :=
  match o with
  | 0x0 => some (.memBankOwner b)
  | 0x4 => some (.memBankHandover b)
  | 0x8 => some (.memBankAper b)
  | 0x10 => some (.memBankViol b)
  | 0x14 => some (.memBankCe b)
  | 0x18 => some (.memBankUe b)
  | _ => none

/-- Registers of the Src block by offset within the block or instance. -/
def Reg.ofSrc (k : Nat) (o : Nat) : Option Reg :=
  match o with
  | 0x0 => some (.tmpSrcCfg k)
  | 0x4 => some (.tmpSrcCount k)
  | 0x8 => some (.tmpSrcLast k)
  | _ => none

/-- Registers of the Log block by offset within the block or instance. -/
def Reg.ofLog (e : Nat) (o : Nat) : Option Reg :=
  match o with
  | _ => if decide (0x0 ≤ o) && decide (o < 0x0 + 8 * 4) && (o - 0x0) % 8 == 0 then some (.tmpLogWord e ((o - 0x0) / 8)) else none

/-- Registers of the Gen block by offset within the block or instance. -/
def Reg.ofGen (o : Nat) : Option Reg :=
  match o with
  | 0x0 => some (.genId)
  | 0x8 => some (.genCap)
  | 0x10 => some (.genState)
  | 0x18 => some (.genTime)
  | 0x20 => some (.genBootSeq)
  | 0x24 => some (.genRetryCnt)
  | 0x28 => some (.genAbortCnt)
  | 0x30 => some (.genXingQuiet)
  | 0x34 => some (.genXingTmo)
  | _ => none

/-- Registers of the Fab block by offset within the block or instance. -/
def Reg.ofFab (o : Nat) : Option Reg :=
  match o with
  | 0x0 => some (.fabCap)
  | 0x8 => some (.fabEvtVector)
  | 0xC => some (.fabEvtStatus)
  | 0x10 => some (.fabEvtEnable)
  | 0x20 => some (.fabInsvcLo)
  | 0x28 => some (.fabInsvcHi)
  | 0x30 => some (.fabSpareLo)
  | 0x38 => some (.fabSpareHi)
  | 0x40 => some (.fabRetiredLo)
  | 0x48 => some (.fabRetiredHi)
  | 0x50 => some (.fabMcLimit)
  | 0x54 => some (.fabCeCount)
  | 0x58 => some (.fabMcCount)
  | 0x60 => some (.fabMclogHead)
  | _ => none

/-- Registers of the Hsf block by offset within the block or instance. -/
def Reg.ofHsf (o : Nat) : Option Reg :=
  match o with
  | 0x0 => some (.hsfCap)
  | 0x8 => some (.hsfEvtVector)
  | 0xC => some (.hsfEvtStatus)
  | 0x10 => some (.hsfEvtEnable)
  | 0x20 => some (.hsfKcInsvc)
  | 0x28 => some (.hsfShcInsvc)
  | 0x30 => some (.hsfKcRetired)
  | 0x38 => some (.hsfShcRetired)
  | 0x40 => some (.hsfCoreCmd)
  | 0x44 => some (.hsfCoreStat)
  | 0x48 => some (.hsfMcCount)
  | 0x50 => some (.hsfMemoBase)
  | 0x58 => some (.hsfMemoSize)
  | 0x60 => some (.hsfMemoUsed)
  | 0x68 => some (.hsfMemoRebuilt)
  | 0x70 => some (.hsfSctrSel)
  | 0x78 => some (.hsfSctrLimit)
  | 0x80 => some (.hsfSctrNext)
  | 0x88 => some (.hsfSctrInfo)
  | 0x90 => some (.hsfSctrCapacity)
  | 0x98 => some (.hsfSctrWaits)
  | _ => none

/-- Registers of the Bne block by offset within the block or instance. -/
def Reg.ofBne (o : Nat) : Option Reg :=
  match o with
  | 0x0 => some (.bneCap)
  | 0x8 => some (.bneEvtVector)
  | 0xC => some (.bneEvtStatus)
  | 0x10 => some (.bneEvtEnable)
  | 0x14 => some (.bneCtrl)
  | 0x18 => some (.bneResQuota)
  | 0x20 => some (.bneCoreCmd)
  | 0x24 => some (.bneCoreResult)
  | 0x28 => some (.bneMcCount)
  | 0x2C => some (.bneYieldCount)
  | 0x30 => some (.bneHandlesLost)
  | _ => none

/-- Registers of the Key block by offset within the block or instance. -/
def Reg.ofKey (o : Nat) : Option Reg :=
  match o with
  | 0x0 => some (.keyCap)
  | 0x8 => some (.keyState)
  | 0xC => some (.keyEpochId)
  | 0x10 => some (.keySlotSel)
  | 0x18 => some (.keySlotAttr)
  | 0x20 => some (.keyUsed)
  | 0x24 => some (.keyShadowErr)
  | 0x28 => some (.keyHmacHits)
  | 0x2C => some (.keyHmacMisses)
  | 0x30 => some (.keyExtBase)
  | 0x40 => some (.keyVaultMap)
  | 0x48 => some (.keyVaultSel)
  | 0x50 => some (.keyVaultAttr)
  | _ => none

/-- Registers of the Rng block by offset within the block or instance. -/
def Reg.ofRng (o : Nat) : Option Reg :=
  match o with
  | 0x0 => some (.rngCap)
  | 0x4 => some (.rngCtrl)
  | 0x8 => some (.rngStatus)
  | 0x10 => some (.rngEvtVector)
  | 0x14 => some (.rngEvtStatus)
  | 0x18 => some (.rngEvtEnable)
  | 0x1C => some (.rngHtFails)
  | 0x20 => some (.rngFailInfo)
  | 0x28 => some (.rngFailTime)
  | 0x30 => some (.rngReseeds)
  | 0x38 => some (.rngPrCount)
  | _ => none

/-- Registers of the Mem block by offset within the block or instance. -/
def Reg.ofMem (o : Nat) : Option Reg :=
  match o with
  | 0x0 => some (.memCap)
  | 0x8 => some (.memEvtVector)
  | 0xC => some (.memEvtStatus)
  | 0x10 => some (.memEvtEnable)
  | 0x14 => some (.memSramCe)
  | 0x18 => some (.memSramUe)
  | _ => none

/-- Registers of the Ddr block by offset within the block or instance. -/
def Reg.ofDdr (o : Nat) : Option Reg :=
  match o with
  | 0x0 => some (.ddrCap)
  | 0x4 => some (.ddrStat)
  | 0x8 => some (.ddrUsable)
  | 0x10 => some (.ddrSliceBase)
  | 0x18 => some (.ddrSliceLimit)
  | 0x20 => some (.ddrEvtVector)
  | 0x24 => some (.ddrEvtStatus)
  | 0x28 => some (.ddrEvtEnable)
  | 0x30 => some (.ddrCeCount)
  | 0x34 => some (.ddrUeCount)
  | 0x38 => some (.ddrUeAddr)
  | 0x40 => some (.ddrScrubCtrl)
  | 0x48 => some (.ddrScrubLast)
  | 0x50 => some (.ddrFillBase)
  | 0x58 => some (.ddrFillLen)
  | 0x60 => some (.ddrFillCtrl)
  | 0x68 => some (.ddrMcCause)
  | _ => none

/-- Registers of the Lcs block by offset within the block or instance. -/
def Reg.ofLcs (o : Nat) : Option Reg :=
  match o with
  | 0x0 => some (.lcsState)
  | 0x4 => some (.lcsOtpGroup)
  | 0x8 => some (.lcsSecret)
  | 0xC => some (.lcsMin)
  | 0x10 => some (.lcsPp)
  | _ => none

/-- Registers of the Dbg block by offset within the block or instance. -/
def Reg.ofDbg (o : Nat) : Option Reg :=
  match o with
  | 0x0 => some (.dbgRights)
  | 0x4 => some (.dbgStat)
  | 0x8 => some (.dbgAuthHId)
  | 0xC => some (.dbgAuthIId)
  | 0x10 => some (.dbgOpenTime)
  | 0x18 => some (.dbgChalExpiry)
  | 0x20 => some (.dbgOpens)
  | _ => none

/-- Registers of the Tmp block by offset within the block or instance. -/
def Reg.ofTmp (o : Nat) : Option Reg :=
  match o with
  | 0x0 => some (.tmpCap)
  | 0x8 => some (.tmpEvtVector)
  | 0x10 => some (.tmpAlarm)
  | 0x14 => some (.tmpActive)
  | 0x18 => some (.tmpStatus)
  | 0x1C => some (.tmpCtrl)
  | 0x20 => some (.tmpVdd)
  | 0x28 => some (.tmpDipCount)
  | 0x2C => some (.tmpDipLongest)
  | 0x30 => some (.tmpTemp)
  | 0x34 => some (.tmpTempCtrl)
  | 0x38 => some (.tmpMag)
  | 0x3C => some (.tmpClk)
  | 0x40 => some (.tmpTime)
  | 0x48 => some (.tmpTimeGen)
  | 0x50 => some (.tmpIntegCount)
  | 0x54 => some (.tmpLogHead)
  | 0x58 => some (.tmpLogSeq)
  | _ => none

/-- Registers of the Rst block by offset within the block or instance. -/
def Reg.ofRst (o : Nat) : Option Reg :=
  match o with
  | 0x0 => some (.rstCause)
  | 0x4 => some (.rstLink)
  | 0x8 => some (.rstBoot)
  | 0xC => some (.rstCtrl)
  | 0x10 => some (.rstBlock)
  | 0x14 => some (.rstBlockStat)
  | 0x18 => some (.rstStartUs)
  | 0x20 => some (.rstServiceNs)
  | 0x28 => some (.rstWarmCount)
  | _ => none

/-- Registers of the Pwr block by offset within the block or instance. -/
def Reg.ofPwr (o : Nat) : Option Reg :=
  match o with
  | 0x0 => some (.pwrState)
  | 0x4 => some (.pwrMw)
  | 0x8 => some (.pwrMwPeak)
  | 0xC => some (.pwrRails)
  | 0x10 => some (.pwrStbyCount)
  | 0x14 => some (.pwrStbyExitUs)
  | _ => none

/-- The register at a BAR0 offset, channel 0 of the mailbox included (R20); none for a reserved offset. -/
def Reg.ofBar0 (a : Nat) : Option Reg :=
  if decide (0x0 ≤ a) && decide (a < 0x1000) then Reg.ofGen (a - 0x0)
  else if decide (0x10000 ≤ a) && decide (a < 0x18000) then Reg.ofMbx 0 (a - 0x10000)
  else if decide (0x100000 ≤ a) && decide (a < 0x120000) then Reg.ofSlm ((a - 0x100000) / 0x100) ((a - 0x100000) % 0x100)
  else if decide (0x400000 ≤ a) && decide (a < 0x600000) then Reg.ofQmg ((a - 0x400000) / 0x40) ((a - 0x400000) % 0x40)
  else if decide (0x800000 ≤ a) && decide (a < 0x801000) then Reg.ofFab (a - 0x800000)
  else if decide (0x801000 ≤ a) && decide (a < 0x801400) then Reg.ofMclog ((a - 0x801000) / 0x10) ((a - 0x801000) % 0x10)
  else if decide (0x802000 ≤ a) && decide (a < 0x802400) then Reg.ofIsl ((a - 0x802000) / 0x80) ((a - 0x802000) % 0x80)
  else if decide (0x803000 ≤ a) && decide (a < 0x803800) then Reg.ofPool ((a - 0x803000) / 0x40) ((a - 0x803000) % 0x40)
  else if decide (0x804000 ≤ a) && decide (a < 0x804600) then Reg.ofTile ((a - 0x804000) / 0x10) ((a - 0x804000) % 0x10)
  else if decide (0x806000 ≤ a) && decide (a < 0x806600) then Reg.ofShell ((a - 0x806000) / 0x10) ((a - 0x806000) % 0x10)
  else if decide (0xA00000 ≤ a) && decide (a < 0xA60000) then Reg.ofTil ((a - 0xA00000) / 0x1000) ((a - 0xA00000) % 0x1000)
  else if decide (0xC00000 ≤ a) && decide (a < 0xC01000) then Reg.ofHsf (a - 0xC00000)
  else if decide (0xC01000 ≤ a) && decide (a < 0xC01200) then Reg.ofPart ((a - 0xC01000) / 0x40) ((a - 0xC01000) % 0x40)
  else if decide (0xC40000 ≤ a) && decide (a < 0xC44000) then Reg.ofRde ((a - 0xC40000) / 0x400) ((a - 0xC40000) % 0x400)
  else if decide (0xC80000 ≤ a) && decide (a < 0xC81000) then Reg.ofBne (a - 0xC80000)
  else if decide (0xC81000 ≤ a) && decide (a < 0xC81200) then Reg.ofCore ((a - 0xC81000) / 0x40) ((a - 0xC81000) % 0x40)
  else if decide (0xC82000 ≤ a) && decide (a < 0xC82080) then Reg.ofGrp ((a - 0xC82000) / 0x10) ((a - 0xC82000) % 0x10)
  else if decide (0xD00000 ≤ a) && decide (a < 0xD01000) then Reg.ofKey (a - 0xD00000)
  else if decide (0xE00000 ≤ a) && decide (a < 0xE00100) then Reg.ofRng (a - 0xE00000)
  else if decide (0xE00100 ≤ a) && decide (a < 0xE00180) then Reg.ofCell ((a - 0xE00100) / 0x20) ((a - 0xE00100) % 0x20)
  else if decide (0xE00400 ≤ a) && decide (a < 0xE00800) then Reg.ofDrb ((a - 0xE00400) / 0x40) ((a - 0xE00400) % 0x40)
  else if decide (0xE80000 ≤ a) && decide (a < 0xE80100) then Reg.ofMem (a - 0xE80000)
  else if decide (0xE80100 ≤ a) && decide (a < 0xE80300) then Reg.ofBank ((a - 0xE80100) / 0x20) ((a - 0xE80100) % 0x20)
  else if decide (0xF00000 ≤ a) && decide (a < 0xF01000) then Reg.ofDdr (a - 0xF00000)
  else if decide (0xF80000 ≤ a) && decide (a < 0xF81000) then Reg.ofLcs (a - 0xF80000)
  else if decide (0xF81000 ≤ a) && decide (a < 0xF82000) then Reg.ofDbg (a - 0xF81000)
  else if decide (0xFC0000 ≤ a) && decide (a < 0xFC0100) then Reg.ofTmp (a - 0xFC0000)
  else if decide (0xFC0100 ≤ a) && decide (a < 0xFC0220) then Reg.ofSrc ((a - 0xFC0100) / 0x10) ((a - 0xFC0100) % 0x10)
  else if decide (0xFC0800 ≤ a) && decide (a < 0xFC0C00) then Reg.ofLog ((a - 0xFC0800) / 0x20) ((a - 0xFC0800) % 0x20)
  else if decide (0xFE0000 ≤ a) && decide (a < 0xFE1000) then Reg.ofRst (a - 0xFE0000)
  else if decide (0xFE1000 ≤ a) && decide (a < 0xFE2000) then Reg.ofPwr (a - 0xFE1000)
  else none

/-- The register at an offset of BAR2, the RDE context window apart (R47). -/
def Reg.ofBar2 (a : Nat) : Option Reg := if a < 0x200000 then Reg.ofPage (a / 0x1000) (a % 0x1000) else none

end Sys2Proof.Machine
end

