-- ==== Sys2Proof/Machine/State.lean ====
section
/-! DEFINITION. The state of the device as plain data, the reasons a step can stop, and the state after reset. -/

namespace Sys2Proof.Machine

/-- Why the machine stops with a fault. No command of this block does (errors are statuses, codes and resets, all of them
state); the one reason names a queue entry that no sender can build, so no meaning raises it. Safe. -/
inductive Fault where
  /-- Raised by no meaning. Safe. -/
  | impossible
  deriving DecidableEq, Repr

/-- Why a command has no meaning. -/
inductive Refusal where
  /-- Raised by Dispatch for a command that has no meaning yet. Safe: no claim can rest on it. -/
  | notModelled (mnemonic : String)
  /-- Raised by a command that acts on a unit whose behaviour the spec does not give. Safe. -/
  | unstatedUnit (what : String)
  deriving DecidableEq, Repr

/-- Configuration space and link state (R40, R41, R437, R454): Bus Master Enable, PASID Enable, the MSI-X function mask,
whether the link is in DL_Active, PERST_N asserted, the D-state (0 for D0, 3 for D3hot), and of Device Control the maximum
payload and read request in bytes and Enable Relaxed Ordering. The AER status bits are outside the model (log 77). -/
structure Pcie where
  busMaster : Bool
  pasidEnable : Bool
  functionMask : Bool
  dlActive : Bool
  perst : Bool
  dstate : Nat
  maxPayload : Nat
  maxRead : Nat
  relaxed : Bool
  deriving DecidableEq, Repr

/-- The configuration space's defaults (R40): the values the PCIe specification gives Device Control (PRESUMED, log 57). -/
def Pcie.init : Pcie where
  busMaster := false
  pasidEnable := false
  functionMask := false
  dlActive := false
  perst := false
  dstate := 0
  maxPayload := 128
  maxRead := 512
  relaxed := true

/-- The identity that configuration space shows (R40): Device ID, base class and sub-class. -/
def deviceId : Nat := 0x9640
def classCode : Nat := 0x108000

/-- One MSI-X table entry (R66). -/
structure MsixEntry where
  addr : DWord
  data : Word
  mask : Bool
  deriving DecidableEq, Repr

/-- What the device has sent outward. -/
inductive Sent where
  /-- A posted write to host memory, with the PASID it carries (R43) and its relaxed-ordering attribute (R40). -/
  | write (pasid : Option Nat) (relaxed : Bool) (addr : Nat) (bs : Bytes)
  /-- An MSI-X message (R66). -/
  | msix (v : Nat) (addr : DWord) (data : Word)
  /-- An in-band interrupt of the I3C target (R326). -/
  | ibi
  deriving DecidableEq, Repr

/-- A completion entry held behind a failed write (R74): its ring index, its bytes, whether it keeps a journal record (R357), whether
it counts for an interrupt, and whether it has not been in the ring before (else it is rewritten under R31). -/
structure Held where
  idx : Nat
  entry : Bytes
  journal : Bool
  int : Bool
  fresh : Bool
  deriving DecidableEq, Repr

/-- What a queue holds beside its registers: pending interrupts (R67); the entries held behind a failed write, in ring order (R74);
the shadow of the issued completions with their times, newest first (R31). -/
structure QueueX where
  pendInt : Nat
  /-- Completion entries written and not released (R54, R65). -/
  used : Nat
  held : List Held
  shadow : List (Nat × Nat × Bytes)
  deriving DecidableEq, Repr

/-- Where a job stands between its fetch and its completion entry (R16). -/
inductive Phase where
  /-- Fetched, waiting for a unit (or for its re-execution). -/
  | waiting
  /-- On a unit, its inputs being gathered. -/
  | started
  /-- Inputs and key are all in the unit. -/
  | gathered
  /-- A result stands, not yet checked and sealed. -/
  | computed
  /-- Sealed, or ended with a status: only the completion entry is due. -/
  | sealed
  deriving DecidableEq, Repr

/-- The slot change a job commits with its completion (R30). -/
inductive Commit where
  | none
  /-- Fill a slot with an attribute word and material. -/
  | fill (slot : Nat) (attr : DWord) (mat : Bytes)
  /-- Empty a slot: DESTROY. -/
  | empty (slot : Nat)
  /-- Empty the slot whose key a DECAPS with DESTROY_AFTER has consumed. -/
  | consume (slot : Nat)
  /-- Set a slot's memo depth. -/
  | memo (slot : Nat) (depth : Nat)
  deriving DecidableEq, Repr

/-- How a job, or a half of a hybrid job, ends: status, DETAIL, output and slot change. -/
structure Result where
  status : Nat
  detail : Nat
  out : Bytes
  commit : Commit
  deriving DecidableEq, Repr

/-- One half of a hybrid job (R18): `pool` is that of its last dispatch, so a half that waits with a pool awaits re-execution
(R34). -/
structure Half where
  phase : Phase
  unit : Option JobUnit
  pool : Option Nat
  result : Option Result
  deriving DecidableEq, Repr

/-- The tree whose memo entry it is (R221): slot, layer, tree. -/
structure MemoKey where
  slot : Nat
  layer : Nat
  tree : Nat
  deriving DecidableEq, Repr

/-- A fetched descriptor and what the device holds for it. -/
structure Job where
  id : Nat
  slice : Nat
  queue : Nat
  index : Nat
  desc : Bytes
  gather : List (Nat × Nat)
  phase : Phase
  unit : Option JobUnit
  pool : Option Nat
  /-- Executions that failed by a machine check or an error (R35). -/
  failures : Nat
  retried : Bool
  suspect : Bool
  /-- Waiting ahead of newer work of its priority (R34). -/
  ahead : Bool
  stretched : Bool
  /-- The job's yielded state on a BNE core (R257), and the catch points it has passed (R255). -/
  yielded : Bool
  catches : Nat
  /-- A journal record is reserved (R357). -/
  journal : Bool
  /-- The key read at step 5 of Table 03-5: absolute slot, attribute word, material; the same for KEY2_SLOT. -/
  slot : Option Nat
  attr : DWord
  key : Bytes
  attr2 : DWord
  key2 : Bytes
  /-- The stateful index taken (R228), none while it waits for one; the traversal state read with it (R233). -/
  sigIndex : Option Nat
  trav : Bytes
  /-- The generation of the key's counter cell, and the epoch, at the slot read (R231, Table 09-11). -/
  cellGen : Nat
  epoch : Option (Bytes × Nat)
  /-- Which fill of the slot the key read is (State.fills), and the slot's memo entries at the read (R225, Table 03-23). -/
  fillNo : Nat
  memo : List (MemoKey × Bytes)
  /-- The wait for a reservation has been counted (R228). -/
  ctrWait : Bool
  /-- A prediction-resistant draw has been served (R344); the job waits for a draw (R349). -/
  prGranted : Bool
  drawWait : Bool
  /-- The post-quantum half of a hybrid job waits for a draw. -/
  pqWait : Bool
  /-- Draws served to the operation that waits for its next one, oldest first; marked for the post-quantum half of a hybrid job. -/
  drawn : List (Bool × Bytes)
  /-- The cores of a hash-field gang (R214). -/
  gang : List Nat
  main : Bytes
  in2 : Bytes
  in3 : Bytes
  ctx : Bytes
  result : Option Result
  classical : Half
  pq : Half
  deriving DecidableEq, Repr

/-- A pool's scheduler (R70): the current slice, the slices visited in this round, the deficits. -/
structure CoxPool where
  current : Nat
  visited : List Nat
  /-- Queue last served of a slice at a priority, keyed `4 * slice + priority`. -/
  lastQueue : List (Nat × Nat)
  deficit : List (Nat × Nat)
  deriving DecidableEq, Repr

/-- What a slot holds of a key in a wrapped extent (R308): the IV, the length and the tag. -/
structure Extent where
  iv : Bytes
  len : Nat
  tag : Bytes
  deriving DecidableEq, Repr

/-- A key slot (R297, R301, R308): the key's material when it is held in the slot, attribute word and the word's inverse; the
modulus length of an RSA key (R480); the reference to its extent when it is held in one. -/
structure Slot where
  mat : Bytes
  attr : DWord
  inv : DWord
  k : Nat
  ext : Option Extent
  deriving DecidableEq, Repr

/-- An entry of the HMAC state cache (R243): the slot, the hash function, and the inner and the outer chaining state of the slot's key. -/
structure HmacEntry where
  slot : Nat
  hash : Nat
  inner : Bytes
  outer : Bytes
  deriving DecidableEq, Repr

/-- The state of a counter cell (R227). -/
inductive CellState where | free | used | retired
  deriving DecidableEq, Repr

/-- A counter cell (R227 to R234): LIMIT, generation and state in BBRAM; NEXT in secure SRAM (none while lost); the key's
capacity; a LIMIT write in flight; the freeing write of a DESTROY in flight; the SIGN jobs that wait for an index, in the order of
their slot reads; the traversal state being rebuilt; the bytes of traversal state held in LPDDR5X (none while lost). -/
structure Cell where
  limit : Nat
  gen : Nat
  state : CellState
  next : Option Nat
  cap : Nat
  writing : Option Nat
  freeing : Bool
  waiters : List Nat
  rebuilding : Bool
  traversal : Option Nat
  deriving DecidableEq, Repr

/-- The service state of a hash core, a BNE core or a tile (Tables 04-10, 06-2, 07-5). -/
inductive Svc where | unused | inService | offline | retired
  deriving DecidableEq, Repr

/-- A hash core: state, machine checks, a commanded BRING_UP in progress, a RETIRE waiting for resident work. -/
structure HCore where
  state : Svc
  mc : Nat
  cmd : Bool
  leaving : Bool
  deriving DecidableEq, Repr

/-- A resident entry of a BNE core (R258): generation, owner slice and operand (none when free). -/
structure Resident where
  gen : Nat
  owner : Option Nat
  val : Bytes
  deriving DecidableEq, Repr

/-- A BNE core: owners of the two frames, resident entries, BRING_UP in progress, RETIRE waiting. -/
structure BCore where
  f0 : Option Nat
  f1 : Option Nat
  res : List (Nat × Resident)
  cmd : Bool
  leaving : Bool
  deriving DecidableEq, Repr

/-- A shell record of a rig (R277, R278). -/
structure RigShell where
  num : Nat
  isl : Nat
  pool : Nat
  tiles : Nat
  slots : List (Nat × Nat)
  deriving DecidableEq, Repr

/-- A POOL record (R279). -/
structure RigPool where
  num : Nat
  kind : Nat
  size : Nat
  mode : Nat
  harden : Nat
  auto : Nat
  kset : Nat
  alg : Nat
  deriving DecidableEq, Repr

/-- An entry of a KERNEL_SET record (Table 08-5). -/
structure KernelEntry where
  opcode : Nat
  set : Nat
  gang : Nat
  cost : Nat
  pc : Nat
  phases : Nat
  wdog : List Nat
  deriving DecidableEq, Repr

/-- A KERNEL_SET record (R281). -/
structure KernelSet where
  id : Nat
  target : Nat
  harden : Nat
  entries : List KernelEntry
  code : List Nat
  deriving DecidableEq, Repr

/-- An HSF_PARTITION record (R280). -/
structure RigPart where
  num : Nat
  pool : Nat
  groups : Nat
  kc : Nat
  shc : Nat
  deriving DecidableEq, Repr

/-- A BNE_GROUP record (R280). -/
structure RigGroup where
  num : Nat
  pool : Nat
  cores : Nat
  alg : Nat
  deriving DecidableEq, Repr

/-- A SLICE_DEFAULTS record (R283). -/
structure RigSlices where
  first : Nat
  count : Nat
  drb : Nat
  mask : Nat
  weights : List Nat
  deriving DecidableEq, Repr

/-- A rig image as read (R271 to R284): the bytes from the header up to SIG_MLDSA, the header's fields and the records. -/
structure Rig where
  signed : Bytes
  flags : Nat
  stepping : Nat
  version : Nat
  svn : Nat
  pos : Nat
  minDdr : Nat
  base : Bytes
  mcLimit : Nat
  memoBase : Nat
  memoSize : Nat
  islands : List (Nat × Nat × Nat)
  roles : List Nat
  shells : List RigShell
  pools : List RigPool
  ksets : List KernelSet
  parts : List RigPart
  groups : List RigGroup
  slices : List RigSlices
  banks : List Nat
  drbEnable : Nat
  drbScOnly : Nat
  raise : List Nat
  deriving DecidableEq, Repr

/-- A context of the register digest engine (R235 to R242) beside its registers: owner, the message bytes taken, the words in
the input buffer, the words held while FINISHING, the key bytes taken at the start of the message, the settings in force for
it, and CMD_STATUS of each path that has one. -/
structure Rde where
  owner : Option Claimant
  msg : Bytes
  buffered : Nat
  heldWords : List DWord
  key : Bytes
  hash : Nat
  mac : Nat
  tagLen : Nat
  len : Nat
  cmd : List (Claimant × Nat)
  deriving DecidableEq, Repr

/-- The entropy source and the waits at the DRBG instances beside their registers (R343 to R350): prediction-resistant demands
waiting as (instance, job, bytes), where no job is the SC's own; instances in the order they reached the limit, the restart under way
(0 none, 1 to 3 after a failure, 4 commanded), the entropy pool, the instantiated instances' states, the cells' health tests, and
whether the source has run for less than 10 s since a restart after a failure (R347). -/
structure Rng where
  prWait : List (Nat × Option Nat × Nat)
  limitOrder : List Nat
  restart : Nat
  pool : Bytes
  inst : List (Nat × DrbgState)
  tests : List (Nat × CellTest)
  recent : Bool
  deriving DecidableEq, Repr

/-- A live re-rig of one pool (R292): the pool, the image and the rig it replaces, its bytes and destination copy, whether the
commit has been made and the pool's jobs are sealed, and the cores whose joining BIST still runs. -/
structure ReRig where
  pool : Nat
  image : Rig
  old : Rig
  bytes : Bytes
  copy : Nat
  committed : Bool
  drained : Bool
  testing : List Nat
  deriving DecidableEq, Repr

/-- The sponge of a tile (Table 05-1): the 25 lanes (none listed: all zero), SPINIT's mode, squeezing, the byte position in the
block and the permutations since SPFIN. -/
structure Sponge where
  lanes : List DWord
  mode : Nat
  squeezing : Bool
  pos : Nat
  perms : Nat
  deriving DecidableEq, Repr

/-- A background transfer of a tile (R185, R191, R192): a ring send or receive, a copy of job input, a DRBG draw. -/
inductive Xfer where
  | send (dst addr len : Nat)
  | recv (src addr len : Nat)
  | input (which off addr len : Nat)
  | draw (addr len : Nat)
  deriving DecidableEq, Repr

/-- What an instruction that runs beat by beat has drawn and kept when it began (R186, R187, R196): the order of its beats, the
order of the lanes within a beat, source A as it stood, and its mask bytes. -/
structure BeatCtx where
  order : List Nat
  lanes : List Nat
  src : List Word
  masks : Bytes
  deriving DecidableEq, Repr

/-- A halt of an attached tile (R196, R197, R199): its cause, the resume index, what the stopped instruction had drawn, the
instruction stopped part-way (none between instructions), whether it is imprecise and whether a resume restarts it. -/
structure Halt where
  cause : Nat
  resume : Nat
  ctx : BeatCtx
  instr : Option (Nat × TileFields)
  imprecise : Bool
  restartable : Bool
  deriving DecidableEq, Repr

/-- What a tile's BIST was started for (Tables 04-8 to 04-10, R168, R292, R439). -/
inductive BistFor where
  /-- A machine check, with its log entry and the time in it. -/
  | check (entry time : Nat)
  /-- BRING_UP. -/
  | bringUp
  /-- An island that wakes. -/
  | wake
  /-- RST_BLOCK. -/
  | block
  /-- A unit that joins or leaves a re-rigged pool. -/
  | join
  /-- A spare whose periodic BIST has passed but which has no seed (R164). -/
  | spare
  deriving DecidableEq, Repr

/-- A tile: whether it runs a job and has executed END in it, the architectural state of Table 05-1, the job constants of
Table 05-2, the background transfers, the debug halt, a breakpoint passed once; and outside jobs: the BIST under way, a BIST
that waits for a seed, the periodic BIST, and the state to return to after gating, a block reset or a BIST. -/
structure Tile where
  running : Bool
  ended : Bool
  s : List (Nat × Word)
  v : List (Nat × BitVec 256)
  p : List (Nat × List Word)
  cflag : Bool
  pc : Nat
  cq16 : Nat
  cq32 : Nat
  phase : Nat
  phases : Nat
  cycles : Nat
  pos : Nat
  size : Nat
  op : Nat
  param : Nat
  harden : Nat
  /-- Operand memory, with the job frame and the key area; unlisted bytes are zero. -/
  mem : List Host.Cell
  sponge : Sponge
  sealBuf : Bytes
  /-- The job whose output the seal buffer holds. -/
  sealOf : Option Nat
  imem : List Nat
  xfers : List Xfer
  halt : Option Halt
  passBp : Bool
  /-- A HALT request waits for this many further beats to end (R196). -/
  haltIn : Option Nat
  /-- The mask generator's SHAKE256 state (none listed: never seeded), at its next block of output, and the mask FIFO: what it
  has produced and no instruction has drawn (R157, Table 05-1). -/
  gen : List DWord
  fifo : Bytes
  /-- Patch RAM, word 0 first, and the entries of the match table (R202, R204). -/
  patch : List Nat
  matchTab : List Nat
  bist : Option BistFor
  unseeded : Bool
  periodic : Bool
  back : Nat
  /-- The shell a chosen spare is joining (R161). -/
  joining : Option Nat
  deriving DecidableEq, Repr

/-- A tile that runs nothing: registers and memory zero. -/
def Tile.idle : Tile where
  running := false
  ended := false
  s := []
  v := []
  p := []
  cflag := false
  pc := 0
  cq16 := 3329
  cq32 := 8380417
  phase := 0
  phases := 0
  cycles := 0
  pos := 0
  size := 0
  op := 0
  param := 0
  harden := 0
  mem := []
  sponge := ⟨[], 0, false, 0, 0⟩
  sealBuf := []
  sealOf := none
  imem := []
  xfers := []
  halt := none
  passBp := false
  haltIn := none
  gen := []
  fifo := []
  patch := []
  matchTab := []
  bist := none
  unseeded := false
  periodic := false
  back := 0
  joining := none

/-- OTP (R274, R387 to R389, R395, R414, R446): the five state groups of ten words, the two device-secret slots of nine words,
the device serial, the eight rig-authority positions and the debug positions H and I (digest and check word), the minimum
counters, the firmware-key and patch-key digests, and the response floors of the 18 monitor sources. -/
structure Otp where
  groups : List (List Nat)
  secretA : List Nat
  secretB : List Nat
  serial : Bytes
  rigPos : List (Bytes × Nat)
  authH : Bytes × Nat
  authI : Bytes × Nat
  debugMin : Nat
  rigSvn : Nat
  patchSvn : Nat
  fwSvn : Nat
  fwKeys : Bytes
  patchKeys : Bytes
  patchKey : Bytes
  floors : List Nat
  deriving DecidableEq, Repr

/-- BBRAM beside the counter cells, the event log and GEN_BOOT_SEQ (R312 to R314, R416, R423): whether it holds valid data, the
epoch's secret and identifier, TAMPER_SUMMARY, the vault's entries (attribute word and encrypted material), the lock flag, and the
sources that alarmed on the backup cell. -/
structure Bbram where
  valid : Bool
  epoch : Option (Bytes × Nat)
  summary : Nat
  vault : List (Nat × DWord × Bytes)
  lock : Bool
  alarmed : Nat
  deriving DecidableEq, Repr

/-- The firmware copy in force (R445, R446). -/
structure Firmware where
  copy : Nat
  version : Nat
  svn : Nat
  raise : Bool
  digest : Bytes
  patchKeys : Bytes
  deriving DecidableEq, Repr

/-- The microcode patch in force (R206, R207). -/
structure Patch where
  copy : Nat
  version : Nat
  svn : Nat
  raise : Bool
  digest : Bytes
  entries : List Nat
  words : List Bytes
  deriving DecidableEq, Repr

/-- A write session of FW_WRITE or PATCH_WRITE (R458): channel, flash copy, the bytes of the image taken. -/
structure Session where
  ch : Nat
  copy : Nat
  bytes : Bytes
  deriving DecidableEq, Repr

/-- A flash write in progress: the channel of its command, the flash copy, the image, and which command it is for. -/
inductive FlashFor where | rigWrite | rigPartial (pool : Nat) | rotate (pos : Nat)
  deriving DecidableEq, Repr

structure FlashJob where
  ch : Nat
  copy : Nat
  image : Bytes
  why : FlashFor
  deriving DecidableEq, Repr

/-- A life-cycle transition after presence (Table 12-2): its target, whether step 3 has wiped, how the programming that a dip or a
draw defers will end, and whether a dip of 5 ms has stopped it (R393). -/
structure Transition where
  target : Nat
  wiped : Bool
  due : Option OtpOutcome
  stopped : Bool
  deriving DecidableEq, Repr

/-- The mailbox beside its registers (R326, R289, R401): channels whose command is queued, oldest first; the channel whose command
is BUSY; the session; the flash job; the length of the staged rig image; the last rig result and its DETAIL; each channel's
response; a press that has served the command that waits, whose write a supply dip defers (R420). -/
structure Mailbox where
  queue : List Nat
  busy : Option Nat
  session : Option Session
  flash : Option FlashJob
  staged : Nat
  lastRig : Nat
  lastDetail : Nat
  rsp : List (Nat × Bytes)
  pressed : Bool
  deriving DecidableEq, Repr

/-- A supply dip (R420): the lowest VDD_CORE in mV, whether its 5 ms have passed, the class executed for its group, whether it joined a
group (SAME_TICK), and whether its group is the present one (R418). -/
structure Dip where
  lowest : Nat
  halted : Bool
  cls : Nat
  same : Bool
  grouped : Bool
  deriving DecidableEq, Repr

/-- What stood before an alarm of VDD_RESET that may still be discarded (R456): the log place it took and that entry's words, the log
head and SEQ, its bits of TMP_ALARM, of the summary and of ALARM_N's sources, and TMP_SRC_LAST. -/
structure VddUndo where
  place : Nat
  words : List DWord
  head : Nat
  seq : Nat
  latched : Bool
  noted : Bool
  drove : Bool
  last : DWord
  deriving DecidableEq, Repr

/-- A line of the tamper mesh (R409): its 31-bit shift register, whether the last bit period disagreed, and how many periods in a row
have ended like it. -/
structure MeshLine where
  lfsr : Nat
  bad : Bool
  run : Nat
  deriving DecidableEq, Repr

/-- The tamper response (R413, R418, R429): the class executed for the latest group, the group's log sequence numbers, a
HALT_SERVICE owed at the end of a start or of STANDBY (the source), the sources whose reset holds the start in the boot ROM (R411). -/
structure Tamper where
  running : Nat
  group : List Nat
  haltOwed : Option Nat
  holdStart : List Nat
  dip : Option Dip
  /-- An alarm of VDD_RESET whose response has not finished (R456). -/
  vddUndo : Option VddUndo
  /-- Whether HALTED stands for a dip, whose RESUME needs the recovery condition (R415). -/
  dipHalt : Bool
  /-- Sources whose alarm drove ALARM_N low and whose TMP_ALARM bit has not been cleared (R417); the AON holds it. -/
  drove : Nat
  /-- A temperature has been sampled since cold boot (TMP_TEMP.MAX). -/
  sampled : Bool
  /-- The AON's copy of the effective classes of sources 0 to 7, each with its inverted shadow (R422). -/
  aonClass : List (Nat × Nat)
  /-- Slots in whose attribute record a read has found a mismatch: the integrity response to it is due (R302). -/
  slotsDue : List Nat
  /-- The four lines of the mesh, none before the first seeding; a start has not seeded them yet (R409). -/
  mesh : List MeshLine
  meshDue : Bool
  deriving DecidableEq, Repr

/-- Reset and start (R433 to R452): a system reset holds the domains; the start in progress; whether the coming or present start is
cold; the block reset under way (kind, index); whether LPDDR5X has trained in this start; the boot keys (extent, memo, inline);
the firmware and the patch in force. -/
structure Boot where
  held : Bool
  starting : Bool
  cold : Bool
  block : Option (Nat × Nat)
  trained : Bool
  keys : Option (Bytes × Bytes × Bytes)
  firmware : Option Firmware
  patch : Option Patch
  /-- Work ended on the way into STANDBY (R455); islands gated by STANDBY. -/
  workEnded : Bool
  standbyGated : List Nat
  /-- The slices whose replay of R31 is due, with the time the link went down. -/
  replays : List (Nat × Nat)
  /-- A link reset of R437 waits for DL_Active. -/
  linkDown : Bool
  /-- A controller machine check ended the previous run (R373): DDR_EVT_STATUS.MC is due at the start. -/
  ddrMc : Bool
  /-- The start holds in the boot ROM before its first step (R411, R459). -/
  romHold : Bool
  /-- The start cannot complete an interrupted life-cycle group (R392, R449). -/
  groupBad : Bool
  deriving DecidableEq, Repr

/-- Supplies and the AON (R422, R424, R456, R469): VDD_IO present, VBAT present, the AON powered, on the backup cell, the crystal
running, the power-on reset counting, nanoseconds not yet counted by the AON timestamp, SYSCLK within 24.0 to 26.0 MHz. -/
structure Power where
  io : Bool
  vbat : Bool
  aon : Bool
  backup : Bool
  crystal : Bool
  por : Bool
  rest : Nat
  sysclk : Bool
  deriving DecidableEq, Repr

/-- The pins the device drives or latches (Table 15-4), the I3C target (R477) and the TAP (R478): PLAT_HOLD_N high, ALARM_N low,
RESET_N driven low, the nanoseconds for which RESET_N is still driven or ignored (R440), GPIO[1:0], the dynamic address, in-band interrupts enabled, the register offset the last I3C write left,
the boundary-scan pins driven, the TAP in Test-Logic-Reset, the last bit shifted through BYPASS. -/
structure Pins where
  holdReleased : Bool
  alarmLow : Bool
  resetLow : Bool
  resetLeft : Nat
  gpio : Nat
  dynAddr : Option Nat
  ibi : Bool
  i3cAddr : Nat
  scan : Bytes
  tapReset : Bool
  bypass : Bool
  deriving DecidableEq, Repr

/-- Debug authorisation (R397 to R400): the outstanding challenge's nonce, the SC's record of the rights opened, and the units halted
through JTAG by the bit of their right (R396): BNE cores, and hash cores with RDE contexts from 128 on. -/
structure Debug where
  nonce : Option Bytes
  record : Nat
  halted : List (Nat × Nat)
  deriving DecidableEq, Repr

/-- OTP of a part in BLANK (log 9): no group, secret or position programmed, the minimum counters 0, the floors of Table 13-1. -/
def Otp.blank : Otp where
  groups := List.replicate 5 (List.replicate 10 0)
  secretA := List.replicate 9 0
  secretB := List.replicate 9 0
  serial := List.replicate 16 0
  rigPos := List.replicate 8 (List.replicate 48 0, 0)
  authH := (List.replicate 48 0, 0)
  authI := (List.replicate 48 0, 0)
  debugMin := 0
  rigSvn := 0
  patchSvn := 0
  fwSvn := 0
  fwKeys := List.replicate 48 0
  patchKeys := List.replicate 48 0
  patchKey := List.replicate 32 0
  floors := [5, 5, 5, 5, 5, 5, 1, 2, 1, 1, 4, 4, 2, 4, 4, 1, 3, 2]

/-- The device. -/
structure State where
  /-- Every register of the maps that has storage of its own, sparse over its reset value. -/
  regs : List (Reg × DWord)
  pcie : Pcie
  msix : List (Nat × MsixEntry)
  msixPend : List Nat
  qx : List (Nat × QueueX)
  jobs : List Job
  nextJob : Nat
  cox : List (Nat × CoxPool)
  /-- The fetch's round robin (R54): the slice last fetched for, and the queue index last fetched of each slice. -/
  fetchSlice : Nat
  fetchQueue : List (Nat × Nat)
  /-- Queues of a slice now quiescing whose fetch had begun (R80). -/
  fetchDue : List Nat
  rig : Option Rig
  reRig : Option ReRig
  /-- Jobs of each tile since its mask generator was seeded (R157). -/
  maskJobs : List (Nat × Nat)
  slots : List (Nat × Slot)
  /-- How often each slot has been filled: which key of a slot a job has read (the model's own). -/
  fills : List (Nat × Nat)
  /-- HMAC state cache, most recently used first (R243). -/
  hmac : List HmacEntry
  /-- The memo (R221): the entries held, each as the bytes of Table 06-4. -/
  memo : List (MemoKey × Bytes)
  cells : List (Nat × Cell)
  hcores : List (Nat × HCore)
  bcores : List (Nat × BCore)
  rde : List (Nat × Rde)
  rng : Rng
  /-- Scratch banks SB0 to SB15, bank `b` from `b * 4 MiB` on; unlisted bytes are zero (R363). -/
  sram : List Host.Cell
  /-- LPDDR5X by device address; unlisted bytes are zero (R375). -/
  ddr : List Host.Cell
  /-- First byte and length of the running fill (R379). -/
  ddrFill : Nat × Nat
  /-- Inverted shadow and committed copy of every shadowed register, sparse over its reset value (R427, R428). -/
  shadow : List (Reg × DWord × DWord)
  /-- Reported heads (R32): none since the last cold reset; else the queues whose VALID has been cleared since. -/
  reported : Option (List Nat)
  tiles : List (Nat × Tile)
  /-- Islands for which a write of GATE waits for a wake or a re-rig to end (R169, R294). -/
  gateWait : List Nat
  otp : Otp
  bbram : Bbram
  /-- Boot flash: firmware A, B (0, 1), patch A, B (2, 3), rig A, B (4, 5). -/
  flash : List (Nat × Bytes)
  mbx : Mailbox
  transition : Option Transition
  tamper : Tamper
  boot : Boot
  power : Power
  pins : Pins
  dbg : Debug
  /-- The data the last read, or fetching operation, returned, and whether its completion was poisoned (R362, R371). -/
  rdata : Bytes
  poisoned : Bool
  /-- What the device has sent to the host, newest last. -/
  out : List Sent
  /-- Free values drawn so far (log 7). -/
  freeCtr : Nat
  /-- The commands waiting, first in, first out. -/
  pending : List Instr
  deriving DecidableEq, Repr

/-- The device just after its first power-on reset (log 8). -/
def State.reset : State where
  regs := [(.rstCause, 1), (.pwrRails, 0x3F)]
  pcie := Pcie.init
  msix := []
  msixPend := []
  qx := []
  jobs := []
  nextJob := 0
  cox := []
  fetchSlice := 511
  fetchQueue := []
  fetchDue := []
  rig := none
  reRig := none
  maskJobs := []
  slots := []
  fills := []
  hmac := []
  memo := []
  cells := []
  hcores := []
  bcores := []
  rde := []
  rng := ⟨[], [], 0, [], [], [], false⟩
  sram := []
  ddr := []
  ddrFill := (0, 0)
  shadow := []
  reported := none
  tiles := []
  gateWait := []
  otp := Otp.blank
  bbram := ⟨false, none, 0, [], false, 0⟩
  flash := []
  mbx := ⟨[], none, none, none, 0, 0, 0, [], false⟩
  transition := none
  tamper := ⟨0, [], none, [], none, none, false, 0, false, [], [], [], false⟩
  boot := ⟨true, false, true, none, false, none, none, none, false, [], [], false, false, false, false⟩
  power := ⟨true, true, true, false, true, false, 0, true⟩
  pins := ⟨false, false, true, 10100000, 0, none, false, 0, [], false, false⟩
  dbg := ⟨none, 0, []⟩
  rdata := []
  poisoned := false
  out := []
  freeCtr := 0
  pending := []

end Sys2Proof.Machine
end

