-- ==== Sys2Proof/Machine/Ops.lean ====
section
/-! DEFINITION. The named operations over registers, messages, memories, key slots and jobs that the families share. -/

namespace Sys2Proof.Machine

/-- What a step answers. -/
abbrev Answer := Host.Outcome State Fault Refusal

/-- The stored value of a register. -/
def State.rd (s : State) (r : Reg) : DWord := tget r.resetVal r s.regs

/-- The registers of Table 13-6 that keep an inverted shadow (R427); slot attribute words keep theirs in the slot. -/
def Reg.shadowed : Reg → Bool
  | .lcsState | .dbgRights | .tmpSrcCfg _ | .tmpVdd | .tmpTempCtrl | .slmSliceCtrl _ | .slmSlicePasid _ | .slmSliceKeywin _ => true
  | _ => false

/-- The bits of a register that its shadow covers (Table 13-6): CLASS of TMP_SRC_CFG, WARN of TMP_VDD, all of the others. -/
def Reg.shadowBits (r : Reg) (v : DWord) : DWord :=
  match r with
  | .tmpSrcCfg _ => setF 0 10 8 (getF v 10 8)
  | .tmpVdd => setF 0 9 0 (getF v 9 0)
  | _ => v

/-- The inverted shadow and the committed copy of a register; as the register stands unless listed. -/
def State.shadowOf (s : State) (r : Reg) : DWord × DWord := tget (~~~s.rd r, s.rd r) r s.shadow

/-- Change a register; the bits written go to the shadow and to the committed copy alike, so that a disagreement in other bits
stands (R427). -/
def State.store (s : State) (r : Reg) (f : DWord → DWord) : State :=
  { s with regs := tset r (f (s.rd r)) s.regs
           shadow := if r.shadowed then tset r (~~~f (~~~(s.shadowOf r).1), f (s.shadowOf r).2) s.shadow else s.shadow }

/-- Store a register whole. -/
def State.wr (s : State) (r : Reg) (v : DWord) : State := s.store r (fun _ => v)

/-- A register and its inverted shadow disagree (R427). -/
def State.shadowBad (s : State) (r : Reg) : Bool := r.shadowed && r.shadowBits (~~~(s.shadowOf r).1) != r.shadowBits (s.rd r)

/-- What a register holds once the response to a disagreement with its shadow has run: the state last committed (R38). -/
def State.lastGood (s : State) (r : Reg) : DWord := if s.shadowBad r then (s.shadowOf r).2 else s.rd r

/-- A field of a register, as a number. -/
def State.fld (s : State) (r : Reg) (hi lo : Nat) : Nat := getF (s.rd r) hi lo

/-- Store a field of a register. -/
def State.setFld (s : State) (r : Reg) (hi lo x : Nat) : State := s.store r (fun v => setF v hi lo x)

/-- A bit of a register. -/
def State.bit (s : State) (r : Reg) (i : Nat) : Bool := getB (s.rd r) i

/-- Store a bit of a register. -/
def State.setBit (s : State) (r : Reg) (i : Nat) (b : Bool) : State := s.store r (fun v => setB v i b)

/-- Add to a counter that saturates at 32 bits. -/
def State.bump (s : State) (r : Reg) (d : Nat := 1) : State := s.setFld r 31 0 (satAdd 32 (s.fld r 31 0) d)

/-- Add one to a 64-bit counter. -/
def State.bump64 (s : State) (r : Reg) : State := s.wr r (s.rd r + 1)

/-- GEN_TIME in nanoseconds. -/
def State.now (s : State) : Nat := (s.rd .genTime).toNat

/-- A function applied only under a condition. -/
def State.onlyIf (s : State) (c : Bool) (f : State → State) : State := if c then f s else s

/-- A function over a list of indices, one after another. -/
def State.each {α : Type} (s : State) (l : List α) (f : State → α → State) : State := l.foldl f s

/-- A number added to a list that holds each number once. -/
def insertNat (n : Nat) (l : List Nat) : List Nat := if n ∈ l then l else l ++ [n]

/-- `n` fresh random bytes (log 7). -/
def State.draw (s : State) (n : Nat) : Bytes × State :=
  (bytesOf n (Config.random s.freeCtr), { s with freeCtr := s.freeCtr + 1 })

/-! ### Messages -/

/-- The MSI-X table entry of a vector; masked after reset. -/
def State.vector (s : State) (v : Nat) : MsixEntry := tget ⟨0, 0, true⟩ v s.msix

/-- A message that may go out now (R68). -/
def State.canSend (s : State) (v : Nat) : Bool := !(s.vector v).mask && !s.pcie.functionMask && s.pcie.busMaster

/-- A vector that its slice has enabled (R66): vectors from VEC_COUNT up never fire. -/
def State.vecEnabled (s : State) (v : Nat) : Bool := decide (v % 4 < s.fld (.slmSliceMsix (v / 4)) 2 0)

/-- A message falls due (R66, R68): sent, left pending, or lost while the link is down. -/
def State.sendMsix (s : State) (v : Nat) : State :=
  if !s.pcie.dlActive || !s.vecEnabled v then s
  else if s.canSend v then { s with out := s.out ++ [.msix v (s.vector v).addr (s.vector v).data] }
  else { s with msixPend := insertNat v s.msixPend }

/-- Send every pending message that may go out (R68). -/
def State.flushMsix (s : State) : State :=
  if !s.pcie.dlActive then s
  else { s with
    out := s.out ++ (s.msixPend.filter s.canSend).map (fun v => .msix v (s.vector v).addr (s.vector v).data)
    msixPend := s.msixPend.filter (fun v => !s.canSend v) }

/-- Set bit `i` of an event status register; its message goes, if enabled, when the bit becomes set (R170; log 58). -/
def State.event (s : State) (stat en vec : Reg) (i : Nat) : State :=
  let old := s.bit stat i
  let s := s.setBit stat i true
  if !old && s.bit en i && s.bit vec 31 then s.sendMsix (s.fld vec 10 0) else s

/-- An event of the fabric (R170). -/
def State.fabEvt (s : State) (i : Nat) : State := s.event .fabEvtStatus .fabEvtEnable .fabEvtVector i

/-- An event of the hash field (R245). -/
def State.hsfEvt (s : State) (i : Nat) : State := s.event .hsfEvtStatus .hsfEvtEnable .hsfEvtVector i

/-- An event of the BNE (R268). -/
def State.bneEvt (s : State) (i : Nat) : State := s.event .bneEvtStatus .bneEvtEnable .bneEvtVector i

/-- An event of the random number generator (R354). -/
def State.rngEvt (s : State) (i : Nat) : State := s.event .rngEvtStatus .rngEvtEnable .rngEvtVector i

/-- An event of the on-chip memory (R382). -/
def State.memEvt (s : State) (i : Nat) : State := s.event .memEvtStatus .memEvtEnable .memEvtVector i

/-- An event of the LPDDR5X controller (R383). -/
def State.ddrEvt (s : State) (i : Nat) : State := s.event .ddrEvtStatus .ddrEvtEnable .ddrEvtVector i

/-! ### Slices, queues and address windows -/

/-- SLM_SLICE_STAT.STATE: 0 DISABLED, 1 ACTIVE, 2 QUIESCING, 3 QUIESCED, 4 RESETTING. -/
def State.sliceState (s : State) (n : Nat) : Nat := s.fld (.slmSliceStat n) 2 0

/-- QMG_Q_CTRL.STATE: 0 DISABLED, 1 RUNNING, 2 ERROR, 3 DRAINING. -/
def State.queueState (s : State) (q : Nat) : Nat := s.fld (.qmgQCtrl q) 10 8

/-- The state of queue `q` replaced. -/
def State.setQueueState (s : State) (q x : Nat) : State := s.setFld (.qmgQCtrl q) 10 8 x

/-- A queue's further state. -/
def State.queueX (s : State) (q : Nat) : QueueX := tget ⟨0, 0, [], []⟩ q s.qx

/-- Change a queue's further state. -/
def State.setQueueX (s : State) (q : Nat) (f : QueueX → QueueX) : State := { s with qx := tset q (f (s.queueX q)) s.qx }

/-- Ring entries of a queue. -/
def State.ringSize (s : State) (q : Nat) : Nat := s.fld (.qmgQSize q) 16 0

/-- Jobs of a slice fetched and not completed. -/
def State.sliceInflight (s : State) (n : Nat) : Nat := (s.jobs.filter (fun j => decide (j.slice = n))).length

/-- Jobs of a queue fetched and not completed. -/
def State.queueInflight (s : State) (q : Nat) : Nat := (s.jobs.filter (fun j => decide (j.queue = q))).length

/-- An ownership register of the slice disagrees with its shadow: it takes no effect until the alarm's response has run (R38). -/
def State.sliceBad (s : State) (n : Nat) : Bool :=
  s.shadowBad (.slmSliceCtrl n) || s.shadowBad (.slmSlicePasid n) || s.shadowBad (.slmSliceKeywin n)

/-- Entries of a queue held that have not been in the ring. -/
def QueueX.freshHeld (x : QueueX) : Nat := (x.held.filter (·.fresh)).length

/-- QMG_Q_RPT_HEAD: a report covers every queue, a queue that was never written with head 0 (R32, R444). -/
def State.rptHead (s : State) (q : Nat) : DWord :=
  match s.reported with
  | some l => if q ∈ l then s.rd (.qmgQRptHead q) else setB (s.rd (.qmgQRptHead q)) 31 true
  | none => s.rd (.qmgQRptHead q)

/-- VALID of a queue's reported head is cleared. -/
def State.unreport (s : State) (q : Nat) : State :=
  { s.setBit (.qmgQRptHead q) 31 false with reported := s.reported.map (insertNat q) }

/-- The PASID that a slice's requests carry (R43). -/
def State.pasidOf (s : State) (n : Nat) : Option Nat :=
  let v := s.lastGood (.slmSlicePasid n)
  if getB v 31 then some (getF v 19 0) else none

/-- First slot and length of a slice's key window (R298). -/
def State.keyBase (s : State) (n : Nat) : Nat := getF (s.lastGood (.slmSliceKeywin n)) 16 0
def State.keyCount (s : State) (n : Nat) : Nat := getF (s.lastGood (.slmSliceKeywin n)) 49 32

/-- A host address range lies in DMA window `k` of a slice (R43, R46). -/
def State.inDmaWindow (s : State) (n k addr len : Nat) : Bool :=
  let base := s.fld (.slmSliceDmawinBase n k) 63 12 * 4096
  let last := s.fld (.slmSliceDmawinLimit n k) 63 12 * 4096 + 4095
  decide (base ≤ addr) && decide (addr + len ≤ last + 1) && decide (base ≤ last)

/-- A range lies in the window its ADDR_SPACE bit chooses (R23, R43); an empty range always does. -/
def State.inWindow (s : State) (n : Nat) (ddr : Bool) (addr len : Nat) : Bool :=
  if len = 0 then true
  else if ddr then decide (addr + len ≤ s.fld (.slmSliceDdrSize n) 36 12 * 4096)
  else if (s.pasidOf n).isSome then decide (addr + len ≤ 2 ^ 64)
  else (List.range 4).any (fun k => s.inDmaWindow n k addr len)

/-- Device address of an offset into a slice's LPDDR5X window. -/
def State.ddrAddr (s : State) (n off : Nat) : Nat := s.fld (.slmSliceDdrBase n) 35 12 * 4096 + off

/-- A request for a slice that the device does not issue (R41). -/
def State.hostFault (s : State) (n : Nat) : Bool :=
  !s.pcie.busMaster || ((s.pasidOf n).isSome && !s.pcie.pasidEnable)

/-- LPDDR5X can be read: the inline key is valid and initialisation done (R374, R375). -/
def State.ddrReady (s : State) : Bool := s.bit .ddrStat 1 && s.bit .ddrStat 2

/-- A read the device makes for a slice: from host memory the data arrives with the command, unless the request is not issued
(R41); from LPDDR5X it is what the memory holds, unless the command says the code fails (R371), and zeros while no key is valid
(R374). -/
def State.gatherRead (s : State) (n : Nat) (ddr : Bool) (addr len : Nat) (d : DmaResult) : DmaResult :=
  if len = 0 then .data []
  else if ddr then
    if !s.ddrReady then .data (zeros len)
    else match d with
      | .ecc l => .ecc l
      | _ => .data (Memory.read (s.ddrAddr n addr) len s.ddr)
  else if s.hostFault n then .fault none
  else match d with
    | .data bs => .data (padTo len bs)
    | .fault e => .fault e
    | .ecc _ | .corrected => .fault none

/-- An uncorrectable LPDDR5X error at a device address: counted, its line held, and reported (R371). -/
def State.ddrUe (s : State) (a : Nat) : State := ((s.bump .ddrUeCount).setFld .ddrUeAddr 36 6 (a / 64)).ddrEvt 0

/-- The address of line `k` of a list of ranges, one range's lines after another's; the last line beyond them. -/
def lineOf : List (Nat × Nat) → Nat → Nat
  | [], _ => 0
  | [e], k => min (e.1 / 64 + k) ((e.1 + e.2 - 1) / 64) * 64
  | e :: l, k =>
    let n := (e.1 + e.2 + 63) / 64 - e.1 / 64
    if k < n then (e.1 / 64 + k) * 64 else lineOf l (k - n)

/-- What a read of ranges of device addresses meets is counted: an uncorrectable error with its line, or a corrected one (R371). -/
def State.metLines (s : State) (l : List (Nat × Nat)) (d : DmaResult) : State :=
  match d with
  | .ecc k => s.ddrUe (lineOf l k)
  | .corrected => s.bump .ddrCeCount
  | _ => s

/-- The same for a read of a slice's window. -/
def State.metUe (s : State) (n : Nat) (ddr : Bool) (addr len : Nat) (d : DmaResult) : State :=
  if ddr && s.ddrReady && len != 0 then s.metLines [(s.ddrAddr n addr, len)] d else s

/-- A posted write split at the programmed payload size and at every 4 KiB address boundary (R40); `fuel` bounds the pieces. -/
def splitWrite (mps : Nat) : Nat → Nat → Bytes → List (Nat × Bytes)
  | 0, _, _ => []
  | fuel + 1, addr, bs =>
    if bs.isEmpty then []
    else
      let k := min mps (4096 - addr % 4096)
      (addr, bs.take k) :: splitWrite mps fuel (addr + k) (bs.drop k)

/-- The writes by which the device posts bytes to host memory for slice `n` (R40, R43). -/
def State.posted (s : State) (n addr : Nat) (bs : Bytes) (relaxed : Bool) : List Sent :=
  (splitWrite (max 1 s.pcie.maxPayload) bs.length addr bs).map (fun e => .write (s.pasidOf n) relaxed e.1 e.2)

/-- A write to host memory or to a slice's LPDDR5X window, where it has no effect while no key is valid (R374); relaxed ordering only for
output data (R40). -/
def State.postWrite (s : State) (n : Nat) (ddr : Bool) (addr : Nat) (bs : Bytes) (relaxed : Bool := false) : State :=
  if bs.isEmpty then s
  else if ddr then (if s.ddrReady then { s with ddr := Memory.write (s.ddrAddr n addr) bs s.ddr } else s)
  else { s with out := s.out ++ s.posted n addr bs relaxed }

/-! ### Tiles and shells -/

/-- A tile. -/
def State.tile (s : State) (t : Nat) : Tile := tget Tile.idle t s.tiles

/-- Change a tile. -/
def State.setTile (s : State) (t : Nat) (f : Tile → Tile) : State := { s with tiles := tset t (f (s.tile t)) s.tiles }

/-- FAB_SHELL_MAP.STATE: 0 UNUSED, 1 IN_SERVICE, 2 REPAIRING, 3 OUT, 4 LEAVING, 5 GATED. -/
def State.shellState (s : State) (sh : Nat) : Nat := s.fld (.fabShellMap sh) 26 24

/-- Tiles of a shell, lowest first. -/
def State.shellTiles (s : State) (sh : Nat) : List Nat :=
  ((List.range 12).filter (fun i => (s.fld (.fabShellMap sh) 11 0).testBit i)).map (fun i => 12 * s.fld (.fabShellMap sh) 14 12 + i)

/-- A counter of cycles rises. -/
def State.moreCycles (s : State) (r : Reg) (n : Nat) : State := s.wr r (s.rd r + BitVec.ofNat 64 n)

/-- A counter of cycles rises by a number the spec's timing does not fix: a free value (log 4). -/
def State.addCycles (s : State) (r : Reg) : State :=
  let (b, s) := s.draw 4
  s.moreCycles r (leNat b)

/-- The end-of-job wipe (R193): everything a kernel sees. -/
def Tile.wipe (x : Tile) : Tile :=
  { Tile.idle with imem := x.imem, bist := x.bist, unseeded := x.unseeded, periodic := x.periodic, back := x.back
                   gen := x.gen, fifo := x.fifo, patch := x.patch, matchTab := x.matchTab }

/-- A tile loses power, or is zeroised: its mask generator, kernels and patch RAM go with the rest. -/
def Tile.clear (x : Tile) : Tile := { x.wipe with gen := [], fifo := [], imem := [], patch := [], matchTab := [] }

/-- A tile that is gated from state `st` (R168): a BIST that a machine check or BRING_UP asked for stays due (R162, R165). -/
def Tile.gate (x : Tile) (st : Nat) : Tile :=
  { x.clear with
    back := st, unseeded := false, periodic := false, joining := none
    bist := match x.bist with
      | some (.check e now) => some (.check e now)
      | some .bringUp => some .bringUp
      | _ => none }

/-- A tile leaves its job: wiped; a halt ends with ABANDONED (R201). -/
def State.wipeTile (s : State) (t : Nat) : State :=
  let s := if (s.tile t).halt.isSome then (s.setBit (.tilDbgStat t) 1 true).setFld (.tilDbgStat t) 11 8 0 else s
  s.setTile t Tile.wipe

/-- The shells a job or its half runs on. -/
def Job.shells (j : Job) : List Nat :=
  (j.unit.toList ++ j.pq.unit.toList).filterMap (fun u => match u with
    | .shell sh => some sh
    | _ => none)

/-- A running tile leaves its job: its tc are counted (those of a kernel as it ran, of a whole job a free value, log 4) and it is
wiped, but for the seal buffer of a job whose output is still to be written (R193, R210). -/
def State.freeTile (s : State) (t : Nat) : State :=
  let x := s.tile t
  if !x.running then s
  else
    let s := if x.cycles = 0 then s.addCycles (.tilBusyTc t) else s.moreCycles (.tilBusyTc t) x.cycles
    (s.wipeTile t).setTile t (fun y => { y with sealBuf := x.sealBuf, sealOf := x.sealOf })

/-- Every tile of a job's shells is wiped. -/
def State.freeShells (s : State) (j : Job) : State := s.each (j.shells.flatMap s.shellTiles) State.freeTile

/-! ### What the host reaches (R15, R331, R386, R451) -/

/-- DEV_STATE (R24): 0 BOOT, 1 SERVICE, 2 HALTED, 3 RECOVERY, 4 STANDBY, 5 BLANK, 6 SCRAPPED, 15 LOCKED. -/
def State.devState (s : State) : Nat := s.fld .genState 3 0

/-- A tile is being reset: its BIST runs, or its island has no power (R15, R168). -/
def State.tileInReset (s : State) (t : Nat) : Bool := (s.tile t).bist.isSome || s.fld (.fabIslStat (t / 12)) 6 4 == 3

/-- The blocks that stay readable whatever the state, and those that RECOVERY adds (R386, R451). -/
def Reg.block (r : Reg) : Nat :=
  match r.space with
  | .bar2 => 4
  | .mbx _ => 1
  | .bar0 =>
    let a := r.offset
    if a < 0x10000 then 0 else if 0xF80000 ≤ a ∧ a < 0xFC0000 then 2 else if 0xFC0000 ≤ a then 3 else 4

/-- The clock domain that holds a register (Table 01-1); an island's for a tile's page. -/
def Reg.domain (r : Reg) : Nat :=
  match r.space with
  | .bar2 => 3
  | .mbx _ => 15
  | .bar0 =>
    let a := r.offset
    if a < 0x10000 then 1 else if a < 0xA00000 then 3 else if a < 0xA60000 then 4 + (a - 0xA00000) / 0x1000 / 12
    else if a < 0xC40000 then 12 else if a < 0xC80000 then 15 else if a < 0xD00000 then 13 else if a < 0xE80000 then 15
    else if a < 0xF00000 then 16 else if a < 0xF80000 then 14 else if a < 0xFC0000 then 15 else 1

/-- The tile whose page holds a register. -/
def Reg.tileOf (r : Reg) : Option Nat :=
  match r.space with
  | .bar0 => if 0xA00000 ≤ r.offset ∧ r.offset < 0xA60000 then some ((r.offset - 0xA00000) / 0x1000) else none
  | _ => none

/-- A register that reads zero and ignores writes: its block is in reset (R15), or the device's state does not show it
(R331, R386, R451). GEN and the reset controller answer always. -/
def State.hidden (s : State) (r : Reg) : Bool :=
  (s.devState == 6 && decide (3 ≤ r.block)) || (s.devState == 3 && decide (4 ≤ r.block))
    || (r.domain != 1 && s.bit .genXingQuiet r.domain) || (r.tileOf.map s.tileInReset).getD false

/-- A host access to a register that has an effect only while the register is shown. -/
def State.hostTo (s : State) (r : Reg) (f : State → State) : State := if s.hidden r then s else f s

/-! ### Jobs -/

/-- The job of a number, if it is in flight. -/
def State.job? (s : State) (j : Nat) : Option Job := s.jobs.find? (fun x => decide (x.id = j))

/-- Change one job. -/
def State.setJob (s : State) (j : Nat) (f : Job → Job) : State :=
  { s with jobs := s.jobs.map (fun x => if x.id = j then f x else x) }

/-- The counter cell of a number: free with generation 0 unless listed (R227). -/
def State.cell (s : State) (c : Nat) : Cell := tget ⟨0, 0, .free, none, 0, none, false, [], false, none⟩ c s.cells

/-- Store a counter cell. -/
def State.setCell (s : State) (c : Nat) (x : Cell) : State := { s with cells := tset c x s.cells }

/-- The cell a stateful KEYGEN in flight has taken (R227); a SIGN's `sigIndex` is its index instead. -/
def Job.newCell (j : Job) : Option Nat := if (j.attr.toNat).testBit 4 then none else j.sigIndex

/-- A KEYGEN that ends without filling its slot gives its cell back: no key and no blob has named it (R29). -/
def State.dropCell (s : State) (j : Job) : State :=
  match j.newCell with
  | some c => s.setCell c { s.cell c with state := .free, writing := none, next := none }
  | none => s

/-- A result without output or slot change. -/
def Result.fail (status detail : Nat) : Result := ⟨status, detail, [], .none⟩

/-- DONE with an output. -/
def Result.done (out : Bytes) : Result := ⟨0, 0, out, .none⟩

/-! ### Key slots -/

/-- The slot of an absolute number; empty unless listed (R301). -/
def State.slotAt (s : State) (a : Nat) : Slot := tget ⟨[], 0, BitVec.allOnes 64, 0, none⟩ a s.slots

/-- VALID of an attribute word (Table 09-1). -/
def attrValid (w : DWord) : Bool := getB w 0

/-- The slot holds a key and is not consumed: what later jobs see as filled. -/
def Slot.filled (x : Slot) : Bool := attrValid x.attr

/-- OWNER of an attribute word. -/
def attrOwner (w : DWord) : Nat := getF w 41 32

/-- CLASS of an attribute word. -/
def attrClass (w : DWord) : Nat := getF w 31 24

/-- SET of an attribute word. -/
def attrSet (w : DWord) : Nat := getF w 23 16

/-- CELL of an attribute word. -/
def attrCell (w : DWord) : Nat := getF w 57 48

/-- Memo depth of an attribute word. -/
def attrMemo (w : DWord) : Nat := getF w 62 58

/-- Which fill of slot `a` stands in it, or stood last. -/
def State.fillOf (s : State) (a : Nat) : Nat := tget 0 a s.fills

/-- The slot of a job still holds the key that the job has read. -/
def State.holdsKey (s : State) (j : Job) : Bool :=
  (s.slotAt (j.slot.getD 0)).filled && decide (s.fillOf (j.slot.getD 0) = j.fillNo)

/-- Drop the HMAC cache entries of a slot (R243). -/
def State.dropHmac (s : State) (a : Nat) : State := { s with hmac := s.hmac.filter (fun e => e.slot ≠ a) }

/-- Change a slot's attribute word alone. -/
def State.putAttr (s : State) (a : Nat) (attr : DWord) : State :=
  let x := s.slotAt a
  ({ s with slots := tset a { x with attr := attr, inv := ~~~attr } s.slots }).dropHmac a

/-- A slot emptied: material and record overwritten, cached states and memo gone (R307). -/
def State.clearSlot (s : State) (a : Nat) : State :=
  ({ s with slots := s.slots.filter (fun e => e.1 ≠ a)
            memo := s.memo.filter (fun m => m.1.slot ≠ a) }).dropHmac a

/-- Slots filled that name a counter cell. -/
def State.cellSlots (s : State) (c : Nat) : List Nat :=
  (s.slots.filter (fun e => e.2.filled && getB e.2.attr 4 && decide (attrCell e.2.attr = c))).map (·.1)

/-- A slot is the last one bound to a counter cell in use (R231, R307). -/
def State.lastOfCell (s : State) (a : Nat) : Bool :=
  let w := (s.slotAt a).attr
  getB w 4 && decide (s.cellSlots (attrCell w) = [a]) && decide ((s.cell (attrCell w)).state = .used)

/-- A slot's attribute word and its inverse disagree (R302). -/
def State.slotBad (s : State) (a : Nat) : Bool := (s.slotAt a).inv != ~~~(s.slotAt a).attr

/-- The slots whose attribute word is read and found to disagree with its inverse: the response is due (R302). -/
def State.dueSlots (s : State) (l : List Nat) : State :=
  { s with tamper := { s.tamper with slotsDue := s.tamper.slotsDue ++ l.filter s.slotBad } }

/-- A debug right is in force (R396). -/
def State.right (s : State) (k : Nat) : Bool := s.bit .dbgRights k && !s.shadowBad .dbgRights

/-- A BNE core (right 4), a hash core or an RDE context (right 5) is halted through JTAG, while its right is in force (R396). -/
def State.jtagHalted (s : State) (k u : Nat) : Bool := s.right k && decide ((k, u) ∈ s.dbg.halted)

/-- The unit is halted through JTAG. -/
def State.unitHalted (s : State) : JobUnit → Bool
  | .bne c _ => s.jtagHalted 4 c
  | .hash k => s.jtagHalted 5 k
  | .shell _ | .sc => false

/-- The test root is in force (R318). -/
def State.testRoot (s : State) : Bool := s.bit .genState 5

/-- A slot or vault attribute word is sealed: made under the root not in force (R319). -/
def State.sealedAttr (s : State) (w : DWord) : Bool := getB w 5 != s.testRoot

/-! ### Free lists -/

/-- Numbers below `n` that satisfy a test, in order. -/
def below (n : Nat) (p : Nat → Bool) : List Nat := (List.range n).filter p

/-- The first number below `n` that satisfies a test. -/
def firstBelow (n : Nat) (p : Nat → Bool) : Option Nat := (List.range n).find? p

/-- The mask whose bits are the numbers below `n` that satisfy a test. -/
def maskOf (n : Nat) (p : Nat → Bool) : Nat := ((List.range n).map (fun i => if p i then 2 ^ i else 0)).sum

/-- How many of the bits below `n` are set. -/
def popCount (n x : Nat) : Nat := ((List.range n).filter (fun i => x.testBit i)).length

end Sys2Proof.Machine
end

