-- ==== Sys2Proof/Machine/Operands.lean ====
section
/-! DEFINITION. Operand forms of the operation catalogue: the descriptor's fields, which an operation uses, and the checks of
steps 1 to 4 of Table 03-5 (R58, R60, R82 to R93). -/

namespace Sys2Proof.Machine

/-! ### Fields of a descriptor (Tables 02-5 and 03-4) -/

def dOp (d : Bytes) : Nat := leAt d 0 2
def dClass (d : Bytes) : Nat := leAt d 1 1
def dSub (d : Bytes) : Nat := leAt d 0 1
def dFlags (d : Bytes) : Nat := leAt d 2 1
def dFlag (d : Bytes) (i : Nat) : Bool := (dFlags d).testBit i
/-- PRIORITY, clamped (R69). -/
def dPrio (d : Bytes) : Nat := min 3 (leAt d 3 1)
def dTag (d : Bytes) : Bytes := slice d 4 4
def dKey (d : Bytes) : Nat := leAt d 8 4
def dParam (d : Bytes) : Nat := leAt d 12 4
def dInAddr (d : Bytes) : Nat := leAt d 16 8
def dInLen (d : Bytes) : Nat := leAt d 24 4
def dSgl (d : Bytes) : Nat := leAt d 28 4
def dOutAddr (d : Bytes) : Nat := leAt d 32 8
def dOutLen (d : Bytes) : Nat := leAt d 40 4
def dAux (d : Bytes) : Nat := leAt d 44 4
def dIn2Addr (d : Bytes) : Nat := leAt d 48 8
def dIn2Len (d : Bytes) : Nat := leAt d 56 4
def dKey2 (d : Bytes) : Nat := leAt d 60 4
def dCtxAddr (d : Bytes) : Nat := leAt d 64 8
def dCtxLen (d : Bytes) : Nat := leAt d 72 4
def dIn3Addr (d : Bytes) : Nat := leAt d 80 8
def dIn3Len (d : Bytes) : Nat := leAt d 88 4
def dInline (d : Bytes) : Bytes := slice d 96 32

/-! ### PARAM (Table 03-2) -/

def pSet (p : Nat) : Nat := p % 256
def pHash (p : Nat) : Nat := p / 256 % 16
def pVariant (p : Nat) : Nat := p / 4096 % 16
def pInline (p : Nat) : Bool := p.testBit 16
def pDestroyAfter (p : Nat) : Bool := p.testBit 17
def pPredRes (p : Nat) : Bool := p.testBit 18
def pDigestIn (p : Nat) : Bool := p.testBit 19

/-- The opcodes of Table 03-1. -/
def opDefined (op : Nat) : Bool :=
  let c := op / 256
  let o := op % 256
  match c with
  | 0x01 | 0x02 | 0x03 | 0x04 | 0x05 | 0x06 | 0x10 => decide (1 ≤ o) && decide (o ≤ 3)
  | 0x08 => decide (o ∈ [1, 2, 3, 6, 7])
  | 0x09 => decide (o ∈ [1, 2, 3, 6])
  | 0x0A => decide (o ∈ [1, 2, 3, 4, 5, 8, 9])
  | 0x0B => decide (1 ≤ o) && decide (o ≤ 5)
  | 0x0C => decide (1 ≤ o) && decide (o ≤ 4)
  | 0x0D => decide (1 ≤ o) && decide (o ≤ 8)
  | 0x0E => o == 1
  | _ => false

/-- Whether a class has a parameter set of that code (R83); class 0x0B takes every code (R127). -/
def setDefined (c set : Nat) : Bool := match c with
  | 0x01 | 0x02 | 0x06 | 0x08 => decide (1 ≤ set) && decide (set ≤ 3)
  | 0x03 => decide (1 ≤ set) && decide (set ≤ 12)
  | 0x04 => set == 1
  | 0x05 | 0x10 => decide (1 ≤ set) && decide (set ≤ 2)
  | 0x09 => decide (1 ≤ set) && decide (set ≤ 4)
  | 0x0B => true
  | _ => set == 0

/-- UNWRAP and WRAP of a device blob (KEY2_SLOT 0xFFFF_FFFF), not under AES-KWP. -/
def isBlob (d : Bytes) : Bool := dKey2 d == 0xFFFFFFFF

/-- SET is defined for the operation. -/
def setOk (d : Bytes) : Bool :=
  let set := pSet (dParam d)
  match dOp d with
  | 0x0902 | 0x0903 => decide (set = 3) || decide (set = 4)
  | 0x0906 => decide (set = 1) || decide (set = 2)
  | 0x0D01 => decide (1 ≤ set) && decide (set ≤ 3)
  | 0x0D02 => true
  | 0x0D04 => if isBlob d then set == 0 else true
  | op => setDefined (op / 256) set

/-- HASH is accepted by the operation. -/
def hashOk (op param : Nat) : Bool :=
  let h := pHash param
  match op with
  | 0x0202 | 0x0203 => decide (h ∈ [0, 2, 4, 0xB])
  | 0x0302 | 0x0303 => decide (h ∈ [0, 2, 4, 0xB, 0xC])
  | 0x0802 | 0x0803 => decide (1 ≤ h) && decide (h ≤ 0xA)
  | 0x0A02 | 0x0A03 | 0x0A04 | 0x0A05 => decide (h ∈ [2, 3, 4, 6, 7, 8, 9, 0xA])
  | 0x0C01 => decide (1 ≤ h) && decide (h ≤ 0xA)
  | 0x0C02 => decide (h = 0xB) || decide (h = 0xC)
  | 0x0C03 | 0x0C04 =>
    if pVariant param = 0 then decide (1 ≤ h) && decide (h ≤ 0xA) else decide (h = 0xB) || decide (h = 0xC)
  | _ => h == 0

/-- VARIANT is defined for the operation. -/
def variantOk (op param : Nat) : Bool :=
  let v := pVariant param
  match op with
  | 0x0902 | 0x0903 => if pSet param = 3 then decide (v ≤ 2) else decide (v = 0) || decide (v = 2)
  | 0x0A02 | 0x0A03 | 0x0C02 => decide (v ≤ 1)
  | 0x0C03 | 0x0C04 => decide (v ≤ 2)
  | _ => v == 0

/-- The operation can take its public key from IN2. -/
def inlineUsed (op : Nat) : Bool :=
  decide (op ∈ [0x0102, 0x0602, 0x0203, 0x0303, 0x0403, 0x0503, 0x0803, 0x0903, 0x0A03, 0x0A04, 0x0A09])

/-- The operation draws from its DRBG instance (Table 03-7, column D; R344). -/
def drawsD (d : Bytes) : Bool :=
  let hedged := !dFlag d 4
  match dOp d with
  | 0x0101 | 0x0201 | 0x0301 => dInLen d == 0
  | 0x0401 | 0x0501 | 0x0601 => true
  | 0x0102 | 0x0602 => true
  | 0x0202 | 0x0302 => hedged
  | 0x0801 | 0x0802 | 0x0806 | 0x0901 | 0x0902 | 0x0906 => true
  | 0x0A01 | 0x0A02 | 0x0A04 | 0x0A05 | 0x0A08 => true
  | 0x0D01 | 0x0D06 | 0x0E01 => true
  | 0x0D03 => isBlob d
  | 0x1001 | 0x1002 | 0x1003 => true
  | _ => false

/-- PARAM passes R83. -/
def paramOk (d : Bytes) : Bool :=
  let op := dOp d
  let p := dParam d
  setOk d && hashOk op p && variantOk op p
    && (!pInline p || inlineUsed op)
    && (!pDestroyAfter p || decide (op ∈ [0x0103, 0x0603, 0x1003]))
    && (!pPredRes p || drawsD d)
    && (!pDigestIn p || ((decide (op ∈ [0x0202, 0x0203, 0x0302, 0x0303, 0x0802, 0x0803, 0x0A02, 0x0A03])) && pHash p != 0))
    && decide (p < 2 ^ 20)

/-! ### Fields used (R85) -/

/-- The body fields an operation uses; INLINE as the byte offsets used. -/
structure Uses where
  main : Bool := false
  out : Bool := false
  aux : Bool := false
  in2 : Bool := false
  key2 : Bool := false
  ctx : Bool := false
  in3 : Bool := false
  inl : List Nat := []

/-- Offsets `lo` to `hi` of a descriptor. -/
def span (lo hi : Nat) : List Nat := (List.range (hi + 1 - lo)).map (· + lo)

/-- The fields an operation uses, as its section of the catalogue names them. LMS KEYGEN uses byte 96 and the type bytes of as many
levels as it names, as far as INLINE goes (R85, R111). -/
def usesOf (d : Bytes) : Uses :=
  let p := dParam d
  let i := pInline p
  match dOp d with
  | 0x0101 | 0x0201 | 0x0301 => { main := true, out := true, aux := true }
  | 0x0102 | 0x0602 => { out := true, in2 := i }
  | 0x0103 | 0x0603 => { main := true, out := true }
  | 0x0202 | 0x0302 => { main := true, out := true, ctx := true }
  | 0x0203 | 0x0303 => { main := true, in2 := i, in3 := true, ctx := true }
  | 0x0401 => { out := true, aux := true, inl := span 96 (min 127 (96 + 2 * leAt d 96 1)) }
  | 0x0501 => { out := true, aux := true, inl := span 104 107 }
  | 0x0402 | 0x0502 => { main := true, out := true }
  | 0x0403 | 0x0503 => { main := true, in2 := i, in3 := true }
  | 0x0601 | 0x0801 | 0x0901 => { out := true, aux := true }
  | 0x0802 => { main := true, out := true }
  | 0x0803 => { main := true, in2 := i, in3 := true }
  | 0x0806 | 0x0906 => { out := true, in2 := true }
  | 0x0807 => { in2 := true }
  | 0x0902 => { main := true, out := true, ctx := true }
  | 0x0903 => { main := true, in2 := i, in3 := true, ctx := true }
  | 0x0A01 => { out := true, aux := true, inl := span 96 107 }
  | 0x0A02 => { main := true, out := true, aux := pVariant p == 1 }
  | 0x0A03 => { main := true, aux := pVariant p == 1, in2 := i, in3 := true, inl := if i then span 96 103 else [] }
  | 0x0A04 => { main := true, out := true, in2 := i, ctx := true, inl := if i then span 96 103 else [] }
  | 0x0A05 => { main := true, out := true, ctx := true }
  | 0x0A08 => { main := true, out := true }
  | 0x0A09 => { main := true, out := true, in2 := i, inl := if i then span 96 103 else [] }
  | 0x0B01 | 0x0B02 => { main := true, out := true, in2 := true, in3 := true, inl := span 96 107 }
  | 0x0B03 => { main := true, out := true, in3 := true, inl := span 96 99 ++ span 104 107 }
  | 0x0B04 => { main := true, inl := span 96 99 }
  | 0x0B05 => { inl := span 96 99 }
  | 0x0C01 => { main := true, out := true }
  | 0x0C02 => { main := true, out := true, aux := true, in2 := pVariant p == 1, ctx := pVariant p == 1 }
  | 0x0C03 => { main := true, out := true, aux := true, ctx := pVariant p != 0 }
  | 0x0C04 => { main := true, aux := true, in3 := true, ctx := pVariant p != 0 }
  | 0x0D01 => { aux := true }
  | 0x0D02 => { main := true, aux := true, inl := [96] }
  | 0x0D03 => { out := true, key2 := true }
  | 0x0D04 => { main := true, key2 := true, aux := !isBlob d, inl := if isBlob d then [] else [96] }
  | 0x0D06 => { out := true, inl := span 96 127 }
  | 0x0D07 => { aux := true }
  | 0x0D08 => { out := true }
  | 0x0E01 => { out := true, aux := true }
  | 0x1001 => { out := true, aux := true }
  | 0x1002 | 0x1003 => { main := true, out := true }
  | _ => {}

/-- The operation names KEY_SLOT. -/
def usesKey (d : Bytes) : Bool :=
  let op := dOp d
  if inlineUsed op && pInline (dParam d) then false
  else !(decide (op ∈ [0x0807, 0x0C01, 0x0C02, 0x0E01, 0x1002]) || decide (op / 256 = 0x0B))

/-- First byte offset of an unused body field that is not zero (R85). DESIGN CHOICE (log 67): KEY2_SLOT is such a field for every
operation but WRAP and UNWRAP, 0xFFFF_FFFF there too, where R89 could be read as KEY_ATTR_DENIED. -/
def unusedField (d : Bytes) : Option Nat :=
  let u := usesOf d
  let fields : List (Bool × Nat × Nat) :=
    [(u.out, 32, 8), (u.out, 40, 4), (u.aux, 44, 4), (u.in2, 48, 8), (u.in2, 56, 4), (u.key2, 60, 4), (u.ctx, 64, 8),
     (u.ctx, 72, 4), (false, 76, 4), (u.in3, 80, 8), (u.in3, 88, 4), (false, 92, 4)]
  match fields.find? (fun f => !f.1 && !allZero (slice d f.2.1 f.2.2)) with
  | some f => some f.2.1
  | none => if (span 96 127).any (fun o => !decide (o ∈ u.inl) && (slice d o 1) != [0]) then some 96 else none

/-! ### Types of stateful keys (registries of RFC 8554, RFC 8391 and SP 800-208; PRESUMED, log 14) -/

/-- Tree height and hash length of an LMS type. -/
def lmsType (t : Nat) : Option (Nat × Nat) :=
  if 5 ≤ t ∧ t ≤ 9 then some (5 * (t - 4), 32)
  else if 0xA ≤ t ∧ t ≤ 0xE then some (5 * (t - 9), 24)
  else if 0xF ≤ t ∧ t ≤ 0x13 then some (5 * (t - 0xE), 32)
  else if 0x14 ≤ t ∧ t ≤ 0x18 then some (5 * (t - 0x13), 24)
  else none

/-- Hash length and chain count of an LM-OTS type. -/
def lmotsType (t : Nat) : Option (Nat × Nat) := match t with
  | 1 | 9 => some (32, 265) | 2 | 10 => some (32, 133) | 3 | 11 => some (32, 67) | 4 | 12 => some (32, 34)
  | 5 | 13 => some (24, 200) | 6 | 14 => some (24, 101) | 7 | 15 => some (24, 51) | 8 | 16 => some (24, 26)
  | _ => none

/-- The structure of an HSS key from its INLINE bytes (R111): one (height, m, n, p) per level. -/
def hssLevels (inl : Bytes) : Option (List (Nat × Nat × Nat × Nat)) :=
  let l := leAt inl 0 1
  if l = 0 ∨ 8 < l then none
  else ((List.range l).mapM (fun i =>
    match lmsType (leAt inl (1 + 2 * i) 1), lmotsType (leAt inl (2 + 2 * i) 1) with
    | some (h, m), some (n, p) => some (h, m, n, p)
    | _, _ => none))

/-- Length of an HSS signature (R114). -/
def hssSigLen (ls : List (Nat × Nat × Nat × Nat)) : Nat :=
  4 + (ls.map (fun (h, m, n, p) => 12 + n + p * n + h * m)).sum + ((ls.tail).map (fun (_, m, _, _) => 24 + m)).sum

/-- Length of an HSS public key. -/
def hssPkLen (ls : List (Nat × Nat × Nat × Nat)) : Nat := match ls with
  | (_, m, _, _) :: _ => 28 + m
  | [] => 0

/-- Height, layers and hash length of an XMSS (SET 1) or XMSS^MT (SET 2) OID with an accepted hash (R112). -/
def xmssType (set oid : Nat) : Option (Nat × Nat × Nat) :=
  let single (i : Nat) : Nat := ([10, 16, 20][i]?).getD 0
  let mt (i : Nat) : Nat × Nat := ([(20, 2), (20, 4), (40, 2), (40, 4), (40, 8), (60, 3), (60, 6), (60, 12)][i]?).getD (0, 0)
  if set = 1 then
    if 1 ≤ oid ∧ oid ≤ 3 then some (single (oid - 1), 1, 32)
    else if 0x0D ≤ oid ∧ oid ≤ 0x0F then some (single (oid - 0x0D), 1, 24)
    else if 0x10 ≤ oid ∧ oid ≤ 0x12 then some (single (oid - 0x10), 1, 32)
    else if 0x13 ≤ oid ∧ oid ≤ 0x15 then some (single (oid - 0x13), 1, 24)
    else none
  else if 1 ≤ oid ∧ oid ≤ 8 then some ((mt (oid - 1)).1, (mt (oid - 1)).2, 32)
  else if 0x21 ≤ oid ∧ oid ≤ 0x28 then some ((mt (oid - 0x21)).1, (mt (oid - 0x21)).2, 24)
  else if 0x29 ≤ oid ∧ oid ≤ 0x30 then some ((mt (oid - 0x29)).1, (mt (oid - 0x29)).2, 32)
  else if 0x31 ≤ oid ∧ oid ≤ 0x38 then some ((mt (oid - 0x31)).1, (mt (oid - 0x31)).2, 24)
  else none

/-- Length of an XMSS or XMSS^MT signature. -/
def xmssSigLen (set : Nat) (t : Nat × Nat × Nat) : Nat :=
  let (h, dl, n) := t
  let len := if n = 32 then 67 else 51
  if set = 1 then 4 + n + (len + h) * n else (h + 7) / 8 + n + (h + dl * len) * n

/-- Signatures a stateful key's structure holds: from the class, SET, AUX (OID) and INLINE bytes of its KEYGEN. -/
def capacityOf (c set aux : Nat) (inl : Bytes) : Option Nat :=
  if c = 4 then (hssLevels inl).map (fun ls => 2 ^ ((ls.map (·.1)).sum))
  else (xmssType set aux).map (fun t => 2 ^ t.1)

/-! ### Sizes of the parameter sets -/

/-- The entry of a set's code, counted from 1. -/
def pick (l : List Nat) (set : Nat) : Nat := (l[set - 1]?).getD 0

def mlkemEk (set : Nat) : Nat := pick [800, 1184, 1568] set
def mlkemCt (set : Nat) : Nat := pick [768, 1088, 1568] set
def mlkemDk (set : Nat) : Nat := pick [1632, 2400, 3168] set
def mldsaPk (set : Nat) : Nat := pick [1312, 1952, 2592] set
def mldsaSig (set : Nat) : Nat := pick [2420, 3309, 4627] set
def mldsaSk (set : Nat) : Nat := pick [2560, 4032, 4896] set
def hqcPk (set : Nat) : Nat := pick [2249, 4522, 7245] set
def hqcCt (set : Nat) : Nat := pick [4433, 8978, 14421] set
def slhN (set : Nat) : Nat := pick [16, 16, 16, 16, 24, 24, 24, 24, 32, 32, 32, 32] set
def slhSig (set : Nat) : Nat :=
  pick [7856, 7856, 17088, 17088, 16224, 16224, 35664, 35664, 29792, 29792, 49856, 49856] set
/-- Hypertree layers d and height per layer h' of an SLH-DSA set (R222). -/
def slhD (set : Nat) : Nat := pick [7, 7, 22, 22, 7, 7, 22, 22, 8, 8, 17, 17] set
def slhH (set : Nat) : Nat := pick [9, 9, 3, 3, 9, 9, 3, 3, 8, 8, 4, 4] set
/-- Bytes of a memo entry (Table 06-5). -/
def slhEntry (set : Nat) : Nat :=
  1024 * pick [298, 298, 6, 6, 638, 638, 10, 10, 554, 554, 36, 36] set
def eccL (set : Nat) : Nat := pick [32, 48, 66] set
def edPk (set : Nat) : Nat := pick [32, 56, 32, 57] set
def edSig (set : Nat) : Nat := if set = 3 then 64 else 114
def hybShareI (set : Nat) : Nat := pick [1216, 1665] set
def hybShareR (set : Nat) : Nat := pick [1120, 1665] set
def hybSecret (set : Nat) : Nat := pick [64, 80] set

/-! ### Step 3: AUX and other body parameters -/

/-- An attribute request has no undefined bit (Table 03-17). -/
def attrReqOk (a : Nat) : Bool := decide (a % 64 + (if a.testBit 8 then 256 else 0) = a)

/-- The attribute request of a job that fills a slot (R132): AUX, or INLINE 104 to 107 for RSA and XMSS KEYGEN. -/
def attrReq (d : Bytes) : Nat := match dOp d with
  | 0x0A01 | 0x0501 => leAt d 104 4
  | _ => dAux d

/-- The operation fills a slot with requested attributes. -/
def takesAttrs (d : Bytes) : Bool :=
  decide (dOp d ∈ [0x0101, 0x0201, 0x0301, 0x0401, 0x0501, 0x0601, 0x0801, 0x0901, 0x0A01, 0x0D01, 0x0D02, 0x1001])
    || (dOp d == 0x0D04 && !isBlob d)

/-- A modulus length k in bytes that the RSA class offers. -/
def rsaKOk (k : Nat) : Bool := decide (128 ≤ k) && decide (k ≤ 2048) && k % 8 == 0

/-- The algorithm classes of an IMPORT or KWP UNWRAP and the sets they define (R135). -/
def importSetOk (c set : Nat) : Bool :=
  match c with
  | 0x01 | 0x02 | 0x03 | 0x04 | 0x05 | 0x06 | 0x08 | 0x09 | 0x10 => setDefined c set
  | 0x0A => set == 0
  | 0x0D => decide (1 ≤ set) && decide (set ≤ 3)
  | _ => false

/-- Step 3 of Table 03-5 passes (a PSS salt length and a memo depth that follow from a slot's key wait for step 5). -/
def bodyOk (d : Bytes) : Bool :=
  let aux := dAux d
  let p := dParam d
  let e := leAt d 96 8
  (if takesAttrs d then attrReqOk (attrReq d) else true) &&
  match dOp d with
  | 0x0401 => match hssLevels (dInline d) with
    | some ls => decide ((ls.map (·.1)).sum ≤ 63)
    | none => false
  | 0x0501 => (xmssType (pSet p) aux).isSome
  | 0x0A01 => aux % 64 == 0 && decide (1024 ≤ aux) && decide (aux ≤ 16384) && (e == 0 || (e % 2 == 1 && decide (3 ≤ e)))
  | 0x0A03 =>
    if pInline p && pVariant p == 1 then decide (aux + hashLen (pHash p) + 2 ≤ dIn2Len d) else true
  | 0x0C02 => decide (1 ≤ aux) && decide (aux ≤ 65536)
  | 0x0C03 | 0x0C04 =>
    if pVariant p = 0 then aux == 0 || (decide (16 ≤ aux) && decide (aux ≤ hashLen (pHash p)))
    else decide (1 ≤ aux) && decide (aux ≤ 65536)
  | 0x0D02 => importSetOk (leAt d 96 1) (pSet p)
  | 0x0D04 => isBlob d || importSetOk (leAt d 96 1) (pSet p)
  | 0x0E01 => decide (1 ≤ aux) && decide (aux ≤ 65536)
  | _ => true

/-! ### Steps 4 and 5: lengths (R92) -/

/-- What a length must be. -/
inductive LenRule where
  | any
  | exact (n : Nat)
  | opt (n : Nat)
  | range (lo hi : Nat)
  | oneOf (a b : Nat)
  /-- No length serves. -/
  | never

/-- The required length reported when a length breaks its rule; 0 where there is no single one. -/
def LenRule.check (r : LenRule) (n : Nat) : Option Nat := match r with
  | .any => none
  | .exact m => if n = m then none else some m
  | .opt m => if n = 0 ∨ n = m then none else some m
  | .range lo hi => if n < lo then some lo else if hi < n then some hi else none
  | .oneOf a b => if n = a ∨ n = b then none else some 0
  | .never => some 0

/-- MAC output length: AUX, or the full length. -/
def macLen (d : Bytes) : Nat :=
  if pVariant (dParam d) = 0 ∧ dAux d = 0 then hashLen (pHash (dParam d)) else dAux d

/-- Clear form lengths of an imported key (Table 03-19). -/
def importLen (c set : Nat) : LenRule := match c with
  | 0x01 => .oneOf 64 (mlkemDk set)
  | 0x02 => .oneOf 32 (mldsaSk set)
  | 0x03 => .exact (4 * slhN set)
  | 0x08 => .exact (eccL set)
  | 0x09 => .exact (edPk set)
  | 0x0D => .exact (if set = 3 then 64 else 32)
  | 0x10 => .exact (if set = 1 then 96 else 112)
  | _ => .any

/-- The modulus length of an RSA job when it follows from the descriptor alone. -/
def inlineK (d : Bytes) : Option Nat :=
  if dOp d = 0x0A01 then some (dAux d / 8) else if pInline (dParam d) then some (dIn2Len d) else none

/-- The main input is an operand given by HANDLE_A (R127). -/
def mainHandled (d : Bytes) : Bool := decide (dOp d ∈ [0x0B01, 0x0B02, 0x0B03, 0x0B04]) && leAt d 96 4 != 0

/-- Rule of the main input; `k` is the RSA modulus length once known. DESIGN CHOICE (log 67): a modulus
too short for OAEP with the hash (R124) takes no message at all, LENGTH_MISMATCH with required length 0. -/
def mainRule (d : Bytes) (k : Option Nat) : LenRule :=
  let p := dParam d
  let set := pSet p
  let h := hashLen (pHash p)
  if !(usesOf d).main then .exact 0 else
  match dOp d with
  | 0x0101 => .opt 64
  | 0x0103 => .exact (mlkemCt set)
  | 0x0201 => .opt 32
  | 0x0301 => .opt (3 * slhN set)
  | 0x0202 | 0x0203 | 0x0302 | 0x0303 | 0x0802 | 0x0803 | 0x0A02 | 0x0A03 => if pDigestIn p then .exact h else .any
  | 0x0603 => .exact (hqcCt set)
  | 0x0A04 => match k with | some k => if k < 2 * h + 2 then .never else .range 0 (k - 2 * h - 2) | none => .any
  | 0x0A05 | 0x0A08 | 0x0A09 => match k with | some k => .exact k | none => .any
  | 0x0B01 | 0x0B02 | 0x0B03 | 0x0B04 => .exact (if mainHandled d then 0 else 8 * (set + 1))
  | 0x0D02 => importLen (leAt d 96 1) set
  | 0x1002 => .exact (hybShareI set)
  | 0x1003 => .exact (hybShareR set)
  | _ => .any

/-- Rule of IN2. DESIGN CHOICE (log 67): an inline RSA modulus whose length lies in the class's range and is no multiple of 8 breaks
its length rule, with the next lower multiple as the required length; R87 speaks of a modulus size outside its range. DESIGN CHOICE
(log 67): an LMS or XMSS public key takes any length here, and one that does not follow its types or OID ends VERIFY_FAIL. -/
def in2Rule (d : Bytes) : LenRule :=
  let p := dParam d
  let set := pSet p
  if !(usesOf d).in2 then .exact 0 else
  match dOp d with
  | 0x0102 => .exact (mlkemEk set)
  | 0x0602 => .exact (hqcPk set)
  | 0x0203 => .exact (mldsaPk set)
  | 0x0303 => .exact (2 * slhN set)
  | 0x0903 => .exact (edPk set)
  | 0x0906 => .exact (edPk set)
  | 0x0B01 | 0x0B02 => if leAt d 100 4 = 0 then .exact (8 * (set + 1)) else .exact 0
  | 0x0C02 => .range 0 256
  | 0x0A03 | 0x0A04 | 0x0A09 =>
    if dIn2Len d < 128 then .exact 128 else if 2048 < dIn2Len d then .exact 2048 else .exact (dIn2Len d / 8 * 8)
  | _ => .any

/-- Rule of IN3. -/
def in3Rule (d : Bytes) (k : Option Nat) : LenRule :=
  let p := dParam d
  let set := pSet p
  if !(usesOf d).in3 then .exact 0 else
  match dOp d with
  | 0x0203 => .exact (mldsaSig set)
  | 0x0303 => .exact (slhSig set)
  | 0x0803 => .exact (2 * eccL set)
  | 0x0903 => .exact (edSig set)
  | 0x0A03 => match k with | some k => .exact k | none => .any
  | 0x0B01 | 0x0B02 | 0x0B03 => if leAt d 104 4 = 0 then .exact (8 * (set + 1)) else .exact 0
  | 0x0C04 => .exact (macLen d)
  | _ => .any

/-- Rule of CTX. -/
def ctxRule (d : Bytes) : LenRule :=
  let p := dParam d
  if !(usesOf d).ctx then .exact 0 else
  match dOp d with
  | 0x0202 | 0x0203 | 0x0302 | 0x0303 => .range 0 255
  | 0x0902 | 0x0903 =>
    if pSet p = 3 ∧ pVariant p = 0 then .range 0 (if dCtxLen d ≤ 255 then 0 else 255) else if pSet p = 3 ∧ pVariant p = 1 then .range 1 255 else .range 0 255
  | _ => .range 0 4096

/-- Capacity the output needs, where it is known before the key (R92). -/
def outNeed (d : Bytes) (k : Option Nat) : Option Nat :=
  let p := dParam d
  let set := pSet p
  match dOp d with
  | 0x0101 => some (mlkemEk set)
  | 0x0102 => some (mlkemCt set + 32)
  | 0x0103 => some 32
  | 0x0201 => some (mldsaPk set)
  | 0x0202 => some (mldsaSig set)
  | 0x0301 => some (2 * slhN set)
  | 0x0302 => some (slhSig set)
  | 0x0401 => (hssLevels (dInline d)).map hssPkLen
  | 0x0501 => (xmssType set (dAux d)).map (fun t => 4 + 2 * t.2.2)
  | 0x0601 => some (hqcPk set)
  | 0x0602 => some (hqcCt set + 64)
  | 0x0603 => some 64
  | 0x0801 => some (1 + 2 * eccL set)
  | 0x0802 => some (2 * eccL set)
  | 0x0806 => some (eccL set)
  | 0x0901 | 0x0906 => some (edPk set)
  | 0x0902 => some (edSig set)
  | 0x0A05 => k.map (fun k => k - 2 * hashLen (pHash p) - 2)
  | 0x0A01 | 0x0A02 | 0x0A04 | 0x0A08 | 0x0A09 => k
  | 0x0B01 | 0x0B02 | 0x0B03 => some (8 * (set + 1))
  | 0x0C01 => some (hashLen (pHash p))
  | 0x0C02 => some (dAux d)
  | 0x0C03 => some (macLen d)
  | 0x0D06 => some 3533
  | 0x0E01 => some (dAux d)
  | 0x1001 => some (hybShareI set)
  | 0x1002 => some (hybShareR set + hybSecret set)
  | 0x1003 => some (hybSecret set)
  | _ => none

/-- DETAIL of LENGTH_MISMATCH. -/
def lenDetail (operand required : Nat) : Nat := operand + 256 * min required 0xFFFFFF

/-- IN2 and IN3 are operands given by HANDLE_B and HANDLE_M (R127). -/
def in2Handled (d : Bytes) : Bool := decide (dOp d ∈ [0x0B01, 0x0B02]) && leAt d 100 4 != 0
def in3Handled (d : Bytes) : Bool := decide (dOp d ∈ [0x0B01, 0x0B02, 0x0B03]) && leAt d 104 4 != 0

/-- The first length that breaks its rule: DETAIL of LENGTH_MISMATCH. -/
def lenFail (d : Bytes) (k : Option Nat) : Option Nat :=
  let mainBad := if !(usesOf d).main && (dInLen d != 0 || dInAddr d != 0 || dSgl d != 0) then some 0
    else if mainHandled d && (dInAddr d != 0 || dSgl d != 0) then some 0
    else (mainRule d k).check (dInLen d)
  let in2Bad := if (usesOf d).in2 && decide (dOp d ∈ [0x0803, 0x0806, 0x0807]) && dIn2Len d == 0 then
      some (1 + 2 * eccL (pSet (dParam d)))
    else if in2Handled d && dIn2Addr d != 0 then some 0
    else (in2Rule d).check (dIn2Len d)
  let in3Bad := if in3Handled d && dIn3Addr d != 0 then some 0 else (in3Rule d k).check (dIn3Len d)
  match mainBad, in2Bad, in3Bad, (ctxRule d).check (dCtxLen d) with
  | some r, _, _, _ => some (lenDetail 1 r)
  | none, some r, _, _ => some (lenDetail 2 r)
  | none, none, some r, _ => some (lenDetail 3 r)
  | none, none, none, some r => some (lenDetail 4 r)
  | none, none, none, none =>
    match outNeed d k with
    | some n => if (usesOf d).out && decide (dOutLen d < n) then some (lenDetail 0xF1 n) else none
    | none => none

/-! ### Step 2: body addresses (R23, R43, R86) -/

/-- Byte offset of the first body address that is refused; an operand given by a handle has none, and an address beside it breaks
its length rule (R127). -/
def State.addrFail (s : State) (n : Nat) (d : Bytes) : Option Nat :=
  let bad (use inSpace : Bool) (addr len : Nat) : Bool :=
    use && (if len = 0 then addr != 0 else !s.inWindow n inSpace addr len)
  let u := usesOf d
  if bad (u.in2 && !in2Handled d) (dFlag d 2) (dIn2Addr d) (dIn2Len d) then some 48
  else if bad (u.in3 && !in3Handled d) (dFlag d 2) (dIn3Addr d) (dIn3Len d) then some 80
  else if bad u.ctx (dFlag d 2) (dCtxAddr d) (dCtxLen d) then some 64
  else if bad u.out (dFlag d 3) (dOutAddr d) (dOutLen d) then some 32
  else none

/-- Steps 1 to 4 of Table 03-5, without the pools: the result of the first check that fails. -/
def State.bodyFail (s : State) (n : Nat) (d : Bytes) (carried : Bool) : Option Result :=
  if !paramOk d then some (.fail 0x13 12)
  else match unusedField d with
  | some o => some (.fail 0x13 o)
  | none =>
    if !carried then some (.fail 0x18 0)
    else match s.addrFail n d with
    | some o => some (.fail 0x19 o)
    | none =>
      if !bodyOk d then some (.fail 0x10 (0xF0 + 0x300))
      else match lenFail d (inlineK d) with
      | some x => some (.fail 0x12 x)
      | none => none

end Sys2Proof.Machine
end

