-- ==== Sys2Proof/Machine/Slh.lean ====
section
/-! DEFINITION. SLH-DSA as FIPS 205 defines it (R108 to R110, R220, R221): the tweakable hashes, WOTS+, the hypertree and FORS.
The text of the standard is PRESUMED (log 14). -/

namespace Sys2Proof.Machine

/-! ### Base-16 digits, shared by WOTS+ in FIPS 205 and RFC 8391 -/

/-- The half-bytes of a string, high half first. -/
def nibbles (bs : Bytes) : List Nat := bs.flatMap (fun b => [b.toNat / 16, b.toNat % 16])

/-- The digits a chain signature signs: those of the message and three of its checksum. -/
def wotsDigits (msg : Bytes) : List Nat :=
  let l := nibbles msg
  let c := (l.map (fun x => 15 - x)).sum
  l ++ [c / 256 % 16, c / 16 % 16, c % 16]

/-! ### Parameters and addresses -/

/-- Height of a FORS tree and number of FORS trees of a set. -/
def slhA (set : Nat) : Nat := pick [12, 12, 6, 6, 14, 14, 8, 8, 14, 14, 9, 9] set
def slhK (set : Nat) : Nat := pick [14, 14, 33, 33, 17, 17, 33, 33, 22, 22, 35, 35] set

/-- The sets of even code use SHAKE256, the others SHA-2 (Table 03-11). -/
def slhShake (set : Nat) : Bool := set % 2 == 0

/-- An address: layer, tree, type and three words. -/
structure Adrs where
  layer : Nat := 0
  tree : Nat := 0
  kind : Nat := 0
  w1 : Nat := 0
  w2 : Nat := 0
  w3 : Nat := 0
  deriving DecidableEq, Repr

/-- The 32 bytes of an address. -/
def Adrs.full (a : Adrs) : Bytes :=
  beBytes 4 a.layer ++ beBytes 12 a.tree ++ beBytes 4 a.kind ++ beBytes 4 a.w1 ++ beBytes 4 a.w2 ++ beBytes 4 a.w3

/-- The compressed form that the SHA-2 sets use. -/
def Adrs.short (a : Adrs) : Bytes :=
  beBytes 1 a.layer ++ beBytes 8 a.tree ++ beBytes 1 a.kind ++ beBytes 4 a.w1 ++ beBytes 4 a.w2 ++ beBytes 4 a.w3

/-! ### Hash functions -/

/-- A tweakable hash of a message: `wide` for those (H, T) that use SHA-512 in the larger SHA-2 sets. -/
def slhHash (set : Nat) (wide : Bool) (seed : Bytes) (a : Adrs) (msg : Bytes) : Bytes :=
  let n := slhN set
  if slhShake set then shake 64 (seed ++ a.full ++ msg) n
  else if wide && decide (16 < n) then (hashOf 4 (seed ++ zeros (128 - n) ++ a.short ++ msg)).take n
  else (hashOf 2 (seed ++ zeros (64 - n) ++ a.short ++ msg)).take n

/-- F. -/
def slhF (set : Nat) (seed : Bytes) (a : Adrs) (m : Bytes) : Bytes := slhHash set false seed a m

/-- H of two nodes, and T of more. -/
def slhT (set : Nat) (seed : Bytes) (a : Adrs) (m : Bytes) : Bytes := slhHash set true seed a m

/-- The pre-hash selector of the message functions of a SHA-2 set. -/
def slhMsgHash (set : Nat) : Nat := if slhN set = 16 then 2 else 4

/-- PRF_msg. -/
def slhRandom (set : Nat) (prf opt msg : Bytes) : Bytes :=
  if slhShake set then shake 64 (prf ++ opt ++ msg) (slhN set) else (hmac (slhMsgHash set) prf (opt ++ msg)).take (slhN set)

/-- Bytes of a message digest: FORS digits, the tree's index and the leaf's. -/
def slhDigestLen (set : Nat) : Nat :=
  (slhK set * slhA set + 7) / 8 + (slhH set * (slhD set - 1) + 7) / 8 + (slhH set + 7) / 8

/-- H_msg. -/
def slhDigest (set : Nat) (r seed root msg : Bytes) : Bytes :=
  if slhShake set then shake 64 (r ++ seed ++ root ++ msg) (slhDigestLen set)
  else mgf1 (slhMsgHash set) (r ++ seed ++ hashOf (slhMsgHash set) (r ++ seed ++ root ++ msg)) (slhDigestLen set)

/-- The FORS part, the tree's index and the leaf's index of a digest. -/
def slhSplit (set : Nat) (dig : Bytes) : Bytes × Nat × Nat :=
  let a := (slhK set * slhA set + 7) / 8
  let b := (slhH set * (slhD set - 1) + 7) / 8
  (dig.take a, beNat (slice dig a b) % 2 ^ (slhH set * (slhD set - 1)), beNat (slice dig (a + b) ((slhH set + 7) / 8)) % 2 ^ slhH set)

/-! ### WOTS+ -/

/-- Steps `i` to `i + s - 1` of a chain. -/
def slhChain (set : Nat) (seed : Bytes) (a : Adrs) : Nat → Nat → Bytes → Bytes
  | 0, _, x => x
  | s + 1, i, x => slhChain set seed a s (i + 1) (slhF set seed { a with w3 := i } x)

/-- The start of chain `i` of leaf `a.w1`. -/
def slhChainStart (set : Nat) (sk seed : Bytes) (a : Adrs) (i : Nat) : Bytes :=
  slhF set seed { a with kind := 5, w2 := i, w3 := 0 } sk

/-- The ends of a leaf's chains hashed to its public key. -/
def slhLeafOf (set : Nat) (seed : Bytes) (a : Adrs) (ends : List Bytes) : Bytes :=
  slhT set seed { a with kind := 1, w2 := 0, w3 := 0 } ends.flatten

/-- A leaf from the secret seed. -/
def slhLeaf (set : Nat) (sk seed : Bytes) (a : Adrs) : Bytes :=
  slhLeafOf set seed a ((List.range (2 * slhN set + 3)).map (fun i =>
    slhChain set seed { a with kind := 0, w2 := i } 15 0 (slhChainStart set sk seed a i)))

/-- A WOTS+ signature. -/
def slhWots (set : Nat) (sk seed : Bytes) (a : Adrs) (msg : Bytes) : Bytes :=
  (wotsDigits msg).zipIdx.flatMap (fun e =>
    slhChain set seed { a with kind := 0, w2 := e.2 } e.1 0 (slhChainStart set sk seed a e.2))

/-- The leaf that a WOTS+ signature gives. -/
def slhWotsLeaf (set : Nat) (seed : Bytes) (a : Adrs) (msg sig : Bytes) : Bytes :=
  let n := slhN set
  slhLeafOf set seed a ((wotsDigits msg).zipIdx.map (fun e =>
    slhChain set seed { a with kind := 0, w2 := e.2 } (15 - e.1) e.1 (slice sig (n * e.2) n)))

/-! ### Trees -/

/-- Node `i` of height `z` of a tree whose leaves and inner nodes are given. -/
def treeNode (leaf : Nat → Bytes) (join : Nat → Nat → Bytes → Bytes) : Nat → Nat → Bytes
  | 0, i => leaf i
  | z + 1, i => join (z + 1) i (treeNode leaf join z (2 * i) ++ treeNode leaf join z (2 * i + 1))

/-- The siblings on leaf `i`'s path up to height `h`. -/
def treePath (leaf : Nat → Bytes) (join : Nat → Nat → Bytes → Bytes) (h i : Nat) : Bytes :=
  (List.range h).flatMap (fun z => treeNode leaf join z ((i / 2 ^ z) ^^^ 1))

/-- The node that leaf `i` and `h` siblings of `n` bytes give. -/
def treeClimb (join : Nat → Nat → Bytes → Bytes) (n i : Nat) : Nat → Nat → Bytes → Bytes → Bytes
  | 0, _, _, x => x
  | h + 1, z, path, x =>
    let s := path.take n
    treeClimb join n i h (z + 1) (path.drop n) (join (z + 1) (i / 2 ^ (z + 1)) (if i / 2 ^ z % 2 = 0 then x ++ s else s ++ x))

/-- The join of an XMSS tree. -/
def slhJoin (set : Nat) (seed : Bytes) (layer tree z i : Nat) (m : Bytes) : Bytes :=
  slhT set seed { layer := layer, tree := tree, kind := 2, w2 := z, w3 := i } m

/-- The leaf of an XMSS tree. -/
def slhTreeLeaf (set : Nat) (sk seed : Bytes) (layer tree i : Nat) : Bytes :=
  slhLeaf set sk seed { layer := layer, tree := tree, w1 := i }

/-- The root of an XMSS tree. -/
def slhTreeRoot (set : Nat) (sk seed : Bytes) (layer tree : Nat) : Bytes :=
  treeNode (slhTreeLeaf set sk seed layer tree) (slhJoin set seed layer tree) (slhH set) 0

/-- The signature of a message by leaf `leaf` of an XMSS tree. -/
def slhTreeSig (set : Nat) (sk seed : Bytes) (layer tree leaf : Nat) (msg : Bytes) : Bytes :=
  slhWots set sk seed { layer := layer, tree := tree, w1 := leaf } msg
    ++ treePath (slhTreeLeaf set sk seed layer tree) (slhJoin set seed layer tree) (slhH set) leaf

/-- Bytes of one layer's signature. -/
def slhLayerLen (set : Nat) : Nat := (2 * slhN set + 3 + slhH set) * slhN set

/-- The root that one layer's signature gives. -/
def slhTreeClimb (set : Nat) (seed : Bytes) (layer tree leaf : Nat) (msg sig : Bytes) : Bytes :=
  let n := slhN set
  treeClimb (slhJoin set seed layer tree) n leaf (slhH set) 0 (sig.drop ((2 * n + 3) * n))
    (slhWotsLeaf set seed { layer := layer, tree := tree, w1 := leaf } msg sig)

/-- The root that layers `layer` on give. -/
def slhHyperClimb (set : Nat) (seed : Bytes) : Nat → Nat → Nat → Nat → Bytes → Bytes → Bytes
  | 0, _, _, _, x, _ => x
  | m + 1, layer, tree, leaf, x, sig =>
    slhHyperClimb set seed m (layer + 1) (tree / 2 ^ slhH set) (tree % 2 ^ slhH set)
      (slhTreeClimb set seed layer tree leaf x sig) (sig.drop (slhLayerLen set))

/-! ### FORS -/

/-- The indices a FORS part names, one per tree. -/
def forsIndices (set : Nat) (md : Bytes) : List Nat :=
  let x := beNat md / 2 ^ (8 * md.length - slhK set * slhA set)
  (List.range (slhK set)).map (fun i => x / 2 ^ (slhA set * (slhK set - 1 - i)) % 2 ^ slhA set)

/-- The secret of FORS leaf `i` under address `a`. -/
def forsSecret (set : Nat) (sk seed : Bytes) (a : Adrs) (i : Nat) : Bytes := slhF set seed { a with kind := 6, w2 := 0, w3 := i } sk

/-- A FORS leaf from its secret. -/
def forsLeafOf (set : Nat) (seed : Bytes) (a : Adrs) (i : Nat) (x : Bytes) : Bytes := slhF set seed { a with kind := 3, w2 := 0, w3 := i } x

/-- The join of FORS trees. -/
def forsJoin (set : Nat) (seed : Bytes) (a : Adrs) (z i : Nat) (m : Bytes) : Bytes := slhT set seed { a with kind := 3, w2 := z, w3 := i } m

/-- Siblings of a FORS leaf: the trees lie side by side, tree `t` from leaf `t 2^a` on. -/
def forsTreePath (set : Nat) (sk seed : Bytes) (a : Adrs) (i : Nat) : Bytes :=
  treePath (fun i => forsLeafOf set seed a i (forsSecret set sk seed a i)) (forsJoin set seed a) (slhA set) i

/-- A FORS signature. -/
def forsSign (set : Nat) (sk seed : Bytes) (a : Adrs) (md : Bytes) : Bytes :=
  (forsIndices set md).zipIdx.flatMap (fun e =>
    let i := e.2 * 2 ^ slhA set + e.1
    forsSecret set sk seed a i ++ forsTreePath set sk seed a i)

/-- The FORS public key of an address: the roots of its trees hashed to one. -/
def forsPublic (set : Nat) (sk seed : Bytes) (a : Adrs) : Bytes :=
  slhT set seed { a with kind := 4, w2 := 0, w3 := 0 } ((List.range (slhK set)).flatMap
    (treeNode (fun i => forsLeafOf set seed a i (forsSecret set sk seed a i)) (forsJoin set seed a) (slhA set)))

/-- The FORS public key that a signature gives. -/
def forsRoot (set : Nat) (seed : Bytes) (a : Adrs) (md sig : Bytes) : Bytes :=
  let n := slhN set
  let len := n * (slhA set + 1)
  slhT set seed { a with kind := 4, w2 := 0, w3 := 0 } ((forsIndices set md).zipIdx.flatMap (fun e =>
    let i := e.2 * 2 ^ slhA set + e.1
    let part := slice sig (len * e.2) len
    treeClimb (forsJoin set seed a) n i (slhA set) 0 (part.drop n) (forsLeafOf set seed a i (part.take n))))

/-! ### Keys, signatures -/

/-- PK.root of SK.seed and PK.seed. -/
def slhRoot (set : Nat) (sk seed : Bytes) : Bytes := slhTreeRoot set sk seed (slhD set - 1) 0

/-- The address of the FORS key of leaf `leaf` of tree `tree` of the lowest layer. -/
def forsAdrs (tree leaf : Nat) : Adrs := { tree := tree, kind := 3, w1 := leaf }

/-! ### Memo entries (R221, Table 06-4) -/

/-- Bytes of one WOTS+ signature of a set. -/
def slhWotsLen (set : Nat) : Nat := (2 * slhN set + 3) * slhN set

/-- What leaf `leaf` of a tree signs: the root of the tree below, or on the lowest layer the FORS key. -/
def slhSigned (set : Nat) (sk seed : Bytes) (layer tree leaf : Nat) : Bytes :=
  if layer = 0 then forsPublic set sk seed (forsAdrs tree leaf) else slhTreeRoot set sk seed (layer - 1) (tree * 2 ^ slhH set + leaf)

/-- The WOTS+ signatures of a tree's leaves, then its nodes breadth first from the root. -/
def memoContent (set : Nat) (sk seed : Bytes) (layer tree : Nat) : Bytes :=
  let h := slhH set
  let node := treeNode (slhTreeLeaf set sk seed layer tree) (slhJoin set seed layer tree)
  (List.range (2 ^ h)).flatMap (fun l => slhWots set sk seed { layer := layer, tree := tree, w1 := l } (slhSigned set sk seed layer tree l))
    ++ (List.range (h + 1)).flatMap (fun k => (List.range (2 ^ k)).flatMap (fun i => node (h - k) i))

/-- The KMAC128 tag of an entry, or of traversal state, under the memo key (R224, R233). -/
def memoTag (key bs : Bytes) : Bytes := kmac 32 false key bs 16 []

/-- The entry of a tree, with its tag. -/
def memoEntry (key : Bytes) (set : Nat) (sk seed : Bytes) (slot layer tree : Nat) : Bytes :=
  let head := leBytes 4 slot ++ leBytes 1 layer ++ zeros 3 ++ leBytes 8 tree
  let rest := zeros 32 ++ padTo (slhEntry set - 64) (memoContent set sk seed layer tree)
  head ++ memoTag key (head ++ rest) ++ rest

/-- The tag of an entry stands over bytes 0 to 15 and 32 on. -/
def memoOk (key e : Bytes) : Bool := slice e 16 16 == memoTag key (e.take 16 ++ e.drop 32)

/-- Node `i` of height `z` in an entry. -/
def memoNode (set : Nat) (e : Bytes) (z i : Nat) : Bytes :=
  slice e (64 + 2 ^ slhH set * slhWotsLen set + (2 ^ (slhH set - z) - 1 + i) * slhN set) (slhN set)

/-- One layer's part of a signature, taken from the tree's entry. -/
def memoSig (set : Nat) (e : Bytes) (leaf : Nat) : Bytes :=
  slice e (64 + leaf * slhWotsLen set) (slhWotsLen set)
    ++ (List.range (slhH set)).flatMap (fun z => memoNode set e z ((leaf / 2 ^ z) ^^^ 1))

/-- Layers `layer` on of a hypertree signature: each signs the root of the tree below. A tree that has a memo entry is not built (R221). -/
def slhHyper (look : Nat → Nat → Option Bytes) (set : Nat) (sk seed : Bytes) : Nat → Nat → Nat → Nat → Bytes → Bytes
  | 0, _, _, _, _ => []
  | m + 1, layer, tree, leaf, msg =>
    let (sig, root) := match look layer tree with
      | some e => (memoSig set e leaf, memoNode set e (slhH set) 0)
      | none => (slhTreeSig set sk seed layer tree leaf msg, slhTreeRoot set sk seed layer tree)
    sig ++ slhHyper look set sk seed m (layer + 1) (tree / 2 ^ slhH set) (tree % 2 ^ slhH set) root

/-- The signature of a framed message by the key SK.seed ‖ SK.prf ‖ PK.seed ‖ PK.root with opt_rand; `look` gives the memo entries
it finds (none in FIPS 205). -/
def slhSign (set : Nat) (key msg opt : Bytes) (look : Nat → Nat → Option Bytes := fun _ _ => none) : Bytes :=
  let n := slhN set
  let sk := key.take n
  let seed := slice key (2 * n) n
  let r := slhRandom set (slice key n n) opt msg
  let (md, tree, leaf) := slhSplit set (slhDigest set r seed (slice key (3 * n) n) msg)
  r ++ forsSign set sk seed (forsAdrs tree leaf) md
    ++ slhHyper look set sk seed (slhD set) 0 tree leaf (forsPublic set sk seed (forsAdrs tree leaf))

/-- Whether a signature of the set's length is valid (R110). -/
def slhVerify (set : Nat) (pk msg sig : Bytes) : Bool :=
  let n := slhN set
  let seed := pk.take n
  let r := sig.take n
  let (md, tree, leaf) := slhSplit set (slhDigest set r seed (pk.drop n) msg)
  let len := n * (slhA set + 1) * slhK set
  let root := forsRoot set seed (forsAdrs tree leaf) md (slice sig n len)
  slhHyperClimb set seed (slhD set) 0 tree leaf root (sig.drop (n + len)) == pk.drop n

end Sys2Proof.Machine
end

