-- ==== Sys2Proof/Machine/Lms.lean ====
section
/-! DEFINITION. LMS and HSS as RFC 8554 and SP 800-208 define them (R111 to R115, R220). The text of the standards, and the
derivation of chains, randomisers and lower trees from one seed, are PRESUMED (log 14, log 66). -/

namespace Sys2Proof.Machine

/-- The hash of an LMS or LM-OTS type: `shake` names the function, `n` the length. -/
def lmsHash (shk : Bool) (n : Nat) (bs : Bytes) : Bytes := if shk then shake 64 bs n else (hashOf 2 bs).take n

/-- The LM-OTS types with SHAKE256, and the LMS types with it. -/
def otsShake (t : Nat) : Bool := decide (9 ≤ t)
def lmsShake (t : Nat) : Bool := decide (0xF ≤ t)

/-- Winternitz width of an LM-OTS type. -/
def otsW (t : Nat) : Nat := 2 ^ ((t - 1) % 4)

/-- One tree: its types, its identifier I and its secret seed. -/
structure LmsTree where
  lms : Nat
  ots : Nat
  id : Bytes
  seed : Bytes

/-- Tree height. -/
def LmsTree.h (x : LmsTree) : Nat := ((lmsType x.lms).getD (0, 0)).1

/-! ### LM-OTS -/

/-- The digits of a hash under Winternitz width `w`: `n` bytes and their checksum, `p` digits in all. -/
def otsDigits (w p : Nat) (q : Bytes) : List Nat :=
  let u := 8 * q.length / w
  let d := (List.range u).map (fun i => beNat q / 2 ^ (w * (u - 1 - i)) % 2 ^ w)
  let c := (d.map (fun x => 2 ^ w - 1 - x)).sum
  d ++ (List.range (p - u)).map (fun i => c / 2 ^ (w * (p - u - 1 - i)) % 2 ^ w)

/-- A value derived from a tree's seed at leaf `q` and index `i` (RFC 8554 appendix A). -/
def LmsTree.derive (x : LmsTree) (shk : Bool) (n q i : Nat) : Bytes :=
  lmsHash shk n (x.id ++ beBytes 4 q ++ beBytes 2 i ++ [0xFF] ++ x.seed)

/-- Steps `j` to `j + k - 1` of chain `i` of leaf `q`. -/
def otsChain (shk : Bool) (n : Nat) (pre : Bytes) : Nat → Nat → Bytes → Bytes
  | 0, _, x => x
  | k + 1, j, x => otsChain shk n pre k (j + 1) (lmsHash shk n (pre ++ beBytes 1 j ++ x))

/-- The hash that an LM-OTS signature covers. -/
def otsMessage (shk : Bool) (n : Nat) (id : Bytes) (q : Nat) (c msg : Bytes) : Bytes :=
  lmsHash shk n (id ++ beBytes 4 q ++ [0x81, 0x81] ++ c ++ msg)

/-- The LM-OTS public value of the ends of a leaf's chains. -/
def otsPub (shk : Bool) (n : Nat) (id : Bytes) (q : Nat) (ends : List Bytes) : Bytes :=
  lmsHash shk n (id ++ beBytes 4 q ++ [0x80, 0x80] ++ ends.flatten)

/-- The public value of leaf `q`. -/
def LmsTree.otsPubOf (x : LmsTree) (q : Nat) : Bytes :=
  let (n, p) := (lmotsType x.ots).getD (0, 0)
  let shk := otsShake x.ots
  otsPub shk n x.id q ((List.range p).map (fun i =>
    otsChain shk n (x.id ++ beBytes 4 q ++ beBytes 2 i) (2 ^ otsW x.ots - 1) 0 (x.derive shk n q i)))

/-- The signature of a message by leaf `q`; its randomiser C is derived from the seed (R114). -/
def LmsTree.otsSign (x : LmsTree) (q : Nat) (msg : Bytes) : Bytes :=
  let (n, p) := (lmotsType x.ots).getD (0, 0)
  let shk := otsShake x.ots
  let c := x.derive shk n q 0xFFFD
  beBytes 4 x.ots ++ c ++ (otsDigits (otsW x.ots) p (otsMessage shk n x.id q c msg)).zipIdx.flatMap (fun e =>
    otsChain shk n (x.id ++ beBytes 4 q ++ beBytes 2 e.2) e.1 0 (x.derive shk n q e.2))

/-- The public value that an LM-OTS signature of type `t` gives. -/
def otsClimb (t : Nat) (id : Bytes) (q : Nat) (msg sig : Bytes) : Bytes :=
  let (n, p) := (lmotsType t).getD (0, 0)
  let shk := otsShake t
  let top := 2 ^ otsW t - 1
  otsPub shk n id q ((otsDigits (otsW t) p (otsMessage shk n id q (slice sig 4 n) msg)).zipIdx.map (fun e =>
    otsChain shk n (id ++ beBytes 4 q ++ beBytes 2 e.2) (top - e.1) e.1 (slice sig (4 + n + n * e.2) n)))

/-! ### LMS -/

/-- Leaf and inner node of a tree of type `t`, numbered as the standard numbers them from the root 1 on. -/
def lmsNode (t : Nat) (id : Bytes) (leaf : Bool) (r : Nat) (m : Bytes) : Bytes :=
  lmsHash (lmsShake t) ((lmsType t).getD (0, 0)).2 (id ++ beBytes 4 r ++ (if leaf then [0x82, 0x82] else [0x83, 0x83]) ++ m)

/-- The join of a tree of height `h`: node `i` of height `z` is number `2 ^ (h - z) + i`. -/
def lmsJoin (t : Nat) (id : Bytes) (z i : Nat) (m : Bytes) : Bytes :=
  lmsNode t id false (2 ^ (((lmsType t).getD (0, 0)).1 - z) + i) m

/-- Leaf `q` of a tree. -/
def LmsTree.leaf (x : LmsTree) (q : Nat) : Bytes := lmsNode x.lms x.id true (2 ^ x.h + q) (x.otsPubOf q)

/-- The LMS public key of a tree. -/
def LmsTree.pub (x : LmsTree) : Bytes :=
  beBytes 4 x.lms ++ beBytes 4 x.ots ++ x.id ++ treeNode x.leaf (lmsJoin x.lms x.id) x.h 0

/-- The LMS signature of a message by leaf `q`. -/
def LmsTree.sign (x : LmsTree) (q : Nat) (msg : Bytes) : Bytes :=
  beBytes 4 q ++ x.otsSign q msg ++ beBytes 4 x.lms ++ treePath x.leaf (lmsJoin x.lms x.id) x.h q

/-- Length of the LMS signature at the head of a string, by its types; none where they are undefined. -/
def lmsSigLenAt (sig : Bytes) : Option Nat :=
  match lmotsType (beNat (slice sig 4 4)) with
  | none => none
  | some (n, p) => (lmsType (beNat (slice sig (8 + n + p * n) 4))).map (fun e => 12 + n + p * n + e.1 * e.2)

/-- Whether an LMS signature of a message is valid under an LMS public key: types and length agree, the root is the key's. -/
def lmsCheck (pub msg sig : Bytes) : Bool :=
  let t := beNat (pub.take 4)
  let o := beNat (slice pub 4 4)
  let id := slice pub 8 16
  let q := beNat (sig.take 4)
  match lmotsType o, lmsType t with
  | some (n, p), some (h, m) =>
    decide (lmsSigLenAt sig = some sig.length) && decide (pub.length = 24 + m)
      && decide (beNat (slice sig 4 4) = o) && decide (beNat (slice sig (8 + n + p * n) 4) = t) && decide (q < 2 ^ h)
      && treeClimb (lmsJoin t id) m q h 0 (sig.drop (12 + n + p * n))
          (lmsNode t id true (2 ^ h + q) (otsClimb o id q msg (sig.drop 4))) == pub.drop 24
  | _, _ => false

/-! ### HSS -/

/-- The (LMS, LM-OTS) types of a key's INLINE bytes. -/
def hssTypes (inl : Bytes) : List (Nat × Nat) := (List.range (leAt inl 0 1)).map (fun i => (leAt inl (1 + 2 * i) 1, leAt inl (2 + 2 * i) 1))

/-- The tree under leaf `q` of a tree: its seed and identifier are derived at the indices FFFEh and FFFFh. -/
def LmsTree.child (x : LmsTree) (q : Nat) (t : Nat × Nat) : LmsTree :=
  let n := ((lmotsType x.ots).getD (0, 0)).1
  ⟨t.1, t.2, padTo 16 (x.derive (otsShake x.ots) n q 0xFFFF), x.derive (otsShake x.ots) n q 0xFFFE⟩

/-- Signatures below a level: 2 to the power of the heights that follow. -/
def hssBelow (ts : List (Nat × Nat)) : Nat := 2 ^ ((ts.map (fun t => ((lmsType t.1).getD (0, 0)).1)).sum)

/-- The levels of an HSS signature from a tree on, for index `i` within it. -/
def hssLevelsSig (msg : Bytes) : List (Nat × Nat) → LmsTree → Nat → Bytes
  | [], x, i => x.sign i msg
  | t :: ts, x, i =>
    let q := i / hssBelow (t :: ts)
    let y := x.child q t
    x.sign q y.pub ++ y.pub ++ hssLevelsSig msg ts y (i % hssBelow (t :: ts))

/-- The top tree of a slot's material: INLINE bytes at 4, a 32-byte seed at 36, I at 68. -/
def hssTop (mat : Bytes) : LmsTree :=
  let t := ((hssTypes (slice mat 4 32)).head?).getD (0, 0)
  ⟨t.1, t.2, slice mat 68 16, slice mat 36 ((lmotsType t.2).getD (0, 0)).1⟩

/-- The HSS public key of a slot's material (R113). -/
def hssPub (mat : Bytes) : Bytes := beBytes 4 (leAt mat 4 1) ++ (hssTop mat).pub

/-- The HSS signature of a message with index `i` (R114). -/
def hssSign (mat : Bytes) (i : Nat) (msg : Bytes) : Bytes :=
  beBytes 4 (leAt mat 4 1 - 1) ++ hssLevelsSig msg ((hssTypes (slice mat 4 32)).drop 1) (hssTop mat) i

/-- The lowest tree of index `i` and its leaf, from a tree on. -/
def hssLow : List (Nat × Nat) → LmsTree → Nat → LmsTree × Nat
  | [], x, i => (x, i)
  | t :: ts, x, i => hssLow ts (x.child (i / hssBelow (t :: ts)) t) (i % hssBelow (t :: ts))

/-- The signed keys of the lower trees on the way to index `i`, from a tree on. -/
def hssUpper : List (Nat × Nat) → LmsTree → Nat → Bytes
  | [], _, _ => []
  | t :: ts, x, i =>
    let q := i / hssBelow (t :: ts)
    let y := x.child q t
    x.sign q y.pub ++ y.pub ++ hssUpper ts y (i % hssBelow (t :: ts))

/-- The path of a leaf. -/
def LmsTree.path (x : LmsTree) (q : Nat) : Bytes := treePath x.leaf (lmsJoin x.lms x.id) x.h q

/-- The traversal state of a key for index `i` (R233): the signatures of its lower trees, after their length, and the nodes of the
next path. -/
def hssTrav (mat : Bytes) (i : Nat) : Bytes :=
  let ts := (hssTypes (slice mat 4 32)).drop 1
  let (x, q) := hssLow ts (hssTop mat) i
  let up := hssUpper ts (hssTop mat) i
  leBytes 4 up.length ++ up ++ x.path q

/-- The signature that the device makes with the traversal state of index `i` (R114, R233). -/
def hssSignWith (mat trav : Bytes) (i : Nat) (msg : Bytes) : Bytes :=
  let (x, q) := hssLow ((hssTypes (slice mat 4 32)).drop 1) (hssTop mat) i
  let n := leAt trav 0 4
  beBytes 4 (leAt mat 4 1 - 1) ++ slice trav 4 n ++ (beBytes 4 q ++ x.otsSign q msg ++ beBytes 4 x.lms) ++ trav.drop (4 + n)

/-- Levels of an HSS signature from a public key on: `k` signed keys, then the message's signature. -/
def hssCheck (msg : Bytes) : Nat → Bytes → Bytes → Bool
  | 0, pub, sig => lmsCheck pub msg sig
  | k + 1, pub, sig =>
    match lmsSigLenAt sig, lmsSigLenAt sig >>= (fun n => lmsType (beNat (slice sig n 4))) with
    | some n, some (_, m) =>
      let next := slice sig n (24 + m)
      decide (n + 24 + m ≤ sig.length) && lmsCheck pub next (sig.take n) && hssCheck msg k next (sig.drop (n + 24 + m))
    | _, _ => false

/-- Whether an HSS signature is valid (R115): the levels agree with the key's L, and every length is what the types give. -/
def hssVerify (pk msg sig : Bytes) : Bool :=
  let l := beNat (pk.take 4)
  decide (1 ≤ l) && decide (l ≤ 8) && decide (4 ≤ sig.length) && decide (beNat (sig.take 4) + 1 = l)
    && hssCheck msg (l - 1) (pk.drop 4) (sig.drop 4)

end Sys2Proof.Machine
end

