-- ==== Sys2Proof/Machine/Units.lean ====
section
/-! DEFINITION. The units jobs run on: tiles and shells with their spares, hash cores and BNE cores; how a job that ends leaves
its unit (R160 to R165, R193, R216, R259 to R264, R266). -/

namespace Sys2Proof.Machine

/-! ### Cores -/

/-- A hash core. -/
def State.hcore (s : State) (k : Nat) : HCore := tget ⟨.unused, 0, false, false⟩ k s.hcores

/-- Change a hash core. -/
def State.setHcore (s : State) (k : Nat) (f : HCore → HCore) : State := { s with hcores := tset k (f (s.hcore k)) s.hcores }

/-- A BNE core's further state. -/
def State.bcore (s : State) (c : Nat) : BCore := tget ⟨none, none, [], false, false⟩ c s.bcores

/-- Store a BNE core's further state. -/
def State.setBcore (s : State) (c : Nat) (f : BCore → BCore) : State := { s with bcores := tset c (f (s.bcore c)) s.bcores }

/-- BNE_CORE_STATE.STATE: 0 UNUSED, 1 IN_SERVICE, 2 OFFLINE, 3 RETIRED. -/
def State.bneState (s : State) (c : Nat) : Nat := s.fld (.bneCoreState c) 2 0

/-- The state of a BNE core replaced. -/
def State.setBneState (s : State) (c x : Nat) : State := s.setFld (.bneCoreState c) 2 0 x

/-! ### Jobs on units -/

/-- The units a job holds: its own, and its halves'. -/
def Job.units (j : Job) : List JobUnit :=
  j.unit.toList ++ (if j.classical.phase = .sealed then [] else j.classical.unit.toList)
    ++ (if j.pq.phase = .sealed then [] else j.pq.unit.toList)

/-- Jobs on a unit. -/
def State.onUnit (s : State) (u : JobUnit) : List Job :=
  s.jobs.filter (fun j => decide (u ∈ j.units) && decide (j.phase ≠ .sealed))

/-- Jobs that occupy a hash core, as gang member or resident context. -/
def State.onHash (s : State) (k : Nat) : List Job :=
  s.jobs.filter (fun j => (decide (.hash k ∈ j.units) || decide (k ∈ j.gang)) && decide (j.phase ≠ .sealed))

/-- Jobs in either frame of a BNE core. -/
def State.onCore (s : State) (c : Nat) : List Job := s.onUnit (.bne c 0) ++ s.onUnit (.bne c 1)

/-! ### Handles (R258, R261, R262) -/

/-- The handles a class 0x0B job names, with their operand numbers. -/
def handlesOf (d : Bytes) : List (Nat × Nat) :=
  if dClass d ≠ 0x0B then []
  else
    let h (i o : Nat) : List (Nat × Nat) := if leAt d o 4 = 0 then [] else [(i, leAt d o 4)]
    match dOp d with
    | 0x0B01 | 0x0B02 => h 1 96 ++ h 2 100 ++ h 3 104
    | 0x0B03 => h 1 96 ++ h 3 104
    | 0x0B04 => h 1 96
    | 0x0B05 => [(1, leAt d 96 4)]
    | _ => []

/-- The core of a handle. -/
def handleCore (h : Nat) : Nat := h / 64 % 8

/-- The handle of entry `e` of core `c` in generation `g`. -/
def handleOf (c e g : Nat) : Nat := e + 64 * c + 65536 * g

/-- A job not sealed names the handle. -/
def State.handleBusy (s : State) (h : Nat) : Bool :=
  s.jobs.any (fun j => decide (j.phase ≠ .sealed) && decide (j.phase ≠ .waiting ∨ j.ahead) && (handlesOf j.desc).any (fun x => x.2 == h)
    && dOp j.desc != 0x0B05)

/-- Storage of freed entries that no job uses any more is released (R261). -/
def State.releaseFreed (s : State) (c : Nat) : State :=
  s.setBcore c (fun b => { b with res := b.res.map (fun e =>
    if e.2.owner.isNone && !s.handleBusy (handleOf c e.1 e.2.gen) then (e.1, { e.2 with val := [] }) else e) })

/-- A core reset's loss of handles: frames and resident area wiped, the loss reported (R261, R265). -/
def State.wipeCore (s : State) (c : Nat) : State :=
  let lost := ((s.bcore c).res.filter (fun e => e.2.owner.isSome)).length
  let s := s.setBcore c (fun b => { b with f0 := none, f1 := none
                                           res := b.res.map (fun e => (e.1, { e.2 with owner := none, val := [] })) })
  if lost = 0 then s else (s.bump .bneHandlesLost lost).bneEvt 4

/-! ### Tiles and shells (R160 to R165, R174, R175) -/

/-- FAB_TILE_STAT.STATE: 0 UNUSED, 1 IN_SERVICE, 2 SPARE, 3 OFFLINE, 4 RETIRED, 5 GATED. -/
def State.tileState (s : State) (t : Nat) : Nat := s.fld (.fabTileStat t) 2 0

/-- The state of a tile replaced. -/
def State.setTileState (s : State) (t x : Nat) : State := s.setFld (.fabTileStat t) 2 0 x

/-- The shell of a tile, if it is in one. -/
def State.shellOf (s : State) (t : Nat) : Option Nat :=
  let x := s.fld (.fabTileStat t) 14 8
  if x = 0x7F ∨ s.tileState t = 0 then none else some x

/-- The island of a tile. -/
def islandOf (t : Nat) : Nat := t / 12

/-- FAB_SHELL_MAP.STATE replaced. -/
def State.setShellState (s : State) (sh x : Nat) : State := s.setFld (.fabShellMap sh) 26 24 x

/-- The pool of a shell. -/
def State.shellPool (s : State) (sh : Nat) : Nat := s.fld (.fabShellMap sh) 20 16

/-- Tiles a shell has when it is whole. -/
def State.shellSize (s : State) (sh : Nat) : Nat := 2 ^ s.fld (.fabPoolCfg (s.shellPool sh)) 5 4

/-- The stroke tile is the lowest-numbered tile of its shell. -/
def State.restroke (s : State) (sh : Nat) : State :=
  let low := (s.shellTiles sh).head?
  let s := s.setFld (.fabShellMap sh) 38 32 (low.getD 0)
  s.each (s.shellTiles sh) (fun s t => s.setBit (.fabTileStat t) 15 (decide (low = some t)))

/-- A tile joins a shell, IN_SERVICE; a single-tile shell takes the tile's island (R161). -/
def State.joinShell (s : State) (t sh : Nat) : State :=
  let s := if (s.shellTiles sh).isEmpty then s.setFld (.fabShellMap sh) 14 12 (islandOf t) else s
  let s := s.setBit (.fabShellMap sh) (t % 12) true
  let s := (s.setTileState t 1).setFld (.fabTileStat t) 14 8 sh
  (s.setTile t (fun x => { x with joining := none })).restroke sh

/-- A tile leaves its shell for a state. -/
def State.leaveShell (s : State) (t x : Nat) : State :=
  let s' := match s.shellOf t with
    | some sh => s.setBit (.fabShellMap sh) (t % 12) false
    | none => s
  let s'' := ((s'.setTileState t x).setFld (.fabTileStat t) 14 8 0x7F).setBit (.fabTileStat t) 15 false
  match s.shellOf t with
  | some sh => s''.restroke sh
  | none => s''

/-- The rig's record of a shell. -/
def State.shellRec (s : State) (sh : Nat) : Option RigShell :=
  -- the slot maps are those of the old rig until step 6 of a live re-rig (R292)
  let r := match s.reRig with
    | some x => if x.committed && !x.drained then some x.old else s.rig
    | none => s.rig
  r.bind (fun r => r.shells.find? (fun x => x.num == sh))

/-- A ring stop lies within a shell's reach: a link beside it has a mask (R161, R278). -/
def State.inReach (s : State) (sh stop : Nat) : Bool :=
  match s.shellRec sh with
  | none => false
  | some r =>
    let used (k : Nat) : Bool := match r.slots[k]? with
      | some (u, d) => u != 0 || d != 0
      | none => false
    used (stop % 12) || used ((stop + 11) % 12)

/-- A tile may fill a place of a shell: in reach on its island, or of any island for a single-tile shell. -/
def State.mayJoin (s : State) (sh t : Nat) (other : Bool) : Bool :=
  let isl := s.fld (.fabShellMap sh) 14 12
  if s.shellSize sh = 1 then other || islandOf t == isl else islandOf t == isl && s.inReach sh (t % 12)

/-- A live re-rig's image puts the tile into a shell of its pool (R292). -/
def State.claimed (s : State) (t : Nat) : Bool :=
  s.reRig.any (fun r => r.image.shells.any (fun x => x.pool == r.pool && x.isl == t / 12 && x.tiles.testBit (t % 12)))

/-- Hash core `k`, or BNE core `k`, is in the BIST that precedes its join of a pool being re-rigged (R292 step 2). -/
def State.joiningHash (s : State) (k : Nat) : Bool :=
  s.reRig.any (fun r => decide (k ∈ r.testing) && r.image.parts.any (fun x => x.pool == r.pool))
def State.joiningBne (s : State) (c : Nat) : Bool :=
  s.reRig.any (fun r => decide (c ∈ r.testing) && r.image.groups.any (fun x => x.pool == r.pool))

/-- The joining BIST of core `k` is over. -/
def State.tested (s : State) (k : Nat) : State :=
  { s with reRig := s.reRig.map (fun r => { r with testing := r.testing.filter (· ≠ k) }) }

/-- The spare chosen for a shell (R161): of its island first, one in its periodic BIST only if no other qualifies. From the commit of a
live re-rig on, a tile that its image claims fills no other shell; before it the old rig governs (R294). -/
def State.chooseSpare (s : State) (sh : Nat) : Option Nat :=
  let free (t : Nat) : Bool := s.tileState t == 2 && (s.tile t).joining.isNone && !(s.claimed t && s.reRig.any (·.committed))
  (firstBelow 96 (fun t => free t && !(s.tile t).periodic && s.mayJoin sh t false)).orElse (fun _ =>
    (firstBelow 96 (fun t => free t && !(s.tile t).periodic && s.mayJoin sh t true)).orElse (fun _ =>
      (firstBelow 96 (fun t => free t && s.mayJoin sh t false)).orElse (fun _ => firstBelow 96 (fun t => free t && s.mayJoin sh t true))))

/-- Spares on their way to a shell. -/
def State.joiners (s : State) (sh : Nat) : List Nat := below 96 (fun t => decide ((s.tile t).joining = some sh))

/-- A re-rig past its commit holds the shell's pool: no spare is taken (R294). -/
def State.reRigging (s : State) (p : Nat) : Bool := (s.reRig.map (fun r => r.committed && r.pool == p)).getD false

/-- Reserve `n` spares for a shell: whether all were found. -/
def State.reserve (s : State) (sh : Nat) : Nat → Bool × State
  | 0 => (true, s)
  | n + 1 => match s.chooseSpare sh with
    | some t => (s.setTile t (fun x => { x with joining := some sh })).reserve sh n
    | none => (false, s)

/-- A whole shell takes jobs, unless its island drains (R168). -/
def State.shellWhole (s : State) (sh : Nat) : State :=
  s.setShellState sh (if s.fld (.fabIslStat (s.fld (.fabShellMap sh) 14 12)) 6 4 = 1 then 4 else 1)

/-- A shell whole again is IN_SERVICE; else it is REPAIRING with spares on their way, or OUT (R160 step 5). `mc` for a machine
check, which reports that the spares are spent. -/
def State.repairShell (s : State) (sh : Nat) (mc : Bool) : State :=
  let missing := s.shellSize sh - (s.shellTiles sh).length
  if missing = 0 then s.shellWhole sh
  else if !s.bit (.fabPoolCfg (s.shellPool sh)) 10 || s.reRigging (s.shellPool sh) then s.setShellState sh 3
  else
    let (all, s) := s.reserve sh (missing - (s.joiners sh).length)
    if all then s.setShellState sh 2
    else (s.setShellState sh 3).onlyIf mc (·.fabEvt 2)

/-- An OUT shell that a tile of its island may fill, lowest first (R162). -/
def State.outShell (s : State) (t : Nat) : Option Nat :=
  firstBelow 96 (fun sh => s.shellState sh == 3 && s.fld (.fabShellMap sh) 14 12 == islandOf t && s.mayJoin sh t false
    && decide ((s.shellTiles sh).length + (s.joiners sh).length < s.shellSize sh))

/-- A proven tile fills an OUT shell of its island, or becomes SPARE (R162, R165). -/
def State.placeTile (s : State) (t : Nat) : State :=
  match s.outShell t with
  | some sh =>
    let s := s.joinShell t sh
    if (s.shellTiles sh).length = s.shellSize sh then s.shellWhole sh else s
  | none => s.leaveShell t 2

/-! ### A block reset and a machine check of one unit (R459) -/

/-- RST_BLOCK_STAT.RESULT: 0 OK, 1 BUSY, 2 REFUSED. -/
def State.blockResult (s : State) (x : Nat) : State := s.setFld .rstBlockStat 1 0 x

/-- A machine check ends the block reset of its unit: RST_BLOCK reads BUSY. -/
def State.endBlock (s : State) : State := { (s.blockResult 1).setFld .rstBlockStat 5 4 0 with boot := { s.boot with block := none } }

/-- A tile in block reset returns to its role for the machine check that governs. -/
def State.tileBlockEnds (s : State) (t : Nat) : State :=
  if (s.tile t).bist = some .block ∧ s.boot.block.isSome then
    (s.endBlock.setTileState t (s.tile t).back).setTile t (fun x => { x with bist := none })
  else s

/-! ### Leaving a unit -/

/-- A job has left a unit: what waited for that happens (R165, R216, R263, R266). -/
def State.vacated (s : State) (n : Nat) (u : JobUnit) : State :=
  match u with
  | .shell sh =>
    if s.shellState sh = 4 ∧ (s.onUnit u).isEmpty then
      let go := (s.shellTiles sh).filter (fun t => (s.tile t).back == 4)
      if go.isEmpty then s
      else (s.each go (fun s t => (s.leaveShell t 4).setTile t (fun x => { x with back := 0 }))).repairShell sh false
    else s
  | .bne c f =>
    let s := if s.bit (.slmSliceCtrl n) 4 then s.setBcore c (fun b => if f = 0 then { b with f0 := none } else { b with f1 := none }) else s
    let s := s.releaseFreed c
    if (s.bcore c).leaving && (s.onCore c).isEmpty then
      ((s.wipeCore c).setBneState c 3).setBcore c (fun b => { b with leaving := false })
    else s
  | .hash k =>
    if (s.hcore k).leaving && (s.onHash k).isEmpty then s.setHcore k (fun h => { h with state := .retired, leaving := false }) else s
  | .sc => s

/-- A job has left every unit it held. -/
def State.vacateAll (s : State) (j : Job) : State := s.each (j.units ++ j.gang.map JobUnit.hash) (fun s u => s.vacated j.slice u)

/-- The half of a job. -/
def Job.half (j : Job) (pq : Bool) : Half := if pq then j.pq else j.classical

/-- A half replaced. -/
def Job.setHalf (j : Job) (pq : Bool) (h : Half) : Job := if pq then { j with pq := h } else { j with classical := h }

/-- A LOAD that does not complete DONE issues no handle: its entry is released (R261). -/
def State.dropLoad (s : State) (j : Job) : State :=
  match dOp j.desc == 0x0B04, j.result with
  | true, some r =>
    if r.status ≠ 0 then s
    else s.setBcore (handleCore r.detail) (fun b => { b with res := b.res.map (fun e =>
      if e.1 = r.detail % 64 ∧ e.2.gen = r.detail / 65536 then (e.1, { e.2 with owner := none, val := [] }) else e) })
  | _, _ => s

/-- A handle of slice `n` is no longer valid; its storage goes with the last job that uses it (R261). -/
def State.dropHandle (s : State) (n h : Nat) : State :=
  s.setBcore (handleCore h) (fun b => { b with res := b.res.map (fun e =>
    if e.1 = h % 64 ∧ e.2.gen = h / 65536 ∧ e.2.owner = some n then (e.1, { e.2 with owner := none }) else e) })

/-- The instance that serves a slice (R340). -/
def State.sliceDrb (s : State) (n : Nat) : Nat := s.fld (.slmSliceDrbg n) 3 0

/-- Prediction-resistant demands waiting at an instance, shown saturated (R356). -/
def State.showPr (s : State) (k : Nat) : State :=
  s.setFld (.rngDrbStat k) 17 8 (min 1023 (s.rng.prWait.filter (fun e => decide (e.1 = k))).length)

/-- The half of a hybrid job that makes its principal draw (R344): the post-quantum one, but for DECAPS. -/
def Job.prHalf (j : Job) : Bool := dClass j.desc == 0x10 && dOp j.desc != 0x1003

/-- A job has no prediction-resistant demand any more. -/
def State.dropDemand (s : State) (j : Job) : State :=
  if s.rng.prWait.any (fun e => decide (e.2.1 = some j.id)) then
    ({ s with rng := { s.rng with prWait := s.rng.prWait.filter (fun e => decide (e.2.1 ≠ some j.id)) } }).showPr (s.sliceDrb j.slice)
  else s

/-- End a job with a result: only its completion entry is due. A suspect job ends during a dip only by being cancelled, aborted
or zeroised: what it meets otherwise is not sealed, and it is re-executed (R420). -/
def State.endJob (s : State) (j : Nat) (r : Result) : State :=
  match s.job? j with
  | none => s
  | some x =>
    if x.suspect && s.tamper.dip.isSome && !(decide (0x40 ≤ r.status) && decide (r.status ≤ 0x42)) then s
    else
    let s := if r.commit = Commit.none then (s.freeShells x).dropCell x else s.freeShells x
    -- a job that is cancelled or aborted takes its handles with it (R261)
    let hs := (handlesOf x.desc).map (·.2)
    let s := if r.status = 0x40 ∨ r.status = 0x41 then s.each hs (fun s h => s.dropHandle x.slice h) else s
    -- a job that ends without a commit gives its journal record back (R357)
    let s := (((s.dropDemand x).dropLoad x).setJob j (fun x =>
      { x with phase := .sealed, result := some r, suspect := false, yielded := false, journal := x.journal && decide (r.commit ≠ .none) })).vacateAll x
    s.each (hs.map handleCore) State.releaseFreed

/-- One half of a hybrid job ends with a result; the job completes when both have ended (R19). -/
def State.endHalf (s : State) (j : Nat) (pq : Bool) (r : Result) : State :=
  match s.job? j with
  | none => s
  | some x =>
    let h := x.half pq
    if h.phase = .sealed ∨ x.phase = .sealed then s
    else
      let s := (if pq then s.freeShells x else s).setJob j (fun y =>
        { y.setHalf pq { h with phase := .sealed, result := some r } with
            yielded := pq && y.yielded, drawWait := pq && y.drawWait, pqWait := !pq && y.pqWait })
      let s := s.onlyIf (pq == x.prHalf) (·.dropDemand x)
      s.each h.unit.toList (fun s u => s.vacated x.slice u)

end Sys2Proof.Machine
end

