-- ==== Sys2Proof/Machine/Random.lean ====
section
/-! DEFINITION. Requests to the DRBG instances (R341, R342, R344, R349). -/

namespace Sys2Proof.Machine

/-- What a request to an instance meets. -/
inductive Draw where
  /-- Served: the bytes, and whether the instance was stretched. -/
  | got (bs : Bytes) (stretched : Bool) (s : State)
  /-- It waits for a reseed. -/
  | wait
  /-- The instance is uninstantiated. -/
  | failed

/-- STATE of an instance: 0 UNINSTANTIATED, 1 READY, 2 RESEED_PENDING, 3 AT_LIMIT. -/
def State.drbState (s : State) (k : Nat) : Nat := s.fld (.rngDrbStat k) 1 0

/-- The working state of an instance. -/
def State.drbg (s : State) (k : Nat) : DrbgState := tget (zeros 48) k s.rng.inst

/-- The working state of an instance replaced. -/
def State.setDrbg (s : State) (k : Nat) (x : DrbgState) : State := { s with rng := { s.rng with inst := tset k x s.rng.inst } }

/-- One request of `n` bytes to instance `k` (R341): counted, and served unless the instance is at its limit (R342). -/
def State.request (s : State) (k n : Nat) : Draw :=
  if s.drbState k = 0 then .failed
  else
    let c := s.fld (.rngDrbCount k) 20 0
    if s.drbState k = 3 ∨ 1048576 ≤ c then .wait
    else
      let s := s.setFld (.rngDrbCount k) 20 0 (c + 1)
      let s := s.setFld (.rngDrbMaxcount k) 20 0 (max (c + 1) (s.fld (.rngDrbMaxcount k) 20 0))
      let s := s.bump64 (.rngDrbReqs k)
      let s := s.setBit (.rngDrbStat k) 2 (decide (4096 < c + 1))
      let s := s.onlyIf (decide (c = 4096)) (·.rngEvt 3)
      let (bs, x) := drbgGenerate (s.drbg k) n
      .got bs (decide (4096 < c + 1)) (s.setDrbg k x)

/-- The reseed of an instance with 48 B of pool output: its count returns to 0 and it is READY (R342). -/
def State.reseed (s : State) (k : Nat) (bs : Bytes) : State :=
  let s := s.setDrbg k (drbgReseed (s.drbg k) bs)
  let s := s.setFld (.rngDrbCount k) 20 0 0
  let s := (s.setFld (.rngDrbStat k) 1 0 1).setBit (.rngDrbStat k) 2 false
  let s := (s.bump64 (.rngDrbReseeds k)).bump64 .rngReseeds
  { s with rng := { s.rng with limitOrder := s.rng.limitOrder.filter (· ≠ k) } }

/-- A draw of `n` bytes for job `j` from its slice's instance; `pr` for the job's principal draw with PRED_RES, which waits for
its own pool output (R344). -/
def State.jobDraw (s : State) (j : Job) (pr : Bool) (n : Nat) : Draw :=
  let k := s.sliceDrb j.slice
  if s.drbState k = 0 then .failed
  else if pr then .wait
  else match s.request k n with
  | .got bs st s => .got bs st (s.setJob j.id (fun x => { x with stretched := x.stretched || st }))
  | .wait => .wait
  | .failed => .failed

/-- A job, or the post-quantum half of a hybrid job, waits for a draw of `n` bytes: a prediction-resistant one joins the demands
(R343, R344). -/
def State.waitDraw (s : State) (j : Job) (pr : Option Nat) (pq : Bool := false) : State :=
  let s := s.setJob j.id (fun x => if pq then { x with pqWait := true } else { x with drawWait := true })
  let k := s.sliceDrb j.slice
  match pr with
  | some n =>
    if s.rng.prWait.any (fun e => decide (e.2.1 = some j.id)) then s
    else ({ s with rng := { s.rng with prWait := s.rng.prWait ++ [(k, some j.id, n)] } }).showPr k
  | none => s

end Sys2Proof.Machine
end

