-- ==== Sys2Proof/Machine/Curves.lean ====
section
/-! DEFINITION. Number theory on naturals: modular powers, the prime curves of SEC 1, the curves of RFC 7748 and RFC 8032, raw
bignum results. The curve constants and formulas are those of the standards the spec names (PRESUMED, log 14). -/

namespace Sys2Proof.Machine

/-- `b ^ e mod m`, one exponent bit per unit of fuel. -/
def powModAux (m : Nat) : Nat → Nat → Nat → Nat → Nat
  | 0, _, _, acc => acc
  | f + 1, b, e, acc => if e = 0 then acc else powModAux m f (b * b % m) (e / 2) (if e % 2 = 1 then acc * b % m else acc)

/-- `b ^ e mod m`. -/
def powMod (b e m : Nat) : Nat := powModAux m (e.log2 + 1) (b % m) e (1 % m)

/-- Coefficient of the first argument in the extended Euclidean algorithm. -/
def egcd : Nat → Nat → Nat → Int → Int → Nat × Int
  | 0, r, _, s, _ => (r, s)
  | f + 1, r, r', s, s' => if r' = 0 then (r, s) else egcd f r' (r % r') s' (s - (r / r' : Nat) * s')

/-- The inverse of `a` modulo `m`, if there is one (R128). -/
def invMod (a m : Nat) : Option Nat :=
  let (g, x) := egcd (2 * m.log2 + 4) a m 1 0
  if g = 1 then some (x % (m : Int)).toNat else none

/-- A square modulo the odd prime `p`, zero among them. -/
def isSquare (a p : Nat) : Bool := decide (powMod a ((p - 1) / 2) p ≤ 1)

/-! ### SEC 1 prime curves with a = -3 -/

/-- A prime curve: field prime, coefficient b, order, generator, field length in bytes. -/
structure Curve where
  p : Nat
  b : Nat
  n : Nat
  gx : Nat
  gy : Nat
  len : Nat

/-- P-256. -/
def p256 : Curve where
  p := 0xffffffff00000001000000000000000000000000ffffffffffffffffffffffff
  b := 0x5ac635d8aa3a93e7b3ebbd55769886bc651d06b0cc53b0f63bce3c3e27d2604b
  n := 0xffffffff00000000ffffffffffffffffbce6faada7179e84f3b9cac2fc632551
  gx := 0x6b17d1f2e12c4247f8bce6e563a440f277037d812deb33a0f4a13945d898c296
  gy := 0x4fe342e2fe1a7f9b8ee7eb4a7c0f9e162bce33576b315ececbb6406837bf51f5
  len := 32

/-- P-384. -/
def p384 : Curve where
  p := 0xfffffffffffffffffffffffffffffffffffffffffffffffffffffffffffffffeffffffff0000000000000000ffffffff
  b := 0xb3312fa7e23ee7e4988e056be3f82d19181d9c6efe8141120314088f5013875ac656398d8a2ed19d2a85c8edd3ec2aef
  n := 0xffffffffffffffffffffffffffffffffffffffffffffffffc7634d81f4372ddf581a0db248b0a77aecec196accc52973
  gx := 0xaa87ca22be8b05378eb1c71ef320ad746e1d3b628ba79b9859f741e082542a385502f25dbf55296c3a545e3872760ab7
  gy := 0x3617de4a96262c6f5d9e98bf9292dc29f8f41dbd289a147ce9da3113b5f0b8c00a60b1ce1d7e819d7a431d7c90ea0e5f
  len := 48

/-- P-521. -/
def p521 : Curve where
  p := 0x1ffffffffffffffffffffffffffffffffffffffffffffffffffffffffffffffffffffffffffffffffffffffffffffffffffffffffffffffffffffffffffffffffff
  b := 0x51953eb9618e1c9a1f929a21a0b68540eea2da725b99b315f3b8b489918ef109e156193951ec7e937b1652c0bd3bb1bf073573df883d2c34f1ef451fd46b503f00
  n := 0x1fffffffffffffffffffffffffffffffffffffffffffffffffffffffffffffffffa51868783bf2f966b7fcc0148f709a5d03bb5c9b8899c47aebb6fb71e91386409
  gx := 0xc6858e06b70404e9cd9e3ecb662395b4429c648139053fb521f828af606b4d3dbaa14b5e77efe75928fe1dc127a2ffa8de3348b3c1856a429bf97e7e31c2e5bd66
  gy := 0x11839296a789a3bc0045c8a5fb42c7d1bd998f54449579b446817afbd17273e662c97ee72995ef42640c550b9013fad0761353c7086a272c24088be94769fd16650
  len := 66

/-- The curve of a class 0x08 set. -/
def curveOf (set : Nat) : Curve := if set = 1 then p256 else if set = 2 then p384 else p521

/-- `x ^ 3 - 3 x + b`. -/
def Curve.rhs (c : Curve) (x : Nat) : Nat := (x ^ 3 + (c.p - 3) * x + c.b) % c.p

/-- An affine point, or the point at infinity. -/
abbrev Point := Option (Nat × Nat)

/-- Sum of two points. -/
def Curve.add (c : Curve) (a b : Point) : Point :=
  match a, b with
  | none, b => b
  | a, none => a
  | some (x1, y1), some (x2, y2) =>
    if x1 = x2 ∧ (y1 + y2) % c.p = 0 then none
    else
      let num := if x1 = x2 then 3 * x1 * x1 + c.p - 3 else y2 + c.p - y1
      let den := if x1 = x2 then 2 * y1 else x2 + c.p - x1
      let l := num * (invMod (den % c.p) c.p).getD 0 % c.p
      let x3 := (l * l + 2 * c.p - x1 - x2) % c.p
      some (x3, (l * (x1 + c.p - x3) + c.p - y1) % c.p)

/-- Double and add. -/
def Curve.mulAux (c : Curve) : Nat → Nat → Point → Point → Point
  | 0, _, _, acc => acc
  | f + 1, k, q, acc => if k = 0 then acc else c.mulAux f (k / 2) (c.add q q) (if k % 2 = 1 then c.add acc q else acc)

/-- A multiple of a point. -/
def Curve.mul (c : Curve) (k : Nat) (q : Point) : Point := c.mulAux (k.log2 + 1) k q none

/-- SEC 1 uncompressed encoding. -/
def Curve.encode (c : Curve) : Point → Bytes
  | none => [0]
  | some (x, y) => [4] ++ beBytes c.len x ++ beBytes c.len y

/-- The checks of R118 on a point encoding: a status with its DETAIL (without the operand), or the point. -/
inductive PointRead where
  | rejected (reason : Nat)
  | length (required : Nat)
  | invalid
  | ok (x y : Nat)

/-- R118, in order. For a compressed point the root is the power (p + 1) / 4, with the sign the first byte names. -/
def Curve.read (c : Curve) (bs : Bytes) : PointRead :=
  let tag := leAt bs 0 1
  let x := beNat (slice bs 1 c.len)
  if bs.length = 1 ∧ tag = 0 then .rejected 4
  else if tag ≠ 2 ∧ tag ≠ 3 ∧ tag ≠ 4 then .rejected 5
  else if tag = 4 then
    let y := beNat (slice bs (1 + c.len) c.len)
    if bs.length ≠ 1 + 2 * c.len then .length (1 + 2 * c.len)
    else if c.p ≤ x ∨ c.p ≤ y then .rejected 3
    else if y * y % c.p = c.rhs x then .ok x y else .invalid
  else if bs.length ≠ 1 + c.len then .length (1 + c.len)
  else if c.p ≤ x then .rejected 3
  else
    let y := powMod (c.rhs x) ((c.p + 1) / 4) c.p
    if y * y % c.p ≠ c.rhs x then .invalid else .ok x (if y % 2 = tag % 2 then y else (c.p - y) % c.p)

/-! ### RFC 7748 -/

/-- A Montgomery curve: prime, (A - 2) / 4, scalar bits, length in bytes. -/
structure Mont where
  p : Nat
  a24 : Nat
  bits : Nat
  len : Nat

/-- Curve25519. -/
def c25519 : Mont := ⟨2 ^ 255 - 19, 121665, 255, 32⟩

/-- Curve448. -/
def c448 : Mont := ⟨2 ^ 448 - 2 ^ 224 - 1, 39081, 448, 56⟩

/-- The Montgomery ladder of RFC 7748 over bits `i - 1` down to 0 of `k`: (x2, z2, x3, z3, swap). -/
def Mont.ladder (m : Mont) (k x1 : Nat) : Nat → Nat × Nat × Nat × Nat × Bool → Nat × Nat × Nat × Nat × Bool
  | 0, t => t
  | i + 1, (x2, z2, x3, z3, sw) =>
    let kt := k.testBit i
    let (x2, x3) := if sw != kt then (x3, x2) else (x2, x3)
    let (z2, z3) := if sw != kt then (z3, z2) else (z2, z3)
    let sub (a b : Nat) : Nat := (a + m.p - b % m.p) % m.p
    let a := (x2 + z2) % m.p
    let aa := a * a % m.p
    let b := sub x2 z2
    let bb := b * b % m.p
    let e := sub aa bb
    let c := (x3 + z3) % m.p
    let d := sub x3 z3
    let da := d * a % m.p
    let cb := c * b % m.p
    m.ladder k x1 i (aa * bb % m.p, e * (aa + m.a24 * e) % m.p, (da + cb) ^ 2 % m.p, x1 * (sub da cb) ^ 2 % m.p, kt)

/-- A scalar as RFC 7748 decodes it. -/
def Mont.scalar (m : Mont) (bs : Bytes) : Nat :=
  let k := leNat bs
  if m.len = 32 then k % 2 ^ 254 / 8 * 8 + 2 ^ 254 else k % 2 ^ 447 / 4 * 4 + 2 ^ 447

/-- X25519 or X448 of a scalar and a u-coordinate, as byte strings; the top bit of an X25519 u-coordinate is masked (R121). -/
def Mont.dh (m : Mont) (k u : Bytes) : Bytes :=
  let x1 := (if m.len = 32 then leNat u % 2 ^ 255 else leNat u) % m.p
  let (x2, z2, x3, z3, sw) := m.ladder (m.scalar k) x1 m.bits (1, 0, x1, 1, false)
  let (x, z) := if sw then (x3, z3) else (x2, z2)
  leBytes m.len (x * powMod z (m.p - 2) m.p % m.p)

/-- The curve of a class 0x09 set 1 or 2. -/
def montOf (set : Nat) : Mont := if set = 1 then c25519 else c448

/-- The public key of a scalar. -/
def Mont.pub (m : Mont) (k : Bytes) : Bytes := m.dh k (leBytes m.len (if m.len = 32 then 9 else 5))

/-! ### RFC 8032 encodings -/

/-- Field prime of Ed25519 or Ed448. -/
def edP (set : Nat) : Nat := if set = 3 then 2 ^ 255 - 19 else 2 ^ 448 - 2 ^ 224 - 1

/-- Group order L. -/
def edL (set : Nat) : Nat :=
  if set = 3 then 2 ^ 252 + 27742317777372353535851937790883648493
  else 2 ^ 446 - 13818066809895115352007386748515426880336692474882178609894547503885

/-- The curve constant d. -/
def edD (set : Nat) : Nat := if set = 3 then (edP 3 - 121665) * (invMod 121666 (edP 3)).getD 0 % edP 3 else edP 4 - 39081

/-- The bit of an encoding that holds the sign of x. -/
def edBit (set : Nat) : Nat := if set = 3 then 255 else 455

/-- The square root of u / v modulo the field prime, if there is one (RFC 8032). -/
def edRoot (set u v : Nat) : Option Nat :=
  let p := edP set
  let x := if set = 3 then u * v ^ 3 % p * powMod (u * v ^ 7 % p) ((p - 5) / 8) p % p
    else u ^ 3 * v % p * powMod (u ^ 5 % p * v ^ 3 % p) ((p - 3) / 4) p % p
  let x' := x * powMod 2 ((p - 1) / 4) p % p
  if v * x % p * x % p = u then some x else if set = 3 ∧ v * x' % p * x' % p = u then some x' else none

/-- The point an encoding gives: y below p, an x for it with the sign the top bit names, and no negative zero. -/
def edDecode (set : Nat) (bs : Bytes) : Option (Nat × Nat) :=
  let p := edP set
  let y := leNat bs % 2 ^ edBit set
  let sign := leNat bs / 2 ^ edBit set
  let u := (y * y + p - 1) % p
  let v := (edD set * y % p * y + (if set = 3 then 1 else p - 1)) % p
  if p ≤ y ∨ 1 < sign then none
  else match edRoot set u v with
    | none => none
    | some x => if x = 0 ∧ sign = 1 then none else some (if x % 2 = sign then x else (p - x) % p, y)

/-- The encoding of a point. -/
def edEncode (set : Nat) (q : Nat × Nat) : Bytes := leBytes (edBit set / 8 + 1) (q.2 + q.1 % 2 * 2 ^ edBit set)

/-- Sum of two points; the law is complete. -/
def edAdd (set : Nat) (a b : Nat × Nat) : Nat × Nat :=
  let p := edP set
  let k := edD set * (a.1 * b.1 % p) % p * (a.2 * b.2 % p) % p
  let y := if set = 3 then a.2 * b.2 + a.1 * b.1 else a.2 * b.2 + p * p - a.1 * b.1
  ((a.1 * b.2 + b.1 * a.2) * (invMod ((1 + k) % p) p).getD 0 % p, y * (invMod ((1 + p - k) % p) p).getD 0 % p)

/-- Double and add. -/
def edMulAux (set : Nat) : Nat → Nat → Nat × Nat → Nat × Nat → Nat × Nat
  | 0, _, _, acc => acc
  | f + 1, k, q, acc => if k = 0 then acc else edMulAux set f (k / 2) (edAdd set q q) (if k % 2 = 1 then edAdd set acc q else acc)

/-- A multiple of a point. -/
def edMul (set k : Nat) (q : Nat × Nat) : Nat × Nat := edMulAux set (k.log2 + 1) k q (0, 1)

/-- The base point. -/
def edBase (set : Nat) : Nat × Nat :=
  if set = 3 then (0x216936d3cd6e53fec0a4e231fdd6dc5c692cc7609525a7b2c9562d608f25d51a, 0x6666666666666666666666666666666666666666666666666666666666666658)
  else (224580040295924300187604334099896036246789641632564134246125461686950415467406032909029192869357953282578032075146446173674602635247710, 298819210078481492676017930443930673437544040154080242095928241372331506189835876003536878655418784733982303233503462500531545062832660)

end Sys2Proof.Machine
end

