-- ==== Sys2Proof/Machine/RsaKey.lean ====
section
/-! DEFINITION. RSA keys: their DER form and what a slot holds of them (R135, R308). -/

namespace Sys2Proof.Machine

/-! ### DER RSAPrivateKey (R135) -/

/-- A definite length in its shortest form: the length and what follows. -/
def derLen (bs : Bytes) : Option (Nat × Bytes) :=
  let b := leAt bs 0 1
  if bs.isEmpty then none
  else if b < 0x80 then some (b, bs.drop 1)
  else
    let k := b - 0x80
    let n := beNat (slice bs 1 k)
    if k = 0 ∨ 3 < k ∨ bs.length < 1 + k ∨ n < 0x80 ∨ n < 256 ^ (k - 1) then none else some (n, bs.drop (1 + k))

/-- A non-negative INTEGER in its shortest form, and what follows. -/
def derInt (bs : Bytes) : Option (Nat × Bytes) :=
  if leAt bs 0 1 ≠ 2 then none
  else match derLen (bs.drop 1) with
    | none => none
    | some (n, r) =>
      if n = 0 ∨ r.length < n ∨ 0x80 ≤ leAt r 0 1 ∨ (leAt r 0 1 = 0 ∧ 1 < n ∧ leAt r 1 1 < 0x80) then none
      else some (beNat (r.take n), r.drop n)

/-- `n` INTEGERs that fill the rest. -/
def derInts : Nat → Bytes → Option (List Nat)
  | 0, bs => if bs.isEmpty then some [] else none
  | n + 1, bs =>
    match derInt bs with
    | none => none
    | some (x, r) => (derInts n r).map (x :: ·)

/-- An RSA key pair: n, e and the five CRT values (R308). -/
structure RsaKey where
  n : Nat
  e : Nat
  p : Nat
  q : Nat
  dp : Nat
  dq : Nat
  qi : Nat

/-- The private exponent of a key pair, modulo the least common multiple of p - 1 and q - 1 (DESIGN CHOICE, log 80). -/
def RsaKey.d (r : RsaKey) : Nat := (invMod r.e (Nat.lcm (r.p - 1) (r.q - 1))).getD 0

/-- A DER RSAPrivateKey of version 0: its private exponent, and the key pair. -/
def rsaParse (bs : Bytes) : Option (Nat × RsaKey) :=
  if leAt bs 0 1 ≠ 0x30 then none
  else match derLen (bs.drop 1) with
    | none => none
    | some (n, r) =>
      if r.length ≠ n then none
      else match derInts 9 r with
        | some [0, n, e, d, p, q, dp, dq, qi] => some (d, ⟨n, e, p, q, dp, dq, qi⟩)
        | _ => none

/-- Bytes of a number without leading zero bytes. -/
def byteLen (n : Nat) : Nat := if n = 0 then 0 else n.log2 / 8 + 1

/-- A length as DER writes it. -/
def derLenOut (n : Nat) : Bytes := if n < 0x80 then leBytes 1 n else leBytes 1 (0x80 + byteLen n) ++ beBytes (byteLen n) n

/-- An INTEGER as DER writes it. -/
def derIntOut (x : Nat) : Bytes :=
  let k := if x = 0 then 1 else x.log2 / 8 + 1 + (if x.log2 % 8 = 7 then 1 else 0)
  [2] ++ derLenOut k ++ beBytes k x

/-- The DER form of a key. -/
def RsaKey.der (r : RsaKey) : Bytes :=
  let body := derIntOut 0 ++ ([r.n, r.e, r.d, r.p, r.q, r.dp, r.dq, r.qi].flatMap derIntOut)
  [0x30] ++ derLenOut body.length ++ body

/-- Bytes in which each CRT value of a key pair is held: half the modulus, or the longer prime. -/
def RsaKey.width (r : RsaKey) : Nat := max (byteLen r.n / 2) (max (byteLen r.p) (byteLen r.q))

/-- The checks of Table 03-19 on an RSA key in clear: the reason of the refusal. DESIGN CHOICE (log 80): an e above 8 bytes, or primes
so unequal that the key does not fit the 8 KiB of an extent, is refused with reason 3. -/
def rsaImportFail (bs : Bytes) : Option Nat :=
  match rsaParse bs with
  | none => some 5
  | some (d, r) =>
    if r.p * r.q ≠ r.n ∨ r.dp ≠ d % (r.p - 1) ∨ r.dq ≠ d % (r.q - 1) ∨ r.qi * r.q % r.p ≠ 1 then some 6
    else if !rsaKOk (byteLen r.n) || r.e % 2 == 0 || decide (r.e < 3) then some 3
    else if decide (8 < byteLen r.e) || decide (8192 < byteLen r.n + 8 + 5 * r.width) then some 3
    else none

/-- The material of an RSA key: k in four bytes, then n in k bytes, e in 8 and the five CRT values in as many bytes each (R308). -/
def rsaMat (r : RsaKey) : Bytes :=
  leBytes 4 (byteLen r.n) ++ beBytes (byteLen r.n) r.n ++ beBytes 8 r.e ++ [r.p, r.q, r.dp, r.dq, r.qi % r.p].flatMap (beBytes r.width)

/-- The key of a slot's material. -/
def rsaKey (mat : Bytes) : RsaKey :=
  let k := leAt mat 0 4
  let w := (mat.length - 12 - k) / 5
  let f (i : Nat) : Nat := beNat (slice mat (12 + k + w * i) w)
  ⟨beNat (slice mat 4 k), beNat (slice mat (4 + k) 8), f 0, f 1, f 2, f 3, f 4⟩

end Sys2Proof.Machine
end

