-- ==== Sys2Proof/Machine/Xmss.lean ====
section
/-! DEFINITION. XMSS and XMSS^MT as RFC 8391 and SP 800-208 define them (R112 to R115, R220). The text of the standards is
PRESUMED (log 14). -/

namespace Sys2Proof.Machine

/-- Height, layers, hash length and function of a set's OID: `fn` is 2 for SHA-256, 4 for SHA-512, 0xB and 0xC for SHAKE. Every
OID of RFC 8391 and SP 800-208 (R115; PRESUMED, log 14). -/
structure XmssPar where
  h : Nat
  d : Nat
  n : Nat
  fn : Nat

/-- Block `b` of OIDs that a set's scheme has: in XMSS three heights a block, in XMSS^MT eight shapes a block. -/
def xmssBlock (b : Nat) : Nat × Nat := ([(32, 2), (64, 4), (32, 0xB), (64, 0xC), (24, 2), (32, 0xC), (24, 0xC)][b]?).getD (0, 0)

/-- The parameters of an OID. -/
def xmssPar (set oid : Nat) : Option XmssPar :=
  let per := if set = 1 then 3 else 8
  let b := (oid - 1) / per
  if oid = 0 ∨ 7 ≤ b then none
  else
    let (h, d) := if set = 1 then (([10, 16, 20][(oid - 1) % 3]?).getD 0, 1)
      else ([(20, 2), (20, 4), (40, 2), (40, 4), (40, 8), (60, 3), (60, 6), (60, 12)][(oid - 1) % 8]?).getD (0, 1)
    some ⟨h, d, (xmssBlock b).1, (xmssBlock b).2⟩

/-- Chains of a WOTS+ key. -/
def XmssPar.chains (p : XmssPar) : Nat := 2 * p.n + 3

/-- Height of one layer. -/
def XmssPar.hp (p : XmssPar) : Nat := p.h / p.d

/-- Bytes of the domain separator that goes before a hash's key. -/
def XmssPar.pad (p : XmssPar) : Nat := if p.n = 24 then 4 else p.n

/-- The keyed hash with domain `c`: 0 F, 1 H, 2 H_msg, 3 PRF, 4 PRF_keygen. -/
def XmssPar.hash (p : XmssPar) (c : Nat) (bs : Bytes) : Bytes :=
  let m := beBytes p.pad c ++ bs
  if p.fn = 0xB then shake 32 m p.n else if p.fn = 0xC then shake 64 m p.n else (hashOf p.fn m).take p.n

/-- The 32 bytes of an address with its last word, keyAndMask. -/
def xmssAdrs (a : Adrs) (km : Nat) : Bytes :=
  beBytes 4 a.layer ++ beBytes 8 a.tree ++ beBytes 4 a.kind ++ beBytes 4 a.w1 ++ beBytes 4 a.w2 ++ beBytes 4 a.w3 ++ beBytes 4 km

/-- A key or mask of an address. -/
def XmssPar.prf (p : XmssPar) (seed : Bytes) (a : Adrs) (km : Nat) : Bytes := p.hash 3 (seed ++ xmssAdrs a km)

/-- One masked step of a chain. -/
def XmssPar.f (p : XmssPar) (seed : Bytes) (a : Adrs) (x : Bytes) : Bytes :=
  p.hash 0 (p.prf seed a 0 ++ List.zipWith (· ^^^ ·) x (p.prf seed a 1))

/-- RAND_HASH: two nodes, masked, to one. -/
def XmssPar.join (p : XmssPar) (seed : Bytes) (a : Adrs) (m : Bytes) : Bytes :=
  p.hash 1 (p.prf seed a 0 ++ List.zipWith (· ^^^ ·) m (p.prf seed a 1 ++ p.prf seed a 2))

/-- Steps `i` to `i + s - 1` of a chain. -/
def XmssPar.chain (p : XmssPar) (seed : Bytes) (a : Adrs) : Nat → Nat → Bytes → Bytes
  | 0, _, x => x
  | s + 1, i, x => p.chain seed a s (i + 1) (p.f seed { a with w3 := i } x)

/-- Pairs of neighbours joined; an odd last node goes up as it is. -/
def XmssPar.level (p : XmssPar) (seed : Bytes) (a : Adrs) : Nat → List Bytes → List Bytes
  | i, x :: y :: r => p.join seed { a with w3 := i } (x ++ y) :: p.level seed a (i + 1) r
  | _, l => l

/-- The L-tree over the ends of a leaf's chains. -/
def XmssPar.ltree (p : XmssPar) (seed : Bytes) (a : Adrs) : Nat → Nat → List Bytes → Bytes
  | 0, _, l => (l.head?).getD []
  | fuel + 1, z, l =>
    match l with
    | [x] => x
    | _ => p.ltree seed a fuel (z + 1) (p.level seed { a with w2 := z } 0 l)

/-- The leaf of the ends of a leaf's chains. -/
def XmssPar.leafOf (p : XmssPar) (seed : Bytes) (a : Adrs) (ends : List Bytes) : Bytes :=
  p.ltree seed { a with kind := 1, w2 := 0, w3 := 0 } 8 0 ends

/-- The start of chain `i`, derived from the secret seed (SP 800-208). -/
def XmssPar.start (p : XmssPar) (sk seed : Bytes) (a : Adrs) (i : Nat) : Bytes :=
  p.hash 4 (sk ++ seed ++ xmssAdrs { a with kind := 0, w2 := i, w3 := 0 } 0)

/-- A leaf from the secret seed; `a.w1` is its index. -/
def XmssPar.leaf (p : XmssPar) (sk seed : Bytes) (a : Adrs) : Bytes :=
  p.leafOf seed a ((List.range p.chains).map (fun i => p.chain seed { a with kind := 0, w2 := i } 15 0 (p.start sk seed a i)))

/-- A WOTS+ signature. -/
def XmssPar.wots (p : XmssPar) (sk seed : Bytes) (a : Adrs) (msg : Bytes) : Bytes :=
  (wotsDigits msg).zipIdx.flatMap (fun e => p.chain seed { a with kind := 0, w2 := e.2 } e.1 0 (p.start sk seed a e.2))

/-- The leaf that a WOTS+ signature gives. -/
def XmssPar.wotsLeaf (p : XmssPar) (seed : Bytes) (a : Adrs) (msg sig : Bytes) : Bytes :=
  p.leafOf seed a ((wotsDigits msg).zipIdx.map (fun e =>
    p.chain seed { a with kind := 0, w2 := e.2 } (15 - e.1) e.1 (slice sig (p.n * e.2) p.n)))

/-- The join of a layer's tree: the address of a node holds the height below it. -/
def XmssPar.treeJoin (p : XmssPar) (seed : Bytes) (layer tree z i : Nat) (m : Bytes) : Bytes :=
  p.join seed { layer := layer, tree := tree, kind := 2, w2 := z - 1, w3 := i } m

/-- Leaf `i` of a layer's tree. -/
def XmssPar.treeLeaf (p : XmssPar) (sk seed : Bytes) (layer tree i : Nat) : Bytes :=
  p.leaf sk seed { layer := layer, tree := tree, w1 := i }

/-- The root of a layer's tree. -/
def XmssPar.root (p : XmssPar) (sk seed : Bytes) (layer tree : Nat) : Bytes :=
  treeNode (p.treeLeaf sk seed layer tree) (p.treeJoin seed layer tree) p.hp 0

/-- The layers of a signature from `layer` on: a WOTS+ signature and a path each. -/
def XmssPar.layers (p : XmssPar) (sk seed : Bytes) : Nat → Nat → Nat → Bytes → Bytes
  | 0, _, _, _ => []
  | m + 1, layer, idx, msg =>
    let tree := idx / 2 ^ p.hp
    let leaf := idx % 2 ^ p.hp
    p.wots sk seed { layer := layer, tree := tree, w1 := leaf } msg
      ++ treePath (p.treeLeaf sk seed layer tree) (p.treeJoin seed layer tree) p.hp leaf
      ++ p.layers sk seed m (layer + 1) tree (p.root sk seed layer tree)

/-- The root that the layers of a signature give. -/
def XmssPar.climb (p : XmssPar) (seed : Bytes) : Nat → Nat → Nat → Bytes → Bytes → Bytes
  | 0, _, _, x, _ => x
  | m + 1, layer, idx, x, sig =>
    let tree := idx / 2 ^ p.hp
    let leaf := idx % 2 ^ p.hp
    let w := p.chains * p.n
    let r := treeClimb (p.treeJoin seed layer tree) p.n leaf p.hp 0 (sig.drop w)
      (p.wotsLeaf seed { layer := layer, tree := tree, w1 := leaf } x sig)
    p.climb seed m (layer + 1) tree r (sig.drop (w + p.hp * p.n))

/-- Bytes of an index in a signature. -/
def XmssPar.idxLen (set : Nat) (p : XmssPar) : Nat := if set = 1 then 4 else (p.h + 7) / 8

/-- The hash of a message under its randomiser, root and index. -/
def XmssPar.message (p : XmssPar) (r root : Bytes) (idx : Nat) (msg : Bytes) : Bytes := p.hash 2 (r ++ root ++ beBytes p.n idx ++ msg)

/-- The parts of a slot's material after its OID: the secret seed, SK_PRF and SEED. -/
def XmssPar.secrets (p : XmssPar) (mat : Bytes) : Bytes × Bytes × Bytes := (slice mat 4 p.n, slice mat (4 + p.n) p.n, slice mat (4 + 2 * p.n) p.n)

/-- The public key of a slot's material: OID, root, SEED (R113). -/
def xmssPub (set : Nat) (mat : Bytes) : Bytes :=
  let oid := leAt mat 0 4
  match xmssPar set oid with
  | none => []
  | some p => let (sk, _, seed) := p.secrets mat; beBytes 4 oid ++ p.root sk seed (p.d - 1) 0 ++ seed

/-- The signature of a message with index `i`: r is derived from SK_PRF and the index (R114). -/
def xmssSign (set : Nat) (mat : Bytes) (i : Nat) (msg : Bytes) : Bytes :=
  match xmssPar set (leAt mat 0 4) with
  | none => []
  | some p =>
    let (sk, prf, seed) := p.secrets mat
    let r := p.hash 3 (prf ++ beBytes 32 i)
    beBytes (p.idxLen set) i ++ r ++ p.layers sk seed p.d 0 i (p.message r (p.root sk seed (p.d - 1) 0) i msg)

/-- The traversal state of a key for index `i` (R233): the nodes of the lowest layer's path, and the layers above it. -/
def xmssTrav (set : Nat) (mat : Bytes) (i : Nat) : Bytes :=
  match xmssPar set (leAt mat 0 4) with
  | none => []
  | some p =>
    let (sk, _, seed) := p.secrets mat
    let tree := i / 2 ^ p.hp
    treePath (p.treeLeaf sk seed 0 tree) (p.treeJoin seed 0 tree) p.hp (i % 2 ^ p.hp)
      ++ p.layers sk seed (p.d - 1) 1 tree (p.root sk seed 0 tree)

/-- The signature that the device makes with the traversal state of index `i` (R114, R233). -/
def xmssSignWith (set : Nat) (mat trav : Bytes) (i : Nat) (msg : Bytes) : Bytes :=
  match xmssPar set (leAt mat 0 4) with
  | none => []
  | some p =>
    let (sk, prf, seed) := p.secrets mat
    let r := p.hash 3 (prf ++ beBytes 32 i)
    beBytes (p.idxLen set) i ++ r
      ++ p.wots sk seed { layer := 0, tree := i / 2 ^ p.hp, w1 := i % 2 ^ p.hp } (p.message r (p.root sk seed (p.d - 1) 0) i msg) ++ trav

/-- Whether a signature is valid (R115): its length is what the key's OID gives, its index is in range, the root is the key's. -/
def xmssCheck (set : Nat) (pk msg sig : Bytes) : Bool :=
  match xmssPar set (beNat (pk.take 4)) with
  | none => false
  | some p =>
    let b := p.idxLen set
    let idx := beNat (sig.take b)
    let root := slice pk 4 p.n
    let seed := slice pk (4 + p.n) p.n
    let r := slice sig b p.n
    decide (pk.length = 4 + 2 * p.n) && decide (sig.length = b + p.n + (p.h + p.d * p.chains) * p.n) && decide (idx < 2 ^ p.h)
      && p.climb seed p.d 0 idx (p.message r root idx msg) (sig.drop (b + p.n)) == root

end Sys2Proof.Machine
end

