-- ==== Sys2Proof/Machine/Keys.lean ====
section
/-! DEFINITION. Key slots as jobs meet them: attribute words, step 5 of Table 03-5, and the counter cells of stateful keys
(R89, R132, R133, R298 to R303, R227 to R231). -/

namespace Sys2Proof.Machine

/-- Usage bits an algorithm permits, and those it requires, in the order of Table 03-17 (Table 09-2). -/
def usageOf (c set : Nat) : Nat × Nat := match c with
  | 0x01 | 0x06 => (1, 0)
  | 0x02 | 0x03 => (2, 0)
  | 0x04 | 0x05 => (2, 2)
  | 0x08 => (6, 0)
  | 0x09 => if set ≤ 2 then (4, 0) else (2, 0)
  | 0x0A => (3, 0)
  | 0x10 => (5, 5)
  | 0x0D => if set = 1 then (16, 0) else (8, 0)
  | _ => (0, 0)

/-- A request is allowed for the algorithm (R132, R303). -/
def attrsAllowed (c set a : Nat) : Bool :=
  let (permitted, required) := usageOf c set
  (List.range 5).all (fun i => !a.testBit i || permitted.testBit i)
    && (List.range 5).all (fun i => !required.testBit i || a.testBit i)
    && !(a.testBit 5 && a.testBit 8)

/-- The attribute word of a key entering a slot (R301): request `a`, made inside, stateful with its cell, in an extent. -/
def State.newAttr (s : State) (c set owner a : Nat) (gen stateful extent : Bool) (cell : Nat) : DWord :=
  BitVec.ofNat 64 (1 + (if gen then 4 else 0) + (if a.testBit 8 then 8 else 0) + (if stateful then 16 else 0)
    + (if s.testRoot then 32 else 0) + (if extent then 64 else 0) + a % 64 * 2 ^ 8 + set % 256 * 2 ^ 16 + c % 256 * 2 ^ 24
    + owner % 1024 * 2 ^ 32 + cell % 1024 * 2 ^ 48)

/-- A key of that length and algorithm is held in an extent (Table 09-2). -/
def inExtent (c len : Nat) : Bool :=
  c == 6 || c == 0xA || (c == 1 && decide (len ≠ 64)) || (c == 2 && decide (len ≠ 32))

/-! ### Wrapped extents (R308) -/

/-- The boot keys of the key store: of extents, and of the memo and traversal state (R309). -/
def State.extentKey (s : State) : Bytes := (s.boot.keys.map (·.1)).getD []
def State.memoKey (s : State) : Bytes := (s.boot.keys.map (·.2.1)).getD []

/-- Device address of a slot's extent. -/
def State.extentAddr (s : State) (a : Nat) : Nat := s.fld .keyExtBase 35 30 * 2 ^ 30 + 8192 * a

/-- A key encrypted into its slot's extent under a fresh IV, and the reference to it (log 69); the write has no effect while no key is
valid (R374). -/
def State.sealExtent (s : State) (a : Nat) (mat : Bytes) : Extent × State :=
  let (iv, s) := s.draw 12
  let c := gcmSeal s.extentKey iv [] mat
  (⟨iv, mat.length, c.drop mat.length⟩, s.onlyIf s.ddrReady (fun s => { s with ddr := Memory.write (s.extentAddr a) (c.take mat.length) s.ddr }))

/-- Write a slot's material and attribute word, the inverse with it (R302); FORM 1 puts the material into the slot's extent, but for
an RSA key's modulus length, which the slot itself holds (R308). Cached HMAC states go (R243). -/
def State.putSlot (s : State) (a : Nat) (mat : Bytes) (attr : DWord) (k : Nat := 0) : State :=
  let s := { s with fills := tset a (s.fillOf a + 1) s.fills }
  if getF attr 7 6 = 1 then
    let (e, s) := s.sealExtent a (if attrClass attr = 0x0A then mat.drop 4 else mat)
    ({ s with slots := tset a ⟨[], attr, ~~~attr, k, some e⟩ s.slots }).dropHmac a
  else ({ s with slots := tset a ⟨mat, attr, ~~~attr, k, none⟩ s.slots }).dropHmac a

/-- The bytes of an extent as the key store reads them: zeros while no key is valid (R374). -/
def State.extentBytes (s : State) (a n : Nat) : Bytes := if s.ddrReady then Memory.read (s.extentAddr a) n s.ddr else zeros n

/-- The key a slot holds, or its extent; none when the extent fails its tag. -/
def State.material (s : State) (a : Nat) : Option Bytes :=
  let x := s.slotAt a
  match x.ext with
  | none => some x.mat
  | some e => (gcmOpen s.extentKey e.iv [] (s.extentBytes a e.len) e.tag).map (fun m =>
    if attrClass x.attr = 0x0A then leBytes 4 x.k ++ m else m)

/-- A slot, or its extent, fails its code as a job reads it: counted where it is held (R358, R371). -/
def State.slotUe (s : State) (a : Nat) : State :=
  if (s.slotAt a).ext.isSome then (if s.ddrReady then s.ddrUe (s.extentAddr a) else s) else (s.bump .memSramUe).memEvt 2

/-- A single-bit error of a slot, or of its extent, is corrected and counted (R358, R371). -/
def State.slotCe (s : State) (a : Nat) : State := s.bump (if (s.slotAt a).ext.isSome then .ddrCeCount else .memSramCe)

/-- The algorithm class and set of the key an operation works on or makes. -/
def keyAlg (d : Bytes) : Nat × Nat :=
  match dOp d with
  | 0x0D02 | 0x0D04 => (leAt d 96 1, pSet (dParam d))
  | op => (op / 256, pSet (dParam d))

/-- The operation fills KEY_SLOT. -/
def fillsSlot (d : Bytes) : Bool :=
  decide (dOp d ∈ [0x0101, 0x0201, 0x0301, 0x0401, 0x0501, 0x0601, 0x0801, 0x0901, 0x0A01, 0x0D01, 0x0D02, 0x0D04, 0x1001])

/-- The operation changes a key slot in its commit and so keeps a journal record (R30, R357). -/
def changesSlot (d : Bytes) : Bool :=
  fillsSlot d || decide (dOp d ∈ [0x0D05, 0x0D07]) || pDestroyAfter (dParam d)

/-- The operation needs the slice's IMPORT right (R100, R134). -/
def needsImport (d : Bytes) : Bool :=
  dOp d == 0x0D02 || (decide (dOp d ∈ [0x0101, 0x0201, 0x0301]) && dInLen d != 0)

/-- What step 5 answers. -/
inductive KeyRead where
  | fail (r : Result)
  /-- A shadow mismatch: no job uses the slot until the response has run (R38, R302). -/
  | shadow (slots : List Nat)
  | ok (slot : Option Nat) (attr : DWord) (mat : Bytes) (attr2 : DWord) (mat2 : Bytes)

/-- DETAIL of KEY_ATTR_DENIED and its kin: the reason, and 1 for KEY_SLOT or 2 for KEY2_SLOT. -/
def keyDetail (reason which : Nat) : Nat := reason + 256 * which

/-- Usage bits of an attribute word (bits 13:8), any of which serves the operation. DESIGN CHOICE (log 67): hybrid DECAPS asks for the
DECAPS bit alone, whatever KEY_SET_ATTR has left of DERIVE. -/
def opUsage (d : Bytes) : List Nat :=
  match dOp d with
  | 0x0103 | 0x0603 | 0x0A05 | 0x1003 => [8]
  | 0x0202 | 0x0302 | 0x0402 | 0x0502 | 0x0802 | 0x0902 | 0x0A02 => [9]
  | 0x0806 | 0x0906 => [10]
  | 0x0C03 | 0x0C04 => [11]
  | 0x0A08 => [9, 8]
  | _ => []

/-- The key's algorithm tag suits the operation. -/
def tagOk (d : Bytes) (w : DWord) : Bool :=
  let c := attrClass w
  match dOp d with
  | 0x0C03 | 0x0C04 => c == 0x0D && attrSet w != 1
  | 0x0D03 | 0x0D05 | 0x0D06 => true
  | 0x0D07 => c == 3
  | 0x0D08 => c != 0x0D
  | op => c == op / 256 && attrSet w == pSet (dParam d)

/-- Length of the public key that GET_PUBLIC gives (R134). -/
def pubLen (w : DWord) (mat : Bytes) (k : Nat) : Nat :=
  let set := attrSet w
  match attrClass w with
  | 0x01 => mlkemEk set
  | 0x02 => mldsaPk set
  | 0x03 => 2 * slhN set
  | 0x04 => ((hssLevels (slice mat 4 32)).map hssPkLen).getD 0
  | 0x05 => ((xmssType set (leAt mat 0 4)).map (fun t => 4 + 2 * t.2.2)).getD 0
  | 0x06 => hqcPk set
  | 0x08 => 1 + 2 * eccL set
  | 0x09 => edPk set
  | 0x0A => k
  | 0x10 => hybShareI set
  | _ => 0

/-- Bytes of the index field of an XMSS private key (RFC 8391; PRESUMED, log 66). -/
def xmssIndex (set : Nat) (mat : Bytes) : Nat := ((xmssPar set (leAt mat 0 4)).map (XmssPar.idxLen set)).getD 0

/-- The clear form of a slot's key, or its seed form where it has one (R136, R313, R316): an XMSS key as its OID, index zero, secret
seed, SK_PRF, root and SEED (log 66). DESIGN CHOICE (log 67): HQC keys, for which Table 03-19 gives no clear form, and HSS keys go as
the slot holds them. -/
def clearForm (w : DWord) (mat : Bytes) : Bytes :=
  match attrClass w with
  | 0x0A => (rsaKey mat).der
  | 0x05 =>
    let n := (mat.length - 4) / 3
    mat.take 4 ++ zeros (xmssIndex (attrSet w) mat) ++ slice mat 4 (2 * n) ++ slice (xmssPub (attrSet w) mat) 4 n ++ mat.drop (4 + 2 * n)
  | _ => mat

/-- What a slot holds of a key in the form in which a device blob carries it. -/
def ofClear (w : DWord) (bs : Bytes) : Bytes :=
  match attrClass w with
  | 0x0A => ((rsaParse bs).map (fun x => rsaMat x.2)).getD (leBytes 4 0)
  | 0x05 =>
    let o := 4 + xmssIndex (attrSet w) bs
    let n := (bs.length - o) / 4
    bs.take 4 ++ slice bs o (2 * n) ++ bs.drop (o + 3 * n)
  | _ => bs

/-- Length of a device blob, or of AES-KWP output (R136, R316). -/
def wrapLen (d : Bytes) (w : DWord) (mat : Bytes) : Nat :=
  let n := (clearForm w mat).length
  if isBlob d then 64 + n else (n + 7) / 8 * 8 + 8

/-- Lengths and values of step 5 that follow from the slot's key. -/
def keyLenFail (d : Bytes) (w : DWord) (mat : Bytes) (k : Nat) : Option Result :=
  let capFail (n : Nat) : Option Result := if dOutLen d < n then some (.fail 0x12 (lenDetail 0xF1 n)) else none
  match dOp d with
  | 0x0A02 | 0x0A03 | 0x0A04 | 0x0A05 | 0x0A08 | 0x0A09 =>
    if decide (dOp d ∈ [0x0A02, 0x0A03]) && pVariant (dParam d) == 1 && decide (k < dAux d + hashLen (pHash (dParam d)) + 2) then
      some (.fail 0x10 (0xF0 + 0x300))
    else (lenFail d (some k)).map (.fail 0x12)
  | 0x0402 => ((hssLevels (slice mat 4 32)).map (fun ls => hssSigLen ls)).bind capFail
  | 0x0502 => ((xmssType (attrSet w) (leAt mat 0 4)).map (xmssSigLen (attrSet w))).bind capFail
  | 0x0D03 => capFail (wrapLen d w mat)
  | 0x0D08 => capFail (pubLen w mat k)
  | 0x0D07 => if slhD (attrSet w) < dAux d then some (.fail 0x10 (0xF0 + 0x300)) else none
  | _ => none

/-- The checks on the target slot of a job that fills it (R298, R133, R132). DESIGN CHOICE (log 67): a slot marked consumed counts as
filled, so a job that would fill it ends with reason 4 and not KEY_SLOT_EMPTY (R101). -/
def State.targetFail (s : State) (n : Nat) (d : Bytes) (a : Nat) : Option Result :=
  let x := s.slotAt a
  let (c, set) := keyAlg d
  if x.filled && attrOwner x.attr != n && attrOwner x.attr != 0x3FE then some (.fail 0x14 (keyDetail 1 1))
  else if x.filled then some (.fail 0x14 (keyDetail 4 1))
  else if needsImport d && !s.bit (.slmSliceCtrl n) 3 then some (.fail 0x14 (keyDetail 5 1))
  else if takesAttrs d && (!attrsAllowed c set (attrReq d) || (decide (dOp d ∈ [0x0D02, 0x0D04]) && decide (c ∈ [4, 5, 6]))) then
    some (.fail 0x14 (keyDetail 6 1))
  else none

/-- No index of a cell's key is left (R230); while NEXT is lost it stands at LIMIT (R229). -/
def Cell.exhausted (x : Cell) : Bool := decide (x.next.getD x.limit = x.cap)

/-- The checks on a slot that an operation uses (R298, then Table 03-5 step 5). -/
def State.usedFail (s : State) (n : Nat) (d : Bytes) (a : Nat) : Option Result :=
  let x := s.slotAt a
  let w := x.attr
  if x.filled && attrOwner w != n && attrOwner w != 0x3FE then some (.fail 0x14 (keyDetail 1 1))
  else if x.filled && attrOwner w == 0x3FE && (decide (dOp d ∈ [0x0D03, 0x0D05, 0x0D07]) || pDestroyAfter (dParam d)) then some (.fail 0x14 (keyDetail 1 1))
  else if !x.filled || getB w 1 then some (.fail 0x15 (keyDetail 0 1))
  else if s.sealedAttr w && dOp d != 0x0D05 then some (.fail 0x16 (keyDetail 0 1))
  else if !tagOk d w then some (.fail 0x14 (keyDetail 3 1))
  else if !(opUsage d).isEmpty && !(opUsage d).any (getB w) then some (.fail 0x14 (keyDetail 2 1))
  else if dOp d == 0x0D03 && (getB w 3 || !getB w 13 || (getB w 4 && !isBlob d)) then some (.fail 0x14 (keyDetail 7 1))
  else if getB w 4 && decide (dOp d ∈ [0x0402, 0x0502]) && (s.cell (attrCell w)).exhausted then some (.fail 0x17 0)
  else none

/-- The checks on KEY2_SLOT of WRAP and UNWRAP under AES-KWP (R89). -/
def State.key2Fail (s : State) (n : Nat) (d : Bytes) : Option Result :=
  if !(usesOf d).key2 || isBlob d then none
  else if s.keyCount n ≤ dKey2 d then some (.fail 0x14 (keyDetail 1 2))
  else
    let x := s.slotAt (s.keyBase n + dKey2 d)
    let w := x.attr
    if x.filled && attrOwner w != n && attrOwner w != 0x3FE then some (.fail 0x14 (keyDetail 1 2))
    else if !x.filled || getB w 1 then some (.fail 0x15 (keyDetail 0 2))
    else if s.sealedAttr w then some (.fail 0x16 (keyDetail 0 2))
    else if !(attrClass w == 0x0D && attrSet w == 1) then some (.fail 0x14 (keyDetail 3 2))
    else if !getB w 12 then some (.fail 0x14 (keyDetail 2 2))
    else none

/-- Operations that read what KEY_SLOT holds, and not its attributes alone. -/
def readsKey (d : Bytes) : Bool := !fillsSlot d && decide (dOp d ∉ [0x0D05, 0x0D07])

/-- Operations that read the NEXT value of a counter cell. -/
def usesNext (d : Bytes) : Bool := decide (dOp d ∈ [0x0402, 0x0502])

/-- Slot numbers that a job of slice `n` names: KEY_SLOT, and KEY2_SLOT where it is a slot. -/
def State.slotsNamed (s : State) (n : Nat) (d : Bytes) : List Nat :=
  let base := s.keyBase n
  (base + dKey d) :: if (usesOf d).key2 && !isBlob d && decide (dKey2 d < s.keyCount n) then [base + dKey2 d] else []

/-- Step 5 of Table 03-5 for slice `n`: the slots, then what they hold, then the lengths that follow from the key. An uncorrectable
error or a failed tag ends the job ECC_UNCORRECTABLE (R36, R308, R358). DESIGN CHOICE (log 67): where both slots fail, KEY_SLOT is
reported. -/
def State.keyRead (s : State) (n : Nat) (d : Bytes) (ue : SlotUe) : KeyRead :=
  if !usesKey d then .ok none 0 [] 0 []
  else if s.keyCount n ≤ dKey d then .fail (.fail 0x14 (keyDetail 1 1))
  else if ue = .attr || (ue = .next && usesNext d) then .fail (.fail 0x1A 0)
  else
    let as := s.slotsNamed n d
    let a := as.headD 0
    let x := s.slotAt a
    if as.any s.slotBad then .shadow (as.filter s.slotBad)
    else match ((if fillsSlot d then s.targetFail n d a else s.usedFail n d a)).orElse (fun _ => s.key2Fail n d) with
      | some r => .fail r
      | none =>
        let m := if fillsSlot d then some [] else if readsKey d && decide (ue = .key) then none else s.material a
        let m2 := match as.drop 1 with
          | a2 :: _ => if ue = .key2 then none else s.material a2
          | [] => some []
        match m, m2 with
        | some mat, some mat2 =>
          match (if fillsSlot d then none else keyLenFail d x.attr mat x.k) with
          | some r => .fail r
          | none => .ok (some a) x.attr mat ((as.drop 1).map (fun a2 => (s.slotAt a2).attr) |>.headD 0) mat2
        | _, _ => if readsKey d || m2.isNone then .fail (.fail 0x1A 0) else .ok (some a) x.attr [] 0 []

/-- The errors that the reads of step 5 met are counted (R358, R371). -/
def State.keyUe (s : State) (n : Nat) (d : Bytes) (ue : SlotUe) : State :=
  if !usesKey d then s
  else match ue, s.slotsNamed n d with
    | .key, a :: _ => if readsKey d then s.slotUe a else s
    | .key2, [_, a2] => s.slotUe a2
    | .attr, _ => (s.bump .memSramUe).memEvt 2
    | .next, _ => if usesNext d then (s.bump .memSramUe).memEvt 2 else s
    | .corrected, a :: _ => if readsKey d then s.slotCe a else s
    | .corrected2, [_, a2] => s.slotCe a2
    | .correctedAttr, _ => s.bump .memSramCe
    | _, _ => s

/-! ### Counter cells -/

/-- Request the write of a higher LIMIT, limited to the capacity, unless one is in flight (R228). -/
def Cell.reserve (x : Cell) (upto : Nat) : Cell :=
  if x.writing.isNone && decide (x.limit < min upto x.cap) then { x with writing := some (min upto x.cap) } else x

/-- NEXT after a loss stands at LIMIT, once no write of LIMIT is in flight, with LIMIT + 512 requested (R229); else LIMIT + 256 is
requested when NEXT has reached LIMIT − 256 (R228). -/
def Cell.ready (x : Cell) : Cell :=
  match x.next with
  | none => if x.writing.isSome then x else { x with next := some x.limit }.reserve (x.limit + 512)
  | some i => if x.limit ≤ i + 256 then x.reserve (x.limit + 256) else x

/-! ### Traversal state (R233) -/

/-- The traversal state of a stateful key for index `i`. -/
def travOf (w : DWord) (mat : Bytes) (i : Nat) : Bytes := if attrClass w = 4 then hssTrav mat i else xmssTrav (attrSet w) mat i

/-- Device address of a cell's traversal state (Table 11-2). -/
def travAddr (c : Nat) : Nat := 0x80000000 + 0x40000 * c

/-- A cell's traversal state written for index `i`, with its tag. -/
def State.putTrav (s : State) (w : DWord) (mat : Bytes) (i : Nat) : State :=
  let c := attrCell w
  let t := travOf w mat i
  (s.onlyIf s.ddrReady (fun s => { s with ddr := Memory.write (travAddr c) (t ++ memoTag s.memoKey t) s.ddr })).setCell c
    { s.cell c with traversal := some t.length }

/-- A cell's traversal state, unless it is lost, cannot be read or fails its tag. -/
def State.getTrav (s : State) (c : Nat) : Option Bytes :=
  match (s.cell c).traversal with
  | none => none
  | some n =>
    let b := Memory.read (travAddr c) (n + 16) s.ddr
    if s.ddrReady && memoTag s.memoKey (b.take n) == b.drop n then some (b.take n) else none

/-- Traversal state that fails its code as a SIGN reads it is lost (R233, R371). -/
def State.travUe (s : State) (c : Nat) (ue : SlotUe) : State :=
  if ue = .traversal && s.ddrReady then (s.ddrUe (travAddr c)).setCell c { s.cell c with traversal := none } else s

/-! ### Indices (R228 to R230, R234) -/

/-- A SIGN `j` of the key with attribute word `w` takes the index NEXT, if it is below an acknowledged LIMIT and the traversal state
stands; else it waits, and lost traversal state is rebuilt. -/
def State.tryIndex (s : State) (j : Nat) (w : DWord) (mat : Bytes) : Bool × State :=
  let c := attrCell w
  let x := (s.cell c).ready
  match x.next with
  | none => (false, s.setCell c x)
  | some i =>
    if x.cap ≤ i || x.rebuilding then (false, s.setCell c x)
    else match s.getTrav c with
      | none => (false, s.setCell c { x with rebuilding := true, traversal := none })
      | some t =>
        if x.limit ≤ i then (false, s.setCell c x)
        else
          let s := s.setCell c { x with next := some (i + 1) }.ready
          let s := if i + 1 < x.cap then s.putTrav w mat (i + 1) else s
          (true, s.setJob j (fun y => { y with sigIndex := some i, trav := t }))

/-- A SIGN that finds NEXT equal to the acknowledged LIMIT waits for the pending write: it is counted, once (R228). -/
def State.countWait (s : State) (c j : Nat) : State :=
  let x := s.cell c
  if x.next.getD x.limit = x.limit ∧ (s.job? j).any (fun y => !y.ctrWait) then
    ((s.bump .hsfSctrWaits).hsfEvt 5).setJob j (fun y => { y with ctrWait := true })
  else s

/-- A SIGN at its slot read (R228): it takes an index, or waits behind those that wait already. -/
def State.takeIndex (s : State) (j : Nat) (w : DWord) (mat : Bytes) : State :=
  let c := attrCell w
  let (took, s) := if (s.cell c).waiters.isEmpty then s.tryIndex j w mat else (false, s)
  if took then s else (s.setCell c { s.cell c with waiters := (s.cell c).waiters ++ [j] }).countWait c j

/-- A SIGN waits no more. -/
def State.dropWaiter (s : State) (c j : Nat) : State := s.setCell c { s.cell c with waiters := (s.cell c).waiters.filter (· ≠ j) }

/-- The SIGN jobs that wait at a cell take what indices there are, in the order of their reads; one whose slot is empty ends
KEY_SLOT_EMPTY, one for which no index is left STATE_EXHAUSTED (R230, R231, R234). One whose slot's word disagrees with its inverse goes
on waiting until the response has run (R38, R302). -/
def State.giveIndices (s : State) (c : Nat) : State :=
  s.each (s.cell c).waiters (fun s j => match s.job? j with
    | none => s.dropWaiter c j
    | some y =>
      if y.phase = .sealed then s.dropWaiter c j
      else if s.slotBad (y.slot.getD 0) then s.dueSlots [y.slot.getD 0]
      else if !(s.slotAt (y.slot.getD 0)).filled then (s.dropWaiter c j).endJob j (.fail 0x15 (keyDetail 0 1))
      else if (s.cell c).exhausted then (s.dropWaiter c j).endJob j (.fail 0x17 0)
      else
        let (took, s) := s.tryIndex j y.attr y.key
        if took then s.dropWaiter c j else s.countWait c j)

/-- A slot is emptied by a commit (R307): a SIGN that still waits for an index of its key ends KEY_SLOT_EMPTY (R231), and a cell that
serves no key any more shows no capacity (R245). -/
def State.emptySlot (s : State) (a : Nat) : State :=
  let w := (s.slotAt a).attr
  let c := attrCell w
  if !getB w 4 then s.clearSlot a
  else
    let js := (s.cell c).waiters.filter (fun j => (s.job? j).any (fun y => decide (y.slot = some a)))
    let s := s.each js (fun s j => (s.dropWaiter c j).endJob j (.fail 0x15 (keyDetail 0 1)))
    let s := s.clearSlot a
    if (s.cellSlots c).isEmpty && decide ((s.cell c).state ≠ .used) then s.setCell c { s.cell c with cap := 0 } else s

/-- A SIGN of a job not yet sealed holds an index of cell `c` (R227). -/
def State.cellHeld (s : State) (c : Nat) : Bool :=
  s.jobs.any (fun j => j.sigIndex.isSome && decide (attrCell j.attr = c) && getB j.attr 4 && decide (j.phase ≠ .sealed))

/-- The cell a stateful KEYGEN takes (R227). -/
def State.freeCell (s : State) : Option Nat :=
  firstBelow 1024 (fun c => decide ((s.cell c).state = .free) && (s.cellSlots c).isEmpty && !s.cellHeld c)

/-- Free a cell and raise its generation, or retire it at 0xFFFF (R227, R231). -/
def Cell.release (x : Cell) : Cell :=
  if x.gen + 1 = 0xFFFF then { x with state := .retired, gen := 0xFFFF, freeing := false }
  else { x with state := .free, gen := x.gen + 1, freeing := false }

/-- A stateful blob still matches its cell and epoch (R231). -/
def State.blobLive (s : State) (b : Bytes) : Bool :=
  let c := s.cell (leAt b 20 2)
  leAt b 16 4 == (s.bbram.epoch.map (·.2)).getD 0 && leAt b 22 2 == c.gen && decide (c.state ≠ .retired)

end Sys2Proof.Machine
end

