-- ==== Sys2Proof/Machine/Sched.lean ====
section
/-! DEFINITION. The cox: which pools carry an operation, which unit can take a job, and the weighted deficit round robin
(R62, R70, R71, R151 to R153, R158, R213, R249, R260, R282, R480). -/

namespace Sys2Proof.Machine

/-! ### Pools and what they carry -/

/-- The kinds of pool an opcode needs: 1 shells, 2 BNE cores, 3 hash-field partition; none for the SC's classes. -/
def opKinds (op : Nat) : List Nat := match op / 256 with
  | 0x01 | 0x02 | 0x06 => [1]
  | 0x08 | 0x09 | 0x0A | 0x0B => [2]
  | 0x03 | 0x04 | 0x05 | 0x0C => [3]
  | 0x10 => [1, 2, 3]
  | _ => []

/-- The bit of a pool's algorithm set that an opcode and set fall under, if there is one (R213, R249, R282; Table 04-14). -/
def algBit (kind op set : Nat) : Option Nat :=
  let tile (lo n : Nat) : Option Nat := if 1 ≤ set ∧ set ≤ n then some (lo + (set - 1)) else none
  match kind, op / 256 with
  | 1, 0x01 => tile 0 3
  | 1, 0x02 => tile 3 3
  | 1, 0x06 => tile 6 3
  | 1, 0x10 => tile 1 2
  | 2, 0x08 => some 0
  | 2, 0x09 => some 1
  | 2, 0x0A => some 2
  | 2, 0x0B => some 3
  | 2, 0x10 => some 4
  | 3, 0x03 => some (if set % 2 = 0 then 0 else 1)
  | 3, 0x04 => some 2
  | 3, 0x05 => some 3
  | 3, 0x0C => some 4
  | 3, 0x10 => some 5
  | _, _ => none

/-- An opcode and set fall within an algorithm set. -/
def inAlg (alg kind op set : Nat) : Bool := (algBit kind op set).any alg.testBit

/-- The algorithm set of a pool: ALG, its group's ALG or its partition's GROUPS (R282). -/
def Rig.poolAlg (r : Rig) (p : RigPool) : Nat :=
  match p.kind with
  | 1 => p.alg
  | 2 => ((r.groups.find? (fun g => g.pool == p.num)).map (·.alg)).getD 0
  | _ => ((r.parts.find? (fun g => g.pool == p.num)).map (·.groups)).getD 0

/-- The kernel set a pool names. -/
def Rig.kset (r : Rig) (p : RigPool) : List KernelEntry := ((r.ksets.find? (fun k => k.id == p.kset)).map (·.entries)).getD []

/-- The entry by which a pool carries an opcode and set (R282). -/
def Rig.entry (r : Rig) (p : RigPool) (op set : Nat) : Option KernelEntry :=
  if inAlg (r.poolAlg p) p.kind op set then (r.kset p).find? (fun e => e.opcode == op && e.set == set) else none

/-- A pool carries some set of an opcode. -/
def Rig.carriesOp (r : Rig) (p : RigPool) (op : Nat) : Bool :=
  (r.kset p).any (fun e => e.opcode == op && inAlg (r.poolAlg p) p.kind op e.set)

/-- SET for the kernel records: class 0x0A uses 0 (R480); classes without sets use 0. -/
def kernelSet (d : Bytes) : Nat := pSet (dParam d)

/-- A shell belongs to pool `p`. -/
def State.shellIn (s : State) (p sh : Nat) : Bool := s.shellState sh != 0 && s.fld (.fabShellMap sh) 20 16 == p

/-- A core of partition `k` (0 to 63 KC, 64 to 127 SHC). -/
def State.inPart (s : State) (k core : Nat) : Bool :=
  if core < 64 then s.bit (.hsfPartKc k) core else s.bit (.hsfPartShc k) (core - 64)

/-- The partition that holds pool `p`. -/
def State.partOf (s : State) (p : Nat) : Option Nat :=
  firstBelow 8 (fun k => s.bit (.hsfPartCfg k) 7 && s.fld (.hsfPartCfg k) 4 0 == p)

/-- The group that holds pool `p`. -/
def State.groupOf (s : State) (p : Nat) : Option Nat :=
  firstBelow 8 (fun g => s.bit (.bneGrpCfg g) 7 && s.fld (.bneGrpCfg g) 4 0 == p)

/-- Units of a pool: configured, in service, and on their way back (R152, R249). -/
def State.poolUnits (s : State) (p : RigPool) : Nat × Nat × Nat :=
  match p.kind with
  | 1 =>
    let shells := below 96 (s.shellIn p.num)
    let live := shells.filter (fun sh => s.shellState sh == 1)
    let back := shells.filter (fun sh => s.shellState sh == 2
      || (s.shellState sh == 5 && s.fld (.fabIslStat (s.fld (.fabShellMap sh) 14 12)) 6 4 == 2))
    (shells.length, live.length, back.length)
  | 2 =>
    match s.groupOf p.num with
    | some g =>
      let cores := below 8 (fun c => s.bit (.bneGrpCfg g) (8 + c))
      (cores.length, (cores.filter (fun c => s.bneState c == 1)).length, 0)
    | none => (0, 0, 0)
  | _ =>
    match s.partOf p.num with
    | some k =>
      let cores := below 128 (s.inPart k)
      (cores.length, (cores.filter (fun c => decide ((s.hcore c).state = .inService))).length, 0)
    | none => (0, 0, 0)

/-- FAB_POOL_STAT.STATE: 0 UNUSED, 1 RUNNING, 2 DEGRADED, 3 EMPTY, 4 RE_RIGGING (R152). -/
def State.poolState (s : State) (p : RigPool) : Nat :=
  if (s.reRig.map (fun r => r.committed && r.pool == p.num)).getD false then 4
  else
    let (conf, live, back) := s.poolUnits p
    if live = conf ∧ 0 < live then 1 else if live = 0 ∧ back = 0 then 3 else 2

/-- The pools of the rig in force. -/
def State.pools (s : State) : List RigPool := (s.rig.map (·.pools)).getD []

/-- The rig's record of a pool. -/
def State.poolRec (s : State) (p : Nat) : Option RigPool := s.pools.find? (fun x => x.num == p)

/-- Pools of a kind, permitted to a slice and not EMPTY, that carry an opcode and set (R71, R151, R153). -/
def State.poolsFor (s : State) (n kind op set : Nat) : List RigPool :=
  match s.rig with
  | none => []
  | some r => r.pools.filter (fun p => p.kind == kind && s.bit (.slmSlicePools n) p.num && s.poolState p != 3
      && (r.entry p op set).isSome)

/-- Pools of a kind that the mask permits to a slice and whose sets hold an opcode and set, EMPTY or not (R71). -/
def State.permitted (s : State) (n kind op set : Nat) : List RigPool :=
  match s.rig with
  | none => []
  | some r => r.pools.filter (fun p => p.kind == kind && s.bit (.slmSlicePools n) p.num && (r.entry p op set).isSome)

/-- Every kind of pool an operation needs is there for the slice (R61, R282). -/
def State.carried (s : State) (n op set : Nat) : Bool := (opKinds op).all (fun k => !(s.poolsFor n k op set).isEmpty)

/-- The opcode is in the rig, and for each kind it needs a pool permitted to the slice carries it, whatever the set (R61). -/
def State.opCarried (s : State) (n op : Nat) : Bool :=
  opDefined op && match opKinds op with
  | [] => true
  | ks => match s.rig with
    | none => false
    | some r => ks.all (fun k => r.pools.any (fun p => p.kind == k && s.bit (.slmSlicePools n) p.num && s.poolState p != 3
        && r.carriesOp p op))

/-! ### Cost (R70, R480) -/

/-- Modulus length by which class 0x0A is costed (R480). -/
def State.costK (s : State) (j : Job) : Nat :=
  let d := j.desc
  if dOp d = 0x0A01 then dAux d / 8
  else if pInline (dParam d) then dIn2Len d
  else (s.slotAt (s.keyBase j.slice + dKey d)).k

/-- A job's cost in a pool: the kernel record's, scaled by the modulus for class 0x0A, at least 1. -/
def State.cost (s : State) (r : Rig) (p : RigPool) (j : Job) : Nat :=
  match r.entry p (dOp j.desc) (kernelSet j.desc) with
  | none => 1
  | some e =>
    if dClass j.desc ≠ 0x0A then max 1 e.cost
    else
      let k := s.costK j
      let x := if dOp j.desc ∈ [0x0A03, 0x0A04, 0x0A09] then (e.cost * k ^ 2 + 256 ^ 2 - 1) / 256 ^ 2
        else (e.cost * k ^ 3 + 256 ^ 3 - 1) / 256 ^ 3
      max 1 x

/-! ### Handles (R258 to R260) -/

/-- The operand a valid handle of a slice names (R258, R260). -/
def State.handleVal (s : State) (n h : Nat) : Option Bytes :=
  let e := tget ⟨0, none, []⟩ (h % 64) (s.bcore (handleCore h)).res
  if h / 512 % 128 = 0 ∧ h / 65536 = e.gen ∧ e.owner = some n ∧ e.gen ≠ 0 then some e.val else none

/-- The first operand whose handle is refused (R260). -/
def State.handleFail (s : State) (n : Nat) (d : Bytes) : Option Nat :=
  let hs := handlesOf d
  let len := 8 * (pSet (dParam d) + 1)
  match hs with
  | [] => none
  | (_, h0) :: _ =>
    (hs.find? (fun (_, h) => match s.handleVal n h with
      | none => true
      | some v => (dOp d != 0x0B05 && v.length != len) || handleCore h != handleCore h0)).map (·.1)

/-- The first operand of a job whose handle's entry holds nothing any more: its core was reset meanwhile (R261). -/
def State.handleGone (s : State) (d : Bytes) : Option Nat :=
  ((handlesOf d).find? (fun (_, h) =>
    let e := tget ⟨0, none, []⟩ (h % 64) (s.bcore (handleCore h)).res
    decide (h / 65536 ≠ e.gen) || e.val.isEmpty)).map (·.1)

/-- The operand for which a job's handles are refused: as a new job's, or as those of one that awaits its re-execution, which FREE
leaves alone (R260, R261). -/
def State.handleBad (s : State) (j : Job) : Option Nat := if j.ahead then s.handleGone j.desc else s.handleFail j.slice j.desc

/-- Cores of a pool's group, in service. -/
def State.groupCores (s : State) (p : Nat) : List Nat :=
  match s.groupOf p with
  | some g => below 8 (fun c => s.bit (.bneGrpCfg g) (8 + c) && s.bneState c == 1 && !(s.bcore c).leaving)
  | none => []

/-- Bytes of a core's resident area in use. -/
def State.resBytes (s : State) (c : Nat) : Nat := ((s.bcore c).res.map (fun e => e.2.val.length)).sum

/-- Entries a slice holds on a core, by their handles. -/
def State.resHeld (s : State) (c n : Nat) : Nat := ((s.bcore c).res.filter (fun e => decide (e.2.owner = some n))).length

/-- Entries of a core in use: those with a handle, and those whose storage a job in flight still reads (R261, R269). -/
def State.resEntries (s : State) (c : Nat) : Nat := ((s.bcore c).res.filter (fun e => e.2.owner.isSome || !e.2.val.isEmpty)).length

/-- An entry of core `c` that holds nothing and that no job in flight still uses. -/
def State.freeEntry (s : State) (c : Nat) : Option Nat :=
  firstBelow 64 (fun e =>
    let r := tget ⟨0, none, []⟩ e (s.bcore c).res
    r.owner.isNone && !(s.handleBusy (handleOf c e r.gen)))

/-- The entry a LOAD of `len` bytes by slice `n` takes on core `c`, if the slice's quota and the room allow it (R259). -/
def State.loadEntry (s : State) (n c len : Nat) : Option Nat :=
  if s.bit (.slmSliceCtrl n) 4 || decide (s.fld .bneResQuota 6 0 ≤ s.resHeld c n) || decide (16384 < s.resBytes c + len) then none
  else s.freeEntry c

/-- The core of a group a LOAD goes to: the one with the most free resident bytes, the lowest among equals, of those that can take
it; where none can, of all (R259). -/
def State.loadCore (s : State) (p n len : Nat) : Option Nat :=
  let most (l : List Nat) : Option Nat := l.foldl (fun best c => match best with
    | none => some c
    | some b => if s.resBytes c < s.resBytes b then some c else best) none
  let l := s.groupCores p
  (most (l.filter (fun c => (s.loadEntry n c len).isSome))).orElse (fun _ => most l)

/-- The core a job is tied to: its handles' core, or the one a LOAD goes to; none when any core serves. -/
def State.tiedCore (s : State) (p : Nat) (j : Job) : Option Nat :=
  if dOp j.desc = 0x0B04 ∧ (handlesOf j.desc).isEmpty then s.loadCore p j.slice (8 * (pSet (dParam j.desc) + 1))
  else if (s.handleBad j).isSome then none
  else ((handlesOf j.desc).head?).map (fun (_, h) => handleCore h)

/-! ### Units -/

/-- A tile's mask generator has budget for another job (R157, R158). -/
def State.hasBudget (s : State) (t : Nat) : Bool := decide (tget 0 t s.maskJobs < 4096)

/-- A job of class 0x03 to 0x05 or 0x0C needs Keccak cores, else SHA-2 cores, by its set or hash (R212); `key` is the slot's
material, or the inline public key, by whose types LMS and XMSS choose. -/
def needsKc (d : Bytes) (key : Bytes) : Bool :=
  let inl := pInline (dParam d)
  match dClass d with
  | 0x03 => pSet (dParam d) % 2 == 0
  | 0x0C => decide (7 ≤ pHash (dParam d))
  | 0x04 => lmsShake (if dOp d = 0x0401 then leAt d 97 1 else if inl then beNat (slice key 4 4) else leAt key 5 1)
  | 0x05 =>
    let t := if dOp d = 0x0501 then dAux d else if inl then beNat (key.take 4) else leAt key 0 4
    ((xmssPar (pSet (dParam d)) t).map (fun p => decide (0xB ≤ p.fn))).getD false
  | _ => true

/-- The key of an inline LMS or XMSS VERIFY is still to be gathered, and with it the kind of core: it takes either kind, and moves
when the key says otherwise (DESIGN CHOICE, log 70). -/
def Job.kindOpen (j : Job) : Bool := decide (dClass j.desc = 4 ∨ dClass j.desc = 5) && pInline (dParam j.desc) && j.in2.isEmpty

/-- The bytes by which `needsKc` knows a job's key. -/
def State.kindKey (s : State) (j : Job) : Bytes :=
  if pInline (dParam j.desc) then j.in2 else (s.slotAt (s.keyBase j.slice + dKey j.desc)).mat

/-- A job of classes 0x03 to 0x05 runs on a gang (R214). -/
def isGang (d : Bytes) : Bool := decide (3 ≤ dClass d) && decide (dClass d ≤ 5)

/-- The gang formed around core `k`: the rig's size of free cores of the kind, or every live one if fewer are live (R214). -/
def State.formGang (s : State) (part : Nat) (kc : Bool) (size k : Nat) : Option (List Nat) :=
  let live := below 128 (fun c => s.inPart part c && (decide (c < 64) == kc) && decide ((s.hcore c).state = .inService))
  let free := live.filter (fun c => (s.onHash c).isEmpty && !(s.hcore c).leaving)
  let want := min size live.length
  if k ∈ free ∧ want ≤ free.length then some (k :: (free.filter (· ≠ k)).take (want - 1)) else none

/-- Unit `u` of pool `p` is free: in service, in the pool, with room for a job. -/
def State.unitFree (s : State) (p : RigPool) (u : JobUnit) : Bool :=
  match u with
  | .shell sh =>
    p.kind == 1 && s.shellIn p.num sh && s.shellState sh == 1 && (s.onUnit u).isEmpty
      && (s.shellTiles sh).all (fun t => (s.tile t).halt.isNone)
      && (p.harden == 2 || (s.shellTiles sh).all s.hasBudget)
  | .bne c f => p.kind == 2 && decide (c ∈ s.groupCores p.num) && decide (f < 2) && (s.onCore c).isEmpty
  | .hash k =>
    p.kind == 3 && (s.partOf p.num).any (fun part => s.inPart part k) && decide ((s.hcore k).state = .inService) && !(s.hcore k).leaving
      && decide ((s.onHash k).length < 8) && (s.onHash k).all (fun x => x.gang.isEmpty)
  | .sc => false

/-- Unit `u` of pool `p` suits job `j`: the core its handles name, the kind of hash core, a gang where it needs one. -/
def State.unitSuits (s : State) (p : RigPool) (u : JobUnit) (j : Job) : Bool :=
  match u with
  | .bne c _ => (match s.tiedCore p.num j with | some c' => c' == c | none => true)
  | .hash k =>
    let kc := if j.kindOpen then decide (k < 64) else needsKc j.desc (s.kindKey j)
    let size := ((s.rig.bind (fun r => r.entry p (dOp j.desc) (kernelSet j.desc))).map (·.gang)).getD 1
    (decide (k < 64) == kc) && (!isGang j.desc || (s.partOf p.num).any (fun part => (s.formGang part kc size k).isSome))
  | _ => true

/-- Unit `u` of pool `p` can take job `j` now. -/
def State.unitTakes (s : State) (p : RigPool) (u : JobUnit) (j : Job) : Bool := s.unitFree p u && s.unitSuits p u j

/-! ### Readiness and choice -/

/-- A job (or the half that runs on this kind of pool) waits for a unit. -/
def Job.waitsFor (j : Job) (kind : Nat) : Bool :=
  if dClass j.desc = 0x10 then
    (decide (j.phase = .waiting) || decide (j.phase = .started) || decide (j.phase = .gathered))
      && (match kind with
        | 1 => decide (j.pq.phase = .waiting)
        | 2 => decide (j.classical.phase = .waiting)
        | _ => false)
  else decide (j.phase = .waiting)

/-- R62 lets the job be dispatched: a FENCE job after every earlier completion, no job before an earlier FENCE job. -/
def State.fenceOk (s : State) (j : Job) : Bool :=
  let earlier := (s.jobs.takeWhile (fun x => x.id ≠ j.id)).filter (fun x => x.queue == j.queue)
  (!dFlag j.desc 1 || j.ahead || decide (j.phase ≠ .waiting) || earlier.isEmpty)
    && earlier.all (fun x => !(dFlag x.desc 1 && decide (x.phase = .waiting) && !x.ahead))

/-- Journal records in use (R357). -/
def State.journalUsed (s : State) : Nat :=
  (s.jobs.filter (·.journal)).length + ((s.qx.map (fun q => (q.2.held.filter (·.journal)).length)).sum)

/-- A key-changing job finds a journal record (R357). -/
def State.journalOk (s : State) (j : Job) : Bool := !changesSlot j.desc || j.journal || decide (s.journalUsed < 2048)

/-- The pool in which a job, or the part of a hybrid job that runs on this kind, was last dispatched. -/
def Job.lastPool (j : Job) (kind : Nat) : Option Nat :=
  if dClass j.desc = 0x10 then (match kind with
    | 1 => j.pq.pool
    | 2 => j.classical.pool
    | _ => j.pool)
  else j.pool

/-- The pools that may take a waiting job, or part of one: the permitted ones, and for a re-execution its own pool while that can
take it (R34, R153; log 61). -/
def State.poolChoice (s : State) (j : Job) (kind : Nat) : List RigPool :=
  let ps := s.poolsFor j.slice kind (dOp j.desc) (kernelSet j.desc)
  match ps.find? (fun p => decide (j.lastPool kind = some p.num)) with
  | some p => [p]
  | none => ps

/-- The jobs of slice `n` that wait for pool `p`; none of a slice whose ownership registers disagree with their shadows (R38). -/
def State.waitingFor (s : State) (p : RigPool) (n : Nat) : List Job :=
  if s.sliceBad n then []
  else s.jobs.filter (fun j => j.slice == n && j.waitsFor p.kind && (s.poolChoice j p.kind).any (fun x => x.num == p.num))

/-- The next candidate in a list under strict priority, re-executions first within a priority, and round robin across queues:
`last` is the queue last served (R34, R70). -/
def pickJob (last : Nat → Nat) (l : List Job) : Option Job :=
  let key (j : Job) : Nat × Nat × Nat := (dPrio j.desc, if j.ahead then 0 else 1, (j.queue + 64 - 1 - last (dPrio j.desc)) % 64)
  let less (a b : Job) : Bool :=
    let x := key a
    let y := key b
    decide (x.1 < y.1) || (x.1 == y.1 && (decide (x.2.1 < y.2.1) || (x.2.1 == y.2.1 && decide (x.2.2 < y.2.2))))
  l.foldl (fun best j => match best with
    | none => some j
    | some b => if less j b then some j else best) none

/-- A pool's scheduler. -/
def State.coxPool (s : State) (p : Nat) : CoxPool := tget ⟨0, [], [], []⟩ p s.cox

/-- The first ready job of slice `n` for pool `p` that unit `u` can take (R70). -/
def State.firstReady (s : State) (p : RigPool) (u : JobUnit) (n : Nat) : Option Job :=
  let c := s.coxPool p.num
  pickJob (fun pr => tget (64 * n + 63) (4 * n + pr) c.lastQueue)
    ((s.waitingFor p n).filter (fun j => s.fenceOk j && s.journalOk j && s.unitTakes p u j))

/-- SLM_SLICE_WEIGHT of a slice for a pool, at least 1 (R69, R70). -/
def State.weight (s : State) (n p : Nat) : Nat := max 1 (s.fld (.slmSliceWeight n (p / 8)) (8 * (p % 8) + 7) (8 * (p % 8)))

/-- The next slice in the ring of those with jobs waiting. -/
def nextSlice (l : List Nat) (n : Nat) : Nat :=
  match l.find? (fun x => decide (n < x)) with
  | some x => x
  | none => (l.head?).getD n

/-- The loop of R70 for pool `p` and a free unit: the job dispatched and the scheduler after it. -/
def State.coxLoop (s : State) (r : Rig) (p : RigPool) (u : JobUnit) (ring : List Nat) : Nat → CoxPool → Option Job × CoxPool
  | 0, c => (none, c)
  | fuel + 1, c =>
    let n := if c.current ∈ ring then c.current else nextSlice ring c.current
    let c := { c with current := n }
    let c := if n ∈ c.visited then c
      else { c with visited := n :: c.visited, deficit := tset n (tget 0 n c.deficit + s.weight n p.num * 16) c.deficit }
    match s.firstReady p u n with
    | none => s.coxLoop r p u ring fuel { c with deficit := tset n 0 c.deficit, current := nextSlice ring n }
    | some j =>
      let cost := s.cost r p j
      if cost ≤ tget 0 n c.deficit then
        (some j, { c with deficit := tset n (tget 0 n c.deficit - cost) c.deficit
                          lastQueue := tset (4 * n + dPrio j.desc) j.queue c.lastQueue })
      else s.coxLoop r p u ring fuel { c with visited := c.visited.filter (· ≠ n), current := nextSlice ring n }

/-- What a round in which no slice has a job ready leaves (R70): every slice of the ring visited, without deficit. -/
def CoxPool.idleRound (c : CoxPool) (ring : List Nat) : CoxPool :=
  { c with visited := c.visited ++ ring.filter (fun n => !c.visited.contains n), deficit := [] }

/-- The cox's choice for a free unit of a pool, and its scheduler after it; a slice with nothing left waiting loses its deficit. -/
def State.coxChoose (s : State) (r : Rig) (p : RigPool) (u : JobUnit) : Option Job × CoxPool :=
  let ring := below 512 (fun n => !(s.waitingFor p n).isEmpty)
  let cands := ring.filterMap (s.firstReady p u)
  let c := s.coxPool p.num
  let c := { c with deficit := c.deficit.filter (fun e => decide (e.1 ∈ ring)) }
  if !s.unitFree p u then (none, s.coxPool p.num)
  else if cands.isEmpty then (none, c.idleRound ring)
  else
    let top := (cands.map (s.cost r p)).foldl max 1
    s.coxLoop r p u ring ((ring.length + 1) * (top / 16 + 4) * 2) c

end Sys2Proof.Machine
end

