-- ==== Sys2Proof/Machine/Complete.lean ====
section
/-! DEFINITION. How jobs end: slot commits, outputs, completion entries, interrupts, queue errors, retries and cancellation
(R16, R29 to R37, R56, R63 to R68, R72 to R76, R101, R133, R222, R225, R261 to R264). -/

namespace Sys2Proof.Machine

/-! ### The memo's space (R222) -/

/-- Entries reserved by a memo of depth `m` with trees of height `h`. -/
def memoTrees (h : Nat) : Nat → Nat
  | 0 => 0
  | m + 1 => memoTrees h m * 2 ^ h + 1

/-- Bytes a memo depth reserves for an SLH-DSA set. -/
def memoBytes (set m : Nat) : Nat := memoTrees (slhH set) m * slhEntry set

/-- HSF_MEMO_USED: bytes reserved by every memo depth. -/
def State.memoUsed (s : State) : Nat :=
  ((s.slots.filter (fun e => e.2.filled && attrClass e.2.attr == 3)).map (fun e => memoBytes (attrSet e.2.attr) (attrMemo e.2.attr))).sum

/-- A memo depth fits the free part of the region. -/
def State.memoFits (s : State) (a m : Nat) : Bool :=
  let w := (s.slotAt a).attr
  decide (s.memoUsed - memoBytes (attrSet w) (attrMemo w) + memoBytes (attrSet w) m ≤ s.fld .hsfMemoSize 36 12 * 4096)

/-! ### Slot commits (R30) -/

/-- Set a slot's memo depth: entries of dropped layers go (R225). -/
def State.setMemo (s : State) (a m : Nat) : State :=
  let w := (s.slotAt a).attr
  let x := s.slotAt a
  let w' := setF w 62 58 m
  { s with slots := tset a { x with attr := w', inv := ~~~w' } s.slots
           memo := s.memo.filter (fun e => e.1.slot ≠ a ∨ slhD (attrSet w) - m ≤ e.1.layer) }

/-- The slot change of a result of job `j`: what it becomes if the slot has changed since, and the state with the change (R133, R141). A
key enters under the root in force at the commit (R319); a job that has used a key which another commit has destroyed since completes
as it would have. -/
def State.commitSlot (s : State) (j : Job) (r : Result) : Result × State :=
  match r.commit with
  | .none => (r, s)
  | .fill a attr mat =>
    if (s.slotAt a).filled then (.fail 0x14 (keyDetail 4 1), s)
    else (r, s.putSlot a mat (setB attr 5 s.testRoot) (if attrClass attr = 0x0A then leAt mat 0 4 else 0))
  | .empty a => if (s.slotAt a).filled then (r, s.emptySlot a) else (.fail 0x15 (keyDetail 0 1), s)
  | .consume a => (r, s.onlyIf (s.holdsKey j) (·.emptySlot a))
  | .memo a m =>
    if !s.holdsKey j then (r, s)
    else if s.memoFits a m then (r, s.setMemo a m) else (.fail 0x14 (keyDetail 8 1), s)

/-- The slots a commit reads and changes. -/
def Commit.slots : Commit → List Nat
  | .none => []
  | .fill a _ _ | .empty a | .consume a | .memo a _ => [a]

/-- The write that frees a slot's cell is issued if no other slot is bound to the cell (R231, R307). -/
def State.freeFirst (s : State) (a : Nat) : State :=
  if s.lastOfCell a then
    let c := attrCell (s.slotAt a).attr
    s.setCell c { s.cell c with freeing := true }
  else s

/-- A DESTROY that the acknowledgement of its cell's freeing write must precede (R231). -/
def State.mustFree (s : State) (r : Result) : Option Nat :=
  match r.commit with
  | .empty a => if s.lastOfCell a then some a else none
  | _ => none

/-! ### Interrupts of a queue (R67, R68) -/

/-- The vector a queue signals, if it can fire (R66). -/
def State.queueVector (s : State) (q : Nat) : Option Nat :=
  let n := q / 64
  let v := s.fld (.qmgQCtrl q) 5 4
  if v < s.fld (.slmSliceMsix n) 2 0 then some (4 * n + v) else none

/-- Send a queue's message: its pending count becomes zero (R67). -/
def State.sendQueue (s : State) (q : Nat) : State :=
  let s' := match s.queueVector q with
    | some v => s.sendMsix v
    | none => s
  s'.setQueueX q (fun x => { x with pendInt := 0 })

/-- One flagged completion counts; the message goes when the count reaches MOD_COUNT (R67). -/
def State.countInt (s : State) (q : Nat) : State :=
  let s := s.setQueueX q (fun x => { x with pendInt := x.pendInt + 1 })
  if s.fld (.qmgQMod q) 8 0 ≤ (s.queueX q).pendInt then s.sendQueue q else s

/-! ### Completion entries -/

/-- Put a queue in ERROR (R72 to R74). DESIGN CHOICE (log 59): a further fault of a queue already in ERROR replaces CODE, WHERE and
INDEX, and a DRAINING queue sets QMG_Q_ERR and goes on draining to DISABLED (R56). -/
def State.queueError (s : State) (q code wher index : Nat) : State :=
  let s := s.wr (.qmgQErr q) (BitVec.ofNat 64 (code + wher * 2 ^ 8 + index % 65536 * 2 ^ 16))
  if s.queueState q = 1 then s.setQueueState q 2 else s

/-- Where entry `idx` of the completion ring of queue `q` lies (R52). -/
def State.cqAddr (s : State) (q idx : Nat) : Nat := s.fld (.qmgQCqBase q) 63 12 * 4096 + 32 * idx

/-- Why entry `idx` of the completion ring of queue `q` cannot be written, as QMG_Q_ERR codes it: outside the slice's window (R52),
not issued to host memory (R41), or an LPDDR5X line that cannot be read (R74); while no key is valid such a write is none (R374). -/
def State.cqWritable (s : State) (q idx : Nat) (ue : Bool) : Option Nat :=
  let ddr := s.bit (.qmgQCtrl q) 2
  if !s.inWindow (q / 64) ddr (s.cqAddr q idx) 32 then some 0x19
  else if ddr then (if ue && s.ddrReady then some 0x1A else none)
  else if s.hostFault (q / 64) then some 0x19 else none

/-- QMG_Q_CQ_TAIL after `k` more entries: the index wraps with the phase inverted (R57, R64). -/
def State.cqAhead (s : State) (q k : Nat) : Nat × Nat :=
  let i := s.fld (.qmgQCqTail q) 15 0 + k
  let ph := s.fld (.qmgQCqTail q) 16 16
  if i < s.ringSize q then (i, ph) else (i - s.ringSize q, 1 - ph)

/-- A new entry is in the ring: the tail moves on and the entry counts until it is released (R57, R65). -/
def State.advanceCq (s : State) (q : Nat) : State :=
  let (i, ph) := s.cqAhead q 1
  (s.wr (.qmgQCqTail q) (BitVec.ofNat 64 (i + ph * 65536))).setQueueX q (fun x => { x with used := x.used + 1 })

/-- Write an entry at its ring position and count its interrupt (R16, R67). -/
def State.putEntry (s : State) (q : Nat) (h : Held) : State :=
  let s := s.postWrite (q / 64) (s.bit (.qmgQCtrl q) 2) (s.cqAddr q h.idx) h.entry
  let s := if h.fresh then s.advanceCq q else s
  if h.int then s.countInt q else s

/-- An entry's line that fails its code when the queue manager reads it is counted (R371). -/
def State.cqUe (s : State) (q : Nat) (ue : Bool) (idx : Nat) : State :=
  if ue && s.bit (.qmgQCtrl q) 2 && s.ddrReady then s.ddrUe (s.ddrAddr (q / 64) (s.cqAddr q idx)) else s

/-- Write entries in order; the first that cannot be written puts the queue in ERROR and is held, with those behind it (R74, R75).
`ue` lists the ring positions whose line cannot be read. -/
def State.putEntries (s : State) (q : Nat) (ue : List Nat) : List Held → State
  | [] => s
  | h :: l =>
    let bad := decide (h.idx ∈ ue)
    match s.cqWritable q h.idx bad with
    | some code => ((s.cqUe q bad h.idx).setQueueX q (fun x => { x with held := h :: l ++ x.held })).queueError q code 2 h.idx
    | none => (s.putEntry q h).putEntries q ue l

/-- The 32 B completion entry (Table 02-7). -/
def cqEntry (tag : Bytes) (status phase : Nat) (retried stretched : Bool) (head outLen detail now : Nat) : Bytes :=
  tag ++ leBytes 1 status ++ leBytes 1 (phase + (if retried then 2 else 0) + (if stretched then 4 else 0))
    ++ leBytes 2 head ++ leBytes 4 outLen ++ leBytes 4 detail ++ leBytes 8 now ++ zeros 8

/-- A quiescing slice with nothing in flight, and no fetch that had begun, becomes QUIESCED and its pending counts are sent (R68, R76,
R80). -/
def State.quiesced (s : State) (n : Nat) : State :=
  if s.sliceState n = 2 ∧ s.sliceInflight n = 0 ∧ s.fetchDue.all (fun q => q / 64 ≠ n) then
    (s.setFld (.slmSliceStat n) 2 0 3).each (below 64 (fun i => decide (0 < (s.queueX (64 * n + i)).pendInt)))
      (fun s i => s.sendQueue (64 * n + i))
  else s

/-- A draining queue with nothing in flight becomes DISABLED (R56). -/
def State.drained (s : State) (q : Nat) : State :=
  if s.queueState q = 3 ∧ s.queueInflight q = 0 then s.setQueueState q 0 else s

/-- A job leaves: INFLIGHT falls, and a draining queue or a quiescing slice may be done. -/
def State.dropJob (s : State) (j : Job) : State :=
  let s := { s with jobs := s.jobs.filter (fun x => x.id ≠ j.id) }
  let s := s.setFld (.qmgQInflight j.queue) 10 0 (s.queueInflight j.queue)
  let s := s.setFld (.slmSliceStat j.slice) 26 16 (s.sliceInflight j.slice)
  (s.drained j.queue).quiesced j.slice

/-- The entry of a queue's completion number `k` in its shadow in LPDDR5X (Table 11-2): DESIGN CHOICE (log 81), entry k mod 1,024. -/
def shadowAddr (q k : Nat) : Nat := 0x40000000 + 0x8000 * q + 32 * (k % 1024)

/-- An issued entry goes into the queue's shadow (R31). -/
def State.putShadow (s : State) (q : Nat) (entry : Bytes) : State :=
  s.onlyIf s.ddrReady (fun s => { s with ddr := Memory.write (shadowAddr q (s.rd (.qmgQCompleted q)).toNat) entry s.ddr })

/-- Issue a completion entry for a job that has ended (R16, R63, R74): held behind a failed write, or written. -/
def State.issue (s : State) (j : Job) (r : Result) (cqUe : Bool) : State :=
  let q := j.queue
  let (idx, ph) := s.cqAhead q (s.queueX q).freshHeld
  let outLen := if r.status = 0 ∨ (r.status = 0x21 ∧ dClass j.desc = 9) then r.out.length else 0
  let entry := cqEntry (dTag j.desc) r.status ph j.retried j.stretched (s.fld (.qmgQSqHead q) 15 0) outLen r.detail s.now
  -- an entry that carries a commit keeps the job's journal record until it is written (R357)
  let h : Held := ⟨idx, entry, changesSlot j.desc && decide (r.status = 0 ∧ r.commit ≠ .none), dFlag j.desc 0, true⟩
  let s := s.putShadow q entry
  let s := (s.bump64 (.qmgQCompleted q)).setQueueX q (fun x => { x with shadow := ((s.now, idx, entry) :: x.shadow).take 1024 })
  let s := if !(s.queueX q).held.isEmpty then s.setQueueX q (fun x => { x with held := x.held ++ [h] })
    else s.putEntries q (if cqUe then [idx] else []) [h]
  s.dropJob j

/-- The first and the last line of an output are written in part (R41): a partial line is read and rewritten. -/
def partialLines (addr len : Nat) : Bool × Bool :=
  let head := decide (addr % 64 ≠ 0)
  let tail := decide ((addr + len) % 64 ≠ 0)
  let one := decide (addr / 64 = (addr + len - 1) / 64)
  (head || (one && tail), tail || (one && head))

/-- The offset of the line at which an output into LPDDR5X stops because it cannot be read (R41, R72), if there is one. -/
def outStop (addr len : Nat) (ue : LineUe) : Option Nat :=
  match ue with
  | .none | .corrected => none
  | .first => if (partialLines addr len).1 then some (addr / 64 * 64) else none
  | .last => if (partialLines addr len).2 then some ((addr + len - 1) / 64 * 64) else none

/-- DETAIL of a hybrid job that is not DONE (R19, R91): the halves that have not ended DONE, bit 0 the classical one (log 60). -/
def Job.halvesFailed (j : Job) : Nat :=
  let failed (h : Half) : Bool := !(decide (h.phase = .sealed) && (h.result.map (·.status == 0)).getD false)
  (if failed j.classical then 1 else 0) + (if failed j.pq then 2 else 0)

/-- A job of a pool completes: the pool's count, and its group's or partition's (R173, R246, R270). -/
def State.countDone (s : State) (p : Nat) : State :=
  let s := s.bump64 (.fabPoolDone p)
  let s := match s.groupOf p with
    | some g => s.bump64 (.bneGrpDone g)
    | none => s
  match s.partOf p with
  | some x => s.bump64 (.hsfPartDone x)
  | none => s

/-- The completion of a job that has ended: output first, then the slot commit with the entry (R16, R30, R72). -/
def State.finish (s : State) (j : Job) (r : Result) (outUe : LineUe) (cqUe : Bool) : State :=
  let n := j.slice
  let ddr := dFlag j.desc 3
  let addr := dOutAddr j.desc
  let writes := decide (r.status = 0 ∨ (r.status = 0x21 ∧ dClass j.desc = 9)) && !r.out.isEmpty
  let stop := outStop addr r.out.length outUe
  let outFails := writes && (if ddr then stop.isSome && s.ddrReady else s.hostFault n)
  let parts := partialLines addr r.out.length
  let s := s.onlyIf (writes && ddr && s.ddrReady && outUe = .corrected && (parts.1 || parts.2)) (·.bump .ddrCeCount)
  -- a fault of the list itself reads WHERE 3 (R72)
  let gl := (r.status = 0x19 ∧ r.detail = 16 ∧ dSgl j.desc ≠ 0) ∨ (r.status = 0x13 ∧ r.detail = 16) ∨ (r.status = 0x13 ∧ 0x80000000 ≤ r.detail)
  let done := decide (r.status = 0)
  let (r, s) :=
    if outFails then
      ((.fail 0x19 (if dClass j.desc = 0x10 then j.halvesFailed else 32) : Result), if ddr then
        (s.ddrUe (s.ddrAddr n (stop.getD 0))).postWrite n true addr (r.out.take (stop.getD 0 - addr)) else s)
    else
      let s := if writes then s.postWrite n ddr addr r.out s.pcie.relaxed else s
      -- a stateful blob that has stopped matching its cell meanwhile completes STATE_LOST (R231)
      let stale := dOp j.desc = 0x0D04 ∧ r.status = 0 ∧ isBlob j.desc ∧ getB (BitVec.ofNat 64 (leAt j.main 8 8)) 4 ∧ !s.blobLive j.main
      let (r, s) := if stale then (.fail 0x1B 0, s) else s.commitSlot j r
      (if dClass j.desc = 0x10 ∧ r.status ≠ 0 then { r with detail := j.halvesFailed } else r, s)
  -- a KEYGEN that was to be DONE and is not gives its cell back
  let s := if done && r.status != 0 then s.dropCell j else s
  -- a stateful key brought in by a blob: its cell's NEXT is lost, its capacity follows from its structure (R229, R317)
  let s := match dOp j.desc, r.status, r.commit with
    | 0x0D04, 0, .fill _ attr mat =>
      if getB attr 4 then
        let c := s.cell (attrCell attr)
        s.setCell (attrCell attr) { c with next := none, state := .used, traversal := none
                                           cap := (capacityOf (attrClass attr) (attrSet attr) (leAt mat 0 4) (slice mat 4 32)).getD 0 }
      else s
    | _, _, _ => s
  -- DESTROY_AFTER: any status but DONE takes the mark away (R101), from a word that agrees with its inverse (R302)
  let s := if pDestroyAfter (dParam j.desc) && r.status != 0 then
      (match j.slot with
        | some a =>
          let s := s.dueSlots [a]
          if s.holdsKey j && !s.slotBad a then s.putAttr a (setB (s.slotAt a).attr 1 false) else s
        | none => s)
    else s
  let s := if r.status = 0x40 then s.bump (.slmSliceCancelCnt n) else s
  let s := s.each (j.pool.toList ++ j.classical.pool.toList ++ j.pq.pool.toList) State.countDone
  let s := s.each j.shells (fun s sh => s.bump64 (.fabIslJobs (s.fld (.fabShellMap sh) 14 12)))
  -- the seal buffer that holds the job's output is wiped (R193)
  let s := s.each (below 96 (fun t => decide ((s.tile t).sealOf = some j.id))) (fun s t => s.setTile t (fun x => { x with sealBuf := [], sealOf := none }))
  let err := decide (r.status = 0x13) || decide (r.status = 0x19)
  let s := if err then s.queueError j.queue r.status (if gl then 3 else 0) j.index else s
  s.issue j r cqUe

/-- A job that has ended completes; a DESTROY that is to free its cell waits for the acknowledgement of that write (R231). -/
def State.complete (s : State) (j : Job) (r : Result) (outUe : LineUe) (cqUe : Bool) : State :=
  match s.mustFree r with
  | some a => s.freeFirst a
  | none => s.finish j r outUe cqUe

/-! ### Retries, cancels, aborts -/

/-- The core a job computes on. -/
def Job.core (j : Job) : Option Nat :=
  (j.unit.toList ++ j.classical.unit.toList).findSome? (fun u => match u with
    | .bne c _ => some c
    | _ => none)

/-- The cycles of an execution on a BNE core that is not sealed (R269): as many as its catch points fix, with the wipe of the
compatibility mode (R252), or a free value. -/
def State.lostCycles (s : State) (j : Job) : State := match j.core with
  | some c => s.addCycles (.bneCoreBusy c)
  | none => s
def State.caughtCycles (s : State) (j : Job) : State := match j.core with
  | some c => s.moreCycles (.bneCoreBusy c) (32768 * j.catches + (if s.bit (.slmSliceCtrl j.slice) 4 then 2048 else 0))
  | none => s

/-- A job ends ABORTED_FAULT (R35, R37). -/
def State.abort (s : State) (j : Nat) : State := (s.endJob j (.fail 0x41 0)).bump .genAbortCnt

/-- A job waits for the step 7 of a live re-rig that has committed (R292 step 4, R293). -/
def State.reRigHolds (s : State) (j : Job) : Bool :=
  match s.reRig with
  | some r => r.committed && s.bit (.slmSlicePools j.slice) r.pool
      && (s.poolRec r.pool).any (fun p => decide (p.kind ∈ opKinds (dOp j.desc)))
  | none => false

/-- The kinds of pool in which a job, or a half or the join of a hybrid job, still has to find a unit. -/
def Job.needs (j : Job) : List Nat :=
  if j.phase = .sealed then []
  else if dClass j.desc = 0x10 then
    (if j.pq.phase = .waiting then [1] else []) ++ (if j.classical.phase = .waiting then [2] else []) ++ (if j.result.isNone then [3] else [])
  else if j.phase = .waiting then opKinds (dOp j.desc) else []

/-- A hybrid job of which nothing has started is one job still; after that its halves end apart (R19). -/
def Job.parted (j : Job) : Bool := dClass j.desc == 0x10 && (decide (j.phase ≠ .waiting) || j.ahead)

/-- The status with which a job, or a part of it, ends because no pool of a kind is left for it (R71, R153, R293): OPCODE_UNSUPPORTED
where it has not started or the mask permits none, ABORTED_FAULT where it awaits re-execution and no permitted pool carries it. -/
def State.lostPool (s : State) (j : Job) (k : Nat) : Option Nat :=
  if !(s.poolsFor j.slice k (dOp j.desc) (kernelSet j.desc)).isEmpty then none
  else match j.lastPool k with
    | none => some 0x18
    | some p =>
      some (if s.bit (.slmSlicePools j.slice) p || !(s.permitted j.slice k (dOp j.desc) (kernelSet j.desc)).isEmpty then 0x41 else 0x18)

/-- A job, or the half of a hybrid job that needs a unit of kind `k`, ends with a status before it has a unit. -/
def State.endPart (s : State) (j : Job) (k : Nat) (status : Nat) : State :=
  if j.parted && k != 3 then s.endHalf j.id (k == 1) (.fail status 0)
  else if status = 0x41 then s.abort j.id
  else s.endJob j.id (if status = 0x18 ∧ !j.ahead then (s.bodyFail j.slice j.desc false).getD (.fail 0x18 0) else .fail status 0)

/-- Jobs, and parts of hybrid jobs, that no permitted pool carries any more (R71, R153). -/
def State.dropUncarried (s : State) : State :=
  s.each (s.jobs.filter (fun j => !s.reRigHolds j)) (fun s j =>
    s.each j.needs (fun s k => match s.lostPool j k with
      | some status => s.endPart j k status
      | none => s))

/-- A unit is to be retired once it is idle. -/
def State.leaving (s : State) : Bool :=
  s.bcores.any (fun e => e.2.leaving) || s.hcores.any (fun e => e.2.leaving) || s.tiles.any (fun e => e.2.back == 4)

/-- Jobs leave their units in `f`: a pool whose last unit retires with that is EMPTY, and its waiting jobs end (R153). -/
def State.departing (s : State) (f : State → State) : State := (f s).onlyIf s.leaving State.dropUncarried

/-- A job ends with a result. -/
def State.jobEnds (s : State) (j : Nat) (r : Result) : State := s.departing (·.endJob j r)

/-- A half that is not sealed goes back to wait for a unit of its pool (R34). -/
def Half.again (h : Half) : Half := if h.phase = .sealed then h else ⟨.waiting, none, h.pool, none⟩

/-- A job goes back to wait for a unit of its pool, ahead of newer work (R34). -/
def Job.again (j : Job) : Job :=
  { j with phase := .waiting, unit := none, gang := [], ahead := true, retried := true, suspect := false, yielded := false, catches := 0,
           ctrWait := false, main := [], in2 := [], in3 := [], ctx := [], result := none, drawWait := false, pqWait := false, drawn := [], prGranted := false,
           classical := j.classical.again, pq := j.pq.again }

/-- Re-execute a job that is not sealed; `counts` for a machine check or an error, of which the third ends it (R34, R35). -/
def State.retry (s : State) (j : Nat) (counts : Bool) : State :=
  match s.job? j with
  | none => s
  | some x =>
    if x.phase = .sealed ∨ x.phase = .waiting then s
    else if counts && decide (2 ≤ x.failures) then s.departing (·.abort j)
    else
      let gone := s.leaving
      let s := ((((s.lostCycles x).freeShells x).dropDemand x).dropLoad x).setJob j (fun y => { y.again with failures := y.failures + (if counts then 1 else 0) })
      let s := s.vacateAll x
      let s := s.bump .genRetryCnt
      (match x.pool with
        | some p => s.bump (.fabPoolRetry p)
        | none => s).onlyIf gone State.dropUncarried

/-- Re-execute one half of a hybrid job; its third failure ends that half alone (R18, R19, R35). -/
def State.retryHalf (s : State) (j : Nat) (pq : Bool) (counts : Bool) : State :=
  match s.job? j with
  | none => s
  | some x =>
    let h := x.half pq
    if x.phase = .sealed ∨ h.phase = .sealed ∨ h.phase = .waiting then s
    else if counts && decide (2 ≤ x.failures) then s.departing (·.endHalf j pq (.fail 0x41 0))
    else
      let gone := s.leaving
      let s := (if pq then s.freeShells x else s.lostCycles x).setJob j (fun y =>
        { y.setHalf pq h.again with retried := true, ahead := true, suspect := false, yielded := pq && y.yielded
                                    drawWait := pq && y.drawWait, pqWait := !pq && y.pqWait, drawn := y.drawn.filter (fun e => e.1 != pq)
                                    prGranted := y.prGranted && pq != x.prHalf
                                    catches := if pq then y.catches else 0, failures := y.failures + (if counts then 1 else 0) })
      let s := s.onlyIf (pq == x.prHalf) (·.dropDemand x)
      let s := (s.each h.unit.toList (fun s u => s.vacated x.slice u)).bump .genRetryCnt
      (match h.pool with
        | some p => s.bump (.fabPoolRetry p)
        | none => s).onlyIf gone State.dropUncarried

/-- Re-execute whatever of a job runs on a unit (R34). -/
def State.retryOn (s : State) (u : JobUnit) (counts : Bool) (j : Job) : State :=
  if j.pq.unit = some u ∧ j.pq.phase ≠ .sealed then s.retryHalf j.id true counts
  else if j.classical.unit = some u ∧ j.classical.phase ≠ .sealed then s.retryHalf j.id false counts
  else s.retry j.id counts

/-- A job that has started: it is on a unit, or one of its halves is (R18). -/
def Job.started (j : Job) : Bool := decide (j.phase ≠ .waiting) || j.ahead

/-- A job is cancelled (R56, R76). -/
def State.cancel (s : State) (j : Nat) : State := s.endJob j (.fail 0x40 0)

/-- A job whose part on the BNE stops is cancelled; of a hybrid job that part ends CANCELLED, and so does the other if it has not
started; a half that awaits its re-execution has (R18, R19, R76, R80). -/
def State.cancelBne (s : State) (x : Job) : State :=
  let s := s.caughtCycles x
  if dClass x.desc = 0x10 then
    let s := s.endHalf x.id false (.fail 0x40 0)
    if x.pq.phase = .waiting ∧ x.pq.pool.isNone then s.endHalf x.id true (.fail 0x40 0) else s
  else s.cancel x.id

/-- Cancel every job of a list that has not started, and every yielded job of it if `yields`. -/
def State.cancelWaiting (s : State) (p : Job → Bool) (yields : Bool) : State :=
  s.each (s.jobs.filter (fun j => p j && decide (j.phase ≠ .sealed) && (!j.started || (yields && j.yielded))))
    (fun s j => if j.started then s.cancelBne j else s.cancel j.id)

/-- End every job in flight that is not sealed with a status (R37). -/
def State.endAll (s : State) (status : Nat) (count : Bool) : State :=
  s.each (s.jobs.filter (fun j => decide (j.phase ≠ .sealed))) (fun s j =>
    (s.endJob j.id (.fail status 0)).onlyIf count (·.bump .genAbortCnt))

end Sys2Proof.Machine
end

