-- ==== Sys2Proof/Machine/Poly.lean ====
section
/-! DEFINITION. Polynomials of 256 coefficients as lists of naturals: modular arithmetic, the number-theoretic transforms, sampling,
rounding and packing. The tile's instructions (R190) and the lattice operations (R97 to R105, R147) share them; the formulas are
those of FIPS 203 and FIPS 204 (PRESUMED, log 14). -/

namespace Sys2Proof.Machine

/-! ### Modular arithmetic -/

/-- Modular sum (R182). -/
def addM (q x y : Nat) : Nat := (x + y) % q

/-- Modular difference. -/
def subM (q x y : Nat) : Nat := (((x : Int) - y) % q).toNat

/-- Two lists element by element. -/
def zip2 (f : Nat → Nat → Nat) (l m : List Nat) : List Nat := List.zipWith f l m

/-- A signed number as a canonical residue. -/
def residue (q : Nat) (i : Int) : Nat := (i % q).toNat

/-- Residue of `x` modulo `m` in (-m/2, m/2]. -/
def centred (m : Nat) (x : Nat) : Int := if x % m ≤ m / 2 then (x % m : Nat) else ((x % m : Nat) : Int) - m

/-- The zero polynomial. -/
def zeroPoly : List Nat := List.replicate 256 0

/-- Modulus of ML-KEM. -/
def kemQ : Nat := 3329

/-- Modulus of ML-DSA. -/
def dsaQ : Nat := 8380417

/-! ### Number-theoretic transforms -/

/-- `n` low bits of `x` reversed. -/
def bitRev : Nat → Nat → Nat
  | 0, _ => 0
  | n + 1, x => x % 2 * 2 ^ n + bitRev n (x / 2)

/-- One layer of butterflies over blocks of `2 * len`: forward (a + zb, a - zb), or inverse (a + b, z(b - a)). -/
def nttLayer (inv : Bool) (q len : Nat) (zeta : Nat → Nat) : Nat → Nat → List Nat → List Nat
  | 0, _, l => l
  | blocks + 1, i, l =>
    let a := l.take len
    let b := (l.drop len).take len
    let z := zeta i
    let (x, y) := if inv then (zip2 (addM q) a b, (zip2 (subM q) b a).map (fun c => c * z % q))
      else (zip2 (fun u v => addM q u (v * z % q)) a b, zip2 (fun u v => subM q u (v * z % q)) a b)
    x ++ y ++ nttLayer inv q len zeta blocks (i + 1) (l.drop (2 * len))

/-- Layers of the transform of a modulus, with the root and the bits of its index, or none for another modulus. -/
def nttShape (q : Nat) : Option (Nat × Nat × Nat) := if q = kemQ then some (7, 17, 7) else if q = dsaQ then some (8, 1753, 8) else none

/-- Layer `k` of the forward transform: `2 ^ k` blocks. -/
def nttStep (q root bits k : Nat) (l : List Nat) : List Nat :=
  nttLayer false q (128 / 2 ^ k) (fun i => powMod root (bitRev bits (2 ^ k + i)) q) (2 ^ k) 0 l

/-- Layer `k` of the inverse transform, which undoes layer `k` of the forward one up to a factor 2. -/
def inttStep (q root bits k : Nat) (l : List Nat) : List Nat :=
  nttLayer true q (128 / 2 ^ k) (fun i => powMod root (bitRev bits (2 ^ (k + 1) - 1 - i)) q) (2 ^ k) 0 l

/-- Forward layers `lo` to `lo + n - 1`. -/
def nttRange (q root bits lo n : Nat) (l : List Nat) : List Nat :=
  (List.range n).foldl (fun l k => nttStep q root bits (lo + k) l) l

/-- Inverse layers `lo + n - 1` down to `lo`, unscaled. -/
def inttRange (q root bits lo n : Nat) (l : List Nat) : List Nat :=
  (List.range n).foldl (fun l k => inttStep q root bits (lo + (n - 1 - k)) l) l

/-- Every coefficient times `c`. -/
def scaleP (q c : Nat) (l : List Nat) : List Nat := l.map (fun x => x * c % q)

/-- The whole transform of a modulus that has one. -/
def ntt (q : Nat) (l : List Nat) : List Nat := match nttShape q with
  | some (n, root, bits) => nttRange q root bits 0 n l
  | none => l

/-- The whole inverse transform, scaled. -/
def intt (q : Nat) (l : List Nat) : List Nat := match nttShape q with
  | some (n, root, bits) => scaleP q (powMod (2 ^ n) (q - 2) q) (inttRange q root bits 0 n l)
  | none => l

/-- Products of transformed ML-KEM polynomials, pair by pair from pair `i` on. -/
def pairMul : Nat → List Nat → List Nat → List Nat
  | i, a0 :: a1 :: a, b0 :: b1 :: b =>
    let g := powMod 17 (2 * bitRev 7 i + 1) kemQ
    (a0 * b0 + a1 * b1 % kemQ * g) % kemQ :: (a0 * b1 + a1 * b0) % kemQ :: pairMul (i + 1) a b
  | _, _, _ => []

/-- The product of two transformed polynomials. -/
def mulHat (q : Nat) (a b : List Nat) : List Nat := if q = kemQ then pairMul 0 a b else zip2 (fun x y => x * y % q) a b

/-- Sum of two polynomials. -/
def addP (q : Nat) : List Nat → List Nat → List Nat := zip2 (addM q)

/-- Difference of two polynomials. -/
def subP (q : Nat) : List Nat → List Nat → List Nat := zip2 (subM q)

/-! ### Work dealt out across a shell (R147) -/

/-- The work units that tile `t` of `s` takes: every `s`-th one, in a fixed order (DESIGN CHOICE, log 65). -/
def dealt {α : Type} (s t : Nat) (units : List α) : List α :=
  (units.zipIdx.filter (fun e => e.2 % s = t)).map (·.1)

/-- A work unit of each of a list, dealt to the tiles of a shell of `s`: each tile runs its own, and the stroke tile takes the results in
the order of the units. -/
def dealMap {α β : Type} (s : Nat) (f : α → β) (units : List α) : List β :=
  let done := (List.range s).flatMap (fun t => (dealt s t units.zipIdx).map (fun u => (f u.1, u.2)))
  (List.range units.length).filterMap (fun i => (done.find? (fun r => r.2 == i)).map (·.1))

/-- The pointwise products of one row with a vector, dealt to the tiles of a shell of `s`; the stroke tile adds the partial
sums in the order of the positions. -/
def dot (q s : Nat) (row vec : List (List Nat)) : List Nat :=
  let units := List.zipWith (fun a b => (a, b)) row vec
  ((List.range s).map (fun t => (dealt s t units).foldl (fun r u => addP q r (mulHat q u.1 u.2)) zeroPoly)).foldl (addP q) zeroPoly

/-- A matrix of transformed polynomials times a transformed vector. -/
def matVec (q s : Nat) (m : List (List (List Nat))) (vec : List (List Nat)) : List (List Nat) := m.map (fun row => dot q s row vec)

/-! ### Samplers -/

/-- Bit `i` of a byte string. -/
def bitAt (bs : Bytes) (i : Nat) : Nat := ((bs[i / 8]?).getD 0).toNat / 2 ^ (i % 8) % 2

/-- Centred binomial coefficient `i` with parameter `eta` (FIPS 203). -/
def cbdAt (q eta : Nat) (bs : Bytes) (i : Nat) : Nat :=
  let s (o : Nat) : Nat := ((List.range eta).map (fun j => bitAt bs (2 * eta * i + o + j))).sum
  subM q (s 0) (s eta)

/-- A sponge of rate `r` that has absorbed its padded input and stands at its first block of output. -/
def xofStart (r : Nat) (bs : Bytes) : List DWord :=
  let m := keccakPad r 0x1F bs
  keccakAbsorb r (m.length / r) keccakZero m

/-- Groups of `n` bytes. -/
def groups (n : Nat) : Nat → Bytes → List Bytes
  | 0, _ => []
  | k + 1, bs => bs.take n :: groups n k (bs.drop n)

/-- Blocks of output a rejection sampler reads at most; what is missing then is 0 (the standards set no bound; log 65). -/
def rejBlocks : Nat := 256

/-- `want` accepted candidates of a sponge's output, `step` bytes of which give the candidates `cand`. -/
def rejFrom (r step : Nat) (cand : Bytes → List Nat) : Nat → Nat → List DWord → List Nat
  | 0, want, _ => List.replicate want 0
  | fuel + 1, want, a =>
    if want = 0 then []
    else
      let l := ((groups step (r / step) (keccakBytes a)).flatMap cand).take want
      l ++ rejFrom r step cand fuel (want - l.length) (keccakF a)

/-- Candidates of 12 bits below `q`, two from three bytes (FIPS 203 SampleNTT). -/
def cand12 (q : Nat) (bs : Bytes) : List Nat := [leAt bs 0 2 % 4096, leAt bs 1 2 / 16].filter (fun c => decide (c < q))

/-- A candidate of 23 bits below `q` from three bytes (FIPS 204 RejNTTPoly). -/
def cand23 (q : Nat) (bs : Bytes) : List Nat := [leAt bs 0 3 % 2 ^ 23].filter (fun c => decide (c < q))

/-- Candidates from the half-bytes of a byte, low half first (FIPS 204 CoeffFromHalfByte). -/
def candEta (q eta : Nat) (bs : Bytes) : List Nat :=
  let half (h : Nat) : List Nat := match eta with
    | 2 => if h < 15 then [subM q 2 (h % 5)] else []
    | 4 => if h < 9 then [subM q 4 h] else []
    | _ => []
  half (leAt bs 0 1 % 16) ++ half (leAt bs 0 1 / 16)

/-! ### Rounding -/

/-- Compress_d (FIPS 203). -/
def compress (q d x : Nat) : Nat := (2 * 2 ^ d * (x % q) + q) / (2 * q) % 2 ^ d

/-- Decompress_d (FIPS 203). -/
def decompress (q d y : Nat) : Nat := (2 * q * (y % 2 ^ d) + 2 ^ d) / 2 ^ (d + 1) % q

/-- Decompose (FIPS 204): (r1, r0). -/
def decompose (q g x : Nat) : Nat × Int :=
  let r := x % q
  let r0 := centred (2 * g) r
  if (r : Int) - r0 = q - 1 then (0, r0 - 1) else (((r - r0) / (2 * g)).toNat, r0)

/-- Power2Round with d = 13 (FIPS 204): (t1, t0). -/
def power2Round (q x : Nat) : Nat × Int :=
  let r := x % q
  ((((r : Int) - centred 8192 r) / 8192).toNat, centred 8192 r)

/-- MakeHint (FIPS 204). -/
def makeHint (q g z r : Nat) : Nat := if (decompose q g r).1 ≠ (decompose q g (r + z)).1 then 1 else 0

/-- UseHint (FIPS 204). -/
def useHint (q g h r : Nat) : Nat :=
  let m := (q - 1) / (2 * g)
  let (r1, r0) := decompose q g r
  if h = 0 then r1 else if 0 < r0 then (r1 + 1) % m else (r1 + m - 1) % m

/-- Some centred coefficient reaches the bound. -/
def normReaches (q bound : Nat) (l : List Nat) : Bool := l.any (fun x => decide (bound ≤ (centred q x).natAbs))

/-! ### Packing -/

/-- The number in a run of fields of `b` bits, field 0 lowest. -/
def joinBits (b : Nat) (l : List Nat) : Nat := l.foldr (fun x r => x % 2 ^ b + 2 ^ b * r) 0

/-- `n` fields of `b` bits. -/
def splitBits (b : Nat) : Nat → Nat → List Nat
  | 0, _ => []
  | n + 1, x => x % 2 ^ b :: splitBits b n (x / 2 ^ b)

/-- A polynomial packed at `b` bits a coefficient. -/
def packP (b : Nat) (l : List Nat) : Bytes := leBytes (32 * b) (joinBits b l)

/-- A polynomial unpacked from `b` bits a coefficient. -/
def unpackP (b : Nat) (bs : Bytes) : List Nat := splitBits b 256 (leNat (bs.take (32 * b)))

/-- Polynomials packed one after another. -/
def packVec (b : Nat) (v : List (List Nat)) : Bytes := v.flatMap (packP b)

/-- `n` polynomials unpacked one after another. -/
def unpackVec (b n : Nat) (bs : Bytes) : List (List Nat) := (groups (32 * b) n bs).map (unpackP b)

/-- Coefficients as `top` minus themselves: the form in which FIPS 204 packs signed values. -/
def flipP (q top : Nat) (l : List Nat) : List Nat := l.map (subM q top)

end Sys2Proof.Machine
end

