-- ==== Sys2Proof/Machine/Dsa.lean ====
section
/-! DEFINITION. ML-DSA as FIPS 204 defines it (R102 to R105): keys, one signing attempt, the attempts of a shell in its MODE
(R146 to R149), and verification. The text of the standard is PRESUMED (log 14). -/

namespace Sys2Proof.Machine

/-- The parameters of a set: rows k, columns l, η, τ, bytes of the challenge hash, bits of γ1, the divisor of q - 1 in γ2, ω. -/
structure DsaPar where
  k : Nat
  l : Nat
  eta : Nat
  tau : Nat
  hash : Nat
  bits : Nat
  den : Nat
  omega : Nat

/-- ML-DSA-44, ML-DSA-65 and ML-DSA-87. -/
def dsaPar (set : Nat) : DsaPar := match set with
  | 1 => ⟨4, 4, 2, 39, 32, 17, 88, 80⟩
  | 2 => ⟨6, 5, 4, 49, 48, 19, 32, 55⟩
  | _ => ⟨8, 7, 2, 60, 64, 19, 32, 75⟩

/-- γ1. -/
def DsaPar.gamma1 (p : DsaPar) : Nat := 2 ^ p.bits

/-- γ2. -/
def DsaPar.gamma2 (p : DsaPar) : Nat := (dsaQ - 1) / p.den

/-- β. -/
def DsaPar.beta (p : DsaPar) : Nat := p.tau * p.eta

/-- Bits of a packed coefficient of s1 and s2. -/
def DsaPar.etaBits (p : DsaPar) : Nat := if p.eta = 2 then 3 else 4

/-! ### Keys -/

/-- The matrix Â: entry (r, c) is sampled from ρ with the bytes c and r after it. -/
def dsaMatrix (p : DsaPar) (s : Nat) (rho : Bytes) : List (List (List Nat)) :=
  (List.range p.k).map (fun r => dealMap s (fun c =>
    rejFrom 168 3 (cand23 dsaQ) rejBlocks 256 (xofStart 168 (rho ++ [BitVec.ofNat 8 c, BitVec.ofNat 8 r]))) (List.range p.l))

/-- The short vectors s1 and s2 of a seed, as one list. -/
def dsaShort (p : DsaPar) (s : Nat) (seed : Bytes) : List (List Nat) :=
  dealMap s (fun i => rejFrom 136 1 (candEta dsaQ p.eta) rejBlocks 256 (xofStart 136 (seed ++ leBytes 2 i))) (List.range (p.l + p.k))

/-- A secret key taken apart. -/
structure DsaKey where
  rho : Bytes
  k : Bytes
  tr : Bytes
  s1 : List (List Nat)
  s2 : List (List Nat)
  t0 : List (List Nat)

/-- t = A s1 + s2. -/
def dsaT (p : DsaPar) (s : Nat) (rho : Bytes) (s1 s2 : List (List Nat)) : List (List Nat) :=
  List.zipWith (addP dsaQ) (dealMap s (intt dsaQ) (matVec dsaQ s (dsaMatrix p s rho) (dealMap s (ntt dsaQ) s1))) s2

/-- The public key ρ ‖ t1 of ρ, s1 and s2. -/
def dsaPubOf (p : DsaPar) (s : Nat) (rho : Bytes) (s1 s2 : List (List Nat)) : Bytes :=
  rho ++ packVec 10 ((dsaT p s rho s1 s2).map (·.map (fun x => (power2Round dsaQ x).1)))

/-- The key of a seed ξ. -/
def dsaFromSeed (p : DsaPar) (s : Nat) (xi : Bytes) : DsaKey :=
  let h := shake 64 (xi ++ [BitVec.ofNat 8 p.k, BitVec.ofNat 8 p.l]) 128
  let rho := h.take 32
  let v := dsaShort p s (slice h 32 64)
  let s1 := v.take p.l
  let s2 := v.drop p.l
  ⟨rho, h.drop 96, shake 64 (dsaPubOf p s rho s1 s2) 64, s1, s2,
    (dsaT p s rho s1 s2).map (·.map (fun x => residue dsaQ (power2Round dsaQ x).2))⟩

/-- The key of an expanded secret key. -/
def dsaFromSk (p : DsaPar) (sk : Bytes) : DsaKey :=
  let n := 32 * p.etaBits
  let short (o i : Nat) : List (List Nat) := (unpackVec p.etaBits i (sk.drop o)).map (flipP dsaQ p.eta)
  ⟨sk.take 32, slice sk 32 32, slice sk 64 64, short 128 p.l, short (128 + n * p.l) p.k,
    (unpackVec 13 p.k (sk.drop (128 + n * (p.l + p.k)))).map (flipP dsaQ 4096)⟩

/-- The key of a slot's material, which is a seed or an expanded key. -/
def dsaSecret (set s : Nat) (mat : Bytes) : DsaKey :=
  if mat.length = 32 then dsaFromSeed (dsaPar set) s mat else dsaFromSk (dsaPar set) mat

/-- The public key of a slot's material: recomputed from ρ, s1 and s2 (R135). -/
def dsaPublic (set s : Nat) (mat : Bytes) : Bytes :=
  let x := dsaSecret set s mat
  dsaPubOf (dsaPar set) s x.rho x.s1 x.s2

/-! ### One signing attempt -/

/-- SampleInBall: signs from the first eight bytes of the stream, then positions. -/
def ballAux : List Nat → Bytes → Nat → List Nat → List Nat
  | [], _, _, l => l
  | i :: is, bs, sg, l =>
    let r := bs.dropWhile (fun b => decide (i < b.toNat))
    let j := leAt r 0 1
    let old := (l[j]?).getD 0
    ballAux is (r.drop 1) (sg / 2) ((l.set i old).set j (if sg % 2 = 1 then dsaQ - 1 else 1))

/-- The challenge polynomial of a challenge hash; the stream is taken 2 KiB long (log 65). -/
def ballOf (p : DsaPar) (ch : Bytes) : List Nat :=
  let st := shake 64 ch 2048
  ballAux ((List.range p.tau).map (fun k => 256 - p.tau + k)) (st.drop 8) (leNat (st.take 8)) zeroPoly

/-- The mask vector y of ρ″ at the counter κ. -/
def dsaMask (p : DsaPar) (s : Nat) (rho2 : Bytes) (kappa : Nat) : List (List Nat) :=
  dealMap s (fun r =>
    flipP dsaQ p.gamma1 (unpackP (p.bits + 1) (shake 64 (rho2 ++ leBytes 2 (kappa + r)) (32 * (p.bits + 1))))) (List.range p.l)

/-- w1 encoded. -/
def dsaW1 (p : DsaPar) (w1 : List (List Nat)) : Bytes := packVec (if p.den = 88 then 6 else 4) w1

/-- A hint packed: the positions of its ones, then where each polynomial's end. -/
def hintPack (p : DsaPar) (h : List (List Nat)) : Bytes :=
  let pos := h.map (fun l => (l.zipIdx.filter (fun e => e.1 = 1)).map (fun e => BitVec.ofNat 8 e.2))
  padTo p.omega pos.flatten ++ (List.range p.k).map (fun i => BitVec.ofNat 8 ((pos.take (i + 1)).map List.length).sum)

/-- Attempt with the counter κ: the signature, or none where a check fails. It depends on the key, μ, ρ″ and κ alone (R148). -/
def dsaAttempt (p : DsaPar) (s : Nat) (x : DsaKey) (mu rho2 : Bytes) (kappa : Nat) : Option Bytes :=
  let y := dsaMask p s rho2 kappa
  let w := dealMap s (intt dsaQ) (matVec dsaQ s (dsaMatrix p s x.rho) (dealMap s (ntt dsaQ) y))
  let ch := shake 64 (mu ++ dsaW1 p (w.map (·.map (fun r => (decompose dsaQ p.gamma2 r).1)))) p.hash
  let c := ntt dsaQ (ballOf p ch)
  let times (v : List (List Nat)) : List (List Nat) := dealMap s (fun l => intt dsaQ (mulHat dsaQ c (ntt dsaQ l))) v
  let z := List.zipWith (addP dsaQ) y (times x.s1)
  let r := List.zipWith (subP dsaQ) w (times x.s2)
  let ct0 := times x.t0
  let h := List.zipWith (fun a b => zip2 (fun v u => makeHint dsaQ p.gamma2 (dsaQ - v) (addM dsaQ u v)) a b) ct0 r
  if z.any (normReaches dsaQ (p.gamma1 - p.beta)) then none
  else if r.any (·.any (fun v => decide (p.gamma2 - p.beta ≤ (decompose dsaQ p.gamma2 v).2.natAbs))) then none
  else if ct0.any (normReaches dsaQ p.gamma2) then none
  else if decide (p.omega < (h.map List.sum).sum) then none
  else some (ch ++ packVec (p.bits + 1) (z.map (flipP dsaQ p.gamma1)) ++ hintPack p h)

/-! ### Attempts of a shell (R147 to R149) -/

/-- The sequential algorithm: attempts `j` on, one after another. -/
def firstAttempt (attempt : Nat → Option Bytes) : Nat → Nat → Option Bytes
  | 0, _ => none
  | fuel + 1, j => match attempt j with
    | some sig => some sig
    | none => firstAttempt attempt fuel (j + 1)

/-- Round `r` of a LANES shell of `s` tiles: the tile in position t runs attempt r s + t to its end (R148, R149). -/
def laneRound (attempt : Nat → Option Bytes) (s r : Nat) : List (Option Bytes) := (List.range s).map (fun t => attempt (r * s + t))

/-- Rounds from `r` on: the passing attempt of the lowest position ends the job, none passing starts the next round (R149). -/
def laneRounds (attempt : Nat → Option Bytes) (s : Nat) : Nat → Nat → Option Bytes
  | 0, _ => none
  | fuel + 1, r => match (laneRound attempt s r).findSome? id with
    | some sig => some sig
    | none => laneRounds attempt s fuel (r + 1)

/-- Attempts the model follows; the counter κ is two bytes wide (FIPS 204), so that no more can differ (log 65). -/
def attemptLimit : Nat := 65536

/-- The signature of a shell of `s` tiles, in LANES or not. What no attempt within the limit gives is a free value. -/
def dsaSignIn (lanes : Bool) (p : DsaPar) (s : Nat) (x : DsaKey) (mu rho2 : Bytes) : Option Bytes :=
  if lanes then laneRounds (fun j => dsaAttempt p 1 x mu rho2 (p.l * j)) s attemptLimit 0
  else firstAttempt (fun j => dsaAttempt p s x mu rho2 (p.l * j)) attemptLimit 0

/-- SIGN of a framed message with its 32 bytes rnd: μ and ρ″ are computed once (R148). -/
def dsaSign (lanes : Bool) (set s : Nat) (mat msg rnd : Bytes) : Option Bytes :=
  let x := dsaSecret set s mat
  let mu := shake 64 (x.tr ++ msg) 64
  dsaSignIn lanes (dsaPar set) s x mu (shake 64 (x.k ++ rnd ++ mu) 64)

/-! ### Verification -/

/-- Ones of one polynomial of a packed hint: its positions rise strictly. -/
def hintPoly (ps : Bytes) : Option (List Nat) :=
  if (List.zipWith (fun a b => decide (a.toNat < b.toNat)) ps (ps.drop 1)).all id then
    some (ps.foldl (fun l b => l.set b.toNat 1) zeroPoly)
  else none

/-- The polynomials of a packed hint, from end mark `i` on. -/
def hintPolys (ps : Bytes) (omega : Nat) : Nat → Bytes → Option (List (List Nat))
  | i, [] => if allZero ((ps.take omega).drop i) then some [] else none
  | i, e :: es =>
    if e.toNat < i ∨ omega < e.toNat then none
    else match hintPoly (slice ps i (e.toNat - i)), hintPolys ps omega e.toNat es with
      | some l, some ls => some (l :: ls)
      | _, _ => none

/-- Whether a signature is valid for a framed message (R105). -/
def dsaVerify (set s : Nat) (pk msg sig : Bytes) : Bool :=
  let p := dsaPar set
  let n := 32 * (p.bits + 1) * p.l
  let ch := sig.take p.hash
  let z := (unpackVec (p.bits + 1) p.l (sig.drop p.hash)).map (flipP dsaQ p.gamma1)
  let hb := sig.drop (p.hash + n)
  match hintPolys hb p.omega 0 (hb.drop p.omega) with
  | none => false
  | some h =>
    let mu := shake 64 (shake 64 pk 64 ++ msg) 64
    let c := ntt dsaQ (ballOf p ch)
    let t1 := dealMap s (fun l => mulHat dsaQ c (ntt dsaQ (scaleP dsaQ 8192 l))) (unpackVec 10 p.k (pk.drop 32))
    let az := matVec dsaQ s (dsaMatrix p s (pk.take 32)) (dealMap s (ntt dsaQ) z)
    let w := dealMap s (intt dsaQ) (List.zipWith (subP dsaQ) az t1)
    let w1 := List.zipWith (fun a b => zip2 (useHint dsaQ p.gamma2) a b) h w
    !z.any (normReaches dsaQ (p.gamma1 - p.beta)) && shake 64 (mu ++ dsaW1 p w1) p.hash == ch

end Sys2Proof.Machine
end

