-- ==== Sys2Proof/Machine/EcSign.lean ====
section
/-! DEFINITION. The signature schemes of the curves: ECDSA with the nonces of RFC 6979 (R117, R119) and EdDSA of RFC 8032 (R122,
R123). The texts of the standards are PRESUMED (log 14). -/

namespace Sys2Proof.Machine

/-! ### ECDSA -/

/-- Bits of the order n. -/
def Curve.bits (c : Curve) : Nat := c.n.log2 + 1

/-- The leftmost bits of a string, as many as n has (FIPS 186-5, RFC 6979 bits2int). -/
def Curve.leftBits (c : Curve) (bs : Bytes) : Nat := beNat bs / 2 ^ (8 * bs.length - c.bits)

/-- The state (K, V) of the nonce generator after a further step with `data`. -/
def nonceStep (h : Nat) (tag : Byte) (data : Bytes) (kv : Bytes × Bytes) : Bytes × Bytes :=
  let k := hmac h kv.1 (kv.2 ++ tag :: data)
  (k, hmac h k kv.2)

/-- `n` further outputs of the generator, and its last V. -/
def nonceBytes (h : Nat) (k : Bytes) : Nat → Bytes → Bytes × Bytes
  | 0, v => ([], v)
  | n + 1, v =>
    let v := hmac h k v
    let r := nonceBytes h k n v
    (v ++ r.1, r.2)

/-- The generator's start from the private key, the digest and additional data (RFC 6979 3.2 and 3.6). -/
def Curve.nonceStart (c : Curve) (h d : Nat) (dig add : Bytes) : Bytes × Bytes :=
  let n := hashLen h
  let data := beBytes c.len d ++ beBytes c.len (c.leftBits dig % c.n) ++ add
  nonceStep h 1 data (nonceStep h 0 data (zeros n, List.replicate n 1))

/-- The signature with nonce `k`, if k serves. -/
def Curve.signWith (c : Curve) (d z k : Nat) : Option Bytes :=
  if k = 0 ∨ c.n ≤ k then none
  else match c.mul k (some (c.gx, c.gy)) with
    | none => none
    | some (x, _) =>
      let r := x % c.n
      let s := (invMod k c.n).getD 0 * ((z + r * d) % c.n) % c.n
      if r = 0 ∨ s = 0 then none else some (beBytes c.len r ++ beBytes c.len s)

/-- Nonces tried one after another until one serves. -/
def Curve.signAux (c : Curve) (h d z : Nat) : Nat → Bytes × Bytes → Option Bytes
  | 0, _ => none
  | fuel + 1, (k, v) =>
    let (t, v) := nonceBytes h k ((c.len + hashLen h - 1) / hashLen h) v
    match c.signWith d z (c.leftBits t) with
    | some sig => some sig
    | none => c.signAux h d z fuel (nonceStep h 0 [] (k, v))

/-- r ‖ s of a digest: RFC 6979 with the hash `h`, and with `add` as additional data when it is not empty. Nonces beyond the first
256 are not followed (log 65). -/
def Curve.sign (c : Curve) (h d : Nat) (dig add : Bytes) : Option Bytes :=
  c.signAux h d (c.leftBits dig % c.n) 256 (c.nonceStart h d dig add)

/-- r and s of a signature are from 1 to n - 1 (R119). -/
def Curve.rsOk (c : Curve) (sig : Bytes) : Bool :=
  let r := beNat (sig.take c.len)
  let v := beNat (sig.drop c.len)
  decide (0 < r) && decide (r < c.n) && decide (0 < v) && decide (v < c.n)

/-- A signature of a digest is valid under the point `q` (FIPS 186-5). -/
def Curve.verify (c : Curve) (q : Point) (dig sig : Bytes) : Bool :=
  let r := beNat (sig.take c.len)
  let w := (invMod (beNat (sig.drop c.len)) c.n).getD 0
  c.rsOk sig && (match c.add (c.mul (c.leftBits dig * w % c.n) (some (c.gx, c.gy))) (c.mul (r * w % c.n) q) with
    | some (x, _) => x % c.n == r
    | none => false)

/-! ### EdDSA -/

/-- The hash of a scheme, 64 or 114 bytes. -/
def edHash (set : Nat) (bs : Bytes) : Bytes := if set = 3 then hashOf 4 bs else shake 64 bs 114

/-- The domain separator of a variant and context; pure Ed25519 has none. -/
def edDom (set var : Nat) (ctx : Bytes) : Bytes :=
  let flag : Bytes := (if var = 2 then 1 else 0) :: (beBytes 1 ctx.length ++ ctx)
  -- "SigEd25519 no Ed25519 collisions", "SigEd448"
  if set = 3 then
    if var = 0 then [] else beBytes 32 0x53696745643235353139206e6f204564323535313920636f6c6c6973696f6e73 ++ flag
  else beBytes 8 0x5369674564343438 ++ flag

/-- The secret scalar and the prefix of a private key. -/
def edSecret (set : Nat) (key : Bytes) : Nat × Bytes :=
  let h := edHash set key
  if set = 3 then (leNat (h.take 32) % 2 ^ 254 / 8 * 8 + 2 ^ 254, h.drop 32)
  else (leNat (h.take 57) % 2 ^ 447 / 4 * 4 + 2 ^ 447, h.drop 57)

/-- The public key of a private key. -/
def edPub (set : Nat) (key : Bytes) : Bytes := edEncode set (edMul set (edSecret set key).1 (edBase set))

/-- The signature of a message, pre-hashed already in the ph variant. -/
def edSign (set var : Nat) (key ctx msg : Bytes) : Bytes :=
  let (a, pre) := edSecret set key
  let dom := edDom set var ctx
  let r := leNat (edHash set (dom ++ pre ++ msg)) % edL set
  let big := edEncode set (edMul set r (edBase set))
  let k := leNat (edHash set (dom ++ big ++ edPub set key ++ msg)) % edL set
  big ++ leBytes big.length ((r + k * a) % edL set)

/-- Eight times a point. -/
def edEight (set : Nat) (q : Nat × Nat) : Nat × Nat := edMul set 8 q

/-- R and A decode, S is below L, and [8][S]B = [8]R + [8][k]A (R123). -/
def edVerify (set var : Nat) (pk ctx msg sig : Bytes) : Bool :=
  let n := sig.length / 2
  let v := leNat (sig.drop n)
  let k := leNat (edHash set (edDom set var ctx ++ sig.take n ++ pk ++ msg)) % edL set
  match edDecode set pk, edDecode set (sig.take n) with
  | some a, some r =>
    decide (v < edL set)
      && decide (edEight set (edMul set v (edBase set)) = edAdd set (edEight set r) (edEight set (edMul set k a)))
  | _, _ => false

end Sys2Proof.Machine
end

