-- ==== Sys2Proof/Machine/Kem.lean ====
section
/-! DEFINITION. ML-KEM as FIPS 203 defines it (R96 to R101), on byte strings of that standard; `s` is the number of tiles the
work units are dealt to (R147). The text of the standard is PRESUMED (log 14). -/

namespace Sys2Proof.Machine

/-- η1 of a set. -/
def kemEta (set : Nat) : Nat := if set = 1 then 3 else 2

/-- The compression widths (du, dv) of a set. -/
def kemWidths (set : Nat) : Nat × Nat := if set = 3 then (11, 5) else (10, 4)

/-- The matrix Â from its seed: entry (i, j) is sampled from ρ with the bytes j and i after it. -/
def kemMatrix (set s : Nat) (rho : Bytes) : List (List (List Nat)) :=
  (List.range (set + 1)).map (fun i => dealMap s (fun j =>
    rejFrom 168 3 (cand12 kemQ) rejBlocks 256 (xofStart 168 (rho ++ [BitVec.ofNat 8 j, BitVec.ofNat 8 i]))) (List.range (set + 1)))

/-- Â transposed. -/
def columns (m : List (List (List Nat))) : List (List (List Nat)) :=
  (List.range m.length).map (fun i => m.map (fun row => (row[i]?).getD zeroPoly))

/-- `n` small polynomials from a seed and the counters from `c` on. -/
def kemSmall (s eta : Nat) (seed : Bytes) (c n : Nat) : List (List Nat) :=
  dealMap s (fun i =>
    let bs := shake 64 (seed ++ [BitVec.ofNat 8 (c + i)]) (64 * eta)
    (List.range 256).map (cbdAt kemQ eta bs)) (List.range n)

/-- Key generation from d: the encapsulation key and the encoded ŝ. -/
def kemKeys (set s : Nat) (d : Bytes) : Bytes × Bytes :=
  let k := set + 1
  let g := sha3 64 (d ++ [BitVec.ofNat 8 k])
  let rho := g.take 32
  let sv := dealMap s (ntt kemQ) (kemSmall s (kemEta set) (g.drop 32) 0 k)
  let e := dealMap s (ntt kemQ) (kemSmall s (kemEta set) (g.drop 32) k k)
  (packVec 12 (List.zipWith (addP kemQ) (matVec kemQ s (kemMatrix set s rho) sv) e) ++ rho, packVec 12 sv)

/-- The expanded decapsulation key of a seed d ‖ z. -/
def kemExpand (set s : Nat) (seed : Bytes) : Bytes :=
  let (ek, sv) := kemKeys set s (seed.take 32)
  sv ++ ek ++ sha3 32 ek ++ seed.drop 32

/-- The expanded key of a slot's material, which is a seed or the expanded key itself (R99). -/
def kemSecret (set s : Nat) (mat : Bytes) : Bytes := if mat.length = 64 then kemExpand set s mat else mat

/-- The encapsulation key inside an expanded key. -/
def kemEkOf (set : Nat) (dk : Bytes) : Bytes := slice dk (384 * (set + 1)) (mlkemEk set)

/-- The encryption of a 32-byte message under an encapsulation key with randomness `r`. -/
def kemEncrypt (set s : Nat) (ek m r : Bytes) : Bytes :=
  let k := set + 1
  let (du, dv) := kemWidths set
  let t := (unpackVec 12 k ek).map (·.map (· % kemQ))
  let y := dealMap s (ntt kemQ) (kemSmall s (kemEta set) r 0 k)
  let e1 := kemSmall s 2 r k k
  let e2 := (kemSmall s 2 r (2 * k) 1).flatten
  let u := List.zipWith (addP kemQ) (dealMap s (intt kemQ) (matVec kemQ s (columns (kemMatrix set s (ek.drop (384 * k)))) y)) e1
  let v := addP kemQ (addP kemQ (intt kemQ (dot kemQ s t y)) e2) ((unpackP 1 m).map (decompress kemQ 1))
  packVec du (u.map (·.map (compress kemQ du))) ++ packP dv (v.map (compress kemQ dv))

/-- The message a ciphertext decrypts to under the encoded ŝ. -/
def kemDecrypt (set s : Nat) (sv ct : Bytes) : Bytes :=
  let k := set + 1
  let (du, dv) := kemWidths set
  let u := (unpackVec du k ct).map (·.map (decompress kemQ du))
  let v := (unpackP dv (ct.drop (32 * du * k))).map (decompress kemQ dv)
  let w := subP kemQ v (intt kemQ (dot kemQ s (unpackVec 12 k sv) (dealMap s (ntt kemQ) u)))
  packP 1 (w.map (compress kemQ 1))

/-- Ciphertext and shared secret of an encapsulation of `m`. -/
def kemEncaps (set s : Nat) (ek m : Bytes) : Bytes × Bytes :=
  let g := sha3 64 (m ++ sha3 32 ek)
  (kemEncrypt set s ek m (g.drop 32), g.take 32)

/-- The secret of an accepted or a rejected re-encryption (R96): K where the ciphertexts agree, else the implicit-rejection
value of z and the ciphertext. -/
def kemSelect (again ct k z : Bytes) : Bytes := if again = ct then k else shake 64 (z ++ ct) 32

/-- The shared secret of a decapsulation with its re-encryption check. -/
def kemDecaps (set s : Nat) (mat ct : Bytes) : Bytes :=
  let dk := kemSecret set s mat
  let n := 384 * (set + 1) + mlkemEk set
  let g := sha3 64 (kemDecrypt set s dk ct ++ slice dk n 32)
  kemSelect (kemEncrypt set s (kemEkOf set dk) (kemDecrypt set s dk ct) (g.drop 32)) ct (g.take 32) (slice dk (n + 32) 32)

end Sys2Proof.Machine
end

