-- ==== Sys2Proof/Machine/Queues.lean ====
section
/-! DEFINITION. Doorbells, descriptor fetch, dispatch, input gathering, completion entries, queue and slice control
(R43 to R80, R218). -/

namespace Sys2Proof.Machine

/-- The page of a slice answers: the slice is enabled (R21). DESIGN CHOICE (log 62): a slice in RESETTING counts as not enabled, so its
page reads zero and SLM_PG_STATUS never shows 4. -/
def State.pageOpen (s : State) (n : Nat) : Bool := s.sliceState n != 0 && s.sliceState n != 4

/-! ### Doorbells (R48, R50, R51, R65) -/

/-- Submission-tail doorbell of queue index `i` of slice `n`. -/
def State.sqDoorbell (s : State) (n i width : Nat) (v : DWord) : State :=
  let q := 64 * n + i
  if width ≠ 64 ∨ !s.pageOpen n ∨ s.queueState q = 0 then s
  else s.setFld (.qmgQSqTail q) 15 0 (getF v 15 0 % s.ringSize q)

/-- Completion-head doorbell: releases entries before HEAD, limited to the completion tail (R65). DESIGN CHOICE (log 63): with the ring
full, a HEAD equal to the current head releases none. -/
def State.cqDoorbell (s : State) (n i width : Nat) (v : DWord) : State :=
  let q := 64 * n + i
  if width ≠ 64 ∨ !s.pageOpen n ∨ s.queueState q = 0 then s
  else
    let size := s.ringSize q
    let h := s.fld (.qmgQCqHead q) 15 0
    let d := min ((getF v 15 0 % size + size - h) % size) (s.queueX q).used
    (s.setFld (.qmgQCqHead q) 15 0 ((h + d) % size)).setQueueX q (fun x => { x with used := x.used - d })

/-- SQ_DOORBELL. -/
def execSqDoorbell (n i width : Nat) (v : DWord) (s : State) : Answer := .next (s.hostTo (.slmPgSqdb n i) (·.sqDoorbell n i width v))

/-- CQ_DOORBELL. -/
def execCqDoorbell (n i width : Nat) (v : DWord) (s : State) : Answer := .next (s.hostTo (.slmPgCqdb n i) (·.cqDoorbell n i width v))

/-! ### Fetch (R54, R55, R61, R73) -/

/-- The queue manager may fetch from queue `q` now (R54). -/
def State.mayFetch (s : State) (q : Nat) : Bool :=
  let n := q / 64
  s.devState == 1 && s.pcie.dlActive && s.queueState q == 1 && s.sliceState n == 1 && !s.sliceBad n && decide (s.sliceInflight n < 1024)
    && decide (s.jobs.length < 16384) && decide ((s.queueX q).used + (s.queueX q).freshHeld + s.queueInflight q < s.ringSize q)
    && s.fld (.qmgQSqHead q) 15 0 != s.fld (.qmgQSqTail q) 15 0

/-- Queues that are not DISABLED. -/
def State.liveQueues (s : State) : List Nat :=
  (s.regs.filterMap (fun e => match e.1 with
    | .qmgQCtrl q => some q
    | _ => none)).filter (fun q => s.queueState q ≠ 0)

/-- How far a queue is from its turn: its slice after the last one fetched for, its index after the slice's last (R54). -/
def State.fetchRank (s : State) (q : Nat) : Nat :=
  (q / 64 + 511 - s.fetchSlice) % 512 * 64 + (q % 64 + 63 - tget 63 (q / 64) s.fetchQueue) % 64

/-- The queue to fetch from next: round robin across slices, and across a slice's queues (R54). -/
def State.fetchTurn (s : State) : Option Nat :=
  (s.liveQueues.filter s.mayFetch).foldl (fun best q => match best with
    | none => some q
    | some b => if s.fetchRank q < s.fetchRank b then some q else best) none

/-- Queue `q` has had its turn. -/
def State.tookTurn (s : State) (q : Nat) : State := { s with fetchSlice := q / 64, fetchQueue := tset (q / 64) (q % 64) s.fetchQueue }

/-- The elements of a gather list (R59). -/
def gatherElems (n : Nat) (bs : Bytes) : List (Nat × Nat) := (List.range n).map (fun i => (leAt bs (16 * i) 8, leAt bs (16 * i + 8) 4))

/-- The first element with length 0 or non-zero bytes 12 to 15. -/
def badElem (n : Nat) (bs : Bytes) : Option Nat := firstBelow n (fun i => leAt bs (16 * i + 8) 4 == 0 || leAt bs (16 * i + 12) 4 != 0)

/-- The header checks of Table 02-6 up to the read of a gather list. -/
def State.headFail (s : State) (n : Nat) (d : Bytes) : Option Result :=
  let cnt := dSgl d
  if 32 ≤ dFlags d then some (.fail 0x13 2)
  else if !s.opCarried n (dOp d) then some (.fail 0x18 0)
  else if usesKey d && decide (s.keyCount n ≤ dKey d) then some (.fail 0x14 (keyDetail 1 1))
  else if 256 < cnt then some (.fail 0x13 28)
  else if cnt = 0 then
    if s.inWindow n (dFlag d 2) (dInAddr d) (dInLen d) then none else some (.fail 0x19 16)
  else if dInAddr d % 16 ≠ 0 then some (.fail 0x13 16)
  else if !s.inWindow n (dFlag d 2) (dInAddr d) (16 * cnt) then some (.fail 0x19 16)
  else none

/-- The header checks of Table 02-6 in row order: the first failure, or the gather list. -/
def State.headerCheck (s : State) (n : Nat) (d : Bytes) (gl : DmaResult) : Option Result × List (Nat × Nat) :=
  let cnt := dSgl d
  match s.headFail n d with
  | some r => (some r, [])
  | none =>
    if cnt = 0 then (none, [])
    else match s.gatherRead n (dFlag d 2) (dInAddr d) (16 * cnt) gl with
    | .fault _ => (some (.fail 0x19 16), [])
    | .ecc _ => (some (.fail 0x1A 0), [])
    | .corrected => (none, [])
    | .data bs =>
      let es := gatherElems cnt bs
      match badElem cnt bs with
      | some i => (some (.fail 0x13 (0x80000000 + i)), [])
      | none =>
        if (es.map (·.2)).sum ≠ dInLen d then (some (.fail 0x12 (lenDetail 1 (es.map (·.2)).sum)), [])
        else match firstBelow cnt (fun i => match es[i]? with
            | some e => !s.inWindow n (dFlag d 2) e.1 e.2
            | none => false) with
          | some i => (some (.fail 0x19 (0x80000000 + i)), [])
          | none => (none, es)

/-- A job just fetched. -/
def newJob (id n q idx : Nat) (d : Bytes) : Job where
  id := id
  slice := n
  queue := q
  index := idx
  desc := d
  gather := []
  phase := .waiting
  unit := none
  pool := none
  failures := 0
  retried := false
  suspect := false
  ahead := false
  stretched := false
  yielded := false
  catches := 0
  journal := false
  slot := none
  attr := 0
  key := []
  attr2 := 0
  key2 := []
  sigIndex := none
  trav := []
  cellGen := 0
  epoch := none
  fillNo := 0
  memo := []
  ctrWait := false
  prGranted := false
  drawWait := false
  pqWait := false
  drawn := []
  gang := []
  main := []
  in2 := []
  in3 := []
  ctx := []
  result := none
  classical := ⟨.waiting, none, none, none⟩
  pq := ⟨.waiting, none, none, none⟩

/-- The fetch of queue `q` ends: it is no longer due. -/
def State.fetchEnded (s : State) (q : Nat) : State := { s with fetchDue := s.fetchDue.filter (· ≠ q) }

/-- The fetch of queue `q` fails: the queue is in ERROR, and a quiescing slice may be done (R73, R80). -/
def State.fetchFails (s : State) (q code head : Nat) : State := (s.queueError q code 1 head).quiesced (q / 64)

/-- The next descriptor of queue `q` is fetched, with its gather list if it has one; one that arrives while its slice is quiescing is
CANCELLED (R80). -/
def State.takeDescriptor (s : State) (q : Nat) (d gl : DmaResult) : State :=
  let n := q / 64
  let head := s.fld (.qmgQSqHead q) 15 0
  let addr := s.fld (.qmgQSqBase q) 63 12 * 4096 + 128 * head
  let loc := s.bit (.qmgQCtrl q) 1
  match (if s.inWindow n loc addr 128 then s.gatherRead n loc addr 128 d else .fault none) with
    | .fault _ => s.fetchFails q 0x19 head
    | .ecc _ => (s.metUe n loc addr 128 d).fetchFails q 0x1A head
    | .corrected => s
    | .data bs =>
      let s := s.metUe n loc addr 128 d
      let desc := padTo 128 bs
      let id := s.nextJob
      let s := { s with nextJob := id + 1, jobs := s.jobs ++ [newJob id n q head desc] }
      let s := s.setFld (.qmgQSqHead q) 15 0 ((head + 1) % s.ringSize q)
      let s := s.unreport q
      let s := s.setFld (.qmgQInflight q) 10 0 (s.queueInflight q)
      let s := s.setFld (.slmSliceStat n) 26 16 (s.sliceInflight n)
      if s.sliceState n = 2 then s.cancel id
      else
        let met := s.onlyIf (s.headFail n desc).isNone (·.metUe n (dFlag desc 2) (dInAddr desc) (16 * dSgl desc) gl)
        match s.headerCheck n desc gl with
        | (some r, _) => met.endJob id r
        | (none, es) => met.setJob id (fun j => { j with gather := es })

/-- A descriptor of queue `q` arrives: that of the queue whose turn it is (R54), or of a fetch begun before QUIESCE (R80). -/
def State.fetch (s : State) (q : Nat) (d gl : DmaResult) : State :=
  if s.fetchDue.contains q then (s.fetchEnded q).takeDescriptor q d gl
  else if s.fetchTurn = some q then (s.tookTurn q).takeDescriptor q d gl
  else s

/-! ### Dispatch (R62, R70, R71, R157, R158) -/

/-- Jobs, or ML-KEM halves, for which no shell of any permitted pool has mask budget end ENTROPY_FAILED (R158). -/
def State.dropUnmasked (s : State) : State :=
  s.each (s.jobs.filter (fun j =>
    let pools := s.poolsFor j.slice 1 (dOp j.desc) (kernelSet j.desc)
    decide (1 ∈ j.needs) && !pools.isEmpty
      && pools.all (fun p => p.harden != 2 && (below 96 (s.shellIn p.num)).all (fun sh => !(s.shellTiles sh).all s.hasBudget))))
    (fun s j => s.endPart j 1 0x30)

/-- A tile accepts a job (R179, R180): the job frame in every tile, the key in the stroke tile. -/
def Tile.begin (x : Tile) (d key : Bytes) (pos size : Nat) (entry : Option KernelEntry) (harden : Nat) : Tile :=
  let m := Memory.write 0 d []
  let m := Memory.write 0x80 (leBytes 4 (dInLen d) ++ leBytes 4 key.length) m
  { x.wipe with
    sealBuf := x.sealBuf, sealOf := x.sealOf
    running := true, pc := (entry.map (·.pc)).getD 0, phases := (entry.map (·.phases)).getD 0, pos := pos, size := size
    op := dOp d, param := dParam d, harden := harden
    mem := if pos = 0 then Memory.write 0x2E000 (key.take 0x2000) m else m }

/-- Place a job on a unit: the frame's owner, the gang, the tiles' mask counts. -/
def State.place (s : State) (j : Job) (u : JobUnit) (entry : Option KernelEntry) (harden : Nat) : State :=
  match u with
  | .bne c f => s.setBcore c (fun b => if f = 0 then { b with f0 := some j.slice } else { b with f1 := some j.slice })
  | .hash k =>
    if !isGang j.desc then s
    else match (below 8 (fun x => s.inPart x k)).head? with
      | none => s
      | some part =>
        s.setJob j.id (fun x => { x with gang := (s.formGang part (decide (k < 64)) ((entry.map (·.gang)).getD 1) k).getD [k] })
  | .shell sh =>
    let key := ((s.job? j.id).map (·.key)).getD []
    let ts := s.shellTiles sh
    s.each ((List.range ts.length).zip ts) (fun s e =>
      (({ s with maskJobs := tset e.2 (tget 0 e.2 s.maskJobs + 1) s.maskJobs }).bump64 (.tilJobs e.2)).setTile e.2
        (fun x => x.begin j.desc key e.1 ts.length entry harden))
  | .sc => s

/-- INPUT_REJECTED with reason 9, naming the operand whose handle is refused (R260). -/
def handleRefused (j : Job) (o : Nat) : Result := .fail 0x10 ((if dOp j.desc = 0x0B05 then 0xF0 else o) + 0x900)

/-- The checks before the computation that need no input data: steps 1 to 5 of Table 03-5, and handles (R260). DESIGN CHOICE (log 67): FREE does not
compare its handle's length with SET, and a handle it does not accept is reported with operand 0xF0. -/
def State.preCheck (s : State) (j : Job) (ue : SlotUe) : Result ⊕ KeyRead :=
  match s.bodyFail j.slice j.desc (s.carried j.slice (dOp j.desc) (kernelSet j.desc)) with
  | some r => .inl r
  | none => match s.handleFail j.slice j.desc with
    | some o => .inl (handleRefused j o)
    | none => .inr (s.keyRead j.slice j.desc ue)

/-- Start a job, or a half of it, on a unit; a re-execution keeps the key it read (R34, Table 03-23), and one whose resident operand is
gone is refused (R260). -/
def State.start (s : State) (j : Job) (p : Option RigPool) (u : JobUnit) (ue : SlotUe) : State :=
  let kind := (p.map (·.kind)).getD 0
  let entry := p.bind (fun p => s.rig.bind (fun r => r.entry p (dOp j.desc) (kernelSet j.desc)))
  let fresh := decide (j.phase = .waiting) && !j.ahead
  let begin_ (s : State) : State :=
    let s := s.setJob j.id (fun (x : Job) =>
      let x : Job := { x with journal := changesSlot j.desc }
      if dClass j.desc = 0x10 then
        { x.setHalf (kind == 1) ⟨if x.phase = .gathered then .gathered else .started, some u, p.map (·.num), none⟩ with
          phase := if x.phase = .waiting then .started else x.phase }
      else { x with phase := .started, unit := some u, pool := p.map (·.num) })
    s.place j u entry ((p.map (·.harden)).getD 0)
  if !fresh then (match s.handleBad j with
    | some o => s.endJob j.id (handleRefused j o)
    | none => begin_ s)
  else match s.preCheck j ue with
    | .inl r => s.endJob j.id r
    | .inr (.fail r) => (if r.status = 0x1A then s.keyUe j.slice j.desc ue else s).endJob j.id r
    | .inr (.shadow l) => s.dueSlots l
    | .inr (.ok slot attr mat attr2 mat2) =>
      let s := s.keyUe j.slice j.desc ue
      let s := s.setJob j.id (fun x => { x with slot := slot, attr := attr, key := mat, attr2 := attr2, key2 := mat2
                                                cellGen := (s.cell (attrCell attr)).gen, epoch := s.bbram.epoch
                                                fillNo := (slot.map s.fillOf).getD 0
                                                memo := if dOp j.desc = 0x0302 then s.memo.filter (fun m => some m.1.slot = slot) else [] })
      let s := match slot with
        | some a => if pDestroyAfter (dParam j.desc) then s.putAttr a (setB attr 1 true) else s
        | none => s
      let s := begin_ s
      if getB attr 4 && decide (dOp j.desc ∈ [0x0402, 0x0502]) then (s.travUe (attrCell attr) ue).takeIndex j.id attr mat else s

/-- The cox gives the unit `u` of pool `p` its next job; the SC takes its jobs by priority. -/
def State.dispatch (s : State) (p : Nat) (u : JobUnit) (ue : SlotUe) : State :=
  if s.devState ≠ 1 ∨ s.bit .genState 4 then s
  else
    let s := s.dropUncarried.dropUnmasked
    match u with
    | .sc =>
      match pickJob (fun _ => 0) (s.jobs.filter (fun j => (opKinds (dOp j.desc)).isEmpty && decide (j.phase = .waiting)
          && s.fenceOk j && s.journalOk j && !s.sliceBad j.slice)) with
      | some j => s.start j none .sc ue
      | none => s
    | u =>
      match s.rig, s.poolRec p with
      | some r, some pr =>
        if s.bit (.fabPoolCtrl p) 0 ∨ s.poolState pr = 3 ∨ s.poolState pr = 4 then s
        else match s.coxChoose r pr u with
          | (none, c) => { s with cox := tset p c s.cox }
          | (some j, c) => ({ s with cox := tset p c s.cox }).start j (some pr) u ue
      | _, _ => s

/-! ### Inputs (R41, R88, R218) -/

/-- The result of a failed input read: DETAIL is the address field's offset, or names the gather element (R61, R72, R371). -/
def dmaFail (off : Nat) (list : Bool) : DmaResult → Option Result
  | .data _ => none
  | .corrected => none
  | .fault e => some (.fail 0x19 (if list then 0x80000000 + e.getD 0 else off))
  | .ecc _ => some (.fail 0x1A 0)

/-- The bytes of a read that ended with data. -/
def dmaBytes : DmaResult → Bytes
  | .data bs => bs
  | _ => []

/-- The main input of a job: contiguous, or the elements of its gather list one after another (R59). -/
def State.readMain (s : State) (j : Job) (d : DmaResult) : DmaResult :=
  let ddr := dFlag j.desc 2
  if dSgl j.desc = 0 then s.gatherRead j.slice ddr (dInAddr j.desc) (dInLen j.desc) d
  else if ddr then
    if !s.ddrReady then .data (zeros (j.gather.map (·.2)).sum) else match d with
    | .ecc l => .ecc l
    | _ => .data (j.gather.flatMap (fun e => Memory.read (s.ddrAddr j.slice e.1) e.2 s.ddr))
  else s.gatherRead j.slice false 0 (dInLen j.desc) d

/-- What the read of a job's main input from byte `off` on meets in LPDDR5X is counted, by the lines of its elements where it has a list
(R371). -/
def State.metMain (s : State) (j : Job) (off len : Nat) (d : DmaResult) : State :=
  if dSgl j.desc = 0 then s.metUe j.slice (dFlag j.desc 2) (dInAddr j.desc + off) len d
  else if dFlag j.desc 2 && s.ddrReady && len != 0 then s.metLines (j.gather.map (fun e => (s.ddrAddr j.slice e.1, e.2))) d else s

/-- A job is on hash cores of the other kind than its inline key asks for (R212). -/
def Job.wrongKind (j : Job) (in2 : Bytes) : Bool :=
  match j.unit with
  | some (.hash k) => j.kindOpen && needsKc j.desc in2 != decide (k < 64)
  | _ => false

/-- Such a job waits for cores of the other kind, with the key it has gathered (log 70). -/
def State.moveKind (s : State) (j : Job) (in2 : Bytes) : State :=
  (s.setJob j.id (fun y => { y with phase := .waiting, unit := none, gang := [], ahead := true, in2 := in2 })).vacateAll j

/-- Every input of a job is in its unit, or a read failed. -/
def State.takeInputs (s : State) (j : Nat) (main in2 in3 ctx : DmaResult) : State :=
  match s.job? j with
  | none => s
  | some x =>
    let d := x.desc
    let ddr := dFlag d 2
    let hashing := dClass d == 0x0C
    if x.phase ≠ .started ∨ !s.pcie.dlActive ∨ (hashing ∧ x.main.length ≠ dInLen d) then s
    else
      let m := if hashing then .data x.main else s.readMain x main
      let b := s.gatherRead x.slice ddr (dIn2Addr d) (dIn2Len d) in2
      let c := s.gatherRead x.slice ddr (dIn3Addr d) (dIn3Len d) in3
      let e := s.gatherRead x.slice ddr (dCtxAddr d) (dCtxLen d) ctx
      let s := if hashing then s else s.metMain x 0 (dInLen d) main
      let s := s.metUe x.slice ddr (dIn2Addr d) (dIn2Len d) in2
      let s := (s.metUe x.slice ddr (dIn3Addr d) (dIn3Len d) in3).metUe x.slice ddr (dCtxAddr d) (dCtxLen d) ctx
      match dmaFail 16 (dSgl d != 0) m, dmaFail 48 false b, dmaFail 80 false c, dmaFail 64 false e with
      | some r, _, _, _ => s.jobEnds j r
      | none, some r, _, _ => s.jobEnds j r
      | none, none, some r, _ => s.jobEnds j r
      | none, none, none, some r => s.jobEnds j r
      | none, none, none, none =>
        if x.wrongKind (dmaBytes b) then s.departing (·.moveKind x (dmaBytes b))
        else s.setJob j (fun y => { y with
          phase := .gathered, main := dmaBytes m, in2 := dmaBytes b, in3 := dmaBytes c, ctx := dmaBytes e
          classical := if y.classical.phase = .started then { y.classical with phase := .gathered } else y.classical
          pq := if y.pq.phase = .started then { y.pq with phase := .gathered } else y.pq })

/-- The next 4 KiB of a class 0x0C message arrives, or its fetch faults (R218). -/
def State.takeSegment (s : State) (j : Nat) (d : DmaResult) : State :=
  match s.job? j with
  | none => s
  | some x =>
    let got := x.main.length
    let n := min 4096 (dInLen x.desc - got)
    if x.phase ≠ .started ∨ dClass x.desc ≠ 0x0C ∨ n = 0 ∨ !s.pcie.dlActive then s
    else
      let ddr := dFlag x.desc 2
      let r := if dSgl x.desc = 0 then s.gatherRead x.slice ddr (dInAddr x.desc + got) n d
        else if ddr then (match s.readMain x d with
          | .data bs => .data (slice bs got n)
          | e => e)
        else s.gatherRead x.slice false 0 n d
      let s := s.metMain x got n d
      match dmaFail 16 (dSgl x.desc != 0) r with
      | some f => s.jobEnds j f
      | none => s.setJob j (fun y => { y with main := y.main ++ dmaBytes r })

/-! ### Completion and interrupts -/

/-- The output of an ended job, its slot change and its completion entry; a slot whose attribute record is found to disagree with its
inverse waits for the integrity response (R302). `cqCe`: the entry's line is read with a corrected error (R371). -/
def State.completeJob (s : State) (j : Nat) (outUe : LineUe) (cqUe : Bool) (cqCe : Bool := false) : State :=
  match s.job? j with
  | none => s
  | some x =>
    match x.phase, x.result with
    | .sealed, some r =>
      if !s.pcie.dlActive then s
      else
        let l := r.commit.slots.filter s.slotBad
        let ce := cqCe && !cqUe && s.bit (.qmgQCtrl x.queue) 2 && s.ddrReady && (s.queueX x.queue).held.isEmpty && (s.mustFree r).isNone
        if l.isEmpty then (s.onlyIf ce (·.bump .ddrCeCount)).complete x r outUe cqUe else s.dueSlots l
    | _, _ => s

/-- MOD_TIME_EXPIRY: MOD_TIME has passed since the oldest pending completion of the queue (R67). -/
def execModTimeExpiry (q : Nat) (s : State) : Answer :=
  if s.fld (.qmgQMod q) 25 16 ≠ 0 ∧ 0 < (s.queueX q).pendInt then .next (s.sendQueue q) else .next s

/-! ### Queue control (R53, R56, R75) -/

/-- The pointers, error and counts of a queue as R53 sets them. -/
def State.clearQueue (s : State) (q : Nat) : State :=
  let s := s.each [Reg.qmgQSqTail q, .qmgQSqHead q, .qmgQCqHead q, .qmgQErr q, .qmgQInflight q] (fun s r => s.wr r 0)
  (s.wr (.qmgQCqTail q) 0x10000).setQueueX q (fun _ => ⟨0, 0, [], []⟩)

/-- Restart a queue in ERROR: held completions in ring order, then the error cleared, then fetching resumes; `ue` lists the ring
positions in LPDDR5X whose line still cannot be read, and an entry that cannot be written puts the queue in ERROR again (R75). -/
def State.restartQueue (s : State) (q : Nat) (ue : List Nat) : State :=
  if s.queueState q ≠ 2 then s
  else
    let held := (s.queueX q).held
    let s := (s.setQueueX q (fun x => { x with held := [] })).putEntries q ue held
    if (s.queueX q).held.isEmpty then (s.wr (.qmgQErr q) 0).setQueueState q 1 else s

/-- VECTOR as clamped (R69). -/
def State.clampVector (s : State) (n v : Nat) : Nat := min v (s.fld (.slmSliceMsix n) 2 0 - 1)

/-- A write of QMG_Q_CTRL, field by field: ENABLE, the ring places (only while DISABLED), RESTART, VECTOR. -/
def State.writeQueueCtrl (s : State) (q : Nat) (v : DWord) (ue : List Nat := []) : State :=
  let st := s.queueState q
  let s := s.setFld (.qmgQCtrl q) 5 4 (s.clampVector (q / 64) (getF v 5 4))
  let s := if st = 0 then (s.setBit (.qmgQCtrl q) 1 (getB v 1)).setBit (.qmgQCtrl q) 2 (getB v 2) else s
  let s :=
    if getB v 0 && st == 0 then ((((s.clearQueue q).wr (.qmgQCompleted q) 0).setBit (.qmgQCtrl q) 0 true).setQueueState q 1)
    else if !getB v 0 && (st == 1 || st == 2) then
      let s := (s.fetchEnded q).setBit (.qmgQCtrl q) 0 false |>.setQueueState q 3
      ((s.cancelWaiting (fun j => j.queue == q) false).drained q).quiesced (q / 64)
    else s
  if getB v 3 then s.restartQueue q ue else s

/-- QUEUE_ENABLE: a write of QMG_Q_CTRL with ENABLE 1. -/
def execQueueEnable (q : Nat) (v : DWord) (s : State) : Answer := .next (s.hostTo (.qmgQCtrl q) (·.writeQueueCtrl q (setB v 0 true)))

/-- QUEUE_DISABLE: a write of QMG_Q_CTRL with ENABLE 0. -/
def execQueueDisable (q : Nat) (v : DWord) (s : State) : Answer := .next (s.hostTo (.qmgQCtrl q) (·.writeQueueCtrl q (setB v 0 false)))

/-- QMG_Q_RESTART: a write of QMG_Q_CTRL with RESTART 1. -/
def execQmgQRestart (q : Nat) (v : DWord) (s : State) (ue : List Nat := []) : Answer :=
  .next (s.hostTo (.qmgQCtrl q) (·.writeQueueCtrl q (setB v 3 true) ue))

/-- A write of SLM_PG_QRESTART (R47, R75). -/
def State.pageRestart (s : State) (n : Nat) (v : DWord) (ue : List Nat := []) : State :=
  if s.pageOpen n then s.restartQueue (64 * n + getF v 5 0) ue else s

/-- SLM_PG_QRESTART. -/
def execSlmPgQrestart (n : Nat) (v : DWord) (s : State) (ue : List Nat := []) : Answer := .next (s.hostTo (.slmPgQrestart n) (·.pageRestart n v ue))

end Sys2Proof.Machine
end

