-- ==== Sys2Proof/Machine/Jobs.lean ====
section
/-! DEFINITION. How a job's computation runs: step 6 of Table 03-5, the draws of Table 03-7, the result; and the public keys of
slots (R90, R94, R100, R101, R134, R341, R344). -/

namespace Sys2Proof.Machine

/-- INPUT_REJECTED with its operand and reason (Table 03-6). -/
def Result.reject (operand reason : Nat) : Result := .fail 0x10 (operand + 256 * reason)

/-- DONE, or VERIFY_FAIL. -/
def Result.verdict (ok : Bool) : Result := if ok then .done [] else .fail 0x20 0

/-- DONE with an output and a slot change. -/
def Result.fills (out : Bytes) (c : Commit) : Result := ⟨0, 0, out, c⟩

/-- Entry `i` of a list of byte strings. -/
def nth (l : List Bytes) (i : Nat) : Bytes := (l[i]?).getD []

/-- `n` bytes of a computation that the model leaves open (log 5). -/
def prim (p : Config.Prim) (n : Nat) (args : List Bytes) : Bytes := bytesOf n (Config.prim p args)

/-- A number as one byte, an argument of a computation. -/
def b1 (n : Nat) : Bytes := leBytes 1 n

/-! ### Draws -/

/-- What a job's draws meet; those served before the one that waits or fails are counted and, while it waits, kept. -/
inductive Drawn where
  | got (l : List Bytes) (s : State)
  /-- The next draw waits; for a prediction-resistant one, its length. -/
  | wait (pr : Option Nat) (s : State)
  | failed (s : State)

/-- The draws of a job beyond those already served, each one request (R341); the first is principal where it is marked so (R344). -/
def State.drawMore (s : State) (j : Job) (pq : Bool) : List Bytes → List (Bool × Nat) → Drawn
  | kept, [] => .got kept s
  | kept, (p, n) :: l =>
    let pr := p && pPredRes (dParam j.desc)
    match s.jobDraw j pr n with
    | .wait => .wait (if pr then some n else none)
        (s.setJob j.id (fun x => { x with drawn := x.drawn.filter (fun e => e.1 != pq) ++ kept.map (fun bs => (pq, bs)) }))
    | .failed => .failed s
    | .got bs _ s => s.drawMore j pq (kept ++ [bs]) l

/-- The draws served to a job, or to a half of a hybrid job. -/
def Job.kept (j : Job) (pq : Bool) : List Bytes := (j.drawn.filter (fun e => e.1 == pq)).map (·.2)

/-- All the draws of a job, or of a half of a hybrid job. -/
def State.drawAll (s : State) (j : Job) (l : List (Bool × Nat)) (pq : Bool := false) : Drawn :=
  s.drawMore j pq (j.kept pq) (l.drop (j.kept pq).length)

/-! ### Computations -/

/-- One operation: the checks on operand values, the draws, and the result from the drawn bytes. -/
structure JobOp where
  opcode : Nat
  reject : State → Job → Option Result := fun _ _ => none
  draws : Job → List (Bool × Nat) := fun _ => []
  result : State → Job → List Bytes → Result

/-- No tile the job runs on is halted (R196). -/
def State.unhalted (s : State) (j : Job) : Bool := (j.shells.flatMap s.shellTiles).all (fun t => (s.tile t).halt.isNone)

/-- No core the job runs on is halted through JTAG (R396). -/
def State.coresRun (s : State) (j : Job) : Bool := (j.units ++ j.gang.map JobUnit.hash).all (fun u => !s.unitHalted u)

/-- Job `j` has its inputs, runs the opcode, and its unit can compute now. -/
def State.computing (s : State) (op : Nat) (x : Job) : Bool :=
  decide (x.phase = .gathered) && dOp x.desc == op && x.result.isNone && !x.yielded && s.unhalted x && s.coresRun x

/-- A result stands at the unit, which is then free of the job's working state (R17, R193). -/
def State.settle (s : State) (x : Job) (r : Result) : State :=
  (s.freeShells x).setJob x.id (fun y => { y with phase := .computed, result := some r, drawWait := false, drawn := [] })

/-- Run an operation on a job: refused by step 6, waiting for or refused randomness, or computed (R90, R349). -/
def State.runOp (s : State) (j : Nat) (o : JobOp) : State :=
  match s.job? j with
  | none => s
  | some x =>
    if !s.computing o.opcode x then s
    else match o.reject s x with
    | some r => s.settle x r
    | none =>
      match s.drawAll x (o.draws x) with
      | .failed s => s.jobEnds j (.fail 0x30 0)
      | .wait pr s => s.waitDraw x pr
      | .got l s' => s'.settle x (o.result s' x l)

/-! ### Keys -/

/-- The attribute word of the key a job makes (R132, R100): the slice's, with the request. -/
def State.jobAttr (s : State) (j : Job) (gen : Bool) (matLen : Nat) (stateful : Bool := false) (cell : Nat := 0) : DWord :=
  let (c, set) := keyAlg j.desc
  s.newAttr c set j.slice (attrReq j.desc) gen stateful (inExtent c matLen) cell

/-- The result of a KEYGEN: the public key out, the target filled. -/
def State.fill (s : State) (j : Job) (out mat : Bytes) (gen : Bool) : Result :=
  .fills out (.fill (j.slot.getD 0) (s.jobAttr j gen mat.length) mat)

/-- DECAPS with DESTROY_AFTER destroys its key when it is DONE (R101). -/
def destroyAfter (j : Job) (out : Bytes) : Result :=
  .fills out (if pDestroyAfter (dParam j.desc) then .consume (j.slot.getD 0) else .none)

/-- The seed of a KEYGEN that can take one: the main input, or the draw (R97, R102, R109). -/
def seedOf (j : Job) (l : List Bytes) : Bytes := if j.main.isEmpty then nth l 0 else j.main

/-- The draw of a KEYGEN that can take a seed of `n` bytes. -/
def seedDraw (n : Nat) (j : Job) : List (Bool × Nat) := if j.main.isEmpty then [(true, n)] else []

/-- The tiles a job's work units are dealt to, and whether they run in LANES (R146): one where the job is on no shell. -/
def State.dealing (s : State) (j : Job) : Nat × Bool := match j.shells with
  | sh :: _ => (s.shellSize sh, s.fld (.fabPoolCfg (s.shellPool sh)) 7 6 == 2)
  | [] => (1, false)

/-- The ML-KEM encapsulation key of a decapsulation key: inside an expanded key (FIPS 203), else from the seed. -/
def mlkemPub (set : Nat) (mat : Bytes) : Bytes := if mat.length = 64 then (kemKeys set 1 (mat.take 32)).1 else kemEkOf set mat

/-- The public key of a key with attribute word `w`, in its class's encoding (R134). -/
def pubOf (w : DWord) (mat : Bytes) : Bytes :=
  let set := attrSet w
  let n := pubLen w mat (leAt mat 0 4)
  match attrClass w with
  | 0x01 => mlkemPub set mat
  | 0x02 => dsaPublic set 1 mat
  | 0x03 => slice mat (2 * slhN set) n
  | 0x04 => hssPub mat
  | 0x05 => xmssPub set mat
  | 0x06 => slice mat (40 + pick [16, 24, 32] set) n
  | 0x08 => let c := curveOf set; c.encode (c.mul (beNat mat) (some (c.gx, c.gy)))
  | 0x09 => if set ≤ 2 then (montOf set).pub mat else edPub set mat
  | 0x0A => slice mat 4 n
  | 0x10 =>
    if set = 1 then mlkemPub 2 (mat.take 64) ++ c25519.pub (mat.drop 64)
    else p384.encode (p384.mul (beNat (mat.drop 64)) (some (p384.gx, p384.gy))) ++ mlkemPub 3 (mat.take 64)
  | _ => []

/-- The public key a job works under: IN2 when inline, else the slot's. -/
def jobPub (j : Job) : Bytes := if pInline (dParam j.desc) then j.in2 else pubOf j.attr j.key

end Sys2Proof.Machine
end

