-- ==== Sys2Proof/Machine/Bne.lean ====
section
/-! DEFINITION. The bignum engine's cores: catch points and yields, machine checks, commands (R255 to R257, R261, R265 to R267). -/

namespace Sys2Proof.Machine

/-- The group of a core. -/
def State.coreGroup (s : State) (c : Nat) : Option Nat := firstBelow 8 (fun g => s.bit (.bneGrpCfg g) 7 && s.bit (.bneGrpCfg g) (8 + c))

/-- A re-rig past its commit has the core's pool in hand, or the core joins it (Table 08-9 step 4). -/
def State.coreReRigging (s : State) (c : Nat) : Bool :=
  s.reRig.any (fun r => r.committed && r.image.groups.any (fun x => x.pool == r.pool && x.cores.testBit c)) ||
  match s.coreGroup c with
  | some g => s.reRigging (s.fld (.bneGrpCfg g) 4 0)
  | none => false

/-- The pool of a core's group. -/
def State.corePool (s : State) (c : Nat) : Option RigPool := (s.coreGroup c).bind (fun g => s.poolRec (s.fld (.bneGrpCfg g) 4 0))

/-! ### Catch points (R255 to R257) -/

/-- The job running on a core. -/
def State.runningOn (s : State) (c : Nat) : Option Job := (s.onCore c).find? (fun j => !j.yielded)

/-- The frame of a core that a job is in. -/
def Job.frame (j : Job) (c : Nat) : Nat := if .bne c 0 ∈ j.units then 0 else 1

/-- A job's unit taken away, to see what the cox would offer its core. -/
def State.without (s : State) (j : Nat) : State :=
  s.setJob j (fun x => { x with unit := none, classical := { x.classical with unit := none } })

/-- Cost that remains at catch point `k`: 32,768 cycles of 140 to the unit each (R256). -/
def remainingCost (cost k : Nat) : Nat := cost - k * 32768 / 140

/-- The offered job goes before the running one (R256). -/
def yieldsTo (x j : Job) (remaining cost : Nat) : Bool :=
  (decide (j.slice = x.slice) && decide (dPrio j.desc < dPrio x.desc)) || decide (cost < remaining)

/-- A catch point of core `c`. -/
def State.catchPoint (s : State) (c : Nat) : State :=
  match s.runningOn c with
  | none => s
  | some x =>
    if s.unitHalted (.bne c 0) then s else
    let s := s.setJob x.id (fun y => { y with catches := y.catches + 1 })
    if s.sliceState x.slice = 2 ∨ s.transition.isSome then (s.cancelBne { x with catches := x.catches + 1 }).quiesced x.slice
    else
      let f := 1 - x.frame c
      match s.rig, s.corePool c with
      | some r, some pr =>
        if !s.bit .bneCtrl 0 || !(s.onUnit (.bne c f)).isEmpty || s.devState != 1 || s.bit .genState 4
            || s.bit (.fabPoolCtrl pr.num) 0 || s.poolState pr == 4 then s
        else match (s.without x.id).coxChoose r pr (.bne c f) with
          | (some j, k) =>
            if yieldsTo x j (remainingCost (s.cost r pr x) (x.catches + 1)) (s.cost r pr j) then
              let s := s.setJob x.id (fun y => { y with yielded := true })
              let s := (s.bump .bneYieldCount).bump (.bneCoreYields c)
              ({ s with cox := tset pr.num k s.cox }).start j (some pr) (.bne c f) .none
            else s
          | (none, _) => s
      | _, _ => s

/-- CATCH_POINT: the job on core `c` reaches its next catch point. -/
def execCatchPoint (c : Nat) (s : State) : Answer := .next (s.departing (·.catchPoint c))

/-- BNE_RESUME: the yielded job of core `c` goes on once the other is sealed (R257). -/
def execBneResume (c : Nat) (s : State) : Answer :=
  match s.runningOn c, (s.onCore c).head? with
  | none, some x => .next (s.setJob x.id (fun y => { y with yielded := false }))
  | _, _ => .next s

/-! ### Machine checks and commands (R265, R266) -/

/-- A job with a handle on a failed core ends; another is re-executed (R265 steps 1 and 2). -/
def State.coreLost (s : State) (c : Nat) (j : Job) : State :=
  if (handlesOf j.desc).isEmpty then s.retryOn (.bne c (j.frame c)) true j else (s.lostCycles j).abort j.id

/-- A machine check of core `c`: its handles are invalid before the jobs that name them end (R261). -/
def State.bneCheck (s : State) (c cause : Nat) : State :=
  -- the check governs over a block reset of the core (R459)
  let s := if s.boot.block = some (5, c) then s.endBlock.setBneState c 1 else s
  if s.bneState c ≠ 1 then s
  else
    -- those on the core, and those that await re-execution with a handle on it (R265 steps 1 and 2)
    let js := s.onCore c ++ s.jobs.filter (fun j => decide (j.phase = .waiting) && j.ahead && (handlesOf j.desc).any (fun h => handleCore h.2 == c))
    let s := s.setBneState c 2
    let s := s.setFld (.bneCoreState c) 15 12 (satAdd 4 (s.fld (.bneCoreState c) 15 12) 1)
    let s := ((s.setFld (.bneCoreState c) 19 16 cause).bump .bneMcCount).bneEvt 0
    ((s.wipeCore c).each js (fun s j => s.coreLost c j)).dropUncarried

/-- BNE_MACHINE_CHECK; CAUSE 0 stands for a corrected single-bit error, which is only counted (R265, log 68). -/
def execBneMachineCheck (c cause : Nat) (s : State) : Answer := .next (if cause = 0 then s.bump .fabCeCount else s.bneCheck c cause)

/-- A joining BNE core ends its BIST: UNUSED until step 7, or RETIRED (R292). -/
def State.bneJoined (s : State) (c : Nat) (ok : Bool) : State :=
  let s := ((s.tested c).setFld (.bneCoreState c) 21 20 (if ok then 1 else 2)).setBneState c (if ok then 0 else 3)
  if ok then s else s.bneEvt 1

/-- The BIST of core `c` ends; that of a block reset ends with BLOCK_RESET_BIST_DONE (R439). -/
def State.bneBistDone (s : State) (c : Nat) (ok : Bool) : State :=
  if s.bneState c ≠ 2 ∨ s.boot.block = some (5, c) then s
  else if s.joiningBne c then s.bneJoined c ok
  else
    let b := s.bcore c
    let s := (s.setFld (.bneCoreState c) 21 20 (if ok then 1 else 2)).setBcore c (fun b => { b with cmd := false, leaving := false })
    if b.cmd then
      if ok then (s.setBneState c (if (s.coreGroup c).isSome then 1 else 0)).bneEvt 2 else (s.setBneState c 3).bneEvt 3
    else if b.leaving then s.setBneState c 3
    else if ok && decide (s.fld (.bneCoreState c) 15 12 < s.fld .fabMcLimit 3 0) then s.setBneState c (if (s.coreGroup c).isSome then 1 else 0)
    else ((s.setBneState c 3).bneEvt 1).dropUncarried

/-- BNE_CORE_BIST_COMPLETE. -/
def execBneCoreBistComplete (c : Nat) (ok : Bool) (s : State) : Answer := .next (s.bneBistDone c ok)

/-- The result of a core command: 0 OK, 1 BUSY, 2 REFUSED. -/
def State.bneResult (s : State) (x : Nat) : State := s.setFld .bneCoreResult 1 0 x

/-- A command on core `c`: 1 BRING_UP, 2 RETIRE (Table 07-5). -/
def State.bneCmd (s : State) (c cmd : Nat) : State :=
  if cmd ≠ 1 ∧ cmd ≠ 2 then s
  else if s.bneState c = 2 ∨ s.coreReRigging c then s.bneResult 1
  else if s.bneState c = 1 then
    if cmd = 1 then s.bneResult 2
    else
      let s := s.bneResult 0
      if (s.onCore c).isEmpty then ((s.wipeCore c).setBneState c 3).dropUncarried
      else s.setBcore c (fun b => { b with leaving := true })
  else if cmd = 1 then (((s.bneResult 0).wipeCore c).setBneState c 2).setBcore c (fun b => { b with cmd := true })
  else s.bneResult 0

/-- BNE_CORE_BRING_UP. -/
def execBneCoreBringUp (c : Nat) (s : State) : Answer := .next (s.hostTo .bneCoreCmd (·.bneCmd c 1))

/-- BNE_CORE_RETIRE. -/
def execBneCoreRetire (c : Nat) (s : State) : Answer := .next (s.hostTo .bneCoreCmd (·.bneCmd c 2))

end Sys2Proof.Machine
end

