-- ==== Sys2Proof/Machine/Bignum.lean ====
section
/-! DEFINITION. The jobs of raw bignum arithmetic and the resident operands (R127, R128, R258 to R261). -/

namespace Sys2Proof.Machine

/-- The value a handle names, whether or not it has been freed since the job read it (R261). -/
def State.entryVal (s : State) (h : Nat) : Bytes := (tget ⟨0, none, []⟩ (h % 64) (s.bcore (handleCore h)).res).val

/-- An operand of a raw job: through its handle field, or as gathered (R127). -/
def State.rawOperand (s : State) (j : Job) (o : Nat) (bs : Bytes) : Nat :=
  leNat (if leAt j.desc o 4 = 0 then bs else s.entryVal (leAt j.desc o 4))

/-- A raw job's result as its little-endian words. -/
def rawOut (j : Job) (x : Nat) : Result := .done (leBytes (8 * (pSet (dParam j.desc) + 1)) x)

def State.rawA (s : State) (j : Job) : Nat := s.rawOperand j 96 j.main
def State.rawB (s : State) (j : Job) : Nat := s.rawOperand j 100 j.in2
def State.rawM (s : State) (j : Job) : Nat := s.rawOperand j 104 j.in3

/-- An operand that must be from 1, or from 2, to below the modulus. -/
def rangeFail (o x m : Nat) (oneBad : Bool) : Option Result :=
  if x = 0 then some (.reject o 1) else if oneBad && x == 1 then some (.reject o 2) else if m ≤ x then some (.reject o 3) else none

/-- A modulus that must be odd and at least 3. -/
def oddFail (m : Nat) : Option Result := if m = 0 then some (.reject 3 1) else if m = 1 then some (.reject 3 2)
  else if m % 2 = 0 then some (.reject 3 3) else none

/-- MODMUL (R128). -/
def modmul : JobOp where
  opcode := 0x0B01
  reject s j := (rangeFail 1 (s.rawA j) (s.rawM j) false).orElse (fun _ =>
    (rangeFail 2 (s.rawB j) (s.rawM j) false).orElse (fun _ => oddFail (s.rawM j)))
  result s j _ := rawOut j (s.rawA j * s.rawB j % s.rawM j)

/-- MODEXP (R128). -/
def modexp : JobOp where
  opcode := 0x0B02
  reject s j := (rangeFail 1 (s.rawA j) (s.rawM j) true).orElse (fun _ =>
    (if s.rawB j = 0 then some (.reject 2 1) else none).orElse (fun _ => oddFail (s.rawM j)))
  result s j _ := rawOut j (powMod (s.rawA j) (s.rawB j) (s.rawM j))

/-- MODINV: no inverse is reported at the end of the fixed time (R128). -/
def modinv : JobOp where
  opcode := 0x0B03
  reject s j := (rangeFail 1 (s.rawA j) (s.rawM j) true).orElse (fun _ =>
    if s.rawM j = 0 then some (.reject 3 1) else if s.rawM j = 1 then some (.reject 3 2) else none)
  result s j _ := match invMod (s.rawA j) (s.rawM j) with
    | some x => rawOut j x
    | none => .reject 1 7

/-- MODMUL. -/
def execModmul (j : Nat) (s : State) : Answer := .next (s.runOp j modmul)

/-- MODEXP. -/
def execModexp (j : Nat) (s : State) : Answer := .next (s.runOp j modexp)

/-- MODINV. -/
def execModinv (j : Nat) (s : State) : Answer := .next (s.runOp j modinv)

/-! ### LOAD and FREE (R259, R261) -/

/-- A generation one higher, never 0. -/
def nextGen (g : Nat) : Nat := if g + 1 = 65536 then 1 else g + 1

/-- LOAD with its operand: refused when all zero, or without an entry; else resident, its handle in DETAIL. -/
def State.loadJob (s : State) (j : Nat) : State :=
  match s.job? j with
  | none => s
  | some x =>
    if !s.computing 0x0B04 x then s
    else if s.rawA x = 0 then s.settle x (.reject 1 1)
    else match x.core with
      | none => s
      | some c =>
        match s.loadEntry x.slice c (8 * (pSet (dParam x.desc) + 1)) with
        | none => s.settle x (.reject 0xF0 9)
        | some e =>
          let g := nextGen (tget ⟨0, none, []⟩ e (s.bcore c).res).gen
          (s.setBcore c (fun b => { b with res := tset e ⟨g, some x.slice, leBytes (8 * (pSet (dParam x.desc) + 1)) (s.rawA x)⟩ b.res })).settle x ⟨0, handleOf c e g, [], .none⟩

/-- LOAD. -/
def execLoadOperand (j : Nat) (s : State) : Answer := .next (s.loadJob j)

/-- FREE: the handle is invalid at once for new jobs; the storage goes with the last job that uses it (R261). -/
def State.freeJob (s : State) (j : Nat) : State :=
  match s.job? j with
  | none => s
  | some x =>
    if !s.computing 0x0B05 x then s
    else
      let h := leAt x.desc 96 4
      match s.handleVal x.slice h with
      | none => s.settle x (.reject 0xF0 9)
      | some _ =>
        let c := handleCore h
        let s := s.setBcore c (fun b => { b with res := tset (h % 64) { tget ⟨0, none, []⟩ (h % 64) b.res with owner := none } b.res })
        (s.releaseFreed c).settle x (.done [])

/-- FREE. -/
def execFreeHandle (j : Nat) (s : State) : Answer := .next (s.freeJob j)

end Sys2Proof.Machine
end

