-- ==== Sys2Proof/Machine/Ecc.lean ====
section
/-! DEFINITION. The jobs of the elliptic curves: SEC 1 prime curves, Edwards and Montgomery curves (R116 to R123). -/

namespace Sys2Proof.Machine

/-! ### Prime curves (R116 to R119) -/

/-- Scalar from 64 bits more than the order has, below the order and not zero (FIPS 186-5). -/
def Curve.scalar (c : Curve) (bs : Bytes) : Nat := beNat bs % (c.n - 1) + 1

/-- The generator. -/
def Curve.gen (c : Curve) : Point := some (c.gx, c.gy)

/-- The checks of R118 as a result on operand `o`. -/
def Curve.pointFail (c : Curve) (o : Nat) (bs : Bytes) : Option Result :=
  match c.read bs with
  | .rejected r => some (.reject o r)
  | .length n => some (.fail 0x12 (lenDetail o n))
  | .invalid => some (.fail 0x11 o)
  | .ok _ _ => none

/-- The point an encoding gives once it has passed. -/
def Curve.point (c : Curve) (bs : Bytes) : Point :=
  match c.read bs with
  | .ok x y => some (x, y)
  | _ => none

/-- The curve of a job. -/
def jobCurve (j : Job) : Curve := curveOf (pSet (dParam j.desc))

/-- The digest a signature is over (R117). -/
def eccDigest (j : Job) : Bytes := if pDigestIn (dParam j.desc) then j.main else hashOf (pHash (dParam j.desc)) j.main

/-- ECC_KEYGEN: the scalar drawn, blinding drawn, Q out (R116). -/
def eccKeygen : JobOp where
  opcode := 0x0801
  draws j := [(true, (jobCurve j).len + 8), (false, 32)]
  result s j l :=
    let c := jobCurve j
    let d := c.scalar (nth l 0)
    s.fill j (c.encode (c.mul d c.gen)) (beBytes c.len d) true

/-- ECC_SIGN: RFC 6979, with 32 drawn bytes as additional data unless HEDGE_OFF; blinding drawn (R117). -/
def eccSign : JobOp where
  opcode := 0x0802
  draws j := if dFlag j.desc 4 then [(true, 32)] else [(true, 32), (false, 32)]
  result _ j l :=
    let c := jobCurve j
    let add := if dFlag j.desc 4 then [] else nth l 0
    .done ((c.sign (pHash (dParam j.desc)) (beNat j.key) (eccDigest j) add).getD (prim .endless (2 * c.len) [j.key, eccDigest j, add]))

/-- ECC_VERIFY. -/
def eccVerify : JobOp where
  opcode := 0x0803
  reject _ j := if pInline (dParam j.desc) then (jobCurve j).pointFail 2 j.in2 else none
  result _ j _ := let c := jobCurve j; .verdict (c.verify (c.point (jobPub j)) (eccDigest j) j.in3)

/-- ECC_DERIVE: the x-coordinate of the product (R116). -/
def eccDerive : JobOp where
  opcode := 0x0806
  reject _ j := (jobCurve j).pointFail 2 j.in2
  draws _ := [(true, 32)]
  result _ j _ :=
    let c := jobCurve j
    .done (match c.mul (beNat j.key) (c.point j.in2) with
      | some (x, _) => beBytes c.len x
      | none => zeros c.len)

/-- CHECK_PUBLIC (R118). -/
def checkPublic : JobOp where
  opcode := 0x0807
  reject _ j := (jobCurve j).pointFail 2 j.in2
  result _ _ _ := .done []

/-- ECC_KEYGEN. -/
def execEccKeygen (j : Nat) (s : State) : Answer := .next (s.runOp j eccKeygen)

/-- ECC_SIGN. -/
def execEccSign (j : Nat) (s : State) : Answer := .next (s.runOp j eccSign)

/-- ECC_VERIFY. -/
def execEccVerify (j : Nat) (s : State) : Answer := .next (s.runOp j eccVerify)

/-- ECC_DERIVE. -/
def execEccDerive (j : Nat) (s : State) : Answer := .next (s.runOp j eccDerive)

/-- CHECK_PUBLIC. -/
def execCheckPublic (j : Nat) (s : State) : Answer := .next (s.runOp j checkPublic)

/-! ### Edwards and Montgomery curves (R120 to R123) -/

/-- EDMONT_KEYGEN: the secret key is the drawn string (RFC 7748, RFC 8032). -/
def edmontKeygen : JobOp where
  opcode := 0x0901
  draws j := [(true, edPk (pSet (dParam j.desc))), (false, 32)]
  result s j l :=
    let w := s.jobAttr j true (nth l 0).length
    s.fill j (pubOf w (nth l 0)) (nth l 0) true

/-- The message an Edwards scheme signs, pre-hashed under VARIANT 2 (R122). -/
def edMessage (j : Job) : Bytes :=
  let p := dParam j.desc
  if pVariant p = 2 then (if pSet p = 3 then hashOf 4 j.main else shake 64 j.main 64) else j.main

/-- EDMONT_SIGN: deterministic; only blinding is drawn (R122). -/
def edmontSign : JobOp where
  opcode := 0x0902
  draws _ := [(true, 32)]
  result _ j _ :=
    let p := dParam j.desc
    .done (edSign (pSet p) (pVariant p) j.key j.ctx (edMessage j))

/-- EDMONT_VERIFY: the cofactored equation, once the key, R and S decode (R123). -/
def edmontVerify : JobOp where
  opcode := 0x0903
  reject _ j :=
    if (edDecode (pSet (dParam j.desc)) (jobPub j)).isSome then none
    else some (.fail 0x11 (if pInline (dParam j.desc) then 2 else 5))
  result _ j _ :=
    let p := dParam j.desc
    .verdict (edVerify (pSet p) (pVariant p) (jobPub j) j.ctx (edMessage j) j.in3)

/-- DONE, or ZERO_SHARED with the zeroed secret (R121). -/
def sharedResult (bs : Bytes) : Result := ⟨if allZero bs then 0x21 else 0, 0, bs, .none⟩

/-- EDMONT_DERIVE. -/
def edmontDerive : JobOp where
  opcode := 0x0906
  draws _ := [(true, 32)]
  result _ j _ := sharedResult ((montOf (pSet (dParam j.desc))).dh j.key j.in2)

/-- EDMONT_KEYGEN. -/
def execEdmontKeygen (j : Nat) (s : State) : Answer := .next (s.runOp j edmontKeygen)

/-- EDMONT_SIGN. -/
def execEdmontSign (j : Nat) (s : State) : Answer := .next (s.runOp j edmontSign)

/-- EDMONT_VERIFY. -/
def execEdmontVerify (j : Nat) (s : State) : Answer := .next (s.runOp j edmontVerify)

/-- EDMONT_DERIVE. -/
def execEdmontDerive (j : Nat) (s : State) : Answer := .next (s.runOp j edmontDerive)

end Sys2Proof.Machine
end

