-- ==== Sys2Proof/Machine/Useq.lean ====
section
/-! DEFINITION. The control store of a tile and its micro-sequencer: words and parity, the match table, the next micro-address, and
the machine checks that the sequencer raises (R202 to R205, R209). What the other fields of a word make the datapath do is not in
the spec: a microcoded instruction has the effect of Table 05-5 (log 6). -/

namespace Sys2Proof.Machine

/-! ### Words (R202, Table 05-8) -/

/-- Ones in the `n` low bits of a number. -/
def onesIn : Nat → Nat → Nat
  | 0, _ => 0
  | n + 1, v => v % 2 + onesIn n (v / 2)

/-- Odd parity of group `g` of a control-store word: bit 152 + g over data bits 19g to 19g + 18. -/
def groupOk (w g : Nat) : Bool := (onesIn 19 (w / 2 ^ (19 * g)) + w / 2 ^ (152 + g)) % 2 == 1

/-- The parity of a whole word. -/
def parityOk (w : Nat) : Bool := (List.range 8).all (groupOk w)

/-- A word with the parity bits of its data. -/
def withParity (d : Nat) : Nat :=
  d % 2 ^ 152 + ((List.range 8).map (fun g => (onesIn 19 (d / 2 ^ (19 * g)) + 1) % 2 * 2 ^ (152 + g))).sum

/-- Fields of a word. -/
def uTarget (w : Nat) : Nat := w % 4096
def uXb (w : Nat) : Bool := w.testBit 12
def uSeq (w : Nat) : Nat := w / 2 ^ 13 % 4
def uCond (w : Nat) : Nat := w / 2 ^ 15 % 32
def uLast (w : Nat) : Bool := w.testBit 151

/-- Word `a` of the ROM, as made: with its parity. -/
def romWord (a : Nat) : Nat := withParity (Config.romData (a % 4096)).toNat

/-- The ROM as bytes, whose SHA-384 a patch names (R206). -/
def romBytes : Bytes := (List.range 4096).flatMap (fun a => leBytes 20 (romWord a))

/-- Words of patch RAM. -/
def patchSize : Nat := 1024

/-- A micro-address: the bank (patch RAM, else ROM) and the word in it. -/
structure UAddr where
  inPatch : Bool
  word : Nat
  deriving DecidableEq, Repr

/-- The word at a micro-address. Patch words beyond those of the patch in force are clear, with the parity of a clear word
(DESIGN CHOICE, log 6). -/
def Tile.uword (x : Tile) (a : UAddr) : Nat := if a.inPatch then (x.patch[a.word]?).getD (withParity 0) else romWord a.word

/-- The machine check that a word in a bank raises: CS_PARITY or PATCH_PARITY. -/
def UAddr.cause (a : UAddr) : Nat := if a.inPatch then 2 else 1

/-! ### The match table (R204) -/

/-- The patch word an enabled entry maps ROM word `a` to. -/
def Tile.matched (x : Tile) (a : Nat) : Option Nat :=
  (x.matchTab.find? (fun e => e.testBit 31 && e % 4096 == a)).map (fun e => e / 4096 % 1024)

/-- A fetch at an address: a matched ROM word is fetched from patch RAM instead. -/
def Tile.redirect (x : Tile) (a : UAddr) : UAddr :=
  if a.inPatch then a
  else match x.matched a.word with
    | some p => ⟨true, p⟩
    | none => a

/-! ### The sequencer (R203, R205) -/

/-- The sequencer: the micro-PC and the call stack, at most two entries, top first. -/
structure Useq where
  upc : UAddr
  stack : List UAddr
  deriving DecidableEq, Repr

/-- What a fetched word leads to: the next word, the end of the instruction, a machine check. -/
inductive UNext where
  | go (q : Useq)
  | last
  | check (cause : Nat)
  deriving DecidableEq, Repr

/-- The word after an address, if the bank has one. -/
def UAddr.succ (a : UAddr) : Option UAddr := if a.word + 1 < (if a.inPatch then patchSize else 4096) then some ⟨a.inPatch, a.word + 1⟩ else none

/-- A branch or call target, if the bank has it. -/
def uDest (w : Nat) : Option UAddr := if uXb w && decide (patchSize ≤ uTarget w) then none else some ⟨uXb w, uTarget w⟩

/-- The next micro-address and stack that a word gives where its condition has the value `cond`: none where R205 names a machine
check. A call whose return address would lie past its bank is an increment past it. -/
def useqNext (w : Nat) (cond : Bool) (q : Useq) : Option Useq :=
  match cond, uSeq w, q.stack with
  | true, 1, st => (uDest w).map (fun a => ⟨a, st⟩)
  | true, 2, st => if 2 ≤ st.length then none else match uDest w, q.upc.succ with
    | some a, some r => some ⟨a, r :: st⟩
    | _, _ => none
  | true, 3, r :: st => some ⟨r, st⟩
  | true, 3, [] => none
  | _, _, st => q.upc.succ.map (fun a => ⟨a, st⟩)

/-- One word: its parity is checked before it has any effect; the last word ends the instruction. -/
def Tile.uStep (x : Tile) (cond : Bool) (q : Useq) : UNext :=
  let w := x.uword q.upc
  if !parityOk w then .check q.upc.cause
  else if uLast w then .last
  else match useqNext w cond q with
    | some n => .go { n with upc := x.redirect n.upc }
    | none => .check q.upc.cause

/-- How the microcode of an instruction ends: after its last word, in a machine check at a micro-address, or not within the words
looked at. -/
inductive UEnd where
  | done
  | check (cause : Nat) (at_ : UAddr)
  | endless
  deriving DecidableEq, Repr

/-- Run words from a micro-address on; `c` is the draw that the micro-conditions of this execution have. -/
def Tile.uRun (x : Tile) (c : Nat) : Nat → Nat → Useq → UEnd
  | 0, _, _ => .endless
  | fuel + 1, k, q =>
    match x.uStep (Config.microCond c (uCond (x.uword q.upc)) k) q with
    | .go q => x.uRun c fuel (k + 1) q
    | .last => .done
    | .check cause => .check cause q.upc

/-- Words after which the model takes microcode not to end (log 6): no phase of a kernel has such a budget. -/
def microFuel : Nat := 2 ^ 32

/-- The entry word of a microcoded instruction (R203). -/
def microEntry (op : Nat) : UAddr := ⟨false, op - 0x40⟩

/-- The microcode of instruction `op`, run from its entry word with an empty call stack. -/
def Tile.microcode (x : Tile) (c op : Nat) : UEnd := x.uRun c microFuel 0 ⟨x.redirect (microEntry op), []⟩

/-- An opcode that microcode carries out (Table 05-5). -/
def isMicro (op : Nat) : Bool := decide (0x40 ≤ op) && decide (op ≤ 0x4F)

/-! ### Scrub and loading (R163 step 4, R205, R209) -/

/-- The machine check that a scrub of all 5,120 words and of the match table finds; none when they are sound. The ROM is sound as
made, so what is read is the patch RAM and its table. -/
def Tile.scrub (x : Tile) : Option Nat :=
  if x.patch.all parityOk && x.matchTab.all (fun e => e.testBit 31 && e / 2 ^ 22 % 512 == 0 && decide (e / 4096 % 1024 < patchSize)) then none else some 2

/-- Patch RAM and the match table reloaded from the scratch-bank copy in force, never from flash. -/
def State.loadPatch (s : State) (t : Nat) : State :=
  s.setTile t (fun x => match s.boot.patch with
    | some p => { x with patch := p.words.map leNat, matchTab := p.entries }
    | none => { x with patch := [], matchTab := [] })

/-- The SC writes the patch in force to every tile and reads it back (R207). -/
def State.loadPatches (s : State) : State := s.each (List.range 96) State.loadPatch

end Sys2Proof.Machine
end

