-- ==== Sys2Proof/Machine/Fabric.lean ====
section
/-! DEFINITION. The polynomial fabric outside jobs: machine checks, spares, BIST, mask budgets, tile commands, island clocks and
power gates (R157 to R171). -/

namespace Sys2Proof.Machine

/-! ### Kernels and mask seeds -/

/-- The kernel set of a pool loaded into a tile's instruction memory (R163 step 5, R203). -/
def State.loadKernels (s : State) (t p : Nat) : State :=
  match s.rig.bind (fun r => (s.poolRec p).bind (fun x => r.ksets.find? (fun k => k.id == x.kset))) with
  | none => s
  | some k =>
    let s := s.wr (.tilKernel t) (setF (setF 0 15 0 k.id) 29 16 k.code.length)
    s.setTile t (fun x => { x with imem := k.code })

/-- A tile that has just joined a shell has its pool's kernels. -/
def State.loadShellKernels (s : State) (t : Nat) : State :=
  match s.shellOf t with
  | some sh => s.loadKernels t (s.shellPool sh)
  | none => s

/-- The DRBG instance that seeds a tile's mask generator (R340). -/
def State.maskDrb (s : State) (t : Nat) : Nat := s.fld (.fabIslMaskdrb (islandOf t)) 3 0

/-- A mask generator seeded with 32 B: a SHAKE256 stream from its start, and an empty FIFO (R157). -/
def Tile.seed (x : Tile) (bs : Bytes) : Tile := { x with gen := xofStart 136 bs, fifo := [] }

/-- Seed a tile's mask generator: one request of 32 B, after which its job count is 0 (R157, R341). -/
def State.seedTile (s : State) (t : Nat) : Draw :=
  match s.request (s.maskDrb t) 32 with
  | .got bs st s =>
    .got bs st ((({ s with maskJobs := tset t 0 s.maskJobs }).setTile t (·.seed bs)).setBit (.fabTileStat t) 26 false)
  | .wait => .wait
  | .failed => .failed

/-! ### Machine checks (R159, R160, R171) -/

/-- Write the next machine-check log entry. The micro-address is the sequencer's where it raised the check, else a free value. -/
def State.logCheck (s : State) (t cause : Nat) (sh : Option Nat) (job : Nat) (at_ : Option Nat) : State :=
  let e := s.fld .fabMclogHead 5 0
  let s := if s.bit (.fabMclogInfo e) 63 then s.setBit .fabMclogHead 31 true else s
  let s := s.setFld .fabMclogHead 5 0 ((e + 1) % 64)
  let (b, s) := s.draw 2
  let p := (sh.map s.shellPool).getD 0
  let v := t + cause * 2 ^ 8 + sh.getD 0x7F * 2 ^ 16 + p * 2 ^ 24 + at_.getD (leNat b) % 4096 * 2 ^ 40 + job * 2 ^ 52 + 2 ^ 63
  (s.wr (.fabMclogTime e) (s.rd .genTime)).wr (.fabMclogInfo e) (BitVec.ofNat 64 v)

/-- The unsealed job on a shell. -/
def State.shellJob (s : State) (sh : Option Nat) : Option Job := sh.bind (fun sh => (s.onUnit (.shell sh)).head?)

/-- A tile can raise a machine check: UNUSED, IN_SERVICE or SPARE. -/
def State.checkable (s : State) (t : Nat) : Bool := decide (s.tileState t ≤ 2)

/-- A shell that a tile has left is repaired, unless its island drains (R160 step 5, R168). -/
def State.afterLoss (s : State) (sh : Option Nat) (mc : Bool) : State :=
  match sh with
  | none => s
  | some sh => if s.fld (.fabIslStat (s.fld (.fabShellMap sh) 14 12)) 6 4 = 1 then s else s.repairShell sh mc

/-- A machine check of tile `t` (Table 04-8), at a micro-address where the sequencer raised it. -/
def State.tileCheck (s : State) (t cause : Nat) (at_ : Option Nat := none) : State :=
  let s := s.tileBlockEnds t
  if !s.checkable t then s
  else
    let sh := s.shellOf t
    let was := (s.tile t).joining
    let j := s.shellJob sh
    let s := s.setFld (.fabTileStat t) 19 16 (satAdd 4 (s.fld (.fabTileStat t) 19 16) 1)
    let s := (s.setFld (.fabTileStat t) 23 20 cause).bump .fabMcCount
    let s : State := match j, sh with
      | some x, some n => s.retryOn (.shell n) true x
      | _, _ => s
    let job := match j with
      -- a third failure of a hybrid job's half ends that half (R19)
      | some x => if (s.job? x.id).any (fun y => decide (y.phase = .sealed) || (dClass y.desc == 0x10 && decide (y.pq.phase = .sealed))) then 2 else 1
      | none => 0
    let e := s.fld .fabMclogHead 5 0
    let now := (s.rd .genTime).toNat
    let s := (s.logCheck t cause sh job at_).fabEvt 0
    -- the job's end has retired a tile whose RETIRE was waiting for it (Table 04-10)
    if s.tileState t = 4 then s.dropUncarried else
    let s := (s.leaveShell t 3).setTile t (fun x => { x.wipe with bist := some (.check e now), joining := none, back := 0, periodic := false })
    ((s.afterLoss sh true).afterLoss was false).dropUncarried

/-- No tile of tile `t`'s shell is halted: its WATCHDOG and RING_TIMEOUT counts run (R200). -/
def State.shellRuns (s : State) (t : Nat) : Bool :=
  match s.shellOf t with
  | some sh => (s.shellTiles sh).all (fun u => (s.tile u).halt.isNone)
  | none => (s.tile t).halt.isNone

/-- WATCHDOG_EXPIRY: a kernel phase of a running tile exceeds its budget; the count stands while a tile of its shell is halted. -/
def execWatchdogExpiry (t : Nat) (s : State) : Answer :=
  if (s.tile t).running && s.shellRuns t then .next (s.tileCheck t 7) else .next s

/-- RING_TIMEOUT: tile `t` is the silent peer. -/
def execRingTimeout (t : Nat) (s : State) : Answer :=
  match s.shellOf t with
  | some sh =>
    if (s.shellJob (some sh)).isSome && decide (1 < (s.shellTiles sh).length) && s.shellRuns t
    then .next (s.tileCheck t 9) else .next s
  | none => .next s

/-- TILE_IDLE_SCRUB: an idle tile scrubs its control store and patch RAM; `found` is what the hardware's own checks find on the
tile. 0 is nothing: the scrub then reads every word (R205). 1 to 6 and 8 are the machine checks of Table 04-7 that a tile raises
running or idle and that no other command carries, and 15 is an error that its ECC corrects (log 68). -/
def execTileIdleScrub (t found : Nat) (s : State) : Answer :=
  if !s.checkable t then .next s
  else if found = 15 then .next (s.bump .fabCeCount)
  else if (1 ≤ found ∧ found ≤ 6) ∨ found = 8 then .next (s.tileCheck t found)
  else if (s.tile t).running then .next s
  else match (s.tile t).scrub with
    | some cause => .next (s.tileCheck t cause)
    | none => .next (s.wr (.tilScrub t) (s.rd .genTime))

/-! ### Spares and BIST (R160 to R165) -/

/-- SPARE_PERIODIC_BIST: the background BIST of a spare begins: its reset wipes it (R163 step 1). -/
def execSparePeriodicBist (t : Nat) (s : State) : Answer :=
  if s.tileState t = 2 then .next (s.setTile t (fun x => { x.wipe with periodic := true, joining := x.joining })) else .next s

/-- A spare is retired; the shell it was to join takes the next (R161). -/
def State.retireSpare (s : State) (t : Nat) : State :=
  let was := (s.tile t).joining
  ((s.leaveShell t 4).setTile t (fun x => { x with joining := none, periodic := false })).afterLoss was false

/-- SPARE_JOIN: the chosen spare has loaded its kernels and is seeded, or fails its loading (R160 step 6, R161). -/
def execSpareJoin (t sh : Nat) (ok : Bool) (s : State) : Answer :=
  let x := s.tile t
  if x.joining ≠ some sh ∨ x.periodic ∨ s.tileState t ≠ 2 ∨ s.fld (.fabIslStat (islandOf t)) 6 4 ≠ 0 then .next s
  else if !ok then .next (((s.retireSpare t).fabEvt 3).dropUncarried)
  else match s.seedTile t with
    | .got _ _ s =>
      let s := (s.joinShell t sh).loadShellKernels t
      .next ((if (s.shellTiles sh).length = s.shellSize sh then s.shellWhole sh else s).fabEvt 1)
    | _ => .next s

/-- The outcome of tile `t`'s machine check in its log entry, unless later checks have overwritten the entry (R171). -/
def State.logOutcome (s : State) (t e now x : Nat) : State :=
  if s.fld (.fabMclogInfo e) 6 0 = t ∧ s.fld (.fabMclogTime e) 63 0 = now then s.setFld (.fabMclogInfo e) 34 32 x else s

/-- The role a tile returns to after gating or a block reset: its shell, SPARE, UNUSED or RETIRED; one that had no role yet is
placed (R162, R168, R439). -/
def State.toRole (s : State) (t back : Nat) : State :=
  match back, s.shellOf t with
  | 1, some _ => (s.setTileState t 1).loadShellKernels t
  | 0, _ => s.setTileState t 0
  | 2, _ => s.setTileState t 2
  | 4, _ => s.setTileState t 4
  | _, _ => (s.placeTile t).loadShellKernels t

/-- Start draining an island: its shells leave their pools (R168). -/
def State.drainIsland (s : State) (n : Nat) : State :=
  let s := s.setFld (.fabIslStat n) 6 4 1
  (s.each (below 96 (fun sh => s.shellState sh == 1 && s.fld (.fabShellMap sh) 14 12 == n)) (fun s sh => s.setShellState sh 4)).dropUncarried

/-- An island holds a shell of the pool that a live re-rig, not ended yet, has in hand (R294). -/
def State.gateHeld (s : State) (n : Nat) : Bool :=
  s.reRig.any (fun r => (below 96 (fun sh => s.shellIn r.pool sh && s.fld (.fabShellMap sh) 14 12 == n)).length != 0
    || r.image.shells.any (fun x => x.tiles != 0 && x.pool == r.pool && x.isl == n))

/-- A write of GATE waits (R169, R294). -/
def State.holdGate (s : State) (n : Nat) : State := { s with gateWait := insertNat n s.gateWait }

/-- GATE = 1 takes effect now, or waits for a wake or a re-rig to end (R168, R169, R294). -/
def State.gateIsland (s : State) (n : Nat) : State :=
  match s.fld (.fabIslStat n) 6 4 with
  | 0 => if s.gateHeld n then s.holdGate n else s.drainIsland n
  | 2 => s.holdGate n
  | _ => s

/-- GATE = 0 takes effect: a wake begins, or a drain is cancelled and the shells rejoin at once (R168, R169). -/
def State.ungateIsland (s : State) (n : Nat) : State :=
  match s.fld (.fabIslStat n) 6 4 with
  | 1 =>
    let s := s.setFld (.fabIslStat n) 6 4 0
    s.each (below 96 (fun sh => s.shellState sh == 4 && s.fld (.fabShellMap sh) 14 12 == n
      && (s.shellTiles sh).all (fun t => (s.tile t).back != 4))) (fun s sh => s.repairShell sh false)
  | 3 => s.setFld (.fabIslStat n) 6 4 2
  | _ => s

/-- A waiting write of GATE takes effect as the bit reads. -/
def State.settleGate (s : State) (n : Nat) : State :=
  let s := { s with gateWait := s.gateWait.filter (· ≠ n) }
  if s.bit (.fabIslCtrl n) 4 then s.gateIsland n else s.ungateIsland n

/-- The waiting writes of GATE that nothing holds any more take effect (R294). -/
def State.applyGates (s : State) : State :=
  s.each s.gateWait (fun s n => if s.gateHeld n ∨ s.fld (.fabIslStat n) 6 4 = 2 then s else s.settleGate n)

/-- An island whose tiles have all ended their BIST is ON again; its shells return, and a waiting GATE follows (R168, R169). -/
def State.wakeDone (s : State) (n : Nat) : State :=
  if s.fld (.fabIslStat n) 6 4 ≠ 2 ∨ (List.range 12).any (fun i => (s.tile (12 * n + i)).bist.isSome) then s
  else
    let s := s.setFld (.fabIslStat n) 6 4 0
    let s := s.each (below 96 (fun sh => s.shellState sh == 5 && s.fld (.fabShellMap sh) 14 12 == n)) (fun s sh => s.repairShell sh false)
    (if n ∈ s.gateWait ∧ !s.gateHeld n then s.settleGate n else s).dropUncarried

/-- A tile whose BIST has passed and whose mask generator is seeded goes where it was meant to (R162, R165, R168, R439). -/
def State.bistPassed (s : State) (t : Nat) (why : BistFor) : State :=
  let limit := decide (s.fld .fabMcLimit 3 0 ≤ s.fld (.fabTileStat t) 19 16)
  match why with
  | .check e now =>
    if limit then ((((s.leaveShell t 4).logOutcome t e now 3).fabEvt 3).wakeDone (islandOf t)).dropUncarried
    else (((s.placeTile t).loadShellKernels t).logOutcome t e now 1).wakeDone (islandOf t)
  | .spare => (s.placeTile t).loadShellKernels t
  | .bringUp => ((s.placeTile t).loadShellKernels t).fabEvt 4
  | .wake => ((s.toRole t (s.tile t).back).setTile t (fun x => { x with back := 0 })).wakeDone (islandOf t)
  | .block =>
    let s := (s.toRole t (s.tile t).back).setTile t (fun x => { x with back := 0 })
    match s.shellOf t with
    | some sh => if s.shellState sh = 2 ∧ (s.shellTiles sh).all (fun u => s.tileState u == 1) then s.repairShell sh false else s
    | none => s
  | .join => if s.reRig.isSome then s else (s.placeTile t).loadShellKernels t

/-- A tile whose BIST has failed is RETIRED (R162, R165). -/
def State.bistFailed (s : State) (t : Nat) (why : BistFor) : State :=
  let sh := s.shellOf t
  let s := s.leaveShell t 4
  match why with
  | .check e now => (((s.logOutcome t e now 2).fabEvt 3).wakeDone (islandOf t)).dropUncarried
  | .bringUp => s.fabEvt 5
  | .wake => (s.fabEvt 3).wakeDone (islandOf t)
  | .block => ((s.fabEvt 3).afterLoss sh false).dropUncarried
  | .join | .spare => s.fabEvt 3

/-- A spare's periodic BIST ends: passed, with a fresh seed; without one it leaves the spares, UNSEEDED (R160, R163, R164); failed,
it is retired. -/
def State.periodicDone (s : State) (t : Nat) (ok : Bool) : State :=
  let back (s : State) : State := s.setTile t (fun x => { x with periodic := false })
  if !ok then (((back (s.setFld (.fabTileStat t) 25 24 2)).retireSpare t).fabEvt 3).dropUncarried
  else match s.seedTile t with
    | .got _ _ s => back ((s.loadPatch t).setFld (.fabTileStat t) 25 24 1)
    | .failed =>
      let was := (s.tile t).joining
      let s := ((s.leaveShell t 3).setFld (.fabTileStat t) 25 24 3).setTile t (fun x =>
        { x with periodic := false, joining := none, bist := some .spare, unseeded := true })
      (s.afterLoss was false).dropUncarried
    | .wait => s

/-- The end of a tile's BIST, whose scrub has read the control store, which has reloaded patch RAM, and which has wiped the tile;
without a mask seed the tile stays OFFLINE, UNSEEDED (R163, R164, R210). -/
def State.tileBistDone (s : State) (t : Nat) (ok : Bool) : State :=
  match (s.tile t).bist with
  | none => if (s.tile t).periodic then (s.wr (.tilScrub t) (s.rd .genTime)).periodicDone t ok else s
  | some why =>
    -- a tile whose island has been gated meanwhile runs its BIST when the island wakes (R162, R168)
    if (s.tile t).unseeded ∨ s.tileState t = 5 then s
    else if !ok then
      ((s.setFld (.fabTileStat t) 25 24 2).setTile t (fun x => { x with bist := none })).bistFailed t why
    else match ((s.wr (.tilScrub t) (s.rd .genTime)).loadPatch t).seedTile t with
      | .got _ _ s => ((s.setFld (.fabTileStat t) 25 24 1).setTile t (fun x => { x with bist := none })).bistPassed t why
      | .failed =>
        ((s.wr (.tilScrub t) (s.rd .genTime)).loadPatch t |>.setFld (.fabTileStat t) 25 24 3).setTile t (fun x => { x with unseeded := true })
      | .wait => s

/-- TILE_BIST_COMPLETE. -/
def execTileBistComplete (t : Nat) (ok : Bool) (s : State) : Answer := .next (s.tileBistDone t ok)

/-- Tiles that waited for a seed take it now that an instance is instantiated (R164, R350). -/
def State.seedWaiting (s : State) : State :=
  s.each (below 96 (fun t => (s.tile t).unseeded)) (fun s t =>
    if s.drbState (s.maskDrb t) = 0 then s
    else (s.setTile t (fun x => { x with unseeded := false })).tileBistDone t true)

/-! ### Mask budgets (R157, R158) -/

/-- MASK_RESEED_REQUEST: past 3,584 jobs; the reseed is taken between two jobs. -/
def execMaskReseedRequest (t : Nat) (s : State) : Answer :=
  if tget 0 t s.maskJobs < 3584 then .next s
  else
    let s := s.setBit (.fabTileStat t) 26 true
    if (s.tile t).running then .next s
    else match s.seedTile t with
      | .got _ _ s => .next s
      | _ => .next s

/-- MASK_BUDGET_SPENT: 4,096 jobs without a reseed; the first such tile of the device is reported. -/
def execMaskBudgetSpent (t : Nat) (s : State) : Answer :=
  if tget 0 t s.maskJobs < 4096 then .next s
  else
    let others := s.maskJobs.any (fun e => decide (e.1 ≠ t) && decide (4096 ≤ e.2))
    .next ((s.onlyIf (!others) (·.fabEvt 6)).dropUnmasked)

/-! ### Tile commands (R165) -/

/-- CMD_RESULT: 0 OK, 1 BUSY, 2 REFUSED. -/
def State.tileResult (s : State) (t x : Nat) : State := s.setFld (.fabTileStat t) 30 28 x

/-- A tile belongs to a pool being re-rigged, or joins it (Table 08-9 step 4). -/
def State.tileReRigging (s : State) (t : Nat) : Bool :=
  match s.shellOf t with
  | some sh => s.reRigging (s.shellPool sh)
  | none => decide ((s.tile t).bist = some .join) || (s.claimed t && s.reRig.any (·.committed))

/-- A command on tile `t`: 1 BRING_UP, 2 RETIRE (Table 04-10). -/
def State.tileCmd (s : State) (t cmd : Nat) : State :=
  let st := s.tileState t
  if cmd ≠ 1 ∧ cmd ≠ 2 then s
  else if st = 3 ∨ s.tileReRigging t then s.tileResult t 1
  else if st = 5 then s.tileResult t 2
  else if cmd = 1 then
    if st = 1 ∨ st = 2 then s.tileResult t 2
    else ((s.tileResult t 0).leaveShell t 3).setTile t (fun x => { x.wipe with bist := some .bringUp, back := 0 })
  else
    let s := s.tileResult t 0
    match st, s.shellOf t with
    | 1, some sh => (((s.setTile t (fun x => { x with back := 4 })).setShellState sh 4).vacated 0 (.shell sh)).dropUncarried
    | 2, _ => (s.retireSpare t).dropUncarried
    | _, _ => s

/-- FAB_TILE_BRING_UP. -/
def execFabTileBringUp (t : Nat) (s : State) : Answer := .next (s.hostTo (.fabTileCmd t) (·.tileCmd t 1))

/-- FAB_TILE_RETIRE. -/
def execFabTileRetire (t : Nat) (s : State) : Answer := .next (s.hostTo (.fabTileCmd t) (·.tileCmd t 2))

/-! ### Islands (R166 to R169) -/

/-- EFF_FREQ: the slower of FREQ and a ceiling. -/
def State.effFreq (s : State) (n : Nat) : State :=
  s.setFld (.fabIslStat n) 1 0 (max (s.fld (.fabIslCtrl n) 1 0) (s.fld (.fabIslStat n) 3 2))

/-- A write of FREQ. -/
def State.writeFreq (s : State) (n fq : Nat) : State := (s.setFld (.fabIslCtrl n) 1 0 (min 2 fq)).effFreq n

/-- ISLAND_FREQ_WRITE. -/
def execIslandFreqWrite (n fq : Nat) (s : State) : Answer := .next (s.hostTo (.fabIslCtrl n) (·.writeFreq n fq))

/-- A write of GATE = 1. -/
def State.writeGate (s : State) (n : Nat) : State := (s.setBit (.fabIslCtrl n) 4 true).gateIsland n

/-- ISLAND_GATE. -/
def execIslandGate (n : Nat) (s : State) : Answer := .next (s.hostTo (.fabIslCtrl n) (·.writeGate n))

/-- ISLAND_POWER_OFF: every tile of a draining island is idle; its tiles and shells read GATED. -/
def State.powerOff (s : State) (n : Nat) : State :=
  let ts := (List.range 12).map (12 * n + ·)
  let shs := below 96 (fun sh => s.shellState sh != 0 && s.fld (.fabShellMap sh) 14 12 == n)
  if s.fld (.fabIslStat n) 6 4 ≠ 1 ∨ ts.any (fun t => (s.tile t).running) ∨ shs.any (fun sh => !(s.onUnit (.shell sh)).isEmpty) then s
  else
    let s := s.each ts (fun s t =>
      let st := s.tileState t
      (s.setTile t (·.gate st)).setTileState t 5)
    ((s.each shs (fun s sh => s.setShellState sh 5)).setFld (.fabIslStat n) 6 4 3).dropUncarried

/-- ISLAND_POWER_OFF. -/
def execIslandPowerOff (n : Nat) (s : State) : Answer := .next (s.powerOff n)

/-- A write of GATE = 0; during a live re-rig of a pool with shells on the island it waits (R294). -/
def State.writeUngate (s : State) (n : Nat) : State :=
  let s := s.setBit (.fabIslCtrl n) 4 false
  if s.gateHeld n then s.holdGate n else s.settleGate n

/-- ISLAND_UNGATE. -/
def execIslandUngate (n : Nat) (s : State) : Answer := .next (s.hostTo (.fabIslCtrl n) (·.writeUngate n))

/-- Power is restored to a waking island: its twelve tiles run BIST together (R168). -/
def State.powerOn (s : State) (n : Nat) : State :=
  if s.fld (.fabIslStat n) 6 4 ≠ 2 then s
  else s.each ((List.range 12).map (12 * n + ·)) (fun s t =>
    if s.tileState t = 5 then (s.setTileState t 3).setTile t (fun x => { x with bist := some (x.bist.getD .wake) }) else s)

/-- ISLAND_POWER_ON. -/
def execIslandPowerOn (n : Nat) (s : State) : Answer := .next (s.powerOn n)

end Sys2Proof.Machine
end

