-- ==== Sys2Proof/Machine/Lattice.lean ====
section
/-! DEFINITION. The jobs of ML-KEM, ML-DSA and HQC (R96 to R107): the operands, the checks, the draws, the slots and the outputs,
over the computations of FIPS 203 and FIPS 204, dealt to the tiles of the job's shell (R146 to R149). -/

namespace Sys2Proof.Machine

/-! ### ML-KEM (R97 to R101) -/

/-- Coefficients of an encapsulation key, 12 bits each, little-endian. -/
def ekCoeffs (set : Nat) (ek : Bytes) : List Nat :=
  (List.range (256 * (set + 1))).map (fun i => leAt ek (3 * i / 2) 2 / (if i % 2 = 0 then 1 else 16) % 4096)

/-- The modulus check of FIPS 203 on an encapsulation key (R98). -/
def modulusOk (set : Nat) (ek : Bytes) : Bool := (ekCoeffs set ek).all (fun c => decide (c < 3329))

/-- MLKEM_KEYGEN: from the supplied seed d and z, or from a draw (R97, R100). -/
def mlkemKeygen : JobOp where
  opcode := 0x0101
  draws := seedDraw 64
  result s j l :=
    let set := pSet (dParam j.desc)
    s.fill j (kemKeys set (s.dealing j).1 ((seedOf j l).take 32)).1 (seedOf j l) j.main.isEmpty

/-- MLKEM_ENCAPS: ct and K (R97, R98). -/
def mlkemEncaps : JobOp where
  opcode := 0x0102
  reject _ j := if pInline (dParam j.desc) && !modulusOk (pSet (dParam j.desc)) j.in2 then some (.reject 2 6) else none
  draws _ := [(true, 32)]
  result s j l := let e := kemEncaps (pSet (dParam j.desc)) (s.dealing j).1 (jobPub j) (nth l 0); .done (e.1 ++ e.2)

/-- MLKEM_DECAPS (R96, R101). -/
def mlkemDecaps : JobOp where
  opcode := 0x0103
  result s j _ := destroyAfter j (kemDecaps (pSet (dParam j.desc)) (s.dealing j).1 j.key j.main)

/-- MLKEM_KEYGEN. -/
def execMlkemKeygen (j : Nat) (s : State) : Answer := .next (s.runOp j mlkemKeygen)

/-- MLKEM_ENCAPS. -/
def execMlkemEncaps (j : Nat) (s : State) : Answer := .next (s.runOp j mlkemEncaps)

/-- MLKEM_DECAPS. -/
def execMlkemDecaps (j : Nat) (s : State) : Answer := .next (s.runOp j mlkemDecaps)

/-! ### ML-DSA (R102 to R105) -/

/-- The DER object identifier of a pre-hash selector, an arc of 2.16.840.1.101.3.4.2 (PRESUMED, log 14). -/
def hashOid (h : Nat) : Bytes :=
  [0x06, 0x09, 0x60, 0x86, 0x48, 0x01, 0x65, 0x03, 0x04, 0x02, match h with | 2 => 1 | 4 => 3 | 0xB => 0x0B | _ => 0x0C]

/-- The message that FIPS 204 and FIPS 205 sign: pure, or with the OID and digest of the pre-hash (R103, R109). -/
def framed (d : Bytes) (msg ctx : Bytes) : Bytes :=
  let h := pHash (dParam d)
  if h = 0 then [0] ++ b1 ctx.length ++ ctx ++ msg
  else [1] ++ b1 ctx.length ++ ctx ++ hashOid h ++ (if pDigestIn (dParam d) then msg else hashOf h msg)

/-- MLDSA_KEYGEN (R102). -/
def mldsaKeygen : JobOp where
  opcode := 0x0201
  draws := seedDraw 32
  result s j l :=
    s.fill j (dsaPublic (pSet (dParam j.desc)) (s.dealing j).1 (seedOf j l)) (seedOf j l) j.main.isEmpty

/-- MLDSA_SIGN: with rnd drawn, or zero under HEDGE_OFF (R104); in LANES one attempt a tile and round (R148, R149). -/
def mldsaSign : JobOp where
  opcode := 0x0202
  draws j := if dFlag j.desc 4 then [] else [(true, 32)]
  result s j l :=
    let set := pSet (dParam j.desc)
    let (n, lanes) := s.dealing j
    let rnd := if dFlag j.desc 4 then zeros 32 else nth l 0
    .done ((dsaSign lanes set n j.key (framed j.desc j.main j.ctx) rnd).getD (prim .endless (mldsaSig set) [b1 set, j.key, rnd]))

/-- MLDSA_VERIFY (R105). -/
def mldsaVerify : JobOp where
  opcode := 0x0203
  result s j _ := .verdict (dsaVerify (pSet (dParam j.desc)) (s.dealing j).1 (jobPub j) (framed j.desc j.main j.ctx) j.in3)

/-- MLDSA_KEYGEN. -/
def execMldsaKeygen (j : Nat) (s : State) : Answer := .next (s.runOp j mldsaKeygen)

/-- MLDSA_SIGN. -/
def execMldsaSign (j : Nat) (s : State) : Answer := .next (s.runOp j mldsaSign)

/-- MLDSA_VERIFY. -/
def execMldsaVerify (j : Nat) (s : State) : Answer := .next (s.runOp j mldsaVerify)

/-! ### HQC (R106, R107) -/

/-- Bytes of the message m of a set. -/
def hqcM (set : Nat) : Nat := pick [16, 24, 32] set

/-- n of a set: the bits of the vectors s and u (of the HQC specification). -/
def hqcN (set : Nat) : Nat := pick [17669, 35851, 57637] set

/-- Bits of the last byte of an n-bit vector that lie within n. -/
def hqcBits (set : Nat) : Nat := hqcN set % 8

/-- The padding check on an inline pk (R107). -/
def hqcPadOk (set : Nat) (pk : Bytes) : Bool := leAt pk (hqcPk set - 1) 1 < 2 ^ hqcBits set

/-- A string in which byte `o` keeps only the bits of an n-bit vector. -/
def hqcPad (set o : Nat) (bs : Bytes) : Bytes := bs.set o (BitVec.ofNat 8 (leAt bs o 1 % 2 ^ hqcBits set))

/-- HQC_KEYGEN: the secret key is the drawn seed and sigma followed by the public key (PRESUMED, log 14), whose padding bits are zero as
R107 asks of it. What its other bits are is left open (log 5). -/
def hqcKeygen : JobOp where
  opcode := 0x0601
  draws j := [(true, 40 + hqcM (pSet (dParam j.desc)))]
  result s j l :=
    let set := pSet (dParam j.desc)
    let pk := hqcPad set (hqcPk set - 1) (prim .hqcPk (hqcPk set) [b1 set, nth l 0])
    s.fill j pk (nth l 0 ++ pk) true

/-- The encryption of a message with its salt: u with its padding bits zero, v, and the salt. What u and v are is left open
(log 5). -/
def hqcEncrypt (set : Nat) (pk m salt : Bytes) : Bytes :=
  hqcPad set (hqcN set / 8) (prim .hqcCt (hqcCt set - 16) [b1 set, pk, m, salt]) ++ salt

/-- The shared secret of a message, or of the rejection value in its place, and the ciphertext. -/
def hqcSecret (set : Nat) (m ct : Bytes) : Bytes := prim .hqcK 64 [b1 set, m, ct]

/-- The shared secret of a decapsulation (R96, R107): the message is encrypted again, and a ciphertext that differs, in a padding
bit too, gives the implicit-rejection value of sigma. The key is the 40-byte seed, sigma and the public key (log 14). -/
def hqcDecap (set : Nat) (mat ct : Bytes) : Bytes :=
  let m := prim .hqcMsg (hqcM set) [b1 set, mat, ct]
  let again := hqcEncrypt set (mat.drop (40 + hqcM set)) m (ct.drop (hqcCt set - 16))
  hqcSecret set (if again = ct then m else slice mat 40 (hqcM set)) ct

/-- HQC_ENCAPS: ct and K (R106). -/
def hqcEncaps : JobOp where
  opcode := 0x0602
  reject _ j := if pInline (dParam j.desc) && !hqcPadOk (pSet (dParam j.desc)) j.in2 then some (.reject 2 5) else none
  draws j := [(true, hqcM (pSet (dParam j.desc)) + 16)]
  result _ j l :=
    let set := pSet (dParam j.desc)
    let m := (nth l 0).take (hqcM set)
    let ct := hqcEncrypt set (jobPub j) m ((nth l 0).drop (hqcM set))
    .done (ct ++ hqcSecret set m ct)

/-- HQC_DECAPS (R96, R101). -/
def hqcDecaps : JobOp where
  opcode := 0x0603
  result _ j _ := destroyAfter j (hqcDecap (pSet (dParam j.desc)) j.key j.main)

/-- HQC_KEYGEN. -/
def execHqcKeygen (j : Nat) (s : State) : Answer := .next (s.runOp j hqcKeygen)

/-- HQC_ENCAPS. -/
def execHqcEncaps (j : Nat) (s : State) : Answer := .next (s.runOp j hqcEncaps)

/-- HQC_DECAPS. -/
def execHqcDecaps (j : Nat) (s : State) : Answer := .next (s.runOp j hqcDecaps)

end Sys2Proof.Machine
end

