-- ==== Sys2Proof/Machine/HashSig.lean ====
section
/-! DEFINITION. The jobs of SLH-DSA, LMS/HSS and XMSS, the hypertree memo, and the counter cells of stateful keys
(R108 to R115, R221 to R233). -/

namespace Sys2Proof.Machine

/-! ### SLH-DSA (R108 to R110) -/

/-- SLHDSA_KEYGEN: SK.seed, SK.prf and PK.seed supplied or drawn; PK.root derived (R109). -/
def slhdsaKeygen : JobOp where
  opcode := 0x0301
  draws j := seedDraw (3 * slhN (pSet (dParam j.desc))) j
  result s j l :=
    let set := pSet (dParam j.desc)
    let mat := seedOf j l ++ slhRoot set ((seedOf j l).take (slhN set)) ((seedOf j l).drop (2 * slhN set))
    s.fill j (slice mat (2 * slhN set) (2 * slhN set)) mat j.main.isEmpty

/-- The trees of the memo's layers that a signature passes: in layer `i` the tree above bits `h' (i + 1)` of the index path
(R221, R223); the path is the message digest's. -/
def memoPath (j : Job) (rnd : Bytes) : List MemoKey :=
  let set := pSet (dParam j.desc)
  let n := slhN set
  let msg := framed j.desc j.main j.ctx
  let tree := (slhSplit set (slhDigest set (slhRandom set (slice j.key n n) rnd msg) (slice j.key (2 * n) n) (slice j.key (3 * n) n) msg)).2.1
  (below (slhD set) (fun i => decide (slhD set - attrMemo j.attr ≤ i))).map
    (fun i => ⟨j.slot.getD 0, i, tree / 2 ^ (slhH set * i)⟩)

/-- opt_rand of a signature: drawn, or PK.seed under HEDGE_OFF (R109). -/
def optRand (j : Job) (l : List Bytes) : Bytes :=
  let n := slhN (pSet (dParam j.desc))
  if dFlag j.desc 4 then slice j.key (2 * n) n else nth l 0

/-- SLHDSA_SIGN. -/
def slhdsaSign : JobOp where
  opcode := 0x0302
  draws j := if dFlag j.desc 4 then [] else [(true, slhN (pSet (dParam j.desc)))]
  result _ j l := .done (slhSign (pSet (dParam j.desc)) j.key (framed j.desc j.main j.ctx) (optRand j l))

/-- SLHDSA_VERIFY (R110). -/
def slhdsaVerify : JobOp where
  opcode := 0x0303
  result _ j _ := .verdict (slhVerify (pSet (dParam j.desc)) (jobPub j) (framed j.desc j.main j.ctx) j.in3)

/-- The entry of a tree, if it is held. -/
def State.memoAt (s : State) (k : MemoKey) : Option Bytes := (s.memo.find? (fun e => decide (e.1 = k))).map (·.2)

/-- The memo entries a SIGN has: those held when it read the slot, and those that SIGNs of the same key have written since (R225). -/
def State.memoOf (s : State) (x : Job) : List (MemoKey × Bytes) :=
  x.memo ++ (if s.holdsKey x then s.memo.filter (fun e => decide (e.1.slot = x.slot.getD 0) && !x.memo.any (fun m => decide (m.1 = e.1))) else [])

/-- Entries that a SIGN has built are written, unless another SIGN has written them, the slot has come to hold another key, or its
depth has fallen (R223, R225). -/
def State.writeMemo (s : State) (x : Job) (path : List MemoKey) : State :=
  let y := s.slotAt (x.slot.getD 0)
  let set := pSet (dParam x.desc)
  let n := slhN set
  let new := path.filter (fun k => (s.memoAt k).isNone && s.holdsKey x && decide (slhD set - attrMemo y.attr ≤ k.layer))
  { s with memo := s.memo ++ new.map (fun k => (k, memoEntry s.memoKey set (x.key.take n) (slice x.key (2 * n) n) k.slot k.layer k.tree)) }

/-- A memo entry cannot be read: counted; where in the memo region it lies is not stated, so the address held is a free value. -/
def State.memoUe (s : State) : State :=
  let (b, s) := s.draw 5
  s.ddrUe (leNat b)

/-- A signature that has drawn `l`, on whose path the entries of layers `ue` cannot be read: the entries found are checked and used,
and those missing are written; one that fails is discarded, and the job is re-executed (R221, R223, R224). -/
def State.signMemo (s : State) (x : Job) (l : List Bytes) (ue : List Nat) : State :=
  let path := memoPath x (optRand x l)
  let held := (s.memoOf x).filter (fun e => decide (e.1 ∈ path))
  let lost := held.filter (fun e => decide (e.1.layer ∈ ue))
  let bad := held.filter (fun e => decide (e.1.layer ∈ ue) || !s.ddrReady || !memoOk s.memoKey e.2)
  let s := s.each lost (fun s _ => s.memoUe)
  if bad.isEmpty then
    let sig := slhSign (pSet (dParam x.desc)) x.key (framed x.desc x.main x.ctx) (optRand x l)
      (fun layer tree => (held.find? (fun e => decide (e.1.layer = layer ∧ e.1.tree = tree))).map (·.2))
    (s.writeMemo x path).settle x (.done sig)
  else
    let s := ({ s with memo := s.memo.filter (fun e => !decide (e ∈ bad)) } : State).setJob x.id (fun y =>
      { y with memo := y.memo.filter (fun e => !decide (e ∈ bad)) })
    ((s.bump .hsfMemoRebuilt bad.length).hsfEvt 4).retry x.id true

/-- SLHDSA_KEYGEN. -/
def execSlhdsaKeygen (j : Nat) (s : State) : Answer := .next (s.runOp j slhdsaKeygen)

/-- SLHDSA_SIGN: with the slot's memo where it has one. -/
def execSlhdsaSign (j : Nat) (s : State) (ue : List Nat := []) : Answer :=
  match s.job? j with
  | none => .next s
  | some x =>
    if !s.computing slhdsaSign.opcode x then .next s
    else match s.drawAll x (slhdsaSign.draws x) with
      | .failed s => .next (s.jobEnds j (.fail 0x30 0))
      | .wait pr s => .next (s.waitDraw x pr)
      | .got l s => .next (s.signMemo x l ue)

/-- SLHDSA_VERIFY. -/
def execSlhdsaVerify (j : Nat) (s : State) : Answer := .next (s.runOp j slhdsaVerify)

/-! ### Stateful KEYGEN (R111 to R113, R227) -/

/-- Signatures the structure of a stateful KEYGEN holds. -/
def jobCapacity (j : Job) : Nat :=
  (capacityOf (dClass j.desc) (pSet (dParam j.desc)) (dAux j.desc) (dInline j.desc)).getD 0

/-- Bytes a stateful KEYGEN draws: a seed and the identifier I of an HSS key, or the three seeds of an XMSS key (log 66). -/
def statefulDraw (j : Job) : Nat :=
  if dClass j.desc = 4 then 48 else 3 * ((xmssPar (pSet (dParam j.desc)) (dAux j.desc)).map (·.n)).getD 0

/-- The material of a stateful key: its parameters and its secret seeds. -/
def statefulMat (j : Job) (seed : Bytes) : Bytes :=
  if dClass j.desc = 4 then leBytes 4 0 ++ dInline j.desc ++ seed else leBytes 4 (dAux j.desc) ++ seed

/-- A stateful KEYGEN with its drawn seed: takes the cell, requests LIMIT, and waits for the acknowledgement (R227). -/
def State.takeCell (s : State) (x : Job) (c : Nat) (seed : Bytes) : State :=
  let cap := jobCapacity x
  let s := s.setCell c { s.cell c with limit := 0, state := .used, next := some 0, cap := cap, writing := some (min 512 cap)
                                       freeing := false, waiters := [], rebuilding := false, traversal := none }
  let mat := statefulMat x seed
  let w := s.jobAttr x true mat.length true c
  let s := s.putTrav w mat 0
  s.setJob x.id (fun y => { y with sigIndex := some c, drawWait := false, drawn := []
                                   result := some (.fills (pubOf w mat) (.fill (x.slot.getD 0) w mat)) })

/-- A KEYGEN of class 0x04 or 0x05. -/
def State.statefulKeygen (s : State) (j op : Nat) : State :=
  match s.job? j with
  | none => s
  | some x =>
    if !s.computing op x then s
    else match x.newCell.orElse (fun _ => s.freeCell) with
      | none => s.settle x (.fail 0x17 0)
      | some c =>
        match s.drawAll x [(true, statefulDraw x)] with
        | .failed s => s.jobEnds j (.fail 0x30 0)
        | .wait pr s => s.waitDraw x pr
        | .got l s => s.takeCell x c (nth l 0)

/-- LMS_KEYGEN. -/
def execLmsKeygen (j : Nat) (s : State) : Answer := .next (s.statefulKeygen j 0x0401)

/-- XMSS_KEYGEN. -/
def execXmssKeygen (j : Nat) (s : State) : Answer := .next (s.statefulKeygen j 0x0501)

/-! ### Stateful SIGN (R114, R228 to R230) -/

/-- The signature of a stateful key with an index and the traversal state read with it (R114, R233). -/
def statefulSig (x : Job) (i : Nat) : Bytes :=
  if attrClass x.attr = 4 then hssSignWith x.key x.trav i x.main else xmssSignWith (attrSet x.attr) x.key x.trav i x.main

/-- A SIGN with its index signs; one without goes on waiting, unless its slot was emptied or no index is left (R230, R231). -/
def State.statefulSign (s : State) (j op : Nat) : State :=
  match s.job? j with
  | none => s
  | some x =>
    if !s.computing op x then s
    else match x.sigIndex with
      | some i => s.settle x (.done (statefulSig x i))
      | none =>
        let c := attrCell x.attr
        if j ∉ (s.cell c).waiters then s.settle x (.fail 0x15 (keyDetail 0 1))
        else if (s.cell c).exhausted then (s.dropWaiter c j).settle x (.fail 0x17 0) else s

/-- LMS_SIGN. -/
def execLmsSign (j : Nat) (s : State) : Answer := .next (s.statefulSign j 0x0402)

/-- XMSS_SIGN. -/
def execXmssSign (j : Nat) (s : State) : Answer := .next (s.statefulSign j 0x0502)

/-! ### Stateful VERIFY (R115) -/

/-- LMS_VERIFY. -/
def lmsVerify : JobOp where
  opcode := 0x0403
  result _ j _ := .verdict (hssVerify (jobPub j) j.main j.in3)

/-- XMSS_VERIFY. -/
def xmssVerify : JobOp where
  opcode := 0x0503
  result _ j _ := .verdict (xmssCheck (pSet (dParam j.desc)) (jobPub j) j.main j.in3)

/-- LMS_VERIFY. -/
def execLmsVerify (j : Nat) (s : State) : Answer := .next (s.runOp j lmsVerify)

/-- XMSS_VERIFY. -/
def execXmssVerify (j : Nat) (s : State) : Answer := .next (s.runOp j xmssVerify)

/-! ### Counter events (R227 to R233) -/

/-- A KEYGEN's LIMIT has been acknowledged: its result stands (R227). -/
def State.keygenAcked (s : State) (c : Nat) : State :=
  s.each (s.jobs.filter (fun j => decide (j.newCell = some c) && decide (j.phase = .gathered) && j.result.isSome))
    (fun s j => s.setJob j.id (fun y => { y with phase := .computed }))

/-- The LIMIT in flight stands; a dip defers the write (R228, R232). -/
def State.counterWritten (s : State) (c : Nat) : State :=
  match (s.cell c).writing with
  | none => s
  | some l =>
    if s.tamper.dip.isSome then s
    else
      let x := { s.cell c with limit := l, writing := none }
      let s := s.setCell c (if x.next.isSome then x.ready else x)
      (s.keygenAcked c).giveIndices c

/-- The cell is free with a new generation; the commit of the DESTROY that waits for it can follow (R231). -/
def State.cellFreed (s : State) (c : Nat) : State :=
  if !(s.cell c).freeing || s.tamper.dip.isSome then s else s.setCell c (s.cell c).release

/-- The key that a counter cell serves: the attribute word and material of the first slot bound to it. -/
def State.cellKey (s : State) (c : Nat) : Option (DWord × Bytes) :=
  ((s.cellSlots c).head?).map (fun a => ((s.slotAt a).attr, (s.slotAt a).mat))

/-- The traversal state stands again for NEXT, and waiting SIGN jobs go on (R233). -/
def State.traversalRebuilt (s : State) (c : Nat) : State :=
  if !(s.cell c).rebuilding then s
  else
    let s := s.setCell c { s.cell c with rebuilding := false }
    let s := match s.cellKey c, (s.cell c).next with
      | some (w, mat), some i => s.putTrav w mat i
      | _, _ => s
    s.giveIndices c

end Sys2Proof.Machine
end

