-- ==== Sys2Proof/Machine/Attest.lean ====
section
/-! DEFINITION. The key hierarchy and the signed statements (R310 to R312, R320 to R323). -/

namespace Sys2Proof.Machine

/-- ASCII bytes of a string. -/
def ascii (x : String) : Bytes := x.toList.map (fun c => BitVec.ofNat 8 c.toNat)

/-- KMAC256 as the derivations use it: key, data, output bytes, customisation (R310). -/
def kmac256 (key data : Bytes) (n : Nat) (cs : String) : Bytes := kmac 64 false key data n (ascii cs)

/-- SERIAL. -/
def State.serial (s : State) : Bytes := s.otp.serial

/-- A device-secret slot's state: 0 empty, 1 partial, 2 valid, 3 words present and check word invalid (R389). -/
def secretState (ws : List Nat) : Nat :=
  let w (i : Nat) : Nat := (ws[i]?).getD 0
  if (ws.all (· == 0)) then 0
  else if w 8 = 2 ^ 32 - 1 - w 0 then 2
  else if w 8 = 0 then 1 else 3

/-- The 32-byte device secret: slot A if valid, else slot B (R389). -/
def State.deviceSecret (s : State) : Bytes :=
  let ws := if secretState s.otp.secretA = 2 then s.otp.secretA else s.otp.secretB
  (ws.take 8).flatMap (leBytes 4)

/-- ROOT (Table 09-3). -/
def State.root (s : State) : Bytes := if s.testRoot then sha3 32 (ascii "FJ9640-TEST-ROOT" ++ s.serial) else s.deviceSecret

/-- EPOCH_SECRET and EPOCH_ID; zero without an epoch. -/
def State.epochSecret (s : State) : Bytes := (s.bbram.epoch.map (·.1)).getD (zeros 32)
def State.epochId (s : State) : Nat := (s.bbram.epoch.map (·.2)).getD 0

/-- The vault root VR. -/
def State.vaultRoot (s : State) : Bytes := kmac256 s.root (s.epochSecret ++ leBytes 4 s.epochId) 32 "FJ9640 VAULT"

/-- The slice wrapping key of an owner. -/
def State.wrapKey (s : State) (owner : Nat) : Bytes := kmac256 s.vaultRoot (leBytes 2 owner) 32 "FJ9640 SWK"

/-- The vault encryption key VEK: two AES-256 keys (Table 09-3). -/
def State.vaultKey (s : State) : Bytes := kmac256 s.vaultRoot [] 64 "FJ9640 VEK"

/-- A device key pair: the ML-DSA-65 seed and the P-384 scalar (DIK under ROOT, KAK under VR). -/
def State.deviceKey (s : State) (kak : Bool) : Bytes × Nat :=
  let k := if kak then s.vaultRoot else s.root
  let a := kmac256 k s.serial 32 (if kak then "FJ9640 KAK" else "FJ9640 DIK")
  let b := kmac256 k s.serial 56 (if kak then "FJ9640 KAK EC" else "FJ9640 DIK EC")
  (a, beNat b % (p384.n - 1) + 1)

/-- The ML-DSA-65 public key of a seed. -/
def dsaPub (seed : Bytes) : Bytes := dsaPublic 2 1 seed

/-- The SEC 1 point of a P-384 scalar. -/
def p384Pub (d : Nat) : Bytes := p384.encode (p384.mul d (some (p384.gx, p384.gy)))

/-- The two signatures that end a statement (R320), over its earlier bytes with a context string, hedged by two draws. -/
def signStatement (key : Bytes × Nat) (cs : String) (body rnd rnd2 : Bytes) : Bytes :=
  let msg := [0] ++ b1 (ascii cs).length ++ ascii cs ++ body
  body ++ (dsaSign false 2 1 key.1 msg rnd).getD (prim .endless 3309 [key.1, msg, rnd])
    ++ (p384.sign 3 key.2 (hashOf 3 body) rnd2).getD (prim .endless 96 [body, rnd2])

/-- FLAGS.TEST. -/
def State.testFlag (s : State) : Nat := if s.testRoot then 1 else 0

/-- GEN_BOOT_SEQ. -/
def State.bootSeq (s : State) : Nat := s.fld .genBootSeq 31 0

/-- The key-origin statement without its signatures (Table 09-6). -/
def State.originBody (s : State) (nonce : Bytes) (w : DWord) (slot : Nat) (pub : Bytes) : Bytes :=
  [0x46, 0x4A, 0x4B, 0x4F, 1] ++ b1 s.testFlag ++ zeros 2 ++ s.serial ++ nonce ++ leBytes 8 (setB w 1 false).toNat
    ++ leBytes 4 slot ++ leBytes 4 s.epochId ++ (if pub.isEmpty then zeros 48 else hashOf 3 pub) ++ leBytes 4 s.bootSeq ++ zeros 4

/-- The key-origin statement (R322). -/
def State.originStatement (s : State) (nonce : Bytes) (w : DWord) (slot : Nat) (mat rnd rnd2 : Bytes) : Bytes :=
  signStatement (s.deviceKey true) "FJ9640-KEYORIGIN"
    (s.originBody nonce w slot (if attrClass w = 0x0D then [] else pubOf w mat)) rnd rnd2

/-- The identity record (R321, Table 09-5). -/
def State.identityRecord (s : State) (rnd rnd2 : Bytes) : Bytes :=
  let dik := s.deviceKey false
  let kak := s.deviceKey true
  let body : Bytes := [0x46, 0x4A, 0x49, 0x44, 1] ++ b1 s.testFlag ++ zeros 2 ++ s.serial ++ leBytes 4 s.epochId ++ zeros 4
    ++ dsaPub dik.1 ++ p384Pub dik.2 ++ zeros 3 ++ dsaPub kak.1 ++ p384Pub kak.2 ++ zeros 3
  signStatement dik "FJ9640-IDREC" body rnd rnd2

/-- RIG_DIGEST of an image: SHA-384 of its signed part (R273). -/
def Rig.digest (r : Rig) : Bytes := hashOf 3 r.signed

/-- The identity-and-measurement statement (R323, Table 09-7). -/
def State.measureStatement (s : State) (nonce rnd rnd2 : Bytes) : Bytes :=
  let recovery := s.fld .genState 3 0 == 3
  let body : Bytes := [0x46, 0x4A, 0x49, 0x4D, 1] ++ b1 (s.testFlag + (if recovery then 2 else 0)) ++ b1 (s.fld .lcsState 3 0)
    ++ [0] ++ s.serial ++ nonce ++ leBytes 4 (s.fld .dbgRights 31 0) ++ leBytes 4 s.bbram.summary
    ++ (s.boot.firmware.map (·.digest)).getD (zeros 48) ++ (s.rig.map Rig.digest).getD (zeros 48)
    ++ (s.boot.patch.map (·.digest)).getD (zeros 48) ++ leBytes 4 s.bootSeq ++ leBytes 4 s.epochId
    ++ b1 ((s.boot.firmware.map (·.svn)).getD 0) ++ b1 s.otp.rigSvn ++ b1 s.otp.patchSvn
    ++ b1 (if s.rig.isSome then s.fld .genState 6 6 else 0xFF) ++ zeros 4
  signStatement (s.deviceKey false) "FJ9640-IDMEAS" body rnd rnd2

end Sys2Proof.Machine
end

