-- ==== Sys2Proof/Machine/Rsa.lean ====
section
/-! DEFINITION. The jobs of RSA (R124 to R126, R135). The encodings are those of PKCS #1, which the spec names (PRESUMED,
log 14). -/

namespace Sys2Proof.Machine

/-- Modulus and exponent a public operation works under (R124). -/
def rsaPublic (j : Job) : Nat × Nat :=
  if pInline (dParam j.desc) then (beNat j.in2, leAt j.desc 96 8) else ((rsaKey j.key).n, (rsaKey j.key).e)

/-- The modulus length k of a job. -/
def rsaK (j : Job) : Nat := if pInline (dParam j.desc) then j.in2.length else leAt j.key 0 4

/-- The checks of R124 on an inline key. -/
def rsaInlineFail (j : Job) : Option Result :=
  let (n, e) := rsaPublic j
  if pInline (dParam j.desc) && (leAt j.in2 0 1 == 0 || n % 2 == 0 || e % 2 == 0 || decide (e < 3)) then some (.reject 2 3) else none

/-- The range of a representative (R125). -/
def repFail (m n : Nat) : Option Result :=
  if m = 0 then some (.reject 1 1) else if m = 1 then some (.reject 1 2) else if n ≤ m then some (.reject 1 3) else none

/-- The secret-key operation by the Chinese remainder theorem. -/
def RsaKey.crt (r : RsaKey) (c : Nat) : Nat :=
  let m1 := powMod c r.dp r.p
  let m2 := powMod c r.dq r.q
  m2 + r.q * (r.qi * (m1 + r.p - m2 % r.p) % r.p)

/-! ### Encodings of PKCS #1 -/

/-- Two strings XORed. -/
def xorBytes (a b : Bytes) : Bytes := List.zipWith (· ^^^ ·) a b

/-- The last arc of a hash function's object identifier under 2.16.840.1.101.3.4.2. -/
def hashArc (h : Nat) : Nat := match h with
  | 1 => 4 | 2 => 1 | 3 => 2 | 4 => 3 | 5 => 5 | 6 => 6 | h => h

/-- EMSA-PKCS1-v1_5 of a digest, in k bytes. -/
def emsaV15 (h : Nat) (dig : Bytes) (k : Nat) : Bytes :=
  let t : Bytes := [0x30, BitVec.ofNat 8 (17 + dig.length), 0x30, 0x0D, 0x06, 0x09, 0x60, 0x86, 0x48, 0x01, 0x65, 0x03, 0x04, 0x02,
    BitVec.ofNat 8 (hashArc h), 0x05, 0x00, 0x04, BitVec.ofNat 8 dig.length] ++ dig
  [0, 1] ++ List.replicate (k - t.length - 3) 0xFF ++ [0] ++ t

/-- Clear the top bits of the first byte so that `bits` bits are left in the string. -/
def clearTop (bits : Nat) (bs : Bytes) : Bytes :=
  match bs with
  | [] => []
  | b :: r => BitVec.ofNat 8 (b.toNat % 2 ^ (8 - (8 * bs.length - bits))) :: r

/-- EMSA-PSS of a digest with a salt, `bits` bits long; none if it does not fit. -/
def emsaPss (h : Nat) (dig salt : Bytes) (bits : Nat) : Option Bytes :=
  let len := (bits + 7) / 8
  if len < dig.length + salt.length + 2 then none
  else
    let hh := hashOf h (zeros 8 ++ dig ++ salt)
    let db := zeros (len - salt.length - dig.length - 2) ++ [1] ++ salt
    some (clearTop (bits - 8 * (dig.length + 1)) (xorBytes db (mgf1 h hh db.length)) ++ hh ++ [0xBC])

/-- A PSS encoding is consistent with a digest under a salt length. -/
def pssOk (h : Nat) (dig em : Bytes) (sLen bits : Nat) : Bool :=
  let len := (bits + 7) / 8
  let hl := dig.length
  let db := em.take (len - hl - 1)
  let hh := slice em (len - hl - 1) hl
  let x := clearTop (bits - 8 * (hl + 1)) (xorBytes db (mgf1 h hh db.length))
  decide (hl + sLen + 2 ≤ len) && em.length == len && leAt em (len - 1) 1 == 0xBC && clearTop (bits - 8 * (hl + 1)) db == db
    && allZero (x.take (len - hl - sLen - 2)) && leAt x (len - hl - sLen - 2) 1 == 1
    && hashOf h (zeros 8 ++ dig ++ x.drop (len - hl - sLen - 1)) == hh

/-- EME-OAEP of a message in k bytes. -/
def oaepEncode (h : Nat) (msg label seed : Bytes) (k : Nat) : Bytes :=
  let hl := hashLen h
  let db := hashOf h label ++ zeros (k - msg.length - 2 * hl - 2) ++ [1] ++ msg
  let mdb := xorBytes db (mgf1 h seed db.length)
  [0] ++ xorBytes seed (mgf1 h mdb hl) ++ mdb

/-- The message of an EME-OAEP encoding. -/
def oaepDecode (h : Nat) (em label : Bytes) : Option Bytes :=
  let hl := hashLen h
  let mdb := em.drop (1 + hl)
  let seed := xorBytes (slice em 1 hl) (mgf1 h mdb hl)
  let db := xorBytes mdb (mgf1 h seed mdb.length)
  let r := (db.drop hl).dropWhile (· == 0)
  if leAt em 0 1 = 0 ∧ db.take hl = hashOf h label ∧ r.head? = some 1 then some (r.drop 1) else none

/-- The digest a signature is over. -/
def rsaDigest (j : Job) : Bytes := if pDigestIn (dParam j.desc) then j.main else hashOf (pHash (dParam j.desc)) j.main

/-- Bits of a PSS encoding under modulus `n`. -/
def pssBits (n : Nat) : Nat := n.log2

/-! ### Operations -/

/-- The two primes of a KEYGEN, half the modulus each, with the two top bits and the lowest set. -/
def rsaPrime (i k : Nat) (seed : Bytes) (e : Nat) : Nat :=
  let x := beNat (prim .rsaPrimes (k / 2) [b1 i, leBytes 4 k, leBytes 8 e, seed]) % 2 ^ (4 * k - 2)
  3 * 2 ^ (4 * k - 2) + x / 2 * 2 + 1

/-- The key of a KEYGEN: e is 65,537 where 0 is given (R124). -/
def rsaNew (k e0 : Nat) (seed : Bytes) : RsaKey :=
  let e := if e0 = 0 then 65537 else e0
  let p := rsaPrime 0 k seed e
  let q := rsaPrime 1 k seed e
  let d := (invMod e (Nat.lcm (p - 1) (q - 1))).getD 0
  ⟨p * q, e, p, q, d % (p - 1), d % (q - 1), (invMod (q % p) p).getD 0⟩

/-- RSA_KEYGEN (R124). -/
def rsaKeygen : JobOp where
  opcode := 0x0A01
  draws _ := [(true, 64)]
  result s j l :=
    let mat := rsaMat (rsaNew (dAux j.desc / 8) (leAt j.desc 96 8) (nth l 0))
    s.fill j (pubOf (s.jobAttr j true mat.length) mat) mat true

/-- Run a secret-key operation: blinding drawn, the result checked with the public exponent; a failed check is the core's
machine check RESULT_CHECK (R126, Table 07-4). -/
def State.runPrivate (s : State) (j : Nat) (o : JobOp) (rep : Job → List Bytes → Nat) : State :=
  match s.job? j with
  | none => s
  | some x =>
    if !s.computing o.opcode x then s
    else match o.reject s x with
    | some r => s.settle x r
    | none =>
      match s.drawAll x (o.draws x) with
      | .failed s => s.jobEnds j (.fail 0x30 0)
      | .wait pr s => s.waitDraw x pr
      | .got l s =>
        let k := rsaKey x.key
        if powMod (k.crt (rep x l)) k.e k.n = rep x l then s.settle x (o.result s x l)
        else match x.core with
          | some c => s.bneCheck c 10
          | none => s

/-- The representative of a signature: PKCS #1 v1.5, or PSS with the drawn salt. -/
def rsaSignRep (j : Job) (l : List Bytes) : Nat :=
  let p := dParam j.desc
  if pVariant p = 0 then beNat (emsaV15 (pHash p) (rsaDigest j) (rsaK j))
  else beNat ((emsaPss (pHash p) (rsaDigest j) ((nth l 0).take (dAux j.desc)) (pssBits (rsaKey j.key).n)).getD [])

/-- RSA_SIGN: the salt is the principal draw where there is one, else the blinding is. DESIGN CHOICE (log 67): a salt within the range
of Table 03-13 that the encoding of a modulus of 8k - 7 bits cannot hold is refused at step 6, operand 0xF0 with reason 3. -/
def rsaSign : JobOp where
  opcode := 0x0A02
  reject _ j :=
    if pVariant (dParam j.desc) = 1 ∧ (pssBits (rsaKey j.key).n + 7) / 8 < hashLen (pHash (dParam j.desc)) + dAux j.desc + 2 then
      some (.reject 0xF0 3) else none
  draws j := if pVariant (dParam j.desc) = 1 ∧ dAux j.desc ≠ 0 then [(true, dAux j.desc), (false, 32)] else [(true, 32)]
  result _ j l := .done (beBytes (rsaK j) ((rsaKey j.key).crt (rsaSignRep j l)))

/-- RSA_VERIFY: a signature of n or more is invalid (R125). -/
def rsaVerify : JobOp where
  opcode := 0x0A03
  reject _ j := rsaInlineFail j
  result _ j _ :=
    let p := dParam j.desc
    let (n, e) := rsaPublic j
    let m := powMod (beNat j.in3) e n
    .verdict (decide (beNat j.in3 < n) &&
      if pVariant p = 0 then beBytes (rsaK j) m == emsaV15 (pHash p) (rsaDigest j) (rsaK j)
      else decide (m < 2 ^ (8 * ((pssBits n + 7) / 8)))
        && pssOk (pHash p) (rsaDigest j) (beBytes ((pssBits n + 7) / 8) m) (dAux j.desc) (pssBits n))

/-- RSA_ENCRYPT: OAEP with a drawn seed (R124). -/
def rsaEncrypt : JobOp where
  opcode := 0x0A04
  reject _ j := rsaInlineFail j
  draws j := [(true, hashLen (pHash (dParam j.desc)))]
  result _ j l :=
    let (n, e) := rsaPublic j
    .done (beBytes (rsaK j) (powMod (beNat (oaepEncode (pHash (dParam j.desc)) j.main j.ctx (nth l 0) (rsaK j))) e n))

/-- RSA_DECRYPT: every decoding failure is refused alike (R125). -/
def rsaDecrypt : JobOp where
  opcode := 0x0A05
  reject _ j := repFail (beNat j.main) (rsaKey j.key).n
  draws _ := [(true, 32)]
  result _ j _ :=
    let em := beBytes (rsaK j) ((rsaKey j.key).crt (beNat j.main))
    match oaepDecode (pHash (dParam j.desc)) em j.ctx with
    | some m => .done m
    | none => .reject 1 8

/-- RAW_PRIVATE (R125). -/
def rawPrivate : JobOp where
  opcode := 0x0A08
  reject _ j := repFail (beNat j.main) (rsaKey j.key).n
  draws _ := [(true, 32)]
  result _ j _ := .done (beBytes (rsaK j) ((rsaKey j.key).crt (beNat j.main)))

/-- RAW_PUBLIC (R125). -/
def rawPublic : JobOp where
  opcode := 0x0A09
  reject _ j := (repFail (beNat j.main) (rsaPublic j).1).orElse (fun _ => rsaInlineFail j)
  result _ j _ := let (n, e) := rsaPublic j; .done (beBytes (rsaK j) (powMod (beNat j.main) e n))

/-- RSA_KEYGEN. -/
def execRsaKeygen (j : Nat) (s : State) : Answer := .next (s.runOp j rsaKeygen)

/-- RSA_SIGN. -/
def execRsaSign (j : Nat) (s : State) : Answer := .next (s.runPrivate j rsaSign rsaSignRep)

/-- RSA_VERIFY. -/
def execRsaVerify (j : Nat) (s : State) : Answer := .next (s.runOp j rsaVerify)

/-- RSA_ENCRYPT. -/
def execRsaEncrypt (j : Nat) (s : State) : Answer := .next (s.runOp j rsaEncrypt)

/-- RSA_DECRYPT. -/
def execRsaDecrypt (j : Nat) (s : State) : Answer := .next (s.runPrivate j rsaDecrypt (fun j _ => beNat j.main))

/-- RAW_PRIVATE. -/
def execRawPrivate (j : Nat) (s : State) : Answer := .next (s.runPrivate j rawPrivate (fun j _ => beNat j.main))

/-- RAW_PUBLIC. -/
def execRawPublic (j : Nat) (s : State) : Answer := .next (s.runOp j rawPublic)

end Sys2Proof.Machine
end

