-- ==== Sys2Proof/Machine/KeyOps.lean ====
section
/-! DEFINITION. The key-management jobs (R132 to R138, R225, R231, R307, R316, R317, R322). -/

namespace Sys2Proof.Machine

/-! ### Keys in clear (R135) -/

/-- Where an expanded ML-KEM key keeps the hash of ek (FIPS 203). -/
def dkHash (set : Nat) (mat : Bytes) : Bytes := slice mat (384 * (set + 1) + mlkemEk set) 32

/-- The check of Table 03-19 on key material in clear form: the reason of its refusal. -/
def clearFail (c set : Nat) (mat : Bytes) : Option Nat :=
  let scalar (c : Curve) (d : Nat) : Option Nat := if d = 0 then some 1 else if c.n ≤ d then some 3 else none
  match c with
  | 0x01 => if mat.length = 64 ∨ sha3 32 (mlkemPub set mat) = dkHash set mat then none else some 6
  | 0x02 => if mat.length = 32 ∨ shake 64 (dsaPublic set 1 mat) 64 = slice mat 64 64 then none else some 6
  | 0x03 =>
    let n := slhN set
    if slhRoot set (mat.take n) (slice mat (2 * n) n) = mat.drop (3 * n) then none else some 6
  | 0x08 => scalar (curveOf set) (beNat mat)
  | 0x0A => rsaImportFail mat
  | 0x10 => if set = 2 then scalar p384 (beNat (mat.drop 64)) else none
  | _ => none

/-- What a slot holds for a key given in clear form (Table 03-19). -/
def matOfClear (c : Nat) (bs : Bytes) : Bytes := if c = 0x0A then ((rsaParse bs).map (fun x => rsaMat x.2)).getD (leBytes 4 0) else bs

/-! ### GENERATE, IMPORT -/

/-- GENERATE (R134). -/
def generateOp : JobOp where
  opcode := 0x0D01
  draws j := [(true, if pSet (dParam j.desc) = 3 then 64 else 32)]
  result s j l := s.fill j [] (nth l 0) true

/-- IMPORT (R135). -/
def importOp : JobOp where
  opcode := 0x0D02
  reject _ j := (clearFail (leAt j.desc 96 1) (pSet (dParam j.desc)) j.main).map (Result.reject 1)
  result s j _ := s.fill j [] (matOfClear (leAt j.desc 96 1) j.main) false

/-- GENERATE. -/
def execGenerate (j : Nat) (s : State) : Answer := .next (s.runOp j generateOp)

/-- IMPORT. -/
def execImportKey (j : Nat) (s : State) : Answer := .next (s.runOp j importOp)

/-! ### WRAP, UNWRAP -/

/-- Bytes 0 to 47 of a device blob (Table 09-4). -/
def State.blobHead (s : State) (w : DWord) (gen : Nat) (iv : Bytes) (len : Nat) : Bytes :=
  let st := getB w 4
  let w' := setF (setF (setB w 1 false) 57 48 0) 62 58 0
  [0x46, 0x4A, 0x4B, 0x42, 1] ++ b1 s.testFlag ++ zeros 2 ++ leBytes 8 w'.toNat ++ leBytes 4 s.epochId
    ++ leBytes 2 (if st then attrCell w else 0) ++ leBytes 2 (if st then gen else 0)
    ++ iv ++ leBytes 4 len ++ zeros 8

/-- A device blob of a key under its owner's wrapping key (R316); `gen` is its cell's generation at the key read (R231). -/
def State.blob (s : State) (w : DWord) (gen : Nat) (mat iv : Bytes) : Bytes :=
  let h := s.blobHead w gen iv (clearForm w mat).length
  h ++ gcmSeal (s.wrapKey (attrOwner w)) iv h (clearForm w mat)

/-- The state with the epoch that a job met at its key read (Table 09-11). -/
def State.atEpoch (s : State) (j : Job) : State := { s with bbram := { s.bbram with epoch := j.epoch } }

/-- WRAP: a device blob of the epoch of the key read, or AES-KWP under KEY2_SLOT (R136, R316). -/
def wrapOp : JobOp where
  opcode := 0x0D03
  draws j := if isBlob j.desc then [(true, 12)] else []
  result s j l := .done (if isBlob j.desc then (s.atEpoch j).blob j.attr j.cellGen j.key (nth l 0) else kwpWrap j.key2 (clearForm j.attr j.key))

/-- WRAP. -/
def execWrap (j : Nat) (s : State) : Answer := .next (s.runOp j wrapOp)

/-- Check 1 of R317. -/
def blobFormOk (b : Bytes) : Bool :=
  decide (64 ≤ b.length) && b.take 5 == [0x46, 0x4A, 0x4B, 0x42, 1] && decide (leAt b 5 1 < 2) && allZero (slice b 6 2)
    && allZero (slice b 40 8) && leAt b 36 4 + 64 == b.length
    && (getB (BitVec.ofNat 64 (leAt b 8 8)) 4 || allZero (slice b 20 4))

/-- The attribute word a blob's key takes in the slot of slice `n` (R317). -/
def blobAttr (b : Bytes) (n : Nat) : DWord :=
  let w := BitVec.ofNat 64 (leAt b 8 8)
  setF (setF w 41 32 n) 57 48 (if getB w 4 then leAt b 20 2 else 0)

/-- UNWRAP of a device blob (R317). -/
def State.unwrapBlob (s : State) (j : Job) : Result :=
  let b := j.main
  let w := BitVec.ofNat 64 (leAt b 8 8)
  if !blobFormOk b then .reject 1 5
  else if leAt b 5 1 ≠ s.testFlag then .fail 0x16 0x200
  else if getB w 4 && !s.blobLive b then .fail 0x1B 0
  else match gcmOpen (s.wrapKey j.slice) (slice b 24 12) (b.take 48) (slice b 48 (leAt b 36 4)) (b.drop (48 + leAt b 36 4)) with
    | none => .reject 1 8
    | some p => .fills [] (.fill (j.slot.getD 0) (blobAttr b j.slice) (ofClear w p))

/-- UNWRAP under AES-KWP (R137): integrity, then length and check of the clear form. DESIGN CHOICE (log 67): a plaintext that has not
the clear form's length completes INPUT_REJECTED with operand 1 and reason 5, for which the spec names no status. -/
def State.unwrapKwp (s : State) (j : Job) : Result :=
  let (c, set) := keyAlg j.desc
  match kwpUnwrap j.key2 j.main with
  | none => .reject 1 8
  | some p =>
    if ((importLen c set).check p.length).isSome then .reject 1 5
    else match clearFail c set p with
      | some r => .reject 1 r
      | none => s.fill j [] (matOfClear c p) false

/-- UNWRAP. -/
def unwrapOp : JobOp where
  opcode := 0x0D04
  result s j _ := if isBlob j.desc then s.unwrapBlob j else s.unwrapKwp j

/-- UNWRAP. -/
def execUnwrap (j : Nat) (s : State) : Answer := .next (s.runOp j unwrapOp)

/-! ### DESTROY, ATTEST, SET_MEMO_DEPTH, GET_PUBLIC -/

/-- DESTROY: for the last slot bound to a cell the write that frees the cell is issued, and the commit waits for it (R231, R307). -/
def State.destroyJob (s : State) (j : Nat) : State :=
  match s.job? j with
  | none => s
  | some x =>
    if !s.computing 0x0D05 x then s
    else
      let a := x.slot.getD 0
      (s.settle x (.fills [] (.empty a))).freeFirst a

/-- DESTROY. -/
def execDestroy (j : Nat) (s : State) : Answer := .next (s.destroyJob j)

/-- ATTEST (R322). -/
def attestOp : JobOp where
  opcode := 0x0D06
  draws _ := [(true, 32), (false, 32)]
  result s j l := .done (s.originStatement (dInline j.desc) j.attr (j.slot.getD 0) j.key (nth l 0) (nth l 1))

/-- ATTEST. -/
def execAttest (j : Nat) (s : State) : Answer := .next (s.runOp j attestOp)

/-- SET_MEMO_DEPTH: the depth is set in the commit (R138, R225). -/
def setMemoOp : JobOp where
  opcode := 0x0D07
  result _ j _ := .fills [] (.memo (j.slot.getD 0) (dAux j.desc))

/-- SET_MEMO_DEPTH. -/
def execSetMemoDepth (j : Nat) (s : State) : Answer := .next (s.runOp j setMemoOp)

/-- GET_PUBLIC (R134). -/
def getPublicOp : JobOp where
  opcode := 0x0D08
  result _ j _ := .done (pubOf j.attr j.key)

/-- GET_PUBLIC. -/
def execGetPublic (j : Nat) (s : State) : Answer := .next (s.runOp j getPublicOp)

end Sys2Proof.Machine
end

