-- ==== Sys2Proof/Machine/Otp.lean ====
section
/-! DEFINITION. Life-cycle groups and device-secret slots in OTP: their words, the decode and what programming does (R385 to
R389, R392). -/

namespace Sys2Proof.Machine

/-- The constants C1 to C5 (R387). -/
def lcConst (g : Nat) : Nat := pick [0x5A3C96E1, 0x6C93A51E, 0x96A53C78, 0xC35A69B4, 0xA963C5D2] g

/-- A 32-bit rotate left by less than 32. -/
def rotl32 (x n : Nat) : Nat := (x * 2 ^ n + x / 2 ^ (32 - n)) % 2 ^ 32

/-- The value of word `w` of group `g`: pattern words 0 to 7, the intent word 8, the commit word 9. -/
def lcWord (g w : Nat) : Nat :=
  if w < 8 then rotl32 (lcConst g) (4 * w) else if w = 8 then 2 ^ 32 - 1 - rotl32 (lcConst g) 8 else 2 ^ 32 - 1 - lcConst g

/-- Word `w` of group `g` as OTP holds it. -/
def Otp.word (o : Otp) (g w : Nat) : Nat := (((o.groups[g - 1]?).getD [])[w]?).getD 0

/-- A word is valid. -/
def Otp.valid (o : Otp) (g w : Nat) : Bool := o.word g w == lcWord g w

/-- A word is bad: a bit lies outside its value. -/
def Otp.bad (o : Otp) (g w : Nat) : Bool := (o.word g w ||| lcWord g w) != lcWord g w

/-- A group is complete: all ten words are valid. -/
def Otp.complete (o : Otp) (g : Nat) : Bool := (List.range 10).all (o.valid g)

/-- Write a word; OTP bits go only from 0 to 1. -/
def Otp.setWord (o : Otp) (g w x : Nat) : Otp :=
  { o with groups := o.groups.mapIdx (fun i ws => if i + 1 = g then ws.mapIdx (fun j y => if j = w then y ||| x else y) else ws) }

/-- Program words of a group to their values. -/
def Otp.program (o : Otp) (g : Nat) (ws : List Nat) : Otp := ws.foldl (fun o w => o.setWord g w (lcWord g w)) o

/-- Program a whole group. -/
def Otp.finish (o : Otp) (g : Nat) : Otp := o.program g (List.range 10)

/-- Intent valid and commit not: the group a start completes (R392). -/
def Otp.intended (o : Otp) (g : Nat) : Bool := o.valid g 8 && !o.valid g 9

/-- The last of groups 1 to 4 up to which all are complete. -/
def Otp.chain (o : Otp) : Nat := ((List.range 4).takeWhile (fun i => o.complete (i + 1))).length

/-- The decode of R388: the state before, and the group that is to be completed. -/
def Otp.decode (o : Otp) : Nat × Option Nat :=
  if (List.range 5).any (fun i => (List.range 10).any (o.bad (i + 1))) || o.complete 5 then (5, none)
  else
    let st := o.chain
    if o.intended 5 then (st, some 5)
    else if st < 4 && o.intended (st + 1) then (st, some (st + 1))
    else (st, none)

/-- The decoded state. -/
def Otp.state (o : Otp) : Nat := (o.decode.2).getD o.decode.1

/-- A transition that the device permits (R385). -/
def lcLegal (st target : Nat) : Bool := st != 5 && (target == 5 || (target == st + 1 && decide (target ≤ 4)))

/-! ### The device secret (R389) -/

/-- Words of a device-secret slot for a 32-byte secret: eight words and the check word. -/
def secretWords (bs : Bytes) : List Nat := (List.range 8).map (fun i => leAt bs (4 * i) 4) ++ [2 ^ 32 - 1 - leAt bs 0 4]

/-- A valid secret is held. -/
def Otp.hasSecret (o : Otp) : Bool := secretState o.secretA == 2 || secretState o.secretB == 2

/-- No slot can take a secret: both hold bits and neither check word is valid. -/
def Otp.secretFull (o : Otp) : Bool := !o.hasSecret && secretState o.secretA != 0 && secretState o.secretB != 0

/-- Put words into the slot the transition uses: A, or B where A holds bits. -/
def Otp.putSecret (o : Otp) (ws : List Nat) : Otp := if secretState o.secretA = 0 then { o with secretA := ws } else { o with secretB := ws }

/-- The bits of a word whose programming failed: some of those asked for, never all. -/
def partialWord (old want r : Nat) : Nat := if old ||| (r &&& want) = want then old else old ||| (r &&& want)

/-- The check word of a digest: the complement of its first four bytes. -/
def checkWord (digest : Bytes) : Nat := 2 ^ 32 - 1 - leAt digest 0 4

/-- A position is programmed: its digest and its check word are complete and agree. -/
def posProgrammed (x : Bytes × Nat) : Bool := !(allZero x.1 && x.2 == 0) && x.2 == checkWord x.1

/-! ### Registers that show OTP as the last start read it (R406) -/

/-- LCS_OTP_GROUP. -/
def Otp.groupBits (o : Otp) (g : Nat) : Nat :=
  (if (List.range 8).all (o.valid g) then 1 else 0) + (if o.valid g 8 then 2 else 0) + (if o.valid g 9 then 4 else 0)
    + (if (List.range 10).any (o.bad g) then 8 else 0)

/-- LCS_OTP_GROUP. -/
def State.lcsGroups (s : State) : DWord := BitVec.ofNat 64 (((List.range 5).map (fun i => s.otp.groupBits (i + 1) * 16 ^ i)).sum)

/-- LCS_SECRET. -/
def State.lcsSecretReg (s : State) : DWord :=
  let a := secretState s.otp.secretA
  let b := secretState s.otp.secretB
  BitVec.ofNat 64 (a + b * 4 + (if a ≠ 2 ∧ b = 2 then 16 else 0))

/-- LCS_MIN. -/
def State.lcsMinReg (s : State) : DWord :=
  BitVec.ofNat 64 (s.otp.rigSvn % 64 + s.otp.patchSvn % 64 * 2 ^ 8 + s.otp.debugMin % 64 * 2 ^ 16 + s.otp.fwSvn % 64 * 2 ^ 24)

/-- The registers that show OTP take what a start reads of it. -/
def State.showOtp (s : State) : State :=
  let s := ((s.wr .lcsOtpGroup s.lcsGroups).wr .lcsSecret s.lcsSecretReg).wr .lcsMin s.lcsMinReg
  let s := s.wr .dbgAuthHId (BitVec.ofNat 64 (leAt s.otp.authH.1 0 4))
  s.wr .dbgAuthIId (if posProgrammed s.otp.authI then BitVec.ofNat 64 (leAt s.otp.authI.1 0 4) else 0)

end Sys2Proof.Machine
end

