-- ==== Sys2Proof/Machine/Tile.lean ====
section
/-! DEFINITION. The tile as a kernel sees it: registers, operand memory, instruction words and their checks, exceptions, and how an
instruction is issued (R176 to R201). -/

namespace Sys2Proof.Machine

/-! ### Registers (R176, R177) -/

/-- Scalar register `i`; s0 reads 0. -/
def Tile.sreg (x : Tile) (i : Nat) : Word := if i = 0 then 0 else tget 0 i x.s

/-- Write a scalar register; s0 ignores it. -/
def Tile.setS (x : Tile) (i : Nat) (v : Word) : Tile := if i = 0 then x else { x with s := tset i v x.s }

/-- A scalar register as a number. -/
def Tile.sn (x : Tile) (i : Nat) : Nat := (x.sreg i).toNat

/-- Bits of a lane at width `w`. -/
def laneBits (w : Nat) : Nat := 16 * 2 ^ w

/-- Short-vector register `i`. -/
def Tile.vreg (x : Tile) (i : Nat) : BitVec 256 := tget 0 i x.v

/-- Lanes of a short vector, lane 0 lowest. -/
def vLanes (w : Nat) (v : BitVec 256) : List Nat :=
  (List.range (256 / laneBits w)).map (fun k => v.toNat / 2 ^ (k * laneBits w) % 2 ^ laneBits w)

/-- A short vector from its lanes. -/
def vOf (w : Nat) (l : List Nat) : BitVec 256 := BitVec.ofNat 256 (l.foldr (fun a r => a % 2 ^ laneBits w + 2 ^ laneBits w * r) 0)

/-- Lanes of short-vector register `i`. -/
def Tile.vget (x : Tile) (w i : Nat) : List Nat := vLanes w (x.vreg i)

/-- Write a short-vector register by lanes. -/
def Tile.vset (x : Tile) (w i : Nat) (l : List Nat) : Tile := { x with v := tset i (vOf w l) x.v }

/-- Long-vector register `i`: 256 elements of 32 bits. -/
def Tile.preg (x : Tile) (i : Nat) : List Word := tget (List.replicate 256 0) i x.p

/-- A 64-bit word list as elements, low half first. -/
def splitWords (l : List Nat) : List Word := l.flatMap (fun a => [BitVec.ofNat 32 a, BitVec.ofNat 32 (a / 2 ^ 32)])

/-- Elements as 64-bit words. -/
def joinWords : List Word → List Nat
  | a :: b :: l => (a.toNat + 2 ^ 32 * b.toNat) :: joinWords l
  | _ => []

/-- Register elements as lanes of a width: low halves, whole elements, or 64-bit words (R177). -/
def lanesOf (w : Nat) (l : List Word) : List Nat :=
  match w with
  | 0 => l.map (fun e => e.toNat % 65536)
  | 1 => l.map BitVec.toNat
  | _ => joinWords l

/-- Lanes of a width as register elements; 16-bit results are zero-extended (R177). -/
def elemsOf (w : Nat) (l : List Nat) : List Word :=
  match w with
  | 0 => l.map (fun a => BitVec.ofNat 32 (a % 65536))
  | 1 => l.map (BitVec.ofNat 32)
  | _ => splitWords l

/-- A long vector at a width. -/
def Tile.pget (x : Tile) (w i : Nat) : List Nat := lanesOf w (x.preg i)

/-- Write a long vector at a width. -/
def Tile.pset (x : Tile) (w i : Nat) (l : List Nat) : Tile := { x with p := tset i (elemsOf w l) x.p }

/-- The modulus at a width. -/
def Tile.q (x : Tile) (w : Nat) : Nat := if w = 0 then x.cq16 else x.cq32

/-! ### Instruction words (R188, R189, R190, R194) -/

/-- What an opcode's word may hold: the widths; MOD bits allowed and required; which of D (1), A (2), B (4), C (8) it uses, which
of those are long vectors, which name pairs under MASK; how many low bits of IMM it uses; whether MOD is COND. -/
structure OpSpec where
  ws : List Nat := [0]
  mod : Nat := 0
  req : Nat := 0
  use : Nat := 0
  p : Nat := 0
  pair : Nat := 0
  imm : Nat := 0
  cond : Bool := false

/-- Table 05-5, the columns W and MOD and the fields of R189 each operation names. -/
def tileSpec (op : Nat) : Option OpSpec :=
  if 0x10 ≤ op ∧ op ≤ 0x17 then some { use := 7 }
  else match op with
  | 0x00 | 0x03 | 0x62 => some {}
  | 0x01 => some { use := 6, imm := 13, cond := true }
  | 0x02 => some { use := 6 }
  | 0x04 => some { use := 1, imm := 8 }
  | 0x05 => some { use := 2, imm := 8 }
  | 0x18 => some { use := 3, imm := 30 }
  | 0x19 => some { use := 1, imm := 30 }
  | 0x1A => some { use := 1, imm := 16 }
  | 0x1B => some { use := 6, cond := true }
  | 0x20 | 0x21 => some { ws := [0, 1, 2], mod := 4, use := 7 }
  | 0x22 | 0x23 => some { ws := [0, 1], use := 7 }
  | 0x24 => some { ws := [0, 1], mod := 1, use := 7 }
  | 0x25 | 0x26 | 0x27 | 0x2C | 0x2E => some { ws := [0, 1, 2], use := 7 }
  | 0x28 => some { ws := [0, 1, 2], use := 3, imm := 6 }
  | 0x29 => some { ws := [0, 1, 2], mod := 8, use := 3, imm := 6 }
  | 0x2A => some { ws := [0, 1], mod := 12, use := 7 }
  | 0x2B => some { ws := [2], use := 15 }
  | 0x2D => some { ws := [0, 1], use := 3, imm := 4 }
  | 0x30 | 0x31 => some { ws := [0, 1], mod := 4, use := 7, p := 7 }
  | 0x32 | 0x33 => some { ws := [0, 1], mod := 2, use := 7, p := 7, pair := 7 }
  | 0x34 | 0x35 => some { ws := [0, 1], mod := 3, use := 7, p := 7, pair := 5 }
  | 0x36 => some { ws := [0, 1, 2], use := 7, p := 7 }
  | 0x37 => some { ws := [0, 1, 2], mod := 2, use := 7, p := 7, pair := 7 }
  | 0x38 => some { ws := [0, 1, 2], use := 3, p := 3, imm := 6 }
  | 0x39 => some { ws := [0, 1, 2], mod := 8, use := 3, p := 3, imm := 6 }
  | 0x3A => some { ws := [0, 1], mod := 12, use := 7, p := 7 }
  | 0x3B => some { ws := [2], use := 15, p := 15 }
  | 0x3C => some { ws := [0, 1, 2], mod := 2, use := 3, p := 3, pair := 3 }
  | 0x3D => some { ws := [0, 1, 2], mod := 2, req := 2, use := 1, p := 1, pair := 1 }
  | 0x3E => some { ws := [0, 1, 2], use := 1, p := 1 }
  | 0x40 => some { ws := [0, 1], mod := 2, use := 3, p := 3, pair := 3, imm := 8 }
  | 0x41 => some { ws := [0, 1], mod := 2, use := 3, p := 3, pair := 3, imm := 9 }
  | 0x42 => some { mod := 2, use := 3, p := 1, pair := 1, imm := 16 }
  | 0x43 => some { ws := [0, 1], use := 1, p := 1, imm := 16 }
  | 0x44 | 0x45 => some { ws := [1], use := 1, p := 1, imm := 16 }
  | 0x46 => some { mod := 2, use := 3, p := 3, pair := 3, imm := 16 }
  | 0x47 => some { use := 3, p := 3, imm := 16 }
  | 0x48 => some { ws := [1], mod := 2, use := 11, p := 11, pair := 11, imm := 16 }
  | 0x49 => some { ws := [1], use := 11, p := 11 }
  | 0x4A => some { ws := [1], use := 15, p := 7, imm := 16 }
  | 0x4B => some { ws := [1], use := 7, p := 7, imm := 16 }
  | 0x4C => some { ws := [0, 1], mod := 2, use := 6, p := 2, pair := 2 }
  | 0x4D => some { ws := [0, 1], use := 14, p := 2, imm := 7 }
  | 0x4E => some { ws := [0, 1], use := 13, p := 1, imm := 7 }
  | 0x4F => some { ws := [0, 1], mod := 2, req := 2, use := 3, p := 3, pair := 3, imm := 16 }
  | 0x50 | 0x51 | 0x52 | 0x53 => some { use := 3, imm := 30 }
  | 0x54 | 0x55 => some { ws := [0, 1, 2], mod := 2, use := 3, p := 1, pair := 1, imm := 30 }
  | 0x56 => some { ws := [1], use := 7, p := 5, imm := 30 }
  | 0x60 => some { imm := 8 }
  | 0x61 | 0x63 => some { use := 6 }
  | 0x70 | 0x71 => some { use := 14 }
  | 0x72 => some { use := 14, imm := 16 }
  | 0x73 => some { use := 10 }
  | _ => none

/-- MOD bits: RED, MASK, SAT, RND. -/
def isRed (f : TileFields) : Bool := f.mod.testBit 0
def isMasked (f : TileFields) : Bool := f.mod.testBit 1
def isSat (f : TileFields) : Bool := f.mod.testBit 2
def isRnd (f : TileFields) : Bool := f.mod.testBit 3

/-- PARAM of format X. -/
def paramOf (f : TileFields) : Nat := f.imm.toNat % 65536

/-- A word is defined: no undefined OP, W, MOD bit, COND or register, no non-zero unused field (R188, R189, R194). -/
def wordLegal (op : Nat) (f : TileFields) : Bool :=
  match tileSpec op with
  | none => false
  | some o =>
    let field (bit v : Nat) : Bool :=
      if o.use &&& bit = 0 then v == 0
      else if o.p &&& bit = 0 then decide (v < 32)
      else decide (v < 16) && (o.pair &&& bit == 0 || !isMasked f || v % 2 == 0)
    decide (f.w ∈ o.ws)
      && (if o.cond then decide (f.mod ≤ 8) else f.mod &&& o.mod == f.mod && f.mod &&& o.req == o.req)
      && field 1 f.d && field 2 f.a && field 4 f.b && field 8 f.c
      && decide (f.imm.toNat < 2 ^ o.imm)
      && (op != 0x2C || f.w == 2 || f.b == 0)
      && (!(op == 0x4D || op == 0x4E) || (paramOf f).testBit 6 || f.c == 0)

/-- The fields of an instruction word (Table 05-4). -/
def decodeTile (w : Nat) : Nat × TileFields :=
  (w / 2 ^ 56 % 256, ⟨w / 2 ^ 54 % 4, w / 2 ^ 50 % 16, w / 2 ^ 45 % 32, w / 2 ^ 40 % 32, w / 2 ^ 35 % 32, w / 2 ^ 30 % 32, BitVec.ofNat 30 w⟩)

/-- COND on two scalars and cflag (R189). -/
def condHolds (c : Nat) (a b : Word) (flag : Bool) : Bool := match c with
  | 0 => true
  | 1 => a == b
  | 2 => a != b
  | 3 => a.slt b
  | 4 => !a.slt b
  | 5 => a.ult b
  | 6 => !a.ult b
  | 7 => flag
  | _ => !flag

/-! ### One instruction -/

/-- What an instruction's meaning is given: the tile with PC at the next instruction, the fields, the free values it may need, the
resume index, the beats after which a HALT request is due, what it has drawn, the watchpoint (address, length, write), and whether
the watchpoint's stop at the resume index has been passed. -/
structure TileArg where
  x : Tile
  f : TileFields
  rnd : Nat → Byte
  resume : Nat
  haltIn : Option Nat
  ctx : BeatCtx
  watch : Nat → Nat → Bool → Bool
  pass : Bool

/-- How an instruction ends. -/
inductive TileOut where
  /-- Complete, after a time in tc. -/
  | ok (x : Tile) (tc : Nat)
  /-- It waits for a transfer: nothing has happened yet. -/
  | wait
  /-- An exception: cause, address, the tile as it leaves it, the resume index, and the tc it took. -/
  | stop (cause addr : Nat) (x : Tile) (resume tc : Nat)
  /-- END on the stroke tile, with the output. -/
  | finish (out : Bytes) (tc : Nat)

/-- The meaning of an instruction. -/
abbrev Sem := TileArg → TileOut

/-- Complete with a tile, in one tc. -/
def TileOut.one (x : Tile) : TileOut := .ok x 1

/-- A fault before any effect. -/
def TileArg.fault (a : TileArg) (cause addr : Nat) : TileOut := .stop cause addr a.x 0 0

/-- A free number below `q`. -/
def TileArg.fresh (a : TileArg) (i q : Nat) : Nat := leNat ((List.range 8).map (fun k => a.rnd (8 * i + k))) % max 1 q

/-- `n` free numbers below `q`, of series `k`. -/
def TileArg.freshList (a : TileArg) (k n q : Nat) : List Nat := (List.range n).map (fun i => a.fresh (n * k + i) q)

/-! ### Masks and permutations (R155, R157, R186, R187) -/

/-- Mask bytes that one mask value takes (log 6). -/
def maskBytes : Nat := 8

/-- A residue modulo `q` from mask bytes. -/
def maskResidue (bs : Bytes) (q : Nat) : Nat := Config.maskResidue bs q % max 1 q

/-- `n` mask values modulo `q`, the series `k` of those an instruction draws. -/
def TileArg.masks (a : TileArg) (k n q : Nat) : List Nat :=
  (List.range n).map (fun i => maskResidue ((a.ctx.masks.drop (maskBytes * (n * k + i))).take maskBytes) q)

/-- The mask generator puts `n` further blocks of its stream into the FIFO. -/
def Tile.fillFifo (x : Tile) : Nat → Tile
  | 0 => x
  | n + 1 =>
    let a := if x.gen.isEmpty then keccakZero else x.gen
    Tile.fillFifo { x with fifo := x.fifo ++ (keccakBytes a).take 136, gen := keccakF a } n

/-- Draw `n` bytes from the mask FIFO, which the generator fills as far as they need; the wait for it is the same on every job. -/
def Tile.drawMask (x : Tile) (n : Nat) : Bytes × Tile :=
  let y := x.fillFifo ((n - x.fifo.length + 135) / 136)
  (y.fifo.take n, { y with fifo := y.fifo.drop n })

/-- A permutation of 0 to `n - 1` from `n` mask bytes: entry `i` is inserted at the place byte `i` gives. -/
def permOf (n : Nat) (bs : Bytes) : List Nat := (List.range n).foldl (fun l i => l.insertIdx (maskResidue ((bs.drop i).take 1) (i + 1)) i) []

/-- The tile shuffles its work: its pool's level is FULL or SHUFFLE. -/
def Tile.shuffles (x : Tile) : Bool := x.harden != 2

/-- Elements of a beat: 64 at W = 0, else 32 (two passes of the datapath). -/
def beatElems (w : Nat) : Nat := if w = 0 then 64 else 32

/-- Lanes of a beat: 64 of 16 bits, 32 of 32, or 16 words of 64. -/
def beatLanes (w : Nat) : Nat := if w = 2 then 16 else beatElems w

/-- An instruction that runs beat by beat in an order the tile may permute (R187). -/
def isBeats (op : Nat) : Bool := (decide (0x30 ≤ op) && decide (op ≤ 0x3E)) || op == 0x54 || op == 0x55

/-- Beats of an instruction: those of one register, or of a pair. -/
def beatCount (f : TileFields) : Nat := 256 / beatElems f.w * (if isMasked f then 2 else 1)

/-- Layers an NTT or INTT names. -/
def nttLayers (f : TileFields) : Nat := paramOf f / 16 % 16 + 1 - paramOf f % 16

/-- Mask values an instruction takes: those of MREFR and MSKP, and of the microcoded forms that refresh shares. -/
def maskNeed (op : Nat) (f : TileFields) : Nat := match op with
  | 0x3D | 0x3E => if f.w = 2 then 128 else 256
  | 0x42 | 0x46 => if isMasked f then 256 else 0
  | 0x48 => if isMasked f then 512 else 0
  | 0x4F => 256
  | _ => 0

/-- Mask bytes an instruction takes for its permutations after those of beats and lanes: the butterflies of each layer. -/
def flyNeed (op : Nat) (f : TileFields) : Nat := if op = 0x40 ∨ op = 0x41 then 128 * nttLayers f * (if isMasked f then 2 else 1) else 0

/-- What an instruction draws when it begins, and the tile with its FIFO drawn from. In a NONE pool, orders are natural. -/
def Tile.drawCtx (x : Tile) (op : Nat) (f : TileFields) : BeatCtx × Tile :=
  let n := beatCount f
  let l := beatLanes f.w
  let src := if isBeats op then x.preg (f.a % 16) else []
  if !x.shuffles then
    let (m, y) := x.drawMask (maskBytes * maskNeed op f)
    (⟨List.range n, List.range l, src, m⟩, y)
  else
    let (o, y) := if isBeats op then x.drawMask (n + l) else ([], x)
    let (m, y) := y.drawMask (maskBytes * maskNeed op f + flyNeed op f)
    if isBeats op then (⟨permOf n (o.take n), permOf l (o.drop n), src, m⟩, y) else (⟨List.range n, List.range l, src, m⟩, y)

/-! ### Operand memory (R179, Table 05-3) -/

/-- Bytes of operand memory. -/
def Tile.bytes (x : Tile) (addr n : Nat) : Bytes := Memory.read addr n x.mem

/-- Store bytes. -/
def Tile.store (x : Tile) (addr : Nat) (bs : Bytes) : Tile := { x with mem := Memory.write addr bs x.mem }

/-- The range touches the key area (R192). -/
def inKeyArea (addr n : Nat) : Bool := decide (0 < n) && decide (0x2E000 < addr + n) && decide (addr < 0x30000)

/-- A range a kernel may not access: outside the memory, or a write outside the general range. -/
def outOfBounds (addr n : Nat) (write : Bool) : Bool :=
  decide (0 < n) && (decide (0x30000 < addr + n) || (write && (decide (addr < 0x100) || decide (0x2E000 < addr + n))))

/-- A receive whose data has not arrived covers some byte of the range (R191). -/
def Tile.held (x : Tile) (addr n : Nat) : Bool :=
  x.xfers.any (fun e => match e with
    | .recv _ a m => decide (a < addr + n) && decide (addr < a + m)
    | _ => false)

/-- The checks on an access in order ALIGN, BOUNDS, then the wait for a receive and the watchpoint; `go` when none stops it. -/
def TileArg.access (a : TileArg) (addr n align : Nat) (write : Bool) (go : TileOut) : TileOut :=
  if addr % align ≠ 0 then a.fault 2 addr
  else if outOfBounds addr n write then a.fault 3 addr
  else if a.x.held addr n then .wait
  else if !a.pass && a.watch addr n write then a.fault 9 addr
  else go

/-- The address of format M. -/
def TileArg.addr (a : TileArg) : Nat := (a.x.sreg a.f.a + a.f.imm.signExtend 32).toNat

/-! ### Exceptions (R195 to R199) -/

/-- ATTACH. -/
def State.attached (s : State) (t : Nat) : Bool := s.bit (.tilDbgCtrl t) 0

/-- An access falls within an attached tile's watchpoint. -/
def State.watchHit (s : State) (t addr n : Nat) (write : Bool) : Bool :=
  let w := s.rd (.tilDbgWp t)
  s.attached t && getB w 63 && (write || !getB w 62) && decide (0 < n) && decide (getF w 17 0 < addr + n) && decide (addr ≤ getF w 49 32)
    && decide (getF w 17 0 ≤ getF w 49 32)

/-- An enabled breakpoint of an attached tile matches the instruction index. -/
def State.breakHit (s : State) (t pc : Nat) : Bool :=
  let hit (r : Reg) : Bool := s.bit r 31 && s.fld r 12 0 == pc
  s.attached t && (hit (.tilDbgBp0 t) || hit (.tilDbgBp1 t))

/-- An exception inside a microcoded instruction from its memory accesses (R197). DESIGN CHOICE (log 84): SPONGE of SAMPU, SAMPETA
and SIB, which comes before their first element, is precise. -/
def imprecise (op cause : Nat) : Bool := isMicro op && decide (cause ∈ [2, 3, 9])

/-- Write TIL_EXC_INFO and TIL_EXC_ADDR; the micro-address of an imprecise exception is a free value. -/
def State.recordExc (s : State) (t cause addr resume : Nat) (imp : Bool) : State :=
  let (b, s) := s.draw 2
  let v := cause + (if imp then 0x30 else 0) + resume * 2 ^ 8 + (s.tile t).pc * 2 ^ 20 + (if imp then leNat b % 8192 * 2 ^ 40 else 0) + 2 ^ 63
  (s.wr (.tilExcInfo t) (BitVec.ofNat 64 v)).setFld (.tilExcAddr t) 17 0 addr

/-- The job of a tile's shell is abandoned and re-executed, counted (R198). -/
def State.abandonJob (s : State) (t : Nat) : State :=
  match s.shellOf t with
  | none => s.wipeTile t
  | some sh => match (s.onUnit (.shell sh)).head? with
    | some x => s.retryOn (.shell sh) true x
    | none => s.wipeTile t

/-- An exception is recorded unless a record is held (R198, R210). -/
def State.noteExc (s : State) (t cause addr resume : Nat) (imp : Bool) : State :=
  if s.bit (.tilExcInfo t) 63 then s else s.recordExc t cause addr resume imp

/-- A kernel fault is counted; the debug stops are not faults (R195, R210). -/
def State.countFault (s : State) (t cause : Nat) : State := if cause ≤ 7 then s.bump (.tilKfaultCnt t) else s

/-- A kernel fault in service (R198). -/
def State.kernelFault (s : State) (t cause addr resume : Nat) (imp : Bool) : State :=
  ((s.countFault t cause).noteExc t cause addr resume imp).abandonJob t

/-- A tile halts. A resume restarts an imprecise one: no destination register of CBD, PACK or UNPACK is among its sources (R197). -/
def State.haltTile (s : State) (t cause addr resume : Nat) (ctx : BeatCtx) (instr : Option (Nat × TileFields)) (imp : Bool) : State :=
  (((s.setTile t (fun x => { x with halt := some ⟨cause, resume, ctx, instr, imp, imp⟩, haltIn := none })).setFld (.tilDbgStat t) 11 8
    cause).countFault t cause).noteExc t cause addr resume imp

/-- Nothing drawn: the context of a halt between two instructions. -/
def BeatCtx.none : BeatCtx := ⟨[], [], [], []⟩

/-- An exception of tile `t` at an instruction: a halt while attached, else a kernel fault. -/
def State.except (s : State) (t op : Nat) (f : TileFields) (cause addr resume : Nat) (ctx : BeatCtx) : State :=
  if s.attached t then s.haltTile t cause addr resume ctx (some (op, f)) (imprecise op cause)
  else s.kernelFault t cause addr resume (imprecise op cause)

/-! ### Issue -/

/-- The tile takes instructions now. -/
def Tile.issues (x : Tile) : Bool := x.running && !x.ended && x.halt.isNone

/-- END on the stroke tile: the output goes to the seal buffer, the job's result stands and the shell wipes (R193). -/
def State.endKernel (s : State) (t : Nat) (out : Bytes) : State :=
  let j := (s.shellOf t).bind (fun sh => (s.onUnit (.shell sh)).head?)
  let s := match j with
    | none => s.freeTile t
    | some x =>
      if x.pq.unit.isSome then
        (s.freeShells x).setJob x.id (fun y => { y with pq := { y.pq with phase := .computed, result := some (.done out) } })
      else s.settle x (.done out)
  s.setTile t (fun x => { x with sealBuf := out, sealOf := j.map (·.id) })

/-- The tile counts the time of an instruction, or of the part of one that has run. -/
def Tile.spend (x : Tile) (tc : Nat) : Tile := { x with cycles := (x.cycles + tc) % 2 ^ 32 }

/-- Run a legal instruction with what it has drawn: from `resume` on for one stopped part-way, `pass` when the watchpoint's stop
there has been passed. `y` is the tile as drawn from. A HALT request that the instruction has not met is taken when it ends (R196,
R197). -/
def State.runDrawn (s : State) (t op : Nat) (f : TileFields) (sem : Sem) (ctx : BeatCtx) (y : Tile) (resume : Nat) (pass : Bool) : State :=
  let x := s.tile t
  let s' := { s with freeCtr := s.freeCtr + 1 }
  match sem ⟨{ y with pc := (x.pc + 1) % 8192, passBp := false }, f, Config.random s.freeCtr, resume, x.haltIn, ctx, s.watchHit t, pass⟩ with
  | .wait => s
  | .ok z tc =>
    let r := s'.setTile t (fun _ => z.spend tc)
    if x.haltIn.isSome then r.haltTile t 10 0 0 .none Option.none false else r
  | .finish out tc =>
    let r := (s'.setTile t (·.spend tc)).endKernel t out
    if x.haltIn.isSome then r.haltTile t 10 0 0 .none Option.none false else r
  | .stop cause addr z r tc => (s'.setTile t (fun _ => { z.spend tc with pc := x.pc })).except t op f cause addr r ctx

/-- Run one instruction at PC: its breakpoint, its word, for a microcoded one its control-store words, then its effect. `held` is
what a stopped instruction had drawn. -/
def State.runInstr (s : State) (t op : Nat) (f : TileFields) (sem : Sem) (held : Option BeatCtx) (resume : Nat) (pass : Bool) : State :=
  let x := s.tile t
  if s.breakHit t x.pc && !x.passBp && held.isNone then s.except t op f 8 0 0 .none
  else if !wordLegal op f then s.except t op f 1 0 0 .none
  else
    let (ctx, y) := match held with
      | some c => (c, x)
      | none => x.drawCtx op f
    match if isMicro op then x.microcode s.freeCtr op else .done with
    | .check cause at_ => s.tileCheck t cause (some at_.word)
    | .endless => s
    | .done => s.runDrawn t op f sem ctx y resume pass

/-- Issue an instruction on tile `t`, which takes it only while it runs a kernel and is not halted. -/
def State.issueTile (s : State) (t op : Nat) (f : TileFields) (sem : Sem) : State :=
  if (s.tile t).issues then s.runInstr t op f sem none 0 false else s

end Sys2Proof.Machine
end

