-- ==== Sys2Proof/Machine/TileScalar.lean ====
section
/-! DEFINITION. The tile's control flow, control registers and scalar instructions: opcodes 0x00 to 0x1B (R178, R190, R192, R193). -/

namespace Sys2Proof.Machine

/-- NOP. -/
def semNop : Sem := fun a => .one a.x

/-- BR: 2 tc when taken. -/
def semBr : Sem := fun a =>
  if condHolds a.f.mod (a.x.sreg a.f.a) (a.x.sreg a.f.b) a.x.cflag then .ok { a.x with pc := a.f.imm.toNat % 8192 } 2 else .one a.x

/-- END (R192, R193): the stroke tile's output, or another tile's part done. -/
def semEnd : Sem := fun a =>
  let addr := a.x.sn a.f.a
  let n := a.x.sn a.f.b
  if a.x.pos ≠ 0 then (if n = 0 then .ok { a.x with ended := true } 2 else a.fault 4 addr)
  else if inKeyArea addr n then a.fault 4 addr
  else if 16384 < n then a.fault 3 addr
  else a.access addr n 1 false (.finish (a.x.bytes addr n) (2 + (n + 127) / 128))

/-- WAIT: complete once no background transfer is left. -/
def semWait : Sem := fun a => if a.x.xfers.isEmpty then .one a.x else .wait

/-- A control register as CSRR reads it; none for an undefined number. CWDOG is write-only and reads zero. -/
def Tile.csr (x : Tile) (n : Nat) : Option Nat := match n with
  | 0x00 => some x.cq16
  | 0x01 => some x.cq32
  | 0x02 => some x.pos
  | 0x03 => some x.size
  | 0x04 => some (if x.pos = 0 then 1 else 0)
  | 0x05 => some x.op
  | 0x06 => some x.param
  | 0x07 => some x.harden
  | 0x08 => some 0
  | 0x09 => some x.cycles
  | 0x0A => some (if x.cflag then 1 else 0)
  | _ => none

/-- A modulus in range: odd, 3 to `top`. -/
def modulusIn (top v : Nat) : Bool := v % 2 == 1 && decide (3 ≤ v) && decide (v ≤ top)

/-- A control register written; none for an undefined or read-only one, or a value out of range (R178). -/
def Tile.csrSet (x : Tile) (n v : Nat) : Option Tile := match n with
  | 0x00 => if modulusIn 16383 v then some { x with cq16 := v } else none
  | 0x01 => if modulusIn 1073741823 v then some { x with cq32 := v } else none
  | 0x08 => if v < x.phases then some { x with phase := v } else none
  | 0x0A => if v < 2 then some { x with cflag := v == 1 } else none
  | _ => none

/-- CSRR. -/
def semCsrr : Sem := fun a => match a.x.csr (a.f.imm.toNat % 256) with
  | some v => .one (a.x.setS a.f.d (BitVec.ofNat 32 v))
  | none => a.fault 5 0

/-- CSRW: 4 tc for the moduli. -/
def semCsrw : Sem := fun a =>
  let n := a.f.imm.toNat % 256
  match a.x.csrSet n (a.x.sn a.f.a) with
  | some y => .ok y (if n < 2 then 4 else 1)
  | none => a.fault 5 0

/-- A scalar instruction of two sources. -/
def scalar2 (op : Word → Word → Word) : Sem := fun a => .one (a.x.setS a.f.d (op (a.x.sreg a.f.a) (a.x.sreg a.f.b)))

/-- SADD. -/
def semSadd : Sem := scalar2 (· + ·)

/-- SSUB. -/
def semSsub : Sem := scalar2 (· - ·)

/-- SMUL: the 32 low bits. -/
def semSmul : Sem := scalar2 (· * ·)

/-- SAND. -/
def semSand : Sem := scalar2 (· &&& ·)

/-- SOR. -/
def semSor : Sem := scalar2 (· ||| ·)

/-- SXOR. -/
def semSxor : Sem := scalar2 (· ^^^ ·)

/-- SSHL: by s[B] mod 32. -/
def semSshl : Sem := scalar2 (fun x y => x <<< (y.toNat % 32))

/-- SSHR: logical, by s[B] mod 32. -/
def semSshr : Sem := scalar2 (fun x y => x >>> (y.toNat % 32))

/-- SADDI. -/
def semSaddi : Sem := fun a => .one (a.x.setS a.f.d (a.x.sreg a.f.a + a.f.imm.signExtend 32))

/-- SLI. -/
def semSli : Sem := fun a => .one (a.x.setS a.f.d (a.f.imm.signExtend 32))

/-- SLH: bits 31:16 of s[D]. -/
def semSlh : Sem := fun a =>
  .one (a.x.setS a.f.d (BitVec.ofNat 32 (a.x.sn a.f.d % 65536 + a.f.imm.toNat % 65536 * 65536)))

/-- SCMP: cflag takes the condition. -/
def semScmp : Sem := fun a => .one { a.x with cflag := condHolds a.f.mod (a.x.sreg a.f.a) (a.x.sreg a.f.b) a.x.cflag }

/-- NOP. -/
def execNop (t : Nat) (f : TileFields) (s : State) : Answer := .next (s.issueTile t 0x00 f semNop)

/-- BR. -/
def execBr (t : Nat) (f : TileFields) (s : State) : Answer := .next (s.issueTile t 0x01 f semBr)

/-- END. -/
def execEndKernel (t : Nat) (f : TileFields) (s : State) : Answer := .next (s.issueTile t 0x02 f semEnd)

/-- WAIT. -/
def execWait (t : Nat) (f : TileFields) (s : State) : Answer := .next (s.issueTile t 0x03 f semWait)

/-- CSRR. -/
def execCsrr (t : Nat) (f : TileFields) (s : State) : Answer := .next (s.issueTile t 0x04 f semCsrr)

/-- CSRW. -/
def execCsrw (t : Nat) (f : TileFields) (s : State) : Answer := .next (s.issueTile t 0x05 f semCsrw)

/-- SADD. -/
def execSadd (t : Nat) (f : TileFields) (s : State) : Answer := .next (s.issueTile t 0x10 f semSadd)

/-- SSUB. -/
def execSsub (t : Nat) (f : TileFields) (s : State) : Answer := .next (s.issueTile t 0x11 f semSsub)

/-- SMUL. -/
def execSmul (t : Nat) (f : TileFields) (s : State) : Answer := .next (s.issueTile t 0x12 f semSmul)

/-- SAND. -/
def execSand (t : Nat) (f : TileFields) (s : State) : Answer := .next (s.issueTile t 0x13 f semSand)

/-- SOR. -/
def execSor (t : Nat) (f : TileFields) (s : State) : Answer := .next (s.issueTile t 0x14 f semSor)

/-- SXOR. -/
def execSxor (t : Nat) (f : TileFields) (s : State) : Answer := .next (s.issueTile t 0x15 f semSxor)

/-- SSHL. -/
def execSshl (t : Nat) (f : TileFields) (s : State) : Answer := .next (s.issueTile t 0x16 f semSshl)

/-- SSHR. -/
def execSshr (t : Nat) (f : TileFields) (s : State) : Answer := .next (s.issueTile t 0x17 f semSshr)

/-- SADDI. -/
def execSaddi (t : Nat) (f : TileFields) (s : State) : Answer := .next (s.issueTile t 0x18 f semSaddi)

/-- SLI. -/
def execSli (t : Nat) (f : TileFields) (s : State) : Answer := .next (s.issueTile t 0x19 f semSli)

/-- SLH. -/
def execSlh (t : Nat) (f : TileFields) (s : State) : Answer := .next (s.issueTile t 0x1A f semSlh)

/-- SCMP. -/
def execScmp (t : Nat) (f : TileFields) (s : State) : Answer := .next (s.issueTile t 0x1B f semScmp)

end Sys2Proof.Machine
end

