-- ==== Sys2Proof/Machine/RigImage.lean ====
section
/-! DEFINITION. Rig images: the header, the records, and the eighteen checks of Table 08-6 (R271 to R285, R295, R377). -/

namespace Sys2Proof.Machine

/-- A failed check: its code, and DETAIL (R285). -/
abbrev RigFail := Nat × Nat

/-- DETAIL: record index (0xFFFF for the header and the blocks), and byte offset or word index. -/
def rigFail (code idx off : Nat) : Option RigFail := some (code, idx % 65536 + off % 65536 * 65536)

/-- The first failure of a list. -/
def firstFail (l : List (Option RigFail)) : Option RigFail := l.findSome? id

/-- A condition that must hold. -/
def need (ok : Bool) (code idx off : Nat) : Option RigFail := if ok then none else rigFail code idx off

/-! ### Signatures over an image (R273, R295, R446) -/

/-- A pure ML-DSA-65 signature with a context string verifies. -/
def dsaVerifies (pk msg sig : Bytes) (ctx : String) : Bool :=
  dsaVerify 2 1 pk ([0] ++ b1 (ascii ctx).length ++ ascii ctx ++ msg) sig

/-- An ECDSA P-384 signature with SHA-384 verifies. -/
def p384Verifies (pub msg sig : Bytes) : Bool :=
  (p384.pointFail 0 pub).isNone && p384.verify (p384.point pub) (hashOf 3 msg) sig

/-- SHA-384 of an authority's two keys (R274). -/
def authDigest (pkM pkE : Bytes) : Bytes := hashOf 3 (pkM ++ pkE)

/-- Bytes of the signature block and of the endorsement block. -/
def sigBlock : Nat := 5457
def endorseBlock : Nat := 5461

/-! ### OTP positions (R274, R395) -/

/-- The highest programmed rig-authority position. -/
def State.rigPosition (s : State) : Nat := ((below 8 (fun i => (s.otp.rigPos[i]?).any posProgrammed)).getLast?).getD 0

/-- The digest held in a rig-authority position. -/
def State.posDigest (s : State) (i : Nat) : Bytes := ((s.otp.rigPos[i]?).map (·.1)).getD []

/-! ### Header (R272) -/

/-- Header fields of an image. -/
def rigFlags (i : Bytes) : Nat := leAt i 7 1
def rigBody (i : Bytes) : Nat := leAt i 16 4
def rigPartialFlag (i : Bytes) : Bool := (rigFlags i).testBit 0
def rigEndorsed (i : Bytes) : Bool := (rigFlags i).testBit 2

/-- Length of an image as its header gives it. -/
def rigLen (i : Bytes) : Nat := 80 + rigBody i + sigBlock + (if rigEndorsed i then endorseBlock else 0)

/-- The bytes signed: everything before SIG_MLDSA (R273). -/
def rigSigned (i : Bytes) : Bytes := i.take (80 + rigBody i + 2052)

/-- Check 1: HEADER. -/
def rigHeader (i : Bytes) : Option RigFail :=
  let bad (ok : Bool) (off : Nat) := need ok 1 0xFFFF off
  firstFail [
    bad (i.take 4 == [0x46, 0x4A, 0x52, 0x47]) 0, bad (leAt i 4 2 == 1) 4, bad (decide (rigFlags i < 8)) 7, bad (leAt i 8 4 != 0) 8,
    bad (decide (leAt i 12 1 < 64)) 12, bad (rigBody i % 8 == 0) 16, bad (allZero (slice i 21 3)) 21,
    bad (rigPartialFlag i || allZero (slice i 24 48)) 24, bad (allZero (slice i 72 8)) 72,
    bad (i.length == rigLen i && decide (i.length ≤ 0x100000)) 16]

/-- Checks 5 and 6 against a digest: the keys, then both signatures and the form of the endorsement block. -/
def rigSignature (i digest : Bytes) : Option RigFail :=
  let b := 80 + rigBody i
  let e := b + sigBlock
  let pkM := slice i b 1952
  let pkE := slice i (b + 1952) 97
  firstFail [
    need (authDigest pkM pkE == digest) 5 0xFFFF 0,
    need (allZero (slice i (b + 2049) 3)) 6 0xFFFF 2049,
    need (dsaVerifies pkM (rigSigned i) (slice i (b + 2052) 3309) "FJ9640-RIG") 6 0xFFFF 2052,
    need (p384Verifies pkE (rigSigned i) (slice i (b + 5361) 96)) 6 0xFFFF 5361,
    need (!rigEndorsed i || (allZero (slice i (e + 1) 3) && allZero (slice i (e + 2053) 3))) 6 0xFFFF 1]

/-! ### Records (R275) -/

/-- A record: its index, type, instance and bytes. -/
structure RigRec where
  idx : Nat
  typ : Nat
  inst : Nat
  bs : Bytes
  deriving DecidableEq, Repr

/-- A field of a record. -/
def RigRec.at (r : RigRec) (o n : Nat) : Nat := leAt r.bs o n

/-- The length Table 08-3 gives for a record whose bytes begin with `bs`; none for an unknown TYPE. -/
def recLen (bs : Bytes) : Option Nat := match leAt bs 0 2 with
  | 1 => some 32 | 2 => some 16 | 3 => some 104 | 4 => some 64 | 5 => some 24
  | 6 => some (16 + 32 * leAt bs 10 2 + 8 * leAt bs 12 4)
  | 7 => some 32 | 8 => some 16 | 9 => some 48 | 10 => some 24 | 11 => some 16 | 12 => some 40
  | _ => none

/-- One more than the largest INSTANCE of a TYPE. -/
def instLimit : Nat → Nat
  | 2 | 7 | 8 => 8
  | 4 => 96
  | 5 => 32
  | 6 => 65536
  | 9 => 512
  | _ => 1

/-- Bytes of a record that its layout does not name, as ranges of offset and length. -/
def unnamed (bs : Bytes) : List (Nat × Nat) := match leAt bs 0 2 with
  | 1 => [(9, 7)]
  | 2 => [(11, 5)]
  | 4 => [(12, 4)]
  | 5 => [(13, 3), (18, 2)]
  | 6 => (List.range (leAt bs 10 2)).map (fun i => (16 + 32 * i + 11, 5))
  | 7 => [(10, 6)]
  | 8 => [(11, 5)]
  | 9 => [(11, 1)]
  | 11 => [(12, 4)]
  | _ => []

/-- Values within the ranges of Table 08-4: MC_LIMIT, FREQ and GATE. -/
def recRangeFail (bs : Bytes) : Option Nat := match leAt bs 0 2 with
  | 1 => if 1 ≤ leAt bs 8 1 ∧ leAt bs 8 1 ≤ 15 then none else some 8
  | 2 => if 3 ≤ leAt bs 8 1 then some 8 else if 2 ≤ leAt bs 9 1 then some 9 else none
  | _ => none

/-- Read `n` records from the body: check 7. `prev` is the last TYPE and INSTANCE. -/
def readRecs : Nat → Nat → Option (Nat × Nat) → Bytes → RigFail ⊕ List RigRec
  | 0, k, _, bs => if bs.isEmpty then .inr [] else .inl (7, k % 65536)
  | n + 1, k, prev, bs =>
    let fail (off : Nat) : RigFail ⊕ List RigRec := .inl (7, k % 65536 + off % 65536 * 65536)
    let t := leAt bs 0 2
    let i := leAt bs 2 2
    match recLen bs with
    | none => fail 0
    | some len =>
      if leAt bs 4 4 ≠ len ∨ bs.length < len then fail 4
      else if !(prev.map (fun p => decide (p.1 < t) || (p.1 == t && decide (p.2 < i)))).getD true then fail 0
      else match (unnamed (bs.take len)).find? (fun u => !allZero (slice bs u.1 u.2)), recRangeFail (bs.take len) with
        | some u, _ => fail u.1
        | none, some o => fail o
        | none, none => match readRecs n (k + 1) (some (t, i)) (bs.drop len) with
          | .inl e => .inl e
          | .inr rs => .inr (⟨k, t, i, bs.take len⟩ :: rs)

/-- The records of one type. -/
def ofType (rs : List RigRec) (t : Nat) : List RigRec := rs.filter (fun r => r.typ == t)

/-- The least and the most records of a TYPE in a full image (Table 08-3). -/
def recCount : Nat → Nat × Nat
  | 2 => (8, 8)
  | 4 => (0, 96)
  | 5 => (0, 32)
  | 7 | 8 => (0, 8)
  | 12 => (0, 1)
  | 6 | 9 => (0, 65536)
  | _ => (1, 1)

/-- Check 8: the counts of Table 08-3. A count that fits with an INSTANCE outside the table's range is refused as check 7's record
format (log 71). -/
def rigCounts (rs : List RigRec) : Option RigFail :=
  let n (t : Nat) := (ofType rs t).length
  firstFail ([1, 2, 3, 4, 5, 6, 7, 8, 9, 10, 11, 12].map (fun t => need (decide ((recCount t).1 ≤ n t) && decide (n t ≤ (recCount t).2)) 8 0xFFFF 14)
    ++ rs.map (fun r => need (decide (r.inst < instLimit r.typ) || r.typ == 4) 7 r.idx 2))

/-! ### The image as read -/

/-- The SLOTS of a shell record: masks up and down of each link (R278). -/
def shellSlots (r : RigRec) : List (Nat × Nat) := (List.range 12).map (fun k => (r.at (16 + 4 * k) 2, r.at (18 + 4 * k) 2))

/-- A SHELL record. -/
def shellOfRec (r : RigRec) : RigShell := ⟨r.inst, r.at 8 1, r.at 9 1, r.at 10 2, shellSlots r⟩

/-- A POOL record. -/
def poolOfRec (r : RigRec) : RigPool := ⟨r.inst, r.at 8 1, r.at 9 1, r.at 10 1, r.at 11 1, r.at 12 1, r.at 16 2, r.at 20 4⟩

/-- An entry of a KERNEL_SET record (Table 08-5). -/
def entryAt (r : RigRec) (i : Nat) : KernelEntry :=
  let o := 16 + 32 * i
  ⟨r.at o 2, r.at (o + 2) 1, r.at (o + 3) 1, r.at (o + 4) 4, r.at (o + 8) 2, r.at (o + 10) 1, (List.range 8).map (fun k => r.at (o + 16 + 2 * k) 2)⟩

/-- A KERNEL_SET record. -/
def ksetOfRec (r : RigRec) : KernelSet :=
  let e := r.at 10 2
  ⟨r.inst, r.at 8 1, r.at 9 1, (List.range e).map (entryAt r), (List.range (r.at 12 4)).map (fun i => r.at (16 + 32 * e + 8 * i) 8)⟩

/-- The rig an image with these records describes. -/
def rigOf (i : Bytes) (rs : List RigRec) : Rig :=
  let one (t : Nat) : RigRec := ((ofType rs t).head?).getD ⟨0, t, 0, []⟩
  { signed := rigSigned i, flags := rigFlags i, stepping := leAt i 6 1, version := leAt i 8 4, svn := leAt i 12 1, pos := leAt i 13 1
    minDdr := leAt i 20 1, base := slice i 24 48
    mcLimit := (one 1).at 8 1, memoBase := (one 1).at 16 8, memoSize := (one 1).at 24 8
    islands := (ofType rs 2).map (fun r => (r.at 8 1, r.at 9 1, r.at 10 1))
    roles := (List.range 96).map (fun t => (one 3).at (8 + t) 1)
    shells := (ofType rs 4).map shellOfRec
    pools := (ofType rs 5).map poolOfRec
    ksets := (ofType rs 6).map ksetOfRec
    parts := (ofType rs 7).map (fun r => ⟨r.inst, r.at 8 1, r.at 9 1, r.at 16 8, r.at 24 8⟩)
    groups := (ofType rs 8).map (fun r => ⟨r.inst, r.at 8 1, r.at 9 1, r.at 10 1⟩)
    slices := (ofType rs 9).map (fun r => ⟨r.inst, r.at 8 2, r.at 10 1, r.at 12 4, (List.range 32).map (fun p => r.at (16 + p) 1)⟩)
    banks := (List.range 16).map (fun b => (one 10).at (8 + b) 1)
    drbEnable := (one 11).at 8 2, drbScOnly := (one 11).at 10 2
    raise := (List.range 18).map (fun k => (one 12).at (8 + k) 1) }

/-- The record of an instance, as index for DETAIL. -/
def recIdx (rs : List RigRec) (t i : Nat) : Nat := ((rs.find? (fun r => r.typ == t && r.inst == i)).map (·.idx)).getD 0xFFFF

/-! ### Checks 9 to 18 -/

/-- Tiles of a shell record. -/
def RigShell.tileList (x : RigShell) : List Nat := ((List.range 12).filter (fun i => x.tiles.testBit i)).map (12 * x.isl + ·)

/-- An empty shell record. -/
def RigShell.empty (x : RigShell) : Bool := x.tiles == 0

/-- Check 9: every tile of a shell has ROLE 1, and every tile with ROLE 1 is in exactly one shell. -/
def checkRoles (r : Rig) (rs : List RigRec) : Option RigFail :=
  let used := r.shells.flatMap RigShell.tileList
  match firstBelow 96 (fun t =>
      let role := (r.roles[t]?).getD 0
      decide (2 < role) || used.count t != (if role = 1 then 1 else 0)) with
  | some t => rigFail 9 (recIdx rs 3 0) (8 + t)
  | none => none

/-- Links of a shell's span: from its lowest tile's stop up to its highest tile's. -/
def RigShell.span (x : RigShell) : List Nat :=
  match (List.range 12).filter (fun i => x.tiles.testBit i) with
  | [] => []
  | a :: l => (List.range 12).filter (fun k => decide (a ≤ k) && decide (k < (a :: l).getLast?.getD a))

/-- The set links form one unbroken arc of the ring: at most one set link follows a clear one. -/
def oneArc (used : Nat → Bool) : Bool :=
  decide (((List.range 12).filter (fun k => used k && !used ((k + 11) % 12))).length ≤ 1)

/-- The slot rules of R278 for one shell. -/
def shellSlotsOk (x : RigShell) : Bool :=
  let up (k : Nat) := ((x.slots[k]?).map (·.1)).getD 0
  let down (k : Nat) := ((x.slots[k]?).map (·.2)).getD 0
  if popCount 12 x.tiles ≤ 1 then (List.range 12).all (fun k => up k == 0 && down k == 0)
  else x.span.all (fun k => up k != 0 && down k != 0) && (List.range 12).all (fun k => (up k == 0) == (down k == 0))
    && oneArc (fun k => up k != 0)

/-- Two shells' masks overlap on some link of one island. -/
def slotsOverlap (a b : RigShell) : Bool :=
  a.isl == b.isl && (a.slots.zip b.slots).any (fun p => p.1.1 &&& p.2.1 != 0 || p.1.2 &&& p.2.2 != 0)

/-- Tiles of a shell of a pool, by SHELL_SIZE. -/
def Rig.poolSize (r : Rig) (p : Nat) : Option Nat := (r.pools.find? (fun x => x.num == p)).map (fun x => 2 ^ x.size)

/-- Check 10 of one shell: R277, R278, and as many tiles as its pool's SHELL_SIZE gives. -/
def checkShell (r : Rig) (k : Nat) (x : RigShell) : Option RigFail :=
  let i := k
  firstFail [
    need (decide (x.num = k)) 10 i 2, need (decide (x.isl < 8)) 10 i 8, need (decide (x.tiles < 4096)) 10 i 10,
    if x.empty then need (x.pool == 0xFF && x.isl == 0 && x.slots.all (fun p => p.1 == 0 && p.2 == 0)) 10 i 9
    else firstFail [
      need (x.pool != 0xFF) 10 i 9,
      need (((r.poolSize x.pool).map (fun n => n == popCount 12 x.tiles)).getD true) 10 i 10,
      need (shellSlotsOk x) 10 i 16,
      need ((r.shells.take k).all (fun y => !slotsOverlap x y)) 10 i 16]]

/-- Check 10: SHELL; DETAIL's index is the record's. -/
def checkShells (r : Rig) (rs : List RigRec) : Option RigFail :=
  match (List.range r.shells.length).findSome? (fun k => ((r.shells[k]?).bind (checkShell r k)).map (fun e => (k, e))) with
  | some (k, e) => some (e.1, (((ofType rs 4)[k]?).map (·.idx)).getD 0xFFFF + e.2 / 65536 * 65536)
  | none => none

/-- Every entry of a pool's kernel set falls within its algorithm set, and every bit of the set has an entry (R282). -/
def poolAlgOk (r : Rig) (p : RigPool) : Bool :=
  let alg := r.poolAlg p
  let es := r.kset p
  es.all (fun e => decide (p.kind ∈ opKinds e.opcode) && inAlg alg p.kind e.opcode e.set)
    && (List.range 32).all (fun b => !alg.testBit b || es.any (fun e => algBit p.kind e.opcode e.set == some b))

/-- Check 11 of one pool (R279, R282). -/
def checkPool (r : Rig) (i : Nat) (p : RigPool) : Option RigFail :=
  let shells := r.shells.filter (fun x => !x.empty && x.pool == p.num)
  firstFail [
    need (decide (1 ≤ p.kind) && decide (p.kind ≤ 3)) 11 i 8,
    if p.kind = 1 then firstFail [
      need (decide (p.size ≤ 3)) 11 i 9, need (decide (p.mode ≤ 2) && (p.mode == 0) == (p.size == 0)) 11 i 10,
      need (decide (p.harden ≤ 2)) 11 i 11, need (decide (p.auto ≤ 1)) 11 i 12, need (decide (p.alg < 512)) 11 i 20,
      need (p.mode != 2 || p.alg.testBit 3 || p.alg.testBit 4 || p.alg.testBit 5) 11 i 20, need (!shells.isEmpty) 11 i 8]
    else firstFail [
      need (p.size == 0) 11 i 9, need (p.mode == 0) 11 i 10, need (p.harden == 0) 11 i 11, need (p.auto == 0) 11 i 12,
      need (p.alg == 0) 11 i 20, need shells.isEmpty 11 i 8,
      need (decide ((if p.kind = 2 then (r.groups.filter (fun g => g.pool == p.num)).length
        else (r.parts.filter (fun g => g.pool == p.num)).length) = 1)) 11 i 8],
    need (poolAlgOk r p) 11 i 20]

/-- Check 11: POOL, and every pool that a shell, partition or group names has a record of its kind. -/
def checkPools (r : Rig) (rs : List RigRec) : Option RigFail :=
  let has (k p : Nat) : Bool := r.pools.any (fun x => x.num == p && x.kind == k)
  firstFail (
    r.shells.map (fun x => need (x.empty || has 1 x.pool) 11 (recIdx rs 4 x.num) 9)
    ++ r.pools.map (fun p => checkPool r (recIdx rs 5 p.num) p)
    ++ r.parts.map (fun x => need (has 3 x.pool) 11 (recIdx rs 7 x.num) 8)
    ++ r.groups.map (fun x => need (has 2 x.pool) 11 (recIdx rs 8 x.num) 8))

/-- The first word above the extent that holds word `w` (R281). -/
def extentOf (k : KernelSet) (w : Nat) : Nat × Nat :=
  let pcs := k.entries.map (·.pc)
  ((pcs.filter (fun p => decide (p ≤ w))).foldl max 0, (pcs.filter (fun p => decide (w < p))).foldl min k.code.length)

/-- A kernel word passes the checks of R194. -/
def kernelWordOk (k : KernelSet) (i w : Nat) : Bool :=
  let (op, f) := decodeTile w
  let n := f.imm.toNat
  wordLegal op f && (op != 0x01 || (decide ((extentOf k i).1 ≤ n) && decide (n < (extentOf k i).2)))
    && (op != 0x04 || (Tile.idle.csr n).isSome) && (op != 0x05 || decide (n ∈ [0x00, 0x01, 0x08, 0x0A]))

/-- An entry of a kernel set follows Table 08-5. -/
def entryFail (k : KernelSet) (e : KernelEntry) : Option Nat :=
  if (if k.target = 1 then e.gang == 0 || decide (16 < e.gang) else e.gang != 0) then some 3
  else if e.cost = 0 then some 4
  else if (if k.target = 0 then decide (k.code.length ≤ e.pc) else e.pc != 0) then some 8
  else if e.phases = 0 ∨ 8 < e.phases then some 10
  else ((List.range 8).find? (fun i => ((e.wdog[i]?).getD 0 == 0) == decide (i < e.phases))).map (fun i => 16 + 2 * i)

/-- Check 12 of one kernel set: R281 and R194. -/
def checkKset (i : Nat) (k : KernelSet) : Option RigFail :=
  let key (e : KernelEntry) := e.opcode * 256 + e.set
  firstFail [
    need (decide (k.target ≤ 2)) 12 i 8,
    need (if k.target = 0 then decide (k.harden ≤ 2) else k.harden == 0) 12 i 9,
    need (if k.target = 0 then decide (k.code.length ≤ 8192) else k.code.isEmpty) 12 i 12,
    need ((k.entries.zip (k.entries.drop 1)).all (fun p => decide (key p.1 < key p.2))) 12 i 16,
    (List.range k.entries.length).findSome? (fun n =>
      match (k.entries[n]?).bind (entryFail k) with
      | some o => rigFail 12 i (16 + 32 * n + o)
      | none => none),
    match (List.range k.code.length).find? (fun n => !kernelWordOk k n ((k.code[n]?).getD 0)) with
    | some n => rigFail 12 i n
    | none => none]

/-- Check 12: KERNEL, and every pool names a set of its kind, declared no lower than the pool. -/
def checkKsets (r : Rig) (rs : List RigRec) : Option RigFail :=
  firstFail (
    r.pools.map (fun p => match r.ksets.find? (fun k => k.id == p.kset) with
      | none => rigFail 12 (recIdx rs 5 p.num) 16
      | some k => need (k.target == (match p.kind with
          | 1 => 0
          | 2 => 2
          | _ => 1) && (p.kind != 1 || decide (k.harden ≤ p.harden))) 12 (recIdx rs 5 p.num) 16)
    ++ r.ksets.map (fun k => checkKset (recIdx rs 6 k.id) k))

/-- Check 13: no core in two partitions or two groups, and no bit outside the fields (R280). -/
def checkCores (r : Rig) (rs : List RigRec) : Option RigFail :=
  firstFail (
    (List.range r.parts.length).map (fun i => match r.parts[i]? with
      | some x => firstFail [need (decide (x.groups < 64)) 13 (recIdx rs 7 x.num) 9,
          need ((r.parts.take i).all (fun y => x.kc &&& y.kc == 0 && x.shc &&& y.shc == 0)) 13 (recIdx rs 7 x.num) 16]
      | none => none)
    ++ (List.range r.groups.length).map (fun i => match r.groups[i]? with
      | some x => firstFail [need (decide (x.alg < 32)) 13 (recIdx rs 8 x.num) 10,
          need ((r.groups.take i).all (fun y => x.cores &&& y.cores == 0)) 13 (recIdx rs 8 x.num) 9]
      | none => none))

/-- Instance `k` may serve islands and slices: enabled, and not the SC's alone. -/
def Rig.drbOpen (r : Rig) (k : Nat) : Bool := decide (k < 16) && r.drbEnable.testBit k && !r.drbScOnly.testBit k

/-- Check 14: DRBG (R276, R283). -/
def checkDrbg (r : Rig) (rs : List RigRec) : Option RigFail :=
  firstFail (
    (List.range r.islands.length).map (fun n => need (((r.islands[n]?).map (fun x => r.drbOpen x.2.2)).getD true) 14 (recIdx rs 2 n) 10)
    ++ r.slices.map (fun x => need (r.drbOpen x.drb) 14 (recIdx rs 9 x.first) 10)
    ++ [need (r.drbEnable.testBit 0) 14 (recIdx rs 11 0) 8, need (!r.drbScOnly.testBit 0) 14 (recIdx rs 11 0) 10])

/-- Check 15: BANKS. -/
def checkBanks (r : Rig) (rs : List RigRec) : Option RigFail :=
  firstFail ((List.range 16).map (fun b =>
    let o := (r.banks[b]?).getD 0
    need ((decide (o ≤ 4) || (decide (8 ≤ o) && decide (o ≤ 15))) && (b != 0 || o == 0)) 15 (recIdx rs 10 0) (8 + b)))

/-- Check 16: MEMORY (R272, R276, R377) against the LPDDR5X fitted. -/
def checkMemory (r : Rig) (rs : List RigRec) (gib : Nat) : Option RigFail :=
  let i := recIdx rs 1 0
  firstFail [
    need (decide (16 ≤ r.minDdr) && decide (r.minDdr ≤ 64) && decide (r.minDdr ≤ gib)) 16 0xFFFF 20,
    need (r.memoBase % 4096 == 0 && (r.memoSize == 0 || decide (0xC0000000 ≤ r.memoBase))) 16 i 16,
    need (r.memoSize % 4096 == 0 && (r.memoSize == 0 || decide (r.memoBase + r.memoSize ≤ r.minDdr * 15 * 2 ^ 26))) 16 i 24]

/-- Check 17: TAMPER (R284). -/
def checkTamper (rs : List RigRec) : Option RigFail :=
  firstFail ((ofType rs 12).flatMap (fun x => (List.range 32).map (fun k => need (decide (x.at (8 + k) 1 ≤ (if k < 18 then 6 else 0))) 17 x.idx (8 + k))))

/-- Check 18: SLICE_DEFAULTS (R283). -/
def checkSlices (r : Rig) (rs : List RigRec) : Option RigFail :=
  firstFail ((List.range r.slices.length).map (fun k => match r.slices[k]? with
    | some x =>
      let i := recIdx rs 9 x.first
      firstFail [
        need (decide (1 ≤ x.count) && decide (x.first + x.count ≤ 512)
          && (r.slices.take k).all (fun y => decide (y.first + y.count ≤ x.first))) 18 i 8,
        need ((List.range 32).all (fun p => !x.mask.testBit p || r.pools.any (fun q => q.num == p))) 18 i 12,
        need (x.weights.all (fun w => decide (1 ≤ w))) 18 i 16]
    | none => none))

/-! ### The whole check (R285) -/

/-- The records of an image, or the failure of check 7. -/
def rigRecords (i : Bytes) : RigFail ⊕ List RigRec := readRecs (leAt i 14 2) 0 none (slice i 80 (rigBody i))

/-- Checks 8 to 18 on the records. -/
def rigBodyFail (i : Bytes) (rs : List RigRec) (gib : Nat) : Option RigFail :=
  let r := rigOf i rs
  firstFail [rigCounts rs, checkRoles r rs, checkShells r rs, checkPools r rs, checkKsets r rs, checkCores r rs, checkDrbg r rs,
    checkBanks r rs, checkMemory r rs gib, checkTamper rs, checkSlices r rs]

/-- The LPDDR5X against which check 16 is made: GEN_CAP.DDR_GIB, or the most there can be while training has not found it. -/
def State.ddrFitted (s : State) : Nat := if s.fld .genCap 32 26 = 0 then 64 else s.fld .genCap 32 26

/-- The checks of Table 08-6 in order, for an authority position and its digest: the rig, or the first failure. -/
def State.checkRig (s : State) (i : Bytes) (pos : Nat) (digest : Bytes) : RigFail ⊕ Rig :=
  match firstFail [rigHeader i,
      need (leAt i 6 1 == 0 || leAt i 6 1 == s.fld .genId 11 8) 2 0xFFFF 6,
      need (decide (s.otp.rigSvn ≤ leAt i 12 1)) 3 0xFFFF 12,
      need (leAt i 13 1 == pos) 4 0xFFFF 13,
      rigSignature i digest] with
  | some e => .inl e
  | none => match rigRecords i with
    | .inl e => .inl e
    | .inr rs => match rigBodyFail i rs s.ddrFitted with
      | some e => .inl e
      | none => .inr (rigOf i rs)

/-- The checks as a start, RIG_CHECK, RIG_WRITE and RIG_PARTIAL make them: under the current position. -/
def State.rigCheck (s : State) (i : Bytes) : RigFail ⊕ Rig := s.checkRig i s.rigPosition (s.posDigest s.rigPosition)

/-- The endorsement of a rotation: by the current position's keys, over the image's RIG_DIGEST (R295, R296). -/
def State.endorsementOk (s : State) (i : Bytes) : Bool :=
  let e := i.drop (80 + rigBody i + sigBlock)
  let pkM := slice e 4 1952
  let pkE := slice e 1956 97
  let dig := hashOf 3 (rigSigned i)
  rigEndorsed i && leAt e 0 1 == s.rigPosition && authDigest pkM pkE == s.posDigest s.rigPosition
    && dsaVerifies pkM dig (slice e 2056 3309) "FJ9640-RIG-ENDORSE" && p384Verifies pkE dig (slice e 5365 96)

end Sys2Proof.Machine
end

