-- ==== Sys2Proof/Machine/HashField.lean ====
section
/-! DEFINITION. The hash field's cores: machine checks, BIST, commands (R215, R216, R294). -/

namespace Sys2Proof.Machine

/-- The partition of a hash core. -/
def State.corePart (s : State) (k : Nat) : Option Nat := firstBelow 8 (fun x => s.bit (.hsfPartCfg x) 7 && s.inPart x k)

/-- A partition record holds the core. -/
def RigPart.holds (x : RigPart) (k : Nat) : Bool := if k < 64 then x.kc.testBit k else x.shc.testBit (k - 64)

/-- A re-rig past its commit has the core's pool in hand, or the core joins it (Table 08-9 step 4). -/
def State.hashReRigging (s : State) (k : Nat) : Bool :=
  s.reRig.any (fun r => r.committed && r.image.parts.any (fun x => x.pool == r.pool && x.holds k)) ||
  match s.corePart k with
  | some x => s.reRigging (s.fld (.hsfPartCfg x) 4 0)
  | none => false

/-- A machine check of core `k`: its jobs are re-executed and the core is reset and tested. -/
def State.hashCheck (s : State) (k : Nat) : State :=
  -- the check governs over a block reset of the core (R459)
  let s := if s.boot.block = some (4, k) then s.endBlock.setHcore k (fun h => { h with state := .inService }) else s
  if (s.hcore k).state ≠ .inService then s
  else
    let js := s.onHash k
    let s := s.setHcore k (fun h => { h with state := .offline, mc := h.mc + 1 })
    let s := (s.bump .hsfMcCount).hsfEvt 0
    (s.each js (fun s j => s.retry j.id true)).dropUncarried

/-- HSF_CORE_MACHINE_CHECK. -/
def execHsfCoreMachineCheck (k : Nat) (s : State) : Answer := .next (s.hashCheck k)

/-- A joining hash core ends its BIST: UNUSED until step 7, or RETIRED. -/
def State.hashJoined (s : State) (k : Nat) (ok : Bool) : State :=
  let s := (s.tested k).setHcore k (fun h => { h with state := if ok then .unused else .retired })
  if ok then s else s.hsfEvt 1

/-- The BIST of core `k` ends; that of a block reset ends with BLOCK_RESET_BIST_DONE (R439). -/
def State.hashBistDone (s : State) (k : Nat) (ok : Bool) : State :=
  let h := s.hcore k
  let put (s : State) (x : Svc) : State := s.setHcore k (fun h => { h with state := x, cmd := false, leaving := false })
  if h.state ≠ .offline ∨ s.boot.block = some (4, k) then s
  else if s.joiningHash k then s.hashJoined k ok
  else if h.cmd then
    if ok then (put s (if (s.corePart k).isSome then .inService else .unused)).hsfEvt 2 else (put s .retired).hsfEvt 3
  else if h.leaving then put s .retired
  else if ok && decide (h.mc < s.fld .fabMcLimit 3 0) then put s (if (s.corePart k).isSome then .inService else .unused)
  else ((put s .retired).hsfEvt 1).dropUncarried

/-- HSF_CORE_BIST_COMPLETE. -/
def execHsfCoreBistComplete (k : Nat) (ok : Bool) (s : State) : Answer := .next (s.hashBistDone k ok)

/-- The result of a core command: 0 OK, 1 BUSY, 2 REFUSED. -/
def State.hashResult (s : State) (x : Nat) : State := s.setFld .hsfCoreStat 1 0 x

/-- A command on core `k`: 1 BRING_UP, 2 RETIRE (Table 06-2). -/
def State.hashCmd (s : State) (k cmd : Nat) : State :=
  if cmd ≠ 1 ∧ cmd ≠ 2 then s
  else if (s.hcore k).state = .offline ∨ s.hashReRigging k then s.hashResult 1
  else if (s.hcore k).state = .inService then
    if cmd = 1 then s.hashResult 2
    else if (s.onHash k).isEmpty then ((s.hashResult 0).setHcore k (fun h => { h with state := .retired })).dropUncarried
    else (s.hashResult 0).setHcore k (fun h => { h with leaving := true })
  else if cmd = 1 then (s.hashResult 0).setHcore k (fun h => { h with state := .offline, cmd := true })
  else s.hashResult 0

/-- HSF_CORE_BRING_UP. -/
def execHsfCoreBringUp (k : Nat) (s : State) : Answer := .next (s.hostTo .hsfCoreCmd (·.hashCmd k 1))

/-- HSF_CORE_RETIRE. -/
def execHsfCoreRetire (k : Nat) (s : State) : Answer := .next (s.hostTo .hsfCoreCmd (·.hashCmd k 2))

end Sys2Proof.Machine
end

