-- ==== Sys2Proof/Machine/Mbx.lean ====
section
/-! DEFINITION. The mailbox protocol: requests, the order of commands, responses and messages (R326 to R329, R332). -/

namespace Sys2Proof.Machine

/-- The codes of the mailbox commands (Tables 08-7, 09-9, 12-9, 14-7). -/
def mbxCodes : List Nat :=
  [0x0001, 0x0201, 0x0202, 0x0203, 0x0204, 0x0205, 0x0206, 0x0301, 0x0302, 0x0303, 0x0304, 0x0305, 0x0310, 0x0311, 0x0312, 0x0313,
   0x0314, 0x0320, 0x0321, 0x0330, 0x0401, 0x0402, 0x0410, 0x0411, 0x0412, 0x0413, 0x0414, 0x0501, 0x0502, 0x0503, 0x0504]

/-- MBX_STATUS.STATE of a channel: 0 IDLE, 1 QUEUED, 2 BUSY, 3 DONE. -/
def State.mbxState (s : State) (ch : Nat) : Nat := s.fld (.mbxStatus ch) 1 0

/-- The command code of a channel. -/
def State.mbxCode (s : State) (ch : Nat) : Nat := s.fld (.mbxCmd ch) 15 0

/-- The request of a channel: MBX_REQ_LEN bytes of MBX_REQ. -/
def State.mbxRequest (s : State) (ch : Nat) : Bytes :=
  let n := s.fld (.mbxReqLen ch) 13 0
  ((List.range ((n + 7) / 8)).flatMap (fun i => leBytes 8 (s.rd (.mbxReq ch i)).toNat)).take n

/-- DONE's message: MSI-X on channel 0, an in-band interrupt of an addressed target with them enabled on channel 1 (R326). -/
def State.mbxSignal (s : State) (ch : Nat) : State :=
  if !s.bit (.mbxEvtVector ch) 31 then s
  else if ch = 0 then s.sendMsix (s.fld (.mbxEvtVector ch) 10 0)
  else if s.pins.ibi && s.pins.dynAddr.isSome then { s with out := s.out ++ [.ibi] } else s

/-- The commands that work on a rig, whose last result RIG_INFO reports (R289). -/
def rigWork (code : Nat) : Bool := decide (0x0201 ≤ code) && decide (code ≤ 0x0205)

/-- The command of a channel ends: RESULT, DETAIL, the response, then DONE, its count and its message (R326); a DBG command's
RESULT stays in DBG_STAT, and that of a command that works on a rig is the last one that RIG_INFO reports (R289). -/
def State.mbxEnd (s : State) (ch result detail : Nat) (rsp : Bytes) : State :=
  let s := s.wr (.mbxStatus ch) (BitVec.ofNat 64 (3 + result * 2 ^ 8))
  let s := if 0x0410 ≤ s.mbxCode ch ∧ s.mbxCode ch ≤ 0x0414 then s.setFld .dbgStat 15 8 result else s
  let s := ((s.setFld (.mbxDetail ch) 31 0 detail).setFld (.mbxRspLen ch) 14 0 rsp.length).bump (.mbxSeq ch)
  let mine := decide (s.mbx.busy.getD ch = ch)
  let rig := rigWork (s.mbxCode ch)
  { s with mbx := { s.mbx with
      busy := if mine then none else s.mbx.busy, pressed := !mine && s.mbx.pressed, rsp := tset ch rsp s.mbx.rsp
      lastRig := if rig then result else s.mbx.lastRig, lastDetail := if rig then detail else s.mbx.lastDetail } }.mbxSignal ch

/-- The SC, or the boot ROM, serves the mailbox: not in reset, not in a start, no life-cycle transition under way (R329, R393). -/
def State.mbxServes (s : State) : Bool := !s.boot.held && !s.boot.starting && s.transition.isNone && s.power.io && !s.power.backup

/-- The command the SC takes next, if it is free to take one (R326). -/
def State.mbxHead (s : State) : Option Nat := if s.mbxServes && s.mbx.busy.isNone then s.mbx.queue.head? else none

/-- A rig command of the other channel is answered beside the one in progress: RIG_INFO reports it, any other is BUSY (R289, R294;
log 71), but not while that one waits for presence (R402). A command that has the SC's next turn and checks an image is in progress. -/
def State.mbxBeside (s : State) : Option Nat :=
  let rig (ch : Nat) : Bool := rigWork (s.mbxCode ch) || s.mbxCode ch == 0x0206
  if !s.mbxServes then none
  else match s.mbx.busy, s.mbx.queue with
    | some b, ch :: _ => if rigWork (s.mbxCode b) && rig ch && !s.bit (.mbxStatus b) 2 then some ch else none
    | none, a :: ch :: _ => if decide (s.mbxCode a ∈ [0x0202, 0x0203, 0x0204]) && rig ch then some ch else none
    | _, _ => none

/-- The channel whose command of a code the SC runs now. -/
def State.mbxTurn (s : State) (code : Nat) : Option Nat :=
  (s.mbxHead.toList ++ s.mbxBeside.toList).find? (fun ch => s.mbxCode ch == code)

/-- A command of an undefined code ends UNKNOWN as soon as the SC takes it. -/
def State.mbxSkip (s : State) : State :=
  match s.mbxHead with
  | some ch => if s.mbxCode ch ∈ mbxCodes then s else { s with mbx := { s.mbx with queue := s.mbx.queue.drop 1 } }.mbxEnd ch 0x30 0 []
  | none => s

/-- The SC looks at both channels' commands. -/
def State.mbxNext (s : State) : State := s.mbxSkip.mbxSkip

/-- The command that the SC runs ends. -/
def State.mbxDone (s : State) (ch result detail : Nat) (rsp : Bytes) : State := (s.mbxEnd ch result detail rsp).mbxNext

/-- Zeroisation ends the command the SC runs (Table 09-11). -/
def State.mbxZeroised (s : State) : State :=
  match s.mbx.busy with
  | some ch => { s with mbx := { s.mbx with flash := none, session := none } }.mbxDone ch 0x3C 0 []
  | none => s

/-- GO: the command of an IDLE or DONE channel is queued (R326). -/
def State.mbxGo (s : State) (ch : Nat) : State :=
  if s.mbxState ch = 0 ∨ s.mbxState ch = 3 then
    ({ s with mbx := { s.mbx with queue := s.mbx.queue ++ [ch] } }.setFld (.mbxStatus ch) 1 0 1).mbxNext
  else s

/-- CLEAR: DONE returns to IDLE and the response is zeroed (R326). -/
def State.mbxClear (s : State) (ch : Nat) : State :=
  if s.mbxState ch ≠ 3 then s
  else
    let s := { s with mbx := { s.mbx with rsp := s.mbx.rsp.filter (fun e => e.1 ≠ ch) } }
    (s.setFld (.mbxStatus ch) 1 0 0).wr (.mbxRspLen ch) 0

/-- A write of MBX_CTRL; both bits clear first, then start. -/
def State.writeMbxCtrl (s : State) (ch : Nat) (v : DWord) : State :=
  let s := if getB v 1 then s.mbxClear ch else s
  if getB v 0 then s.mbxGo ch else s

/-- A write of MBX_CMD, MBX_REQ_LEN or MBX_REQ: ignored while QUEUED or BUSY. -/
def State.writeMbxReq (s : State) (r : Reg) (ch : Nat) (v : DWord) : State :=
  if s.mbxState ch = 1 ∨ s.mbxState ch = 2 then s
  else match r with
    | .mbxCmd _ => s.setFld r 15 0 (getF v 15 0)
    | .mbxReqLen _ => s.setFld r 13 0 (min 8192 (getF v 13 0))
    | _ => s.wr r v

/-- A mailbox command as its table gives it: code, channels, DEV_STATEs, and the request lengths of its layout. -/
structure MbxRow where
  code : Nat
  chans : List Nat
  states : List Nat
  okLen : Nat → Bool

/-- The RESULT of a command that its row excludes: STATE for every command that BLANK, SCRAPPED or LOCKED does not serve (R329, R386,
R403, R416), else CHANNEL, STATE or BAD_REQUEST (log 40). -/
def State.rowRefuses (s : State) (row : MbxRow) (ch : Nat) : Option Nat :=
  if s.devState ∈ [5, 6, 15] ∧ s.devState ∉ row.states then some 0x25
  else if ch ∉ row.chans then some 0x32
  else if s.devState ∉ row.states then some 0x25
  else if !row.okLen (s.mbxRequest ch).length then some 0x31 else none

/-- Run the command whose turn it is if it has the row's code: refused where its row excludes it, else its effect; it keeps its turn
while the effect has to wait. -/
def State.mbxTry (s : State) (row : MbxRow) (f : State → Nat → Bytes → Option State) : State :=
  match s.mbxTurn row.code with
  | none => s
  | some ch =>
    let busy := if s.mbxHead = some ch then some ch else s.mbx.busy
    let t := { s with mbx := { s.mbx with queue := s.mbx.queue.filter (· ≠ ch), busy := busy } }.setFld (.mbxStatus ch) 1 0 2
    match s.rowRefuses row ch with
    | some x => t.mbxDone ch x 0 []
    | none => (f t ch (s.mbxRequest ch)).getD s

/-- Run a command that need not wait. -/
def State.mbxRun (s : State) (row : MbxRow) (f : State → Nat → Bytes → State) : State := s.mbxTry row (fun s ch r => some (f s ch r))

/-- The command whose turn it is has the row's code and is refused, whatever it would wait for. -/
def State.mbxRefused (s : State) (row : MbxRow) : Bool := (s.mbxTurn row.code).any (fun ch => (s.rowRefuses row ch).isSome)

/-- The states of "Any" (R329): BLANK, SCRAPPED and LOCKED apart. -/
def anyState : List Nat := [0, 1, 2, 3, 4]

/-- MBX_CLEAR. -/
def execMbxClear (ch : Nat) (s : State) : Answer := .next (s.hostTo (.mbxCtrl ch) (·.mbxClear ch))

end Sys2Proof.Machine
end

