-- ==== Sys2Proof/Machine/Memory.lean ====
section
/-! DEFINITION. Scratch banks, their handovers and alias windows, LPDDR5X fills, scrubs and host apertures (R360 to R383). -/

namespace Sys2Proof.Machine

/-- Bytes of a bank. -/
def bankSize : Nat := 0x400000

/-- OWNER of a bank (Table 11-1). -/
def State.bankOwner (s : State) (b : Nat) : Nat := s.fld (.memBankOwner b) 3 0

/-- STATE of a bank: 0 OWNED, 1 DRAINING, 2 WIPING. -/
def State.bankState (s : State) (b : Nat) : Nat := s.fld (.memBankOwner b) 5 4

/-- The port of a master to a bank is open (R361, R364). -/
def State.ownsBank (s : State) (who b : Nat) : Bool := s.bankOwner b == who && s.bankState b == 0

/-- An access by a master that does not own the bank is counted and reported (R361). -/
def State.bankViolation (s : State) (b : Nat) : State := (s.bump (.memBankViol b)).memEvt 0

/-- A read's data. -/
def State.answer (s : State) (bs : Bytes) : State := { s with rdata := bs, poisoned := false }

/-- A poisoned completion: the data is a free value (R362, R371). -/
def State.answerPoisoned (s : State) (n : Nat) : State :=
  let (bs, s) := s.draw n
  { s with rdata := bs, poisoned := true }

/-- Bytes written at an address under byte enables. -/
def writeEnabled (a : Nat) : List (Option Byte) → List (Nat × Byte) → List (Nat × Byte)
  | [], m => m
  | some b :: bs, m => writeEnabled (a + 1) bs (Memory.put a b m)
  | none :: bs, m => writeEnabled (a + 1) bs m

/-! ### Handovers (R364, R365) -/

/-- RESULT of a handover: 0 OK, 1 BUSY, 2 REFUSED. -/
def State.bankResult (s : State) (b x : Nat) : State := s.setFld (.memBankOwner b) 9 8 x

/-- A write of MEM_BANK_HANDOVER: refused, or the old owner's port closes; the new owner and WIPE are held. -/
def State.writeHandover (s : State) (b : Nat) (v : DWord) : State :=
  let o := getF v 3 0
  if s.bankOwner b = 0 ∨ o = 0 then s.bankResult b 2
  else if s.bankState b ≠ 0 then s.bankResult b 1
  else if 5 ≤ o ∧ o ≤ 7 then s.bankResult b 0
  else ((s.wr (.memBankHandover b) (setF 0 4 0 (getF v 4 0))).setBit (.memBankAper b) 0 false).setFld (.memBankOwner b) 5 4 1

/-- BANK_HANDOVER. -/
def execBankHandover (b : Nat) (v : DWord) (s : State) : Answer := .next (s.hostTo (.memBankHandover b) (·.writeHandover b v))

/-- The new owner's port opens (R364 step 3). -/
def State.handOver (s : State) (b : Nat) : State :=
  let s := (s.setFld (.memBankOwner b) 3 0 (s.fld (.memBankHandover b) 3 0)).setFld (.memBankOwner b) 5 4 0
  (((s.bankResult b 0).setBit (.memBankAper b) 0 false).wr (.memBankHandover b) 0).memEvt 3

/-- BANK_HANDOVER_DRAINED: the old owner's accesses are complete; the bank passes on, or its wipe starts. -/
def execBankHandoverDrained (b : Nat) (s : State) : Answer :=
  if s.bankState b ≠ 1 then .next s
  else if s.bit (.memBankHandover b) 4 then .next (s.setFld (.memBankOwner b) 5 4 2)
  else .next (s.handOver b)

/-- BANK_WIPE_DONE: the bank is zero and passes on. -/
def execBankWipeDone (b : Nat) (s : State) : Answer :=
  if s.bankState b ≠ 2 then .next s
  else .next ({ s with sram := Memory.clear (bankSize * b) (bankSize * (b + 1)) s.sram }.handOver b)

/-- A write of MEM_BANK_APER: EN is set only while the host owns the bank (R380). -/
def State.writeAper (s : State) (b : Nat) (v : DWord) : State :=
  let s := (s.setFld (.memBankAper b) 24 16 (getF v 24 16)).setFld (.memBankAper b) 45 32 (getF v 45 32)
  if !getB v 0 then s.setBit (.memBankAper b) 0 false
  else if s.bankOwner b = 4 then s.setBit (.memBankAper b) 0 true else s

/-! ### Host accesses through BAR4 (R361, R362, R366, R380) -/

/-- Length of an access. -/
def accessLen : MemAccess → Nat
  | .read n => n
  | .write bs => bs.length

/-- What an access without effect answers: zeros to a read. -/
def State.noAccess (s : State) : MemAccess → State
  | .read n => s.answer (zeros n)
  | .write _ => s

/-- An access to the SRAM of a bank the host owns; the bank's code corrects or reports (R362). -/
def State.bankAccess (s : State) (off : Nat) (acc : MemAccess) (ecc : Ecc) : State :=
  let b := off / bankSize
  let s := match ecc with
    | .clean => s
    | .corrected => s.bump (.memBankCe b)
    | .uncorrectable => (s.bump (.memBankUe b)).memEvt 1
  match acc with
  | .read n => if ecc = .uncorrectable then s.answerPoisoned n else s.answer (Memory.read off n s.sram)
  | .write bs => { s with sram := writeEnabled off bs s.sram }

/-- The pieces of a write by 64 B line: address and bytes. -/
def lineParts (a : Nat) (bs : List (Option Byte)) : List (Nat × List (Option Byte)) :=
  let n := (a % 64 + bs.length + 63) / 64
  (List.range n).map (fun i =>
    let lo := 64 * i - a % 64
    (a + lo, (bs.drop lo).take (64 * (i + 1) - a % 64 - lo)))

/-- A line is written whole (R371). -/
def wholeLine (p : Nat × List (Option Byte)) : Bool := p.1 % 64 == 0 && p.2.length == 64 && p.2.all Option.isSome

/-- Where the controller keeps the line of a device address (R370): the group of 15 lines, its channel, the line's byte in the group's
1 KiB, and the byte of the line's 4-byte code in the group's last 64 B. -/
structure DdrPlace where
  group : Nat
  channel : Nat
  byte : Nat
  code : Nat
  deriving DecidableEq, Repr

/-- The place of a device address. DEDUCED (log 73): a group's codes stand in the order of its lines. -/
def ddrPlace (a : Nat) : DdrPlace :=
  let l := a / 64
  ⟨l / 15, l / 15 % 8, l % 15 * 64 + a % 64, 960 + l % 15 * 4⟩

/-- The controller's ciphertext of a whole line at a device address under the inline key: the data unit is the line and its tweak the
line's number (R374). -/
def ddrCipher (key : Bytes) (a : Nat) (line : Bytes) : Bytes := xts false key (a / 64) line

/-- An access to LPDDR5X through an aperture: a read or a line written in part meets the line's code, a line written whole does not, and
a line written in part that cannot be read is left as it was (R371). -/
def State.ddrAccess (s : State) (a : Nat) (acc : MemAccess) (ecc : Ecc) : State :=
  match acc with
  | .read n => match ecc with
    | .clean => s.answer (Memory.read a n s.ddr)
    | .corrected => (s.bump .ddrCeCount).answer (Memory.read a n s.ddr)
    | .uncorrectable => (s.ddrUe a).answerPoisoned n
  | .write bs =>
    let parts := lineParts a bs
    let (whole, part) := parts.partition wholeLine
    match ecc with
    | .clean => { s with ddr := writeEnabled a bs s.ddr }
    | .corrected => { s.bump .ddrCeCount part.length with ddr := writeEnabled a bs s.ddr }
    | .uncorrectable => { s.each part (fun s p => s.ddrUe p.1) with ddr := whole.foldl (fun m x => writeEnabled x.1 x.2 m) s.ddr }

/-- An access to a bank that is an aperture (R380): nothing beyond the window's end, or of a slice that is not enabled. -/
def State.aperture (s : State) (off : Nat) (acc : MemAccess) (ecc : Ecc) : State :=
  let b := off / bankSize
  let n := s.fld (.memBankAper b) 24 16
  let o := s.fld (.memBankAper b) 45 32 * bankSize + off % bankSize
  let open' := decide (1 ≤ s.sliceState n) && decide (s.sliceState n ≤ 3)
  if open' && s.ddrReady && s.inWindow n true o (accessLen acc) then s.ddrAccess (s.ddrAddr n o) acc ecc else s.noAccess acc

/-- A host access through the normal view of BAR4. -/
def State.bar4Normal (s : State) (off : Nat) (acc : MemAccess) (ecc : Ecc) : State :=
  let b := off / bankSize
  if !s.ownsBank 4 b then (s.bankViolation b).noAccess acc
  else if s.bit (.memBankAper b) 0 then s.aperture off acc ecc
  else s.bankAccess off acc ecc

/-- BAR4_NORMAL_ACCESS. -/
def execBar4NormalAccess (off : Nat) (acc : MemAccess) (ecc : Ecc) (s : State) : Answer := .next (s.bar4Normal off acc ecc)

/-- APERTURE_ACCESS: an access through a bank that is an aperture; a bank that is none answers as the normal view does. -/
def execApertureAccess (off : Nat) (acc : MemAccess) (ecc : Ecc) (s : State) : Answer := .next (s.bar4Normal off acc ecc)

/-! ### Alias windows (R366 to R368) -/

/-- The bank word at an address changed by OR with a mask, or by AND with its complement. -/
def aliasWord (set : Bool) (old v : Nat) (n : Nat) : Bytes := leBytes n (if set then old ||| v else old &&& (old ^^^ v))

/-- Change `n` bytes of a bank at once; a word that fails its code is left as it is, and the error is counted (R362). -/
def State.aliasChange (s : State) (set : Bool) (a n : Nat) (v : DWord) (ecc : Ecc := .clean) : State :=
  match ecc with
  | .uncorrectable => (s.bump (.memBankUe (a / bankSize))).memEvt 1
  | e =>
    { s.onlyIf (e == .corrected) (·.bump (.memBankCe (a / bankSize))) with
      sram := Memory.write a (aliasWord set (leNat (Memory.read a n s.sram)) (v.toNat % 2 ^ (8 * n)) n) s.sram }

/-- A write through the set-alias or clear-alias view: 4 B or 8 B, naturally aligned, of a bank the host owns. -/
def State.aliasWrite (s : State) (set : Bool) (off width : Nat) (v : DWord) (ecc : Ecc := .clean) : State :=
  let b := off / bankSize
  let n := width / 8
  if !s.ownsBank 4 b then s.bankViolation b
  else if s.bit (.memBankAper b) 0 then s
  else if (n = 4 ∨ n = 8) ∧ off % n = 0 then s.aliasChange set off n v ecc else s

/-- SET_ALIAS_WRITE. -/
def execSetAliasWrite (off width : Nat) (v : DWord) (s : State) (ecc : Ecc := .clean) : Answer := .next (s.aliasWrite true off width v ecc)

/-- CLEAR_ALIAS_WRITE. -/
def execClearAliasWrite (off width : Nat) (v : DWord) (s : State) (ecc : Ecc := .clean) : Answer := .next (s.aliasWrite false off width v ecc)

/-- A read of an alias view: the word as the normal view shows it (R366), zero through an aperture (R380). -/
def State.aliasRead (s : State) (off n : Nat) (ecc : Ecc := .clean) : State :=
  let b := off / bankSize
  if !s.ownsBank 4 b then (s.bankViolation b).answer (zeros n)
  else if s.bit (.memBankAper b) 0 then s.answer (zeros n)
  else s.bankAccess off (.read n) ecc

/-- Fetch-and-set and fetch-and-clear on a 64-bit bank word by an on-chip master that owns the bank; the host has neither. `job` is the
one the engine works on: it is retried after an uncorrectable error (R362), and after an access to a bank that the engine has lost,
until it ends ABORTED_FAULT (R365). -/
def State.fetchAnd (s : State) (set : Bool) (who a : Nat) (v : DWord) (ecc : Ecc) (job : Option Nat) : State :=
  let b := a / bankSize
  let a := a / 8 * 8
  let fails (s : State) : State := s.each job.toList (fun s j => s.retry j true)
  if who = 4 then s
  else if !s.ownsBank who b then fails ((s.bankViolation b).answer (zeros 8))
  else match ecc with
  | .uncorrectable => fails ((s.answerPoisoned 8).aliasChange set a 8 v ecc)
  | e => (s.answer (Memory.read a 8 s.sram)).aliasChange set a 8 v e

/-- FETCH_AND_SET. -/
def execFetchAndSet (who a : Nat) (v : DWord) (s : State) (ecc : Ecc := .clean) (job : Option Nat := none) : Answer :=
  .next (s.fetchAnd true who a v ecc job)

/-- FETCH_AND_CLEAR. -/
def execFetchAndClear (who a : Nat) (v : DWord) (s : State) (ecc : Ecc := .clean) (job : Option Nat := none) : Answer :=
  .next (s.fetchAnd false who a v ecc job)

/-! ### LPDDR5X fills and scrubs (R372, R379) -/

/-- S and U: the bounds of the slice-usable region. -/
def State.ddrLow (s : State) : Nat := s.fld .ddrSliceBase 36 12 * 4096
def State.ddrHigh (s : State) : Nat := s.fld .ddrSliceLimit 36 12 * 4096

/-- A write of DDR_FILL_BASE or DDR_FILL_LEN, clamped (Table 11-6). DESIGN CHOICE (log 82): a write of DDR_FILL_BASE leaves DDR_FILL_LEN
as it reads, and GO clamps the range. -/
def State.writeFillBase (s : State) (v : DWord) : State := s.setFld .ddrFillBase 36 12 (max (getF v 36 12) (s.fld .ddrSliceBase 36 12))
def State.writeFillLen (s : State) (v : DWord) : State :=
  s.setFld .ddrFillLen 36 12 (min (getF v 36 12) (s.fld .ddrSliceLimit 36 12 - s.fld .ddrFillBase 36 12))

/-- GO: a fill starts, unless one runs. -/
def State.fillGo (s : State) : State :=
  if s.fld .ddrFillCtrl 5 4 = 1 then s
  else
    let base := max (s.fld .ddrFillBase 36 12 * 4096) s.ddrLow
    { s with ddrFill := (base, min (s.fld .ddrFillLen 36 12 * 4096) (s.ddrHigh - base)) }.setFld .ddrFillCtrl 5 4 1

/-- DDR_FILL_GO. -/
def execDdrFillGo (s : State) : Answer := .next (s.hostTo .ddrFillCtrl State.fillGo)

/-- DDR_FILL_DONE: what is left of the range is zero; a fill does not end while dispatch is paused. -/
def execDdrFillDone (s : State) : Answer :=
  if s.fld .ddrFillCtrl 5 4 ≠ 1 ∨ s.bit .genState 4 then .next s
  else
    let s := if s.ddrReady then { s with ddr := Memory.clear s.ddrFill.1 (s.ddrFill.1 + s.ddrFill.2) s.ddr } else s
    .next ((s.setFld .ddrFillCtrl 5 4 2).ddrEvt 1)

/-- A running fill stopped by a warm reset: the first lines, as many as a free value says, are zero (Table 11-3). -/
def State.stopFill (s : State) : State :=
  if s.fld .ddrFillCtrl 5 4 ≠ 1 then s
  else
    let (bs, s) := s.draw 4
    { s with ddr := Memory.clear s.ddrFill.1 (s.ddrFill.1 + leNat bs % (s.ddrFill.2 / 64 + 1) * 64) s.ddr }

/-- A write of DDR_SCRUB_CTRL. -/
def State.writeScrub (s : State) (v : DWord) : State :=
  (s.setFld .ddrScrubCtrl 7 0 (max 1 (min 168 (getF v 7 0)))).setBit .ddrScrubCtrl 8 (getB v 8)

/-- PATROL_SCRUB_PASS: a pass ends that corrected `ce` lines and met the uncorrectable lines of a list. -/
def execPatrolScrubPass (ce : Nat) (ue : List Nat) (s : State) : Answer :=
  if !s.bit .ddrScrubCtrl 8 || s.bit .genState 4 || !s.ddrReady then .next s
  else
    let s := (s.bump .ddrCeCount ce).each ue State.ddrUe
    .next ((s.wr .ddrScrubLast (s.rd .genTime)).ddrEvt 2)

end Sys2Proof.Machine
end

