-- ==== Sys2Proof/Machine/HashMac.lean ====
section
/-! DEFINITION. The jobs of class 0x0C and RANDOM: digests, XOFs, MACs, random bytes (R129 to R131, R219, R243). -/

namespace Sys2Proof.Machine

/-- DIGEST (R129). -/
def digestOp : JobOp where
  opcode := 0x0C01
  result _ j _ := .done (hashOf (pHash (dParam j.desc)) j.main)

/-- Capacity in bytes of SHAKE128 or SHAKE256 by its selector. -/
def xofCap (h : Nat) : Nat := if h = 0xB then 32 else 64

/-- XOF: SHAKE, or cSHAKE with the name in IN2 and the customisation string in CTX (R129). -/
def xofOp : JobOp where
  opcode := 0x0C02
  result _ j _ :=
    let p := dParam j.desc
    .done (if pVariant p = 0 then shake (xofCap (pHash p)) j.main (dAux j.desc)
      else cshake (xofCap (pHash p)) j.main (dAux j.desc) j.in2 j.ctx)

/-- The MAC of a job's message (R129). -/
def macOf (j : Job) : Bytes :=
  let p := dParam j.desc
  if pVariant p = 0 then (hmac (pHash p) j.key j.main).take (macLen j.desc)
  else kmac (xofCap (pHash p)) (pVariant p == 2) j.key j.main (macLen j.desc) j.ctx

/-- MAC. -/
def macOp : JobOp where
  opcode := 0x0C03
  result _ j _ := .done (macOf j)

/-- MAC_VERIFY (R130). -/
def macVerifyOp : JobOp where
  opcode := 0x0C04
  result _ j _ := .verdict (macOf j == j.in3)

/-- The chaining state of a hash function after one block, as bytes. -/
def chainState (h : Nat) (block : Bytes) : Bytes :=
  let long (iv : List (BitVec 64)) : Bytes := (sha2Chain k512 1 block iv).flatMap (fun x => beBytes 8 x.toNat)
  let short (iv : List (BitVec 32)) : Bytes := (sha2Chain k256 1 block iv).flatMap (fun x => beBytes 4 x.toNat)
  match h with
  | 0x1 => short iv224
  | 0x2 => short iv256
  | 0x3 => long iv384
  | 0x4 => long iv512
  | 0x5 => long iv512t224
  | 0x6 => long iv512t256
  | _ => keccakBytes (keccakF (keccakXor keccakZero 0 block))

/-- The cache entry of a slot's key for a hash: the states after its inner and its outer pad block (R243). -/
def hmacEntry (a h : Nat) (key : Bytes) : HmacEntry :=
  let b := hashBlock h
  let k := padTo b (if b < key.length then hashOf h key else key)
  ⟨a, h, chainState h (k.map (· ^^^ 0x36)), chainState h (k.map (· ^^^ 0x5C))⟩

/-- A use of the cached states of a slot's key for a hash: counted as a hit or a miss, and most recent (R243). -/
def State.useHmac (s : State) (a h : Nat) (key : Bytes) : State :=
  let here (e : HmacEntry) : Bool := e.slot == a && e.hash == h
  let s := s.bump (if s.hmac.any here then .keyHmacHits else .keyHmacMisses)
  { s with hmac := ((hmacEntry a h key) :: s.hmac.filter (fun e => !here e)).take 1024 }

/-- The use by an HMAC job: a key that its slot no longer holds is a miss and enters nothing. -/
def State.jobHmac (s : State) (x : Job) : State :=
  if s.holdsKey x then s.useHmac (x.slot.getD 0) (pHash (dParam x.desc)) x.key else s.bump .keyHmacMisses

/-- An HMAC job takes its key's states from the cache (R219). -/
def State.runMac (s : State) (j : Nat) (o : JobOp) : State :=
  match s.job? j with
  | none => s
  | some x => (s.runOp j o).onlyIf (s.computing o.opcode x && pVariant (dParam x.desc) == 0) (·.jobHmac x)

/-- RANDOM (R131). -/
def randomOp : JobOp where
  opcode := 0x0E01
  draws j := [(true, dAux j.desc)]
  result _ _ l := .done (nth l 0)

/-- DIGEST. -/
def execDigest (j : Nat) (s : State) : Answer := .next (s.runOp j digestOp)

/-- XOF. -/
def execXof (j : Nat) (s : State) : Answer := .next (s.runOp j xofOp)

/-- MAC. -/
def execMacTag (j : Nat) (s : State) : Answer := .next (s.runMac j macOp)

/-- MAC_VERIFY. -/
def execMacVerify (j : Nat) (s : State) : Answer := .next (s.runMac j macVerifyOp)

/-- RANDOM. -/
def execRandomBytes (j : Nat) (s : State) : Answer := .next (s.runOp j randomOp)

end Sys2Proof.Machine
end

