-- ==== Sys2Proof/Machine/Slices.lean ====
section
/-! DEFINITION. Slice control: enabling, quiescing, resetting, vectors (R44, R45, R68, R69, R76 to R80, R263, R444), and the
slice configuration registers with their clamps (R46, R69, R340, R378). -/

namespace Sys2Proof.Machine

/-- The result of a write of SLM_SLICE_CTRL: 0 OK, 1 SLICE_BUSY, 2 PASID_OFF. -/
def State.mgrStatus (s : State) (n x : Nat) : State := s.setFld (.slmSliceStat n) 15 8 x

/-- Every frame and resident entry of slice `n` on the BNE is wiped and released (R78, R262, R263). -/
def State.wipeSliceBne (s : State) (n : Nat) : State :=
  s.each (List.range 8) (fun s c => s.setBcore c (fun b => { b with
    f0 := if b.f0 = some n then none else b.f0
    f1 := if b.f1 = some n then none else b.f1
    res := b.res.map (fun e => if e.2.owner = some n then (e.1, { e.2 with owner := none, val := [] }) else e) }))

/-- The register digest contexts' further state (R235). -/
def State.rdeOf (s : State) (c : Nat) : Rde := tget ⟨none, [], 0, [], [], 2, 0, 0, 0, []⟩ c s.rde

/-- Store a context. -/
def State.setRde (s : State) (c : Nat) (f : Rde → Rde) : State := { s with rde := tset c (f (s.rdeOf c)) s.rde }

/-- A context without a message (R236, R240): STATE `st`, its counts and results zero. -/
def State.rdeEmpty (s : State) (c st : Nat) : State :=
  let s := s.wr (.rdeStatus c) (setF 0 2 0 st)
  let s := s.wr (.rdeCount c) 0
  let s := s.each (List.range 8) (fun s j => s.wr (.rdeResult c j) 0)
  s.setRde c (fun x => { x with msg := [], buffered := 0, heldWords := [], key := [] })

/-- A context returns to FREE: its owner, settings and message go (R236). -/
def State.rdeFree (s : State) (c : Nat) : State :=
  let s := (s.rdeEmpty c 0).wr (.rdeMode c) (Reg.rdeMode c).resetVal
  let s := ((s.wr (.rdeKey c) 0).wr (.rdeLen c) 0).wr (.rdeMsgs c) 0
  let s := s.each (List.range 8) (fun s j => s.wr (.rdeExpect c j) 0)
  s.setRde c (fun x => { x with owner := none, hash := 2, mac := 0, tagLen := 0, len := 0 })

/-- An accepted slice reset, up to its completion (R78). -/
def State.resetSlice (s : State) (n : Nat) : State :=
  let s := s.setFld (.slmSliceStat n) 2 0 4
  let s := s.each (List.range 64) (fun s i =>
    let q := 64 * n + i
    ((s.clearQueue q).unreport q |>.wr (.qmgQRptHead q) 0 |>.setBit (.qmgQCtrl q) 0 false).setQueueState q 0)
  let s := { s with msixPend := s.msixPend.filter (fun v => v / 4 ≠ n) }
  let s := s.each (List.range 16) (fun s c => if (s.rdeOf c).owner = some (.slice n) then s.rdeFree c else s)
  (s.wipeSliceBne n).mgrStatus n 0

/-- SLICE_RESET_COMPLETE's effect: STATE DISABLED with ENABLE 0 and QUIESCE 0 (R78). -/
def State.sliceResetDone (s : State) (n : Nat) : State :=
  if s.sliceState n ≠ 4 then s
  else ((s.setFld (.slmSliceStat n) 2 0 0).setBit (.slmSliceCtrl n) 0 false).setBit (.slmSliceCtrl n) 1 false

/-- QUIESCE set (R76, R80, R256, R267): fetching stops but for a fetch that has begun, jobs not started and jobs yielded complete
CANCELLED. DESIGN CHOICE (log 75): the fetch of the queue whose turn it is has begun. -/
def State.quiesce (s : State) (n : Nat) : State :=
  let due := s.fetchTurn.toList.filter (fun q => q / 64 = n)
  let s : State := { s.setFld (.slmSliceStat n) 2 0 2 with fetchDue := s.fetchDue ++ due }
  (s.cancelWaiting (fun j => j.slice == n) true).quiesced n

/-- PASID_EN is 1 and PASID Enable 0: ENABLE and the clearing of QUIESCE are refused (R44, R444). -/
def State.pasidOff (s : State) (n : Nat) : Bool := (s.pasidOf n).isSome && !s.pcie.pasidEnable

/-- What the replay of R31 rewrites for a queue: every entry issued within the 100 µs before the link went down that the slice has not
released; an entry that was never in the ring is still held. -/
def State.replayDue (s : State) (down q : Nat) : List Held :=
  let x := s.queueX q
  let due := x.shadow.reverse.filter (fun e => decide (e.1 ≤ down) && decide (down ≤ e.1 + 100000)
    && decide ((e.2.1 + s.ringSize q - s.fld (.qmgQCqHead q) 15 0) % s.ringSize q < x.used) && !x.held.any (fun h => h.idx == e.2.1))
  due.map (fun e => ⟨e.2.1, e.2.2, false, false, false⟩)

/-- The replay of R31 for a queue whose completion ring is in host memory; an entry that cannot be written is held (R74). -/
def State.replay (s : State) (down q : Nat) : State :=
  if s.bit (.qmgQCtrl q) 2 then s else s.putEntries q [] (s.replayDue down q)

/-- The replay of a slice's queues, due once after each link reset, before the slice fetches again (R31, R444). -/
def State.replaySlice (s : State) (n : Nat) : State :=
  let due := (s.boot.replays.filter (fun e => decide (e.1 = n))).map (·.2)
  let s : State := { s with boot := { s.boot with replays := s.boot.replays.filter (fun e => decide (e.1 ≠ n)) } }
  s.each due (fun s down => s.each (below 64 (fun i => s.queueState (64 * n + i) != 0)) (fun s i => s.replay down (64 * n + i)))

/-- A write of SLM_SLICE_CTRL (R44, R45, R76 to R79). DESIGN CHOICE (log 76): ENABLE with QUIESCE takes a DISABLED slice straight to
QUIESCING, and so to QUIESCED. -/
def State.writeSliceCtrl (s : State) (n : Nat) (v : DWord) : State :=
  let st := s.sliceState n
  if st = 4 then s.mgrStatus n 1
  else if getB v 2 then (if st = 3 then s.resetSlice n else s.mgrStatus n 1)
  else if !getB v 0 && (st == 1 || st == 2) then s.mgrStatus n 1
  else if !getB v 0 && st == 3 then s.resetSlice n
  else if s.pasidOff n && ((getB v 0 && st == 0) || (!getB v 1 && (st == 2 || st == 3))) then s.mgrStatus n 2
  else
    let s := if st = 0 ∧ getB v 4 ∧ !s.bit (.slmSliceCtrl n) 4 then s.wipeSliceBne n else s
    let s := if st = 0 then s.setBit (.slmSliceCtrl n) 4 (getB v 4) else s
    let s := ((s.setBit (.slmSliceCtrl n) 0 (getB v 0)).setBit (.slmSliceCtrl n) 1 (getB v 1)).setBit (.slmSliceCtrl n) 3 (getB v 3)
    let s := s.mgrStatus n 0
    if !getB v 0 then s
    else if getB v 1 then (if st = 0 ∨ st = 1 then s.quiesce n else s)
    else
      let s := if st = 0 then s else s.replaySlice n
      { s.setFld (.slmSliceStat n) 2 0 1 with fetchDue := s.fetchDue.filter (fun q => q / 64 ≠ n) }

/-- SLICE_RESET_COMPLETE: a slice reset ends. -/
def execSliceResetComplete (n : Nat) (s : State) : Answer := .next (s.sliceResetDone n)

/-- A write of SLM_SLICE_MSIX: pending bits of removed vectors go and every VECTOR is clamped again (R69, R80). -/
def State.writeVecCount (s : State) (n : Nat) (v : DWord) : State :=
  let c := min 4 (getF v 2 0)
  let s := s.setFld (.slmSliceMsix n) 2 0 c
  let s := { s with msixPend := s.msixPend.filter (fun v => decide (v / 4 ≠ n) || decide (v % 4 < c)) }
  s.each (List.range 64) (fun s i => s.setFld (.qmgQCtrl (64 * n + i)) 5 4 (s.clampVector n (s.fld (.qmgQCtrl (64 * n + i)) 5 4)))

/-- VEC_COUNT_WRITE. -/
def execVecCountWrite (n : Nat) (v : DWord) (s : State) : Answer := .next (s.hostTo (.slmSliceMsix n) (·.writeVecCount n v))

/-- A write of FAB_POOL_CTRL (R152). -/
def State.writePoolHold (s : State) (p : Nat) (v : DWord) : State := s.setBit (.fabPoolCtrl p) 0 (getB v 0)

/-- POOL_HOLD_WRITE. -/
def execPoolHoldWrite (p : Nat) (v : DWord) (s : State) : Answer := .next (s.hostTo (.fabPoolCtrl p) (·.writePoolHold p v))

/-! ### Configuration registers of slices and queues -/

/-- The largest power of two not above `x`. -/
def pow2Below (x : Nat) : Nat := 2 ^ Nat.log2 x

/-- QMG_Q_SIZE.ENTRIES as clamped (R69). -/
def clampEntries (x : Nat) : Nat := if x < 64 then 64 else if 65536 < x then 65536 else pow2Below x

/-- A slice window's BASE as clamped (R378). -/
def State.clampDdrBase (s : State) (b : Nat) : Nat :=
  let lo := s.fld .ddrSliceBase 36 12
  let hi := s.fld .ddrSliceLimit 36 12
  if b < lo then lo else if hi ≤ b then hi - 1 else b

/-- A slice window's SIZE as clamped (R69, R378). -/
def State.clampDdrSize (s : State) (base size : Nat) : Nat := min size (s.fld .ddrSliceLimit 36 12 - base)

/-- A write of a configuration register of a slice, taken only while the slice is DISABLED (R45), and of its pools and weights. -/
def State.writeSliceCfg (s : State) (r : Reg) (v : DWord) : State :=
  let off (n : Nat) : Bool := s.sliceState n == 0
  match r with
  | .slmSlicePasid n => if off n then s.wr r (setF (setF 0 19 0 (getF v 19 0)) 31 31 (getF v 31 31)) else s
  | .slmSliceDrbg n =>
    let k := getF v 3 0
    if off n then s.setFld r 3 0 (if s.bit (.rngDrbStat k) 4 && !s.bit (.rngDrbStat k) 3 then k else 0) else s
  | .slmSliceKeywin n =>
    let b := getF v 16 0
    if off n then s.wr r (setF (setF 0 16 0 b) 49 32 (min (getF v 49 32) (131072 - b))) else s
  | .slmSlicePools _ => s.setFld r 31 0 (getF v 31 0)
  | .slmSliceWeight _ _ => s.each (List.range 8) (fun s j => s.setFld r (8 * j + 7) (8 * j) (max 1 (getF v (8 * j + 7) (8 * j))))
  | .slmSliceRde n => if off n then s.setFld r 4 0 (getF v 4 0) else s
  | .slmSliceDdrBase n =>
    if off n then
      let b := s.clampDdrBase (getF v 35 12)
      let s := s.setFld r 35 12 b
      s.setFld (.slmSliceDdrSize n) 36 12 (s.clampDdrSize b (s.fld (.slmSliceDdrSize n) 36 12))
    else s
  | .slmSliceDdrSize n =>
    if off n then s.setFld r 36 12 (s.clampDdrSize (s.fld (.slmSliceDdrBase n) 35 12) (getF v 36 12)) else s
  | .slmSliceDmawinBase n _ | .slmSliceDmawinLimit n _ => if off n then s.setFld r 63 12 (getF v 63 12) else s
  | _ => s

/-- A write of a configuration register of a queue: size and bases only while it is DISABLED (R56), moderation at any time. DESIGN
CHOICE (log 64): MOD_COUNT lowered to or below the pending count sends nothing until the next flagged completion (R67). -/
def State.writeQueueCfg (s : State) (r : Reg) (v : DWord) : State :=
  match r with
  | .qmgQSize q => if s.queueState q = 0 then s.setFld r 16 0 (clampEntries (getF v 16 0)) else s
  | .qmgQSqBase q | .qmgQCqBase q => if s.queueState q = 0 then s.setFld r 63 12 (getF v 63 12) else s
  | .qmgQMod _ => (s.setFld r 8 0 (max 1 (min 256 (getF v 8 0)))).setFld r 25 16 (min 1000 (getF v 25 16))
  | _ => s

end Sys2Proof.Machine
end

