-- ==== Sys2Proof/Machine/Rde.lean ====
section
/-! DEFINITION. The register digest engine: 16 contexts that hash messages written word by word (R235 to R244). -/

namespace Sys2Proof.Machine

/-! ### Paths, owners, status -/

/-- The access path of a claimant to context `c` is open: the slice's window shows it (R235). -/
def State.rdePath (s : State) (c : Nat) : Claimant → Bool
  | .slice n => s.pageOpen n && s.bit (.slmSliceRde n) 4 && s.fld (.slmSliceRde n) 3 0 == c && !s.hidden (.rdeCmd c)
  | .manager => !s.hidden (.rdeCmd c)
  | .sc => true

/-- OWNER of a claimant. -/
def claimantCode : Claimant → Nat
  | .slice n => n
  | .manager => 0x3FE
  | .sc => 0x3FF

/-- STATE: 0 FREE, 1 IDLE, 2 ABSORBING, 3 FINISHING, 4 DONE, 5 POISONED. -/
def State.rdeState (s : State) (c : Nat) : Nat := s.fld (.rdeStatus c) 2 0

/-- CMD_STATUS of one path. -/
def State.rdeReport (s : State) (c : Nat) (who : Claimant) (x : Nat) : State :=
  s.setRde c (fun r => { r with cmd := tset who x r.cmd })

/-- Words of one block of the hash in force. -/
def Rde.blockWords (r : Rde) : Nat := hashBlock r.hash / 8

/-- BUSY follows the buffer and FINISHING (R239). -/
def State.rdeBusy (s : State) (c : Nat) : State :=
  let r := s.rdeOf c
  s.setBit (.rdeStatus c) 3 (s.rdeState c == 3 || (s.rdeState c == 2 && decide (2 * r.blockWords ≤ r.buffered)))

/-- STATE replaced. -/
def State.rdeGo (s : State) (c x : Nat) : State := (s.setFld (.rdeStatus c) 2 0 x).rdeBusy c

/-- Run a command of the owner; another claimant learns NOT_OWNER, and a closed path does nothing (R235, R236). -/
def State.asOwner (s : State) (c : Nat) (who : Claimant) (f : State → State) : State :=
  if !s.rdePath c who then s
  else if (s.rdeOf c).owner = some who then f s else s.rdeReport c who 2

/-! ### CLAIM, RELEASE, CLEAR (R236, R240) -/

/-- CLAIM. -/
def State.rdeClaim (s : State) (c : Nat) (who : Claimant) : State :=
  if !s.rdePath c who then s
  else match (s.rdeOf c).owner with
    | none =>
      let s := ((s.rdeFree c).rdeGo c 1).setFld (.rdeStatus c) 25 16 (claimantCode who)
      (s.setRde c (fun r => { r with owner := some who })).rdeReport c who 0
    | some o => s.rdeReport c who (if o = who then 0 else 1)

/-- RELEASE by the owner. -/
def State.rdeRelease (s : State) (c : Nat) (who : Claimant) : State := s.asOwner c who (fun s => (s.rdeFree c).rdeReport c who 0)

/-- CLEAR by the owner: IDLE, with MODE, KEY and LEN kept. -/
def State.rdeClear (s : State) (c : Nat) (who : Claimant) : State :=
  s.asOwner c who (fun s => (((s.rdeEmpty c 1).setFld (.rdeStatus c) 25 16 (claimantCode who)).rdeBusy c).rdeReport c who 0)

/-- A write of RDE_CMD. -/
def State.rdeCommand (s : State) (c : Nat) (who : Claimant) (x : Nat) : State :=
  match x with
  | 1 => s.rdeClaim c who
  | 2 => s.rdeRelease c who
  | 3 => s.rdeClear c who
  | _ => s

/-- RDE_CLAIM. -/
def execRdeClaim (c : Nat) (who : Claimant) (s : State) : Answer := .next (s.rdeClaim c who)

/-- RDE_RELEASE. -/
def execRdeRelease (c : Nat) (who : Claimant) (s : State) : Answer := .next (s.rdeRelease c who)

/-- RDE_CLEAR. -/
def execRdeClear (c : Nat) (who : Claimant) (s : State) : Answer := .next (s.rdeClear c who)

/-! ### Set-up (R237) -/

/-- TAGLEN as clamped for a hash. -/
def clampTag (h t : Nat) : Nat :=
  let t := if 1 ≤ t ∧ t ≤ 15 then 16 else t
  if hashLen h < t then 0 else t

/-- A write of RDE_MODE, RDE_KEY or RDE_LEN. -/
def State.rdeSetup (s : State) (c : Nat) (who : Claimant) (r : RdeSetup) (v : DWord) : State :=
  s.asOwner c who (fun s =>
    if s.rdeState c ≠ 1 ∧ s.rdeState c ≠ 4 then s.rdeReport c who 3
    else
      let s := s.rdeReport c who 0
      match r with
      | .mode => s.wr (.rdeMode c) (setF (setF (setF 0 3 0 (getF v 3 0)) 5 4 (getF v 5 4)) 14 8 (clampTag (getF v 3 0) (getF v 14 8)))
      | .key => s.setFld (.rdeKey c) 16 0 (getF v 16 0)
      | .len => s.setFld (.rdeLen c) 47 0 (getF v 47 0))

/-- RDE_SETUP_WRITE. -/
def execRdeSetupWrite (c : Nat) (who : Claimant) (r : RdeSetup) (v : DWord) (s : State) : Answer := .next (s.rdeSetup c who r v)

/-! ### Messages (R238 to R242) -/

/-- The absolute slot RDE_KEY names: relative to the owning slice's KBASE, or absolute; none outside the slice's window. -/
def State.rdeSlot (s : State) (c : Nat) (who : Claimant) : Option Nat :=
  let k := s.fld (.rdeKey c) 16 0
  match who with
  | .slice n => if k < s.keyCount n then some (s.keyBase n + k) else none
  | _ => some k

/-- What the check of the key says: a status that poisons the context, or the slot and its material (R238); an uncorrectable error of
the slot or of its attribute record is ECC_UNCORRECTABLE (R36, R358). -/
def State.rdeKeyCheck (s : State) (c : Nat) (who : Claimant) (ue : SlotUe := .none) : Nat ⊕ (Nat × Bytes) :=
  match s.rdeSlot c who with
  | none => .inl 0x14
  | some a =>
    let x := s.slotAt a
    let w := x.attr
    let foreign := match who with
      | .slice n => attrOwner w != n && attrOwner w != 0x3FE
      | _ => false
    if ue = .attr then .inl 0x1A
    else if x.filled && foreign then .inl 0x14
    else if !x.filled || getB w 1 then .inl 0x15
    else if s.sealedAttr w then .inl 0x16
    else if !(attrClass w == 0x0D && attrSet w != 1) || !getB w 11 then .inl 0x14
    else if ue = .key then .inl 0x1A
    else .inr (a, x.mat)

/-- The errors that the read of a context's key met are counted (R358). -/
def State.rdeMet (s : State) (ue : SlotUe) : State :=
  match ue with
  | .key | .attr => (s.bump .memSramUe).memEvt 2
  | .corrected | .correctedAttr => s.bump .memSramCe
  | _ => s

/-- A context is poisoned; its writer learns why. -/
def State.rdePoison (s : State) (c : Nat) (who : Claimant) (status : Nat) : State := (s.rdeGo c 5).rdeReport c who status

/-- The results, COUNT and DROPPED are cleared and the message begins with the settings in force (R238 step 3). -/
def State.rdeAbsorb (s : State) (c : Nat) (who : Claimant) (key : Bytes) : State :=
  let m := s.rd (.rdeMode c)
  let s := s.rdeEmpty c 2
  let s := (s.setFld (.rdeStatus c) 25 16 (claimantCode who)).rdeReport c who 0
  (s.setRde c (fun r => { r with key := key, hash := getF m 3 0, mac := getF m 5 4, tagLen := getF m 14 8
                                 len := s.fld (.rdeLen c) 47 0 })).rdeBusy c

/-- A message begins (R238): poisoned by its MODE or its key, or ABSORBING. A slot whose words disagree starts nothing until the
response has run (R302). -/
def State.rdeBegin (s : State) (c : Nat) (who : Claimant) (ue : SlotUe := .none) : State :=
  let h := s.fld (.rdeMode c) 3 0
  let mac := s.fld (.rdeMode c) 5 4
  if h = 0 ∨ 0xA < h ∨ mac = 3 then s.rdePoison c who 0x10
  else if mac = 0 then s.rdeAbsorb c who []
  else
    match s.rdeSlot c who with
    | some a =>
      if s.slotBad a then s.dueSlots [a]
      else match s.rdeKeyCheck c who ue with
        | .inl x => (s.onlyIf (x == 0x1A) (·.rdeMet ue)).rdePoison c who x
        | .inr (a, mat) => ((s.rdeMet ue).rdeAbsorb c who mat).useHmac a h mat
    | none => s.rdePoison c who 0x14

/-- A word is not taken. -/
def State.rdeDrop (s : State) (c : Nat) : State := s.setBit (.rdeStatus c) 4 true

/-- A word of the message in progress: taken, or dropped while BUSY and beyond LEN (R239). -/
def State.rdeWord (s : State) (c : Nat) (v : DWord) : State :=
  let r := s.rdeOf c
  if s.bit (.rdeStatus c) 3 || decide ((r.len + 7) / 8 ≤ s.fld (.rdeCount c) 47 0 / 8) then s.rdeDrop c
  else
    let s := s.setFld (.rdeCount c) 47 0 (s.fld (.rdeCount c) 47 0 + 8)
    (s.setRde c (fun r => { r with msg := r.msg ++ leBytes 8 v.toNat, buffered := r.buffered + 1 })).rdeBusy c

/-- A word written by the owner: it may begin a message, and is held while FINISHING (R238, R239, R242). -/
def State.rdeTake (s : State) (c : Nat) (who : Claimant) (v : DWord) (ue : SlotUe := .none) : State :=
  match s.rdeState c with
  | 1 | 4 =>
    let s := s.rdeBegin c who ue
    if s.rdeState c = 2 then s.rdeWord c v else s
  | 2 => s.rdeWord c v
  | 3 => s.setRde c (fun r => { r with heldWords := r.heldWords ++ [v] })
  | _ => s

/-- The three checks of R240. -/
def State.rdeLengthsOk (s : State) (c count : Nat) : Bool :=
  let r := s.rdeOf c
  count == r.len && s.fld (.rdeCount c) 47 0 == 8 * ((r.len + 7) / 8) && !s.bit (.rdeStatus c) 4

/-- A write of RDE_FINISH by the owner. -/
def State.rdeFinish (s : State) (c : Nat) (who : Claimant) (count : Nat) (ue : SlotUe := .none) : State :=
  s.asOwner c who (fun s =>
    let s := if s.rdeState c = 1 ∨ s.rdeState c = 4 then s.rdeBegin c who ue else s
    if s.rdeState c ≠ 2 then s
    else if s.rdeLengthsOk c count then (s.rdeGo c 3).rdeReport c who 0 else s.rdePoison c who 0x12)

/-- The digest or HMAC of a context's message. -/
def Rde.value (r : Rde) : Bytes :=
  let m := r.msg.take r.len
  if r.mac = 0 then hashOf r.hash m else hmac r.hash r.key m

/-- RDE_EXPECT as a byte string. -/
def State.rdeExpected (s : State) (c : Nat) : Bytes := (List.range 8).flatMap (fun j => leBytes 8 (s.rd (.rdeExpect c j)).toNat)

/-- The hash of a FINISHING context is complete (R240, R241); words held meanwhile are taken (R242). -/
def State.rdeDone (s : State) (c : Nat) : State :=
  if s.rdeState c ≠ 3 ∨ s.jtagHalted 5 (128 + c) then s
  else
    let r := s.rdeOf c
    let v := r.value
    let n := if r.tagLen = 0 then hashLen r.hash else r.tagLen
    let s := ((s.rdeGo c 4).setBit (.rdeStatus c) 6 true).bump (.rdeMsgs c)
    let s := if r.mac = 2 then s.setBit (.rdeStatus c) 5 (v.take n == (s.rdeExpected c).take n)
      else s.each (List.range 8) (fun s j => s.wr (.rdeResult c j) (BitVec.ofNat 64 (leAt v (8 * j) 8)))
    let s := s.setRde c (fun r => { r with msg := [], buffered := 0, heldWords := [] })
    match r.owner with
    | some who => s.each r.heldWords (fun s w => s.rdeTake c who w)
    | none => s

/-- RDE_BLOCK_PROCESSED: a buffered block is compressed. -/
def execRdeBlockProcessed (c : Nat) (s : State) : Answer :=
  if (s.rdeOf c).blockWords ≤ (s.rdeOf c).buffered ∧ (s.rdeState c = 2 ∨ s.rdeState c = 3) ∧ s.jtagHalted 5 (128 + c) = false then
    .next ((s.setRde c (fun r => { r with buffered := r.buffered - r.blockWords })).rdeBusy c)
  else .next s

end Sys2Proof.Machine
end

