-- ==== Sys2Proof/Machine/EventLog.lean ====
section
/-! DEFINITION. The event log in BBRAM (R425, R426, R432). -/

namespace Sys2Proof.Machine

/-- SEQ of log entry `e`; 0 while it has never been written. -/
def State.logSeq (s : State) (e : Nat) : Nat := s.fld (.tmpLogWord e 2) 63 32

/-- The oldest entry that satisfies a test. -/
def State.oldestLog (s : State) (p : Nat → Bool) : Option Nat :=
  (below 32 p).foldl (fun best e => match best with
    | none => some e
    | some b => if s.logSeq e < s.logSeq b then some e else best) none

/-- Where the next entry goes: an entry never written, the oldest alarm of class LOG, or the oldest (R426). -/
def State.logPlace (s : State) : Nat :=
  match firstBelow 32 (fun e => s.logSeq e == 0) with
  | some e => e
  | none => (s.oldestLog (fun e => s.fld (.tmpLogWord e 1) 7 0 == 1 && s.fld (.tmpLogWord e 1) 23 16 == 1)).getD
      ((s.oldestLog (fun _ => true)).getD 0)

/-- Write an event-log entry (Table 13-5) with a timestamp as TMP_TIME holds it. -/
def State.logAt (s : State) (time : DWord) (kind source cls flags value : Nat) : State :=
  let e := s.logPlace
  let n := s.fld .tmpLogSeq 31 0 + 1
  let t := getF time 63 16 + getF time 14 0 * 2 ^ 48
  let s := s.wr (.tmpLogWord e 0) (BitVec.ofNat 64 t)
  let s := s.wr (.tmpLogWord e 1) (BitVec.ofNat 64 (kind + source * 2 ^ 8 + cls * 2 ^ 16 + flags * 2 ^ 24 + value % 2 ^ 32 * 2 ^ 32))
  let s := s.wr (.tmpLogWord e 2) (BitVec.ofNat 64 ((if s.power.backup then 0 else s.fld .genBootSeq 31 0) + n * 2 ^ 32))
  (s.setFld .tmpLogHead 4 0 e).setFld .tmpLogSeq 31 0 n

/-- Write an event-log entry now. -/
def State.logEvent (s : State) (kind source cls flags value : Nat) : State := s.logAt (s.rd .tmpTime) kind source cls flags value

end Sys2Proof.Machine
end

