-- ==== Sys2Proof/Machine/Rng.lean ====
section
/-! DEFINITION. The entropy source, its health tests and restarts, and the service of the DRBG instances (R334 to R353). -/

namespace Sys2Proof.Machine

/-- SRC_STATE: 0 OFF, 1 STARTUP, 2 RUNNING, 3 RESTARTING, 4 FAILED. -/
def State.srcState (s : State) : Nat := s.fld .rngStatus 2 0

/-- SRC_STATE replaced. -/
def State.setSrc (s : State) (x : Nat) : State := s.setFld .rngStatus 2 0 x

/-- FAILED_RESTARTS. -/
def State.failedRestarts (s : State) : Nat := s.fld .rngStatus 5 4

/-- POOL_BYTES: what the entropy pool holds. -/
def State.poolBytes (s : State) : Nat := s.rng.pool.length

/-- The entropy pool replaced. -/
def State.setPool (s : State) (bs : Bytes) : State := { s with rng := { s.rng with pool := bs } }

/-- PASSED of every cell. -/
def State.setPassed (s : State) (b : Bool) : State := s.each (List.range 4) (fun s k => s.setBit (.rngCellStat k) 0 b)

/-- A restart begins: the cells are reset and not yet passed (R346). `k` numbers a restart after failure; 4 is a commanded one. -/
def State.beginRestart (s : State) (k : Nat) : State :=
  let s := (s.setSrc 3).setPassed false
  { s with rng := { s.rng with restart := k, tests := [] } }

/-! ### Failure (R338, R346, R347, R349) -/

/-- A failed test is recorded and the pool emptied (R335, R338). A known-answer test belongs to no cell; a continuous test that fails in
a start-up test fails it, and is recorded as its failure. -/
def State.recordFail (s : State) (cell test : Nat) : State :=
  let test := if s.srcState = 2 ∨ test = 3 then test else 2
  let s := s.setFld .rngFailInfo 3 0 ((if test = 3 then 0 else cell) + 4 * test)
  (((s.wr .rngFailTime (s.rd .genTime)).bump .rngHtFails).setPool []).rngEvt 0

/-- An instance loses its state (R346, R324). -/
def State.uninstantiate (s : State) (k : Nat) : State :=
  let s := (s.setFld (.rngDrbStat k) 2 0 0).setFld (.rngDrbCount k) 20 0 0
  { s with rng := { s.rng with limitOrder := s.rng.limitOrder.filter (· ≠ k), prWait := s.rng.prWait.filter (fun e => e.1 ≠ k || e.2.1.isNone)
                               inst := s.rng.inst.filter (fun e => e.1 ≠ k) } }

/-- Every instance loses its state. -/
def State.uninstantiateAll (s : State) : State := s.each (List.range 16) (fun s k => (s.uninstantiate k).showPr k)

/-- The source becomes FAILED: the instances are zeroised and waiting jobs end ENTROPY_FAILED (R346, R349). -/
def State.sourceFailed (s : State) : State :=
  let s := (((s.setSrc 4).uninstantiateAll).rngEvt 2).rngEvt 5
  let s := s.logEvent 3 0xFF 0 0 (s.fld .rngFailInfo 31 0)
  let s := { s with rng := { s.rng with restart := 0, recent := false } }
  s.each (s.jobs.filter (fun j => (j.drawWait || j.pqWait) && decide (j.phase ≠ .sealed))) (fun s j => s.jobEnds j.id (.fail 0x30 0))

/-- A failed restart is counted: the next begins, or the third is the last (R346, R347). -/
def State.countFail (s : State) : State :=
  let n := s.failedRestarts + 1
  let s := s.setFld .rngStatus 5 4 n
  if 3 ≤ n then s.sourceFailed else s.beginRestart (n + 1)

/-- A health test fails (R338, R345 to R347, R352, R353). -/
def State.healthFail (s : State) (cell test : Nat) : State :=
  match s.srcState with
  | 1 => (s.recordFail cell test).beginRestart 1
  | 2 => if s.rng.recent then (s.recordFail cell test).countFail else (s.recordFail cell test).beginRestart 1
  | 3 => if s.rng.restart = 4 then (s.recordFail cell test).beginRestart 1 else (s.recordFail cell test).countFail
  | _ => s

/-- HEALTH_TEST_FAILURE: test 0 repetition count, 1 adaptive proportion, 2 start-up, 3 known-answer. `also` lists further cells that fail
in the same sample period, or in the same start-up test: one failure, named by the lowest cell (R338, R353). -/
def execHealthTestFailure (cell test : Nat) (s : State) (also : List Nat := []) : Answer := .next (s.healthFail (also.foldl min cell) test)

/-- The source runs. Within 10 s of a restart after failure a further failure counts as a failed restart, a commanded restart between
them or not (R347). -/
def State.sourceRuns (s : State) : State :=
  let again := s.srcState == 3
  let s := (s.setSrc 2).setPassed true
  let s := { s with rng := { s.rng with restart := 0, recent := again && (s.rng.recent || decide (s.rng.restart ≠ 4)) } }
  s.onlyIf again (·.rngEvt 1)

/-- Samples one after another through the tests of the cells that took them, up to the first failure: how many were taken, the
cells' tests, and the failure. -/
def feed (cellOf : Nat → Nat) : List Bool → Nat → List CellTest → Nat × List CellTest × Option (Nat × Nat)
  | [], i, ts => (i, ts, none)
  | b :: bs, i, ts =>
    let k := cellOf i
    let x := ((ts[k]?).getD .fresh).take b
    match x.fails with
    | some t => (i + 1, ts.set k x, some (k, t))
    | none => feed cellOf bs (i + 1) (ts.set k x)

/-- The bits of a byte string, the first byte's least significant bit first. -/
def bitsOf (bs : Bytes) : List Bool := bs.flatMap (fun b => (List.range 8).map b.getLsbD)

/-- What a batch of samples has shown of a cell, in its registers (R355). -/
def State.noteCell (s : State) (k n : Nat) (x : CellTest) : State :=
  let s := match x.aptLast with
    | some c => s.setFld (.rngCellStat k) 18 8 c
    | none => s
  let s := s.setFld (.rngCellRctMax k) 6 0 (max (s.fld (.rngCellRctMax k) 6 0) x.rctMax)
  let s := s.setFld (.rngCellAptMax k) 10 0 (max (s.fld (.rngCellAptMax k) 10 0) x.aptMax)
  let s := s.wr (.rngCellSamples k) (s.rd (.rngCellSamples k) + BitVec.ofNat 64 n)
  { s with rng := { s.rng with tests := tset k { x with rctMax := 0, aptMax := 0, aptLast := none } s.rng.tests } }

/-- Samples are taken and tested (R336): the first failing cell and its test. -/
def State.takeSamples (s : State) (cellOf : Nat → Nat) (bits : List Bool) : Option (Nat × Nat) × State :=
  let (n, ts, fail) := feed cellOf bits 0 ((List.range 4).map (fun k => tget .fresh k s.rng.tests))
  (fail, s.each (List.range 4) (fun s k => s.noteCell k ((List.range n).filter (fun i => cellOf i = k)).length ((ts[k]?).getD .fresh)))

/-- The lowest cell whose 1,024 samples, of a start-up test's interleaved ones, fail a continuous test (R337, R338). -/
def startupFail (bits : List Bool) : Option Nat :=
  firstBelow 4 (fun k => (feed (fun _ => 0) ((bits.zipIdx.filter (fun e => e.2 % 4 == k)).map (·.1)) 0 [.fresh]).2.2.isSome)

/-- SOURCE_RESTART_END: the start-up test of a start or of a restart passes, or fails with a cell and a test. `samples`, where they are
given, are the 1,024 of each cell that it tests: it passes only if they do. -/
def execSourceRestartEnd (fail : Option (Nat × Nat)) (s : State) (samples : Bytes := []) : Answer :=
  if s.srcState ≠ 1 ∧ s.srcState ≠ 3 then .next s
  else match fail with
    | none =>
      if samples.length ≠ 512 then .next s.sourceRuns
      else
        let s := (s.takeSamples (· % 4) (bitsOf samples)).2
        match startupFail (bitsOf samples) with
        | some k => .next (s.healthFail k 2)
        | none => .next s.sourceRuns
    | some (c, t) => .next (s.healthFail c t)

/-- RESTART_COUNT_CLEAR: 10 s without a failure (R347). -/
def execRestartCountClear (s : State) : Answer :=
  if s.srcState = 2 then .next ({ s with rng := { s.rng with recent := false } }.setFld .rngStatus 5 4 0) else .next s

/-- REARM of a FAILED source (R350). -/
def State.rearm (s : State) : State := if s.srcState = 4 then (s.setFld .rngStatus 5 4 0).beginRestart 1 else s

/-- RNG_REARM. -/
def execRngRearm (s : State) : Answer := .next (s.hostTo .rngCtrl State.rearm)

/-- A commanded restart: no effect while FAILED or RESTARTING (R352, R353). -/
def State.commandRestart (s : State) : State := if s.srcState = 1 ∨ s.srcState = 2 then s.beginRestart 4 else s

/-- RNG_RESTART. -/
def execRngRestart (s : State) : Answer := .next (s.hostTo .rngCtrl State.commandRestart)

/-- A write of RNG_CTRL. -/
def State.writeRngCtrl (s : State) (v : DWord) : State :=
  let s := if getB v 0 then s.rearm else s
  if getB v 1 then s.commandRestart else s

/-! ### The pool and the instances (R334, R341 to R343) -/

/-- CONDITIONED_BLOCK: 1,024 samples, one from each cell in turn, pass the continuous tests and are conditioned into the pool, unless
the block, which enters whole, finds no room there (R334 to R336, R344). -/
def execConditionedBlock (s : State) (samples : Bytes := []) : Answer :=
  if s.srcState = 2 ∧ !s.bit .genState 4 then
    match s.takeSamples (· % 4) (bitsOf samples) with
    | (some (cell, test), s) => .next (s.healthFail cell test)
    | (none, s) => .next (if 512 < s.poolBytes + 32 then s else s.setPool (s.rng.pool ++ sha3 32 samples))
  else .next s

/-- The state of an instance replaced. -/
def State.setDrb (s : State) (k x : Nat) : State := s.setFld (.rngDrbStat k) 1 0 x

/-- DRBG_RESEED_REQUEST: an instance has served 4,096 requests since its reseed. -/
def execDrbgReseedRequest (k : Nat) (s : State) : Answer :=
  if s.drbState k = 1 ∧ 4096 ≤ s.fld (.rngDrbCount k) 20 0 then .next (s.setDrb k 2) else .next s

/-- DRBG_AT_LIMIT: an instance has served 1,048,576 requests and stops. -/
def execDrbgAtLimit (k : Nat) (s : State) : Answer :=
  if (s.drbState k = 1 ∨ s.drbState k = 2) ∧ 1048576 ≤ s.fld (.rngDrbCount k) 20 0 then
    .next (({ s with rng := { s.rng with limitOrder := s.rng.limitOrder ++ [k] } }.setDrb k 3).rngEvt 4)
  else .next s

/-- An instance is instantiated with 64 B of pool output: entropy input, then the nonce (R341, R345). -/
def State.instantiate (s : State) (k : Nat) (bs : Bytes) : State :=
  (((s.setDrb k 1).setFld (.rngDrbCount k) 20 0 0).wr (.rngDrbReseeds k) 0).setDrbg k
    (drbgInstantiate (bs.take 48) (bs.drop 48) (s.otp.serial ++ [BitVec.ofNat 8 k]))

/-- The first prediction-resistant demand is served: its instance is reseeded for it alone and generates at once (R344). The SC's own goes
to `sc`. -/
def State.servePr (s : State) (sc : State → Bytes → State) (k : Nat) (who : Option Nat) (n : Nat) (bs : Bytes) : State :=
  let s := (s.reseed k bs).bump .rngPrCount
  let s := { s with rng := { s.rng with prWait := s.rng.prWait.drop 1 } }.showPr k
  match s.request k n with
  | .got out _ s => match who with
    | some j => s.setJob j (fun x =>
        { x with prGranted := true, drawn := x.drawn ++ [(x.prHalf, out)]
                 drawWait := x.prHalf && x.drawWait, pqWait := !x.prHalf && x.pqWait })
    | none => sc s out
  | _ => s

/-- The RESEED_PENDING instance with the highest count. -/
def State.nextPending (s : State) : Option Nat :=
  (below 16 (fun k => s.drbState k == 2)).foldl (fun best k => match best with
    | none => some k
    | some b => if s.fld (.rngDrbCount b) 20 0 < s.fld (.rngDrbCount k) 20 0 then some k else best) none

/-- Take the oldest bytes of the pool, if there are so many. -/
def State.takePool (s : State) (n : Nat) (f : State → Bytes → State) : State :=
  if n ≤ s.poolBytes then f (s.setPool (s.rng.pool.drop n)) (s.rng.pool.take n) else s

/-- Pool output is served to the next waiting demand in the order of R343, and to none during a dip (R351). -/
def State.servePool (s : State) (sc : State → Bytes → State) : State :=
  if s.srcState ≠ 2 ∨ s.bit .genState 4 then s
  else match firstBelow 16 (fun k => s.bit (.rngDrbStat k) 4 && s.drbState k == 0) with
    | some k => s.takePool 64 (fun s bs => (s.instantiate k bs).seedWaiting)
    | none => match s.rng.prWait with
      | (k, who, n) :: _ => s.takePool 48 (·.servePr sc k who n ·)
      | [] => match s.rng.limitOrder, s.nextPending with
        | k :: _, _ => s.takePool 48 (·.reseed k ·)
        | [], some k => s.takePool 48 (·.reseed k ·)
        | [], none => s

end Sys2Proof.Machine
end

