-- ==== Sys2Proof/Machine/Survive.lean ====
section
/-! DEFINITION. What survives a link reset, a warm reset and a cold reset (R443, R444, Table 14-3), and the reset of the link
(R437). -/

namespace Sys2Proof.Machine

/-! ### Registers -/

/-- The reset value of a register with some fields of `v` kept. -/
def Reg.keep (r : Reg) (v : DWord) (fs : List (Nat × Nat)) : DWord := fs.foldl (fun a f => setF a f.1 f.2 (getF v f.1 f.2)) r.resetVal

/-- What every system reset keeps: OTP, BBRAM and AON values, the classes until the start reloads them (R414), and what is measured. -/
def Reg.afterAny (r : Reg) (v : DWord) : DWord :=
  match r with
  | .genBootSeq | .tmpAlarm | .tmpSrcLast _ | .tmpLogWord _ _ | .tmpLogHead | .tmpLogSeq | .tmpTime | .ddrMcCause | .pwrRails
  | .rstCause | .rstBoot | .lcsState | .lcsOtpGroup | .lcsSecret | .lcsMin | .dbgAuthHId | .dbgAuthIId | .tmpClk
  | .tmpActive | .tmpSrcCfg _ => v
  | .tmpStatus => r.keep v [(0, 0), (12, 8), (17, 16)]
  | .tmpTemp => r.keep v [(8, 0)]
  | .tmpMag => r.keep v [(9, 0)]
  | .tmpVdd => r.keep v [(25, 16)]
  | .lcsPp => r.keep v [(2, 0)]
  | .ddrStat => r.keep v [(15, 8)]
  | _ => r.resetVal

/-- What a warm reset keeps beside that: the host's settings and the pointers of slices and queues, what counts since cold boot,
retired units, the LPDDR5X controller. -/
def Reg.afterWarm (r : Reg) (v : DWord) : DWord :=
  match r with
  | .slmSliceCtrl _ | .slmSlicePasid _ | .slmSliceKeywin _ | .slmSliceMsix _ | .slmSliceRde _ | .slmSliceDdrBase _ | .slmSliceDdrSize _
  | .slmSliceDmawinBase _ _ | .slmSliceDmawinLimit _ _ | .slmSliceStat _
  | .qmgQCtrl _ | .qmgQSize _ | .qmgQSqBase _ | .qmgQCqBase _ | .qmgQSqTail _ | .qmgQSqHead _ | .qmgQCqTail _ | .qmgQCqHead _
  | .qmgQMod _ | .qmgQRptHead _ | .qmgQErr _ => v
  | .genTime | .fabMclogTime _ | .fabMclogInfo _ | .fabMclogHead | .fabIslJobs _ | .fabPoolDone _ | .tilJobs _ | .tilBusyTc _
  | .hsfPartDone _ | .bneCoreJobs _ | .bneCoreBusy _ | .bneCoreYields _ | .bneGrpDone _ | .mbxSeq _ | .rngReseeds | .rngCellSamples _
  | .rngDrbReqs _ | .dbgOpens | .rstLink | .rstWarmCount | .pwrStbyCount | .genCap | .ddrStat | .ddrUsable | .ddrSliceLimit => v
  | .fabTileStat _ => if getF v 2 0 = 4 then setF (r.keep v [(2, 0), (19, 16)]) 14 8 0x7F else r.keep v [(19, 16)]
  | .bneCoreState _ => if getF v 2 0 = 3 then r.keep v [(2, 0), (15, 12)] else r.keep v [(15, 12)]
  | .tmpVdd => r.keep v [(25, 16), (41, 32)]
  | .tmpTemp => r.keep v [(8, 0), (24, 16)]
  | .tmpMag => r.keep v [(9, 0), (25, 16)]
  | .genState => r.keep v [(5, 5)]
  | .ddrFillCtrl => if getF v 5 4 = 1 then setF 0 5 4 3 else 0
  | _ => r.afterAny v

/-- Every register as a reset leaves it; a shadow and a committed copy go the way of their register. -/
def State.resetRegs (s : State) (cold : Bool) : State :=
  let kept (r : Reg) (v : DWord) : DWord := if cold then r.afterAny v else r.afterWarm v
  { s with regs := s.regs.map (fun e => (e.1, kept e.1 e.2))
           shadow := s.shadow.map (fun e => (e.1, ~~~kept e.1 (~~~e.2.1), kept e.1 e.2.2)) }

/-! ### Queues and slices (R32, R437, R444) -/

/-- Slices that are not DISABLED. -/
def State.liveSlices (s : State) : List Nat :=
  (s.regs.filterMap (fun e => match e.1 with
    | .slmSliceStat n => some n
    | _ => none)).filter (fun n => s.sliceState n ≠ 0)

/-- Queues whose control register or head has been written. -/
def State.knownQueues (s : State) : List Nat :=
  s.regs.foldl (fun l e => match e.1 with
    | .qmgQCtrl q | .qmgQSqHead q => insertNat q l
    | _ => l) []

/-- Each queue's submission head is its reported head, a DISABLED queue's too (R32, R444). -/
def State.reportHeads (s : State) : State :=
  { s.each s.knownQueues (fun s q => s.wr (.qmgQRptHead q) (setF (setF 0 15 0 (s.fld (.qmgQSqHead q) 15 0)) 31 31 1)) with
    reported := some [] }

/-- Fetched jobs without a completion entry are not done (R29): a KEYGEN's cell returns, nothing else remains. -/
def State.abandonJobs (s : State) : State :=
  let s := s.each s.jobs State.dropCell
  let s := s.each s.jobs (fun s j => (s.setFld (.qmgQInflight j.queue) 10 0 0).setFld (.slmSliceStat j.slice) 26 16 0)
  { s with jobs := [] }

/-- ACTIVE and QUIESCING slices become QUIESCED, DRAINING queues DISABLED; a slice reset ends (R437 step 4, R444). -/
def State.settleQueues (s : State) : State :=
  let s := s.each (s.liveQueues.filter (fun q => s.queueState q = 3)) (fun s q => s.setQueueState q 0)
  s.each s.liveSlices (fun s n =>
    if s.sliceState n = 4 then s.sliceResetDone n
    else (s.setFld (.slmSliceStat n) 2 0 3).setBit (.slmSliceCtrl n) 1 true)

/-- DM2, the configuration space, the MSI-X table and every pending bit and count return to their defaults, and L1.2 ends (R437 step 3). -/
def State.resetLink (s : State) : State :=
  { s.setBit .pwrState 18 false with
    pcie := { Pcie.init with perst := s.pcie.perst }
    msix := []
    msixPend := []
    qx := s.qx.map (fun e => (e.1, { e.2 with pendInt := 0 })) }

/-! ### Units -/

/-- Every hash core that has been retired since cold boot stays so, with its count of machine checks. -/
def HCore.afterWarm (h : HCore) : HCore := ⟨if h.state = .retired then .retired else .unused, h.mc, false, false⟩

/-- The engines wipe (R434 step 2): tiles, hash cores, frames and resident entries of the BNE. -/
def State.wipeEngines (s : State) (cold : Bool) : State :=
  { s with
    tiles := []
    maskJobs := []
    cox := []
    fetchSlice := 511
    fetchQueue := []
    fetchDue := []
    gateWait := []
    hmac := []
    hcores := if cold then [] else s.hcores.map (fun e => (e.1, e.2.afterWarm))
    bcores := if cold then [] else s.bcores.map (fun e =>
      (e.1, ⟨none, none, e.2.res.map (fun r => (r.1, { r.2 with owner := none, val := [] })), false, false⟩)) }

/-- What a cold reset loses beside what a warm one does (R229, R309, R443): secure SRAM, the boot keys, LPDDR5X. -/
def State.loseCold (s : State) : State :=
  { s with
    slots := []
    memo := []
    qx := []
    reported := none
    ddr := []
    cells := s.cells.map (fun e => (e.1, { e.2 with next := none, cap := 0, traversal := none }))
    boot := { s.boot with keys := none }
    tamper := { s.tamper with sampled := false } }

/-- Work that a system reset abandons: a mailbox command and its session, a re-rig, a transition, debug rights, HALTED, waits at
the DRBG instances (Table 14-3). -/
def State.abandonWork (s : State) : State :=
  { s with
    rng := ⟨[], [], 0, [], [], [], false⟩
    rde := []
    reRig := none
    rig := none
    -- the key of a slot whose cell has been freed goes on from LIMIT (R229, R231)
    cells := s.cells.map (fun e => (e.1, { e.2 with next := if e.2.state = .used then e.2.next else none
                                                    traversal := if e.2.state = .used then e.2.traversal else none
                                                    writing := none, freeing := false, waiters := [], rebuilding := false }))
    mbx := { s.mbx with queue := [], busy := none, session := none, flash := none, staged := 0, rsp := [], pressed := false }
    transition := none
    dbg := ⟨none, 0, []⟩
    tamper := { s.tamper with haltOwed := none, dipHalt := false, slotsDue := [] }
    boot := { s.boot with block := none, romHold := false, groupBad := false, trained := false, firmware := none, patch := none, workEnded := false, standbyGated := [], linkDown := false } }

/-- The replays due once the link has gone down at `now`: those of an earlier loss stay due with their own time (R31). -/
def State.dueReplays (s : State) (now : Nat) : List (Nat × Nat) := s.boot.replays ++ s.liveSlices.map (fun n => (n, now))

/-- Secure SRAM is wiped: slots, attributes, memo depths, NEXT (R359). -/
def State.wipeSecure (s : State) : State :=
  { s with slots := [], hmac := [], memo := [], cells := s.cells.map (fun e => (e.1, { e.2 with next := none })) }

/-- The state a system reset leaves: what is kept, with the domains held in reset (R434, R443, R444). A life-cycle transition that it
ends has wiped secure SRAM (R393). -/
def State.enterReset (s : State) (cold : Bool) : State :=
  let now := s.now
  let up := s.pcie.dlActive
  let s := if s.transition.any (fun t => !t.wiped) then s.wipeSecure else s
  let s := if cold then s else s.reportHeads
  let s := s.abandonJobs
  let s := if cold then s else s.stopFill
  let s := if cold then s else s.settleQueues
  let s := (s.resetRegs cold).resetLink
  let s := (s.wipeEngines cold).abandonWork
  let s := if cold then s.loseCold else s
  let s := if s.tamper.dip.isSome then s.setBit .genState 4 true else s
  let s := if cold then s else if s.bit .ddrStat 1 then s.setBit .ddrStat 3 true else s
  { s with
    boot := { s.boot with held := true, starting := false, cold := cold,
                          replays := if cold then [] else if up then s.dueReplays now else s.boot.replays }
    pins := { s.pins with holdReleased := false, dynAddr := none, ibi := false, i3cAddr := 0, scan := [], tapReset := true, bypass := false } }

/-! ### Taking a system reset (R433, R434, R459) -/

/-- RST_CAUSE of a reset: cause, kind and source. -/
def State.latchCause (s : State) (cold : Bool) (cause src merged : Nat) : State :=
  s.wr .rstCause (BitVec.ofNat 64 (cause + (if cold then 0 else 16) + src * 2 ^ 8 + min 255 merged * 2 ^ 16))

/-- RESET_N is driven low, for 10 ms from the trigger, and ignored for 100 µs more; not for cause RESET_PIN (R440). -/
def State.driveReset (s : State) (cause : Nat) : State :=
  if cause = 2 then s else { s with pins := { s.pins with resetLow := true, resetLeft := 10100000 } }

/-- The reset in force becomes cold (R435, R436, R459): its cause is replaced, and what a cold reset loses is lost. -/
def State.becomeCold (s : State) (cause src merged : Nat) : State := ((s.enterReset true).latchCause true cause src merged).driveReset cause

/-- Write the completion entry of every ended job while the link is up. -/
def State.flushEnded (s : State) : State :=
  if !s.pcie.dlActive then s
  else s.each (s.jobs.filter (fun j => decide (j.phase = .sealed))) (fun s j => match s.job? j.id with
    | some x => s.complete x (x.result.getD (.fail 0x42 0)) .none false
    | none => s)

/-- A trigger that meets a system reset not yet released: the cold one runs if either is cold, and a zeroisation names itself;
the others are counted, `count` apart for alarms of one group (R418, R459). -/
def State.mergeReset (s : State) (cold : Bool) (cause src : Nat) (count : Bool) : State :=
  let m := s.fld .rstCause 23 16 + (if count then 1 else 0)
  if cold && (decide (s.fld .rstCause 5 4 = 1) || (cause == 6 && s.fld .rstCause 3 0 != 6)) then s.becomeCold cause src m
  else s.setFld .rstCause 23 16 (min 255 m)

/-- A system reset is triggered; jobs already sealed complete first, if the link is up (R37, R434). RESET_N is driven low for every cause but RESET_PIN (R440). Nothing resets an unpowered device. -/
def State.systemReset (s : State) (cold : Bool) (cause src : Nat) (count : Bool := true) : State :=
  if !s.power.io || s.power.backup then s
  else if s.boot.held then s.mergeReset cold cause src count
  else
    let s := (s.flushEnded.enterReset cold).latchCause cold cause src 0
    let s := if cold then s else s.bump .rstWarmCount
    s.driveReset cause

/-! ### Zeroisation (R324, R37) -/

/-- The zeroisation line: unsealed jobs end ZEROISED, and everything of Table 09-8 is cleared. `why` is the log's VALUE: 0 a
response, 1 the ZEROISE command, 2 a life-cycle move. A mailbox command that the SC runs ends ZEROISED (Table 09-11). -/
def State.zeroiseLine (s : State) (why : Nat) : State :=
  let s := (s.flushEnded.endAll 0x42 false).flushEnded
  let s := s.uninstantiateAll
  let s : State := s.each (List.range 16) State.rdeFree
  let s : State := { s with
    bbram := { s.bbram with vault := [], epoch := none, summary := 0 }
    cells := []
    slots := []
    hmac := []
    memo := []
    maskJobs := []
    tiles := s.tiles.map (fun e : Nat × Tile => (e.1, { e.2.wipe with gen := [], fifo := [] }))
    bcores := []
    rng := { s.rng with limitOrder := [], prWait := [], inst := [] }
    boot := { s.boot with keys := none } }
  ((s.setBit .ddrStat 1 false).logEvent 2 0xFF 0 0 why).mbxZeroised

/-! ### The reset of the link (R31, R437) -/

/-- RST_LINK: the latest cause, and the count. -/
def State.countLink (s : State) : LinkEvent → State
  | .perst => (s.setFld .rstLink 1 0 1).setFld .rstLink 23 8 (satAdd 16 (s.fld .rstLink 23 8) 1)
  | .hotReset => (s.setFld .rstLink 1 0 2).setFld .rstLink 23 8 (satAdd 16 (s.fld .rstLink 23 8) 1)
  | .linkDown => (s.setFld .rstLink 1 0 3).setFld .rstLink 23 8 (satAdd 16 (s.fld .rstLink 23 8) 1)

/-- Every debug right ends, and an outstanding challenge with them (R400). -/
def State.endDebug (s : State) : State :=
  ({ s with dbg := ⟨none, 0, []⟩ }.wr .dbgRights 0).wr .dbgChalExpiry 0

/-- Work ends as R437 steps 1 and 2 say: heads reported, jobs not done, the engines' units wiped. -/
def State.endWork (s : State) : State :=
  let s := s.reportHeads
  let s := s.each s.jobs (fun s j => ((s.freeShells j).dropLoad j).dropCell j)
  let all := s.jobs
  let s := s.each s.jobs (fun s j => (s.setFld (.qmgQInflight j.queue) 10 0 0).setFld (.slmSliceStat j.slice) 26 16 0)
  let s := { s with jobs := [], fetchDue := [], rng := { s.rng with prWait := [] } }
  let s := s.each (List.range 16) State.showPr
  s.each all State.vacateAll

/-- A link reset in SERVICE, HALTED or STANDBY (R437 steps 1 to 6); in other states only DM2 is reset, and debug rights end as with
every reset (R397, R400), in BLANK those that are in force from the start apart (Table 12-1). A hot reset or a loss of DL_Active comes
only on a link that is up. -/
def State.linkReset (s : State) (k : LinkEvent) : State :=
  let st := s.devState
  let now := s.now
  if !s.pcie.dlActive && decide (k ≠ LinkEvent.perst) then s
  else if st == 1 || st == 2 || st == 4 then
    let s := (s.countLink k).endWork
    let s := (s.settleQueues).resetLink
    let s := s.each (below 16 (fun c => match (s.rdeOf c).owner with
      | some .sc | none => false
      | _ => true)) State.rdeFree
    let s := s.endDebug
    { (if st = 2 then s else s.setFld .genState 3 0 0) with
      boot := { s.boot with replays := s.dueReplays now, linkDown := true, workEnded := false } }
  else
    let s := (s.countLink k).resetLink
    if st == 5 then s else s.endDebug

/-- LINK_RESET: the link goes down for a cause; during a system reset, no separate event occurs (R459). -/
def execLinkReset (k : LinkEvent) (s : State) : Answer :=
  let s := { s with pcie := { s.pcie with perst := s.pcie.perst || decide (k = LinkEvent.perst) } }
  if s.boot.held ∨ s.boot.starting then .next s.resetLink else .next (s.linkReset k)

/-- The device enters SERVICE after work was ended: GEN_BOOT_SEQ rises (R32). -/
def State.bumpBoot (s : State) : State := s.setFld .genBootSeq 31 0 (s.fld .genBootSeq 31 0 + 1)

end Sys2Proof.Machine
end

