-- ==== Sys2Proof/Machine/Tamper.lean ====
section
/-! DEFINITION. Tamper and environment monitors: alarms and their response classes, HALTED, supply dips, the backup cell
(R407 to R424, R429). -/

namespace Sys2Proof.Machine

/-! ### Effective classes (R414, R422) -/

/-- The effective class from the OTP floor and the rig's raise (R414). -/
def State.committedClass (s : State) (k : Nat) : Nat :=
  max ((s.otp.floors[k]?).getD 0) ((s.rig.bind (fun r => r.raise[k]?)).getD 0)

/-- The class that an alarm of source `k` executes: TMP_SRC_CFG.CLASS, or what a restore would give it (R38, R429). -/
def State.effClass (s : State) (k : Nat) : Nat :=
  if s.shadowBad (.tmpSrcCfg k) then s.committedClass k else s.fld (.tmpSrcCfg k) 10 8

/-- The class that an alarm executes where it meets the device: while HALTED a class that does not lie above HALT_SERVICE is only
logged, and so is HALT_SERVICE in RECOVERY (R429). -/
def State.execClass (s : State) (cls : Nat) : Nat :=
  if (s.devState = 2 ∧ cls ≤ 3) ∨ (s.devState = 3 ∧ cls = 3) then min 1 cls else cls

/-- Every source's FLOOR, RAISE, CLASS and BACKUP, and the AON's copy for sources 0 to 7 (R414, R422, R431). -/
def State.loadClasses (s : State) : State :=
  let s := s.each (List.range 18) (fun s k =>
    let fl := (s.otp.floors[k]?).getD 0
    let raise := (s.rig.bind (fun r => r.raise[k]?)).getD 0
    s.wr (.tmpSrcCfg k) (BitVec.ofNat 64 (fl + raise * 2 ^ 4 + max fl raise * 2 ^ 8 + (if k < 8 then 2 ^ 12 else 0))))
  { s with tamper := { s.tamper with aonClass := (List.range 8).map (fun k => (s.committedClass k, 7 - s.committedClass k)) } }

/-! ### Logging an alarm (R413, R418, R425) -/

/-- The bit of the epoch's TAMPER_SUMMARY. -/
def State.noteSummary (s : State) (k : Nat) : State :=
  if s.bbram.epoch.isSome then { s with bbram := { s.bbram with summary := s.bbram.summary ||| 2 ^ k } } else s

/-- The actions of class LOG beside the entry: TMP_ALARM, the counts, the summary. -/
def State.latchAlarm (s : State) (time : DWord) (k : Nat) : State :=
  (((s.setBit .tmpAlarm k true).bump (.tmpSrcCount k)).wr (.tmpSrcLast k) time).noteSummary k

/-- The actions of class LOG. -/
def State.logAlarm (s : State) (time : DWord) (k cls flags val : Nat) : State := (s.logAt time 1 k cls flags val).latchAlarm time k

/-- A log entry's timestamp as TMP_TIME holds one. -/
def State.entryTime (s : State) (e : Nat) : DWord :=
  BitVec.ofNat 64 (s.fld (.tmpLogWord e 0) 62 48 + s.fld (.tmpLogWord e 0) 47 0 * 2 ^ 16)

/-- A supply dip whose entry is not written yet belongs to the present group (R418, R420). -/
def State.dipGrouped (s : State) : Bool := s.tamper.dip.any (·.grouped)

/-- The present group has an alarm that another can join. -/
def State.groupOpen (s : State) : Bool := !s.tamper.group.isEmpty || s.dipGrouped

/-- The timestamp of the present group: its first entry's, or the trigger of the dip that opened it. -/
def State.groupTime (s : State) : DWord :=
  match s.tamper.group.head? with
  | some n => match firstBelow 32 (fun e => s.logSeq e == n) with
    | some e => s.entryTime e
    | none => s.rd .tmpTime
  | none => if s.dipGrouped then s.rd (.tmpSrcLast 9) else s.rd .tmpTime

/-- Every entry of the present group carries the class executed, the one a dip still owes too. -/
def State.regroup (s : State) (cls : Nat) : State :=
  let s := s.each (below 32 (fun e => s.logSeq e != 0 && decide (s.logSeq e ∈ s.tamper.group))) (fun s e => s.setFld (.tmpLogWord e 1) 23 16 cls)
  { s with tamper := { s.tamper with dip := s.tamper.dip.map (fun d => if d.grouped then { d with cls := cls } else d) } }

/-- An alarm that joins no group opens one (R418). -/
def State.openGroup (s : State) : State :=
  { s with tamper := { s.tamper with running := 0, group := [], dip := s.tamper.dip.map (fun d => { d with grouped := false }) } }

/-- The entry of a dip: the trigger's timestamp, and the lowest VDD_CORE as VALUE (R420). -/
def State.logDip (s : State) (d : Dip) : State :=
  let s := s.logAt (s.rd (.tmpSrcLast 9)) 1 9 d.cls (if d.same then 2 else 0) d.lowest
  if d.grouped then { s with tamper := { s.tamper with group := s.tamper.group ++ [s.fld .tmpLogSeq 31 0] } } else s

/-- VDD_RESET ends a dip in its response (R420): the dip's entry is written, and nothing of it is left to recover. -/
def State.endDip (s : State) : State :=
  match s.tamper.dip with
  | none => s
  | some d =>
    let s := if d.halted then s else s.logDip d
    ({ s with tamper := { s.tamper with dip := none } } : State).setBit .genState 4 false

/-- What stands before an alarm of VDD_RESET (R456). -/
def State.beforeVdd (s : State) : VddUndo :=
  let e := s.logPlace
  ⟨e, (List.range 4).map (fun w => s.rd (.tmpLogWord e w)), s.fld .tmpLogHead 4 0, s.fld .tmpLogSeq 31 0, s.bit .tmpAlarm 10,
    s.bbram.summary.testBit 10, s.tamper.drove.testBit 10, s.rd (.tmpSrcLast 10)⟩

/-- A VDD_RESET alarm is discarded: neither logged nor latched (R456). SEQ is given back unless an entry has followed (R425). -/
def State.undoVdd (s : State) (u : VddUndo) : State :=
  let s := (s.setBit .tmpAlarm 10 u.latched).wr (.tmpSrcLast 10) u.last
  let s : State := { s with
    bbram := { s.bbram with summary := if u.noted then s.bbram.summary else s.bbram.summary &&& (2 ^ 18 - 1 - 2 ^ 10) }
    tamper := { s.tamper with drove := if u.drove then s.tamper.drove else s.tamper.drove &&& (2 ^ 18 - 1 - 2 ^ 10) } }
  if s.logSeq u.place = u.seq + 1 then
    let s := s.each (List.range 4) (fun s w => s.wr (.tmpLogWord u.place w) ((u.words[w]?).getD 0))
    if s.fld .tmpLogSeq 31 0 = u.seq + 1 then (s.setFld .tmpLogHead 4 0 u.head).setFld .tmpLogSeq 31 0 u.seq else s
  else s

/-! ### Responses (R413, R415, R429) -/

/-- ALARM_N is driven low from an alarm of source `k` (R417). -/
def State.driveAlarm (s : State) (k : Nat) : State :=
  { s with pins := { s.pins with alarmLow := true }, tamper := { s.tamper with drove := s.tamper.drove ||| 2 ^ k } }

/-- The TMP_EVT_VECTOR message. -/
def State.alarmMessage (s : State) : State := if s.bit .tmpEvtVector 31 then s.sendMsix (s.fld .tmpEvtVector 10 0) else s

/-- Tiles that have joined no shell yet, and cores that were to join, are UNUSED again when a re-rig ends before its commit. -/
def State.dropJoiners (s : State) : State :=
  let s := s.each (below 96 (fun t => s.claimed t && s.tileState t == 3 && ((s.tile t).bist.isNone || decide ((s.tile t).bist = some .join)))) (fun s t =>
    (s.setTileState t 0).setTile t (fun x => { x with bist := none, unseeded := false }))
  let s := s.each (below 128 s.joiningHash) (fun s k => s.setHcore k (fun h => { h with state := .unused }))
  s.each (below 8 s.joiningBne) (fun s c => s.setBneState c 0)

/-- A live re-rig ends before its commit: nothing of it remains, and waiting GATEs take effect (R292 step 3, R294). -/
def State.dropReRig (s : State) : State :=
  ({ s.dropJoiners with reRig := none, mbx := { s.mbx with flash := none } } : State).applyGates

/-- A live re-rig ends its command when the device enters HALTED: before the commit nothing of it remains, after the commit the
switch goes on (R39, R294). -/
def State.haltReRig (s : State) : State :=
  match s.reRig, s.mbx.busy with
  | some r, some ch =>
    let s := if r.committed then s else s.dropReRig
    if s.mbxCode ch = 0x0204 then s.mbxDone ch 0x25 0 [] else s
  | _, _ => s

/-- HALTED, with the source that caused it (R415). -/
def State.enterHalted (s : State) (k : Nat) : State :=
  ((s.setFld .genState 3 0 2).setBit .tmpStatus 2 true).setFld .tmpStatus 12 8 k

/-- Class HALT_SERVICE: work stops under R37 and the device is HALTED; a start and STANDBY owe it (R429). -/
def State.haltService (s : State) (k : Nat) : State :=
  if s.boot.held || s.boot.starting || s.devState == 4 then
    { s with tamper := { s.tamper with haltOwed := some (s.tamper.haltOwed.getD k) } }
  else match s.devState with
    | 0 => if s.boot.linkDown then (s.endAll 0x41 true).enterHalted k else { s with tamper := { s.tamper with haltOwed := some k } }
    | 1 => ((s.endAll 0x41 true).enterHalted k).haltReRig
    | _ => s

/-- Class RESET: a tamper reset. `count` is false for an alarm of
a group whose reset is already taken. -/
def State.tamperReset (s : State) (k : Nat) (count : Bool) : State :=
  s.systemReset false 5 k count

/-- Classes ZEROISE and ZEROISE_LOCK: the line, the lock flag, and the cold reset (R416). -/
def State.tamperZeroise (s : State) (k : Nat) (lock count : Bool) : State :=
  let s := s.zeroiseLine 0
  let s : State := if lock then { s with bbram := { s.bbram with lock := true } } else s
  s.systemReset true 6 k count

/-- A start after a reset that TEMP_SHUTDOWN or CLK has caused waits for the source (R411). -/
def State.holdFor (s : State) (k : Nat) : State :=
  if k = 13 ∨ k = 14 then { s with tamper := { s.tamper with holdStart := insertNat k s.tamper.holdStart } } else s

/-- The actions of a class above INTERRUPT. -/
def State.respond (s : State) (k cls : Nat) (count : Bool) : State :=
  if cls < 3 then s
  else match cls with
    | 3 => s.haltService k
    | 4 => (s.tamperReset k count).holdFor k
    | 5 => (s.tamperZeroise k false count).holdFor k
    | _ => (s.tamperZeroise k true count).holdFor k

/-- Class INTERRUPT and what lies above it, for one source whose response is a group of its own. -/
def State.act (s : State) (k cls : Nat) : State := if cls < 2 then s else ((s.alarmMessage).driveAlarm k).respond k cls true

/-- An LC_ADVANCE that waits for presence ends when an alarm of class HALT_SERVICE or higher comes, in RECOVERY too (R393). -/
def State.endLcWait (s : State) (cls : Nat) : State :=
  match s.mbx.busy with
  | some ch =>
    if 3 ≤ cls ∧ s.mbxCode ch = 0x0402 ∧ s.bit (.mbxStatus ch) 2 ∧ s.transition.isNone then
      ((s.setFld .lcsState 6 4 0).setFld .lcsState 10 8 0).mbxDone ch 0x25 0 []
    else s
  | none => s

/-- What an alarm of source `k` does beside its class: the temperature ceiling (R410, R167), the entropy source's restart (R412),
LCS_PP.SEAL_OPEN (R409). -/
def State.alarmSide (s : State) (k : Nat) : State :=
  if k = 12 then
    let c := s.fld .tmpTempCtrl 1 0
    let s := s.each (List.range 8) (fun s n => (s.setFld (.fabIslStat n) 3 2 c).effFreq n)
    if c = 0 then s else s.fabEvt 7
  else if k = 16 then s.commandRestart
  else if k = 6 then s.setBit .lcsPp 2 true
  else s

/-- Sources of the present group drive ALARM_N once its class is INTERRUPT or higher. -/
def State.driveGroup (s : State) (k run : Nat) : State :=
  if run < 2 then s
  else (s.each (below 32 (fun e => s.logSeq e != 0 && decide (s.logSeq e ∈ s.tamper.group))) (fun s e =>
    s.driveAlarm (s.fld (.tmpLogWord e 1) 15 8))).onlyIf s.dipGrouped (·.driveAlarm 9) |>.driveAlarm k

/-- The response of a group that an alarm of class `cls` has joined, whose highest class was `prev`: the highest is executed once
(R418). `eff` is the alarm's effective class. -/
def State.answerGroup (s : State) (k eff cls prev : Nat) (joined : Bool) : State :=
  let run := max cls prev
  let s : State := { s with tamper := { s.tamper with running := run } }
  let s := ((s.regroup run).driveGroup k run).endLcWait eff
  let s := if prev < 2 ∧ 2 ≤ cls then s.alarmMessage else s
  if cls ≤ prev then s else s.respond k cls (!joined)

/-- An alarm of a live source executes its effective class; `same` puts it into the group of the alarm before it. An INTEGRITY alarm,
which the restore of R428 raises, comes the same way. -/
def State.alarm (s : State) (k val : Nat) (same : Bool) : State :=
  let eff := s.effClass k
  let cls := s.execClass eff
  let joined := same && s.groupOpen
  let prev := if joined then s.tamper.running else 0
  let s := ((if k = 10 then s.endDip else s).setBit .tmpActive k true).alarmSide k
  let s := if joined then s else s.openGroup
  let undo := s.beforeVdd
  let s := s.logAlarm (if joined then s.groupTime else s.rd .tmpTime) k (max cls prev) (if joined then 2 else 0) val
  let s : State := { s with tamper := { s.tamper with
    group := s.tamper.group ++ [s.fld .tmpLogSeq 31 0], vddUndo := if k = 10 then some undo else s.tamper.vddUndo } }
  s.answerGroup k eff cls prev joined

/-! ### Supply dips (R419 to R421) -/

/-- A dip begins: jobs that are started and not sealed are suspect, dispatch is paused; a halted tile's job is abandoned and
re-executed at recovery (R201, R420). VDD_WARN alarms: all that its class does acts now, but for the log entry, which recovery
writes. -/
def State.beginDip (s : State) (mv : Nat) (same : Bool) : State :=
  let eff := s.effClass 9
  let cls := s.execClass eff
  let joined := same && s.groupOpen
  let prev := if joined then s.tamper.running else 0
  let s := if joined then s else s.openGroup
  let time := if joined then s.groupTime else s.rd .tmpTime
  let s : State := { s with
    jobs := s.jobs.map (fun j => if j.phase = .sealed ∨ j.phase = .waiting then j else { j with suspect := true })
    tamper := { s.tamper with dip := some ⟨mv, false, max cls prev, joined, true⟩ } }
  let s := ((s.setBit .genState 4 true).setBit .tmpActive 9 true).latchAlarm time 9
  let s := s.each (below 96 (fun t => (s.tile t).halt.isSome && (s.tile t).running)) State.freeTile
  s.answerGroup 9 eff cls prev joined

/-- The warning level in mV (R419). -/
def State.warnLevel (s : State) : Nat := s.fld .tmpVdd 9 0

/-- The monitors of main power work: VDD_IO is present and the power-on reset has released. -/
def State.monitored (s : State) : Bool := s.power.io && !s.power.backup && !s.power.por

/-- VDD_CORE falls below the warning level; no further alarm comes before the recovery of one (R408). -/
def State.supplyDip (s : State) (mv : Nat) (same : Bool) : State :=
  if !s.monitored || s.tamper.dip.isSome || s.bit .tmpActive 9 || decide (s.warnLevel ≤ mv) then s else s.beginDip mv same

/-- A suspect job, finished or not, is abandoned and re-executed, uncounted (R420, R421); of a hybrid job, the halves not sealed. -/
def State.redo (s : State) (j : Job) : State :=
  if dClass j.desc = 0x10 ∧ j.unit.isNone then
    let again (s : State) (pq : Bool) (h : Half) : State :=
      if h.unit.isSome && decide (h.phase ≠ .sealed) then s.retryHalf j.id pq false else s
    (again (again s false j.classical) true j.pq).setJob j.id (fun x => { x with suspect := false })
  else s.retry j.id false

/-- Recovery: suspect jobs are re-executed, dispatch resumes, the dip is counted and logged (step 4 of Table 13-3). After a dip that
VDD_RESET has ended only the condition clears. -/
def State.recoverDip (s : State) (mv us : Nat) : State :=
  if mv < s.warnLevel + 15 then s
  else match s.tamper.dip with
    | none => s.setBit .tmpActive 9 false
    | some d =>
      let s := if d.halted then s else s.logDip d
      let s : State := { s with tamper := { s.tamper with dip := none } }
      let s := s.each (s.jobs.filter (fun j => j.suspect && decide (j.phase ≠ .sealed))) State.redo
      let s := (s.setBit .genState 4 false).setBit .tmpActive 9 false
      let s := (s.bump .tmpDipCount).setFld .tmpDipLongest 12 0 (max (s.fld .tmpDipLongest 12 0) (min 8191 us))
      s

/-- A dip of 5 ms: HALTED with HALT_SRC 9 and CLASS 3 (step 5). In a start or in STANDBY the halt is owed; while HALTED or in
RECOVERY, and where no work runs, the dip is only logged (R429). A life-cycle move whose programming it has deferred stops (R393). -/
def State.haltDip (s : State) (mv : Nat) : State :=
  match s.tamper.dip with
  | none => s
  | some d =>
    if d.halted then s
    else
      let cls := s.execClass 3
      let warned := decide (2 ≤ d.cls)
      let d := { d with lowest := min d.lowest mv, cls := max d.cls cls }
      let s := s.logDip d
      let s : State := { s with
        tamper := { s.tamper with dip := some { d with halted := true, grouped := false } }
        transition := s.transition.map (fun t => { t with stopped := t.wiped }) }
      let s := s.endLcWait 3
      let stops := s.boot.held || s.boot.starting || decide (s.devState ∈ [0, 1, 4])
      let s : State := if stops then { s with tamper := { s.tamper with dipHalt := true } } else s
      if cls < 2 then s else ((s.onlyIf (!warned) State.alarmMessage).driveAlarm 9).respond 9 cls true

/-- DIP_HALT. -/
def execDipHalt (mv : Nat) (s : State) : Answer := .next (s.haltDip mv)

/-- A write of TMP_VDD: WARN clamped to 690 to 730 and rounded down to a multiple of 5; it applies at once (R419). -/
def State.writeTmpVdd (s : State) (v : DWord) : State := s.setFld .tmpVdd 9 0 (max 690 (min 730 (getF v 9 0)) / 5 * 5)

/-- TMP_VDD_WRITE. -/
def execTmpVddWrite (v : DWord) (s : State) : Answer := .next (s.hostTo .tmpVdd (·.writeTmpVdd v))

/-! ### Temperature ceiling (R410) -/

/-- A write of TMP_TEMP_CTRL: 3 is clamped to 2; while TEMP_WARN is active it applies at once. -/
def State.writeTempCtrl (s : State) (v : DWord) : State :=
  let s := s.setFld .tmpTempCtrl 1 0 (min 2 (getF v 1 0))
  if s.bit .tmpActive 12 then s.alarmSide 12 else s

/-- TMP_TEMP_CTRL_WRITE. -/
def execTmpTempCtrlWrite (v : DWord) (s : State) : Answer := .next (s.hostTo .tmpTempCtrl (·.writeTempCtrl v))

/-! ### Alarms and their ends (R407, R408) -/

/-- Source `k` is live: sources 0 to 7 while the AON has main power, 0 to 6 while the crystal runs, the others past POR. -/
def State.srcLive (s : State) (k : Nat) : Bool :=
  decide (k < 18) && s.power.io && !s.power.backup && (if k < 7 then s.power.crystal else if k = 7 then true else s.monitored)

/-- The condition of source `k` clears: VDD_WARN's by recovery, VDD_RESET's and VDD_HIGH's at the next start, INTEGRITY's at the end of
its restore (R407). -/
def State.inactive (s : State) (k : Nat) : State :=
  if k = 9 ∨ k = 10 ∨ k = 11 ∨ 17 ≤ k then s
  else
    let s := s.setBit .tmpActive k false
    let s := if k = 6 then s.setBit .lcsPp 2 false else s
    if k = 12 then s.each (List.range 8) (fun s n => (s.setFld (.fabIslStat n) 3 2 0).effFreq n)
    else { s with tamper := { s.tamper with holdStart := s.tamper.holdStart.filter (· ≠ k) } }

/-! ### HALTED and the latches (R415, R417) -/

/-- A write of TMP_CTRL with RESUME 1. -/
def State.resume (s : State) : State :=
  let ok := s.devState == 2 && s.bit .tmpStatus 2 && (List.range 18).all (fun k => !s.bit .tmpActive k || decide (s.effClass k < 3))
    && !(s.tamper.dipHalt && s.tamper.dip.isSome)
  if !ok then s.setFld .tmpStatus 17 16 2
  else
    let s := ((s.setFld .tmpStatus 17 16 1).setBit .tmpStatus 2 false).setFld .genState 3 0 (if s.boot.linkDown then 0 else 1)
    let s := if s.boot.linkDown then s else s.wr .rstServiceNs (s.rd .genTime)
    { s with tamper := { s.tamper with dipHalt := false } }

/-- ALARM_N stays low until every source that drove it has its TMP_ALARM bit cleared; LOCKED keeps it low (R416, R417). -/
def State.settleAlarmN (s : State) : State :=
  let d := s.tamper.drove &&& s.fld .tmpAlarm 17 0
  { s with tamper := { s.tamper with drove := d }, pins := { s.pins with alarmLow := decide (d ≠ 0) || s.devState == 15 } }

/-- A write of TMP_ALARM. -/
def State.writeTmpAlarm (s : State) (v : DWord) : State :=
  (s.setFld .tmpAlarm 17 0 (s.fld .tmpAlarm 17 0 &&& (s.fld .tmpAlarm 17 0 ^^^ getF v 17 0))).settleAlarmN

/-- A write of TMP_STATUS: TAMPERED is W1C (R423). -/
def State.writeTmpStatus (s : State) (v : DWord) : State := if getB v 0 then s.setBit .tmpStatus 0 false else s

/-! ### The backup cell (R422, R423) -/

/-- The class of source `k` in the AON's copy; none when it disagrees with its shadow, which lets no copy take effect (R38, R422). -/
def State.aonClass (s : State) (k : Nat) : Option Nat := match s.tamper.aonClass[k]? with
  | some (c, inv) => if c + inv = 7 then some c else none
  | none => some (s.committedClass k)

/-- An alarm on the backup cell zeroises the BBRAM rows of Table 09-8, is logged, locks for class ZEROISE_LOCK, and leaves the next
start TAMPERED (R422, R423). On the cell OTP and the rig, the committed copies of a class, have no power: a class that disagrees with
its shadow counts as ZEROISE (R428, log 28). -/
def State.backupAlarm (s : State) (k val : Nat) : State :=
  let cls := (s.aonClass k).getD 5
  let s : State := { s with
    bbram := { s.bbram with vault := [], epoch := none, summary := 0, alarmed := s.bbram.alarmed ||| 2 ^ k,
                            lock := s.bbram.lock || decide (cls = 6) }
    cells := []
    -- the executed class is above INTERRUPT: ALARM_N is low once VDD_IO is back (R417)
    tamper := { s.tamper with drove := s.tamper.drove ||| 2 ^ k } }
  let s := ((s.setBit .tmpActive k true).alarmSide k).setBit .tmpStatus 0 true
  s.logAlarm (s.rd .tmpTime) k (if cls = 6 then 6 else 5) 1 val

/-- BACKUP_ALARM: a source of 0 to 7 alarms while the AON runs from the cell; 0 to 6 need the crystal. -/
def execBackupAlarm (k val : Nat) (s : State) : Answer :=
  if 8 ≤ k || !s.power.backup || s.bit .tmpActive k || (decide (k < 7) && !s.power.crystal) then .next s
  else .next (s.backupAlarm k val)

/-! ### The mesh (R409) -/

/-- The stream bit of a line in this period, driven in the first half; the second half drives its complement. -/
def MeshLine.level (l : MeshLine) : Bool := l.lfsr.testBit 0

/-- A bit period ends: whether either sample differed from the level driven, how many periods in a row have ended so, and the
register's next value. -/
def MeshLine.period (l : MeshLine) (a b : Bool) : MeshLine :=
  let bad := a != l.level || b == l.level
  ⟨l.lfsr / 2 + (if Sys2Proof.Config.meshFeedback l.lfsr then 2 ^ 30 else 0), bad, if bad = l.bad then min 2 (l.run + 1) else 1⟩

/-- A line whose register holds a seed, with nothing on record against it. -/
def MeshLine.seeded (x : Nat) : MeshLine := ⟨x, false, 2⟩

/-- The lines after a bit period with the samples `ins`; a line without samples agrees. -/
def State.meshAfter (s : State) (ins : List (Bool × Bool)) : List MeshLine :=
  s.tamper.mesh.mapIdx (fun k l => match ins[k]? with
    | some (a, b) => l.period a b
    | none => l.period l.level (!l.level))

/-- Mesh sources whose line has disagreed, or agreed, in two periods in a row. -/
def meshTwice (ls : List MeshLine) (bad : Bool) : List Nat :=
  below 4 (fun k => (ls[k]?).any (fun l => l.bad == bad && decide (2 ≤ l.run)))

/-- The log's VALUE of a mesh alarm: the two samples of the period. -/
def meshValue (ins : List (Bool × Bool)) (k : Nat) : Nat :=
  match ins[k]? with
  | some (a, b) => (if a then 1 else 0) + (if b then 2 else 0)
  | none => 0

/-! ### The timestamp (R424) -/

/-- A read of TMP_TIME latches GEN_TIME into TMP_TIME_GEN. -/
def State.latchTime (s : State) : State := s.wr .tmpTimeGen (s.rd .genTime)

/-- TMP_TIME_READ: the read returns the timestamp. -/
def execTmpTimeRead (s : State) : Answer := if s.hidden .tmpTime then .next (s.answer (zeros 8)) else .next (s.latchTime.answer (leBytes 8 (s.rd .tmpTime).toNat))

end Sys2Proof.Machine
end

