-- ==== Sys2Proof/Machine/TileVector.lean ====
section
/-! DEFINITION. Lane arithmetic and the short-vector instructions: opcodes 0x20 to 0x2E (R182 to R184, R190). -/

namespace Sys2Proof.Machine

/-! ### Lane arithmetic -/

/-- A lane of `b` bits as a signed number. -/
def toS (b n : Nat) : Int := if n < 2 ^ (b - 1) then n else (n : Int) - 2 ^ b

/-- A signed number as a lane of `b` bits, wrapping. -/
def ofI (b : Nat) (i : Int) : Nat := (i % 2 ^ b).toNat

/-- Clamp to the signed range of `b` bits. -/
def clampS (b : Nat) (i : Int) : Int := max (-(2 ^ (b - 1))) (min (2 ^ (b - 1) - 1) i)

/-- Fixed-point sum or difference, wrapping or saturating (R183). -/
def addS (b : Nat) (sat sub : Bool) (x y : Nat) : Nat :=
  let r := if sub then toS b x - toS b y else toS b x + toS b y
  ofI b (if sat then clampS b r else r)

/-- Modular product: Barrett, or Montgomery with the factor 2^(-b) (R182). -/
def mulM (red : Bool) (b q x y : Nat) : Nat := if red then x * y % q else x * y % q * powMod ((q + 1) / 2) b q % q

/-- Shift left. -/
def shl (b k x : Nat) : Nat := x * 2 ^ k % 2 ^ b

/-- Arithmetic shift right by `k`, rounded by half a unit or truncated (R183); a shift by 0 leaves the lane. -/
def shrS (b k : Nat) (rnd : Bool) (x : Nat) : Nat :=
  if k = 0 then x else ofI b ((toS b x + (if rnd then 2 ^ (k - 1) else 0)) / 2 ^ k)

/-- High half of the signed product, rounded; SAT replaces the square of the most negative lane (R183). -/
def mulH (b : Nat) (rnd sat : Bool) (x y : Nat) : Nat :=
  if sat && x == 2 ^ (b - 1) && y == 2 ^ (b - 1) then 2 ^ (b - 1) - 1
  else ofI b ((toS b x * toS b y + (if rnd then 2 ^ (b - 1) else 0)) / 2 ^ b)

/-- Carry-less product of two 64-bit words (R184). -/
def clmul (x y : Nat) : Nat := (List.range 64).foldl (fun r i => if y.testBit i then r ^^^ (x <<< i) else r) 0

/-! ### Short vectors -/

/-- A short-vector instruction of two sources, lane by lane. -/
def vector2 (op : TileArg → Nat → Nat → Nat) : Sem := fun a =>
  .one (a.x.vset a.f.w a.f.d (zip2 (op a) (a.x.vget a.f.w a.f.a) (a.x.vget a.f.w a.f.b)))

/-- A short-vector instruction of one source. -/
def vector1 (op : TileArg → Nat → Nat) : Sem := fun a => .one (a.x.vset a.f.w a.f.d ((a.x.vget a.f.w a.f.a).map (op a)))

/-- The modulus in force at the instruction's width. -/
def TileArg.q (a : TileArg) : Nat := a.x.q a.f.w

/-- Lane bits of the instruction. -/
def TileArg.bits (a : TileArg) : Nat := laneBits a.f.w

/-- Shift distance IMM[5:0]. -/
def TileArg.dist (a : TileArg) : Nat := a.f.imm.toNat % 64

/-- VADD. -/
def semVadd : Sem := vector2 (fun a => addS a.bits (isSat a.f) false)

/-- VSUB. -/
def semVsub : Sem := vector2 (fun a => addS a.bits (isSat a.f) true)

/-- VADDM. -/
def semVaddm : Sem := vector2 (fun a => addM a.q)

/-- VSUBM. -/
def semVsubm : Sem := vector2 (fun a => subM a.q)

/-- VMULM. -/
def semVmulm : Sem := vector2 (fun a => mulM (isRed a.f) a.bits a.q)

/-- VAND. -/
def semVand : Sem := vector2 (fun _ => (· &&& ·))

/-- VOR. -/
def semVor : Sem := vector2 (fun _ => (· ||| ·))

/-- VXOR. -/
def semVxor : Sem := vector2 (fun _ => (· ^^^ ·))

/-- VSHL. -/
def semVshl : Sem := vector1 (fun a => shl a.bits a.dist)

/-- VSHR. -/
def semVshr : Sem := vector1 (fun a => shrS a.bits a.dist (isRnd a.f))

/-- VMULH. -/
def semVmulh : Sem := vector2 (fun a => mulH a.bits (isRnd a.f) (isSat a.f))

/-- VCLMUL: low halves into v[D], high halves into v[C]. -/
def semVclmul : Sem := fun a =>
  let ps := zip2 clmul (a.x.vget 2 a.f.a) (a.x.vget 2 a.f.b)
  let y := a.x.vset 2 a.f.d (zip2 (· ^^^ ·) (a.x.vget 2 a.f.d) (ps.map (· % 2 ^ 64)))
  .one (y.vset 2 a.f.c (zip2 (· ^^^ ·) (y.vget 2 a.f.c) (ps.map (· / 2 ^ 64))))

/-- VBCAST. -/
def semVbcast : Sem := fun a =>
  let v := if a.f.w = 2 then a.x.sn a.f.a + 2 ^ 32 * a.x.sn a.f.b else a.x.sn a.f.a
  .one (a.x.vset a.f.w a.f.d (List.replicate (256 / a.bits) v))

/-- VEXT; a lane that the width does not have gives a free value. -/
def semVext : Sem := fun a =>
  .one (a.x.setS a.f.d (BitVec.ofNat 32 (((a.x.vget a.f.w a.f.a)[a.f.imm.toNat % 16]?).getD (a.fresh 0 (2 ^ 32)))))

/-- VPERM. -/
def semVperm : Sem := fun a =>
  let l := a.x.vget a.f.w a.f.a
  .one (a.x.vset a.f.w a.f.d ((a.x.vget a.f.w a.f.b).map (fun k => (l[k % l.length]?).getD 0)))

/-- VADD. -/
def execVadd (t : Nat) (f : TileFields) (s : State) : Answer := .next (s.issueTile t 0x20 f semVadd)

/-- VSUB. -/
def execVsub (t : Nat) (f : TileFields) (s : State) : Answer := .next (s.issueTile t 0x21 f semVsub)

/-- VADDM. -/
def execVaddm (t : Nat) (f : TileFields) (s : State) : Answer := .next (s.issueTile t 0x22 f semVaddm)

/-- VSUBM. -/
def execVsubm (t : Nat) (f : TileFields) (s : State) : Answer := .next (s.issueTile t 0x23 f semVsubm)

/-- VMULM. -/
def execVmulm (t : Nat) (f : TileFields) (s : State) : Answer := .next (s.issueTile t 0x24 f semVmulm)

/-- VAND. -/
def execVand (t : Nat) (f : TileFields) (s : State) : Answer := .next (s.issueTile t 0x25 f semVand)

/-- VOR. -/
def execVor (t : Nat) (f : TileFields) (s : State) : Answer := .next (s.issueTile t 0x26 f semVor)

/-- VXOR. -/
def execVxor (t : Nat) (f : TileFields) (s : State) : Answer := .next (s.issueTile t 0x27 f semVxor)

/-- VSHL. -/
def execVshl (t : Nat) (f : TileFields) (s : State) : Answer := .next (s.issueTile t 0x28 f semVshl)

/-- VSHR. -/
def execVshr (t : Nat) (f : TileFields) (s : State) : Answer := .next (s.issueTile t 0x29 f semVshr)

/-- VMULH. -/
def execVmulh (t : Nat) (f : TileFields) (s : State) : Answer := .next (s.issueTile t 0x2A f semVmulh)

/-- VCLMUL. -/
def execVclmul (t : Nat) (f : TileFields) (s : State) : Answer := .next (s.issueTile t 0x2B f semVclmul)

/-- VBCAST. -/
def execVbcast (t : Nat) (f : TileFields) (s : State) : Answer := .next (s.issueTile t 0x2C f semVbcast)

/-- VEXT. -/
def execVext (t : Nat) (f : TileFields) (s : State) : Answer := .next (s.issueTile t 0x2D f semVext)

/-- VPERM. -/
def execVperm (t : Nat) (f : TileFields) (s : State) : Answer := .next (s.issueTile t 0x2E f semVperm)

end Sys2Proof.Machine
end

