-- ==== Sys2Proof/Machine/TileLong.lean ====
section
/-! DEFINITION. The long-vector instructions: opcodes 0x30 to 0x3E, plain and masked (R182 to R187, R190). -/

namespace Sys2Proof.Machine

/-- Time of a long-vector instruction: 8 tc at W = 0, 16 else, twice that for a masked form (R186). -/
def longTime (f : TileFields) : Nat := (if f.w = 0 then 8 else 16) * (if isMasked f then 2 else 1)

/-! ### Beats (R187, R196) -/

/-- Lanes of beat `b` of a long-vector register. -/
def Tile.beatGet (x : Tile) (w i b : Nat) : List Nat := lanesOf w (((x.preg i).drop (beatElems w * b)).take (beatElems w))

/-- Elements `e` onwards of a long vector replaced. -/
def Tile.psetAt (x : Tile) (i e : Nat) (l : List Word) : Tile :=
  { x with p := tset i ((x.preg i).take e ++ l ++ (x.preg i).drop (e + l.length)) x.p }

/-- Write beat `b` of a long-vector register by lanes. -/
def Tile.beatSet (x : Tile) (w i b : Nat) (l : List Nat) : Tile := x.psetAt i (beatElems w * b) (elemsOf w l)

/-- The `n` lanes of a beat, each computed in its turn of the order in force. -/
def byLane (lanes : List Nat) (n : Nat) (f : Nat → Nat) : List Nat := lanes.foldl (fun l i => l.set i (f i)) (List.replicate n 0)

/-- The lanes of one beat of the instruction. -/
def TileArg.lanes (a : TileArg) (f : Nat → Nat) : List Nat := byLane a.ctx.lanes (beatLanes a.f.w) f

/-- Share (0 or 1) and beat within its register of beat `b` of an instruction: share 0's come first (R196). -/
def beatPlace (f : TileFields) (b : Nat) : Nat × Nat := (b / (256 / beatElems f.w), b % (256 / beatElems f.w))

/-- The beat an instruction starts at: the first one, or the one that RESUME names. -/
def TileArg.first (a : TileArg) : Nat := a.resume / beatElems a.f.w

/-- The part of a time of `tc` that the beats up to `k` have taken in this run. -/
def TileArg.took (a : TileArg) (tc k : Nat) : Nat := tc * k / beatCount a.f - tc * a.first / beatCount a.f

/-- A HALT request is due at the boundary before beat `k`. -/
def TileArg.haltsAt (a : TileArg) (k : Nat) : Bool := match a.haltIn with
  | some h => decide (a.first < k) && decide (a.first + h ≤ k)
  | none => false

/-- Beat by beat in the order in force, from the resume index on, until a HALT or the watchpoint stops it; `watched` gives the
bytes a beat accesses. A watchpoint's stop that was passed is the first beat's (R196). -/
def TileArg.runBeats (a : TileArg) (watched : Nat → Bool) (addr : Nat → Nat) (one : Tile → Nat → Tile) (tc : Nat) : Nat → Nat → Tile → TileOut
  | 0, _, x => .ok x (a.took tc (beatCount a.f))
  | fuel + 1, k, x =>
    match a.ctx.order[k]? with
    | none => .ok x (a.took tc (beatCount a.f))
    | some b =>
      if a.haltsAt k then .stop 10 0 x (k * beatElems a.f.w) (a.took tc k)
      else if watched b && !(a.pass && k == a.first) then .stop 9 (addr b) x (k * beatElems a.f.w) (a.took tc k)
      else a.runBeats watched addr one tc fuel (k + 1) (one x b)

/-- A register-only long-vector instruction: `one` carries out a beat of a share. -/
def TileArg.long (a : TileArg) (one : Tile → Nat → Nat → Tile) : TileOut :=
  a.runBeats (fun _ => false) (fun _ => 0) (fun x b => one x (beatPlace a.f b).1 (beatPlace a.f b).2) (longTime a.f) (beatCount a.f) a.first a.x

/-! ### Element-wise instructions -/

/-- Entry `k` of a beat. -/
def entry (l : List Nat) (k : Nat) : Nat := (l[k]?).getD 0

/-- Two sources, element by element and, when masked, share by share (M2). -/
def long2 (op : TileArg → Nat → Nat → Nat) : Sem := fun a => a.long (fun x h b =>
  let u := x.beatGet a.f.w (a.f.a + h) b
  let v := x.beatGet a.f.w (a.f.b + h) b
  x.beatSet a.f.w (a.f.d + h) b (a.lanes (fun k => op a (entry u k) (entry v k))))

/-- One source, element by element and, when masked, share by share. -/
def long1 (op : TileArg → Nat → Nat) : Sem := fun a => a.long (fun x h b =>
  let u := x.beatGet a.f.w (a.f.a + h) b
  x.beatSet a.f.w (a.f.d + h) b (a.lanes (fun k => op a (entry u k))))

/-- Source A of the whole instruction, as it stood when the instruction began: when masked it is public, and each share of B is
multiplied by it (M1). -/
def TileArg.srcBeat (a : TileArg) (b : Nat) : List Nat :=
  lanesOf a.f.w ((a.ctx.src.drop (beatElems a.f.w * b)).take (beatElems a.f.w))

/-- A product of A with a share of B, combined with the share of D. -/
def longMul (op : TileArg → Nat → Nat → Nat) : Sem := fun a => a.long (fun x h b =>
  let u := a.srcBeat b
  let v := x.beatGet a.f.w (a.f.b + h) b
  let d := x.beatGet a.f.w (a.f.d + h) b
  x.beatSet a.f.w (a.f.d + h) b (a.lanes (fun k => op a (entry d k) (mulM (isRed a.f) a.bits a.q (entry u k) (entry v k)))))

/-- PADD. -/
def semPadd : Sem := long2 (fun a => addS a.bits (isSat a.f) false)

/-- PSUB. -/
def semPsub : Sem := long2 (fun a => addS a.bits (isSat a.f) true)

/-- PADDM. -/
def semPaddm : Sem := long2 (fun a => addM a.q)

/-- PSUBM. -/
def semPsubm : Sem := long2 (fun a => subM a.q)

/-- PMULM. -/
def semPmulm : Sem := longMul (fun _ _ m => m)

/-- PMACM: the product added to p[D]. -/
def semPmacm : Sem := longMul (fun a => addM a.q)

/-- PAND. -/
def semPand : Sem := long2 (fun _ => (· &&& ·))

/-- PXOR. -/
def semPxor : Sem := long2 (fun _ => (· ^^^ ·))

/-- PSHL. -/
def semPshl : Sem := long1 (fun a => shl a.bits a.dist)

/-- PSHR. -/
def semPshr : Sem := long1 (fun a => shrS a.bits a.dist (isRnd a.f))

/-- PMULH. -/
def semPmulh : Sem := long2 (fun a => mulH a.bits (isRnd a.f) (isSat a.f))

/-- PCLMUL: low halves into p[D], high halves into p[C]. -/
def semPclmul : Sem := fun a => a.long (fun x _ b =>
  let u := x.beatGet 2 a.f.a b
  let v := x.beatGet 2 a.f.b b
  let p (k : Nat) : Nat := clmul (entry u k) (entry v k)
  let d := x.beatGet 2 a.f.d b
  let y := x.beatSet 2 a.f.d b (a.lanes (fun k => entry d k ^^^ p k % 2 ^ 64))
  let c := y.beatGet 2 a.f.c b
  y.beatSet 2 a.f.c b (a.lanes (fun k => entry c k ^^^ p k / 2 ^ 64)))

/-- PMOV. -/
def semPmov : Sem := long1 (fun _ x => x)

/-- The fresh mask of an instruction: uniform modulo q, or random bits at W = 2. -/
def TileArg.mask (a : TileArg) : List Nat := a.masks 0 (if a.f.w = 2 then 128 else 256) (if a.f.w = 2 then 2 ^ 64 else a.q)

/-- MREFR: the pair's value stands, its shares are fresh: arithmetic at W = 0 and 1, Boolean at W = 2. -/
def semMrefr : Sem := fun a =>
  let m := a.mask
  let op (h x r : Nat) : Nat := if a.f.w = 2 then x ^^^ r else if h = 0 then addM a.q x r else subM a.q x r
  a.long (fun x h b =>
    let d := x.beatGet a.f.w (a.f.d + h) b
    x.beatSet a.f.w (a.f.d + h) b (a.lanes (fun k => op h (entry d k) (entry m (beatLanes a.f.w * b + k)))))

/-- MSKP. -/
def semMskp : Sem := fun a =>
  let m := a.mask
  a.long (fun x _ b => x.beatSet a.f.w a.f.d b (a.lanes (fun k => entry m (beatLanes a.f.w * b + k))))

/-- PADD. -/
def execPadd (t : Nat) (f : TileFields) (s : State) : Answer := .next (s.issueTile t 0x30 f semPadd)

/-- PSUB. -/
def execPsub (t : Nat) (f : TileFields) (s : State) : Answer := .next (s.issueTile t 0x31 f semPsub)

/-- PADDM. -/
def execPaddm (t : Nat) (f : TileFields) (s : State) : Answer := .next (s.issueTile t 0x32 f semPaddm)

/-- PSUBM. -/
def execPsubm (t : Nat) (f : TileFields) (s : State) : Answer := .next (s.issueTile t 0x33 f semPsubm)

/-- PMULM. -/
def execPmulm (t : Nat) (f : TileFields) (s : State) : Answer := .next (s.issueTile t 0x34 f semPmulm)

/-- PMACM. -/
def execPmacm (t : Nat) (f : TileFields) (s : State) : Answer := .next (s.issueTile t 0x35 f semPmacm)

/-- PAND. -/
def execPand (t : Nat) (f : TileFields) (s : State) : Answer := .next (s.issueTile t 0x36 f semPand)

/-- PXOR. -/
def execPxor (t : Nat) (f : TileFields) (s : State) : Answer := .next (s.issueTile t 0x37 f semPxor)

/-- PSHL. -/
def execPshl (t : Nat) (f : TileFields) (s : State) : Answer := .next (s.issueTile t 0x38 f semPshl)

/-- PSHR. -/
def execPshr (t : Nat) (f : TileFields) (s : State) : Answer := .next (s.issueTile t 0x39 f semPshr)

/-- PMULH. -/
def execPmulh (t : Nat) (f : TileFields) (s : State) : Answer := .next (s.issueTile t 0x3A f semPmulh)

/-- PCLMUL. -/
def execPclmul (t : Nat) (f : TileFields) (s : State) : Answer := .next (s.issueTile t 0x3B f semPclmul)

/-- PMOV. -/
def execPmov (t : Nat) (f : TileFields) (s : State) : Answer := .next (s.issueTile t 0x3C f semPmov)

/-- MREFR. -/
def execMrefr (t : Nat) (f : TileFields) (s : State) : Answer := .next (s.issueTile t 0x3D f semMrefr)

/-- MSKP. -/
def execMskp (t : Nat) (f : TileFields) (s : State) : Answer := .next (s.issueTile t 0x3E f semMskp)

end Sys2Proof.Machine
end

