-- ==== Sys2Proof/Machine/TileMicro.lean ====
section
/-! DEFINITION. The microcoded instructions: opcodes 0x40 to 0x4F, with the computations of FIPS 203 and FIPS 204 they carry out on
canonical residues (R185, R186, R190, R197; log 6). -/

namespace Sys2Proof.Machine

/-! ### Number-theoretic transforms -/

/-- One layer of butterflies, each on its own two coefficients, in a given order: forward (a + zb, a - zb), or inverse
(a + b, z(b - a)). -/
def flyLayer (inv : Bool) (q len : Nat) (zeta : Nat → Nat) (order l : List Nat) : List Nat :=
  order.foldl (fun l f =>
    let i := 2 * len * (f / len) + f % len
    let u := (l[i]?).getD 0
    let v := (l[i + len]?).getD 0
    let z := zeta (f / len)
    if inv then (l.set i (addM q u v)).set (i + len) (subM q v u * z % q)
    else (l.set i (addM q u (v * z % q))).set (i + len) (subM q u (v * z % q))) l

/-- Butterfly order `i` of an instruction: natural in a NONE pool, else a permutation from its mask bytes (R187). -/
def TileArg.flyOrder (a : TileArg) (i : Nat) : List Nat :=
  if a.x.shuffles then permOf 128 ((a.ctx.masks.drop (128 * i)).take 128) else List.range 128

/-- Layer `k`, in the order in which a transform of `n` layers runs them: an inverse one undoes forward layer n - 1 - k. -/
def tileLayer (inv : Bool) (q n root bits k : Nat) (order l : List Nat) : List Nat :=
  let g := if inv then n - 1 - k else k
  flyLayer inv q (128 / 2 ^ g) (fun i => powMod root (bitRev bits (if inv then 2 ^ (g + 1) - 1 - i else 2 ^ g + i)) q) order l

/-- A transform of share `h`: the layers named, for a modulus that has a transform and layers that it has; else free values (log 6). -/
def TileArg.transform (a : TileArg) (inv : Bool) (h : Nat) (l : List Nat) : List Nat :=
  let q := a.q
  let p := paramOf a.f
  let lo := p % 16
  let layers := nttLayers a.f
  let l := l.map (· % q)
  match nttShape q with
  | some (n, root, bits) =>
    if 0 < layers ∧ lo + layers ≤ n then
      let r := (List.range layers).foldl (fun l i => tileLayer inv q n root bits (lo + i) (a.flyOrder (h * layers + i)) l) l
      if inv && p.testBit 8 then scaleP q (powMod (2 ^ n) (q - 2) q) r else r
    else a.freshList h 256 q
  | none => a.freshList h 256 q

/-- Time of a transform: 42 or 80 tc when full, else 6 or 10 a layer; twice that masked. -/
def nttTime (f : TileFields) : Nat :=
  let layers := nttLayers f
  let t := if f.w = 0 then (if layers = 7 then 42 else 6 * layers) else (if layers = 8 then 80 else 10 * layers)
  t * (if isMasked f then 2 else 1)

/-- NTT and INTT, share by share when masked. -/
def semTransform (inv : Bool) : Sem := fun a =>
  let w := a.f.w
  let y := a.x.pset w a.f.d (a.transform inv 0 (a.x.pget w a.f.a))
  .ok (if isMasked a.f then y.pset w (a.f.d + 1) (a.transform inv 1 (a.x.pget w (a.f.a + 1))) else y) (nttTime a.f)

/-- NTT. -/
def semNtt : Sem := semTransform false

/-- INTT. -/
def semIntt : Sem := semTransform true

/-! ### Imprecise exceptions -/

/-- A range a microcoded instruction reads or writes; an exception leaves its destination registers `ds` undefined (R197). -/
def TileArg.microAccess (a : TileArg) (addr n : Nat) (write : Bool) (ds : List Nat) (go : TileOut) : TileOut :=
  match a.access addr n 1 write go with
  | .stop c ad x r tc =>
    .stop c ad ((List.range ds.length).foldl (fun x k => x.pset 1 ((ds[k]?).getD 0) (a.freshList k 256 (2 ^ 32))) x) r tc
  | out => out

/-! ### Samplers -/

/-- CBD: from 64η bytes, or from Boolean byte shares into an arithmetic pair. A parameter but 2 and 3 gives free values. -/
def semCbd : Sem := fun a =>
  let eta := paramOf a.f
  let addr := a.x.sn a.f.a
  let q := a.q
  let n := 64 * eta
  let t := (if eta = 3 then 24 else 16) * (if isMasked a.f then 3 else 1)
  if eta ≠ 2 ∧ eta ≠ 3 then
    let y := a.x.pset 0 a.f.d (a.freshList 0 256 q)
    .ok (if isMasked a.f then y.pset 0 (a.f.d + 1) (a.freshList 1 256 q) else y) t
  else if isMasked a.f then
    a.microAccess addr (2 * n) false [a.f.d, a.f.d + 1]
      (let bs := List.zipWith (· ^^^ ·) (a.x.bytes addr n) (a.x.bytes (addr + n) n)
       let m := a.masks 0 256 q
       .ok ((a.x.pset 0 a.f.d m).pset 0 (a.f.d + 1) (zip2 (subM q) ((List.range 256).map (cbdAt q eta bs)) m)) t)
  else a.microAccess addr n false [a.f.d] (.ok (a.x.pset 0 a.f.d ((List.range 256).map (cbdAt q eta (a.x.bytes addr n)))) t)

/-- Rate of a sponge in bytes: SHAKE128, SHAKE256, SHA3-256, SHA3-512. -/
def spongeRate (mode : Nat) : Nat := match mode with
  | 0 => 168
  | 3 => 72
  | _ => 136

/-- The 25 lanes of a sponge. -/
def Sponge.full (p : Sponge) : List DWord := if p.lanes.isEmpty then keccakZero else p.lanes

/-- Squeeze one byte: a spent block takes a further permutation. -/
def Sponge.squeeze1 (p : Sponge) : Byte × Sponge :=
  let p := if p.pos = spongeRate p.mode then { p with lanes := keccakF p.full, pos := 0, perms := p.perms + 1 } else p
  (((keccakBytes p.full)[p.pos]?).getD 0, { p with pos := p.pos + 1 })

/-- Squeeze `n` bytes. -/
def Sponge.squeeze (p : Sponge) : Nat → Bytes × Sponge
  | 0 => ([], p)
  | n + 1 =>
    let (b, p) := p.squeeze1
    let (bs, p) := p.squeeze n
    (b :: bs, p)

/-- Rejection sampling of `want` coefficients, `step` bytes giving the accepted candidates `cand`. -/
def rejSample (step : Nat) (cand : Bytes → List Nat) : Nat → Nat → Sponge → List Nat × Sponge
  | 0, _, p => ([], p)
  | fuel + 1, want, p =>
    if want = 0 then ([], p)
    else
      let (bs, p) := p.squeeze step
      let c := (cand bs).take want
      let (l, p) := rejSample step cand fuel (want - c.length) p
      (c ++ l, p)

/-- Sampling tries that a sampler makes; what no try has given then is free (log 6). -/
def sampleFuel : Nat := 4096

/-- A sampler: `step` bytes at a time; time 32 + 24 for each further permutation. -/
def TileArg.sample (a : TileArg) (step : Nat) (cand : Bytes → List Nat) : TileOut :=
  let p := a.x.sponge
  if !p.squeezing then a.fault 7 0
  else
    let (l, p') := rejSample step cand sampleFuel 256 { p with perms := 0 }
    let l := l ++ (a.freshList 0 256 a.q).drop l.length
    .ok ({ a.x with sponge := p' }.pset a.f.w a.f.d l) (32 + 24 * p'.perms)

/-- SAMPU: 12-bit candidates, two from three bytes, or 23-bit ones; those below the modulus are taken. -/
def semSampu : Sem := fun a =>
  match paramOf a.f with
  | 0 => a.sample 3 (cand12 a.q)
  | 1 => a.sample 3 (cand23 a.q)
  | _ => a.sample 3 (fun _ => [])

/-- SAMPETA: half-bytes, low half first (FIPS 204). -/
def semSampeta : Sem := fun a => a.sample 1 (candEta a.q (paramOf a.f))

/-- The next byte not above `i`. -/
def sibDraw (i : Nat) : Nat → Sponge → Nat × Sponge
  | 0, p => (0, p)
  | fuel + 1, p =>
    let (b, p) := p.squeeze1
    if b.toNat ≤ i then (b.toNat, p) else sibDraw i fuel p

/-- SampleInBall from the sponge: signs, then positions (FIPS 204). -/
def sampleInBall (q tau : Nat) (p : Sponge) : List Nat × Sponge :=
  let (sg, p) := p.squeeze 8
  (List.range tau).foldl (fun (r : List Nat × Sponge) k =>
    let i := 256 - tau + k
    let (j, p) := sibDraw i sampleFuel r.2
    let c := r.1.set i ((r.1[j]?).getD 0)
    (c.set j (if bitAt sg k = 1 then q - 1 else 1), p)) (List.replicate 256 0, p)

/-- SIB squeezes at least three blocks (R190); τ above 64, which has no sign bits, gives free values. -/
def semSib : Sem := fun a =>
  let p := a.x.sponge
  let tau := paramOf a.f
  if !p.squeezing then a.fault 7 0
  else
    let start := { p with perms := 0 }
    let (l, p') := if tau ≤ 64 then sampleInBall a.q tau start else (a.freshList 0 256 a.q, start)
    let p' := (if p'.perms < 2 then ((start.squeeze (3 * spongeRate p.mode)).2) else { p' with pos := spongeRate p.mode })
    .ok ({ a.x with sponge := p' }.pset 1 a.f.d l) (136 + 24 * (p'.perms - 2))

/-! ### Rounding -/

/-- A parameter `d` of COMP and DECOMPR. -/
def dOk (d : Nat) : Bool := decide (1 ≤ d) && decide (d ≤ 12)

/-- Two arithmetic shares of a register pair recombined. -/
def TileArg.joined (a : TileArg) (i : Nat) : List Nat := zip2 (addM a.q) (a.x.pget a.f.w i) (a.x.pget a.f.w (i + 1))

/-- A value written to a pair as Boolean shares with fresh masks, the series `k` of those the instruction draws. -/
def TileArg.psplit (a : TileArg) (x : Tile) (i k : Nat) (l : List Nat) : Tile :=
  let m := a.masks k 256 (2 ^ a.bits)
  (x.pset a.f.w i m).pset a.f.w (i + 1) (zip2 (· ^^^ ·) l m)

/-- COMP; masked, of the value that the arithmetic pair holds, as Boolean shares (R155; log 6). -/
def semComp : Sem := fun a =>
  let d := paramOf a.f
  let of (l : List Nat) : List Nat := if dOk d then l.map (compress a.q d) else a.freshList 0 256 65536
  if isMasked a.f then .ok (a.psplit a.x a.f.d 0 (of (a.joined a.f.a))) 120
  else .ok (a.x.pset 0 a.f.d (of (a.x.pget 0 a.f.a))) 24

/-- DECOMPR. -/
def semDecompr : Sem := fun a =>
  let d := paramOf a.f
  .ok (a.x.pset 0 a.f.d (if dOk d then (a.x.pget 0 a.f.a).map (decompress a.q d) else a.freshList 0 256 a.q)) 24

/-- γ2 of PARAM. -/
def gamma2 (q p : Nat) : Nat := if p = 0 then (q - 1) / 88 else (q - 1) / 32

/-- γ2 is positive and PARAM defined: else the results are free values. -/
def gammaOk (q p : Nat) : Bool := decide (p < 2) && decide (0 < gamma2 q p)

/-- DECOMP; masked, of the value that the arithmetic pair holds, r1 and r0 as Boolean shares (R155; log 6). -/
def semDecomp : Sem := fun a =>
  let p := paramOf a.f
  let of (l : List Nat) : List Nat × List Nat :=
    if gammaOk a.q p then
      let r := l.map (decompose a.q (gamma2 a.q p))
      (r.map (·.1), r.map (fun e => residue a.q e.2))
    else (a.freshList 0 256 a.q, a.freshList 1 256 a.q)
  if isMasked a.f then
    let r := of (a.joined a.f.a)
    .ok (a.psplit (a.psplit a.x a.f.d 0 r.1) a.f.c 1 r.2) 240
  else
    let r := of (a.x.pget 1 a.f.a)
    .ok ((a.x.pset 1 a.f.d r.1).pset 1 a.f.c r.2) 48

/-- P2R: Power2Round with d = 13. -/
def semP2r : Sem := fun a =>
  let l := (a.x.pget 1 a.f.a).map (power2Round a.q)
  .ok ((a.x.pset 1 a.f.d (l.map (·.1))).pset 1 a.f.c (l.map (fun e => residue a.q e.2))) 32

/-- MKHINT: MakeHint of p[A] on p[B]; the weight is added to s[C]. -/
def semMkhint : Sem := fun a =>
  let g := gamma2 a.q (paramOf a.f)
  let h := if gammaOk a.q (paramOf a.f) then
      zip2 (makeHint a.q g) (a.x.pget 1 a.f.a) (a.x.pget 1 a.f.b)
    else a.freshList 0 256 2
  .ok ((a.x.pset 1 a.f.d h).setS a.f.c (a.x.sreg a.f.c + BitVec.ofNat 32 h.sum)) 32

/-- USEHINT; a hint other than 0 and 1 gives a free value. -/
def semUsehint : Sem := fun a =>
  let g := gamma2 a.q (paramOf a.f)
  let free := a.freshList 0 256 a.q
  .ok (a.x.pset 1 a.f.d (if gammaOk a.q (paramOf a.f) then
      (List.zip (List.zip (a.x.pget 1 a.f.a) (a.x.pget 1 a.f.b)) free).map (fun e => if e.1.1 < 2 then useHint a.q g e.1.1 e.1.2 else e.2)
    else free)) 48

/-- NORMCHK: some centred coefficient reaches s[B]; masked, of the sum of the shares. -/
def semNormchk : Sem := fun a =>
  let w := a.f.w
  let v := if isMasked a.f then a.joined a.f.a else a.x.pget w a.f.a
  .ok { a.x with cflag := normReaches a.q (a.x.sn a.f.b) v } (if isMasked a.f then 96 else 24)

/-! ### Packing and share conversion -/

/-- Bits per coefficient of PACK and UNPACK. -/
def packBits (f : TileFields) : Nat := paramOf f % 64

/-- A coefficient as packed or unpacked: itself, or s[C] minus it modulo the modulus. -/
def TileArg.flip (a : TileArg) (x : Nat) : Nat := if (paramOf a.f).testBit 6 then subM a.q (a.x.sn a.f.c) x else x

/-- Time of PACK and UNPACK. -/
def packTime (f : TileFields) : Nat := 16 + (32 * packBits f + 63) / 64

/-- PACK; widths but 1 to 32 give free bytes. -/
def semPack : Sem := fun a =>
  let b := packBits a.f
  let addr := a.x.sn a.f.b
  let bs := if 1 ≤ b ∧ b ≤ 32 then leBytes (32 * b) (joinBits b ((a.x.pget a.f.w a.f.a).map a.flip)) else bytesOf (32 * b) a.rnd
  a.microAccess addr (32 * b) true [] (.ok (a.x.store addr bs) (packTime a.f))

/-- UNPACK. -/
def semUnpack : Sem := fun a =>
  let b := packBits a.f
  let addr := a.x.sn a.f.b
  let l := if 1 ≤ b ∧ b ≤ 32 then (splitBits b 256 (leNat (a.x.bytes addr (32 * b)))).map a.flip else a.freshList 0 256 (2 ^ 32)
  a.microAccess addr (32 * b) false [a.f.d] (.ok (a.x.pset a.f.w a.f.d l) (packTime a.f))

/-- CONV: the pair's value as Boolean or as arithmetic shares, the first share fresh. -/
def semConv : Sem := fun a =>
  let w := a.f.w
  let q := a.q
  let t := if w = 0 then 96 else 192
  let s0 := a.x.pget w a.f.a
  let s1 := a.x.pget w (a.f.a + 1)
  match paramOf a.f with
  | 0 =>
    .ok (a.psplit a.x a.f.d 0 (a.joined a.f.a)) t
  | 1 =>
    let m := a.masks 0 256 q
    .ok ((a.x.pset w a.f.d m).pset w (a.f.d + 1) (zip2 (subM q) (zip2 (· ^^^ ·) s0 s1) m)) t
  | _ => .ok ((a.x.pset w a.f.d (a.freshList 0 256 (2 ^ a.bits))).pset w (a.f.d + 1) (a.freshList 1 256 (2 ^ a.bits))) t

/-- NTT. -/
def execNtt (t : Nat) (f : TileFields) (s : State) : Answer := .next (s.issueTile t 0x40 f semNtt)

/-- INTT. -/
def execIntt (t : Nat) (f : TileFields) (s : State) : Answer := .next (s.issueTile t 0x41 f semIntt)

/-- CBD. -/
def execCbd (t : Nat) (f : TileFields) (s : State) : Answer := .next (s.issueTile t 0x42 f semCbd)

/-- SAMPU. -/
def execSampu (t : Nat) (f : TileFields) (s : State) : Answer := .next (s.issueTile t 0x43 f semSampu)

/-- SAMPETA. -/
def execSampeta (t : Nat) (f : TileFields) (s : State) : Answer := .next (s.issueTile t 0x44 f semSampeta)

/-- SIB. -/
def execSib (t : Nat) (f : TileFields) (s : State) : Answer := .next (s.issueTile t 0x45 f semSib)

/-- COMP. -/
def execComp (t : Nat) (f : TileFields) (s : State) : Answer := .next (s.issueTile t 0x46 f semComp)

/-- DECOMPR. -/
def execDecompr (t : Nat) (f : TileFields) (s : State) : Answer := .next (s.issueTile t 0x47 f semDecompr)

/-- DECOMP. -/
def execDecomp (t : Nat) (f : TileFields) (s : State) : Answer := .next (s.issueTile t 0x48 f semDecomp)

/-- P2R. -/
def execP2r (t : Nat) (f : TileFields) (s : State) : Answer := .next (s.issueTile t 0x49 f semP2r)

/-- MKHINT. -/
def execMkhint (t : Nat) (f : TileFields) (s : State) : Answer := .next (s.issueTile t 0x4A f semMkhint)

/-- USEHINT. -/
def execUsehint (t : Nat) (f : TileFields) (s : State) : Answer := .next (s.issueTile t 0x4B f semUsehint)

/-- NORMCHK. -/
def execNormchk (t : Nat) (f : TileFields) (s : State) : Answer := .next (s.issueTile t 0x4C f semNormchk)

/-- PACK. -/
def execPack (t : Nat) (f : TileFields) (s : State) : Answer := .next (s.issueTile t 0x4D f semPack)

/-- UNPACK. -/
def execUnpack (t : Nat) (f : TileFields) (s : State) : Answer := .next (s.issueTile t 0x4E f semUnpack)

/-- CONV. -/
def execConv (t : Nat) (f : TileFields) (s : State) : Answer := .next (s.issueTile t 0x4F f semConv)

end Sys2Proof.Machine
end

