-- ==== Sys2Proof/Machine/TileMem.lean ====
section
/-! DEFINITION. The tile's operand memory, sponge, ring and background transfers: opcodes 0x50 to 0x73 and the events that end a
transfer (R179, R185, R187, R190 to R192, R196). -/

namespace Sys2Proof.Machine

/-! ### Loads and stores -/

/-- LDS. -/
def semLds : Sem := fun a => a.access a.addr 4 4 false (.one (a.x.setS a.f.d (BitVec.ofNat 32 (leNat (a.x.bytes a.addr 4)))))

/-- STS. -/
def semSts : Sem := fun a => a.access a.addr 4 4 true (.one (a.x.store a.addr (leBytes 4 (a.x.sn a.f.d))))

/-- LDV. -/
def semLdv : Sem := fun a =>
  a.access a.addr 32 32 false (.one { a.x with v := tset a.f.d (BitVec.ofNat 256 (leNat (a.x.bytes a.addr 32))) a.x.v })

/-- STV. -/
def semStv : Sem := fun a => a.access a.addr 32 32 true (.one (a.x.store a.addr (leBytes 32 (a.x.vreg a.f.d).toNat)))

/-- Bytes of a lane in memory. -/
def laneBytes (w : Nat) : Nat := 2 * 2 ^ w

/-- Bytes of a beat in memory, whatever the width. -/
def beatBytes : Nat := 128

/-- Load beat `b`. -/
def TileArg.loadBeat (a : TileArg) (x : Tile) (b : Nat) : Tile :=
  let n := laneBytes a.f.w
  x.beatSet a.f.w (a.f.d + (beatPlace a.f b).1) (beatPlace a.f b).2 (a.lanes (fun k => leNat (x.bytes (a.addr + beatBytes * b + n * k) n)))

/-- Store beat `b`. -/
def TileArg.storeBeat (a : TileArg) (x : Tile) (b : Nat) : Tile :=
  let d := x.beatGet a.f.w (a.f.d + (beatPlace a.f b).1) (beatPlace a.f b).2
  x.store (a.addr + beatBytes * b) ((a.lanes (entry d)).flatMap (leBytes (laneBytes a.f.w)))

/-- LDP and STP: the whole range is checked at issue. -/
def semLong (write : Bool) : Sem := fun a =>
  let n := beatCount a.f
  if a.addr % 64 ≠ 0 then a.fault 2 a.addr
  else if outOfBounds a.addr (beatBytes * n) write then a.fault 3 a.addr
  else if a.x.held a.addr (beatBytes * n) then .wait
  else a.runBeats (fun b => a.watch (a.addr + beatBytes * b) beatBytes write) (fun b => a.addr + beatBytes * b)
    (if write then a.storeBeat else a.loadBeat) (longTime a.f) n a.first a.x

/-- LDP. -/
def semLdp : Sem := semLong false

/-- STP. -/
def semStp : Sem := semLong true

/-- Address of element `i` of a gather. -/
def TileArg.gatherAddr (a : TileArg) (x : Tile) (i : Nat) : Nat :=
  (BitVec.ofNat 32 a.addr + 4 * ((x.preg a.f.b)[i]?).getD 0).toNat

/-- LDPX beat by beat in element order: an element address that faults raises GATHER; a HALT is taken between two beats. -/
def TileArg.runGather (a : TileArg) : Nat → Nat → Tile → TileOut
  | 0, _, x => .ok x (a.took 32 8)
  | fuel + 1, k, x =>
    if 8 ≤ k then .ok x (a.took 32 8)
    else
      let as := (List.range 32).map (fun i => a.gatherAddr x (32 * k + i))
      let stop (cause p : Nat) : TileOut := .stop cause p x (32 * k) (a.took 32 k)
      if a.haltsAt k then stop 10 0
      else match as.find? (fun p => p % 4 != 0 || outOfBounds p 4 false), as.find? (fun p => a.watch p 4 false) with
      | some p, _ => stop 6 p
      | none, some p =>
        if a.pass && k == a.first then
          a.runGather fuel (k + 1) (x.psetAt a.f.d (32 * k) (as.map (fun p => BitVec.ofNat 32 (leNat (x.bytes p 4)))))
        else stop 9 p
      | none, none => a.runGather fuel (k + 1) (x.psetAt a.f.d (32 * k) (as.map (fun p => BitVec.ofNat 32 (leNat (x.bytes p 4)))))

/-- LDPX. -/
def semLdpx : Sem := fun a =>
  if (List.range 256).any (fun i => a.x.held (a.gatherAddr a.x i) 4) then .wait else a.runGather 9 a.first a.x

/-! ### The sponge -/

/-- SPINIT; an undefined mode is a free value. -/
def semSpinit : Sem := fun a =>
  let m := a.f.imm.toNat % 256
  .one { a.x with sponge := ⟨[], if m < 4 then m else a.fresh 0 4, false, 0, 0⟩ }

/-- Absorb bytes: a filled block is permuted; the count of blocks filled. -/
def Sponge.absorb (p : Sponge) : Nat → Nat → Bytes → Sponge × Nat
  | 0, n, _ => (p, n)
  | fuel + 1, n, bs =>
    if bs.isEmpty then (p, n)
    else
      let room := spongeRate p.mode - p.pos
      let now := bs.take room
      let l := keccakXor p.full p.pos now
      if bs.length < room then ({ p with lanes := l, pos := p.pos + bs.length }, n)
      else Sponge.absorb { p with lanes := keccakF l, pos := 0 } fuel (n + 1) (bs.drop room)

/-- SPABS. -/
def semSpabs : Sem := fun a =>
  let addr := a.x.sn a.f.a
  let n := a.x.sn a.f.b
  if a.x.sponge.squeezing then a.fault 7 addr
  else a.access addr n 1 false
    (let (p, b) := a.x.sponge.absorb (n + 1) 0 (a.x.bytes addr n)
     .ok { a.x with sponge := p } (2 + 24 * b))

/-- SPFIN: the padding of the mode, a permutation, squeezing. -/
def semSpfin : Sem := fun a =>
  let p := a.x.sponge
  let r := spongeRate p.mode
  let l := keccakXor (keccakXor p.full p.pos [if p.mode < 2 then 0x1F else 0x06]) (r - 1) [0x80]
  .ok { a.x with sponge := { p with lanes := keccakF l, squeezing := true, pos := 0, perms := 0 } } 26

/-- SPSQZ. -/
def semSpsqz : Sem := fun a =>
  let addr := a.x.sn a.f.a
  let n := a.x.sn a.f.b
  if !a.x.sponge.squeezing then a.fault 7 addr
  else if inKeyArea addr n then a.fault 4 addr
  else a.access addr n 1 true
    (let (bs, p) := Sponge.squeeze { a.x.sponge with perms := 0 } n
     .ok ({ a.x with sponge := p }.store addr bs) (2 + 24 * p.perms))

/-! ### Background transfers -/

/-- A transfer issued. -/
def Tile.addXfer (x : Tile) (e : List Xfer) : Tile := { x with xfers := x.xfers ++ e }

/-- RSEND: to one position, or to every other tile of the shell. -/
def semRsend : Sem := fun a =>
  let addr := a.x.sn a.f.a
  let dst := a.x.sn a.f.b
  let n := a.x.sn a.f.c
  if dst ≠ 0xFF ∧ (a.x.size ≤ dst ∨ dst = a.x.pos) then a.fault 4 addr
  else if inKeyArea addr n then a.fault 4 addr
  else a.access addr n 1 false
    (.one (a.x.addXfer (if dst = 0xFF then ((List.range a.x.size).filter (· ≠ a.x.pos)).map (fun d => .send d addr n) else [.send dst addr n])))

/-- RRECV. -/
def semRrecv : Sem := fun a =>
  let addr := a.x.sn a.f.a
  let src := a.x.sn a.f.b
  let n := a.x.sn a.f.c
  if a.x.size ≤ src ∨ src = a.x.pos then a.fault 4 addr
  else a.access addr n 1 true (.one (a.x.addXfer [.recv src addr n]))

/-- DMAIN: on the stroke tile only. -/
def semDmain : Sem := fun a =>
  let addr := a.x.sn a.f.a
  if a.x.pos ≠ 0 then a.fault 4 addr
  else a.access addr (a.x.sn a.f.c) 1 true (.one (a.x.addXfer [.input (paramOf a.f) (a.x.sn a.f.b) addr (a.x.sn a.f.c)]))

/-- The requests of a RAND. DESIGN CHOICE (log 78): a length of 0 makes none, and one above 65,536 B several of at most 65,536 B (R341). -/
def randPieces (addr n : Nat) : List Xfer :=
  (List.range ((n + 65535) / 65536)).map (fun i => .draw (addr + 65536 * i) (min 65536 (n - 65536 * i)))

/-- RAND: on the stroke tile only. -/
def semRand : Sem := fun a =>
  let addr := a.x.sn a.f.a
  if a.x.pos ≠ 0 then a.fault 4 addr
  else a.access addr (a.x.sn a.f.c) 1 true (.one (a.x.addXfer (randPieces addr (a.x.sn a.f.c))))

/-- The tile at a position of tile `t`'s shell. -/
def State.shellMate (s : State) (t pos : Nat) : Option Nat := (s.shellOf t).bind (fun sh => (s.shellTiles sh)[pos]?)

/-- The first receive of a tile whose sender's first send to it has the same length (R191). -/
def State.arrival (s : State) (t : Nat) : Option (Nat × Nat × Nat × Nat × Nat) :=
  let x := s.tile t
  let first (pos : Nat) : Option (Nat × Nat × Nat) := (s.shellMate t pos).bind (fun u =>
    ((s.tile u).xfers.findSome? (fun e => match e with
      | .send d a n => if d = x.pos then some (u, a, n) else none
      | _ => none)))
  let firstRecv (pos : Nat) : Option (Nat × Nat) := x.xfers.findSome? (fun e => match e with
    | .recv p a n => if p = pos then some (a, n) else none
    | _ => none)
  (List.range 8).findSome? (fun pos => match firstRecv pos, first pos with
    | some (a, n), some (u, b, m) => if n = m then some (pos, u, b, a, n) else none
    | _, _ => none)

/-- RING_TRANSFER_ARRIVAL: a ring transfer has fully arrived at tile `t`; one with wrong parity raises RING_PARITY (R159).
DESIGN CHOICE (log 84): the bytes are read from the sender's memory now, not when the sender issued them. -/
def execRingTransferArrival (t : Nat) (s : State) (parityOk : Bool := true) : Answer :=
  match s.arrival t with
  | none => .next s
  | some (pos, u, b, a, n) =>
    if !parityOk then .next (s.tileCheck t 6) else
    let x := s.tile t
    let bs := (s.tile u).bytes b n
    let s := s.setTile u (fun y => { y with xfers := y.xfers.erase (.send x.pos b n) })
    .next (s.setTile t (fun y => { y.store a bs with xfers := y.xfers.erase (.recv pos a n) }))

/-- The job a tile runs. -/
def State.tileJob (s : State) (t : Nat) : Option Job := (s.shellOf t).bind (fun sh => (s.onUnit (.shell sh)).head?)

/-- A job's inputs are in its unit. -/
def Job.inputsHeld (j : Job) : Bool := j.phase = .gathered ∨ j.pq.phase = .gathered

/-- `n` bytes from `off` of input `which` of a job (0 main, 1 IN2, 2 IN3, 3 CTX), with the descriptor's offset of its address;
what lies beyond the input is a free value. -/
def State.jobInput (s : State) (j : Job) (which off n : Nat) (free : Bytes) (d : DmaResult) : Result ⊕ Bytes :=
  let desc := j.desc
  let ddr := dFlag desc 2
  let (r, o, l) : DmaResult × Nat × Bool := match which with
    | 0 => (s.readMain j d, 16, dSgl desc != 0)
    | 1 => (s.gatherRead j.slice ddr (dIn2Addr desc) (dIn2Len desc) d, 48, false)
    | 2 => (s.gatherRead j.slice ddr (dIn3Addr desc) (dIn3Len desc) d, 80, false)
    | 3 => (s.gatherRead j.slice ddr (dCtxAddr desc) (dCtxLen desc) d, 64, false)
    | _ => (.data [], 0, false)
  let held := match which with
    | 0 => j.main
    | 1 => j.in2
    | 2 => j.in3
    | 3 => j.ctx
    | _ => []
  let take (bs : Bytes) : Bytes := (bs.drop off).take n ++ free.drop ((bs.drop off).take n).length
  if j.inputsHeld then .inr (take held)
  else match dmaFail o l r with
    | some f => .inl f
    | none => .inr (take (dmaBytes r))

/-- What such a read meets in LPDDR5X is counted (R371). -/
def State.metInput (s : State) (j : Job) (which off n : Nat) (d : DmaResult) : State :=
  let at' (a : Nat) : State := s.metUe j.slice (dFlag j.desc 2) (a + off) n d
  if j.inputsHeld then s
  else match which with
    | 0 => s.metMain j off n d
    | 1 => at' (dIn2Addr j.desc)
    | 2 => at' (dIn3Addr j.desc)
    | 3 => at' (dCtxAddr j.desc)
    | _ => s

/-- DMAIN_COMPLETE: the oldest background copy of tile `t` ends, or its read fails and the job with it (R41). -/
def execDmainComplete (t : Nat) (d : DmaResult) (s : State) : Answer :=
  let x := s.tile t
  match s.tileJob t, x.xfers.findSome? (fun e => match e with
      | .input w o a n => some (w, o, a, n)
      | _ => none) with
  | some j, some (w, o, a, n) =>
    let (free, s') := s.draw n
    match s.jobInput j w o n free d with
    | .inl r => .next ((s.metInput j w o n d).jobEnds j.id r)
    | .inr bs => .next ((s'.metInput j w o n d).setTile t (fun y => { y.store a bs with xfers := y.xfers.erase (.input w o a n) }))
  | _, _ => .next s

/-- RAND_COMPLETE: the oldest background draw of tile `t` is served, or waits, or fails the job (R344, R349). -/
def execRandComplete (t : Nat) (s : State) : Answer :=
  let x := s.tile t
  match s.tileJob t, x.xfers.findSome? (fun e => match e with
      | .draw a n => some (a, n)
      | _ => none) with
  | some j, some (a, n) =>
    -- the first RAND of a job is its principal draw (R344)
    let pq := dClass j.desc == 0x10
    let pr := pPredRes (dParam j.desc) && !j.prGranted && pq == j.prHalf
    let land (s : State) (bs : Bytes) : State := s.setTile t (fun y => { y.store a bs with xfers := y.xfers.erase (.draw a n) })
    match j.kept pq with
    | bs :: l => .next ((land s bs).setJob j.id (fun x => { x with drawn := x.drawn.filter (fun e => e.1 != pq) ++ l.map (fun b => (pq, b)) }))
    | [] => match s.jobDraw j pr n with
      | .got bs _ s => .next (land s bs)
      | .wait => .next (s.waitDraw j (if pr then some n else none) pq)
      | .failed => .next (s.jobEnds j.id (.fail 0x30 0))
  | _, _ => .next s

/-- LDS. -/
def execLds (t : Nat) (f : TileFields) (s : State) : Answer := .next (s.issueTile t 0x50 f semLds)

/-- STS. -/
def execSts (t : Nat) (f : TileFields) (s : State) : Answer := .next (s.issueTile t 0x51 f semSts)

/-- LDV. -/
def execLdv (t : Nat) (f : TileFields) (s : State) : Answer := .next (s.issueTile t 0x52 f semLdv)

/-- STV. -/
def execStv (t : Nat) (f : TileFields) (s : State) : Answer := .next (s.issueTile t 0x53 f semStv)

/-- LDP. -/
def execLdp (t : Nat) (f : TileFields) (s : State) : Answer := .next (s.issueTile t 0x54 f semLdp)

/-- STP. -/
def execStp (t : Nat) (f : TileFields) (s : State) : Answer := .next (s.issueTile t 0x55 f semStp)

/-- LDPX. -/
def execLdpx (t : Nat) (f : TileFields) (s : State) : Answer := .next (s.issueTile t 0x56 f semLdpx)

/-- SPINIT. -/
def execSpinit (t : Nat) (f : TileFields) (s : State) : Answer := .next (s.issueTile t 0x60 f semSpinit)

/-- SPABS. -/
def execSpabs (t : Nat) (f : TileFields) (s : State) : Answer := .next (s.issueTile t 0x61 f semSpabs)

/-- SPFIN. -/
def execSpfin (t : Nat) (f : TileFields) (s : State) : Answer := .next (s.issueTile t 0x62 f semSpfin)

/-- SPSQZ. -/
def execSpsqz (t : Nat) (f : TileFields) (s : State) : Answer := .next (s.issueTile t 0x63 f semSpsqz)

/-- RSEND. -/
def execRsend (t : Nat) (f : TileFields) (s : State) : Answer := .next (s.issueTile t 0x70 f semRsend)

/-- RRECV. -/
def execRrecv (t : Nat) (f : TileFields) (s : State) : Answer := .next (s.issueTile t 0x71 f semRrecv)

/-- DMAIN. -/
def execDmain (t : Nat) (f : TileFields) (s : State) : Answer := .next (s.issueTile t 0x72 f semDmain)

/-- RAND. -/
def execRand (t : Nat) (f : TileFields) (s : State) : Answer := .next (s.issueTile t 0x73 f semRand)

end Sys2Proof.Machine
end

