-- ==== Sys2Proof/Machine/TileDebug.lean ====
section
/-! DEFINITION. Debug of an attached tile: ATTACH, HALT, RESUME, STEP, ABANDON and the window on its state (R199 to R201, R211). -/

namespace Sys2Proof.Machine

/-- The meaning of an opcode. -/
def semOf (op : Nat) : Option Sem := match op with
  | 0x00 => some semNop | 0x01 => some semBr | 0x02 => some semEnd | 0x03 => some semWait | 0x04 => some semCsrr
  | 0x05 => some semCsrw | 0x10 => some semSadd | 0x11 => some semSsub | 0x12 => some semSmul | 0x13 => some semSand
  | 0x14 => some semSor | 0x15 => some semSxor | 0x16 => some semSshl | 0x17 => some semSshr | 0x18 => some semSaddi
  | 0x19 => some semSli | 0x1A => some semSlh | 0x1B => some semScmp | 0x20 => some semVadd | 0x21 => some semVsub
  | 0x22 => some semVaddm | 0x23 => some semVsubm | 0x24 => some semVmulm | 0x25 => some semVand | 0x26 => some semVor
  | 0x27 => some semVxor | 0x28 => some semVshl | 0x29 => some semVshr | 0x2A => some semVmulh | 0x2B => some semVclmul
  | 0x2C => some semVbcast | 0x2D => some semVext | 0x2E => some semVperm | 0x30 => some semPadd | 0x31 => some semPsub
  | 0x32 => some semPaddm | 0x33 => some semPsubm | 0x34 => some semPmulm | 0x35 => some semPmacm | 0x36 => some semPand
  | 0x37 => some semPxor | 0x38 => some semPshl | 0x39 => some semPshr | 0x3A => some semPmulh | 0x3B => some semPclmul
  | 0x3C => some semPmov | 0x3D => some semMrefr | 0x3E => some semMskp | 0x40 => some semNtt | 0x41 => some semIntt
  | 0x42 => some semCbd | 0x43 => some semSampu | 0x44 => some semSampeta | 0x45 => some semSib | 0x46 => some semComp
  | 0x47 => some semDecompr | 0x48 => some semDecomp | 0x49 => some semP2r | 0x4A => some semMkhint
  | 0x4B => some semUsehint | 0x4C => some semNormchk | 0x4D => some semPack | 0x4E => some semUnpack | 0x4F => some semConv
  | 0x50 => some semLds | 0x51 => some semSts | 0x52 => some semLdv | 0x53 => some semStv | 0x54 => some semLdp
  | 0x55 => some semStp | 0x56 => some semLdpx | 0x60 => some semSpinit | 0x61 => some semSpabs | 0x62 => some semSpfin
  | 0x63 => some semSpsqz | 0x70 => some semRsend | 0x71 => some semRrecv | 0x72 => some semDmain | 0x73 => some semRand
  | _ => none

/-- The tile-debug right is in force (R199, R211); none is from a register that its shadow contradicts (R38, R400). -/
def State.tileDebug (s : State) : Bool := s.bit .dbgRights 3 && !s.shadowBad .dbgRights

/-- The halt of a tile ends without more ado. -/
def State.unhalt (s : State) (t : Nat) (f : Tile → Tile) : State :=
  (s.setTile t (fun x => f { x with halt := none })).setFld (.tilDbgStat t) 11 8 0

/-- Run the opcode of a word on a tile; an undefined opcode raises ILLEGAL. -/
def State.runWord (s : State) (t op : Nat) (f : TileFields) (held : Option BeatCtx) (resume : Nat) (pass : Bool) : State :=
  match semOf op with
  | some sem => s.runInstr t op f sem held resume pass
  | none => s.except t op f 1 0 0 .none

/-- RESUME (R199): the instruction stopped by a watchpoint goes on; a breakpoint is passed; after a precise kernel fault the next
instruction follows, after an imprecise one the instruction restarts. -/
def State.resumeTile (s : State) (t : Nat) : State :=
  match (s.tile t).halt with
  | none => s
  | some h =>
    if h.imprecise && !h.restartable then s
    else match h.cause, h.instr with
      | 8, _ => s.unhalt t (fun x => { x with passBp := true })
      | 9, some (op, f) => (s.unhalt t id).runWord t op f (some h.ctx) h.resume true
      | 10, some (op, f) => (s.unhalt t id).runWord t op f (some h.ctx) h.resume false
      | 10, none | 11, _ => s.unhalt t id
      | _, some _ => if h.imprecise then s.unhalt t (fun x => { x with passBp := true }) else s.unhalt t (fun x => { x with pc := (x.pc + 1) % 8192 })
      | _, none => s.unhalt t id

/-- A write of ATTACH; clearing it resumes a halted tile and disables its breakpoints and watchpoint (R199, R211). -/
def State.writeAttach (s : State) (t : Nat) (on : Bool) : State :=
  if !s.tileDebug then s
  else if on then s.setBit (.tilDbgCtrl t) 0 true
  else
    let s := (((s.setTile t (fun x => { x with haltIn := none })).setBit (.tilDbgBp0 t) 31 false).setBit (.tilDbgBp1 t) 31 false).setBit (.tilDbgWp t) 63 false
    (s.setBit (.tilDbgCtrl t) 0 false).resumeTile t

/-- The command bits act only under the right and while ATTACH is 1 (R211). -/
def State.debugging (s : State) (t : Nat) : Bool := s.tileDebug && s.attached t

/-- HALT: taken at once between two instructions, or once `beats` beats of the next one have run (R196; log 17). -/
def State.haltRequest (s : State) (t beats : Nat) : State :=
  if !s.debugging t || (s.tile t).halt.isSome then s
  else if beats = 0 then s.haltTile t 10 0 0 .none none false
  else s.setTile t (fun x => { x with haltIn := some beats })

/-- RESUME of a halted tile. -/
def State.resumeRequest (s : State) (t : Nat) : State := if s.debugging t then s.resumeTile t else s

/-- The instruction a halted tile runs next, with what it holds, its resume index and whether a watchpoint's stop is passed: the
rest of one stopped part-way, else the one at PC. -/
def State.nextWord (s : State) (t : Nat) (h : Halt) : (Nat × TileFields) × Option BeatCtx × Nat × Bool :=
  match h.instr, h.cause with
  | some i, 9 => (i, some h.ctx, h.resume, true)
  | some i, 10 => (i, some h.ctx, h.resume, false)
  | _, _ => (decodeTile (((s.tile t).imem[(s.tile t).pc]?).getD 0), none, 0, false)

/-- STEP: one instruction, at PC, or the rest of one stopped part-way, and the tile halts again. The debug stop at which it stands
is passed; one that the instruction meets halts it (R195, R199). One that waits for a transfer leaves the tile as it is. -/
def State.stepTile (s : State) (t : Nat) : State :=
  match (s.tile t).halt with
  | none => s
  | some h =>
    let x := s.tile t
    if (h.imprecise && !h.restartable) || !x.running || x.ended then s
    else
      let fault := decide (h.cause ≤ 7) && !h.imprecise
      let s' := s.unhalt t (fun x => { x with pc := if fault then (x.pc + 1) % 8192 else x.pc, passBp := x.passBp || h.cause == 8 })
      let before := s'.tile t
      let (i, held, resume, pass) := s'.nextWord t h
      let r := s'.runWord t i.1 i.2 held resume pass
      if r.tile t = before then s
      else if (r.tile t).halt.isSome then r
      else r.haltTile t 11 0 0 .none none false

/-- STEP of a halted tile. -/
def State.stepRequest (s : State) (t : Nat) : State := if s.debugging t then s.stepTile t else s

/-- ABANDON: the halted tile's job is abandoned and re-executed as R198 gives, and ABANDONED is set. -/
def State.abandonRequest (s : State) (t : Nat) : State :=
  if s.debugging t && (s.tile t).halt.isSome && (s.tile t).running then (s.setBit (.tilDbgStat t) 1 true).abandonJob t else s

/-- A write of TIL_DBG_CTRL: ATTACH, then the command bits in order. -/
def State.writeDbgCtrl (s : State) (t : Nat) (v : DWord) : State :=
  let s := s.writeAttach t (getB v 0)
  let s := if getB v 1 then s.haltRequest t 0 else s
  let s := if getB v 2 then s.resumeRequest t else s
  let s := if getB v 3 then s.stepRequest t else s
  if getB v 4 then s.abandonRequest t else s

/-! ### TIL_DBG_RSEL and TIL_DBG_RDATA -/

/-- Last word of a file: scalar, short vector, long vector, operand memory. -/
def lastWord (file : Nat) : Nat := match file with
  | 0 => 0
  | 1 => 3
  | 2 => 127
  | _ => 24575

/-- A write of TIL_DBG_RSEL, with WORD clamped. -/
def State.writeRsel (s : State) (t : Nat) (v : DWord) : State :=
  if !s.tileDebug then s
  else s.wr (.tilDbgRsel t) (setF (setF (setF 0 1 0 (getF v 1 0)) 8 4 (getF v 8 4)) 30 16 (min (lastWord (getF v 1 0)) (getF v 30 16)))

/-- The word that TIL_DBG_RDATA shows while the tile is halted. DESIGN CHOICE (log 84): of REG the file `p` uses the lowest four bits. -/
def State.dbgRead (s : State) (t : Nat) : DWord :=
  let r := s.rd (.tilDbgRsel t)
  let x := s.tile t
  let i := getF r 8 4
  let w := getF r 30 16
  if !s.tileDebug || x.halt.isNone then 0
  else match getF r 1 0 with
    | 0 => BitVec.ofNat 64 (x.sn i)
    | 1 => BitVec.ofNat 64 (((x.vget 2 i)[w]?).getD 0)
    | 2 => BitVec.ofNat 64 ((((x.pget 2 (i % 16))[w]?).getD 0))
    | _ => BitVec.ofNat 64 (leNat (x.bytes (8 * w) 8))

/-- A write of TIL_DBG_RDATA. -/
def State.dbgWrite (s : State) (t : Nat) (v : DWord) : State :=
  let r := s.rd (.tilDbgRsel t)
  let i := getF r 8 4
  let w := getF r 30 16
  if !s.tileDebug || (s.tile t).halt.isNone then s
  else s.setTile t (fun x => match getF r 1 0 with
    | 0 => x.setS i (v.setWidth 32)
    | 1 => x.vset 2 i ((x.vget 2 i).set w v.toNat)
    | 2 => x.pset 2 (i % 16) ((x.pget 2 (i % 16)).set w v.toNat)
    | _ => x.store (8 * w) (leBytes 8 v.toNat))

end Sys2Proof.Machine
end

