-- ==== Sys2Proof/Machine/Shadow.lean ====
section
/-! DEFINITION. The sweep of inverted shadows and the integrity response (R38, R302, R427, R428, R429). -/

namespace Sys2Proof.Machine

/-- The row of Table 13-6 of a shadowed register. -/
def shadowRow : Reg → Nat
  | .lcsState => 1
  | .dbgRights => 2
  | .tmpSrcCfg _ => 4
  | .tmpVdd | .tmpTempCtrl => 5
  | _ => 6

/-- The committed copy that Table 13-6 names: `kept` is the SC's record. -/
def State.committed (s : State) (r : Reg) (kept : DWord) : DWord :=
  match r with
  | .lcsState => setF kept 2 0 s.otp.state
  | .dbgRights => BitVec.ofNat 64 s.dbg.record
  | .tmpSrcCfg k => setF kept 10 8 (s.committedClass k)
  | _ => kept

/-- The integrity response after a restore: counted, KIND 6 logged with the row, then the alarm; the source is inactive again. -/
def State.integrity (s : State) (row : Nat) : State :=
  let s := (s.bump .tmpIntegCount).logEvent 6 17 0 0 row
  (s.alarm 17 row false).setBit .tmpActive 17 false

/-- No committed copy: the response is ZEROISE, whatever the class (R428). -/
def State.integrityZeroise (s : State) (row : Nat) : State :=
  let s := (s.openGroup.bump .tmpIntegCount).logAlarm (s.rd .tmpTime) 17 5 0 row
  (s.act 17 5).setBit .tmpActive 17 false

/-- Restore a register that disagrees with its shadow: the bits the shadow covers. -/
def State.sweepReg (s : State) (r : Reg) : State :=
  if !s.shadowBad r then s
  else (s.wr r (s.committed r (s.rd r &&& ~~~r.shadowBits (BitVec.allOnes 64) ||| r.shadowBits (s.shadowOf r).2))).integrity (shadowRow r)

/-- The ownership registers of a slice are compared before they are used (R427). -/
def State.sweepSlice (s : State) (n : Nat) : State := s.each [.slmSliceCtrl n, .slmSlicePasid n, .slmSliceKeywin n] State.sweepReg

/-- Restore a slot's attribute record from the copy that passes its SEC-DED check uncorrected, if exactly one does: which do is a
free value. -/
def State.sweepSlot (s : State) (a : Nat) : State :=
  if !s.slotBad a then s
  else
    let s := s.bump .keyShadowErr
    let (bs, s) := s.draw 1
    let x := s.slotAt a
    match leNat bs % 4 with
    | 1 => (s.putAttr a x.attr).integrity 3
    | 2 => (s.putAttr a (~~~x.inv)).integrity 3
    | _ => s.integrityZeroise 3

/-- Restore the AON's copy of an effective class (R422). -/
def State.sweepAon (s : State) (k : Nat) : State :=
  match s.tamper.aonClass[k]? with
  | some (c, inv) =>
    if c + inv = 7 then s
    else
      let good := s.committedClass k
      let tm := { s.tamper with aonClass := s.tamper.aonClass.mapIdx (fun i e => if i = k then (good, 7 - good) else e) }
      ({ s with tamper := tm } : State).integrity 4
  | none => s

/-- The slots whose words a job or a context found in disagreement get the response at once (R302). -/
def State.sweepDue (s : State) : State :=
  let l := s.tamper.slotsDue
  ({ s with tamper := { s.tamper with slotsDue := [] } } : State).each l State.sweepSlot

/-- The registers and slots that the mailbox command of a code uses are compared with their shadows before it runs (R302, R427). -/
def State.mbxUses (s : State) (code : Nat) (regs : List Reg) (slots : State → Bytes → List Nat) : State :=
  match s.mbxTurn code with
  | some ch => (s.each regs State.sweepReg).each (slots s (s.mbxRequest ch)) State.sweepSlot
  | none => s

/-- The SC's sweep over every shadowed register and slot. -/
def State.sweep (s : State) : State :=
  if s.boot.held || !s.power.io || s.power.backup then s
  else
    let s := s.each (s.shadow.map (·.1)) State.sweepReg
    let s := s.each (List.range 8) State.sweepAon
    s.each (s.slots.map (·.1)) State.sweepSlot

/-- SHADOW_SWEEP. -/
def execShadowSweep (s : State) : Answer := .next s.sweep

/-! ### Commands that read slots or shadowed registers -/

/-- The ownership registers of a job's slice are compared before they are used for it. -/
def State.sweepJob (s : State) (j : Nat) : State := s.each ((s.job? j).map (·.slice)).toList State.sweepSlice

/-- DESCRIPTOR_FETCH. -/
def execDescriptorFetch (q : Nat) (d gl : DmaResult) (s : State) : Answer := .next ((s.sweepSlice (q / 64)).fetch q d gl)

/-- JOB_DISPATCH: the cox gives a unit its next job. -/
def execJobDispatch (p : Nat) (u : JobUnit) (s : State) (ue : SlotUe := .none) : Answer :=
  .next ((s.each (s.jobs.map (·.slice)) State.sweepSlice).dispatch p u ue).sweepDue

/-- INPUTS_GATHERED. -/
def execInputsGathered (j : Nat) (main in2 in3 ctx : DmaResult) (s : State) : Answer := .next ((s.sweepJob j).takeInputs j main in2 in3 ctx)

/-- MESSAGE_SEGMENT_FETCH. -/
def execMessageSegmentFetch (j : Nat) (d : DmaResult) (s : State) : Answer := .next ((s.sweepJob j).takeSegment j d)

/-- COMPLETION_ENTRY_WRITE: the output of a sealed job is written, its slot committed and its entry issued (R16, R30). -/
def execCompletionEntryWrite (j : Nat) (outUe : LineUe) (cqUe : Bool) (s : State) (cqCe : Bool := false) : Answer :=
  .next ((s.sweepJob j).completeJob j outUe cqUe cqCe).sweepDue

/-- TRAVERSAL_REBUILD_DONE. -/
def execTraversalRebuildDone (c : Nat) (s : State) : Answer := .next (s.traversalRebuilt c).sweepDue

/-- A write of SLM_SLICE_CTRL. -/
def State.sliceCtrl (s : State) (n : Nat) (v : DWord) : State := (s.sweepSlice n).writeSliceCtrl n v

/-- SLICE_ENABLE: a write of SLM_SLICE_CTRL with ENABLE 1. -/
def execSliceEnable (n : Nat) (v : DWord) (s : State) : Answer := .next (s.hostTo (.slmSliceCtrl n) (·.sliceCtrl n (setB v 0 true)))

/-- SLICE_QUIESCE: a write with QUIESCE 1. -/
def execSliceQuiesce (n : Nat) (v : DWord) (s : State) : Answer := .next (s.hostTo (.slmSliceCtrl n) (·.sliceCtrl n (setB v 1 true)))

/-- SLICE_UNQUIESCE: a write with QUIESCE 0. -/
def execSliceUnquiesce (n : Nat) (v : DWord) (s : State) : Answer := .next (s.hostTo (.slmSliceCtrl n) (·.sliceCtrl n (setB v 1 false)))

/-- SLICE_RESET: a write with SLICE_RESET 1. -/
def execSliceReset (n : Nat) (v : DWord) (s : State) : Answer := .next (s.hostTo (.slmSliceCtrl n) (·.sliceCtrl n (setB v 2 true)))

/-- SLICE_DISABLE: a write with ENABLE 0. -/
def execSliceDisable (n : Nat) (v : DWord) (s : State) : Answer := .next (s.hostTo (.slmSliceCtrl n) (·.sliceCtrl n (setB v 0 false)))

/-- BNE_COMPAT_SET: a write with BNE_COMPAT 1. -/
def execBneCompatSet (n : Nat) (v : DWord) (s : State) : Answer := .next (s.hostTo (.slmSliceCtrl n) (·.sliceCtrl n (setB v 4 true)))

/-- TIL_DBG_ATTACH. -/
def execTilDbgAttach (t : Nat) (on : Bool) (s : State) : Answer := .next (s.hostTo (.tilDbgCtrl t) (fun s => (s.sweepReg .dbgRights).writeAttach t on))

/-- TIL_DBG_HALT. -/
def execTilDbgHalt (t : Nat) (s : State) (beats : Nat := 0) : Answer := .next (s.hostTo (.tilDbgCtrl t) (fun s => (s.sweepReg .dbgRights).haltRequest t beats))

/-- TIL_DBG_RESUME. -/
def execTilDbgResume (t : Nat) (s : State) : Answer := .next (s.hostTo (.tilDbgCtrl t) (fun s => (s.sweepReg .dbgRights).resumeRequest t))

/-- TIL_DBG_STEP. -/
def execTilDbgStep (t : Nat) (s : State) : Answer := .next (s.hostTo (.tilDbgCtrl t) (fun s => (s.sweepReg .dbgRights).stepRequest t))

/-- TIL_DBG_ABANDON. -/
def execTilDbgAbandon (t : Nat) (s : State) : Answer := .next (s.hostTo (.tilDbgCtrl t) (fun s => (s.sweepReg .dbgRights).abandonRequest t))

/-- The ownership registers of a claimant that is a slice are compared. -/
def State.sweepClaimant (s : State) : Claimant → State
  | .slice n => s.sweepSlice n
  | _ => s

/-- RDE_DATA: only a 64-bit write has an effect (R5, R239). -/
def execRdeData (c : Nat) (who : Claimant) (width : Nat) (v : DWord) (s : State) (ue : SlotUe := .none) : Answer :=
  if width ≠ 64 then .next s else .next ((s.sweepClaimant who).asOwner c who (fun s => s.rdeTake c who v ue)).sweepDue

/-- RDE_FINISH. -/
def execRdeFinish (c : Nat) (who : Claimant) (v : DWord) (s : State) (ue : SlotUe := .none) : Answer :=
  .next ((s.sweepClaimant who).rdeFinish c who (getF v 47 0) ue).sweepDue

/-- RDE_FINISH_DONE. -/
def execRdeFinishDone (c : Nat) (s : State) : Answer := .next (s.rdeDone c).sweepDue

/-- A supply dip is measured against TMP_VDD, and executes the CLASS of its source (R419, R427). -/
def State.dipBegins (s : State) (mv : Nat) (same : Bool) : State :=
  (s.onlyIf s.monitored (fun s => (s.sweepReg .tmpVdd).sweepReg (.tmpSrcCfg 9))).supplyDip mv same

/-- SUPPLY_DIP; `same` puts VDD_WARN's alarm into the group of the alarm before it (R418). -/
def execSupplyDip (mv : Nat) (s : State) (same : Bool := false) : Answer := .next (s.dipBegins mv same)

/-- An alarm of source `k` while main power is on: the CLASS of the source is compared with its shadow, and for TEMP_WARN
TMP_TEMP_CTRL (R427, R429). -/
def State.sourceAlarm (s : State) (k val : Nat) (same : Bool) : State :=
  if !s.srcLive k || s.bit .tmpActive k then s
  else ((s.sweepReg (.tmpSrcCfg k)).onlyIf (k == 12) (·.sweepReg .tmpTempCtrl)).alarm k val same

/-- TAMPER_ALARM: the condition of source `k` becomes active; `val` is the log's VALUE. VDD_WARN is a supply dip. -/
def execTamperAlarm (k val : Nat) (same : Bool) (s : State) : Answer :=
  if k = 9 then .next (s.dipBegins val same) else .next (s.sourceAlarm k val same)

/-- An alarm of an AON source, on main power or on the cell. -/
def State.aonAlarm (s : State) (k val : Nat) (same : Bool) : State :=
  if s.power.backup then s.onlyIf (!s.bit .tmpActive k) (·.backupAlarm k val) else s.sourceAlarm k val same

/-- A bit period of the mesh ends with the samples `ins` (R409): the lines that disagree for the second time in a row alarm together,
lowest first (R418), and those that agree for the second time are inactive again. -/
def State.meshPeriod (s : State) (ins : List (Bool × Bool)) : State :=
  if s.tamper.mesh.isEmpty || !s.power.aon || !s.power.crystal then s
  else
    let ls := s.meshAfter ins
    let s : State := { s with tamper := { s.tamper with mesh := ls } }
    let bad := (meshTwice ls true).filter (fun k => !s.bit .tmpActive k)
    let s := s.each bad (fun s k => s.aonAlarm k (meshValue ins k) (decide (bad.head? ≠ some k)))
    s.each (meshTwice ls false) (fun s k => s.setBit .tmpActive k false)

/-- A write of RESUME compares the CLASS of every source whose condition is present (R415, R427). -/
def State.resumeNow (s : State) : State := (s.each ((below 18 (s.bit .tmpActive)).map Reg.tmpSrcCfg) State.sweepReg).resume

/-- TMP_RESUME. -/
def execTmpResume (s : State) : Answer := .next (s.hostTo .tmpCtrl State.resumeNow)

end Sys2Proof.Machine
end

