-- ==== Sys2Proof/Machine/LifeCycle.lean ====
section
/-! DEFINITION. Life-cycle transitions and debug authorisation (R390 to R405). -/

namespace Sys2Proof.Machine

/-! ### Presence (R401) -/

/-- The command that runs waits for presence. -/
def State.waitPresence (s : State) (ch : Nat) : State := s.setBit (.mbxStatus ch) 2 true

/-- Bytes of the SC's own draw from DRB0 (R341), if it can be served now. -/
def State.scDraw (s : State) (n : Nat) : Option (Bytes × State) :=
  match s.request 0 n with
  | .got bs _ s => some (bs, s)
  | _ => none

/-- A command that writes BBRAM or OTP through the SC waits while a supply dip defers such writes (R420). -/
def State.mbxRunWrite (s : State) (row : MbxRow) (f : State → Nat → Bytes → State) : State :=
  if s.tamper.dip.isSome && !s.mbxRefused row then s else s.mbxRun row f

/-! ### Transitions (R390 to R393) -/

/-- The decoded state as LCS_STATE shows it. -/
def State.lcState (s : State) : Nat := s.fld .lcsState 2 0

/-- Steps 1 and 2 of Table 12-2 begin: work stops, the device reads HALTED, the board is held; the move is logged. -/
def State.beginTransition (s : State) (target : Nat) : State :=
  let s : State := { s with transition := some ⟨target, false, none, false⟩, pins := { s.pins with holdReleased := false } }
  let s := ((s.setFld .genState 3 0 2).setFld .lcsState 6 4 2).setFld .lcsState 10 8 target
  let s := match s.mbx.busy with
    | some ch => s.setBit (.mbxStatus ch) 2 false
    | none => s
  (s.cancelWaiting (fun _ => true) true).logEvent 4 0xFF 0 0 target

/-- LC_ADVANCE: checks 1 and 2 of R390, then presence, which only MAKER_TEST does not need (Table 12-8). -/
def State.lcAdvance (s : State) (ch : Nat) (req : Bytes) : State :=
  let target := leAt req 0 1
  if !allZero (slice req 1 3) then s.mbxDone ch 0x31 0 []
  else if !lcLegal s.lcState target then s.mbxDone ch 0x40 0 []
  else if target = 3 ∧ !posProgrammed s.otp.authI then s.mbxDone ch 0x41 0 []
  else if target = 1 ∧ s.otp.secretFull then s.mbxDone ch 0x49 0 []
  else if target = 1 then s.beginTransition target
  else ((s.setFld .lcsState 6 4 1).setFld .lcsState 10 8 target).waitPresence ch

/-- LC_ADVANCE. -/
def execLcAdvance (s : State) : Answer := .next ((s.mbxUses 0x0402 [.lcsState] (fun _ _ => [])).mbxRun ⟨0x0402, [0, 1], [5, 1, 3], (· == 4)⟩ State.lcAdvance)

/-- Step 3 of Table 12-2: the wipe, or the zeroisation line for RETURNED and SCRAPPED, whose command is not ended by it. -/
def State.wipeForMove (s : State) (target : Nat) : State :=
  if target = 4 ∨ target = 5 then
    let b := s.mbx.busy
    let s := { s with mbx := { s.mbx with busy := none } }.zeroiseLine 2
    { s with mbx := { s.mbx with busy := b } }
  else s.wipeSecure

/-- The device secret that leaving BLANK programs (R389): one already valid is kept, else one is drawn; none while DRB0 cannot
serve. -/
def State.moveSecret (s : State) (target : Nat) : Option (List Nat × State) :=
  if target ≠ 1 ∨ s.otp.hasSecret then some ([], s)
  else match s.scDraw 32 with
    | some (bs, s) => some (secretWords bs, s)
    | none => none

/-- The secret's words programmed, if there are any. -/
def Otp.withSecret (o : Otp) (ws : List Nat) : Otp := if ws.isEmpty then o else o.putSecret ws

/-- OTP after a failure before the intent word is valid: which word fails, one of the secret's nine in the move from BLANK or the intent
word, and what it holds are free values; the words before it stand, those after it are not programmed. -/
def State.failIntent (s : State) (target : Nat) (sec : List Nat) : State :=
  let (bs, s) := s.draw 5
  let i := leAt bs 0 1 % 10
  let r := leAt bs 1 4
  if !sec.isEmpty && decide (i < 9) then
    { s with otp := s.otp.putSecret (sec.mapIdx (fun k w => if k < i then w else if k = i then partialWord 0 w r else 0)) }
  else
    let o := s.otp.withSecret sec
    { s with otp := o.setWord target 8 (partialWord (o.word target 8) (lcWord target 8) r) }

/-- OTP after a failure of the word that follows `words` valid pattern words. -/
def State.failGroup (s : State) (target words : Nat) (sec : List Nat) : State :=
  let (bs, s) := s.draw 4
  let o := (s.otp.withSecret sec).program target (8 :: List.range (min 8 words))
  let w := if words < 8 then words else 9
  { s with otp := if o.valid target w then o else o.setWord target w (partialWord (o.word target w) (lcWord target w) (leNat bs)) }

/-- Step 3 of Table 12-2, once. -/
def State.wipeStep (s : State) (t : Transition) : State := if t.wiped then s else (s.setFld .lcsState 6 4 3).wipeForMove t.target

/-- Steps 4 to 7 of Table 12-2: the programming of OTP and the cold reset of cause LIFE_CYCLE. A word that fails before the intent is
valid ends the command with OTP_WRITE. The secret's draw may have to wait. -/
def State.programMove (s : State) (target : Nat) (w : OtpOutcome) : State :=
  match s.moveSecret target with
  | none => s
  | some (sec, s) =>
    let s := match w with
      | .ok => { s with otp := (s.otp.withSecret sec).finish target }
      | .failBeforeIntent => match s.mbx.busy with
        | some ch => (s.failIntent target sec).mbxEnd ch 0x49 0 []
        | none => s.failIntent target sec
      | .failAfterIntent n => s.failGroup target n sec
    (s.setFld .lcsState 6 4 7).systemReset true 7 0

/-- The programming that a dip or a draw has deferred goes on (R393, R420). -/
def State.resumeMove (s : State) : State :=
  match s.transition with
  | some ⟨target, true, some w, false⟩ => if s.tamper.dip.isSome then s else s.programMove target w
  | _ => s

/-- Started jobs have ended: the wipe of step 3, which no dip defers, then the rest. A dip that has halted the device stops the move
before it programs (R393). -/
def State.finishTransition (s : State) (w : OtpOutcome) : State :=
  match s.transition with
  | none => s
  | some t =>
    if s.jobs.any (fun j => decide (j.phase ≠ .sealed)) then s
    else
      let s := (s.wipeStep t).setFld .lcsState 6 4 4
      ({ s with transition := some ⟨t.target, true, some w, t.stopped || s.tamper.dip.any (·.halted)⟩ } : State).resumeMove

/-- LC_TRANSITION_DRAINED. -/
def execLcTransitionDrained (w : OtpOutcome) (s : State) : Answer := .next (s.finishTransition w)

/-! ### Debug rights (R394 to R400) -/

/-- DBG_STAT (Table 12-13). -/
def State.dbgStatReg (s : State) : DWord :=
  let r := s.fld .dbgRights 8 0
  BitVec.ofNat 64 ((if r ≠ 0 then 1 else 0) + (if r / 4 ≠ 0 then 2 else 0) + (if s.dbg.nonce.isSome then 4 else 0)
    + (if posProgrammed s.otp.authH then 8 else 0) + (if posProgrammed s.otp.authI then 16 else 0)
    + s.fld .dbgStat 5 5 * 32 + s.fld .dbgStat 15 8 * 2 ^ 8)

/-- LC_STATUS's response. -/
def State.lcStatusRsp (s : State) : Bytes :=
  [BitVec.ofNat 8 s.lcState, BitVec.ofNat 8 (s.fld .lcsState 6 4), BitVec.ofNat 8 (s.fld .lcsState 10 8), 0]
    ++ leBytes 4 (s.fld .lcsOtpGroup 31 0) ++ leBytes 4 (s.fld .dbgRights 31 0) ++ leBytes 4 s.dbgStatReg.toNat

/-- LC_STATUS: served in every state. -/
def execLcStatus (s : State) : Answer :=
  .next ((s.mbxUses 0x0401 [.lcsState, .dbgRights] (fun _ _ => [])).mbxRun ⟨0x0401, [0, 1], [0, 1, 2, 3, 4, 5, 6, 15], (· == 0)⟩ (fun s ch _ => s.mbxDone ch 0 0 s.lcStatusRsp))

/-- The outstanding challenge is gone. -/
def State.dropChallenge (s : State) : State := { s with dbg := { s.dbg with nonce := none } }.wr .dbgChalExpiry 0

/-- DBG_CHALLENGE: a fresh nonce, which lapses after 600 s (R397); it waits until DRB0 can serve it (R345). -/
def State.dbgChallenge (s : State) (ch : Nat) (_ : Bytes) : Option State :=
  (s.scDraw 32).map (fun (n, s) =>
    ({ s with dbg := { s.dbg with nonce := some n } }.wr .dbgChalExpiry (s.rd .genTime + 600000000000)).mbxDone ch 0 0 (s.serial ++ n))

/-- DBG_CHALLENGE. -/
def execDbgChallenge (s : State) : Answer := .next ((s.mbxUses 0x0410 [.lcsState] (fun _ _ => [])).mbxTry ⟨0x0410, [0, 1], [1, 3], (· == 0)⟩ State.dbgChallenge)

/-- CHALLENGE_LAPSE: the 600 s have passed. -/
def execChallengeLapse (s : State) : Answer :=
  if s.dbg.nonce.isSome && decide (s.rd .dbgChalExpiry ≠ 0) && decide (s.fld .dbgChalExpiry 63 0 ≤ s.now) then .next s.dropChallenge else .next s

/-- RIGHTS of a certificate. -/
def certRights (c : Bytes) : Nat := leAt c 56 4

/-- The position of the authority a state names: 0 Henfatan's, 1 the integrator's (Table 12-1). -/
def State.debugAuthority (s : State) : Option Nat := match s.lcState with
  | 1 | 4 => some 0
  | 2 => some (if posProgrammed s.otp.authI then 1 else 0)
  | 3 => some 1
  | _ => none

/-- Rights a state grants (Table 12-1): SCAN only in MAKER_TEST and RETURNED. -/
def State.rightsGranted (s : State) : Nat := if s.lcState = 1 ∨ s.lcState = 4 then 0x1FF else if s.lcState = 2 ∨ s.lcState = 3 then 0xFF else 0

/-- Check 4 of R398. -/
def State.signerOk (s : State) (c : Bytes) : Bool :=
  let pos := if leAt c 5 1 = 1 then s.otp.authI else s.otp.authH
  let dig := hashOf 3 (slice c 72 1952)
  decide (s.debugAuthority = some (leAt c 5 1)) && posProgrammed pos && dig == pos.1 && leAt c 64 4 == leAt dig 0 4

/-- DBG_OPEN: checks 1 to 7 of R398; from check 3 on the challenge is consumed; then presence. -/
def State.dbgOpen (s : State) (ch : Nat) (c : Bytes) : State :=
  let fail (s : State) (x : Nat) : State := s.mbxDone ch x 0 []
  let r := certRights c
  if s.fld .dbgRights 8 0 ≠ 0 then fail s 0x4A
  else if c.length ≠ 5333 || c.take 5 != [0x46, 0x4A, 0x44, 0x43, 1] || !allZero (slice c 6 2)
      || !allZero (slice c 68 4) || decide (0x200 ≤ r) then fail s 0x42
  else if slice c 8 16 ≠ s.serial then fail s 0x43
  else
    let nonce := s.dbg.nonce
    let s := s.dropChallenge
    if nonce ≠ some (slice c 24 32) then fail s 0x44
    else if !s.signerOk c then fail s 0x45
    else if leAt c 60 4 < s.otp.debugMin then fail s 0x46
    else if r = 0 ∨ r &&& s.rightsGranted ≠ r then fail s 0x47
    else if !dsaVerifies (slice c 72 1952) (c.take 2024) (slice c 2024 3309) "FJ9640-DEBUG" then fail s 0x48
    else s.waitPresence ch

/-- DBG_OPEN. -/
def execDbgOpen (s : State) : Answer := .next ((s.mbxUses 0x0411 [.lcsState, .dbgRights] (fun _ _ => [])).mbxRun ⟨0x0411, [0, 1], [1, 3], fun _ => true⟩ State.dbgOpen)

/-- The rights come into force: the test root first where any is invasive, then DBG_RIGHTS (R399). -/
def State.openRights (s : State) (c : Bytes) : State :=
  let r := certRights c
  let s := if r / 4 ≠ 0 then { s with hmac := [] }.setBit .genState 5 true else s
  let s := { s with dbg := { s.dbg with record := r, halted := s.dbg.halted.filter (fun x => r.testBit x.1) } }.wr .dbgRights (BitVec.ofNat 64 r)
  let s := (s.setFld .dbgStat 5 5 (leAt c 5 1)).wr .dbgOpenTime (s.rd .genTime)
  (s.bump .dbgOpens).logEvent 5 0xFF 0 0 r

/-- DBG_CLOSE: every right ends at once (R400). -/
def State.dbgClose (s : State) (ch : Nat) (_ : Bytes) : State :=
  ({ s with dbg := { s.dbg with record := 0, halted := [] } }.wr .dbgRights 0).mbxDone ch 0 0 []

/-- DBG_CLOSE. -/
def execDbgClose (s : State) : Answer := .next ((s.mbxUses 0x0412 [.dbgRights] (fun _ _ => [])).mbxRun ⟨0x0412, [0, 1], [1, 3], (· == 0)⟩ State.dbgClose)

/-- DBG_SET_AUTH: in INTEGRATOR, once; then presence. -/
def State.dbgSetAuth (s : State) (ch : Nat) (_ : Bytes) : State :=
  if s.lcState ≠ 2 then s.mbxDone ch 0x25 0 []
  else if posProgrammed s.otp.authI then s.mbxDone ch 0x41 0 []
  else s.waitPresence ch

/-- DBG_SET_AUTH. -/
def execDbgSetAuth (s : State) : Answer := .next ((s.mbxUses 0x0413 [.lcsState] (fun _ _ => [])).mbxRun ⟨0x0413, [0, 1], [1, 3], (· == 1952)⟩ State.dbgSetAuth)

/-- The integrator's position takes the digest of a key, check word last (R395). -/
def State.programAuth (s : State) (ch : Nat) (pk : Bytes) : State :=
  let dig := hashOf 3 pk
  { s with otp := { s.otp with authI := (dig, checkWord dig) } }.mbxDone ch 0 (leAt dig 0 4) []

/-- DBG_REVOKE: in INTEGRATOR or FIELDED; then presence. -/
def State.dbgRevoke (s : State) (ch : Nat) (req : Bytes) : State :=
  if s.lcState ≠ 2 ∧ s.lcState ≠ 3 then s.mbxDone ch 0x25 0 []
  else if 63 < leAt req 0 1 ∨ !allZero (slice req 1 3) then s.mbxDone ch 0x31 0 []
  else s.waitPresence ch

/-- DBG_REVOKE. -/
def execDbgRevoke (s : State) : Answer := .next ((s.mbxUses 0x0414 [.lcsState] (fun _ _ => [])).mbxRun ⟨0x0414, [0, 1], [1, 3], (· == 4)⟩ State.dbgRevoke)

/-- DEBUG_MIN rises; it never falls (R395). -/
def State.raiseMin (s : State) (ch : Nat) (req : Bytes) : State :=
  let m := max s.otp.debugMin (leAt req 0 1)
  { s with otp := { s.otp with debugMin := m } }.mbxDone ch 0 m []

end Sys2Proof.Machine
end

