-- ==== Sys2Proof/Machine/MbxKeys.lean ====
section
/-! DEFINITION. The mailbox commands over keys, the vault and the statements (R304 to R307, R312 to R315, R319 to R330). -/

namespace Sys2Proof.Machine

/-! ### The staging buffer and host reads (R327) -/

/-- Bytes of the staging buffer, the first MiB of SB0. -/
def stagingSize : Nat := 0x100000

/-- The address that names the staging buffer. -/
def stagingAddr : Nat := 2 ^ 64 - 1

/-- What a request field with a host address reads: the staging buffer, or an untranslated read of host memory; none when the
read fails, as it does without Bus Master Enable or with the link down (R41, R437 step 5). -/
def State.requestData (s : State) (addr len : Nat) (d : DmaResult) : Option Bytes :=
  if addr = stagingAddr then some (Memory.read 0 len s.sram)
  else if !s.pcie.busMaster || !s.pcie.dlActive then none
  else match d with
    | .data bs => some (padTo len bs)
    | _ => none

/-- Bytes written to the staging buffer. -/
def State.stage (s : State) (off : Nat) (bs : Bytes) : State := { s with sram := Memory.write off bs s.sram }

/-- MBX_PUT. -/
def State.putStaging (s : State) (ch : Nat) (req : Bytes) : State :=
  let off := leAt req 0 4
  let n := req.length - 8
  if off % 8 ≠ 0 ∨ stagingSize ≤ off ∨ leAt req 4 4 ≠ 0 ∨ stagingSize < off + n then s.mbxDone ch 0x31 0 []
  else (s.stage off (req.drop 8)).mbxDone ch 0 0 []

/-- MBX_PUT. -/
def execMbxPut (s : State) : Answer := .next (s.mbxRun ⟨0x0001, [0, 1], [5] ++ anyState, fun n => decide (8 ≤ n)⟩ State.putStaging)

/-! ### Slots named by a command -/

/-- Run a command on slots, once those it names have been compared with their inverses (R302, R330). -/
def State.mbxRunSlots (s : State) (row : MbxRow) (slots : State → Bytes → List Nat) (f : State → Nat → Bytes → State) : State :=
  (s.mbxUses row.code [] slots).mbxRun row f

/-- A command that changes a slot begins only once a journal record can be reserved for it (R357). -/
def State.mbxRunChange (s : State) (row : MbxRow) (slots : State → Bytes → List Nat) (f : State → Nat → Bytes → State) : State :=
  if 2048 ≤ s.journalUsed && !s.mbxRefused row then s else s.mbxRunSlots row slots f

/-- The slot whose number a request holds at an offset. -/
def slotArg (off : Nat) (_ : State) (r : Bytes) : List Nat := [leAt r off 4]

/-- OWNER values of a request (R328). -/
def ownerOk (o : Nat) : Bool := decide (o < 512) || o == 0x3FE

/-- The slot holds a key that a command may use: filled and not consumed. -/
def State.usable (s : State) (a : Nat) : Bool := (s.slotAt a).filled && !getB (s.slotAt a).attr 1

/-- The RESULT for a slot whose key a command cannot use: empty or sealed (R319). -/
def State.keyRefused (s : State) (a : Nat) : Option Nat :=
  if !s.usable a then some 0x33 else if s.sealedAttr (s.slotAt a).attr then some 0x3A else none

/-- End a command whose slot is empty or sealed; else go on. -/
def State.withKey (s : State) (ch a : Nat) (f : State → State) : State :=
  match s.keyRefused a with
  | some x => s.mbxDone ch x 0 []
  | none => f s

/-- The key that a slot or its extent holds, and what its read meets, counted (R358, R371); none where it cannot be read or fails its
tag. -/
def State.keyMet (s : State) (a : Nat) (ue : SlotUe) : State × Option Bytes :=
  match ue, s.material a with
  | .key, _ => (s.slotUe a, none)
  | .attr, _ => ((s.bump .memSramUe).memEvt 2, none)
  | .corrected, some mat => (s.slotCe a, some mat)
  | .correctedAttr, some mat => (s.bump .memSramCe, some mat)
  | _, m => (s, m)

/-- End a command whose key cannot be had. DESIGN CHOICE (log 69): it ends IMPORT_INVALID with operand 5 and reason 6. -/
def State.keyUnread (s : State) (ch : Nat) : State := s.mbxDone ch 0x36 (5 + 256 * 6) []

/-- Go on with the key that a slot or its extent holds. -/
def State.withMaterial (s : State) (ch a : Nat) (ue : SlotUe) (f : State → Bytes → State) : State :=
  match s.keyMet a ue with
  | (s, some mat) => f s mat
  | (s, none) => s.keyUnread ch

/-! ### KEY_WRITE (R304, R328) -/

/-- Class and set of a key that can be written in clear (Table 03-19). -/
def writable (c set : Nat) : Bool := decide (c ∉ [0x04, 0x05, 0x06]) && importSetOk c set

/-- The request of KEY_WRITE follows its layout. -/
def keyWriteOk (r : Bytes) : Bool :=
  let c := leAt r 4 1
  let set := leAt r 5 1
  let a := leAt r 6 2
  let n := leAt r 12 4
  let addr := leAt r 16 8
  decide (24 ≤ r.length) && decide (leAt r 0 4 < 131072) && leAt r 10 2 == 0 && ownerOk (leAt r 8 2) && writable c set
    && attrReqOk a && attrsAllowed c set a && decide (1 ≤ n) && decide (n ≤ 16384)
    && (if addr = 0 then r.length == 24 + n else r.length == 24)
    && ((importLen c set).check n).isNone

/-- The staging buffer's copy of a key is zeroed. -/
def State.zeroStaged (s : State) (addr n : Nat) : State := if addr = stagingAddr then s.stage 0 (zeros n) else s

/-- The RESULT for a filled slot that a command is to fill: SEALED (R319), else SLOT_OCCUPIED. -/
def State.occupied (s : State) (a : Nat) : Nat := if s.sealedAttr (s.slotAt a).attr then 0x3A else 0x34

/-- KEY_WRITE: the clear form is read, checked and written into an empty slot. -/
def State.keyWrite (d : DmaResult) (s : State) (ch : Nat) (r : Bytes) : State :=
  let a := leAt r 0 4
  let c := leAt r 4 1
  let set := leAt r 5 1
  let n := leAt r 12 4
  let addr := leAt r 16 8
  if !keyWriteOk r then s.mbxDone ch 0x31 0 []
  else if (s.slotAt a).filled then s.mbxDone ch (s.occupied a) 0 []
  else match (if addr = 0 then some (r.drop 24) else s.requestData addr n d) with
    | none => s.mbxDone ch 0x3B 0 []
    | some bs =>
      let s := s.zeroStaged addr n
      match clearFail c set bs with
      | some why => s.mbxDone ch 0x36 (1 + 256 * why) []
      | none =>
        let mat := matOfClear c bs
        (s.putSlot a mat (s.newAttr c set (leAt r 8 2) (leAt r 6 2) false false (inExtent c mat.length) 0)
          (if c = 0x0A then leAt mat 0 4 else 0)).mbxDone ch 0 0 []

/-- KEY_WRITE. -/
def execKeyWrite (d : DmaResult) (s : State) : Answer :=
  .next (s.mbxRunChange ⟨0x0301, [0], [1], fun _ => true⟩ (slotArg 0) (State.keyWrite d))

/-! ### Narrowing and emptying (R306, R307) -/

/-- The attribute word after KEY_SET_ATTR. -/
def narrowed (w : DWord) (clear : Nat) (nonexp : Bool) (owner : Nat) : DWord :=
  let u := getF w 13 8
  let w := setF w 13 8 (u ^^^ (u &&& clear))
  let w := if nonexp then setB (setB w 3 true) 13 false else w
  if owner = 0xFFFF then w else setF w 41 32 owner

/-- KEY_SET_ATTR. -/
def State.keySetAttr (s : State) (ch : Nat) (r : Bytes) : State :=
  let a := leAt r 0 4
  let o := leAt r 8 2
  if 131072 ≤ a ∨ 64 ≤ leAt r 4 1 ∨ 2 ≤ leAt r 5 1 ∨ leAt r 6 2 ≠ 0 ∨ (o ≠ 0xFFFF ∧ !ownerOk o) then s.mbxDone ch 0x31 0 []
  else s.withKey ch a (fun s => (s.putAttr a (narrowed (s.slotAt a).attr (leAt r 4 1) (leAt r 5 1 == 1) o)).mbxDone ch 0 0 [])

/-- KEY_SET_ATTR. -/
def execKeySetAttr (s : State) : Answer :=
  .next (s.mbxRunChange ⟨0x0302, [0], [1], (· == 10)⟩ (slotArg 0) State.keySetAttr)

/-- A slot emptied by the manager: its cell is freed if no other slot is bound to it, unless a DESTROY's freeing write is under
way (R231, R307). -/
def State.destroySlot (s : State) (a : Nat) : State :=
  let last := s.lastOfCell a
  let c := attrCell (s.slotAt a).attr
  let s := if last && !(s.cell c).freeing then s.setCell c (s.cell c).release else s
  s.emptySlot a

/-- Filled slots of a range, lowest first. -/
def State.filledIn (s : State) (first count : Nat) : List Nat :=
  ((s.slots.filter (fun e => e.2.filled && decide (first ≤ e.1) && decide (e.1 < first + count))).map (·.1)).mergeSort

/-- KEY_DESTROY. -/
def State.keyDestroy (s : State) (ch : Nat) (r : Bytes) : State :=
  let first := leAt r 0 4
  let count := leAt r 4 4
  if count = 0 ∨ 131072 < first + count then s.mbxDone ch 0x31 0 []
  else
    let l := s.filledIn first count
    (s.each l State.destroySlot).mbxDone ch 0 l.length []

/-- The slots a KEY_DESTROY reads (R302): the filled ones it names, and those whose word disagrees with its inverse. -/
def State.destroyed (s : State) (r : Bytes) : List Nat :=
  ((s.slots.map (·.1)).filter (fun a => ((s.slotAt a).filled || s.slotBad a) && decide (leAt r 0 4 ≤ a) && decide (a < leAt r 0 4 + leAt r 4 4))).mergeSort

/-- KEY_DESTROY; while a dip defers BBRAM writes, one that would free a cell waits. -/
def execKeyDestroy (s : State) : Answer :=
  let row : MbxRow := ⟨0x0303, [0], [1], (· == 8)⟩
  match s.mbxHead with
  | some ch =>
    if s.tamper.dip.isSome ∧ !s.mbxRefused row ∧ s.mbxCode ch = 0x0303 ∧ (s.destroyed (s.mbxRequest ch)).any (fun a => getB (s.slotAt a).attr 4) then .next s
    else .next (s.mbxRunChange row State.destroyed State.keyDestroy)
  | none => .next s

/-! ### Public keys and statements (R320 to R323) -/

/-- KEY_GET_PUBLIC; a key without a public part is refused. -/
def State.keyGetPublic (ue : SlotUe) (s : State) (ch : Nat) (r : Bytes) : State :=
  let a := leAt r 0 4
  if 131072 ≤ a then s.mbxDone ch 0x31 0 []
  else s.withKey ch a (fun s =>
    if attrClass (s.slotAt a).attr = 0x0D then s.mbxDone ch 0x31 0 []
    else s.withMaterial ch a ue (fun s mat => s.mbxDone ch 0 0 (pubOf (s.slotAt a).attr mat)))

/-- KEY_GET_PUBLIC. -/
def execKeyGetPublic (s : State) (ue : SlotUe := .none) : Answer :=
  .next (s.mbxRunSlots ⟨0x0304, [0], [1], (· == 4)⟩ (slotArg 0) (State.keyGetPublic ue))

/-- The two draws of a signed statement (R320, R341). -/
def State.signDraws (s : State) : Option (Bytes × Bytes × State) :=
  match s.scDraw 32 with
  | none => none
  | some (a, s) => match s.scDraw 32 with
    | none => none
    | some (b, s) => some (a, b, s)

/-- KEY_ATTEST: the statement waits until DRB0 can serve its draws. -/
def State.keyAttest (ue : SlotUe) (s : State) (ch : Nat) (r : Bytes) : Option State :=
  let a := leAt r 0 4
  if 131072 ≤ a ∨ leAt r 4 4 ≠ 0 then some (s.mbxDone ch 0x31 0 [])
  else match s.keyRefused a with
  | some x => some (s.mbxDone ch x 0 [])
  | none => match s.keyMet a ue with
    | (s, none) => some (s.keyUnread ch)
    | (s, some mat) => s.signDraws.map (fun (x, y, s) => s.mbxDone ch 0 0 (s.originStatement (slice r 8 32) (s.slotAt a).attr a mat x y))

/-- KEY_ATTEST. -/
def execKeyAttest (s : State) (ue : SlotUe := .none) : Answer :=
  .next ((s.mbxUses 0x0305 [] (slotArg 0)).mbxTry ⟨0x0305, [0], [1], (· == 40)⟩ (State.keyAttest ue))

/-- GET_IDENTITY. -/
def State.getIdentity (s : State) (ch : Nat) (_ : Bytes) : Option State :=
  s.signDraws.map (fun (x, y, s) => s.mbxDone ch 0 0 (s.identityRecord x y))

/-- GET_IDENTITY. -/
def execGetIdentity (s : State) : Answer := .next (s.mbxTry ⟨0x0320, [0, 1], [1, 3], (· == 0)⟩ State.getIdentity)

/-- ATTEST_IDENTITY. -/
def State.attestIdentity (s : State) (ch : Nat) (r : Bytes) : Option State :=
  s.signDraws.map (fun (x, y, s) => s.mbxDone ch 0 0 (s.measureStatement (slice r 0 32) x y))

/-- ATTEST_IDENTITY: served in LOCKED too (R416). -/
def execAttestIdentity (s : State) : Answer := .next (s.mbxTry ⟨0x0321, [0, 1], [1, 3, 15], (· == 32)⟩ State.attestIdentity)

/-! ### The vault (R313 to R315) -/

/-- A key whose seed or clear form the vault can hold (Table 09-2). -/
def vaultable (w : DWord) (mat : Bytes) : Bool :=
  let set := attrSet w
  !getB w 6 && decide (mat.length ≤ 64) && match attrClass w with
  | 0x01 | 0x02 | 0x09 | 0x0D => true
  | 0x03 => slhN set == 16
  | 0x08 => decide (set ≤ 2)
  | _ => false

/-- The attribute word of a vault entry. -/
def vaultAttr (w : DWord) : DWord := setF (setF (setF (setF (setB w 1 false) 41 32 0) 57 48 0) 62 58 0) 7 6 0

/-- Bytes of the form in which the vault keeps a key (Tables 03-19 and 09-2): the seed form where there is one. -/
def vaultLen (w : DWord) : Nat :=
  let set := attrSet w
  match attrClass w with
  | 0x01 => 64
  | 0x02 => 32
  | 0x03 => 4 * slhN set
  | 0x08 => eccL set
  | 0x09 => edPk set
  | _ => if set = 3 then 64 else 32

/-- An entry of the vault. -/
def State.vaultEntry (s : State) (e : Nat) : Option (DWord × Bytes) := (s.bbram.vault.find? (fun x => x.1 == e)).map (·.2)

/-- The vault without an entry. -/
def State.dropEntry (s : State) (e : Nat) : State := { s with bbram := { s.bbram with vault := s.bbram.vault.filter (fun x => x.1 ≠ e) } }

/-- VAULT_STORE: the key, padded and encrypted under VEK with the entry number as the tweak, and its attribute word. -/
def State.vaultStore (ue : SlotUe) (s : State) (ch : Nat) (r : Bytes) : State :=
  let a := leAt r 0 4
  let e := leAt r 4 1
  if 131072 ≤ a ∨ 64 ≤ e ∨ !allZero (slice r 5 3) then s.mbxDone ch 0x31 0 []
  else s.withKey ch a (fun s =>
    let x := s.slotAt a
    if !vaultable x.attr x.mat then s.mbxDone ch 0x37 0 []
    else if (s.vaultEntry e).isSome then s.mbxDone ch 0x39 0 []
    else s.withMaterial ch a ue (fun s mat =>
      let c := xts false s.vaultKey e (padTo 64 mat)
      ({ s with bbram := { s.bbram with vault := s.bbram.vault ++ [(e, vaultAttr x.attr, c)] } } : State).mbxDone ch 0 0 []))

/-- Run a command on slots that writes BBRAM: it waits while a dip defers such writes. -/
def State.mbxRunVault (s : State) (row : MbxRow) (slots : State → Bytes → List Nat) (f : State → Nat → Bytes → State) : State :=
  if s.tamper.dip.isSome && !s.mbxRefused row then s else s.mbxRunSlots row slots f

/-- VAULT_STORE. -/
def execVaultStore (s : State) (ue : SlotUe := .none) : Answer :=
  .next (s.mbxRunVault ⟨0x0310, [0], [1], (· == 8)⟩ (slotArg 0) (State.vaultStore ue))

/-- VAULT_LOAD. -/
def State.vaultLoad (s : State) (ch : Nat) (r : Bytes) : State :=
  let e := leAt r 0 1
  let a := leAt r 4 4
  let o := leAt r 8 2
  if 64 ≤ e ∨ !allZero (slice r 1 3) ∨ 131072 ≤ a ∨ !ownerOk o then s.mbxDone ch 0x31 0 []
  else match s.vaultEntry e with
    | none => s.mbxDone ch 0x38 0 []
    | some (w, c) =>
      if s.sealedAttr w then s.mbxDone ch 0x3A 0 []
      else if (s.slotAt a).filled then s.mbxDone ch (s.occupied a) 0 []
      else (s.putSlot a ((xts true s.vaultKey e c).take (vaultLen w)) (setF w 41 32 o)).mbxDone ch 0 0 []

/-- VAULT_LOAD. -/
def execVaultLoad (s : State) : Answer :=
  let row : MbxRow := ⟨0x0311, [0], [1], (· == 10)⟩
  .next (if s.tamper.dip.isSome && !s.mbxRefused row then s else s.mbxRunChange row (slotArg 4) State.vaultLoad)

/-- VAULT_ERASE. -/
def State.vaultErase (s : State) (ch : Nat) (r : Bytes) : State :=
  let e := leAt r 0 1
  if 64 ≤ e ∨ !allZero (slice r 1 7) then s.mbxDone ch 0x31 0 []
  else if (s.vaultEntry e).isNone then s.mbxDone ch 0x38 0 []
  else (s.dropEntry e).mbxDone ch 0 0 []

/-- VAULT_ERASE. -/
def execVaultErase (s : State) : Answer := .next (s.mbxRunWrite ⟨0x0312, [0, 1], [1, 3], (· == 8)⟩ State.vaultErase)

/-- VAULT_INFO: the 64 attribute words. -/
def State.vaultInfo (s : State) (ch : Nat) (_ : Bytes) : State :=
  s.mbxDone ch 0 0 ((List.range 64).flatMap (fun e => leBytes 8 (match s.vaultEntry e with
    | some (w, _) => w.toNat
    | none => 0)))

/-- VAULT_INFO. -/
def execVaultInfo (s : State) : Answer := .next (s.mbxRun ⟨0x0314, [0, 1], [1, 3], (· == 0)⟩ State.vaultInfo)

/-- VAULT_CLEAR waits for presence. -/
def execVaultClear (s : State) : Answer :=
  .next (s.mbxRunWrite ⟨0x0313, [0, 1], [1, 3], (· == 0)⟩ (fun s ch _ => s.waitPresence ch))

/-! ### The epoch (R227, R312) -/

/-- `n` bytes that the SC draws from DRB0 with prediction resistance (R344): DRB0 is reseeded for it at once where no demand of R343's
first two rows waits and the pool holds the 48 B. -/
def State.prDraw (s : State) (n : Nat) : Option (Bytes × State) :=
  if s.srcState ≠ 2 ∨ s.bit .genState 4 ∨ s.drbState 0 = 0 ∨ s.poolBytes < 48 ∨ !s.rng.prWait.isEmpty
      ∨ (firstBelow 16 (fun k => s.bit (.rngDrbStat k) 4 && s.drbState k == 0)).isSome then none
  else (((s.setPool (s.rng.pool.drop 48)).reseed 0 (s.rng.pool.take 48)).bump .rngPrCount).scDraw n

/-- The SC's own demand for the 36 B of an epoch joins those that wait (R312, R343). -/
def State.demandEpoch (s : State) : State :=
  ({ s with rng := { s.rng with prWait := s.rng.prWait ++ [(0, none, 36)] } } : State).showPr 0

/-- A cell at the creation of an epoch: kept while a slot names it or a KEYGEN in flight has taken it, else free with generation 0. -/
def State.epochCells (s : State) : List (Nat × Cell) :=
  s.cells.filter (fun e : Nat × Cell => !(s.cellSlots e.1).isEmpty || s.jobs.any (fun j => decide (j.newCell = some e.1)))

/-- A new epoch: secret and identifier, cells reset, TAMPER_SUMMARY of the new epoch empty. -/
def State.newEpoch (s : State) (bs : Bytes) : State :=
  { s with bbram := { s.bbram with epoch := some (bs.take 32, leAt bs 32 4), summary := 0 }, cells := s.epochCells }

/-- VAULT_CLEAR's effect once presence is shown and its draw served. -/
def State.vaultCleared (s : State) (ch : Nat) (bs : Bytes) : State :=
  (({ s with bbram := { s.bbram with vault := [] } } : State).newEpoch bs).mbxDone ch 0 0 []

/-- VAULT_CLEAR with presence: at once, or when its demand is served. -/
def State.clearVault (s : State) (ch : Nat) : State :=
  match s.prDraw 36 with
  | some (bs, s) => s.vaultCleared ch bs
  | none => { s.demandEpoch with mbx := { s.mbx with pressed := true } }

/-! ### ZEROISE (R324) -/

/-- ZEROISE: the command ends ZEROISED, and the device takes the cold reset of cause ZEROISE (R433). -/
def State.zeroiseCommand (s : State) (_ : Nat) (_ : Bytes) : State := (s.zeroiseLine 1).systemReset true 6 0

/-- ZEROISE. -/
def execZeroise (s : State) : Answer := .next (s.mbxRun ⟨0x0330, [0, 1], [5] ++ anyState, (· == 0)⟩ State.zeroiseCommand)

end Sys2Proof.Machine
end

