-- ==== Sys2Proof/Machine/RigLoad.lean ====
section
/-! DEFINITION. Loading a rig: every "From rig" field, the tiles, shells, cores, banks, instances and tamper responses (R276 to
R284, R287, R443). -/

namespace Sys2Proof.Machine

/-- Registers whose reset value is the rig's for each slice (R283). -/
def Reg.sliceFromRig : Reg → Bool
  | .slmSliceDrbg _ | .slmSlicePools _ | .slmSliceWeight _ _ => true
  | _ => false

/-- The defaults of the slices that runs cover; the others keep DRB0, mask 0 and every weight 1. -/
def State.loadSlices (s : State) (r : Rig) : State :=
  let s := { s with regs := s.regs.filter (fun e => !e.1.sliceFromRig) }
  s.each r.slices (fun s x => s.each ((List.range x.count).map (x.first + ·)) (fun s n =>
    let s := (s.wr (.slmSliceDrbg n) (BitVec.ofNat 64 x.drb)).wr (.slmSlicePools n) (BitVec.ofNat 64 x.mask)
    s.each (List.range 4) (fun s m => s.wr (.slmSliceWeight n m) (BitVec.ofNat 64 (leNat ((x.weights.drop (8 * m)).take 8 |>.map (BitVec.ofNat 8)))))))

/-- Clock, gate and mask instance of an island. A ceiling in force stays (R410). -/
def State.loadIsland (s : State) (n : Nat) (x : Nat × Nat × Nat) : State :=
  let s := s.wr (.fabIslCtrl n) (BitVec.ofNat 64 (x.1 + x.2.1 * 16))
  let s := (s.wr (.fabIslMaskdrb n) (BitVec.ofNat 64 x.2.2)).setFld (.fabIslStat n) 6 4 (if x.2.1 = 1 then 3 else 0)
  (s.setFld (.fabIslStat n) 3 2 (if s.bit .tmpActive 12 then s.fld .tmpTempCtrl 1 0 else 0)).effFreq n

/-- A pool's configuration. -/
def State.loadPool (s : State) (r : Rig) (p : RigPool) : State :=
  let n := (r.shells.filter (fun x => !x.empty && x.pool == p.num)).length
  s.wr (.fabPoolCfg p.num) (BitVec.ofNat 64 (p.kind + p.size * 2 ^ 4 + p.mode * 2 ^ 6 + p.harden * 2 ^ 8 + p.auto * 2 ^ 10 + n * 2 ^ 16
    + p.alg * 2 ^ 32))

/-- The shell that a rig puts a tile in. -/
def Rig.tileShell (r : Rig) (t : Nat) : Option Nat := (r.shells.find? (fun x => decide (t ∈ x.tileList))).map (·.num)

/-- A tile's role: its shell or SPARE or UNUSED, GATED on a gated island; a tile retired since cold boot stays so (R443). -/
def State.loadTile (s : State) (r : Rig) (t : Nat) : State :=
  if s.tileState t = 4 then s
  else
    let role := (r.roles[t]?).getD 0
    let gated := s.fld (.fabIslStat (islandOf t)) 6 4 == 3
    let s := (s.setTileState t (if gated then 5 else role)).setTile t (fun _ => { Tile.idle with back := if gated then role else 0 })
    (s.setFld (.fabTileStat t) 14 8 ((r.tileShell t).getD 0x7F)).setBit (.fabTileStat t) 15 false

/-- A shell's entry: its tiles but those retired, its island, its pool (R175, R277). -/
def State.loadShellMap (s : State) (x : RigShell) : State :=
  if x.empty then s.wr (.fabShellMap x.num) 0
  else
    let live := maskOf 12 (fun i => x.tiles.testBit i && s.tileState (12 * x.isl + i) != 4)
    (s.wr (.fabShellMap x.num) (BitVec.ofNat 64 (live + x.isl * 2 ^ 12 + x.pool * 2 ^ 16))).restroke x.num

/-- A shell's state once every tile has its role: GATED with its island, IN_SERVICE, or short of a retired tile (R443). -/
def State.loadShellState (s : State) (x : RigShell) : State :=
  if x.empty then s
  else if s.fld (.fabIslStat x.isl) 6 4 = 3 then s.setShellState x.num 5
  else s.repairShell x.num false

/-- The partitions' registers, and the cores they hold. -/
def State.loadParts (s : State) (r : Rig) : State :=
  let s := s.each (List.range 8) (fun s k => ((s.wr (.hsfPartCfg k) 0).wr (.hsfPartKc k) 0).wr (.hsfPartShc k) 0)
  let s := s.each r.parts (fun s x =>
    ((s.wr (.hsfPartCfg x.num) (BitVec.ofNat 64 (x.pool + 2 ^ 7 + x.groups * 2 ^ 8))).wr (.hsfPartKc x.num) (BitVec.ofNat 64 x.kc)).wr
      (.hsfPartShc x.num) (BitVec.ofNat 64 x.shc))
  s

/-- A hash core's role: IN_SERVICE in a partition, else UNUSED; a retired one stays so. -/
def State.loadHash (s : State) (k : Nat) : State :=
  if (s.hcore k).state = .retired then s
  else s.setHcore k (fun h => { h with state := if (s.corePart k).isSome then .inService else .unused, cmd := false, leaving := false })

/-- The groups' registers. -/
def State.loadGroups (s : State) (r : Rig) : State :=
  let s := s.each (List.range 8) (fun s g => s.wr (.bneGrpCfg g) 0)
  s.each r.groups (fun s x => s.wr (.bneGrpCfg x.num) (BitVec.ofNat 64 (x.pool + 2 ^ 7 + x.cores * 2 ^ 8 + x.alg * 2 ^ 16)))

/-- A BNE core's role and group. -/
def State.loadBneCore (s : State) (r : Rig) (c : Nat) : State :=
  match r.groups.find? (fun x => x.cores.testBit c) with
  | some x =>
    let s := s.setFld (.bneCoreState c) 10 8 x.num
    if s.bneState c = 3 then s else s.setBneState c 1
  | none =>
    let s := s.setFld (.bneCoreState c) 10 8 0
    if s.bneState c = 3 then s else s.setBneState c 0

/-- The start of the slice-usable region: after the fixed reserved region and the memo region (R376). -/
def State.loadDdrBase (s : State) : State :=
  let memo := s.fld .hsfMemoBase 35 12 * 4096 + s.fld .hsfMemoSize 36 12 * 4096
  s.wr .ddrSliceBase (BitVec.ofNat 64 (max 0xC0000000 memo))

/-- Domains leave reset one by one, and are not quiet any more (R24, R434). -/
def State.bringUp (s : State) (ds : List Nat) : State := s.each ds (fun s d => s.setBit .genXingQuiet d false)

/-- The domains that the load of a rig brings up (R24): the queue manager, the islands, the hash field and the BNE. -/
def State.wakeDomains (s : State) : State := s.bringUp (3 :: (List.range 10).map (4 + ·))

/-- Load a rig from copy `copy` (R287). -/
def State.loadRig (s : State) (r : Rig) (copy : Nat) : State :=
  let s := ({ s with rig := some r }).setFld .genState 6 6 copy
  let s := s.wr .fabMcLimit (BitVec.ofNat 64 r.mcLimit)
  let s := ((s.wr .hsfMemoBase (BitVec.ofNat 64 r.memoBase)).wr .hsfMemoSize (BitVec.ofNat 64 r.memoSize)).loadDdrBase
  let s := s.each (List.range 8) (fun s n => s.loadIsland n ((r.islands[n]?).getD (0, 0, 0)))
  let s := s.each r.pools (fun s p => s.loadPool r p)
  let s := s.each (List.range 96) (fun s t => s.loadTile r t)
  let s := s.each r.shells State.loadShellMap
  let s := s.each r.shells State.loadShellState
  let s := s.each (below 96 (fun t => s.tileState t == 1)) State.loadShellKernels
  let s := s.loadParts r
  let s := s.each (List.range 128) State.loadHash
  let s := s.loadGroups r
  let s := s.each (List.range 8) (fun s c => s.loadBneCore r c)
  let s := s.loadSlices r
  let s := s.each (List.range 16) (fun s b => s.wr (.memBankOwner b) (BitVec.ofNat 64 ((r.banks[b]?).getD 0)))
  let s := s.each (List.range 16) (fun s k =>
    (s.setBit (.rngDrbStat k) 4 (r.drbEnable.testBit k)).setBit (.rngDrbStat k) 3 (r.drbScOnly.testBit k))
  s.loadClasses.wakeDomains

end Sys2Proof.Machine
end

