-- ==== Sys2Proof/Machine/MbxRig.lean ====
section
/-! DEFINITION. The rig commands: staging, checking, writing, the live re-rig of one pool, the rotation of the authority
(R286 to R296). -/

namespace Sys2Proof.Machine

/-! ### Images in flash and in staging -/

/-- The image in a flash copy: firmware 0, 1; patch 2, 3; rig 4, 5; nothing where none has been written. -/
def State.copyAt (s : State) (k : Nat) : Bytes := tget [] k s.flash

/-- A flash copy replaced. -/
def State.setCopy (s : State) (k : Nat) (bs : Bytes) : State := { s with flash := tset k bs s.flash }

/-- The staged image. -/
def State.stagedImage (s : State) : Bytes := Memory.read 0 s.mbx.staged s.sram

/-- A rig copy passes every check now. -/
def State.rigCopyOk (s : State) (k : Nat) : Bool := match s.rigCheck (s.copyAt (4 + k)) with
  | .inr _ => true
  | .inl _ => false

/-- The order in which a start tries two copies: the higher VERSION among those whose check 1 passes, A when equal (R286, R445). -/
def copyOrder (okA okB : Bool) (vA vB : Nat) : List Nat := if okB && (!okA || decide (vA < vB)) then [1, 0] else [0, 1]

/-- The order of the rig copies. -/
def State.rigOrder (s : State) : List Nat :=
  copyOrder (rigHeader (s.copyAt 4)).isNone (rigHeader (s.copyAt 5)).isNone (leAt (s.copyAt 4) 8 4) (leAt (s.copyAt 5) 8 4)

/-- The copy that a write goes to when none is in force: the one that failed, A if both did, else the one a start tries last. -/
def spareCopy (okA okB : Bool) (order : List Nat) : Nat := if !okA then 0 else if !okB then 1 else (order.getLast?).getD 1

/-- The rig copy that a write goes to (R289, R290). -/
def State.rigTarget (s : State) : Nat :=
  if s.rig.isSome then 4 + (1 - s.fld .genState 6 6)
  else 4 + spareCopy (s.rigCopyOk 0) (s.rigCopyOk 1) s.rigOrder

/-- VERSION is above that of the rig in force; none is in force in RECOVERY (R290). -/
def State.versionOk (s : State) (v : Nat) : Bool := (s.rig.map (fun r => decide (r.version < v))).getD true

/-! ### Results (R289) -/

/-- Another rig command is in progress: a re-rig, or a write session, or one that this command is answered beside (R294, R458). -/
def State.rigBusy (s : State) (ch : Nat) : Bool :=
  s.reRig.isSome || s.mbx.session.isSome || s.mbx.flash.isSome || s.mbx.busy != some ch

/-! ### RIG_STAGE, RIG_CHECK, RIG_WRITE -/

/-- RIG_STAGE: bytes 0 to 7 the address, 8 to 11 the length. -/
def State.rigStage (d : DmaResult) (s : State) (ch : Nat) (r : Bytes) : State :=
  let addr := leAt r 0 8
  let n := leAt r 8 4
  if s.reRig.isSome ∨ s.mbx.busy ≠ some ch then s.mbxDone ch 0x23 0 []
  else if n = 0 ∨ stagingSize < n ∨ (ch = 1 ∧ addr ≠ stagingAddr) then s.mbxDone ch 0x31 0 []
  else match s.requestData addr n d with
    | none => s.mbxDone ch 0x3B 0 []
    | some bs =>
      let s := if addr = stagingAddr then s else s.stage 0 bs
      ({ s with mbx := { s.mbx with staged := n } } : State).mbxDone ch 0 0 []

/-- RIG_STAGE. -/
def execRigStage (d : DmaResult) (s : State) : Answer := .next (s.mbxRun ⟨0x0201, [0, 1], [1, 3], (· == 12)⟩ (State.rigStage d))

/-- RIG_CHECK: Table 08-6 on the staged image. -/
def State.rigCheckCmd (s : State) (ch : Nat) (_ : Bytes) : State :=
  if s.reRig.isSome ∨ s.mbx.busy ≠ some ch then s.mbxDone ch 0x23 0 []
  else match s.rigCheck s.stagedImage with
    | .inl e => s.mbxDone ch e.1 e.2 []
    | .inr _ => s.mbxDone ch 0 0 []

/-- RIG_CHECK. -/
def execRigCheck (s : State) : Answer := .next (s.mbxRun ⟨0x0202, [0, 1], [1, 3], (· == 0)⟩ State.rigCheckCmd)

/-- A flash write begins: the target copy is erased (R290 step 1). -/
def State.startFlash (s : State) (ch copy : Nat) (image : Bytes) (why : FlashFor) : State :=
  { s.setCopy copy [] with mbx := { s.mbx with flash := some ⟨ch, copy, image, why⟩ } }

/-- RIG_WRITE: the staged full image is checked and its write begins. -/
def State.rigWrite (s : State) (ch : Nat) (_ : Bytes) : State :=
  let i := s.stagedImage
  if s.rigBusy ch then s.mbxDone ch 0x23 0 []
  else match s.rigCheck i with
    | .inl e => s.mbxDone ch e.1 e.2 []
    | .inr r =>
      if r.flags.testBit 0 then s.mbxDone ch 0x20 0 []
      else if !s.versionOk r.version then s.mbxDone ch 0x22 0 []
      else s.startFlash ch s.rigTarget i .rigWrite

/-- RIG_WRITE. -/
def execRigWrite (s : State) : Answer := .next (s.mbxRun ⟨0x0203, [0, 1], [1, 3], (· == 0)⟩ State.rigWrite)

/-- A flash write ends: MAGIC commits the copy, or the copy is left without it; a rotation then programs its position (R296). -/
def State.flashCommit (s : State) (j : FlashJob) (ok : Bool) : State :=
  let s : State := { s with mbx := { s.mbx with flash := none } }
  if !ok then s.mbxDone j.ch 0x24 0 []
  else
    let s := s.setCopy j.copy j.image
    match j.why with
    | .rotate pos =>
      let b := 80 + rigBody j.image
      let dig := authDigest (slice j.image b 1952) (slice j.image (b + 1952) 97)
      let o := { s.otp with rigPos := s.otp.rigPos.mapIdx (fun i x => if i = pos then (dig, checkWord dig) else x) }
      ({ s with otp := o } : State).mbxDone j.ch 0 0 []
    | _ => s.mbxDone j.ch 0 0 []

/-- FLASH_WRITE_COMMIT: of RIG_WRITE or of a rotation; programming is held during a dip (R294). -/
def execFlashWriteCommit (ok : Bool) (s : State) : Answer :=
  match s.mbx.flash with
  | none => .next s
  | some j =>
    if s.tamper.dip.isSome then .next s
    else match j.why with
      | .rigPartial _ => .next s
      | _ => .next (s.flashCommit j ok)

/-! ### RIG_INFO -/

/-- The re-rig phase: 0 IDLE, 1 CHECKING (a rig command that checks its image has the SC's next turn), 2 WRITING, 3 SWITCHING. -/
def State.rigPhase (s : State) : Nat :=
  if s.reRig.any (·.committed) then 3 else if s.mbx.flash.isSome then 2 else if s.mbx.busy = none then 1 else 0

/-- RIG_DIGEST as RIG_INFO reports it: the old one until step 7 of a live re-rig (R292). -/
def State.rigDigest (s : State) : Bytes :=
  match s.reRig with
  | some r => r.old.digest
  | none => (s.rig.map Rig.digest).getD (zeros 48)

/-- RIG_INFO's response. -/
def State.rigInfoRsp (s : State) : Bytes :=
  let a := s.copyAt 4
  let b := s.copyAt 5
  [BitVec.ofNat 8 (if s.rig.isSome then s.fld .genState 6 6 else 0xFF),
    BitVec.ofNat 8 ((if s.rigCopyOk 0 then 1 else 0) + (if s.rigCopyOk 1 then 2 else 0)), BitVec.ofNat 8 s.rigPosition,
    BitVec.ofNat 8 s.otp.rigSvn] ++ slice a 8 4 ++ slice b 8 4 ++ slice a 12 1 ++ slice b 12 1
    ++ [BitVec.ofNat 8 s.rigPhase, BitVec.ofNat 8 s.mbx.lastRig] ++ leBytes 4 s.mbx.lastDetail ++ s.rigDigest

/-- RIG_INFO. -/
def execRigInfo (s : State) : Answer := .next (s.mbxRun ⟨0x0206, [0, 1], anyState, (· == 0)⟩ (fun s ch _ => s.mbxDone ch 0 0 s.rigInfoRsp))

/-! ### What a partial image may change (R291) -/

/-- The shell belongs to pool `p`. -/
def RigShell.ofPool (x : RigShell) (p : Nat) : Bool := !x.empty && x.pool == p

/-- Shell record `k` of both images: identical, or one of `p`'s on both sides that are not empty, on the same island. -/
def shellScope (p : Nat) (old new : Option RigShell) : Bool :=
  match old, new with
  | some a, some b => decide (a = b) || (a.ofPool p && b.ofPool p && a.isl == b.isl) || (a.ofPool p && b.empty) || (a.empty && b.ofPool p)
  | none, some b => b.ofPool p
  | some _, none => false
  | none, none => true

/-- The tile is in a shell of pool `p`. -/
def Rig.inPool (r : Rig) (p t : Nat) : Bool := r.shells.any (fun x => x.ofPool p && decide (t ∈ x.tileList))

/-- ROLE bytes move only among `p`'s shells, UNUSED and SPARE. -/
def roleScope (old new : Rig) (p t : Nat) : Bool :=
  let a := (old.roles[t]?).getD 0
  let b := (new.roles[t]?).getD 0
  a == b || ((a != 1 || old.inPool p t) && (b != 1 || new.inPool p t))

/-- The kernel set that pool `p` names. -/
def Rig.ksetId (r : Rig) (p : Nat) : Option Nat := (r.pools.find? (fun x => x.num == p)).map (·.kset)

/-- A kernel set is the same in both, or only `p` names it. -/
def ksetScope (old new : Rig) (p k : Nat) : Bool :=
  decide (old.ksets.find? (fun x => x.id == k) = new.ksets.find? (fun x => x.id == k))
    || ((old.ksetId p == some k || new.ksetId p == some k) && (old.pools ++ new.pools).all (fun x => x.num == p || x.kset != k))

/-- The image differs from the rig in force only as R291 permits for pool `p`. -/
def partialScope (old new : Rig) (p : Nat) : Bool :=
  let kind (r : Rig) : Option Nat := (r.pools.find? (fun x => x.num == p)).map (·.kind)
  decide (old.flags / 4 = new.flags / 4 ∧ old.stepping = new.stepping ∧ old.pos = new.pos ∧ old.minDdr = new.minDdr
    ∧ old.mcLimit = new.mcLimit ∧ old.memoBase = new.memoBase ∧ old.memoSize = new.memoSize ∧ old.islands = new.islands
    ∧ old.slices = new.slices ∧ old.banks = new.banks ∧ old.drbEnable = new.drbEnable ∧ old.drbScOnly = new.drbScOnly
    ∧ old.raise = new.raise)
  && (kind old).isSome && kind old == kind new
  && decide (old.pools.map (·.num) = new.pools.map (·.num))
  && decide (old.pools.filter (fun x => x.num != p) = new.pools.filter (fun x => x.num != p))
  && decide (old.shells.length ≤ new.shells.length)
  && (List.range new.shells.length).all (fun k => shellScope p old.shells[k]? new.shells[k]?)
  && (List.range 96).all (roleScope old new p)
  && ((old.ksets ++ new.ksets).map (·.id)).all (ksetScope old new p)
  && decide (old.parts.filter (fun x => x.pool != p) = new.parts.filter (fun x => x.pool != p))
  && decide ((old.parts.filter (fun x => x.pool == p)).map (·.num) = (new.parts.filter (fun x => x.pool == p)).map (·.num))
  && decide (old.groups.filter (fun x => x.pool != p) = new.groups.filter (fun x => x.pool != p))
  && decide ((old.groups.filter (fun x => x.pool == p)).map (·.num) = (new.groups.filter (fun x => x.pool == p)).map (·.num))

/-! ### RIG_PARTIAL (R292, R293) -/

/-- Step 2: cores that join the pool from UNUSED run BIST. -/
def State.testCores (s : State) (r : ReRig) : State :=
  let hs := below 128 (fun k => decide ((s.hcore k).state = .unused) && r.image.parts.any (fun x => x.pool == r.pool && x.holds k))
  let cs := below 8 (fun c => s.bneState c == 0 && r.image.groups.any (fun x => x.pool == r.pool && x.cores.testBit c))
  let s := (s.each hs (fun s k => s.setHcore k (fun h => { h with state := .offline }))).each cs (fun s c => s.setBneState c 2)
  { s with reRig := some { r with testing := hs ++ cs } }

/-- Step 2: tiles that join from UNUSED run BIST. A tile on a gated island is tested when its island wakes. -/
def State.testJoiners (s : State) : State :=
  s.each (below 96 (fun t => s.claimed t && s.tileState t == 0)) (fun s t =>
    (s.setTileState t 3).setTile t (fun x => { x.wipe with bist := some .join }))

/-- RIG_PARTIAL: step 1, then step 2 and the write of step 3 begin. -/
def State.rigPartialCmd (s : State) (ch : Nat) (_ : Bytes) : State :=
  let i := s.stagedImage
  if s.rigBusy ch then s.mbxDone ch 0x23 0 []
  else match s.rigCheck i, s.rig with
    | .inl e, _ => s.mbxDone ch e.1 e.2 []
    | .inr _, none => s.mbxDone ch 0x25 0 []
    | .inr new, some old =>
      if new.version ≤ old.version then s.mbxDone ch 0x22 0 []
      else if !new.flags.testBit 0 ∨ new.base ≠ old.digest then s.mbxDone ch 0x20 0 []
      else match firstBelow 32 (partialScope old new) with
        | none => s.mbxDone ch 0x21 0 []
        | some p =>
          (s.testCores ⟨p, new, old, i, s.rigTarget, false, false, []⟩).testJoiners.startFlash ch s.rigTarget i (.rigPartial p)

/-- RIG_PARTIAL. -/
def execRigPartial (s : State) : Answer := .next (s.mbxRun ⟨0x0204, [0, 1], [1], (· == 0)⟩ State.rigPartialCmd)

/-- RIG_PARTIAL_COMMIT: MAGIC is written, the new rig is in force and the pool reads RE_RIGGING (steps 3 and 4); or the write fails and nothing else has changed. -/
def execRigPartialCommit (ok : Bool) (s : State) : Answer :=
  match s.mbx.flash, s.reRig with
  | some j, some r =>
    if s.tamper.dip.isSome || r.committed then .next s
    else match j.why with
      | .rigPartial _ =>
        let s : State := { s with mbx := { s.mbx with flash := none } }
        if ok then
          let s := (s.setCopy j.copy j.image).setFld .genState 6 6 (j.copy - 4)
          .next { s with rig := some r.image, reRig := some { r with committed := true } }
        else .next (s.dropReRig.mbxDone j.ch 0x24 0 [])
      | _ => .next s
  | _, _ => .next s

/-- Jobs that run on units of pool `p`. -/
def State.poolRuns (s : State) (p : RigPool) : Bool :=
  match p.kind with
  | 1 => (below 96 (s.shellIn p.num)).any (fun sh => !(s.onUnit (.shell sh)).isEmpty)
  | 2 => match s.groupOf p.num with
    | some g => (List.range 8).any (fun c => s.bit (.bneGrpCfg g) (8 + c) && !(s.onCore c).isEmpty)
    | none => false
  | _ => match s.partOf p.num with
    | some k => (List.range 128).any (fun c => s.inPart k c && !(s.onHash c).isEmpty)
    | none => false

/-- A tile leaves pool `p` for its role in the image: UNUSED, or SPARE once it has passed BIST (step 7). -/
def State.leaveForRole (s : State) (new : Rig) (t : Nat) : State :=
  let role := (new.roles[t]?).getD 0
  let gated := s.tileState t == 5
  let s := s.leaveShell t (if gated then 5 else if role = 2 then 3 else 0)
  s.setTile t (fun x => { x.wipe with imem := [], back := if role = 2 then 2 else 0 })

/-- A tile that a shell of the image can take now: one of the pool that stays, a SPARE, or one whose BIST has passed. -/
def State.joinReady (s : State) (p t : Nat) : Bool :=
  let st := s.tileState t
  (st == 5 && (s.tile t).back != 4) || (st == 2 && (s.tile t).joining.isNone) || (st == 3 && (s.tile t).bist.isNone && s.fld (.fabTileStat t) 25 24 == 1)
    || (st == 1 && (match s.shellOf t with
      | some sh => s.shellPool sh == p
      | none => false))

/-- A shell's entry as the image gives it, with the tiles that are ready and their kernels (step 6). -/
def State.buildShell (s : State) (p : Nat) (x : RigShell) : State :=
  if x.empty then s.wr (.fabShellMap x.num) 0
  else
    let ts := x.tileList.filter (s.joinReady p)
    let s := s.wr (.fabShellMap x.num) (BitVec.ofNat 64 (maskOf 12 (fun i => decide (12 * x.isl + i ∈ ts)) + x.isl * 2 ^ 12 + x.pool * 2 ^ 16
      + s.fld (.fabShellMap x.num) 26 24 * 2 ^ 24))
    let s := s.each ts (fun s t =>
      let gated := s.tileState t == 5
      let s := (s.setFld (.fabTileStat t) 14 8 x.num).setTileState t (if gated then 5 else 1)
      (s.setTile t (fun y => { y with back := if gated then 1 else 0 })).loadKernels t p)
    s.restroke x.num

/-- The shells that the re-rig rewrites: those of `p` in either image. -/
def Rig.reShells (new : Rig) (p : Nat) (old : Nat → Bool) : List RigShell := new.shells.filter (fun x => x.ofPool p || old x.num)

/-- Steps 5 and 6 for a pool of shells. -/
def State.switchShells (s : State) (new : Rig) (p : Nat) : State :=
  let old := below 96 (s.shellIn p)
  let leave := (old.flatMap s.shellTiles).filter (fun t => !new.inPool p t)
  let spare := below 96 (fun t => s.tileState t == 2 && (new.roles[t]?).getD 0 == 0)
  let s := (s.each leave (fun s t => s.leaveForRole new t)).each spare (fun s t => s.leaveForRole new t)
  let s := s.each (new.pools.filter (fun x => x.num == p)) (fun s x => s.loadPool new x)
  s.each (new.reShells p (fun n => decide (n ∈ old))) (fun s x => s.buildShell p x)

/-- Steps 5 and 6 for a partition: its registers, and the cores that leave it. -/
def State.switchPart (s : State) (new : Rig) (p : Nat) : State :=
  s.each (new.parts.filter (fun x => x.pool == p)) (fun s x =>
    let s := s.each (below 128 (fun k => s.inPart x.num k && !x.holds k && decide ((s.hcore k).state = .inService)))
      (fun s k => s.setHcore k (fun h => { h with state := .unused }))
    ((s.wr (.hsfPartCfg x.num) (BitVec.ofNat 64 (x.pool + 2 ^ 7 + x.groups * 2 ^ 8))).wr (.hsfPartKc x.num) (BitVec.ofNat 64 x.kc)).wr
      (.hsfPartShc x.num) (BitVec.ofNat 64 x.shc))

/-- Steps 5 and 6 for a group: its register, and the cores that leave it, wiped. -/
def State.switchGroup (s : State) (new : Rig) (p : Nat) : State :=
  s.each (new.groups.filter (fun x => x.pool == p)) (fun s x =>
    let s := s.each (below 8 (fun c => s.bit (.bneGrpCfg x.num) (8 + c) && !x.cores.testBit c)) (fun s c =>
      let s := (s.wipeCore c).setFld (.bneCoreState c) 10 8 0
      if s.bneState c = 1 then s.setBneState c 0 else s)
    s.wr (.bneGrpCfg x.num) (BitVec.ofNat 64 (x.pool + 2 ^ 7 + x.cores * 2 ^ 8 + x.alg * 2 ^ 16)))

/-- RIG_PARTIAL_DRAINED: the pool's running jobs are sealed; units leave, and the maps and kernels are the image's (steps 5, 6). -/
def execRigPartialDrained (s : State) : Answer :=
  match s.reRig with
  | none => .next s
  | some r =>
    if !r.committed || r.drained || s.tamper.dip.isSome || (s.poolRec r.pool).any s.poolRuns then .next s
    else
      let kind := ((s.poolRec r.pool).map (·.kind)).getD 1
      let s : State := { s with reRig := some { r with drained := true } }
      .next (match kind with
        | 1 => s.switchShells r.image r.pool
        | 2 => s.switchGroup r.image r.pool
        | _ => s.switchPart r.image r.pool)

/-- The joining cores' BIST has ended: those named have failed it. -/
def State.endCores (s : State) (failed : List Nat) : State :=
  let s := s.each (below 128 s.joiningHash) (fun s k => s.hashJoined k (decide (k ∉ failed)))
  s.each (below 8 s.joiningBne) (fun s c => s.bneJoined c (decide (c ∉ failed)))

/-- Cores of the pool that are proven come into service. -/
def State.joinCores (s : State) (r : ReRig) : State :=
  let s := s.each (r.image.parts.filter (fun x => x.pool == r.pool)) (fun s x =>
    s.each (below 128 (fun k => x.holds k && decide ((s.hcore k).state = .unused))) (fun s k => s.setHcore k (fun h => { h with state := .inService })))
  s.each (r.image.groups.filter (fun x => x.pool == r.pool)) (fun s x =>
    s.each (below 8 (fun c => x.cores.testBit c)) (fun s c =>
      let s := s.setFld (.bneCoreState c) 10 8 x.num
      if s.bneState c = 0 then s.setBneState c 1 else s))

/-- Tiles that go to SPARE begin the BIST that precedes it (step 7). -/
def State.testLeavers (s : State) (new : Rig) : State :=
  s.each (below 96 (fun t => (new.roles[t]?).getD 0 == 2 && (s.tile t).bist.isNone && (s.tileState t == 0 || (s.tileState t == 3 && (s.tile t).back == 2))))
    (fun s t => (s.setTileState t 3).setTile t (fun x => { x with bist := some .block, back := 2 }))

/-- R288: the OTP minimum rig SVN rises to that of an image with RAISE_SVN in force. -/
def State.raiseRigSvn (s : State) : State :=
  match s.rig with
  | some r => if r.flags.testBit 1 then { s with otp := { s.otp with rigSvn := max s.otp.rigSvn r.svn } } else s
  | none => s

/-- The joining tiles' BIST has ended: those named have failed it. -/
def State.endJoiners (s : State) (failed : List Nat) : State :=
  s.each (below 96 (fun t => decide ((s.tile t).bist = some .join))) (fun s t => s.tileBistDone t (decide (t ∉ failed)))

/-- Step 7: joining units come in, shells take jobs, waiting jobs are resolved, waiting gates take effect, the command ends. -/
def State.finishReRig (s : State) (r : ReRig) (failed : List Nat) : State :=
  let old := below 96 (s.shellIn r.pool)
  let s := (s.endJoiners failed).each (r.image.reShells r.pool (fun n => decide (n ∈ old))) (fun s x => s.buildShell r.pool x)
  let s := (s.endCores failed).joinCores r
  let s : State := { s with reRig := none }
  let s := (s.each (r.image.shells.filter (fun x => x.ofPool r.pool)) State.loadShellState).testLeavers r.image
  let s := s.raiseRigSvn.applyGates.dropUncarried
  match s.mbx.busy with
  | some ch => if s.mbxCode ch = 0x0204 then s.mbxDone ch 0 0 [] else s
  | none => s

/-- RIG_PARTIAL_COMPLETE; `failed` are the joining units whose BIST failed. -/
def execRigPartialComplete (failed : List Nat) (s : State) : Answer :=
  match s.reRig with
  | some r => if !r.committed || !r.drained || s.tamper.dip.isSome then .next s else .next (s.finishReRig r failed)
  | none => .next s

/-! ### RIG_AUTH_ROTATE (R295, R296) -/

/-- The staged image that a rotation requires. -/
def State.rotatable (s : State) : Bool :=
  let i := s.stagedImage
  decide (s.rigPosition < 7) && !rigPartialFlag i && rigEndorsed i && leAt i 13 1 == s.rigPosition + 1

/-- RIG_AUTH_ROTATE: its requirements, then presence. -/
def State.rigRotate (s : State) (ch : Nat) (_ : Bytes) : State :=
  if s.rigBusy ch then s.mbxDone ch 0x23 0 [] else if !s.rotatable then s.mbxDone ch 0x26 0 [] else s.waitPresence ch

/-- RIG_AUTH_ROTATE. -/
def execRigAuthRotate (s : State) : Answer := .next (s.mbxRun ⟨0x0205, [0, 1], [1, 3], (· == 0)⟩ State.rigRotate)

/-- The rotation once presence is shown: the endorsement, Table 08-6 against the image's own keys, then the write. -/
def State.rotate (s : State) (ch : Nat) : State :=
  let i := s.stagedImage
  let b := 80 + rigBody i
  if !s.rotatable || !s.endorsementOk i then s.mbxDone ch 0x26 0 []
  else match s.checkRig i (s.rigPosition + 1) (authDigest (slice i b 1952) (slice i (b + 1952) 97)) with
    | .inl e => s.mbxDone ch e.1 e.2 []
    | .inr _ => s.startFlash ch s.rigTarget i (.rotate (s.rigPosition + 1))

end Sys2Proof.Machine
end

