-- ==== Sys2Proof/Machine/Presence.lean ====
section
/-! DEFINITION. Physical presence: the press that serves a waiting command, its timeout, and commands whose writes a supply dip or
a draw delays (R401, R402, R405, R420). -/

namespace Sys2Proof.Machine

/-- The presence that the waiting command of a channel needs beside the button (Table 12-8). -/
def State.presenceOk (s : State) (ch : Nat) (jmp sealOpen : Bool) : Bool :=
  let r := s.mbxRequest ch
  match s.mbxCode ch with
  | 0x0402 => match leAt r 0 1 with
    | 3 => jmp
    | 4 => sealOpen
    | _ => true
  | 0x0411 => decide (certRights r / 4 = 0) || jmp
  | 0x0413 => jmp
  | _ => true

/-- The command waits to write OTP, which a dip defers (R395, R420). -/
def writesLate (code : Nat) : Bool := decide (code ∈ [0x0413, 0x0414])

/-- Presence is missing: the command ends, and a transition that waited for it is not under way. -/
def State.noPresence (s : State) (ch : Nat) : State :=
  let s := if s.mbxCode ch = 0x0402 then (s.setFld .lcsState 6 4 0).setFld .lcsState 10 8 0 else s
  s.mbxDone ch 0x27 0 []

/-- Presence is shown: what the command does then. -/
def State.served (s : State) (ch : Nat) : State :=
  let r := s.mbxRequest ch
  match s.mbxCode ch with
  | 0x0402 => s.beginTransition (leAt r 0 1)
  | 0x0411 => (s.openRights r).mbxDone ch 0 0 []
  | 0x0413 => s.programAuth ch r
  | 0x0414 => s.raiseMin ch r
  | 0x0205 => s.rotate ch
  | _ => s.clearVault ch

/-- A command that presence has served, whose write a dip has deferred, goes on once no dip defers it. -/
def State.finishPressed (s : State) : State :=
  match s.mbx.busy with
  | some ch => if s.mbx.pressed && s.tamper.dip.isNone && writesLate (s.mbxCode ch) then s.served ch else s
  | none => s

/-- A counter write or the freeing of a cell is under way. -/
def State.counterBusy (s : State) : Bool := s.cells.any (fun e => e.2.writing.isSome || e.2.freeing)

/-- What a dip has deferred proceeds, counter writes first (R420). -/
def State.lateWrites (s : State) : State := if s.counterBusy then s else s.finishPressed.resumeMove

/-- COUNTER_WRITE_ACK. -/
def execCounterWriteAck (c : Nat) (s : State) : Answer := .next (s.counterWritten c).sweepDue.lateWrites

/-- CELL_FREE_ACK. -/
def execCellFreeAck (c : Nat) (s : State) : Answer := .next (s.cellFreed c).lateWrites

/-- The press serves the command: at once, or once its write is possible. -/
def State.serve (s : State) (ch : Nat) : State :=
  let s := s.setBit (.mbxStatus ch) 2 false
  if writesLate (s.mbxCode ch) && s.tamper.dip.isSome then { s with mbx := { s.mbx with pressed := true } } else s.served ch

/-- PRESENCE_PRESS: a debounced press, with the jumper and the seal loop as they are at that moment. -/
def execPresencePress (jmp sealOpen : Bool) (s : State) : Answer :=
  if !s.power.io || s.power.backup || s.boot.held then .next s
  else
    let s := (((s.setBit .lcsPp 0 true).setBit .lcsPp 1 jmp).setBit .lcsPp 2 sealOpen).setBit .lcsPp 4 true
    match s.mbx.busy with
    | none => .next s
    | some ch =>
      if !s.bit (.mbxStatus ch) 2 then .next s
      else if s.presenceOk ch jmp sealOpen then .next (s.serve ch)
      else .next (s.noPresence ch)

/-- PRESENCE_TIMEOUT: 60 s without a press. -/
def execPresenceTimeout (s : State) : Answer :=
  match s.mbx.busy with
  | some ch => if s.bit (.mbxStatus ch) 2 then .next (s.noPresence ch) else .next s
  | none => .next s

end Sys2Proof.Machine
end

