-- ==== Sys2Proof/Machine/Firmware.lean ====
section
/-! DEFINITION. Boot-flash images of SC firmware and microcode patches: their checks and the commands that write them
(R206 to R208, R445, R446, R457, R458). -/

namespace Sys2Proof.Machine

/-! ### Firmware images (R446) -/

/-- CODE_LEN of a firmware image. -/
def fwCode (i : Bytes) : Nat := leAt i 16 4

/-- The bytes that a firmware image's signatures cover. -/
def fwSigned (i : Bytes) : Bytes := i.take (64 + 2052 + fwCode i + 2052)

/-- Check 1 of R446. -/
def fwHeaderOk (i : Bytes) : Bool :=
  let n := fwCode i
  i.take 4 == [0x46, 0x4A, 0x46, 0x57] && leAt i 4 2 == 1 && decide (leAt i 7 1 < 2) && leAt i 8 4 != 0 && decide (leAt i 12 1 < 64)
    && allZero (slice i 13 3) && n % 16 == 0 && decide (16 ≤ n) && decide (n ≤ 4186720) && leAt i 20 4 % 4 == 0 && decide (leAt i 20 4 < n)
    && allZero (slice i 24 40) && allZero (slice i (64 + 2049) 3) && allZero (slice i (64 + 2052 + n + 2049) 3)
    && i.length == 64 + 2052 + n + sigBlock && decide (i.length ≤ 0x400000)

/-- The number of the first check of R446 that a firmware image fails. -/
def State.fwFail (s : State) (i : Bytes) : Option Nat :=
  let b := 64 + 2052 + fwCode i
  let pkM := slice i b 1952
  let pkE := slice i (b + 1952) 97
  if !fwHeaderOk i then some 1
  else if !(leAt i 6 1 == 0 || leAt i 6 1 == s.fld .genId 11 8) then some 2
  else if leAt i 12 1 < s.otp.fwSvn then some 3
  else if authDigest pkM pkE ≠ s.otp.fwKeys then some 4
  else if !dsaVerifies pkM (fwSigned i) (slice i (b + 2052) 3309) "FJ9640-FW" || !p384Verifies pkE (fwSigned i) (slice i (b + 5361) 96) then
    some 5
  else if authDigest (slice i 64 1952) (slice i (64 + 1952) 97) ≠ s.otp.patchKeys then some 6
  else none

/-- The firmware that an image holds. -/
def firmwareOf (copy : Nat) (i : Bytes) : Firmware :=
  ⟨copy, leAt i 8 4, leAt i 12 1, (leAt i 7 1).testBit 0, hashOf 3 (fwSigned i), slice i 64 2049⟩

/-! ### Microcode patches (R206, R207) -/

/-- PAYLOAD_LEN of a patch image. -/
def patchLen (i : Bytes) : Nat := leAt i 76 4

/-- The bytes of a patch image from byte 0 to the end of TAG. -/
def patchSigned (i : Bytes) : Bytes := i.take (80 + patchLen i + 16)

/-- Check 1 of R207, with the fields that Table 05-9 fixes and the lengths. -/
def State.patchHeaderOk (s : State) (i : Bytes) : Bool :=
  let w := leAt i 14 2
  i.take 4 == [0x46, 0x4A, 0x4D, 0x43] && leAt i 4 2 == 1 && leAt i 6 1 == s.fld .genId 11 8 && decide (leAt i 7 1 < 2) && leAt i 11 1 == 0
    && decide (leAt i 10 1 < 64) && decide (leAt i 12 2 ≤ 64) && decide (w ≤ 1024) && patchLen i == 256 + 20 * w
    && i.length == 80 + patchLen i + 16 + 3309 + 96

/-- The decrypted payload, if it authenticates under the OTP patch key. -/
def State.patchPayload (s : State) (i : Bytes) : Option Bytes :=
  gcmOpen s.otp.patchKey (slice i 64 12) (i.take 80) (slice i 80 (patchLen i)) (slice i (80 + patchLen i) 16)

/-- Check 6 of R207: the match table. -/
def matchTableOk (i p : Bytes) : Bool :=
  let es := (List.range 64).map (fun k => leAt p (4 * k) 4)
  let on := es.filter (fun e => e.testBit 31)
  on.length == leAt i 12 2 && (on.map (fun e => e % 4096)).eraseDups.length == on.length
    && on.all (fun e => decide (e / 4096 % 1024 < leAt i 14 2) && e / 2 ^ 22 % 512 == 0)
    && es.all (fun e => e.testBit 31 || e == 0)

/-- The number of the first check of R207 that a patch image fails. -/
def State.patchFail (s : State) (i keys : Bytes) : Option Nat :=
  let n := 80 + patchLen i + 16
  if !s.patchHeaderOk i then some 1
  else if leAt i 10 1 < s.otp.patchSvn then some 2
  else if slice i 16 48 ≠ hashOf 3 romBytes then some 3
  else if !dsaVerify 2 1 (keys.take 1952) ([0] ++ b1 0 ++ patchSigned i) (slice i n 3309)
      || !p384Verifies (slice keys 1952 97) (patchSigned i) (slice i (n + 3309) 96) then some 4
  else match s.patchPayload i with
    | none => some 5
    | some p =>
      if !matchTableOk i p then some 6
      else if !(List.range (leAt i 14 2)).all (fun k => parityOk (leNat (slice p (256 + 20 * k) 20))) then some 7
      else none

/-- The patch that an image holds. -/
def State.patchOf (s : State) (copy : Nat) (i : Bytes) : Patch :=
  let p := (s.patchPayload i).getD []
  ⟨copy, leAt i 8 2, leAt i 10 1, (leAt i 7 1).testBit 0, hashOf 3 (patchSigned i),
    ((List.range 64).map (fun k => leAt p (4 * k) 4)).filter (fun e => e.testBit 31),
    (List.range (leAt i 14 2)).map (fun k => slice p (256 + 20 * k) 20)⟩

/-! ### Which copy a start takes (R207, R445) -/

/-- The firmware copies in the order a start tries them. -/
def State.fwOrder (s : State) : List Nat :=
  copyOrder (fwHeaderOk (s.copyAt 0)) (fwHeaderOk (s.copyAt 1)) (leAt (s.copyAt 0) 8 4) (leAt (s.copyAt 1) 8 4)

/-- The firmware that a start takes. -/
def State.chooseFirmware (s : State) : Option Firmware :=
  (s.fwOrder.find? (fun k => (s.fwFail (s.copyAt k)).isNone)).map (fun k => firmwareOf k (s.copyAt k))

/-- The patch that a start takes: copy A, then copy B. -/
def State.choosePatch (s : State) (keys : Bytes) : Option Patch :=
  (([0, 1] : List Nat).find? (fun k => (s.patchFail (s.copyAt (2 + k)) keys).isNone)).map (fun k => s.patchOf k (s.copyAt (2 + k)))

/-- The rig that a start takes, and its copy (R286). -/
def State.chooseRig (s : State) : Option (Rig × Nat) :=
  s.rigOrder.findSome? (fun k => match s.rigCheck (s.copyAt (4 + k)) with
    | .inr r => some (r, k)
    | .inl _ => none)

/-- The patch keys in force: the firmware's, or none where the boot ROM serves. -/
def State.patchKeysNow (s : State) : Bytes := (s.boot.firmware.map (·.patchKeys)).getD []

/-! ### FW_WRITE and PATCH_WRITE (R457, R458) -/

/-- The copy that a session writes: the one not in force, or in RECOVERY one that failed. -/
def State.fwTarget (s : State) : Nat :=
  match s.boot.firmware, s.devState == 3 with
  | some f, false => 1 - f.copy
  | _, _ => spareCopy (s.fwFail (s.copyAt 0)).isNone (s.fwFail (s.copyAt 1)).isNone s.fwOrder

/-- The same for a patch. -/
def State.patchTarget (s : State) : Nat :=
  2 + match s.boot.patch with
  | some p => 1 - p.copy
  | none => spareCopy (s.patchFail (s.copyAt 2) s.patchKeysNow).isNone (s.patchFail (s.copyAt 3) s.patchKeysNow).isNone [0, 1]

/-- The checks of the whole image, then the version rule: RESULT and DETAIL of a refusal. -/
def State.imageFail (s : State) (fw : Bool) (i : Bytes) : Option (Nat × Nat) :=
  match (if fw then s.fwFail i else s.patchFail i s.patchKeysNow) with
  | some n => some (0x50, n)
  | none =>
    let above : Bool := if fw then (s.boot.firmware.map (fun f => decide (f.version < leAt i 8 4))).getD true
      else (s.boot.patch.map (fun p => decide (p.version < leAt i 8 2))).getD true
    if above then none else some (0x22, i.length)

/-- A part of a session: the layout, the session's place, the bytes, and the end of a last part. DETAIL is the bytes written so far, but
for a failed check (R457). A flash that fails ends the session, its copy without MAGIC (log 79). -/
def State.writePart (fw : Bool) (d : DmaResult) (flashOk : Bool) (s : State) (ch : Nat) (r : Bytes) : State :=
  let addr := leAt r 0 8
  let n := leAt r 8 4
  let off := leAt r 12 4
  let first := (leAt r 16 1).testBit 0
  let last := (leAt r 16 1).testBit 1
  let most := if fw then 0x400000 else 24237
  let mine := s.mbx.session.filter (fun x => x.ch == ch && decide (x.copy < 2) == fw)
  let done := ((mine.map (·.bytes)).getD []).length
  if n = 0 ∨ 0x400000 < n ∨ (addr = stagingAddr ∧ stagingSize < n) ∨ (ch = 1 ∧ addr ≠ stagingAddr) ∨ 4 ≤ leAt r 16 1
      ∨ !allZero (slice r 17 3) ∨ (first ∧ off ≠ 0) ∨ most < off + n then s.mbxDone ch 0x31 done []
  else if (first && s.mbx.session.any (fun x => x.ch != ch)) || s.reRig.isSome then s.mbxDone ch 0x23 done []
  else if !first && !(mine.any (fun x => x.bytes.length == off)) then s.mbxDone ch 0x31 done []
  else match s.requestData addr n d with
    | none => s.mbxDone ch 0x3B done []
    | some bs =>
      let copy := if first then (if fw then s.fwTarget else s.patchTarget) else ((mine.map (·.copy)).getD 0)
      let image := (if first then [] else (mine.map (·.bytes)).getD []) ++ bs
      let s := if first then s.setCopy copy [] else s
      if !flashOk then ({ s with mbx := { s.mbx with session := none } } : State).mbxDone ch 0x24 (if first then 0 else done) []
      else if !last then ({ s with mbx := { s.mbx with session := some ⟨ch, copy, image⟩ } } : State).mbxDone ch 0 image.length []
      else
        let s : State := { s with mbx := { s.mbx with session := none } }
        match s.imageFail fw image with
        | some e => s.mbxDone ch e.1 e.2 []
        | none => (s.setCopy copy image).mbxDone ch 0 image.length []

/-- FW_WRITE; flash programming waits while a dip pauses it. -/
def execFwWrite (d : DmaResult) (s : State) (flashOk : Bool := true) : Answer :=
  .next (s.mbxRunWrite ⟨0x0502, [0, 1], [1, 3], (· == 20)⟩ (State.writePart true d flashOk))

/-- PATCH_WRITE. -/
def execPatchWrite (d : DmaResult) (s : State) (flashOk : Bool := true) : Answer :=
  .next (s.mbxRunWrite ⟨0x0503, [0, 1], [1, 3], (· == 20)⟩ (State.writePart false d flashOk))

/-! ### RESTART, BOOT_INFO (R457) -/

/-- BOOT_ATTEMPTS cleared. -/
def State.clearAttempts (s : State) : State := s.setFld .rstBoot 2 0 0

/-- RESTART. -/
def State.restartCmd (s : State) (ch : Nat) (r : Bytes) : State :=
  let kind := leAt r 0 1
  if 2 ≤ kind ∨ !allZero (slice r 1 3) then s.mbxDone ch 0x31 0 []
  else s.clearAttempts.systemReset (decide (kind = 1)) (if kind = 1 then 9 else 8) 0

/-- RESTART. -/
def execRestart (s : State) : Answer := .next (s.mbxRun ⟨0x0501, [0, 1], [1, 2, 3], (· == 4)⟩ State.restartCmd)

/-- Bit `k` for each copy that is valid. -/
def State.copyValidity (s : State) : Nat :=
  let bit (k : Nat) (b : Bool) : Nat := if b then 2 ^ k else 0
  bit 0 (s.fwFail (s.copyAt 0)).isNone + bit 1 (s.fwFail (s.copyAt 1)).isNone
    + bit 2 (s.patchFail (s.copyAt 2) s.patchKeysNow).isNone + bit 3 (s.patchFail (s.copyAt 3) s.patchKeysNow).isNone
    + bit 4 (s.rigCopyOk 0) + bit 5 (s.rigCopyOk 1)

/-- BOOT_INFO's response. -/
def State.bootInfoRsp (s : State) : Bytes :=
  [Reg.rstCause, .rstBoot, .rstLink, .rstStartUs, .ddrStat].flatMap (fun r => leBytes 4 (s.fld r 31 0))
    ++ b1 s.copyValidity ++ zeros 11

/-- BOOT_INFO: served in BLANK too (R403). -/
def execBootInfo (s : State) : Answer := .next (s.mbxRun ⟨0x0504, [0, 1], [5] ++ anyState, (· == 0)⟩ (fun s ch _ => s.mbxDone ch 0 0 s.bootInfoRsp))

end Sys2Proof.Machine
end

