-- ==== Sys2Proof/Machine/Hybrid.lean ====
section
/-! DEFINITION. The hybrid jobs: two halves on a shell and a BNE core, and their join in the hash field (R18, R19, R139, R140). -/

namespace Sys2Proof.Machine

/-- One half of a hybrid job: the checks on operand values, its draws, and its result from the drawn bytes. -/
structure HalfOp where
  reject : Job → Option Result := fun _ => none
  draws : Job → List (Bool × Nat)
  result : State → Job → List Bytes → Result

/-- Run a half that has its inputs. -/
def State.runHalf (s : State) (j op : Nat) (pq : Bool) (o : HalfOp) : State :=
  match s.job? j with
  | none => s
  | some x =>
    let go := dOp x.desc == op && decide ((x.half pq).phase = .gathered) && decide (x.phase ≠ .sealed)
      && (if pq then s.unhalted x else !x.yielded && s.coresRun x)
    let settle (s : State) (r : Result) : State :=
      (if pq then s.freeShells x else s).setJob j (fun y =>
        { y.setHalf pq { y.half pq with phase := .computed, result := some r } with
            drawWait := pq && y.drawWait, pqWait := !pq && y.pqWait, drawn := y.drawn.filter (fun e => e.1 != pq) })
    if !go then s
    else match o.reject x with
    | some r => settle s r
    | none =>
      match s.drawAll x (o.draws x) pq with
      | .failed s => settle s (.fail 0x30 0)
      | .wait pr s => s.waitDraw x pr pq
      | .got l s => settle s (o.result s x l)

/-- The two parts of a share: post-quantum and classical (Table 03-20). -/
def shareParts (set pqLen : Nat) (share : Bytes) : Bytes × Bytes :=
  if set = 1 then (share.take pqLen, share.drop pqLen) else (share.drop 97, share.take 97)

/-- The ML-KEM set of a hybrid set. -/
def hybMlkem (set : Nat) : Nat := set + 1

/-- The classical public value of a scalar, and its scalar bytes. -/
def classicalPub (set : Nat) (d : Bytes) : Bytes := if set = 1 then c25519.pub d else p384.encode (p384.mul (beNat d) p384.gen)

/-- A drawn classical scalar. -/
def classicalScalar (set : Nat) (rnd : Bytes) : Bytes := if set = 1 then rnd else beBytes 48 (p384.scalar rnd)

/-- Bytes drawn for a classical scalar. -/
def classicalDraw (set : Nat) : Nat := if set = 1 then 32 else 56

/-- The classical shared secret with a peer value, validated under the rules of its class (R118, R121): `own` goes before it. -/
def classicalShared (set : Nat) (d peer own : Bytes) : Result :=
  if set = 1 then
    let z := c25519.dh d peer
    if allZero z then .fail 0x21 0 else .done (own ++ z)
  else match p384.pointFail 1 peer with
    | some r => r
    | none => match p384.mul (beNat d) (p384.point peer) with
      | some (x, _) => .done (own ++ beBytes 48 x)
      | none => .done (own ++ zeros 48)

/-- Why a peer's classical value is refused whatever the scalar (R121): a point of P-384 that is not valid. -/
def peerFail (set : Nat) (peer : Bytes) : Option Result := if set = 1 then none else p384.pointFail 1 peer

/-- The set of a hybrid job. -/
def hybSet (j : Job) : Nat := pSet (dParam j.desc)

/-- KEYGEN, post-quantum half: ek and the seed. -/
def keygenPq : HalfOp where
  draws _ := [(true, 64)]
  result s j l := .done ((kemKeys (hybMlkem (hybSet j)) (s.dealing j).1 ((nth l 0).take 32)).1 ++ nth l 0)

/-- KEYGEN, classical half: the public value and the scalar. -/
def keygenClassical : HalfOp where
  draws j := [(false, classicalDraw (hybSet j)), (false, 32)]
  result _ j l := let d := classicalScalar (hybSet j) (nth l 0); .done (classicalPub (hybSet j) d ++ d)

/-- ENCAPS, post-quantum half: ct and K, after the modulus check (R98). -/
def encapsPq : HalfOp where
  reject j :=
    let set := hybMlkem (hybSet j)
    if modulusOk set (shareParts (hybSet j) (mlkemEk set) j.main).1 then none else some (.reject 1 6)
  draws _ := [(true, 32)]
  result s j l :=
    let set := hybMlkem (hybSet j)
    let e := kemEncaps set (s.dealing j).1 (shareParts (hybSet j) (mlkemEk set) j.main).1 (nth l 0)
    .done (e.1 ++ e.2)

/-- ENCAPS, classical half: an ephemeral key and the secret with the peer. -/
def encapsClassical : HalfOp where
  reject j := peerFail (hybSet j) (shareParts (hybSet j) (mlkemEk (hybMlkem (hybSet j))) j.main).2
  draws j := [(false, classicalDraw (hybSet j)), (false, 32)]
  result _ j l :=
    let d := classicalScalar (hybSet j) (nth l 0)
    classicalShared (hybSet j) d (shareParts (hybSet j) (mlkemEk (hybMlkem (hybSet j))) j.main).2 (classicalPub (hybSet j) d)

/-- DECAPS, post-quantum half. -/
def decapsPq : HalfOp where
  draws _ := []
  result s j _ :=
    let set := hybMlkem (hybSet j)
    .done (kemDecaps set (s.dealing j).1 (j.key.take 64) (shareParts (hybSet j) (mlkemCt set) j.main).1)

/-- DECAPS, classical half; its only draw is blinding. -/
def decapsClassical : HalfOp where
  reject j := peerFail (hybSet j) (shareParts (hybSet j) (mlkemCt (hybMlkem (hybSet j))) j.main).2
  draws _ := [(true, 32)]
  result _ j _ :=
    classicalShared (hybSet j) (j.key.drop 64) (shareParts (hybSet j) (mlkemCt (hybMlkem (hybSet j))) j.main).2 []

/-- HYBRID_KEYGEN: whichever halves have their inputs. -/
def execHybridKeygen (j : Nat) (s : State) : Answer :=
  .next ((s.runHalf j 0x1001 true keygenPq).runHalf j 0x1001 false keygenClassical)

/-- HYBRID_ENCAPS. -/
def execHybridEncaps (j : Nat) (s : State) : Answer :=
  .next ((s.runHalf j 0x1002 true encapsPq).runHalf j 0x1002 false encapsClassical)

/-- HYBRID_DECAPS. -/
def execHybridDecaps (j : Nat) (s : State) : Answer :=
  .next ((s.runHalf j 0x1003 true decapsPq).runHalf j 0x1003 false decapsClassical)

/-! ### The join (R18, R19) -/

/-- The status of a job whose halves are not both DONE: the lowest that is not, DETAIL naming the halves that failed (R19). -/
def joinFail (c p : Result) : Option Result :=
  let d := (if c.status ≠ 0 then 1 else 0) + (if p.status ≠ 0 then 2 else 0)
  if c.status = 0 ∧ p.status = 0 then none
  else if c.status = 0 then some (.fail p.status d)
  else if p.status = 0 then some (.fail c.status d)
  else some (.fail (min c.status p.status) d)

/-- Post-quantum and classical parts in the order of the set (Table 03-20). -/
def hybOrder (set : Nat) (pq cl : Bytes) : Bytes := if set = 1 then pq ++ cl else cl ++ pq

/-- The combined output of two halves that are DONE (R139, R140). -/
def State.combine (s : State) (j : Job) (c p : Result) : Result :=
  let set := hybSet j
  let k := hybMlkem set
  let pub := if set = 1 then 32 else 97
  match dOp j.desc with
  | 0x1001 =>
    s.fill j (hybOrder set (p.out.take (mlkemEk k)) (c.out.take pub)) (p.out.drop (mlkemEk k) ++ c.out.drop pub) true
  | 0x1002 =>
    .done (hybOrder set (p.out.take (mlkemCt k)) (c.out.take pub) ++ hybOrder set (p.out.drop (mlkemCt k)) (c.out.drop pub))
  | _ => destroyAfter j (hybOrder set p.out c.out)

/-- A core of a partition permitted to the slice that carries HYBRID, with a free context, and its pool. -/
def State.joinCore (s : State) (j : Job) : Option (Nat × Nat) :=
  (s.poolChoice j 3).findSome? (fun p =>
    if s.bit (.fabPoolCtrl p.num) 0 then none else (firstBelow 128 (fun k => s.unitFree p (.hash k) && !s.unitHalted (.hash k))).map (fun k => (p.num, k)))

/-- HYBRID_JOIN: both halves have ended. -/
def State.hybridJoin (s : State) (j : Nat) : State :=
  match s.job? j with
  | none => s
  | some x =>
    match dClass x.desc == 0x10, x.classical.phase, x.pq.phase, x.classical.result, x.pq.result with
    | true, .sealed, .sealed, some c, some p =>
      if x.result.isSome then s
      else match joinFail c p with
        | some r => (s.endJob j r).onlyIf (decide (r.status = 0x41)) (·.bump .genAbortCnt)
        | none => match s.joinCore x with
          | none => s
          | some (q, k) =>
            s.setJob j (fun y => { y with unit := some (.hash k), pool := some q, phase := .computed, result := some (s.combine x c p) })
    | _, _, _, _, _ => s

/-- HYBRID_JOIN. -/
def execHybridJoin (j : Nat) (s : State) : Answer := .next (s.hybridJoin j)

end Sys2Proof.Machine
end

