-- ==== Sys2Proof/Machine/Start.lean ====
section
/-! DEFINITION. Starts: from the release of a system reset to SERVICE, RECOVERY, LOCKED, BLANK or SCRAPPED, or to a failed start
(R286 to R288, R345, R363, R375, R388, R392, R411, R416, R423, R434, R436, R445 to R452). -/

namespace Sys2Proof.Machine

/-! ### BBRAM and the life cycle -/

/-- BBRAM and the AON's values initialised after a loss of both supplies (Table 14-3, R424). -/
def State.initBbram (s : State) : State :=
  let gone (r : Reg) : Bool := match r with
    | .genBootSeq | .tmpAlarm | .tmpSrcLast _ | .tmpLogWord _ _ | .tmpLogHead | .tmpLogSeq | .tmpTime | .ddrMcCause | .rstBoot => true
    | _ => false
  let s : State := { s with
    bbram := ⟨true, none, 0, [], false, 0⟩, cells := [], regs := s.regs.filter (fun e => !gone e.1),
    power := { s.power with rest := 0 }, tamper := { s.tamper with drove := 0, group := [], running := 0 } }
  s.wr .tmpStatus 0

/-- The life-cycle state decoded, and an interrupted group completed, unless its words cannot be programmed; the registers that show
OTP (R388, R392, R406). -/
def State.decodeState (s : State) : State :=
  let (st, todo) := s.otp.decode
  let bad := s.boot.groupBad && todo.isSome
  let done := if bad then none else todo
  let s : State := match done with
    | some g => { s with otp := s.otp.finish g }
    | none => s
  let s : State := { s with boot := { s.boot with groupBad := bad } }
  (s.wr .lcsState (BitVec.ofNat 64 (done.getD st + (if done.isSome then 2 ^ 12 else 0)))).showOtp

/-- The root that a start puts in force (Table 12-1): the test root in BLANK, MAKER_TEST and RETURNED; after a cold reset no test root
in the other states. -/
def State.rootAtStart (s : State) (cold : Bool) : State :=
  if s.lcState = 0 ∨ s.lcState = 1 ∨ s.lcState = 4 then s.setBit .genState 5 true
  else if cold then s.setBit .genState 5 false else s

/-! ### Where a start can end before SERVICE -/

/-- DEV_STATE of a start that has ended. -/
def State.endStart (s : State) (dev : Nat) : State :=
  ({ s with boot := { s.boot with starting := false } } : State).setFld .genState 3 0 dev

/-- More than 10 ms have passed since the release: RESET_N is released, and read again (R440, R447, R448). -/
def State.freeReset (s : State) : State := { s with pins := { s.pins with resetLow := false, resetLeft := 0 } }

/-- BLANK: every debug right is in force, and the boot ROM serves the mailbox (Table 12-1, R450). -/
def State.enterBlank (s : State) : State :=
  let s : State := { s with dbg := { s.dbg with record := 0x1FF } }
  (s.wr .dbgRights 0x1FF).clearAttempts.endStart 5

/-- SCRAPPED. -/
def State.enterScrapped (s : State) : State := s.clearAttempts.endStart 6

/-- The firmware copy in force, as RST_BOOT.FW_COPY names it. -/
def State.takeFirmware (s : State) : State :=
  let f := s.chooseFirmware
  ({ s with boot := { s.boot with firmware := f } } : State).setFld .rstBoot 17 16 ((f.map (·.copy)).getD 3)

/-- RECOVERY (R451): floors apply, no rig is in force; an owed HALT_SERVICE is only logged (R429). -/
def State.enterRecovery (s : State) : State :=
  let s := s.takeFirmware.setBit .rstBoot 3 true
  (({ s with tamper := { s.tamper with haltOwed := none } } : State).endStart 3).freeReset

/-- LOCKED (R416, R450). -/
def State.enterLocked (s : State) : State :=
  let s := ((s.clearAttempts.setBit .tmpStatus 1 true).endStart 15).freeReset
  ({ s with tamper := { s.tamper with haltOwed := none }, pins := { s.pins with alarmLow := true } } : State)

/-- Steps 4 to 6 of a start that goes on: firmware and patch are chosen; a new epoch is demanded where none is valid; a warm start has
its LPDDR5X back and loads its rig. -/
def State.continueStart (s : State) (cold : Bool) : State :=
  let s := s.takeFirmware
  match s.boot.firmware with
  | none => s
  | some f =>
    if s.bbram.lock then s.enterLocked
    else
      let s : State := ({ s with boot := { s.boot with patch := s.choosePatch f.patchKeys } } : State).loadPatches
      let s := if s.bbram.epoch.isSome then s else s.demandEpoch
      if cold then s
      else
        let s := (s.setBit .ddrStat 3 false).bringUp [14]
        match s.chooseRig with
        | some (r, k) => s.loadRig r k
        | none => s

/-- Steps 1 to 3 of a start: OTP, BBRAM, attempts, the noise source; then where the start goes. A start whose interrupted life-cycle
group cannot be completed goes nowhere: it fails (R449). -/
def State.startSteps (s : State) : State :=
  let cold := s.boot.cold
  let s : State := { s with boot := { s.boot with romHold := false }, tamper := { s.tamper with meshDue := true }, sram := [] }
  let s := if s.bbram.valid then s else s.initBbram
  let s := (s.decodeState.rootAtStart cold).loadClasses
  let s := ({ s with rng := { s.rng with tests := [] } } : State)
  let s := (s.setSrc 1).setBit (.rngDrbStat 0) 4 true
  let s := if s.boot.ddrMc then s.setBit .ddrEvtStatus 3 true else s
  let tries := s.fld .rstBoot 2 0
  let s := (s.setFld .rstBoot 2 0 (min 7 (tries + 1))).setBit .rstBoot 3 false
  if 4 ≤ tries ∧ !s.bbram.lock ∧ s.lcState ≠ 0 ∧ s.lcState ≠ 5 then s.enterRecovery
  else if s.boot.groupBad then s
  else if s.lcState = 0 then s.enterBlank
  else if s.lcState = 5 then s.enterScrapped
  else s.continueStart cold

/-- The start holds in the boot ROM while the source that caused its reset is active (R411), and waits out a supply dip (R459). -/
def State.romGo (s : State) : State :=
  if s.boot.romHold && s.tamper.holdStart.isEmpty && s.tamper.dip.isNone then s.startSteps else s

/-- The release of a system reset (R434 step 6): the conditions of VDD_RESET and VDD_HIGH are over (R407), and DM0, DM1, DM2 and the
domains of the SC come up. -/
def State.release (s : State) (cold groupOk : Bool) : State :=
  let s : State := { s with
    boot := { s.boot with held := false, starting := true, cold := cold, romHold := true, groupBad := !groupOk }
    tamper := { s.tamper with vddUndo := none } }
  let s := (s.setFld .tmpActive 11 10 0).onlyIf s.tamper.dip.isNone (·.setBit .tmpActive 9 false)
  ((s.wr .genXingQuiet 0x3FFFF).bringUp [0, 1, 2, 15, 16, 17]).romGo

/-- Every rail but VBAT is in range (R470). -/
def State.railsOk (s : State) : Bool := s.fld .pwrRails 4 0 == 31

/-- RESET_RELEASE: a held reset is released and the start begins; a warm one that could not keep what it must becomes cold
(R436). It waits for the rails and for POR. `groupOk` is false where the words of an interrupted life-cycle group cannot be programmed. -/
def execResetRelease (refreshOk : Bool) (s : State) (groupOk : Bool := true) : Answer :=
  if !s.boot.held || !s.power.io || s.power.backup || s.power.por || !s.railsOk then .next s
  else if !s.boot.cold && (!refreshOk || !s.bit .ddrStat 1) then
    .next ((s.becomeCold 11 0 (s.fld .rstCause 23 16)).release true groupOk).mbxNext
  else .next (s.release s.boot.cold groupOk).mbxNext

/-- SOURCE_INACTIVE: the condition of source `k` clears; a start that holds for it begins (R411). -/
def execSourceInactive (k : Nat) (s : State) : Answer := .next (s.inactive k).romGo.mbxNext

/-- DIP_RECOVERY: the dip ends, deferred writes proceed (R420), and a start that waits for it begins (R459). -/
def execDipRecovery (mv us : Nat) (s : State) : Answer := .next ((s.sweepReg .tmpVdd).recoverDip mv us).lateWrites.romGo.mbxNext

/-! ### LPDDR5X (R309, R369, R375, R447 steps 7 to 9) -/

/-- A cold start under way, with its firmware and patch accepted, outside a dip. -/
def State.coldStart (s : State) : Bool :=
  s.boot.starting && s.boot.cold && s.tamper.dip.isNone && !s.boot.romHold && s.boot.firmware.isSome && s.boot.patch.isSome

/-- DDR_TRAINING_DONE: the channels that have trained, the capacity fitted and the data rate. With all eight, the boot keys are
drawn from DRB0 and initialisation begins. -/
def execDdrTrainingDone (mask gib mts : Nat) (s : State) : Answer :=
  if !s.coldStart || s.boot.trained || decide (gib ∉ [16, 32, 48, 64]) then .next s
  else
    let s := ((s.setFld .ddrStat 15 8 mask).setFld .ddrStat 31 16 mts).freeReset
    if mask % 256 ≠ 255 then .next s
    else match s.scDraw 128 with
      | none => .next s
      | some (bs, s) =>
        let u := BitVec.ofNat 64 (gib * 15 * 2 ^ 26)
        let s := ((s.setFld .ddrStat 2 0 3).setFld .genCap 32 26 gib).bringUp [14]
        let s := (s.wr .ddrUsable u).wr .ddrSliceLimit u
        .next { s with boot := { s.boot with trained := true, keys := some (bs.take 32, slice bs 32 32, slice bs 64 64) } }

/-- DDR_INIT_DONE: every line reads zero; the rig passes its last checks and is loaded. -/
def execDdrInitDone (s : State) : Answer :=
  if !s.coldStart || !s.boot.trained || s.bit .ddrStat 2 then .next s
  else
    let s := { s.setBit .ddrStat 2 true with ddr := [] }
    match s.chooseRig with
    | some (r, k) => .next (s.loadRig r k)
    | none => .next s

/-! ### SERVICE (R288, R312, R423, R442, R447 steps 10 and 11) -/

/-- BIST has passed: tiles and BNE cores show it, and every tile's mask generator is seeded. -/
def State.bistAndSeed (s : State) : State :=
  let s := s.each (below 96 (fun t => decide (s.tileState t ≤ 2))) (fun s t =>
    let s := s.setFld (.fabTileStat t) 25 24 1
    match s.seedTile t with
    | .got _ _ s => s
    | _ => s)
  s.each (below 8 (fun c => s.bneState c == 1)) (fun s c => s.setFld (.bneCoreState c) 21 20 1)

/-- The epoch of a start (step 6 of Table 14-4): alarms on the backup cell are noted in it (R312, R423). -/
def State.startEpoch (s : State) (bs : Bytes) : State :=
  let s := s.newEpoch bs
  { s with bbram := { s.bbram with summary := s.bbram.alarmed, alarmed := 0 } }

/-- The SC's own prediction-resistant draw is served: VAULT_CLEAR's, or a start's. -/
def State.scServed (s : State) (bs : Bytes) : State :=
  match s.mbx.busy with
  | some ch => if s.mbx.pressed && s.mbxCode ch == 0x0313 then s.vaultCleared ch bs else s.startEpoch bs
  | none => s.startEpoch bs

/-- The OTP minimum SVNs rise to those of the images in force with RAISE_SVN (R208, R288, R445). -/
def State.raiseSvns (s : State) : State :=
  let s := s.raiseRigSvn
  let s : State := match s.boot.firmware with
    | some f => if f.raise then { s with otp := { s.otp with fwSvn := max s.otp.fwSvn f.svn } } else s
    | none => s
  match s.boot.patch with
  | some p => if p.raise then { s with otp := { s.otp with patchSvn := max s.otp.patchSvn p.svn } } else s
  | none => s

/-- Every instance that the rig enables is instantiated. -/
def State.instancesReady (s : State) : Bool := (List.range 16).all (fun k => !s.bit (.rngDrbStat k) 4 || s.drbState k != 0)

/-- The start can enter SERVICE. -/
def State.startReady (s : State) : Bool :=
  s.boot.starting && !s.boot.romHold && s.tamper.dip.isNone && s.bbram.epoch.isSome && s.boot.firmware.isSome && s.boot.patch.isSome && s.rig.isSome
    && s.ddrReady && s.instancesReady

/-- An owed HALT_SERVICE takes effect (R429). -/
def State.payHalt (s : State) : State :=
  match s.tamper.haltOwed with
  | some k => ({ s with tamper := { s.tamper with haltOwed := none } } : State).enterHalted k
  | none => s

/-- Four distinct non-zero seeds of 31 bits from 16 bytes (R409, log 74). -/
def meshSeeds (bs : Bytes) : List Nat :=
  (List.range 4).foldl (fun l k =>
    let v := leNat (slice bs (4 * k) 4)
    l ++ ((List.range 5).map (fun i => (v + i) % 2 ^ 31)).filter (fun x => x != 0 && !l.contains x) |>.take (k + 1)) []

/-- A start seeds the mesh's registers once DRB0 serves (R409). -/
def State.seedMesh (s : State) : State :=
  if !s.tamper.meshDue then s
  else match s.scDraw 16 with
    | some (bs, s) => { s with tamper := { s.tamper with mesh := (meshSeeds bs).map MeshLine.seeded, meshDue := false } }
    | none => s

/-- RESEED_SERVED: pool output goes to the next waiting demand; DRB0, once instantiated, seeds the mesh, and a life-cycle move whose
secret had to wait goes on (R345). -/
def execReseedServed (s : State) : Answer := .next (s.servePool State.scServed).seedMesh.resumeMove

/-- The device enters SERVICE `us` microseconds after the release. -/
def State.enterService (s : State) (us : Nat) : State :=
  let s := ((s.bistAndSeed.raiseSvns.bumpBoot.endStart 1).bringUp (List.range 18)).freeReset
  let s := (s.setFld .rstStartUs 31 0 us).wr .rstServiceNs (s.rd .genTime)
  ({ s with boot := { s.boot with ddrMc := false }, pins := { s.pins with holdReleased := true } } : State).payHalt.mbxNext

/-- START_COMPLETE. -/
def execStartComplete (us : Nat) (s : State) : Answer := .next (if s.startReady then s.enterService us else s)

/-! ### Failed starts (R449, R450) -/

/-- LAST_FAIL's code. -/
def StartFault.code : StartFault → Nat
  | .timeout => 1
  | .firmware => 2
  | .patch => 3
  | .rig => 4
  | .ddrTrain => 5
  | .rng => 6
  | .otp => 7
  | .scFatal => 8

/-- What the case of a failed start presupposes. -/
def State.canFail (s : State) (why : StartFault) : Bool :=
  match why with
  | .timeout => s.tamper.holdStart.isEmpty
  | .firmware => !s.boot.groupBad && !s.boot.romHold && (s.boot.firmware.isNone || !s.boot.trained)  -- a flash without 8D-8D-8D (R475)
  | .patch => s.boot.firmware.isSome && s.boot.patch.isNone
  | .rig => s.boot.patch.isSome && s.rig.isNone
  | .ddrTrain => s.boot.cold && !s.boot.trained
  | .rng => s.srcState == 4
  | .otp => s.boot.groupBad && !s.boot.romHold
  | .scFatal => true

/-- A start fails and takes a reset of cause FAILED_START. -/
def State.failStart (s : State) (why : StartFault) : State :=
  if !s.boot.starting || !s.canFail why then s
  else (s.setFld .rstBoot 11 8 (Sys2Proof.Machine.StartFault.code why)).systemReset (decide (why = StartFault.ddrTrain)) 10 0

/-- START_FAILURE. -/
def execStartFailure (why : StartFault) (s : State) : Answer := .next (s.failStart why)

/-- START_TIMEOUT: 15 s have passed, waits of R411 apart. -/
def execStartTimeout (s : State) : Answer := .next (s.failStart .timeout)

/-- BOOT_ATTEMPTS_CLEAR: 60 s in SERVICE, HALTED or STANDBY without a system reset. -/
def execBootAttemptsClear (s : State) : Answer :=
  if s.devState = 1 ∨ s.devState = 2 ∨ s.devState = 4 then .next s.clearAttempts else .next s

end Sys2Proof.Machine
end

