-- ==== Sys2Proof/Machine/Reset.lean ====
section
/-! DEFINITION. Reset triggers and block resets (R14, R373, R433, R438 to R440, R459). -/

namespace Sys2Proof.Machine

/-! ### System-reset triggers -/

/-- RST_CTRL and RST_BLOCK act only in SERVICE, HALTED and STANDBY (R460). -/
def State.rstActs (s : State) : Bool := s.devState == 1 || s.devState == 2 || s.devState == 4

/-- A write of RST_CTRL; COLD prevails. -/
def State.writeRstCtrl (s : State) (v : DWord) : State :=
  if !s.rstActs then s
  else if getB v 1 then s.systemReset true 9 0
  else if getB v 0 then s.systemReset false 8 0 else s

/-- RST_CTRL_WARM. -/
def execRstCtrlWarm (s : State) : Answer := .next (s.writeRstCtrl 1)

/-- RST_CTRL_COLD. -/
def execRstCtrlCold (s : State) : Answer := .next (s.writeRstCtrl 2)

/-- SC firmware runs: in SERVICE, HALTED, RECOVERY, STANDBY, LOCKED and in a start that has its firmware. -/
def State.firmwareRuns (s : State) : Bool := !s.boot.held && s.boot.firmware.isSome

/-- SC_WATCHDOG_EXPIRY. -/
def execScWatchdogExpiry (s : State) : Answer := if s.firmwareRuns then .next (s.systemReset false 3 0) else .next s

/-- An SC fatal error: before SERVICE it is a failed start (R449), else a warm reset. -/
def State.scFatal (s : State) : State :=
  if s.boot.held then s else if s.boot.starting then s.failStart .scFatal else s.systemReset false 4 0

/-- SC_FATAL. -/
def execScFatal (s : State) : Answer := .next s.scFatal

/-- RESET_N_INPUT: a low level of 500 ns or more, unless the device drives the pin itself or has ended its own pulse within 100 µs (R440). -/
def execResetNInput (ns : Nat) (s : State) : Answer :=
  if ns < 500 || s.pins.resetLow || decide (s.pins.resetLeft ≠ 0) || s.power.por then .next s else .next (s.systemReset false 2 0)

/-- The LPDDR5X controller's machine check: its cause is latched, and the reset is cold (R373). -/
def State.ddrCheck (s : State) (cause : Nat) : State :=
  if s.boot.held || !s.power.io || s.power.backup then s
  else
    let s := (s.setFld .ddrMcCause 2 0 cause).systemReset true 11 0
    { s with boot := { s.boot with ddrMc := true } }

/-- DDR_MACHINE_CHECK. -/
def execDdrMachineCheck (cause : Nat) (s : State) : Answer := .next (s.ddrCheck cause)

/-! ### Block resets (R438, R439) -/

/-- Tiles of a unit: a tile, a shell's, an island's. -/
def State.blockTiles (s : State) (kind idx : Nat) : List Nat :=
  match kind with
  | 1 => [idx]
  | 2 => s.shellTiles idx
  | 3 => (List.range 12).map (12 * idx + ·)
  | _ => []

/-- The unit exists, is IN_SERVICE or SPARE, and no re-rig has its pool in hand. -/
def State.blockAllowed (s : State) (kind idx : Nat) : Bool :=
  match kind with
  | 1 => decide (idx < 96) && (s.tileState idx == 1 || s.tileState idx == 2) && !s.tileReRigging idx
  | 2 => decide (idx < 96) && s.shellState idx == 1 && !s.reRigging (s.shellPool idx)
  | 3 => decide (idx < 8) && s.fld (.fabIslStat idx) 6 4 == 0
      && (s.blockTiles 3 idx).all (fun t => s.tileState t != 3 && !s.tileReRigging t)
  | 4 => decide ((s.hcore idx).state = .inService) && !s.hashReRigging idx
  | _ => decide (idx < 8) && s.bneState idx == 1 && !s.coreReRigging idx

/-- A machine check of the unit is being handled, or a RETIRE waits for its running jobs (R459, log 42). -/
def State.blockTaken (s : State) (kind idx : Nat) : Bool :=
  match kind with
  | 4 => (decide ((s.hcore idx).state = .offline) && !(s.hcore idx).cmd && !s.joiningHash idx) || (s.hcore idx).leaving
  | 5 => decide (idx < 8) && ((s.bneState idx == 2 && !(s.bcore idx).cmd && !s.joiningBne idx) || (s.bcore idx).leaving)
  | _ => (s.blockTiles kind idx).any (fun t => (match (s.tile t).bist with
      | some (.check _ _) => true
      | _ => false) || (s.tileState t == 1 && (s.tile t).back == 4))

/-- Shells that have a tile among those listed. -/
def State.shellsOf (s : State) (ts : List Nat) : List Nat := ts.foldl (fun l t => match s.shellOf t with
  | some sh => insertNat sh l
  | none => l) []

/-- No job runs on the unit, and none has yielded there. -/
def State.blockIdle (s : State) (kind idx : Nat) : Bool :=
  match kind with
  | 4 => (s.onHash idx).isEmpty
  | 5 => (s.onCore idx).isEmpty
  | _ => (s.shellsOf (s.blockTiles kind idx)).all (fun sh => (s.onUnit (.shell sh)).isEmpty)
      && (s.blockTiles kind idx).all (fun t => !(s.tile t).running)

/-- RST_BLOCK_STAT.PHASE: 0 IDLE, 1 QUIETING, 2 RESET, 3 BIST. -/
def State.blockPhase (s : State) : Nat := s.fld .rstBlockStat 5 4

/-- The unit leaves the dispatch set, and its crossings are asked to be quiet (R13 steps 1 to 3, R439 step 1). -/
def State.beginBlock (s : State) (kind idx : Nat) : State :=
  let s := ((s.blockResult 0).setFld .rstBlockStat 9 8 0).setFld .rstBlockStat 5 4 1
  let s : State := { s with boot := { s.boot with block := some (kind, idx) } }
  match kind with
  | 4 => s.setHcore idx (fun h => { h with state := .offline })
  | 5 => s.setBneState idx 2
  | _ =>
    let ts := s.blockTiles kind idx
    let s := s.each ((s.shellsOf ts).filter (fun sh => s.shellState sh == 1)) (fun s sh => s.setShellState sh 2)
    s.each ts (fun s t =>
      let st := s.tileState t
      (s.setTileState t 3).setTile t (fun x => { x with bist := some .block, back := st, periodic := false }))

/-- Every crossing is quiet: the unit's reset is asserted, and what it held is wiped (R13 step 4, R439 step 2). -/
def State.resetBlock (s : State) (kind idx : Nat) : State :=
  match kind with
  | 4 => s
  | 5 => s.wipeCore idx
  | _ => s.each (s.blockTiles kind idx) (fun s t => s.setTile t Tile.wipe)

/-- A block reset goes on by one stage: quiet, then reset, then BIST (R13, R439). -/
def State.blockAdvance (s : State) : State :=
  match s.boot.block, s.blockPhase with
  | some (kind, idx), 1 => (s.resetBlock kind idx).setFld .rstBlockStat 5 4 2
  | some _, 2 => s.setFld .rstBlockStat 5 4 3
  | _, _ => s

/-- A write of RST_BLOCK for an existing kind. -/
def State.blockReset (s : State) (kind idx : Nat) : State :=
  if !s.rstActs || kind = 0 || 6 ≤ kind then s
  else if s.boot.block.isSome then s.blockResult 1
  else if s.blockTaken kind idx then s.blockResult 1
  else if !s.blockAllowed kind idx then s.blockResult 2
  else if !s.blockIdle kind idx then s.blockResult 1
  else s.beginBlock kind idx

/-- A write of RST_BLOCK. -/
def State.writeRstBlock (s : State) (v : DWord) : State := s.blockReset (getF v 2 0) (getF v 14 8)

/-- RST_BLOCK. -/
def execRstBlock (kind idx : Nat) (s : State) : Answer := .next (s.blockReset kind idx)

/-- The end of a block reset's BIST: the unit returns to its role, or a failure is dealt with under R162, R215 or R265. A BIST that has
ended has started, so the stages before it are over. -/
def State.blockDone (s : State) (ok : Bool) : State :=
  let s := s.blockAdvance.blockAdvance
  match s.boot.block with
  | none => s
  | some (kind, idx) =>
    let s := (s.setFld .rstBlockStat 5 4 0).setFld .rstBlockStat 9 8 (if ok then 1 else 2)
    let s : State := { s with boot := { s.boot with block := none } }
    match kind with
    | 4 => if ok then s.setHcore idx (fun h => { h with state := .inService }) else s.hashBistDone idx false
    | 5 => if ok then (s.setFld (.bneCoreState idx) 21 20 1).setBneState idx 1 else s.bneBistDone idx false
    | _ => s.each ((s.blockTiles kind idx).filter (fun t => decide ((s.tile t).bist = some .block))) (fun s t => s.tileBistDone t ok)

/-- BLOCK_RESET_BIST_DONE. -/
def execBlockResetBistDone (ok : Bool) (s : State) : Answer := .next (s.blockDone ok)

/-! ### Crossings that do not quiet (R14, R435) -/

/-- The machine check of the unit that does not quiet; its CAUSE is a free value, since the tables name none for it. -/
def State.unitCheck (s : State) (u : ResetUnit) : State :=
  let (b, s) := s.draw 1
  let cause := leNat b % 16
  match u with
  | .tile t => s.tileCheck t cause
  | .hash k => s.hashCheck k
  | .bne c => s.bneCheck c cause
  | .other => s

/-- CROSSING_QUIET_TIMEOUT: within a system reset it makes the reset cold (R435); outside one the domain's bit is set, and the unit,
the LPDDR5X controller or the SC answers for it (R14). -/
def execCrossingQuietTimeout (dm : Nat) (u : ResetUnit) (s : State) : Answer :=
  if s.boot.held then
    if s.boot.cold then .next s else .next (s.becomeCold 11 0 (s.fld .rstCause 23 16))
  else
    let s := s.setBit .genXingTmo dm true
    if 4 ≤ dm ∧ dm ≤ 13 then .next (s.unitCheck u)
    else if dm = 14 then .next (s.ddrCheck 1)
    else .next s.scFatal

end Sys2Proof.Machine
end

