-- ==== Sys2Proof/Machine/Power.lean ====
section
/-! DEFINITION. Supplies, the AON, the crystal, STANDBY, the link and the configuration space (R40, R44, R68, R407, R422, R437, R453
to R456, R460, R469, R479). -/

namespace Sys2Proof.Machine

/-! ### Rails and main power (R456, R460, R469, R470) -/

/-- The bit of PWR_RAILS. -/
def railBit : Rail → Nat
  | .core => 0
  | .sram => 1
  | .io => 2
  | .ddr => 3
  | .pcie => 4
  | .vbat => 5

/-- RAIL_RANGE_CHANGE: during the count of the power-on reset a rail out of range restarts it, so that POR_RELEASE waits. -/
def execRailRangeChange (r : Rail) (ok : Bool) (s : State) : Answer :=
  let s := s.setBit .pwrRails (railBit r) ok
  if r = Rail.vbat then .next { s with power := { s.power with vbat := ok } } else .next s

/-- MAIN_POWER_ON: VDD_IO is in range; the AON moves to it, RESET_N and PLAT_HOLD_N are low, ALARM_N as TMP_ALARM says. -/
def execMainPowerOn (s : State) : Answer :=
  if s.power.io && !s.power.backup then .next s
  else
    let s := s.setBit .pwrRails 2 true
    let s : State := { s with
      power := { s.power with io := true, aon := true, backup := false, por := true }
      pins := { s.pins with holdReleased := false, resetLow := true, resetLeft := 10100000 }
      boot := { s.boot with held := true, starting := false, cold := true } }
    .next s.settleAlarmN

/-- POR_RELEASE: every rail has been in range for 10 ms with SYSCLK in range and the crystal running; the cause of the cold reset is set,
and the start begins at its release (R433, R469, R479). -/
def execPorRelease (s : State) : Answer :=
  if !s.power.io || s.power.backup || !s.power.por || !s.railsOk || !s.power.crystal || !s.power.sysclk then .next s
  else
    let s : State := { s with power := { s.power with por := false }, pins := { s.pins with resetLow := true, resetLeft := 10100000 } }
    .next (s.loadClasses.latchCause true (if s.bbram.valid then 0 else 1) 0 0)

/-- BBRAM writes already issued complete on the cell (R429, R456): reservations of counter cells, and cells being freed. -/
def State.finishWrites (s : State) : State :=
  { s with cells := s.cells.map (fun e =>
      let x := match e.2.writing with
        | some l => { e.2 with limit := l, writing := none }
        | none => e.2
      (e.1, if x.freeing then x.release else x)) }

/-- A VDD_RESET alarm whose reset has not been released is discarded: neither logged nor latched (R456). -/
def State.dropVddReset (s : State) : State :=
  match s.tamper.vddUndo with
  | some u => if s.boot.held then { s.undoVdd u with tamper := { (s.undoVdd u).tamper with vddUndo := none } } else s
  | none => s

/-- What the AON loses with both supplies: BBRAM, the counter cells, the log, its registers and its timestamp (Table 14-3). -/
def State.loseAon (s : State) : State :=
  let s := s.initBbram
  let s : State := { s with bbram := { s.bbram with valid := false } }
  { s with power := { s.power with aon := false, backup := false, crystal := false, vbat := false } }

/-- VALUE of an alarm that comes with the loss of main power: the last two samples of a source still active, which are not both good
for a switch or the seal, or VBAT in mV; which they are is free (R425). -/
def cellValue (k r : Nat) : Nat := if k < 4 then r % 4 else if k < 7 then 1 + r % 3 else r % 65536

/-- Sources 0 to 7 that are active when main power goes count as alarms on the cell (R422). -/
def State.alarmsOnCell (s : State) : State :=
  s.each (below 8 (fun k => s.bit .tmpActive k)) (fun s k =>
    let (b, s) := s.draw 4
    s.backupAlarm k (cellValue k (leNat b)))

/-- Main power is gone: what a cold reset loses is lost, and the AON runs from the cell if there is one. -/
def State.losePower (s : State) : State :=
  let s := s.dropVddReset.finishWrites.enterReset true
  let s := ((s.wr .ddrStat 0).setFld .tmpActive 17 8 0).setFld .pwrRails 4 0 0
  let s : State := { s with
    power := { s.power with io := false, backup := s.power.vbat, por := false }
    tamper := { s.tamper with dip := none, holdStart := [] }
    pins := ⟨false, false, false, 0, s.pins.gpio, none, false, 0, [], true, false⟩ }
  if s.power.vbat then s.alarmsOnCell else s.loseAon

/-- MAIN_POWER_LOSS: VDD_IO has stayed below 1.62 V for 1 µs. -/
def execMainPowerLoss (s : State) : Answer := if s.power.io && !s.power.backup then .next s.losePower else .next s

/-! ### The backup cell and the crystal (R433, R469, R479) -/

/-- VBAT_APPLIED: an unpowered AON runs from the cell. -/
def execVbatApplied (s : State) : Answer :=
  let s := s.setBit .pwrRails 5 true
  .next { s with power := { s.power with vbat := true, backup := s.power.backup || !s.power.io, aon := true } }

/-- AON_SUPPLY_LOSS: the cell goes while main power is off. -/
def execAonSupplyLoss (s : State) : Answer := if s.power.io && !s.power.backup then .next s else .next (s.loseAon.setBit .pwrRails 5 false)

/-- CRYSTAL_START. -/
def execCrystalStart (s : State) : Answer := .next { s with power := { s.power with crystal := s.power.aon } }

/-- CRYSTAL_STOP. -/
def execCrystalStop (s : State) : Answer := .next { s with power := { s.power with crystal := false } }

/-! ### STANDBY (R454, R455) -/

/-- Every island that is not gated is gated; those are the ones that wake. -/
def State.gateAll (s : State) : State :=
  let on := below 8 (fun n => s.fld (.fabIslStat n) 6 4 != 3)
  let s := s.each (on.flatMap (fun n => (List.range 12).map (12 * n + ·))) (fun s t =>
    let st := s.tileState t
    (s.setTile t (·.gate st)).setTileState t 5)
  let s := s.each (below 96 (fun sh => s.shellState sh != 0)) (fun s sh => s.setShellState sh 5)
  let s := s.each on (fun s n => s.setFld (.fabIslStat n) 6 4 3)
  { s with boot := { s.boot with standbyGated := on } }

/-- D3hot: STANDBY from SERVICE and from HALTED, to which it then wakes. -/
def State.standby (s : State) : State :=
  let work := !s.jobs.isEmpty
  let busy := s.liveSlices.any (fun n => s.sliceState n == 1 || s.sliceState n == 2)
  let s : State := if s.devState = 2 then { s with tamper := { s.tamper with haltOwed := some (s.fld .tmpStatus 12 8) } } else s
  let s := if busy then s.endWork.settleQueues else s
  let s : State := { s with boot := { s.boot with workEnded := work } }
  let s := (s.gateAll.setBit .ddrStat 3 true).setFld .genState 3 0 4
  s.bump .pwrStbyCount

/-- D3HOT_ENTRY: a write of D3hot; outside SERVICE and HALTED, and during a life-cycle transition, only the D-state changes. -/
def execD3hotEntry (s : State) : Answer :=
  if !s.pcie.dlActive || s.pcie.dstate == 3 then .next s
  else
    let s : State := { s with pcie := { s.pcie with dstate := 3 } }
    if (s.devState = 1 ∨ s.devState = 2) ∧ s.transition.isNone then .next s.standby else .next s

/-- The islands that STANDBY gated wake: power returns and their tiles run BIST (R168). -/
def State.wakeIslands (s : State) : State :=
  let on := s.boot.standbyGated
  let s : State := { s with boot := { s.boot with standbyGated := [] } }
  (s.setBit .ddrStat 3 false).each on (fun s n => (s.setFld (.fabIslStat n) 6 4 2).powerOn n)

/-- SERVICE again, or HALTED where it is owed. -/
def State.backToService (s : State) : State := ((s.setFld .genState 3 0 1).wr .rstServiceNs (s.rd .genTime)).payHalt

/-- D0_WAKE: a write of D0; the wake from STANDBY took `us` microseconds. -/
def execD0Wake (us : Nat) (s : State) : Answer :=
  if !s.pcie.dlActive || s.pcie.dstate != 3 then .next s
  else
    let s : State := { s with pcie := { s.pcie with dstate := 0 } }
    if s.devState ≠ 4 then .next s
    else
      let s := s.wakeIslands.backToService.setFld .pwrStbyExitUs 15 0 us
      let s := if s.boot.workEnded then s.bumpBoot else s
      .next { s with boot := { s.boot with workEnded := false } }

/-! ### The link (R437 step 7, R441, R454) -/

/-- LINK_UP: the link reaches DL_Active. After a link reset the device is in SERVICE again, or stays HALTED, and GEN_BOOT_SEQ
rises; one that came in STANDBY wakes the device with it, in `us` microseconds (R455). -/
def execLinkUp (s : State) (us : Nat := 0) : Answer :=
  if s.pcie.dlActive || s.boot.held || !s.power.io || s.power.backup then .next s
  else
    let s : State := { s with pcie := { s.pcie with dlActive := true, perst := false } }
    if !s.boot.linkDown then .next s
    else
      let s : State := { s with boot := { s.boot with linkDown := false } }
      let s := if s.bit .ddrStat 3 then s.wakeIslands.setFld .pwrStbyExitUs 15 0 us else s
      let s := if s.devState = 0 then s.backToService else s
      .next s.bumpBoot

/-- ASPM_L1_2_CHANGE: only a link that is up enters L1.2. -/
def execAspmL12Change (on : Bool) (s : State) : Answer := .next (s.setBit .pwrState 18 (on && s.pcie.dlActive))

/-! ### Configuration space and MSI-X table (R40, R44, R66, R68) -/

/-- A write of the configuration space or of the MSI-X table; what it unmasks is sent. -/
def State.configWrite (s : State) (w : ConfigWrite) : State :=
  match w with
  | .maxPayload code => { s with pcie := { s.pcie with maxPayload := 128 * 2 ^ min 2 code } }
  | .maxRead code => { s with pcie := { s.pcie with maxRead := 128 * 2 ^ min 5 code } }
  | .relaxedOrdering on => { s with pcie := { s.pcie with relaxed := on } }
  | .busMaster on => ({ s with pcie := { s.pcie with busMaster := on } } : State).flushMsix
  | .pasidEnable on => { s with pcie := { s.pcie with pasidEnable := on } }
  | .functionMask on => ({ s with pcie := { s.pcie with functionMask := on } } : State).flushMsix
  | .vectorMask v on => ({ s with msix := tset v { s.vector v with mask := on } s.msix } : State).flushMsix
  | .vectorEntry v addr data => ({ s with msix := tset v { s.vector v with addr := addr, data := data } s.msix } : State).flushMsix

/-- PCIE_CONFIG_WRITE: nothing reaches a link that is down. -/
def execPcieConfigWrite (w : ConfigWrite) (s : State) : Answer := if s.pcie.dlActive then .next (s.configWrite w) else .next s

/-! ### What the device measures (R346, R407, R460) -/

/-- PWR_MW_UPDATE. -/
def execPwrMwUpdate (mw : Nat) (s : State) : Answer :=
  if !s.monitored then .next s
  else .next ((s.setFld .pwrMw 16 0 (min mw 0x1FFFF)).setFld .pwrMwPeak 16 0 (max (s.fld .pwrMwPeak 16 0) (min mw 0x1FFFF)))

/-- A temperature in the two's complement of its 9-bit field. -/
def tempField (c : Int) : Nat := (c % 512).toNat

/-- A signed 9-bit field's value. -/
def tempVal (x : Nat) : Int := if 256 ≤ x then (x : Int) - 512 else x

/-- MONITOR_SAMPLE: NOW, and the extremes since cold boot; or samples of a noise cell that are tested and not conditioned. -/
def State.sample (s : State) (m : Sample) : State :=
  match m with
  | .temp c =>
    let top := if s.tamper.sampled then max c (tempVal (s.fld .tmpTemp 24 16)) else c
    let s : State := { s with tamper := { s.tamper with sampled := true } }
    (s.setFld .tmpTemp 8 0 (tempField c)).setFld .tmpTemp 24 16 (tempField top)
  | .mag x => (s.setFld .tmpMag 9 0 (min x 1023)).setFld .tmpMag 25 16 (max (s.fld .tmpMag 25 16) (min x 1023))
  | .clk khz => s.setFld .tmpClk 15 0 khz
  | .mesh ins => s.meshPeriod ins
  | .vdd mv =>
    let low := s.fld .tmpVdd 41 32
    let s := (s.setFld .tmpVdd 25 16 mv).setFld .tmpVdd 41 32 (if low = 0 then mv else min low mv)
    { s with tamper := { s.tamper with dip := s.tamper.dip.map (fun d => { d with lowest := min d.lowest mv }) } }
  | .cell k bits =>
    -- a start-up test fails as such, whichever continuous test fails in it (R338, R346)
    if s.srcState = 0 ∨ s.srcState = 4 then s
    else match s.takeSamples (fun _ => k) bits with
      | (some (_, test), s) => s.healthFail k (if s.srcState = 2 then test else 2)
      | (none, s) => s

/-- SYSCLK is within 24.0 to 26.0 MHz, which the power-on reset waits for (R469). -/
def State.sysclkAt (s : State) (m : Sample) : State :=
  match m with
  | .clk khz => if s.power.io then { s with power := { s.power with sysclk := decide (24000 ≤ khz) && decide (khz ≤ 26000) } } else s
  | _ => s

/-- MONITOR_SAMPLE; the mesh is sampled on the cell too (R409). -/
def execMonitorSample (m : Sample) (s : State) : Answer :=
  let s := s.sysclkAt m
  match m with
  | .mesh ins => .next (s.meshPeriod ins)
  | _ => if s.monitored then .next (s.sample m) else .next s

end Sys2Proof.Machine
end

