-- ==== Sys2Proof/Machine/Flags.lean ====
section
/-! DEFINITION. Status fields and registers that show other state: what a read of each register of the maps answers (R5 to R7, R15,
R24, R46, R47, R57, R170 to R175, R210, R211, R245 to R247, R269, R270, R331, R332, R386, R406, R451, R460). -/

namespace Sys2Proof.Machine

/-- A 64-bit mask over numbers from `lo` on. -/
def maskFrom (lo n : Nat) (p : Nat → Bool) : DWord := BitVec.ofNat 64 (maskOf n (fun i => p (lo + i)))

/-! ### Slices and queues (R46, R47, R51) -/

/-- SLM_SLICE_QERR. -/
def State.sliceQerr (s : State) (n : Nat) : DWord := maskFrom (64 * n) 64 (fun q => s.queueState q == 2)

/-- SLM_SLICE_STAT. -/
def State.sliceStat (s : State) (n : Nat) : DWord := setF (s.rd (.slmSliceStat n)) 26 16 (s.sliceInflight n)

/-- A doorbell reads back its accepted value, and zero while the queue is DISABLED. -/
def State.bell (s : State) (r : Reg) (q : Nat) : DWord := if s.queueState q = 0 then 0 else BitVec.ofNat 64 (s.fld r 15 0)

/-- SLM_PG_QINFO. -/
def State.pageInfo (s : State) (q : Nat) : DWord :=
  BitVec.ofNat 64 (s.fld (.qmgQErr q) 7 0 + s.fld (.qmgQErr q) 9 8 * 2 ^ 8 + s.fld (.qmgQErr q) 31 16 * 2 ^ 16
    + getF (s.rptHead q) 15 0 * 2 ^ 32 + getF (s.rptHead q) 31 31 * 2 ^ 48 + s.queueState q * 2 ^ 56)

/-- A register of a slice page. -/
def State.pageView (s : State) : Reg → DWord
  | .slmPgSqdb n i => s.bell (.qmgQSqTail (64 * n + i)) (64 * n + i)
  | .slmPgCqdb n i => s.bell (.qmgQCqHead (64 * n + i)) (64 * n + i)
  | .slmPgStatus n => setF (BitVec.ofNat 64 (s.sliceState n)) 26 16 (s.sliceInflight n)
  | .slmPgQerr n => s.sliceQerr n
  | .slmPgBootSeq _ => s.rd .genBootSeq
  | .slmPgQinfo n i => s.pageInfo (64 * n + i)
  | _ => 0

/-! ### Fabric (R170 to R175, R210, R211) -/

/-- A job runs on the tile. -/
def State.tileBusy (s : State) (t : Nat) : Bool := (s.tile t).running

/-- Shells of a pool that run a job. -/
def State.busyShells (s : State) (p : Nat) : List Nat := below 96 (fun sh => s.shellIn p sh && !(s.onUnit (.shell sh)).isEmpty)

/-- FAB_POOL_STAT. -/
def State.poolStat (s : State) (p : Nat) : DWord :=
  match s.poolRec p with
  | none => 0
  | some x =>
    let live := (below 96 (fun sh => s.shellIn p sh && s.shellState sh == 1)).length
    BitVec.ofNat 64 (live + (s.busyShells p).length * 2 ^ 8 + s.poolState x * 2 ^ 16)

/-- FAB_ISL_STAT. -/
def State.islStat (s : State) (n : Nat) : DWord := setF (s.rd (.fabIslStat n)) 19 8 (maskOf 12 (fun i => s.tileBusy (12 * n + i)))

/-- TIL_STAT: PC is shown to an attached debugger only; the wipe takes no time of the model (log 4). -/
def State.tilStat (s : State) (t : Nat) : DWord :=
  let x := s.tile t
  BitVec.ofNat 64 ((if x.running then 1 else 0) + (if x.halt.isSome then 2 else 0)
    + (if s.bit (.tilDbgCtrl t) 0 then x.pc % 8192 * 2 ^ 8 else 0))

/-- TIL_PATCH_STAT of tile `t`: zero until the patch in force has been loaded into it and read back (R207, R209). -/
def State.patchStat (s : State) (t : Nat) : DWord :=
  match s.boot.patch with
  | none => 0
  | some p =>
    if (s.tile t).patch = p.words.map leNat ∧ (s.tile t).matchTab = p.entries then
      BitVec.ofNat 64 (1 + p.copy % 2 * 2 + p.svn % 64 * 2 ^ 8 + p.version % 65536 * 2 ^ 16 + p.entries.length % 128 * 2 ^ 32
        + p.words.length % 2048 * 2 ^ 40)
    else 0

/-- A TIL_DBG register: zero unless the tile-debug right is in force. -/
def State.dbgView (s : State) (r : Reg) : DWord :=
  if !s.tileDebug then 0
  else match r with
    | .tilDbgStat t => setB (s.rd r) 0 (s.tile t).halt.isSome
    | .tilDbgRdata t => s.dbgRead t
    | _ => s.rd r

/-! ### Hash field, RDE, BNE (R245 to R247, R269, R270) -/

/-- Jobs resident in a partition. -/
def State.partJobs (s : State) (k : Nat) : Nat :=
  (s.jobs.filter (fun j => decide (j.phase ≠ .sealed) && (below 128 (s.inPart k)).any (fun c => decide (.hash c ∈ j.units) || decide (c ∈ j.gang)))).length

/-- HSF_PART_STAT. -/
def State.partStat (s : State) (k : Nat) : DWord :=
  let live (lo : Nat) := (below 64 (fun i => s.inPart k (lo + i) && decide ((s.hcore (lo + i)).state = .inService))).length
  BitVec.ofNat 64 (live 0 + live 64 * 2 ^ 8 + s.partJobs k * 2 ^ 16)

/-- HSF_SCTR_INFO: a cell is bound to a key also while a slot still names it after it was freed (R231). -/
def State.sctrInfo (s : State) : DWord :=
  let n := s.fld .hsfSctrSel 9 0
  let c := s.cell n
  BitVec.ofNat 64 (c.gen % 65536 + (if c.state = .used ∨ !(s.cellSlots n).isEmpty then 2 ^ 16 else 0) + (if c.rebuilding then 2 ^ 17 else 0)
    + (if c.writing.isSome then 2 ^ 18 else 0))

/-- A context's register as its owner, or another claimant, reads it: another sees STATE, BUSY, OWNER and its path's CMD_STATUS. -/
def State.rdeView (s : State) (c : Nat) (who : Claimant) (r : Reg) : DWord :=
  let mine := decide ((s.rdeOf c).owner = some who)
  match r with
  | .rdeStatus _ =>
    let v := setF (s.rd r) 15 8 (tget 0 who (s.rdeOf c).cmd)
    if mine then v else setF v 6 4 0
  | _ => if mine then s.rd r else 0

/-- BNE_CORE_STATE. -/
def State.coreStat (s : State) (c : Nat) : DWord :=
  setB (setB (s.rd (.bneCoreState c)) 3 (s.runningOn c).isSome) 4 ((s.onCore c).any (·.yielded))

/-- Fetched jobs that wait for a group. -/
def State.groupWaiting (s : State) (g : Nat) : Nat :=
  match s.poolRec (s.fld (.bneGrpCfg g) 4 0) with
  | some p => (s.jobs.filter (fun j => (s.waitingFor p j.slice).any (fun x => decide (x.id = j.id)))).length
  | none => 0

/-- BNE_GRP_STAT; zero for a group that does not exist. -/
def State.grpStat (s : State) (g : Nat) : DWord :=
  if !s.bit (.bneGrpCfg g) 7 then 0
  else
    let cores := below 8 (fun c => s.bit (.bneGrpCfg g) (8 + c))
    BitVec.ofNat 64 ((cores.filter (fun c => s.bneState c == 1)).length + (cores.filter (fun c => (s.runningOn c).isSome)).length * 2 ^ 8
      + min 1024 (s.groupWaiting g) * 2 ^ 16)

/-! ### Keys, mailbox, power (R331, R332, R460) -/

/-- KEY_STATE. -/
def State.keyStat (s : State) : DWord :=
  BitVec.ofNat 64 ((if s.bbram.epoch.isSome then 1 else 0) + s.bbram.vault.length * 2 ^ 8)

/-- The attribute word of a vault entry. -/
def State.vaultAttr (s : State) (e : Nat) : DWord := ((s.bbram.vault.find? (fun x => x.1 == e)).map (·.2.1)).getD 0

/-- MBX_RSP: zero unless DONE. -/
def State.mbxRspWord (s : State) (ch i : Nat) : DWord :=
  if s.mbxState ch = 3 then BitVec.ofNat 64 (leAt (tget [] ch s.mbx.rsp) (8 * i) 8) else 0

/-- Islands that are gated. -/
def State.gatedIslands (s : State) : Nat := maskOf 8 (fun n => s.fld (.fabIslStat n) 6 4 == 3)

/-- PWR_STATE: TRIM while an island is gated, STANDBY in STANDBY. -/
def State.pwrStat (s : State) : DWord :=
  let st := if s.devState = 4 then 2 else if s.gatedIslands = 0 then 0 else 1
  BitVec.ofNat 64 (st + s.gatedIslands * 2 ^ 8 + s.pcie.dstate * 2 ^ 16 + s.fld .pwrState 18 18 * 2 ^ 18)

/-- GEN_XING_QUIET: the domains a start has not brought up yet, those with a unit in reset (R15, R24), and DM2 while PERST_N holds the
link in reset (R441; log 37). -/
def State.quietView (s : State) : DWord :=
  BitVec.ofNat 64 (s.fld .genXingQuiet 17 0 ||| maskOf 14 (fun d =>
    if d < 4 then d == 2 && s.pcie.perst
    else if d < 12 then (List.range 12).any (fun i => s.tileInReset (12 * (d - 4) + i))
    else if d = 12 then (List.range 128).any (fun k => decide ((s.hcore k).state = .offline))
    else (List.range 8).any (fun c => s.bneState c == 2)))

/-! ### One register -/

/-- What a register shows, before its write-only and reserved bits are blanked. -/
def State.show (s : State) (r : Reg) : DWord :=
  match r with
  | .genXingQuiet => s.quietView
  | .slmSliceStat n => s.sliceStat n
  | .slmSliceQerr n => s.sliceQerr n
  | .slmPgSqdb n _ | .slmPgCqdb n _ | .slmPgStatus n | .slmPgQerr n | .slmPgBootSeq n | .slmPgQinfo n _ =>
    if s.pageOpen n then s.pageView r else 0
  | .qmgQRptHead q => s.rptHead q
  | .qmgQInflight q => BitVec.ofNat 64 (s.queueInflight q)
  | .fabInsvcLo => maskFrom 0 64 (fun t => s.tileState t == 1)
  | .fabInsvcHi => maskFrom 64 32 (fun t => s.tileState t == 1)
  | .fabSpareLo => maskFrom 0 64 (fun t => s.tileState t == 2)
  | .fabSpareHi => maskFrom 64 32 (fun t => s.tileState t == 2)
  | .fabRetiredLo => maskFrom 0 64 (fun t => s.tileState t == 4)
  | .fabRetiredHi => maskFrom 64 32 (fun t => s.tileState t == 4)
  | .fabIslStat n => s.islStat n
  | .fabPoolStat p => s.poolStat p
  | .tilStat t => s.tilStat t
  | .tilPatchStat t => s.patchStat t
  | .tilDbgCtrl _ | .tilDbgStat _ | .tilDbgBp0 _ | .tilDbgBp1 _ | .tilDbgWp _ | .tilDbgRsel _ | .tilDbgRdata _ => s.dbgView r
  | .hsfKcInsvc => maskFrom 0 64 (fun k => decide ((s.hcore k).state = .inService))
  | .hsfShcInsvc => maskFrom 64 64 (fun k => decide ((s.hcore k).state = .inService))
  | .hsfKcRetired => maskFrom 0 64 (fun k => decide ((s.hcore k).state = .retired))
  | .hsfShcRetired => maskFrom 64 64 (fun k => decide ((s.hcore k).state = .retired))
  | .hsfMemoUsed => BitVec.ofNat 64 s.memoUsed
  | .hsfSctrLimit => BitVec.ofNat 64 (s.cell (s.fld .hsfSctrSel 9 0)).limit
  | .hsfSctrNext => BitVec.ofNat 64 ((s.cell (s.fld .hsfSctrSel 9 0)).next.getD (s.cell (s.fld .hsfSctrSel 9 0)).limit)
  | .hsfSctrInfo => s.sctrInfo
  | .hsfSctrCapacity => BitVec.ofNat 64 (s.cell (s.fld .hsfSctrSel 9 0)).cap
  | .rngStatus => setF (s.rd .rngStatus) 17 8 s.poolBytes
  | .hsfPartStat k => s.partStat k
  | .hsfPartDone k => if s.bit (.hsfPartCfg k) 7 then s.rd r else 0
  | .rdeStatus c | .rdeMode c | .rdeKey c | .rdeLen c | .rdeCount c | .rdeMsgs c | .rdeResult c _ | .rdeCtxId c => s.rdeView c .manager r
  | .bneCoreState c => s.coreStat c
  | .bneCoreRes c => BitVec.ofNat 64 (s.resEntries c + s.resBytes c * 2 ^ 8)
  | .bneGrpStat g => s.grpStat g
  | .bneGrpDone g => if s.bit (.bneGrpCfg g) 7 then s.rd r else 0
  | .keyState => s.keyStat
  | .keyEpochId => BitVec.ofNat 64 ((s.bbram.epoch.map (·.2)).getD 0)
  | .keySlotAttr => (s.slotAt (s.fld .keySlotSel 16 0)).attr
  | .keyUsed => BitVec.ofNat 64 (s.slots.filter (fun e => e.2.filled)).length
  | .keyVaultMap => maskFrom 0 64 (fun e => s.bbram.vault.any (fun x => x.1 == e))
  | .keyVaultAttr => s.vaultAttr (s.fld .keyVaultSel 5 0)
  | .mbxRsp ch i => s.mbxRspWord ch i
  | .dbgStat => s.dbgStatReg
  | .pwrState => s.pwrStat
  | _ => s.rd r

/-- The bits of a register that a read returns (R6, R7). -/
def Reg.readable (r : Reg) (v : DWord) : DWord :=
  r.fields.foldl (fun a f => if f.acc = .wo then a else setF a f.hi f.lo (getF v f.hi f.lo)) 0

/-- What a read of a register answers. -/
def State.readReg (s : State) (r : Reg) : DWord := if s.hidden r then 0 else r.readable (s.show r)

/-- What a slice's window shows of a context's register (R247). -/
def State.readRde (s : State) (c n : Nat) (r : Reg) : DWord :=
  if s.rdePath c (.slice n) && !s.hidden r then r.readable (s.rdeView c (.slice n) r) else 0

end Sys2Proof.Machine
end

