-- ==== Sys2Proof/Machine/Pins.lean ====
section
/-! DEFINITION. Host and I3C accesses to registers field by field (R5 to R8, R15, R22, R66), and the I3C and JTAG ports (R396, R477,
R478). -/

namespace Sys2Proof.Machine

/-! ### Writes of a register (R6 to R8) -/

/-- A field as a write leaves it: RW takes the value, a 1 clears W1C and sets W1S, the rest is ignored. -/
def Field.write (f : Field) (old v : DWord) : DWord :=
  match f.acc with
  | .rw => setF old f.hi f.lo (getF v f.hi f.lo)
  | .w1c => setF old f.hi f.lo (getF old f.hi f.lo &&& (getF old f.hi f.lo ^^^ getF v f.hi f.lo))
  | .w1s => setF old f.hi f.lo (getF old f.hi f.lo ||| getF v f.hi f.lo)
  | _ => old

/-- A register that only stores what its fields take. -/
def State.writeFields (s : State) (r : Reg) (v : DWord) : State := s.wr r (r.fields.foldl (fun old f => f.write old v) (s.rd r))

/-- A write of FAB_ISL_CTRL: FREQ, then GATE if it changes (R166, R168). -/
def State.writeIslCtrl (s : State) (n : Nat) (v : DWord) : State :=
  let gated := s.bit (.fabIslCtrl n) 4
  let s := s.writeFreq n (getF v 1 0)
  if getB v 4 && !gated then s.writeGate n else if !getB v 4 && gated then s.writeUngate n else s

/-- A write of a context's register through a path (R236 to R241); RDE_EXPECT is the owner's to write. -/
def State.writeRde (s : State) (who : Claimant) (r : Reg) (v : DWord) : State :=
  match r with
  | .rdeCmd c => s.rdeCommand c who (getF v 1 0)
  | .rdeMode c => s.rdeSetup c who .mode v
  | .rdeKey c => s.rdeSetup c who .key v
  | .rdeLen c => s.rdeSetup c who .len v
  | .rdeData c => ((s.sweepClaimant who).asOwner c who (fun s => s.rdeTake c who v)).sweepDue
  | .rdeFinish c => ((s.sweepClaimant who).rdeFinish c who (getF v 47 0)).sweepDue
  | .rdeExpect c j => s.asOwner c who (fun s => s.wr (.rdeExpect c j) v)
  | _ => s

/-- A write of a debug register of a tile (R211). -/
def State.writeTileDebug (s : State) (r : Reg) (v : DWord) : State :=
  let s := s.sweepReg .dbgRights
  match r with
  | .tilDbgCtrl t => s.writeDbgCtrl t v
  | .tilDbgRsel t => s.writeRsel t v
  | .tilDbgRdata t => s.dbgWrite t v
  | _ => if s.tileDebug then s.writeFields r v else s

/-- A write of a register by the host, or by I3C to channel 1, at its width. -/
def State.writeReg (s : State) (r : Reg) (v : DWord) : State :=
  match r with
  | .slmSliceCtrl n => s.sliceCtrl n v
  | .slmSlicePasid _ | .slmSliceDrbg _ | .slmSliceKeywin _ | .slmSlicePools _ | .slmSliceWeight _ _ | .slmSliceRde _
  | .slmSliceDdrBase _ | .slmSliceDdrSize _ | .slmSliceDmawinBase _ _ | .slmSliceDmawinLimit _ _ => s.writeSliceCfg r v
  | .slmSliceMsix n => s.writeVecCount n v
  | .slmPgSqdb n i => s.sqDoorbell n i 64 v
  | .slmPgCqdb n i => s.cqDoorbell n i 64 v
  | .slmPgQrestart n => s.pageRestart n v
  | .qmgQCtrl q => s.writeQueueCtrl q v
  | .qmgQSize _ | .qmgQSqBase _ | .qmgQCqBase _ | .qmgQMod _ => s.writeQueueCfg r v
  | .fabMcLimit => s.setFld r 3 0 (max 1 (getF v 3 0))
  | .fabIslCtrl n => s.writeIslCtrl n v
  | .fabPoolCtrl p => s.writePoolHold p v
  | .fabTileCmd t => s.tileCmd t (getF v 1 0)
  | .tilDbgCtrl _ | .tilDbgStat _ | .tilDbgBp0 _ | .tilDbgBp1 _ | .tilDbgWp _ | .tilDbgRsel _ | .tilDbgRdata _ => s.writeTileDebug r v
  | .hsfCoreCmd => s.hashCmd (getF v 6 0) (getF v 9 8)
  | .rdeCmd _ | .rdeMode _ | .rdeKey _ | .rdeLen _ | .rdeData _ | .rdeFinish _ | .rdeExpect _ _ => s.writeRde .manager r v
  | .bneResQuota => s.setFld r 6 0 (min 64 (getF v 6 0))
  | .bneCoreCmd => s.bneCmd (getF v 2 0) (getF v 9 8)
  | .mbxCtrl ch => s.writeMbxCtrl ch v
  | .mbxCmd ch | .mbxReqLen ch | .mbxReq ch _ => s.writeMbxReq r ch v
  | .rngCtrl => s.writeRngCtrl v
  | .memBankHandover b => s.writeHandover b v
  | .memBankAper b => s.writeAper b v
  | .ddrScrubCtrl => s.writeScrub v
  | .ddrFillBase => s.writeFillBase v
  | .ddrFillLen => s.writeFillLen v
  | .ddrFillCtrl => if getB v 0 then s.fillGo else s
  | .tmpAlarm => s.writeTmpAlarm v
  | .tmpStatus => s.writeTmpStatus v
  | .tmpCtrl => if getB v 0 then s.resumeNow else s
  | .tmpVdd => s.writeTmpVdd v
  | .tmpTempCtrl => s.writeTempCtrl v
  | .rstCtrl => s.writeRstCtrl v
  | .rstBlock => s.writeRstBlock v
  | _ => s.writeFields r v

/-! ### Where an access lands (R5, R20 to R22, R47, R66) -/

/-- What an offset of a path names: a register, a context's register in a slice page, an MSI-X table or pending-bit word, a view of a
bank, or nothing. -/
inductive Target where
  | reg (r : Reg)
  | rde (c n : Nat) (r : Reg)
  | msix (v part : Nat)
  | pba (word : Nat)
  | bank (view off : Nat)
  | nothing
  deriving DecidableEq, Repr

/-- The register at an offset of a path. -/
def State.target (s : State) (bus : Bus) (off : Nat) : Target :=
  match bus with
  | .bar0 =>
    if 0x8000 ≤ off ∧ off < 0x10000 then .msix ((off - 0x8000) / 16) (off % 16 / 4)
    else if 0x4000 ≤ off ∧ off < 0x4100 then .pba ((off - 0x4000) / 8)
    else match Reg.ofBar0 off with
      | some r => .reg r
      | none => .nothing
  | .bar2 =>
    let n := off / 0x1000
    let o := off % 0x1000
    if 0x200000 ≤ off then .nothing
    else if 0x800 ≤ o ∧ o < 0xC00 then
      match Reg.ofRde (s.fld (.slmSliceRde n) 3 0) (o - 0x800) with
      | some r => .rde (s.fld (.slmSliceRde n) 3 0) n r
      | none => .nothing
    else match Reg.ofBar2 off with
      | some r => .reg r
      | none => .nothing
  | .bar4 => if off < 0xC000000 then .bank (off / 0x4000000) (off % 0x4000000) else .nothing
  | .i3c => match Reg.ofMbx 1 off with
    | some r => .reg r
    | none => .nothing

/-- The access has the width and alignment of a register (R5). -/
def fits (r : Reg) (off width : Nat) : Bool := width == r.width && off % (width / 8) == 0

/-! ### MSI-X table and pending bits (R66, R68) -/

/-- An entry as its two 64-bit halves: the address; the data with vector control above it. -/
def MsixEntry.half (e : MsixEntry) (hi : Bool) : DWord :=
  if hi then BitVec.ofNat 64 (e.data.toNat + (if e.mask then 2 ^ 32 else 0)) else e.addr

/-- An entry with one half replaced. -/
def MsixEntry.setHalf (e : MsixEntry) (hi : Bool) (v : DWord) : MsixEntry :=
  if hi then { e with data := v.setWidth 32, mask := getB v 32 } else { e with addr := setF v 1 0 0 }

/-- An access of the MSI-X table or the pending-bit array that the PCIe specification requires (R5): a DWORD, or an aligned QWORD. -/
def msixFits (off width : Nat) : Bool := (width == 32 || width == 64) && off % (width / 8) == 0

/-- A DWORD, or an aligned QWORD, of a half changed. -/
def mergeWord (old : DWord) (part width : Nat) (v : DWord) : DWord :=
  if width = 64 then v else if part % 2 = 0 then setF old 31 0 (getF v 31 0) else setF old 63 32 (getF v 31 0)

/-- A write of the table; what it unmasks is sent. -/
def State.writeMsix (s : State) (e part width : Nat) (v : DWord) : State :=
  let x := s.vector e
  ({ s with msix := tset e (x.setHalf (2 ≤ part) (mergeWord (x.half (2 ≤ part)) part width v)) s.msix } : State).flushMsix

/-- The bytes of a word at a width. -/
def wordBytes (width : Nat) (v : DWord) : Bytes := leBytes (width / 8) v.toNat

/-- A read of part of a 64-bit word at a width. -/
def partBytes (width part : Nat) (v : DWord) : Bytes :=
  if width = 64 then wordBytes 64 v else leBytes 4 (if part % 2 = 0 then getF v 31 0 else getF v 63 32)

/-- A word of the pending-bit array. -/
def State.pbaWord (s : State) (w : Nat) : DWord := maskFrom (64 * w) 64 (fun v => decide (v ∈ s.msixPend))

/-! ### REGISTER_WRITE -/

/-- A write at an offset of a path. -/
def State.busWrite (s : State) (bus : Bus) (off width : Nat) (v : DWord) : State :=
  let v := BitVec.ofNat 64 (v.toNat % 2 ^ width)
  match s.target bus off with
  | .reg r => if fits r off width then s.hostTo r (fun s => s.writeReg r v) else s
  | .rde c n r => if fits r off width && s.rdePath c (.slice n) then s.writeRde (.slice n) r v else s
  | .msix e part => if msixFits off width then s.writeMsix e part width v else s
  | .bank 0 o => s.bar4Normal o (.write ((wordBytes width v).map some)) .clean
  | .bank view o => s.aliasWrite (view == 1) o width v
  | .pba _ | .nothing => s

/-- The I3C port answers: VDD_IO is present and no reset holds it (R477). -/
def State.i3cAnswers (s : State) : Bool := s.power.io && !s.power.backup && !s.boot.held

/-- REGISTER_WRITE: a write by the host or, through I3C, of channel 1, whose offset the port keeps. -/
def execRegisterWrite (bus : Bus) (off width : Nat) (v : DWord) (s : State) : Answer :=
  if bus = Bus.i3c then
    if !s.i3cAnswers then .next s
    else .next (({ s with pins := { s.pins with i3cAddr := off % 2 ^ 16 } } : State).busWrite bus off width v)
  else .next (s.busWrite bus off width v)

/-! ### RC_READ (R6) -/

/-- A read clears the RC fields; `ev` is what lands in the same cycle, and counts in the value after the read. -/
def State.clearRc (s : State) (r : Reg) (ev : Nat) : State :=
  if r.fields.any (fun f => decide (f.acc = .rc)) then
    s.wr r (r.fields.foldl (fun old f => if f.acc = .rc then setF old f.hi f.lo (min ev (2 ^ (f.hi + 1 - f.lo) - 1)) else old) (s.rd r))
  else s

/-- What a read uses is compared with its shadow first (R302, R427): a shadowed register, or the slot whose word KEY_SLOT_ATTR
shows. -/
def State.readUses (s : State) (r : Reg) : State :=
  match r with
  | .keySlotAttr => s.sweepSlot (s.fld .keySlotSel 16 0)
  | .tilDbgCtrl _ | .tilDbgStat _ | .tilDbgBp0 _ | .tilDbgBp1 _ | .tilDbgWp _ | .tilDbgRsel _ | .tilDbgRdata _ => s.sweepReg .dbgRights
  | _ => if r.shadowed then s.sweepReg r else s

/-- A read of a register: its value, its RC fields cleared, TMP_TIME's time latched (R424). -/
def State.readOf (s : State) (r : Reg) (width ev : Nat) : State :=
  let s := if s.hidden r then s else s.readUses r
  let bs := wordBytes width (s.readReg r)
  if s.hidden r then s.answer bs
  else if r = .tmpTime then s.latchTime.answer bs
  else (s.clearRc r ev).answer bs

/-- A read at an offset of a path. -/
def State.busRead (s : State) (bus : Bus) (off width ev : Nat) (ecc : Ecc) : State :=
  match s.target bus off with
  | .reg r => if fits r off width then s.readOf r width ev else s.answer (zeros (width / 8))
  | .rde c n r => s.answer (if fits r off width then wordBytes width (s.readRde c n r) else zeros (width / 8))
  | .msix e part =>
    s.answer (if msixFits off width then partBytes width part ((s.vector e).half (2 ≤ part)) else zeros (width / 8))
  | .pba w => s.answer (if msixFits off width then partBytes width (off % 8 / 4) (s.pbaWord w) else zeros (width / 8))
  | .bank 0 o => s.bar4Normal o (.read (width / 8)) ecc
  | .bank _ o => s.aliasRead o (width / 8) ecc
  | .nothing => s.answer (zeros (width / 8))

/-- RC_READ: a read by the host, or through I3C, which then stands at the next register. -/
def execRcRead (bus : Bus) (off width ev : Nat) (s : State) (ecc : Ecc := .clean) : Answer :=
  if bus = Bus.i3c then
    if !s.i3cAnswers then .next s
    else .next (({ s with pins := { s.pins with i3cAddr := (off + width / 8) % 2 ^ 16 } } : State).busRead bus off width ev ecc)
  else .next (s.busRead bus off width ev ecc)

/-! ### I3C common commands (R477) -/

/-- The static address. -/
def State.i3cStatic (s : State) : Nat := 0x4C + s.pins.gpio % 4

/-- The provisional ID, most significant byte first as the bus sends it. -/
def State.i3cPid (s : State) : Bytes := beBytes 6 (Config.mipiCode.toNat * 2 ^ 33 + 0x9640 * 2 ^ 16 + s.pins.gpio % 4)

/-- A common command that reaches the target. -/
def State.i3cCommand (s : State) (cc : I3cCommand) : State :=
  match cc with
  | .entdaa a => if s.pins.dynAddr.isNone then { s with pins := { s.pins with dynAddr := some a } } else s
  | .setdasa a => if s.pins.dynAddr.isNone then { s with pins := { s.pins with dynAddr := some a } } else s
  | .setnewda a => if s.pins.dynAddr.isSome then { s with pins := { s.pins with dynAddr := some a } } else s
  | .rstdaa => { s with pins := { s.pins with dynAddr := none } }
  | .enec => { s with pins := { s.pins with ibi := true } }
  | .disec => { s with pins := { s.pins with ibi := false } }
  | .getpid => s.answer s.i3cPid
  | .getbcr => s.answer [Config.i3cCharacteristic 0]
  | .getdcr => s.answer [Config.i3cCharacteristic 1]
  | .getstatus =>
    let (bs, s) := s.draw 2
    s.answer bs
  | .getmwl => s.answer (beBytes 2 10)
  | .getmrl => s.answer (beBytes 2 8)

/-- I3C_COMMON_COMMAND. -/
def execI3cCommonCommand (cc : I3cCommand) (s : State) : Answer := if s.i3cAnswers then .next (s.i3cCommand cc) else .next s

/-! ### JTAG (R396, R478) -/

/-- IDCODE. -/
def State.idcode (s : State) : Nat := s.fld .genId 11 8 * 2 ^ 28 + 0x9640 * 2 ^ 12 + Config.jep106.toNat * 2 + 1

/-- A register that counts what a block does: what PERF shows. -/
def Reg.counts (r : Reg) : Bool :=
  match r with
  | .slmSliceCancelCnt _ | .qmgQCompleted _ | .fabIslJobs _ | .fabPoolDone _ | .fabPoolRetry _ | .tilKfaultCnt _ | .tilJobs _ | .tilBusyTc _
  | .hsfPartDone _ | .rdeMsgs _ | .bneCoreJobs _ | .bneCoreBusy _ | .bneCoreYields _ | .bneGrpDone _ | .mbxSeq _ | .rngCellSamples _
  | .rngDrbReseeds _ | .rngDrbReqs _ | .memBankViol _ | .memBankCe _ | .memBankUe _ | .tmpSrcCount _ | .genRetryCnt | .genAbortCnt
  | .fabCeCount | .fabMcCount | .hsfMcCount | .hsfMemoRebuilt | .hsfSctrWaits | .bneMcCount | .bneYieldCount | .bneHandlesLost
  | .keyShadowErr | .keyHmacHits | .keyHmacMisses | .rngHtFails | .rngReseeds | .rngPrCount | .memSramCe | .memSramUe | .ddrCeCount
  | .ddrUeCount | .dbgOpens | .tmpDipCount | .tmpIntegCount | .rstWarmCount | .pwrStbyCount => true
  | _ => false

/-- The trace buffers: 256 MiB of LPDDR5X (Table 11-2). -/
def traceBase : Nat := 0xA4000000

/-- A debug access to memory by device address: nothing from U on (R370), or before it can be read. -/
def State.debugDdr (s : State) (a : Nat) (acc : MemAccess) : State :=
  if s.ddrReady && decide (a + accessLen acc ≤ s.fld .ddrUsable 36 0) then s.ddrAccess a acc .clean else s.noAccess acc

/-- A debug access to the scratch banks. DESIGN CHOICE (log 83): the JTAG bus master reaches them through the port of owner 0, so an access
that touches a bank with another owner, or one that changes hands, is one of R361. -/
def State.debugBank (s : State) (a : Nat) (acc : MemAccess) : State :=
  if 16 * bankSize < a + accessLen acc then s.noAccess acc
  else match firstBelow 16 (fun b => decide (bankSize * b < a + accessLen acc) && decide (a < bankSize * (b + 1)) && !s.ownsBank 0 b) with
    | some b => (s.bankViolation b).noAccess acc
    | none => s.bankAccess a acc .clean

/-- Halting, stepping and reading through a right of Table 12-6: BNE cores (4), hash cores and RDE contexts (5), the SC (6) and scan
chains (8). DESIGN CHOICE (log 83): what is read is a free value, and one step of a halted unit shows nowhere else. What halting or
stepping the SC or a scan chain does is not stated. -/
def State.coreDebug (s : State) (k : Nat) (op : CoreOp) : Answer :=
  match op with
  | .read _ n =>
    let (bs, s) := s.draw n
    .next (s.answer bs)
  | .halt u => if k < 6 then .next { s with dbg := { s.dbg with halted := (k, u) :: s.dbg.halted } } else .refused (.unstatedUnit "debug port")
  | .resume u => if k < 6 then .next { s with dbg := { s.dbg with halted := s.dbg.halted.filter (· != (k, u)) } } else .refused (.unstatedUnit "debug port")
  | .step _ => if k < 6 then .next s else .refused (.unstatedUnit "debug port")

/-- A TAP event that leaves Test-Logic-Reset, with no boundary-scan drive. -/
def State.tapRun (s : State) : State := { s with pins := { s.pins with tapReset := false, scan := [] } }

/-- JTAG_ACCESS: IDCODE, BYPASS and SAMPLE always; the rest under its right, from a DBG_RIGHTS compared with its shadow (R427). -/
def execJtagAccess (op : JtagOp) (s : State) : Answer :=
  if !s.power.io || s.power.backup || s.boot.held then .next s
  else
  let s := s.sweepReg .dbgRights
  match op with
    | .trst => .next { s with pins := { s.pins with tapReset := true, scan := [], bypass := false } }
    | .idcode => .next (s.tapRun.answer (leBytes 4 s.idcode))
    | .bypass b =>
      let s := s.tapRun.answer [if s.pins.bypass then 1 else 0]
      .next { s with pins := { s.pins with bypass := b } }
    | .sample ps => .next (s.tapRun.answer ps)
    | .extest ps | .intest ps =>
      if s.right 2 then .next { s.tapRun with pins := { s.tapRun.pins with scan := ps } } else .next s
    | .trace a n => if s.right 0 && decide (a + n ≤ 0x10000000) then .next (s.debugDdr (traceBase + a) (.read n)) else .next s
    | .perf off =>
      match Reg.ofBar0 off with
      | some r => if s.right 1 && r.counts then .next (s.readOf r r.width 0) else .next s
      | none => .next s
    | .memRead ddr a n => if !s.right 7 then .next s else .next (if ddr then s.debugDdr a (.read n) else s.debugBank a (.read n))
    | .memWrite ddr a bs =>
      if !s.right 7 then .next s
      else .next (if ddr then s.debugDdr a (.write (bs.map some)) else s.debugBank a (.write (bs.map some)))
    | .coreDebug k op => if s.right k && decide (k ∈ [4, 5, 6, 8]) then s.coreDebug k op else .next s

end Sys2Proof.Machine
end

