-- ==== Sys2Proof/Machine/Seal.lean ====
section
/-! DEFINITION. The seal: after it no fault of the engine's domain reaches the job (R16, R17, R34, R420). -/

namespace Sys2Proof.Machine

/-- Cycles of an operation on one BNE core (Table 07-1, R251): none where the table gives none. `k` is an RSA modulus in bytes; a
public RSA operation has the table's time with e = 65,537. -/
def opCycles (op set k words e : Nat) : Option Nat :=
  let of (l : List Nat) (i : Nat) : Option Nat := (l[i]?).bind (fun x => if x = 0 then none else some x)
  let rsa (l : List Nat) : Option Nat := if k = 256 then of l 0 else if k = 384 then of l 1 else if k = 512 then of l 2 else none
  match op with
  | 0x0801 => of [21000, 53200] (set - 1)
  | 0x0802 => of [24920, 62160, 154000] (set - 1)
  | 0x0803 => of [56000, 140000, 350000] (set - 1)
  | 0x0806 => of [49000, 123200] (set - 1)
  | 0x0901 => of [1680, 7000] (set - 1)
  | 0x0906 => of [18620, 84000] (set - 1)
  | 0x0902 => of [15960, 67200] (set - 3)
  | 0x0903 => of [42000, 182000] (set - 3)
  | 0x0A02 | 0x0A05 | 0x0A08 => rsa [140000, 471800, 1120000]
  | 0x0A03 | 0x0A04 | 0x0A09 => if e = 65537 then rsa [9338, 21000, 36400] else none
  | 0x0B01 => some (40 + 3 * words ^ 2)
  | 0x0B02 => some ((64 * words + 8) * (3 * words ^ 2 + 40))
  | 0x0B03 => some ((1024 + 64 * words) * words)
  | 0x1001 => of [1680, 53200] (set - 1)
  | 0x1002 => of [20300, 176400] (set - 1)
  | 0x1003 => of [18620, 123200] (set - 1)
  | _ => none

/-- The validation window of a SEC 1 point, by its first byte and length (Table 07-2). -/
def pointWindow (set : Nat) (bs : Bytes) : Nat :=
  let tag := leAt bs 0 1
  if tag ≠ 2 ∧ tag ≠ 3 ∧ tag ≠ 4 then 96 else if tag = 4 then pick [1400, 2520, 4480] set else pick [9800, 21000, 30800] set

/-- The validation window of a job on a BNE core (R253): the sum of its operands' windows. -/
def windowCycles (j : Job) : Nat :=
  let d := j.desc
  let set := pSet (dParam d)
  let raw := 96 + 8 * (set + 1)
  let rsa := 96 + rsaK j
  let inl := if pInline (dParam d) then rsa else 0
  match dOp d with
  | 0x0803 => if pInline (dParam d) then pointWindow set j.in2 else 0
  | 0x0806 | 0x0807 => pointWindow set j.in2
  | 0x0903 => pick [0, 0, 4200, 8400] set
  | 0x0A03 | 0x0A04 => inl
  | 0x0A05 | 0x0A08 => rsa
  | 0x0A09 => rsa + inl
  | 0x0B01 | 0x0B02 => 3 * raw
  | 0x0B03 => 2 * raw
  | 0x0B04 => raw
  | 0x1002 | 0x1003 => if set = 2 then pointWindow 2 (j.main.take 97) else 0
  | _ => 0

/-- A refusal that comes of the computation and not of step 6: no inverse (R128), an OAEP decoding that fails (R125). -/
def lateRefusal (j : Job) (r : Result) : Bool :=
  (dOp j.desc == 0x0B03 && r.detail == 1 + 256 * 7) || (dOp j.desc == 0x0A05 && r.detail == 1 + 256 * 8)

/-- Cycles a job, or the classical half of one, spent on its core: its window where step 6 refused it, else the operation's; none
where the spec fixes no number. The compatibility mode's wipe counts too (R252). -/
def State.jobCycles (s : State) (j : Job) (r : Option Result) : Option Nat :=
  let refused := (r.map (fun r => decide (0x10 ≤ r.status) && decide (r.status ≤ 0x12) && !lateRefusal j r)).getD false
  let e := if pInline (dParam j.desc) then leAt j.desc 96 8 else (rsaKey j.key).e
  let n := if refused || dOp j.desc == 0x0807 then some (windowCycles j)
    else opCycles (dOp j.desc) (pSet (dParam j.desc)) (rsaK j) (pSet (dParam j.desc) + 1) e
  n.map (· + (if s.bit (.slmSliceCtrl j.slice) 4 then 2048 else 0))

/-- What the counters of a unit record of a sealed job or half with result `r`: the core's jobs and cycles. -/
def State.countSealed (s : State) (u : JobUnit) (j : Job) (r : Option Result) : State :=
  match u with
  | .bne c _ =>
    let s := s.bump64 (.bneCoreJobs c)
    match s.jobCycles j r with
    | some n => s.moreCycles (.bneCoreBusy c) n
    | none => s.addCycles (.bneCoreBusy c)
  | .shell _ | .hash _ | .sc => s

/-- A unit's part of a job is sealed: the unit is free. -/
def State.sealUnit (s : State) (j : Job) (u : Option JobUnit) (r : Option Result) : State :=
  match u with
  | some u => (s.countSealed u j r).vacated j.slice u
  | none => s

/-- Seal a half of a hybrid job whose result stands (R18). -/
def State.sealHalf (s : State) (j : Nat) (pq : Bool) : State :=
  match s.job? j with
  | none => s
  | some x =>
    let h := if pq then x.pq else x.classical
    if h.phase ≠ .computed ∨ x.phase = .sealed then s
    else if x.suspect then s.retryHalf j pq false
    else
      (s.setJob j (fun y => if pq then { y with pq := { h with phase := .sealed } } else { y with classical := { h with phase := .sealed } })).sealUnit
        x h.unit h.result

/-- Seal a job whose result stands, or the halves of a hybrid job; nothing is sealed during a dip (R420). -/
def State.sealJob (s : State) (j : Nat) : State :=
  match s.job? j with
  | none => s
  | some x =>
    if s.tamper.dip.isSome then s
    else if x.phase = .computed then
      if x.suspect then s.retry j false
      else
        let s := s.setJob j (fun y => { y with phase := .sealed })
        (s.sealUnit x x.unit x.result).each (x.gang.map JobUnit.hash) (fun s u => s.vacated x.slice u)
    else if dClass x.desc = 0x10 then (s.sealHalf j true).sealHalf j false
    else s

/-- JOB_SEALED: the result of job `j` passes its checks and is sealed. -/
def execJobSealed (j : Nat) (s : State) : Answer := .next (s.departing (·.sealJob j))

end Sys2Proof.Machine
end

