-- ==== Sys2Proof/Machine/Dispatch.lean ====
section
/-! DEFINITION. The effect of each command: one arm per constructor of Instr. -/

namespace Sys2Proof.Machine

/-- The effect of a command on everything but the queue. -/
def exec (i : Instr) (s : State) : Host.Outcome State Fault Refusal :=
  match i with
  | .registerWrite bus off width v => Sys2Proof.Machine.execRegisterWrite bus off width v s
  | .rcRead bus off width ev ecc => Sys2Proof.Machine.execRcRead bus off width ev s ecc
  | .pcieConfigWrite w => Sys2Proof.Machine.execPcieConfigWrite w s
  | .sqDoorbell n ring width v => Sys2Proof.Machine.execSqDoorbell n ring width v s
  | .cqDoorbell n ring width v => Sys2Proof.Machine.execCqDoorbell n ring width v s
  | .descriptorFetch q d gl => Sys2Proof.Machine.execDescriptorFetch q d gl s
  | .jobDispatch p u ue => Sys2Proof.Machine.execJobDispatch p u s ue
  | .jobSealed j => Sys2Proof.Machine.execJobSealed j s
  | .completionEntryWrite j outUe cqUe cqCe => Sys2Proof.Machine.execCompletionEntryWrite j outUe cqUe s cqCe
  | .modTimeExpiry q => Sys2Proof.Machine.execModTimeExpiry q s
  | .hybridJoin j => Sys2Proof.Machine.execHybridJoin j s
  | .queueEnable q v => Sys2Proof.Machine.execQueueEnable q v s
  | .queueDisable q v => Sys2Proof.Machine.execQueueDisable q v s
  | .qmgQRestart q v ue => Sys2Proof.Machine.execQmgQRestart q v s ue
  | .slmPgQrestart n v ue => Sys2Proof.Machine.execSlmPgQrestart n v s ue
  | .sliceEnable n v => Sys2Proof.Machine.execSliceEnable n v s
  | .sliceQuiesce n v => Sys2Proof.Machine.execSliceQuiesce n v s
  | .sliceUnquiesce n v => Sys2Proof.Machine.execSliceUnquiesce n v s
  | .sliceReset n v => Sys2Proof.Machine.execSliceReset n v s
  | .sliceDisable n v => Sys2Proof.Machine.execSliceDisable n v s
  | .sliceResetComplete n => Sys2Proof.Machine.execSliceResetComplete n s
  | .bneCompatSet n v => Sys2Proof.Machine.execBneCompatSet n v s
  | .vecCountWrite n v => Sys2Proof.Machine.execVecCountWrite n v s
  | .poolHoldWrite p v => Sys2Proof.Machine.execPoolHoldWrite p v s
  | .mlkemKeygen j => Sys2Proof.Machine.execMlkemKeygen j s
  | .mlkemEncaps j => Sys2Proof.Machine.execMlkemEncaps j s
  | .mlkemDecaps j => Sys2Proof.Machine.execMlkemDecaps j s
  | .mldsaKeygen j => Sys2Proof.Machine.execMldsaKeygen j s
  | .mldsaSign j => Sys2Proof.Machine.execMldsaSign j s
  | .mldsaVerify j => Sys2Proof.Machine.execMldsaVerify j s
  | .slhdsaKeygen j => Sys2Proof.Machine.execSlhdsaKeygen j s
  | .slhdsaSign j ue => Sys2Proof.Machine.execSlhdsaSign j s ue
  | .slhdsaVerify j => Sys2Proof.Machine.execSlhdsaVerify j s
  | .lmsKeygen j => Sys2Proof.Machine.execLmsKeygen j s
  | .lmsSign j => Sys2Proof.Machine.execLmsSign j s
  | .lmsVerify j => Sys2Proof.Machine.execLmsVerify j s
  | .xmssKeygen j => Sys2Proof.Machine.execXmssKeygen j s
  | .xmssSign j => Sys2Proof.Machine.execXmssSign j s
  | .xmssVerify j => Sys2Proof.Machine.execXmssVerify j s
  | .hqcKeygen j => Sys2Proof.Machine.execHqcKeygen j s
  | .hqcEncaps j => Sys2Proof.Machine.execHqcEncaps j s
  | .hqcDecaps j => Sys2Proof.Machine.execHqcDecaps j s
  | .eccKeygen j => Sys2Proof.Machine.execEccKeygen j s
  | .eccSign j => Sys2Proof.Machine.execEccSign j s
  | .eccVerify j => Sys2Proof.Machine.execEccVerify j s
  | .eccDerive j => Sys2Proof.Machine.execEccDerive j s
  | .checkPublic j => Sys2Proof.Machine.execCheckPublic j s
  | .edmontKeygen j => Sys2Proof.Machine.execEdmontKeygen j s
  | .edmontSign j => Sys2Proof.Machine.execEdmontSign j s
  | .edmontVerify j => Sys2Proof.Machine.execEdmontVerify j s
  | .edmontDerive j => Sys2Proof.Machine.execEdmontDerive j s
  | .rsaKeygen j => Sys2Proof.Machine.execRsaKeygen j s
  | .rsaSign j => Sys2Proof.Machine.execRsaSign j s
  | .rsaVerify j => Sys2Proof.Machine.execRsaVerify j s
  | .rsaEncrypt j => Sys2Proof.Machine.execRsaEncrypt j s
  | .rsaDecrypt j => Sys2Proof.Machine.execRsaDecrypt j s
  | .rawPrivate j => Sys2Proof.Machine.execRawPrivate j s
  | .rawPublic j => Sys2Proof.Machine.execRawPublic j s
  | .modmul j => Sys2Proof.Machine.execModmul j s
  | .modexp j => Sys2Proof.Machine.execModexp j s
  | .modinv j => Sys2Proof.Machine.execModinv j s
  | .loadOperand j => Sys2Proof.Machine.execLoadOperand j s
  | .freeHandle j => Sys2Proof.Machine.execFreeHandle j s
  | .digest j => Sys2Proof.Machine.execDigest j s
  | .xof j => Sys2Proof.Machine.execXof j s
  | .macTag j => Sys2Proof.Machine.execMacTag j s
  | .macVerify j => Sys2Proof.Machine.execMacVerify j s
  | .generate j => Sys2Proof.Machine.execGenerate j s
  | .importKey j => Sys2Proof.Machine.execImportKey j s
  | .wrap j => Sys2Proof.Machine.execWrap j s
  | .unwrap j => Sys2Proof.Machine.execUnwrap j s
  | .destroy j => Sys2Proof.Machine.execDestroy j s
  | .attest j => Sys2Proof.Machine.execAttest j s
  | .setMemoDepth j => Sys2Proof.Machine.execSetMemoDepth j s
  | .getPublic j => Sys2Proof.Machine.execGetPublic j s
  | .randomBytes j => Sys2Proof.Machine.execRandomBytes j s
  | .hybridKeygen j => Sys2Proof.Machine.execHybridKeygen j s
  | .hybridEncaps j => Sys2Proof.Machine.execHybridEncaps j s
  | .hybridDecaps j => Sys2Proof.Machine.execHybridDecaps j s
  | .linkReset k => Sys2Proof.Machine.execLinkReset k s
  | .d0Wake us => Sys2Proof.Machine.execD0Wake us s
  | .watchdogExpiry t => Sys2Proof.Machine.execWatchdogExpiry t s
  | .ringTimeout t => Sys2Proof.Machine.execRingTimeout t s
  | .tileIdleScrub t found => Sys2Proof.Machine.execTileIdleScrub t found s
  | .sparePeriodicBist t => Sys2Proof.Machine.execSparePeriodicBist t s
  | .spareJoin t sh ok => Sys2Proof.Machine.execSpareJoin t sh ok s
  | .tileBistComplete t ok => Sys2Proof.Machine.execTileBistComplete t ok s
  | .maskReseedRequest t => Sys2Proof.Machine.execMaskReseedRequest t s
  | .maskBudgetSpent t => Sys2Proof.Machine.execMaskBudgetSpent t s
  | .tilDbgAttach t on => Sys2Proof.Machine.execTilDbgAttach t on s
  | .tilDbgHalt t beats => Sys2Proof.Machine.execTilDbgHalt t s beats
  | .tilDbgResume t => Sys2Proof.Machine.execTilDbgResume t s
  | .tilDbgStep t => Sys2Proof.Machine.execTilDbgStep t s
  | .tilDbgAbandon t => Sys2Proof.Machine.execTilDbgAbandon t s
  | .fabTileBringUp t => Sys2Proof.Machine.execFabTileBringUp t s
  | .fabTileRetire t => Sys2Proof.Machine.execFabTileRetire t s
  | .islandFreqWrite n fq => Sys2Proof.Machine.execIslandFreqWrite n fq s
  | .islandGate n => Sys2Proof.Machine.execIslandGate n s
  | .islandPowerOff n => Sys2Proof.Machine.execIslandPowerOff n s
  | .islandUngate n => Sys2Proof.Machine.execIslandUngate n s
  | .islandPowerOn n => Sys2Proof.Machine.execIslandPowerOn n s
  | .nop t f => Sys2Proof.Machine.execNop t f s
  | .br t f => Sys2Proof.Machine.execBr t f s
  | .endKernel t f => Sys2Proof.Machine.execEndKernel t f s
  | .wait t f => Sys2Proof.Machine.execWait t f s
  | .csrr t f => Sys2Proof.Machine.execCsrr t f s
  | .csrw t f => Sys2Proof.Machine.execCsrw t f s
  | .sadd t f => Sys2Proof.Machine.execSadd t f s
  | .ssub t f => Sys2Proof.Machine.execSsub t f s
  | .smul t f => Sys2Proof.Machine.execSmul t f s
  | .sand t f => Sys2Proof.Machine.execSand t f s
  | .sor t f => Sys2Proof.Machine.execSor t f s
  | .sxor t f => Sys2Proof.Machine.execSxor t f s
  | .sshl t f => Sys2Proof.Machine.execSshl t f s
  | .sshr t f => Sys2Proof.Machine.execSshr t f s
  | .saddi t f => Sys2Proof.Machine.execSaddi t f s
  | .sli t f => Sys2Proof.Machine.execSli t f s
  | .slh t f => Sys2Proof.Machine.execSlh t f s
  | .scmp t f => Sys2Proof.Machine.execScmp t f s
  | .vadd t f => Sys2Proof.Machine.execVadd t f s
  | .vsub t f => Sys2Proof.Machine.execVsub t f s
  | .vaddm t f => Sys2Proof.Machine.execVaddm t f s
  | .vsubm t f => Sys2Proof.Machine.execVsubm t f s
  | .vmulm t f => Sys2Proof.Machine.execVmulm t f s
  | .vand t f => Sys2Proof.Machine.execVand t f s
  | .vor t f => Sys2Proof.Machine.execVor t f s
  | .vxor t f => Sys2Proof.Machine.execVxor t f s
  | .vshl t f => Sys2Proof.Machine.execVshl t f s
  | .vshr t f => Sys2Proof.Machine.execVshr t f s
  | .vmulh t f => Sys2Proof.Machine.execVmulh t f s
  | .vclmul t f => Sys2Proof.Machine.execVclmul t f s
  | .vbcast t f => Sys2Proof.Machine.execVbcast t f s
  | .vext t f => Sys2Proof.Machine.execVext t f s
  | .vperm t f => Sys2Proof.Machine.execVperm t f s
  | .padd t f => Sys2Proof.Machine.execPadd t f s
  | .psub t f => Sys2Proof.Machine.execPsub t f s
  | .paddm t f => Sys2Proof.Machine.execPaddm t f s
  | .psubm t f => Sys2Proof.Machine.execPsubm t f s
  | .pmulm t f => Sys2Proof.Machine.execPmulm t f s
  | .pmacm t f => Sys2Proof.Machine.execPmacm t f s
  | .pand t f => Sys2Proof.Machine.execPand t f s
  | .pxor t f => Sys2Proof.Machine.execPxor t f s
  | .pshl t f => Sys2Proof.Machine.execPshl t f s
  | .pshr t f => Sys2Proof.Machine.execPshr t f s
  | .pmulh t f => Sys2Proof.Machine.execPmulh t f s
  | .pclmul t f => Sys2Proof.Machine.execPclmul t f s
  | .pmov t f => Sys2Proof.Machine.execPmov t f s
  | .mrefr t f => Sys2Proof.Machine.execMrefr t f s
  | .mskp t f => Sys2Proof.Machine.execMskp t f s
  | .ntt t f => Sys2Proof.Machine.execNtt t f s
  | .intt t f => Sys2Proof.Machine.execIntt t f s
  | .cbd t f => Sys2Proof.Machine.execCbd t f s
  | .sampu t f => Sys2Proof.Machine.execSampu t f s
  | .sampeta t f => Sys2Proof.Machine.execSampeta t f s
  | .sib t f => Sys2Proof.Machine.execSib t f s
  | .comp t f => Sys2Proof.Machine.execComp t f s
  | .decompr t f => Sys2Proof.Machine.execDecompr t f s
  | .decomp t f => Sys2Proof.Machine.execDecomp t f s
  | .p2r t f => Sys2Proof.Machine.execP2r t f s
  | .mkhint t f => Sys2Proof.Machine.execMkhint t f s
  | .usehint t f => Sys2Proof.Machine.execUsehint t f s
  | .normchk t f => Sys2Proof.Machine.execNormchk t f s
  | .pack t f => Sys2Proof.Machine.execPack t f s
  | .unpack t f => Sys2Proof.Machine.execUnpack t f s
  | .conv t f => Sys2Proof.Machine.execConv t f s
  | .lds t f => Sys2Proof.Machine.execLds t f s
  | .sts t f => Sys2Proof.Machine.execSts t f s
  | .ldv t f => Sys2Proof.Machine.execLdv t f s
  | .stv t f => Sys2Proof.Machine.execStv t f s
  | .ldp t f => Sys2Proof.Machine.execLdp t f s
  | .stp t f => Sys2Proof.Machine.execStp t f s
  | .ldpx t f => Sys2Proof.Machine.execLdpx t f s
  | .spinit t f => Sys2Proof.Machine.execSpinit t f s
  | .spabs t f => Sys2Proof.Machine.execSpabs t f s
  | .spfin t f => Sys2Proof.Machine.execSpfin t f s
  | .spsqz t f => Sys2Proof.Machine.execSpsqz t f s
  | .rsend t f => Sys2Proof.Machine.execRsend t f s
  | .rrecv t f => Sys2Proof.Machine.execRrecv t f s
  | .dmain t f => Sys2Proof.Machine.execDmain t f s
  | .rand t f => Sys2Proof.Machine.execRand t f s
  | .ringTransferArrival t parityOk => Sys2Proof.Machine.execRingTransferArrival t s parityOk
  | .dmainComplete t d => Sys2Proof.Machine.execDmainComplete t d s
  | .randComplete t => Sys2Proof.Machine.execRandComplete t s
  | .hsfCoreMachineCheck k => Sys2Proof.Machine.execHsfCoreMachineCheck k s
  | .hsfCoreBistComplete k ok => Sys2Proof.Machine.execHsfCoreBistComplete k ok s
  | .hsfCoreBringUp k => Sys2Proof.Machine.execHsfCoreBringUp k s
  | .hsfCoreRetire k => Sys2Proof.Machine.execHsfCoreRetire k s
  | .messageSegmentFetch j d => Sys2Proof.Machine.execMessageSegmentFetch j d s
  | .counterWriteAck c => Sys2Proof.Machine.execCounterWriteAck c s
  | .cellFreeAck c => Sys2Proof.Machine.execCellFreeAck c s
  | .traversalRebuildDone c => Sys2Proof.Machine.execTraversalRebuildDone c s
  | .rdeClaim c who => Sys2Proof.Machine.execRdeClaim c who s
  | .rdeRelease c who => Sys2Proof.Machine.execRdeRelease c who s
  | .rdeClear c who => Sys2Proof.Machine.execRdeClear c who s
  | .rdeSetupWrite c who r v => Sys2Proof.Machine.execRdeSetupWrite c who r v s
  | .rdeData c who width v ue => Sys2Proof.Machine.execRdeData c who width v s ue
  | .rdeFinish c who v ue => Sys2Proof.Machine.execRdeFinish c who v s ue
  | .rdeFinishDone c => Sys2Proof.Machine.execRdeFinishDone c s
  | .catchPoint c => Sys2Proof.Machine.execCatchPoint c s
  | .bneResume c => Sys2Proof.Machine.execBneResume c s
  | .bneMachineCheck c cause => Sys2Proof.Machine.execBneMachineCheck c cause s
  | .bneCoreBistComplete c ok => Sys2Proof.Machine.execBneCoreBistComplete c ok s
  | .bneCoreBringUp c => Sys2Proof.Machine.execBneCoreBringUp c s
  | .bneCoreRetire c => Sys2Proof.Machine.execBneCoreRetire c s
  | .rigStage d => Sys2Proof.Machine.execRigStage d s
  | .flashWriteCommit ok => Sys2Proof.Machine.execFlashWriteCommit ok s
  | .rigPartialCommit ok => Sys2Proof.Machine.execRigPartialCommit ok s
  | .rigPartialComplete failed => Sys2Proof.Machine.execRigPartialComplete failed s
  | .mbxClear ch => Sys2Proof.Machine.execMbxClear ch s
  | .keyWrite d => Sys2Proof.Machine.execKeyWrite d s
  | .lcTransitionDrained w => Sys2Proof.Machine.execLcTransitionDrained w s
  | .presencePress jmp sealOpen => Sys2Proof.Machine.execPresencePress jmp sealOpen s
  | .fwWrite d flashOk => Sys2Proof.Machine.execFwWrite d s flashOk
  | .patchWrite d flashOk => Sys2Proof.Machine.execPatchWrite d s flashOk
  | .tamperAlarm k val same => Sys2Proof.Machine.execTamperAlarm k val same s
  | .sourceInactive k => Sys2Proof.Machine.execSourceInactive k s
  | .supplyDip mv same => Sys2Proof.Machine.execSupplyDip mv s same
  | .dipRecovery mv us => Sys2Proof.Machine.execDipRecovery mv us s
  | .dipHalt mv => Sys2Proof.Machine.execDipHalt mv s
  | .backupAlarm k val => Sys2Proof.Machine.execBackupAlarm k val s
  | .tmpVddWrite v => Sys2Proof.Machine.execTmpVddWrite v s
  | .tmpTempCtrlWrite v => Sys2Proof.Machine.execTmpTempCtrlWrite v s
  | .healthTestFailure cell test also => Sys2Proof.Machine.execHealthTestFailure cell test s also
  | .sourceRestartEnd fail samples => Sys2Proof.Machine.execSourceRestartEnd fail s samples
  | .drbgReseedRequest k => Sys2Proof.Machine.execDrbgReseedRequest k s
  | .drbgAtLimit k => Sys2Proof.Machine.execDrbgAtLimit k s
  | .bankHandover b v => Sys2Proof.Machine.execBankHandover b v s
  | .bankHandoverDrained b => Sys2Proof.Machine.execBankHandoverDrained b s
  | .bankWipeDone b => Sys2Proof.Machine.execBankWipeDone b s
  | .bar4NormalAccess off acc ecc => Sys2Proof.Machine.execBar4NormalAccess off acc ecc s
  | .setAliasWrite off width v ecc => Sys2Proof.Machine.execSetAliasWrite off width v s ecc
  | .clearAliasWrite off width v ecc => Sys2Proof.Machine.execClearAliasWrite off width v s ecc
  | .fetchAndSet who a v ecc job => Sys2Proof.Machine.execFetchAndSet who a v s ecc job
  | .fetchAndClear who a v ecc job => Sys2Proof.Machine.execFetchAndClear who a v s ecc job
  | .apertureAccess off acc ecc => Sys2Proof.Machine.execApertureAccess off acc ecc s
  | .patrolScrubPass ce ue => Sys2Proof.Machine.execPatrolScrubPass ce ue s
  | .ddrMachineCheck cause => Sys2Proof.Machine.execDdrMachineCheck cause s
  | .crossingQuietTimeout dm u => Sys2Proof.Machine.execCrossingQuietTimeout dm u s
  | .rstBlock kind idx => Sys2Proof.Machine.execRstBlock kind idx s
  | .blockResetBistDone ok => Sys2Proof.Machine.execBlockResetBistDone ok s
  | .resetNInput ns => Sys2Proof.Machine.execResetNInput ns s
  | .resetRelease refreshOk groupOk => Sys2Proof.Machine.execResetRelease refreshOk s groupOk
  | .ddrTrainingDone mask gib mts => Sys2Proof.Machine.execDdrTrainingDone mask gib mts s
  | .startComplete us => Sys2Proof.Machine.execStartComplete us s
  | .startFailure why => Sys2Proof.Machine.execStartFailure why s
  | .rdeBlockProcessed c => Sys2Proof.Machine.execRdeBlockProcessed c s
  | .inputsGathered j main in2 in3 ctx => Sys2Proof.Machine.execInputsGathered j main in2 in3 ctx s
  | .railRangeChange r ok => Sys2Proof.Machine.execRailRangeChange r ok s
  | .jtagAccess op => Sys2Proof.Machine.execJtagAccess op s
  | .i3cCommonCommand cc => Sys2Proof.Machine.execI3cCommonCommand cc s
  | .monitorSample m => Sys2Proof.Machine.execMonitorSample m s
  | .pwrMwUpdate mw => Sys2Proof.Machine.execPwrMwUpdate mw s
  | .aspmL12Change on => Sys2Proof.Machine.execAspmL12Change on s
  | .linkUp us => Sys2Proof.Machine.execLinkUp s us
  | .d3hotEntry => Sys2Proof.Machine.execD3hotEntry s
  | .rigCheck => Sys2Proof.Machine.execRigCheck s
  | .rigWrite => Sys2Proof.Machine.execRigWrite s
  | .rigPartial => Sys2Proof.Machine.execRigPartial s
  | .rigPartialDrained => Sys2Proof.Machine.execRigPartialDrained s
  | .rigAuthRotate => Sys2Proof.Machine.execRigAuthRotate s
  | .rigInfo => Sys2Proof.Machine.execRigInfo s
  | .mbxPut => Sys2Proof.Machine.execMbxPut s
  | .keySetAttr => Sys2Proof.Machine.execKeySetAttr s
  | .keyDestroy => Sys2Proof.Machine.execKeyDestroy s
  | .keyGetPublic ue => Sys2Proof.Machine.execKeyGetPublic s ue
  | .keyAttest ue => Sys2Proof.Machine.execKeyAttest s ue
  | .vaultStore ue => Sys2Proof.Machine.execVaultStore s ue
  | .vaultLoad => Sys2Proof.Machine.execVaultLoad s
  | .vaultErase => Sys2Proof.Machine.execVaultErase s
  | .vaultClear => Sys2Proof.Machine.execVaultClear s
  | .vaultInfo => Sys2Proof.Machine.execVaultInfo s
  | .getIdentity => Sys2Proof.Machine.execGetIdentity s
  | .attestIdentity => Sys2Proof.Machine.execAttestIdentity s
  | .zeroise => Sys2Proof.Machine.execZeroise s
  | .lcStatus => Sys2Proof.Machine.execLcStatus s
  | .lcAdvance => Sys2Proof.Machine.execLcAdvance s
  | .dbgChallenge => Sys2Proof.Machine.execDbgChallenge s
  | .dbgOpen => Sys2Proof.Machine.execDbgOpen s
  | .dbgClose => Sys2Proof.Machine.execDbgClose s
  | .dbgSetAuth => Sys2Proof.Machine.execDbgSetAuth s
  | .dbgRevoke => Sys2Proof.Machine.execDbgRevoke s
  | .challengeLapse => Sys2Proof.Machine.execChallengeLapse s
  | .presenceTimeout => Sys2Proof.Machine.execPresenceTimeout s
  | .restart => Sys2Proof.Machine.execRestart s
  | .bootInfo => Sys2Proof.Machine.execBootInfo s
  | .shadowSweep => Sys2Proof.Machine.execShadowSweep s
  | .tmpResume => Sys2Proof.Machine.execTmpResume s
  | .tmpTimeRead => Sys2Proof.Machine.execTmpTimeRead s
  | .conditionedBlock samples => Sys2Proof.Machine.execConditionedBlock s samples
  | .reseedServed => Sys2Proof.Machine.execReseedServed s
  | .restartCountClear => Sys2Proof.Machine.execRestartCountClear s
  | .rngRearm => Sys2Proof.Machine.execRngRearm s
  | .rngRestart => Sys2Proof.Machine.execRngRestart s
  | .ddrFillGo => Sys2Proof.Machine.execDdrFillGo s
  | .ddrFillDone => Sys2Proof.Machine.execDdrFillDone s
  | .rstCtrlWarm => Sys2Proof.Machine.execRstCtrlWarm s
  | .rstCtrlCold => Sys2Proof.Machine.execRstCtrlCold s
  | .scWatchdogExpiry => Sys2Proof.Machine.execScWatchdogExpiry s
  | .scFatal => Sys2Proof.Machine.execScFatal s
  | .ddrInitDone => Sys2Proof.Machine.execDdrInitDone s
  | .startTimeout => Sys2Proof.Machine.execStartTimeout s
  | .bootAttemptsClear => Sys2Proof.Machine.execBootAttemptsClear s
  | .mainPowerOn => Sys2Proof.Machine.execMainPowerOn s
  | .porRelease => Sys2Proof.Machine.execPorRelease s
  | .mainPowerLoss => Sys2Proof.Machine.execMainPowerLoss s
  | .vbatApplied => Sys2Proof.Machine.execVbatApplied s
  | .aonSupplyLoss => Sys2Proof.Machine.execAonSupplyLoss s
  | .crystalStart => Sys2Proof.Machine.execCrystalStart s
  | .crystalStop => Sys2Proof.Machine.execCrystalStop s

end Sys2Proof.Machine
end

