-- ==== Sys2Proof/Machine/Idle.lean ====
section
/-! DEFINITION. The tick of an idle device: GEN_TIME, the AON timestamp and a block reset under way (R13, R24, R424). -/

namespace Sys2Proof.Machine

/-- One nanosecond of the AON timestamp: 32,768 subseconds a second, while the AON runs from the crystal (R424). -/
def State.aonTick (s : State) : State :=
  if !(s.power.aon && s.power.crystal) then s
  else
    let r := s.power.rest + 32768
    let s := { s with power := { s.power with rest := r % 1000000000 } }
    if r < 1000000000 then s
    else
      let sub := s.fld .tmpTime 14 0
      if sub = 32767 then (s.setFld .tmpTime 14 0 0).setFld .tmpTime 63 16 (s.fld .tmpTime 63 16 + 1)
      else s.setFld .tmpTime 14 0 (sub + 1)

/-- RESET_N's own pulse ends 10 ms after the trigger, and the pin is read again 100 µs later (R440); a count that the power-on reset holds
begins at its release. -/
def State.pulseTick (s : State) : State :=
  if s.power.por || s.pins.resetLeft = 0 then s
  else { s with pins := { s.pins with resetLeft := s.pins.resetLeft - 1, resetLow := s.pins.resetLow && decide (100001 < s.pins.resetLeft) } }

/-- A running fill goes on by as many lines as a free value says, in the order of their addresses, unless a dip pauses it (R379, R381;
log 30). -/
def State.fillTick (s : State) : State :=
  if s.fld .ddrFillCtrl 5 4 ≠ 1 ∨ s.bit .genState 4 then s
  else
    let (bs, s) := s.draw 4
    let n := leNat bs % (s.ddrFill.2 / 64 + 1) * 64
    { s with ddr := if s.ddrReady then Memory.clear s.ddrFill.1 (s.ddrFill.1 + n) s.ddr else s.ddr
             ddrFill := (s.ddrFill.1 + n, s.ddrFill.2 - n) }

/-- A tick of one nanosecond: GEN_TIME counts while main power is on, a block reset goes on by one stage, a fill by some lines, the
button is released (log 2). -/
def State.idleTick (s : State) : State :=
  (if s.power.backup || !s.power.io then s else ((s.bump64 .genTime).setBit .lcsPp 0 false).blockAdvance.pulseTick.fillTick).aonTick

end Sys2Proof.Machine
end

