-- ==== Sys2Proof/Machine/Levels.lean ====
section
/-! DEFINITION. The levels of the pins (Table 15-4). -/

namespace Sys2Proof.Machine

/-- Signals of Table 15-4. -/
inductive Signal where
  | pcie | refclk | perstN | clkreqN | sysclk | ddr | ddrResetN | xspiCsN | xspiResetN | xspiClk | xspiDq | i3c | tapIn | trstN | tdo
  | gpio | strap | alarmN | resetN | platHoldN | tamper | crystal
  deriving DecidableEq, Repr

/-- What a signal shows: an input, not driven, driven, electrical idle with the receiver terminations off, CA and CS holding the memory
in self-refresh, or what its interface does. -/
inductive Level where
  | input | highZ | clamped | low | high | idle | selfRefresh | active
  deriving DecidableEq, Repr

/-- Unpowered: the clamped signals, and those of the AON, which is powered by VDD_IO, VBAT or the backup cell. -/
def State.unpoweredLevel (s : State) : Signal → Level
  | .sysclk | .xspiCsN | .xspiResetN | .xspiClk | .xspiDq | .tapIn | .trstN | .tdo | .gpio | .strap => .clamped
  | .tamper | .crystal => if s.power.aon then .active else .highZ
  | _ => .highZ

/-- Powered: what the reset columns and the rules R417, R440 and R442 hold, else the interface's own. -/
def State.poweredLevel (s : State) (x : Signal) : Level :=
  let reset (l : Level) : Level := if s.boot.held then l else .active
  match x with
  | .refclk | .perstN | .sysclk | .tapIn | .trstN | .gpio | .strap => .input
  | .pcie => reset .idle
  | .clkreqN | .xspiResetN | .xspiClk => reset .low
  | .ddr => reset (if s.boot.cold then .highZ else .selfRefresh)
  | .ddrResetN => reset (if s.boot.cold then .low else .high)
  | .xspiCsN => reset .high
  | .xspiDq | .i3c | .tdo => reset .highZ
  | .alarmN => if s.pins.alarmLow then .low else .highZ
  | .resetN => if s.pins.resetLow then .low else .highZ
  | .platHoldN => if s.pins.holdReleased then .high else .low
  | .tamper | .crystal => .active

/-- The level of a signal (R465). -/
def State.level (s : State) (x : Signal) : Level := if s.power.io then s.poweredLevel x else s.unpoweredLevel x

end Sys2Proof.Machine
end

