-- ==== Sys2Proof/Safety.lean ====
section
/-! DEFINITION. The terms the statements use: which operation a job command runs, which opcode a tile command issues, when a tile
takes an instruction, and the invariants of the device. -/

namespace Sys2Proof.Machine

/-! ### Job commands -/

/-- The commands that run a job's computation by one operation: the job's number and the operation. -/
def jobRow : Instr → Option (Nat × JobOp)
  | .mlkemKeygen j => some (j, mlkemKeygen) | .mlkemEncaps j => some (j, mlkemEncaps) | .mlkemDecaps j => some (j, mlkemDecaps)
  | .mldsaKeygen j => some (j, mldsaKeygen) | .mldsaSign j => some (j, mldsaSign) | .mldsaVerify j => some (j, mldsaVerify)
  | .slhdsaKeygen j => some (j, slhdsaKeygen) | .slhdsaVerify j => some (j, slhdsaVerify)
  | .lmsVerify j => some (j, lmsVerify) | .xmssVerify j => some (j, xmssVerify)
  | .hqcKeygen j => some (j, hqcKeygen) | .hqcEncaps j => some (j, hqcEncaps) | .hqcDecaps j => some (j, hqcDecaps)
  | .eccKeygen j => some (j, eccKeygen) | .eccSign j => some (j, eccSign) | .eccVerify j => some (j, eccVerify)
  | .eccDerive j => some (j, eccDerive) | .checkPublic j => some (j, checkPublic)
  | .edmontKeygen j => some (j, edmontKeygen) | .edmontSign j => some (j, edmontSign) | .edmontVerify j => some (j, edmontVerify)
  | .edmontDerive j => some (j, edmontDerive)
  | .rsaKeygen j => some (j, rsaKeygen) | .rsaVerify j => some (j, rsaVerify) | .rsaEncrypt j => some (j, rsaEncrypt)
  | .rawPublic j => some (j, rawPublic)
  | .modmul j => some (j, modmul) | .modexp j => some (j, modexp) | .modinv j => some (j, modinv)
  | .digest j => some (j, digestOp) | .xof j => some (j, xofOp)
  | .generate j => some (j, generateOp) | .importKey j => some (j, importOp) | .wrap j => some (j, wrapOp)
  | .unwrap j => some (j, unwrapOp) | .attest j => some (j, attestOp) | .setMemoDepth j => some (j, setMemoOp)
  | .getPublic j => some (j, getPublicOp) | .randomBytes j => some (j, randomOp)
  | _ => none

/-- The commands that run the halves of a hybrid job: the job, its opcode, the post-quantum and the classical half. -/
def hybridRow : Instr → Option (Nat × Nat × HalfOp × HalfOp)
  | .hybridKeygen j => some (j, 0x1001, keygenPq, keygenClassical) | .hybridEncaps j => some (j, 0x1002, encapsPq, encapsClassical)
  | .hybridDecaps j => some (j, 0x1003, decapsPq, decapsClassical)
  | _ => none

/-- The parts of the device that no running job's computation touches. -/
structure SameElsewhere (s t : State) : Prop where
  slots : t.slots = s.slots
  cells : t.cells = s.cells
  sram : t.sram = s.sram
  ddr : t.ddr = s.ddr
  otp : t.otp = s.otp
  bbram : t.bbram = s.bbram
  flash : t.flash = s.flash
  pcie : t.pcie = s.pcie
  qx : t.qx = s.qx
  cox : t.cox = s.cox
  rig : t.rig = s.rig
  hcores : t.hcores = s.hcores
  bcores : t.bcores = s.bcores
  rde : t.rde = s.rde
  mbx : t.mbx = s.mbx
  boot : t.boot = s.boot
  power : t.power = s.power
  pins : t.pins = s.pins
  pending : t.pending = s.pending

/-! ### Tile commands -/

/-- The commands that issue an instruction on a tile: tile, fields, opcode (Table 05-5). -/
def tileRow : Instr → Option (Nat × TileFields × Nat)
  | .nop t f => some (t, f, 0x00) | .br t f => some (t, f, 0x01) | .endKernel t f => some (t, f, 0x02) | .wait t f => some (t, f, 0x03)
  | .csrr t f => some (t, f, 0x04) | .csrw t f => some (t, f, 0x05) | .sadd t f => some (t, f, 0x10) | .ssub t f => some (t, f, 0x11)
  | .smul t f => some (t, f, 0x12) | .sand t f => some (t, f, 0x13) | .sor t f => some (t, f, 0x14) | .sxor t f => some (t, f, 0x15)
  | .sshl t f => some (t, f, 0x16) | .sshr t f => some (t, f, 0x17) | .saddi t f => some (t, f, 0x18) | .sli t f => some (t, f, 0x19)
  | .slh t f => some (t, f, 0x1A) | .scmp t f => some (t, f, 0x1B) | .vadd t f => some (t, f, 0x20) | .vsub t f => some (t, f, 0x21)
  | .vaddm t f => some (t, f, 0x22) | .vsubm t f => some (t, f, 0x23) | .vmulm t f => some (t, f, 0x24) | .vand t f => some (t, f, 0x25)
  | .vor t f => some (t, f, 0x26) | .vxor t f => some (t, f, 0x27) | .vshl t f => some (t, f, 0x28) | .vshr t f => some (t, f, 0x29)
  | .vmulh t f => some (t, f, 0x2A) | .vclmul t f => some (t, f, 0x2B) | .vbcast t f => some (t, f, 0x2C) | .vext t f => some (t, f, 0x2D)
  | .vperm t f => some (t, f, 0x2E) | .padd t f => some (t, f, 0x30) | .psub t f => some (t, f, 0x31) | .paddm t f => some (t, f, 0x32)
  | .psubm t f => some (t, f, 0x33) | .pmulm t f => some (t, f, 0x34) | .pmacm t f => some (t, f, 0x35) | .pand t f => some (t, f, 0x36)
  | .pxor t f => some (t, f, 0x37) | .pshl t f => some (t, f, 0x38) | .pshr t f => some (t, f, 0x39) | .pmulh t f => some (t, f, 0x3A)
  | .pclmul t f => some (t, f, 0x3B) | .pmov t f => some (t, f, 0x3C) | .mrefr t f => some (t, f, 0x3D) | .mskp t f => some (t, f, 0x3E)
  | .ntt t f => some (t, f, 0x40) | .intt t f => some (t, f, 0x41) | .cbd t f => some (t, f, 0x42) | .sampu t f => some (t, f, 0x43)
  | .sampeta t f => some (t, f, 0x44) | .sib t f => some (t, f, 0x45) | .comp t f => some (t, f, 0x46) | .decompr t f => some (t, f, 0x47)
  | .decomp t f => some (t, f, 0x48) | .p2r t f => some (t, f, 0x49) | .mkhint t f => some (t, f, 0x4A) | .usehint t f => some (t, f, 0x4B)
  | .normchk t f => some (t, f, 0x4C) | .pack t f => some (t, f, 0x4D) | .unpack t f => some (t, f, 0x4E) | .conv t f => some (t, f, 0x4F)
  | .lds t f => some (t, f, 0x50) | .sts t f => some (t, f, 0x51) | .ldv t f => some (t, f, 0x52) | .stv t f => some (t, f, 0x53)
  | .ldp t f => some (t, f, 0x54) | .stp t f => some (t, f, 0x55) | .ldpx t f => some (t, f, 0x56) | .spinit t f => some (t, f, 0x60)
  | .spabs t f => some (t, f, 0x61) | .spfin t f => some (t, f, 0x62) | .spsqz t f => some (t, f, 0x63) | .rsend t f => some (t, f, 0x70)
  | .rrecv t f => some (t, f, 0x71) | .dmain t f => some (t, f, 0x72) | .rand t f => some (t, f, 0x73)
  | _ => none

/-- The DRBG instance of tile `t`'s island serves a request: it is instantiated, and not at its limit (R342). -/
def State.seedServed (s : State) (t : Nat) : Bool :=
  s.drbState (s.maskDrb t) != 0 && s.drbState (s.maskDrb t) != 3 && decide (s.fld (.rngDrbCount (s.maskDrb t)) 20 0 < 1048576)

/-- Tile `t` takes the word and runs it to its end: it runs a kernel, is not halted, no breakpoint stops it, no HALT is due, the word is
defined, and the microcode of a microcoded instruction reaches its last word. -/
def State.takes (s : State) (t op : Nat) (f : TileFields) : Bool :=
  (s.tile t).issues && (s.tile t).haltIn.isNone && !(s.breakHit t (s.tile t).pc && !(s.tile t).passBp) && wordLegal op f
    && (!isMicro op || (s.tile t).microcode s.freeCtr op == .done)

/-- Tile `t` at the next instruction. -/
def State.nextTile (s : State) (t : Nat) : Tile := { s.tile t with pc := ((s.tile t).pc + 1) % 8192, passBp := false }

/-- The same with its mask FIFO drawn from as instruction `op` draws when it begins. -/
def State.drawnTile (s : State) (t op : Nat) (f : TileFields) : Tile :=
  { ((s.tile t).drawCtx op f).2 with pc := ((s.tile t).pc + 1) % 8192, passBp := false }

/-- What instruction `op` of tile `t` is given: the tile as drawn from at the next instruction, its fields, a fresh draw, what it has
drawn, the watchpoint. -/
def State.tileArg (s : State) (t op : Nat) (f : TileFields) : TileArg :=
  ⟨s.drawnTile t op f, f, Config.random s.freeCtr, 0, none, ((s.tile t).drawCtx op f).1, s.watchHit t, false⟩

/-- Every long-vector register of the tile holds 256 elements. -/
def Tile.full (x : Tile) : Bool := x.p.all (fun e => e.2.length == 256)

/-- The two tiles differ at most in how the table of their long-vector registers is listed. -/
def Tile.Alike (y z : Tile) : Prop := (∀ k, y.preg k = z.preg k) ∧ { y with p := z.p } = z

/-- The state after an instruction of tile `t` that leaves the tile `y` and takes `tc` cycles. -/
def State.tileDone (s : State) (t : Nat) (y : Tile) (tc : Nat) : State :=
  ({ s with freeCtr := s.freeCtr + 1 } : State).setTile t (fun _ => { y with cycles := (y.cycles + tc) % 2 ^ 32 })

/-- The state in which instruction `op` of tile `t` raises an exception before any effect: PC stays on it. -/
def State.tileStopped (s : State) (t op : Nat) (f : TileFields) : State :=
  ({ s with freeCtr := s.freeCtr + 1 } : State).setTile t (fun x =>
    { s.drawnTile t op f with pc := x.pc, cycles := x.cycles % 2 ^ 32 })

/-- An exception of instruction `op` of tile `t` before any effect. -/
def State.tileFault (s : State) (t op : Nat) (f : TileFields) (cause addr : Nat) : State :=
  (s.tileStopped t op f).except t op f cause addr 0 ((s.tile t).drawCtx op f).1

/-- The scalar instructions of two sources: tile, fields, opcode, function. -/
def scalarRow : Instr → Option (Nat × TileFields × Nat × (Word → Word → Word))
  | .sadd t f => some (t, f, 0x10, fun x y => x + y) | .ssub t f => some (t, f, 0x11, fun x y => x - y)
  | .smul t f => some (t, f, 0x12, fun x y => x * y) | .sand t f => some (t, f, 0x13, fun x y => x &&& y)
  | .sor t f => some (t, f, 0x14, fun x y => x ||| y) | .sxor t f => some (t, f, 0x15, fun x y => x ^^^ y)
  | .sshl t f => some (t, f, 0x16, fun x y => x <<< (y.toNat % 32)) | .sshr t f => some (t, f, 0x17, fun x y => x >>> (y.toNat % 32))
  | _ => none

/-- The short-vector instructions of two sources, lane by lane: tile, fields, opcode, and the function of the lane's bits, the
modulus in force and the two lanes. -/
def vectorRow : Instr → Option (Nat × TileFields × Nat × (Nat → Nat → Nat → Nat → Nat))
  | .vadd t f => some (t, f, 0x20, fun b _ => addS b (isSat f) false) | .vsub t f => some (t, f, 0x21, fun b _ => addS b (isSat f) true)
  | .vaddm t f => some (t, f, 0x22, fun _ q => addM q) | .vsubm t f => some (t, f, 0x23, fun _ q => subM q)
  | .vmulm t f => some (t, f, 0x24, fun b q => mulM (isRed f) b q) | .vand t f => some (t, f, 0x25, fun _ _ x y => x &&& y)
  | .vor t f => some (t, f, 0x26, fun _ _ x y => x ||| y) | .vxor t f => some (t, f, 0x27, fun _ _ x y => x ^^^ y)
  | .vmulh t f => some (t, f, 0x2A, fun b _ => mulH b (isRnd f) (isSat f))
  | _ => none

/-- The long-vector instructions of two sources without a masked form. -/
def longRow : Instr → Option (Nat × TileFields × Nat × (Nat → Nat → Nat → Nat))
  | .padd t f => some (t, f, 0x30, fun b => addS b (isSat f) false) | .psub t f => some (t, f, 0x31, fun b => addS b (isSat f) true)
  | .pand t f => some (t, f, 0x36, fun _ x y => x &&& y) | .pmulh t f => some (t, f, 0x3A, fun b => mulH b (isRnd f) (isSat f))
  | _ => none

/-- The long-vector instructions whose masked form acts share by share. -/
def sharedRow : Instr → Option (Nat × TileFields × Nat × (Nat → Nat → Nat → Nat))
  | .paddm t f => some (t, f, 0x32, fun q => addM q) | .psubm t f => some (t, f, 0x33, fun q => subM q)
  | .pxor t f => some (t, f, 0x37, fun _ x y => x ^^^ y)
  | _ => none

/-! ### Frames -/

/-- From `s` to `t` only registers of `l` change, and nothing else of the state does. -/
def OnlyRegs (l : List Reg) (s t : State) : Prop :=
  (∀ r, r ∉ l → t.rd r = s.rd r) ∧ ({ t with regs := s.regs, shadow := s.shadow } : State) = s

/-- From `s` to `t` only registers of `l` change, and a message may have been sent or be pending. -/
def RegsAndMessages (l : List Reg) (s t : State) : Prop :=
  (∀ r, r ∉ l → t.rd r = s.rd r) ∧
    ({ t with regs := s.regs, shadow := s.shadow, out := s.out, msixPend := s.msixPend } : State) = s

/-- A job that still has to find a unit, or whose half or join has, is the one its number names, and is on no shell. -/
def State.WaitersOff (s : State) : Prop :=
  ∀ x ∈ s.jobs, x.needs ≠ [] → s.job? x.id = some x ∧
    ∀ sh, .shell sh ∉ x.unit.toList ++ x.classical.unit.toList ++ x.pq.unit.toList

/-- The job, or the half of it that unit `u` holds, has started there. -/
def Job.On (x : Job) (u : JobUnit) : Prop :=
  (x.unit = some u ∧ x.pq.unit ≠ some u ∧ x.classical.unit ≠ some u ∧ x.phase ≠ .waiting) ∨
  (x.pq.unit = some u ∧ x.pq.phase ≠ .waiting ∧ x.pq.phase ≠ .sealed) ∨
  (x.classical.unit = some u ∧ x.pq.unit ≠ some u ∧ x.classical.phase ≠ .waiting ∧ x.classical.phase ≠ .sealed)

/-! ### Mailbox commands -/

/-- The mailbox commands with their codes, channels, device states and the lengths of their requests (Tables 08-7, 09-9, 12-9,
14-7); a command whose layout is checked by itself takes any length here. -/
def mbxRow : Instr → Option MbxRow
  | .mbxPut => some ⟨0x0001, [0, 1], [0, 1, 2, 3, 4, 5], fun n => decide (8 ≤ n)⟩
  | .rigStage _ => some ⟨0x0201, [0, 1], [1, 3], (· == 12)⟩ | .rigCheck => some ⟨0x0202, [0, 1], [1, 3], (· == 0)⟩
  | .rigWrite => some ⟨0x0203, [0, 1], [1, 3], (· == 0)⟩ | .rigPartial => some ⟨0x0204, [0, 1], [1], (· == 0)⟩
  | .rigAuthRotate => some ⟨0x0205, [0, 1], [1, 3], (· == 0)⟩ | .rigInfo => some ⟨0x0206, [0, 1], [0, 1, 2, 3, 4], (· == 0)⟩
  | .keyWrite _ => some ⟨0x0301, [0], [1], fun _ => true⟩ | .keySetAttr => some ⟨0x0302, [0], [1], (· == 10)⟩
  | .keyDestroy => some ⟨0x0303, [0], [1], (· == 8)⟩ | .keyGetPublic => some ⟨0x0304, [0], [1], (· == 4)⟩
  | .keyAttest => some ⟨0x0305, [0], [1], (· == 40)⟩ | .vaultStore => some ⟨0x0310, [0], [1], (· == 8)⟩
  | .vaultLoad => some ⟨0x0311, [0], [1], (· == 10)⟩ | .vaultErase => some ⟨0x0312, [0, 1], [1, 3], (· == 8)⟩
  | .vaultClear => some ⟨0x0313, [0, 1], [1, 3], (· == 0)⟩ | .vaultInfo => some ⟨0x0314, [0, 1], [1, 3], (· == 0)⟩
  | .getIdentity => some ⟨0x0320, [0, 1], [1, 3], (· == 0)⟩ | .attestIdentity => some ⟨0x0321, [0, 1], [1, 3, 15], (· == 32)⟩
  | .zeroise => some ⟨0x0330, [0, 1], [0, 1, 2, 3, 4, 5], (· == 0)⟩
  | .lcStatus => some ⟨0x0401, [0, 1], [0, 1, 2, 3, 4, 5, 6, 15], (· == 0)⟩ | .lcAdvance => some ⟨0x0402, [0, 1], [1, 3, 5], (· == 4)⟩
  | .dbgChallenge => some ⟨0x0410, [0, 1], [1, 3], (· == 0)⟩ | .dbgOpen => some ⟨0x0411, [0, 1], [1, 3], fun _ => true⟩
  | .dbgClose => some ⟨0x0412, [0, 1], [1, 3], (· == 0)⟩ | .dbgSetAuth => some ⟨0x0413, [0, 1], [1, 3], (· == 1952)⟩
  | .dbgRevoke => some ⟨0x0414, [0, 1], [1, 3], (· == 4)⟩ | .restart => some ⟨0x0501, [0, 1], [1, 2, 3], (· == 4)⟩
  | .fwWrite _ => some ⟨0x0502, [0, 1], [1, 3], (· == 20)⟩ | .patchWrite _ => some ⟨0x0503, [0, 1], [1, 3], (· == 20)⟩
  | .bootInfo => some ⟨0x0504, [0, 1], [0, 1, 2, 3, 4, 5], (· == 0)⟩
  | _ => none

/-- The mailbox would serve command `i` on channel `ch` with request `r` now: it is at the head, its channel, the device's state and
the request's length are those of its row, no slot's words and no register's shadow disagree, a journal record is free, no dip defers
it, and DRB0 can serve two draws. -/
structure State.Serves (s : State) (i : Instr) (ch : Nat) (r : Bytes) : Prop where
  row : ∃ x, mbxRow i = some x ∧ s.mbxCode ch = x.code ∧ ch ∈ x.chans ∧ s.devState ∈ x.states ∧ x.okLen r.length = true
  head : s.mbxHead = some ch
  request : s.mbxRequest ch = r
  slots : ∀ a, s.slotBad a = false
  shadows : ∀ r, s.shadowBad r = false
  journal : s.journalUsed < 2048
  dip : s.tamper.dip = none
  draws : s.signDraws.isSome = true ∧ (s.scDraw 1).isSome = true

/-- The state in which the SC runs the command of channel `ch`: taken off the queue, BUSY. -/
def State.mbxTaken (s : State) (ch : Nat) : State :=
  ({ s with mbx := { s.mbx with queue := s.mbx.queue.filter (· ≠ ch), busy := some ch } } : State).setFld (.mbxStatus ch) 1 0 2

/-- The command of channel `ch` has ended DONE with a RESULT, a DETAIL and a response. -/
structure State.Answered (t : State) (ch result detail : Nat) (rsp : Bytes) : Prop where
  done : t.mbxState ch = 3
  result : t.fld (.mbxStatus ch) 15 8 = result
  detail : t.fld (.mbxDetail ch) 31 0 = detail % 2 ^ 32
  response : tget [] ch t.mbx.rsp = rsp

/-- The command of channel `ch` waits for presence. -/
def State.Waits (t : State) (ch : Nat) : Prop := t.mbx.busy = some ch ∧ t.mbxState ch = 2 ∧ t.bit (.mbxStatus ch) 2 = true

/-- Slot `a` of `t` holds the key `mat` of class `c`, put there from `s`: in the slot, or encrypted into its extent under a fresh IV
(Table 09-2, R308), an RSA key's modulus length in the slot itself; while no key is valid LPDDR5X takes no write (R374). -/
def State.Holds (t s : State) (a c : Nat) (mat : Bytes) : Prop :=
  let m := if c = 0x0A then mat.drop 4 else mat
  let x := gcmSeal s.extentKey (s.draw 12).1 [] m
  if inExtent c mat.length then (t.slotAt a).mat = [] ∧ (t.slotAt a).ext = some ⟨(s.draw 12).1, m.length, x.drop m.length⟩ ∧
    (t.slotAt a).k = (if c = 0x0A then leAt mat 0 4 else 0) ∧
    t.ddr = (if s.ddrReady then Memory.write (s.extentAddr a) (x.take m.length) s.ddr else s.ddr)
  else (t.slotAt a).mat = mat ∧ (t.slotAt a).ext = none ∧ t.ddr = s.ddr

/-- What the device stores stands: keys, cells, jobs, tiles, banks, OTP, BBRAM, flash and the rig in force. -/
structure KeepsStores (s t : State) : Prop where
  slots : t.slots = s.slots
  cells : t.cells = s.cells
  jobs : t.jobs = s.jobs
  tiles : t.tiles = s.tiles
  sram : t.sram = s.sram
  otp : t.otp = s.otp
  bbram : t.bbram = s.bbram
  flash : t.flash = s.flash
  rig : t.rig = s.rig

/-- No work waits for the end of counter writes, of a dip or of a draw: no served presence command, no life-cycle move. -/
def State.NothingDeferred (s : State) : Prop := s.mbx.pressed = false ∧ s.transition = none

/-! ### Invariants -/

/-- A counter cell keeps R228's bounds: NEXT ≤ LIMIT, LIMIT − NEXT ≤ 512, also for a LIMIT whose write is in flight. -/
structure Cell.Sound (x : Cell) : Prop where
  next : ∀ n, x.next = some n → n ≤ x.limit ∧ x.limit ≤ n + 512 ∧ ∀ l, x.writing = some l → l ≤ n + 512
  writing : ∀ l, x.writing = some l → x.limit ≤ l ∧ l ≤ x.limit + 512

/-- What every state of the device keeps: memories in canonical form, long-vector registers of 256 elements, and counter cells within
their bounds. -/
structure State.Sound (s : State) : Prop where
  sram : Memory.wf s.sram = true
  ddr : Memory.wf s.ddr = true
  tiles : ∀ e ∈ s.tiles, Memory.wf e.2.mem = true
  vectors : ∀ e ∈ s.tiles, e.2.full = true
  cells : ∀ e ∈ s.cells, e.2.Sound

/-- No minimum counter of OTP is lower than before (R274, R395, R446). -/
structure Otp.NotLower (a b : Otp) : Prop where
  debugMin : a.debugMin ≤ b.debugMin
  rigSvn : a.rigSvn ≤ b.rigSvn
  patchSvn : a.patchSvn ≤ b.patchSvn
  fwSvn : a.fwSvn ≤ b.fwSvn

/-- What one step may do to a state, whatever the command. -/
structure Keeps (s t : State) : Prop where
  pending : t.pending = s.pending
  sound : s.Sound → t.Sound
  otp : s.otp.NotLower t.otp

end Sys2Proof.Machine
end

