-- ==== Sys2Proof/Certificates/Slice0/Obligations.lean ====
section
/-! DEFINITION. The statements about the device that the proofs settle. -/

open Sys2Proof Sys2Proof.Machine

/-! ### Steps and reset -/

/-- One step runs the command at the front of the queue on the state with the queue's rest; an empty queue lets the clocks tick
(log 2: the model's choice). -/
def Obligations.StepRunsFrontCommand : Prop :=
  (∀ (c : Instr) (rest : List Instr) (s : State), step { s with pending := c :: rest } = exec c { s with pending := rest }) ∧
  (∀ s : State, s.pending = [] → step s = .next s.idleTick)

/-- A tick of the idle device adds one nanosecond to GEN_TIME exactly while main power is on, lets a block reset under way go on by one
stage, reads the button as released, lets a running fill zero some of its lines, and touches no other register than the AON timestamp and
those of the block reset (log 2: that the empty queue stands for a nanosecond is the model's choice). -/
def Obligations.IdleTickCountsTime : Prop :=
  ∀ s : State, s.pending = [] → ∃ t, step s = .next t ∧
    t.rd .genTime = (if s.power.backup = false ∧ s.power.io = true then s.rd .genTime + 1 else s.rd .genTime) ∧
    (∀ r : Reg, r ∉ [Reg.genTime, .tmpTime, .lcsPp, .rstBlockStat, .bneHandlesLost, .bneEvtStatus] → t.rd r = s.rd r) ∧
    (s.boot.block = none → (∀ r : Reg, r ≠ .genTime → r ≠ .tmpTime → r ≠ .lcsPp → t.rd r = s.rd r) ∧ t.tiles = s.tiles) ∧
    (∀ k i, s.boot.block = some (k, i) → s.power.backup = false → s.power.io = true →
      (s.blockPhase = 1 → t.blockPhase = 2 ∧ (k ≠ 4 → k ≠ 5 → ∀ n ∈ s.blockTiles k i, t.tile n = (s.tile n).wipe)) ∧
      (s.blockPhase = 2 → t.blockPhase = 3 ∧ t.tiles = s.tiles)) ∧
    (s.power.backup = false → s.power.io = true → t.bit .lcsPp 0 = false ∧ ∀ i, i ≠ 0 → t.bit .lcsPp i = s.bit .lcsPp i) ∧
    (s.fld .ddrFillCtrl 5 4 ≠ 1 ∨ s.bit .genState 4 = true → t.ddr = s.ddr) ∧
    (∀ a, a < s.ddrFill.1 ∨ s.ddrFill.1 + s.ddrFill.2 ≤ a → Memory.get a t.ddr = Memory.get a s.ddr) ∧
    t.jobs = s.jobs ∧ t.slots = s.slots ∧ t.sram = s.sram ∧ t.otp = s.otp ∧ t.pending = []

/-- The state after the first power-on reset: every register but RST_CAUSE and PWR_RAILS reads its table's reset value, every key
slot is empty, every counter cell free, every queue and slice DISABLED, no job is in flight, nothing has been sent, and no command
waits. -/
def Obligations.ResetState : Prop :=
  (∀ r : Reg, r ≠ .rstCause → r ≠ .pwrRails → State.reset.rd r = r.resetVal) ∧
  (∀ a, (State.reset.slotAt a).filled = false) ∧ (∀ c, (State.reset.cell c).state = .free) ∧
  (∀ q, State.reset.queueState q = 0) ∧ (∀ n, State.reset.sliceState n = 0) ∧
  State.reset.jobs = [] ∧ State.reset.out = [] ∧ State.reset.pending = [] ∧ State.reset.rig = none ∧ State.reset.pins.resetLow = true

/-- Each job command whose job has its inputs and passes the checks on operand values completes the computation: the job then
holds the result of its operation on the bytes drawn, other jobs keep theirs, and nothing outside the engines changes.
Completes: mlkemKeygen, mlkemEncaps, mlkemDecaps, mldsaKeygen, mldsaSign, mldsaVerify, slhdsaKeygen, slhdsaVerify, lmsVerify, xmssVerify,
hqcKeygen, hqcEncaps, hqcDecaps, eccKeygen, eccSign, eccVerify, eccDerive, checkPublic, edmontKeygen, edmontSign, edmontVerify,
edmontDerive, rsaKeygen, rsaVerify, rsaEncrypt, rawPublic, modmul, modexp, modinv, digest, xof, generate, importKey, wrap, unwrap, attest,
setMemoDepth, getPublic, randomBytes. -/
def Obligations.JobCommandComputesItsResult : Prop :=
  ∀ (i : Instr) (s s' : State) (j : Nat) (op : JobOp) (x : Job) (l : List Bytes),
    jobRow i = some (j, op) → s.job? j = some x → s.computing op.opcode x = true → op.reject s x = none →
    s.drawAll x (op.draws x) = .got l s' →
    ∃ t y, exec i s = .next t ∧ t.job? j = some y ∧ y.phase = .computed ∧ y.result = some (op.result s' x l) ∧
      y.desc = x.desc ∧ (∀ k, k ≠ j → t.job? k = s.job? k) ∧ SameElsewhere s t

/-- A job command whose operand values fail a check ends the computation with the check's status and without a draw; one whose job is
not on a unit with its inputs, or runs another opcode, changes nothing. -/
def Obligations.JobCommandTurnedAway : Prop :=
  (∀ (i : Instr) (s : State) (j : Nat) (op : JobOp) (x : Job) (r : Result),
      jobRow i = some (j, op) → s.job? j = some x → s.computing op.opcode x = true → op.reject s x = some r →
      ∃ t y, exec i s = .next t ∧ t.job? j = some y ∧ y.phase = .computed ∧ y.result = some r ∧ t.rng = s.rng ∧
        (∀ k, k ≠ j → t.job? k = s.job? k) ∧ SameElsewhere s t) ∧
  (∀ (i : Instr) (s : State) (j : Nat) (op : JobOp), jobRow i = some (j, op) →
      (∀ x, s.job? j = some x → s.computing op.opcode x = false) → exec i s = .next s)

/-- Raw modular arithmetic in range (Table 03-15): the job is DONE with the little-endian words of the result, and the functions are
right: the modular power, and an inverse that is found exactly when there is one.
Completes: modmul, modexp, modinv. -/
def Obligations.RawArithmeticIsRight : Prop :=
  (∀ (s : State) (j : Nat) (x : Job), s.job? j = some x →
      (s.computing 0x0B01 x = true → 0 < s.rawA x → s.rawA x < s.rawM x → 0 < s.rawB x → s.rawB x < s.rawM x → s.rawM x % 2 = 1 →
        3 ≤ s.rawM x → exec (.modmul j) s = .next (s.settle x (.done (leBytes (8 * (pSet (dParam x.desc) + 1)) (s.rawA x * s.rawB x % s.rawM x))))) ∧
      (s.computing 0x0B02 x = true → 2 ≤ s.rawA x → s.rawA x < s.rawM x → 0 < s.rawB x → s.rawM x % 2 = 1 →
        exec (.modexp j) s = .next (s.settle x (.done (leBytes (8 * (pSet (dParam x.desc) + 1)) (powMod (s.rawA x) (s.rawB x) (s.rawM x)))))) ∧
      (∀ v, s.computing 0x0B03 x = true → 2 ≤ s.rawA x → s.rawA x < s.rawM x → invMod (s.rawA x) (s.rawM x) = some v →
        exec (.modinv j) s = .next (s.settle x (.done (leBytes (8 * (pSet (dParam x.desc) + 1)) v)))) ∧
      (s.computing 0x0B03 x = true → 2 ≤ s.rawA x → s.rawA x < s.rawM x → invMod (s.rawA x) (s.rawM x) = none →
        exec (.modinv j) s = .next (s.settle x (.reject 1 7)))) ∧
  ((∀ b e m : Nat, 0 < m → powMod b e m = b ^ e % m) ∧
    (∀ a m x : Nat, 1 < m → invMod a m = some x → a * x % m = 1 ∧ x < m) ∧
    (∀ a m : Nat, 1 < m → ((invMod a m).isSome = true ↔ Nat.Coprime a m)))

/-- Decapsulation of ML-KEM and HQC completes DONE with a shared secret of 32 B or 64 B, whatever the ciphertext, and ML-KEM's is K
where the re-encryption agrees, else the implicit-rejection value; X25519 and X448 derivation ends DONE, or ZERO_SHARED with the zeroed
secret; HMAC and KMAC answer their tag, and a check answers DONE or VERIFY_FAIL.
Completes: mlkemDecaps, hqcDecaps, edmontDerive, macTag, macVerify. -/
def Obligations.SecretAndMacResults : Prop :=
  ((∀ (s : State) (j : Nat) (x : Job), s.job? j = some x →
        (s.computing 0x0103 x = true →
          exec (.mlkemDecaps j) s = .next (s.settle x (destroyAfter x (kemDecaps (pSet (dParam x.desc)) (s.dealing x).1 x.key x.main)))) ∧
        (s.computing 0x0603 x = true →
          exec (.hqcDecaps j) s = .next (s.settle x (destroyAfter x (hqcDecap (pSet (dParam x.desc)) x.key x.main))))) ∧
    (∀ (set n : Nat) (mat ct : Bytes), (kemDecaps set n mat ct).length = 32 ∧ (hqcDecap set mat ct).length = 64) ∧
    (∀ (x : Job) (out : Bytes), (destroyAfter x out).status = 0 ∧ (destroyAfter x out).detail = 0 ∧ (destroyAfter x out).out = out) ∧
    (∀ again ct k z : Bytes, (again = ct → kemSelect again ct k z = k) ∧ (again ≠ ct → kemSelect again ct k z = shake 64 (z ++ ct) 32)) ∧
    (∀ (s s' : State) (j : Nat) (x : Job) (l : List Bytes), s.job? j = some x → s.computing 0x0906 x = true →
        s.drawAll x [(true, 32)] = .got l s' →
        exec (.edmontDerive j) s = .next (s'.settle x
          ⟨if allZero ((montOf (pSet (dParam x.desc))).dh x.key x.in2) then 0x21 else 0, 0, (montOf (pSet (dParam x.desc))).dh x.key x.in2, .none⟩))) ∧
  (∀ (s : State) (j : Nat) (x : Job), s.job? j = some x →
      (s.computing 0x0C03 x = true → ∃ t y, exec (.macTag j) s = .next t ∧ t.job? j = some y ∧ y.phase = .computed ∧
        y.result = some ⟨0, 0, macOf x, .none⟩ ∧ SameElsewhere s t) ∧
      (s.computing 0x0C04 x = true → ∃ t y, exec (.macVerify j) s = .next t ∧ t.job? j = some y ∧ y.phase = .computed ∧
        y.result = some (if macOf x = x.in3 then ⟨0, 0, [], .none⟩ else ⟨0x20, 0, [], .none⟩) ∧ SameElsewhere s t))

/-- However many tiles the work units of a lattice operation are dealt to, what the job gives is what one tile gives (R147): sums of
products are the same however they are dealt, and with them keys, ciphertexts, secrets and verdicts; and rounds of attempts end with the
signature of the first attempt that passes (R149), as the sequential algorithm does. -/
def Obligations.ShellsComputeAsOneTile : Prop :=
  (∀ (q s : Nat) (row vec : List (List Nat)), 0 < q → 0 < s → dot q s row vec = dot q 1 row vec) ∧
  (∀ (set s : Nat), 0 < s → (∀ d, kemKeys set s d = kemKeys set 1 d) ∧ (∀ ek m, kemEncaps set s ek m = kemEncaps set 1 ek m) ∧
    (∀ mat ct, kemDecaps set s mat ct = kemDecaps set 1 mat ct) ∧ (∀ mat, dsaPublic set s mat = dsaPublic set 1 mat) ∧
    (∀ pk msg sig, dsaVerify set s pk msg sig = dsaVerify set 1 pk msg sig)) ∧
  (∀ (attempt : Nat → Option Bytes) (s n : Nat) (sig : Bytes), 0 < s → firstAttempt attempt n 0 = some sig →
    laneRounds attempt s n 0 = some sig) ∧
  (∀ (set s : Nat) (mat msg rnd : Bytes), 0 < s → dsaSign false set s mat msg rnd = dsaSign false set 1 mat msg rnd ∧
    (dsaSign false set 1 mat msg rnd = none ∨ dsaSign true set s mat msg rnd = dsaSign false set 1 mat msg rnd))

/-- RSA signing, decryption and the raw secret operation: a value that passes the check with the public exponent gives the
operation's result, and a failed check is the machine check RESULT_CHECK of the job's core (Table 07-4).
Completes: rsaSign, rsaDecrypt, rawPrivate. -/
def Obligations.RsaSecretOperationsComplete : Prop :=
  (∀ (s s' : State) (j : Nat) (x : Job) (l : List Bytes), s.job? j = some x →
      (s.computing 0x0A02 x = true → rsaSign.reject s x = none → s.drawAll x (rsaSign.draws x) = .got l s' →
        powMod ((rsaKey x.key).crt (rsaSignRep x l)) (rsaKey x.key).e (rsaKey x.key).n = rsaSignRep x l →
        exec (.rsaSign j) s = .next (s'.settle x (.done (beBytes (rsaK x) ((rsaKey x.key).crt (rsaSignRep x l)))))) ∧
      (s.computing 0x0A05 x = true → repFail (beNat x.main) (rsaKey x.key).n = none → s.drawAll x [(true, 32)] = .got l s' →
        powMod ((rsaKey x.key).crt (beNat x.main)) (rsaKey x.key).e (rsaKey x.key).n = beNat x.main →
        exec (.rsaDecrypt j) s = .next (s'.settle x
          (match oaepDecode (pHash (dParam x.desc)) (beBytes (rsaK x) ((rsaKey x.key).crt (beNat x.main))) x.ctx with
            | some m => .done m
            | none => .reject 1 8))) ∧
      (s.computing 0x0A08 x = true → repFail (beNat x.main) (rsaKey x.key).n = none → s.drawAll x [(true, 32)] = .got l s' →
        powMod ((rsaKey x.key).crt (beNat x.main)) (rsaKey x.key).e (rsaKey x.key).n = beNat x.main →
        exec (.rawPrivate j) s = .next (s'.settle x (.done (beBytes (rsaK x) ((rsaKey x.key).crt (beNat x.main))))))) ∧
  (∀ (s s' : State) (j c : Nat) (x : Job) (l : List Bytes), s.job? j = some x → x.core = some c →
      repFail (beNat x.main) (rsaKey x.key).n = none → s.drawAll x [(true, 32)] = .got l s' →
      powMod ((rsaKey x.key).crt (beNat x.main)) (rsaKey x.key).e (rsaKey x.key).n ≠ beNat x.main →
      (s.computing 0x0A08 x = true → exec (.rawPrivate j) s = .next (s'.bneCheck c 10)) ∧
      (s.computing 0x0A05 x = true → exec (.rsaDecrypt j) s = .next (s'.bneCheck c 10)))

/-- SLH-DSA signing without a memo signs with the drawn opt_rand; a memo entry on its path that cannot be read goes, and the job is
executed again; LOAD makes its operand resident under the handle it reports and FREE ends the handle; DESTROY empties its slot in its
commit, and for the last slot of a counter cell issues the cell's write before.
Completes: slhdsaSign, loadOperand, freeHandle, destroy. -/
def Obligations.SigningLoadingDestroying : Prop :=
  ((∀ (s s' : State) (j : Nat) (ue : List Nat) (x : Job) (l : List Bytes), s.job? j = some x → s.computing 0x0302 x = true →
        s.drawAll x (slhdsaSign.draws x) = .got l s' → attrMemo x.attr = 0 →
        exec (.slhdsaSign j ue) s = .next (s'.settle x (.done (slhSign (pSet (dParam x.desc)) x.key (framed x.desc x.main x.ctx) (optRand x l))))) ∧
    (∀ (s s' : State) (j : Nat) (ue : List Nat) (x : Job) (l : List Bytes) (k : MemoKey) (b : Bytes), s.job? j = some x →
        s.computing 0x0302 x = true → s.drawAll x (slhdsaSign.draws x) = .got l s' → (k, b) ∈ s'.memoOf x → k ∈ memoPath x (optRand x l) →
        k.layer ∈ ue → x.failures < 2 → s.leaving = false →
        ∃ t y, exec (.slhdsaSign j ue) s = .next t ∧ (k, b) ∉ t.memo ∧ t.job? j = some y ∧ y.phase = .waiting ∧ y.retried = true ∧
          t.bit .hsfEvtStatus 4 = true ∧ t.slots = s.slots)) ∧
  ((∀ (s : State) (j c e : Nat) (x : Job), s.job? j = some x → s.computing 0x0B04 x = true → s.rawA x ≠ 0 → x.core = some c →
      s.loadEntry x.slice c (8 * (pSet (dParam x.desc) + 1)) = some e →
      ∃ t y r, exec (.loadOperand j) s = .next t ∧ t.job? j = some y ∧ y.result = some r ∧ r.status = 0 ∧
        r.detail = handleOf c e (tget ⟨0, none, []⟩ e (t.bcore c).res).gen ∧
        (tget ⟨0, none, []⟩ e (t.bcore c).res).owner = some x.slice ∧
        (tget ⟨0, none, []⟩ e (t.bcore c).res).val = leBytes (8 * (pSet (dParam x.desc) + 1)) (s.rawA x) ∧
        (tget ⟨0, none, []⟩ e (t.bcore c).res).gen ≠ 0 ∧ t.slots = s.slots) ∧
    (∀ (s : State) (j : Nat) (x : Job) (v : Bytes), s.job? j = some x → s.computing 0x0B05 x = true →
      s.handleVal x.slice (leAt x.desc 96 4) = some v →
      ∃ t y, exec (.freeHandle j) s = .next t ∧ t.job? j = some y ∧ y.result = some ⟨0, 0, [], .none⟩ ∧
        (∀ n, t.handleVal n (leAt x.desc 96 4) = none) ∧ t.slots = s.slots)) ∧
  (∀ (s : State) (j : Nat) (x : Job), s.job? j = some x → s.computing 0x0D05 x = true →
      (s.lastOfCell (x.slot.getD 0) = false → exec (.destroy j) s = .next (s.settle x ⟨0, 0, [], .empty (x.slot.getD 0)⟩)) ∧
      (s.lastOfCell (x.slot.getD 0) = true →
        ∃ t y, exec (.destroy j) s = .next t ∧ (t.cell (attrCell (s.slotAt (x.slot.getD 0)).attr)).freeing = true ∧ t.job? j = some y ∧
          y.phase = .computed ∧ y.result = some ⟨0, 0, [], .empty (x.slot.getD 0)⟩ ∧ t.slots = s.slots))

/-- A stateful KEYGEN takes a free cell and waits for its first reservation; a SIGN signs with the index its read took; the
acknowledgement of a counter write makes the reserved LIMIT hold and lets the KEYGEN that waits for it go on; a freed cell has a new
generation; a rebuild ends with the traversal state of NEXT.
Completes: lmsKeygen, lmsSign, xmssKeygen, xmssSign, counterWriteAck, cellFreeAck, traversalRebuildDone. -/
def Obligations.StatefulKeysUseTheirCells : Prop :=
  (∀ (s s' : State) (j c : Nat) (x : Job) (l : List Bytes), s.job? j = some x → x.newCell = none → s.freeCell = some c →
      s.drawAll x [(true, statefulDraw x)] = .got l s' →
      (s.computing 0x0401 x = true → ∃ t y, exec (.lmsKeygen j) s = .next t ∧ (t.cell c).state = .used ∧ (t.cell c).next = some 0 ∧
        (t.cell c).limit = 0 ∧ (t.cell c).writing = some (min 512 (jobCapacity x)) ∧ (t.cell c).traversal.isSome = true ∧
        t.job? j = some y ∧ y.phase = .gathered ∧ y.sigIndex = some c ∧ y.result.isSome = true) ∧
      (s.computing 0x0501 x = true → ∃ t y, exec (.xmssKeygen j) s = .next t ∧ (t.cell c).state = .used ∧ (t.cell c).next = some 0 ∧
        (t.cell c).limit = 0 ∧ (t.cell c).writing = some (min 512 (jobCapacity x)) ∧ (t.cell c).traversal.isSome = true ∧
        t.job? j = some y ∧ y.phase = .gathered ∧ y.sigIndex = some c ∧ y.result.isSome = true)) ∧
  (∀ (s : State) (j i : Nat) (x : Job), s.job? j = some x → x.sigIndex = some i →
      (s.computing 0x0402 x = true → exec (.lmsSign j) s = .next (s.settle x (.done (statefulSig x i)))) ∧
      (s.computing 0x0502 x = true → exec (.xmssSign j) s = .next (s.settle x (.done (statefulSig x i))))) ∧
  ((∀ (s : State) (c l : Nat), (s.cell c).writing = some l → s.tamper.dip = none → s.NothingDeferred → s.tamper.slotsDue = [] →
      (s.cell c).waiters = [] →
      ((∀ x ∈ s.jobs, x.newCell = some c → x.phase = .gathered → x.result = none) → ∀ n, (s.cell c).next = some n →
        exec (.counterWriteAck c) s = .next (s.setCell c ({ s.cell c with limit := l, writing := none } : Cell).ready)) ∧
      (∀ (j : Nat) (x : Job), s.job? j = some x → x.newCell = some c → x.phase = .gathered → x.result.isSome = true →
        ∃ t y, exec (.counterWriteAck c) s = .next t ∧ (t.cell c).limit = l ∧ t.job? j = some y ∧ y.phase = .computed ∧ y.result = x.result)) ∧
    (∀ (s : State) (c : Nat), (s.cell c).freeing = true → s.tamper.dip = none → s.NothingDeferred →
      ∃ t, exec (.cellFreeAck c) s = .next t ∧ (t.cell c).state = (if (s.cell c).gen + 1 = 0xFFFF then .retired else .free) ∧
        (t.cell c).gen = (s.cell c).gen + 1 ∧ (t.cell c).freeing = false ∧ t.jobs = s.jobs ∧ t.slots = s.slots) ∧
    (∀ (s : State) (c : Nat), (s.cell c).rebuilding = true → (s.cell c).waiters = [] → s.tamper.slotsDue = [] →
      (s.cellKey c = none → exec (.traversalRebuildDone c) s = .next (s.setCell c { s.cell c with rebuilding := false })) ∧
      (∀ (k : DWord × Bytes) (i : Nat), s.cellKey c = some k → (s.cell c).next = some i →
        exec (.traversalRebuildDone c) s = .next ((s.setCell c { s.cell c with rebuilding := false }).putTrav k.1 k.2 i))))

/-- The halves of a hybrid job compute apart; a half whose inputs fail a check ends with its status without a draw, and one whose draw
finds no instance ends ENTROPY_FAILED; two halves that are DONE are
joined by a core that carries HYBRID, or wait for one; else the job ends with the lowest status that is not DONE and a DETAIL that names
the halves that failed.
Completes: hybridJoin, hybridKeygen, hybridEncaps, hybridDecaps. -/
def Obligations.HybridJobsComputeAndJoin : Prop :=
  (∀ (i : Instr) (j op : Nat) (pq cl : HalfOp) (s s' : State) (x : Job) (l : List Bytes), hybridRow i = some (j, op, pq, cl) →
      s.job? j = some x → dOp x.desc = op → x.phase ≠ .sealed →
      (x.pq.phase = .gathered → x.classical.phase ≠ .gathered → s.unhalted x = true → pq.reject x = none → s.drawAll x (pq.draws x) true = .got l s' →
        ∃ t y, exec i s = .next t ∧ t.job? j = some y ∧ y.pq.phase = .computed ∧ y.pq.result = some (pq.result s' x l) ∧
          y.classical = x.classical ∧ t.slots = s.slots) ∧
      (x.classical.phase = .gathered → x.pq.phase ≠ .gathered → x.yielded = false → s.coresRun x = true → cl.reject x = none →
        s.drawAll x (cl.draws x) = .got l s' →
        ∃ t y, exec i s = .next t ∧ t.job? j = some y ∧ y.classical.phase = .computed ∧ y.classical.result = some (cl.result s' x l) ∧
          y.pq = x.pq ∧ t.slots = s.slots ∧ t.tiles = s.tiles) ∧
      (∀ r, x.classical.phase = .gathered → x.pq.phase ≠ .gathered → x.yielded = false → s.coresRun x = true → cl.reject x = some r →
        ∃ t y, exec i s = .next t ∧ t.job? j = some y ∧ y.classical.phase = .computed ∧ y.classical.result = some r ∧ t.rng = s.rng ∧
          y.pq = x.pq ∧ t.slots = s.slots ∧ t.tiles = s.tiles) ∧
      (x.classical.phase = .gathered → x.pq.phase ≠ .gathered → x.yielded = false → s.coresRun x = true → cl.reject x = none →
        s.drawAll x (cl.draws x) = .failed s' →
        ∃ t y, exec i s = .next t ∧ t.job? j = some y ∧ y.classical.phase = .computed ∧ y.classical.result = some (.fail 0x30 0) ∧
          y.pq = x.pq ∧ t.slots = s.slots ∧ t.tiles = s.tiles)) ∧
  (∀ (s : State) (j : Nat) (x : Job) (c p : Result), s.job? j = some x → dClass x.desc = 0x10 → x.classical.phase = .sealed →
      x.pq.phase = .sealed → x.classical.result = some c → x.pq.result = some p → x.result = none →
      (c.status = 0 → p.status = 0 → ∀ q k, s.joinCore x = some (q, k) →
        exec (.hybridJoin j) s = .next (s.setJob j (fun y =>
          { y with unit := some (.hash k), pool := some q, phase := .computed, result := some (s.combine x c p) }))) ∧
      (c.status = 0 → p.status = 0 → s.joinCore x = none → exec (.hybridJoin j) s = .next s) ∧
      (c.status ≠ 0 → p.status = 0 → c.status ≠ 0x41 → exec (.hybridJoin j) s = .next (s.endJob j ⟨c.status, 1, [], .none⟩)) ∧
      (c.status = 0 → p.status ≠ 0 → p.status ≠ 0x41 → exec (.hybridJoin j) s = .next (s.endJob j ⟨p.status, 2, [], .none⟩)) ∧
      (c.status ≠ 0 → p.status ≠ 0 → min c.status p.status ≠ 0x41 →
        exec (.hybridJoin j) s = .next (s.endJob j ⟨min c.status p.status, 3, [], .none⟩)) ∧
      (c.status = 0x41 → p.status = 0 → exec (.hybridJoin j) s = .next ((s.endJob j ⟨0x41, 1, [], .none⟩).bump .genAbortCnt)) ∧
      (c.status = 0 → p.status = 0x41 → exec (.hybridJoin j) s = .next ((s.endJob j ⟨0x41, 2, [], .none⟩).bump .genAbortCnt)))

/-- A computed result is sealed outside a supply dip, and so is a computed half of a hybrid job; a suspect job is executed again
instead; and during a dip nothing is sealed.
Completes: jobSealed. -/
def Obligations.SealingRespectsDips : Prop :=
  (∀ (s : State) (j : Nat) (x : Job), s.job? j = some x → x.phase = .computed →
    (s.tamper.dip = none → x.suspect = false → ∃ t y, exec (.jobSealed j) s = .next t ∧ t.job? j = some y ∧ y.phase = .sealed ∧
      y.result = x.result ∧ t.slots = s.slots) ∧
    (s.tamper.dip = none → x.suspect = true → s.leaving = false → ∃ t y, exec (.jobSealed j) s = .next t ∧ t.job? j = some y ∧ y.phase = .waiting ∧
      y.retried = true ∧ y.result = none)) ∧
  (∀ (s : State) (j : Nat) (x : Job), s.job? j = some x → x.phase ≠ .computed → x.phase ≠ .sealed → dClass x.desc = 0x10 →
    x.suspect = false → s.tamper.dip = none → x.pq.phase = .computed →
    ∃ t y, exec (.jobSealed j) s = .next t ∧ t.job? j = some y ∧ y.pq.phase = .sealed ∧ y.pq.result = x.pq.result ∧ t.slots = s.slots) ∧
  (∀ (s : State) (j : Nat) (d : Dip), s.tamper.dip = some d → exec (.jobSealed j) s = .next s)

/-! ### Tile instructions -/

/-- An instruction that its tile takes and whose meaning completes leaves the tile as the meaning gives it, with its time added to
the cycle counter; every other tile, every register, every job and everything outside the fabric stands. -/
def Obligations.TileInstructionCompletesAndFrames : Prop :=
  ∀ (i : Instr) (s : State) (t op tc : Nat) (f : TileFields) (sem : Sem) (y : Tile), tileRow i = some (t, f, op) → semOf op = some sem →
    s.takes t op f = true → sem (s.tileArg t op f) = .ok y tc →
    ∃ s', exec i s = .next s' ∧ s'.tile t = { y with cycles := (y.cycles + tc) % 2 ^ 32 } ∧ (∀ u, u ≠ t → s'.tile u = s.tile u) ∧
      s'.regs = s.regs ∧ s'.jobs = s.jobs ∧ s'.out = s.out ∧ s'.rng = s.rng ∧ SameElsewhere s s'

/-- An undefined word raises ILLEGAL (cause 1), a breakpoint of an attached tile stops before its instruction (cause 8), a tile that runs
no kernel takes none; microcode that comes upon a bad word is a machine check, CS_PARITY or PATCH_PARITY; an exception of an attached
tile halts it, with TIL_EXC_INFO, unless it holds a record, and TIL_DBG_STAT naming the cause. -/
def Obligations.TileChecksAndHalts : Prop :=
  (∀ (i : Instr) (s : State) (t op : Nat) (f : TileFields), tileRow i = some (t, f, op) →
      ((s.tile t).issues = false → exec i s = .next s) ∧
      ((s.tile t).issues = true → s.breakHit t (s.tile t).pc = true → (s.tile t).passBp = false → exec i s = .next (s.except t op f 8 0 0 .none)) ∧
      ((s.tile t).issues = true → s.breakHit t (s.tile t).pc = false → wordLegal op f = false → exec i s = .next (s.except t op f 1 0 0 .none)) ∧
      (∀ cause a, (s.tile t).issues = true → s.breakHit t (s.tile t).pc = false → wordLegal op f = true → 0x40 ≤ op → op ≤ 0x4F →
        (s.tile t).microcode s.freeCtr op = .check cause a →
        exec i s = .next (s.tileCheck t cause (some a.word)) ∧ (cause = 1 ∨ cause = 2))) ∧
  (∀ (s : State) (t op cause addr : Nat) (f : TileFields), s.attached t = true → 1 ≤ cause → cause ≤ 11 → (s.tile t).pc < 8192 →
      imprecise op cause = false → s.bit (.tilExcInfo t) 63 = false →
      ∃ h r, s.except t op f cause addr 0 .none = r ∧ (r.tile t).halt = some h ∧ h.cause = cause ∧ h.instr = some (op, f) ∧
        (r.tile t).pc = (s.tile t).pc ∧ r.fld (.tilDbgStat t) 11 8 = cause ∧ r.fld (.tilExcInfo t) 3 0 = cause ∧
        r.fld (.tilExcInfo t) 32 20 = (s.tile t).pc ∧ r.bit (.tilExcInfo t) 63 = true ∧ r.jobs = s.jobs)

/-- The scalar instructions: s[D] takes the function of s[A] and s[B]; s0 reads zero and ignores writes; the other scalars and
everything else of the tile but PC and the cycle counter stand.
Completes: sadd, ssub, smul, sand, sor, sxor, sshl, sshr, saddi, sli, slh. -/
def Obligations.ScalarInstructions : Prop :=
  (∀ (i : Instr) (s : State) (t op : Nat) (f : TileFields) (g : Word → Word → Word), scalarRow i = some (t, f, op, g) →
    s.takes t op f = true →
    exec i s = .next (s.tileDone t ((s.nextTile t).setS f.d (g ((s.tile t).sreg f.a) ((s.tile t).sreg f.b))) 1)) ∧
  (∀ (s : State) (t : Nat) (f : TileFields),
    (s.takes t 0x18 f = true → exec (.saddi t f) s =
      .next (s.tileDone t ((s.nextTile t).setS f.d ((s.tile t).sreg f.a + f.imm.signExtend 32)) 1)) ∧
    (s.takes t 0x19 f = true → exec (.sli t f) s = .next (s.tileDone t ((s.nextTile t).setS f.d (f.imm.signExtend 32)) 1)) ∧
    (s.takes t 0x1A f = true → exec (.slh t f) s =
      .next (s.tileDone t ((s.nextTile t).setS f.d (((s.tile t).sreg f.d &&& 0xFFFF#32) ||| (f.imm.setWidth 32 <<< 16))) 1))) ∧
  (∀ (x : Tile) (d : Nat) (v : Word), (x.setS d v).sreg 0 = 0 ∧ (d ≠ 0 → (x.setS d v).sreg d = v) ∧
    (∀ k, k ≠ d → (x.setS d v).sreg k = x.sreg k) ∧ (x.setS 0 v) = x ∧ (x.setS d v).v = x.v ∧ (x.setS d v).p = x.p ∧
    (x.setS d v).mem = x.mem ∧ (x.setS d v).pc = x.pc ∧ (x.setS d v).cflag = x.cflag ∧ (x.setS d v).sponge = x.sponge)

/-- Control flow and control registers: BR goes to its target in 2 tc when its condition holds and to the next instruction in 1
otherwise; SCMP sets cflag; WAIT completes once no transfer is left; CSRR and CSRW read and write the registers of Table 05-2, a
modulus in 4 tc, and raise CSR on an undefined or read-only register or a value out of range; END marks the part of a tile that is
not the stroke tile done, and on the stroke tile gives the job its output.
Completes: nop, br, endKernel, wait, csrr, csrw, scmp. -/
def Obligations.ControlInstructions : Prop :=
  (∀ (s : State) (t : Nat) (f : TileFields),
      (s.takes t 0x00 f = true → exec (.nop t f) s = .next (s.tileDone t (s.nextTile t) 1)) ∧
      (s.takes t 0x01 f = true → condHolds f.mod ((s.tile t).sreg f.a) ((s.tile t).sreg f.b) (s.tile t).cflag = true →
        exec (.br t f) s = .next (s.tileDone t { s.nextTile t with pc := f.imm.toNat % 8192 } 2)) ∧
      (s.takes t 0x01 f = true → condHolds f.mod ((s.tile t).sreg f.a) ((s.tile t).sreg f.b) (s.tile t).cflag = false →
        exec (.br t f) s = .next (s.tileDone t (s.nextTile t) 1)) ∧
      (s.takes t 0x1B f = true → exec (.scmp t f) s = .next (s.tileDone t
        { s.nextTile t with cflag := condHolds f.mod ((s.tile t).sreg f.a) ((s.tile t).sreg f.b) (s.tile t).cflag } 1)) ∧
      (s.takes t 0x03 f = true → (s.tile t).xfers = [] → exec (.wait t f) s = .next (s.tileDone t (s.nextTile t) 1)) ∧
      (s.takes t 0x03 f = true → (s.tile t).xfers ≠ [] → exec (.wait t f) s = .next s)) ∧
  (∀ (s : State) (t v : Nat) (f : TileFields), v = (s.tile t).sn f.a →
      (s.takes t 0x04 f = true → ∀ e ∈ [(0, (s.tile t).cq16), (1, (s.tile t).cq32), (2, (s.tile t).pos), (3, (s.tile t).size),
          (4, if (s.tile t).pos = 0 then 1 else 0), (5, (s.tile t).op), (6, (s.tile t).param), (7, (s.tile t).harden), (8, 0),
          (9, (s.tile t).cycles), (10, if (s.tile t).cflag then 1 else 0)], f.imm.toNat % 256 = e.1 →
        exec (.csrr t f) s = .next (s.tileDone t ((s.nextTile t).setS f.d (BitVec.ofNat 32 e.2)) 1)) ∧
      (s.takes t 0x05 f = true → f.imm.toNat % 256 = 0 → v % 2 = 1 → 3 ≤ v → v ≤ 16383 →
        exec (.csrw t f) s = .next (s.tileDone t { s.nextTile t with cq16 := v } 4)) ∧
      (s.takes t 0x05 f = true → f.imm.toNat % 256 = 1 → v % 2 = 1 → 3 ≤ v → v ≤ 1073741823 →
        exec (.csrw t f) s = .next (s.tileDone t { s.nextTile t with cq32 := v } 4)) ∧
      (s.takes t 0x05 f = true → f.imm.toNat % 256 = 8 → v < (s.tile t).phases →
        exec (.csrw t f) s = .next (s.tileDone t { s.nextTile t with phase := v } 1)) ∧
      (s.takes t 0x05 f = true → f.imm.toNat % 256 = 10 → v < 2 →
        exec (.csrw t f) s = .next (s.tileDone t { s.nextTile t with cflag := v == 1 } 1)) ∧
      (s.takes t 0x04 f = true → 11 ≤ f.imm.toNat % 256 → exec (.csrr t f) s = .next (s.tileFault t 0x04 f 5 0)) ∧
      (s.takes t 0x05 f = true → (f.imm.toNat % 256 ∉ [0, 1, 8, 10] ∨ (f.imm.toNat % 256 ≤ 1 ∧ (v % 2 = 0 ∨ v < 3 ∨ 1073741823 < v)) ∨
          (f.imm.toNat % 256 = 0 ∧ 16383 < v) ∨ (f.imm.toNat % 256 = 8 ∧ (s.tile t).phases ≤ v) ∨ (f.imm.toNat % 256 = 10 ∧ 2 ≤ v)) →
        exec (.csrw t f) s = .next (s.tileFault t 0x05 f 5 0))) ∧
  (∀ (s : State) (t a n : Nat) (f : TileFields), a = (s.tile t).sn f.a → n = (s.tile t).sn f.b → s.takes t 0x02 f = true →
      ((s.tile t).pos ≠ 0 → n = 0 → exec (.endKernel t f) s = .next (s.tileDone t { s.nextTile t with ended := true } 2)) ∧
      ((s.tile t).pos ≠ 0 → n ≠ 0 → exec (.endKernel t f) s = .next (s.tileFault t 0x02 f 4 a)) ∧
      (∀ x sh, (s.tile t).pos = 0 → n ≤ 16384 → a + n ≤ 0x2E000 → (s.tile t).held a n = false → s.attached t = false →
        s.shellOf t = some sh → t ∈ s.shellTiles sh → (s.onUnit (.shell sh)).head? = some x → s.job? x.id = some x →
        x.unit = some (.shell sh) → x.pq.unit = none →
        ∃ r y, exec (.endKernel t f) s = .next r ∧ (r.tile t).sealBuf = (s.tile t).bytes a n ∧ (r.tile t).running = false ∧
          r.job? x.id = some y ∧ y.phase = .computed ∧ y.result = some (.done ((s.tile t).bytes a n)) ∧
          (∀ k, k ≠ x.id → r.job? k = s.job? k) ∧ r.slots = s.slots ∧ r.out = s.out))

/-- The short-vector instructions: lane by lane for the two-source forms and the shifts; broadcast, extraction of a lane the width
has, and permutation modulo the lane count.
Completes: vadd, vsub, vaddm, vsubm, vmulm, vand, vor, vxor, vshl, vshr, vmulh, vbcast, vext, vperm. -/
def Obligations.ShortVectorInstructions : Prop :=
  (∀ (i : Instr) (s : State) (t op : Nat) (f : TileFields) (g : Nat → Nat → Nat → Nat → Nat), vectorRow i = some (t, f, op, g) →
    s.takes t op f = true → exec i s = .next (s.tileDone t ((s.nextTile t).vset f.w f.d
      (List.zipWith (g (laneBits f.w) ((s.tile t).q f.w)) ((s.tile t).vget f.w f.a) ((s.tile t).vget f.w f.b))) 1)) ∧
  (∀ (s : State) (t : Nat) (f : TileFields),
    (s.takes t 0x28 f = true → exec (.vshl t f) s = .next (s.tileDone t ((s.nextTile t).vset f.w f.d
      (((s.tile t).vget f.w f.a).map (fun x => x * 2 ^ (f.imm.toNat % 64) % 2 ^ laneBits f.w))) 1)) ∧
    (s.takes t 0x29 f = true → exec (.vshr t f) s = .next (s.tileDone t ((s.nextTile t).vset f.w f.d
      (((s.tile t).vget f.w f.a).map (shrS (laneBits f.w) (f.imm.toNat % 64) (isRnd f)))) 1)) ∧
    (s.takes t 0x2C f = true → f.w ≠ 2 → exec (.vbcast t f) s = .next (s.tileDone t ((s.nextTile t).vset f.w f.d
      (List.replicate (256 / laneBits f.w) ((s.tile t).sn f.a))) 1)) ∧
    (s.takes t 0x2C f = true → f.w = 2 → exec (.vbcast t f) s = .next (s.tileDone t ((s.nextTile t).vset 2 f.d
      (List.replicate 4 ((s.tile t).sn f.a + 2 ^ 32 * (s.tile t).sn f.b))) 1)) ∧
    (∀ v, s.takes t 0x2D f = true → ((s.tile t).vget f.w f.a)[f.imm.toNat % 16]? = some v →
      exec (.vext t f) s = .next (s.tileDone t ((s.nextTile t).setS f.d (BitVec.ofNat 32 v)) 1)) ∧
    (s.takes t 0x2E f = true → exec (.vperm t f) s = .next (s.tileDone t ((s.nextTile t).vset f.w f.d
      (((s.tile t).vget f.w f.b).map (fun k => (((s.tile t).vget f.w f.a)[k % (256 / laneBits f.w)]?).getD 0))) 1)))

/-- The long-vector instructions, element by element, whatever the order in which the tile runs beats and lanes: a masked form acts share
by share on the pair, PMULM and PMACM with the public p[A]; MREFR gives the pair fresh shares of the same value, MSKP fresh masks.
The time doubles under MASK.
Completes: padd, psub, paddm, psubm, pmulm, pmacm, pand, pxor, pshl, pshr, pmulh, pmov, mrefr, mskp. -/
def Obligations.LongVectorInstructions : Prop :=
  (∀ (i : Instr) (s : State) (t op : Nat) (f : TileFields) (g : Nat → Nat → Nat → Nat), longRow i = some (t, f, op, g) →
    s.takes t op f = true → (s.tile t).full = true → ∃ y, exec i s = .next (s.tileDone t y (if f.w = 0 then 8 else 16)) ∧
      y.Alike ((s.drawnTile t op f).pset f.w f.d (List.zipWith (g (laneBits f.w)) ((s.tile t).pget f.w f.a) ((s.tile t).pget f.w f.b)))) ∧
  (∀ (i : Instr) (s : State) (t op : Nat) (f : TileFields) (g : Nat → Nat → Nat → Nat), sharedRow i = some (t, f, op, g) →
    s.takes t op f = true → (s.tile t).full = true →
    let share (h : Nat) := List.zipWith (g ((s.tile t).q f.w)) ((s.tile t).pget f.w (f.a + h)) ((s.tile t).pget f.w (f.b + h))
    (isMasked f = false → ∃ y, exec i s = .next (s.tileDone t y (if f.w = 0 then 8 else 16)) ∧
      y.Alike ((s.drawnTile t op f).pset f.w f.d (share 0))) ∧
    (isMasked f = true → ∃ y, exec i s = .next (s.tileDone t y (if f.w = 0 then 16 else 32)) ∧
      y.Alike (((s.drawnTile t op f).pset f.w f.d (share 0)).pset f.w (f.d + 1) (share 1)))) ∧
  (∀ (s : State) (t : Nat) (f : TileFields), (s.tile t).full = true →
    let product (h : Nat) := List.zipWith (mulM (isRed f) (laneBits f.w) ((s.tile t).q f.w)) ((s.tile t).pget f.w f.a) ((s.tile t).pget f.w (f.b + h))
    let sum (h : Nat) := List.zipWith (addM ((s.tile t).q f.w)) ((s.tile t).pget f.w (f.d + h)) (product h)
    (s.takes t 0x34 f = true → isMasked f = false → ∃ y, exec (.pmulm t f) s = .next (s.tileDone t y (if f.w = 0 then 8 else 16)) ∧
      y.Alike ((s.drawnTile t 0x34 f).pset f.w f.d (product 0))) ∧
    (s.takes t 0x34 f = true → isMasked f = true → ∃ y, exec (.pmulm t f) s = .next (s.tileDone t y (if f.w = 0 then 16 else 32)) ∧
      y.Alike (((s.drawnTile t 0x34 f).pset f.w f.d (product 0)).pset f.w (f.d + 1) (product 1))) ∧
    (s.takes t 0x35 f = true → isMasked f = false → ∃ y, exec (.pmacm t f) s = .next (s.tileDone t y (if f.w = 0 then 8 else 16)) ∧
      y.Alike ((s.drawnTile t 0x35 f).pset f.w f.d (sum 0))) ∧
    (s.takes t 0x35 f = true → isMasked f = true → ∃ y, exec (.pmacm t f) s = .next (s.tileDone t y (if f.w = 0 then 16 else 32)) ∧
      y.Alike (((s.drawnTile t 0x35 f).pset f.w f.d (sum 0)).pset f.w (f.d + 1) (sum 1)))) ∧
  (∀ (s : State) (t : Nat) (f : TileFields), (s.tile t).full = true →
    (s.takes t 0x38 f = true → ∃ y, exec (.pshl t f) s = .next (s.tileDone t y (if f.w = 0 then 8 else 16)) ∧ y.Alike ((s.drawnTile t 0x38 f).pset f.w f.d
      (((s.tile t).pget f.w f.a).map (fun x => x * 2 ^ (f.imm.toNat % 64) % 2 ^ laneBits f.w)))) ∧
    (s.takes t 0x39 f = true → ∃ y, exec (.pshr t f) s = .next (s.tileDone t y (if f.w = 0 then 8 else 16)) ∧ y.Alike ((s.drawnTile t 0x39 f).pset f.w f.d
      (((s.tile t).pget f.w f.a).map (shrS (laneBits f.w) (f.imm.toNat % 64) (isRnd f))))) ∧
    (s.takes t 0x3C f = true → isMasked f = false → ∃ y, exec (.pmov t f) s = .next (s.tileDone t y (if f.w = 0 then 8 else 16)) ∧
      y.Alike ((s.drawnTile t 0x3C f).pset f.w f.d ((s.tile t).pget f.w f.a))) ∧
    (s.takes t 0x3C f = true → isMasked f = true → ∃ y, exec (.pmov t f) s = .next (s.tileDone t y (if f.w = 0 then 16 else 32)) ∧
      y.Alike (((s.drawnTile t 0x3C f).pset f.w f.d ((s.tile t).pget f.w f.a)).pset f.w (f.d + 1) ((s.tile t).pget f.w (f.a + 1)))) ∧
    (s.takes t 0x3E f = true → ∃ (l : List Nat) (y : Tile), l.length = (if f.w = 2 then 128 else 256) ∧
      (∀ v ∈ l, v < (if f.w = 2 then 2 ^ 64 else max 1 ((s.tile t).q f.w))) ∧
      exec (.mskp t f) s = .next (s.tileDone t y (if f.w = 0 then 8 else 16)) ∧ y.Alike ((s.drawnTile t 0x3E f).pset f.w f.d l)) ∧
    (s.takes t 0x3D f = true → ∃ (m : List Nat) (y : Tile), m.length = (if f.w = 2 then 128 else 256) ∧
      (∀ v ∈ m, v < (if f.w = 2 then 2 ^ 64 else max 1 ((s.tile t).q f.w))) ∧
      exec (.mrefr t f) s = .next (s.tileDone t y (if f.w = 0 then 16 else 32)) ∧
      y.Alike (((s.drawnTile t 0x3D f).pset f.w f.d
          (List.zipWith (if f.w = 2 then (· ^^^ ·) else addM ((s.tile t).q f.w)) ((s.tile t).pget f.w f.d) m)).pset f.w (f.d + 1)
        (List.zipWith (if f.w = 2 then (· ^^^ ·) else subM ((s.tile t).q f.w)) ((s.tile t).pget f.w (f.d + 1)) m))))

/-- The tiles' arithmetic: a carry-less product is the product of polynomials over GF(2), modular operations on canonical residues give
the canonical residue, decomposition and compression rebuild the residue with a centred low part, and packed fields unpack.
Completes: vclmul, pclmul. -/
def Obligations.TileArithmeticIsRight : Prop :=
  ((∀ x y k : Nat, y < 2 ^ 64 → (clmul x y).testBit k = ((List.range 64).filter (fun i => y.testBit i && decide (i ≤ k) && x.testBit (k - i))).length.bodd) ∧
    (∀ (s : State) (t : Nat) (f : TileFields),
      let vs := List.zipWith clmul ((s.tile t).vget 2 f.a) ((s.tile t).vget 2 f.b)
      let ps := List.zipWith clmul ((s.tile t).pget 2 f.a) ((s.tile t).pget 2 f.b)
      let p1 := (s.drawnTile t 0x3B f).pset 2 f.d (List.zipWith (· ^^^ ·) ((s.tile t).pget 2 f.d) (ps.map (· % 2 ^ 64)))
      let v1 := (s.nextTile t).vset 2 f.d (List.zipWith (· ^^^ ·) ((s.tile t).vget 2 f.d) (vs.map (· % 2 ^ 64)))
      (s.takes t 0x2B f = true → exec (.vclmul t f) s =
        .next (s.tileDone t (v1.vset 2 f.c (List.zipWith (· ^^^ ·) (v1.vget 2 f.c) (vs.map (· / 2 ^ 64)))) 1)) ∧
      (s.takes t 0x3B f = true → (s.tile t).full = true → ∃ y, exec (.pclmul t f) s = .next (s.tileDone t y 16) ∧
        y.Alike (p1.pset 2 f.c (List.zipWith (· ^^^ ·) (p1.pget 2 f.c) (ps.map (· / 2 ^ 64))))))) ∧
  (∀ q x y b : Nat, 0 < q →
      (addM q x y < q ∧ addM q x y = (x + y) % q) ∧
      (subM q x y < q ∧ (subM q x y + y) % q = x % q) ∧
      (mulM true b q x y < q ∧ mulM true b q x y = x * y % q) ∧
      (q % 2 = 1 → mulM false b q x y < q ∧ mulM false b q x y * 2 ^ b % q = x * y % q)) ∧
  (((∀ q g x : Nat, 0 < g → 2 * g ∣ q - 1 → 1 < q →
        (((decompose q g x).1 : Int) * (2 * g) + (decompose q g x).2 - (x : Int)) % q = 0 ∧
        -(g : Int) ≤ (decompose q g x).2 ∧ (decompose q g x).2 ≤ g ∧ (decompose q g x).1 < (q - 1) / (2 * g)) ∧
      (∀ q d x : Nat, compress q d x < 2 ^ d) ∧ (∀ q d y : Nat, 0 < q → decompress q d y < q)) ∧
    (∀ (b : Nat) (l : List Nat), (∀ x ∈ l, x < 2 ^ b) → splitBits b l.length (joinBits b l) = l ∧
        leNat (leBytes ((b * l.length + 7) / 8) (joinBits b l)) = joinBits b l))

/-- The microcoded instructions that take no memory: transforms by the layers named, whatever the order of the butterflies, rounding,
hints, norm check and share conversion. A masked form transforms each share, or acts on the value that the pair holds and gives it
fresh shares.
Completes: ntt, intt, comp, decompr, decomp, p2r, mkhint, usehint, normchk, conv. -/
def Obligations.MicrocodedInstructions : Prop :=
  (∀ (s : State) (t q n root bits lo k : Nat) (f : TileFields), q = (s.tile t).q f.w → nttShape q = some (n, root, bits) →
    lo = f.imm.toNat % 16 → k = f.imm.toNat / 16 % 16 + 1 - lo → 0 < k → lo + k ≤ n → (s.tile t).full = true →
    let time := (if f.w = 0 then (if k = 7 then 42 else 6 * k) else if k = 8 then 80 else 10 * k) * (if isMasked f then 2 else 1)
    let fwd (l : List Nat) := nttRange q root bits lo k (l.map (· % q))
    let inv (l : List Nat) := if f.imm.toNat.testBit 8 then
        (inttRange q root bits (n - lo - k) k (l.map (· % q))).map (fun x => x * powMod (2 ^ n) (q - 2) q % q)
      else inttRange q root bits (n - lo - k) k (l.map (· % q))
    let y := (s.drawnTile t 0x40 f).pset f.w f.d (fwd ((s.tile t).pget f.w f.a))
    let z := (s.drawnTile t 0x41 f).pset f.w f.d (inv ((s.tile t).pget f.w f.a))
    (s.takes t 0x40 f = true → exec (.ntt t f) s = .next (s.tileDone t
      (if isMasked f then y.pset f.w (f.d + 1) (fwd ((s.tile t).pget f.w (f.a + 1))) else y) time)) ∧
    (s.takes t 0x41 f = true → exec (.intt t f) s = .next (s.tileDone t
      (if isMasked f then z.pset f.w (f.d + 1) (inv ((s.tile t).pget f.w (f.a + 1))) else z) time))) ∧
  (∀ (s : State) (t q g : Nat) (f : TileFields), q = (s.tile t).q f.w → g = gamma2 q (paramOf f) → isMasked f = false →
    let a := (s.tile t).pget f.w f.a
    let b := (s.tile t).pget f.w f.b
    (s.takes t 0x46 f = true → 1 ≤ paramOf f → paramOf f ≤ 12 → exec (.comp t f) s =
      .next (s.tileDone t ((s.nextTile t).pset 0 f.d (a.map (compress q (paramOf f)))) 24)) ∧
    (s.takes t 0x47 f = true → 1 ≤ paramOf f → paramOf f ≤ 12 → exec (.decompr t f) s =
      .next (s.tileDone t ((s.nextTile t).pset 0 f.d (a.map (decompress q (paramOf f)))) 24)) ∧
    (s.takes t 0x48 f = true → paramOf f < 2 → 0 < g → exec (.decomp t f) s =
      .next (s.tileDone t (((s.nextTile t).pset 1 f.d (a.map (fun x => (decompose q g x).1))).pset 1 f.c
        (a.map (fun x => residue q (decompose q g x).2))) 48)) ∧
    (s.takes t 0x49 f = true → exec (.p2r t f) s =
      .next (s.tileDone t (((s.nextTile t).pset 1 f.d (a.map (fun x => (((x % q : Nat) - centred 8192 (x % q)) / 8192).toNat))).pset 1 f.c
        (a.map (fun x => residue q (centred 8192 (x % q))))) 32)) ∧
    (s.takes t 0x4A f = true → paramOf f < 2 → 0 < g →
      let h := List.zipWith (fun z r => if (decompose q g r).1 ≠ (decompose q g (r + z)).1 then 1 else 0) a b
      exec (.mkhint t f) s = .next (s.tileDone t (((s.nextTile t).pset 1 f.d h).setS f.c ((s.tile t).sreg f.c + BitVec.ofNat 32 h.sum)) 32)) ∧
    (s.takes t 0x4B f = true → paramOf f < 2 → 0 < g → (∀ h ∈ a, h < 2) → a.length = 256 → exec (.usehint t f) s =
      .next (s.tileDone t ((s.nextTile t).pset 1 f.d (List.zipWith (useHint q g) a b)) 48)) ∧
    (s.takes t 0x4C f = true → exec (.normchk t f) s = .next (s.tileDone t { s.nextTile t with
      cflag := a.any (fun x => decide ((s.tile t).sn f.b ≤ (centred q x).natAbs)) } 24))) ∧
  (∀ (s : State) (t q g : Nat) (f : TileFields), q = (s.tile t).q f.w → g = gamma2 q (paramOf f) → isMasked f = true →
    let joined := List.zipWith (addM q) ((s.tile t).pget f.w f.a) ((s.tile t).pget f.w (f.a + 1))
    let fresh (b : Nat) (m : List Nat) : Prop := m.length = 256 ∧ ∀ v ∈ m, v < b
    let shares (y : Tile) (d : Nat) (l m : List Nat) : Tile := (y.pset f.w d m).pset f.w (d + 1) (List.zipWith (· ^^^ ·) l m)
    (s.takes t 0x46 f = true → 1 ≤ paramOf f → paramOf f ≤ 12 → ∃ m, fresh (2 ^ 16) m ∧ exec (.comp t f) s =
      .next (s.tileDone t (shares (s.drawnTile t 0x46 f) f.d (joined.map (compress q (paramOf f))) m) 120)) ∧
    (s.takes t 0x48 f = true → paramOf f < 2 → 0 < g → ∃ m k, fresh (2 ^ 32) m ∧ fresh (2 ^ 32) k ∧ exec (.decomp t f) s =
      .next (s.tileDone t (shares (shares (s.drawnTile t 0x48 f) f.d (joined.map (fun x => (decompose q g x).1)) m) f.c
        (joined.map (fun x => residue q (decompose q g x).2)) k) 240)) ∧
    (s.takes t 0x4C f = true → exec (.normchk t f) s = .next (s.tileDone t { s.nextTile t with
      cflag := joined.any (fun x => decide ((s.tile t).sn f.b ≤ (centred q x).natAbs)) } 96)) ∧
    (s.takes t 0x4F f = true → paramOf f = 0 → ∃ m, fresh (2 ^ laneBits f.w) m ∧ exec (.conv t f) s =
      .next (s.tileDone t (shares (s.drawnTile t 0x4F f) f.d joined m) (if f.w = 0 then 96 else 192))) ∧
    (s.takes t 0x4F f = true → paramOf f = 1 → ∃ m, fresh (max 1 q) m ∧ exec (.conv t f) s = .next (s.tileDone t
      (((s.drawnTile t 0x4F f).pset f.w f.d m).pset f.w (f.d + 1) (List.zipWith (subM q)
        (List.zipWith (· ^^^ ·) ((s.tile t).pget f.w f.a) ((s.tile t).pget f.w (f.a + 1))) m)) (if f.w = 0 then 96 else 192))))

/-- The samplers, CBD and packing complete on the tile they run on: a sampler takes the first 256 candidates that its sponge's output
gives, CBD the centred binomial coefficients of its bytes (masked, as fresh arithmetic shares), PACK stores at s[B] the fields of its
width, UNPACK reads them, each coefficient as it is or as s[C] minus it.
Completes: cbd, sampu, sampeta, sib, pack, unpack. -/
def Obligations.SamplersAndPackingComplete : Prop :=
  (∀ (s : State) (t eta n q a : Nat) (f : TileFields), s.takes t 0x42 f = true → s.attached t = false → eta = paramOf f → eta = 2 ∨ eta = 3 →
      n = 64 * eta → q = (s.tile t).q f.w → a = (s.tile t).sn f.a →
      (isMasked f = false → a + n ≤ 0x30000 → (s.tile t).held a n = false → exec (.cbd t f) s = .next (s.tileDone t ((s.nextTile t).pset 0 f.d
        ((List.range 256).map (cbdAt q eta ((s.tile t).bytes a n)))) (if eta = 3 then 24 else 16))) ∧
      (isMasked f = true → a + 2 * n ≤ 0x30000 → (s.tile t).held a (2 * n) = false → ∃ m : List Nat, m.length = 256 ∧ (∀ v ∈ m, v < max 1 q) ∧
        exec (.cbd t f) s = .next (s.tileDone t (((s.drawnTile t 0x42 f).pset 0 f.d m).pset 0 (f.d + 1) (List.zipWith (subM q)
          ((List.range 256).map (cbdAt q eta (List.zipWith (· ^^^ ·) ((s.tile t).bytes a n) ((s.tile t).bytes (a + n) n)))) m))
          (if eta = 3 then 72 else 48)))) ∧
  (∀ (s : State) (t step k : Nat) (f : TileFields) (cand : Bytes → List Nat), (s.tile t).sponge.squeezing = true → k ≤ 4096 →
      let found := (groups step k ((s.tile t).sponge.squeeze (step * k)).1).flatMap cand
      256 ≤ found.length →
      (s.takes t 0x43 f = true → step = 3 → (paramOf f = 0 ∧ cand = cand12 ((s.tile t).q f.w) ∨ paramOf f = 1 ∧ cand = cand23 ((s.tile t).q f.w)) →
        ∃ (p : Sponge) (tc : Nat), exec (.sampu t f) s = .next (s.tileDone t ({ s.nextTile t with sponge := p }.pset f.w f.d (found.take 256)) tc)) ∧
      (s.takes t 0x44 f = true → step = 1 → cand = candEta ((s.tile t).q f.w) (paramOf f) →
        ∃ (p : Sponge) (tc : Nat), exec (.sampeta t f) s = .next (s.tileDone t ({ s.nextTile t with sponge := p }.pset f.w f.d (found.take 256)) tc))) ∧
  (∀ (s : State) (t : Nat) (f : TileFields), s.takes t 0x45 f = true → (s.tile t).sponge.squeezing = true → paramOf f ≤ 64 →
      ∃ (p : Sponge) (tc : Nat), 136 ≤ tc ∧ exec (.sib t f) s = .next (s.tileDone t
        ({ s.nextTile t with sponge := p }.pset 1 f.d (sampleInBall ((s.tile t).q f.w) (paramOf f) (s.tile t).sponge).1) tc)) ∧
  (∀ (s : State) (t b a : Nat) (f : TileFields), s.attached t = false → b = paramOf f % 64 → 1 ≤ b → b ≤ 32 → a = (s.tile t).sn f.b →
      let flip (x : Nat) : Nat := if (paramOf f).testBit 6 then subM ((s.tile t).q f.w) ((s.tile t).sn f.c) x else x
      (s.takes t 0x4D f = true → 0x100 ≤ a → a + 32 * b ≤ 0x2E000 → (s.tile t).held a (32 * b) = false → exec (.pack t f) s = .next (s.tileDone t
        ((s.nextTile t).store a (leBytes (32 * b) (joinBits b (((s.tile t).pget f.w f.a).map flip)))) (16 + (32 * b + 63) / 64))) ∧
      (s.takes t 0x4E f = true → a + 32 * b ≤ 0x30000 → (s.tile t).held a (32 * b) = false → exec (.unpack t f) s = .next (s.tileDone t
        ((s.nextTile t).pset f.w f.d ((splitBits b 256 (leNat ((s.tile t).bytes a (32 * b)))).map flip)) (16 + (32 * b + 63) / 64))))

/-- Loads and stores of operand memory that are aligned and within the rights of Table 05-3 move exactly their bytes, long vectors in
any order of beats; a misaligned access raises ALIGN, one outside the rights BOUNDS, before any effect.
Completes: lds, sts, ldv, stv, ldp, stp, ldpx. -/
def Obligations.TileLoadsAndStores : Prop :=
  (∀ (s : State) (t : Nat) (f : TileFields) (addr : Nat), addr = ((s.tile t).sreg f.a + f.imm.signExtend 32).toNat → s.attached t = false →
      (s.takes t 0x50 f = true → addr % 4 = 0 → addr + 4 ≤ 0x30000 → (s.tile t).held addr 4 = false →
        exec (.lds t f) s = .next (s.tileDone t ((s.nextTile t).setS f.d (BitVec.ofNat 32 (leNat ((s.tile t).bytes addr 4)))) 1)) ∧
      (s.takes t 0x51 f = true → addr % 4 = 0 → 0x100 ≤ addr → addr + 4 ≤ 0x2E000 → (s.tile t).held addr 4 = false →
        exec (.sts t f) s = .next (s.tileDone t ((s.nextTile t).store addr (leBytes 4 ((s.tile t).sn f.d))) 1)) ∧
      (s.takes t 0x52 f = true → addr % 32 = 0 → addr + 32 ≤ 0x30000 → (s.tile t).held addr 32 = false →
        exec (.ldv t f) s = .next (s.tileDone t
          { s.nextTile t with v := tset f.d (BitVec.ofNat 256 (leNat ((s.tile t).bytes addr 32))) (s.tile t).v } 1)) ∧
      (s.takes t 0x53 f = true → addr % 32 = 0 → 0x100 ≤ addr → addr + 32 ≤ 0x2E000 → (s.tile t).held addr 32 = false →
        exec (.stv t f) s = .next (s.tileDone t ((s.nextTile t).store addr (leBytes 32 ((s.tile t).vreg f.d).toNat)) 1))) ∧
  (∀ (s : State) (t addr n : Nat) (f : TileFields), addr = ((s.tile t).sreg f.a + f.imm.signExtend 32).toNat → s.attached t = false →
      (s.tile t).full = true → n = (if f.w = 0 then 512 else 1024) →
      let bytes (h : Nat) := (List.range (n / (2 * 2 ^ f.w))).map (fun k => leNat ((s.tile t).bytes (addr + h * n + 2 * 2 ^ f.w * k) (2 * 2 ^ f.w)))
      let out (h : Nat) := ((s.tile t).pget f.w (f.d + h)).flatMap (leBytes (2 * 2 ^ f.w))
      (s.takes t 0x54 f = true → addr % 64 = 0 →
        (isMasked f = false → addr + n ≤ 0x30000 → (s.tile t).held addr n = false → ∃ y,
          exec (.ldp t f) s = .next (s.tileDone t y (if f.w = 0 then 8 else 16)) ∧ y.Alike ((s.drawnTile t 0x54 f).pset f.w f.d (bytes 0))) ∧
        (isMasked f = true → addr + 2 * n ≤ 0x30000 → (s.tile t).held addr (2 * n) = false → ∃ y,
          exec (.ldp t f) s = .next (s.tileDone t y (if f.w = 0 then 16 else 32)) ∧
          y.Alike (((s.drawnTile t 0x54 f).pset f.w f.d (bytes 0)).pset f.w (f.d + 1) (bytes 1)))) ∧
      (s.takes t 0x55 f = true → addr % 64 = 0 → 0x100 ≤ addr → Memory.wf (s.tile t).mem = true →
        (isMasked f = false → addr + n ≤ 0x2E000 → (s.tile t).held addr n = false → ∃ m,
          exec (.stp t f) s = .next (s.tileDone t { s.drawnTile t 0x55 f with mem := m } (if f.w = 0 then 8 else 16)) ∧ Memory.wf m = true ∧
          ∀ a, Memory.get a m = Memory.get a (Memory.write addr (out 0) (s.tile t).mem)) ∧
        (isMasked f = true → addr + 2 * n ≤ 0x2E000 → (s.tile t).held addr (2 * n) = false → ∃ m,
          exec (.stp t f) s = .next (s.tileDone t { s.drawnTile t 0x55 f with mem := m } (if f.w = 0 then 16 else 32)) ∧ Memory.wf m = true ∧
          ∀ a, Memory.get a m = Memory.get a (Memory.write addr (out 0 ++ out 1) (s.tile t).mem))) ∧
      (let at_ (i : Nat) : Nat := (BitVec.ofNat 32 addr + 4 * (((s.tile t).preg f.b)[i]?).getD 0).toNat
       s.takes t 0x56 f = true → (∀ i, i < 256 → at_ i % 4 = 0 ∧ at_ i + 4 ≤ 0x30000 ∧ (s.tile t).held (at_ i) 4 = false) → ∃ y,
          exec (.ldpx t f) s = .next (s.tileDone t y 32) ∧
          y.Alike ((s.nextTile t).pset 1 f.d ((List.range 256).map (fun i => leNat ((s.tile t).bytes (at_ i) 4)))))) ∧
  (∀ (s : State) (t addr : Nat) (f : TileFields), addr = ((s.tile t).sreg f.a + f.imm.signExtend 32).toNat →
      ∀ e ∈ [(Instr.lds t f, 0x50, 4, false), (.sts t f, 0x51, 4, true), (.ldv t f, 0x52, 32, false), (.stv t f, 0x53, 32, true)],
        s.takes t e.2.1 f = true →
        (addr % e.2.2.1 ≠ 0 → exec e.1 s = .next (s.tileFault t e.2.1 f 2 addr)) ∧
        (addr % e.2.2.1 = 0 → (0x30000 < addr + e.2.2.1 ∨ (e.2.2.2 = true ∧ (addr < 0x100 ∨ 0x2E000 < addr + e.2.2.1))) →
          exec e.1 s = .next (s.tileFault t e.2.1 f 3 addr)))

/-- Sponge and ring instructions and the transfers of a kernel: each issues what its rule gives and goes to the next instruction, and each
transfer that arrives changes the bytes, the state or the mailbox it names and nothing else (the requests of a RAND whose length is not
1 to 65,536 are the model's choice, log 78).
Completes: spinit, spabs, spfin, spsqz, rsend, rrecv, dmain, rand, ringTransferArrival, dmainComplete, randComplete. -/
def Obligations.SpongeAndTransfers : Prop :=
  (∀ (s : State) (t a n : Nat) (f : TileFields), a = (s.tile t).sn f.a → s.attached t = false →
      (s.takes t 0x60 f = true → f.imm.toNat % 256 < 4 → exec (.spinit t f) s =
        .next (s.tileDone t { s.nextTile t with sponge := ⟨[], f.imm.toNat % 256, false, 0, 0⟩ } 1)) ∧
      (s.takes t 0x61 f = true → n = (s.tile t).sn f.b → (s.tile t).sponge.squeezing = false → a + n ≤ 0x30000 → (s.tile t).held a n = false →
        exec (.spabs t f) s = .next (s.tileDone t { s.nextTile t with sponge := ((s.tile t).sponge.absorb (n + 1) 0 ((s.tile t).bytes a n)).1 }
          (2 + 24 * ((s.tile t).sponge.absorb (n + 1) 0 ((s.tile t).bytes a n)).2))) ∧
      (s.takes t 0x62 f = true → ∃ p, exec (.spfin t f) s = .next (s.tileDone t { s.nextTile t with sponge := p } 26) ∧
        p.mode = (s.tile t).sponge.mode ∧ p.squeezing = true ∧ p.pos = 0) ∧
      (s.takes t 0x63 f = true → n = (s.tile t).sn f.b → (s.tile t).sponge.squeezing = true → 0x100 ≤ a → a + n ≤ 0x2E000 →
        (s.tile t).held a n = false → ∃ p tc, exec (.spsqz t f) s =
          .next (s.tileDone t ({ s.nextTile t with sponge := p }.store a ((s.tile t).sponge.squeeze n).1) tc)) ∧
      (s.takes t 0x70 f = true → n = (s.tile t).sn f.c → (s.tile t).sn f.b < (s.tile t).size → (s.tile t).sn f.b ≠ (s.tile t).pos →
        (s.tile t).sn f.b ≠ 0xFF → a + n ≤ 0x2E000 → (s.tile t).held a n = false → exec (.rsend t f) s =
        .next (s.tileDone t ((s.nextTile t).addXfer [.send ((s.tile t).sn f.b) a n]) 1)) ∧
      (s.takes t 0x71 f = true → n = (s.tile t).sn f.c → (s.tile t).sn f.b < (s.tile t).size → (s.tile t).sn f.b ≠ (s.tile t).pos →
        0x100 ≤ a → a + n ≤ 0x2E000 → (s.tile t).held a n = false → exec (.rrecv t f) s =
        .next (s.tileDone t ((s.nextTile t).addXfer [.recv ((s.tile t).sn f.b) a n]) 1)) ∧
      (s.takes t 0x72 f = true → n = (s.tile t).sn f.c → (s.tile t).pos = 0 → 0x100 ≤ a → a + n ≤ 0x2E000 → (s.tile t).held a n = false →
        exec (.dmain t f) s = .next (s.tileDone t ((s.nextTile t).addXfer [.input (paramOf f) ((s.tile t).sn f.b) a n]) 1)) ∧
      (s.takes t 0x73 f = true → n = (s.tile t).sn f.c → (s.tile t).pos = 0 → 0x100 ≤ a → a + n ≤ 0x2E000 → (s.tile t).held a n = false →
        exec (.rand t f) s = .next (s.tileDone t ((s.nextTile t).addXfer (randPieces a n)) 1) ∧
          (1 ≤ n → n ≤ 65536 → randPieces a n = [.draw a n]))) ∧
  ((∀ (s : State) (t pos u b a n : Nat), s.arrival t = some (pos, u, b, a, n) → u ≠ t →
      exec (.ringTransferArrival t false) s = .next (s.tileCheck t 6) ∧
      ∃ s', exec (.ringTransferArrival t true) s = .next s' ∧ (s'.tile t).mem = Memory.write a ((s.tile u).bytes b n) (s.tile t).mem ∧
        (s'.tile t).xfers = (s.tile t).xfers.erase (.recv pos a n) ∧ (s'.tile u).xfers = (s.tile u).xfers.erase (.send (s.tile t).pos b n) ∧
        s'.regs = s.regs ∧ s'.jobs = s.jobs) ∧
    (∀ (s : State) (t w o a n : Nat) (j : Job) (bs : Bytes) (d : DmaResult), s.tileJob t = some j →
      (s.tile t).xfers = [.input w o a n] → s.jobInput j w o n (s.draw n).1 d = .inr bs →
      ∃ s', exec (.dmainComplete t d) s = .next s' ∧ (s'.tile t).mem = Memory.write a bs (s.tile t).mem ∧ (s'.tile t).xfers = [] ∧
        (d ≠ .corrected → s'.regs = s.regs) ∧ s'.jobs = s.jobs) ∧
    (∀ (s u : State) (t a n : Nat) (j : Job) (bs : Bytes) (st : Bool), s.tileJob t = some j → (s.tile t).xfers = [.draw a n] →
      j.kept (dClass j.desc == 0x10) = [] →
      s.jobDraw j (pPredRes (dParam j.desc) && !j.prGranted && (dClass j.desc == 0x10) == j.prHalf) n = .got bs st u →
      ∃ s', exec (.randComplete t) s = .next s' ∧ (s'.tile t).mem = Memory.write a bs (s.tile t).mem ∧ (s'.tile t).xfers = []) ∧
    (∀ (s : State) (t a n : Nat) (j : Job) (bs : Bytes) (l : List Bytes), s.tileJob t = some j → (s.tile t).xfers = [.draw a n] →
      j.kept (dClass j.desc == 0x10) = bs :: l →
      ∃ s', exec (.randComplete t) s = .next s' ∧ (s'.tile t).mem = Memory.write a bs (s.tile t).mem ∧ (s'.tile t).xfers = [] ∧
        s'.rng = s.rng ∧ s'.regs = s.regs))

/-! ### Queues and slices -/

/-- A 64-bit doorbell of an enabled slice whose queue is not DISABLED records the tail reduced by the ring size, or releases completion
entries up to the completion tail in force; any other write of a doorbell does nothing.
Completes: sqDoorbell, cqDoorbell. -/
def Obligations.DoorbellsSetThePointers : Prop :=
  (∀ (s : State) (n i : Nat) (v : DWord), s.hidden (.slmPgSqdb n i) = false → s.pageOpen n = true → s.queueState (64 * n + i) ≠ 0 →
      ∃ t, exec (.sqDoorbell n i 64 v) s = .next t ∧
        t.fld (.qmgQSqTail (64 * n + i)) 15 0 = getF v 15 0 % s.ringSize (64 * n + i) ∧ OnlyRegs [.qmgQSqTail (64 * n + i)] s t) ∧
  (∀ (s : State) (n i d : Nat) (v : DWord), s.hidden (.slmPgCqdb n i) = false → s.pageOpen n = true → s.queueState (64 * n + i) ≠ 0 →
      0 < s.ringSize (64 * n + i) → s.ringSize (64 * n + i) ≤ 65536 →
      d = min ((getF v 15 0 % s.ringSize (64 * n + i) + s.ringSize (64 * n + i) - s.fld (.qmgQCqHead (64 * n + i)) 15 0) %
        s.ringSize (64 * n + i)) (s.queueX (64 * n + i)).used →
      ∃ t, exec (.cqDoorbell n i 64 v) s = .next t ∧
        t.fld (.qmgQCqHead (64 * n + i)) 15 0 = (s.fld (.qmgQCqHead (64 * n + i)) 15 0 + d) % s.ringSize (64 * n + i) ∧
        t.queueX (64 * n + i) = { s.queueX (64 * n + i) with used := (s.queueX (64 * n + i)).used - d } ∧
        (∀ q, q ≠ 64 * n + i → t.queueX q = s.queueX q) ∧ (∀ r, r ≠ .qmgQCqHead (64 * n + i) → t.rd r = s.rd r) ∧
        t.jobs = s.jobs ∧ t.out = s.out ∧ t.ddr = s.ddr ∧ t.slots = s.slots) ∧
  (∀ (s : State) (n i w : Nat) (v : DWord), w ≠ 64 ∨ s.pageOpen n = false ∨ s.queueState (64 * n + i) = 0 →
      exec (.sqDoorbell n i w v) s = .next s ∧ exec (.cqDoorbell n i w v) s = .next s)

/-- A fetch that faults stops the queue in ERROR with WHERE 1, CODE and the entry's index; the head stays on the entry and no job
begins (R73); the last fetch that a quiescing slice with nothing in flight awaits leaves it QUIESCED (R80; that such a fetch is due is the
model's choice, log 75). -/
def Obligations.FailedFetchStopsTheQueue : Prop :=
  (∀ (s : State) (q n addr : Nat) (loc : Bool) (d gl : DmaResult), n = q / 64 → s.sliceBad n = false → loc = s.bit (.qmgQCtrl q) 1 →
    s.queueState q = 1 → s.fetchDue = [q] → s.sliceState n = 2 → s.sliceInflight n = 0 → s.inWindow n loc addr 128 = false →
    addr = s.fld (.qmgQSqBase q) 63 12 * 4096 + 128 * s.fld (.qmgQSqHead q) 15 0 →
    ∃ t, exec (.descriptorFetch q d gl) s = .next t ∧ t.queueState q = 2 ∧ t.fld (.qmgQErr q) 7 0 = 0x19 ∧ t.sliceState n = 3 ∧
      t.fetchDue = [] ∧ t.jobs = s.jobs ∧ t.rd (.qmgQSqHead q) = s.rd (.qmgQSqHead q)) ∧
  ∀ (s u : State) (q n addr : Nat) (loc : Bool) (d gl : DmaResult), n = q / 64 → s.sliceBad n = false → loc = s.bit (.qmgQCtrl q) 1 →
    s.queueState q = 1 → (q ∉ s.fetchDue ∧ s.fetchTurn = some q ∧ u = s.tookTurn q ∨ q ∈ s.fetchDue ∧ s.sliceInflight n ≠ 0 ∧ u = s.fetchEnded q) →
    addr = s.fld (.qmgQSqBase q) 63 12 * 4096 + 128 * s.fld (.qmgQSqHead q) 15 0 →
    (∀ e, (s.inWindow n loc addr 128 = false ∨ s.gatherRead n loc addr 128 d = .fault e) →
      ∃ t, exec (.descriptorFetch q d gl) s = .next t ∧ t.queueState q = 2 ∧ t.fld (.qmgQErr q) 7 0 = 0x19 ∧
        t.fld (.qmgQErr q) 15 8 = 1 ∧ t.fld (.qmgQErr q) 31 16 = s.fld (.qmgQSqHead q) 15 0 ∧
        OnlyRegs [.qmgQErr q, .qmgQCtrl q] u t) ∧
    (∀ line, s.inWindow n loc addr 128 = true → s.gatherRead n loc addr 128 d = .ecc line →
      ∃ t, exec (.descriptorFetch q d gl) s = .next t ∧ t.queueState q = 2 ∧ t.fld (.qmgQErr q) 7 0 = 0x1A ∧
        t.fld (.qmgQErr q) 15 8 = 1 ∧ t.fld (.qmgQErr q) 31 16 = s.fld (.qmgQSqHead q) 15 0 ∧
        RegsAndMessages [.qmgQErr q, .qmgQCtrl q, .ddrUeCount, .ddrUeAddr, .ddrEvtStatus] u t)

/-- The queue whose turn it is fetches, and no other; a descriptor that arrives is copied whole into a new job and the head moves past
it; the chosen waiting job starts on its unit with the key that the checks read; a started job's inputs, once read, stand in its unit,
or the job moves to cores of the kind its inline key asks for; a message grows by its next segment.
Completes: descriptorFetch, jobDispatch, messageSegmentFetch, inputsGathered. -/
def Obligations.FetchDispatchAndGather : Prop :=
  (∀ (s : State) (q : Nat) (d gl : DmaResult), s.sliceBad (q / 64) = false → q ∉ s.fetchDue → s.fetchTurn ≠ some q → exec (.descriptorFetch q d gl) s = .next s) ∧
  (∀ (s : State) (q : Nat) (d gl : DmaResult) (bs : Bytes), s.fetchTurn = some q → s.sliceBad (q / 64) = false → 0 < s.ringSize q → s.ringSize q ≤ 65536 →
      (∀ x ∈ s.jobs, x.id < s.nextJob) →
      s.inWindow (q / 64) (s.bit (.qmgQCtrl q) 1) (s.fld (.qmgQSqBase q) 63 12 * 4096 + 128 * s.fld (.qmgQSqHead q) 15 0) 128 = true →
      s.gatherRead (q / 64) (s.bit (.qmgQCtrl q) 1) (s.fld (.qmgQSqBase q) 63 12 * 4096 + 128 * s.fld (.qmgQSqHead q) 15 0) 128 d =
        .data bs →
      ∃ t y, exec (.descriptorFetch q d gl) s = .next t ∧ t.fld (.qmgQSqHead q) 15 0 = (s.fld (.qmgQSqHead q) 15 0 + 1) % s.ringSize q ∧
        t.nextJob = s.nextJob + 1 ∧ t.job? s.nextJob = some y ∧ y.desc = padTo 128 bs ∧ y.slice = q / 64 ∧ y.queue = q ∧
        y.index = s.fld (.qmgQSqHead q) 15 0 ∧ (y.phase = .waiting ∨ y.phase = .sealed) ∧
        (∀ k, k ≠ s.nextJob → t.job? k = s.job? k) ∧ t.slots = s.slots ∧ t.tiles = s.tiles ∧ t.ddr = s.ddr) ∧
  (∀ (s s' : State) (p : Nat) (u : JobUnit) (ue : SlotUe) (j : Job) (slot : Option Nat) (attr attr2 : DWord) (mat mat2 : Bytes),
      s.devState = 1 → s.bit .genState 4 = false → s.tamper.slotsDue = [] → (∀ x ∈ s.jobs, s.sliceBad x.slice = false) →
      s' = s.dropUncarried.dropUnmasked →
      ((u = .sc ∧ pickJob (fun _ => 0) (s'.jobs.filter (fun j => (opKinds (dOp j.desc)).isEmpty && decide (j.phase = .waiting)
            && s'.fenceOk j && s'.journalOk j && !s'.sliceBad j.slice)) = some j) ∨
        (u ≠ .sc ∧ ∃ r pr c, s'.rig = some r ∧ s'.poolRec p = some pr ∧ s'.bit (.fabPoolCtrl p) 0 = false ∧ s'.poolState pr ≠ 3 ∧
          s'.poolState pr ≠ 4 ∧ s'.coxChoose r pr u = (some j, c))) →
      s'.job? j.id = some j → j.phase = .waiting → j.ahead = false →
      (if u = .sc then s'.preCheck j ue = .inr (.ok slot attr mat attr2 mat2) else
        ∀ c, ({ s' with cox := c } : State).preCheck j ue = .inr (.ok slot attr mat attr2 mat2)) →
      ∃ t y, exec (.jobDispatch p u ue) s = .next t ∧ t.job? j.id = some y ∧ y.phase = .started ∧
        (y.unit = some u ∨ dClass j.desc = 0x10 ∧ (y.pq.unit = some u ∨ y.classical.unit = some u)) ∧ y.slot = slot ∧
        y.attr = attr ∧ y.key = mat ∧ y.attr2 = attr2 ∧ y.key2 = mat2 ∧ y.desc = j.desc ∧
        (∀ k, k ≠ j.id → t.job? k = s'.job? k)) ∧
  (∀ (s : State) (j : Nat) (x : Job) (main in2 in3 ctx : DmaResult) (a b c e : Bytes), s.job? j = some x → x.phase = .started →
      s.pcie.dlActive = true → s.sliceBad x.slice = false → dClass x.desc ≠ 0x0C → s.readMain x main = .data a →
      s.gatherRead x.slice (dFlag x.desc 2) (dIn2Addr x.desc) (dIn2Len x.desc) in2 = .data b →
      s.gatherRead x.slice (dFlag x.desc 2) (dIn3Addr x.desc) (dIn3Len x.desc) in3 = .data c →
      s.gatherRead x.slice (dFlag x.desc 2) (dCtxAddr x.desc) (dCtxLen x.desc) ctx = .data e →
      (x.wrongKind b = false →
        ∃ t y, exec (.inputsGathered j main in2 in3 ctx) s = .next t ∧ t.job? j = some y ∧ y.phase = .gathered ∧ y.main = a ∧ y.in2 = b ∧
          y.in3 = c ∧ y.ctx = e ∧ y.key = x.key ∧ y.desc = x.desc ∧ (∀ k, k ≠ j → t.job? k = s.job? k) ∧ t.slots = s.slots) ∧
      (x.wrongKind b = true → s.leaving = false →
        ∃ t y, exec (.inputsGathered j main in2 in3 ctx) s = .next t ∧ t.job? j = some y ∧ y.phase = .waiting ∧ y.ahead = true ∧ y.in2 = b ∧
          y.unit = none ∧ y.desc = x.desc ∧ (∀ k, k ≠ j → t.job? k = s.job? k) ∧ t.slots = s.slots)) ∧
  (∀ (s : State) (j n : Nat) (x : Job) (d : DmaResult) (bs : Bytes), s.job? j = some x → x.phase = .started →
      dClass x.desc = 0x0C → s.pcie.dlActive = true → s.sliceBad x.slice = false → n = min 4096 (dInLen x.desc - x.main.length) → 0 < n →
      dSgl x.desc = 0 → s.gatherRead x.slice (dFlag x.desc 2) (dInAddr x.desc + x.main.length) n d = .data bs →
      ∃ t y, exec (.messageSegmentFetch j d) s = .next t ∧ t.job? j = some y ∧ y.main = x.main ++ bs ∧ y.phase = x.phase ∧
        (∀ k, k ≠ j → t.job? k = s.job? k) ∧ t.slots = s.slots ∧ t.ddr = s.ddr)

/-- A sealed job's completion takes it out of flight; its output is written before its entry, split at the payload size, and only the
output with relaxed ordering; the entry advances the ring, or is held and the queue stops in ERROR when it cannot be written. A DESTROY
of the last slot of a counter cell waits for the write that frees the cell. The time limit of a queue with pending completions sends its
message and zeroes the count.
Completes: completionEntryWrite, modTimeExpiry. -/
def Obligations.CompletionsAreWritten : Prop :=
  (∀ (s : State) (j q i : Nat) (x : Job) (r : Result) (outUe : LineUe) (cqUe : Bool), s.job? j = some x → x.phase = .sealed →
      x.result = some r → s.pcie.dlActive = true → s.sliceBad x.slice = false → s.tamper.slotsDue = [] →
      (∀ a ∈ r.commit.slots, s.slotBad a = false) → s.mustFree r = none → q = x.queue → i = (s.cqAhead q 0).1 →
      ∃ t, exec (.completionEntryWrite j outUe cqUe) s = .next t ∧ t.job? j = none ∧
        t.rd (.qmgQCompleted q) = s.rd (.qmgQCompleted q) + 1 ∧
        ((s.queueX q).held = [] → s.cqWritable q i cqUe = none →
          (s.fld (.qmgQCqTail q) 15 0 + 1 < s.ringSize q → s.ringSize q ≤ 65536 →
            t.fld (.qmgQCqTail q) 15 0 = s.fld (.qmgQCqTail q) 15 0 + 1 ∧ t.fld (.qmgQCqTail q) 16 16 = s.fld (.qmgQCqTail q) 16 16) ∧
          (s.fld (.qmgQCqTail q) 15 0 + 1 = s.ringSize q →
            t.fld (.qmgQCqTail q) 15 0 = 0 ∧ t.fld (.qmgQCqTail q) 16 16 = 1 - s.fld (.qmgQCqTail q) 16 16)) ∧
        (∀ code, (s.queueX q).held = [] → s.cqWritable q i cqUe = some code →
          t.fld (.qmgQErr q) 7 0 = code ∧ t.fld (.qmgQErr q) 15 8 = 2 ∧ t.rd (.qmgQCqTail q) = s.rd (.qmgQCqTail q) ∧
            (t.queueX q).held.length = 1 ∧ (s.queueState q = 1 → t.queueState q = 2)) ∧
        ((s.queueX q).held ≠ [] → t.rd (.qmgQCqTail q) = s.rd (.qmgQCqTail q) ∧ (t.queueX q).held.dropLast = (s.queueX q).held)) ∧
  (∀ (s : State) (j q : Nat) (x : Job) (out : Bytes) (outUe : LineUe) (cqUe : Bool), s.job? j = some x → x.phase = .sealed →
      x.result = some (.done out) → dOp x.desc ≠ 0x0D04 → s.pcie.dlActive = true → s.sliceBad x.slice = false → s.tamper.slotsDue = [] →
      s.hostFault x.slice = false → dFlag x.desc 3 = false → q = x.queue → s.bit (.qmgQCtrl q) 2 = false → x.slice = q / 64 →
      s.inWindow x.slice false (s.cqAddr q (s.fld (.qmgQCqTail q) 15 0)) 32 = true → s.fld (.qmgQCqTail q) 15 0 < s.ringSize q →
      (s.queueX q).held = [] → dFlag x.desc 0 = false → s.queueState q = 1 → s.sliceState x.slice = 1 →
      ∃ t, exec (.completionEntryWrite j outUe cqUe) s = .next t ∧ t.out = s.out ++ s.posted x.slice (dOutAddr x.desc) out s.pcie.relaxed ++
        s.posted x.slice (s.cqAddr q (s.fld (.qmgQCqTail q) 15 0)) (cqEntry (dTag x.desc) 0 (s.fld (.qmgQCqTail q) 16 16) x.retried
          x.stretched (s.fld (.qmgQSqHead q) 15 0) out.length 0 s.now) false) ∧
  (∀ (s : State) (j a : Nat) (x : Job) (r : Result) (outUe : LineUe) (cqUe : Bool), s.job? j = some x → x.phase = .sealed →
      x.result = some r → s.pcie.dlActive = true → s.sliceBad x.slice = false → s.tamper.slotsDue = [] → r.commit = .empty a →
      s.slotBad a = false → s.lastOfCell a = true →
      ∃ t, exec (.completionEntryWrite j outUe cqUe) s = .next t ∧ (t.cell (attrCell (s.slotAt a).attr)).freeing = true ∧
        t.jobs = s.jobs ∧ t.slots = s.slots ∧ t.out = s.out) ∧
  (∀ (s : State) (q v : Nat), s.fld (.qmgQMod q) 25 16 ≠ 0 → 0 < (s.queueX q).pendInt → s.queueVector q = some v →
      ∃ t, exec (.modTimeExpiry q) s = .next t ∧ (t.queueX q).pendInt = 0 ∧ (∀ r, t.rd r = s.rd r) ∧ t.jobs = s.jobs ∧
        (s.pcie.dlActive = true → s.canSend v = true → t.out = s.out ++ [.msix v (s.vector v).addr (s.vector v).data]) ∧
        (s.pcie.dlActive = true → s.canSend v = false → v ∈ t.msixPend ∧ t.out = s.out))

/-- ENABLE from 0 to 1 zeroes the queue's pointers, error and in-flight count, sets the phase and makes it RUNNING; ENABLE 0 drains it,
and it is DISABLED once nothing of it is in flight; a restart of a queue in ERROR writes what is held and makes it RUNNING, or the
error stands again.
Completes: queueEnable, queueDisable, qmgQRestart, slmPgQrestart. -/
def Obligations.QueueControl : Prop :=
  (∀ (s : State) (q : Nat) (v : DWord), s.hidden (.qmgQCtrl q) = false → s.queueState q = 0 →
      ∃ t, exec (.queueEnable q v) s = .next t ∧ t.queueState q = 1 ∧ t.bit (.qmgQCtrl q) 0 = true ∧ t.rd (.qmgQSqTail q) = 0 ∧
        t.rd (.qmgQSqHead q) = 0 ∧ t.rd (.qmgQCqHead q) = 0 ∧ t.fld (.qmgQCqTail q) 15 0 = 0 ∧ t.fld (.qmgQCqTail q) 16 16 = 1 ∧
        t.rd (.qmgQErr q) = 0 ∧ t.rd (.qmgQInflight q) = 0 ∧ (t.queueX q).used = 0 ∧ t.jobs = s.jobs ∧
        (∀ r, r ∉ [Reg.qmgQCtrl q, .qmgQSqTail q, .qmgQSqHead q, .qmgQCqHead q, .qmgQCqTail q, .qmgQErr q, .qmgQInflight q, .qmgQCompleted q] →
          t.rd r = s.rd r)) ∧
  (∀ (s : State) (q : Nat) (v : DWord), s.hidden (.qmgQCtrl q) = false → s.queueState q = 1 ∨ s.queueState q = 2 →
      ∃ t, exec (.queueDisable q v) s = .next t ∧ t.bit (.qmgQCtrl q) 0 = false ∧ t.slots = s.slots ∧
        t.queueState q = (if s.queueInflight q = 0 then 0 else 3) ∧
        ((s.jobs.map (·.id)).Nodup → ∀ x ∈ s.jobs, x.queue = q → x.phase = .waiting → x.ahead = false →
          ∃ y, t.job? x.id = some y ∧ y.phase = .sealed ∧ y.result = some (.fail 0x40 0))) ∧
  (∀ (s : State) (q : Nat) (v : DWord) (ue : List Nat), s.hidden (.qmgQCtrl q) = false → s.queueState q = 2 → getB v 0 = true →
      ((∀ h ∈ (s.queueX q).held, s.cqWritable q h.idx (decide (h.idx ∈ ue)) = none) →
        ∃ t, exec (.qmgQRestart q v ue) s = .next t ∧ t.queueState q = 1 ∧ t.rd (.qmgQErr q) = 0 ∧ (t.queueX q).held = [] ∧
          t.jobs = s.jobs ∧ t.rd (.qmgQSqHead q) = s.rd (.qmgQSqHead q)) ∧
      (∀ code h l, (s.queueX q).held = h :: l → s.cqWritable q h.idx (decide (h.idx ∈ ue)) = some code →
        ∃ t, exec (.qmgQRestart q v ue) s = .next t ∧ t.queueState q = 2 ∧ t.fld (.qmgQErr q) 7 0 = code ∧
          t.fld (.qmgQErr q) 15 8 = 2 ∧ (t.queueX q).held = h :: l ∧ t.jobs = s.jobs)) ∧
  (∀ (s : State) (n q : Nat) (v : DWord) (ue : List Nat), s.hidden (.slmPgQrestart n) = false → s.pageOpen n = true →
      q = 64 * n + getF v 5 0 → s.queueState q = 2 →
      ((∀ h ∈ (s.queueX q).held, s.cqWritable q h.idx (decide (h.idx ∈ ue)) = none) →
        ∃ t, exec (.slmPgQrestart n v ue) s = .next t ∧ t.queueState q = 1 ∧ t.rd (.qmgQErr q) = 0 ∧ (t.queueX q).held = [] ∧
          t.jobs = s.jobs ∧ t.rd (.qmgQSqHead q) = s.rd (.qmgQSqHead q)) ∧
      (∀ code h l, (s.queueX q).held = h :: l → s.cqWritable q h.idx (decide (h.idx ∈ ue)) = some code →
        ∃ t, exec (.slmPgQrestart n v ue) s = .next t ∧ t.queueState q = 2 ∧ t.fld (.qmgQErr q) 7 0 = code ∧
          t.fld (.qmgQErr q) 15 8 = 2 ∧ (t.queueX q).held = h :: l ∧ t.jobs = s.jobs)) ∧
  (∀ (s : State) (q : Nat) (ue : List Nat), s.queueState q ≠ 2 → s.restartQueue q ue = s)

/-- Refused writes of SLM_SLICE_CTRL: PASID_OFF for an enable or an unquiesce without the capability's PASID Enable, SLICE_BUSY for a
reset of a slice not QUIESCED, for ENABLE 0 while ACTIVE or QUIESCING, and for everything while RESETTING (R44, R77). -/
def Obligations.RefusedSliceWrites : Prop :=
  ∀ (s : State) (n : Nat) (v : DWord), s.hidden (.slmSliceCtrl n) = false → s.sliceBad n = false →
    (s.bit (.slmSlicePasid n) 31 = true → s.pcie.pasidEnable = false → getB v 2 = false →
      (s.sliceState n = 0 → ∃ t, exec (.sliceEnable n v) s = .next t ∧ t.fld (.slmSliceStat n) 15 8 = 2 ∧ OnlyRegs [.slmSliceStat n] s t) ∧
      (s.sliceState n = 2 ∨ s.sliceState n = 3 → getB v 0 = true →
        ∃ t, exec (.sliceUnquiesce n v) s = .next t ∧ t.fld (.slmSliceStat n) 15 8 = 2 ∧ OnlyRegs [.slmSliceStat n] s t)) ∧
    (s.sliceState n ≠ 3 → ∃ t, exec (.sliceReset n v) s = .next t ∧ t.fld (.slmSliceStat n) 15 8 = 1 ∧ OnlyRegs [.slmSliceStat n] s t) ∧
    (s.sliceState n = 1 ∨ s.sliceState n = 2 →
      ∃ t, exec (.sliceDisable n v) s = .next t ∧ t.fld (.slmSliceStat n) 15 8 = 1 ∧ t.sliceState n = s.sliceState n ∧
        OnlyRegs [.slmSliceStat n] s t) ∧
    (s.sliceState n = 3 → exec (.sliceDisable n v) s = exec (.sliceReset n v) s ∧
      ∃ t, exec (.sliceDisable n v) s = .next t ∧ t.fld (.slmSliceStat n) 15 8 = 0 ∧ t.sliceState n = 4) ∧
    (s.sliceState n = 4 → ∀ c ∈ [Instr.sliceEnable n v, .sliceQuiesce n v, .sliceUnquiesce n v, .sliceReset n v, .sliceDisable n v,
        .bneCompatSet n v, .registerWrite .bar0 (0x100000 + 256 * n) 32 v],
      n < 512 → ∃ t, exec c s = .next t ∧ t.fld (.slmSliceStat n) 15 8 = 1 ∧ t.sliceState n = 4 ∧ OnlyRegs [.slmSliceStat n] s t)

/-- Accepted slice writes: an enable makes a DISABLED slice ACTIVE, QUIESCE stops it and cancels what has not started, clearing QUIESCE
makes it ACTIVE again, a reset, or clearing ENABLE, runs from QUIESCED to DISABLED and leaves key slots alone, clearing ENABLE of a DISABLED
slice stores the other bits; BNE_COMPAT wipes what the slice held on the
BNE; VEC_COUNT and HOLD are taken.
Completes: sliceEnable, sliceQuiesce, sliceUnquiesce, sliceReset, sliceDisable, sliceResetComplete, bneCompatSet, vecCountWrite,
poolHoldWrite. -/
def Obligations.SliceControl : Prop :=
  (∀ (s : State) (n : Nat) (v : DWord), s.hidden (.slmSliceCtrl n) = false → s.sliceBad n = false → getB v 2 = false →
      (s.sliceState n = 0 → s.pasidOff n = false → getB v 1 = false →
        ∃ t, exec (.sliceEnable n v) s = .next t ∧ t.sliceState n = 1 ∧ t.bit (.slmSliceCtrl n) 0 = true ∧ t.fld (.slmSliceStat n) 15 8 = 0 ∧
          t.jobs = s.jobs ∧ t.slots = s.slots) ∧
      (s.sliceState n = 1 → getB v 0 = true →
        ∃ t, exec (.sliceQuiesce n v) s = .next t ∧ t.sliceState n =
            (if s.sliceInflight n = 0 ∧ (s.fetchDue ++ s.fetchTurn.toList).all (fun q => q / 64 != n) then 3 else 2) ∧
          t.bit (.slmSliceCtrl n) 1 = true ∧ t.slots = s.slots ∧
          ((s.jobs.map (·.id)).Nodup → ∀ x ∈ s.jobs, x.slice = n → x.phase = .waiting → x.ahead = false →
            ∃ y, t.job? x.id = some y ∧ y.phase = .sealed ∧ y.result = some (.fail 0x40 0))) ∧
      (s.sliceState n = 2 ∨ s.sliceState n = 3 → s.pasidOff n = false → getB v 0 = true →
        ∃ t, exec (.sliceUnquiesce n v) s = .next t ∧ t.sliceState n = 1 ∧ t.bit (.slmSliceCtrl n) 1 = false ∧ t.jobs = s.jobs ∧
          t.slots = s.slots) ∧
      (s.sliceState n = 0 → getB v 0 = false →
        ∃ t, exec (.bneCompatSet n v) s = .next t ∧ t.bit (.slmSliceCtrl n) 4 = true ∧ t.sliceState n = 0 ∧ t.jobs = s.jobs ∧
          (s.bit (.slmSliceCtrl n) 4 = false →
            ∀ c, c < 8 → (t.bcore c).f0 ≠ some n ∧ (t.bcore c).f1 ≠ some n ∧ ∀ e ∈ (t.bcore c).res, e.2.owner ≠ some n))) ∧
  (∀ (s : State) (n : Nat) (v : DWord), s.hidden (.slmSliceCtrl n) = false → s.sliceBad n = false → getB v 2 = false →
      (s.sliceState n = 3 →
        ∃ t, exec (.sliceDisable n v) s = .next t ∧ t.sliceState n = 4 ∧ t.fld (.slmSliceStat n) 15 8 = 0 ∧
          (∀ i, i < 64 → t.queueState (64 * n + i) = 0) ∧ t.slots = s.slots ∧ t.ddr = s.ddr) ∧
      (s.sliceState n = 0 →
        ∃ t, exec (.sliceDisable n v) s = .next t ∧ t.sliceState n = 0 ∧ t.bit (.slmSliceCtrl n) 0 = false ∧
          t.bit (.slmSliceCtrl n) 1 = getB v 1 ∧ t.bit (.slmSliceCtrl n) 4 = getB v 4 ∧ t.fld (.slmSliceStat n) 15 8 = 0 ∧ t.jobs = s.jobs ∧
          t.slots = s.slots)) ∧
  (∀ (s : State) (n : Nat) (v : DWord), s.hidden (.slmSliceCtrl n) = false → s.sliceBad n = false → s.sliceState n = 3 → n < 512 →
      (∃ t, exec (.sliceReset n v) s = .next t ∧ t.sliceState n = 4 ∧ t.fld (.slmSliceStat n) 15 8 = 0 ∧
        (∀ i, i < 64 → t.queueState (64 * n + i) = 0 ∧ t.rd (.qmgQErr (64 * n + i)) = 0 ∧ t.queueX (64 * n + i) = ⟨0, 0, [], []⟩) ∧
        (∀ w ∈ t.msixPend, w / 4 ≠ n) ∧ (∀ c, c < 16 → (t.rdeOf c).owner ≠ some (.slice n)) ∧
        (∀ c, c < 8 → ∀ e ∈ (t.bcore c).res, e.2.owner ≠ some n) ∧
        t.slots = s.slots ∧ t.ddr = s.ddr ∧ t.rd (.slmSliceKeywin n) = s.rd (.slmSliceKeywin n))) ∧
  (∀ (s : State) (n : Nat), s.sliceState n = 4 →
      ∃ t, exec (.sliceResetComplete n) s = .next t ∧ t.sliceState n = 0 ∧ t.bit (.slmSliceCtrl n) 0 = false ∧
        t.bit (.slmSliceCtrl n) 1 = false ∧ OnlyRegs [.slmSliceStat n, .slmSliceCtrl n] s t) ∧
  (∀ (s : State) (n : Nat) (v : DWord), s.hidden (.slmSliceMsix n) = false →
      ∃ t, exec (.vecCountWrite n v) s = .next t ∧ t.fld (.slmSliceMsix n) 2 0 = min 4 (getF v 2 0) ∧
        (∀ w, w ∈ t.msixPend ↔ w ∈ s.msixPend ∧ (w / 4 = n → w % 4 < min 4 (getF v 2 0))) ∧
        (∀ i, i < 64 → t.fld (.qmgQCtrl (64 * n + i)) 5 4 = min (s.fld (.qmgQCtrl (64 * n + i)) 5 4) (min 4 (getF v 2 0) - 1)) ∧
        t.jobs = s.jobs ∧ t.out = s.out) ∧
  (∀ (s : State) (p : Nat) (v : DWord), s.hidden (.fabPoolCtrl p) = false →
      ∃ t, exec (.poolHoldWrite p v) s = .next t ∧ t.bit (.fabPoolCtrl p) 0 = getB v 0 ∧ OnlyRegs [.fabPoolCtrl p] s t)

/-! ### The fabric, tiles in debug, the cores, the digest contexts -/

/-- A machine check takes its tile OFFLINE into BIST, counted, logged and reported, and its shell's job is re-executed; a corrected
error is counted; an idle scrub that finds nothing leaves its time, one that finds a bad word is a machine check; the background BIST of
a spare begins with its wipe.
Completes: watchdogExpiry, ringTimeout, tileIdleScrub, sparePeriodicBist. -/
def Obligations.TileMachineChecks : Prop :=
  (∀ (c : Instr) (s : State) (t cause : Nat), (s.tile t).back ≠ 4 → s.tileState t ≤ 2 →
      ((c = .watchdogExpiry t ∧ cause = 7 ∧ (s.tile t).running = true ∧ s.shellRuns t = true) ∨
        (c = .ringTimeout t ∧ cause = 9 ∧ ∃ sh, s.shellOf t = some sh ∧ (s.shellJob (some sh)).isSome = true ∧
          1 < (s.shellTiles sh).length ∧ ∀ u ∈ s.shellTiles sh, (s.tile u).halt = none) ∨
        (c = .tileIdleScrub t cause ∧ cause ∈ [1, 2, 3, 4, 5, 6, 8]) ∨
        (c = .tileIdleScrub t 0 ∧ (s.tile t).running = false ∧ (s.tile t).scrub = some cause)) →
      ∃ s', exec c s = .next s' ∧ s'.tileState t = 3 ∧ s'.fld (.fabTileStat t) 23 20 = cause ∧
        s'.fld (.fabTileStat t) 19 16 = min 15 (s.fld (.fabTileStat t) 19 16 + 1) ∧
        s'.fld .fabMcCount 31 0 = min (2 ^ 32 - 1) (s.fld .fabMcCount 31 0 + 1) ∧ s'.bit .fabEvtStatus 0 = true ∧
        (s'.tile t).bist = some (.check (s.fld .fabMclogHead 5 0) s.now) ∧ (s'.tile t).running = false ∧
        (∀ x sh, s.shellOf t = some sh → s.shellJob (some sh) = some x → s.job? x.id = some x → x.On (.shell sh) → x.failures < 2 →
          ∃ y, s'.job? x.id = some y ∧ y.retried = true ∧ y.desc = x.desc)) ∧
  (∀ (s : State) (t : Nat), s.tileState t ≤ 2 →
      (exec (.tileIdleScrub t 15) s = .next (s.bump .fabCeCount)) ∧
      ((s.tile t).running = false → (s.tile t).scrub = none →
        ∃ s', exec (.tileIdleScrub t 0) s = .next s' ∧ s'.rd (.tilScrub t) = s.rd .genTime ∧ OnlyRegs [.tilScrub t] s s')) ∧
  (∀ (s : State) (t : Nat), s.tileState t = 2 →
      ∃ s', exec (.sparePeriodicBist t) s = .next s' ∧ s'.tile t = { (s.tile t).wipe with periodic := true, joining := (s.tile t).joining } ∧
        (∀ u, u ≠ t → s'.tile u = s.tile u) ∧ s'.regs = s.regs ∧ s'.jobs = s.jobs)

/-- Spares, periodic and waking BIST, and the mask budgets of tiles: a spare fills its shell, a BIST's outcome returns or retires its
tile, a tile without a seed stays OFFLINE, a reseed request past its budget zeroes the count, an exhausted budget stops hardened work.
Completes: spareJoin, tileBistComplete, maskReseedRequest, maskBudgetSpent. -/
def Obligations.SparesBistAndBudgets : Prop :=
  ((∀ (s : State) (t sh : Nat), (s.tile t).joining = some sh → (s.tile t).periodic = false →
        s.tileState t = 2 → s.fld (.fabIslStat (islandOf t)) 6 4 = 0 → t < 96 → sh < 96 → s.seedServed t = true →
        ∃ r, exec (.spareJoin t sh true) s = .next r ∧ r.tileState t = 1 ∧ r.shellOf t = some sh ∧ (r.tile t).joining = none ∧
          tget 0 t r.maskJobs = 0 ∧ r.bit .fabEvtStatus 1 = true ∧ r.jobs = s.jobs) ∧
    (∀ (s : State) (t sh : Nat), (s.tile t).joining = some sh → (s.tile t).periodic = false → s.tileState t = 2 →
        s.fld (.fabIslStat (islandOf t)) 6 4 = 0 →
        ∃ r, exec (.spareJoin t sh false) s = .next r ∧ r.tileState t = 4 ∧ (r.tile t).joining = none ∧ r.bit .fabEvtStatus 3 = true) ∧
    (∀ (s : State) (t : Nat) (why : BistFor), (s.tile t).bist = some why → (s.tile t).unseeded = false → s.tileState t ≠ 5 →
        (s.tile t).back ≠ 4 →
        (∃ r, exec (.tileBistComplete t false) s = .next r ∧ r.tileState t = 4 ∧ r.fld (.fabTileStat t) 25 24 = 2 ∧ (r.tile t).bist = none) ∧
        (s.seedServed t = true →
          (why = .bringUp → ∃ r, exec (.tileBistComplete t true) s = .next r ∧ (r.tileState t = 1 ∨ r.tileState t = 2) ∧
            r.fld (.fabTileStat t) 25 24 = 1 ∧ r.bit .fabEvtStatus 4 = true) ∧
          (∀ e now, why = .check e now → s.fld (.fabTileStat t) 19 16 < s.fld .fabMcLimit 3 0 →
            ∃ r, exec (.tileBistComplete t true) s = .next r ∧ (r.tileState t = 1 ∨ r.tileState t = 2) ∧
              (s.fld (.fabMclogInfo e) 6 0 = t → s.fld (.fabMclogTime e) 63 0 = now → r.fld (.fabMclogInfo e) 34 32 = 1)) ∧
          (∀ e now, why = .check e now → s.fld .fabMcLimit 3 0 ≤ s.fld (.fabTileStat t) 19 16 →
            ∃ r, exec (.tileBistComplete t true) s = .next r ∧ r.tileState t = 4 ∧ r.bit .fabEvtStatus 3 = true ∧
              (s.fld (.fabMclogInfo e) 6 0 = t → s.fld (.fabMclogTime e) 63 0 = now → r.fld (.fabMclogInfo e) 34 32 = 3))) ∧
        (s.drbState (s.maskDrb t) = 0 → ∃ r, exec (.tileBistComplete t true) s = .next r ∧ (r.tile t).unseeded = true ∧
          r.fld (.fabTileStat t) 25 24 = 3 ∧ r.tileState t = s.tileState t ∧
          OnlyRegs [.fabTileStat t, .tilScrub t] s { r with tiles := s.tiles })) ∧
    (∀ (s : State) (t : Nat), (s.tile t).bist = none → (s.tile t).periodic = true → s.seedServed t = true →
        ∃ r, exec (.tileBistComplete t true) s = .next r ∧ (r.tile t).periodic = false ∧ r.fld (.fabTileStat t) 25 24 = 1 ∧
          tget 0 t r.maskJobs = 0 ∧ r.tileState t = s.tileState t ∧ r.jobs = s.jobs)) ∧
  ((∀ (s : State) (t : Nat), 3584 ≤ tget 0 t s.maskJobs →
        ((s.tile t).running = true →
          ∃ r, exec (.maskReseedRequest t) s = .next r ∧ r.bit (.fabTileStat t) 26 = true ∧ OnlyRegs [.fabTileStat t] s r) ∧
        ((s.tile t).running = false → s.seedServed t = true →
          ∃ r, exec (.maskReseedRequest t) s = .next r ∧ tget 0 t r.maskJobs = 0 ∧ r.bit (.fabTileStat t) 26 = false ∧
            (r.tile t).fifo = [] ∧ r.jobs = s.jobs)) ∧
    (∀ (s : State) (t : Nat), 4096 ≤ tget 0 t s.maskJobs →
        ∃ r, exec (.maskBudgetSpent t) s = .next r ∧ r.maskJobs = s.maskJobs ∧
          ((∀ e ∈ s.maskJobs, e.1 ≠ t → e.2 < 4096) → r.bit .fabEvtStatus 6 = true)) ∧
    (∀ (s : State) (t : Nat), tget 0 t s.maskJobs < 3584 → exec (.maskReseedRequest t) s = .next s ∧ exec (.maskBudgetSpent t) s = .next s))

/-- Without the tile-debug right every debug command is ignored; under it ATTACH is stored and its clearing disables the stops, HALT halts
a tile between instructions with CAUSE 10 or after the beats it names, RESUME and STEP go on from there, ABANDON gives the job up with
ABANDONED set.
Completes: tilDbgAttach, tilDbgHalt, tilDbgResume, tilDbgStep, tilDbgAbandon. -/
def Obligations.TileDebugCommands : Prop :=
  (∀ (s : State) (t n : Nat) (on : Bool), s.tileDebug = false → s.shadowBad .dbgRights = false →
      ∀ c ∈ [Instr.tilDbgAttach t on, .tilDbgHalt t n, .tilDbgResume t, .tilDbgStep t, .tilDbgAbandon t], exec c s = .next s) ∧
  (∀ (s : State) (t : Nat), s.tileDebug = true → s.shadowBad .dbgRights = false → s.hidden (.tilDbgCtrl t) = false →
      (∃ r, exec (.tilDbgAttach t true) s = .next r ∧ r.attached t = true ∧ OnlyRegs [.tilDbgCtrl t] s r) ∧
      ((s.tile t).halt = none → ∃ r, exec (.tilDbgAttach t false) s = .next r ∧ r.attached t = false ∧ r.bit (.tilDbgBp0 t) 31 = false ∧
        r.bit (.tilDbgBp1 t) 31 = false ∧ r.bit (.tilDbgWp t) 63 = false ∧ r.tile t = { s.tile t with haltIn := none } ∧
        OnlyRegs [.tilDbgCtrl t, .tilDbgBp0 t, .tilDbgBp1 t, .tilDbgWp t] s { r with tiles := s.tiles }) ∧
      (s.attached t = true →
        ((s.tile t).halt = none →
          (∃ r, exec (.tilDbgHalt t 0) s = .next r ∧
            r.tile t = { s.tile t with halt := some ⟨10, 0, .none, none, false, false⟩, haltIn := none } ∧ r.fld (.tilDbgStat t) 11 8 = 10 ∧
            (∀ u, u ≠ t → r.tile u = s.tile u) ∧ r.jobs = s.jobs) ∧
          (∀ n, 0 < n → ∃ r, exec (.tilDbgHalt t n) s = .next r ∧ r.tile t = { s.tile t with haltIn := some n } ∧
            (∀ u, u ≠ t → r.tile u = s.tile u) ∧ r.regs = s.regs ∧ r.jobs = s.jobs)) ∧
        (∀ h, (s.tile t).halt = some h → h.imprecise = false → h.cause = 11 ∨ (h.cause = 10 ∧ h.instr = none) →
          (∃ r, exec (.tilDbgResume t) s = .next r ∧ r.tile t = { s.tile t with halt := none } ∧ r.fld (.tilDbgStat t) 11 8 = 0 ∧
            OnlyRegs [.tilDbgStat t] s { r with tiles := s.tiles }) ∧
          (∀ f w, (s.tile t).running = true → (s.tile t).ended = false → (s.tile t).imem[(s.tile t).pc]? = some w →
            decodeTile w = (0, f) → wordLegal 0 f = true → s.breakHit t (s.tile t).pc = false → (s.tile t).haltIn = none →
            ∃ r, exec (.tilDbgStep t) s = .next r ∧ (r.tile t).pc = ((s.tile t).pc + 1) % 8192 ∧
              (r.tile t).halt = some ⟨11, 0, .none, none, false, false⟩ ∧ (r.tile t).mem = (s.tile t).mem)) ∧
        ((s.tile t).halt.isSome = true → (s.tile t).running = true →
          (∃ r, exec (.tilDbgAbandon t) s = .next r ∧ r.bit (.tilDbgStat t) 1 = true) ∧
          (∀ x sh, s.shellOf t = some sh → (s.onUnit (.shell sh)).head? = some x → s.job? x.id = some x → x.On (.shell sh) →
            x.failures < 2 → ∃ r y, exec (.tilDbgAbandon t) s = .next r ∧ r.job? x.id = some y ∧ y.retried = true))))

/-- Tile commands: BRING_UP starts a BIST of a tile not in service, RETIRE takes a spare at once and a tile of an idle shell out; busy and
refused commands change the result alone (Table 04-10).
Completes: fabTileBringUp, fabTileRetire. -/
def Obligations.TileCommands : Prop :=
  ∀ (s : State) (t : Nat), s.hidden (.fabTileCmd t) = false →
    (s.tileState t = 0 ∨ s.tileState t = 4 → s.tileReRigging t = false →
      ∃ r, exec (.fabTileBringUp t) s = .next r ∧ r.fld (.fabTileStat t) 30 28 = 0 ∧ r.tileState t = 3 ∧ (r.tile t).bist = some .bringUp ∧
        r.jobs = s.jobs) ∧
    (s.tileState t = 2 → s.tileReRigging t = false →
      ∃ r, exec (.fabTileRetire t) s = .next r ∧ r.fld (.fabTileStat t) 30 28 = 0 ∧ r.tileState t = 4 ∧ (r.tile t).joining = none) ∧
    (∀ sh, s.tileState t = 1 → s.shellOf t = some sh → t ∈ s.shellTiles sh → s.tileReRigging t = false →
      ∃ r, exec (.fabTileRetire t) s = .next r ∧ r.fld (.fabTileStat t) 30 28 = 0 ∧
        (s.onUnit (.shell sh) = [] → r.tileState t = 4) ∧
        (s.onUnit (.shell sh) ≠ [] → s.WaitersOff → r.tileState t = 1 ∧ (r.tile t).back = 4)) ∧
    (s.tileState t = 3 →
      (∃ r, exec (.fabTileBringUp t) s = .next r ∧ r.fld (.fabTileStat t) 30 28 = 1 ∧ OnlyRegs [.fabTileStat t] s r) ∧
      (∃ r, exec (.fabTileRetire t) s = .next r ∧ r.fld (.fabTileStat t) 30 28 = 1 ∧ OnlyRegs [.fabTileStat t] s r)) ∧
    (s.tileState t = 5 → s.tileReRigging t = false →
      (∃ r, exec (.fabTileBringUp t) s = .next r ∧ r.fld (.fabTileStat t) 30 28 = 2 ∧ OnlyRegs [.fabTileStat t] s r) ∧
      (∃ r, exec (.fabTileRetire t) s = .next r ∧ r.fld (.fabTileStat t) 30 28 = 2 ∧ OnlyRegs [.fabTileStat t] s r)) ∧
    (s.tileState t = 1 ∨ s.tileState t = 2 → s.tileReRigging t = false →
      ∃ r, exec (.fabTileBringUp t) s = .next r ∧ r.fld (.fabTileStat t) 30 28 = 2 ∧ OnlyRegs [.fabTileStat t] s r)

/-- Islands: FREQ takes effect below the ceiling; GATE drains an island, whose power goes once its tiles are idle; GATE 0 wakes it, or
cancels the drain; power restored, its twelve tiles run BIST together.
Completes: islandFreqWrite, islandGate, islandPowerOff, islandUngate, islandPowerOn. -/
def Obligations.IslandClocksAndGates : Prop :=
  (∀ (s : State) (n fq : Nat), s.hidden (.fabIslCtrl n) = false →
      ∃ r, exec (.islandFreqWrite n fq) s = .next r ∧ r.fld (.fabIslCtrl n) 1 0 = min 2 fq ∧
        r.fld (.fabIslStat n) 1 0 = max (min 2 fq) (s.fld (.fabIslStat n) 3 2) ∧ r.fld (.fabIslStat n) 3 2 = s.fld (.fabIslStat n) 3 2 ∧
        OnlyRegs [.fabIslCtrl n, .fabIslStat n] s r) ∧
  (∀ (s : State) (n : Nat), s.hidden (.fabIslCtrl n) = false → s.fld (.fabIslStat n) 6 4 = 0 → s.reRig = none →
      ∃ r, exec (.islandGate n) s = .next r ∧ r.bit (.fabIslCtrl n) 4 = true ∧ r.fld (.fabIslStat n) 6 4 = 1 ∧
        (s.WaitersOff → ∀ sh, sh < 96 → s.fld (.fabShellMap sh) 14 12 = n → s.shellState sh = 1 → r.shellState sh = 4)) ∧
  (∀ (s : State) (n : Nat), s.fld (.fabIslStat n) 6 4 = 1 → (∀ i, i < 12 → (s.tile (12 * n + i)).running = false) →
      (∀ sh, sh < 96 → s.shellState sh ≠ 0 → s.fld (.fabShellMap sh) 14 12 = n → s.onUnit (.shell sh) = []) →
      s.WaitersOff →
      ∃ r, exec (.islandPowerOff n) s = .next r ∧ r.fld (.fabIslStat n) 6 4 = 3 ∧
        (∀ i, i < 12 → r.tileState (12 * n + i) = 5 ∧ (r.tile (12 * n + i)).mem = [] ∧ (r.tile (12 * n + i)).back = s.tileState (12 * n + i)) ∧
        ∀ sh, sh < 96 → s.shellState sh ≠ 0 → s.fld (.fabShellMap sh) 14 12 = n → r.shellState sh = 5) ∧
  (∀ (s : State) (n : Nat), s.hidden (.fabIslCtrl n) = false →
      (s.fld (.fabIslStat n) 6 4 = 3 → s.gateHeld n = false → ∃ r, exec (.islandUngate n) s = .next r ∧ r.bit (.fabIslCtrl n) 4 = false ∧
        r.fld (.fabIslStat n) 6 4 = 2 ∧ r.tiles = s.tiles ∧ r.jobs = s.jobs) ∧
      (s.gateHeld n = true → ∃ r, exec (.islandUngate n) s = .next r ∧ r.bit (.fabIslCtrl n) 4 = false ∧ n ∈ r.gateWait ∧
        OnlyRegs [.fabIslCtrl n] { s with gateWait := r.gateWait } r) ∧
      (s.fld (.fabIslStat n) 6 4 = 1 → s.gateHeld n = false → ∃ r, exec (.islandUngate n) s = .next r ∧ r.bit (.fabIslCtrl n) 4 = false ∧
        r.fld (.fabIslStat n) 6 4 = 0 ∧ r.jobs = s.jobs ∧
        ∀ sh, sh < 96 → s.shellState sh = 4 → s.fld (.fabShellMap sh) 14 12 = n → (∀ t ∈ s.shellTiles sh, (s.tile t).back ≠ 4) →
          (s.shellTiles sh).length = s.shellSize sh → r.shellState sh = 1)) ∧
  (∀ (s : State) (n : Nat), s.fld (.fabIslStat n) 6 4 = 2 →
      ∃ r, exec (.islandPowerOn n) s = .next r ∧ (∀ i, i < 12 → s.tileState (12 * n + i) = 5 →
        r.tileState (12 * n + i) = 3 ∧ (r.tile (12 * n + i)).bist = some ((s.tile (12 * n + i)).bist.getD .wake)) ∧ r.jobs = s.jobs)

/-- Hash-field and BNE cores: a machine check takes a core OFFLINE, counted and reported, and its jobs are re-executed or, if they name
its handles, end ABORTED_FAULT; its BIST decides its return, and that of a core a re-rig brings in; a corrected error is counted; BRING_UP and RETIRE answer as Tables
06-2 and 07-5 give.
Completes: hsfCoreMachineCheck, hsfCoreBistComplete, hsfCoreBringUp, hsfCoreRetire, bneMachineCheck, bneCoreBistComplete, bneCoreBringUp,
bneCoreRetire. -/
def Obligations.CoreEvents : Prop :=
  ((∀ (s : State) (k : Nat), (s.hcore k).state = .inService → (s.hcore k).leaving = false →
        ∃ t, exec (.hsfCoreMachineCheck k) s = .next t ∧ (t.hcore k).state = .offline ∧ (t.hcore k).mc = (s.hcore k).mc + 1 ∧
          t.fld .hsfMcCount 31 0 = min (2 ^ 32 - 1) (s.fld .hsfMcCount 31 0 + 1) ∧ t.bit .hsfEvtStatus 0 = true ∧
          ((s.jobs.map (·.id)).Nodup → ∀ x ∈ s.onHash k, x.phase ≠ .waiting → x.failures < 2 →
            ∃ y, t.job? x.id = some y ∧ y.retried = true ∧ y.desc = x.desc)) ∧
    (∀ (s : State) (k : Nat), (s.hcore k).state = .offline → s.boot.block ≠ some (4, k) → s.joiningHash k = true →
        (∃ t, exec (.hsfCoreBistComplete k true) s = .next t ∧ (t.hcore k).state = .unused ∧ t.jobs = s.jobs) ∧
        (∃ t, exec (.hsfCoreBistComplete k false) s = .next t ∧ (t.hcore k).state = .retired ∧ t.bit .hsfEvtStatus 1 = true)) ∧
    (∀ (s : State) (k : Nat), (s.hcore k).state = .offline → s.boot.block ≠ some (4, k) → s.joiningHash k = false →
        ((s.hcore k).cmd = true →
          (∃ t, exec (.hsfCoreBistComplete k true) s = .next t ∧
            (t.hcore k).state = (if (s.corePart k).isSome then .inService else .unused) ∧ t.bit .hsfEvtStatus 2 = true) ∧
          (∃ t, exec (.hsfCoreBistComplete k false) s = .next t ∧ (t.hcore k).state = .retired ∧ t.bit .hsfEvtStatus 3 = true)) ∧
        ((s.hcore k).cmd = false → (s.hcore k).leaving = false →
          ((s.hcore k).mc < s.fld .fabMcLimit 3 0 →
            ∃ t, exec (.hsfCoreBistComplete k true) s = .next t ∧
              (t.hcore k).state = (if (s.corePart k).isSome then .inService else .unused) ∧ t.jobs = s.jobs) ∧
          (s.fld .fabMcLimit 3 0 ≤ (s.hcore k).mc →
            ∃ t, exec (.hsfCoreBistComplete k true) s = .next t ∧ (t.hcore k).state = .retired ∧ t.bit .hsfEvtStatus 1 = true) ∧
          (∃ t, exec (.hsfCoreBistComplete k false) s = .next t ∧ (t.hcore k).state = .retired ∧ t.bit .hsfEvtStatus 1 = true))) ∧
    (∀ (s : State) (k : Nat), s.hidden .hsfCoreCmd = false → s.hashReRigging k = false →
        ((s.hcore k).state = .retired ∨ (s.hcore k).state = .unused →
          ∃ t, exec (.hsfCoreBringUp k) s = .next t ∧ t.fld .hsfCoreStat 1 0 = 0 ∧ (t.hcore k).state = .offline ∧ (t.hcore k).cmd = true ∧
            t.jobs = s.jobs ∧ ∀ i, i ≠ k → t.hcore i = s.hcore i) ∧
        ((s.hcore k).state = .inService →
          (∃ t, exec (.hsfCoreBringUp k) s = .next t ∧ t.fld .hsfCoreStat 1 0 = 2 ∧ OnlyRegs [.hsfCoreStat] s t) ∧
          (s.onHash k = [] → ∃ t, exec (.hsfCoreRetire k) s = .next t ∧ t.fld .hsfCoreStat 1 0 = 0 ∧ (t.hcore k).state = .retired) ∧
          (s.onHash k ≠ [] → ∃ t, exec (.hsfCoreRetire k) s = .next t ∧ t.fld .hsfCoreStat 1 0 = 0 ∧ (t.hcore k).state = .inService ∧
            (t.hcore k).leaving = true ∧ t.jobs = s.jobs)) ∧
        ((s.hcore k).state = .offline → ∃ t, exec (.hsfCoreBringUp k) s = .next t ∧ exec (.hsfCoreRetire k) s = .next t ∧
          t.fld .hsfCoreStat 1 0 = 1 ∧ OnlyRegs [.hsfCoreStat] s t))) ∧
  ((∀ (s : State) (c cause : Nat), s.bneState c = 1 → (s.bcore c).leaving = false → 0 < cause → cause < 16 →
        ∃ t, exec (.bneMachineCheck c cause) s = .next t ∧ t.bneState c = 2 ∧ t.fld (.bneCoreState c) 19 16 = cause ∧
          t.fld (.bneCoreState c) 15 12 = min 15 (s.fld (.bneCoreState c) 15 12 + 1) ∧
          t.fld .bneMcCount 31 0 = min (2 ^ 32 - 1) (s.fld .bneMcCount 31 0 + 1) ∧ t.bit .bneEvtStatus 0 = true ∧
          (∀ e ∈ (t.bcore c).res, e.2.owner = none ∧ e.2.val = []) ∧
          ((s.jobs.map (·.id)).Nodup → ∀ x ∈ s.onCore c, x.On (.bne c (x.frame c)) →
            ∃ y, t.job? x.id = some y ∧ y.desc = x.desc ∧
              (handlesOf x.desc = [] → x.failures < 2 → y.retried = true) ∧
              (handlesOf x.desc ≠ [] → y.phase = .sealed ∧ y.result = some (.fail 0x41 0)))) ∧
    (∀ (s : State) (c : Nat), exec (.bneMachineCheck c 0) s = .next (s.bump .fabCeCount)) ∧
    (∀ (s : State) (c : Nat), s.bneState c = 2 → s.boot.block ≠ some (5, c) → s.joiningBne c = true →
        (∃ t, exec (.bneCoreBistComplete c true) s = .next t ∧ t.bneState c = 0 ∧ t.fld (.bneCoreState c) 21 20 = 1 ∧ t.jobs = s.jobs) ∧
        (∃ t, exec (.bneCoreBistComplete c false) s = .next t ∧ t.bneState c = 3 ∧ t.bit .bneEvtStatus 1 = true)) ∧
    (∀ (s : State) (c : Nat), s.bneState c = 2 → s.boot.block ≠ some (5, c) → s.joiningBne c = false →
        ((s.bcore c).cmd = true →
          (∃ t, exec (.bneCoreBistComplete c true) s = .next t ∧ t.bneState c = (if (s.coreGroup c).isSome then 1 else 0) ∧
            t.fld (.bneCoreState c) 21 20 = 1 ∧ t.bit .bneEvtStatus 2 = true) ∧
          (∃ t, exec (.bneCoreBistComplete c false) s = .next t ∧ t.bneState c = 3 ∧ t.fld (.bneCoreState c) 21 20 = 2 ∧
            t.bit .bneEvtStatus 3 = true)) ∧
        ((s.bcore c).cmd = false → (s.bcore c).leaving = false →
          (s.fld (.bneCoreState c) 15 12 < s.fld .fabMcLimit 3 0 →
            ∃ t, exec (.bneCoreBistComplete c true) s = .next t ∧ t.bneState c = (if (s.coreGroup c).isSome then 1 else 0) ∧ t.jobs = s.jobs) ∧
          (s.fld .fabMcLimit 3 0 ≤ s.fld (.bneCoreState c) 15 12 →
            ∃ t, exec (.bneCoreBistComplete c true) s = .next t ∧ t.bneState c = 3 ∧ t.bit .bneEvtStatus 1 = true))) ∧
    (∀ (s : State) (c : Nat), s.hidden .bneCoreCmd = false → s.coreReRigging c = false →
        (s.bneState c = 0 ∨ s.bneState c = 3 →
          ∃ t, exec (.bneCoreBringUp c) s = .next t ∧ t.fld .bneCoreResult 1 0 = 0 ∧ t.bneState c = 2 ∧ (t.bcore c).cmd = true ∧ t.jobs = s.jobs) ∧
        (s.bneState c = 1 →
          (∃ t, exec (.bneCoreBringUp c) s = .next t ∧ t.fld .bneCoreResult 1 0 = 2 ∧ OnlyRegs [.bneCoreResult] s t) ∧
          (s.onCore c = [] → ∃ t, exec (.bneCoreRetire c) s = .next t ∧ t.fld .bneCoreResult 1 0 = 0 ∧ t.bneState c = 3 ∧
            ∀ e ∈ (t.bcore c).res, e.2.owner = none) ∧
          (s.onCore c ≠ [] → ∃ t, exec (.bneCoreRetire c) s = .next t ∧ t.fld .bneCoreResult 1 0 = 0 ∧ t.bneState c = 1 ∧
            (t.bcore c).leaving = true ∧ t.jobs = s.jobs)) ∧
        (s.bneState c = 2 → ∃ t, exec (.bneCoreBringUp c) s = .next t ∧ exec (.bneCoreRetire c) s = .next t ∧
          t.fld .bneCoreResult 1 0 = 1 ∧ OnlyRegs [.bneCoreResult] s t)))

/-- A catch point of a BNE job: in a quiescing slice it ends CANCELLED, or its half of a hybrid job does; with yielding off it only counts; where the cox offers a job that
goes before it, it yields, counted, and goes on once the other is sealed.
Completes: catchPoint, bneResume. -/
def Obligations.CatchPointsAndYields : Prop :=
  (∀ (s : State) (c : Nat) (x : Job), s.runningOn c = some x → s.job? x.id = some x → s.unitHalted (.bne c 0) = false →
      (s.sliceState x.slice = 2 ∨ s.transition.isSome = true →
        ∃ t y, exec (.catchPoint c) s = .next t ∧ t.job? x.id = some y ∧
          (dClass x.desc ≠ 0x10 → y.phase = .sealed ∧ y.result = some (.fail 0x40 0)) ∧
          (dClass x.desc = 0x10 → x.classical.phase ≠ .sealed →
            y.classical.phase = .sealed ∧ y.classical.result = some (.fail 0x40 0))) ∧
      (s.sliceState x.slice ≠ 2 → s.transition = none → s.bit .bneCtrl 0 = false → s.leaving = false →
        ∃ t, exec (.catchPoint c) s = .next t ∧ t.job? x.id = some { x with catches := x.catches + 1 } ∧
          (∀ k, k ≠ x.id → t.job? k = s.job? k) ∧ t.regs = s.regs ∧ t.slots = s.slots) ∧
      (∀ r pr j k s', s.sliceState x.slice ≠ 2 → s.transition = none → s.bit .bneCtrl 0 = true → s.rig = some r → s.corePool c = some pr →
        s' = s.setJob x.id (fun y => { y with catches := y.catches + 1 }) → s'.onUnit (.bne c (1 - x.frame c)) = [] → s.devState = 1 →
        s.bit .genState 4 = false → s.bit (.fabPoolCtrl pr.num) 0 = false → s'.poolState pr ≠ 4 →
        (s'.without x.id).coxChoose r pr (.bne c (1 - x.frame c)) = (some j, k) → j.id ≠ x.id →
        yieldsTo x j (remainingCost (s'.cost r pr x) (x.catches + 1)) (s'.cost r pr j) = true →
        ∃ t y, exec (.catchPoint c) s = .next t ∧ t.job? x.id = some y ∧ y.yielded = true ∧ y.catches = x.catches + 1 ∧
          t.fld .bneYieldCount 31 0 = min (2 ^ 32 - 1) (s.fld .bneYieldCount 31 0 + 1))) ∧
  (∀ (s : State) (c : Nat) (x : Job), s.runningOn c = none → (s.onCore c).head? = some x → s.job? x.id = some x →
      ∃ t, exec (.bneResume c) s = .next t ∧ t.job? x.id = some { x with yielded := false } ∧
        (∀ k, k ≠ x.id → t.job? k = s.job? k) ∧ t.regs = s.regs)

/-- The digest contexts: claims and releases by path, messages taken and finished by the owner with the digest of the bytes taken.
Completes: rdeClaim, rdeRelease, rdeClear, rdeSetupWrite, rdeData, rdeFinish, rdeFinishDone, rdeBlockProcessed. -/
def Obligations.DigestContexts : Prop :=
  ((∀ (s : State) (c : Nat) (who : Claimant), s.rdePath c who = true → claimantCode who < 1024 →
        ((s.rdeOf c).owner = none →
          ∃ t, exec (.rdeClaim c who) s = .next t ∧ (t.rdeOf c).owner = some who ∧ t.rdeState c = 1 ∧
            t.fld (.rdeStatus c) 25 16 = claimantCode who ∧ tget 0 who (t.rdeOf c).cmd = 0 ∧ t.jobs = s.jobs) ∧
        (∀ o, (s.rdeOf c).owner = some o → o ≠ who →
          ∃ t, exec (.rdeClaim c who) s = .next t ∧ tget 0 who (t.rdeOf c).cmd = 1 ∧ (t.rdeOf c).owner = some o ∧ t.regs = s.regs) ∧
        ((s.rdeOf c).owner = some who →
          (∃ t, exec (.rdeRelease c who) s = .next t ∧ (t.rdeOf c).owner = none ∧ t.rdeState c = 0 ∧ (t.rdeOf c).msg = [] ∧
            ∀ j, j < 8 → t.rd (.rdeResult c j) = 0) ∧
          (∃ t, exec (.rdeClear c who) s = .next t ∧ (t.rdeOf c).owner = some who ∧ t.rdeState c = 1 ∧ (t.rdeOf c).msg = [] ∧
            t.rd (.rdeCount c) = 0 ∧ t.rd (.rdeMode c) = s.rd (.rdeMode c) ∧ t.rd (.rdeKey c) = s.rd (.rdeKey c) ∧
            t.rd (.rdeLen c) = s.rd (.rdeLen c)) ∧
          (∀ v : DWord, s.rdeState c = 1 ∨ s.rdeState c = 4 →
            (∃ t, exec (.rdeSetupWrite c who .key v) s = .next t ∧ t.fld (.rdeKey c) 16 0 = getF v 16 0 ∧ ∀ r, r ≠ .rdeKey c → t.rd r = s.rd r) ∧
            (∃ t, exec (.rdeSetupWrite c who .len v) s = .next t ∧ t.fld (.rdeLen c) 47 0 = getF v 47 0 ∧ ∀ r, r ≠ .rdeLen c → t.rd r = s.rd r) ∧
            (∃ t, exec (.rdeSetupWrite c who .mode v) s = .next t ∧ t.fld (.rdeMode c) 3 0 = getF v 3 0 ∧ t.fld (.rdeMode c) 5 4 = getF v 5 4 ∧
              t.fld (.rdeMode c) 14 8 = clampTag (getF v 3 0) (getF v 14 8) ∧ ∀ r, r ≠ .rdeMode c → t.rd r = s.rd r)) ∧
          (∀ (v : DWord) (x : RdeSetup), s.rdeState c = 2 ∨ s.rdeState c = 3 →
            ∃ t, exec (.rdeSetupWrite c who x v) s = .next t ∧ tget 0 who (t.rdeOf c).cmd = 3 ∧ t.regs = s.regs))) ∧
    (∀ (s : State) (c w : Nat) (who : Claimant) (v : DWord) (x : RdeSetup), s.tamper.slotsDue = [] →
        (∀ n, who = .slice n → s.sliceBad n = false) → ∀ i ∈ [Instr.rdeRelease c who, .rdeClear c who, .rdeSetupWrite c who x v, .rdeData c who 64 v, .rdeFinish c who v],
        (s.rdePath c who = false → exec i s = .next s ∧ exec (.rdeClaim c who) s = .next s) ∧
        (s.rdePath c who = true → (s.rdeOf c).owner ≠ some who →
          ∃ t, exec i s = .next t ∧ tget 0 who (t.rdeOf c).cmd = 2 ∧ t.regs = s.regs ∧ (t.rdeOf c).msg = (s.rdeOf c).msg ∧
            (t.rdeOf c).owner = (s.rdeOf c).owner) ∧
        (w ≠ 64 → exec (.rdeData c who w v) s = .next s))) ∧
  ((∀ (s : State) (c : Nat) (who : Claimant) (v : DWord), s.rdePath c who = true → (s.rdeOf c).owner = some who → s.tamper.slotsDue = [] →
        (∀ n, who = .slice n → s.sliceBad n = false) →
        (s.rdeState c = 1 ∨ s.rdeState c = 4 → 1 ≤ s.fld (.rdeMode c) 3 0 → s.fld (.rdeMode c) 3 0 ≤ 10 → s.fld (.rdeMode c) 5 4 = 0 →
          0 < s.fld (.rdeLen c) 47 0 →
          ∃ t, exec (.rdeData c who 64 v) s = .next t ∧ t.rdeState c = 2 ∧ (t.rdeOf c).msg = leBytes 8 v.toNat ∧
            t.fld (.rdeCount c) 47 0 = 8 ∧ (t.rdeOf c).len = s.fld (.rdeLen c) 47 0 ∧ (t.rdeOf c).owner = some who) ∧
        (s.rdeState c = 1 ∨ s.rdeState c = 4 → s.fld (.rdeMode c) 3 0 = 0 ∨ 10 < s.fld (.rdeMode c) 3 0 ∨ s.fld (.rdeMode c) 5 4 = 3 →
          ∃ t, exec (.rdeData c who 64 v) s = .next t ∧ t.rdeState c = 5 ∧ tget 0 who (t.rdeOf c).cmd = 0x10) ∧
        (∀ a, s.rdeState c = 1 ∨ s.rdeState c = 4 → 1 ≤ s.fld (.rdeMode c) 3 0 → s.fld (.rdeMode c) 3 0 ≤ 10 →
          1 ≤ s.fld (.rdeMode c) 5 4 → s.fld (.rdeMode c) 5 4 ≤ 2 → s.rdeSlot c who = some a → s.slotBad a = false →
          (∀ x, s.rdeKeyCheck c who = .inl x →
            ∃ t, exec (.rdeData c who 64 v) s = .next t ∧ t.rdeState c = 5 ∧ tget 0 who (t.rdeOf c).cmd = x) ∧
          (∀ mat, s.rdeKeyCheck c who = .inr (a, mat) → 0 < s.fld (.rdeLen c) 47 0 →
            ∃ t, exec (.rdeData c who 64 v) s = .next t ∧ t.rdeState c = 2 ∧ (t.rdeOf c).key = mat ∧ (t.rdeOf c).msg = leBytes 8 v.toNat)) ∧
        (s.rdeState c = 2 → s.bit (.rdeStatus c) 3 = false → s.fld (.rdeCount c) 47 0 / 8 < ((s.rdeOf c).len + 7) / 8 →
          s.fld (.rdeCount c) 47 0 + 8 < 2 ^ 48 →
          ∃ t, exec (.rdeData c who 64 v) s = .next t ∧ t.fld (.rdeCount c) 47 0 = s.fld (.rdeCount c) 47 0 + 8 ∧
            (t.rdeOf c).msg = (s.rdeOf c).msg ++ leBytes 8 v.toNat ∧ (t.rdeOf c).buffered = (s.rdeOf c).buffered + 1) ∧
        (s.rdeState c = 2 → s.bit (.rdeStatus c) 3 = true ∨ ((s.rdeOf c).len + 7) / 8 ≤ s.fld (.rdeCount c) 47 0 / 8 →
          ∃ t, exec (.rdeData c who 64 v) s = .next t ∧ t.bit (.rdeStatus c) 4 = true ∧ OnlyRegs [.rdeStatus c] s t) ∧
        (s.rdeState c = 3 → ∃ t, exec (.rdeData c who 64 v) s = .next t ∧ (t.rdeOf c).heldWords = (s.rdeOf c).heldWords ++ [v] ∧ t.regs = s.regs) ∧
        (s.rdeState c = 2 →
          (s.rdeLengthsOk c (getF v 47 0) = true →
            ∃ t, exec (.rdeFinish c who v) s = .next t ∧ t.rdeState c = 3 ∧ tget 0 who (t.rdeOf c).cmd = 0 ∧ (t.rdeOf c).msg = (s.rdeOf c).msg) ∧
          (s.rdeLengthsOk c (getF v 47 0) = false →
            ∃ t, exec (.rdeFinish c who v) s = .next t ∧ t.rdeState c = 5 ∧ tget 0 who (t.rdeOf c).cmd = 0x12))) ∧
    (∀ (s : State) (c : Nat), s.rdeState c = 3 → s.jtagHalted 5 (128 + c) = false → (s.rdeOf c).heldWords = [] → s.tamper.slotsDue = [] →
        ((s.rdeOf c).mac ≠ 2 → ∃ t, exec (.rdeFinishDone c) s = .next t ∧ t.rdeState c = 4 ∧ t.bit (.rdeStatus c) 6 = true ∧
          t.fld (.rdeMsgs c) 31 0 = min (2 ^ 32 - 1) (s.fld (.rdeMsgs c) 31 0 + 1) ∧
          ∀ j, j < 8 → t.rd (.rdeResult c j) = BitVec.ofNat 64 (leAt (s.rdeOf c).value (8 * j) 8)) ∧
        ((s.rdeOf c).mac = 2 → ∃ t, exec (.rdeFinishDone c) s = .next t ∧ t.rdeState c = 4 ∧
          (∀ n, n = (if (s.rdeOf c).tagLen = 0 then hashLen (s.rdeOf c).hash else (s.rdeOf c).tagLen) →
            (t.bit (.rdeStatus c) 5 = true ↔ (s.rdeOf c).value.take n = (s.rdeExpected c).take n)) ∧
          ∀ j, t.rd (.rdeResult c j) = s.rd (.rdeResult c j))) ∧
    (∀ (s : State) (c : Nat), (s.rdeOf c).blockWords ≤ (s.rdeOf c).buffered → s.rdeState c = 2 ∨ s.rdeState c = 3 →
        s.jtagHalted 5 (128 + c) = false →
        ∃ t, exec (.rdeBlockProcessed c) s = .next t ∧ (t.rdeOf c).buffered = (s.rdeOf c).buffered - (s.rdeOf c).blockWords ∧
          (t.rdeOf c).msg = (s.rdeOf c).msg ∧ t.rdeState c = s.rdeState c ∧ ∀ r, r ≠ .rdeStatus c → t.rd r = s.rd r))

/-! ### The mailbox -/

/-- A mailbox command that its row excludes ends CHANNEL, STATE or BAD_REQUEST, in this order, but in BLANK, SCRAPPED and LOCKED STATE
first, and nothing the device stores changes (the order is the model's reading, log 40); a rig command of the other channel ends BUSY
beside the one in progress that does not wait for presence (log 71); CLEAR returns a DONE channel to IDLE.
Completes: mbxClear. -/
def Obligations.MailboxRefusals : Prop :=
  (∀ (i : Instr) (x : MbxRow) (s : State) (ch : Nat), mbxRow i = some x → s.mbxHead = some ch → s.mbxCode ch = x.code →
      (∀ a, s.slotBad a = false) → (∀ r, s.shadowBad r = false) → s.journalUsed < 2048 → s.tamper.dip = none →
      s.signDraws.isSome = true → (s.scDraw 1).isSome = true →
      (ch ∉ x.chans → s.devState ∉ [5, 6, 15] ∨ s.devState ∈ x.states →
        ∃ t, exec i s = .next t ∧ t.Answered ch 0x32 0 [] ∧ KeepsStores s t) ∧
      (ch ∈ x.chans ∨ s.devState ∈ [5, 6, 15] → s.devState ∉ x.states → ∃ t, exec i s = .next t ∧ t.Answered ch 0x25 0 [] ∧ KeepsStores s t) ∧
      (ch ∈ x.chans → s.devState ∈ x.states → x.okLen (s.mbxRequest ch).length = false →
        ∃ t, exec i s = .next t ∧ t.Answered ch 0x31 0 [] ∧ KeepsStores s t)) ∧
  (∀ (s : State) (b ch : Nat) (rest : List Nat), s.mbxServes = true → s.mbx.busy = some b → s.mbx.queue = ch :: rest → ch ≠ b → ch < 2 →
      0x0201 ≤ s.mbxCode b → s.mbxCode b ≤ 0x0205 → s.bit (.mbxStatus b) 2 = false → s.devState = 1 → s.mbxRequest ch = [] →
      ∀ i ∈ [Instr.rigCheck, .rigWrite, .rigPartial, .rigAuthRotate], (mbxRow i).any (fun x => s.mbxCode ch == x.code) = true →
        ∃ t, exec i s = .next t ∧ t.Answered ch 0x23 0 [] ∧ t.mbx.busy = some b ∧ KeepsStores s t) ∧
  (∀ (s : State) (ch : Nat), s.hidden (.mbxCtrl ch) = false → s.mbxState ch = 3 →
      ∃ t, exec (.mbxClear ch) s = .next t ∧ t.mbxState ch = 0 ∧ tget [] ch t.mbx.rsp = [] ∧ t.rd (.mbxRspLen ch) = 0 ∧ KeepsStores s t)

/-- Rig staging and checking: a staged image stands in the staging buffer; a check, or the checks of a write or a re-rig, end with their
first failure, or the write of the other copy begins with its erasure; RIG_INFO reports and RIG_AUTH_ROTATE waits for presence.
Completes: rigStage, rigCheck, rigWrite, rigAuthRotate, rigInfo. -/
def Obligations.RigCommands : Prop :=
  (∀ (s : State) (ch : Nat) (r bs : Bytes) (d : DmaResult), s.Serves (.rigStage d) ch r → 0 < leAt r 8 4 → leAt r 8 4 ≤ stagingSize →
      (ch = 1 → leAt r 0 8 = stagingAddr) → s.reRig = none → s.requestData (leAt r 0 8) (leAt r 8 4) d = some bs →
      ∃ t, exec (.rigStage d) s = .next t ∧ t.Answered ch 0 0 [] ∧ t.mbx.staged = leAt r 8 4 ∧
        t.sram = (if leAt r 0 8 = stagingAddr then s.sram else Memory.write 0 bs s.sram) ∧ t.rig = s.rig ∧ t.flash = s.flash) ∧
  (∀ (s u : State) (ch : Nat), s.Serves .rigCheck ch [] → s.reRig = none → u = s.mbxTaken ch →
      ∃ t, exec .rigCheck s = .next t ∧ KeepsStores s t ∧
        match u.rigCheck s.stagedImage with
        | .inl e => t.Answered ch (e.1 % 256) e.2 []
        | .inr _ => t.Answered ch 0 0 []) ∧
  (∀ (s u : State) (ch : Nat), s.Serves .rigWrite ch [] → u = s.mbxTaken ch → u.rigBusy ch = false →
      ∃ t, exec .rigWrite s = .next t ∧ t.rig = s.rig ∧ t.slots = s.slots ∧ t.otp = s.otp ∧
        match u.rigCheck s.stagedImage with
        | .inl e => t.Answered ch (e.1 % 256) e.2 [] ∧ t.flash = s.flash
        | .inr r =>
          if r.flags.testBit 0 then t.Answered ch 0x20 0 [] ∧ t.flash = s.flash
          else if s.versionOk r.version = false then t.Answered ch 0x22 0 [] ∧ t.flash = s.flash
          else t.mbx.flash = some ⟨ch, u.rigTarget, s.stagedImage, .rigWrite⟩ ∧ t.copyAt u.rigTarget = [] ∧ t.mbxState ch = 2 ∧
            ∀ k, k ≠ u.rigTarget → t.copyAt k = s.copyAt k) ∧
  (∀ (s : State) (ch : Nat), s.Serves .rigAuthRotate ch [] → (s.mbxTaken ch).rigBusy ch = false →
      ∃ t, exec .rigAuthRotate s = .next t ∧ KeepsStores s t ∧ (if s.rotatable then t.Waits ch else t.Answered ch 0x26 0 [])) ∧
  (∀ (s : State) (ch : Nat), s.Serves .rigInfo ch [] →
      ∃ t, exec .rigInfo s = .next t ∧ t.Answered ch 0 0 (s.mbxTaken ch).rigInfoRsp ∧ KeepsStores s t)

/-- Flash commits and the live re-rig of one pool: a commit puts the image into its copy, a failed one leaves it without; RIG_PARTIAL
switches in four steps (checked and begun, committed, drained and switched, completed) and the rig in force changes at the commit.
Completes: flashWriteCommit, rigPartialCommit, rigPartialComplete, rigPartial, rigPartialDrained. -/
def Obligations.FlashAndReRig : Prop :=
  (∀ (s : State) (j : FlashJob), s.mbx.flash = some j → s.tamper.dip = none → s.mbxCode j.ch ∈ mbxCodes →
      (∀ ok, j.why = .rigWrite → ∃ t, exec (.flashWriteCommit ok) s = .next t ∧ t.mbx.flash = none ∧
        t.copyAt j.copy = (if ok then j.image else s.copyAt j.copy) ∧ t.Answered j.ch (if ok then 0 else 0x24) 0 [] ∧
        t.rig = s.rig ∧ t.slots = s.slots ∧ t.otp = s.otp) ∧
      (∀ pos, j.why = .rotate pos → pos < s.otp.rigPos.length →
        ∃ t, exec (.flashWriteCommit true) s = .next t ∧ t.copyAt j.copy = j.image ∧ t.Answered j.ch 0 0 [] ∧
          (t.otp.rigPos[pos]?).map (·.1) = some (authDigest (slice j.image (80 + rigBody j.image) 1952) (slice j.image (80 + rigBody j.image + 1952) 97)) ∧
          ∀ k, k ≠ pos → t.otp.rigPos[k]? = s.otp.rigPos[k]?)) ∧
  (∀ (s u : State) (ch : Nat) (old : Rig), s.Serves .rigPartial ch [] → s.rig = some old → u = s.mbxTaken ch → u.rigBusy ch = false →
      ∃ t, exec .rigPartial s = .next t ∧ t.rig = s.rig ∧ t.slots = s.slots ∧ t.jobs = s.jobs ∧
        match u.rigCheck s.stagedImage with
        | .inl e => t.Answered ch (e.1 % 256) e.2 [] ∧ t.reRig = none
        | .inr new =>
          if new.version ≤ old.version then t.Answered ch 0x22 0 []
          else if new.flags.testBit 0 = false ∨ new.base ≠ old.digest then t.Answered ch 0x20 0 []
          else match firstBelow 32 (partialScope old new) with
            | none => t.Answered ch 0x21 0 []
            | some p => (∃ l, t.reRig = some ⟨p, new, old, s.stagedImage, u.rigTarget, false, false, l⟩) ∧ t.copyAt u.rigTarget = [] ∧
                t.mbx.flash = some ⟨ch, u.rigTarget, s.stagedImage, .rigPartial p⟩ ∧
                ∀ k, k < 96 → t.tileState k = (if t.claimed k && u.tileState k == 0 then 3 else u.tileState k)) ∧
  (∀ (s : State) (j : FlashJob) (r : ReRig) (p : Nat), s.mbx.flash = some j → s.reRig = some r → r.committed = false → j.why = .rigPartial p →
      s.tamper.dip = none → s.mbxCode j.ch ∈ mbxCodes → j.copy = 4 ∨ j.copy = 5 →
      (∃ t, exec (.rigPartialCommit true) s = .next t ∧ t.reRig = some { r with committed := true } ∧ t.copyAt j.copy = j.image ∧
        t.fld .genState 6 6 = j.copy - 4 ∧ t.rig = some r.image ∧ t.jobs = s.jobs) ∧
      (∃ t, exec (.rigPartialCommit false) s = .next t ∧ t.reRig = none ∧ t.Answered j.ch 0x24 0 [] ∧ t.rig = s.rig ∧ t.flash = s.flash ∧
        (s.gateWait = [] → t.jobs = s.jobs))) ∧
  (∀ (s : State) (r : ReRig), s.reRig = some r → r.committed = true → s.tamper.dip = none →
      (r.drained = false → (s.poolRec r.pool).any s.poolRuns = false →
        ∃ t, exec .rigPartialDrained s = .next t ∧ t.rig = s.rig ∧ t.reRig = some { r with drained := true } ∧ t.jobs = s.jobs ∧
          t.slots = s.slots) ∧
      (∀ failed, r.drained = true → ∃ t, exec (.rigPartialComplete failed) s = .next t ∧ t.reRig = none ∧ t.rig = s.rig ∧ t.slots = s.slots ∧
        (∀ ch, s.mbx.busy = some ch → s.mbxCode ch = 0x0204 → t.Answered ch 0 0 [])))

/-- Key commands: MBX_PUT fills the staging buffer, KEY_WRITE fills an empty slot with a key that passes its checks, KEY_SET_ATTR narrows
an attribute word, KEY_DESTROY empties a range, the public key leaves by KEY_GET_PUBLIC, and the signed statements answer over the
request's nonce with the two draws that DRB0 serves.
Completes: keyWrite, mbxPut, keySetAttr, keyDestroy, keyGetPublic, keyAttest, getIdentity, attestIdentity. -/
def Obligations.KeyCommands : Prop :=
  ((∀ (s : State) (ch : Nat) (r : Bytes), s.Serves .mbxPut ch r → leAt r 0 4 % 8 = 0 → leAt r 0 4 < stagingSize → leAt r 4 4 = 0 →
        leAt r 0 4 + (r.length - 8) ≤ stagingSize →
        ∃ t, exec .mbxPut s = .next t ∧ t.Answered ch 0 0 [] ∧ t.sram = Memory.write (leAt r 0 4) (r.drop 8) s.sram ∧ t.slots = s.slots) ∧
    (∀ (s : State) (ch : Nat) (r bs : Bytes) (d : DmaResult), s.Serves (.keyWrite d) ch r → keyWriteOk r = true →
        (s.slotAt (leAt r 0 4)).filled = false →
        (if leAt r 16 8 = 0 then some (r.drop 24) else s.requestData (leAt r 16 8) (leAt r 12 4) d) = some bs →
        (clearFail (leAt r 4 1) (leAt r 5 1) bs = none →
          ∃ t, exec (.keyWrite d) s = .next t ∧ t.Answered ch 0 0 [] ∧
            t.Holds s (leAt r 0 4) (leAt r 4 1) (matOfClear (leAt r 4 1) bs) ∧
            (t.slotAt (leAt r 0 4)).attr = s.newAttr (leAt r 4 1) (leAt r 5 1) (leAt r 8 2) (leAt r 6 2) false false
              (inExtent (leAt r 4 1) (matOfClear (leAt r 4 1) bs).length) 0 ∧
            (t.slotAt (leAt r 0 4)).inv = ~~~(t.slotAt (leAt r 0 4)).attr ∧ ∀ a, a ≠ leAt r 0 4 → t.slotAt a = s.slotAt a) ∧
        (∀ why, clearFail (leAt r 4 1) (leAt r 5 1) bs = some why →
          ∃ t, exec (.keyWrite d) s = .next t ∧ t.Answered ch 0x36 (1 + 256 * why) [] ∧ t.slots = s.slots)) ∧
    (∀ (s : State) (ch : Nat) (r : Bytes), s.Serves .keySetAttr ch r → leAt r 0 4 < 131072 → leAt r 4 1 < 64 → leAt r 5 1 < 2 →
        leAt r 6 2 = 0 → leAt r 8 2 = 0xFFFF ∨ ownerOk (leAt r 8 2) = true → s.usable (leAt r 0 4) = true →
        s.sealedAttr (s.slotAt (leAt r 0 4)).attr = false →
        ∃ t, exec .keySetAttr s = .next t ∧ t.Answered ch 0 0 [] ∧
          (t.slotAt (leAt r 0 4)).attr = narrowed (s.slotAt (leAt r 0 4)).attr (leAt r 4 1) (leAt r 5 1 == 1) (leAt r 8 2) ∧
          (t.slotAt (leAt r 0 4)).mat = (s.slotAt (leAt r 0 4)).mat ∧ (t.slotAt (leAt r 0 4)).ext = (s.slotAt (leAt r 0 4)).ext ∧
          ∀ a, a ≠ leAt r 0 4 → t.slotAt a = s.slotAt a) ∧
    (∀ (s : State) (ch : Nat) (r : Bytes), s.Serves .keyDestroy ch r → leAt r 4 4 ≠ 0 → leAt r 0 4 + leAt r 4 4 ≤ 131072 →
        ∃ t, exec .keyDestroy s = .next t ∧ t.Answered ch 0 (s.filledIn (leAt r 0 4) (leAt r 4 4)).length [] ∧
          ∀ a, (leAt r 0 4 ≤ a ∧ a < leAt r 0 4 + leAt r 4 4 → (t.slotAt a).filled = false) ∧
            (a < leAt r 0 4 ∨ leAt r 0 4 + leAt r 4 4 ≤ a → t.slotAt a = s.slotAt a)) ∧
    (∀ (s : State) (ch : Nat) (r mat : Bytes), s.Serves .keyGetPublic ch r → leAt r 0 4 < 131072 → s.usable (leAt r 0 4) = true →
        s.sealedAttr (s.slotAt (leAt r 0 4)).attr = false → attrClass (s.slotAt (leAt r 0 4)).attr ≠ 0x0D →
        s.material (leAt r 0 4) = some mat →
        ∃ t, exec .keyGetPublic s = .next t ∧ KeepsStores s t ∧ t.Answered ch 0 0 (pubOf (s.slotAt (leAt r 0 4)).attr mat)) ∧
    (∀ (s : State) (d : DmaResult) (x : MbxRow), 2048 ≤ s.journalUsed → s.tamper.dip = none →
        ∀ i ∈ [Instr.keyWrite d, .keySetAttr, .keyDestroy, .vaultLoad], mbxRow i = some x → s.mbxRefused x = false → exec i s = .next s)) ∧
  ((∀ (s u : State) (ch : Nat) (r x y mat : Bytes), s.material (leAt r 0 4) = some mat → s.Serves .keyAttest ch r → leAt r 0 4 < 131072 → leAt r 4 4 = 0 →
        s.usable (leAt r 0 4) = true → s.sealedAttr (s.slotAt (leAt r 0 4)).attr = false → (s.mbxTaken ch).signDraws = some (x, y, u) →
        ∃ t, exec .keyAttest s = .next t ∧ KeepsStores s t ∧ t.Answered ch 0 0
          (s.originStatement (slice r 8 32) (s.slotAt (leAt r 0 4)).attr (leAt r 0 4) mat x y)) ∧
    (∀ (s u : State) (ch : Nat) (x y : Bytes), s.Serves .getIdentity ch [] → (s.mbxTaken ch).signDraws = some (x, y, u) →
        ∃ t, exec .getIdentity s = .next t ∧ KeepsStores s t ∧ t.Answered ch 0 0 (s.identityRecord x y)) ∧
    (∀ (s u : State) (ch : Nat) (r x y : Bytes), s.Serves .attestIdentity ch r → (s.mbxTaken ch).signDraws = some (x, y, u) →
        ∃ t, exec .attestIdentity s = .next t ∧ KeepsStores s t ∧ t.Answered ch 0 0 (s.measureStatement (slice r 0 32) x y)))

/-- The vault: STORE puts a key of a slot into a free entry, LOAD puts an entry into an empty slot under the owner asked for, ERASE empties
an entry, INFO lists the entries, CLEAR waits for presence; ZEROISE clears every key and takes the cold reset of its cause.
Completes: vaultStore, vaultLoad, vaultErase, vaultClear, vaultInfo, zeroise. -/
def Obligations.VaultCommands : Prop :=
  (∀ (s : State) (ch : Nat) (r : Bytes), s.Serves .vaultStore ch r → leAt r 0 4 < 131072 → leAt r 4 1 < 64 → allZero (slice r 5 3) = true →
      s.usable (leAt r 0 4) = true → s.sealedAttr (s.slotAt (leAt r 0 4)).attr = false → s.vaultEntry (leAt r 4 1) = none →
      (vaultable (s.slotAt (leAt r 0 4)).attr (s.slotAt (leAt r 0 4)).mat = true →
        ∃ t, exec .vaultStore s = .next t ∧ t.Answered ch 0 0 [] ∧ t.slots = s.slots ∧
          t.vaultEntry (leAt r 4 1) = some (vaultAttr (s.slotAt (leAt r 0 4)).attr,
            xts false s.vaultKey (leAt r 4 1) (padTo 64 (s.slotAt (leAt r 0 4)).mat)) ∧
          ∀ e, e ≠ leAt r 4 1 → t.vaultEntry e = s.vaultEntry e) ∧
      (vaultable (s.slotAt (leAt r 0 4)).attr (s.slotAt (leAt r 0 4)).mat = false →
        ∃ t, exec .vaultStore s = .next t ∧ t.Answered ch 0x37 0 [] ∧ KeepsStores s t)) ∧
  (∀ (s : State) (ch : Nat) (r x : Bytes) (w : DWord), s.Serves .vaultLoad ch r → leAt r 0 1 < 64 → allZero (slice r 1 3) = true →
      leAt r 4 4 < 131072 → ownerOk (leAt r 8 2) = true → s.vaultEntry (leAt r 0 1) = some (w, x) → getF w 7 6 = 0 → s.sealedAttr w = false →
      (s.slotAt (leAt r 4 4)).filled = false →
      ∃ t, exec .vaultLoad s = .next t ∧ t.Answered ch 0 0 [] ∧ (t.slotAt (leAt r 4 4)).mat = (xts true s.vaultKey (leAt r 0 1) x).take (vaultLen w) ∧
        (t.slotAt (leAt r 4 4)).attr = setF w 41 32 (leAt r 8 2) ∧ t.bbram = s.bbram ∧ ∀ a, a ≠ leAt r 4 4 → t.slotAt a = s.slotAt a) ∧
  (∀ (s : State) (ch : Nat) (r : Bytes), s.Serves .vaultErase ch r → leAt r 0 1 < 64 → allZero (slice r 1 7) = true →
      (s.vaultEntry (leAt r 0 1)).isSome = true →
      ∃ t, exec .vaultErase s = .next t ∧ t.Answered ch 0 0 [] ∧ t.vaultEntry (leAt r 0 1) = none ∧ t.slots = s.slots ∧
        ∀ e, e ≠ leAt r 0 1 → t.vaultEntry e = s.vaultEntry e) ∧
  (∀ (s : State) (ch : Nat), s.Serves .vaultInfo ch [] → ∃ t rsp, exec .vaultInfo s = .next t ∧ t.Answered ch 0 0 rsp ∧ rsp.length = 512 ∧
      KeepsStores s t ∧ ∀ e, e < 64 → slice rsp (8 * e) 8 = leBytes 8 (((s.vaultEntry e).map (·.1.toNat)).getD 0)) ∧
  (∀ (s : State) (ch : Nat), s.Serves .vaultClear ch [] → ∃ t, exec .vaultClear s = .next t ∧ t.Waits ch ∧ KeepsStores s t) ∧
  (∀ (s : State) (ch : Nat), s.Serves .zeroise ch [] → ∃ t, exec .zeroise s = .next t ∧ t.slots = [] ∧ t.hmac = [] ∧ t.memo = [] ∧
      t.bbram.vault = [] ∧ t.bbram.epoch = none ∧ t.boot.keys = none ∧ t.jobs = [] ∧ t.boot.held = true ∧ t.boot.cold = true ∧
      t.fld .rstCause 3 0 = 6 ∧ t.pins.resetLow = true ∧ t.otp = s.otp)

/-- Firmware and patch parts go into a session until the last, whose image is written if it passes its checks and its version rule;
RESTART takes the reset asked for with BOOT_ATTEMPTS cleared; BOOT_INFO reports.
Completes: fwWrite, patchWrite, restart, bootInfo. -/
def Obligations.FirmwareCommands : Prop :=
  (∀ (fw : Bool) (s : State) (ch n off : Nat) (r bs : Bytes) (d : DmaResult) (c : Instr) (u : State), u = s.mbxTaken ch → c = (if fw then .fwWrite d else .patchWrite d) →
      s.Serves c ch r → n = leAt r 8 4 → off = leAt r 12 4 → 0 < n → n ≤ 0x400000 → (leAt r 0 8 = stagingAddr → n ≤ stagingSize) →
      (ch = 1 → leAt r 0 8 = stagingAddr) → leAt r 16 1 < 4 → allZero (slice r 17 3) = true →
      off + n ≤ (if fw then 0x400000 else 24237) → s.reRig = none → s.requestData (leAt r 0 8) n d = some bs →
      (leAt r 16 1 = 1 → off = 0 → s.mbx.session = none →
        ∃ t, exec c s = .next t ∧ t.mbx.session = some ⟨ch, if fw then u.fwTarget else u.patchTarget, bs⟩ ∧ t.Answered ch 0 bs.length [] ∧
          t.copyAt (if fw then u.fwTarget else u.patchTarget) = [] ∧ t.slots = s.slots) ∧
      (∀ x, leAt r 16 1 = 0 → s.mbx.session = some x → x.ch = ch → decide (x.copy < 2) = fw → x.bytes.length = off →
        ∃ t, exec c s = .next t ∧ t.mbx.session = some ⟨ch, x.copy, x.bytes ++ bs⟩ ∧ t.Answered ch 0 (x.bytes ++ bs).length [] ∧ t.flash = s.flash) ∧
      (∀ x, leAt r 16 1 = 2 → s.mbx.session = some x → x.ch = ch → decide (x.copy < 2) = fw → x.bytes.length = off →
        ∃ t, exec c s = .next t ∧ t.mbx.session = none ∧ t.slots = s.slots ∧ t.rig = s.rig ∧
          match u.imageFail fw (x.bytes ++ bs) with
          | some e => t.Answered ch (e.1 % 256) e.2 [] ∧ t.flash = s.flash
          | none => t.Answered ch 0 (x.bytes ++ bs).length [] ∧ t.copyAt x.copy = x.bytes ++ bs) ∧
      (leAt r 16 1 = 3 → off = 0 → s.mbx.session = none →
        ∃ t, exec c s = .next t ∧ t.mbx.session = none ∧ t.slots = s.slots ∧ t.rig = s.rig ∧
          match u.imageFail fw bs with
          | some e => t.Answered ch (e.1 % 256) e.2 [] ∧ t.copyAt (if fw then u.fwTarget else u.patchTarget) = []
          | none => t.Answered ch 0 bs.length [] ∧ t.copyAt (if fw then u.fwTarget else u.patchTarget) = bs)) ∧
  (∀ (s : State) (ch : Nat) (r : Bytes), s.Serves .restart ch r → leAt r 0 1 < 2 → allZero (slice r 1 3) = true →
      ∃ t, exec .restart s = .next t ∧ t.boot.held = true ∧ t.boot.cold = decide (leAt r 0 1 = 1) ∧
        t.fld .rstCause 3 0 = (if leAt r 0 1 = 1 then 9 else 8) ∧ t.fld .rstBoot 2 0 = 0 ∧ t.otp = s.otp) ∧
  (∀ (s : State) (ch : Nat), s.Serves .bootInfo ch [] →
      ∃ t, exec .bootInfo s = .next t ∧ t.Answered ch 0 0 (s.mbxTaken ch).bootInfoRsp ∧ s.bootInfoRsp.length = 32 ∧ KeepsStores s t)

/-- The life cycle: LC_ADVANCE to a legal target waits for presence, but for MAKER_TEST, which begins at once; an illegal one ends LC_ORDER;
a drained transition programs its group and takes the cold reset LIFE_CYCLE. LC_STATUS reports.
Completes: lcTransitionDrained, lcStatus, lcAdvance. -/
def Obligations.LifeCycleCommands : Prop :=
  (∀ (s : State) (ch : Nat), s.Serves .lcStatus ch [] → ∃ t, exec .lcStatus s = .next t ∧ t.Answered ch 0 0 s.lcStatusRsp ∧ KeepsStores s t) ∧
  (∀ (s : State) (ch : Nat) (r : Bytes), s.Serves .lcAdvance ch r → allZero (slice r 1 3) = true →
      (lcLegal s.lcState (leAt r 0 1) = true → leAt r 0 1 ≠ 1 → (leAt r 0 1 = 3 → posProgrammed s.otp.authI = true) →
        ∃ t, exec .lcAdvance s = .next t ∧ t.Waits ch ∧ t.fld .lcsState 6 4 = 1 ∧ t.fld .lcsState 10 8 = leAt r 0 1 ∧ KeepsStores s t) ∧
      (lcLegal s.lcState (leAt r 0 1) = true → leAt r 0 1 = 1 → s.otp.secretFull = false →
        ∃ t, exec .lcAdvance s = .next t ∧ t.transition = some ⟨1, false, none, false⟩ ∧ t.devState = 2 ∧ t.fld .lcsState 6 4 = 2 ∧ t.slots = s.slots ∧
          t.otp = s.otp) ∧
      (lcLegal s.lcState (leAt r 0 1) = false → ∃ t, exec .lcAdvance s = .next t ∧ t.Answered ch 0x40 0 [] ∧ KeepsStores s t)) ∧
  (∀ (s u : State) (x : Transition) (sec : List Nat), s.transition = some x → (∀ j ∈ s.jobs, j.phase = .sealed) → s.tamper.dip = none →
      s.moveSecret x.target = some (sec, u) → s.power.io = true → s.power.backup = false → s.boot.held = false →
      (∃ t, exec (.lcTransitionDrained .ok) s = .next t ∧ t.otp = (s.otp.withSecret sec).finish x.target ∧ t.slots = [] ∧ t.transition = none ∧
        t.boot.held = true ∧ t.boot.cold = true ∧ t.fld .rstCause 3 0 = 7) ∧
      (∀ w, w ≠ .ok → ∃ t, exec (.lcTransitionDrained w) s = .next t ∧ t.slots = [] ∧ t.transition = none ∧ t.boot.held = true ∧
        t.fld .rstCause 3 0 = 7))

/-- Debug authorisation: a challenge is a fresh nonce for 600 s, which lapses; a certificate is checked in the order of R398 and consumes the
challenge, then waits for presence; CLOSE ends every right; setting and revoking wait for presence.
Completes: dbgChallenge, dbgOpen, dbgClose, dbgSetAuth, dbgRevoke, challengeLapse. -/
def Obligations.DebugCommands : Prop :=
  (∀ (s u : State) (ch : Nat) (n : Bytes), s.Serves .dbgChallenge ch [] → (s.mbxTaken ch).scDraw 32 = some (n, u) →
      ∃ t, exec .dbgChallenge s = .next t ∧ t.dbg.nonce = some n ∧ t.Answered ch 0 0 (s.serial ++ n) ∧
        t.rd .dbgChalExpiry = s.rd .genTime + 600000000000 ∧ KeepsStores s t) ∧
  (∀ (s : State), s.dbg.nonce.isSome = true → s.rd .dbgChalExpiry ≠ 0 → s.fld .dbgChalExpiry 63 0 ≤ s.now →
      ∃ t, exec .challengeLapse s = .next t ∧ t.dbg.nonce = none ∧ t.rd .dbgChalExpiry = 0 ∧ KeepsStores s t) ∧
  (∀ (s : State) (ch : Nat) (c : Bytes), s.Serves .dbgOpen ch c →
      ∃ t, exec .dbgOpen s = .next t ∧ KeepsStores s t ∧ t.rd .dbgRights = s.rd .dbgRights ∧
        if s.fld .dbgRights 8 0 ≠ 0 then t.Answered ch 0x4A 0 []
        else if c.length ≠ 5333 ∨ c.take 5 ≠ [0x46, 0x4A, 0x44, 0x43, 1] ∨ 1 < leAt c 5 1 ∨ allZero (slice c 6 2) = false ∨
          allZero (slice c 68 4) = false ∨ 0x200 ≤ leAt c 56 4 then t.Answered ch 0x42 0 []
        else if slice c 8 16 ≠ s.serial then t.Answered ch 0x43 0 []
        else t.dbg.nonce = none ∧
          if s.dbg.nonce ≠ some (slice c 24 32) then t.Answered ch 0x44 0 []
          else if s.signerOk c = false then t.Answered ch 0x45 0 []
          else if leAt c 60 4 < s.otp.debugMin then t.Answered ch 0x46 0 []
          else if leAt c 56 4 = 0 ∨ leAt c 56 4 &&& s.rightsGranted ≠ leAt c 56 4 then t.Answered ch 0x47 0 []
          else if dsaVerifies (slice c 72 1952) (c.take 2024) (slice c 2024 3309) "FJ9640-DEBUG" then t.Waits ch else t.Answered ch 0x48 0 []) ∧
  (∀ (s : State) (ch : Nat), s.Serves .dbgClose ch [] →
      ∃ t, exec .dbgClose s = .next t ∧ t.rd .dbgRights = 0 ∧ t.dbg.record = 0 ∧ t.Answered ch 0 0 [] ∧ t.bit .genState 5 = s.bit .genState 5 ∧
        KeepsStores s t) ∧
  (∀ (s : State) (ch : Nat) (r : Bytes),
      (s.Serves .dbgSetAuth ch r → s.lcState = 2 → posProgrammed s.otp.authI = false →
        ∃ t, exec .dbgSetAuth s = .next t ∧ t.Waits ch ∧ KeepsStores s t) ∧
      (s.Serves .dbgSetAuth ch r → s.lcState ≠ 2 → ∃ t, exec .dbgSetAuth s = .next t ∧ t.Answered ch 0x25 0 [] ∧ KeepsStores s t) ∧
      (s.Serves .dbgRevoke ch r → s.lcState = 2 ∨ s.lcState = 3 → leAt r 0 1 ≤ 63 → allZero (slice r 1 3) = true →
        ∃ t, exec .dbgRevoke s = .next t ∧ t.Waits ch ∧ KeepsStores s t))

/-- Presence: the press serves the command that waits as its kind says, one without its further condition ends PRESENCE, and so does one
that has waited 60 s.
Completes: presencePress, presenceTimeout. -/
def Obligations.PresenceServes : Prop :=
  (∀ (s : State) (ch : Nat) (jmp sealOpen : Bool), s.power.io = true → s.power.backup = false → s.boot.held = false → s.mbx.busy = some ch →
      s.bit (.mbxStatus ch) 2 = true → s.mbxCode ch ∈ mbxCodes →
      (s.presenceOk ch jmp sealOpen = false → ∃ t, exec (.presencePress jmp sealOpen) s = .next t ∧ t.Answered ch 0x27 0 [] ∧ KeepsStores s t) ∧
      (s.presenceOk ch jmp sealOpen = true → s.tamper.dip = none →
        (s.mbxCode ch = 0x0402 → ∃ t, exec (.presencePress jmp sealOpen) s = .next t ∧ t.transition = some ⟨leAt (s.mbxRequest ch) 0 1, false, none, false⟩ ∧
          t.devState = 2 ∧ t.slots = s.slots ∧ t.otp = s.otp) ∧
        (s.mbxCode ch = 0x0411 → ∃ t, exec (.presencePress jmp sealOpen) s = .next t ∧
          t.rd .dbgRights = BitVec.ofNat 64 (certRights (s.mbxRequest ch)) ∧ t.dbg.record = certRights (s.mbxRequest ch) ∧
          (4 ≤ certRights (s.mbxRequest ch) → t.bit .genState 5 = true ∧ t.hmac = []) ∧ t.Answered ch 0 0 [] ∧ KeepsStores s t) ∧
        (s.mbxCode ch = 0x0413 → ∃ t, exec (.presencePress jmp sealOpen) s = .next t ∧ t.otp.authI.1 = hashOf 3 (s.mbxRequest ch) ∧
          t.Answered ch 0 (leAt (hashOf 3 (s.mbxRequest ch)) 0 4) [] ∧ t.slots = s.slots) ∧
        (s.mbxCode ch = 0x0414 → ∃ t, exec (.presencePress jmp sealOpen) s = .next t ∧
          t.otp.debugMin = max s.otp.debugMin (leAt (s.mbxRequest ch) 0 1) ∧
          t.Answered ch 0 (max s.otp.debugMin (leAt (s.mbxRequest ch) 0 1)) [] ∧ t.slots = s.slots) ∧
        (s.mbxCode ch = 0x0313 → (s.prDraw 36).isSome = true → ∃ t, exec (.presencePress jmp sealOpen) s = .next t ∧ t.bbram.vault = [] ∧
          t.bbram.epoch.isSome = true ∧ t.bbram.summary = 0 ∧ t.slots = s.slots ∧ t.Answered ch 0 0 []) ∧
        (∀ i b p, i = s.stagedImage → b = 80 + rigBody i → p = s.rigPosition + 1 → s.mbxCode ch = 0x0205 →
          ∃ t, exec (.presencePress jmp sealOpen) s = .next t ∧ t.slots = s.slots ∧ t.otp = s.otp ∧
            if s.rotatable = false ∨ s.endorsementOk i = false then t.Answered ch 0x26 0 []
            else match s.checkRig i p (authDigest (slice i b 1952) (slice i (b + 1952) 97)) with
              | .inl e => t.Answered ch (e.1 % 256) e.2 []
              | .inr _ => t.mbx.flash = some ⟨ch, s.rigTarget, i, .rotate p⟩ ∧ t.copyAt s.rigTarget = []))) ∧
  (∀ (s : State) (ch : Nat), s.mbx.busy = some ch → s.bit (.mbxStatus ch) 2 = true → s.mbxCode ch ∈ mbxCodes →
      ∃ t, exec .presenceTimeout s = .next t ∧ t.Answered ch 0x27 0 [] ∧ KeepsStores s t)

/-! ### Tamper, random numbers and memory -/

/-- An alarm of a live source is latched, counted and logged under its effective class and acts as that class: LOG and INTERRUPT leave
work alone, HALT_SERVICE ends it and reads HALTED, RESET takes the tamper reset, ZEROISE and ZEROISE_LOCK clear every key and take the
cold reset; an alarm that joins a group repeats no response; an end clears the source; on the cell an alarm zeroises BBRAM.
Completes: tamperAlarm, sourceInactive, backupAlarm. -/
def Obligations.TamperAlarms : Prop :=
  (∀ (s : State) (k val : Nat), k ≠ 9 → k < 18 → s.srcLive k = true → s.bit .tmpActive k = false → s.boot.held = false →
      s.shadowBad (.tmpSrcCfg k) = false → s.shadowBad .tmpTempCtrl = false →
      (s.execClass (s.effClass k) ≤ 2 → ∃ t, exec (.tamperAlarm k val false) s = .next t ∧ t.bit .tmpActive k = true ∧ t.bit .tmpAlarm k = true ∧
        t.fld (.tmpSrcCount k) 31 0 = min (2 ^ 32 - 1) (s.fld (.tmpSrcCount k) 31 0 + 1) ∧ t.rd (.tmpSrcLast k) = s.rd .tmpTime ∧
        t.fld .tmpLogSeq 31 0 = (s.fld .tmpLogSeq 31 0 + 1) % 2 ^ 32 ∧ t.fld (.tmpLogWord s.logPlace 1) 7 0 = 1 ∧
        t.fld (.tmpLogWord s.logPlace 1) 15 8 = k ∧ t.fld (.tmpLogWord s.logPlace 1) 23 16 = s.execClass (s.effClass k) ∧
        t.fld (.tmpLogWord s.logPlace 1) 63 32 = val % 2 ^ 32 ∧ t.devState = s.devState ∧ t.jobs = s.jobs ∧ t.slots = s.slots ∧
        t.otp = s.otp ∧ (s.execClass (s.effClass k) = 2 → t.pins.alarmLow = true)) ∧
      (s.effClass k = 3 → s.devState = 1 → s.boot.starting = false → s.mbx.busy = none → s.reRig = none →
        ∃ t, exec (.tamperAlarm k val false) s = .next t ∧ t.devState = 2 ∧ t.fld .tmpStatus 12 8 = k ∧ t.bit .tmpStatus 2 = true ∧
          t.pins.alarmLow = true ∧ (∀ x ∈ t.jobs, x.phase = .sealed) ∧ t.slots = s.slots ∧ t.otp = s.otp) ∧
      (s.execClass (s.effClass k) = 4 → ∃ t, exec (.tamperAlarm k val false) s = .next t ∧ t.boot.held = true ∧ t.boot.cold = false ∧ t.jobs = [] ∧
        t.fld .rstCause 3 0 = 5 ∧ t.fld .rstCause 12 8 = k ∧ t.pins.resetLow = true ∧ t.otp = s.otp ∧
        ((∀ j ∈ s.jobs, j.phase ≠ .sealed) → s.transition = none → t.slots = s.slots) ∧ (k = 13 ∨ k = 14 → k ∈ t.tamper.holdStart)) ∧
      (5 ≤ s.effClass k → ∃ t, exec (.tamperAlarm k val false) s = .next t ∧ t.slots = [] ∧ t.hmac = [] ∧ t.memo = [] ∧ t.jobs = [] ∧
        t.bbram.vault = [] ∧ t.bbram.epoch = none ∧ t.boot.keys = none ∧ t.boot.held = true ∧ t.boot.cold = true ∧
        t.fld .rstCause 3 0 = 6 ∧ (6 ≤ s.effClass k → t.bbram.lock = true) ∧ t.otp = s.otp)) ∧
  (∀ (s : State) (k val : Nat), k ≠ 9 → k < 18 → s.srcLive k = true → s.bit .tmpActive k = false → s.tamper.group ≠ [] →
      s.effClass k ≤ s.tamper.running → s.tamper.running ≤ 6 → s.mbx.busy = none →
      s.shadowBad (.tmpSrcCfg k) = false → s.shadowBad .tmpTempCtrl = false →
      ∃ t, exec (.tamperAlarm k val true) s = .next t ∧ t.bit .tmpActive k = true ∧ t.bit .tmpAlarm k = true ∧
        t.fld (.tmpLogWord s.logPlace 1) 23 16 = s.tamper.running ∧ t.fld (.tmpLogWord s.logPlace 1) 31 24 = 2 ∧
        t.devState = s.devState ∧ t.jobs = s.jobs ∧ t.slots = s.slots ∧ t.otp = s.otp) ∧
  (∀ (s : State) (k : Nat), (∀ ch, s.mbxHead = some ch → s.mbxCode ch ∈ mbxCodes) →
      (s.boot.romHold = true → s.tamper.holdStart = [k] → s.tamper.dip = none → k < 17 → k ∉ [6, 9, 10, 11, 12] →
        ∃ t, exec (.sourceInactive k) s = .next t ∧ t.boot.romHold = false ∧ t.tamper.holdStart = [] ∧ t.bit .tmpActive k = false) ∧
      (s.boot.romHold = false → k = 9 ∨ k = 10 ∨ k = 11 ∨ 17 ≤ k → exec (.sourceInactive k) s = .next s) ∧
      (s.boot.romHold = false → k < 17 → k ≠ 9 → k ≠ 10 → k ≠ 11 → ∃ t, exec (.sourceInactive k) s = .next t ∧ t.bit .tmpActive k = false ∧ t.jobs = s.jobs ∧
        t.slots = s.slots ∧ (k ≠ 6 → k ≠ 12 → k ∉ s.tamper.holdStart → OnlyRegs [.tmpActive] s t) ∧
        (k ≠ 12 → k ∉ t.tamper.holdStart) ∧ ∀ i, i ≠ k → t.bit .tmpActive i = s.bit .tmpActive i)) ∧
  (∀ (s : State) (k val : Nat), k < 8 → s.power.backup = true → s.bit .tmpActive k = false → s.power.crystal = true →
      ∃ t, exec (.backupAlarm k val) s = .next t ∧ t.bbram.vault = [] ∧ t.bbram.epoch = none ∧ t.bbram.alarmed.testBit k = true ∧
        t.bbram.lock = (s.bbram.lock || decide (s.aonClass k = some 6)) ∧ t.bit .tmpActive k = true ∧ t.cells = [] ∧
        t.fld (.tmpLogWord s.logPlace 1) 15 0 = 1 + 256 * k ∧ t.jobs = s.jobs ∧ t.slots = s.slots ∧ t.otp = s.otp)

/-- Supply dips: below the warning level jobs not sealed are suspect and dispatch pauses; at recovery suspect jobs are re-executed,
uncounted, and the dip is counted; a long dip reads HALTED. Writes of the warning level and the ceiling clamp, RESUME answers, TMP_TIME
latches GEN_TIME, and a sweep restores a register that disagrees with its shadow.
Completes: supplyDip, dipRecovery, dipHalt, tmpVddWrite, tmpTempCtrlWrite, shadowSweep, tmpResume, tmpTimeRead. -/
def Obligations.DipsHaltedAndShadows : Prop :=
  (∀ (s : State) (mv : Nat), s.shadowBad .tmpVdd = false → s.shadowBad (.tmpSrcCfg 9) = false →
      (∀ same, exec (.tamperAlarm 9 mv same) s = exec (.supplyDip mv same) s) ∧
      (s.warnLevel ≤ mv → exec (.supplyDip mv) s = .next s) ∧
      (mv < s.warnLevel → s.monitored = true → s.tamper.dip = none → s.bit .tmpActive 9 = false → s.effClass 9 ≤ 2 →
        ∃ t, exec (.supplyDip mv) s = .next t ∧ t.tamper.dip = some ⟨mv, false, s.execClass (s.effClass 9), false, true⟩ ∧ t.bit .genState 4 = true ∧
          t.bit .tmpActive 9 = true ∧ t.devState = s.devState ∧ t.slots = s.slots ∧
          t.jobs = s.jobs.map (fun j => if j.phase = .sealed ∨ j.phase = .waiting then j else { j with suspect := true }))) ∧
  (∀ (s : State) (d : Dip) (mv us : Nat), s.tamper.dip = some d → s.NothingDeferred → s.boot.romHold = false → s.shadowBad .tmpVdd = false →
      (mv < s.warnLevel + 15 → (∀ ch, s.mbxHead = some ch → s.mbxCode ch ∈ mbxCodes) → exec (.dipRecovery mv us) s = .next s) ∧
      (s.warnLevel + 15 ≤ mv → ∃ t, exec (.dipRecovery mv us) s = .next t ∧ t.tamper.dip = none ∧ t.bit .genState 4 = false ∧
        t.bit .tmpActive 9 = false ∧ t.fld .tmpDipCount 31 0 = min (2 ^ 32 - 1) (s.fld .tmpDipCount 31 0 + 1) ∧
        t.fld .tmpDipLongest 12 0 = max (s.fld .tmpDipLongest 12 0) (min 8191 us) ∧ t.slots = s.slots ∧
        ((s.jobs.map (·.id)).Nodup → ∀ x ∈ s.jobs, x.suspect = true → x.phase ≠ .sealed → x.phase ≠ .waiting → dClass x.desc ≠ 0x10 →
          ∃ y, t.job? x.id = some y ∧ y.retried = true ∧ y.desc = x.desc ∧ y.failures = x.failures))) ∧
  (∀ (s : State) (d : Dip) (mv : Nat), s.tamper.dip = some d → d.halted = false → s.devState = 1 → s.boot.held = false →
      s.boot.starting = false → s.mbx.busy = none → s.reRig = none →
      ∃ t, exec (.dipHalt mv) s = .next t ∧ t.devState = 2 ∧ t.fld .tmpStatus 12 8 = 9 ∧ (∀ x ∈ t.jobs, x.phase = .sealed) ∧
        t.tamper.dip.any (fun e => e.halted && e.lowest == min d.lowest mv) = true ∧ t.slots = s.slots) ∧
  (∀ (s : State) (v : DWord),
      (s.hidden .tmpVdd = false → ∃ t, exec (.tmpVddWrite v) s = .next t ∧
        t.fld .tmpVdd 9 0 = max 690 (min 730 (v.toNat % 1024)) / 5 * 5 ∧ OnlyRegs [.tmpVdd] s t) ∧
      (s.hidden .tmpTempCtrl = false →
        (s.bit .tmpActive 12 = false → ∃ t, exec (.tmpTempCtrlWrite v) s = .next t ∧ t.fld .tmpTempCtrl 1 0 = min 2 (v.toNat % 4) ∧
          OnlyRegs [.tmpTempCtrl] s t) ∧
        (s.bit .tmpActive 12 = true → ∃ t, exec (.tmpTempCtrlWrite v) s = .next t ∧ t.jobs = s.jobs ∧
          ∀ n, n < 8 → t.fld (.fabIslStat n) 3 2 = min 2 (v.toNat % 4) ∧
            t.fld (.fabIslStat n) 1 0 = max (s.fld (.fabIslCtrl n) 1 0) (min 2 (v.toNat % 4))))) ∧
  (∀ (s : State), s.hidden .tmpCtrl = false → (∀ k, s.shadowBad (.tmpSrcCfg k) = false) →
      (s.devState = 2 → s.bit .tmpStatus 2 = true → (∀ k, k < 18 → s.bit .tmpActive k = true → s.effClass k < 3) →
        (s.tamper.dipHalt = true → s.tamper.dip = none) → ∃ t, exec .tmpResume s = .next t ∧ t.fld .tmpStatus 17 16 = 1 ∧
          t.bit .tmpStatus 2 = false ∧ t.devState = (if s.boot.linkDown then 0 else 1) ∧ t.jobs = s.jobs ∧ t.slots = s.slots) ∧
      (s.devState ≠ 2 ∨ (∃ k, k < 18 ∧ s.bit .tmpActive k = true ∧ 3 ≤ s.effClass k) →
        ∃ t, exec .tmpResume s = .next t ∧ t.fld .tmpStatus 17 16 = 2 ∧ OnlyRegs [.tmpStatus] s t)) ∧
  (∀ (s : State), ∃ t, exec .tmpTimeRead s = .next t ∧
      (s.hidden .tmpTime = false → t.rdata = leBytes 8 (s.rd .tmpTime).toNat ∧ t.rd .tmpTimeGen = s.rd .genTime) ∧
      (s.hidden .tmpTime = true → t.rdata = zeros 8 ∧ t.regs = s.regs) ∧ ∀ r, r ≠ .tmpTimeGen → t.rd r = s.rd r) ∧
  (∀ (s : State), s.boot.held = false → s.power.io = true → s.power.backup = false → (∀ a, s.slotBad a = false) →
      (∀ (k c i : Nat), s.tamper.aonClass[k]? = some (c, i) → c + i = 7) →
      ((∀ r, s.shadowBad r = false) → exec .shadowSweep s = .next s) ∧
      (∀ (r : Reg) (inv kept : DWord), s.shadowBad r = true → (∀ e ∈ s.shadow, e.1.shadowed = true) → (∀ x, x ≠ r → s.shadowBad x = false) →
        s.shadow.find? (fun e => decide (e.1 = r)) = some (r, inv, kept) → s.effClass 17 ≤ 2 →
        ∃ t, exec .shadowSweep s = .next t ∧ t.rd r = s.committed r kept ∧ t.shadowBad r = false ∧
          t.fld .tmpIntegCount 31 0 = min (2 ^ 32 - 1) (s.fld .tmpIntegCount 31 0 + 1) ∧ t.jobs = s.jobs ∧ t.slots = s.slots))

/-- The entropy source and the DRBG instances: a failed test restarts the source and empties the pool, a third failed restart makes it
FAILED, uninstantiates every instance and ends the jobs that wait; restarts end and are commanded; the pool fills by 32 B and serves
64 B and 48 B in the order of its demands; an instance asks for its reseed and stops at its limit.
Completes: healthTestFailure, sourceRestartEnd, drbgReseedRequest, drbgAtLimit, conditionedBlock, reseedServed, restartCountClear,
rngRearm, rngRestart. -/
def Obligations.RandomService : Prop :=
  (∀ (s : State) (cell test : Nat), cell < 4 → test < 4 →
      (s.srcState = 2 → s.rng.recent = false → ∃ t, exec (.healthTestFailure cell test) s = .next t ∧ t.srcState = 3 ∧
        t.fld .rngFailInfo 3 0 = (if test = 3 then 0 else cell) + 4 * test ∧ t.rd .rngFailTime = s.rd .genTime ∧ t.poolBytes = 0 ∧
        t.fld .rngHtFails 31 0 = min (2 ^ 32 - 1) (s.fld .rngHtFails 31 0 + 1) ∧ t.bit .rngEvtStatus 0 = true ∧ t.rng.restart = 1 ∧
        t.jobs = s.jobs) ∧
      (s.srcState = 3 ∧ s.rng.restart ≠ 4 ∨ s.srcState = 2 ∧ s.rng.recent = true → s.failedRestarts < 2 → ∃ t, exec (.healthTestFailure cell test) s = .next t ∧ t.srcState = 3 ∧
        t.failedRestarts = s.failedRestarts + 1 ∧ t.poolBytes = 0 ∧ t.jobs = s.jobs) ∧
      (s.srcState = 3 ∧ s.rng.restart ≠ 4 ∨ s.srcState = 2 ∧ s.rng.recent = true → s.failedRestarts = 2 → s.tamper.dip = none →
        ∃ t, exec (.healthTestFailure cell test) s = .next t ∧ t.srcState = 4 ∧ t.failedRestarts = 3 ∧ (∀ k, k < 16 → t.drbState k = 0) ∧
          t.bit .rngEvtStatus 2 = true ∧ t.bit .rngEvtStatus 5 = true ∧
          ((s.jobs.map (·.id)).Nodup → ∀ x ∈ s.jobs, x.drawWait = true ∨ x.pqWait = true → x.phase ≠ .sealed →
            x.needs = [] ∨ s.leaving = false → ∃ y, t.job? x.id = some y ∧ y.phase = .sealed ∧ y.result = some (.fail 0x30 0))) ∧
      (s.srcState = 0 ∨ s.srcState = 4 → exec (.healthTestFailure cell test) s = .next s) ∧
      (s.srcState = 1 ∨ s.srcState = 3 → exec (.sourceRestartEnd (some (cell, test))) s = exec (.healthTestFailure cell test) s)) ∧
  (∀ (s : State),
      (s.srcState = 1 ∨ s.srcState = 3 → ∃ t, exec (.sourceRestartEnd none) s = .next t ∧ t.srcState = 2 ∧
        (∀ k, k < 4 → t.bit (.rngCellStat k) 0 = true) ∧ (s.srcState = 3 → t.bit .rngEvtStatus 1 = true) ∧ t.jobs = s.jobs) ∧
      (s.srcState = 2 → ∃ t, exec .restartCountClear s = .next t ∧ t.failedRestarts = 0 ∧ t.rng.recent = false ∧ t.srcState = 2 ∧ t.jobs = s.jobs) ∧
      (s.hidden .rngCtrl = false →
        (s.srcState = 4 → ∃ t, exec .rngRearm s = .next t ∧ t.srcState = 3 ∧ t.failedRestarts = 0 ∧ t.jobs = s.jobs) ∧
        (s.srcState ≠ 4 → exec .rngRearm s = .next s) ∧
        (s.srcState = 1 ∨ s.srcState = 2 → ∃ t, exec .rngRestart s = .next t ∧ t.srcState = 3 ∧ t.rng.restart = 4 ∧
          (∀ k, k < 4 → t.bit (.rngCellStat k) 0 = false) ∧ t.poolBytes = s.poolBytes ∧ t.jobs = s.jobs) ∧
        (s.srcState ≠ 1 → s.srcState ≠ 2 → exec .rngRestart s = .next s)) ∧
      (∀ bs : Bytes, (s.srcState = 2 → s.bit .genState 4 = false →
          (∀ u, s.takeSamples (· % 4) (bitsOf bs) = (none, u) → ∃ t, exec (.conditionedBlock bs) s = .next t ∧
            t.rng.pool = (if 512 < s.poolBytes + 32 then s.rng.pool else s.rng.pool ++ sha3 32 bs) ∧ t.srcState = 2 ∧
            t.jobs = s.jobs ∧ t.slots = s.slots) ∧
          (∀ u cell test, s.takeSamples (· % 4) (bitsOf bs) = (some (cell, test), u) →
            exec (.conditionedBlock bs) s = exec (.healthTestFailure cell test) u)) ∧
        (s.srcState ≠ 2 ∨ s.bit .genState 4 = true → exec (.conditionedBlock bs) s = .next s))) ∧
  (∀ (x : CellTest) (b : Bool), (x.last = some b → x.run = 75 → (x.take b).fails = some 0) ∧
      (x.last = some !b → x.first = b → x.count = 860 → 0 < x.pos → (x.take b).fails = some 1)) ∧
  (∀ (s : State) (k : Nat),
      (s.drbState k = 1 → 4096 ≤ s.fld (.rngDrbCount k) 20 0 →
        ∃ t, exec (.drbgReseedRequest k) s = .next t ∧ t.drbState k = 2 ∧ OnlyRegs [.rngDrbStat k] s t) ∧
      (s.drbState k = 1 ∨ s.drbState k = 2 → 1048576 ≤ s.fld (.rngDrbCount k) 20 0 →
        ∃ t, exec (.drbgAtLimit k) s = .next t ∧ t.drbState k = 3 ∧ t.rng.limitOrder = s.rng.limitOrder ++ [k] ∧
          t.bit .rngEvtStatus 4 = true ∧ t.jobs = s.jobs)) ∧
  (∀ (s : State),
      (s.srcState ≠ 2 ∨ s.bit .genState 4 = true → s.tamper.meshDue = false → s.transition = none → exec .reseedServed s = .next s) ∧
      (s.srcState = 2 → s.bit .genState 4 = false → s.tamper.meshDue = false → s.transition = none →
        (∀ k, firstBelow 16 (fun i => s.bit (.rngDrbStat i) 4 && s.drbState i == 0) = some k → 64 ≤ s.poolBytes →
          ∃ t, exec .reseedServed s = .next t ∧ t.drbState k = 1 ∧ t.poolBytes = s.poolBytes - 64 ∧
            ((∀ i, i < 96 → (s.tile i).unseeded = false) → t.drbg k =
              drbgInstantiate (s.rng.pool.take 48) (slice s.rng.pool 48 16) (s.otp.serial ++ [BitVec.ofNat 8 k]))) ∧
        ((∀ k, k < 16 → s.bit (.rngDrbStat k) 4 = true → s.drbState k ≠ 0) →
          (∀ (k j n : Nat) (l : List (Nat × Option Nat × Nat)), s.rng.prWait = (k, some j, n) :: l → k < 16 → n < 2 ^ 20 → 48 ≤ s.poolBytes →
            ∃ t, exec .reseedServed s = .next t ∧ t.poolBytes = s.poolBytes - 48 ∧ t.drbState k = 1 ∧ t.fld (.rngDrbCount k) 20 0 = 1 ∧ t.rng.prWait = l ∧
              ∀ x, s.job? j = some x → ∃ y bs, t.job? j = some y ∧ y.prGranted = true ∧ y.drawn = x.drawn ++ [(x.prHalf, bs)] ∧ y.phase = x.phase) ∧
          (∀ (k : Nat) (l : List Nat), s.rng.prWait = [] → s.rng.limitOrder = k :: l → 48 ≤ s.poolBytes →
            ∃ t, exec .reseedServed s = .next t ∧ t.poolBytes = s.poolBytes - 48 ∧ t.drbState k = 1 ∧ t.fld (.rngDrbCount k) 20 0 = 0 ∧
              k ∉ t.rng.limitOrder ∧ t.jobs = s.jobs) ∧
          (s.poolBytes < 48 → exec .reseedServed s = .next s))))

/-- Scratch banks and LPDDR5X: a handover closes the old owner's port, drains, wipes if asked and opens the new owner's; a host access
reaches only a bank the host owns, else it is counted and reads zeros; the alias views set and clear bits, an on-chip owner fetches and
sets; an aperture reaches its slice's window, a fill zeroes its range, and a scrub pass counts what it met.
Completes: bankHandover, bankHandoverDrained, bankWipeDone, bar4NormalAccess, setAliasWrite, clearAliasWrite, fetchAndSet, fetchAndClear,
apertureAccess, patrolScrubPass, ddrFillGo, ddrFillDone. -/
def Obligations.MemoryCommands : Prop :=
  ((∀ (s : State) (b : Nat) (v : DWord), s.hidden (.memBankHandover b) = false →
        (s.bankOwner b = 0 ∨ v.toNat % 16 = 0 → ∃ t, exec (.bankHandover b v) s = .next t ∧ t.fld (.memBankOwner b) 9 8 = 2 ∧
          OnlyRegs [.memBankOwner b] s t) ∧
        (s.bankOwner b ≠ 0 → v.toNat % 16 ≠ 0 → s.bankState b ≠ 0 → ∃ t, exec (.bankHandover b v) s = .next t ∧
          t.fld (.memBankOwner b) 9 8 = 1 ∧ OnlyRegs [.memBankOwner b] s t) ∧
        (s.bankOwner b ≠ 0 → v.toNat % 16 ∈ [1, 2, 3, 4] → s.bankState b = 0 → ∃ t, exec (.bankHandover b v) s = .next t ∧
          t.bankState b = 1 ∧ t.bankOwner b = s.bankOwner b ∧ t.bit (.memBankAper b) 0 = false ∧
          t.fld (.memBankHandover b) 4 0 = v.toNat % 32 ∧ OnlyRegs [.memBankOwner b, .memBankAper b, .memBankHandover b] s t)) ∧
    (∀ (s : State) (b : Nat),
        (s.bankState b = 1 → s.bit (.memBankHandover b) 4 = true → ∃ t, exec (.bankHandoverDrained b) s = .next t ∧ t.bankState b = 2 ∧
          OnlyRegs [.memBankOwner b] s t) ∧
        (s.bankState b = 1 → s.bit (.memBankHandover b) 4 = false → ∃ t, exec (.bankHandoverDrained b) s = .next t ∧ t.bankState b = 0 ∧
          t.bankOwner b = s.fld (.memBankHandover b) 3 0 ∧ t.bit .memEvtStatus 3 = true ∧ t.sram = s.sram) ∧
        (s.bankState b = 2 → ∃ t, exec (.bankWipeDone b) s = .next t ∧ t.bankState b = 0 ∧ t.bankOwner b = s.fld (.memBankHandover b) 3 0 ∧
          t.bit .memEvtStatus 3 = true ∧ ∀ a, Memory.get a t.sram =
            (if bankSize * b ≤ a ∧ a < bankSize * (b + 1) then 0 else Memory.get a s.sram))) ∧
    (∀ (s : State) (off n : Nat) (bs : List (Option Byte)) (ecc : Ecc), s.ownsBank 4 (off / bankSize) = false →
        (∃ t, exec (.bar4NormalAccess off (.read n) ecc) s = .next t ∧ t.rdata = zeros n ∧ t.bit .memEvtStatus 0 = true ∧ t.sram = s.sram ∧
          t.fld (.memBankViol (off / bankSize)) 31 0 = min (2 ^ 32 - 1) (s.fld (.memBankViol (off / bankSize)) 31 0 + 1)) ∧
        (∃ t, exec (.bar4NormalAccess off (.write bs) ecc) s = .next t ∧ t.sram = s.sram ∧ t.ddr = s.ddr ∧ t.bit .memEvtStatus 0 = true)) ∧
    (∀ (s : State) (off n : Nat) (bs : List (Option Byte)), s.ownsBank 4 (off / bankSize) = true → s.bit (.memBankAper (off / bankSize)) 0 = false →
        (∃ t, exec (.bar4NormalAccess off (.read n) .clean) s = .next t ∧ t.rdata = Memory.read off n s.sram ∧ t.poisoned = false ∧
          OnlyRegs [] s { t with rdata := s.rdata, poisoned := s.poisoned }) ∧
        (∃ t, exec (.bar4NormalAccess off (.read n) .uncorrectable) s = .next t ∧ t.poisoned = true ∧ t.rdata.length = n ∧
          t.bit .memEvtStatus 1 = true ∧ t.sram = s.sram) ∧
        (∃ t, exec (.bar4NormalAccess off (.write bs) .clean) s = .next t ∧ OnlyRegs [] s { t with sram := s.sram } ∧
          (Memory.wf s.sram = true → ∀ a, Memory.get a t.sram = (if a < off then Memory.get a s.sram
            else match bs[a - off]? with
              | some (some x) => x
              | _ => Memory.get a s.sram)))) ∧
    (∀ (s : State) (off width : Nat) (v : DWord),
        (s.ownsBank 4 (off / bankSize) = true → s.bit (.memBankAper (off / bankSize)) 0 = false → width = 32 ∨ width = 64 →
          off % (width / 8) = 0 → Memory.wf s.sram = true →
          (∃ t, exec (.setAliasWrite off width v) s = .next t ∧ Memory.read off (width / 8) t.sram =
            leBytes (width / 8) (leNat (Memory.read off (width / 8) s.sram) ||| v.toNat % 2 ^ width) ∧
            (∀ a, a < off ∨ off + width / 8 ≤ a → Memory.get a t.sram = Memory.get a s.sram) ∧ OnlyRegs [] s { t with sram := s.sram }) ∧
          (∃ t, exec (.clearAliasWrite off width v) s = .next t ∧
            (∀ i, i < width → (leNat (Memory.read off (width / 8) t.sram)).testBit i =
              ((leNat (Memory.read off (width / 8) s.sram)).testBit i && !v.toNat.testBit i)) ∧
            (∀ a, a < off ∨ off + width / 8 ≤ a → Memory.get a t.sram = Memory.get a s.sram) ∧ OnlyRegs [] s { t with sram := s.sram })) ∧
        (s.ownsBank 4 (off / bankSize) = false → ∃ t, exec (.setAliasWrite off width v) s = .next t ∧
          exec (.clearAliasWrite off width v) s = .next t ∧ t.sram = s.sram ∧ t.bit .memEvtStatus 0 = true)) ∧
    (∀ (s : State) (who a : Nat) (v : DWord),
        (exec (.fetchAndSet 4 a v) s = .next s ∧ exec (.fetchAndClear 4 a v) s = .next s) ∧
        (who ≠ 4 → s.ownsBank who (a / bankSize) = true → Memory.wf s.sram = true →
          (∃ t, exec (.fetchAndSet who a v) s = .next t ∧ t.rdata = Memory.read (a / 8 * 8) 8 s.sram ∧
            leNat (Memory.read (a / 8 * 8) 8 t.sram) = leNat (Memory.read (a / 8 * 8) 8 s.sram) ||| v.toNat ∧
            ∀ b, b < a / 8 * 8 ∨ a / 8 * 8 + 8 ≤ b → Memory.get b t.sram = Memory.get b s.sram) ∧
          (∃ t, exec (.fetchAndClear who a v) s = .next t ∧ t.rdata = Memory.read (a / 8 * 8) 8 s.sram ∧
            (∀ i, i < 64 → (leNat (Memory.read (a / 8 * 8) 8 t.sram)).testBit i =
              ((leNat (Memory.read (a / 8 * 8) 8 s.sram)).testBit i && !v.toNat.testBit i)) ∧
            ∀ b, b < a / 8 * 8 ∨ a / 8 * 8 + 8 ≤ b → Memory.get b t.sram = Memory.get b s.sram)))) ∧
  ((∀ (s : State) (off n k o : Nat) (bs : List (Option Byte)) (ecc : Ecc), s.ownsBank 4 (off / bankSize) = true →
        s.bit (.memBankAper (off / bankSize)) 0 = true → k = s.fld (.memBankAper (off / bankSize)) 24 16 →
        o = s.fld (.memBankAper (off / bankSize)) 45 32 * bankSize + off % bankSize →
        (1 ≤ s.sliceState k → s.sliceState k ≤ 3 → s.ddrReady = true →
          (s.inWindow k true o n = true → ∃ t, exec (.apertureAccess off (.read n) .clean) s = .next t ∧
            t.rdata = Memory.read (s.ddrAddr k o) n s.ddr ∧ OnlyRegs [] s { t with rdata := s.rdata, poisoned := s.poisoned }) ∧
          (s.inWindow k true o bs.length = true → ∃ t, exec (.apertureAccess off (.write bs) .clean) s = .next t ∧ t.sram = s.sram ∧
            t.ddr = writeEnabled (s.ddrAddr k o) bs s.ddr ∧
            ∀ a, a < s.ddrAddr k o ∨ s.ddrAddr k o + bs.length ≤ a → Memory.get a t.ddr = Memory.get a s.ddr)) ∧
        (s.sliceState k = 0 ∨ s.ddrReady = false →
          (∃ t, exec (.apertureAccess off (.read n) ecc) s = .next t ∧ t.rdata = zeros n ∧ t.ddr = s.ddr ∧ t.sram = s.sram) ∧
          exec (.apertureAccess off (.write bs) ecc) s = .next s)) ∧
    (∀ (s : State),
        (s.hidden .ddrFillCtrl = false → s.fld .ddrFillCtrl 5 4 ≠ 1 → ∃ t, exec .ddrFillGo s = .next t ∧ t.fld .ddrFillCtrl 5 4 = 1 ∧
          s.ddrLow ≤ t.ddrFill.1 ∧ (t.ddrFill.2 ≠ 0 → t.ddrFill.1 + t.ddrFill.2 ≤ s.ddrHigh) ∧ t.ddr = s.ddr ∧ t.jobs = s.jobs) ∧
        (s.fld .ddrFillCtrl 5 4 = 1 → exec .ddrFillGo s = .next s) ∧
        (s.fld .ddrFillCtrl 5 4 = 1 → s.bit .genState 4 = false → s.ddrReady = true → ∃ t, exec .ddrFillDone s = .next t ∧
          t.fld .ddrFillCtrl 5 4 = 2 ∧ t.bit .ddrEvtStatus 1 = true ∧ t.sram = s.sram ∧
          ∀ a, Memory.get a t.ddr = (if s.ddrFill.1 ≤ a ∧ a < s.ddrFill.1 + s.ddrFill.2 then 0 else Memory.get a s.ddr)) ∧
        (s.bit .genState 4 = true → exec .ddrFillDone s = .next s)) ∧
    (∀ (s : State) (ce : Nat) (ue : List Nat),
        (s.bit .ddrScrubCtrl 8 = true → s.bit .genState 4 = false → s.ddrReady = true → ∃ t, exec (.patrolScrubPass ce ue) s = .next t ∧
          t.fld .ddrCeCount 31 0 = min (2 ^ 32 - 1) (s.fld .ddrCeCount 31 0 + ce) ∧
          t.fld .ddrUeCount 31 0 = min (2 ^ 32 - 1) (s.fld .ddrUeCount 31 0 + ue.length) ∧ t.rd .ddrScrubLast = s.rd .genTime ∧
          t.bit .ddrEvtStatus 2 = true ∧ t.ddr = s.ddr ∧ t.jobs = s.jobs) ∧
        (s.bit .ddrScrubCtrl 8 = false → exec (.patrolScrubPass ce ue) s = .next s)) ∧
    (∀ a b : Nat, (ddrPlace a = ddrPlace b → a = b) ∧ (ddrPlace a).channel < 8 ∧ (ddrPlace a).byte < 960 ∧ 960 ≤ (ddrPlace a).code ∧
        (ddrPlace a).code + 4 ≤ 1024 ∧ ((ddrPlace a).group = (ddrPlace b).group → (ddrPlace a).code = (ddrPlace b).code → a / 64 = b / 64)))

/-! ### Resets, starts, power and the host's paths -/

/-- Each system-reset trigger holds the domains in reset with its cause: a warm one keeps keys, configuration and GEN_TIME, a cold one
loses keys and LPDDR5X, and both keep OTP, BBRAM and GEN_BOOT_SEQ; CLKREQ_N is driven low, and the LPDDR5X pins hold the memory in
self-refresh in a warm reset alone. A crossing that does not quiet sets its bit, and makes a warm reset
in force cold. A block reset answers BUSY or REFUSED, or takes its idle unit out and gives it back after its BIST.
Completes: ddrMachineCheck, crossingQuietTimeout, rstBlock, blockResetBistDone, resetNInput, rstCtrlWarm, rstCtrlCold, scWatchdogExpiry,
scFatal. -/
def Obligations.ResetTriggers : Prop :=
  (∀ (c : Instr) (cause : Nat) (s : State), s.power.io = true → s.power.backup = false → s.boot.held = false →
      (c = .rstCtrlWarm ∧ cause = 8 ∧ s.rstActs = true ∨ c = .scWatchdogExpiry ∧ cause = 3 ∧ s.firmwareRuns = true ∨
        c = .scFatal ∧ cause = 4 ∧ s.boot.starting = false ∨
        (∃ ns, c = .resetNInput ns ∧ 500 ≤ ns) ∧ cause = 2 ∧ s.pins.resetLow = false ∧ s.pins.resetLeft = 0 ∧ s.power.por = false →
        ∃ t, exec c s = .next t ∧ t.boot.held = true ∧ t.boot.cold = false ∧ t.fld .rstCause 3 0 = cause ∧ t.fld .rstCause 5 4 = 1 ∧
          t.fld .rstWarmCount 31 0 = min (2 ^ 32 - 1) (s.fld .rstWarmCount 31 0 + 1) ∧ t.jobs = [] ∧ t.rig = none ∧
          ((∀ j ∈ s.jobs, j.phase ≠ .sealed) → (s.transition = none ∨ ∃ m, s.transition = some m ∧ m.wiped = true) → t.slots = s.slots) ∧
          t.otp = s.otp ∧ t.bbram = s.bbram ∧ t.rd .genTime = s.rd .genTime ∧ t.rd .genBootSeq = s.rd .genBootSeq ∧
          t.level .clkreqN = .low ∧ t.level .ddr = .selfRefresh ∧ t.level .ddrResetN = .high ∧
          (cause ≠ 2 → t.pins.resetLow = true) ∧ ∀ n, t.rd (.slmSlicePasid n) = s.rd (.slmSlicePasid n)) ∧
      (c = .rstCtrlCold ∧ cause = 9 ∧ s.rstActs = true ∨ (∃ x, c = .ddrMachineCheck x) ∧ cause = 11 →
        ∃ t, exec c s = .next t ∧ t.boot.held = true ∧ t.boot.cold = true ∧ t.fld .rstCause 3 0 = cause ∧ t.fld .rstCause 5 4 = 0 ∧
          t.jobs = [] ∧ t.rig = none ∧ t.slots = [] ∧ t.memo = [] ∧ t.ddr = [] ∧ t.boot.keys = none ∧ t.otp = s.otp ∧ t.bbram = s.bbram ∧
          t.rd .genBootSeq = s.rd .genBootSeq ∧ t.rd .genTime = 0 ∧ t.pins.resetLow = true ∧
          t.level .clkreqN = .low ∧ t.level .ddr = .highZ ∧ t.level .ddrResetN = .low)) ∧
  (∀ (s : State) (ns : Nat), (s.rstActs = false → exec .rstCtrlWarm s = .next s ∧ exec .rstCtrlCold s = .next s) ∧
      (s.firmwareRuns = false → exec .scWatchdogExpiry s = .next s) ∧ (ns < 500 → exec (.resetNInput ns) s = .next s)) ∧
  (∀ (s : State) (dm : Nat) (u : ResetUnit), dm < 16 →
      (s.boot.held = true → s.boot.cold = false → ∃ t, exec (.crossingQuietTimeout dm u) s = .next t ∧ t.boot.held = true ∧
        t.boot.cold = true ∧ t.slots = [] ∧ t.ddr = [] ∧ t.fld .rstCause 3 0 = 11 ∧ t.otp = s.otp) ∧
      (s.boot.held = true → s.boot.cold = true → exec (.crossingQuietTimeout dm u) s = .next s) ∧
      (s.boot.held = false → 4 ≤ dm → dm ≤ 13 → ∃ t, exec (.crossingQuietTimeout dm u) s = .next t ∧ t.bit .genXingTmo dm = true ∧
        t.boot.held = false ∧ t.otp = s.otp)) ∧
  (∀ (s : State) (kind idx : Nat),
      (s.rstActs = false ∨ kind = 0 ∨ 6 ≤ kind → exec (.rstBlock kind idx) s = .next s) ∧
      (s.rstActs = true → 1 ≤ kind → kind ≤ 5 →
        (s.boot.block.isSome = true ∨ s.blockTaken kind idx = true ∨ s.blockAllowed kind idx = true ∧ s.blockIdle kind idx = false →
          ∃ t, exec (.rstBlock kind idx) s = .next t ∧ t.fld .rstBlockStat 1 0 = 1 ∧ OnlyRegs [.rstBlockStat] s t) ∧
        (s.boot.block = none → s.blockTaken kind idx = false → s.blockAllowed kind idx = false →
          ∃ t, exec (.rstBlock kind idx) s = .next t ∧ t.fld .rstBlockStat 1 0 = 2 ∧ OnlyRegs [.rstBlockStat] s t) ∧
        (s.boot.block = none → s.blockTaken kind idx = false → s.blockAllowed kind idx = true → s.blockIdle kind idx = true →
          ∃ t, exec (.rstBlock kind idx) s = .next t ∧ t.fld .rstBlockStat 1 0 = 0 ∧ t.boot.block = some (kind, idx) ∧ t.blockPhase = 1 ∧ t.jobs = s.jobs ∧
            (kind = 1 → t.tileState idx = 3 ∧ (t.tile idx).bist = some .block) ∧ (kind = 4 → (t.hcore idx).state = .offline) ∧
            (kind = 5 → t.bneState idx = 2)))) ∧
  (∀ (s : State) (ok : Bool), (s.boot.block = none → exec (.blockResetBistDone ok) s = .next s) ∧
      (∀ (kind idx : Nat), s.boot.block = some (kind, idx) → ∃ t, exec (.blockResetBistDone ok) s = .next t ∧ t.boot.block = none ∧
        t.blockPhase = 0 ∧ t.fld .rstBlockStat 9 8 = (if ok then 1 else 2) ∧ (kind = 4 → ok = true → (t.hcore idx).state = .inService ∧ t.jobs = s.jobs) ∧
        (kind = 5 → ok = true → t.bneState idx = 1 ∧ t.jobs = s.jobs)))

/-- Starts: the release of a reset begins a start that goes where the life cycle and BOOT_ATTEMPTS say, a warm reset that cannot keep
LPDDR5X becomes cold, training and initialisation fit the memory and zero it, a complete start enters SERVICE with GEN_BOOT_SEQ one
higher, or HALTED if that is owed, and a failed one latches its case and takes the reset of its cause.
Completes: resetRelease, ddrTrainingDone, startComplete, startFailure, ddrInitDone, startTimeout, bootAttemptsClear. -/
def Obligations.Starts : Prop :=
  (∀ (s : State) (ok : Bool), s.boot.held = true → s.power.io = true → s.power.backup = false → s.power.por = false → s.railsOk = true →
      (s.tamper.holdStart ≠ [] ∨ s.tamper.dip.isSome = true → ∃ t, exec (.resetRelease ok) s = .next t ∧ t.boot.held = false ∧
        t.boot.starting = true ∧ t.boot.romHold = true) ∧
      (s.tamper.holdStart = [] → s.tamper.dip = none → ∃ t, exec (.resetRelease ok) s = .next t ∧ t.boot.held = false ∧ t.boot.romHold = false ∧ t.sram = [] ∧
        (s.boot.cold = false → ok = true → s.bit .ddrStat 1 = true → t.slots = s.slots ∧ t.boot.cold = false) ∧
        (s.boot.cold = false → ok = false ∨ s.bit .ddrStat 1 = false → t.slots = [] ∧ t.boot.cold = true ∧ t.fld .rstCause 3 0 = 11) ∧
        (s.otp.decode = (0, none) → t.devState = 5 ∧ t.rd .dbgRights = 0x1FF) ∧ (s.otp.decode = (5, none) → t.devState = 6) ∧
        (∀ n, s.otp.decode = (n, none) → 1 ≤ n → n ≤ 4 → s.bbram.valid = true → s.bbram.lock = false → 4 ≤ s.fld .rstBoot 2 0 →
          t.devState = 3 ∧ t.bit .rstBoot 3 = true))) ∧
  (∀ (s : State) (ok : Bool), s.boot.held = false ∨ s.railsOk = false ∨ s.power.por = true →
      exec (.resetRelease ok) s = .next s) ∧
  (∀ (s : State) (mask gib mts : Nat), s.coldStart = true → s.boot.trained = false → gib ∈ [16, 32, 48, 64] →
      (mask % 256 = 255 → (s.scDraw 128).isSome = true → ∃ t, exec (.ddrTrainingDone mask gib mts) s = .next t ∧ t.boot.trained = true ∧
        t.boot.keys.isSome = true ∧ t.bit .ddrStat 0 = true ∧ t.bit .ddrStat 1 = true ∧ t.bit .ddrStat 2 = false ∧
        t.fld .genCap 32 26 = gib ∧ (t.rd .ddrUsable).toNat = gib * 2 ^ 30 / 16 * 15 ∧ t.rd .ddrSliceLimit = t.rd .ddrUsable) ∧
      (mask % 256 ≠ 255 → ∃ t, exec (.ddrTrainingDone mask gib mts) s = .next t ∧ t.fld .ddrStat 15 8 = mask % 256 ∧
        t.pins.resetLow = false ∧ OnlyRegs [.ddrStat] s { t with pins := s.pins })) ∧
  (∀ (s : State), s.coldStart = true → s.boot.trained = true → s.bit .ddrStat 2 = false →
      ∃ t, exec .ddrInitDone s = .next t ∧ t.ddr = [] ∧ t.bit .ddrStat 2 = true ∧ t.slots = s.slots ∧ t.otp = s.otp) ∧
  (∀ (s : State) (us : Nat), (s.startReady = false → exec (.startComplete us) s = .next s) ∧
      (s.startReady = true → ∃ t, exec (.startComplete us) s = .next t ∧
        t.devState = (if s.tamper.haltOwed.isSome then 2 else 1) ∧ t.fld .genBootSeq 31 0 = (s.fld .genBootSeq 31 0 + 1) % 2 ^ 32 ∧
        t.fld .rstStartUs 31 0 = us % 2 ^ 32 ∧ t.rd .genXingQuiet = 0 ∧ t.pins.holdReleased = true ∧ t.boot.starting = false ∧
        t.slots = s.slots ∧ s.otp.NotLower t.otp ∧ t.bbram.epoch.isSome = true)) ∧
  (∀ (s : State) (why : StartFault), s.power.io = true → s.power.backup = false → s.boot.held = false → s.boot.starting = true →
      s.canFail why = true → ∃ t, exec (.startFailure why) s = .next t ∧ t.boot.held = true ∧ t.fld .rstCause 3 0 = 10 ∧
        t.fld .rstBoot 11 8 = StartFault.code why ∧ t.boot.cold = decide (why = .ddrTrain) ∧ t.otp = s.otp ∧ t.bbram = s.bbram) ∧
  (∀ (s : State), exec .startTimeout s = exec (.startFailure .timeout) s ∧ (s.boot.starting = false → exec .startTimeout s = .next s) ∧
      (s.power.io = true → s.power.backup = false → s.boot.held = false → s.boot.starting = true → s.tamper.holdStart = [] →
        ∃ t, exec .startTimeout s = .next t ∧ t.boot.held = true ∧ t.fld .rstCause 3 0 = 10 ∧ t.fld .rstBoot 11 8 = 1 ∧ t.otp = s.otp) ∧
      (s.devState ∈ [1, 2, 4] → ∃ t, exec .bootAttemptsClear s = .next t ∧ t.fld .rstBoot 2 0 = 0 ∧ OnlyRegs [.rstBoot] s t))

/-- Supplies and the link: main power, the power-on reset, the cell and the crystal; D3hot reaches STANDBY with every island gated and D0
wakes it; a link reset ends work, debug rights and the link's settings and LINK_UP resumes with GEN_BOOT_SEQ one higher; configuration
writes mask and unmask, and what they unmask is sent.
Completes: pcieConfigWrite, linkReset, d0Wake, railRangeChange, aspmL12Change, linkUp, d3hotEntry, mainPowerOn, porRelease, mainPowerLoss,
vbatApplied, aonSupplyLoss, crystalStart, crystalStop. -/
def Obligations.PowerAndLink : Prop :=
  (∀ (s : State),
      (s.power.io = false ∨ s.power.backup = true → ∃ t, exec .mainPowerOn s = .next t ∧ t.power.io = true ∧ t.power.backup = false ∧
        t.power.por = true ∧ t.boot.held = true ∧ t.boot.cold = true ∧ t.pins.resetLow = true ∧ t.pins.holdReleased = false ∧
        t.otp = s.otp ∧ t.bbram = s.bbram) ∧
      (s.power.io = true → s.power.backup = false → s.power.por = true → s.railsOk = true → s.power.crystal = true → s.power.sysclk = true →
        ∃ t, exec .porRelease s = .next t ∧ t.power = { s.power with por := false } ∧ t.pins.resetLow = true ∧
          t.fld .rstCause 3 0 = (if s.bbram.valid then 0 else 1) ∧ (∀ r, r ≠ .rstCause → (∀ k, r ≠ .tmpSrcCfg k) → t.rd r = s.rd r) ∧
          t.boot = s.boot ∧ t.jobs = s.jobs ∧ t.slots = s.slots ∧ t.otp = s.otp ∧ t.bbram = s.bbram ∧ t.out = s.out) ∧
      (s.railsOk = false ∨ s.power.crystal = false ∨ s.power.sysclk = false → exec .porRelease s = .next s) ∧
      (s.power.io = true → s.power.backup = false → ∃ t, exec .mainPowerLoss s = .next t ∧ t.power.io = false ∧
        t.power.backup = s.power.vbat ∧ t.boot.held = true ∧ t.jobs = [] ∧ t.slots = [] ∧ t.ddr = [] ∧ t.otp = s.otp ∧ t.flash = s.flash ∧
        (s.power.vbat = true → (∀ k, k < 8 → s.bit .tmpActive k = false) → t.bbram = s.bbram) ∧
        (s.power.vbat = false → t.bbram.valid = false ∧ t.cells = [])) ∧
      (∃ t, exec .vbatApplied s = .next t ∧ t.power.vbat = true ∧ t.power.aon = true ∧ t.bit .pwrRails 5 = true ∧
        OnlyRegs [.pwrRails] s { t with power := s.power }) ∧
      (s.power.io = true → s.power.backup = false → exec .aonSupplyLoss s = .next s) ∧
      (s.power.io = false ∨ s.power.backup = true → ∃ t, exec .aonSupplyLoss s = .next t ∧ t.power.aon = false ∧ t.bbram.valid = false ∧
        t.cells = [] ∧ t.otp = s.otp) ∧
      exec .crystalStart s = .next { s with power := { s.power with crystal := s.power.aon } } ∧
      exec .crystalStop s = .next { s with power := { s.power with crystal := false } }) ∧
  (∀ (s : State) (r : Rail) (ok : Bool), ∃ t, exec (.railRangeChange r ok) s = .next t ∧ t.bit .pwrRails (railBit r) = ok ∧
      (∀ i, i ≠ railBit r → t.bit .pwrRails i = s.bit .pwrRails i) ∧ OnlyRegs [.pwrRails] s { t with power := s.power }) ∧
  (∀ (s : State) (us : Nat), s.pcie.dlActive = true →
      (s.pcie.dstate ≠ 3 → s.transition = none → s.devState = 1 → ∃ t, exec .d3hotEntry s = .next t ∧ t.devState = 4 ∧ t.pcie.dstate = 3 ∧
        (∀ n, n < 8 → t.fld (.fabIslStat n) 6 4 = 3) ∧ t.slots = s.slots ∧
        t.fld .pwrStbyCount 31 0 = min (2 ^ 32 - 1) (s.fld .pwrStbyCount 31 0 + 1)) ∧
      (s.pcie.dstate ≠ 3 → s.devState ≠ 1 → s.devState ≠ 2 → exec .d3hotEntry s = .next { s with pcie := { s.pcie with dstate := 3 } }) ∧
      (s.pcie.dstate = 3 → s.devState = 4 → s.tamper.haltOwed = none → ∃ t, exec (.d0Wake us) s = .next t ∧ t.devState = 1 ∧
        t.pcie.dstate = 0 ∧ t.fld .pwrStbyExitUs 15 0 = us % 2 ^ 16 ∧ t.slots = s.slots ∧
        t.fld .genBootSeq 31 0 = (s.fld .genBootSeq 31 0 + (if s.boot.workEnded then 1 else 0)) % 2 ^ 32) ∧
      (s.pcie.dstate = 3 → s.devState ≠ 4 → exec (.d0Wake us) s = .next { s with pcie := { s.pcie with dstate := 0 } })) ∧
  (∀ (s : State) (k : LinkEvent), s.boot.held = false → s.boot.starting = false → s.pcie.dlActive = true →
      ∃ t, exec (.linkReset k) s = .next t ∧ t.pcie.dlActive = false ∧ t.pcie.busMaster = false ∧ t.msix = [] ∧ t.msixPend = [] ∧
        t.fld .rstLink 1 0 = (match k with | .perst => 1 | .hotReset => 2 | .linkDown => 3) ∧ t.slots = s.slots ∧ t.otp = s.otp ∧
        (s.devState ∈ [1, 2, 4] → t.jobs = [] ∧ t.devState = (if s.devState = 2 then 2 else 0) ∧ t.boot.linkDown = true ∧
          t.dbg = ⟨none, 0, []⟩ ∧ t.rd .dbgRights = 0 ∧ ∀ n, s.sliceState n = 1 ∨ s.sliceState n = 2 → t.sliceState n = 3) ∧
        (s.devState ∉ [1, 2, 4] → t.jobs = s.jobs ∧ t.devState = s.devState)) ∧
  (∀ (s : State), s.pcie.dlActive = false → s.boot.held = false → s.power.io = true → s.power.backup = false →
      (s.boot.linkDown = false → exec .linkUp s = .next { s with pcie := { s.pcie with dlActive := true, perst := false } }) ∧
      (s.boot.linkDown = true → s.devState = 0 → s.tamper.haltOwed = none → ∃ t, exec .linkUp s = .next t ∧ t.pcie.dlActive = true ∧
        t.boot.linkDown = false ∧ t.devState = 1 ∧ t.fld .genBootSeq 31 0 = (s.fld .genBootSeq 31 0 + 1) % 2 ^ 32 ∧ t.slots = s.slots)) ∧
  (∀ (s : State) (on : Bool), ∃ t, exec (.aspmL12Change on) s = .next t ∧ t.bit .pwrState 18 = (on && s.pcie.dlActive) ∧
      OnlyRegs [.pwrState] s t) ∧
  (∀ (s : State) (v : Nat) (on : Bool) (a : DWord) (d : BitVec 32), s.pcie.dlActive = true →
      (∃ t, exec (.pcieConfigWrite (.busMaster on)) s = .next t ∧ t.pcie.busMaster = on ∧ t.regs = s.regs ∧ t.jobs = s.jobs) ∧
      (∃ t, exec (.pcieConfigWrite (.pasidEnable on)) s = .next t ∧ t.pcie.pasidEnable = on ∧ t.regs = s.regs ∧ t.out = s.out) ∧
      (∃ t, exec (.pcieConfigWrite (.functionMask on)) s = .next t ∧ t.pcie.functionMask = on ∧ t.regs = s.regs ∧ t.jobs = s.jobs) ∧
      (∃ t, exec (.pcieConfigWrite (.vectorEntry v a d)) s = .next t ∧ (t.vector v).addr = a ∧ (t.vector v).data = d ∧
        (t.vector v).mask = (s.vector v).mask ∧ t.regs = s.regs ∧ ∀ w, w ≠ v → t.vector w = s.vector w) ∧
      (∃ t, exec (.pcieConfigWrite (.vectorMask v on)) s = .next t ∧ (t.vector v).mask = on ∧ t.regs = s.regs ∧ t.jobs = s.jobs ∧
        (on = false → s.pcie.functionMask = false → s.pcie.busMaster = true → v ∈ s.msixPend →
          .msix v (s.vector v).addr (s.vector v).data ∈ t.out ∧ v ∉ t.msixPend)) ∧
      (∃ t, exec (.pcieConfigWrite (.maxPayload v)) s = .next t ∧ t.pcie = { s.pcie with maxPayload := 128 * 2 ^ min 2 v } ∧ t.regs = s.regs) ∧
      (∃ t, exec (.pcieConfigWrite (.maxRead v)) s = .next t ∧ t.pcie = { s.pcie with maxRead := 128 * 2 ^ min 5 v } ∧ t.regs = s.regs) ∧
      (∃ t, exec (.pcieConfigWrite (.relaxedOrdering on)) s = .next t ∧ t.pcie = { s.pcie with relaxed := on } ∧ t.regs = s.regs)) ∧
  (∀ (s : State) (w : ConfigWrite), s.pcie.dlActive = false → exec (.pcieConfigWrite w) s = .next s)

/-- Host accesses by offset: a write of the register's width that reaches it gives each field what its access code says, a read answers
the register and clears its RC fields, an offset without a register ignores writes and reads zero; measured values are shown with their
extremes; the I3C common commands and the JTAG instructions answer as R477, R396 and R478 give.
Completes: registerWrite, rcRead, jtagAccess, i3cCommonCommand, monitorSample, pwrMwUpdate. -/
def Obligations.HostAccess : Prop :=
  (∀ (s : State) (bus : Bus) (off width : Nat) (v : DWord), bus ≠ .i3c →
      (∀ r, s.target bus off = .reg r → fits r off width = true → s.hidden r = false →
        exec (.registerWrite bus off width v) s = .next (s.writeReg r (BitVec.ofNat 64 (v.toNat % 2 ^ width)))) ∧
      (∀ r, s.target bus off = .reg r → fits r off width = false ∨ s.hidden r = true → exec (.registerWrite bus off width v) s = .next s) ∧
      (s.target bus off = .nothing → exec (.registerWrite bus off width v) s = .next s)) ∧
  (∀ (s : State) (r : Reg) (v : DWord), OnlyRegs [r] s (s.writeFields r v) ∧
      ∀ f ∈ r.fields, (s.writeFields r v).fld r f.hi f.lo = (match f.acc with
        | .rw => getF v f.hi f.lo
        | .w1c => s.fld r f.hi f.lo &&& (s.fld r f.hi f.lo ^^^ getF v f.hi f.lo)
        | .w1s => s.fld r f.hi f.lo ||| getF v f.hi f.lo
        | _ => s.fld r f.hi f.lo)) ∧
  (∀ (s : State) (bus : Bus) (off width ev : Nat), bus ≠ .i3c →
      (∀ r, s.target bus off = .reg r → fits r off width = true → s.hidden r = false → r ≠ .tmpTime →
        s.shadowBad r = false → (∀ a, s.slotBad a = false) →
        ∃ t, exec (.rcRead bus off width ev) s = .next t ∧ t.rdata = wordBytes width (s.readReg r) ∧
          (∀ f ∈ r.fields, t.fld r f.hi f.lo = (if f.acc = .rc then min ev (2 ^ (f.hi + 1 - f.lo) - 1) else s.fld r f.hi f.lo)) ∧
          OnlyRegs [r] s { t with rdata := s.rdata, poisoned := s.poisoned }) ∧
      (s.target bus off = .nothing → ∃ t, exec (.rcRead bus off width ev) s = .next t ∧ t.rdata = zeros (width / 8) ∧ t.regs = s.regs)) ∧
  (∀ (s : State) (mw mv khz k n : Nat) (bits : List Bool),
      (s.monitored = true →
        (∃ t, exec (.pwrMwUpdate mw) s = .next t ∧ t.fld .pwrMw 16 0 = min mw 0x1FFFF ∧
          t.fld .pwrMwPeak 16 0 = max (s.fld .pwrMwPeak 16 0) (min mw 0x1FFFF) ∧ OnlyRegs [.pwrMw, .pwrMwPeak] s t) ∧
        (∃ t, exec (.monitorSample (.clk khz)) s = .next t ∧ t.fld .tmpClk 15 0 = khz % 2 ^ 16 ∧
          (s.power.io = true → t.power.sysclk = (decide (24000 ≤ khz) && decide (khz ≤ 26000))) ∧ OnlyRegs [.tmpClk] s { t with power := s.power }) ∧
        (∃ t, exec (.monitorSample (.mag n)) s = .next t ∧ t.fld .tmpMag 9 0 = min n 1023 ∧
          t.fld .tmpMag 25 16 = max (s.fld .tmpMag 25 16) (min n 1023) ∧ OnlyRegs [.tmpMag] s t) ∧
        (∃ t, exec (.monitorSample (.vdd mv)) s = .next t ∧ t.fld .tmpVdd 25 16 = mv % 1024 ∧ t.jobs = s.jobs ∧ ∀ r, r ≠ .tmpVdd → t.rd r = s.rd r) ∧
        (k < 4 → s.srcState ≠ 0 → s.srcState ≠ 4 →
          (∀ u, s.takeSamples (fun _ => k) bits = (none, u) → exec (.monitorSample (.cell k bits)) s = .next u ∧
            u.rd (.rngCellSamples k) = s.rd (.rngCellSamples k) + BitVec.ofNat 64 bits.length ∧ u.jobs = s.jobs ∧ u.rng.pool = s.rng.pool) ∧
          (∀ u cell test, s.takeSamples (fun _ => k) bits = (some (cell, test), u) → exec (.monitorSample (.cell k bits)) s =
            exec (.healthTestFailure k (if s.srcState = 2 then test else 2)) u)) ∧
        (s.srcState = 0 ∨ s.srcState = 4 → exec (.monitorSample (.cell k bits)) s = .next s)) ∧
      (s.monitored = false → exec (.pwrMwUpdate mw) s = .next s ∧ exec (.monitorSample (.mag n)) s = .next s)) ∧
  (∀ (s : State) (a : Nat), (s.i3cAnswers = false → ∀ cc, exec (.i3cCommonCommand cc) s = .next s) ∧
      (s.i3cAnswers = true →
        (s.pins.dynAddr = none → ∃ t, exec (.i3cCommonCommand (.entdaa a)) s = .next t ∧ exec (.i3cCommonCommand (.setdasa a)) s = .next t ∧
          t.pins.dynAddr = some a ∧ t.regs = s.regs) ∧
        (s.pins.dynAddr ≠ none → ∃ t, exec (.i3cCommonCommand (.setnewda a)) s = .next t ∧ t.pins.dynAddr = some a ∧ t.regs = s.regs) ∧
        (∃ t, exec (.i3cCommonCommand .rstdaa) s = .next t ∧ t.pins.dynAddr = none ∧ t.regs = s.regs) ∧
        (∃ t, exec (.i3cCommonCommand .enec) s = .next t ∧ t.pins.ibi = true ∧ t.regs = s.regs) ∧
        (∃ t, exec (.i3cCommonCommand .disec) s = .next t ∧ t.pins.ibi = false ∧ t.regs = s.regs) ∧
        (∃ t, exec (.i3cCommonCommand .getpid) s = .next t ∧ t.rdata = s.i3cPid ∧ t.regs = s.regs))) ∧
  (∀ (s : State) (ps : Bytes) (b : Bool) (k a n : Nat), s.power.io = true → s.power.backup = false → s.boot.held = false →
      s.shadowBad .dbgRights = false →
      (∃ t, exec (.jtagAccess .idcode) s = .next t ∧ t.rdata = leBytes 4 s.idcode ∧ t.regs = s.regs) ∧
      (∃ t, exec (.jtagAccess (.bypass b)) s = .next t ∧ t.rdata = [if s.pins.bypass then 1 else 0] ∧ t.pins.bypass = b ∧ t.regs = s.regs) ∧
      (∃ t, exec (.jtagAccess (.sample ps)) s = .next t ∧ t.rdata = ps ∧ t.regs = s.regs) ∧
      (s.right 2 = true → ∃ t, exec (.jtagAccess (.extest ps)) s = .next t ∧ t.pins.scan = ps ∧ t.regs = s.regs) ∧
      (s.right 2 = false → exec (.jtagAccess (.extest ps)) s = .next s ∧ exec (.jtagAccess (.intest ps)) s = .next s) ∧
      (s.right 7 = true → a + n ≤ 16 * bankSize → ∃ t, exec (.jtagAccess (.memRead false a n)) s = .next t ∧
        t.rdata = Memory.read a n s.sram ∧ t.regs = s.regs ∧ t.sram = s.sram) ∧
      (s.right 7 = false → exec (.jtagAccess (.memRead false a n)) s = .next s ∧ exec (.jtagAccess (.memWrite false a ps)) s = .next s) ∧
      (∀ u, s.right k = true →
        (k = 4 ∨ k = 5 → ∃ t, exec (.jtagAccess (.coreDebug k (.halt u))) s = .next t ∧ (k, u) ∈ t.dbg.halted ∧ t.regs = s.regs ∧ t.jobs = s.jobs) ∧
        (k = 4 ∨ k = 5 → ∃ t, exec (.jtagAccess (.coreDebug k (.resume u))) s = .next t ∧ (k, u) ∉ t.dbg.halted ∧ t.regs = s.regs ∧ t.jobs = s.jobs) ∧
        (k = 6 ∨ k = 8 → exec (.jtagAccess (.coreDebug k (.halt u))) s = .refused (.unstatedUnit "debug port"))) ∧
      (∀ op, s.right k = false → exec (.jtagAccess (.coreDebug k op)) s = .next s))

/-- The register map: the register at an offset of BAR0, of a slice page or of a mailbox channel is the one whose own address that is, so
no two registers share one; and the fields of every register lie within its width and apart from each other. -/
def Obligations.RegisterMap : Prop :=
  (∀ (off : Nat) (r : Reg), Reg.ofBar0 off = some r → r.space = .bar0 ∧ r.offset = off ∨ r.space = .mbx 0 ∧ r.offset + 0x10000 = off) ∧
  (∀ (off : Nat) (r : Reg), Reg.ofBar2 off = some r → r.space = .bar2 ∧ r.offset = off) ∧
  (∀ (ch off : Nat) (r : Reg), Reg.ofMbx ch off = some r → r.space = .mbx ch ∧ r.offset = off) ∧
  (∀ (c off : Nat) (r : Reg), Reg.ofRde c off = some r → off < 0x400 → r.space = .bar0 ∧ r.offset = 0xC40000 + 0x400 * c + off) ∧
  (∀ r : Reg, (∀ f ∈ r.fields, f.lo ≤ f.hi ∧ f.hi < r.width) ∧ r.fields.Pairwise (fun f g => f.hi < g.lo ∨ g.hi < f.lo))

/-! ### Invariants -/

/-- Every step keeps what `State.Sound` says: memories in canonical form and counter cells with NEXT ≤ LIMIT and LIMIT − NEXT ≤ 512. -/
def Obligations.StepKeepsSound : Prop := ∀ s t : State, s.Sound → step s = .next t → t.Sound

/-- No step lowers a minimum counter of OTP, and a command's effect leaves the queue alone: a step takes the front command only. In
every state every command but a debug access through JTAG answers a next state, and so does every debug access that does not halt or
step the SC or a scan chain. -/
def Obligations.StepNeverLowersOtpMinimums : Prop :=
  (∀ s t : State, step s = .next t → s.otp.NotLower t.otp) ∧
  (∀ (c : Instr) (s : State), (∀ k op, c = .jtagAccess (.coreDebug k op) → k ≠ 6 ∧ k ≠ 8) → ∃ t, exec c s = .next t) ∧
  (∀ (c : Instr) (s t : State), exec c s = .next t → t.pending = s.pending)

/-- The state after reset has memories in canonical form and sound counter cells. -/
def Obligations.ResetIsSound : Prop := State.reset.Sound
end

