-- ==== Sys2Proof/Laws/State.lean ====
section
/-! SUPPORT. The small lemmas of the state: tables read after a write, register fields, and what each primitive update leaves
alone, one lemma per field. -/

namespace Sys2Proof.Machine

/-! ### Tables -/

theorem tget_filter_ne {α β : Type} [DecidableEq α] (d : β) (k k' : α) (l : List (α × β)) (h : k' ≠ k) :
    tget d k (l.filter (fun e => e.1 ≠ k')) = tget d k l := by
  induction l with
  | nil => rfl
  | cons e l ih =>
    obtain ⟨a, b⟩ := e
    by_cases h1 : a = k'
    · have h2 : a ≠ k := fun h3 => h (h1.symm.trans h3)
      simpa [List.filter, h1, tget, h] using ih
    · by_cases h2 : a = k <;> simp_all [List.filter, tget]

/-- A table read after a write: the value written at its key, the old value elsewhere. -/
@[simp] theorem tget_tset {α β : Type} [DecidableEq α] (d v : β) (k k' : α) (l : List (α × β)) :
    tget d k (tset k' v l) = if k' = k then v else tget d k l := by
  by_cases h : k' = k
  · simp [tset, tget, h]
  · simp only [tset, tget, h, if_false]
    exact tget_filter_ne d k k' l h

/-! ### Registers -/

/-- A register read after a change. -/
@[simp] theorem State.rd_store (s : State) (r r' : Reg) (f : DWord → DWord) :
    (s.store r f).rd r' = if r = r' then f (s.rd r) else s.rd r' := by
  by_cases h : r = r'
  · subst h; simp [State.rd, State.store]
  · simp [State.rd, State.store, h]

/-- A register read after a write. -/
@[simp] theorem State.rd_wr (s : State) (r r' : Reg) (v : DWord) : (s.wr r v).rd r' = if r = r' then v else s.rd r' :=
  s.rd_store r r' (fun _ => v)

theorem getF_lt (v : DWord) (hi lo : Nat) : getF v hi lo < 2 ^ (hi + 1 - lo) := Nat.mod_lt _ (Nat.two_pow_pos _)

/-- Every bit of a register after one of its fields is written. -/
theorem setF_testBit (v : DWord) (hi lo x i : Nat) (h : lo ≤ hi) (h64 : hi < 64) :
    (setF v hi lo x).toNat.testBit i = if lo ≤ i ∧ i ≤ hi then x.testBit (i - lo) else v.toNat.testBit i := by
  obtain ⟨w, hw⟩ : ∃ w, hi + 1 - lo = w := ⟨_, rfl⟩
  have hs : hi + 1 = lo + w := by omega
  have hv : v.toNat = v.toNat % 2 ^ lo + 2 ^ lo * (getF v hi lo + 2 ^ w * (v.toNat / 2 ^ (lo + w))) := by
    simp only [getF, hw]
    rw [pow_add, ← Nat.div_div_eq_div_mul, Nat.mod_add_div, Nat.mod_add_div]
  have hn : v.toNat - getF v hi lo * 2 ^ lo + x % 2 ^ w * 2 ^ lo
      = v.toNat % 2 ^ lo + 2 ^ lo * (x % 2 ^ w + 2 ^ w * (v.toNat / 2 ^ (lo + w))) := by
    have : v.toNat % 2 ^ lo + 2 ^ lo * (getF v hi lo + 2 ^ w * (v.toNat / 2 ^ (lo + w))) - getF v hi lo * 2 ^ lo
        = v.toNat % 2 ^ lo + 2 ^ lo * (2 ^ w * (v.toNat / 2 ^ (lo + w))) := by
      rw [mul_add, mul_comm (getF v hi lo)]; omega
    conv_lhs => rw [hv]
    have h2 : (v.toNat % 2 ^ lo + 2 ^ lo * (getF v hi lo + 2 ^ w * (v.toNat / 2 ^ (lo + w)))) / 2 ^ (lo + w) = v.toNat / 2 ^ (lo + w) := by
      rw [← hv]
    rw [this]; ring
  have hb : v.toNat / 2 ^ (lo + w) < 2 ^ (64 - (lo + w)) := by
    apply Nat.div_lt_of_lt_mul
    rw [← pow_add]
    have : lo + w + (64 - (lo + w)) = 64 := by omega
    rw [this]; exact v.isLt
  have hx : x % 2 ^ w < 2 ^ w := Nat.mod_lt _ (Nat.two_pow_pos _)
  have ha : v.toNat % 2 ^ lo < 2 ^ lo := Nat.mod_lt _ (Nat.two_pow_pos _)
  have hlt : v.toNat % 2 ^ lo + 2 ^ lo * (x % 2 ^ w + 2 ^ w * (v.toNat / 2 ^ (lo + w))) < 2 ^ 64 := by
    have h1 : x % 2 ^ w + 2 ^ w * (v.toNat / 2 ^ (lo + w)) < 2 ^ (w + (64 - (lo + w))) := by
      calc x % 2 ^ w + 2 ^ w * (v.toNat / 2 ^ (lo + w)) < 2 ^ w + 2 ^ w * (v.toNat / 2 ^ (lo + w)) := by omega
        _ = 2 ^ w * (v.toNat / 2 ^ (lo + w) + 1) := by ring
        _ ≤ 2 ^ w * 2 ^ (64 - (lo + w)) := Nat.mul_le_mul_left _ hb
        _ = _ := (pow_add 2 w _).symm
    have h2 : (2 : Nat) ^ 64 = 2 ^ lo * 2 ^ (w + (64 - (lo + w))) := by rw [← pow_add]; congr 1; omega
    rw [h2]
    calc _ < 2 ^ lo + 2 ^ lo * (x % 2 ^ w + 2 ^ w * (v.toNat / 2 ^ (lo + w))) := by omega
      _ = 2 ^ lo * (x % 2 ^ w + 2 ^ w * (v.toNat / 2 ^ (lo + w)) + 1) := by ring
      _ ≤ _ := Nat.mul_le_mul_left _ h1
  simp only [setF, hw]
  rw [BitVec.toNat_ofNat, hn, Nat.mod_eq_of_lt hlt, Nat.add_comm, Nat.testBit_two_pow_mul_add _ ha]
  by_cases c1 : i < lo
  · have : ¬ (lo ≤ i ∧ i ≤ hi) := by omega
    simp [c1, this, Nat.testBit_mod_two_pow]
  · rw [if_neg c1, Nat.add_comm, Nat.testBit_two_pow_mul_add _ hx]
    by_cases c2 : i ≤ hi
    · have c3 : i - lo < w := by omega
      simp [c3, show lo ≤ i ∧ i ≤ hi from ⟨by omega, c2⟩, Nat.testBit_mod_two_pow]
    · have c3 : ¬ (i - lo < w) := by omega
      have c4 : ¬ (lo ≤ i ∧ i ≤ hi) := by omega
      rw [if_neg c3, if_neg c4, Nat.testBit_div_two_pow]
      congr 1; omega

/-- Every bit of a field, counted from its lowest bit. -/
theorem getF_testBit (v : DWord) (hi lo i : Nat) : (getF v hi lo).testBit i = (decide (i < hi + 1 - lo) && v.toNat.testBit (i + lo)) := by
  simp [getF, Nat.testBit_mod_two_pow, Nat.testBit_div_two_pow, Nat.add_comm]

/-- A field read after it is written. -/
theorem getF_setF (v : DWord) (hi lo x : Nat) (h : lo ≤ hi) (h64 : hi < 64) : getF (setF v hi lo x) hi lo = x % 2 ^ (hi + 1 - lo) := by
  apply Nat.eq_of_testBit_eq
  intro i
  rw [getF_testBit, setF_testBit v hi lo x _ h h64, Nat.testBit_mod_two_pow]
  by_cases c : i < hi + 1 - lo
  · have : lo ≤ i + lo ∧ i + lo ≤ hi := by omega
    simp [c, this]
  · simp [c]

/-- A field apart from the one written. -/
theorem getF_setF_ne (v : DWord) (hi lo hi' lo' x : Nat) (h : lo ≤ hi) (h64 : hi < 64) (hd : hi < lo' ∨ hi' < lo) :
    getF (setF v hi lo x) hi' lo' = getF v hi' lo' := by
  apply Nat.eq_of_testBit_eq
  intro i
  rw [getF_testBit, getF_testBit, setF_testBit v hi lo x _ h h64]
  by_cases c : i < hi' + 1 - lo'
  · have : ¬ (lo ≤ i + lo' ∧ i + lo' ≤ hi) := by omega
    simp [c, this]
  · simp [c]

/-- A bit read after a bit is written. -/
theorem getB_setB (v : DWord) (i j : Nat) (b : Bool) (h : i < 64) : getB (setB v i b) j = if i = j then b else getB v j := by
  rw [getB, setB, setF_testBit v i i _ j (Nat.le_refl _) h, getB]
  by_cases c : i = j
  · subst c; cases b <;> simp
  · have : ¬ (i ≤ j ∧ j ≤ i) := by omega
    simp [c, this]

/-- A bit outside a field that is written. -/
theorem getB_setF (v : DWord) (hi lo x j : Nat) (h : lo ≤ hi) (h64 : hi < 64) (hd : j < lo ∨ hi < j) : getB (setF v hi lo x) j = getB v j := by
  rw [getB, setF_testBit v hi lo x j h h64, getB, if_neg (by omega)]

/-- A field without the bit that is written. -/
theorem getF_setB (v : DWord) (i hi lo : Nat) (b : Bool) (h : i < 64) (hd : i < lo ∨ hi < i) : getF (setB v i b) hi lo = getF v hi lo :=
  getF_setF_ne v i i hi lo _ (Nat.le_refl _) h hd

theorem State.rd_wr_ne (s : State) {r r' : Reg} (v : DWord) (h : r ≠ r') : (s.wr r v).rd r' = s.rd r' := by simp [h]

/-- A field, or a bit, read after its own register is written. -/
theorem State.fld_setFld (s : State) (r : Reg) (hi lo x : Nat) (h : lo ≤ hi) (h64 : hi < 64) :
    (s.setFld r hi lo x).fld r hi lo = x % 2 ^ (hi + 1 - lo) := by simp [State.fld, State.setFld, getF_setF _ _ _ _ h h64]
theorem State.fld_setFld_ne (s : State) (r r' : Reg) (hi lo hi' lo' x : Nat) (h : lo ≤ hi) (h64 : hi < 64)
    (hd : r ≠ r' ∨ hi < lo' ∨ hi' < lo) : (s.setFld r hi lo x).fld r' hi' lo' = s.fld r' hi' lo' := by
  by_cases hr : r = r'
  · subst hr
    simp [State.fld, State.setFld, getF_setF_ne _ _ _ _ _ _ h h64 (by simpa using hd)]
  · simp [State.fld, State.setFld, hr]
theorem State.bit_setBit (s : State) (r : Reg) (i j : Nat) (b : Bool) (h : i < 64) :
    (s.setBit r i b).bit r j = if i = j then b else s.bit r j := by simp [State.bit, State.setBit, getB_setB _ _ _ _ h]

/-- A unit read after one is changed. -/
@[simp] theorem State.tile_setTile (s : State) (t t' : Nat) (f : Tile → Tile) :
    (s.setTile t f).tile t' = if t = t' then f (s.tile t) else s.tile t' := by simp [State.tile, State.setTile]
@[simp] theorem State.queueX_setQueueX (s : State) (q q' : Nat) (f : QueueX → QueueX) :
    (s.setQueueX q f).queueX q' = if q = q' then f (s.queueX q) else s.queueX q' := by simp [State.queueX, State.setQueueX]
@[simp] theorem State.cell_setCell (s : State) (c c' : Nat) (x : Cell) :
    (s.setCell c x).cell c' = if c = c' then x else s.cell c' := by simp [State.cell, State.setCell]
@[simp] theorem State.hcore_setHcore (s : State) (k k' : Nat) (f : HCore → HCore) :
    (s.setHcore k f).hcore k' = if k = k' then f (s.hcore k) else s.hcore k' := by simp [State.hcore, State.setHcore]
@[simp] theorem State.bcore_setBcore (s : State) (c c' : Nat) (f : BCore → BCore) :
    (s.setBcore c f).bcore c' = if c = c' then f (s.bcore c) else s.bcore c' := by simp [State.bcore, State.setBcore]
@[simp] theorem State.rdeOf_setRde (s : State) (c c' : Nat) (f : Rde → Rde) :
    (s.setRde c f).rdeOf c' = if c = c' then f (s.rdeOf c) else s.rdeOf c' := by simp [State.rdeOf, State.setRde]
@[simp] theorem State.drbg_setDrbg (s : State) (k k' : Nat) (x : DrbgState) :
    (s.setDrbg k x).drbg k' = if k = k' then x else s.drbg k' := by simp [State.drbg, State.setDrbg]

/-! ### `State.store` -/

@[simp] theorem State.store_pcie (s : State) (r : Reg) (f : DWord → DWord) : (s.store r f).pcie = s.pcie := rfl
@[simp] theorem State.store_msix (s : State) (r : Reg) (f : DWord → DWord) : (s.store r f).msix = s.msix := rfl
@[simp] theorem State.store_msixPend (s : State) (r : Reg) (f : DWord → DWord) : (s.store r f).msixPend = s.msixPend := rfl
@[simp] theorem State.store_qx (s : State) (r : Reg) (f : DWord → DWord) : (s.store r f).qx = s.qx := rfl
@[simp] theorem State.store_jobs (s : State) (r : Reg) (f : DWord → DWord) : (s.store r f).jobs = s.jobs := rfl
@[simp] theorem State.store_nextJob (s : State) (r : Reg) (f : DWord → DWord) : (s.store r f).nextJob = s.nextJob := rfl
@[simp] theorem State.store_cox (s : State) (r : Reg) (f : DWord → DWord) : (s.store r f).cox = s.cox := rfl
@[simp] theorem State.store_fetchSlice (s : State) (r : Reg) (f : DWord → DWord) : (s.store r f).fetchSlice = s.fetchSlice := rfl
@[simp] theorem State.store_fetchQueue (s : State) (r : Reg) (f : DWord → DWord) : (s.store r f).fetchQueue = s.fetchQueue := rfl
@[simp] theorem State.store_fetchDue (s : State) (r : Reg) (f : DWord → DWord) : (s.store r f).fetchDue = s.fetchDue := rfl
@[simp] theorem State.store_rig (s : State) (r : Reg) (f : DWord → DWord) : (s.store r f).rig = s.rig := rfl
@[simp] theorem State.store_reRig (s : State) (r : Reg) (f : DWord → DWord) : (s.store r f).reRig = s.reRig := rfl
@[simp] theorem State.store_maskJobs (s : State) (r : Reg) (f : DWord → DWord) : (s.store r f).maskJobs = s.maskJobs := rfl
@[simp] theorem State.store_slots (s : State) (r : Reg) (f : DWord → DWord) : (s.store r f).slots = s.slots := rfl
@[simp] theorem State.store_fills (s : State) (r : Reg) (f : DWord → DWord) : (s.store r f).fills = s.fills := rfl
@[simp] theorem State.store_hmac (s : State) (r : Reg) (f : DWord → DWord) : (s.store r f).hmac = s.hmac := rfl
@[simp] theorem State.store_memo (s : State) (r : Reg) (f : DWord → DWord) : (s.store r f).memo = s.memo := rfl
@[simp] theorem State.store_cells (s : State) (r : Reg) (f : DWord → DWord) : (s.store r f).cells = s.cells := rfl
@[simp] theorem State.store_hcores (s : State) (r : Reg) (f : DWord → DWord) : (s.store r f).hcores = s.hcores := rfl
@[simp] theorem State.store_bcores (s : State) (r : Reg) (f : DWord → DWord) : (s.store r f).bcores = s.bcores := rfl
@[simp] theorem State.store_rde (s : State) (r : Reg) (f : DWord → DWord) : (s.store r f).rde = s.rde := rfl
@[simp] theorem State.store_rng (s : State) (r : Reg) (f : DWord → DWord) : (s.store r f).rng = s.rng := rfl
@[simp] theorem State.store_sram (s : State) (r : Reg) (f : DWord → DWord) : (s.store r f).sram = s.sram := rfl
@[simp] theorem State.store_ddr (s : State) (r : Reg) (f : DWord → DWord) : (s.store r f).ddr = s.ddr := rfl
@[simp] theorem State.store_ddrFill (s : State) (r : Reg) (f : DWord → DWord) : (s.store r f).ddrFill = s.ddrFill := rfl
@[simp] theorem State.store_reported (s : State) (r : Reg) (f : DWord → DWord) : (s.store r f).reported = s.reported := rfl
@[simp] theorem State.store_tiles (s : State) (r : Reg) (f : DWord → DWord) : (s.store r f).tiles = s.tiles := rfl
@[simp] theorem State.store_gateWait (s : State) (r : Reg) (f : DWord → DWord) : (s.store r f).gateWait = s.gateWait := rfl
@[simp] theorem State.store_otp (s : State) (r : Reg) (f : DWord → DWord) : (s.store r f).otp = s.otp := rfl
@[simp] theorem State.store_bbram (s : State) (r : Reg) (f : DWord → DWord) : (s.store r f).bbram = s.bbram := rfl
@[simp] theorem State.store_flash (s : State) (r : Reg) (f : DWord → DWord) : (s.store r f).flash = s.flash := rfl
@[simp] theorem State.store_mbx (s : State) (r : Reg) (f : DWord → DWord) : (s.store r f).mbx = s.mbx := rfl
@[simp] theorem State.store_transition (s : State) (r : Reg) (f : DWord → DWord) : (s.store r f).transition = s.transition := rfl
@[simp] theorem State.store_tamper (s : State) (r : Reg) (f : DWord → DWord) : (s.store r f).tamper = s.tamper := rfl
@[simp] theorem State.store_boot (s : State) (r : Reg) (f : DWord → DWord) : (s.store r f).boot = s.boot := rfl
@[simp] theorem State.store_power (s : State) (r : Reg) (f : DWord → DWord) : (s.store r f).power = s.power := rfl
@[simp] theorem State.store_pins (s : State) (r : Reg) (f : DWord → DWord) : (s.store r f).pins = s.pins := rfl
@[simp] theorem State.store_dbg (s : State) (r : Reg) (f : DWord → DWord) : (s.store r f).dbg = s.dbg := rfl
@[simp] theorem State.store_rdata (s : State) (r : Reg) (f : DWord → DWord) : (s.store r f).rdata = s.rdata := rfl
@[simp] theorem State.store_poisoned (s : State) (r : Reg) (f : DWord → DWord) : (s.store r f).poisoned = s.poisoned := rfl
@[simp] theorem State.store_out (s : State) (r : Reg) (f : DWord → DWord) : (s.store r f).out = s.out := rfl
@[simp] theorem State.store_freeCtr (s : State) (r : Reg) (f : DWord → DWord) : (s.store r f).freeCtr = s.freeCtr := rfl
@[simp] theorem State.store_pending (s : State) (r : Reg) (f : DWord → DWord) : (s.store r f).pending = s.pending := rfl

/-! ### `State.wr` -/

@[simp] theorem State.wr_pcie (s : State) (r : Reg) (v : DWord) : (s.wr r v).pcie = s.pcie := rfl
@[simp] theorem State.wr_msix (s : State) (r : Reg) (v : DWord) : (s.wr r v).msix = s.msix := rfl
@[simp] theorem State.wr_msixPend (s : State) (r : Reg) (v : DWord) : (s.wr r v).msixPend = s.msixPend := rfl
@[simp] theorem State.wr_qx (s : State) (r : Reg) (v : DWord) : (s.wr r v).qx = s.qx := rfl
@[simp] theorem State.wr_jobs (s : State) (r : Reg) (v : DWord) : (s.wr r v).jobs = s.jobs := rfl
@[simp] theorem State.wr_nextJob (s : State) (r : Reg) (v : DWord) : (s.wr r v).nextJob = s.nextJob := rfl
@[simp] theorem State.wr_cox (s : State) (r : Reg) (v : DWord) : (s.wr r v).cox = s.cox := rfl
@[simp] theorem State.wr_fetchSlice (s : State) (r : Reg) (v : DWord) : (s.wr r v).fetchSlice = s.fetchSlice := rfl
@[simp] theorem State.wr_fetchQueue (s : State) (r : Reg) (v : DWord) : (s.wr r v).fetchQueue = s.fetchQueue := rfl
@[simp] theorem State.wr_fetchDue (s : State) (r : Reg) (v : DWord) : (s.wr r v).fetchDue = s.fetchDue := rfl
@[simp] theorem State.wr_rig (s : State) (r : Reg) (v : DWord) : (s.wr r v).rig = s.rig := rfl
@[simp] theorem State.wr_reRig (s : State) (r : Reg) (v : DWord) : (s.wr r v).reRig = s.reRig := rfl
@[simp] theorem State.wr_maskJobs (s : State) (r : Reg) (v : DWord) : (s.wr r v).maskJobs = s.maskJobs := rfl
@[simp] theorem State.wr_slots (s : State) (r : Reg) (v : DWord) : (s.wr r v).slots = s.slots := rfl
@[simp] theorem State.wr_fills (s : State) (r : Reg) (v : DWord) : (s.wr r v).fills = s.fills := rfl
@[simp] theorem State.wr_hmac (s : State) (r : Reg) (v : DWord) : (s.wr r v).hmac = s.hmac := rfl
@[simp] theorem State.wr_memo (s : State) (r : Reg) (v : DWord) : (s.wr r v).memo = s.memo := rfl
@[simp] theorem State.wr_cells (s : State) (r : Reg) (v : DWord) : (s.wr r v).cells = s.cells := rfl
@[simp] theorem State.wr_hcores (s : State) (r : Reg) (v : DWord) : (s.wr r v).hcores = s.hcores := rfl
@[simp] theorem State.wr_bcores (s : State) (r : Reg) (v : DWord) : (s.wr r v).bcores = s.bcores := rfl
@[simp] theorem State.wr_rde (s : State) (r : Reg) (v : DWord) : (s.wr r v).rde = s.rde := rfl
@[simp] theorem State.wr_rng (s : State) (r : Reg) (v : DWord) : (s.wr r v).rng = s.rng := rfl
@[simp] theorem State.wr_sram (s : State) (r : Reg) (v : DWord) : (s.wr r v).sram = s.sram := rfl
@[simp] theorem State.wr_ddr (s : State) (r : Reg) (v : DWord) : (s.wr r v).ddr = s.ddr := rfl
@[simp] theorem State.wr_ddrFill (s : State) (r : Reg) (v : DWord) : (s.wr r v).ddrFill = s.ddrFill := rfl
@[simp] theorem State.wr_reported (s : State) (r : Reg) (v : DWord) : (s.wr r v).reported = s.reported := rfl
@[simp] theorem State.wr_tiles (s : State) (r : Reg) (v : DWord) : (s.wr r v).tiles = s.tiles := rfl
@[simp] theorem State.wr_gateWait (s : State) (r : Reg) (v : DWord) : (s.wr r v).gateWait = s.gateWait := rfl
@[simp] theorem State.wr_otp (s : State) (r : Reg) (v : DWord) : (s.wr r v).otp = s.otp := rfl
@[simp] theorem State.wr_bbram (s : State) (r : Reg) (v : DWord) : (s.wr r v).bbram = s.bbram := rfl
@[simp] theorem State.wr_flash (s : State) (r : Reg) (v : DWord) : (s.wr r v).flash = s.flash := rfl
@[simp] theorem State.wr_mbx (s : State) (r : Reg) (v : DWord) : (s.wr r v).mbx = s.mbx := rfl
@[simp] theorem State.wr_transition (s : State) (r : Reg) (v : DWord) : (s.wr r v).transition = s.transition := rfl
@[simp] theorem State.wr_tamper (s : State) (r : Reg) (v : DWord) : (s.wr r v).tamper = s.tamper := rfl
@[simp] theorem State.wr_boot (s : State) (r : Reg) (v : DWord) : (s.wr r v).boot = s.boot := rfl
@[simp] theorem State.wr_power (s : State) (r : Reg) (v : DWord) : (s.wr r v).power = s.power := rfl
@[simp] theorem State.wr_pins (s : State) (r : Reg) (v : DWord) : (s.wr r v).pins = s.pins := rfl
@[simp] theorem State.wr_dbg (s : State) (r : Reg) (v : DWord) : (s.wr r v).dbg = s.dbg := rfl
@[simp] theorem State.wr_rdata (s : State) (r : Reg) (v : DWord) : (s.wr r v).rdata = s.rdata := rfl
@[simp] theorem State.wr_poisoned (s : State) (r : Reg) (v : DWord) : (s.wr r v).poisoned = s.poisoned := rfl
@[simp] theorem State.wr_out (s : State) (r : Reg) (v : DWord) : (s.wr r v).out = s.out := rfl
@[simp] theorem State.wr_freeCtr (s : State) (r : Reg) (v : DWord) : (s.wr r v).freeCtr = s.freeCtr := rfl
@[simp] theorem State.wr_pending (s : State) (r : Reg) (v : DWord) : (s.wr r v).pending = s.pending := rfl

/-! ### `State.setFld` -/

@[simp] theorem State.setFld_pcie (s : State) (r : Reg) (hi lo x : Nat) : (s.setFld r hi lo x).pcie = s.pcie := rfl
@[simp] theorem State.setFld_msix (s : State) (r : Reg) (hi lo x : Nat) : (s.setFld r hi lo x).msix = s.msix := rfl
@[simp] theorem State.setFld_msixPend (s : State) (r : Reg) (hi lo x : Nat) : (s.setFld r hi lo x).msixPend = s.msixPend := rfl
@[simp] theorem State.setFld_qx (s : State) (r : Reg) (hi lo x : Nat) : (s.setFld r hi lo x).qx = s.qx := rfl
@[simp] theorem State.setFld_jobs (s : State) (r : Reg) (hi lo x : Nat) : (s.setFld r hi lo x).jobs = s.jobs := rfl
@[simp] theorem State.setFld_nextJob (s : State) (r : Reg) (hi lo x : Nat) : (s.setFld r hi lo x).nextJob = s.nextJob := rfl
@[simp] theorem State.setFld_cox (s : State) (r : Reg) (hi lo x : Nat) : (s.setFld r hi lo x).cox = s.cox := rfl
@[simp] theorem State.setFld_fetchSlice (s : State) (r : Reg) (hi lo x : Nat) : (s.setFld r hi lo x).fetchSlice = s.fetchSlice := rfl
@[simp] theorem State.setFld_fetchQueue (s : State) (r : Reg) (hi lo x : Nat) : (s.setFld r hi lo x).fetchQueue = s.fetchQueue := rfl
@[simp] theorem State.setFld_fetchDue (s : State) (r : Reg) (hi lo x : Nat) : (s.setFld r hi lo x).fetchDue = s.fetchDue := rfl
@[simp] theorem State.setFld_rig (s : State) (r : Reg) (hi lo x : Nat) : (s.setFld r hi lo x).rig = s.rig := rfl
@[simp] theorem State.setFld_reRig (s : State) (r : Reg) (hi lo x : Nat) : (s.setFld r hi lo x).reRig = s.reRig := rfl
@[simp] theorem State.setFld_maskJobs (s : State) (r : Reg) (hi lo x : Nat) : (s.setFld r hi lo x).maskJobs = s.maskJobs := rfl
@[simp] theorem State.setFld_slots (s : State) (r : Reg) (hi lo x : Nat) : (s.setFld r hi lo x).slots = s.slots := rfl
@[simp] theorem State.setFld_fills (s : State) (r : Reg) (hi lo x : Nat) : (s.setFld r hi lo x).fills = s.fills := rfl
@[simp] theorem State.setFld_hmac (s : State) (r : Reg) (hi lo x : Nat) : (s.setFld r hi lo x).hmac = s.hmac := rfl
@[simp] theorem State.setFld_memo (s : State) (r : Reg) (hi lo x : Nat) : (s.setFld r hi lo x).memo = s.memo := rfl
@[simp] theorem State.setFld_cells (s : State) (r : Reg) (hi lo x : Nat) : (s.setFld r hi lo x).cells = s.cells := rfl
@[simp] theorem State.setFld_hcores (s : State) (r : Reg) (hi lo x : Nat) : (s.setFld r hi lo x).hcores = s.hcores := rfl
@[simp] theorem State.setFld_bcores (s : State) (r : Reg) (hi lo x : Nat) : (s.setFld r hi lo x).bcores = s.bcores := rfl
@[simp] theorem State.setFld_rde (s : State) (r : Reg) (hi lo x : Nat) : (s.setFld r hi lo x).rde = s.rde := rfl
@[simp] theorem State.setFld_rng (s : State) (r : Reg) (hi lo x : Nat) : (s.setFld r hi lo x).rng = s.rng := rfl
@[simp] theorem State.setFld_sram (s : State) (r : Reg) (hi lo x : Nat) : (s.setFld r hi lo x).sram = s.sram := rfl
@[simp] theorem State.setFld_ddr (s : State) (r : Reg) (hi lo x : Nat) : (s.setFld r hi lo x).ddr = s.ddr := rfl
@[simp] theorem State.setFld_ddrFill (s : State) (r : Reg) (hi lo x : Nat) : (s.setFld r hi lo x).ddrFill = s.ddrFill := rfl
@[simp] theorem State.setFld_reported (s : State) (r : Reg) (hi lo x : Nat) : (s.setFld r hi lo x).reported = s.reported := rfl
@[simp] theorem State.setFld_tiles (s : State) (r : Reg) (hi lo x : Nat) : (s.setFld r hi lo x).tiles = s.tiles := rfl
@[simp] theorem State.setFld_gateWait (s : State) (r : Reg) (hi lo x : Nat) : (s.setFld r hi lo x).gateWait = s.gateWait := rfl
@[simp] theorem State.setFld_otp (s : State) (r : Reg) (hi lo x : Nat) : (s.setFld r hi lo x).otp = s.otp := rfl
@[simp] theorem State.setFld_bbram (s : State) (r : Reg) (hi lo x : Nat) : (s.setFld r hi lo x).bbram = s.bbram := rfl
@[simp] theorem State.setFld_flash (s : State) (r : Reg) (hi lo x : Nat) : (s.setFld r hi lo x).flash = s.flash := rfl
@[simp] theorem State.setFld_mbx (s : State) (r : Reg) (hi lo x : Nat) : (s.setFld r hi lo x).mbx = s.mbx := rfl
@[simp] theorem State.setFld_transition (s : State) (r : Reg) (hi lo x : Nat) : (s.setFld r hi lo x).transition = s.transition := rfl
@[simp] theorem State.setFld_tamper (s : State) (r : Reg) (hi lo x : Nat) : (s.setFld r hi lo x).tamper = s.tamper := rfl
@[simp] theorem State.setFld_boot (s : State) (r : Reg) (hi lo x : Nat) : (s.setFld r hi lo x).boot = s.boot := rfl
@[simp] theorem State.setFld_power (s : State) (r : Reg) (hi lo x : Nat) : (s.setFld r hi lo x).power = s.power := rfl
@[simp] theorem State.setFld_pins (s : State) (r : Reg) (hi lo x : Nat) : (s.setFld r hi lo x).pins = s.pins := rfl
@[simp] theorem State.setFld_dbg (s : State) (r : Reg) (hi lo x : Nat) : (s.setFld r hi lo x).dbg = s.dbg := rfl
@[simp] theorem State.setFld_rdata (s : State) (r : Reg) (hi lo x : Nat) : (s.setFld r hi lo x).rdata = s.rdata := rfl
@[simp] theorem State.setFld_poisoned (s : State) (r : Reg) (hi lo x : Nat) : (s.setFld r hi lo x).poisoned = s.poisoned := rfl
@[simp] theorem State.setFld_out (s : State) (r : Reg) (hi lo x : Nat) : (s.setFld r hi lo x).out = s.out := rfl
@[simp] theorem State.setFld_freeCtr (s : State) (r : Reg) (hi lo x : Nat) : (s.setFld r hi lo x).freeCtr = s.freeCtr := rfl
@[simp] theorem State.setFld_pending (s : State) (r : Reg) (hi lo x : Nat) : (s.setFld r hi lo x).pending = s.pending := rfl

/-! ### `State.setBit` -/

@[simp] theorem State.setBit_pcie (s : State) (r : Reg) (i : Nat) (b : Bool) : (s.setBit r i b).pcie = s.pcie := rfl
@[simp] theorem State.setBit_msix (s : State) (r : Reg) (i : Nat) (b : Bool) : (s.setBit r i b).msix = s.msix := rfl
@[simp] theorem State.setBit_msixPend (s : State) (r : Reg) (i : Nat) (b : Bool) : (s.setBit r i b).msixPend = s.msixPend := rfl
@[simp] theorem State.setBit_qx (s : State) (r : Reg) (i : Nat) (b : Bool) : (s.setBit r i b).qx = s.qx := rfl
@[simp] theorem State.setBit_jobs (s : State) (r : Reg) (i : Nat) (b : Bool) : (s.setBit r i b).jobs = s.jobs := rfl
@[simp] theorem State.setBit_nextJob (s : State) (r : Reg) (i : Nat) (b : Bool) : (s.setBit r i b).nextJob = s.nextJob := rfl
@[simp] theorem State.setBit_cox (s : State) (r : Reg) (i : Nat) (b : Bool) : (s.setBit r i b).cox = s.cox := rfl
@[simp] theorem State.setBit_fetchSlice (s : State) (r : Reg) (i : Nat) (b : Bool) : (s.setBit r i b).fetchSlice = s.fetchSlice := rfl
@[simp] theorem State.setBit_fetchQueue (s : State) (r : Reg) (i : Nat) (b : Bool) : (s.setBit r i b).fetchQueue = s.fetchQueue := rfl
@[simp] theorem State.setBit_fetchDue (s : State) (r : Reg) (i : Nat) (b : Bool) : (s.setBit r i b).fetchDue = s.fetchDue := rfl
@[simp] theorem State.setBit_rig (s : State) (r : Reg) (i : Nat) (b : Bool) : (s.setBit r i b).rig = s.rig := rfl
@[simp] theorem State.setBit_reRig (s : State) (r : Reg) (i : Nat) (b : Bool) : (s.setBit r i b).reRig = s.reRig := rfl
@[simp] theorem State.setBit_maskJobs (s : State) (r : Reg) (i : Nat) (b : Bool) : (s.setBit r i b).maskJobs = s.maskJobs := rfl
@[simp] theorem State.setBit_slots (s : State) (r : Reg) (i : Nat) (b : Bool) : (s.setBit r i b).slots = s.slots := rfl
@[simp] theorem State.setBit_fills (s : State) (r : Reg) (i : Nat) (b : Bool) : (s.setBit r i b).fills = s.fills := rfl
@[simp] theorem State.setBit_hmac (s : State) (r : Reg) (i : Nat) (b : Bool) : (s.setBit r i b).hmac = s.hmac := rfl
@[simp] theorem State.setBit_memo (s : State) (r : Reg) (i : Nat) (b : Bool) : (s.setBit r i b).memo = s.memo := rfl
@[simp] theorem State.setBit_cells (s : State) (r : Reg) (i : Nat) (b : Bool) : (s.setBit r i b).cells = s.cells := rfl
@[simp] theorem State.setBit_hcores (s : State) (r : Reg) (i : Nat) (b : Bool) : (s.setBit r i b).hcores = s.hcores := rfl
@[simp] theorem State.setBit_bcores (s : State) (r : Reg) (i : Nat) (b : Bool) : (s.setBit r i b).bcores = s.bcores := rfl
@[simp] theorem State.setBit_rde (s : State) (r : Reg) (i : Nat) (b : Bool) : (s.setBit r i b).rde = s.rde := rfl
@[simp] theorem State.setBit_rng (s : State) (r : Reg) (i : Nat) (b : Bool) : (s.setBit r i b).rng = s.rng := rfl
@[simp] theorem State.setBit_sram (s : State) (r : Reg) (i : Nat) (b : Bool) : (s.setBit r i b).sram = s.sram := rfl
@[simp] theorem State.setBit_ddr (s : State) (r : Reg) (i : Nat) (b : Bool) : (s.setBit r i b).ddr = s.ddr := rfl
@[simp] theorem State.setBit_ddrFill (s : State) (r : Reg) (i : Nat) (b : Bool) : (s.setBit r i b).ddrFill = s.ddrFill := rfl
@[simp] theorem State.setBit_reported (s : State) (r : Reg) (i : Nat) (b : Bool) : (s.setBit r i b).reported = s.reported := rfl
@[simp] theorem State.setBit_tiles (s : State) (r : Reg) (i : Nat) (b : Bool) : (s.setBit r i b).tiles = s.tiles := rfl
@[simp] theorem State.setBit_gateWait (s : State) (r : Reg) (i : Nat) (b : Bool) : (s.setBit r i b).gateWait = s.gateWait := rfl
@[simp] theorem State.setBit_otp (s : State) (r : Reg) (i : Nat) (b : Bool) : (s.setBit r i b).otp = s.otp := rfl
@[simp] theorem State.setBit_bbram (s : State) (r : Reg) (i : Nat) (b : Bool) : (s.setBit r i b).bbram = s.bbram := rfl
@[simp] theorem State.setBit_flash (s : State) (r : Reg) (i : Nat) (b : Bool) : (s.setBit r i b).flash = s.flash := rfl
@[simp] theorem State.setBit_mbx (s : State) (r : Reg) (i : Nat) (b : Bool) : (s.setBit r i b).mbx = s.mbx := rfl
@[simp] theorem State.setBit_transition (s : State) (r : Reg) (i : Nat) (b : Bool) : (s.setBit r i b).transition = s.transition := rfl
@[simp] theorem State.setBit_tamper (s : State) (r : Reg) (i : Nat) (b : Bool) : (s.setBit r i b).tamper = s.tamper := rfl
@[simp] theorem State.setBit_boot (s : State) (r : Reg) (i : Nat) (b : Bool) : (s.setBit r i b).boot = s.boot := rfl
@[simp] theorem State.setBit_power (s : State) (r : Reg) (i : Nat) (b : Bool) : (s.setBit r i b).power = s.power := rfl
@[simp] theorem State.setBit_pins (s : State) (r : Reg) (i : Nat) (b : Bool) : (s.setBit r i b).pins = s.pins := rfl
@[simp] theorem State.setBit_dbg (s : State) (r : Reg) (i : Nat) (b : Bool) : (s.setBit r i b).dbg = s.dbg := rfl
@[simp] theorem State.setBit_rdata (s : State) (r : Reg) (i : Nat) (b : Bool) : (s.setBit r i b).rdata = s.rdata := rfl
@[simp] theorem State.setBit_poisoned (s : State) (r : Reg) (i : Nat) (b : Bool) : (s.setBit r i b).poisoned = s.poisoned := rfl
@[simp] theorem State.setBit_out (s : State) (r : Reg) (i : Nat) (b : Bool) : (s.setBit r i b).out = s.out := rfl
@[simp] theorem State.setBit_freeCtr (s : State) (r : Reg) (i : Nat) (b : Bool) : (s.setBit r i b).freeCtr = s.freeCtr := rfl
@[simp] theorem State.setBit_pending (s : State) (r : Reg) (i : Nat) (b : Bool) : (s.setBit r i b).pending = s.pending := rfl

/-! ### `State.bump` -/

@[simp] theorem State.bump_pcie (s : State) (r : Reg) (d : Nat) : (s.bump r d).pcie = s.pcie := rfl
@[simp] theorem State.bump_msix (s : State) (r : Reg) (d : Nat) : (s.bump r d).msix = s.msix := rfl
@[simp] theorem State.bump_msixPend (s : State) (r : Reg) (d : Nat) : (s.bump r d).msixPend = s.msixPend := rfl
@[simp] theorem State.bump_qx (s : State) (r : Reg) (d : Nat) : (s.bump r d).qx = s.qx := rfl
@[simp] theorem State.bump_jobs (s : State) (r : Reg) (d : Nat) : (s.bump r d).jobs = s.jobs := rfl
@[simp] theorem State.bump_nextJob (s : State) (r : Reg) (d : Nat) : (s.bump r d).nextJob = s.nextJob := rfl
@[simp] theorem State.bump_cox (s : State) (r : Reg) (d : Nat) : (s.bump r d).cox = s.cox := rfl
@[simp] theorem State.bump_fetchSlice (s : State) (r : Reg) (d : Nat) : (s.bump r d).fetchSlice = s.fetchSlice := rfl
@[simp] theorem State.bump_fetchQueue (s : State) (r : Reg) (d : Nat) : (s.bump r d).fetchQueue = s.fetchQueue := rfl
@[simp] theorem State.bump_fetchDue (s : State) (r : Reg) (d : Nat) : (s.bump r d).fetchDue = s.fetchDue := rfl
@[simp] theorem State.bump_rig (s : State) (r : Reg) (d : Nat) : (s.bump r d).rig = s.rig := rfl
@[simp] theorem State.bump_reRig (s : State) (r : Reg) (d : Nat) : (s.bump r d).reRig = s.reRig := rfl
@[simp] theorem State.bump_maskJobs (s : State) (r : Reg) (d : Nat) : (s.bump r d).maskJobs = s.maskJobs := rfl
@[simp] theorem State.bump_slots (s : State) (r : Reg) (d : Nat) : (s.bump r d).slots = s.slots := rfl
@[simp] theorem State.bump_fills (s : State) (r : Reg) (d : Nat) : (s.bump r d).fills = s.fills := rfl
@[simp] theorem State.bump_hmac (s : State) (r : Reg) (d : Nat) : (s.bump r d).hmac = s.hmac := rfl
@[simp] theorem State.bump_memo (s : State) (r : Reg) (d : Nat) : (s.bump r d).memo = s.memo := rfl
@[simp] theorem State.bump_cells (s : State) (r : Reg) (d : Nat) : (s.bump r d).cells = s.cells := rfl
@[simp] theorem State.bump_hcores (s : State) (r : Reg) (d : Nat) : (s.bump r d).hcores = s.hcores := rfl
@[simp] theorem State.bump_bcores (s : State) (r : Reg) (d : Nat) : (s.bump r d).bcores = s.bcores := rfl
@[simp] theorem State.bump_rde (s : State) (r : Reg) (d : Nat) : (s.bump r d).rde = s.rde := rfl
@[simp] theorem State.bump_rng (s : State) (r : Reg) (d : Nat) : (s.bump r d).rng = s.rng := rfl
@[simp] theorem State.bump_sram (s : State) (r : Reg) (d : Nat) : (s.bump r d).sram = s.sram := rfl
@[simp] theorem State.bump_ddr (s : State) (r : Reg) (d : Nat) : (s.bump r d).ddr = s.ddr := rfl
@[simp] theorem State.bump_ddrFill (s : State) (r : Reg) (d : Nat) : (s.bump r d).ddrFill = s.ddrFill := rfl
@[simp] theorem State.bump_reported (s : State) (r : Reg) (d : Nat) : (s.bump r d).reported = s.reported := rfl
@[simp] theorem State.bump_tiles (s : State) (r : Reg) (d : Nat) : (s.bump r d).tiles = s.tiles := rfl
@[simp] theorem State.bump_gateWait (s : State) (r : Reg) (d : Nat) : (s.bump r d).gateWait = s.gateWait := rfl
@[simp] theorem State.bump_otp (s : State) (r : Reg) (d : Nat) : (s.bump r d).otp = s.otp := rfl
@[simp] theorem State.bump_bbram (s : State) (r : Reg) (d : Nat) : (s.bump r d).bbram = s.bbram := rfl
@[simp] theorem State.bump_flash (s : State) (r : Reg) (d : Nat) : (s.bump r d).flash = s.flash := rfl
@[simp] theorem State.bump_mbx (s : State) (r : Reg) (d : Nat) : (s.bump r d).mbx = s.mbx := rfl
@[simp] theorem State.bump_transition (s : State) (r : Reg) (d : Nat) : (s.bump r d).transition = s.transition := rfl
@[simp] theorem State.bump_tamper (s : State) (r : Reg) (d : Nat) : (s.bump r d).tamper = s.tamper := rfl
@[simp] theorem State.bump_boot (s : State) (r : Reg) (d : Nat) : (s.bump r d).boot = s.boot := rfl
@[simp] theorem State.bump_power (s : State) (r : Reg) (d : Nat) : (s.bump r d).power = s.power := rfl
@[simp] theorem State.bump_pins (s : State) (r : Reg) (d : Nat) : (s.bump r d).pins = s.pins := rfl
@[simp] theorem State.bump_dbg (s : State) (r : Reg) (d : Nat) : (s.bump r d).dbg = s.dbg := rfl
@[simp] theorem State.bump_rdata (s : State) (r : Reg) (d : Nat) : (s.bump r d).rdata = s.rdata := rfl
@[simp] theorem State.bump_poisoned (s : State) (r : Reg) (d : Nat) : (s.bump r d).poisoned = s.poisoned := rfl
@[simp] theorem State.bump_out (s : State) (r : Reg) (d : Nat) : (s.bump r d).out = s.out := rfl
@[simp] theorem State.bump_freeCtr (s : State) (r : Reg) (d : Nat) : (s.bump r d).freeCtr = s.freeCtr := rfl
@[simp] theorem State.bump_pending (s : State) (r : Reg) (d : Nat) : (s.bump r d).pending = s.pending := rfl

/-! ### `State.bump64` -/

@[simp] theorem State.bump64_pcie (s : State) (r : Reg) : (s.bump64 r).pcie = s.pcie := rfl
@[simp] theorem State.bump64_msix (s : State) (r : Reg) : (s.bump64 r).msix = s.msix := rfl
@[simp] theorem State.bump64_msixPend (s : State) (r : Reg) : (s.bump64 r).msixPend = s.msixPend := rfl
@[simp] theorem State.bump64_qx (s : State) (r : Reg) : (s.bump64 r).qx = s.qx := rfl
@[simp] theorem State.bump64_jobs (s : State) (r : Reg) : (s.bump64 r).jobs = s.jobs := rfl
@[simp] theorem State.bump64_nextJob (s : State) (r : Reg) : (s.bump64 r).nextJob = s.nextJob := rfl
@[simp] theorem State.bump64_cox (s : State) (r : Reg) : (s.bump64 r).cox = s.cox := rfl
@[simp] theorem State.bump64_rig (s : State) (r : Reg) : (s.bump64 r).rig = s.rig := rfl
@[simp] theorem State.bump64_reRig (s : State) (r : Reg) : (s.bump64 r).reRig = s.reRig := rfl
@[simp] theorem State.bump64_maskJobs (s : State) (r : Reg) : (s.bump64 r).maskJobs = s.maskJobs := rfl
@[simp] theorem State.bump64_slots (s : State) (r : Reg) : (s.bump64 r).slots = s.slots := rfl
@[simp] theorem State.bump64_hmac (s : State) (r : Reg) : (s.bump64 r).hmac = s.hmac := rfl
@[simp] theorem State.bump64_memo (s : State) (r : Reg) : (s.bump64 r).memo = s.memo := rfl
@[simp] theorem State.bump64_cells (s : State) (r : Reg) : (s.bump64 r).cells = s.cells := rfl
@[simp] theorem State.bump64_hcores (s : State) (r : Reg) : (s.bump64 r).hcores = s.hcores := rfl
@[simp] theorem State.bump64_bcores (s : State) (r : Reg) : (s.bump64 r).bcores = s.bcores := rfl
@[simp] theorem State.bump64_rde (s : State) (r : Reg) : (s.bump64 r).rde = s.rde := rfl
@[simp] theorem State.bump64_rng (s : State) (r : Reg) : (s.bump64 r).rng = s.rng := rfl
@[simp] theorem State.bump64_sram (s : State) (r : Reg) : (s.bump64 r).sram = s.sram := rfl
@[simp] theorem State.bump64_ddr (s : State) (r : Reg) : (s.bump64 r).ddr = s.ddr := rfl
@[simp] theorem State.bump64_ddrFill (s : State) (r : Reg) : (s.bump64 r).ddrFill = s.ddrFill := rfl
@[simp] theorem State.bump64_tiles (s : State) (r : Reg) : (s.bump64 r).tiles = s.tiles := rfl
@[simp] theorem State.bump64_gateWait (s : State) (r : Reg) : (s.bump64 r).gateWait = s.gateWait := rfl
@[simp] theorem State.bump64_fetchSlice (s : State) (r : Reg) : (s.bump64 r).fetchSlice = s.fetchSlice := rfl
@[simp] theorem State.bump64_fetchQueue (s : State) (r : Reg) : (s.bump64 r).fetchQueue = s.fetchQueue := rfl
@[simp] theorem State.bump64_fetchDue (s : State) (r : Reg) : (s.bump64 r).fetchDue = s.fetchDue := rfl
@[simp] theorem State.bump64_otp (s : State) (r : Reg) : (s.bump64 r).otp = s.otp := rfl
@[simp] theorem State.bump64_bbram (s : State) (r : Reg) : (s.bump64 r).bbram = s.bbram := rfl
@[simp] theorem State.bump64_flash (s : State) (r : Reg) : (s.bump64 r).flash = s.flash := rfl
@[simp] theorem State.bump64_mbx (s : State) (r : Reg) : (s.bump64 r).mbx = s.mbx := rfl
@[simp] theorem State.bump64_transition (s : State) (r : Reg) : (s.bump64 r).transition = s.transition := rfl
@[simp] theorem State.bump64_tamper (s : State) (r : Reg) : (s.bump64 r).tamper = s.tamper := rfl
@[simp] theorem State.bump64_boot (s : State) (r : Reg) : (s.bump64 r).boot = s.boot := rfl
@[simp] theorem State.bump64_power (s : State) (r : Reg) : (s.bump64 r).power = s.power := rfl
@[simp] theorem State.bump64_pins (s : State) (r : Reg) : (s.bump64 r).pins = s.pins := rfl
@[simp] theorem State.bump64_dbg (s : State) (r : Reg) : (s.bump64 r).dbg = s.dbg := rfl
@[simp] theorem State.bump64_rdata (s : State) (r : Reg) : (s.bump64 r).rdata = s.rdata := rfl
@[simp] theorem State.bump64_poisoned (s : State) (r : Reg) : (s.bump64 r).poisoned = s.poisoned := rfl
@[simp] theorem State.bump64_out (s : State) (r : Reg) : (s.bump64 r).out = s.out := rfl
@[simp] theorem State.bump64_freeCtr (s : State) (r : Reg) : (s.bump64 r).freeCtr = s.freeCtr := rfl
@[simp] theorem State.bump64_pending (s : State) (r : Reg) : (s.bump64 r).pending = s.pending := rfl

/-! ### `State.setJob` -/

@[simp] theorem State.setJob_regs (s : State) (j : Nat) (f : Job → Job) : (s.setJob j f).regs = s.regs := rfl
@[simp] theorem State.setJob_pcie (s : State) (j : Nat) (f : Job → Job) : (s.setJob j f).pcie = s.pcie := rfl
@[simp] theorem State.setJob_msix (s : State) (j : Nat) (f : Job → Job) : (s.setJob j f).msix = s.msix := rfl
@[simp] theorem State.setJob_msixPend (s : State) (j : Nat) (f : Job → Job) : (s.setJob j f).msixPend = s.msixPend := rfl
@[simp] theorem State.setJob_qx (s : State) (j : Nat) (f : Job → Job) : (s.setJob j f).qx = s.qx := rfl
@[simp] theorem State.setJob_nextJob (s : State) (j : Nat) (f : Job → Job) : (s.setJob j f).nextJob = s.nextJob := rfl
@[simp] theorem State.setJob_cox (s : State) (j : Nat) (f : Job → Job) : (s.setJob j f).cox = s.cox := rfl
@[simp] theorem State.setJob_fetchSlice (s : State) (j : Nat) (f : Job → Job) : (s.setJob j f).fetchSlice = s.fetchSlice := rfl
@[simp] theorem State.setJob_fetchQueue (s : State) (j : Nat) (f : Job → Job) : (s.setJob j f).fetchQueue = s.fetchQueue := rfl
@[simp] theorem State.setJob_fetchDue (s : State) (j : Nat) (f : Job → Job) : (s.setJob j f).fetchDue = s.fetchDue := rfl
@[simp] theorem State.setJob_rig (s : State) (j : Nat) (f : Job → Job) : (s.setJob j f).rig = s.rig := rfl
@[simp] theorem State.setJob_reRig (s : State) (j : Nat) (f : Job → Job) : (s.setJob j f).reRig = s.reRig := rfl
@[simp] theorem State.setJob_maskJobs (s : State) (j : Nat) (f : Job → Job) : (s.setJob j f).maskJobs = s.maskJobs := rfl
@[simp] theorem State.setJob_slots (s : State) (j : Nat) (f : Job → Job) : (s.setJob j f).slots = s.slots := rfl
@[simp] theorem State.setJob_fills (s : State) (j : Nat) (f : Job → Job) : (s.setJob j f).fills = s.fills := rfl
@[simp] theorem State.setJob_hmac (s : State) (j : Nat) (f : Job → Job) : (s.setJob j f).hmac = s.hmac := rfl
@[simp] theorem State.setJob_memo (s : State) (j : Nat) (f : Job → Job) : (s.setJob j f).memo = s.memo := rfl
@[simp] theorem State.setJob_cells (s : State) (j : Nat) (f : Job → Job) : (s.setJob j f).cells = s.cells := rfl
@[simp] theorem State.setJob_hcores (s : State) (j : Nat) (f : Job → Job) : (s.setJob j f).hcores = s.hcores := rfl
@[simp] theorem State.setJob_bcores (s : State) (j : Nat) (f : Job → Job) : (s.setJob j f).bcores = s.bcores := rfl
@[simp] theorem State.setJob_rde (s : State) (j : Nat) (f : Job → Job) : (s.setJob j f).rde = s.rde := rfl
@[simp] theorem State.setJob_rng (s : State) (j : Nat) (f : Job → Job) : (s.setJob j f).rng = s.rng := rfl
@[simp] theorem State.setJob_sram (s : State) (j : Nat) (f : Job → Job) : (s.setJob j f).sram = s.sram := rfl
@[simp] theorem State.setJob_ddr (s : State) (j : Nat) (f : Job → Job) : (s.setJob j f).ddr = s.ddr := rfl
@[simp] theorem State.setJob_ddrFill (s : State) (j : Nat) (f : Job → Job) : (s.setJob j f).ddrFill = s.ddrFill := rfl
@[simp] theorem State.setJob_shadow (s : State) (j : Nat) (f : Job → Job) : (s.setJob j f).shadow = s.shadow := rfl
@[simp] theorem State.setJob_reported (s : State) (j : Nat) (f : Job → Job) : (s.setJob j f).reported = s.reported := rfl
@[simp] theorem State.setJob_tiles (s : State) (j : Nat) (f : Job → Job) : (s.setJob j f).tiles = s.tiles := rfl
@[simp] theorem State.setJob_gateWait (s : State) (j : Nat) (f : Job → Job) : (s.setJob j f).gateWait = s.gateWait := rfl
@[simp] theorem State.setJob_otp (s : State) (j : Nat) (f : Job → Job) : (s.setJob j f).otp = s.otp := rfl
@[simp] theorem State.setJob_bbram (s : State) (j : Nat) (f : Job → Job) : (s.setJob j f).bbram = s.bbram := rfl
@[simp] theorem State.setJob_flash (s : State) (j : Nat) (f : Job → Job) : (s.setJob j f).flash = s.flash := rfl
@[simp] theorem State.setJob_mbx (s : State) (j : Nat) (f : Job → Job) : (s.setJob j f).mbx = s.mbx := rfl
@[simp] theorem State.setJob_transition (s : State) (j : Nat) (f : Job → Job) : (s.setJob j f).transition = s.transition := rfl
@[simp] theorem State.setJob_tamper (s : State) (j : Nat) (f : Job → Job) : (s.setJob j f).tamper = s.tamper := rfl
@[simp] theorem State.setJob_boot (s : State) (j : Nat) (f : Job → Job) : (s.setJob j f).boot = s.boot := rfl
@[simp] theorem State.setJob_power (s : State) (j : Nat) (f : Job → Job) : (s.setJob j f).power = s.power := rfl
@[simp] theorem State.setJob_pins (s : State) (j : Nat) (f : Job → Job) : (s.setJob j f).pins = s.pins := rfl
@[simp] theorem State.setJob_dbg (s : State) (j : Nat) (f : Job → Job) : (s.setJob j f).dbg = s.dbg := rfl
@[simp] theorem State.setJob_rdata (s : State) (j : Nat) (f : Job → Job) : (s.setJob j f).rdata = s.rdata := rfl
@[simp] theorem State.setJob_poisoned (s : State) (j : Nat) (f : Job → Job) : (s.setJob j f).poisoned = s.poisoned := rfl
@[simp] theorem State.setJob_out (s : State) (j : Nat) (f : Job → Job) : (s.setJob j f).out = s.out := rfl
@[simp] theorem State.setJob_freeCtr (s : State) (j : Nat) (f : Job → Job) : (s.setJob j f).freeCtr = s.freeCtr := rfl
@[simp] theorem State.setJob_pending (s : State) (j : Nat) (f : Job → Job) : (s.setJob j f).pending = s.pending := rfl

/-! ### `State.setTile` -/

@[simp] theorem State.setTile_regs (s : State) (t : Nat) (f : Tile → Tile) : (s.setTile t f).regs = s.regs := rfl
@[simp] theorem State.setTile_pcie (s : State) (t : Nat) (f : Tile → Tile) : (s.setTile t f).pcie = s.pcie := rfl
@[simp] theorem State.setTile_msix (s : State) (t : Nat) (f : Tile → Tile) : (s.setTile t f).msix = s.msix := rfl
@[simp] theorem State.setTile_msixPend (s : State) (t : Nat) (f : Tile → Tile) : (s.setTile t f).msixPend = s.msixPend := rfl
@[simp] theorem State.setTile_qx (s : State) (t : Nat) (f : Tile → Tile) : (s.setTile t f).qx = s.qx := rfl
@[simp] theorem State.setTile_jobs (s : State) (t : Nat) (f : Tile → Tile) : (s.setTile t f).jobs = s.jobs := rfl
@[simp] theorem State.setTile_nextJob (s : State) (t : Nat) (f : Tile → Tile) : (s.setTile t f).nextJob = s.nextJob := rfl
@[simp] theorem State.setTile_cox (s : State) (t : Nat) (f : Tile → Tile) : (s.setTile t f).cox = s.cox := rfl
@[simp] theorem State.setTile_fetchSlice (s : State) (t : Nat) (f : Tile → Tile) : (s.setTile t f).fetchSlice = s.fetchSlice := rfl
@[simp] theorem State.setTile_fetchQueue (s : State) (t : Nat) (f : Tile → Tile) : (s.setTile t f).fetchQueue = s.fetchQueue := rfl
@[simp] theorem State.setTile_fetchDue (s : State) (t : Nat) (f : Tile → Tile) : (s.setTile t f).fetchDue = s.fetchDue := rfl
@[simp] theorem State.setTile_rig (s : State) (t : Nat) (f : Tile → Tile) : (s.setTile t f).rig = s.rig := rfl
@[simp] theorem State.setTile_reRig (s : State) (t : Nat) (f : Tile → Tile) : (s.setTile t f).reRig = s.reRig := rfl
@[simp] theorem State.setTile_maskJobs (s : State) (t : Nat) (f : Tile → Tile) : (s.setTile t f).maskJobs = s.maskJobs := rfl
@[simp] theorem State.setTile_slots (s : State) (t : Nat) (f : Tile → Tile) : (s.setTile t f).slots = s.slots := rfl
@[simp] theorem State.setTile_fills (s : State) (t : Nat) (f : Tile → Tile) : (s.setTile t f).fills = s.fills := rfl
@[simp] theorem State.setTile_hmac (s : State) (t : Nat) (f : Tile → Tile) : (s.setTile t f).hmac = s.hmac := rfl
@[simp] theorem State.setTile_memo (s : State) (t : Nat) (f : Tile → Tile) : (s.setTile t f).memo = s.memo := rfl
@[simp] theorem State.setTile_cells (s : State) (t : Nat) (f : Tile → Tile) : (s.setTile t f).cells = s.cells := rfl
@[simp] theorem State.setTile_hcores (s : State) (t : Nat) (f : Tile → Tile) : (s.setTile t f).hcores = s.hcores := rfl
@[simp] theorem State.setTile_bcores (s : State) (t : Nat) (f : Tile → Tile) : (s.setTile t f).bcores = s.bcores := rfl
@[simp] theorem State.setTile_rde (s : State) (t : Nat) (f : Tile → Tile) : (s.setTile t f).rde = s.rde := rfl
@[simp] theorem State.setTile_rng (s : State) (t : Nat) (f : Tile → Tile) : (s.setTile t f).rng = s.rng := rfl
@[simp] theorem State.setTile_sram (s : State) (t : Nat) (f : Tile → Tile) : (s.setTile t f).sram = s.sram := rfl
@[simp] theorem State.setTile_ddr (s : State) (t : Nat) (f : Tile → Tile) : (s.setTile t f).ddr = s.ddr := rfl
@[simp] theorem State.setTile_ddrFill (s : State) (t : Nat) (f : Tile → Tile) : (s.setTile t f).ddrFill = s.ddrFill := rfl
@[simp] theorem State.setTile_shadow (s : State) (t : Nat) (f : Tile → Tile) : (s.setTile t f).shadow = s.shadow := rfl
@[simp] theorem State.setTile_reported (s : State) (t : Nat) (f : Tile → Tile) : (s.setTile t f).reported = s.reported := rfl
@[simp] theorem State.setTile_gateWait (s : State) (t : Nat) (f : Tile → Tile) : (s.setTile t f).gateWait = s.gateWait := rfl
@[simp] theorem State.setTile_otp (s : State) (t : Nat) (f : Tile → Tile) : (s.setTile t f).otp = s.otp := rfl
@[simp] theorem State.setTile_bbram (s : State) (t : Nat) (f : Tile → Tile) : (s.setTile t f).bbram = s.bbram := rfl
@[simp] theorem State.setTile_flash (s : State) (t : Nat) (f : Tile → Tile) : (s.setTile t f).flash = s.flash := rfl
@[simp] theorem State.setTile_mbx (s : State) (t : Nat) (f : Tile → Tile) : (s.setTile t f).mbx = s.mbx := rfl
@[simp] theorem State.setTile_transition (s : State) (t : Nat) (f : Tile → Tile) : (s.setTile t f).transition = s.transition := rfl
@[simp] theorem State.setTile_tamper (s : State) (t : Nat) (f : Tile → Tile) : (s.setTile t f).tamper = s.tamper := rfl
@[simp] theorem State.setTile_boot (s : State) (t : Nat) (f : Tile → Tile) : (s.setTile t f).boot = s.boot := rfl
@[simp] theorem State.setTile_power (s : State) (t : Nat) (f : Tile → Tile) : (s.setTile t f).power = s.power := rfl
@[simp] theorem State.setTile_pins (s : State) (t : Nat) (f : Tile → Tile) : (s.setTile t f).pins = s.pins := rfl
@[simp] theorem State.setTile_dbg (s : State) (t : Nat) (f : Tile → Tile) : (s.setTile t f).dbg = s.dbg := rfl
@[simp] theorem State.setTile_rdata (s : State) (t : Nat) (f : Tile → Tile) : (s.setTile t f).rdata = s.rdata := rfl
@[simp] theorem State.setTile_poisoned (s : State) (t : Nat) (f : Tile → Tile) : (s.setTile t f).poisoned = s.poisoned := rfl
@[simp] theorem State.setTile_out (s : State) (t : Nat) (f : Tile → Tile) : (s.setTile t f).out = s.out := rfl
@[simp] theorem State.setTile_freeCtr (s : State) (t : Nat) (f : Tile → Tile) : (s.setTile t f).freeCtr = s.freeCtr := rfl
@[simp] theorem State.setTile_pending (s : State) (t : Nat) (f : Tile → Tile) : (s.setTile t f).pending = s.pending := rfl

/-! ### `State.setQueueX` -/

@[simp] theorem State.setQueueX_regs (s : State) (q : Nat) (f : QueueX → QueueX) : (s.setQueueX q f).regs = s.regs := rfl
@[simp] theorem State.setQueueX_pcie (s : State) (q : Nat) (f : QueueX → QueueX) : (s.setQueueX q f).pcie = s.pcie := rfl
@[simp] theorem State.setQueueX_msix (s : State) (q : Nat) (f : QueueX → QueueX) : (s.setQueueX q f).msix = s.msix := rfl
@[simp] theorem State.setQueueX_msixPend (s : State) (q : Nat) (f : QueueX → QueueX) : (s.setQueueX q f).msixPend = s.msixPend := rfl
@[simp] theorem State.setQueueX_jobs (s : State) (q : Nat) (f : QueueX → QueueX) : (s.setQueueX q f).jobs = s.jobs := rfl
@[simp] theorem State.setQueueX_nextJob (s : State) (q : Nat) (f : QueueX → QueueX) : (s.setQueueX q f).nextJob = s.nextJob := rfl
@[simp] theorem State.setQueueX_cox (s : State) (q : Nat) (f : QueueX → QueueX) : (s.setQueueX q f).cox = s.cox := rfl
@[simp] theorem State.setQueueX_fetchSlice (s : State) (q : Nat) (f : QueueX → QueueX) : (s.setQueueX q f).fetchSlice = s.fetchSlice := rfl
@[simp] theorem State.setQueueX_fetchQueue (s : State) (q : Nat) (f : QueueX → QueueX) : (s.setQueueX q f).fetchQueue = s.fetchQueue := rfl
@[simp] theorem State.setQueueX_fetchDue (s : State) (q : Nat) (f : QueueX → QueueX) : (s.setQueueX q f).fetchDue = s.fetchDue := rfl
@[simp] theorem State.setQueueX_rig (s : State) (q : Nat) (f : QueueX → QueueX) : (s.setQueueX q f).rig = s.rig := rfl
@[simp] theorem State.setQueueX_reRig (s : State) (q : Nat) (f : QueueX → QueueX) : (s.setQueueX q f).reRig = s.reRig := rfl
@[simp] theorem State.setQueueX_maskJobs (s : State) (q : Nat) (f : QueueX → QueueX) : (s.setQueueX q f).maskJobs = s.maskJobs := rfl
@[simp] theorem State.setQueueX_slots (s : State) (q : Nat) (f : QueueX → QueueX) : (s.setQueueX q f).slots = s.slots := rfl
@[simp] theorem State.setQueueX_fills (s : State) (q : Nat) (f : QueueX → QueueX) : (s.setQueueX q f).fills = s.fills := rfl
@[simp] theorem State.setQueueX_hmac (s : State) (q : Nat) (f : QueueX → QueueX) : (s.setQueueX q f).hmac = s.hmac := rfl
@[simp] theorem State.setQueueX_memo (s : State) (q : Nat) (f : QueueX → QueueX) : (s.setQueueX q f).memo = s.memo := rfl
@[simp] theorem State.setQueueX_cells (s : State) (q : Nat) (f : QueueX → QueueX) : (s.setQueueX q f).cells = s.cells := rfl
@[simp] theorem State.setQueueX_hcores (s : State) (q : Nat) (f : QueueX → QueueX) : (s.setQueueX q f).hcores = s.hcores := rfl
@[simp] theorem State.setQueueX_bcores (s : State) (q : Nat) (f : QueueX → QueueX) : (s.setQueueX q f).bcores = s.bcores := rfl
@[simp] theorem State.setQueueX_rde (s : State) (q : Nat) (f : QueueX → QueueX) : (s.setQueueX q f).rde = s.rde := rfl
@[simp] theorem State.setQueueX_rng (s : State) (q : Nat) (f : QueueX → QueueX) : (s.setQueueX q f).rng = s.rng := rfl
@[simp] theorem State.setQueueX_sram (s : State) (q : Nat) (f : QueueX → QueueX) : (s.setQueueX q f).sram = s.sram := rfl
@[simp] theorem State.setQueueX_ddr (s : State) (q : Nat) (f : QueueX → QueueX) : (s.setQueueX q f).ddr = s.ddr := rfl
@[simp] theorem State.setQueueX_ddrFill (s : State) (q : Nat) (f : QueueX → QueueX) : (s.setQueueX q f).ddrFill = s.ddrFill := rfl
@[simp] theorem State.setQueueX_shadow (s : State) (q : Nat) (f : QueueX → QueueX) : (s.setQueueX q f).shadow = s.shadow := rfl
@[simp] theorem State.setQueueX_reported (s : State) (q : Nat) (f : QueueX → QueueX) : (s.setQueueX q f).reported = s.reported := rfl
@[simp] theorem State.setQueueX_tiles (s : State) (q : Nat) (f : QueueX → QueueX) : (s.setQueueX q f).tiles = s.tiles := rfl
@[simp] theorem State.setQueueX_gateWait (s : State) (q : Nat) (f : QueueX → QueueX) : (s.setQueueX q f).gateWait = s.gateWait := rfl
@[simp] theorem State.setQueueX_otp (s : State) (q : Nat) (f : QueueX → QueueX) : (s.setQueueX q f).otp = s.otp := rfl
@[simp] theorem State.setQueueX_bbram (s : State) (q : Nat) (f : QueueX → QueueX) : (s.setQueueX q f).bbram = s.bbram := rfl
@[simp] theorem State.setQueueX_flash (s : State) (q : Nat) (f : QueueX → QueueX) : (s.setQueueX q f).flash = s.flash := rfl
@[simp] theorem State.setQueueX_mbx (s : State) (q : Nat) (f : QueueX → QueueX) : (s.setQueueX q f).mbx = s.mbx := rfl
@[simp] theorem State.setQueueX_transition (s : State) (q : Nat) (f : QueueX → QueueX) : (s.setQueueX q f).transition = s.transition := rfl
@[simp] theorem State.setQueueX_tamper (s : State) (q : Nat) (f : QueueX → QueueX) : (s.setQueueX q f).tamper = s.tamper := rfl
@[simp] theorem State.setQueueX_boot (s : State) (q : Nat) (f : QueueX → QueueX) : (s.setQueueX q f).boot = s.boot := rfl
@[simp] theorem State.setQueueX_power (s : State) (q : Nat) (f : QueueX → QueueX) : (s.setQueueX q f).power = s.power := rfl
@[simp] theorem State.setQueueX_pins (s : State) (q : Nat) (f : QueueX → QueueX) : (s.setQueueX q f).pins = s.pins := rfl
@[simp] theorem State.setQueueX_dbg (s : State) (q : Nat) (f : QueueX → QueueX) : (s.setQueueX q f).dbg = s.dbg := rfl
@[simp] theorem State.setQueueX_rdata (s : State) (q : Nat) (f : QueueX → QueueX) : (s.setQueueX q f).rdata = s.rdata := rfl
@[simp] theorem State.setQueueX_poisoned (s : State) (q : Nat) (f : QueueX → QueueX) : (s.setQueueX q f).poisoned = s.poisoned := rfl
@[simp] theorem State.setQueueX_out (s : State) (q : Nat) (f : QueueX → QueueX) : (s.setQueueX q f).out = s.out := rfl
@[simp] theorem State.setQueueX_freeCtr (s : State) (q : Nat) (f : QueueX → QueueX) : (s.setQueueX q f).freeCtr = s.freeCtr := rfl
@[simp] theorem State.setQueueX_pending (s : State) (q : Nat) (f : QueueX → QueueX) : (s.setQueueX q f).pending = s.pending := rfl

/-! ### `State.setCell` -/

@[simp] theorem State.setCell_regs (s : State) (c : Nat) (x : Cell) : (s.setCell c x).regs = s.regs := rfl
@[simp] theorem State.setCell_pcie (s : State) (c : Nat) (x : Cell) : (s.setCell c x).pcie = s.pcie := rfl
@[simp] theorem State.setCell_msix (s : State) (c : Nat) (x : Cell) : (s.setCell c x).msix = s.msix := rfl
@[simp] theorem State.setCell_msixPend (s : State) (c : Nat) (x : Cell) : (s.setCell c x).msixPend = s.msixPend := rfl
@[simp] theorem State.setCell_qx (s : State) (c : Nat) (x : Cell) : (s.setCell c x).qx = s.qx := rfl
@[simp] theorem State.setCell_jobs (s : State) (c : Nat) (x : Cell) : (s.setCell c x).jobs = s.jobs := rfl
@[simp] theorem State.setCell_nextJob (s : State) (c : Nat) (x : Cell) : (s.setCell c x).nextJob = s.nextJob := rfl
@[simp] theorem State.setCell_cox (s : State) (c : Nat) (x : Cell) : (s.setCell c x).cox = s.cox := rfl
@[simp] theorem State.setCell_fetchSlice (s : State) (c : Nat) (x : Cell) : (s.setCell c x).fetchSlice = s.fetchSlice := rfl
@[simp] theorem State.setCell_fetchQueue (s : State) (c : Nat) (x : Cell) : (s.setCell c x).fetchQueue = s.fetchQueue := rfl
@[simp] theorem State.setCell_fetchDue (s : State) (c : Nat) (x : Cell) : (s.setCell c x).fetchDue = s.fetchDue := rfl
@[simp] theorem State.setCell_rig (s : State) (c : Nat) (x : Cell) : (s.setCell c x).rig = s.rig := rfl
@[simp] theorem State.setCell_reRig (s : State) (c : Nat) (x : Cell) : (s.setCell c x).reRig = s.reRig := rfl
@[simp] theorem State.setCell_maskJobs (s : State) (c : Nat) (x : Cell) : (s.setCell c x).maskJobs = s.maskJobs := rfl
@[simp] theorem State.setCell_slots (s : State) (c : Nat) (x : Cell) : (s.setCell c x).slots = s.slots := rfl
@[simp] theorem State.setCell_fills (s : State) (c : Nat) (x : Cell) : (s.setCell c x).fills = s.fills := rfl
@[simp] theorem State.setCell_hmac (s : State) (c : Nat) (x : Cell) : (s.setCell c x).hmac = s.hmac := rfl
@[simp] theorem State.setCell_memo (s : State) (c : Nat) (x : Cell) : (s.setCell c x).memo = s.memo := rfl
@[simp] theorem State.setCell_hcores (s : State) (c : Nat) (x : Cell) : (s.setCell c x).hcores = s.hcores := rfl
@[simp] theorem State.setCell_bcores (s : State) (c : Nat) (x : Cell) : (s.setCell c x).bcores = s.bcores := rfl
@[simp] theorem State.setCell_rde (s : State) (c : Nat) (x : Cell) : (s.setCell c x).rde = s.rde := rfl
@[simp] theorem State.setCell_rng (s : State) (c : Nat) (x : Cell) : (s.setCell c x).rng = s.rng := rfl
@[simp] theorem State.setCell_sram (s : State) (c : Nat) (x : Cell) : (s.setCell c x).sram = s.sram := rfl
@[simp] theorem State.setCell_ddr (s : State) (c : Nat) (x : Cell) : (s.setCell c x).ddr = s.ddr := rfl
@[simp] theorem State.setCell_ddrFill (s : State) (c : Nat) (x : Cell) : (s.setCell c x).ddrFill = s.ddrFill := rfl
@[simp] theorem State.setCell_shadow (s : State) (c : Nat) (x : Cell) : (s.setCell c x).shadow = s.shadow := rfl
@[simp] theorem State.setCell_reported (s : State) (c : Nat) (x : Cell) : (s.setCell c x).reported = s.reported := rfl
@[simp] theorem State.setCell_tiles (s : State) (c : Nat) (x : Cell) : (s.setCell c x).tiles = s.tiles := rfl
@[simp] theorem State.setCell_gateWait (s : State) (c : Nat) (x : Cell) : (s.setCell c x).gateWait = s.gateWait := rfl
@[simp] theorem State.setCell_otp (s : State) (c : Nat) (x : Cell) : (s.setCell c x).otp = s.otp := rfl
@[simp] theorem State.setCell_bbram (s : State) (c : Nat) (x : Cell) : (s.setCell c x).bbram = s.bbram := rfl
@[simp] theorem State.setCell_flash (s : State) (c : Nat) (x : Cell) : (s.setCell c x).flash = s.flash := rfl
@[simp] theorem State.setCell_mbx (s : State) (c : Nat) (x : Cell) : (s.setCell c x).mbx = s.mbx := rfl
@[simp] theorem State.setCell_transition (s : State) (c : Nat) (x : Cell) : (s.setCell c x).transition = s.transition := rfl
@[simp] theorem State.setCell_tamper (s : State) (c : Nat) (x : Cell) : (s.setCell c x).tamper = s.tamper := rfl
@[simp] theorem State.setCell_boot (s : State) (c : Nat) (x : Cell) : (s.setCell c x).boot = s.boot := rfl
@[simp] theorem State.setCell_power (s : State) (c : Nat) (x : Cell) : (s.setCell c x).power = s.power := rfl
@[simp] theorem State.setCell_pins (s : State) (c : Nat) (x : Cell) : (s.setCell c x).pins = s.pins := rfl
@[simp] theorem State.setCell_dbg (s : State) (c : Nat) (x : Cell) : (s.setCell c x).dbg = s.dbg := rfl
@[simp] theorem State.setCell_rdata (s : State) (c : Nat) (x : Cell) : (s.setCell c x).rdata = s.rdata := rfl
@[simp] theorem State.setCell_poisoned (s : State) (c : Nat) (x : Cell) : (s.setCell c x).poisoned = s.poisoned := rfl
@[simp] theorem State.setCell_out (s : State) (c : Nat) (x : Cell) : (s.setCell c x).out = s.out := rfl
@[simp] theorem State.setCell_freeCtr (s : State) (c : Nat) (x : Cell) : (s.setCell c x).freeCtr = s.freeCtr := rfl
@[simp] theorem State.setCell_pending (s : State) (c : Nat) (x : Cell) : (s.setCell c x).pending = s.pending := rfl

/-! ### `State.setHcore` -/

@[simp] theorem State.setHcore_regs (s : State) (k : Nat) (f : HCore → HCore) : (s.setHcore k f).regs = s.regs := rfl
@[simp] theorem State.setHcore_pcie (s : State) (k : Nat) (f : HCore → HCore) : (s.setHcore k f).pcie = s.pcie := rfl
@[simp] theorem State.setHcore_msix (s : State) (k : Nat) (f : HCore → HCore) : (s.setHcore k f).msix = s.msix := rfl
@[simp] theorem State.setHcore_msixPend (s : State) (k : Nat) (f : HCore → HCore) : (s.setHcore k f).msixPend = s.msixPend := rfl
@[simp] theorem State.setHcore_qx (s : State) (k : Nat) (f : HCore → HCore) : (s.setHcore k f).qx = s.qx := rfl
@[simp] theorem State.setHcore_jobs (s : State) (k : Nat) (f : HCore → HCore) : (s.setHcore k f).jobs = s.jobs := rfl
@[simp] theorem State.setHcore_nextJob (s : State) (k : Nat) (f : HCore → HCore) : (s.setHcore k f).nextJob = s.nextJob := rfl
@[simp] theorem State.setHcore_cox (s : State) (k : Nat) (f : HCore → HCore) : (s.setHcore k f).cox = s.cox := rfl
@[simp] theorem State.setHcore_fetchSlice (s : State) (k : Nat) (f : HCore → HCore) : (s.setHcore k f).fetchSlice = s.fetchSlice := rfl
@[simp] theorem State.setHcore_fetchQueue (s : State) (k : Nat) (f : HCore → HCore) : (s.setHcore k f).fetchQueue = s.fetchQueue := rfl
@[simp] theorem State.setHcore_fetchDue (s : State) (k : Nat) (f : HCore → HCore) : (s.setHcore k f).fetchDue = s.fetchDue := rfl
@[simp] theorem State.setHcore_rig (s : State) (k : Nat) (f : HCore → HCore) : (s.setHcore k f).rig = s.rig := rfl
@[simp] theorem State.setHcore_reRig (s : State) (k : Nat) (f : HCore → HCore) : (s.setHcore k f).reRig = s.reRig := rfl
@[simp] theorem State.setHcore_maskJobs (s : State) (k : Nat) (f : HCore → HCore) : (s.setHcore k f).maskJobs = s.maskJobs := rfl
@[simp] theorem State.setHcore_slots (s : State) (k : Nat) (f : HCore → HCore) : (s.setHcore k f).slots = s.slots := rfl
@[simp] theorem State.setHcore_fills (s : State) (k : Nat) (f : HCore → HCore) : (s.setHcore k f).fills = s.fills := rfl
@[simp] theorem State.setHcore_hmac (s : State) (k : Nat) (f : HCore → HCore) : (s.setHcore k f).hmac = s.hmac := rfl
@[simp] theorem State.setHcore_memo (s : State) (k : Nat) (f : HCore → HCore) : (s.setHcore k f).memo = s.memo := rfl
@[simp] theorem State.setHcore_cells (s : State) (k : Nat) (f : HCore → HCore) : (s.setHcore k f).cells = s.cells := rfl
@[simp] theorem State.setHcore_bcores (s : State) (k : Nat) (f : HCore → HCore) : (s.setHcore k f).bcores = s.bcores := rfl
@[simp] theorem State.setHcore_rde (s : State) (k : Nat) (f : HCore → HCore) : (s.setHcore k f).rde = s.rde := rfl
@[simp] theorem State.setHcore_rng (s : State) (k : Nat) (f : HCore → HCore) : (s.setHcore k f).rng = s.rng := rfl
@[simp] theorem State.setHcore_sram (s : State) (k : Nat) (f : HCore → HCore) : (s.setHcore k f).sram = s.sram := rfl
@[simp] theorem State.setHcore_ddr (s : State) (k : Nat) (f : HCore → HCore) : (s.setHcore k f).ddr = s.ddr := rfl
@[simp] theorem State.setHcore_ddrFill (s : State) (k : Nat) (f : HCore → HCore) : (s.setHcore k f).ddrFill = s.ddrFill := rfl
@[simp] theorem State.setHcore_shadow (s : State) (k : Nat) (f : HCore → HCore) : (s.setHcore k f).shadow = s.shadow := rfl
@[simp] theorem State.setHcore_reported (s : State) (k : Nat) (f : HCore → HCore) : (s.setHcore k f).reported = s.reported := rfl
@[simp] theorem State.setHcore_tiles (s : State) (k : Nat) (f : HCore → HCore) : (s.setHcore k f).tiles = s.tiles := rfl
@[simp] theorem State.setHcore_gateWait (s : State) (k : Nat) (f : HCore → HCore) : (s.setHcore k f).gateWait = s.gateWait := rfl
@[simp] theorem State.setHcore_otp (s : State) (k : Nat) (f : HCore → HCore) : (s.setHcore k f).otp = s.otp := rfl
@[simp] theorem State.setHcore_bbram (s : State) (k : Nat) (f : HCore → HCore) : (s.setHcore k f).bbram = s.bbram := rfl
@[simp] theorem State.setHcore_flash (s : State) (k : Nat) (f : HCore → HCore) : (s.setHcore k f).flash = s.flash := rfl
@[simp] theorem State.setHcore_mbx (s : State) (k : Nat) (f : HCore → HCore) : (s.setHcore k f).mbx = s.mbx := rfl
@[simp] theorem State.setHcore_transition (s : State) (k : Nat) (f : HCore → HCore) : (s.setHcore k f).transition = s.transition := rfl
@[simp] theorem State.setHcore_tamper (s : State) (k : Nat) (f : HCore → HCore) : (s.setHcore k f).tamper = s.tamper := rfl
@[simp] theorem State.setHcore_boot (s : State) (k : Nat) (f : HCore → HCore) : (s.setHcore k f).boot = s.boot := rfl
@[simp] theorem State.setHcore_power (s : State) (k : Nat) (f : HCore → HCore) : (s.setHcore k f).power = s.power := rfl
@[simp] theorem State.setHcore_pins (s : State) (k : Nat) (f : HCore → HCore) : (s.setHcore k f).pins = s.pins := rfl
@[simp] theorem State.setHcore_dbg (s : State) (k : Nat) (f : HCore → HCore) : (s.setHcore k f).dbg = s.dbg := rfl
@[simp] theorem State.setHcore_rdata (s : State) (k : Nat) (f : HCore → HCore) : (s.setHcore k f).rdata = s.rdata := rfl
@[simp] theorem State.setHcore_poisoned (s : State) (k : Nat) (f : HCore → HCore) : (s.setHcore k f).poisoned = s.poisoned := rfl
@[simp] theorem State.setHcore_out (s : State) (k : Nat) (f : HCore → HCore) : (s.setHcore k f).out = s.out := rfl
@[simp] theorem State.setHcore_freeCtr (s : State) (k : Nat) (f : HCore → HCore) : (s.setHcore k f).freeCtr = s.freeCtr := rfl
@[simp] theorem State.setHcore_pending (s : State) (k : Nat) (f : HCore → HCore) : (s.setHcore k f).pending = s.pending := rfl

/-! ### `State.setBcore` -/

@[simp] theorem State.setBcore_regs (s : State) (k : Nat) (f : BCore → BCore) : (s.setBcore k f).regs = s.regs := rfl
@[simp] theorem State.setBcore_pcie (s : State) (k : Nat) (f : BCore → BCore) : (s.setBcore k f).pcie = s.pcie := rfl
@[simp] theorem State.setBcore_msix (s : State) (k : Nat) (f : BCore → BCore) : (s.setBcore k f).msix = s.msix := rfl
@[simp] theorem State.setBcore_msixPend (s : State) (k : Nat) (f : BCore → BCore) : (s.setBcore k f).msixPend = s.msixPend := rfl
@[simp] theorem State.setBcore_qx (s : State) (k : Nat) (f : BCore → BCore) : (s.setBcore k f).qx = s.qx := rfl
@[simp] theorem State.setBcore_jobs (s : State) (k : Nat) (f : BCore → BCore) : (s.setBcore k f).jobs = s.jobs := rfl
@[simp] theorem State.setBcore_nextJob (s : State) (k : Nat) (f : BCore → BCore) : (s.setBcore k f).nextJob = s.nextJob := rfl
@[simp] theorem State.setBcore_cox (s : State) (k : Nat) (f : BCore → BCore) : (s.setBcore k f).cox = s.cox := rfl
@[simp] theorem State.setBcore_fetchSlice (s : State) (k : Nat) (f : BCore → BCore) : (s.setBcore k f).fetchSlice = s.fetchSlice := rfl
@[simp] theorem State.setBcore_fetchQueue (s : State) (k : Nat) (f : BCore → BCore) : (s.setBcore k f).fetchQueue = s.fetchQueue := rfl
@[simp] theorem State.setBcore_fetchDue (s : State) (k : Nat) (f : BCore → BCore) : (s.setBcore k f).fetchDue = s.fetchDue := rfl
@[simp] theorem State.setBcore_rig (s : State) (k : Nat) (f : BCore → BCore) : (s.setBcore k f).rig = s.rig := rfl
@[simp] theorem State.setBcore_reRig (s : State) (k : Nat) (f : BCore → BCore) : (s.setBcore k f).reRig = s.reRig := rfl
@[simp] theorem State.setBcore_maskJobs (s : State) (k : Nat) (f : BCore → BCore) : (s.setBcore k f).maskJobs = s.maskJobs := rfl
@[simp] theorem State.setBcore_slots (s : State) (k : Nat) (f : BCore → BCore) : (s.setBcore k f).slots = s.slots := rfl
@[simp] theorem State.setBcore_fills (s : State) (k : Nat) (f : BCore → BCore) : (s.setBcore k f).fills = s.fills := rfl
@[simp] theorem State.setBcore_hmac (s : State) (k : Nat) (f : BCore → BCore) : (s.setBcore k f).hmac = s.hmac := rfl
@[simp] theorem State.setBcore_memo (s : State) (k : Nat) (f : BCore → BCore) : (s.setBcore k f).memo = s.memo := rfl
@[simp] theorem State.setBcore_cells (s : State) (k : Nat) (f : BCore → BCore) : (s.setBcore k f).cells = s.cells := rfl
@[simp] theorem State.setBcore_hcores (s : State) (k : Nat) (f : BCore → BCore) : (s.setBcore k f).hcores = s.hcores := rfl
@[simp] theorem State.setBcore_rde (s : State) (k : Nat) (f : BCore → BCore) : (s.setBcore k f).rde = s.rde := rfl
@[simp] theorem State.setBcore_rng (s : State) (k : Nat) (f : BCore → BCore) : (s.setBcore k f).rng = s.rng := rfl
@[simp] theorem State.setBcore_sram (s : State) (k : Nat) (f : BCore → BCore) : (s.setBcore k f).sram = s.sram := rfl
@[simp] theorem State.setBcore_ddr (s : State) (k : Nat) (f : BCore → BCore) : (s.setBcore k f).ddr = s.ddr := rfl
@[simp] theorem State.setBcore_ddrFill (s : State) (k : Nat) (f : BCore → BCore) : (s.setBcore k f).ddrFill = s.ddrFill := rfl
@[simp] theorem State.setBcore_shadow (s : State) (k : Nat) (f : BCore → BCore) : (s.setBcore k f).shadow = s.shadow := rfl
@[simp] theorem State.setBcore_reported (s : State) (k : Nat) (f : BCore → BCore) : (s.setBcore k f).reported = s.reported := rfl
@[simp] theorem State.setBcore_tiles (s : State) (k : Nat) (f : BCore → BCore) : (s.setBcore k f).tiles = s.tiles := rfl
@[simp] theorem State.setBcore_gateWait (s : State) (k : Nat) (f : BCore → BCore) : (s.setBcore k f).gateWait = s.gateWait := rfl
@[simp] theorem State.setBcore_otp (s : State) (k : Nat) (f : BCore → BCore) : (s.setBcore k f).otp = s.otp := rfl
@[simp] theorem State.setBcore_bbram (s : State) (k : Nat) (f : BCore → BCore) : (s.setBcore k f).bbram = s.bbram := rfl
@[simp] theorem State.setBcore_flash (s : State) (k : Nat) (f : BCore → BCore) : (s.setBcore k f).flash = s.flash := rfl
@[simp] theorem State.setBcore_mbx (s : State) (k : Nat) (f : BCore → BCore) : (s.setBcore k f).mbx = s.mbx := rfl
@[simp] theorem State.setBcore_transition (s : State) (k : Nat) (f : BCore → BCore) : (s.setBcore k f).transition = s.transition := rfl
@[simp] theorem State.setBcore_tamper (s : State) (k : Nat) (f : BCore → BCore) : (s.setBcore k f).tamper = s.tamper := rfl
@[simp] theorem State.setBcore_boot (s : State) (k : Nat) (f : BCore → BCore) : (s.setBcore k f).boot = s.boot := rfl
@[simp] theorem State.setBcore_power (s : State) (k : Nat) (f : BCore → BCore) : (s.setBcore k f).power = s.power := rfl
@[simp] theorem State.setBcore_pins (s : State) (k : Nat) (f : BCore → BCore) : (s.setBcore k f).pins = s.pins := rfl
@[simp] theorem State.setBcore_dbg (s : State) (k : Nat) (f : BCore → BCore) : (s.setBcore k f).dbg = s.dbg := rfl
@[simp] theorem State.setBcore_rdata (s : State) (k : Nat) (f : BCore → BCore) : (s.setBcore k f).rdata = s.rdata := rfl
@[simp] theorem State.setBcore_poisoned (s : State) (k : Nat) (f : BCore → BCore) : (s.setBcore k f).poisoned = s.poisoned := rfl
@[simp] theorem State.setBcore_out (s : State) (k : Nat) (f : BCore → BCore) : (s.setBcore k f).out = s.out := rfl
@[simp] theorem State.setBcore_freeCtr (s : State) (k : Nat) (f : BCore → BCore) : (s.setBcore k f).freeCtr = s.freeCtr := rfl
@[simp] theorem State.setBcore_pending (s : State) (k : Nat) (f : BCore → BCore) : (s.setBcore k f).pending = s.pending := rfl

/-! ### `State.setRde` -/

@[simp] theorem State.setRde_regs (s : State) (k : Nat) (f : Rde → Rde) : (s.setRde k f).regs = s.regs := rfl
@[simp] theorem State.setRde_pcie (s : State) (k : Nat) (f : Rde → Rde) : (s.setRde k f).pcie = s.pcie := rfl
@[simp] theorem State.setRde_msix (s : State) (k : Nat) (f : Rde → Rde) : (s.setRde k f).msix = s.msix := rfl
@[simp] theorem State.setRde_msixPend (s : State) (k : Nat) (f : Rde → Rde) : (s.setRde k f).msixPend = s.msixPend := rfl
@[simp] theorem State.setRde_qx (s : State) (k : Nat) (f : Rde → Rde) : (s.setRde k f).qx = s.qx := rfl
@[simp] theorem State.setRde_jobs (s : State) (k : Nat) (f : Rde → Rde) : (s.setRde k f).jobs = s.jobs := rfl
@[simp] theorem State.setRde_nextJob (s : State) (k : Nat) (f : Rde → Rde) : (s.setRde k f).nextJob = s.nextJob := rfl
@[simp] theorem State.setRde_cox (s : State) (k : Nat) (f : Rde → Rde) : (s.setRde k f).cox = s.cox := rfl
@[simp] theorem State.setRde_fetchSlice (s : State) (k : Nat) (f : Rde → Rde) : (s.setRde k f).fetchSlice = s.fetchSlice := rfl
@[simp] theorem State.setRde_fetchQueue (s : State) (k : Nat) (f : Rde → Rde) : (s.setRde k f).fetchQueue = s.fetchQueue := rfl
@[simp] theorem State.setRde_fetchDue (s : State) (k : Nat) (f : Rde → Rde) : (s.setRde k f).fetchDue = s.fetchDue := rfl
@[simp] theorem State.setRde_rig (s : State) (k : Nat) (f : Rde → Rde) : (s.setRde k f).rig = s.rig := rfl
@[simp] theorem State.setRde_reRig (s : State) (k : Nat) (f : Rde → Rde) : (s.setRde k f).reRig = s.reRig := rfl
@[simp] theorem State.setRde_maskJobs (s : State) (k : Nat) (f : Rde → Rde) : (s.setRde k f).maskJobs = s.maskJobs := rfl
@[simp] theorem State.setRde_slots (s : State) (k : Nat) (f : Rde → Rde) : (s.setRde k f).slots = s.slots := rfl
@[simp] theorem State.setRde_fills (s : State) (k : Nat) (f : Rde → Rde) : (s.setRde k f).fills = s.fills := rfl
@[simp] theorem State.setRde_hmac (s : State) (k : Nat) (f : Rde → Rde) : (s.setRde k f).hmac = s.hmac := rfl
@[simp] theorem State.setRde_memo (s : State) (k : Nat) (f : Rde → Rde) : (s.setRde k f).memo = s.memo := rfl
@[simp] theorem State.setRde_cells (s : State) (k : Nat) (f : Rde → Rde) : (s.setRde k f).cells = s.cells := rfl
@[simp] theorem State.setRde_hcores (s : State) (k : Nat) (f : Rde → Rde) : (s.setRde k f).hcores = s.hcores := rfl
@[simp] theorem State.setRde_bcores (s : State) (k : Nat) (f : Rde → Rde) : (s.setRde k f).bcores = s.bcores := rfl
@[simp] theorem State.setRde_rng (s : State) (k : Nat) (f : Rde → Rde) : (s.setRde k f).rng = s.rng := rfl
@[simp] theorem State.setRde_sram (s : State) (k : Nat) (f : Rde → Rde) : (s.setRde k f).sram = s.sram := rfl
@[simp] theorem State.setRde_ddr (s : State) (k : Nat) (f : Rde → Rde) : (s.setRde k f).ddr = s.ddr := rfl
@[simp] theorem State.setRde_ddrFill (s : State) (k : Nat) (f : Rde → Rde) : (s.setRde k f).ddrFill = s.ddrFill := rfl
@[simp] theorem State.setRde_shadow (s : State) (k : Nat) (f : Rde → Rde) : (s.setRde k f).shadow = s.shadow := rfl
@[simp] theorem State.setRde_reported (s : State) (k : Nat) (f : Rde → Rde) : (s.setRde k f).reported = s.reported := rfl
@[simp] theorem State.setRde_tiles (s : State) (k : Nat) (f : Rde → Rde) : (s.setRde k f).tiles = s.tiles := rfl
@[simp] theorem State.setRde_gateWait (s : State) (k : Nat) (f : Rde → Rde) : (s.setRde k f).gateWait = s.gateWait := rfl
@[simp] theorem State.setRde_otp (s : State) (k : Nat) (f : Rde → Rde) : (s.setRde k f).otp = s.otp := rfl
@[simp] theorem State.setRde_bbram (s : State) (k : Nat) (f : Rde → Rde) : (s.setRde k f).bbram = s.bbram := rfl
@[simp] theorem State.setRde_flash (s : State) (k : Nat) (f : Rde → Rde) : (s.setRde k f).flash = s.flash := rfl
@[simp] theorem State.setRde_mbx (s : State) (k : Nat) (f : Rde → Rde) : (s.setRde k f).mbx = s.mbx := rfl
@[simp] theorem State.setRde_transition (s : State) (k : Nat) (f : Rde → Rde) : (s.setRde k f).transition = s.transition := rfl
@[simp] theorem State.setRde_tamper (s : State) (k : Nat) (f : Rde → Rde) : (s.setRde k f).tamper = s.tamper := rfl
@[simp] theorem State.setRde_boot (s : State) (k : Nat) (f : Rde → Rde) : (s.setRde k f).boot = s.boot := rfl
@[simp] theorem State.setRde_power (s : State) (k : Nat) (f : Rde → Rde) : (s.setRde k f).power = s.power := rfl
@[simp] theorem State.setRde_pins (s : State) (k : Nat) (f : Rde → Rde) : (s.setRde k f).pins = s.pins := rfl
@[simp] theorem State.setRde_dbg (s : State) (k : Nat) (f : Rde → Rde) : (s.setRde k f).dbg = s.dbg := rfl
@[simp] theorem State.setRde_rdata (s : State) (k : Nat) (f : Rde → Rde) : (s.setRde k f).rdata = s.rdata := rfl
@[simp] theorem State.setRde_poisoned (s : State) (k : Nat) (f : Rde → Rde) : (s.setRde k f).poisoned = s.poisoned := rfl
@[simp] theorem State.setRde_out (s : State) (k : Nat) (f : Rde → Rde) : (s.setRde k f).out = s.out := rfl
@[simp] theorem State.setRde_freeCtr (s : State) (k : Nat) (f : Rde → Rde) : (s.setRde k f).freeCtr = s.freeCtr := rfl
@[simp] theorem State.setRde_pending (s : State) (k : Nat) (f : Rde → Rde) : (s.setRde k f).pending = s.pending := rfl

/-! ### `State.draw` -/

@[simp] theorem State.draw_regs (s : State) (n : Nat) : (s.draw n).2.regs = s.regs := rfl
@[simp] theorem State.draw_pcie (s : State) (n : Nat) : (s.draw n).2.pcie = s.pcie := rfl
@[simp] theorem State.draw_msix (s : State) (n : Nat) : (s.draw n).2.msix = s.msix := rfl
@[simp] theorem State.draw_msixPend (s : State) (n : Nat) : (s.draw n).2.msixPend = s.msixPend := rfl
@[simp] theorem State.draw_qx (s : State) (n : Nat) : (s.draw n).2.qx = s.qx := rfl
@[simp] theorem State.draw_jobs (s : State) (n : Nat) : (s.draw n).2.jobs = s.jobs := rfl
@[simp] theorem State.draw_nextJob (s : State) (n : Nat) : (s.draw n).2.nextJob = s.nextJob := rfl
@[simp] theorem State.draw_cox (s : State) (n : Nat) : (s.draw n).2.cox = s.cox := rfl
@[simp] theorem State.draw_fetchSlice (s : State) (n : Nat) : (s.draw n).2.fetchSlice = s.fetchSlice := rfl
@[simp] theorem State.draw_fetchQueue (s : State) (n : Nat) : (s.draw n).2.fetchQueue = s.fetchQueue := rfl
@[simp] theorem State.draw_fetchDue (s : State) (n : Nat) : (s.draw n).2.fetchDue = s.fetchDue := rfl
@[simp] theorem State.draw_rig (s : State) (n : Nat) : (s.draw n).2.rig = s.rig := rfl
@[simp] theorem State.draw_reRig (s : State) (n : Nat) : (s.draw n).2.reRig = s.reRig := rfl
@[simp] theorem State.draw_maskJobs (s : State) (n : Nat) : (s.draw n).2.maskJobs = s.maskJobs := rfl
@[simp] theorem State.draw_slots (s : State) (n : Nat) : (s.draw n).2.slots = s.slots := rfl
@[simp] theorem State.draw_fills (s : State) (n : Nat) : (s.draw n).2.fills = s.fills := rfl
@[simp] theorem State.draw_hmac (s : State) (n : Nat) : (s.draw n).2.hmac = s.hmac := rfl
@[simp] theorem State.draw_memo (s : State) (n : Nat) : (s.draw n).2.memo = s.memo := rfl
@[simp] theorem State.draw_cells (s : State) (n : Nat) : (s.draw n).2.cells = s.cells := rfl
@[simp] theorem State.draw_hcores (s : State) (n : Nat) : (s.draw n).2.hcores = s.hcores := rfl
@[simp] theorem State.draw_bcores (s : State) (n : Nat) : (s.draw n).2.bcores = s.bcores := rfl
@[simp] theorem State.draw_rde (s : State) (n : Nat) : (s.draw n).2.rde = s.rde := rfl
@[simp] theorem State.draw_rng (s : State) (n : Nat) : (s.draw n).2.rng = s.rng := rfl
@[simp] theorem State.draw_sram (s : State) (n : Nat) : (s.draw n).2.sram = s.sram := rfl
@[simp] theorem State.draw_ddr (s : State) (n : Nat) : (s.draw n).2.ddr = s.ddr := rfl
@[simp] theorem State.draw_ddrFill (s : State) (n : Nat) : (s.draw n).2.ddrFill = s.ddrFill := rfl
@[simp] theorem State.draw_shadow (s : State) (n : Nat) : (s.draw n).2.shadow = s.shadow := rfl
@[simp] theorem State.draw_reported (s : State) (n : Nat) : (s.draw n).2.reported = s.reported := rfl
@[simp] theorem State.draw_tiles (s : State) (n : Nat) : (s.draw n).2.tiles = s.tiles := rfl
@[simp] theorem State.draw_gateWait (s : State) (n : Nat) : (s.draw n).2.gateWait = s.gateWait := rfl
@[simp] theorem State.draw_otp (s : State) (n : Nat) : (s.draw n).2.otp = s.otp := rfl
@[simp] theorem State.draw_bbram (s : State) (n : Nat) : (s.draw n).2.bbram = s.bbram := rfl
@[simp] theorem State.draw_flash (s : State) (n : Nat) : (s.draw n).2.flash = s.flash := rfl
@[simp] theorem State.draw_mbx (s : State) (n : Nat) : (s.draw n).2.mbx = s.mbx := rfl
@[simp] theorem State.draw_transition (s : State) (n : Nat) : (s.draw n).2.transition = s.transition := rfl
@[simp] theorem State.draw_tamper (s : State) (n : Nat) : (s.draw n).2.tamper = s.tamper := rfl
@[simp] theorem State.draw_boot (s : State) (n : Nat) : (s.draw n).2.boot = s.boot := rfl
@[simp] theorem State.draw_power (s : State) (n : Nat) : (s.draw n).2.power = s.power := rfl
@[simp] theorem State.draw_pins (s : State) (n : Nat) : (s.draw n).2.pins = s.pins := rfl
@[simp] theorem State.draw_dbg (s : State) (n : Nat) : (s.draw n).2.dbg = s.dbg := rfl
@[simp] theorem State.draw_rdata (s : State) (n : Nat) : (s.draw n).2.rdata = s.rdata := rfl
@[simp] theorem State.draw_poisoned (s : State) (n : Nat) : (s.draw n).2.poisoned = s.poisoned := rfl
@[simp] theorem State.draw_out (s : State) (n : Nat) : (s.draw n).2.out = s.out := rfl
@[simp] theorem State.draw_pending (s : State) (n : Nat) : (s.draw n).2.pending = s.pending := rfl

/-! ### `State.setDrbg` -/

@[simp] theorem State.setDrbg_regs (s : State) (k : Nat) (x : DrbgState) : (s.setDrbg k x).regs = s.regs := rfl
@[simp] theorem State.setDrbg_pcie (s : State) (k : Nat) (x : DrbgState) : (s.setDrbg k x).pcie = s.pcie := rfl
@[simp] theorem State.setDrbg_msix (s : State) (k : Nat) (x : DrbgState) : (s.setDrbg k x).msix = s.msix := rfl
@[simp] theorem State.setDrbg_msixPend (s : State) (k : Nat) (x : DrbgState) : (s.setDrbg k x).msixPend = s.msixPend := rfl
@[simp] theorem State.setDrbg_qx (s : State) (k : Nat) (x : DrbgState) : (s.setDrbg k x).qx = s.qx := rfl
@[simp] theorem State.setDrbg_jobs (s : State) (k : Nat) (x : DrbgState) : (s.setDrbg k x).jobs = s.jobs := rfl
@[simp] theorem State.setDrbg_nextJob (s : State) (k : Nat) (x : DrbgState) : (s.setDrbg k x).nextJob = s.nextJob := rfl
@[simp] theorem State.setDrbg_cox (s : State) (k : Nat) (x : DrbgState) : (s.setDrbg k x).cox = s.cox := rfl
@[simp] theorem State.setDrbg_fetchSlice (s : State) (k : Nat) (x : DrbgState) : (s.setDrbg k x).fetchSlice = s.fetchSlice := rfl
@[simp] theorem State.setDrbg_fetchQueue (s : State) (k : Nat) (x : DrbgState) : (s.setDrbg k x).fetchQueue = s.fetchQueue := rfl
@[simp] theorem State.setDrbg_fetchDue (s : State) (k : Nat) (x : DrbgState) : (s.setDrbg k x).fetchDue = s.fetchDue := rfl
@[simp] theorem State.setDrbg_rig (s : State) (k : Nat) (x : DrbgState) : (s.setDrbg k x).rig = s.rig := rfl
@[simp] theorem State.setDrbg_reRig (s : State) (k : Nat) (x : DrbgState) : (s.setDrbg k x).reRig = s.reRig := rfl
@[simp] theorem State.setDrbg_maskJobs (s : State) (k : Nat) (x : DrbgState) : (s.setDrbg k x).maskJobs = s.maskJobs := rfl
@[simp] theorem State.setDrbg_slots (s : State) (k : Nat) (x : DrbgState) : (s.setDrbg k x).slots = s.slots := rfl
@[simp] theorem State.setDrbg_fills (s : State) (k : Nat) (x : DrbgState) : (s.setDrbg k x).fills = s.fills := rfl
@[simp] theorem State.setDrbg_hmac (s : State) (k : Nat) (x : DrbgState) : (s.setDrbg k x).hmac = s.hmac := rfl
@[simp] theorem State.setDrbg_memo (s : State) (k : Nat) (x : DrbgState) : (s.setDrbg k x).memo = s.memo := rfl
@[simp] theorem State.setDrbg_cells (s : State) (k : Nat) (x : DrbgState) : (s.setDrbg k x).cells = s.cells := rfl
@[simp] theorem State.setDrbg_hcores (s : State) (k : Nat) (x : DrbgState) : (s.setDrbg k x).hcores = s.hcores := rfl
@[simp] theorem State.setDrbg_bcores (s : State) (k : Nat) (x : DrbgState) : (s.setDrbg k x).bcores = s.bcores := rfl
@[simp] theorem State.setDrbg_rde (s : State) (k : Nat) (x : DrbgState) : (s.setDrbg k x).rde = s.rde := rfl
@[simp] theorem State.setDrbg_sram (s : State) (k : Nat) (x : DrbgState) : (s.setDrbg k x).sram = s.sram := rfl
@[simp] theorem State.setDrbg_ddr (s : State) (k : Nat) (x : DrbgState) : (s.setDrbg k x).ddr = s.ddr := rfl
@[simp] theorem State.setDrbg_ddrFill (s : State) (k : Nat) (x : DrbgState) : (s.setDrbg k x).ddrFill = s.ddrFill := rfl
@[simp] theorem State.setDrbg_shadow (s : State) (k : Nat) (x : DrbgState) : (s.setDrbg k x).shadow = s.shadow := rfl
@[simp] theorem State.setDrbg_reported (s : State) (k : Nat) (x : DrbgState) : (s.setDrbg k x).reported = s.reported := rfl
@[simp] theorem State.setDrbg_tiles (s : State) (k : Nat) (x : DrbgState) : (s.setDrbg k x).tiles = s.tiles := rfl
@[simp] theorem State.setDrbg_gateWait (s : State) (k : Nat) (x : DrbgState) : (s.setDrbg k x).gateWait = s.gateWait := rfl
@[simp] theorem State.setDrbg_otp (s : State) (k : Nat) (x : DrbgState) : (s.setDrbg k x).otp = s.otp := rfl
@[simp] theorem State.setDrbg_bbram (s : State) (k : Nat) (x : DrbgState) : (s.setDrbg k x).bbram = s.bbram := rfl
@[simp] theorem State.setDrbg_flash (s : State) (k : Nat) (x : DrbgState) : (s.setDrbg k x).flash = s.flash := rfl
@[simp] theorem State.setDrbg_mbx (s : State) (k : Nat) (x : DrbgState) : (s.setDrbg k x).mbx = s.mbx := rfl
@[simp] theorem State.setDrbg_transition (s : State) (k : Nat) (x : DrbgState) : (s.setDrbg k x).transition = s.transition := rfl
@[simp] theorem State.setDrbg_tamper (s : State) (k : Nat) (x : DrbgState) : (s.setDrbg k x).tamper = s.tamper := rfl
@[simp] theorem State.setDrbg_boot (s : State) (k : Nat) (x : DrbgState) : (s.setDrbg k x).boot = s.boot := rfl
@[simp] theorem State.setDrbg_power (s : State) (k : Nat) (x : DrbgState) : (s.setDrbg k x).power = s.power := rfl
@[simp] theorem State.setDrbg_pins (s : State) (k : Nat) (x : DrbgState) : (s.setDrbg k x).pins = s.pins := rfl
@[simp] theorem State.setDrbg_dbg (s : State) (k : Nat) (x : DrbgState) : (s.setDrbg k x).dbg = s.dbg := rfl
@[simp] theorem State.setDrbg_rdata (s : State) (k : Nat) (x : DrbgState) : (s.setDrbg k x).rdata = s.rdata := rfl
@[simp] theorem State.setDrbg_poisoned (s : State) (k : Nat) (x : DrbgState) : (s.setDrbg k x).poisoned = s.poisoned := rfl
@[simp] theorem State.setDrbg_out (s : State) (k : Nat) (x : DrbgState) : (s.setDrbg k x).out = s.out := rfl
@[simp] theorem State.setDrbg_freeCtr (s : State) (k : Nat) (x : DrbgState) : (s.setDrbg k x).freeCtr = s.freeCtr := rfl
@[simp] theorem State.setDrbg_pending (s : State) (k : Nat) (x : DrbgState) : (s.setDrbg k x).pending = s.pending := rfl

/-! ### `State.setPool` -/

@[simp] theorem State.setPool_regs (s : State) (bs : Bytes) : (s.setPool bs).regs = s.regs := rfl
@[simp] theorem State.setPool_pcie (s : State) (bs : Bytes) : (s.setPool bs).pcie = s.pcie := rfl
@[simp] theorem State.setPool_msix (s : State) (bs : Bytes) : (s.setPool bs).msix = s.msix := rfl
@[simp] theorem State.setPool_msixPend (s : State) (bs : Bytes) : (s.setPool bs).msixPend = s.msixPend := rfl
@[simp] theorem State.setPool_qx (s : State) (bs : Bytes) : (s.setPool bs).qx = s.qx := rfl
@[simp] theorem State.setPool_jobs (s : State) (bs : Bytes) : (s.setPool bs).jobs = s.jobs := rfl
@[simp] theorem State.setPool_nextJob (s : State) (bs : Bytes) : (s.setPool bs).nextJob = s.nextJob := rfl
@[simp] theorem State.setPool_cox (s : State) (bs : Bytes) : (s.setPool bs).cox = s.cox := rfl
@[simp] theorem State.setPool_fetchSlice (s : State) (bs : Bytes) : (s.setPool bs).fetchSlice = s.fetchSlice := rfl
@[simp] theorem State.setPool_fetchQueue (s : State) (bs : Bytes) : (s.setPool bs).fetchQueue = s.fetchQueue := rfl
@[simp] theorem State.setPool_fetchDue (s : State) (bs : Bytes) : (s.setPool bs).fetchDue = s.fetchDue := rfl
@[simp] theorem State.setPool_rig (s : State) (bs : Bytes) : (s.setPool bs).rig = s.rig := rfl
@[simp] theorem State.setPool_reRig (s : State) (bs : Bytes) : (s.setPool bs).reRig = s.reRig := rfl
@[simp] theorem State.setPool_maskJobs (s : State) (bs : Bytes) : (s.setPool bs).maskJobs = s.maskJobs := rfl
@[simp] theorem State.setPool_slots (s : State) (bs : Bytes) : (s.setPool bs).slots = s.slots := rfl
@[simp] theorem State.setPool_fills (s : State) (bs : Bytes) : (s.setPool bs).fills = s.fills := rfl
@[simp] theorem State.setPool_hmac (s : State) (bs : Bytes) : (s.setPool bs).hmac = s.hmac := rfl
@[simp] theorem State.setPool_memo (s : State) (bs : Bytes) : (s.setPool bs).memo = s.memo := rfl
@[simp] theorem State.setPool_cells (s : State) (bs : Bytes) : (s.setPool bs).cells = s.cells := rfl
@[simp] theorem State.setPool_hcores (s : State) (bs : Bytes) : (s.setPool bs).hcores = s.hcores := rfl
@[simp] theorem State.setPool_bcores (s : State) (bs : Bytes) : (s.setPool bs).bcores = s.bcores := rfl
@[simp] theorem State.setPool_rde (s : State) (bs : Bytes) : (s.setPool bs).rde = s.rde := rfl
@[simp] theorem State.setPool_sram (s : State) (bs : Bytes) : (s.setPool bs).sram = s.sram := rfl
@[simp] theorem State.setPool_ddr (s : State) (bs : Bytes) : (s.setPool bs).ddr = s.ddr := rfl
@[simp] theorem State.setPool_ddrFill (s : State) (bs : Bytes) : (s.setPool bs).ddrFill = s.ddrFill := rfl
@[simp] theorem State.setPool_shadow (s : State) (bs : Bytes) : (s.setPool bs).shadow = s.shadow := rfl
@[simp] theorem State.setPool_reported (s : State) (bs : Bytes) : (s.setPool bs).reported = s.reported := rfl
@[simp] theorem State.setPool_tiles (s : State) (bs : Bytes) : (s.setPool bs).tiles = s.tiles := rfl
@[simp] theorem State.setPool_gateWait (s : State) (bs : Bytes) : (s.setPool bs).gateWait = s.gateWait := rfl
@[simp] theorem State.setPool_otp (s : State) (bs : Bytes) : (s.setPool bs).otp = s.otp := rfl
@[simp] theorem State.setPool_bbram (s : State) (bs : Bytes) : (s.setPool bs).bbram = s.bbram := rfl
@[simp] theorem State.setPool_flash (s : State) (bs : Bytes) : (s.setPool bs).flash = s.flash := rfl
@[simp] theorem State.setPool_mbx (s : State) (bs : Bytes) : (s.setPool bs).mbx = s.mbx := rfl
@[simp] theorem State.setPool_transition (s : State) (bs : Bytes) : (s.setPool bs).transition = s.transition := rfl
@[simp] theorem State.setPool_tamper (s : State) (bs : Bytes) : (s.setPool bs).tamper = s.tamper := rfl
@[simp] theorem State.setPool_boot (s : State) (bs : Bytes) : (s.setPool bs).boot = s.boot := rfl
@[simp] theorem State.setPool_power (s : State) (bs : Bytes) : (s.setPool bs).power = s.power := rfl
@[simp] theorem State.setPool_pins (s : State) (bs : Bytes) : (s.setPool bs).pins = s.pins := rfl
@[simp] theorem State.setPool_dbg (s : State) (bs : Bytes) : (s.setPool bs).dbg = s.dbg := rfl
@[simp] theorem State.setPool_rdata (s : State) (bs : Bytes) : (s.setPool bs).rdata = s.rdata := rfl
@[simp] theorem State.setPool_poisoned (s : State) (bs : Bytes) : (s.setPool bs).poisoned = s.poisoned := rfl
@[simp] theorem State.setPool_out (s : State) (bs : Bytes) : (s.setPool bs).out = s.out := rfl
@[simp] theorem State.setPool_freeCtr (s : State) (bs : Bytes) : (s.setPool bs).freeCtr = s.freeCtr := rfl
@[simp] theorem State.setPool_pending (s : State) (bs : Bytes) : (s.setPool bs).pending = s.pending := rfl

end Sys2Proof.Machine
end

