-- ==== Sys2Proof/Laws/Jobs.lean ====
section
/-! SUPPORT. What drawing random bytes, freeing a job's shells and settling a result can do. -/

namespace Sys2Proof.Machine

/-! ### The frame relation -/

theorem SameElsewhere.refl (s : State) : SameElsewhere s s := by constructor <;> rfl

theorem SameElsewhere.trans {s t u : State} (h : SameElsewhere s t) (h' : SameElsewhere t u) : SameElsewhere s u := by
  constructor
  all_goals first
    | exact h'.slots.trans h.slots | exact h'.cells.trans h.cells | exact h'.sram.trans h.sram | exact h'.ddr.trans h.ddr
    | exact h'.otp.trans h.otp | exact h'.bbram.trans h.bbram | exact h'.flash.trans h.flash | exact h'.pcie.trans h.pcie
    | exact h'.qx.trans h.qx | exact h'.cox.trans h.cox | exact h'.rig.trans h.rig | exact h'.hcores.trans h.hcores
    | exact h'.bcores.trans h.bcores | exact h'.rde.trans h.rde | exact h'.mbx.trans h.mbx | exact h'.boot.trans h.boot
    | exact h'.power.trans h.power | exact h'.pins.trans h.pins | exact h'.pending.trans h.pending

theorem store_same (s : State) (r : Reg) (f : DWord → DWord) : SameElsewhere s (s.store r f) := by constructor <;> rfl
theorem wr_same (s : State) (r : Reg) (v : DWord) : SameElsewhere s (s.wr r v) := store_same _ _ _
theorem setFld_same (s : State) (r : Reg) (hi lo x : Nat) : SameElsewhere s (s.setFld r hi lo x) := store_same _ _ _
theorem setBit_same (s : State) (r : Reg) (i : Nat) (b : Bool) : SameElsewhere s (s.setBit r i b) := store_same _ _ _
theorem bump64_same (s : State) (r : Reg) : SameElsewhere s (s.bump64 r) := wr_same _ _ _
theorem bump_same (s : State) (r : Reg) (d : Nat) : SameElsewhere s (s.bump r d) := setFld_same _ _ _ _ _
theorem setJob_same (s : State) (j : Nat) (f : Job → Job) : SameElsewhere s (s.setJob j f) := by constructor <;> rfl
theorem setTile_same (s : State) (t : Nat) (f : Tile → Tile) : SameElsewhere s (s.setTile t f) := by constructor <;> rfl

theorem sendMsix_same (s : State) (v : Nat) : SameElsewhere s (s.sendMsix v) := by
  unfold State.sendMsix; split
  · exact .refl s
  · split <;> constructor <;> rfl

theorem event_same (s : State) (a b c : Reg) (i : Nat) : SameElsewhere s (s.event a b c i) := by
  unfold State.event
  simp only
  split
  · exact (setBit_same _ _ _ _).trans (sendMsix_same _ _)
  · exact setBit_same _ _ _ _

theorem onlyIf_same (s : State) (c : Bool) (f : State → State) (h : ∀ u, SameElsewhere u (f u)) : SameElsewhere s (s.onlyIf c f) := by
  unfold State.onlyIf; split
  · exact h s
  · exact .refl s

theorem draw_same (s : State) (n : Nat) : SameElsewhere s (s.draw n).2 := by constructor <;> rfl
theorem setDrbg_same (s : State) (k : Nat) (x : DrbgState) : SameElsewhere s (s.setDrbg k x) := by constructor <;> rfl
theorem moreCycles_same (s : State) (r : Reg) (n : Nat) : SameElsewhere s (s.moreCycles r n) := wr_same _ _ _
theorem addCycles_same (s : State) (r : Reg) : SameElsewhere s (s.addCycles r) := (draw_same s 4).trans (moreCycles_same _ _ _)

/-- Messages and events leave the jobs and the draws alone. -/
@[simp] theorem sendMsix_jobs (s : State) (v : Nat) : (s.sendMsix v).jobs = s.jobs := by
  unfold State.sendMsix; split; · rfl
  split <;> rfl
@[simp] theorem event_jobs (s : State) (a b c : Reg) (i : Nat) : (s.event a b c i).jobs = s.jobs := by
  unfold State.event; simp only; split <;> simp
@[simp] theorem sendMsix_tiles (s : State) (v : Nat) : (s.sendMsix v).tiles = s.tiles := by
  unfold State.sendMsix; split; · rfl
  split <;> rfl
@[simp] theorem event_tiles (s : State) (a b c : Reg) (i : Nat) : (s.event a b c i).tiles = s.tiles := by
  unfold State.event; simp only; split <;> simp
@[simp] theorem sendMsix_freeCtr (s : State) (v : Nat) : (s.sendMsix v).freeCtr = s.freeCtr := by
  unfold State.sendMsix; split; · rfl
  split <;> rfl
@[simp] theorem event_freeCtr (s : State) (a b c : Reg) (i : Nat) : (s.event a b c i).freeCtr = s.freeCtr := by
  unfold State.event; simp only; split <;> simp

/-! ### Jobs -/

/-- The job found under a number has that number. -/
theorem job?_id {s : State} {j : Nat} {x : Job} (h : s.job? j = some x) : x.id = j := by
  simpa using List.find?_some h

/-- A job read after a change of one job that keeps its number. -/
theorem job?_setJob (s : State) (j k : Nat) (f : Job → Job) (hf : ∀ x, x.id = j → (f x).id = j) :
    (s.setJob j f).job? k = if k = j then (s.job? j).map f else s.job? k := by
  unfold State.job? State.setJob
  simp only
  induction s.jobs with
  | nil => simp
  | cons a l ih =>
    rw [List.map_cons, List.find?_cons, List.find?_cons, List.find?_cons, ih]
    by_cases ha : a.id = j
    · by_cases hk : k = j
      · subst hk; simp [ha, hf a ha]
      · simp [ha, hf a ha, hk, Ne.symm hk]
    · by_cases hk : k = j
      · subst hk; simp [ha]
      · by_cases h2 : a.id = k <;> simp [ha, hk, h2]

/-- The job that was changed. -/
theorem job?_changed {s : State} {j : Nat} {x : Job} (h : s.job? j = some x) (f : Job → Job) (hf : ∀ y, (f y).id = y.id) :
    (s.setJob j f).job? j = some (f x) := by
  rw [job?_setJob s j j f (fun y hy => (hf y).trans hy), if_pos rfl, h]; rfl

/-! ### Draws -/

/-- What a served request to an instance leaves alone. -/
theorem request_got {s t : State} {k n : Nat} {bs : Bytes} {st : Bool} (h : s.request k n = .got bs st t) :
    SameElsewhere s t ∧ t.jobs = s.jobs ∧ t.tiles = s.tiles := by
  unfold State.request at h
  split at h
  · cases h
  · simp only at h
    split at h
    · cases h
    · injection h with h1 h2 h3
      subst h3
      refine ⟨?_, ?_, ?_⟩
      · refine SameElsewhere.trans ?_ (setDrbg_same _ _ _)
        refine SameElsewhere.trans ?_ (onlyIf_same _ _ _ fun u => event_same u _ _ _ _)
        refine SameElsewhere.trans ?_ (setBit_same _ _ _ _)
        refine SameElsewhere.trans ?_ (bump64_same _ _)
        exact (setFld_same _ _ _ _ _).trans (setFld_same _ _ _ _ _)
      · unfold State.setDrbg State.onlyIf State.rngEvt; simp only; split <;> simp
      · unfold State.setDrbg State.onlyIf State.rngEvt; simp only; split <;> simp

/-- A job's mark of a stretched draw. -/
def Job.stretch (b : Bool) (x : Job) : Job := { x with stretched := x.stretched || b }

/-- A served draw of a job: nothing but registers, messages, the draw counter and the job's own mark changes. -/
theorem jobDraw_got {s t : State} {j : Job} {pr : Bool} {n : Nat} {bs : Bytes} {st : Bool} (h : s.jobDraw j pr n = .got bs st t) :
    SameElsewhere s t ∧ t.tiles = s.tiles ∧ ∃ b, ∀ k, t.job? k = if k = j.id then (s.job? k).map (Job.stretch b) else s.job? k := by
  unfold State.jobDraw at h
  simp only at h
  split at h
  · cases h
  · split at h
    · cases h
    · split at h
      · rename_i bs' st' u hu
        injection h with h1 h2 h3
        subst h3
        obtain ⟨a, b, c⟩ := request_got hu
        refine ⟨a.trans (setJob_same _ _ _), c, st', fun k => ?_⟩
        have := job?_setJob u j.id k (Job.stretch st') (fun x hx => hx)
        have hj : ∀ i, u.job? i = s.job? i := fun i => by simp [State.job?, b]
        unfold Job.stretch at this ⊢
        rw [this]
        by_cases hk : k = j.id
        · simp [hk, hj]
        · simp [hk, hj]
      · cases h
      · cases h

/-- The draws of a job, after those it keeps, that are all served. -/
theorem drawMore_got {j : Job} {pq : Bool} {l : List (Bool × Nat)} : ∀ {s t : State} {kept bs : List Bytes},
    s.drawMore j pq kept l = .got bs t → SameElsewhere s t ∧ t.tiles = s.tiles ∧ bs.length = kept.length + l.length ∧
      ∃ b, ∀ k, t.job? k = if k = j.id then (s.job? k).map (Job.stretch b) else s.job? k := by
  induction l with
  | nil =>
    intro s t kept bs h
    injection h with h1 h2
    subst h1 h2
    refine ⟨.refl _, rfl, rfl, false, fun k => ?_⟩
    by_cases hk : k = j.id
    · rw [if_pos hk]; cases s.job? k <;> simp [Job.stretch]
    · simp [hk]
  | cons e l ih =>
    intro s t kept bs h
    obtain ⟨p, n⟩ := e
    simp only [State.drawMore] at h
    split at h
    · cases h
    · cases h
    · rename_i bs1 st1 u hu
      obtain ⟨a, b, c, d⟩ := jobDraw_got hu
      obtain ⟨a', b', c', d', e'⟩ := ih h
      refine ⟨a.trans a', b'.trans b, by simp [c']; omega, c || d', fun k => ?_⟩
      rw [e' k]
      by_cases hk : k = j.id
      · simp only [hk, if_true, d]
        cases s.job? j.id <;> simp [Job.stretch, Bool.or_assoc]
      · simp [hk, d]

/-- The draws of a job that are all served. -/
theorem drawAll_got {j : Job} {pq : Bool} {l : List (Bool × Nat)} {s t : State} {bs : List Bytes} (h : s.drawAll j l pq = .got bs t) :
    SameElsewhere s t ∧ t.tiles = s.tiles ∧ bs.length = max (j.kept pq).length l.length ∧
      ∃ b, ∀ k, t.job? k = if k = j.id then (s.job? k).map (Job.stretch b) else s.job? k := by
  obtain ⟨a, b, c, d⟩ := drawMore_got h
  exact ⟨a, b, by simp [c]; omega, d⟩

/-! ### Settling -/

theorem wipeTile_same (s : State) (t : Nat) : SameElsewhere s (s.wipeTile t) := by
  unfold State.wipeTile; simp only; split
  · exact ((setBit_same _ _ _ _).trans (setFld_same _ _ _ _ _)).trans (setTile_same _ _ _)
  · exact setTile_same _ _ _

@[simp] theorem wipeTile_jobs (s : State) (t : Nat) : (s.wipeTile t).jobs = s.jobs := by
  unfold State.wipeTile; simp only; split <;> rfl

/-- A tile that leaves its job: its cycles are counted and it is wiped; the jobs and all else outside the engines stand. -/
theorem freeTile_frame (s : State) (t : Nat) : SameElsewhere s (s.freeTile t) ∧ (s.freeTile t).jobs = s.jobs := by
  unfold State.freeTile
  simp only
  split
  · exact ⟨.refl s, rfl⟩
  · split
    · exact ⟨((addCycles_same _ _).trans (wipeTile_same _ _)).trans (setTile_same _ _ _), by
        simp [State.addCycles, State.moreCycles, State.draw]⟩
    · exact ⟨((moreCycles_same _ _ _).trans (wipeTile_same _ _)).trans (setTile_same _ _ _), by simp [State.moreCycles]⟩

/-- Freeing a job's shells counts and wipes tiles and touches nothing else. -/
theorem freeShells_frame (s : State) (j : Job) : SameElsewhere s (s.freeShells j) ∧ (s.freeShells j).jobs = s.jobs := by
  unfold State.freeShells State.each
  suffices h : ∀ (l : List Nat) (u : State), SameElsewhere u (l.foldl State.freeTile u) ∧ (l.foldl State.freeTile u).jobs = u.jobs from h _ _
  intro l
  induction l with
  | nil => intro u; exact ⟨.refl _, rfl⟩
  | cons a l ih =>
    intro u
    obtain ⟨h1, h2⟩ := ih (u.freeTile a)
    obtain ⟨h3, h4⟩ := freeTile_frame u a
    exact ⟨h3.trans h1, h2.trans h4⟩

/-- A settled job holds its result; other jobs and everything outside the engines stand. -/
theorem settle_spec (s : State) (x : Job) (r : Result) :
    SameElsewhere s (s.settle x r) ∧
      ∀ k, (s.settle x r).job? k =
        if k = x.id then (s.job? k).map (fun y => { y with phase := .computed, result := some r, drawWait := false, drawn := [] }) else s.job? k := by
  obtain ⟨h1, h2⟩ := freeShells_frame s x
  refine ⟨h1.trans (setJob_same _ _ _), fun k => ?_⟩
  unfold State.settle
  have hj : ∀ i, (s.freeShells x).job? i = s.job? i := fun i => by simp [State.job?, h2]
  rw [job?_setJob (s.freeShells x) x.id k (fun y => { y with phase := .computed, result := some r, drawWait := false, drawn := [] }) (fun y hy => hy)]
  by_cases hk : k = x.id
  · simp [hk, hj]
  · simp [hk, hj]

/-- What an operation does with a job whose checks and draws pass. -/
theorem runOp_computes {s s' : State} {j : Nat} {o : JobOp} {x : Job} {l : List Bytes} (hj : s.job? j = some x)
    (hc : s.computing o.opcode x = true) (hr : o.reject s x = none) (hd : s.drawAll x (o.draws x) = .got l s') :
    s.runOp j o = s'.settle x (o.result s' x l) := by
  simp [State.runOp, hj, hc, hr, hd]

/-- An operation whose checks fail settles the job with the check's result. -/
theorem runOp_rejects {s : State} {j : Nat} {o : JobOp} {x : Job} {r : Result} (hj : s.job? j = some x)
    (hc : s.computing o.opcode x = true) (hr : o.reject s x = some r) : s.runOp j o = s.settle x r := by
  simp [State.runOp, hj, hc, hr]

/-- An operation without a job to compute changes nothing. -/
theorem runOp_idle {s : State} {j : Nat} {o : JobOp} (h : ∀ x, s.job? j = some x → s.computing o.opcode x = false) : s.runOp j o = s := by
  unfold State.runOp
  cases hj : s.job? j with
  | none => rfl
  | some x => simp [h x hj]

/-- Every job command runs its operation. -/
theorem exec_jobRow {i : Instr} {j : Nat} {op : JobOp} (h : jobRow i = some (j, op)) (s : State) : exec i s = .next (s.runOp j op) := by
  cases i <;> simp only [jobRow, Option.some.injEq, Prod.mk.injEq, reduceCtorEq] at h <;> obtain ⟨rfl, rfl⟩ := h <;> rfl

end Sys2Proof.Machine
end

