-- ==== Sys2Proof/Laws/Memory.lean ====
section
/-! SUPPORT. Memory: every operation keeps the canonical form, a byte written is read back, and every other byte stands. -/

namespace Sys2Proof.Machine

/-! ### The canonical form -/

/-- The canonical form as a proposition about the list. -/
theorem Memory.wf_iff (m : List (Nat × Byte)) : Memory.wf m = true ↔ (∀ c ∈ m, c.2 ≠ 0) ∧ m.Pairwise (fun a b => a.1 < b.1) := by
  have h : ∀ m : List (Nat × Byte), (m.zip m.tail).all (fun p => decide (p.1.1 < p.2.1)) = true ↔ m.Pairwise (fun a b => a.1 < b.1) := by
    intro m
    induction m with
    | nil => simp
    | cons a l ih =>
      cases l with
      | nil => simp
      | cons b l =>
        simp only [List.tail_cons, List.zip_cons_cons, List.all_cons, Bool.and_eq_true, decide_eq_true_eq] at ih ⊢
        rw [List.pairwise_cons, ih]
        constructor
        · rintro ⟨hab, hp⟩
          refine ⟨fun c hc => ?_, hp⟩
          rcases List.mem_cons.1 hc with rfl | hc
          · exact hab
          · exact hab.trans ((List.pairwise_cons.1 hp).1 c hc)
        · exact fun ⟨ha, hp⟩ => ⟨ha b (by simp), hp⟩
  simp [Memory.wf, h]

/-- What a write of one byte can list. -/
theorem Memory.mem_put {a : Nat} {b : Byte} {m : List (Nat × Byte)} {e : Nat × Byte} (h : e ∈ Memory.put a b m) :
    e ∈ m ∨ (e = (a, b) ∧ b ≠ 0) := by
  induction m with
  | nil => unfold Memory.put at h; split at h <;> simp_all
  | cons x l ih =>
    obtain ⟨k, v⟩ := x
    unfold Memory.put at h
    split at h
    · rcases List.mem_cons.1 h with rfl | h
      · simp
      · rcases ih h with h | h
        · exact .inl (List.mem_cons_of_mem _ h)
        · exact .inr h
    · split at h <;> split at h <;> simp_all <;> tauto

/-- A write of one byte keeps the canonical form. -/
theorem Memory.put_wf {m : List (Nat × Byte)} (h : Memory.wf m = true) (a : Nat) (b : Byte) : Memory.wf (Memory.put a b m) = true := by
  rw [Memory.wf_iff] at h ⊢
  refine ⟨fun c hc => ?_, ?_⟩
  · rcases Memory.mem_put hc with hc | ⟨rfl, hb⟩
    · exact h.1 c hc
    · exact hb
  · have hp := h.2
    clear h
    induction m with
    | nil => unfold Memory.put; split <;> simp
    | cons x l ih =>
      obtain ⟨k, v⟩ := x
      obtain ⟨h1, h2⟩ := List.pairwise_cons.1 hp
      unfold Memory.put
      split
      · rename_i hk
        refine List.pairwise_cons.2 ⟨fun c hc => ?_, ih h2⟩
        rcases Memory.mem_put hc with hc | ⟨rfl, -⟩
        · exact h1 c hc
        · exact hk
      · split
        · rename_i hk
          split
          · exact h2
          · exact List.pairwise_cons.2 ⟨fun c hc => hk ▸ h1 c hc, h2⟩
        · split
          · exact hp
          · refine List.pairwise_cons.2 ⟨fun c hc => ?_, hp⟩
            rcases List.mem_cons.1 hc with rfl | hc
            · show a < k; omega
            · exact lt_trans (show a < k by omega) (h1 c hc)

/-- So does a write of a byte string. -/
theorem Memory.write_wf (bs : Bytes) : ∀ {m : List (Nat × Byte)} (a : Nat), Memory.wf m = true → Memory.wf (Memory.write a bs m) = true := by
  induction bs with
  | nil => exact fun _ h => h
  | cons b bs ih => exact fun a h => ih (a + 1) (Memory.put_wf h a b)

/-- So does the zeroing of a range. -/
theorem Memory.clear_wf {m : List (Nat × Byte)} (h : Memory.wf m = true) (lo hi : Nat) : Memory.wf (Memory.clear lo hi m) = true := by
  rw [Memory.wf_iff] at h ⊢
  exact ⟨fun c hc => h.1 c (List.mem_of_mem_filter hc), h.2.filter _⟩

/-! ### Bytes read -/

/-- An address below every listed one reads zero. -/
theorem Memory.get_below {m : List (Nat × Byte)} {a : Nat} (h : ∀ c ∈ m, a < c.1) : Memory.get a m = 0 := by
  induction m with
  | nil => rfl
  | cons x l ih =>
    have := h x (by simp)
    simp [Memory.get, Nat.ne_of_gt this, ih (fun c hc => h c (List.mem_cons_of_mem _ hc))]

/-- A byte read after a byte is written. -/
theorem Memory.get_put {m : List (Nat × Byte)} (h : Memory.wf m = true) (a a' : Nat) (b : Byte) :
    Memory.get a' (Memory.put a b m) = if a' = a then b else Memory.get a' m := by
  have hp := ((Memory.wf_iff m).1 h).2
  clear h
  induction m with
  | nil =>
    unfold Memory.put
    by_cases hb : b = 0
    · subst hb; by_cases ha : a' = a <;> simp [ha, Memory.get]
    · by_cases ha : a' = a
      · rw [if_neg hb]; simp [ha, Memory.get]
      · rw [if_neg hb]; simp [ha, Ne.symm ha, Memory.get]
  | cons x l ih =>
    obtain ⟨k, v⟩ := x
    obtain ⟨h1, h2⟩ := List.pairwise_cons.1 hp
    unfold Memory.put
    split
    · rename_i hk
      simp only [Memory.get, ih h2]
      by_cases hka : k = a'
      · have : a' ≠ a := by omega
        simp [hka, this]
      · simp [hka]
    · split
      · rename_i hk
        subst hk
        by_cases hb : b = 0
        · subst hb
          by_cases ha : a' = k
          · subst ha; simpa using Memory.get_below h1
          · simp [ha, Ne.symm ha, Memory.get]
        · by_cases ha : a' = k
          · rw [if_neg hb]; simp [ha, Memory.get]
          · rw [if_neg hb]; simp [ha, Ne.symm ha, Memory.get]
      · have hlt : a < k := by omega
        by_cases hb : b = 0
        · subst hb
          by_cases ha : a' = a
          · subst ha
            simp only [if_true]
            refine Memory.get_below fun c hc => ?_
            rcases List.mem_cons.1 hc with rfl | hc
            · exact hlt
            · exact hlt.trans (h1 c hc)
          · simp [ha]
        · by_cases ha : a' = a
          · rw [if_neg hb]; simp [ha, Memory.get]
          · rw [if_neg hb]; simp [ha, Ne.symm ha, Memory.get]

/-- A byte read after a byte string is written: the string's own in its range, else the byte that was there. -/
theorem Memory.get_write (bs : Bytes) : ∀ {m : List (Nat × Byte)} (a a' : Nat), Memory.wf m = true →
    Memory.get a' (Memory.write a bs m) = if a ≤ a' ∧ a' < a + bs.length then bs.getD (a' - a) 0 else Memory.get a' m := by
  induction bs with
  | nil => intro m a a' h; simp [Memory.write]
  | cons b bs ih =>
    intro m a a' h
    rw [Memory.write, ih (a + 1) a' (Memory.put_wf h a b), Memory.get_put h]
    rcases Nat.lt_trichotomy a' a with hlt | rfl | hgt
    · have h1 : ¬ (a + 1 ≤ a' ∧ a' < a + 1 + bs.length) := by omega
      have h2 : ¬ (a ≤ a' ∧ a' < a + (b :: bs).length) := by omega
      rw [if_neg h1, if_neg h2, if_neg (Nat.ne_of_lt hlt)]
    · simp
    · obtain ⟨d, rfl⟩ : ∃ d, a' = a + 1 + d := ⟨a' - (a + 1), by omega⟩
      have e : a + 1 + d - a = d + 1 := by omega
      simp only [Nat.add_sub_cancel_left, e, List.getD_cons_succ, List.length_cons]
      by_cases hd : d < bs.length
      · have h1 : a + 1 ≤ a + 1 + d ∧ a + 1 + d < a + 1 + bs.length := by omega
        have h2 : a ≤ a + 1 + d ∧ a + 1 + d < a + (bs.length + 1) := by omega
        simp [h1, h2]
      · have h1 : ¬ (a + 1 ≤ a + 1 + d ∧ a + 1 + d < a + 1 + bs.length) := by omega
        have h2 : ¬ (a ≤ a + 1 + d ∧ a + 1 + d < a + (bs.length + 1)) := by omega
        have h3 : a + 1 + d ≠ a := by omega
        rw [if_neg h1, if_neg h2, if_neg h3]

/-- What is written is read back. -/
theorem Memory.read_write (bs : Bytes) {m : List (Nat × Byte)} (a : Nat) (h : Memory.wf m = true) :
    Memory.read a bs.length (Memory.write a bs m) = bs := by
  apply List.ext_getElem
  · simp [Memory.read]
  · intro i h1 h2
    simp only [Memory.read, List.getElem_map, List.getElem_range, Memory.get_write bs a (a + i) h]
    simp [h2]

/-- A byte read after a range is zeroed. -/
theorem Memory.get_clear (m : List (Nat × Byte)) (lo hi a : Nat) :
    Memory.get a (Memory.clear lo hi m) = if lo ≤ a ∧ a < hi then 0 else Memory.get a m := by
  induction m with
  | nil => simp [Memory.clear, Memory.get]
  | cons x l ih =>
    obtain ⟨k, v⟩ := x
    unfold Memory.clear at ih ⊢
    by_cases hk : k < lo ∨ hi ≤ k
    · have : (decide (k < lo) || decide (hi ≤ k)) = true := by simpa using hk
      simp only [List.filter_cons, this, if_true, Memory.get, ih]
      by_cases hka : k = a
      · subst hka
        have : ¬ (lo ≤ k ∧ k < hi) := by omega
        simp [this]
      · simp [hka]
    · have : (decide (k < lo) || decide (hi ≤ k)) = false := by simpa [not_or] using hk
      simp only [List.filter_cons, this, Bool.false_eq_true, if_false, Memory.get, ih]
      by_cases hka : k = a
      · subst hka
        have : lo ≤ k ∧ k < hi := by omega
        simp [this]
      · simp [hka]

end Sys2Proof.Machine
end

