-- ==== Sys2Proof/Laws/Poly.lean ====
section
/-! SUPPORT. Work dealt out across a shell gives what one tile gives (R147). -/

namespace Sys2Proof.Laws

open Sys2Proof.Machine

/-- The elements of a list, taken by number. -/
theorem filterMap_range {α β : Type} (f : α → β) (us : List α) :
    (List.range us.length).filterMap (fun i => (us[i]?).map f) = us.map f := by
  induction us with
  | nil => rfl
  | cons a us ih => simp [List.range_succ_eq_map, List.filterMap_map, ih]

/-- The units of a tile. -/
theorem mem_dealt {α : Type} {s t : Nat} {us : List α} {u : α} : u ∈ dealt s t us ↔ ∃ i, us[i]? = some u ∧ i % s = t := by
  simp [dealt, List.mem_zipIdx_iff_getElem?]

/-- A dealt list of work units has the results of the list, in its order. -/
theorem dealMap_eq {α β : Type} (s : Nat) (f : α → β) (us : List α) (hs : 0 < s) : dealMap s f us = us.map f := by
  rw [← filterMap_range f us]
  refine List.filterMap_congr fun i hi => ?_
  have hi : i < us.length := by simpa using hi
  cases h : List.find? (fun r : β × Nat => r.2 == i) _ with
  | none =>
    exact absurd (beq_self_eq_true i) (List.find?_eq_none.mp h (f us[i], i) (List.mem_flatMap.mpr ⟨i % s, by simpa using Nat.mod_lt i hs,
      List.mem_map.mpr ⟨(us[i], i), mem_dealt.mpr ⟨i, by simp [hi], rfl⟩, rfl⟩⟩))
  | some r =>
    obtain ⟨t, -, hm⟩ := List.mem_flatMap.mp (List.mem_of_find?_eq_some h)
    obtain ⟨⟨u, k⟩, hu, rfl⟩ := List.mem_map.mp hm
    obtain ⟨n, hn, -⟩ := mem_dealt.mp hu
    have hk : k = i := by simpa using List.find?_some h
    rw [List.getElem?_zipIdx] at hn
    cases hg : us[n]? with
    | none => simp [hg] at hn
    | some v => simp [hg] at hn; obtain ⟨rfl, rfl⟩ := hn; subst hk; simp [hg]

end Sys2Proof.Laws
end

