-- ==== Sys2Proof/WellFormed.lean ====
section
/-! DEFINITION. Well-formed commands: every number names an instance the device has, and every length and field has the
width the spec gives it (Tables 01-2, 01-5, 05-4). -/

namespace Sys2Proof

/-- Numbers of the device's instances (Tables 01-1, 02-1, 04-1). -/
def slices : Nat := 512
def queues : Nat := 32768
def tiles : Nat := 96

/-- A register access is 1 B to 16 B wide, and only one of its register's own width has an effect (R5). -/
def accessWidth (w : Nat) : Bool := w == 8 || w == 16 || w == 32 || w == 64 || w == 128

/-- A unit the device has. -/
def JobUnit.wf : JobUnit → Bool
  | .shell s => decide (s < 96)
  | .bne c f => decide (c < 8) && decide (f < 2)
  | .hash c => decide (c < 128)
  | .sc => true

/-- The fields of Table 05-4 within their widths. -/
def TileFields.wf (f : TileFields) : Bool :=
  decide (f.w < 4) && decide (f.mod < 16) && decide (f.d < 32) && decide (f.a < 32) && decide (f.b < 32) && decide (f.c < 32)

/-- A claimant the device has. -/
def Claimant.wf : Claimant → Bool
  | .slice n => decide (n < slices)
  | _ => true

/-- An access to a scratch bank through BAR4 stays within a view and within 4 KiB (R366). -/
def MemAccess.wf (off : Nat) : MemAccess → Bool
  | .read n => decide (off < 2 ^ 26) && decide (off % 4096 + n ≤ 4096)
  | .write bs => decide (off < 2 ^ 26) && decide (off % 4096 + bs.length ≤ 4096)

/-- The number `t` of a tile instruction and its fields. -/
def tileWf (t : Nat) (f : TileFields) : Bool := decide (t < tiles) && f.wf

/-- A command that names only what the device has. -/
def Instr.wf : Instr → Bool
  | .registerWrite b off w _ | .rcRead b off w _ =>
    accessWidth w && (decide (b ≠ Bus.bar4) || decide (w ≤ 64)) && decide (off < 2 ^ 28)
  | .sqDoorbell n i w _ | .cqDoorbell n i w _ => decide (n < slices) && decide (i < 64) && accessWidth w
  | .descriptorFetch q _ _ | .modTimeExpiry q | .queueEnable q _ | .queueDisable q _ | .qmgQRestart q _ _ => decide (q < queues)
  | .jobDispatch p u _ => decide (p < 32) && u.wf
  | .slmPgQrestart n _ _ | .sliceEnable n _ | .sliceQuiesce n _ | .sliceUnquiesce n _ | .sliceReset n _ | .sliceDisable n _
  | .sliceResetComplete n | .bneCompatSet n _ | .vecCountWrite n _ => decide (n < slices)
  | .poolHoldWrite p _ => decide (p < 32)
  | .watchdogExpiry t | .ringTimeout t | .tileIdleScrub t _ | .sparePeriodicBist t | .tileBistComplete t _
  | .maskReseedRequest t | .maskBudgetSpent t | .tilDbgAttach t _ | .tilDbgHalt t _ | .tilDbgResume t | .tilDbgStep t
  | .tilDbgAbandon t | .fabTileBringUp t | .fabTileRetire t | .ringTransferArrival t _ | .dmainComplete t _ | .randComplete t =>
    decide (t < tiles)
  | .spareJoin t sh _ => decide (t < tiles) && decide (sh < 96)
  | .islandFreqWrite n fq => decide (n < 8) && decide (fq < 4)
  | .islandGate n | .islandPowerOff n | .islandUngate n | .islandPowerOn n => decide (n < 8)
  | .nop t f | .br t f | .endKernel t f | .wait t f | .csrr t f | .csrw t f | .sadd t f | .ssub t f | .smul t f | .sand t f
  | .sor t f | .sxor t f | .sshl t f | .sshr t f | .saddi t f | .sli t f | .slh t f | .scmp t f | .vadd t f | .vsub t f
  | .vaddm t f | .vsubm t f | .vmulm t f | .vand t f | .vor t f | .vxor t f | .vshl t f | .vshr t f | .vmulh t f | .vclmul t f
  | .vbcast t f | .vext t f | .vperm t f | .padd t f | .psub t f | .paddm t f | .psubm t f | .pmulm t f | .pmacm t f
  | .pand t f | .pxor t f | .pshl t f | .pshr t f | .pmulh t f | .pclmul t f | .pmov t f | .mrefr t f | .mskp t f | .ntt t f
  | .intt t f | .cbd t f | .sampu t f | .sampeta t f | .sib t f | .comp t f | .decompr t f | .decomp t f | .p2r t f
  | .mkhint t f | .usehint t f | .normchk t f | .pack t f | .unpack t f | .conv t f | .lds t f | .sts t f | .ldv t f
  | .stv t f | .ldp t f | .stp t f | .ldpx t f | .spinit t f | .spabs t f | .spfin t f | .spsqz t f | .rsend t f | .rrecv t f
  | .dmain t f | .rand t f => tileWf t f
  | .hsfCoreMachineCheck k | .hsfCoreBistComplete k _ | .hsfCoreBringUp k | .hsfCoreRetire k => decide (k < 128)
  | .slhdsaSign _ ue => ue.all (fun i => decide (i < 22))
  | .counterWriteAck c | .cellFreeAck c | .traversalRebuildDone c => decide (c < 1024)
  | .rdeClaim c who | .rdeRelease c who | .rdeClear c who | .rdeSetupWrite c who _ _ | .rdeFinish c who _ =>
    decide (c < 16) && who.wf
  | .rdeData c who w _ => decide (c < 16) && who.wf && accessWidth w
  | .rdeFinishDone c | .rdeBlockProcessed c => decide (c < 16)
  | .bneMachineCheck c cause => decide (c < 8) && decide (cause ∈ [0, 4, 5, 7, 10])
  | .catchPoint c | .bneResume c | .bneCoreBistComplete c _ | .bneCoreBringUp c | .bneCoreRetire c =>
    decide (c < 8)
  | .mbxClear ch => decide (ch < 2)
  | .tamperAlarm k _ _ | .sourceInactive k => decide (k < 18)
  | .backupAlarm k _ => decide (k < 8)
  | .healthTestFailure cell test => decide (cell < 4) && decide (test < 4)
  | .conditionedBlock bs => bs.length == 128
  | .monitorSample (.cell k _) => decide (k < 4)
  | .drbgReseedRequest k | .drbgAtLimit k => decide (k < 16)
  | .bankHandover b _ | .bankHandoverDrained b | .bankWipeDone b => decide (b < 16)
  | .bar4NormalAccess off acc _ | .apertureAccess off acc _ => acc.wf off
  | .setAliasWrite off w _ | .clearAliasWrite off w _ => decide (off < 2 ^ 26) && accessWidth w
  | .fetchAndSet who a _ | .fetchAndClear who a _ => decide (who < 16) && decide (a + 8 ≤ 2 ^ 26)
  | .ddrMachineCheck cause => decide (1 ≤ cause) && decide (cause ≤ 4)
  | .crossingQuietTimeout dm _ => decide (dm < 18)
  | .rstBlock kind idx => decide (kind < 8) && decide (idx < 128)
  | _ => true

end Sys2Proof
end

