-- ==== Sys2Proof/Tests/Slice0.lean ====
section
/-! SUPPORT. Checks of the well-formedness conditions, states and operands that meet the hypotheses of the statements, and small tests
of single commands. Each `witness_<Name>` is for the statement of that name; expected results are worked out from the spec's tables. -/

namespace Sys2Proof.Tests

open Sys2Proof Sys2Proof.Machine

/-! ### Helpers -/

/-- The command gives a next state of which `p` holds. -/
def after (c : Instr) (s : State) (p : State → Bool) : Bool :=
  match exec c s with
  | .next t => p t
  | _ => false

/-- Registers stored, one after another. -/
def put (s : State) (l : List (Reg × DWord)) : State := l.foldl (fun s e => s.wr e.1 e.2) s

/-- A device in SERVICE: out of reset, link up with bus master on, every crossing open. -/
def svc : State :=
  { State.reset with regs := [(.genState, 1), (.genXingQuiet, 0), (.rstCause, 1), (.pwrRails, 0x3F)]
                     boot := { State.reset.boot with held := false }
                     pcie := { State.reset.pcie with dlActive := true, busMaster := true } }

/-- The device in SERVICE with every DRBG instance READY, the source RUNNING and every island powered. -/
def rnd : State :=
  { svc with regs := svc.regs ++ (.rngStatus, 2) :: (List.range 8).map (fun n => (Reg.fabIslStat n, 0)) ++ (List.range 16).map (fun k => (Reg.rngDrbStat k, 1)) }

/-- Job 7 of slice 5 with its inputs in a unit: opcode and PARAM. -/
def job (op param : Nat) : Job where
  id := 7
  slice := 5
  queue := 320
  index := 0
  desc := leBytes 2 op ++ zeros 10 ++ leBytes 4 param ++ zeros 112
  gather := []
  phase := .gathered
  unit := some (.bne 2 0)
  pool := some 0
  failures := 0
  retried := false
  suspect := false
  ahead := false
  stretched := false
  yielded := false
  catches := 0
  journal := false
  slot := some 9
  attr := 1
  key := []
  attr2 := 0
  key2 := []
  sigIndex := none
  fillNo := 0
  memo := []
  ctrWait := false
  prGranted := false
  drawWait := false
  pqWait := false
  drawn := []
  gang := []
  main := []
  in2 := []
  in3 := []
  ctx := []
  result := none
  trav := []
  cellGen := 0
  epoch := none
  classical := ⟨.waiting, none, none, none⟩
  pq := ⟨.waiting, none, none, none⟩

/-- The device with one job in flight. -/
def withJob (x : Job) : State := { rnd with jobs := [x] }

/-! ### Well-formed commands -/

theorem wf_accepts : ([Instr.registerWrite .bar0 0x100000 64 0, .sqDoorbell 511 63 64 0, .queueEnable 32767 0, .jobDispatch 31 (.hash 127) .key2,
    .slhdsaSign 3 [0, 21],
    .spareJoin 95 95 true, .islandFreqWrite 7 3, .nop 95 ⟨3, 15, 31, 31, 31, 31, 0⟩, .counterWriteAck 1023, .rdeData 15 (.slice 511) 64 0,
    .bneResume 7, .mbxClear 1, .tamperAlarm 17 0 false, .backupAlarm 7 0, .healthTestFailure 3 3, .bankWipeDone 15, .ddrMachineCheck 4,
    .rstBlock 7 127, .mlkemKeygen 7]).all Instr.wf = true := by decide
theorem wf_refuses_widths : ([Instr.registerWrite .bar0 0 12 0, .rcRead .bar0 0 0 0, .registerWrite .bar4 0 128 0, .sqDoorbell 0 0 48 0, .cqDoorbell 0 0 256 0,
    .rdeData 0 .sc 24 0, .setAliasWrite 0 9 0]).any Instr.wf = false := by decide
theorem wf_refuses_offsets : ([Instr.registerWrite .bar0 (2 ^ 28) 32 0, .rcRead .bar4 (2 ^ 28) 64 0, .bar4NormalAccess (2 ^ 26) (.read 4) .clean,
    .apertureAccess 4090 (.read 8) .clean, .clearAliasWrite (2 ^ 26) 64 0, .fetchAndSet 0 (2 ^ 26 - 7) 0, .fetchAndClear 16 0 0]).any Instr.wf
    = false := by decide
theorem wf_refuses_queues : ([Instr.sqDoorbell 512 0 64 0, .cqDoorbell 0 64 64 0, .queueEnable 32768 0, .queueDisable 32768 0, .qmgQRestart 32768 0 [],
    .modTimeExpiry 32768, .sliceEnable 512 1, .sliceReset 512 4, .slmPgQrestart 512 0 [], .vecCountWrite 512 0]).any Instr.wf = false := by decide
theorem wf_refuses_units : ([Instr.jobDispatch 32 .sc .none, .jobDispatch 0 (.shell 96) .none, .jobDispatch 0 (.bne 8 0) .none, .jobDispatch 0 (.bne 0 2) .none,
    .jobDispatch 0 (.hash 128) .none, .poolHoldWrite 32 0, .watchdogExpiry 96, .spareJoin 96 0 true, .spareJoin 0 96 true, .islandFreqWrite 8 0,
    .islandFreqWrite 0 4, .islandGate 8, .hsfCoreRetire 128, .catchPoint 8, .bneMachineCheck 8 0, .bneMachineCheck 0 1]).any Instr.wf = false := by decide
theorem wf_refuses_tile_fields : ([Instr.nop 96 ⟨0, 0, 0, 0, 0, 0, 0⟩, .vadd 0 ⟨4, 0, 0, 0, 0, 0, 0⟩, .vadd 0 ⟨0, 16, 0, 0, 0, 0, 0⟩,
    .vadd 0 ⟨0, 0, 32, 0, 0, 0, 0⟩, .vadd 0 ⟨0, 0, 0, 32, 0, 0, 0⟩, .vadd 0 ⟨0, 0, 0, 0, 32, 0, 0⟩, .vadd 0 ⟨0, 0, 0, 0, 0, 32, 0⟩]).any Instr.wf
    = false := by decide
theorem wf_refuses_others : ([Instr.counterWriteAck 1024, .slhdsaSign 0 [22], .conditionedBlock (zeros 64), .monitorSample (.cell 4 []), .rdeClaim 16 .sc, .rdeClaim 0 (.slice 512), .rdeFinishDone 16, .mbxClear 2,
    .tamperAlarm 18 0 false, .sourceInactive 18, .backupAlarm 8 0, .healthTestFailure 4 0, .healthTestFailure 0 4, .drbgReseedRequest 16,
    .drbgAtLimit 16, .bankHandoverDrained 16, .ddrMachineCheck 0, .ddrMachineCheck 5, .rstBlock 8 0, .rstBlock 0 128]).any Instr.wf
    = false := by decide

/-! ### The queue, the tick and reset -/

theorem witness_IdleTickCountsTime : svc.pending = [] ∧ svc.power.backup = false ∧ svc.power.io = true ∧
    { svc with power := { svc.power with backup := true } }.pending = [] := by decide
/-- Tile 95 in the stages of its block reset. -/
def blockSvc (phase : DWord) : State := { put svc [(.rstBlockStat, phase * 16)] with boot := { svc.boot with block := some (1, 95) } }
theorem witness_IdleTickCountsTime_block : ((blockSvc 1).pending = [] ∧ (blockSvc 1).boot.block = some (1, 95) ∧ (blockSvc 1).blockPhase = 1 ∧
    95 ∈ (blockSvc 1).blockTiles 1 95) ∧ (blockSvc 2).blockPhase = 2 ∧ (blockSvc 2).power.backup = false ∧ (blockSvc 2).power.io = true ∧
    svc.boot.block = none := by decide
theorem test_step_takes_the_front : step { svc with pending := [.sliceEnable 0 1, .nop 0 ⟨0, 0, 0, 0, 0, 0, 0⟩] } =
    exec (.sliceEnable 0 1) { svc with pending := [.nop 0 ⟨0, 0, 0, 0, 0, 0, 0⟩] } := rfl
theorem test_tick : (match step svc with
    | .next t => t.rd .genTime == 1 && t.pending == []
    | _ => false) = true := by decide
theorem test_no_row_has_bits : decodeTableWord 32 0 = none ∧ (svc.withFetchWord 32 0).pending = [] := by decide
theorem witness_ResetState : State.reset.rd .genXingQuiet = Reg.resetVal .genXingQuiet ∧ State.reset.rd .rstCause = 1 ∧
    (Reg.genXingQuiet ≠ .rstCause) := by decide

/-! ### Jobs -/

/-- MODMUL of 2 · 2 modulo 5 on eight-byte operands. -/
def jMul : Job := { job 0x0B01 0 with main := leBytes 8 2, in2 := leBytes 8 2, in3 := leBytes 8 5 }
/-- MODMUL of 0, which the range check refuses. -/
def jZero : Job := { job 0x0B01 0 with main := leBytes 8 0, in2 := leBytes 8 2, in3 := leBytes 8 5 }
def jExp : Job := { job 0x0B02 0 with main := leBytes 8 4, in2 := leBytes 8 1, in3 := leBytes 8 5 }
def jInv : Job := { job 0x0B03 0 with main := leBytes 8 2, in3 := leBytes 8 3 }
def jNoInv : Job := { job 0x0B03 0 with main := leBytes 8 2, in3 := leBytes 8 4 }

theorem witness_JobCommandComputesItsResult : jobRow (.modmul 7) = some (7, modmul) ∧ (withJob jMul).job? 7 = some jMul ∧
    (withJob jMul).computing modmul.opcode jMul = true ∧ modmul.reject (withJob jMul) jMul = none ∧
    (withJob jMul).drawAll jMul (modmul.draws jMul) = .got [] (withJob jMul) := ⟨rfl, by decide, by decide, by decide, rfl⟩
theorem witness_JobCommandComputesItsResult_draws : jobRow (.mlkemKeygen 7) = some (7, mlkemKeygen) ∧
    (withJob (job 0x0101 2)).computing mlkemKeygen.opcode (job 0x0101 2) = true ∧
    ∃ l t, (withJob (job 0x0101 2)).drawAll (job 0x0101 2) (mlkemKeygen.draws (job 0x0101 2)) = .got l t := ⟨rfl, by decide, _, _, rfl⟩
theorem witness_JobCommandTurnedAway : jobRow (.modmul 7) = some (7, modmul) ∧ (withJob jZero).computing modmul.opcode jZero = true ∧
    modmul.reject (withJob jZero) jZero = some (.fail 0x10 (1 + 256)) ∧ (withJob jMul).job? 8 = none := ⟨rfl, by decide, by decide, by decide⟩
theorem witness_RawArithmeticIsRight :
    ((withJob jMul).computing 0x0B01 jMul = true ∧ (withJob jMul).rawA jMul = 2 ∧ (withJob jMul).rawB jMul = 2 ∧ (withJob jMul).rawM jMul = 5) ∧
    ((withJob jExp).computing 0x0B02 jExp = true ∧ (withJob jExp).rawA jExp = 4 ∧ (withJob jExp).rawB jExp = 1) ∧
    ((withJob jInv).computing 0x0B03 jInv = true ∧ invMod ((withJob jInv).rawA jInv) ((withJob jInv).rawM jInv) = some 2) ∧
    (withJob jNoInv).computing 0x0B03 jNoInv = true ∧ invMod ((withJob jNoInv).rawA jNoInv) ((withJob jNoInv).rawM jNoInv) = none := by
  decide
theorem test_modmul : after (.modmul 7) (withJob jMul) (fun t => t.jobs.map (·.result) == [some ⟨0, 0, leBytes 8 4, .none⟩]) = true := by decide
theorem test_modinv : after (.modinv 7) (withJob jInv) (fun t => t.jobs.map (·.result) == [some ⟨0, 0, leBytes 8 2, .none⟩]) = true := by decide
theorem test_modinv_none : after (.modinv 7) (withJob jNoInv) (fun t => t.jobs.map (·.result) == [some ⟨0x10, 0x701, [], .none⟩]) = true := by
  decide

/-- X25519 derivation on zero strings, and a tag over nothing. -/
def jDerive : Job := { job 0x0906 1 with key := zeros 32, in2 := zeros 32 }
def jMac : Job := { job 0x0C03 0x200 with key := zeros 32, main := [] }
def jMacVerify : Job := { job 0x0C04 0x200 with key := zeros 32, main := [], in3 := zeros 32 }

theorem witness_SecretAndMacResults : (withJob (job 0x0103 1)).computing 0x0103 (job 0x0103 1) = true ∧
    (withJob (job 0x0603 1)).computing 0x0603 (job 0x0603 1) = true ∧ (withJob jDerive).computing 0x0906 jDerive = true ∧
    (∃ l t, (withJob jDerive).drawAll jDerive [(true, 32)] = .got l t) ∧ (withJob jMac).computing 0x0C03 jMac = true ∧
    (withJob jMacVerify).computing 0x0C04 jMacVerify = true :=
  ⟨by decide, by decide, by decide, ⟨_, _, rfl⟩, by decide, by decide⟩

theorem witness_ShellsComputeAsOneTile : firstAttempt (fun k => if k = 3 then some [1] else none) 8 0 = some [1] ∧ 0 < 6 := by decide
theorem test_lanes : laneRounds (fun k => if k = 3 ∨ k = 4 then some [BitVec.ofNat 8 k] else none) 2 8 0 = some [3] := by decide

/-- RSA with n = 33, e = 3, d = 7, whose representative 2 comes back from 8. -/
def rsaToy : Bytes := rsaMat ⟨33, 3, 3, 11, 1, 7, 2⟩
/-- The same with a wrong exponent, whose results fail the check. -/
def rsaWrong : Bytes := rsaMat ⟨33, 3, 3, 11, 1, 3, 2⟩
def jRsa (op : Nat) (key main : Bytes) : Job := { job op 0x200 with key := key, main := main }

theorem witness_RsaSecretOperationsComplete :
    ((withJob (jRsa 0x0A08 rsaToy [2])).computing 0x0A08 (jRsa 0x0A08 rsaToy [2]) = true ∧
      (withJob (jRsa 0x0A05 rsaToy [2])).computing 0x0A05 (jRsa 0x0A05 rsaToy [2]) = true ∧ repFail 2 (rsaKey rsaToy).n = none ∧
      (∃ l t, (withJob (jRsa 0x0A08 rsaToy [2])).drawAll (jRsa 0x0A08 rsaToy [2]) [(true, 32)] = .got l t) ∧
      powMod ((rsaKey rsaToy).crt 2) (rsaKey rsaToy).e (rsaKey rsaToy).n = 2) ∧
    ((jRsa 0x0A08 rsaWrong [2]).core = some 2 ∧ repFail 2 (rsaKey rsaWrong).n = none ∧
      powMod ((rsaKey rsaWrong).crt 2) (rsaKey rsaWrong).e (rsaKey rsaWrong).n ≠ 2) :=
  ⟨⟨by decide, by decide, by decide, ⟨_, _, rfl⟩, by decide⟩, by decide, by decide, by decide⟩

def jSlh : Job := { job 0x0302 2 with key := zeros 64, main := [1] }
/-- A LOAD of one word, and the resident quota that lets it in. -/
def jLoad : Job := { job 0x0B04 0 with main := leBytes 8 3 }
def loadState : State := put (withJob jLoad) [(.bneResQuota, 64)]
/-- A FREE of handle 0x00010080: entry 0 of core 2 in generation 1. -/
def jFree : Job := { job 0x0B05 0 with desc := (job 0x0B05 0).desc.take 96 ++ leBytes 4 0x10080 ++ zeros 28 }
def freeState : State := { withJob jFree with bcores := [(2, ⟨none, none, [(0, ⟨1, some 5, leBytes 8 3⟩)], false, false⟩)] }
def jDestroy : Job := { job 0x0D05 0 with attr := 1 }
/-- DESTROY of slot 9, a stateful key of cell 0. -/
def jDestroyCell : Job := { job 0x0D05 0 with attr := 0x11 }
def destroyState : State :=
  { withJob jDestroyCell with slots := [(9, ⟨[1], 0x11, ~~~0x11, 0, none⟩)], cells := [(0, ⟨8, 0, .used, some 8, 16, none, false, [], false, some 8⟩)] }

/-- The same SIGN without a draw, of a key with a memo of one layer, and the entry of the first tree on its path. -/
def jSlhMemo : Job := { job 0x0302 2 with key := zeros 64, main := [1], attr := 0x0400000000000001, desc := leBytes 2 0x0302 ++ [16] ++ zeros 9 ++ leBytes 4 2 ++ zeros 112 }
def onPath : MemoKey := (memoPath jSlhMemo (optRand jSlhMemo [])).headD ⟨0, 0, 0⟩
def memoState : State := { withJob jSlhMemo with memo := [(onPath, [])], slots := [(9, ⟨zeros 64, 0x11, ~~~0x11, 0, none⟩)] }
theorem onPath_mem : onPath ∈ memoPath jSlhMemo (optRand jSlhMemo []) := by
  have h : (memoPath jSlhMemo (optRand jSlhMemo [])).length = 1 := by decide
  unfold onPath
  cases e : memoPath jSlhMemo (optRand jSlhMemo []) with
  | nil => simp [e] at h
  | cons a l => simp

theorem onPath_held : (onPath, []) ∈ memoState.memoOf jSlhMemo := by
  have h : onPath.slot = 9 := by decide
  have hk : memoState.holdsKey jSlhMemo = true := by decide
  have hm : memoState.memo = [(onPath, [])] := rfl
  have hj : jSlhMemo.memo = [] := rfl
  have hs : jSlhMemo.slot.getD 0 = 9 := rfl
  simp [State.memoOf, hk, hm, hj, hs, h]
theorem witness_SigningLoadingDestroying :
    ((withJob jSlh).computing 0x0302 jSlh = true ∧ (∃ l t, (withJob jSlh).drawAll jSlh (slhdsaSign.draws jSlh) = .got l t) ∧ attrMemo jSlh.attr = 0) ∧
    (memoState.computing 0x0302 jSlhMemo = true ∧ memoState.drawAll jSlhMemo (slhdsaSign.draws jSlhMemo) = .got [] memoState ∧
      (onPath, []) ∈ memoState.memoOf jSlhMemo ∧ onPath ∈ memoPath jSlhMemo (optRand jSlhMemo []) ∧ onPath.layer ∈ [onPath.layer] ∧ jSlhMemo.failures < 2 ∧ memoState.leaving = false) ∧
    (loadState.computing 0x0B04 jLoad = true ∧ loadState.rawA jLoad ≠ 0 ∧ jLoad.core = some 2 ∧ loadState.loadEntry 5 2 8 = some 0) ∧
    (freeState.computing 0x0B05 jFree = true ∧ freeState.handleVal 5 (leAt jFree.desc 96 4) = some (leBytes 8 3)) ∧
    ((withJob jDestroy).computing 0x0D05 jDestroy = true ∧ (withJob jDestroy).lastOfCell 9 = false) ∧
    destroyState.computing 0x0D05 jDestroyCell = true ∧ destroyState.lastOfCell 9 = true :=
  ⟨⟨by decide, ⟨_, _, rfl⟩, by decide⟩, ⟨by decide, rfl, onPath_held, onPath_mem, by simp, by decide, by decide⟩, by decide, by decide, by decide, by decide, by decide⟩
theorem test_load : after (.loadOperand 7) loadState (fun t => t.jobs.map (·.result) == [some ⟨0, 0x10080, [], .none⟩]) = true := by decide
theorem test_free : after (.freeHandle 7) freeState (fun t => t.handleVal 5 0x10080 == none) = true := by decide
theorem test_destroy_waits : after (.destroy 7) destroyState (fun t => (t.cell 0).freeing && t.jobs.map (·.phase) == [.computed]) = true := by
  decide

/-- LMS with one level of height 5 (types of RFC 8554), whose capacity is 32. -/
def jLms : Job := { job 0x0401 1 with desc := leBytes 2 0x0401 ++ zeros 10 ++ leBytes 4 1 ++ zeros 80 ++ [1, 5, 4] ++ zeros 29 }
def jXmss : Job := job 0x0501 1
def jLmsSign : Job := { job 0x0402 1 with attr := 0x0400000000000011, sigIndex := some 3 }
def jXmssSign : Job := { job 0x0502 1 with attr := 0x0500000000000011, sigIndex := some 3 }
/-- Cell 1023 with NEXT 512 = LIMIT and a write of 1024 in flight; cell 0 whose freeing write is due; cell 1 being rebuilt. -/
def cellState : State := { rnd with cells := [(0, ⟨8, 0xFFFE, .used, some 8, 16, none, true, [], false, some 8⟩),
  (1, ⟨8, 2, .used, some 4, 16, none, false, [], true, none⟩), (2, ⟨8, 2, .used, some 4, 16, none, false, [], true, none⟩),
  (1023, ⟨512, 0, .used, some 512, 4096, some 1024, false, [], false, some 512⟩)]
                                    slots := [(9, ⟨zeros 4, 0x0001000005000011, ~~~0x0001000005000011, 0, none⟩)] }
/-- The KEYGEN of cell 1023 that waits for its reservation. -/
def jNewCell : Job := { jLms with sigIndex := some 1023, result := some ⟨0, 0, [], .none⟩ }

theorem witness_StatefulKeysUseTheirCells :
    (jLms.newCell = none ∧ (withJob jLms).freeCell = some 0 ∧ (withJob jLms).computing 0x0401 jLms = true ∧
      (withJob jXmss).computing 0x0501 jXmss = true ∧ (∃ l t, (withJob jLms).drawAll jLms [(true, statefulDraw jLms)] = .got l t) ∧ jXmss.newCell = none ∧ (withJob jXmss).freeCell = some 0 ∧
      ∃ l t, (withJob jXmss).drawAll jXmss [(true, statefulDraw jXmss)] = .got l t) ∧
    ((withJob jLmsSign).computing 0x0402 jLmsSign = true ∧ (withJob jXmssSign).computing 0x0502 jXmssSign = true) ∧
    ((cellState.cell 1023).writing = some 1024 ∧ cellState.tamper.dip = none ∧ (cellState.mbx.pressed = false ∧ cellState.transition = none) ∧ cellState.tamper.slotsDue = [] ∧ (cellState.cell 1023).waiters = [] ∧ cellState.jobs = [] ∧
      (cellState.cell 1023).next = some 512 ∧ jNewCell.newCell = some 1023 ∧ jNewCell.phase = .gathered ∧ jNewCell.result.isSome = true) ∧
    (cellState.cell 0).freeing = true ∧ (cellState.cell 1).rebuilding = true ∧ (cellState.cell 1).waiters = [] ∧ cellState.cellKey 1 ≠ none ∧
      (cellState.cell 1).next = some 4 ∧ (cellState.cell 2).rebuilding = true ∧ (cellState.cell 2).waiters = [] ∧ cellState.cellKey 2 = none :=
  ⟨⟨by decide, by decide +kernel, by decide, by decide, ⟨_, _, rfl⟩, by decide, by decide +kernel, ⟨_, _, rfl⟩⟩, by decide, by decide, by decide⟩
theorem test_counter_ack : after (.counterWriteAck 1023) cellState (fun t => (t.cell 1023).limit == 1024 && (t.cell 1023).writing == none) = true := by
  decide
theorem test_cell_retires : after (.cellFreeAck 0) cellState (fun t => decide ((t.cell 0).state = .retired) && (t.cell 0).gen == 0xFFFF) = true := by
  decide
theorem test_lms_takes_a_cell : after (.lmsKeygen 7) (withJob jLms) (fun t => (t.cell 0).writing == some 32 && (t.cell 0).next == some 0) = true := by
  decide +kernel

/-- A rig with one pool of each kind: ML-KEM on shells, X25519 on the BNE, hashing and hybrid on a partition. -/
def rig0 : Rig where
  signed := []
  flags := 0
  stepping := 0
  version := 1
  svn := 0
  pos := 0
  minDdr := 0
  base := []
  mcLimit := 4
  memoBase := 0
  memoSize := 0
  islands := []
  roles := []
  shells := []
  pools := [⟨0, 1, 1, 0, 0, 0, 0, 7⟩, ⟨1, 2, 1, 0, 0, 0, 1, 2⟩, ⟨2, 3, 1, 0, 0, 0, 2, 0⟩]
  ksets := [⟨2, 3, 0, [⟨0x1001, 1, 1, 100, 0, 1, []⟩, ⟨0x0C01, 0, 1, 100, 0, 1, []⟩], []⟩]
  parts := [⟨0, 2, 0x30, 1, 0⟩]
  groups := []
  slices := []
  banks := []
  drbEnable := 0xFFFF
  drbScOnly := 0
  raise := []

def half (p : Phase) (u : Option JobUnit) (r : Option Result) : Half := ⟨p, u, none, r⟩
/-- The post-quantum half has its inputs, or the classical one. -/
def jHyb (op : Nat) : Job := { job op 1 with phase := .started, unit := none, pq := half .gathered (some (.shell 3)) none, classical := half .started (some (.bne 1 0)) none }
def hybEnd (c p : Nat) : Job := { job 0x1001 1 with phase := .started, unit := none, pq := half .sealed none (some (.fail p 0))
                                                    classical := half .sealed none (some (.fail c 0)) }
def jHybC (op : Nat) : Job := { jHyb op with pq := half .sealed none (some (.fail 0 0)), classical := half .gathered (some (.bne 1 0)) none }
/-- A partition that carries HYBRID, its core 0 in service, and pool 2 permitted to slice 5. -/
def joinState : State := { put (withJob (hybEnd 0 0)) [(.hsfPartCfg 0, 0x82), (.hsfPartKc 0, 1), (.slmSlicePools 5, 4)] with
  rig := some rig0, hcores := [(0, ⟨.inService, 0, false, false⟩)] }

/-- The same job where no DRBG instance is READY. -/
def noDraw : State := { svc with jobs := [jHybC 0x1001] }

theorem witness_HybridJobsComputeAndJoin :
    ((withJob (jHyb 0x1001)).unhalted (jHyb 0x1001) = true ∧ (jHyb 0x1001).pq.phase = .gathered ∧ (jHyb 0x1001).classical.phase ≠ .gathered ∧
      dOp (jHyb 0x1001).desc = 0x1001 ∧ dOp (jHyb 0x1002).desc = 0x1002 ∧ dOp (jHyb 0x1003).desc = 0x1003) ∧
    ((∃ l t, (withJob (jHyb 0x1001)).drawAll (jHyb 0x1001) (keygenPq.draws (jHyb 0x1001)) true = .got l t) ∧
      (∃ l t, (withJob (jHyb 0x1002)).drawAll (jHyb 0x1002) (encapsPq.draws (jHyb 0x1002)) true = .got l t) ∧
      (∃ l t, (withJob (jHyb 0x1003)).drawAll (jHyb 0x1003) (decapsPq.draws (jHyb 0x1003)) true = .got l t)) ∧
    ((∃ l t, (withJob (jHybC 0x1001)).drawAll (jHybC 0x1001) (keygenClassical.draws (jHybC 0x1001)) = .got l t) ∧
      (∃ l t, (withJob (jHybC 0x1002)).drawAll (jHybC 0x1002) (encapsClassical.draws (jHybC 0x1002)) = .got l t) ∧
      (∃ l t, (withJob (jHybC 0x1003)).drawAll (jHybC 0x1003) (decapsClassical.draws (jHybC 0x1003)) = .got l t)) ∧
    (∃ t, noDraw.drawAll (jHybC 0x1001) (keygenClassical.draws (jHybC 0x1001)) = .failed t) ∧
    (keygenPq.reject (jHyb 0x1001) = none ∧ keygenClassical.reject (jHybC 0x1001) = none ∧ (withJob (jHybC 0x1001)).coresRun (jHybC 0x1001) = true) ∧
    ((jHybC 0x1001).classical.phase = .gathered ∧ (jHybC 0x1001).pq.phase ≠ .gathered ∧ (jHybC 0x1001).yielded = false ∧ (jHybC 0x1001).phase ≠ .sealed) ∧
    joinState.joinCore (hybEnd 0 0) = some (2, 0) ∧ (withJob (hybEnd 0 0)).joinCore (hybEnd 0 0) = none ∧ dClass (hybEnd 0 0).desc = 0x10 ∧
      (hybEnd 0x10 0x41).result = none ∧ (hybEnd 0x10 0x41).classical.phase = .sealed ∧ (hybEnd 0x10 0x41).pq.phase = .sealed :=
  ⟨by decide, ⟨⟨_, _, rfl⟩, ⟨_, _, rfl⟩, ⟨_, _, rfl⟩⟩, ⟨⟨_, _, rfl⟩, ⟨_, _, rfl⟩, ⟨_, _, rfl⟩⟩, ⟨_, rfl⟩, by decide, by decide, by decide, by decide, by decide⟩
theorem test_join_takes_the_lowest : after (.hybridJoin 7) (withJob (hybEnd 0x41 0x10)) (fun t =>
    t.jobs.map (fun x => x.result.map (fun r => (r.status, r.detail))) == [some (0x10, 3)]) = true := by decide
theorem test_join_of_a_failed_half : after (.hybridJoin 7) (withJob (hybEnd 0 0x10)) (fun t =>
    t.jobs.map (fun x => x.result.map (fun r => (r.status, r.detail))) == [some (0x10, 2)]) = true := by decide

def jDone : Job := { job 0x0C01 0x200 with phase := .computed, result := some (.done [1]) }
def dipState (s : State) : State := { s with tamper := { s.tamper with dip := some ⟨640, false, 2, false, true⟩ } }

def jHalf : Job := { job 0x1001 1 with phase := .started, unit := none, pq := half .computed (some (.shell 3)) (some (.done [1])) }

theorem witness_SealingRespectsDips : ((withJob jDone).job? 7 = some jDone ∧ jDone.phase = .computed ∧ (withJob jDone).tamper.dip = none ∧
      jDone.suspect = false) ∧
    ((withJob { jDone with suspect := true }).tamper.dip = none ∧ (withJob { jDone with suspect := true }).leaving = false ∧ (withJob jHalf).job? 7 = some jHalf ∧ jHalf.phase ≠ .computed ∧
      jHalf.phase ≠ .sealed ∧ dClass jHalf.desc = 0x10 ∧ jHalf.suspect = false ∧ jHalf.pq.phase = .computed) ∧
    (dipState (withJob jDone)).tamper.dip = some ⟨640, false, 2, false, true⟩ := by decide
theorem test_seal : after (.jobSealed 7) (withJob jDone) (fun t => t.jobs.map (·.phase) == [.sealed]) = true := by decide
theorem test_seal_of_a_suspect : after (.jobSealed 7) (withJob { jDone with suspect := true }) (fun t => t.jobs.map (·.phase) == [.waiting]) = true := by
  decide

/-! ### Tiles -/

/-- Tile 95 runs a kernel: s1 = 0x100, s2 = 64, s3 = 7, s4 = 0xFFFFFFFC; it is tile 1 of 3, of two phases. -/
def kernel : Tile := { Tile.idle with running := true, s := [(1, 0x100), (2, 64), (3, 7), (4, 0xFFFFFFFC)], pos := 1, size := 3, phases := 2, pc := 8191 }
def onTile (x : Tile) : State := { rnd with tiles := [(95, x)] }
def fields (w mod d a b c : Nat) (imm : BitVec 30 := 0) : TileFields := ⟨w, mod, d, a, b, c, imm⟩
/-- Tile 95 takes each of these words. -/
def takesAll (x : Tile) (l : List (Nat × TileFields)) : Bool := l.all (fun e => (onTile x).takes 95 e.1 e.2)
/-- The command leaves tile 95 as `p` says. -/
def tileAfter (c : Instr) (x : Tile) (p : Tile → Bool) : Bool := after c (onTile x) (fun t => p (t.tile 95))

theorem witness_TileInstructionCompletesAndFrames : tileRow (.sadd 95 (fields 0 0 31 1 2 0)) = some (95, fields 0 0 31 1 2 0, 0x10) ∧
    (semOf 0x10).isSome = true ∧ (onTile kernel).takes 95 0x10 (fields 0 0 31 1 2 0) = true ∧
    ∃ sem y tc, semOf 0x10 = some sem ∧ sem ((onTile kernel).tileArg 95 0x10 (fields 0 0 31 1 2 0)) = .ok y tc := ⟨rfl, rfl, by decide, _, _, _, rfl, rfl⟩

/-- A last word with its parity: groups 0 to 6 have no one, group 7 has one. -/
def lastWord : Nat := 2 ^ 151 + 0x7F * 2 ^ 152
/-- The kernel on a tile whose patch answers the entry words of all microcoded instructions with the last word, or with a word
without parity; moduli of ML-KEM and ML-DSA. -/
def moduli : Tile := { kernel with patch := [lastWord], matchTab := (List.range 16).map (fun k => 2 ^ 31 + k) }
def badPatch : Tile := { moduli with patch := [0] }
/-- Tile 95 attached, with breakpoint 0 at 8191. -/
def attachedState : State := put (onTile kernel) [(.tilDbgCtrl 95, 1), (.tilDbgBp0 95, 0x80001FFF), (.dbgRights, 8)]
theorem witness_TileChecksAndHalts : tileRow (.vadd 95 (fields 3 0 0 0 0 0)) = some (95, fields 3 0 0 0 0 0, 0x20) ∧
    ((onTile Tile.idle).tile 95).issues = false ∧
    ((attachedState.tile 95).issues = true ∧ attachedState.breakHit 95 8191 = true ∧ (attachedState.tile 95).passBp = false) ∧
    (((onTile kernel).tile 95).issues = true ∧ (onTile kernel).breakHit 95 8191 = false ∧ wordLegal 0x20 (fields 3 0 0 0 0 0) = false) ∧
    ((onTile badPatch).breakHit 95 8191 = false ∧ wordLegal 0x40 (fields 0 0 15 1 0 0 0x60) = true ∧
      ((onTile badPatch).tile 95).microcode (onTile badPatch).freeCtr 0x40 = .check 2 ⟨true, 0⟩) ∧
    attachedState.attached 95 = true ∧ (attachedState.tile 95).pc = 8191 ∧ imprecise 0x20 8 = false ∧
      attachedState.bit (.tilExcInfo 95) 63 = false := by
  refine ⟨by decide, by decide, by decide, by decide, by decide, by decide⟩
theorem test_patch_parity : (withParity (2 ^ 151) = lastWord) ∧ after (.ntt 95 (fields 0 0 15 1 0 0 0x60)) (onTile badPatch)
    (fun t => t.fld (.fabTileStat 95) 23 20 == 2 && t.fld (.fabMclogInfo 0) 51 40 == 0) = true := by decide
theorem test_breakpoint_halts : after (.vadd 95 (fields 0 0 0 0 0 0)) attachedState (fun t => (t.tile 95).halt.map (·.cause) == some 8
    && t.fld (.tilDbgStat 95) 11 8 == 8 && (t.tile 95).pc == 8191) = true := by decide
theorem test_undefined_width : after (.vadd 95 (fields 3 0 0 0 0 0)) (onTile kernel) (fun t => t.fld (.tilExcInfo 95) 3 0 == 1) = true := by decide

theorem witness_ScalarInstructions : ([Instr.sadd 95 (fields 0 0 31 1 2 0), .ssub 95 (fields 0 0 31 1 2 0), .smul 95 (fields 0 0 31 1 2 0),
      .sand 95 (fields 0 0 31 1 2 0), .sor 95 (fields 0 0 31 1 2 0), .sxor 95 (fields 0 0 31 1 2 0), .sshl 95 (fields 0 0 31 1 2 0),
      .sshr 95 (fields 0 0 0 1 2 0)]).all (fun i => match scalarRow i with
        | some (t, f, op, _) => (onTile kernel).takes t op f
        | none => false) = true ∧
    takesAll kernel [(0x18, fields 0 0 1 1 0 0 0x3FFFFFFF), (0x19, fields 0 0 31 0 0 0 0x20000000), (0x1A, fields 0 0 1 0 0 0 0xFFFF)] = true := by decide
theorem test_saddi_sign : tileAfter (.saddi 95 (fields 0 0 5 1 0 0 0x3FFFFFFF)) kernel (fun x => x.sreg 5 == 0xFF && x.pc == 0) = true := by decide
theorem test_s0_ignores : tileAfter (.sadd 95 (fields 0 0 0 1 2 0)) kernel (fun x => x.sreg 0 == 0 && x.s == kernel.s) = true := by decide
theorem test_slh_keeps_low : tileAfter (.slh 95 (fields 0 0 1 0 0 0 0xABCD)) kernel (fun x => x.sreg 1 == 0xABCD0100) = true := by decide
theorem test_sshl_modulo_32 : tileAfter (.sshl 95 (fields 0 0 5 3 2 0)) kernel (fun x => x.sreg 5 == 7) = true := by decide

/-- The stroke tile, with a transfer outstanding in one of the two. -/
def stroke : Tile := { kernel with pos := 0 }
theorem witness_ControlInstructions : takesAll kernel [(0x00, fields 0 0 0 0 0 0), (0x01, fields 0 8 0 1 2 0 0x1FFF), (0x1B, fields 0 8 0 1 2 0),
      (0x03, fields 0 0 0 0 0 0), (0x04, fields 0 0 31 0 0 0 0x0A), (0x05, fields 0 0 0 3 0 0 0), (0x05, fields 0 0 0 3 0 0 1),
      (0x05, fields 0 0 0 0 0 0 8), (0x05, fields 0 0 0 0 0 0 0x0A), (0x02, fields 0 0 0 1 0 0), (0x04, fields 0 0 31 0 0 0 0x0B),
      (0x05, fields 0 0 0 0 0 0 2), (0x05, fields 0 0 0 2 0 0 0)] = true ∧
    (condHolds 3 (kernel.sreg 4) (kernel.sreg 1) kernel.cflag = true ∧ condHolds 5 (kernel.sreg 4) (kernel.sreg 1) kernel.cflag = false) ∧
    kernel.xfers = [] ∧ ({ kernel with xfers := [Xfer.draw 0x100 4] } : Tile).xfers ≠ [] ∧ (kernel.csr 0x0A).isSome = true ∧
    modulusIn 16383 (kernel.sn 3) = true ∧ modulusIn 1073741823 (kernel.sn 3) = true ∧ kernel.sn 0 < kernel.phases ∧ kernel.pos ≠ 0 ∧
    modulusIn 16383 (kernel.sn 2) = false ∧ kernel.csr 0x0B = none ∧
    (stroke.pos = 0 ∧ stroke.sn 2 ≤ 16384 ∧ stroke.sn 1 + stroke.sn 2 ≤ 0x2E000 ∧ stroke.held 0x100 64 = false ∧ (onTile stroke).attached 95 = false) := by
  decide
theorem test_br_signed : tileAfter (.br 95 (fields 0 3 0 4 1 0 5)) kernel (fun x => x.pc == 5 && x.cycles == 2) = true := by decide
theorem test_br_not_taken : tileAfter (.br 95 (fields 0 5 0 4 1 0 5)) kernel (fun x => x.pc == 0 && x.cycles == 1) = true := by decide
theorem test_csrw_even_modulus : after (.csrw 95 (fields 0 0 0 2 0 0 0)) (onTile kernel) (fun t => t.fld (.tilExcInfo 95) 3 0 == 5) = true := by decide
theorem test_csrw_modulus : tileAfter (.csrw 95 (fields 0 0 0 3 0 0 0)) kernel (fun x => x.cq16 == 7 && x.cycles == 4) = true := by decide

/-- v1 holds 0xFFFF in lane 0 and 2 in lane 1; v2 holds 1 in both. -/
def vectors : Tile := { kernel with v := [(1, 0x2FFFF), (2, 0x10001)], cq16 := 3329 }
theorem witness_ShortVectorInstructions : ([Instr.vadd 95 (fields 0 4 31 1 2 0), .vsub 95 (fields 2 0 31 1 2 0), .vaddm 95 (fields 0 0 31 1 2 0),
      .vsubm 95 (fields 1 0 31 1 2 0), .vmulm 95 (fields 0 1 31 1 2 0), .vand 95 (fields 2 0 31 1 2 0), .vor 95 (fields 0 0 31 1 2 0),
      .vxor 95 (fields 0 0 31 1 2 0), .vmulh 95 (fields 1 12 31 1 2 0)]).all (fun i => match vectorRow i with
        | some (t, f, op, _) => (onTile vectors).takes t op f
        | none => false) = true ∧
    takesAll vectors [(0x28, fields 2 0 3 1 0 0 63), (0x29, fields 2 8 3 1 0 0 63), (0x2C, fields 1 0 3 1 0 0), (0x2C, fields 2 0 3 1 2 0),
      (0x2D, fields 0 0 31 1 0 0 15), (0x2E, fields 2 0 3 1 2 0)] = true ∧ (vectors.vget 0 1)[15]? = some 0 := by decide
theorem test_vadd_wraps : tileAfter (.vadd 95 (fields 0 0 3 1 2 0)) vectors (fun x => x.vget 0 3 == [0, 3] ++ List.replicate 14 0) = true := by decide
theorem test_vext : tileAfter (.vext 95 (fields 0 0 5 1 0 0 1)) vectors (fun x => x.sreg 5 == 2) = true := by decide

theorem witness_LongVectorInstructions : ([Instr.padd 95 (fields 0 4 15 1 2 0), .psub 95 (fields 1 0 15 1 2 0), .pand 95 (fields 2 0 15 1 2 0),
      .pmulh 95 (fields 0 12 15 1 2 0)]).all (fun i => match longRow i with
        | some (t, f, op, _) => (onTile kernel).takes t op f
        | none => false) = true ∧
    ([Instr.paddm 95 (fields 0 2 14 2 4 0), .psubm 95 (fields 1 0 15 1 2 0), .pxor 95 (fields 2 2 14 2 4 0)]).all (fun i => match sharedRow i with
        | some (t, f, op, _) => (onTile kernel).takes t op f
        | none => false) = true ∧
    kernel.full = true ∧ takesAll kernel [(0x34, fields 0 1 15 1 2 0), (0x35, fields 1 0 15 1 2 0), (0x38, fields 2 0 15 1 0 0 63), (0x39, fields 0 8 15 1 0 0 63),
      (0x34, fields 0 2 14 1 2 0), (0x35, fields 1 2 14 1 2 0), (0x3C, fields 0 0 15 1 0 0), (0x3C, fields 1 2 14 2 0 0), (0x3E, fields 2 0 15 0 0 0), (0x3D, fields 2 2 14 0 0 0)] = true := by decide
theorem test_masked_pair_is_even : wordLegal 0x32 (fields 0 2 15 2 4 0) = false ∧ wordLegal 0x32 (fields 0 0 15 2 4 0) = true := by decide

theorem witness_TileArithmeticIsRight : takesAll kernel [(0x2B, fields 2 0 31 1 2 3), (0x3B, fields 2 0 15 1 2 3)] = true ∧
    (0 < 261888 ∧ 2 * 261888 ∣ 8380417 - 1) ∧ (∀ x ∈ [0, 7, 5], x < 2 ^ 3) := by decide
theorem test_clmul : clmul 3 3 = 5 ∧ clmul 0x8000000000000000 2 = 0x10000000000000000 := by decide
theorem test_modular : addM 3329 3328 1 = 0 ∧ subM 3329 0 1 = 3328 ∧ mulM true 16 3329 3328 3328 = 1 := by decide
theorem test_decompose_top : decompose 8380417 261888 8380416 = (0, -1) := by decide
theorem test_compress : compress 3329 1 1664 = 1 ∧ compress 3329 1 832 = 0 ∧ decompress 3329 1 1 = 1665 := by decide

theorem witness_MicrocodedInstructions : (nttShape 3329 = some (7, 17, 7) ∧ nttShape 8380417 = some (8, 1753, 8) ∧ moduli.full = true ∧
      moduli.q 0 = 3329 ∧ moduli.q 1 = 8380417) ∧
    takesAll moduli [(0x40, fields 0 0 15 1 0 0 0x60), (0x40, fields 0 2 14 2 0 0 0x52), (0x41, fields 1 0 15 1 0 0 0x170)] = true ∧
    takesAll moduli [(0x46, fields 0 0 15 1 0 0 12), (0x47, fields 0 0 15 1 0 0 1), (0x48, fields 1 0 15 1 0 2 0), (0x49, fields 1 0 15 1 0 2),
      (0x4A, fields 1 0 15 1 2 31 1), (0x4B, fields 1 0 15 1 2 0 0), (0x4C, fields 1 0 0 1 3 0)] = true ∧
    takesAll moduli [(0x46, fields 0 2 14 2 0 0 12), (0x48, fields 1 2 14 2 0 4 0), (0x4C, fields 1 2 0 2 3 0), (0x4F, fields 0 2 14 2 0 0 0),
      (0x4F, fields 1 2 14 2 0 0 1)] = true ∧
    0 < gamma2 8380417 0 ∧ 0 < gamma2 8380417 1 ∧ (∀ h ∈ moduli.pget 1 1, h < 2) ∧ (moduli.pget 1 1).length = 256 := by
  refine ⟨by decide, by decide +kernel, by decide +kernel, by decide +kernel, by decide, by decide, by decide +kernel, by decide +kernel⟩

/-- A tile whose sponge squeezes a clear state. -/
def squeezing : Tile := { moduli with sponge := ⟨[], 1, true, 0, 0⟩ }
theorem witness_SamplersAndPackingComplete : (onTile squeezing).attached 95 = false ∧
    takesAll squeezing [(0x42, fields 0 0 15 1 0 0 2), (0x42, fields 0 2 14 1 0 0 3), (0x43, fields 1 0 15 0 0 0 1), (0x43, fields 0 0 15 0 0 0 0),
      (0x44, fields 1 0 15 0 0 0 2), (0x45, fields 1 0 15 0 0 0 39), (0x4D, fields 0 0 0 1 1 0 32), (0x4E, fields 0 0 15 0 1 0 1)] = true ∧
    squeezing.sponge.squeezing = true ∧ squeezing.sn 1 + 32 * 32 ≤ 0x2E000 ∧ squeezing.held 0x100 1024 = false := by
  refine ⟨by decide, by decide, by decide, by decide, by decide⟩
theorem witness_SamplersAndPackingComplete_found :
    256 ≤ ((groups 1 128 (squeezing.sponge.squeeze 128).1).flatMap (candEta 8380417 2)).length ∧
    256 ≤ ((groups 3 150 (squeezing.sponge.squeeze 450).1).flatMap (cand12 3329)).length := by decide +kernel
theorem witness_SamplersAndPackingComplete_cand23 :
    256 ≤ ((groups 3 260 (squeezing.sponge.squeeze 780).1).flatMap (cand23 8380417)).length := by decide +kernel

/-- A gather's base at 64 and a receive that covers byte 0x1000 on. -/
def waiting : Tile := { kernel with xfers := [.recv 2 0x1000 64] }
theorem witness_TileLoadsAndStores : ((onTile waiting).attached 95 = false ∧ waiting.full = true ∧ Memory.wf waiting.mem = true) ∧
    takesAll waiting [(0x50, fields 0 0 31 1 0 0), (0x51, fields 0 0 31 1 0 0), (0x52, fields 0 0 31 1 0 0), (0x53, fields 0 0 31 1 0 0),
      (0x54, fields 1 0 15 1 0 0), (0x54, fields 0 2 14 1 0 0), (0x55, fields 0 0 15 1 0 0), (0x55, fields 1 2 14 1 0 0), (0x56, fields 1 0 15 1 2 0),
      (0x50, fields 0 0 31 1 0 0 1), (0x51, fields 0 0 31 2 0 0)] = true ∧
    (waiting.held 0xFFC 4 = false ∧ waiting.held 0xFFD 4 = true ∧ waiting.held 0x100 2048 = false ∧ 0x100 + 2048 ≤ 0x2E000 ∧ waiting.sn 2 < 0x100) ∧
    (waiting.sreg 1 + (1 : BitVec 30).signExtend 32).toNat % 4 ≠ 0 := by
  refine ⟨by decide, by decide, by decide, by decide⟩
theorem witness_TileLoadsAndStores_gather : ∀ i, i < 256 →
    (BitVec.ofNat 32 0x100 + 4 * ((waiting.preg 2)[i]?).getD 0).toNat % 4 = 0 ∧
      (BitVec.ofNat 32 0x100 + 4 * ((waiting.preg 2)[i]?).getD 0).toNat + 4 ≤ 0x30000 ∧
      waiting.held (BitVec.ofNat 32 0x100 + 4 * ((waiting.preg 2)[i]?).getD 0).toNat 4 = false := by
  decide +kernel
theorem test_sts_below_the_general_range : after (.sts 95 (fields 0 0 3 2 0 0)) (onTile kernel)
    (fun t => t.fld (.tilExcInfo 95) 3 0 == 3 && t.fld (.tilExcAddr 95) 17 0 == 64) = true := by decide
theorem test_sts_little_endian : tileAfter (.sts 95 (fields 0 0 4 1 0 0)) kernel (fun x => Memory.read 0x100 5 x.mem == [0xFC, 0xFF, 0xFF, 0xFF, 0]) = true := by
  decide
theorem test_load_waits_for_a_receive : after (.lds 95 (fields 0 0 5 1 0 0 0xF00)) (onTile waiting) (fun t => (t.tile 95).pc == 8191) = true := by decide

/-- The stroke tile with an input copy, and with a draw, outstanding; two tiles of a shell with a send and a receive that meet. -/
def dmaState : State := { put (withJob { job 0x0101 1 with unit := some (.shell 3), main := [1, 2, 3, 4] }) [(.fabShellMap 3, 0x01000003), (.fabTileStat 0, 0x301), (.fabTileStat 1, 0x301)] with
  tiles := [(0, { stroke with xfers := [.input 0 0 0x100 4] }), (1, kernel)] }
def ringState : State := { put (withJob { job 0x0101 1 with unit := some (.shell 3) }) [(.fabShellMap 3, 0x01000003), (.fabTileStat 0, 0x301), (.fabTileStat 1, 0x301)] with
  tiles := [(0, { stroke with size := 2, xfers := [.recv 1 0x200 4] }), (1, { kernel with size := 2, xfers := [.send 0 0x100 4] })] }
theorem witness_SpongeAndTransfers : (onTile squeezing).attached 95 = false ∧ takesAll kernel [(0x60, fields 0 0 0 0 0 0 3), (0x61, fields 0 0 0 1 2 0),
      (0x62, fields 0 0 0 0 0 0), (0x70, fields 0 0 0 1 0 2), (0x71, fields 0 0 0 1 0 2)] = true ∧ takesAll squeezing [(0x63, fields 0 0 0 1 2 0)] = true ∧
    takesAll stroke [(0x72, fields 0 0 0 1 2 2 0), (0x73, fields 0 0 0 1 0 2)] = true ∧ kernel.sponge.squeezing = false ∧
    (kernel.sn 0 < kernel.size ∧ kernel.sn 0 ≠ kernel.pos ∧ kernel.sn 0 ≠ 0xFF ∧ kernel.sn 1 + kernel.sn 2 ≤ 0x2E000) := by decide

def drawState : State := { dmaState with tiles := [(0, { stroke with xfers := [.draw 0x100 4] })] }
/-- The same with the draw's bytes served already. -/
def servedState : State := { drawState with jobs := drawState.jobs.map (fun x => { x with drawn := [(false, [5, 6, 7, 8])] }) }
theorem witness_SpongeAndTransfers_arrivals : ringState.arrival 0 = some (1, 1, 0x100, 0x200, 4) ∧
    (dmaState.tileJob 0).isSome = true ∧ (dmaState.tile 0).xfers = [.input 0 0 0x100 4] ∧
    (∃ j bs, dmaState.tileJob 0 = some j ∧ dmaState.jobInput j 0 0 4 (dmaState.draw 4).1 (.data []) = .inr bs) ∧
    (∃ j bs st u, drawState.tileJob 0 = some j ∧ (drawState.tile 0).xfers = [.draw 0x100 4] ∧ j.kept (dClass j.desc == 0x10) = [] ∧
      drawState.jobDraw j (pPredRes (dParam j.desc) && !j.prGranted && (dClass j.desc == 0x10) == j.prHalf) 4 = .got bs st u) ∧
    (∃ j, servedState.tileJob 0 = some j ∧ (servedState.tile 0).xfers = [.draw 0x100 4] ∧ j.kept (dClass j.desc == 0x10) = [[5, 6, 7, 8]]) :=
  ⟨by decide, by decide, by decide, ⟨_, _, rfl, rfl⟩, ⟨_, _, _, _, rfl, rfl, rfl, rfl⟩, _, rfl, rfl, rfl⟩
theorem test_served_draw_lands : after (.randComplete 0) servedState (fun t => (t.tile 0).mem == [(0x100, 5), (0x101, 6), (0x102, 7), (0x103, 8)]) = true := by
  decide
theorem test_rand_of_two_requests : randPieces 0x100 65540 = [.draw 0x100 65536, .draw 0x10100 4] := by decide
theorem test_ring_transfer : after (.ringTransferArrival 0 true) ringState (fun t => (t.tile 0).xfers == [] && (t.tile 1).xfers == []) = true := by decide

/-! ### Queues and slices -/

/-- Slice 511 ACTIVE with its page open; queue 32767 of 64 entries RUNNING, two completion entries unreleased. -/
def queueSvc : State := { put rnd [(.slmSliceStat 511, 1), (.slmSliceCtrl 511, 1), (.qmgQCtrl 32767, 0x101), (.qmgQSize 32767, 64),
  (.qmgQCqHead 32767, 63)] with qx := [(32767, ⟨0, 2, [], []⟩)] }
/-- The same with the queue in ERROR, and with the slice's requests under a PASID that is not enabled. -/
def errorSvc : State := put queueSvc [(.qmgQCtrl 32767, 0x201), (.qmgQErr 32767, 0x219)]
theorem witness_DoorbellsSetThePointers : queueSvc.hidden (.slmPgSqdb 511 63) = false ∧ queueSvc.hidden (.slmPgCqdb 511 63) = false ∧
    queueSvc.pageOpen 511 = true ∧ queueSvc.queueState 32767 = 1 ∧ queueSvc.ringSize 32767 = 64 ∧ 0 < queueSvc.ringSize 32767 ∧
    (rnd.pageOpen 511 = false) ∧ queueSvc.queueState 32766 = 0 := by decide
theorem test_tail_is_reduced : after (.sqDoorbell 511 63 64 65) queueSvc (fun t => t.fld (.qmgQSqTail 32767) 15 0 == 1) = true := by decide
theorem test_release_stops_at_the_tail : after (.cqDoorbell 511 63 64 5) queueSvc (fun t => t.fld (.qmgQCqHead 32767) 15 0 == 1 && (t.queueX 32767).used == 0)
    = true := by decide
theorem test_doorbell_of_32_bits : after (.sqDoorbell 511 63 32 5) queueSvc (fun t => t.fld (.qmgQSqTail 32767) 15 0 == 0) = true := by decide

/-- An entry is due at head 63; DMA window 0 covers the first MiB; the second queue's ring is in LPDDR5X, which is ready. -/
def fetchSvc : State := put queueSvc [(.qmgQSqHead 32767, 63), (.qmgQSqTail 32767, 1), (.slmSliceDmawinBase 511 0, 0), (.slmSliceDmawinLimit 511 0, 0xFF000)]
def fetchDdr : State := put queueSvc [(.qmgQSqHead 32767, 63), (.qmgQSqTail 32767, 1), (.slmSliceDdrSize 511, 0x100000), (.qmgQCtrl 32767, 0x103),
  (.ddrStat, 7)]
/-- The fetch has begun, and the slice is quiescing with no job, or with one, in flight. -/
def dueSvc : State := { put fetchSvc [(.slmSliceStat 511, 2), (.qmgQSqBase 32767, 0x100000)] with fetchDue := [32767] }
theorem witness_FailedFetchStopsTheQueue_due : dueSvc.sliceBad 511 = false ∧ dueSvc.queueState 32767 = 1 ∧ dueSvc.fetchDue = [32767] ∧ dueSvc.sliceState 511 = 2 ∧
    dueSvc.sliceInflight 511 = 0 ∧ dueSvc.inWindow 511 false (0x100000 + 128 * 63) 128 = false ∧
    ({ dueSvc with jobs := [{ job 0x0E01 0 with slice := 511 }] } : State).sliceInflight 511 ≠ 0 := by decide
theorem test_last_due_fetch : after (.descriptorFetch 32767 (.fault none) (.data [])) dueSvc (fun t => t.sliceState 511 == 3 && t.queueState 32767 == 2 && t.fetchDue == []) = true := by
  decide
theorem witness_FailedFetchStopsTheQueue : (fetchSvc.queueState 32767 = 1 ∧ fetchDdr.queueState 32767 = 1 ∧ fetchSvc.fetchDue = [] ∧ fetchDdr.fetchDue = []) ∧ fetchSvc.fetchTurn = some 32767 ∧ fetchSvc.inWindow 511 false (128 * 63) 128 = true ∧
    fetchSvc.gatherRead 511 false (128 * 63) 128 (.fault none) = .fault none ∧
    (put fetchSvc [(.qmgQSqBase 32767, 0x100000)]).fetchTurn = some 32767 ∧ (put fetchSvc [(.qmgQSqBase 32767, 0x100000)]).inWindow 511 false (0x100000 + 128 * 63) 128 = false ∧
    fetchDdr.fetchTurn = some 32767 ∧ fetchDdr.inWindow 511 true (128 * 63) 128 = true ∧ fetchDdr.gatherRead 511 true (128 * 63) 128 .ecc = .ecc ∧
    (fetchSvc.sliceBad 511 = false ∧ fetchDdr.sliceBad 511 = false) := by
  decide
theorem test_fetch_fault : after (.descriptorFetch 32767 (.fault none) (.data [])) fetchSvc (fun t => t.queueState 32767 == 2 &&
    t.fld (.qmgQErr 32767) 31 0 == 0x3F0119 && t.jobs == []) = true := by decide

/-- A descriptor that waits: opcode, PARAM and room for 32 B of output at 0; one with inputs is on a unit; a message is being fetched. -/
def waitingJob (op param aux : Nat) : Job := { job op param with
  phase := .waiting, unit := none, pool := none, desc := leBytes 2 op ++ zeros 10 ++ leBytes 4 param ++ zeros 24 ++ leBytes 4 32 ++ leBytes 4 aux ++ zeros 80 }
/-- Slice 5 ACTIVE with pool 2 and a DMA window of one MiB, and a job of it that waits. -/
def waitSvc (x : Job) : State := { put (withJob x) [(.slmSliceStat 5, 1), (.qmgQCtrl 320, 0x101), (.hsfPartCfg 0, 0x82), (.hsfPartKc 0, 1),
  (.slmSlicePools 5, 4), (.slmSliceDmawinBase 5 0, 0), (.slmSliceDmawinLimit 5 0, 0xFF000)] with
  rig := some rig0, hcores := [(0, ⟨.inService, 0, false, false⟩)] }
def jStarted : Job := { job 0x0101 1 with phase := .started }
/-- A digest over 5,000 B of which 4,096 have been read. -/
def jMessage : Job := { job 0x0C01 0x200 with phase := .started, main := zeros 4096
                                              desc := leBytes 2 0x0C01 ++ zeros 10 ++ leBytes 4 0x200 ++ zeros 8 ++ leBytes 4 5000 ++ zeros 100 }
/-- An LMS VERIFY on a Keccak core that waits for its inline key, of SHA-256. -/
def jInline : Job := { job 0x0403 0x10001 with phase := .started, unit := some (.hash 0) }
def sha2Key : Bytes := beBytes 4 1 ++ beBytes 4 5 ++ beBytes 4 4 ++ zeros 48
theorem witness_FetchDispatchAndGather : (rnd.fetchTurn = none ∧ rnd.fetchDue = [] ∧ rnd.sliceBad 0 = false ∧ fetchSvc.sliceBad 511 = false ∧ fetchSvc.fetchTurn = some 32767 ∧ 0 < fetchSvc.ringSize 32767 ∧ fetchSvc.jobs = [] ∧
      fetchSvc.inWindow 511 false (128 * 63) 128 = true ∧ fetchSvc.gatherRead 511 false (128 * 63) 128 (.data [1]) = .data (padTo 128 [1])) ∧
    ((withJob jStarted).job? 7 = some jStarted ∧ dClass jStarted.desc ≠ 0x0C ∧ (withJob jStarted).readMain jStarted (.data []) = .data [] ∧
      (withJob jStarted).pcie.dlActive = true ∧ (withJob jStarted).sliceBad 5 = false ∧ jStarted.wrongKind [] = false ∧ dClass jInline.desc ≠ 0x0C ∧
      jInline.phase = .started ∧ (withJob jInline).leaving = false ∧ jInline.wrongKind sha2Key = true) ∧
    (dClass jMessage.desc = 0x0C ∧ min 4096 (dInLen jMessage.desc - jMessage.main.length) = 904 ∧ dSgl jMessage.desc = 0 ∧
      (withJob jMessage).gatherRead 5 false 4096 904 (.data []) = .data (padTo 904 [])) := by
  refine ⟨by decide +kernel, by decide, by decide +kernel⟩

def randomSvc : State := waitSvc (waitingJob 0x0E01 0 32)
def digestSvc : State := waitSvc (waitingJob 0x0C01 0x800 0)
theorem preCheck_ignores_the_cox (s : State) (c : List (Nat × CoxPool)) (j : Job) : ({ s with cox := c } : State).preCheck j .none = s.preCheck j .none := rfl
theorem witness_FetchDispatchAndGather_dispatch : (randomSvc.devState = 1 ∧ randomSvc.bit .genState 4 = false ∧ randomSvc.tamper.slotsDue = [] ∧
      pickJob (fun _ => 0) (randomSvc.dropUncarried.dropUnmasked.jobs.filter (fun j => (opKinds (dOp j.desc)).isEmpty && decide (j.phase = .waiting)
        && randomSvc.dropUncarried.dropUnmasked.fenceOk j && randomSvc.dropUncarried.dropUnmasked.journalOk j
        && !randomSvc.dropUncarried.dropUnmasked.sliceBad j.slice)) = some (waitingJob 0x0E01 0 32)) ∧
    (∃ slot a m b n, randomSvc.dropUncarried.dropUnmasked.preCheck (waitingJob 0x0E01 0 32) .none = .inr (.ok slot a m b n)) ∧
    (digestSvc.dropUncarried.dropUnmasked.poolRec 2 = some ⟨2, 3, 1, 0, 0, 0, 2, 0⟩ ∧ digestSvc.poolState ⟨2, 3, 1, 0, 0, 0, 2, 0⟩ = 1 ∧
      digestSvc.bit (.fabPoolCtrl 2) 0 = false ∧
      (digestSvc.dropUncarried.dropUnmasked.coxChoose rig0 ⟨2, 3, 1, 0, 0, 0, 2, 0⟩ (.hash 0)).1 = some (waitingJob 0x0C01 0x800 0)) ∧
    (∀ c, ∃ slot a m b n, { digestSvc.dropUncarried.dropUnmasked with cox := c }.preCheck (waitingJob 0x0C01 0x800 0) .none = .inr (.ok slot a m b n)) := by
  refine ⟨by decide, ⟨_, _, _, _, _, rfl⟩, by decide +kernel, fun c => ?_⟩
  rw [preCheck_ignores_the_cox]
  exact ⟨_, _, _, _, _, rfl⟩
theorem test_dispatch_to_the_wrong_cores : after (.jobDispatch 2 (.hash 64) .none) digestSvc (fun t => t.jobs.map (fun (x : Job) => x.phase) == [.waiting]) = true := by
  decide

/-- A sealed digest of queue 320 of 64 entries, the last of the ring; a queue with an interrupt pending under a time limit. -/
def jSealed : Job := { jDone with phase := .sealed }
def sealedSvc : State := put (withJob jSealed) [(.slmSliceStat 5, 1), (.qmgQCtrl 320, 0x101), (.qmgQSize 320, 64), (.qmgQCqTail 320, 0x1003F), (.slmSliceDmawinBase 5 0, 0),
  (.slmSliceDmawinLimit 5 0, 0xFF000)]
def pendingSvc : State := { put rnd [(.qmgQMod 0, 0x10000), (.qmgQCtrl 0, 0x108), (.slmSliceMsix 0, 4)] with qx := [(0, ⟨1, 0, [], []⟩)] }
/-- A sealed DESTROY of slot 9, the last of counter cell 0; and the queue with an entry held behind a failed write. -/
def jFreed : Job := { jDestroyCell with phase := .sealed, result := some ⟨0, 0, [], .empty 9⟩ }
def freedSvc : State := { destroyState with jobs := [jFreed] }
def heldEntry : State := { sealedSvc with qx := [(320, ⟨0, 1, [⟨63, zeros 32, false, true, true⟩], []⟩)] }
theorem witness_CompletionsAreWritten : (sealedSvc.job? 7 = some jSealed ∧ sealedSvc.pcie.dlActive = true ∧ sealedSvc.sliceBad 5 = false ∧
      sealedSvc.tamper.slotsDue = [] ∧ sealedSvc.mustFree ⟨0, 0, [1], .none⟩ = none ∧ (sealedSvc.queueX 320).held = [] ∧
      sealedSvc.cqWritable 320 63 false = none ∧ sealedSvc.fld (.qmgQCqTail 320) 15 0 + 1 = sealedSvc.ringSize 320 ∧
      (put sealedSvc [(.qmgQCqTail 320, 62)]).cqWritable 320 62 false = none ∧ 62 + 1 < sealedSvc.ringSize 320 ∧
      (put sealedSvc [(.qmgQCqBase 320, 0x100000)]).cqWritable 320 63 false = some 0x19 ∧ sealedSvc.queueState 320 = 1 ∧ (heldEntry.queueX 320).held ≠ []) ∧
    (jSealed.result = some (.done [1]) ∧ dOp jSealed.desc ≠ 0x0D04 ∧ sealedSvc.hostFault 5 = false ∧ dFlag jSealed.desc 3 = false ∧
      sealedSvc.bit (.qmgQCtrl 320) 2 = false ∧ sealedSvc.inWindow 5 false (sealedSvc.cqAddr 320 63) 32 = true ∧
      sealedSvc.fld (.qmgQCqTail 320) 15 0 < sealedSvc.ringSize 320 ∧ dFlag jSealed.desc 0 = false ∧ sealedSvc.sliceState 5 = 1) ∧
    (freedSvc.job? 7 = some jFreed ∧ jFreed.phase = .sealed ∧ freedSvc.pcie.dlActive = true ∧ freedSvc.slotBad 9 = false ∧ freedSvc.lastOfCell 9 = true ∧
      freedSvc.sliceBad 5 = false ∧ freedSvc.tamper.slotsDue = []) ∧
    (pendingSvc.fld (.qmgQMod 0) 25 16 ≠ 0 ∧ 0 < (pendingSvc.queueX 0).pendInt ∧ pendingSvc.queueVector 0 = some 0 ∧ pendingSvc.canSend 0 = false ∧
      ({ pendingSvc with msix := [(0, ⟨0, 0, false⟩)] } : State).canSend 0 = true) := by
  refine ⟨by decide, by decide, by decide, by decide⟩
theorem test_completion_flips_the_phase : after (.completionEntryWrite 7 .none false) sealedSvc (fun t => t.fld (.qmgQCqTail 320) 16 0 == 0 && t.jobs == [])
    = true := by decide

/-- The queue in ERROR with an entry held, whose place the slice's window covers or not. -/
def heldError (w : Bool) : State := { put errorSvc [(.slmSliceDmawinBase 511 0, 0), (.slmSliceDmawinLimit 511 0, if w then 0xFF000 else 0), (.qmgQCqBase 32767, 0x1000)] with
  qx := [(32767, ⟨0, 1, [⟨0, zeros 32, false, false, true⟩], []⟩)] }
theorem witness_QueueControl : rnd.queueState 32767 = 0 ∧ rnd.hidden (.qmgQCtrl 32767) = false ∧ queueSvc.queueState 32767 = 1 ∧ errorSvc.queueState 32767 = 2 ∧
    getB 1 0 = true ∧ (errorSvc.queueX 32767).held = [] ∧ errorSvc.hidden (.slmPgQrestart 511) = false ∧ errorSvc.pageOpen 511 = true ∧ getF 63 5 0 = 63 ∧
    (heldError true).cqWritable 32767 0 false = none ∧ (heldError false).cqWritable 32767 0 false = some 0x19 ∧
    ((heldError false).queueX 32767).held = [⟨0, zeros 32, false, false, true⟩] ∧ (heldError true).pageOpen 511 = true ∧ rnd.queueState 32767 ≠ 2 := by decide
theorem test_disable_drains : after (.queueDisable 320 0) (put (withJob jStarted) [(.qmgQCtrl 320, 0x101)]) (fun t => t.queueState 320 == 3) = true := by decide
theorem test_restart : after (.slmPgQrestart 511 63 []) errorSvc (fun t => t.queueState 32767 == 1 && t.rd (.qmgQErr 32767) == 0) = true := by decide

/-- Slice 511 in each state. -/
def sliceIn (x : DWord) : State := put rnd [(.slmSliceStat 511, x)]
def pasidSvc (x : DWord) : State := put rnd [(.slmSliceStat 511, x), (.slmSlicePasid 511, 0x80000000)]
theorem witness_RefusedSliceWrites : rnd.hidden (.slmSliceCtrl 511) = false ∧ (pasidSvc 0).bit (.slmSlicePasid 511) 31 = true ∧
    (pasidSvc 0).pcie.pasidEnable = false ∧ (pasidSvc 0).sliceState 511 = 0 ∧ (pasidSvc 3).sliceState 511 = 3 ∧
    ([0, 1, 2, 3, 4].map (fun x => (sliceIn (BitVec.ofNat 64 x)).sliceState 511) = [0, 1, 2, 3, 4]) ∧ (pasidSvc 0).sliceBad 511 = false ∧ (sliceIn 4).sliceBad 511 = false := by decide
theorem test_pasid_off : after (.sliceEnable 511 1) (pasidSvc 0) (fun t => t.sliceState 511 == 0 && t.fld (.slmSliceStat 511) 15 8 == 2) = true := by decide
theorem test_disable_of_an_active_slice : after (.sliceDisable 511 0) (sliceIn 1) (fun t => t.sliceState 511 == 1 && t.fld (.slmSliceStat 511) 15 8 == 1)
    = true := by decide
theorem witness_SliceControl : (sliceIn 0).pasidOff 511 = false ∧ (sliceIn 0).bit (.slmSliceCtrl 511) 4 = false ∧ (sliceIn 2).sliceState 511 = 2 ∧
    (sliceIn 3).sliceState 511 = 3 ∧ (sliceIn 4).sliceState 511 = 4 ∧ rnd.hidden (.slmSliceMsix 511) = false ∧ rnd.hidden (.fabPoolCtrl 31) = false ∧
    getB 3 1 = true ∧ getB 1 1 = false ∧ getB 3 2 = false ∧ (sliceIn 0).sliceState 511 = 0 ∧ [0, 1, 2, 3].map (fun x => (sliceIn x).sliceBad 511) = [false, false, false, false] := by decide
theorem test_quiesce_with_a_job : after (.sliceQuiesce 5 3) (put (withJob jStarted) [(.slmSliceStat 5, 1)]) (fun t => t.sliceState 5 == 2) = true := by decide
theorem test_reset_completes : after (.sliceResetComplete 511) (sliceIn 4) (fun t => t.sliceState 511 == 0) = true := by decide

/-! ### The fabric, the cores, the digest contexts -/

/-- A job that waits. -/
def jRandom : Job := { job 0x0E01 0 with phase := .waiting, unit := none, pool := none }
/-- Tile 95 alone in shell 95, IN_SERVICE, running job 7; tiles 84 and 85 in shell 95 instead for a ring; tile 95 spare. -/
def jShell : Job := { job 0x0101 1 with unit := some (.shell 95) }
def shellSvc : State := { put (withJob jShell) [(.fabTileStat 95, 0x5F01), (.fabShellMap 95, 0x01007800)] with
  tiles := [(95, kernel)] }
def pairSvc : State := { put (withJob { job 0x0101 1 with unit := some (.shell 95) }) [(.fabTileStat 84, 0x5F01), (.fabTileStat 85, 0x5F01), (.fabShellMap 95, 0x01007003)] with
  tiles := [(84, stroke), (85, kernel)] }
def spareSvc : State := put rnd [(.fabTileStat 95, 0x7F02)]
theorem witness_TileMachineChecks : ((shellSvc.tile 95).back ≠ 4 ∧ shellSvc.tileState 95 = 1 ∧ (shellSvc.tile 95).running = true ∧ shellSvc.shellRuns 95 = true) ∧
    (pairSvc.shellOf 85 = some 95 ∧ (pairSvc.shellJob (some 95)).isSome = true ∧ 1 < (pairSvc.shellTiles 95).length ∧
      (∀ u ∈ pairSvc.shellTiles 95, (pairSvc.tile u).halt = none)) ∧
    (spareSvc.tileState 95 = 2 ∧ (spareSvc.tile 95).running = false ∧ (spareSvc.tile 95).scrub = none) ∧
    ((onTile { Tile.idle with patch := [0] }).tileState 95 = 0 ∧ ((onTile { Tile.idle with patch := [0] }).tile 95).scrub = some 2) ∧
    (shellSvc.shellOf 95 = some 95 ∧ shellSvc.shellJob (some 95) = some jShell ∧ shellSvc.job? 7 = some jShell ∧ jShell.failures < 2) ∧
    jShell.On (.shell 95) := by
  refine ⟨by decide, by decide, by decide, by decide, by decide, .inl ⟨by decide, by decide, by decide, by decide⟩⟩
theorem test_watchdog : after (.watchdogExpiry 95) shellSvc (fun t => t.tileState 95 == 3 && t.fld (.fabTileStat 95) 23 20 == 7 && t.jobs.map (·.retried) == [true])
    = true := by decide
theorem test_clean_scrub : after (.tileIdleScrub 95 0) spareSvc (fun t => t.tileState 95 == 2) = true := by decide

def joinTile (x : Tile) : State := { put rnd [(.fabTileStat 95, 0x7F02)] with tiles := [(95, { x with joining := some 95 })] }
def bistSvc (why : BistFor) (n : DWord) : State := { put rnd [(.fabTileStat 95, 0x7F03 + n * 65536), (.fabMcLimit, 4), (.fabMclogInfo 0, 95)] with
  tiles := [(95, { Tile.idle with bist := some why, back := 2 })] }
theorem witness_SparesBistAndBudgets : ((joinTile Tile.idle).tileState 95 = 2 ∧ ((joinTile Tile.idle).tile 95).joining = some 95 ∧
      ((joinTile Tile.idle).tile 95).periodic = false ∧ (joinTile Tile.idle).fld (.fabIslStat (islandOf 95)) 6 4 = 0) ∧
    (joinTile Tile.idle).seedServed 95 = true ∧
    (((bistSvc .bringUp 0).tile 95).bist = some .bringUp ∧ ((bistSvc .bringUp 0).tile 95).unseeded = false) ∧
    ((bistSvc .bringUp 0).tileState 95 ≠ 5 ∧ ((bistSvc .bringUp 0).tile 95).back ≠ 4) ∧ (bistSvc .bringUp 0).seedServed 95 = true ∧
    ((bistSvc (.check 0 0) 3).seedServed 95 = true ∧ (bistSvc (.check 0 0) 3).fld (.fabTileStat 95) 19 16 < (bistSvc (.check 0 0) 3).fld .fabMcLimit 3 0) ∧
    ((bistSvc (.check 0 0) 4).seedServed 95 = true ∧ (bistSvc (.check 0 0) 4).fld .fabMcLimit 3 0 ≤ (bistSvc (.check 0 0) 4).fld (.fabTileStat 95) 19 16) ∧
    (put (bistSvc .bringUp 0) ((List.range 16).map (fun k => (Reg.rngDrbStat k, 0)))).drbState ((bistSvc .bringUp 0).maskDrb 95) = 0 ∧
    (((onTile { Tile.idle with periodic := true }).tile 95).bist = none ∧ (onTile { Tile.idle with periodic := true }).seedServed 95 = true) ∧
    (tget 0 95 ({ rnd with maskJobs := [(95, 3584)] } : State).maskJobs = 3584 ∧ tget 0 95 ({ rnd with maskJobs := [(95, 4096)] } : State).maskJobs = 4096 ∧ ((onTile kernel).tile 95).running = true) ∧
    ({ rnd with maskJobs := [(95, 3584)] } : State).seedServed 95 = true := by decide
theorem test_bist_past_the_limit : after (.tileBistComplete 95 true) (bistSvc (.check 0 0) 4) (fun t => t.tileState 95 == 4 && t.fld (.fabMclogInfo 0) 34 32 == 3)
    = true := by decide
theorem test_bring_up_passes : after (.tileBistComplete 95 true) (bistSvc .bringUp 0) (fun t => t.tileState 95 == 2 && t.fld (.fabTileStat 95) 25 24 == 1) = true := by
  decide
theorem test_reseed : after (.maskReseedRequest 95) { rnd with maskJobs := [(95, 3584)] } (fun t => tget 0 95 t.maskJobs == 0) = true := by decide

/-- Tile 95 attached and halted by HALT at a NOP, and by a breakpoint. -/
def debugSvc (h : Option Halt) : State := { put shellSvc [(.tilDbgCtrl 95, 1), (.dbgRights, 8)] with tiles := [(95, { kernel with pc := 0, imem := [0], halt := h })] }
theorem witness_TileDebugCommands : rnd.tileDebug = false ∧ rnd.shadowBad .dbgRights = false ∧ (debugSvc none).shadowBad .dbgRights = false ∧ (debugSvc none).tileDebug = true ∧ (debugSvc none).hidden (.tilDbgCtrl 95) = false ∧
    ((debugSvc none).tile 95).halt = none ∧ (debugSvc none).attached 95 = true ∧
    ((debugSvc (some ⟨10, 0, .none, none, false, false⟩)).tile 95).halt = some ⟨10, 0, .none, none, false, false⟩ ∧
    ((debugSvc (some ⟨11, 0, .none, none, false, false⟩)).tile 95).imem[0]? = some 0 ∧ (decodeTile 0).1 = 0 ∧ wordLegal 0 (decodeTile 0).2 = true ∧
    ((debugSvc none).onUnit (.shell 95)).head? = some jShell := by decide
theorem test_halt : after (.tilDbgHalt 95 0) (debugSvc none) (fun t => (t.tile 95).halt.map (·.cause) == some 10 && t.fld (.tilDbgStat 95) 11 8 == 10) = true := by
  decide
theorem test_step : after (.tilDbgStep 95) (debugSvc (some ⟨10, 0, .none, none, false, false⟩)) (fun t => (t.tile 95).pc == 1 && (t.tile 95).halt.map (·.cause) == some 11)
    = true := by decide
theorem test_abandon : after (.tilDbgAbandon 95) (debugSvc (some ⟨10, 0, .none, none, false, false⟩)) (fun t => t.jobs.map (·.retried) == [true]) = true := by
  decide

def tileIn (x : DWord) : State := put rnd [(.fabTileStat 95, 0x7F00 + x)]
theorem witness_TileCommands : rnd.hidden (.fabTileCmd 95) = false ∧ [0, 1, 2, 3, 4, 5].map (fun x => (tileIn (BitVec.ofNat 64 x)).tileState 95) = [0, 1, 2, 3, 4, 5] ∧
    (tileIn 0).tileReRigging 95 = false ∧ (tileIn 5).tileReRigging 95 = false ∧ shellSvc.tileReRigging 95 = false ∧ 95 ∈ shellSvc.shellTiles 95 ∧
    shellSvc.onUnit (.shell 95) ≠ [] ∧ ({ shellSvc with jobs := [] } : State).onUnit (.shell 95) = [] := by decide
/-- The same with a job that waits and is on no shell. -/
def waiterSvc : State := { shellSvc with jobs := [jRandom] }
theorem witness_WaitersOff : waiterSvc.WaitersOff := by
  intro x hx _
  have h : waiterSvc.jobs = [jRandom] := rfl
  rw [h, List.mem_singleton] at hx
  subst hx
  exact ⟨by decide, fun sh => by simp [jRandom, job]⟩
theorem test_bring_up_of_a_spare : after (.fabTileBringUp 95) (tileIn 2) (fun t => t.fld (.fabTileStat 95) 30 28 == 2 && t.tileState 95 == 2) = true := by decide
theorem test_retire_waits_for_the_job : after (.fabTileRetire 95) shellSvc (fun t => t.tileState 95 == 1 && (t.tile 95).back == 4) = true := by decide

/-- Island 7 in each power state, its shell 95 idle. -/
def islandIn (x : DWord) : State := put rnd [(.fabIslStat 7, x), (.fabShellMap 95, 0x01007800)]
/-- A re-rig of the pool of shell 95. -/
def heldIsland : State := { islandIn 0x10 with reRig := some ⟨(islandIn 0x10).shellPool 95, rig0, rig0, [], 0, true, false, []⟩ }
theorem witness_IslandClocksAndGates : rnd.hidden (.fabIslCtrl 7) = false ∧ (islandIn 0).fld (.fabIslStat 7) 6 4 = 0 ∧ (islandIn 0).reRig = none ∧
    ((islandIn 0).fld (.fabShellMap 95) 14 12 = 7 ∧ (islandIn 0).shellState 95 = 1) ∧
    ((islandIn 0x10).fld (.fabIslStat 7) 6 4 = 1 ∧ (∀ i, i < 12 → ((islandIn 0x10).tile (12 * 7 + i)).running = false) ∧ (islandIn 0x10).onUnit (.shell 95) = []) ∧
    ((islandIn 0x20).fld (.fabIslStat 7) 6 4 = 2 ∧ (put (islandIn 0x20) [(.fabTileStat 95, 0x7F05)]).tileState 95 = 5) ∧ (islandIn 0x30).fld (.fabIslStat 7) 6 4 = 3 ∧
    ((islandIn 0x10).gateHeld 7 = false ∧ (islandIn 0x30).gateHeld 7 = false ∧ heldIsland.gateHeld 7 = true) := by
  decide
theorem witness_IslandClocksAndGates_waiters : (islandIn 0x10).WaitersOff := by
  intro x hx
  have h : (islandIn 0x10).jobs = [] := rfl
  rw [h] at hx
  exact absurd hx (by simp)
theorem test_freq_under_the_ceiling : after (.islandFreqWrite 7 0) (islandIn 8) (fun t => t.fld (.fabIslStat 7) 1 0 == 2) = true := by decide
theorem test_gate_drains : after (.islandGate 7) (islandIn 0) (fun t => t.fld (.fabIslStat 7) 6 4 == 1 && t.shellState 95 == 4) = true := by decide
theorem test_power_off : after (.islandPowerOff 7) (islandIn 0x10) (fun t => t.fld (.fabIslStat 7) 6 4 == 3 && t.tileState 95 == 5) = true := by decide

/-- Hash core 127 and BNE core 7 in each state; the group that holds core 7. -/
def hashIn (x : Svc) (mc : Nat) (cmd : Bool) : State := { put rnd [(.fabMcLimit, 4)] with hcores := [(127, ⟨x, mc, cmd, false⟩)] }
def bneIn (x : DWord) (cmd : Bool) : State := { put rnd [(.fabMcLimit, 4), (.bneCoreState 7, x), (.bneGrpCfg 0, 0x8081)] with bcores := [(7, ⟨none, none, [], cmd, false⟩)] }
/-- A re-rig of pool 2 or of a BNE pool whose joining core is under test. -/
def joinSvc (s : State) (p : Nat) : State := { s with reRig := some ⟨p, { rig0 with groups := [⟨0, 1, 0x80, 0⟩] }, rig0, [], 0, true, true, [127, 7]⟩ }
theorem witness_CoreEvents : (((hashIn .inService 0 false).hcore 127).state = .inService ∧ ((hashIn .offline 0 true).hcore 127).cmd = true ∧
      ((hashIn .offline 3 false).hcore 127).mc < (hashIn .offline 3 false).fld .fabMcLimit 3 0 ∧
      (hashIn .offline 4 false).fld .fabMcLimit 3 0 ≤ ((hashIn .offline 4 false).hcore 127).mc ∧ (hashIn .offline 4 false).joiningHash 127 = false ∧
      (joinSvc (hashIn .offline 0 false) 2).joiningHash 127 = true ∧ rnd.boot.block = none) ∧
    (rnd.hidden .hsfCoreCmd = false ∧ (hashIn .retired 0 false).hashReRigging 127 = false ∧ (hashIn .inService 0 false).onHash 127 = [] ∧
      ({ hashIn .inService 0 false with jobs := [{ job 0x0C01 0 with unit := some (.hash 127) }] } : State).onHash 127 ≠ []) ∧
    ((bneIn 1 false).bneState 7 = 1 ∧ (bneIn 2 true).bneState 7 = 2 ∧ ((bneIn 2 true).bcore 7).cmd = true ∧
      (bneIn 0x3002 false).fld (.bneCoreState 7) 15 12 < 4 ∧ (bneIn 0x4002 false).fld (.bneCoreState 7) 15 12 = 4 ∧ (bneIn 0x4002 false).coreGroup 7 = some 0 ∧
      (bneIn 2 true).joiningBne 7 = false ∧ (joinSvc (bneIn 2 false) 1).joiningBne 7 = true) ∧
    (rnd.hidden .bneCoreCmd = false ∧ (bneIn 3 false).coreReRigging 7 = false ∧ (bneIn 3 false).bneState 7 = 3 ∧ (bneIn 1 false).onCore 7 = [] ∧
      ({ bneIn 1 false with jobs := [{ job 0x0B01 0 with unit := some (.bne 7 1) }] } : State).onCore 7 ≠ []) := by decide
theorem test_core_retires_at_the_limit : after (.hsfCoreBistComplete 127 true) (hashIn .offline 4 false) (fun t => decide ((t.hcore 127).state = .retired)) = true := by
  decide
theorem test_bne_check_counts : after (.bneMachineCheck 7 10) (bneIn 0xF001 false) (fun t => t.fld (.bneCoreState 7) 19 12 == 0xAF && t.bneState 7 == 2) = true := by
  decide
theorem test_bne_returns : after (.bneCoreBistComplete 7 true) (bneIn 2 true) (fun t => t.bneState 7 == 1 && t.fld (.bneCoreState 7) 21 20 == 1) = true := by
  decide

/-- A raw multiplication of priority 3 runs on BNE core 7, one of priority 0 of its slice waits; the rig's pool 1 is core 7. -/
def jRun : Job := { job 0x0B01 0 with unit := some (.bne 7 0), desc := leBytes 2 0x0B01 ++ [0, 3] ++ zeros 124 }
def jNext : Job := { job 0x0B01 0 with id := 8, phase := .waiting, unit := none, pool := none, desc := leBytes 2 0x0B01 ++ zeros 126 }
def rigB : Rig := { rig0 with ksets := [⟨1, 2, 0, [⟨0x0B01, 0, 1, 100, 0, 1, []⟩], []⟩], groups := [⟨0, 1, 0x80, 8⟩] }
def catchSvc (en : DWord) (st : DWord) : State := { put rnd [(.bneCoreState 7, 1), (.bneGrpCfg 0, 0x8081), (.slmSlicePools 5, 2), (.slmSliceStat 5, st), (.bneCtrl, en)] with
  jobs := [jRun, jNext], rig := some rigB }
/-- The classical half of a hybrid job on the core. -/
def jHybRun : Job := { job 0x1001 1 with phase := .started, unit := none, classical := half .gathered (some (.bne 7 0)) none, pq := half .started (some (.shell 3)) none }
def bnePool : RigPool := ⟨1, 2, 1, 0, 0, 0, 1, 2⟩
def counted : State := (catchSvc 1 1).setJob 7 (fun y => { y with catches := y.catches + 1 })
def yieldedSvc : State := { catchSvc 1 1 with jobs := [{ jRun with yielded := true }] }
theorem witness_CatchPointsAndYields : ((catchSvc 1 2).runningOn 7 = some jRun ∧ (catchSvc 1 2).job? 7 = some jRun ∧ (catchSvc 1 2).sliceState 5 = 2 ∧ (catchSvc 1 2).unitHalted (.bne 7 0) = false) ∧
    ((withJob jHybRun).runningOn 7 = some jHybRun ∧ dClass jHybRun.desc = 0x10 ∧ jHybRun.classical.phase ≠ .sealed ∧
      (put (withJob jHybRun) [(.slmSliceStat 5, 2)]).sliceState 5 = 2) ∧
    ((catchSvc 0 1).runningOn 7 = some jRun ∧ (catchSvc 0 1).transition = none ∧ (catchSvc 0 1).bit .bneCtrl 0 = false ∧ (catchSvc 0 1).leaving = false ∧ (catchSvc 0 1).unitHalted (.bne 7 0) = false) ∧
    ((catchSvc 1 1).unitHalted (.bne 7 0) = false ∧ (catchSvc 1 1).rig = some rigB ∧ (catchSvc 1 1).corePool 7 = some bnePool ∧ jRun.frame 7 = 0 ∧ counted.onUnit (.bne 7 1) = [] ∧
      counted.poolState bnePool = 1 ∧ (catchSvc 1 1).sliceState 5 ≠ 2 ∧ (catchSvc 1 1).transition = none ∧ (catchSvc 1 1).bit .bneCtrl 0 = true ∧
      (catchSvc 1 1).devState = 1 ∧ (catchSvc 1 1).bit .genState 4 = false ∧ (catchSvc 1 1).bit (.fabPoolCtrl 1) 0 = false ∧ ((counted.without 7).coxChoose rigB bnePool (.bne 7 1)).1 = some jNext ∧
      yieldsTo jRun jNext (remainingCost (counted.cost rigB bnePool jRun) 1) (counted.cost rigB bnePool jNext) = true) ∧
    yieldedSvc.runningOn 7 = none ∧ (yieldedSvc.onCore 7).head? = some { jRun with yielded := true } := by
  refine ⟨by decide, by decide, by decide, by decide +kernel, by decide, by decide⟩
theorem test_catch_in_a_quiescing_slice : after (.catchPoint 7) (catchSvc 1 2) (fun t => (t.jobs.map (fun (x : Job) => x.result.map (·.status))).head? == some (some 0x40))
    = true := by decide

/-- Context 15 of slice 511: free, or owned in a state, with SHA-256 and a length of 8. -/
def ctx (own : Option Claimant) (st : DWord) (r : Rde → Rde) : State := { put rnd [(.slmSliceStat 511, 1), (.slmSliceCtrl 511, 1), (.slmSliceRde 511, 0x1F),
    (.rdeStatus 15, st), (.rdeMode 15, 2), (.rdeLen 15, 8)] with rde := [(15, r ⟨own, [], 0, [], [], 2, 0, 0, 8, []⟩)] }
def mine (st : DWord) : State := ctx (some (.slice 511)) st id
/-- The context for an HMAC with slot 9, a key of slice 511 with this attribute word. -/
def macCtx (w : DWord) : State := { put (mine 1) [(.rdeMode 15, 0x12), (.rdeKey 15, 9), (.slmSliceKeywin 511, 0x1000000000)] with
  slots := [(9, ⟨[1, 2], w + 0x1FF00000000, ~~~(w + 0x1FF00000000), 0, none⟩)] }
theorem witness_DigestContexts : (ctx none 0 id).rdePath 15 (.slice 511) = true ∧ claimantCode (.slice 511) = 511 ∧ ((ctx none 0 id).rdeOf 15).owner = none ∧
    ((ctx (some .manager) 1 id).rdeOf 15).owner = some .manager ∧ ((mine 1).rdeOf 15).owner = some (.slice 511) ∧ (mine 4).rdeState 15 = 4 ∧
    rnd.rdePath 15 (.slice 511) = false ∧ ((mine 1).sliceBad 511 = false ∧ (ctx none 0 id).sliceBad 511 = false ∧ rnd.tamper.slotsDue = [] ∧ (mine 1).tamper.slotsDue = []) ∧
    ((mine 1).fld (.rdeMode 15) 3 0 = 2 ∧ (mine 1).fld (.rdeMode 15) 5 4 = 0 ∧ 0 < (mine 1).fld (.rdeLen 15) 47 0) ∧
    (put (mine 1) [(.rdeMode 15, 11)]).fld (.rdeMode 15) 3 0 = 11 ∧ (put (mine 1) [(.rdeMode 15, 0x32)]).fld (.rdeMode 15) 5 4 = 3 ∧
    ((mine 2).rdeState 15 = 2 ∧ (mine 2).bit (.rdeStatus 15) 3 = false ∧ (mine 2).fld (.rdeCount 15) 47 0 / 8 < (((mine 2).rdeOf 15).len + 7) / 8) ∧
    ((put (mine 2) [(.rdeCount 15, 8)]).fld (.rdeCount 15) 47 0 / 8 = 1 ∧ (mine 0xA).bit (.rdeStatus 15) 3 = true) ∧
    ((put (mine 2) [(.rdeCount 15, 8)]).rdeLengthsOk 15 8 = true ∧ (put (mine 2) [(.rdeCount 15, 8)]).rdeLengthsOk 15 17 = false) ∧
    ((mine 3).rdeState 15 = 3 ∧ (mine 3).jtagHalted 5 (128 + 15) = false ∧ ((mine 3).rdeOf 15).heldWords = [] ∧ ((mine 3).rdeOf 15).mac ≠ 2 ∧
      ((ctx (some .sc) 3 (fun r => { r with mac := 2 })).rdeOf 15).mac = 2) ∧
    ((ctx (some .sc) 2 (fun r => { r with buffered := 8 })).rdeOf 15).blockWords = 8 ∧ (mine 1).tamper.slotsDue = [] ∧
    ((macCtx 0x0D000801).rdeSlot 15 (.slice 511) = some 9 ∧ (macCtx 0x0D000801).slotBad 9 = false ∧ (macCtx 0x0D000801).rdeKeyCheck 15 (.slice 511) = .inr (9, [1, 2]) ∧
      (macCtx 0x0D000803).rdeKeyCheck 15 (.slice 511) = .inl 0x15 ∧ (macCtx 0x0D000801).fld (.rdeMode 15) 5 4 = 1 ∧
      0 < (macCtx 0x0D000801).fld (.rdeLen 15) 47 0) := by decide
theorem test_claim : after (.rdeClaim 15 (.slice 511)) (ctx none 0 id) (fun t => t.rdeState 15 == 1 && t.fld (.rdeStatus 15) 25 16 == 511) = true := by decide
theorem test_claim_of_another : after (.rdeClaim 15 (.slice 511)) (ctx (some .manager) 1 id) (fun t => tget 0 (.slice 511) (t.rdeOf 15).cmd == 1) = true := by decide
theorem test_first_word : after (.rdeData 15 (.slice 511) 64 0x0807060504030201) (mine 1) (fun t => t.rdeState 15 == 2 && (t.rdeOf 15).msg == [1, 2, 3, 4, 5, 6, 7, 8]) = true := by
  decide
theorem test_undefined_hash : after (.rdeData 15 (.slice 511) 64 0) (put (mine 1) [(.rdeMode 15, 11)]) (fun t => t.rdeState 15 == 5) = true := by decide

/-! ### The mailbox -/

/-- Channel `ch` holds a queued command with a request, or with `n` zero bytes. -/
def mbx (s : State) (ch code : Nat) (r : Bytes) : State :=
  { put s ([(Reg.mbxCmd ch, BitVec.ofNat 64 code), (.mbxStatus ch, 1), (.mbxReqLen ch, BitVec.ofNat 64 r.length)] ++
      (List.range ((r.length + 7) / 8)).map (fun i => (Reg.mbxReq ch i, BitVec.ofNat 64 (leAt r (8 * i) 8)))) with mbx := { s.mbx with queue := [ch] } }
def mbxZero (s : State) (ch code n : Nat) : State :=
  { put s [(Reg.mbxCmd ch, BitVec.ofNat 64 code), (.mbxStatus ch, 1), (.mbxReqLen ch, BitVec.ofNat 64 n)] with mbx := { s.mbx with queue := [ch] } }

/-- Slots whose listed words agree with their inverses are all good. -/
theorem slots_good (s : State) (h : s.slots.all (fun e => e.2.inv == ~~~e.2.attr) = true) : ∀ a, s.slotBad a = false := by
  intro a
  unfold State.slotBad State.slotAt
  generalize s.slots = l at h
  induction l with
  | nil => simp [tget]
  | cons e l ih =>
    simp only [List.all_cons, Bool.and_eq_true] at h
    simp only [tget]
    split
    · simpa using h.1
    · exact ih h.2

/-- Every register but those listed agrees with its shadow. -/
theorem good_shadows (s : State) (l : List Reg) (h : s.shadow.all (fun e => e.2.1 == ~~~s.rd e.1 || l.contains e.1) = true) : ∀ r, r ∉ l → s.shadowBad r = false := by
  intro r hr
  have key : ∀ t : List (Reg × DWord × DWord), t.all (fun e => e.2.1 == ~~~s.rd e.1 || l.contains e.1) = true →
      (tget (~~~s.rd r, s.rd r) r t).1 = ~~~s.rd r := by
    intro t ht
    induction t with
    | nil => rfl
    | cons e t ih =>
      simp only [List.all_cons, Bool.and_eq_true, Bool.or_eq_true, beq_iff_eq, List.contains_iff_mem] at ht
      simp only [tget]
      split
      · next he => subst he; exact ht.1.resolve_right hr
      · exact ih ht.2
  simp [State.shadowBad, State.shadowOf, key s.shadow h]

/-- What `State.Serves` asks, as a check. -/
def servesOk (s : State) (i : Instr) (ch : Nat) (r : Bytes) : Bool :=
  (match mbxRow i with
    | some x => s.mbxCode ch == x.code && x.chans.contains ch && x.states.contains s.devState && x.okLen r.length
    | none => false) && s.mbxHead == some ch && s.mbxRequest ch == r && s.slots.all (fun e => e.2.inv == ~~~e.2.attr)
    && s.shadow.all (fun e => e.2.1 == ~~~s.rd e.1) && decide (s.journalUsed < 2048) && s.tamper.dip.isNone && s.signDraws.isSome && (s.scDraw 1).isSome

theorem serves_of_ok (s : State) (i : Instr) (ch : Nat) (r : Bytes) (h : servesOk s i ch r = true) : s.Serves i ch r := by
  unfold servesOk at h
  cases hr : mbxRow i with
  | none => simp [hr] at h
  | some x =>
    simp only [hr, Bool.and_eq_true, beq_iff_eq, List.contains_iff_mem, Option.isNone_iff_eq_none, decide_eq_true_eq] at h
    obtain ⟨⟨⟨⟨⟨⟨⟨⟨⟨⟨⟨h1, h2⟩, h3⟩, h4⟩, h5⟩, h6⟩, h7⟩, hs⟩, hj⟩, h8⟩, h9⟩, h10⟩ := h
    exact ⟨⟨x, hr, h1, h2, h3, h4⟩, h5, h6, slots_good s h7, fun r => good_shadows s [] (by simpa using hs) r (by simp), hj, h8, h9, h10⟩

/-- The device in RECOVERY, in BOOT and SCRAPPED. -/
def inState (x : DWord) : State := put rnd [(.genState, x)]
/-- Channel 1 asks for RIG_CHECK while channel 0 runs RIG_WRITE. -/
def beside : State := { mbx (put rnd [(.mbxCmd 0, 0x0203), (.mbxStatus 0, 2)]) 1 0x0202 [] with mbx := { rnd.mbx with queue := [1], busy := some 0 } }
theorem witness_MailboxRefusals : (mbxRow (.keyGetPublic)).map (·.chans) = some [0] ∧ (mbx rnd 1 0x0304 (zeros 4)).mbxHead = some 1 ∧
    (mbx rnd 1 0x0304 (zeros 4)).mbxCode 1 = 0x0304 ∧ (mbx (inState 3) 0 0x0304 (zeros 4)).devState = 3 ∧ (mbx (inState 6) 1 0x0304 (zeros 4)).devState = 6 ∧ (mbx rnd 0 0x0304 (zeros 5)).mbxRequest 0 = zeros 5 ∧
    (mbx rnd 1 0x0304 (zeros 4)).slots = [] ∧ (mbx rnd 0 0x0304 (zeros 5)).signDraws.isSome = true ∧ ((mbx rnd 0 0x0304 (zeros 5)).scDraw 1).isSome = true ∧
    ((mbx rnd 1 0x0304 (zeros 4)).journalUsed < 2048 ∧ (mbx rnd 1 0x0304 (zeros 4)).tamper.dip = none) ∧
    (beside.mbxServes = true ∧ beside.mbx.busy = some 0 ∧ beside.mbx.queue = [1] ∧ beside.mbxCode 0 = 0x0203 ∧ beside.bit (.mbxStatus 0) 2 = false ∧ beside.devState = 1 ∧ beside.mbxRequest 1 = [] ∧
      (mbxRow .rigCheck).any (fun x => beside.mbxCode 1 == x.code) = true) ∧
    (put rnd [(.mbxStatus 1, 3)]).mbxState 1 = 3 ∧ (put rnd [(.mbxStatus 1, 3)]).hidden (.mbxCtrl 1) = false := by decide
theorem test_channel_first : after .keyGetPublic (mbx (inState 3) 1 0x0304 []) (fun t => t.fld (.mbxStatus 1) 15 0 == 0x3203) = true := by decide
theorem test_state_first_in_scrapped : after .keyGetPublic (mbx (inState 6) 1 0x0304 []) (fun t => t.fld (.mbxStatus 1) 15 0 == 0x2503) = true := by decide
theorem test_state_before_length : after .keyGetPublic (mbx (inState 3) 0 0x0304 []) (fun t => t.fld (.mbxStatus 0) 15 0 == 0x2503) = true := by decide
theorem test_bad_length : after .keyGetPublic (mbx rnd 0 0x0304 []) (fun t => t.fld (.mbxStatus 0) 15 0 == 0x3103) = true := by decide

/-- RIG_STAGE of eight bytes from host memory, and from the staging buffer on channel 1. -/
def stageReq (addr : Nat) : Bytes := leBytes 8 addr ++ leBytes 4 8
theorem witness_RigCommands : (mbx rnd 0 0x0201 (stageReq 0x1000)).Serves (.rigStage (.data [1])) 0 (stageReq 0x1000) ∧
    (mbx rnd 1 0x0201 (stageReq stagingAddr)).Serves (.rigStage .ecc) 1 (stageReq stagingAddr) ∧
    (mbx rnd 0 0x0201 (stageReq 0x1000)).requestData 0x1000 8 (.data [1]) = some (padTo 8 [1]) ∧
    (mbx rnd 1 0x0202 []).Serves .rigCheck 1 [] ∧ (mbx (inState 3) 1 0x0203 []).Serves .rigWrite 1 [] ∧ (mbx rnd 0 0x0205 []).Serves .rigAuthRotate 0 [] ∧
    (mbx rnd 0 0x0206 []).Serves .rigInfo 0 [] ∧ ((mbx rnd 0 0x0203 []).mbxTaken 0).rigBusy 0 = false ∧ ((mbx rnd 0 0x0205 []).mbxTaken 0).rigBusy 0 = false ∧ (mbx rnd 0 0x0202 []).reRig = none := by
  refine ⟨serves_of_ok _ _ _ _ (by decide), serves_of_ok _ _ _ _ (by decide), by decide, serves_of_ok _ _ _ _ (by decide), serves_of_ok _ _ _ _ (by decide),
    serves_of_ok _ _ _ _ (by decide), serves_of_ok _ _ _ _ (by decide), by decide, by decide⟩
theorem test_stage : after (.rigStage (.data [5])) (mbx rnd 0 0x0201 (stageReq 0x1000)) (fun t => t.mbx.staged == 8 && t.sram == [(0, 5)] && t.mbxState 0 == 3)
    = true := by decide
theorem test_check_of_nothing : after .rigCheck (mbx rnd 0 0x0202 []) (fun t => t.fld (.mbxStatus 0) 15 8 == 1) = true := by decide

/-- A flash write of channel 0 to rig copy B; a re-rig of pool 2 before its commit, after it, and drained. -/
def flashSvc (why : FlashFor) (code : Nat) : State := { put (mbx rnd 0 code []) [(.mbxStatus 0, 2)] with
  mbx := { (mbx rnd 0 code []).mbx with queue := [], busy := some 0, flash := some ⟨0, 5, [1, 2], why⟩ } }
def rig1 : Rig := { rig0 with version := 2 }
def reRigSvc (com dr : Bool) : State := { flashSvc (.rigPartial 2) 0x0204 with rig := some (if com then rig1 else rig0), reRig := some ⟨2, rig1, rig0, [1, 2], 5, com, dr, []⟩ }
theorem witness_FlashAndReRig : ((flashSvc .rigWrite 0x0203).mbx.flash = some ⟨0, 5, [1, 2], .rigWrite⟩ ∧ (flashSvc .rigWrite 0x0203).tamper.dip = none ∧
      (flashSvc .rigWrite 0x0203).mbxCode 0 ∈ mbxCodes ∧ (flashSvc (.rotate 7) 0x0205).mbx.flash = some ⟨0, 5, [1, 2], .rotate 7⟩ ∧ 7 < (flashSvc (.rotate 7) 0x0205).otp.rigPos.length) ∧
    (State.Serves { mbx rnd 0 0x0204 [] with rig := some rig0 } .rigPartial 0 [] ∧ (({ mbx rnd 0 0x0204 [] with rig := some rig0 } : State).mbxTaken 0).rigBusy 0 = false) ∧
    ((reRigSvc false false).reRig = some ⟨2, rig1, rig0, [1, 2], 5, false, false, []⟩ ∧ (reRigSvc false false).mbx.flash = some ⟨0, 5, [1, 2], .rigPartial 2⟩ ∧
      (reRigSvc false false).tamper.dip = none ∧ (reRigSvc false false).mbxCode 0 ∈ mbxCodes) ∧
    ((reRigSvc true false).poolRec 2).any (reRigSvc true false).poolRuns = false ∧ (reRigSvc true true).mbx.busy = some 0 ∧ (reRigSvc true true).mbxCode 0 = 0x0204 := by
  refine ⟨by decide, ⟨serves_of_ok _ _ _ _ (by decide), by decide⟩, by decide, by decide, by decide, by decide⟩
theorem test_failed_commit : after (.flashWriteCommit false) (flashSvc .rigWrite 0x0203) (fun t => t.fld (.mbxStatus 0) 15 0 == 0x2403 && t.copyAt 5 == []) = true := by
  decide
theorem test_rig_in_force_at_the_commit : after (.rigPartialCommit true) (reRigSvc false false) (fun t => t.rig.map (·.version) == some 2) = true := by decide

/-- An ML-KEM-768 seed in slot 131071 of slice 511, and a request that writes one there. -/
def kemAttr : DWord := 0x1FF01020001
def keySvc : State := { rnd with slots := [(131071, ⟨zeros 64, kemAttr, ~~~kemAttr, 0, none⟩)] }
def keyReq : Bytes := leBytes 4 131071 ++ [1, 2, 0, 0] ++ leBytes 2 0x3FE ++ zeros 2 ++ leBytes 4 64 ++ zeros 8 ++ zeros 64
/-- A P-256 scalar of zero, which the checks on clear forms refuse. -/
def badKeyReq : Bytes := leBytes 4 131071 ++ [8, 1, 0, 0] ++ leBytes 2 0x3FE ++ zeros 2 ++ leBytes 4 32 ++ zeros 8 ++ zeros 32
def slotReq (rest : Bytes) : Bytes := leBytes 4 131071 ++ rest
theorem witness_KeyCommands_writing : ((mbx (inState 0) 1 0x0001 (leBytes 4 0xFFFF8 ++ zeros 4 ++ [1, 2])).Serves .mbxPut 1 (leBytes 4 0xFFFF8 ++ zeros 4 ++ [1, 2])) ∧
    ((mbx rnd 0 0x0301 keyReq).Serves (.keyWrite .ecc) 0 keyReq ∧ keyWriteOk keyReq = true ∧ ((mbx rnd 0 0x0301 keyReq).slotAt 131071).filled = false ∧
      clearFail 1 2 (keyReq.drop 24) = none) ∧
    ((mbx rnd 0 0x0301 badKeyReq).Serves (.keyWrite .ecc) 0 badKeyReq ∧ keyWriteOk badKeyReq = true ∧ clearFail 8 1 (badKeyReq.drop 24) = some 1) := by
  refine ⟨serves_of_ok _ _ _ _ (by decide), ⟨serves_of_ok _ _ _ _ (by decide), by decide, by decide, by decide⟩,
    serves_of_ok _ _ _ _ (by decide), by decide, by decide⟩
/-- A journal with no room. -/
def fullJournal : State := { rnd with jobs := List.replicate 2048 { job 0x0D05 0 with journal := true } }
theorem witness_KeyCommands_using : ((mbx keySvc 0 0x0302 (slotReq [63, 1, 255, 255, 255, 255])).mbxHead = some 0) ∧
    (mbx keySvc 0 0x0302 (slotReq [63, 1, 0, 0, 255, 255])).Serves .keySetAttr 0 (slotReq [63, 1, 0, 0, 255, 255]) ∧
    (keySvc.usable 131071 = true ∧ keySvc.sealedAttr (keySvc.slotAt 131071).attr = false ∧ (mbx keySvc 0 0x0304 (slotReq [])).material 131071 = some (zeros 64)) ∧
    (fullJournal.journalUsed = 2048 ∧ fullJournal.tamper.dip = none ∧ (mbxRow .keyDestroy).any fullJournal.mbxRefused = false) ∧
    (mbx keySvc 0 0x0303 (slotReq [1, 0, 0, 0])).Serves .keyDestroy 0 (slotReq [1, 0, 0, 0]) ∧ (131071 + 1 ≤ 131072) ∧
    (mbx keySvc 0 0x0304 (slotReq [])).Serves .keyGetPublic 0 (slotReq []) ∧ attrClass (keySvc.slotAt 131071).attr ≠ 0x0D ∧
    (mbx keySvc 0 0x0305 (slotReq (zeros 36))).Serves .keyAttest 0 (slotReq (zeros 36)) ∧
    (∃ x y u, ((mbx keySvc 0 0x0305 (slotReq (zeros 36))).mbxTaken 0).signDraws = some (x, y, u)) ∧
    (mbx rnd 1 0x0320 []).Serves .getIdentity 1 [] ∧ (∃ x y u, ((mbx rnd 1 0x0320 []).mbxTaken 1).signDraws = some (x, y, u)) ∧
    (mbx rnd 0 0x0321 (zeros 32)).Serves .attestIdentity 0 (zeros 32) ∧ (∃ x y u, ((mbx rnd 0 0x0321 (zeros 32)).mbxTaken 0).signDraws = some (x, y, u)) := by
  refine ⟨by decide, serves_of_ok _ _ _ _ (by decide), by decide, by decide +kernel, serves_of_ok _ _ _ _ (by decide), by decide, serves_of_ok _ _ _ _ (by decide), by decide,
    serves_of_ok _ _ _ _ (by decide), ⟨_, _, _, rfl⟩, serves_of_ok _ _ _ _ (by decide), ⟨_, _, _, rfl⟩, serves_of_ok _ _ _ _ (by decide), _, _, _, rfl⟩
theorem test_key_write : after (.keyWrite .ecc) (mbx rnd 0 0x0301 keyReq) (fun t => (t.slotAt 131071).filled && (t.slotAt 131071).mat == zeros 64 &&
    attrClass (t.slotAt 131071).attr == 1 && attrOwner (t.slotAt 131071).attr == 0x3FE) = true := by decide
theorem test_key_destroy : after .keyDestroy (mbx keySvc 0 0x0303 (slotReq [1, 0, 0, 0])) (fun t => !(t.slotAt 131071).filled && t.fld (.mbxDetail 0) 31 0 == 1) = true := by
  decide +kernel

/-- The vault with entry 63. -/
def vaultSvc : State := { keySvc with bbram := { keySvc.bbram with vault := [(63, vaultAttr kemAttr, zeros 64)] } }
def storeReq : Bytes := slotReq [62, 0, 0, 0]
def loadReq : Bytes := [63, 0, 0, 0] ++ leBytes 4 131070 ++ leBytes 2 511
def eraseReq : Bytes := [63, 0, 0, 0, 0, 0, 0, 0]
theorem witness_VaultCommands : (mbx vaultSvc 0 0x0310 storeReq).Serves .vaultStore 0 storeReq ∧ (vaultSvc.vaultEntry 62 = none ∧ vaultable kemAttr (zeros 64) = true ∧
      vaultable 0x1FF0A000001 (zeros 64) = false) ∧
    (mbx vaultSvc 0 0x0311 loadReq).Serves .vaultLoad 0 loadReq ∧ (vaultSvc.vaultEntry 63 = some (vaultAttr kemAttr, zeros 64) ∧ vaultSvc.sealedAttr (vaultAttr kemAttr) = false ∧
      (vaultSvc.slotAt 131070).filled = false) ∧
    (mbx vaultSvc 1 0x0312 eraseReq).Serves .vaultErase 1 eraseReq ∧ (mbx vaultSvc 1 0x0314 []).Serves .vaultInfo 1 [] ∧ (mbx vaultSvc 0 0x0313 []).Serves .vaultClear 0 [] ∧
    (mbx (inState 5) 1 0x0330 []).Serves .zeroise 1 [] := by
  refine ⟨serves_of_ok _ _ _ _ (by decide), by decide, serves_of_ok _ _ _ _ (by decide), by decide, serves_of_ok _ _ _ _ (by decide), serves_of_ok _ _ _ _ (by decide),
    serves_of_ok _ _ _ _ (by decide), serves_of_ok _ _ _ _ (by decide)⟩
theorem test_vault_load : after .vaultLoad (mbx vaultSvc 0 0x0311 loadReq) (fun t => (t.slotAt 131070).filled && attrOwner (t.slotAt 131070).attr == 511) = true := by
  decide

/-- FW_WRITE's request: staging buffer, four bytes, an offset and a part number. -/
def fwReq (off part : Nat) : Bytes := leBytes 8 stagingAddr ++ leBytes 4 4 ++ leBytes 4 off ++ [BitVec.ofNat 8 part, 0, 0, 0]
def sessionSvc (copy : Nat) : State := { rnd with mbx := { rnd.mbx with session := some ⟨1, copy, [7]⟩ } }
theorem witness_FirmwareCommands : (mbx rnd 1 0x0502 (fwReq 0 1)).Serves (.fwWrite .ecc) 1 (fwReq 0 1) ∧ (mbx rnd 1 0x0503 (fwReq 0 1)).Serves (.patchWrite .ecc) 1 (fwReq 0 1) ∧
    ((mbx rnd 1 0x0502 (fwReq 0 1)).requestData stagingAddr 4 .ecc = some (zeros 4) ∧ (mbx rnd 1 0x0502 (fwReq 0 1)).mbx.session = none) ∧
    (mbx (sessionSvc 0) 1 0x0502 (fwReq 1 0)).Serves (.fwWrite .ecc) 1 (fwReq 1 0) ∧ (mbx (sessionSvc 3) 1 0x0503 (fwReq 1 2)).Serves (.patchWrite .ecc) 1 (fwReq 1 2) ∧
    (mbx (sessionSvc 3) 1 0x0503 (fwReq 1 2)).mbx.session = some ⟨1, 3, [7]⟩ ∧ (mbx rnd 1 0x0502 (fwReq 0 3)).Serves (.fwWrite .ecc) 1 (fwReq 0 3) ∧
    (mbx (inState 2) 0 0x0501 [1, 0, 0, 0]).Serves .restart 0 [1, 0, 0, 0] ∧ (mbx (inState 5) 1 0x0504 []).Serves .bootInfo 1 [] := by
  refine ⟨serves_of_ok _ _ _ _ (by decide), serves_of_ok _ _ _ _ (by decide), by decide, serves_of_ok _ _ _ _ (by decide), serves_of_ok _ _ _ _ (by decide), by decide,
    serves_of_ok _ _ _ _ (by decide), serves_of_ok _ _ _ _ (by decide), serves_of_ok _ _ _ _ (by decide)⟩
theorem test_first_part : after (.fwWrite .ecc) (mbx rnd 1 0x0502 (fwReq 0 1)) (fun t => t.mbx.session.map (·.bytes) == some (zeros 4) && t.fld (.mbxDetail 1) 31 0 == 4)
    = true := by decide
theorem test_restart_warm : after .restart (mbx rnd 0 0x0501 [0, 0, 0, 0]) (fun t => t.boot.held && !t.boot.cold && t.fld .rstCause 3 0 == 8) = true := by decide

/-- The life-cycle register at a state, and a transition whose work has ended. -/
def lcIn (st : DWord) : State := put rnd [(.lcsState, st)]
def movingSvc (target : Nat) : State := { rnd with transition := some ⟨target, false, none, false⟩ }
theorem witness_LifeCycleCommands : (mbx (inState 6) 1 0x0401 []).Serves .lcStatus 1 [] ∧ (mbx (lcIn 1) 0 0x0402 [2, 0, 0, 0]).Serves .lcAdvance 0 [2, 0, 0, 0] ∧
    (lcLegal (lcIn 1).lcState 2 = true ∧ lcLegal (lcIn 4).lcState 5 = true ∧ lcLegal (lcIn 4).lcState 3 = false ∧ lcLegal (lcIn 0).lcState 1 = true) ∧
    ((mbx (inState 5) 1 0x0402 [1, 0, 0, 0]).Serves .lcAdvance 1 [1, 0, 0, 0] ∧ rnd.otp.secretFull = false ∧ (mbx (inState 5) 1 0x0402 [1, 0, 0, 0]).lcState = 0) ∧
    ((movingSvc 2).transition = some ⟨2, false, none, false⟩ ∧ (movingSvc 2).jobs = [] ∧ (movingSvc 2).tamper.dip = none ∧ (movingSvc 2).boot.held = false ∧ (movingSvc 2).power.io = true) ∧
    (∃ sec u, (movingSvc 2).moveSecret 2 = some (sec, u)) ∧ ∃ sec u, (movingSvc 1).moveSecret 1 = some (sec, u) := by
  refine ⟨serves_of_ok _ _ _ _ (by decide), serves_of_ok _ _ _ _ (by decide), by decide, ⟨serves_of_ok _ _ _ _ (by decide), by decide, by decide⟩, by decide,
    ⟨_, _, rfl⟩, _, _, rfl⟩
theorem test_illegal_move : after .lcAdvance (mbx (lcIn 4) 0 0x0402 [3, 0, 0, 0]) (fun t => t.fld (.mbxStatus 0) 15 8 == 0x40) = true := by decide
theorem test_move_waits : after .lcAdvance (mbx (lcIn 1) 0 0x0402 [2, 0, 0, 0]) (fun t => t.bit (.mbxStatus 0) 2 && t.fld .lcsState 10 4 == 33) = true := by decide

def nonceSvc : State := { put rnd [(.dbgChalExpiry, 5), (.genTime, 5)] with dbg := ⟨some (zeros 32), 0, []⟩ }
theorem witness_DebugCommands : (mbx rnd 1 0x0410 []).Serves .dbgChallenge 1 [] ∧ (∃ n u, ((mbx rnd 1 0x0410 []).mbxTaken 1).scDraw 32 = some (n, u)) ∧
    (nonceSvc.dbg.nonce.isSome = true ∧ nonceSvc.rd .dbgChalExpiry ≠ 0 ∧ nonceSvc.fld .dbgChalExpiry 63 0 ≤ nonceSvc.now) ∧
    (mbx nonceSvc 0 0x0411 (zeros 4)).Serves .dbgOpen 0 (zeros 4) ∧ (mbx rnd 0 0x0412 []).Serves .dbgClose 0 [] ∧
    ((mbxZero (lcIn 2) 0 0x0413 1952).Serves .dbgSetAuth 0 (zeros 1952) ∧ (lcIn 2).lcState = 2 ∧ posProgrammed (lcIn 2).otp.authI = false) ∧
    (mbxZero (lcIn 1) 0 0x0413 1952).lcState ≠ 2 ∧ (mbx (lcIn 3) 1 0x0414 [63, 0, 0, 0]).Serves .dbgRevoke 1 [63, 0, 0, 0] ∧ (lcIn 3).lcState = 3 := by
  refine ⟨serves_of_ok _ _ _ _ (by decide), ⟨_, _, rfl⟩, by decide, serves_of_ok _ _ _ _ (by decide), serves_of_ok _ _ _ _ (by decide),
    ⟨serves_of_ok _ _ _ _ (by decide +kernel), by decide, by decide⟩, by decide +kernel, serves_of_ok _ _ _ _ (by decide), by decide⟩
theorem test_challenge : after .dbgChallenge (mbx rnd 1 0x0410 []) (fun t => t.rd .dbgChalExpiry == 600000000000 && t.fld (.mbxRspLen 1) 14 0 == 48) = true := by decide
theorem test_lapse : after .challengeLapse nonceSvc (fun t => t.dbg.nonce == none) = true := by decide
theorem test_short_certificate : after .dbgOpen (mbx nonceSvc 0 0x0411 (zeros 4)) (fun t => t.fld (.mbxStatus 0) 15 8 == 0x42 && t.dbg.nonce.isSome) = true := by decide

/-- Channel 0 waits for presence with a command. -/
def waits (s : State) (code : Nat) (r : Bytes) : State := { put (mbx s 0 code r) [(.mbxStatus 0, 6)] with mbx := { s.mbx with busy := some 0 } }
/-- The pool holds 48 B. -/
def poolSvc : State := { put rnd [(.rngStatus, 0x3002)] with rng := { rnd.rng with pool := zeros 48 } }
theorem witness_PresenceServes : ((waits rnd 0x0413 (zeros 8)).mbx.busy = some 0 ∧ (waits rnd 0x0413 (zeros 8)).bit (.mbxStatus 0) 2 = true ∧
      (waits rnd 0x0413 (zeros 8)).mbxCode 0 ∈ mbxCodes ∧ (waits rnd 0x0413 (zeros 8)).boot.held = false) ∧
    ((waits rnd 0x0413 (zeros 8)).presenceOk 0 false true = false ∧ (waits rnd 0x0413 (zeros 8)).presenceOk 0 true true = true ∧ (waits rnd 0x0414 [63, 0, 0, 0]).presenceOk 0 false false = true ∧
      (waits rnd 0x0402 [3, 0, 0, 0]).presenceOk 0 true false = true ∧ (waits rnd 0x0411 (zeros 60)).presenceOk 0 false false = true) ∧
    ((waits poolSvc 0x0313 []).prDraw 36).isSome = true ∧ (waits poolSvc 0x0313 []).presenceOk 0 true false = true ∧
    (waits rnd 0x0205 []).presenceOk 0 true false = true ∧ (waits rnd 0x0205 []).power.io = true ∧ (waits rnd 0x0205 []).power.backup = false ∧
      (waits rnd 0x0205 []).tamper.dip = none := by
  refine ⟨by decide, by decide, by decide, by decide, by decide, by decide, by decide, by decide⟩
theorem test_revocation : after (.presencePress false false) (waits rnd 0x0414 [63, 0, 0, 0]) (fun t => t.otp.debugMin == 63 && t.fld (.mbxDetail 0) 31 0 == 63) = true := by
  decide
theorem test_no_jumper : after (.presencePress false true) (waits rnd 0x0402 [3, 0, 0, 0]) (fun t => t.fld (.mbxStatus 0) 15 0 == 0x2703 && t.transition == none) = true := by
  decide
theorem test_presence_times_out : after .presenceTimeout (waits rnd 0x0414 [63, 0, 0, 0]) (fun t => t.fld (.mbxStatus 0) 15 0 == 0x2703 && t.otp.debugMin == 0) = true := by
  decide

/-! ### Tamper, random numbers, memory -/

/-- Source `k` at a class. -/
def classed (s : State) (k cls : Nat) : State := put s [(.tmpSrcCfg k, BitVec.ofNat 64 (cls * 256))]
def groupSvc : State := { classed rnd 17 5 with tamper := { rnd.tamper with running := 6, group := [1] } }
def backupSvc : State := { rnd with power := { rnd.power with io := false, backup := true } }
/-- A start that holds in the boot ROM for source 14. -/
def holding : State := { rnd with boot := { rnd.boot with starting := true, romHold := true }, tamper := { rnd.tamper with holdStart := [14] } }
theorem test_rom_hold_ends : after (.sourceInactive 14) holding (fun t => !t.boot.romHold && t.tamper.holdStart == []) = true := by decide
theorem witness_TamperAlarms : (rnd.srcLive 17 = true ∧ rnd.bit .tmpActive 17 = false ∧ rnd.boot.held = false ∧
      (classed rnd 17 4).shadowBad (.tmpSrcCfg 17) = false ∧ (classed rnd 17 4).shadowBad .tmpTempCtrl = false ∧ (classed rnd 17 4).execClass ((classed rnd 17 4).effClass 17) = 4) ∧
    ([1, 2, 3, 4, 5, 6].map (fun c => (classed rnd 17 c).effClass 17) = [1, 2, 3, 4, 5, 6]) ∧ (rnd.devState = 1 ∧ rnd.boot.starting = false ∧ rnd.mbx.busy = none ∧ rnd.reRig = none) ∧
    (groupSvc.tamper.group ≠ [] ∧ groupSvc.effClass 17 ≤ groupSvc.tamper.running ∧ groupSvc.tamper.running ≤ 6 ∧ groupSvc.mbx.busy = none ∧ groupSvc.shadowBad (.tmpSrcCfg 17) = false ∧
      groupSvc.shadowBad .tmpTempCtrl = false) ∧
    (backupSvc.power.backup = true ∧ backupSvc.bit .tmpActive 7 = false ∧ backupSvc.power.crystal = true) ∧
    (({ rnd with tamper := { rnd.tamper with holdStart := [13, 14] } } : State).tamper.holdStart.contains 14 = true ∧ rnd.mbxHead = none ∧ rnd.boot.romHold = false ∧
      holding.boot.romHold = true ∧ holding.tamper.holdStart = [14] ∧ holding.tamper.dip = none ∧ holding.mbxHead = none ∧ rnd.transition = none) := by decide
theorem test_alarm_interrupts : after (.tamperAlarm 17 9 false) (classed rnd 17 2) (fun t => t.bit .tmpAlarm 17 && t.pins.alarmLow && t.devState == 1 && t.fld (.tmpLogWord 0 1) 23 0 == 0x21101)
    = true := by decide
theorem test_alarm_halts : after (.tamperAlarm 17 9 false) (classed rnd 17 3) (fun t => t.devState == 2 && t.fld .tmpStatus 12 8 == 17) = true := by decide
theorem test_alarm_joins : after (.tamperAlarm 17 9 true) groupSvc (fun t => t.devState == 1 && t.fld (.tmpLogWord 0 1) 31 16 == 0x206) = true := by decide
theorem test_backup_alarm : after (.backupAlarm 7 0) { backupSvc with tamper := { backupSvc.tamper with aonClass := List.replicate 8 (6, 1) } } (fun t => t.bbram.lock && t.bit .tmpActive 7) = true := by
  decide
theorem test_source_clears : after (.sourceInactive 16) (put rnd [(.tmpActive, 0x10000)]) (fun t => t.rd .tmpActive == 0) = true := by decide

/-- The warning level at 700 mV; a dip; HALTED after it. -/
def warned : State := put (classed rnd 9 2) [(.tmpVdd, 700)]
def dipping : State := dipState (put (withJob { job 0x0B01 0 with suspect := true }) [(.tmpVdd, 700), (.genState, 0x11)])
def haltedSvc : State := put rnd [(.genState, 2), (.tmpStatus, 4)]
theorem witness_DipsHaltedAndShadows : (warned.warnLevel = 700 ∧ warned.monitored = true ∧ warned.tamper.dip = none ∧ warned.bit .tmpActive 9 = false ∧ warned.effClass 9 = 2 ∧
      warned.shadowBad .tmpVdd = false ∧ warned.shadowBad (.tmpSrcCfg 9) = false) ∧
    (dipping.tamper.dip = some ⟨640, false, 2, false, true⟩ ∧ (dipping.mbx.pressed = false ∧ dipping.transition = none) ∧ dipping.boot.romHold = false ∧ dipping.mbxHead = none ∧ dipping.shadowBad .tmpVdd = false ∧ dipping.warnLevel + 15 = 715 ∧ (dipping.jobs.map (·.id)).Nodup ∧
      dClass (job 0x0B01 0).desc ≠ 0x10) ∧
    (dipping.devState = 1 ∧ dipping.boot.held = false ∧ dipping.boot.starting = false ∧ dipping.mbx.busy = none ∧ dipping.reRig = none) ∧
    (rnd.hidden .tmpVdd = false ∧ rnd.hidden .tmpTempCtrl = false ∧ rnd.bit .tmpActive 12 = false ∧ (put rnd [(.tmpActive, 0x1000)]).bit .tmpActive 12 = true) ∧
    (haltedSvc.hidden .tmpCtrl = false ∧ haltedSvc.devState = 2 ∧ haltedSvc.bit .tmpStatus 2 = true ∧ (∀ k, k < 18 → haltedSvc.bit .tmpActive k = true → haltedSvc.effClass k < 3) ∧
      haltedSvc.tamper.dipHalt = false) ∧
    (rnd.hidden .tmpTime = false ∧ ({ rnd with regs := rnd.regs.map (fun e => if e.1 = .genState then (.genState, 6) else e) } : State).devState = 6) := by decide
/-- TMP_VDD's storage changed behind its shadow. -/
def flipped : State := { warned with regs := tset .tmpVdd 701 warned.regs }
theorem witness_DipsHaltedAndShadows_resume : ∀ k, haltedSvc.shadowBad (.tmpSrcCfg k) = false := fun _ => good_shadows haltedSvc [] (by decide) _ (by simp)
theorem witness_DipsHaltedAndShadows_sweep : (∀ r, rnd.shadowBad r = false) ∧ flipped.shadowBad .tmpVdd = true ∧ (∀ x, x ≠ Reg.tmpVdd → flipped.shadowBad x = false) ∧
    (∀ e ∈ flipped.shadow, e.1.shadowed = true) ∧ flipped.shadow.find? (fun e => decide (e.1 = .tmpVdd)) = some (.tmpVdd, ~~~700, 700) ∧
    (classed flipped 17 2).effClass 17 ≤ 2 ∧ (∀ a, flipped.slotBad a = false) ∧ flipped.tamper.aonClass = [] ∧ flipped.power.io = true := by
  refine ⟨fun r => good_shadows rnd [] (by decide) r (by simp), by decide, fun x hx => good_shadows flipped [.tmpVdd] (by decide) x (by simpa using hx),
    by decide, by decide, by decide, slots_good _ (by decide), by decide, by decide⟩
theorem test_dip_begins : after (.supplyDip 699) warned (fun t => t.tamper.dip == some ⟨699, false, 2, false, true⟩ && t.bit .genState 4) = true := by decide
theorem test_recovery_below_hysteresis : after (.dipRecovery 714 3) dipping (fun t => t.tamper.dip.isSome) = true := by decide
theorem test_recovery : after (.dipRecovery 715 3) dipping (fun t => t.tamper.dip.isNone && t.fld .tmpDipCount 31 0 == 1 && t.jobs.map (·.retried) == [true] && t.jobs.map (·.failures) == [0])
    = true := by decide
theorem test_warn_level_clamps : after (.tmpVddWrite 1023) rnd (fun t => t.fld .tmpVdd 9 0 == 730) = true := by decide
theorem test_resume_refused : after .tmpResume rnd (fun t => t.fld .tmpStatus 17 16 == 2) = true := by decide
theorem test_sweep_restores : after .shadowSweep (classed flipped 17 2) (fun t => t.rd .tmpVdd == 700 && t.fld .tmpIntegCount 31 0 == 1) = true := by decide

/-- The source in a state with its failed restarts. -/
def srcIn (v : DWord) (k : Nat) : State := { put rnd [(.rngStatus, v)] with rng := { rnd.rng with restart := k } }
def limitSvc : State := put rnd [(.rngDrbStat 15, 1), (.rngDrbCount 15, 1048576)]
def reseedSvc (pr : List (Nat × Option Nat × Nat)) (lim : List Nat) (pool : Nat) : State := { put rnd [(.rngStatus, 2)] with rng := { rnd.rng with prWait := pr, limitOrder := lim, pool := zeros pool } }
theorem witness_RandomService : ((srcIn 2 0).srcState = 2 ∧ (srcIn 0x13 1).srcState = 3 ∧ (srcIn 0x13 1).failedRestarts = 1 ∧ (srcIn 0x23 3).failedRestarts = 2 ∧
      (srcIn 1 0).srcState = 1 ∧ (srcIn 4 0).srcState = 4 ∧ (srcIn 0 0).srcState = 0 ∧ (srcIn 0x23 3).tamper.dip = none) ∧ (rnd.hidden .rngCtrl = false ∧ rnd.bit .genState 4 = false) ∧
    (limitSvc.drbState 15 = 1 ∧ limitSvc.fld (.rngDrbCount 15) 20 0 = 1048576) ∧
    ((srcIn 2 0).rng.recent = false ∧ (reseedSvc [] [] 47).tamper.meshDue = false ∧ (reseedSvc [] [] 47).transition = none ∧ (reseedSvc [] [] 47).poolBytes = 47 ∧ (reseedSvc [(15, some 7, 32)] [] 48).rng.prWait = [(15, some 7, 32)] ∧ (reseedSvc [] [15] 48).rng.limitOrder = [15] ∧
      (∀ k, k < 16 → (reseedSvc [] [] 48).bit (.rngDrbStat k) 4 = true → (reseedSvc [] [] 48).drbState k ≠ 0)) ∧
    firstBelow 16 (fun i => (put (reseedSvc [] [] 64) [(.rngDrbStat 15, 16)]).bit (.rngDrbStat i) 4 && (put (reseedSvc [] [] 64) [(.rngDrbStat 15, 16)]).drbState i == 0) = some 15 := by
  decide
/-- A block of alternating samples, and one of zeros, which repeats in cell 0. -/
def goodBlock : Bytes := List.replicate 128 0x0F
theorem witness_RandomService_samples : ((srcIn 2 0).takeSamples (· % 4) (bitsOf goodBlock)).1 = none ∧
    ((srcIn 2 0).takeSamples (· % 4) (bitsOf (zeros 128))).1 = some (0, 0) ∧
    ((⟨some true, 75, true, 80, 80, 75, 0, none⟩ : CellTest).last = some true ∧ (⟨some true, 75, true, 80, 80, 75, 0, none⟩ : CellTest).run = 75) ∧
    (⟨some false, 1, true, 900, 860, 9, 0, none⟩ : CellTest).last = some !true ∧ (⟨some false, 1, true, 900, 860, 9, 0, none⟩ : CellTest).count = 860 := by
  decide +kernel
theorem test_third_failure : after (.healthTestFailure 3 1) (srcIn 0x23 3) (fun t => t.srcState == 4 && t.drbState 15 == 0 && t.bit .rngEvtStatus 2) = true := by decide
theorem test_failure_code : after (.healthTestFailure 2 3) (srcIn 2 0) (fun t => t.srcState == 3 && t.fld .rngFailInfo 3 0 == 12) = true := by decide
theorem test_block_fills : after (.conditionedBlock goodBlock) (reseedSvc [] [] 480) (fun t => t.poolBytes == 512) = true := by decide +kernel
theorem test_at_limit : after (.drbgAtLimit 15) limitSvc (fun t => t.drbState 15 == 3 && t.rng.limitOrder == [15]) = true := by decide
theorem test_reseed_served : after .reseedServed (reseedSvc [] [15] 48) (fun t => t.poolBytes == 0 && t.rng.limitOrder == [] && t.drbState 15 == 1) = true := by decide

/-- Bank 15 with an owner and a state; the host's bank 1 as an aperture of slice 5 at 0. -/
def bankIn (v : DWord) (h : DWord) : State := put rnd [(.memBankOwner 15, v), (.memBankHandover 15, h)]
def hostBank : State := { put rnd [(.memBankOwner 1, 4)] with sram := [(0x400000, 1), (0x400001, 2)] }
def aperture : State := { put hostBank [(.memBankAper 1, 0x50001), (.slmSliceStat 5, 1), (.slmSliceDdrBase 5, 0x1000), (.slmSliceDdrSize 5, 0x1000), (.ddrStat, 7)] with ddr := [(0x1000, 9)] }
theorem witness_MemoryCommands : (rnd.hidden (.memBankHandover 15) = false ∧ (bankIn 0 0).bankOwner 15 = 0 ∧ (bankIn 2 0).bankOwner 15 = 2 ∧ (bankIn 0x12 0).bankState 15 = 1 ∧ (bankIn 2 0).bankState 15 = 0 ∧
      (bankIn 0x12 0x14).bit (.memBankHandover 15) 4 = true ∧ (bankIn 0x12 4).bit (.memBankHandover 15) 4 = false ∧ (bankIn 0x22 4).bankState 15 = 2) ∧
    (hostBank.ownsBank 4 (0x400000 / bankSize) = true ∧ hostBank.bit (.memBankAper 1) 0 = false ∧ Memory.wf hostBank.sram = true ∧ hostBank.ownsBank 4 (0x800000 / bankSize) = false ∧
      (bankIn 2 0).ownsBank 2 (0x3C00000 / bankSize) = true) ∧
    (aperture.bit (.memBankAper (0x400000 / bankSize)) 0 = true ∧ aperture.fld (.memBankAper 1) 24 16 = 5 ∧ aperture.sliceState 5 = 1 ∧ aperture.ddrReady = true ∧
      aperture.inWindow 5 true 4088 8 = true ∧ hostBank.sliceState 5 = 0) ∧
    (rnd.hidden .ddrFillCtrl = false ∧ rnd.fld .ddrFillCtrl 5 4 ≠ 1 ∧ (put aperture [(.ddrFillCtrl, 0x10)]).fld .ddrFillCtrl 5 4 = 1 ∧ aperture.bit .genState 4 = false ∧
      aperture.bit .ddrScrubCtrl 8 = true ∧ (put aperture [(.ddrScrubCtrl, 8)]).bit .ddrScrubCtrl 8 = false) := by decide
theorem test_set_alias : after (.setAliasWrite 0x400000 32 0xF0) hostBank (fun t => Memory.read 0x400000 4 t.sram == [0xF1, 2, 0, 0]) = true := by decide
theorem test_clear_alias : after (.clearAliasWrite 0x400000 32 0x201) hostBank (fun t => t.sram == []) = true := by decide
theorem test_fetch_and_set : after (.fetchAndSet 2 0x3C00007 0x80) (bankIn 2 0) (fun t => t.sram == [(0x3C00000, 0x80)] && t.rdata == zeros 8) = true := by decide
theorem test_not_the_hosts_bank : after (.bar4NormalAccess 0x800000 (.read 4) .clean) hostBank (fun t => t.rdata == zeros 4 && t.fld (.memBankViol 2) 31 0 == 1) = true := by decide
theorem test_aperture_read : after (.apertureAccess 0x400000 (.read 2) .clean) aperture (fun t => t.rdata == [9, 0]) = true := by decide
theorem test_handover_to_the_rig_loader : after (.bankHandover 15 0) (bankIn 2 0) (fun t => t.fld (.memBankOwner 15) 9 8 == 2) = true := by decide
theorem test_wiped_handover : after (.bankWipeDone 15) { bankIn 0x22 4 with sram := [(0x3BFFFFF, 1), (0x3C00000, 1)] } (fun t => t.sram == [(0x3BFFFFF, 1)] && t.bankOwner 15 == 4) = true := by decide

/-- A firmware and a patch in force. -/
def fw0 : Firmware := ⟨0, 1, 0, false, zeros 48, zeros 32⟩
def patch0 : Patch := ⟨3, 1, 0, false, zeros 48, [], []⟩
/-- In SERVICE with its firmware running; held by a warm or a cold reset with every rail in range. -/
def runSvc : State := { rnd with boot := { rnd.boot with firmware := some fw0 }, pins := { rnd.pins with resetLow := false, resetLeft := 0 } }
def heldSvc (cold : Bool) (v : DWord) : State := { put State.reset [(.pwrRails, 31), (.ddrStat, v)] with boot := { State.reset.boot with cold := cold } }
theorem witness_ResetTriggers : (runSvc.power.io = true ∧ runSvc.power.backup = false ∧ runSvc.boot.held = false ∧ runSvc.rstActs = true ∧ runSvc.firmwareRuns = true ∧
      runSvc.boot.starting = false ∧ runSvc.pins.resetLow = false ∧ runSvc.pins.resetLeft = 0 ∧ runSvc.transition = none ∧ runSvc.power.por = false) ∧
    ((inState 3).rstActs = false ∧ rnd.firmwareRuns = false) ∧
    ((heldSvc false 0).boot.held = true ∧ (heldSvc false 0).boot.cold = false ∧ (heldSvc true 0).boot.cold = true) ∧
    ({ rnd with boot := { rnd.boot with block := some (5, 7) } : State }.boot.block.isSome = true ∧ shellSvc.blockAllowed 1 95 = true ∧ shellSvc.blockIdle 1 95 = false ∧ rnd.boot.block = none ∧
      rnd.blockAllowed 1 96 = false ∧ rnd.blockTaken 1 96 = false ∧ rnd.blockTaken 3 7 = false ∧ (tileIn 1).blockTaken 1 95 = false ∧
      (hashIn .inService 0 false).blockTaken 4 127 = false ∧ (hashIn .offline 0 false).blockTaken 4 127 = true ∧ (bneIn 1 false).blockTaken 5 7 = false ∧ rnd.blockAllowed 3 7 = true ∧ rnd.blockIdle 3 7 = true ∧ (tileIn 1).blockAllowed 1 95 = true ∧ (tileIn 1).blockIdle 1 95 = true ∧
      (hashIn .inService 0 false).blockAllowed 4 127 = true ∧ (hashIn .inService 0 false).blockIdle 4 127 = true ∧ (bneIn 1 false).blockAllowed 5 7 = true ∧
      (bneIn 1 false).blockIdle 5 7 = true) := by decide
theorem test_warm : after .rstCtrlWarm runSvc (fun t => t.boot.held && !t.boot.cold && t.fld .rstCause 5 0 == 0x18) = true := by decide
theorem test_block_refused : after (.rstBlock 5 8) rnd (fun t => t.fld .rstBlockStat 1 0 == 2) = true := by decide
theorem test_block_done : after (.blockResetBistDone false) { rnd with boot := { rnd.boot with block := some (5, 7) } } (fun t => t.fld .rstBlockStat 9 4 == 32) = true := by decide

/-- OTP whose group 1 holds a bad word; OTP in PERSONALIZED. -/
def otpBad : Otp := Otp.blank.setWord 1 0 0xFFFFFFFF
/-- A cold start that waits for training; one that waits for nothing but its end; one in force, at its first check. -/
def trainSvc : State := { rnd with boot := { rnd.boot with starting := true, cold := true, firmware := some fw0, patch := some patch0 } }
def readySvc (h : Option Nat) : State := { put trainSvc [(.ddrStat, 7)] with rig := some rig0, tamper := { rnd.tamper with haltOwed := h }, bbram := { rnd.bbram with epoch := some (zeros 32, 1) } }
def startSvc : State := { rnd with boot := { rnd.boot with starting := true, cold := true } }
theorem witness_Starts : ((heldSvc true 0).boot.held = true ∧ (heldSvc true 0).power.io = true ∧ (heldSvc true 0).power.backup = false ∧ (heldSvc true 0).power.por = false ∧ (heldSvc true 0).railsOk = true ∧
      (heldSvc true 0).tamper.dip = none ∧ (heldSvc true 0).tamper.holdStart = [] ∧ (dipState (heldSvc true 0)).tamper.dip.isSome = true ∧ (heldSvc false 2).boot.cold = false ∧ (heldSvc false 2).bit .ddrStat 1 = true ∧ (heldSvc false 0).bit .ddrStat 1 = false) ∧
    (Otp.blank.decode = (0, none) ∧ otpBad.decode = (5, none) ∧ (Otp.blank.finish 1).decode = (1, none) ∧ ((((Otp.blank.finish 1).finish 2).finish 3).finish 4).decode = (4, none) ∧
      { heldSvc true 0 with bbram := { State.reset.bbram with valid := true } : State }.bbram.valid = true ∧ State.reset.bbram.lock = false ∧ (put (heldSvc true 0) [(.rstBoot, 4)]).fld .rstBoot 2 0 = 4) ∧
    (rnd.boot.held = false ∧ (put rnd [(.pwrRails, 30)]).railsOk = false ∧ (dipState rnd).tamper.dip.isSome = true) ∧
    (trainSvc.coldStart = true ∧ trainSvc.boot.trained = false ∧ (readySvc none).coldStart = true ∧ (put { trainSvc with boot := { trainSvc.boot with trained := true } } [(.ddrStat, 3)]).bit .ddrStat 2 = false) ∧
    ((readySvc none).startReady = true ∧ (readySvc (some 3)).startReady = true ∧ rnd.startReady = false) ∧
    (startSvc.boot.held = false ∧ startSvc.boot.starting = true ∧ startSvc.canFail .timeout = true ∧ startSvc.canFail .firmware = true ∧ trainSvc.canFail .rig = true ∧
      startSvc.canFail .ddrTrain = true ∧ ({ startSvc with boot := { startSvc.boot with groupBad := true } } : State).canFail .otp = true ∧ startSvc.canFail .scFatal = true) ∧
    (rnd.boot.starting = false ∧ rnd.devState ∈ [1, 2, 4]) := by decide
theorem witness_Starts_draws : (trainSvc.scDraw 128).isSome = true := by decide
theorem test_blank_starts : after (.resetRelease true) (heldSvc true 0) (fun t => t.devState == 5 && t.rd .dbgRights == 0x1FF) = true := by decide
theorem test_training : after (.ddrTrainingDone 0xFF 64 8533) trainSvc (fun t => t.fld .genCap 32 26 == 64 && t.rd .ddrUsable == 0xF00000000) = true := by decide
theorem test_fourth_attempt : after (.startFailure .rig) trainSvc (fun t => t.fld .rstCause 3 0 == 10 && t.boot.held) = true := by decide

/-- Main power off; the link down, before and after a link reset of SERVICE; D3hot in SERVICE, HALTED and STANDBY. -/
def offSvc (vbat backup : Bool) : State := { rnd with power := { rnd.power with io := false, vbat := vbat, backup := backup } }
def downSvc (due : Bool) : State := { inState 0 with pcie := { rnd.pcie with dlActive := false }, boot := { rnd.boot with linkDown := due } }
def sleeping (st : Nat) : State := { inState st with pcie := { rnd.pcie with dstate := 3 } }
theorem witness_PowerAndLink : ((offSvc true true).power.backup = true ∧ (offSvc false false).power.io = false ∧ (offSvc false false).power.vbat = false ∧ rnd.power.vbat = true ∧
      { heldSvc true 0 with power := { State.reset.power with por := true } : State }.power.por = true ∧ (heldSvc true 0).railsOk = true ∧ (heldSvc true 0).power.crystal = true ∧
      (∀ k, k < 8 → rnd.bit .tmpActive k = false) ∧ (put rnd [(.pwrRails, 15)]).railsOk = false) ∧
    (rnd.pcie.dlActive = true ∧ rnd.pcie.dstate ≠ 3 ∧ rnd.transition = none ∧ rnd.devState = 1 ∧ (inState 6).devState ≠ 1 ∧ (inState 6).devState ≠ 2) ∧
    ((sleeping 4).pcie.dstate = 3 ∧ (sleeping 4).pcie.dlActive = true ∧ (sleeping 4).devState = 4 ∧ (sleeping 4).tamper.haltOwed = none ∧ (sleeping 1).devState ≠ 4) ∧
    ((inState 2).boot.starting = false ∧ (sliceIn 2).sliceState 511 = 2 ∧ (inState 5).devState ∉ [1, 2, 4]) ∧
    ((downSvc true).pcie.dlActive = false ∧ (downSvc true).boot.held = false ∧ (downSvc true).boot.linkDown = true ∧ (downSvc true).devState = 0 ∧ (downSvc false).boot.linkDown = false) ∧
    ({ rnd with msixPend := [4095] : State }.pcie.busMaster = true ∧ rnd.pcie.functionMask = false ∧ 4095 ∈ { rnd with msixPend := [4095] : State }.msixPend) := by decide
theorem test_last_vector : after (.pcieConfigWrite (.vectorMask 4095 false)) { rnd with msixPend := [4095] } (fun t => t.out.any (fun o => match o with | .msix v _ _ => v == 4095 | _ => false)) = true := by decide
theorem test_hot_reset : after (.linkReset .hotReset) (sliceIn 2) (fun t => t.fld .rstLink 1 0 == 2 && t.sliceState 511 == 3 && t.devState == 0) = true := by decide
theorem test_wake : after (.d0Wake 70000) (sleeping 4) (fun t => t.devState == 1 && t.fld .pwrStbyExitUs 15 0 == 4464) = true := by decide

/-- Debug rights opened; the I3C target with an address. -/
def rightsSvc (v : DWord) : State := put rnd [(.dbgRights, v)]
def i3cSvc (a : Option Nat) : State := { rnd with pins := { rnd.pins with dynAddr := a } }
theorem witness_HostAccess : ((rightsSvc 0x1FF).shadowBad .dbgRights = false ∧ (rightsSvc 0x1FF).right 4 = true) ∧ (rnd.target .bar0 0x18 = .reg .genTime ∧ fits .genTime 0x18 64 = true ∧ rnd.hidden .genTime = false ∧ fits .genTime 0x18 32 = false ∧ rnd.target .bar0 0x38 = .nothing ∧
      rnd.target .bar0 0xA5F010 = .reg (.tilScrub 95) ∧ fits (.tilScrub 95) 0xA5F010 (Reg.tilScrub 95).width = true ∧ (inState 3).hidden (.tilScrub 95) = true ∧
      rnd.target .bar2 0x1FF000 = .reg (.slmPgSqdb 511 0) ∧ rnd.target .bar2 0x200000 = .nothing ∧ rnd.target .bar4 0xC000000 = .nothing) ∧
    (rnd.monitored = true ∧ (offSvc true true).monitored = false) ∧
    ((heldSvc true 0).i3cAnswers = false ∧ (i3cSvc none).i3cAnswers = true ∧ (i3cSvc none).pins.dynAddr = none ∧ (i3cSvc (some 8)).pins.dynAddr ≠ none) ∧
    ((rightsSvc 0x1FF).right 2 = true ∧ rnd.right 2 = false ∧ (rightsSvc 0x1FF).right 7 = true ∧ rnd.right 7 = false ∧ (rightsSvc 0x1FF).right 8 = true ∧ (0x3FFFFFC + 4 ≤ 16 * bankSize)) := by decide
theorem test_read_clears : after (.rcRead .bar0 0x11FFA0 32 1) (put rnd [(.slmSliceCancelCnt 511, 7)]) (fun t => t.rdata == [7, 0, 0, 0] && t.rd (.slmSliceCancelCnt 511) == 1) = true := by decide
theorem test_wrong_width : after (.registerWrite .bar0 0x18 32 5) rnd (fun t => t == rnd) = true := by decide

theorem witness_RegisterMap : Reg.ofBar0 0 = some .genId ∧ Reg.ofBar0 0x17FF8 = some (.mbxRsp 0 2047) ∧ Reg.ofBar0 0x11FFA0 = some (.slmSliceCancelCnt 511) ∧
    Reg.ofBar2 0x1FF000 = some (.slmPgSqdb 511 0) ∧ Reg.ofMbx 1 0x2FF8 = some (.mbxReq 1 1023) ∧ Reg.ofRde 15 0xC0 = some (.rdeCtxId 15) := by decide

/-- A sound state with memories and a counter cell, and a byte's write to a bank as its next step. -/
def soundSvc : State := { hostBank with cells := [(0, ⟨8, 7, .used, some 8, 520, none, true, [], false, some 8⟩)], pending := [.bar4NormalAccess 0x400001 (.write [some 0]) .clean] }
theorem witness_StepKeepsSound : soundSvc.Sound ∧ ∃ t, step soundSvc = .next t := by
  refine ⟨⟨by decide, by decide, by decide, by decide, fun e he => ?_⟩, _, rfl⟩
  obtain rfl := List.mem_singleton.1 he
  exact ⟨fun n h => by cases h; exact ⟨by decide, by decide, fun l h => by cases h⟩, fun l h => by cases h⟩
theorem witness_StepNeverLowersOtpMinimums : ∃ t, exec (.setAliasWrite 0x400000 32 0xF0) soundSvc = .next t ∧ t.pending = soundSvc.pending := ⟨_, rfl, rfl⟩

end Sys2Proof.Tests
end

section
/-! PROOFS. Frames of the primitive updates, as the statements' frame relations name them. -/

namespace Sys2Proof.Machine

/-! ### Loops -/

/-- What every round of a loop leaves alone, the loop leaves alone. -/
theorem State.each_keeps {α β : Type} (g : State → β) (f : State → α → State) (h : ∀ u a, g (f u a) = g u) (s : State) (l : List α) :
    g (s.each l f) = g s := by
  induction l generalizing s with
  | nil => rfl
  | cons a l ih => exact (ih (f s a)).trans (h s a)

/-- A register that every round of a loop leaves alone. -/
theorem State.rd_each {α : Type} (r : Reg) (f : State → α → State) (h : ∀ u a, (f u a).rd r = u.rd r) (s : State) (l : List α) :
    (s.each l f).rd r = s.rd r := s.each_keeps (·.rd r) f h l

/-! ### Registers -/

@[simp] theorem State.rd_setFld (s : State) (r r' : Reg) (hi lo x : Nat) :
    (s.setFld r hi lo x).rd r' = if r = r' then setF (s.rd r) hi lo x else s.rd r' := s.rd_store r r' _

@[simp] theorem State.rd_setBit (s : State) (r r' : Reg) (i : Nat) (b : Bool) :
    (s.setBit r i b).rd r' = if r = r' then setB (s.rd r) i b else s.rd r' := s.rd_store r r' _

/-! ### Only registers change -/

theorem OnlyRegs.trans {l : List Reg} {s t u : State} (h : OnlyRegs l s t) (h' : OnlyRegs l t u) : OnlyRegs l s u :=
  ⟨fun r hr => (h'.1 r hr).trans (h.1 r hr),
    (congrArg (fun x : State => { x with regs := s.regs, shadow := s.shadow }) h'.2).trans h.2⟩

/-- A change of a register of the list. -/
theorem OnlyRegs.store {l : List Reg} {r : Reg} (hr : r ∈ l) (s : State) (f : DWord → DWord) : OnlyRegs l s (s.store r f) :=
  ⟨fun r' h' => by rw [State.rd_store, if_neg fun h : r = r' => h' (h ▸ hr)], rfl⟩

theorem OnlyRegs.jobs {l : List Reg} {s t : State} (h : OnlyRegs l s t) : t.jobs = s.jobs := (congrArg State.jobs h.2 :)
theorem OnlyRegs.fetchDue {l : List Reg} {s t : State} (h : OnlyRegs l s t) : t.fetchDue = s.fetchDue := (congrArg State.fetchDue h.2 :)

/-! ### Registers change and messages go -/

theorem RegsAndMessages.refl (l : List Reg) (s : State) : RegsAndMessages l s s := ⟨fun _ _ => rfl, rfl⟩

theorem RegsAndMessages.trans {l : List Reg} {s t u : State} (h : RegsAndMessages l s t) (h' : RegsAndMessages l t u) :
    RegsAndMessages l s u :=
  ⟨fun r hr => (h'.1 r hr).trans (h.1 r hr),
    (congrArg (fun x : State => { x with regs := s.regs, shadow := s.shadow, out := s.out, msixPend := s.msixPend }) h'.2).trans h.2⟩

/-- A change of registers alone, seen in a longer list. -/
theorem OnlyRegs.regsAndMessages {l l' : List Reg} (hl : l ⊆ l') {s t : State} (h : OnlyRegs l s t) : RegsAndMessages l' s t :=
  ⟨fun r hr => h.1 r fun hm => hr (hl hm), congrArg (fun x : State => { x with out := s.out, msixPend := s.msixPend }) h.2⟩

theorem RegsAndMessages.mono {l l' : List Reg} (hl : l ⊆ l') {s t : State} (h : RegsAndMessages l s t) : RegsAndMessages l' s t :=
  ⟨fun r hr => h.1 r fun hm => hr (hl hm), h.2⟩

theorem RegsAndMessages.store {l : List Reg} {r : Reg} (hr : r ∈ l) (s : State) (f : DWord → DWord) :
    RegsAndMessages l s (s.store r f) := (OnlyRegs.store hr s f).regsAndMessages (List.Subset.refl l)

/-- A message is sent, left pending or lost. -/
theorem RegsAndMessages.sendMsix (l : List Reg) (s : State) (v : Nat) : RegsAndMessages l s (s.sendMsix v) := by
  unfold State.sendMsix
  split
  · exact .refl l s
  · split <;> exact ⟨fun _ _ => rfl, rfl⟩

/-- An event sets its bit and may send its message. -/
theorem RegsAndMessages.event {l : List Reg} {stat : Reg} (h : stat ∈ l) (s : State) (en vec : Reg) (i : Nat) :
    RegsAndMessages l s (s.event stat en vec i) := by
  unfold State.event
  simp only
  split
  · exact (RegsAndMessages.store h s _).trans (.sendMsix l _ _)
  · exact .store h s _

theorem RegsAndMessages.jobs {l : List Reg} {s t : State} (h : RegsAndMessages l s t) : t.jobs = s.jobs := (congrArg State.jobs h.2 :)
theorem RegsAndMessages.fetchDue {l : List Reg} {s t : State} (h : RegsAndMessages l s t) : t.fetchDue = s.fetchDue :=
  (congrArg State.fetchDue h.2 :)

/-- Messages leave the registers alone. -/
theorem sendMsix_rd (s : State) (v : Nat) (r : Reg) : (s.sendMsix v).rd r = s.rd r :=
  (RegsAndMessages.sendMsix [] s v).1 r List.not_mem_nil

/-! ### Shadowed registers that stand -/

/-- A register that agrees with its shadow is left as it is. -/
theorem sweepReg_of_good {s : State} {r : Reg} (h : s.shadowBad r = false) : s.sweepReg r = s := by
  simp [State.sweepReg, h]

/-- The ownership registers of a slice that agree with their shadows. -/
theorem sliceBad_eq_false {s : State} {n : Nat} : s.sliceBad n = false ↔
    s.shadowBad (.slmSliceCtrl n) = false ∧ s.shadowBad (.slmSlicePasid n) = false ∧ s.shadowBad (.slmSliceKeywin n) = false := by
  simp [State.sliceBad, and_assoc]

theorem sweepSlice_of_good {s : State} {n : Nat} (h : s.sliceBad n = false) : s.sweepSlice n = s := by
  obtain ⟨hctrl, hpasid, hkeywin⟩ := sliceBad_eq_false.1 h
  simp [State.sweepSlice, State.each, sweepReg_of_good hctrl, sweepReg_of_good hpasid, sweepReg_of_good hkeywin]

end Sys2Proof.Machine
end

section
/-! PROOFS. A descriptor fetch that faults (R73, R80). -/

namespace Sys2Proof.Machine

/-! ### The queue whose turn it is -/

/-- A choice made along a list, each time between the best so far and the next element, is what it began with or an element. -/
theorem foldl_choice_mem {f : Option Nat → Nat → Option Nat} (hf : ∀ best a, f best a = some a ∨ f best a = best) {l : List Nat}
    {best : Option Nat} {q : Nat} (h : l.foldl f best = some q) : best = some q ∨ q ∈ l := by
  induction l generalizing best with
  | nil => exact .inl h
  | cons a l ih =>
    rcases ih h with hnow | hlater
    · rcases hf best a with hnew | hold
      · exact .inr (by simp_all)
      · exact .inl (hold ▸ hnow)
    · exact .inr (List.mem_cons_of_mem a hlater)

/-- The queue whose turn it is may fetch (R54). -/
theorem mayFetch_of_fetchTurn {s : State} {q : Nat} (h : s.fetchTurn = some q) : s.mayFetch q = true := by
  unfold State.fetchTurn at h
  refine (foldl_choice_mem (fun best a => ?choice) h).elim (fun hnone => ?start) fun hmem => (List.mem_filter.1 hmem).2
  case choice =>
    cases best with
    | none => exact .inl rfl
    | some b => exact ite_eq_or_eq (s.fetchRank a < s.fetchRank b) (some a) (some b)
  case start => cases hnone

/-- Its slice is ACTIVE. -/
theorem sliceState_of_fetchTurn {s : State} {q : Nat} (h : s.fetchTurn = some q) : s.sliceState (q / 64) = 1 := by
  have hmay := mayFetch_of_fetchTurn h
  simp only [State.mayFetch, Bool.and_eq_true, beq_iff_eq] at hmay
  tauto

/-! ### A queue in ERROR -/

/-- QMG_Q_ERR as a fault writes it: CODE, WHERE and INDEX. -/
def queueErrWord (code wher index : Nat) : DWord := BitVec.ofNat 64 (code + wher * 2 ^ 8 + index % 65536 * 2 ^ 16)

theorem queueErrWord_fields {code wher : Nat} (index : Nat) (hcode : code < 256) (hwher : wher < 256) :
    getF (queueErrWord code wher index) 7 0 = code ∧ getF (queueErrWord code wher index) 15 8 = wher ∧
      getF (queueErrWord code wher index) 31 16 = index % 65536 := by
  simp only [getF, queueErrWord, BitVec.toNat_ofNat]
  omega

theorem queueError_frame (s : State) (q code wher index : Nat) :
    OnlyRegs [.qmgQErr q, .qmgQCtrl q] s (s.queueError q code wher index) := by
  have hwr : OnlyRegs [.qmgQErr q, .qmgQCtrl q] s (s.wr (.qmgQErr q) (queueErrWord code wher index)) := .store (by simp) s _
  unfold State.queueError
  simp only
  split
  · exact hwr.trans (.store (by simp) _ _)
  · exact hwr

theorem queueError_rd_err (s : State) (q code wher index : Nat) :
    (s.queueError q code wher index).rd (.qmgQErr q) = queueErrWord code wher index := by
  unfold State.queueError
  simp only
  split <;> simp [State.setQueueState, queueErrWord]

/-- A RUNNING queue goes to ERROR. -/
theorem queueError_running {s : State} {q : Nat} (h : s.queueState q = 1) (code wher index : Nat) :
    (s.queueError q code wher index).queueState q = 2 := by
  have hstill : (s.wr (.qmgQErr q) (queueErrWord code wher index)).queueState q = 1 := by simpa [State.queueState, State.fld] using h
  unfold State.queueError
  simp only
  rw [← queueErrWord, if_pos hstill]
  exact State.fld_setFld _ _ 10 8 2 (by decide) (by decide)

/-- Queue `q` of `t` stopped in ERROR on the fetch of its entry `head`. -/
structure FetchError (t : State) (q code head : Nat) : Prop where
  state : t.queueState q = 2
  code : t.fld (.qmgQErr q) 7 0 = code
  wher : t.fld (.qmgQErr q) 15 8 = 1
  index : t.fld (.qmgQErr q) 31 16 = head

/-- Only the queue's own control and error registers say so. -/
theorem FetchError.of_rd {s t : State} {q code head : Nat} (h : FetchError s q code head) (hctrl : t.rd (.qmgQCtrl q) = s.rd (.qmgQCtrl q))
    (herr : t.rd (.qmgQErr q) = s.rd (.qmgQErr q)) : FetchError t q code head where
  state := (congrArg (getF · 10 8) hctrl).trans h.state
  code := (congrArg (getF · 7 0) herr).trans h.code
  wher := (congrArg (getF · 15 8) herr).trans h.wher
  index := (congrArg (getF · 31 16) herr).trans h.index

theorem queueError_fetchError {s : State} {q code head : Nat} (h : s.queueState q = 1) (hcode : code < 256) (hhead : head < 65536) :
    FetchError (s.queueError q code 1 head) q code head := by
  obtain ⟨hc, hw, hi⟩ := queueErrWord_fields head hcode (show 1 < 256 by decide)
  constructor
  case state => exact queueError_running h code 1 head
  case code => rw [State.fld, queueError_rd_err, hc]
  case wher => rw [State.fld, queueError_rd_err, hw]
  case index => rw [State.fld, queueError_rd_err, hi, Nat.mod_eq_of_lt hhead]

/-! ### The end of quiescing -/

/-- A slice that is not QUIESCING, or that has a job in flight, stays as it is. -/
theorem quiesced_of_busy {s : State} {n : Nat} (h : s.sliceState n ≠ 2 ∨ s.sliceInflight n ≠ 0) : s.quiesced n = s := by
  unfold State.quiesced
  rw [if_neg (by tauto)]

/-- What sending a queue's message leaves alone: the registers, the jobs and the fetches that are due. -/
theorem sendQueue_keeps (s : State) (q : Nat) :
    ((s.sendQueue q).rd, (s.sendQueue q).jobs, (s.sendQueue q).fetchDue) = (s.rd, s.jobs, s.fetchDue) := by
  unfold State.sendQueue
  cases s.queueVector q with
  | none => rfl
  | some v => exact Prod.ext (funext (sendMsix_rd s v)) (Prod.ext (sendMsix_jobs s v) (RegsAndMessages.sendMsix [] s v).fetchDue)

/-- The last of what a quiescing slice awaits is gone: STATE reads QUIESCED, and no other register, job or due fetch changes. -/
theorem quiesced_of_idle {s : State} {n : Nat} (hstate : s.sliceState n = 2) (hjobs : s.sliceInflight n = 0) (hdue : s.fetchDue = []) :
    ((s.quiesced n).rd, (s.quiesced n).jobs, (s.quiesced n).fetchDue) =
      ((s.setFld (.slmSliceStat n) 2 0 3).rd, s.jobs, s.fetchDue) := by
  unfold State.quiesced
  rw [if_pos (by simp [hstate, hjobs, hdue])]
  exact State.each_keeps (fun u => (u.rd, u.jobs, u.fetchDue)) (fun u i => u.sendQueue (64 * n + i))
    (fun u i => sendQueue_keeps u (64 * n + i)) (s.setFld (.slmSliceStat n) 2 0 3) _

/-! ### The read of a descriptor -/

/-- Only a read that the command says fails its code answers an ECC error. -/
theorem eq_ecc_of_gatherRead {s : State} {n addr len line : Nat} {loc : Bool} {d : DmaResult}
    (h : s.gatherRead n loc addr len d = .ecc line) : d = .ecc line := by
  unfold State.gatherRead at h
  split at h
  · cases h
  split at h
  · split at h
    · cases h
    · split at h
      · exact h
      · cases h
  · split at h
    · cases h
    · split at h <;> cases h

/-- An uncorrectable LPDDR5X error is counted with its line and reported (R371). -/
theorem ddrUe_frame (s : State) (a : Nat) : RegsAndMessages [.ddrUeCount, .ddrUeAddr, .ddrEvtStatus] s (s.ddrUe a) := by
  have hcount : RegsAndMessages [.ddrUeCount, .ddrUeAddr, .ddrEvtStatus] s (s.bump .ddrUeCount) := .store (by simp) s _
  have hline : RegsAndMessages [.ddrUeCount, .ddrUeAddr, .ddrEvtStatus] (s.bump .ddrUeCount)
    ((s.bump .ddrUeCount).setFld .ddrUeAddr 36 6 (a / 64)) := .store (by simp) _ _
  exact (hcount.trans hline).trans (.event (by simp) _ .ddrEvtEnable .ddrEvtVector 0)

theorem metUe_ecc_frame (s : State) (n addr len line : Nat) (loc : Bool) :
    RegsAndMessages [.ddrUeCount, .ddrUeAddr, .ddrEvtStatus] s (s.metUe n loc addr len (.ecc line)) := by
  unfold State.metUe
  split
  · exact ddrUe_frame s _
  · exact .refl _ s

section
variable {s : State} {q n addr : Nat} {loc : Bool} {d : DmaResult} (gl : DmaResult) (hn : n = q / 64)
  (hloc : loc = s.bit (.qmgQCtrl q) 1) (haddr : addr = s.fld (.qmgQSqBase q) 63 12 * 4096 + 128 * s.fld (.qmgQSqHead q) 15 0)
include hn hloc haddr

/-- A descriptor outside the slice's window, or whose read faults (R73). -/
theorem takeDescriptor_of_fault (h : s.inWindow n loc addr 128 = false ∨ ∃ e, s.gatherRead n loc addr 128 d = .fault e) :
    s.takeDescriptor q d gl = s.fetchFails q 0x19 (s.fld (.qmgQSqHead q) 15 0) := by
  subst hn hloc haddr
  unfold State.takeDescriptor
  rcases h with hwin | ⟨e, hread⟩
  · simp [hwin]
  · cases hwin : s.inWindow (q / 64) (s.bit (.qmgQCtrl q) 1)
      (s.fld (.qmgQSqBase q) 63 12 * 4096 + 128 * s.fld (.qmgQSqHead q) 15 0) 128 <;> simp [hwin, hread]

/-- A descriptor whose LPDDR5X line fails its code (R73, R371). -/
theorem takeDescriptor_of_ecc {line : Nat} (hwin : s.inWindow n loc addr 128 = true) (hread : s.gatherRead n loc addr 128 d = .ecc line) :
    s.takeDescriptor q d gl = (s.metUe n loc addr 128 (.ecc line)).fetchFails q 0x1A (s.fld (.qmgQSqHead q) 15 0) := by
  obtain rfl := eq_ecc_of_gatherRead hread
  subst hn hloc haddr
  unfold State.takeDescriptor
  simp [hwin, hread]

end

theorem fetch_of_due {s : State} {q : Nat} (h : q ∈ s.fetchDue) (d gl : DmaResult) : s.fetch q d gl = (s.fetchEnded q).takeDescriptor q d gl := by
  simp [State.fetch, h]

theorem fetch_of_turn {s : State} {q : Nat} (hdue : q ∉ s.fetchDue) (h : s.fetchTurn = some q) (d gl : DmaResult) :
    s.fetch q d gl = (s.tookTurn q).takeDescriptor q d gl := by
  simp [State.fetch, hdue, h]

/-- DESCRIPTOR_FETCH for a slice whose ownership registers stand. -/
theorem exec_descriptorFetch {s : State} {q : Nat} (h : s.sliceBad (q / 64) = false) (d gl : DmaResult) :
    exec (.descriptorFetch q d gl) s = .next (s.fetch q d gl) := by
  show Host.Outcome.next ((s.sweepSlice (q / 64)).fetch q d gl) = _
  rw [sweepSlice_of_good h]

/-! ### A fetch that fails -/

/-- The queue's slice is not about to end its quiescing: the queue goes to ERROR and nothing else changes. -/
theorem fetchFails_of_busy {s : State} {q code head : Nat} (hrun : s.queueState q = 1)
    (hbusy : s.sliceState (q / 64) ≠ 2 ∨ s.sliceInflight (q / 64) ≠ 0) (hcode : code < 256) (hhead : head < 65536) :
    FetchError (s.fetchFails q code head) q code head ∧ OnlyRegs [.qmgQErr q, .qmgQCtrl q] s (s.fetchFails q code head) := by
  have hframe := queueError_frame s q code 1 head
  have hbusy' : (s.queueError q code 1 head).sliceState (q / 64) ≠ 2 ∨ (s.queueError q code 1 head).sliceInflight (q / 64) ≠ 0 := by
    rwa [State.sliceState, State.fld, hframe.1 _ (by simp), State.sliceInflight, hframe.jobs]
  rw [State.fetchFails, quiesced_of_busy hbusy']
  exact ⟨queueError_fetchError hrun hcode hhead, hframe⟩

/-- The last that a quiescing slice awaits is this fetch: the slice is QUIESCED as well. -/
theorem fetchFails_of_last {s : State} {q code head : Nat} (hrun : s.queueState q = 1) (hstate : s.sliceState (q / 64) = 2)
    (hjobs : s.sliceInflight (q / 64) = 0) (hdue : s.fetchDue = []) (hcode : code < 256) (hhead : head < 65536) :
    FetchError (s.fetchFails q code head) q code head ∧ (s.fetchFails q code head).sliceState (q / 64) = 3 ∧
      (s.fetchFails q code head).fetchDue = [] ∧ (s.fetchFails q code head).jobs = s.jobs ∧
      (s.fetchFails q code head).rd (.qmgQSqHead q) = s.rd (.qmgQSqHead q) := by
  have hframe := queueError_frame s q code 1 head
  have hstate' : (s.queueError q code 1 head).sliceState (q / 64) = 2 := by rwa [State.sliceState, State.fld, hframe.1 _ (by simp)]
  have hjobs' : (s.queueError q code 1 head).sliceInflight (q / 64) = 0 := by rwa [State.sliceInflight, hframe.jobs]
  have hidle := quiesced_of_idle hstate' hjobs' (hframe.fetchDue.trans hdue)
  simp only [Prod.mk.injEq] at hidle
  obtain ⟨hrd, hsame, hnone⟩ := hidle
  have hother (r : Reg) (hr : .slmSliceStat (q / 64) ≠ r) : (s.fetchFails q code head).rd r = (s.queueError q code 1 head).rd r := by
    rw [State.fetchFails, hrd, State.rd_setFld, if_neg hr]
  have hquiesced : (s.fetchFails q code head).sliceState (q / 64) = 3 := by
    rw [State.sliceState, State.fld, State.fetchFails, hrd]
    exact State.fld_setFld _ _ 2 0 3 (by decide) (by decide)
  exact ⟨(queueError_fetchError hrun hcode hhead).of_rd (hother _ (by simp)) (hother _ (by simp)), hquiesced,
    hnone.trans (hframe.fetchDue.trans hdue), hsame.trans hframe.jobs, (hother _ (by simp)).trans (hframe.1 _ (by simp))⟩

section
variable {s : State} {q n addr : Nat} {loc : Bool} {d : DmaResult} (gl : DmaResult) (hn : n = q / 64)
  (hloc : loc = s.bit (.qmgQCtrl q) 1) (haddr : addr = s.fld (.qmgQSqBase q) 63 12 * 4096 + 128 * s.fld (.qmgQSqHead q) 15 0)
  (hrun : s.queueState q = 1) (hbusy : s.sliceState n ≠ 2 ∨ s.sliceInflight n ≠ 0)
include hn hloc haddr hrun hbusy

/-- A fetch that faults stops the queue with CODE 0x19 and changes nothing else (R73). -/
theorem takeDescriptor_fault_stops (h : s.inWindow n loc addr 128 = false ∨ ∃ e, s.gatherRead n loc addr 128 d = .fault e) :
    FetchError (s.takeDescriptor q d gl) q 0x19 (s.fld (.qmgQSqHead q) 15 0) ∧
      OnlyRegs [.qmgQErr q, .qmgQCtrl q] s (s.takeDescriptor q d gl) := by
  rw [takeDescriptor_of_fault gl hn hloc haddr h]
  exact fetchFails_of_busy hrun (hn ▸ hbusy) (by decide) (getF_lt _ 15 0)

/-- One that meets an uncorrectable LPDDR5X error stops it with CODE 0x1A, and the error is counted and reported (R73, R371). -/
theorem takeDescriptor_ecc_stops {line : Nat} (hwin : s.inWindow n loc addr 128 = true)
    (hread : s.gatherRead n loc addr 128 d = .ecc line) :
    FetchError (s.takeDescriptor q d gl) q 0x1A (s.fld (.qmgQSqHead q) 15 0) ∧
      RegsAndMessages [.qmgQErr q, .qmgQCtrl q, .ddrUeCount, .ddrUeAddr, .ddrEvtStatus] s (s.takeDescriptor q d gl) := by
  have hmet : RegsAndMessages [.ddrUeCount, .ddrUeAddr, .ddrEvtStatus] s (s.metUe n loc addr 128 (.ecc line)) :=
    metUe_ecc_frame s n addr 128 line loc
  have hrun' : (s.metUe n loc addr 128 (.ecc line)).queueState q = 1 := by
    rwa [State.queueState, State.fld, hmet.1 _ (by simp)]
  have hbusy' : (s.metUe n loc addr 128 (.ecc line)).sliceState (q / 64) ≠ 2 ∨
      (s.metUe n loc addr 128 (.ecc line)).sliceInflight (q / 64) ≠ 0 := by
    rwa [← hn, State.sliceState, State.fld, hmet.1 _ (by simp), State.sliceInflight, hmet.jobs]
  obtain ⟨herr, hframe⟩ := fetchFails_of_busy hrun' hbusy' (code := 0x1A) (by decide) (getF_lt (s.rd (.qmgQSqHead q)) 15 0)
  rw [takeDescriptor_of_ecc gl hn hloc haddr hwin hread]
  exact ⟨herr, (hmet.mono (by simp)).trans (hframe.regsAndMessages (by simp))⟩

end

/-- The state in which the fetch of queue `q` is made: the fetch is no longer due, or the queue has had its turn. A slice that awaits
nothing else is excluded. -/
def State.FetchesIn (s u : State) (q : Nat) : Prop :=
  q ∉ s.fetchDue ∧ s.fetchTurn = some q ∧ u = s.tookTurn q ∨ q ∈ s.fetchDue ∧ s.sliceInflight (q / 64) ≠ 0 ∧ u = s.fetchEnded q

/-- Only the records of whose turn it is, or of the fetches that are due, change before the fetch. -/
theorem State.FetchesIn.spec {s u : State} {q : Nat} (h : s.FetchesIn u q) (d gl : DmaResult) :
    s.fetch q d gl = u.takeDescriptor q d gl ∧ (s.sliceState (q / 64) ≠ 2 ∨ s.sliceInflight (q / 64) ≠ 0) ∧
      ∃ a b c, u = { s with fetchSlice := a, fetchQueue := b, fetchDue := c } := by
  rcases h with ⟨hdue, hturn, rfl⟩ | ⟨hdue, hjobs, rfl⟩
  · have hactive : s.sliceState (q / 64) = 1 := sliceState_of_fetchTurn hturn
    exact ⟨fetch_of_turn hdue hturn d gl, .inl (by simp [hactive]), _, _, _, rfl⟩
  · exact ⟨fetch_of_due hdue d gl, .inr hjobs, _, _, _, rfl⟩

/-- Settles O26: a faulting fetch is `fetchFails`, which quiesces its slice only when the fetch was the last thing awaited. -/
theorem failedFetchStopsTheQueue : Obligations.FailedFetchStopsTheQueue := by
  unfold Obligations.FailedFetchStopsTheQueue
  refine ⟨?_, ?_⟩
  · intro s q n addr loc d gl hn hgood hloc hrun hdue hstate hjobs hwin haddr
    subst hn
    obtain ⟨herr, hquiesced, hnone, hsame, hhead⟩ := fetchFails_of_last (s := s.fetchEnded q) (code := 0x19) hrun hstate hjobs
      (by simp [State.fetchEnded, hdue]) (by decide) (getF_lt (s.rd (.qmgQSqHead q)) 15 0)
    refine ⟨_, ?_, herr.state, herr.code, hquiesced, hnone, hsame, hhead⟩
    rw [exec_descriptorFetch hgood, fetch_of_due (by simp [hdue]), takeDescriptor_of_fault (s := s.fetchEnded q) gl rfl hloc haddr (.inl hwin)]
    rfl
  · intro s u q n addr loc d gl hn hgood hloc hrun hfetch haddr
    subst hn
    obtain ⟨hexec, hbusy, a, b, c, rfl⟩ := State.FetchesIn.spec hfetch d gl
    have hexec := (exec_descriptorFetch hgood d gl).trans (congrArg _ hexec)
    refine ⟨fun e h => ?_, fun line hwin hread => ?_⟩
    · obtain ⟨herr, hframe⟩ := takeDescriptor_fault_stops (s := { s with fetchSlice := a, fetchQueue := b, fetchDue := c }) gl rfl hloc haddr
        hrun hbusy (h.imp_right fun hr => ⟨e, hr⟩)
      exact ⟨_, hexec, herr.state, herr.code, herr.wher, herr.index, hframe⟩
    · obtain ⟨herr, hframe⟩ := takeDescriptor_ecc_stops (s := { s with fetchSlice := a, fetchQueue := b, fetchDue := c }) gl rfl hloc haddr
        hrun hbusy hwin hread
      exact ⟨_, hexec, herr.state, herr.code, herr.wher, herr.index, hframe⟩

end Sys2Proof.Machine
end

section
/-! PROOFS. Writes of SLM_SLICE_CTRL that the device refuses (R44, R77), and the reset that clearing ENABLE stands for (R78). -/

namespace Sys2Proof.Machine

/-! ### MGR_STATUS -/

/-- Slice `n` goes from `s` to `t` by a refusal: MGR_STATUS reads `x`, STATE and everything else stand. -/
structure Refuses (s t : State) (n x : Nat) : Prop where
  status : t.fld (.slmSliceStat n) 15 8 = x
  state : t.sliceState n = s.sliceState n
  frame : OnlyRegs [.slmSliceStat n] s t

theorem mgrStatus_refuses (s : State) (n : Nat) {x : Nat} (hx : x < 256) : Refuses s (s.mgrStatus n x) n x where
  status := (s.fld_setFld (.slmSliceStat n) 15 8 x (by decide) (by decide)).trans (Nat.mod_eq_of_lt hx)
  state := s.fld_setFld_ne _ _ 15 8 2 0 x (by decide) (by decide) (by simp)
  frame := .store (by simp) s _

/-! ### The branches of a write -/

/-- Everything is refused while the slice is RESETTING (R77). -/
theorem writeSliceCtrl_of_resetting {s : State} {n : Nat} (h : s.sliceState n = 4) (v : DWord) :
    s.writeSliceCtrl n v = s.mgrStatus n 1 := by
  simp [State.writeSliceCtrl, h]

/-- A reset of a slice that is not QUIESCED is refused (R77). -/
theorem writeSliceCtrl_of_reset {s : State} {n : Nat} {v : DWord} (h : s.sliceState n ≠ 3) (hreset : getB v 2 = true) :
    s.writeSliceCtrl n v = s.mgrStatus n 1 := by
  simp [State.writeSliceCtrl, h, hreset]

/-- ENABLE 0 is refused while the slice is ACTIVE or QUIESCING (R77). -/
theorem writeSliceCtrl_of_disable {s : State} {n : Nat} {v : DWord} (h : s.sliceState n = 1 ∨ s.sliceState n = 2)
    (hdisable : getB v 0 = false) : s.writeSliceCtrl n v = s.mgrStatus n 1 := by
  rcases h with h | h <;> simp [State.writeSliceCtrl, h, hdisable]

/-- A QUIESCED slice is reset by SLICE_RESET 1 and by ENABLE 0 alike (R77, R78). -/
theorem writeSliceCtrl_resets {s : State} {n : Nat} {v : DWord} (h : s.sliceState n = 3) (hv : getB v 2 = true ∨ getB v 0 = false) :
    s.writeSliceCtrl n v = s.resetSlice n := by
  rcases hv with hv | hv <;> simp [State.writeSliceCtrl, h, hv]

/-- Without PASID Enable an enable of a DISABLED slice and the clearing of QUIESCE are refused (R44). -/
theorem writeSliceCtrl_of_pasidOff {s : State} {n : Nat} {v : DWord} (hoff : s.pasidOff n = true) (hreset : getB v 2 = false)
    (henable : getB v 0 = true) (h : s.sliceState n = 0 ∨ (s.sliceState n = 2 ∨ s.sliceState n = 3) ∧ getB v 1 = false) :
    s.writeSliceCtrl n v = s.mgrStatus n 2 := by
  rcases h with h | ⟨h | h, hquiesce⟩
  · simp [State.writeSliceCtrl, h, hoff, hreset, henable]
  · simp [State.writeSliceCtrl, h, hoff, hreset, henable, hquiesce]
  · simp [State.writeSliceCtrl, h, hoff, hreset, henable, hquiesce]

/-- PASID_EN of a register that agrees with its shadow, with the capability's PASID Enable 0 (R44). -/
theorem pasidOff_of_bit {s : State} {n : Nat} (hgood : s.sliceBad n = false) (hbit : s.bit (.slmSlicePasid n) 31 = true)
    (henable : s.pcie.pasidEnable = false) : s.pasidOff n = true := by
  obtain ⟨-, hpasid, -⟩ := sliceBad_eq_false.1 hgood
  have hbit : getB (s.rd (.slmSlicePasid n)) 31 = true := hbit
  simp [State.pasidOff, State.pasidOf, State.lastGood, hpasid, hbit, henable]

/-! ### A slice reset -/

theorem rdeEmpty_rd_sliceStat (s : State) (c st n : Nat) : (s.rdeEmpty c st).rd (.slmSliceStat n) = s.rd (.slmSliceStat n) := by
  unfold State.rdeEmpty
  refine (State.rd_each _ (fun u j => u.wr (.rdeResult c j) 0) (by simp) _ _).trans ?_
  simp

theorem rdeFree_rd_sliceStat (s : State) (c n : Nat) : (s.rdeFree c).rd (.slmSliceStat n) = s.rd (.slmSliceStat n) := by
  unfold State.rdeFree
  refine (State.rd_each _ (fun u j => u.wr (.rdeExpect c j) 0) (by simp) _ _).trans ?_
  simp [rdeEmpty_rd_sliceStat]

theorem clearQueue_rd_sliceStat (s : State) (q n : Nat) : (s.clearQueue q).rd (.slmSliceStat n) = s.rd (.slmSliceStat n) := by
  show (State.wr _ _ _).rd _ = _
  simp [State.each]

theorem wipeSliceBne_rd (s : State) (n : Nat) (r : Reg) : (s.wipeSliceBne n).rd r = s.rd r := by
  refine State.rd_each r _ ?_ s _
  exact fun _ _ => rfl

theorem unreport_rd_sliceStat (s : State) (q n : Nat) : (s.unreport q).rd (.slmSliceStat n) = s.rd (.slmSliceStat n) :=
  (s.rd_setBit (.qmgQRptHead q) _ 31 false).trans (if_neg (by simp))

/-- The part of a slice reset that disables the slice's queues (R78). -/
def State.resetQueues (s : State) (n : Nat) : State :=
  s.each (List.range 64) (fun s i =>
    ((s.clearQueue (64 * n + i)).unreport (64 * n + i) |>.wr (.qmgQRptHead (64 * n + i)) 0
      |>.setBit (.qmgQCtrl (64 * n + i)) 0 false).setQueueState (64 * n + i) 0)

/-- The part that frees the digest contexts which the slice owns. -/
def State.freeContexts (s : State) (n : Nat) : State :=
  s.each (List.range 16) (fun s c => if (s.rdeOf c).owner = some (.slice n) then s.rdeFree c else s)

/-- The part that drops the pending bits of the slice's vectors. -/
def State.dropPending (s : State) (n : Nat) : State := { s with msixPend := s.msixPend.filter (fun v => v / 4 ≠ n) }

/-- A slice reset is these parts, the BNE's and the two fields of SLM_SLICE_STAT. -/
theorem resetSlice_eq (s : State) (n : Nat) : s.resetSlice n =
    (((((s.setFld (.slmSliceStat n) 2 0 4).resetQueues n).dropPending n).freeContexts n).wipeSliceBne n).mgrStatus n 0 := rfl

theorem resetQueues_rd_sliceStat (s : State) (n : Nat) : (s.resetQueues n).rd (.slmSliceStat n) = s.rd (.slmSliceStat n) := by
  refine State.rd_each _ _ (fun u i => ?_) _ _
  simp [State.setQueueState, unreport_rd_sliceStat, clearQueue_rd_sliceStat]

theorem freeContexts_rd_sliceStat (s : State) (n : Nat) : (s.freeContexts n).rd (.slmSliceStat n) = s.rd (.slmSliceStat n) := by
  refine State.rd_each _ _ (fun u c => ?_) _ _
  split
  · exact rdeFree_rd_sliceStat u c n
  · rfl

theorem dropPending_rd (s : State) (n : Nat) (r : Reg) : (s.dropPending n).rd r = s.rd r := rfl

/-- Of a reset's effects only STATE and MGR_STATUS touch SLM_SLICE_STAT: its queues, its digest contexts and its frames on the BNE have
registers of their own. -/
theorem resetSlice_rd_sliceStat (s : State) (n : Nat) :
    (s.resetSlice n).rd (.slmSliceStat n) = setF (setF (s.rd (.slmSliceStat n)) 2 0 4) 15 8 0 := by
  rw [resetSlice_eq, State.mgrStatus, State.rd_setFld, if_pos rfl, wipeSliceBne_rd, freeContexts_rd_sliceStat, dropPending_rd,
    resetQueues_rd_sliceStat, State.rd_setFld, if_pos rfl]

theorem resetSlice_resetting (s : State) (n : Nat) : (s.resetSlice n).fld (.slmSliceStat n) 15 8 = 0 ∧ (s.resetSlice n).sliceState n = 4 := by
  rw [State.sliceState, State.fld, State.fld, resetSlice_rd_sliceStat]
  refine ⟨getF_setF _ 15 8 0 (by decide) (by decide), ?_⟩
  rw [getF_setF_ne _ _ _ _ _ _ (by decide) (by decide) (by decide)]
  exact getF_setF _ 2 0 4 (by decide) (by decide)

/-! ### The commands -/

/-- SLM_SLICE_CTRL of slice `n` in the register map (R20, Table 02-1). -/
theorem target_sliceCtrl (s : State) {n : Nat} (hn : n < 512) : s.target .bar0 (0x100000 + 256 * n) = .reg (.slmSliceCtrl n) := by
  have hbar0 : Reg.ofBar0 (0x100000 + 256 * n) = some (.slmSliceCtrl n) := by
    have hlow : ¬ 0x100000 + 256 * n < 0x18000 := by omega
    have hpage : ¬ 0x100000 + 256 * n < 0x1000 := by omega
    have hslm : 0x100000 + 256 * n < 0x120000 := by omega
    simp [Reg.ofBar0, hlow, hpage, hslm, Reg.ofSlm]
  have htable : ¬ 0x100000 + 256 * n < 0x10000 := by omega
  have hpba : ¬ 0x100000 + 256 * n < 0x4100 := by omega
  simp [State.target, hbar0, htable, hpba]

section
variable {s : State} {n : Nat} (hshown : s.hidden (.slmSliceCtrl n) = false) (hgood : s.sliceBad n = false)
include hshown hgood

theorem hostTo_sliceCtrl (v : DWord) : s.hostTo (.slmSliceCtrl n) (·.sliceCtrl n v) = s.writeSliceCtrl n v := by
  simp [State.hostTo, hshown, State.sliceCtrl, sweepSlice_of_good hgood]

/-- The commands that write SLM_SLICE_CTRL are its write with their own bit set or cleared. -/
theorem exec_sliceEnable (v : DWord) : exec (.sliceEnable n v) s = .next (s.writeSliceCtrl n (setB v 0 true)) :=
  congrArg Host.Outcome.next (hostTo_sliceCtrl hshown hgood (setB v 0 true))
theorem exec_sliceQuiesce (v : DWord) : exec (.sliceQuiesce n v) s = .next (s.writeSliceCtrl n (setB v 1 true)) :=
  congrArg Host.Outcome.next (hostTo_sliceCtrl hshown hgood (setB v 1 true))
theorem exec_sliceUnquiesce (v : DWord) : exec (.sliceUnquiesce n v) s = .next (s.writeSliceCtrl n (setB v 1 false)) :=
  congrArg Host.Outcome.next (hostTo_sliceCtrl hshown hgood (setB v 1 false))
theorem exec_sliceReset (v : DWord) : exec (.sliceReset n v) s = .next (s.writeSliceCtrl n (setB v 2 true)) :=
  congrArg Host.Outcome.next (hostTo_sliceCtrl hshown hgood (setB v 2 true))
theorem exec_sliceDisable (v : DWord) : exec (.sliceDisable n v) s = .next (s.writeSliceCtrl n (setB v 0 false)) :=
  congrArg Host.Outcome.next (hostTo_sliceCtrl hshown hgood (setB v 0 false))
theorem exec_bneCompatSet (v : DWord) : exec (.bneCompatSet n v) s = .next (s.writeSliceCtrl n (setB v 4 true)) :=
  congrArg Host.Outcome.next (hostTo_sliceCtrl hshown hgood (setB v 4 true))

/-- A write of SLM_SLICE_CTRL by its offset. -/
theorem exec_registerWrite_sliceCtrl (hn : n < 512) (v : DWord) :
    exec (.registerWrite .bar0 (0x100000 + 256 * n) 32 v) s = .next (s.writeSliceCtrl n (BitVec.ofNat 64 (v.toNat % 2 ^ 32))) := by
  have hfits : fits (.slmSliceCtrl n) (0x100000 + 256 * n) 32 = true := by
    have hwidth : (Reg.slmSliceCtrl n).width = 32 := rfl
    have haligned : (0x100000 + 256 * n) % 4 = 0 := by omega
    simp [fits, hwidth, haligned]
  show execRegisterWrite .bar0 (0x100000 + 256 * n) 32 v s = _
  simp only [execRegisterWrite, State.busWrite, target_sliceCtrl s hn, hfits]
  exact congrArg Host.Outcome.next (hostTo_sliceCtrl hshown hgood _)

/-- Every command that writes SLM_SLICE_CTRL of slice `n` is a write of some value. -/
theorem exec_writes_sliceCtrl (hn : n < 512) {v : DWord} {c : Instr} (hc : c ∈ [Instr.sliceEnable n v, .sliceQuiesce n v,
    .sliceUnquiesce n v, .sliceReset n v, .sliceDisable n v, .bneCompatSet n v, .registerWrite .bar0 (0x100000 + 256 * n) 32 v]) :
    ∃ w, exec c s = .next (s.writeSliceCtrl n w) := by
  simp only [List.mem_cons, List.not_mem_nil, or_false] at hc
  rcases hc with rfl | rfl | rfl | rfl | rfl | rfl | rfl
  · exact ⟨_, exec_sliceEnable hshown hgood v⟩
  · exact ⟨_, exec_sliceQuiesce hshown hgood v⟩
  · exact ⟨_, exec_sliceUnquiesce hshown hgood v⟩
  · exact ⟨_, exec_sliceReset hshown hgood v⟩
  · exact ⟨_, exec_sliceDisable hshown hgood v⟩
  · exact ⟨_, exec_bneCompatSet hshown hgood v⟩
  · exact ⟨_, exec_registerWrite_sliceCtrl hshown hgood hn v⟩

end

/-- Settles O30: each refused write takes a branch of `writeSliceCtrl` that stores MGR_STATUS alone; ENABLE 0 of a QUIESCED slice is its
reset. -/
theorem refusedSliceWrites : Obligations.RefusedSliceWrites := by
  unfold Obligations.RefusedSliceWrites
  intro s n v hshown hgood
  have hbusy : Refuses s (s.mgrStatus n 1) n 1 := mgrStatus_refuses s n (by decide)
  have hoff : Refuses s (s.mgrStatus n 2) n 2 := mgrStatus_refuses s n (by decide)
  refine ⟨fun hbit henable hreset => ?_, fun hst => ?_, fun hst => ?_, fun hst => ?_, fun hst c hc hn => ?_⟩
  · have hpasid : s.pasidOff n = true := pasidOff_of_bit hgood hbit henable
    refine ⟨fun hst => ⟨_, ?_, hoff.status, hoff.frame⟩, fun hst hv => ⟨_, ?_, hoff.status, hoff.frame⟩⟩
    · rw [exec_sliceEnable hshown hgood, writeSliceCtrl_of_pasidOff hpasid (by simp [getB_setB, hreset]) (by simp [getB_setB]) (.inl hst)]
    · rw [exec_sliceUnquiesce hshown hgood,
        writeSliceCtrl_of_pasidOff hpasid (by simp [getB_setB, hreset]) (by simp [getB_setB, hv]) (.inr ⟨hst, by simp [getB_setB]⟩)]
  · refine ⟨_, ?_, hbusy.status, hbusy.frame⟩
    rw [exec_sliceReset hshown hgood, writeSliceCtrl_of_reset hst (by simp [getB_setB])]
  · refine ⟨_, ?_, hbusy.status, hbusy.state, hbusy.frame⟩
    rw [exec_sliceDisable hshown hgood, writeSliceCtrl_of_disable hst (by simp [getB_setB])]
  · have hdisable : exec (.sliceDisable n v) s = .next (s.resetSlice n) := by
      rw [exec_sliceDisable hshown hgood, writeSliceCtrl_resets hst (.inr (by simp [getB_setB]))]
    have hreset : exec (.sliceReset n v) s = .next (s.resetSlice n) := by
      rw [exec_sliceReset hshown hgood, writeSliceCtrl_resets hst (.inl (by simp [getB_setB]))]
    exact ⟨hdisable.trans hreset.symm, _, hdisable, resetSlice_resetting s n⟩
  · obtain ⟨w, hw⟩ : ∃ w, exec c s = .next (s.writeSliceCtrl n w) := exec_writes_sliceCtrl hshown hgood hn hc
    exact ⟨_, hw.trans (congrArg _ (writeSliceCtrl_of_resetting hst w)), hbusy.status, hbusy.state.trans hst, hbusy.frame⟩

end Sys2Proof.Machine
end

section
/-! PROOFS. Instructions of a tile: what an issued instruction leaves behind, and what it draws when it begins. -/

namespace Sys2Proof.Machine

/-! ### What an instruction draws -/

/-- Tile `y` is `x` but for the mask generator and its FIFO. -/
def Tile.DrawnFrom (y x : Tile) : Prop := y = { x with gen := y.gen, fifo := y.fifo }

theorem Tile.DrawnFrom.refl (x : Tile) : x.DrawnFrom x := rfl

theorem Tile.DrawnFrom.trans {x y z : Tile} (h : y.DrawnFrom x) (h' : z.DrawnFrom y) : z.DrawnFrom x := by
  unfold Tile.DrawnFrom at *
  rw [h', h]

theorem fillFifo_drawnFrom (n : Nat) : ∀ x : Tile, (x.fillFifo n).DrawnFrom x := by
  induction n with
  | zero => exact Tile.DrawnFrom.refl
  | succ n ih =>
    intro x
    refine Tile.DrawnFrom.trans (y := { x with fifo := _, gen := _ }) rfl (ih _)

theorem drawMask_drawnFrom (x : Tile) (n : Nat) : (x.drawMask n).2.DrawnFrom x :=
  Tile.DrawnFrom.trans (fillFifo_drawnFrom _ x) rfl

/-- A draw of nothing leaves the tile as it is. -/
theorem drawMask_zero (x : Tile) : (x.drawMask 0).2 = x := by
  have hfill : (0 - x.fifo.length + 135) / 136 = 0 := by omega
  rw [Tile.drawMask, hfill]
  rfl

theorem drawCtx_drawnFrom (x : Tile) (op : Nat) (f : TileFields) : (x.drawCtx op f).2.DrawnFrom x := by
  unfold Tile.drawCtx
  simp only
  split
  · exact drawMask_drawnFrom x _
  · split
    · exact (drawMask_drawnFrom x _).trans (drawMask_drawnFrom _ _)
    · exact drawMask_drawnFrom x _

/-- An instruction without beats, masks and butterflies draws nothing. -/
theorem drawCtx_of_no_draw {x : Tile} {op : Nat} {f : TileFields} (hbeats : isBeats op = false) (hmask : maskNeed op f = 0)
    (hfly : flyNeed op f = 0) : (x.drawCtx op f).2 = x := by
  unfold Tile.drawCtx
  simp [hbeats, hmask, hfly, drawMask_zero]

/-- The tile drawn from, field by field. -/
theorem drawnTile_of_no_draw {s : State} {t op : Nat} {f : TileFields} (hbeats : isBeats op = false) (hmask : maskNeed op f = 0)
    (hfly : flyNeed op f = 0) : s.drawnTile t op f = s.nextTile t := by
  rw [State.drawnTile, drawCtx_of_no_draw hbeats hmask hfly, State.nextTile]

/-- A tile drawn from keeps everything a draw does not take. -/
theorem drawnTile_eq (s : State) (t op : Nat) (f : TileFields) : s.drawnTile t op f =
    { s.tile t with gen := (s.drawnTile t op f).gen, fifo := (s.drawnTile t op f).fifo, pc := ((s.tile t).pc + 1) % 8192, passBp := false } := by
  have h := drawCtx_drawnFrom (s.tile t) op f
  unfold Tile.DrawnFrom at h
  conv_lhs => rw [State.drawnTile, h]
  rfl

@[simp] theorem drawnTile_preg (s : State) (t op : Nat) (f : TileFields) (i : Nat) : (s.drawnTile t op f).preg i = (s.tile t).preg i := by
  rw [drawnTile_eq]; rfl
@[simp] theorem drawnTile_pget (s : State) (t op : Nat) (f : TileFields) (w i : Nat) : (s.drawnTile t op f).pget w i = (s.tile t).pget w i := by
  rw [drawnTile_eq]; rfl
@[simp] theorem drawnTile_vget (s : State) (t op : Nat) (f : TileFields) (w i : Nat) : (s.drawnTile t op f).vget w i = (s.tile t).vget w i := by
  rw [drawnTile_eq]; rfl
@[simp] theorem drawnTile_sreg (s : State) (t op : Nat) (f : TileFields) (i : Nat) : (s.drawnTile t op f).sreg i = (s.tile t).sreg i := by
  rw [drawnTile_eq]; rfl
@[simp] theorem drawnTile_sn (s : State) (t op : Nat) (f : TileFields) (i : Nat) : (s.drawnTile t op f).sn i = (s.tile t).sn i := by
  rw [drawnTile_eq]; rfl
@[simp] theorem drawnTile_q (s : State) (t op : Nat) (f : TileFields) (w : Nat) : (s.drawnTile t op f).q w = (s.tile t).q w := by
  rw [drawnTile_eq]; rfl
@[simp] theorem drawnTile_full (s : State) (t op : Nat) (f : TileFields) : (s.drawnTile t op f).full = (s.tile t).full := by
  rw [drawnTile_eq]; rfl
@[simp] theorem drawnTile_mem (s : State) (t op : Nat) (f : TileFields) : (s.drawnTile t op f).mem = (s.tile t).mem := by
  rw [drawnTile_eq]
@[simp] theorem drawnTile_xfers (s : State) (t op : Nat) (f : TileFields) : (s.drawnTile t op f).xfers = (s.tile t).xfers := by
  rw [drawnTile_eq]
@[simp] theorem drawnTile_cycles (s : State) (t op : Nat) (f : TileFields) : (s.drawnTile t op f).cycles = (s.tile t).cycles := by
  rw [drawnTile_eq]
@[simp] theorem drawnTile_pos (s : State) (t op : Nat) (f : TileFields) : (s.drawnTile t op f).pos = (s.tile t).pos := by
  rw [drawnTile_eq]
@[simp] theorem drawnTile_cflag (s : State) (t op : Nat) (f : TileFields) : (s.drawnTile t op f).cflag = (s.tile t).cflag := by
  rw [drawnTile_eq]

@[simp] theorem nextTile_preg (s : State) (t i : Nat) : (s.nextTile t).preg i = (s.tile t).preg i := rfl
@[simp] theorem nextTile_pget (s : State) (t w i : Nat) : (s.nextTile t).pget w i = (s.tile t).pget w i := rfl
@[simp] theorem nextTile_vget (s : State) (t w i : Nat) : (s.nextTile t).vget w i = (s.tile t).vget w i := rfl
@[simp] theorem nextTile_sreg (s : State) (t i : Nat) : (s.nextTile t).sreg i = (s.tile t).sreg i := rfl
@[simp] theorem nextTile_sn (s : State) (t i : Nat) : (s.nextTile t).sn i = (s.tile t).sn i := rfl
@[simp] theorem nextTile_q (s : State) (t w : Nat) : (s.nextTile t).q w = (s.tile t).q w := rfl
@[simp] theorem nextTile_mem (s : State) (t : Nat) : (s.nextTile t).mem = (s.tile t).mem := rfl
@[simp] theorem nextTile_xfers (s : State) (t : Nat) : (s.nextTile t).xfers = (s.tile t).xfers := rfl
@[simp] theorem nextTile_cflag (s : State) (t : Nat) : (s.nextTile t).cflag = (s.tile t).cflag := rfl
@[simp] theorem nextTile_pos (s : State) (t : Nat) : (s.nextTile t).pos = (s.tile t).pos := rfl
@[simp] theorem nextTile_size (s : State) (t : Nat) : (s.nextTile t).size = (s.tile t).size := rfl

/-! ### Issue -/

/-- What `State.takes` says, taken apart. -/
theorem takes_iff {s : State} {t op : Nat} {f : TileFields} : s.takes t op f = true ↔
    (s.tile t).issues = true ∧ (s.tile t).haltIn = none ∧ (s.breakHit t (s.tile t).pc && !(s.tile t).passBp) = false ∧
      wordLegal op f = true ∧ (isMicro op = true → (s.tile t).microcode s.freeCtr op = .done) := by
  unfold State.takes
  cases isMicro op <;> cases s.breakHit t (s.tile t).pc <;> simp [and_assoc]

/-- A word that its tile takes is defined. -/
theorem legal_of_takes {s : State} {t op : Nat} {f : TileFields} (h : s.takes t op f = true) : wordLegal op f = true :=
  (takes_iff.1 h).2.2.2.1

/-- A word that its tile takes is run with what it has drawn. -/
theorem issueTile_of_takes {s : State} {t op : Nat} {f : TileFields} (h : s.takes t op f = true) (sem : Sem) :
    s.issueTile t op f sem = s.runDrawn t op f sem ((s.tile t).drawCtx op f).1 ((s.tile t).drawCtx op f).2 0 false := by
  obtain ⟨hissue, -, hbreak, hlegal, hmicro⟩ := takes_iff.1 h
  have hend : (if isMicro op = true then (s.tile t).microcode s.freeCtr op else .done) = .done := by
    split
    · exact hmicro ‹_›
    · rfl
  simp [State.issueTile, State.runInstr, hissue, hbreak, hlegal, hend]

/-- An instruction whose meaning completes. -/
theorem issueTile_ok {s : State} {t op tc : Nat} {f : TileFields} {sem : Sem} {y : Tile} (h : s.takes t op f = true)
    (hsem : sem (s.tileArg t op f) = .ok y tc) : s.issueTile t op f sem = s.tileDone t y tc := by
  obtain ⟨-, hhalt, -⟩ := takes_iff.1 h
  rw [issueTile_of_takes h]
  unfold State.tileArg State.drawnTile at hsem
  simp only [State.runDrawn, hhalt, hsem]
  rfl

/-- An instruction that waits. -/
theorem issueTile_wait {s : State} {t op : Nat} {f : TileFields} {sem : Sem} (h : s.takes t op f = true)
    (hsem : sem (s.tileArg t op f) = .wait) : s.issueTile t op f sem = s := by
  obtain ⟨-, hhalt, -⟩ := takes_iff.1 h
  rw [issueTile_of_takes h]
  unfold State.tileArg State.drawnTile at hsem
  simp only [State.runDrawn, hhalt, hsem]

/-- An instruction that raises an exception before any effect. -/
theorem issueTile_fault {s : State} {t op cause addr : Nat} {f : TileFields} {sem : Sem} (h : s.takes t op f = true)
    (hsem : sem (s.tileArg t op f) = (s.tileArg t op f).fault cause addr) :
    s.issueTile t op f sem = s.tileFault t op f cause addr := by
  obtain ⟨-, hhalt, -⟩ := takes_iff.1 h
  rw [issueTile_of_takes h]
  have hcycles : ((s.tile t).drawCtx op f).2.cycles = (s.tile t).cycles := drawnTile_cycles s t op f
  unfold State.tileArg State.drawnTile at hsem
  simp only [State.runDrawn, hhalt, hsem, TileArg.fault]
  simp only [State.tileFault, State.tileStopped, State.drawnTile, Tile.spend, hcycles]
  rfl

/-! ### Instructions that draw nothing -/

/-- An instruction that draws nothing is given the tile at the next instruction. -/
theorem tileArg_x_of_no_draw {s : State} {t op : Nat} {f : TileFields} (hbeats : isBeats op = false) (hmask : maskNeed op f = 0)
    (hfly : flyNeed op f = 0) : (s.tileArg t op f).x = s.nextTile t := drawnTile_of_no_draw hbeats hmask hfly

@[simp] theorem tileArg_f (s : State) (t op : Nat) (f : TileFields) : (s.tileArg t op f).f = f := rfl
@[simp] theorem tileArg_x (s : State) (t op : Nat) (f : TileFields) : (s.tileArg t op f).x = s.drawnTile t op f := rfl

end Sys2Proof.Machine
end

section
/-! PROOFS. The arithmetic of the tiles (R182 to R185, R191): carry-less products, modular operations, rounding, packed fields. -/

namespace Sys2Proof.Machine

/-! ### Modular powers -/

theorem powModAux_eq (m : Nat) : ∀ (n b e acc : Nat), e < 2 ^ n → acc % m = acc → powModAux m n b e acc = acc * b ^ e % m := by
  intro n
  induction n with
  | zero => intro b e acc he hacc; simp [powModAux, Nat.lt_one_iff.1 he, hacc]
  | succ n ih =>
    intro b e acc he hacc
    unfold powModAux
    split
    · simp [*]
    · have hsplit : b ^ e = (b * b) ^ (e / 2) * b ^ (e % 2) := by
        rw [← pow_two, ← pow_mul, ← pow_add, Nat.div_add_mod]
      rw [ih _ _ _ (by rw [pow_succ] at he; omega) (by split <;> simp [hacc]), hsplit]
      rcases Nat.mod_two_eq_zero_or_one e with h | h
      · simp [h, Nat.mul_mod, Nat.pow_mod]
      · simp only [h, if_true, pow_one]
        calc acc * b % m * (b * b % m) ^ (e / 2) % m = acc * b * (b * b) ^ (e / 2) % m := by simp [Nat.mul_mod, Nat.pow_mod]
          _ = _ := by ring_nf

/-- The modular power. -/
theorem powMod_eq (b e m : Nat) : powMod b e m = b ^ e % m := by
  rw [powMod, powModAux_eq m _ _ _ _ Nat.lt_log2_self (Nat.mod_mod 1 m)]
  simpa using (Nat.pow_mod b e m).symm

/-! ### Carry-less products -/

/-- The bits of the first `n` partial products of a carry-less product. -/
theorem clmul_partial_testBit (x y k n : Nat) :
    ((List.range n).foldl (fun r i => if y.testBit i then r ^^^ (x <<< i) else r) 0).testBit k =
      ((List.range n).filter (fun i => y.testBit i && decide (i ≤ k) && x.testBit (k - i))).length.bodd := by
  induction n with
  | zero => simp
  | succ n ih =>
    rw [List.range_succ, List.foldl_append, List.filter_append, List.length_append, Nat.bodd_add, ← ih]
    cases hy : y.testBit n with
    | false => simp [hy]
    | true =>
      cases hk : (decide (n ≤ k) && x.testBit (k - n)) <;>
        simp only [List.foldl_cons, List.foldl_nil, hy, if_true, Nat.testBit_xor, Nat.testBit_shiftLeft, ge_iff_le, hk, List.filter_cons,
          Bool.true_and, List.filter_nil, List.length_singleton] <;> simp

/-! ### Modular operations -/

theorem subM_lt {q : Nat} (hq : 0 < q) (x y : Nat) : subM q x y < q := by
  have hpos : (0 : Int) < q := by exact_mod_cast hq
  have := Int.emod_lt_of_pos ((x : Int) - y) hpos
  unfold subM
  omega

theorem subM_add {q : Nat} (hq : 0 < q) (x y : Nat) : (subM q x y + y) % q = x % q := by
  have hne : (q : Int) ≠ 0 := by exact_mod_cast hq.ne'
  have hcast : ((subM q x y : Nat) : Int) = ((x : Int) - y) % q := Int.toNat_of_nonneg (Int.emod_nonneg _ hne)
  zify
  rw [hcast, Int.emod_add_emod]
  simp

/-- For an odd modulus, the factor of a Montgomery product undoes the multiplication by 2^b. -/
theorem mulM_montgomery {q : Nat} (hodd : q % 2 = 1) (b x y : Nat) : mulM false b q x y * 2 ^ b % q = x * y % q := by
  have hhalf : (q + 1) / 2 * 2 % q = 1 % q := by
    have : (q + 1) / 2 * 2 = q + 1 := by omega
    rw [this, Nat.add_mod_left]
  have hinv : ((q + 1) / 2) ^ b * 2 ^ b % q = 1 % q := by rw [← mul_pow, Nat.pow_mod, hhalf, ← Nat.pow_mod, one_pow]
  calc mulM false b q x y * 2 ^ b % q = x * y * (((q + 1) / 2) ^ b * 2 ^ b) % q := by
        rw [← mul_assoc]; simp [mulM, powMod_eq, Nat.mul_mod]
    _ = x * y * (((q + 1) / 2) ^ b * 2 ^ b % q) % q := by simp [Nat.mul_mod]
    _ = x * y % q := by rw [hinv]; simp

/-! ### Rounding -/

/-- The centred residue of an even modulus. -/
theorem centred_bounds {g : Nat} (hg : 0 < g) (r : Nat) : -(g : Int) < centred (2 * g) r ∧ centred (2 * g) r ≤ g := by
  have := Nat.mod_lt r (show 0 < 2 * g by omega)
  unfold centred
  split <;> omega

theorem centred_spec (g r : Nat) : ∃ n : Nat, (r : Int) - centred (2 * g) r = 2 * g * n := by
  have hdiv := Nat.div_add_mod r (2 * g)
  unfold centred
  split
  · refine ⟨r / (2 * g), ?_⟩
    have : (r : Int) = 2 * g * (r / (2 * g) : Nat) + (r % (2 * g) : Nat) := by exact_mod_cast hdiv.symm
    linarith
  · refine ⟨r / (2 * g) + 1, ?_⟩
    have : (r : Int) = 2 * g * (r / (2 * g) : Nat) + (r % (2 * g) : Nat) := by exact_mod_cast hdiv.symm
    push_cast at this ⊢
    linarith

/-- The high part of a decomposed residue away from the top. -/
theorem decompose_spec {q g : Nat} (hg : 0 < g) (hdvd : 2 * g ∣ q - 1) (hq : 1 < q) (x : Nat) :
    (((decompose q g x).1 : Int) * (2 * g) + (decompose q g x).2 - (x : Int)) % q = 0 ∧
      -(g : Int) ≤ (decompose q g x).2 ∧ (decompose q g x).2 ≤ g ∧ (decompose q g x).1 < (q - 1) / (2 * g) := by
  obtain ⟨m, hm⟩ := hdvd
  have hr := Nat.mod_lt x (show 0 < q by omega)
  obtain ⟨hlow, hhigh⟩ := centred_bounds hg (x % q)
  obtain ⟨n, hn⟩ := centred_spec g (x % q)
  have hmod : ((x % q : Nat) : Int) - x = q * -(x / q : Nat) := by
    have := Nat.div_add_mod x q
    have : (x : Int) = q * (x / q : Nat) + (x % q : Nat) := by exact_mod_cast this.symm
    linarith
  have hqm : (q - 1) / (2 * g) = m := by rw [hm, Nat.mul_div_cancel_left _ (by omega)]
  have hqm' : (q : Int) = 2 * g * m + 1 := by have : q = 2 * g * m + 1 := by omega
                                              exact_mod_cast this
  have hmpos : 0 < m := by rcases Nat.eq_zero_or_pos m with rfl | h <;> omega
  rw [hqm]
  unfold decompose
  simp only
  split
  · next htop =>
    refine ⟨?_, by omega, by omega, hmpos⟩
    apply Int.emod_eq_zero_of_dvd
    exact ⟨-1 - (x / q : Nat), by push_cast at *; linarith⟩
  · next htop =>
    have hdiv : (((x % q : Nat) : Int) - centred (2 * g) (x % q)) / (2 * g) = n := by
      rw [hn]; exact Int.mul_ediv_cancel_left _ (by omega)
    have hnm : n < m := by
      by_contra hge
      have h1 : (2 * g : Int) * m ≤ 2 * g * n := by
        apply mul_le_mul_of_nonneg_left <;> omega
      have h2 : n ≠ m := fun h => htop (by rw [hn, hqm', h]; ring)
      have h3 : (2 * g : Int) * (m + 1) ≤ 2 * g * n := by
        apply mul_le_mul_of_nonneg_left <;> omega
      rw [mul_add] at h3
      omega
    refine ⟨?_, by omega, hhigh, ?_⟩
    · apply Int.emod_eq_zero_of_dvd
      refine ⟨-(x / q : Nat), ?_⟩
      rw [← hmod, hdiv]
      simp only [Int.toNat_natCast]
      linarith
    · rw [hdiv]; exact hnm

/-! ### Packed fields -/

theorem joinBits_lt (b : Nat) (l : List Nat) : joinBits b l < 2 ^ (b * l.length) := by
  induction l with
  | nil => simp [joinBits]
  | cons a l ih =>
    have hfold : joinBits b (a :: l) = a % 2 ^ b + 2 ^ b * joinBits b l := rfl
    have ha := Nat.mod_lt a (Nat.two_pow_pos b)
    rw [hfold, List.length_cons, Nat.mul_succ, pow_add, mul_comm (2 ^ (b * _))]
    nlinarith [Nat.mul_le_mul_left (2 ^ b) ih]

/-- Fields come back as they went in. -/
theorem splitBits_joinBits {b : Nat} {l : List Nat} (h : ∀ x ∈ l, x < 2 ^ b) : splitBits b l.length (joinBits b l) = l := by
  induction l with
  | nil => rfl
  | cons a l ih =>
    have hfold : joinBits b (a :: l) = a % 2 ^ b + 2 ^ b * joinBits b l := rfl
    have ha := h a (by simp)
    rw [List.length_cons, splitBits, hfold, Nat.add_mul_mod_self_left, Nat.mod_mod, Nat.mod_eq_of_lt ha,
      Nat.add_mul_div_left _ _ (Nat.two_pow_pos b), Nat.div_eq_of_lt ha, Nat.zero_add, ih fun x hx => h x (by simp [hx])]

/-- The number in the low `n` bytes. -/
theorem leNat_leBytes (n x : Nat) : leNat (leBytes n x) = x % 2 ^ (8 * n) := by
  induction n generalizing x with
  | zero => simp [leBytes, leNat, Nat.mod_one]
  | succ n ih =>
    rw [leBytes, leNat, ih, BitVec.toNat_ofNat, Nat.mul_succ, Nat.add_comm (8 * n), pow_add, Nat.mod_mul]
    norm_num

theorem leNat_leBytes_of_lt {n x : Nat} (h : x < 2 ^ (8 * n)) : leNat (leBytes n x) = x := by
  rw [leNat_leBytes, Nat.mod_eq_of_lt h]

end Sys2Proof.Machine
end

section
/-! PROOFS. Long-vector instructions (R182 to R187): whatever the order of beats and lanes, the registers end as the element-wise
meaning gives them. -/

namespace Sys2Proof.Machine

/-! ### Beats of a list -/

/-- Piece `b` of a list cut into pieces of `n`. -/
def piece {α : Type} (n b : Nat) (l : List α) : List α := (l.drop (n * b)).take n

theorem getElem?_piece {α : Type} {n k : Nat} (hk : k < n) (b : Nat) (l : List α) : (piece n b l)[k]? = l[n * b + k]? := by
  simp [piece, hk]

theorem length_piece {α : Type} {n b : Nat} {l : List α} (h : n * (b + 1) ≤ l.length) : (piece n b l).length = n := by
  rw [Nat.mul_succ] at h
  simp [piece]; omega

theorem piece_map {α β : Type} (n b : Nat) (f : α → β) (l : List α) : piece n b (l.map f) = (piece n b l).map f := by
  simp [piece, List.map_drop, List.map_take]

theorem piece_zipWith {α β γ : Type} (n b : Nat) (f : α → β → γ) (l : List α) (m : List β) :
    piece n b (List.zipWith f l m) = List.zipWith f (piece n b l) (piece n b m) := by
  simp [piece, List.drop_zipWith, List.take_zipWith]

/-- Lists of one length with the same pieces are equal. -/
theorem eq_of_pieces {α : Type} {n c : Nat} (hn : 0 < n) {l m : List α} (hl : l.length = n * c) (hm : m.length = n * c)
    (h : ∀ b, b < c → piece n b l = piece n b m) : l = m := by
  refine List.ext_getElem? fun k => ?_
  by_cases hk : k < n * c
  · have hb : k / n < c := Nat.div_lt_of_lt_mul hk
    have hr := Nat.mod_lt k hn
    have := congrArg (fun p => p[k % n]?) (h _ hb)
    simpa [getElem?_piece hr, Nat.div_add_mod] using this
  · rw [List.getElem?_eq_none (by omega), List.getElem?_eq_none (by omega)]

/-- A list with one of its pieces replaced. -/
theorem piece_replace {α : Type} {n c b b' : Nat} {l p : List α} (hl : l.length = n * c) (hp : p.length = n) (hb : b < c) (hb' : b' < c) :
    piece n b' (l.take (n * b) ++ p ++ l.drop (n * b + p.length)) = if b' = b then p else piece n b' l := by
  have hbc : n * b + n ≤ n * c := by rw [← Nat.mul_succ]; exact Nat.mul_le_mul_left n hb
  have hbc' : n * b' + n ≤ n * c := by rw [← Nat.mul_succ]; exact Nat.mul_le_mul_left n hb'
  refine List.ext_getElem? fun k => ?_
  by_cases hk : k < n
  · rw [getElem?_piece hk, List.append_assoc, List.getElem?_append, List.length_take, Nat.min_eq_left (by omega)]
    rcases Nat.lt_trichotomy b' b with hlt | rfl | hgt
    · have : n * b' + n ≤ n * b := by rw [← Nat.mul_succ]; exact Nat.mul_le_mul_left n hlt
      rw [if_pos (by omega), if_neg (by omega), List.getElem?_take, if_pos (by omega), getElem?_piece hk]
    · rw [if_neg (by omega), if_pos rfl, List.getElem?_append_left (by omega)]
      congr 1; omega
    · have : n * b + n ≤ n * b' := by rw [← Nat.mul_succ]; exact Nat.mul_le_mul_left n hgt
      rw [if_neg (by omega), if_neg (by omega), List.getElem?_append_right (by omega), List.getElem?_drop, getElem?_piece hk]
      congr 1; omega
  · rw [List.getElem?_eq_none (by simp [piece]; omega), List.getElem?_eq_none]
    split
    · omega
    · simp [piece]; omega

/-! ### Lanes of a beat -/

theorem length_splitWords (l : List Nat) : (splitWords l).length = 2 * l.length := by
  induction l with
  | nil => rfl
  | cons a l ih => simp [splitWords, List.flatMap_cons] at ih ⊢; omega

theorem splitWords_cons (a : Nat) (l : List Nat) : splitWords (a :: l) = BitVec.ofNat 32 a :: BitVec.ofNat 32 (a / 2 ^ 32) :: splitWords l := rfl

theorem drop_splitWords (k : Nat) : ∀ l : List Nat, (splitWords l).drop (2 * k) = splitWords (l.drop k) := by
  induction k with
  | zero => simp
  | succ k ih =>
    intro l
    cases l with
    | nil => simp [splitWords]
    | cons a l => rw [Nat.mul_succ, splitWords_cons]; simpa using ih l

theorem take_splitWords (k : Nat) : ∀ l : List Nat, (splitWords l).take (2 * k) = splitWords (l.take k) := by
  induction k with
  | zero => simp [splitWords]
  | succ k ih =>
    intro l
    cases l with
    | nil => simp [splitWords]
    | cons a l =>
      rw [Nat.mul_succ, splitWords_cons, List.take_succ_cons, List.take_succ_cons, ih, List.take_succ_cons, splitWords_cons]

theorem drop_joinWords (k : Nat) : ∀ l : List Word, (joinWords (l.drop (2 * k))) = (joinWords l).drop k := by
  induction k with
  | zero => simp
  | succ k ih =>
    intro l
    match l with
    | [] => simp [joinWords]
    | [a] => simp [joinWords, Nat.mul_succ]
    | a :: b :: l => rw [Nat.mul_succ, joinWords]; simpa using ih l

theorem take_joinWords (k : Nat) : ∀ l : List Word, (joinWords (l.take (2 * k))) = (joinWords l).take k := by
  induction k with
  | zero => simp [joinWords]
  | succ k ih =>
    intro l
    match l with
    | [] => simp [joinWords]
    | [a] => simp [joinWords, Nat.mul_succ]
    | a :: b :: l => rw [Nat.mul_succ, joinWords, List.take_succ_cons, List.take_succ_cons, List.take_succ_cons, joinWords, ih l]

theorem length_joinWords : ∀ l : List Word, (joinWords l).length = l.length / 2
  | [] => rfl
  | [_] => by simp [joinWords]
  | _ :: _ :: l => by simp only [joinWords, List.length_cons, length_joinWords l]; omega

/-- A width of the tile. -/
theorem width_cases {w : Nat} (hw : w ≤ 2) : w = 0 ∨ w = 1 ∨ w = 2 := by omega

theorem length_elemsOf {w : Nat} (hw : w ≤ 2) {l : List Nat} (hl : l.length = beatLanes w) : (elemsOf w l).length = beatElems w := by
  rcases width_cases hw with rfl | rfl | rfl <;> simp_all [elemsOf, beatLanes, beatElems, length_splitWords]

theorem length_lanesOf {w : Nat} (hw : w ≤ 2) {l : List Word} (hl : l.length = beatElems w) : (lanesOf w l).length = beatLanes w := by
  rcases width_cases hw with rfl | rfl | rfl <;> simp_all [lanesOf, beatLanes, beatElems, length_joinWords]

/-- The elements of a beat are the elements of its lanes. -/
theorem piece_elemsOf {w : Nat} (hw : w ≤ 2) (b : Nat) (l : List Nat) :
    piece (beatElems w) b (elemsOf w l) = elemsOf w (piece (beatLanes w) b l) := by
  rcases width_cases hw with rfl | rfl | rfl
  · exact piece_map _ _ _ _
  · exact piece_map _ _ _ _
  · show ((splitWords l).drop (2 * 16 * b)).take (2 * 16) = splitWords _
    rw [Nat.mul_assoc, drop_splitWords, take_splitWords]; rfl

theorem piece_lanesOf {w : Nat} (hw : w ≤ 2) (b : Nat) (l : List Word) :
    lanesOf w (piece (beatElems w) b l) = piece (beatLanes w) b (lanesOf w l) := by
  rcases width_cases hw with rfl | rfl | rfl
  · exact (piece_map _ _ _ _).symm
  · exact (piece_map _ _ _ _).symm
  · show joinWords ((l.drop (2 * 16 * b)).take (2 * 16)) = _
    rw [take_joinWords, Nat.mul_assoc, drop_joinWords]; rfl

/-- Lanes computed in any order are the lanes. -/
theorem byLane_eq {order : List Nat} {n : Nat} (h : order.Perm (List.range n)) (f : Nat → Nat) : byLane order n f = (List.range n).map f := by
  have hset : ∀ (o : List Nat) (l : List Nat), (o.foldl (fun l i => l.set i (f i)) l).length = l.length ∧
      ∀ k, k < l.length → (o.foldl (fun l i => l.set i (f i)) l)[k]? = if k ∈ o then some (f k) else l[k]? := by
    intro o
    induction o with
    | nil => simp
    | cons a o ih =>
      intro l
      obtain ⟨hlen, hget⟩ := ih (l.set a (f a))
      refine ⟨by simpa using hlen, fun k hk => ?_⟩
      rw [List.foldl_cons, hget k (by simpa using hk), List.getElem?_set]
      by_cases hka : a = k
      · subst hka; simp [hk]
      · simp [hka, Ne.symm hka]
  obtain ⟨hlen, hget⟩ := hset order (List.replicate n 0)
  refine List.ext_getElem? fun k => ?_
  by_cases hk : k < n
  · rw [byLane, hget k (by simpa using hk), if_pos (h.mem_iff.2 (by simpa using hk))]
    simp [hk]
  · rw [byLane, List.getElem?_eq_none (by simp_all), List.getElem?_eq_none (by simp_all)]

theorem map_range_entry {n : Nat} {u : List Nat} (hu : u.length = n) (f : Nat → Nat) : (List.range n).map (fun k => f (entry u k)) = u.map f := by
  refine List.ext_getElem (by simp [hu]) fun k h1 h2 => ?_
  have : k < u.length := by simpa using h2
  simp [entry, this]

theorem map_range_entry2 {n : Nat} {u v : List Nat} (hu : u.length = n) (hv : v.length = n) (f : Nat → Nat → Nat) :
    (List.range n).map (fun k => f (entry u k) (entry v k)) = List.zipWith f u v := by
  refine List.ext_getElem (by simp [hu, hv]) fun k h1 h2 => ?_
  have hk : k < n := by simpa using h1
  simp [entry, hu, hv, hk]

/-! ### Registers of full tiles -/

/-- Elements of beat `b` of a long-vector register. -/
def Tile.words (x : Tile) (w i b : Nat) : List Word := piece (beatElems w) b (x.preg i)

theorem beatElems_pos (w : Nat) : 0 < beatElems w := by unfold beatElems; split <;> omega

/-- Tiles that differ at most in the table of their long-vector registers. -/
def Tile.ButP (x y : Tile) : Prop := { x with p := y.p } = y

theorem Tile.ButP.refl (x : Tile) : x.ButP x := rfl

theorem Tile.ButP.trans {x y z : Tile} (h : x.ButP y) (h' : y.ButP z) : x.ButP z := by
  unfold Tile.ButP at *
  rw [← h', ← h]

theorem butP_pset (x : Tile) (w i : Nat) (l : List Nat) : x.ButP (x.pset w i l) := rfl
theorem butP_beatSet (x : Tile) (w i b : Nat) (l : List Nat) : x.ButP (x.beatSet w i b l) := rfl

/-- Beats of a register. -/
theorem beatElems_mul (w : Nat) : beatElems w * (256 / beatElems w) = 256 := by unfold beatElems; split <;> rfl

theorem length_preg {x : Tile} (h : x.full = true) (i : Nat) : (x.preg i).length = 256 := by
  have hall : ∀ e ∈ x.p, e.2.length = 256 := by simpa [Tile.full] using h
  unfold Tile.preg
  generalize x.p = p at hall
  induction p with
  | nil => exact List.length_replicate
  | cons e l ih =>
    obtain ⟨k, v⟩ := e
    unfold tget
    split
    · exact hall (k, v) (by simp)
    · exact ih fun e he => hall e (List.mem_cons_of_mem _ he)

theorem length_words {x : Tile} (h : x.full = true) {w b : Nat} (hb : b < 256 / beatElems w) (i : Nat) :
    (x.words w i b).length = beatElems w := by
  refine length_piece ?_
  rw [length_preg h, ← beatElems_mul w]
  exact Nat.mul_le_mul_left _ hb

@[simp] theorem preg_pset (x : Tile) (w i : Nat) (l : List Nat) (k : Nat) : (x.pset w i l).preg k = if i = k then elemsOf w l else x.preg k :=
  tget_tset _ _ _ _ _

theorem preg_psetAt (x : Tile) (i e : Nat) (l : List Word) (k : Nat) : (x.psetAt i e l).preg k =
    if i = k then (x.preg i).take e ++ l ++ (x.preg i).drop (e + l.length) else x.preg k := tget_tset _ _ _ _ _

theorem full_tset {p : List (Nat × List Word)} (h : ∀ e ∈ p, e.2.length = 256) {v : List Word} (hv : v.length = 256) (i : Nat) :
    ∀ e ∈ tset i v p, e.2.length = 256 := by
  intro e he
  rcases List.mem_cons.1 he with rfl | he
  · exact hv
  · exact h e (List.mem_of_mem_filter he)

theorem length_elemsOf_full {w : Nat} (hw : w ≤ 2) {l : List Nat} (hl : l.length = beatLanes w * (256 / beatElems w)) :
    (elemsOf w l).length = 256 := by
  rcases width_cases hw with rfl | rfl | rfl <;> simp_all [elemsOf, beatLanes, beatElems, length_splitWords]

theorem full_pset {x : Tile} (h : x.full = true) {w : Nat} (hw : w ≤ 2) {l : List Nat} (hl : l.length = beatLanes w * (256 / beatElems w))
    (i : Nat) : (x.pset w i l).full = true := by
  simp only [Tile.full, List.all_eq_true, beq_iff_eq] at h ⊢
  exact full_tset h (length_elemsOf_full hw hl) i

theorem length_pget {x : Tile} (h : x.full = true) {w : Nat} (hw : w ≤ 2) (i : Nat) :
    (x.pget w i).length = beatLanes w * (256 / beatElems w) := by
  have := length_preg h i
  rcases width_cases hw with rfl | rfl | rfl <;> simp_all [Tile.pget, lanesOf, beatLanes, beatElems, length_joinWords]

theorem words_pset {w : Nat} (hw : w ≤ 2) (x : Tile) (i : Nat) (l : List Nat) (k b : Nat) :
    (x.pset w i l).words w k b = if i = k then elemsOf w (piece (beatLanes w) b l) else x.words w k b := by
  unfold Tile.words
  rw [preg_pset]
  split
  · exact piece_elemsOf hw b l
  · rfl

theorem lanesOf_words {w : Nat} (hw : w ≤ 2) (x : Tile) (i b : Nat) : lanesOf w (x.words w i b) = piece (beatLanes w) b (x.pget w i) :=
  piece_lanesOf hw b _

theorem beatGet_eq (x : Tile) (w i b : Nat) : x.beatGet w i b = lanesOf w (x.words w i b) := rfl

section
variable {x : Tile} (hx : x.full = true) {w b : Nat} (hw : w ≤ 2) (hb : b < 256 / beatElems w) {l : List Nat} (hl : l.length = beatLanes w)
include hx hw hb hl

/-- One beat of one register changes. -/
theorem words_beatSet {b' : Nat} (hb' : b' < 256 / beatElems w) (i k : Nat) :
    (x.beatSet w i b l).words w k b' = if i = k ∧ b' = b then elemsOf w l else x.words w k b' := by
  unfold Tile.words Tile.beatSet
  rw [preg_psetAt]
  by_cases hik : i = k
  · subst hik
    rw [if_pos rfl, piece_replace (c := 256 / beatElems w) (by rw [length_preg hx, beatElems_mul]) (length_elemsOf hw hl) hb hb']
    simp
  · simp [hik]

theorem full_beatSet (i : Nat) : (x.beatSet w i b l).full = true := by
  have hbe : beatElems w * (b + 1) ≤ 256 := by rw [← beatElems_mul w]; exact Nat.mul_le_mul_left _ hb
  have hlen := length_preg hx i
  have hel := length_elemsOf hw hl
  rw [Nat.mul_succ] at hbe
  simp only [Tile.full, List.all_eq_true, beq_iff_eq] at hx ⊢
  refine full_tset hx ?_ i
  simp [hlen, hel]; omega

end

/-- Full tiles with the same beats have the same registers. -/
theorem preg_eq_of_words {x y : Tile} (hx : x.full = true) (hy : y.full = true) {w k : Nat}
    (h : ∀ b, b < 256 / beatElems w → x.words w k b = y.words w k b) : x.preg k = y.preg k :=
  eq_of_pieces (beatElems_pos w) (by rw [length_preg hx, beatElems_mul]) (by rw [length_preg hy, beatElems_mul]) h

/-! ### The loop over beats -/

/-- Shares an instruction works on. -/
def shareCount (f : TileFields) : Nat := if isMasked f then 2 else 1

/-- An instruction at its start: no resume, no HALT due, whole orders of beats and lanes. -/
structure TileArg.AtStart (a : TileArg) : Prop where
  resume : a.resume = 0
  haltIn : a.haltIn = none
  order : a.ctx.order.Perm (List.range (beatCount a.f))
  lanes : a.ctx.lanes.Perm (List.range (beatLanes a.f.w))
  full : a.x.full = true

theorem beatCount_pos (f : TileFields) : 0 < beatCount f := by
  unfold beatCount beatElems
  split <;> split <;> decide

theorem beatCount_eq (f : TileFields) : beatCount f = 256 / beatElems f.w * shareCount f := rfl

/-- Beats of a register at the instruction's width. -/
def TileArg.perReg (a : TileArg) : Nat := 256 / beatElems a.f.w

/-- Beat `b` of share `h` writes, in the registers `writes h`, what `z` holds there, as long as the registers that no other share writes
still stand as they did. -/
def TileArg.BeatWrites (a : TileArg) (one : Tile → Nat → Nat → Tile) (z : Tile) (writes : Nat → Nat → Bool) : Prop :=
  ∀ (x : Tile) (h b : Nat), h < shareCount a.f → b < a.perReg → x.full = true → a.x.ButP x →
    (∀ i, (∀ h', h' < shareCount a.f → h' ≠ h → writes h' i = false) → x.words a.f.w i b = a.x.words a.f.w i b) →
    (one x h b).full = true ∧ a.x.ButP (one x h b) ∧ ∀ i b', b' < a.perReg →
      (one x h b).words a.f.w i b' = if b' = b ∧ writes h i = true then z.words a.f.w i b else x.words a.f.w i b'

/-- The tile after the beats `done`: a register's beat is that of `z` where one of them wrote it. -/
structure TileArg.After (a : TileArg) (z : Tile) (writes : Nat → Nat → Bool) (done : List Nat) (x : Tile) : Prop where
  full : x.full = true
  butP : a.x.ButP x
  words : ∀ i b, b < a.perReg → x.words a.f.w i b =
    if ∃ k ∈ done, k % a.perReg = b ∧ writes (k / a.perReg) i = true then z.words a.f.w i b else a.x.words a.f.w i b

theorem perReg_pos (a : TileArg) : 0 < a.perReg := by unfold TileArg.perReg beatElems; split <;> decide

/-- A beat that has not run yet adds what it writes. -/
theorem TileArg.After.beat {a : TileArg} {z : Tile} {writes : Nat → Nat → Bool} {one : Tile → Nat → Nat → Tile} {done : List Nat} {x : Tile}
    {k : Nat} (hone : a.BeatWrites one z writes) (hx : a.After z writes done x) (hdone : ∀ k' ∈ done, k' < a.perReg * shareCount a.f)
    (hk : k < a.perReg * shareCount a.f) (hnew : k ∉ done) :
    a.After z writes (done ++ [k]) (one x (k / a.perReg) (k % a.perReg)) := by
  have hpos := perReg_pos a
  have hsame : ∀ i, (∀ h', h' < shareCount a.f → h' ≠ k / a.perReg → writes h' i = false) →
      x.words a.f.w i (k % a.perReg) = a.x.words a.f.w i (k % a.perReg) := by
    intro i hi
    rw [hx.words i _ (Nat.mod_lt _ hpos), if_neg]
    rintro ⟨k', hk', hmod, hw⟩
    have hne : k' / a.perReg ≠ k / a.perReg := fun hdiv => hnew (by
      have h1 := Nat.div_add_mod k a.perReg; have h2 := Nat.div_add_mod k' a.perReg
      rw [hdiv, hmod] at h2; exact (h2.symm.trans h1) ▸ hk')
    simp [hi (k' / a.perReg) (Nat.div_lt_of_lt_mul (hdone k' hk')) hne] at hw
  obtain ⟨hfull, hbut, hwords⟩ := hone x _ _ (Nat.div_lt_of_lt_mul hk) (Nat.mod_lt _ hpos) hx.full hx.butP hsame
  refine ⟨hfull, hbut, fun i b hb => ?_⟩
  rw [hwords i b hb, hx.words i b hb]
  by_cases hnow : b = k % a.perReg ∧ writes (k / a.perReg) i = true
  · obtain ⟨rfl, hw⟩ := hnow
    rw [if_pos ⟨rfl, hw⟩, if_pos ⟨k, by simp, rfl, hw⟩]
  · rw [if_neg hnow]
    refine if_congr ⟨fun ⟨k', hk', h⟩ => ⟨k', by simp [hk'], h⟩, fun ⟨k', hk', h⟩ => ⟨k', ?_, h⟩⟩ rfl rfl
    rcases List.mem_append.1 hk' with hk' | hk'
    · exact hk'
    · rw [List.mem_singleton.1 hk'] at h; exact absurd ⟨h.1.symm, h.2⟩ hnow

/-- All beats, in whatever order. -/
theorem TileArg.After.beats {a : TileArg} {z : Tile} {writes : Nat → Nat → Bool} {one : Tile → Nat → Nat → Tile}
    (hone : a.BeatWrites one z writes) : ∀ (todo done : List Nat) (x : Tile), a.After z writes done x →
      (∀ k ∈ done ++ todo, k < a.perReg * shareCount a.f) → (done ++ todo).Nodup →
      a.After z writes (done ++ todo) (todo.foldl (fun x b => one x (beatPlace a.f b).1 (beatPlace a.f b).2) x) := by
  intro todo
  induction todo with
  | nil => intro done x hx _ _; simpa using hx
  | cons k todo ih =>
    intro done x hx hlt hnodup
    have happ : done ++ k :: todo = (done ++ [k]) ++ todo := by simp
    have hnew : k ∉ done := fun hm => (List.nodup_append.1 hnodup).2.2 k hm k (by simp) rfl
    have hbeat := hx.beat hone (fun k' hk' => hlt k' (by simp [hk'])) (hlt k (by simp)) hnew
    rw [happ] at hlt hnodup ⊢
    exact ih _ _ hbeat hlt hnodup

section
variable {a : TileArg} (ha : a.AtStart)
include ha

/-- Without a stop, the beats run in their order. -/
theorem runBeats_eq (addr : Nat → Nat) (one : Tile → Nat → Tile) (tc : Nat) : ∀ (fuel k : Nat) (x : Tile), a.ctx.order.length ≤ k + fuel →
    a.runBeats (fun _ => false) addr one tc fuel k x = .ok ((a.ctx.order.drop k).foldl one x) tc := by
  have htook : a.took tc (beatCount a.f) = tc := by
    simp [TileArg.took, TileArg.first, ha.resume, Nat.mul_div_cancel _ (beatCount_pos a.f)]
  intro fuel
  induction fuel with
  | zero =>
    intro k x hk
    rw [TileArg.runBeats, htook, List.drop_eq_nil_of_le (by omega), List.foldl_nil]
  | succ fuel ih =>
    intro k x hk
    rw [TileArg.runBeats]
    cases hb : a.ctx.order[k]? with
    | none =>
      have hle := List.getElem?_eq_none_iff.1 hb
      simp [htook, List.drop_eq_nil_of_le hle]
    | some b =>
      obtain ⟨hlt, rfl⟩ := List.getElem?_eq_some_iff.1 hb
      simp only [TileArg.haltsAt, ha.haltIn, Bool.false_eq_true, if_false, Bool.false_and]
      rw [ih _ _ (by omega), List.drop_eq_getElem_cons hlt, List.foldl_cons]

theorem long_eq (one : Tile → Nat → Nat → Tile) : a.long one =
    .ok (a.ctx.order.foldl (fun x b => one x (beatPlace a.f b).1 (beatPlace a.f b).2) a.x) (longTime a.f) := by
  have hlen : a.ctx.order.length = beatCount a.f := by rw [ha.order.length_eq, List.length_range]
  unfold TileArg.long
  rw [runBeats_eq ha _ _ _ _ _ _ (by omega)]
  simp [TileArg.first, ha.resume]

theorem lanes_eq (f : Nat → Nat) : a.lanes f = (List.range (beatLanes a.f.w)).map f := byLane_eq ha.lanes f

/-- The loop over beats ends with the registers of `z`. -/
theorem long_alike {one : Tile → Nat → Nat → Tile} {z : Tile} {writes : Nat → Nat → Bool} (hz : z.full = true) (hzp : a.x.ButP z)
    (hrest : ∀ i, (∀ h, h < shareCount a.f → writes h i = false) → z.preg i = a.x.preg i) (hone : a.BeatWrites one z writes) :
    ∃ y, a.long one = .ok y (longTime a.f) ∧ y.Alike z := by
  have hmem : ∀ k, k ∈ a.ctx.order ↔ k < a.perReg * shareCount a.f := by
    intro k; rw [ha.order.mem_iff, List.mem_range]; rfl
  have hend := TileArg.After.beats hone a.ctx.order [] a.x ⟨ha.full, .refl _, by simp⟩ (by simpa using fun k hk => (hmem k).1 hk)
    (by simpa using ha.order.nodup_iff.2 List.nodup_range)
  rw [List.nil_append] at hend
  refine ⟨_, long_eq ha one, fun i => preg_eq_of_words (w := a.f.w) hend.full hz fun b (hb : b < a.perReg) => ?_, ?_⟩
  · rw [hend.words i b hb]
    split
    · rfl
    · next hno =>
      refine congrArg (piece _ b) (hrest i fun h hh => ?_).symm
      by_contra hw
      refine hno ⟨a.perReg * h + b, (hmem _).2 ?_, by rw [Nat.mul_add_mod, Nat.mod_eq_of_lt hb], ?_⟩
      · calc a.perReg * h + b < a.perReg * (h + 1) := by rw [Nat.mul_succ]; exact Nat.add_lt_add_left hb _
          _ ≤ a.perReg * shareCount a.f := Nat.mul_le_mul_left _ hh
      · rw [Nat.mul_add_div (perReg_pos a), Nat.div_eq_of_lt hb]; simpa using hw
  · exact hzp ▸ congrArg (fun y : Tile => { y with p := z.p }) hend.butP.symm

/-- The tile with the results of the shares in place. -/
def sharesSet (x : Tile) (f : TileFields) (val : Nat → List Nat) : Tile :=
  if isMasked f then (x.pset f.w f.d (val 0)).pset f.w (f.d + 1) (val 1) else x.pset f.w f.d (val 0)

/-- An instruction whose beat `b` of share `h` writes that beat of `val h` into register D of the share. -/
theorem long_shares {one : Tile → Nat → Nat → Tile} {val : Nat → List Nat} (hw : a.f.w ≤ 2)
    (hval : ∀ h, h < shareCount a.f → (val h).length = beatLanes a.f.w * (256 / beatElems a.f.w))
    (hone : ∀ (x : Tile) (h b : Nat), h < shareCount a.f → b < 256 / beatElems a.f.w → x.full = true → a.x.ButP x →
      (∀ i, (∀ h', h' < shareCount a.f → h' ≠ h → i ≠ a.f.d + h') → x.words a.f.w i b = a.x.words a.f.w i b) →
      one x h b = x.beatSet a.f.w (a.f.d + h) b (piece (beatLanes a.f.w) b (val h))) :
    ∃ y, a.long one = .ok y (longTime a.f) ∧ y.Alike (sharesSet a.x a.f val) := by
  have hpos : 0 < shareCount a.f := by unfold shareCount; split <;> decide
  have htwo : isMasked a.f = true → 1 < shareCount a.f := fun h => by simp [shareCount, h]
  have hone' : isMasked a.f = false → shareCount a.f = 1 := fun h => by simp [shareCount, h]
  have hpiece : ∀ h b, h < shareCount a.f → b < 256 / beatElems a.f.w → (piece (beatLanes a.f.w) b (val h)).length = beatLanes a.f.w :=
    fun h b hh hb => length_piece (by rw [hval h hh]; exact Nat.mul_le_mul_left _ hb)
  have hwords : ∀ h, h < shareCount a.f → ∀ b, (sharesSet a.x a.f val).words a.f.w (a.f.d + h) b =
      elemsOf a.f.w (piece (beatLanes a.f.w) b (val h)) := by
    intro h hh b
    unfold sharesSet
    unfold shareCount at hh
    split at hh
    · next hm =>
      rw [if_pos hm, words_pset hw]
      have : h = 0 ∨ h = 1 := by omega
      rcases this with rfl | rfl <;> simp [words_pset hw]
    · next hm =>
      obtain rfl : h = 0 := by omega
      rw [if_neg hm, words_pset hw]; simp
  refine long_alike ha (writes := fun h i => decide (i = a.f.d + h)) ?_ ?_ ?_ ?_
  · unfold sharesSet
    split
    · next hm => exact full_pset (full_pset ha.full hw (hval 0 hpos) _) hw (hval 1 (htwo hm)) _
    · exact full_pset ha.full hw (hval 0 hpos) _
  · unfold sharesSet
    split
    · exact (butP_pset _ _ _ _).trans (butP_pset _ _ _ _)
    · exact butP_pset _ _ _ _
  · intro i hi
    have h0 : i ≠ a.f.d := by simpa using hi 0 hpos
    unfold sharesSet
    split
    · next hm =>
      have h1 : i ≠ a.f.d + 1 := by simpa using hi 1 (htwo hm)
      simp [Ne.symm h0, Ne.symm h1]
    · simp [Ne.symm h0]
  · intro x h b hh hb hx hp hsame
    rw [hone x h b hh hb hx hp fun i hi => hsame i fun h' hh' hne => by simpa using hi h' hh' hne]
    refine ⟨full_beatSet hx hw hb (hpiece h b hh hb) _, hp.trans (butP_beatSet _ _ _ _ _), fun i b' hb' => ?_⟩
    rw [words_beatSet hx hw hb (hpiece h b hh hb) hb']
    by_cases hi : i = a.f.d + h ∧ b' = b
    · obtain ⟨rfl, rfl⟩ := hi
      simp [hwords h hh]
    · rw [if_neg (fun hc => hi ⟨hc.1.symm, hc.2⟩), if_neg (fun hc => hi ⟨by simpa using hc.2, hc.1⟩)]

end

/-! ### What an instruction that runs by beats is given -/

theorem maskResidue_lt (bs : Bytes) {q : Nat} (hq : 0 < q) : maskResidue bs q < q := by
  unfold maskResidue
  rw [Nat.max_eq_right hq]
  exact Nat.mod_lt _ hq

/-- The orders drawn are permutations. -/
theorem permOf_perm (n : Nat) (bs : Bytes) : (permOf n bs).Perm (List.range n) := by
  unfold permOf
  induction n with
  | zero => exact .refl _
  | succ n ih =>
    rw [List.range_succ, List.foldl_append, List.foldl_cons, List.foldl_nil]
    have hlen := ih.length_eq
    rw [List.length_range] at hlen
    refine (List.perm_insertIdx n _ ?_).trans ?_
    · rw [hlen]; exact Nat.le_of_lt_succ (maskResidue_lt _ (Nat.succ_pos n))
    · exact ((ih.cons n).trans (List.perm_append_comm (l₁ := [n])))

/-- The context of an instruction that runs by beats: whole orders, and source A as it stood. -/
theorem drawCtx_of_beats (x : Tile) {op : Nat} (hop : isBeats op = true) (f : TileFields) :
    (x.drawCtx op f).1.order.Perm (List.range (beatCount f)) ∧ (x.drawCtx op f).1.lanes.Perm (List.range (beatLanes f.w)) ∧
      (x.drawCtx op f).1.src = x.preg (f.a % 16) := by
  unfold Tile.drawCtx
  simp only [hop, if_true]
  split
  · exact ⟨.refl _, .refl _, rfl⟩
  · exact ⟨permOf_perm _ _, permOf_perm _ _, rfl⟩

theorem tileArg_atStart {s : State} {t op : Nat} (f : TileFields) (hop : isBeats op = true) (hfull : (s.tile t).full = true) :
    (s.tileArg t op f).AtStart := by
  obtain ⟨horder, hlanes, -⟩ := drawCtx_of_beats (s.tile t) hop f
  exact ⟨rfl, rfl, horder, hlanes, by simpa using hfull⟩

end Sys2Proof.Machine
end

section
/-! PROOFS. What a defined instruction word may hold, and the arithmetic of the tiles (O20). -/

namespace Sys2Proof.Machine

/-! ### Defined words (R188, R189, R194) -/

/-- A register field that an operation of this row may hold. -/
def legalField (o : OpSpec) (f : TileFields) (bit v : Nat) : Bool :=
  if o.use &&& bit = 0 then v == 0
  else if o.p &&& bit = 0 then decide (v < 32)
  else decide (v < 16) && (o.pair &&& bit == 0 || !isMasked f || v % 2 == 0)

/-- What a defined word's width, MOD bits and registers satisfy. -/
structure Legal (o : OpSpec) (f : TileFields) : Prop where
  width : f.w ∈ o.ws
  mod : o.cond = false → f.mod &&& o.mod = f.mod ∧ f.mod &&& o.req = o.req
  d : legalField o f 1 f.d = true
  a : legalField o f 2 f.a = true
  b : legalField o f 4 f.b = true
  c : legalField o f 8 f.c = true
  imm : f.imm.toNat < 2 ^ o.imm

theorem legal_of_wordLegal {op : Nat} {o : OpSpec} {f : TileFields} (ho : tileSpec op = some o) (h : wordLegal op f = true) : Legal o f := by
  simp only [wordLegal, ho, Bool.and_eq_true, decide_eq_true_eq] at h
  obtain ⟨⟨⟨⟨⟨⟨⟨⟨hw, hmod⟩, hd⟩, ha⟩, hb⟩, hc⟩, himm⟩, -⟩, -⟩ := h
  refine ⟨hw, fun hcond => ?_, hd, ha, hb, hc, himm⟩
  simpa [hcond] using hmod

/-- A long-vector register is one of 16, and under MASK the first of a pair where the operation says so. -/
theorem legalField_long {o : OpSpec} {f : TileFields} {bit v : Nat} (h : legalField o f bit v = true) (huse : o.use &&& bit ≠ 0)
    (hp : o.p &&& bit ≠ 0) : v < 16 ∧ (o.pair &&& bit ≠ 0 → isMasked f = true → v % 2 = 0) := by
  simp only [legalField, huse, hp, if_false, Bool.and_eq_true, decide_eq_true_eq, Bool.or_eq_true, beq_iff_eq, Bool.not_eq_true'] at h
  refine ⟨h.1, fun hpair hm => ?_⟩
  simp_all

/-- A word without the MASK bit in its row is not masked. -/
theorem Legal.not_masked {o : OpSpec} {f : TileFields} (h : Legal o f) (hcond : o.cond = false) (hmod : o.mod.testBit 1 = false) :
    isMasked f = false := by
  rw [isMasked, ← (h.mod hcond).1, Nat.testBit_and, hmod, Bool.and_false]

/-! ### Carry-less multiplication -/

/-- A share combined with one half of the carry-less products, lane by lane. -/
theorem map_range_clmul {n : Nat} {u v d : List Nat} (hu : u.length = n) (hv : v.length = n) (hd : d.length = n) (half : Nat → Nat) :
    (List.range n).map (fun k => entry d k ^^^ half (clmul (entry u k) (entry v k))) =
      List.zipWith (· ^^^ ·) d ((List.zipWith clmul u v).map half) := by
  refine List.ext_getElem (by simp [hu, hv, hd]) fun k h1 h2 => ?_
  have hk : k < n := by simpa using h1
  simp [entry, hu, hv, hd, hk]

/-- One half of the carry-less products of registers A and B added to register `i` of tile `y`. -/
def addHalf (x y : Tile) (a b i : Nat) (half : Nat → Nat) : List Nat :=
  List.zipWith (· ^^^ ·) (y.pget 2 i) ((List.zipWith clmul (x.pget 2 a) (x.pget 2 b)).map half)

theorem length_addHalf {x y : Tile} (hx : x.full = true) (hy : y.full = true) (a b i : Nat) (half : Nat → Nat) :
    (addHalf x y a b i half).length = beatLanes 2 * (256 / beatElems 2) := by
  simp [addHalf, length_pget hx (Nat.le_refl 2), length_pget hy (Nat.le_refl 2)]

theorem piece_addHalf (x y : Tile) (a b i c : Nat) (half : Nat → Nat) : piece (beatLanes 2) c (addHalf x y a b i half) =
    List.zipWith (· ^^^ ·) (lanesOf 2 (y.words 2 i c)) ((List.zipWith clmul (lanesOf 2 (x.words 2 a c)) (lanesOf 2 (x.words 2 b c))).map half) := by
  simp only [addHalf, piece_zipWith, piece_map, lanesOf_words (Nat.le_refl 2)]

/-- PCLMUL: whatever the order of beats and lanes, the halves of the products are added to the registers D and C. -/
theorem semPclmul_ok {a : TileArg} (ha : a.AtStart) (hw : a.f.w = 2) (hmask : isMasked a.f = false) :
    ∃ y, semPclmul a = .ok y 16 ∧
      y.Alike ((a.x.pset 2 a.f.d (addHalf a.x a.x a.f.a a.f.b a.f.d (· % 2 ^ 64))).pset 2 a.f.c
        (addHalf a.x (a.x.pset 2 a.f.d (addHalf a.x a.x a.f.a a.f.b a.f.d (· % 2 ^ 64))) a.f.a a.f.b a.f.c (· / 2 ^ 64))) := by
  have h2 : (2 : Nat) ≤ 2 := Nat.le_refl 2
  set z1 := a.x.pset 2 a.f.d (addHalf a.x a.x a.f.a a.f.b a.f.d (· % 2 ^ 64)) with hz1
  have hz1full : z1.full = true := full_pset ha.full h2 (length_addHalf ha.full ha.full _ _ _ _) _
  have hlong : longTime a.f = 16 := by simp [longTime, hw, hmask]
  have hshare : shareCount a.f = 1 := by simp [shareCount, hmask]
  have hlanes : beatLanes a.f.w = beatLanes 2 := by rw [hw]
  rw [← hlong]
  refine long_alike ha (writes := fun _ i => decide (i = a.f.d ∨ i = a.f.c)) (full_pset hz1full h2 (length_addHalf ha.full hz1full _ _ _ _) _)
    ((butP_pset _ _ _ _).trans (butP_pset _ _ _ _)) ?_ ?_
  · intro i hi
    have := hi 0 (by omega)
    simp only [decide_eq_false_iff_not, not_or] at this
    simp [hz1, Ne.symm this.1, Ne.symm this.2]
  · intro x h b hh hb hx hbut hsame
    have hb2 : b < 256 / beatElems 2 := by rwa [TileArg.perReg, hw] at hb
    have hstood : ∀ i, x.words 2 i b = a.x.words 2 i b := by
      intro i
      rw [← hw]
      exact hsame i fun h' hh' hne => by omega
    have hlen : ∀ i, (lanesOf 2 (a.x.words 2 i b)).length = beatLanes 2 := fun i => length_lanesOf h2 (length_words ha.full hb2 i)
    have hlow : a.lanes (fun k => entry (x.beatGet 2 a.f.d b) k ^^^ clmul (entry (x.beatGet 2 a.f.a b) k) (entry (x.beatGet 2 a.f.b b) k) % 2 ^ 64) =
        piece (beatLanes 2) b (addHalf a.x a.x a.f.a a.f.b a.f.d (· % 2 ^ 64)) := by
      simp only [beatGet_eq, hstood]
      rw [lanes_eq ha, hlanes, map_range_clmul (hlen _) (hlen _) (hlen _) (· % 2 ^ 64), piece_addHalf]
    set y := x.beatSet 2 a.f.d b (piece (beatLanes 2) b (addHalf a.x a.x a.f.a a.f.b a.f.d (· % 2 ^ 64))) with hy
    have hpiece : ∀ (u v : Tile), u.full = true → v.full = true → ∀ i half,
        (piece (beatLanes 2) b (addHalf u v a.f.a a.f.b i half)).length = beatLanes 2 :=
      fun u v hu hv i half => length_piece (by rw [length_addHalf hu hv]; exact Nat.mul_le_mul_left _ hb2)
    have hyfull : y.full = true := full_beatSet hx h2 hb2 (hpiece _ _ ha.full ha.full _ _) _
    have hywords : ∀ i b', b' < 256 / beatElems 2 → y.words 2 i b' = if a.f.d = i ∧ b' = b then z1.words 2 i b else x.words 2 i b' := by
      intro i b' hb'
      rw [hy, words_beatSet hx h2 hb2 (hpiece _ _ ha.full ha.full _ _) hb']
      refine if_ctx_congr Iff.rfl (fun hc => ?_) fun _ => rfl
      rw [hz1, words_pset h2, if_pos hc.1]
    have hynow : ∀ i, y.words 2 i b = z1.words 2 i b := by
      intro i
      rw [hywords i b hb2]
      split
      · rfl
      · next hne => rw [hstood, hz1, words_pset h2, if_neg fun h => hne ⟨h, rfl⟩]
    have hhigh : a.lanes (fun k => entry (y.beatGet 2 a.f.c b) k ^^^ clmul (entry (x.beatGet 2 a.f.a b) k) (entry (x.beatGet 2 a.f.b b) k) / 2 ^ 64) =
        piece (beatLanes 2) b (addHalf a.x z1 a.f.a a.f.b a.f.c (· / 2 ^ 64)) := by
      simp only [beatGet_eq, hstood, hynow]
      rw [lanes_eq ha, hlanes, map_range_clmul (hlen _) (hlen _) (length_lanesOf h2 (length_words hz1full hb2 _)) (· / 2 ^ 64), piece_addHalf]
    simp only [hlow, ← hy, hhigh]
    refine ⟨full_beatSet hyfull h2 hb2 (hpiece _ _ ha.full hz1full _ _) _, (hbut.trans (butP_beatSet _ _ _ _ _)).trans (butP_beatSet _ _ _ _ _),
      fun i b' hb' => ?_⟩
    have hb'2 : b' < 256 / beatElems 2 := by rwa [TileArg.perReg, hw] at hb'
    rw [hw, words_beatSet hyfull h2 hb2 (hpiece _ _ ha.full hz1full _ _) hb'2, words_pset h2, hywords i b' hb'2]
    by_cases hc : a.f.c = i
    · by_cases hbb : b' = b <;> simp [hc, hbb]
    · by_cases hd : a.f.d = i <;> by_cases hbb : b' = b <;> simp [hc, hd, hbb, Ne.symm hc, eq_comm (a := i)]

/-- Settles O20: products over GF(2) by induction on the partial products, residues by the laws of remainders, PCLMUL beat by beat. -/
theorem tileArithmeticIsRight : Obligations.TileArithmeticIsRight := by
  refine ⟨⟨fun x y k _ => clmul_partial_testBit x y k 64, fun s t f => ⟨fun h => ?_, fun h hfull => ?_⟩⟩, fun q x y b hq => ?_,
    ⟨fun q g x hg hdvd hq => decompose_spec hg hdvd hq x, fun q d x => Nat.mod_lt _ (Nat.two_pow_pos d), fun q d y hq => Nat.mod_lt _ hq⟩,
    fun b l h => ⟨splitBits_joinBits h, leNat_leBytes_of_lt ?_⟩⟩
  · refine congrArg Host.Outcome.next (issueTile_ok h ?_)
    unfold semVclmul
    simp only [tileArg_x_of_no_draw (op := 0x2B) rfl rfl rfl, tileArg_f]
    rfl
  · have hlegal := legal_of_wordLegal (op := 0x3B) rfl (legal_of_takes h)
    have hw : f.w = 2 := by simpa using hlegal.width
    obtain ⟨y, hy, halike⟩ := semPclmul_ok (tileArg_atStart f (op := 0x3B) rfl hfull) hw (hlegal.not_masked rfl rfl)
    refine ⟨y, congrArg Host.Outcome.next (issueTile_ok h hy), ?_⟩
    simpa [addHalf] using halike
  · exact ⟨⟨Nat.mod_lt _ hq, rfl⟩, ⟨subM_lt hq x y, subM_add hq x y⟩, ⟨Nat.mod_lt _ hq, rfl⟩,
      fun hodd => ⟨Nat.mod_lt _ hq, mulM_montgomery hodd b x y⟩⟩
  · exact (joinBits_lt b l).trans_le (Nat.pow_le_pow_right (by decide) (by omega))

end Sys2Proof.Machine
end

section
/-! PROOFS. Instructions of a tile that take no memory and no long vectors (O14, O16, O17, O18). -/

namespace Sys2Proof.Machine

/-- Every tile command issues the meaning of its opcode. -/
theorem exec_tileRow {i : Instr} {t op : Nat} {f : TileFields} {sem : Sem} (h : tileRow i = some (t, f, op)) (hsem : semOf op = some sem)
    (s : State) : exec i s = .next (s.issueTile t op f sem) := by
  have hissue : exec i s = .next (s.issueTile t op f ((semOf op).getD semNop)) := by
    cases i <;> simp only [tileRow, Option.some.injEq, Prod.mk.injEq, reduceCtorEq] at h <;> obtain ⟨rfl, rfl, rfl⟩ := h <;> rfl
  rw [hissue, hsem, Option.getD_some]

theorem tileDone_same (s : State) (t : Nat) (y : Tile) (tc : Nat) : SameElsewhere s (s.tileDone t y tc) := by constructor <;> rfl

/-- Settles O14: the meaning's tile is put in place, and nothing else but the draw counter changes. -/
theorem tileInstructionCompletesAndFrames : Obligations.TileInstructionCompletesAndFrames := by
  intro i s t op tc f sem y hi hop htakes hsem
  refine ⟨s.tileDone t y tc, by rw [exec_tileRow hi hop, issueTile_ok htakes hsem], ?_, fun u hu => ?_, rfl, rfl, rfl, rfl,
    tileDone_same s t y tc⟩
  · exact (State.tile_setTile _ _ _ _).trans (if_pos rfl)
  · exact (State.tile_setTile _ _ _ _).trans (if_neg (Ne.symm hu))

/-! ### Scalars -/

section
variable {s : State} {t op : Nat} {f : TileFields} (hbeats : isBeats op = false) (hmask : maskNeed op f = 0) (hfly : flyNeed op f = 0)
include hbeats hmask hfly

theorem scalar2_tileArg (g : Word → Word → Word) : scalar2 g (s.tileArg t op f) =
    .ok ((s.nextTile t).setS f.d (g ((s.tile t).sreg f.a) ((s.tile t).sreg f.b))) 1 := by
  unfold scalar2
  simp only [tileArg_x_of_no_draw hbeats hmask hfly, tileArg_f, nextTile_sreg]
  rfl

theorem vector2_tileArg (g : TileArg → Nat → Nat → Nat) : vector2 g (s.tileArg t op f) =
    .ok ((s.nextTile t).vset f.w f.d (List.zipWith (g (s.tileArg t op f)) ((s.tile t).vget f.w f.a) ((s.tile t).vget f.w f.b))) 1 := by
  unfold vector2
  simp only [tileArg_x_of_no_draw hbeats hmask hfly, tileArg_f, nextTile_vget]
  rfl

theorem vector1_tileArg (g : TileArg → Nat → Nat) : vector1 g (s.tileArg t op f) =
    .ok ((s.nextTile t).vset f.w f.d (((s.tile t).vget f.w f.a).map (g (s.tileArg t op f)))) 1 := by
  unfold vector1
  simp only [tileArg_x_of_no_draw hbeats hmask hfly, tileArg_f, nextTile_vget]
  rfl

/-- The modulus in force for an instruction that draws nothing. -/
theorem tileArg_q : (s.tileArg t op f).q = (s.tile t).q f.w := by
  simp only [TileArg.q, tileArg_x_of_no_draw hbeats hmask hfly, tileArg_f, nextTile_q]

end

/-- The upper half of a scalar replaced. -/
theorem upperHalf_eq (x : Word) (i : BitVec 30) :
    BitVec.ofNat 32 (x.toNat % 65536 + i.toNat % 65536 * 65536) = (x &&& 0xFFFF#32) ||| (i.setWidth 32 <<< 16) := by
  apply BitVec.eq_of_toNat_eq
  have hx := Nat.mod_lt x.toNat (show 0 < 65536 by decide)
  have hi := Nat.mod_lt i.toNat (show 0 < 65536 by decide)
  have hor := Nat.two_pow_add_eq_or_of_lt (i := 16) hx (i.toNat % 65536)
  have hlow : x.toNat &&& 65535 = x.toNat % 65536 := Nat.and_two_pow_sub_one_eq_mod x.toNat 16
  have hhigh : i.toNat % 2 ^ 32 * 2 ^ 16 % 2 ^ 32 = 2 ^ 16 * (i.toNat % 65536) := by omega
  rw [BitVec.toNat_or, BitVec.toNat_and, BitVec.toNat_shiftLeft, BitVec.toNat_setWidth, Nat.shiftLeft_eq, BitVec.toNat_ofNat, hhigh,
    show (65535#32 : BitVec 32).toNat = 65535 from rfl, hlow, Nat.lor_comm, ← hor]
  omega

/-- A scalar read after a scalar is written. -/
theorem sreg_setS (x : Tile) (d k : Nat) (v : Word) : (x.setS d v).sreg k = if k = 0 then 0 else if d = k then v else x.sreg k := by
  unfold Tile.sreg Tile.setS
  by_cases hk : k = 0
  · simp [hk]
  · by_cases hd : d = 0
    · simp [hk, hd, Ne.symm hk]
    · simp [hk, hd]

/-- Writing a scalar leaves the rest of the tile. -/
theorem setS_frame (x : Tile) (d : Nat) (v : Word) : (x.setS d v).v = x.v ∧ (x.setS d v).p = x.p ∧ (x.setS d v).mem = x.mem ∧
    (x.setS d v).pc = x.pc ∧ (x.setS d v).cflag = x.cflag ∧ (x.setS d v).sponge = x.sponge := by
  unfold Tile.setS
  split <;> exact ⟨rfl, rfl, rfl, rfl, rfl, rfl⟩

/-- Settles O16: each command issues its function of two scalars, and s0 is not stored. -/
theorem scalarInstructions : Obligations.ScalarInstructions := by
  refine ⟨fun i s t op f g hi h => ?_, fun s t f => ⟨fun h => ?_, fun h => ?_, fun h => ?_⟩, fun x d v => ?_⟩
  · have hstep : ∀ (op : Nat) (g : Word → Word → Word), isBeats op = false → maskNeed op f = 0 → flyNeed op f = 0 → s.takes t op f = true →
        s.issueTile t op f (scalar2 g) = s.tileDone t ((s.nextTile t).setS f.d (g ((s.tile t).sreg f.a) ((s.tile t).sreg f.b))) 1 :=
      fun op g h1 h2 h3 h4 => issueTile_ok h4 (scalar2_tileArg h1 h2 h3 g)
    cases i <;> simp only [scalarRow, Option.some.injEq, Prod.mk.injEq, reduceCtorEq] at hi <;> obtain ⟨rfl, rfl, rfl, rfl⟩ := hi <;>
      exact congrArg Host.Outcome.next (hstep _ _ rfl rfl rfl h)
  · refine congrArg Host.Outcome.next (issueTile_ok h ?_)
    simp only [semSaddi, tileArg_x_of_no_draw (op := 0x18) rfl rfl rfl, tileArg_f, nextTile_sreg]
    rfl
  · refine congrArg Host.Outcome.next (issueTile_ok h ?_)
    simp only [semSli, tileArg_x_of_no_draw (op := 0x19) rfl rfl rfl, tileArg_f]
    rfl
  · refine congrArg Host.Outcome.next (issueTile_ok h ?_)
    simp only [semSlh, tileArg_x_of_no_draw (op := 0x1A) rfl rfl rfl, tileArg_f, Tile.sn, upperHalf_eq]
    rfl
  · obtain ⟨hv, hp, hmem, hpc, hflag, hsponge⟩ := setS_frame x d v
    refine ⟨by simp [sreg_setS], fun hd => by simp [sreg_setS, hd], fun k hk => ?_, rfl, hv, hp, hmem, hpc, hflag, hsponge⟩
    rw [sreg_setS, if_neg (Ne.symm hk)]
    split
    · next h0 => simp [Tile.sreg, h0]
    · rfl

/-! ### Short vectors -/

theorem length_vget (x : Tile) (w i : Nat) : (x.vget w i).length = 256 / laneBits w := by simp [Tile.vget, vLanes]

/-- Settles O18: each command issues its function lane by lane. -/
theorem shortVectorInstructions : Obligations.ShortVectorInstructions := by
  refine ⟨fun i s t op f g hi h => ?_, fun s t f => ⟨fun h => ?_, fun h => ?_, fun h hw => ?_, fun h hw => ?_, fun v h hv => ?_, fun h => ?_⟩⟩
  · have hstep : ∀ (op : Nat) (g : TileArg → Nat → Nat → Nat), isBeats op = false → maskNeed op f = 0 → flyNeed op f = 0 →
        s.takes t op f = true → s.issueTile t op f (vector2 g) = s.tileDone t ((s.nextTile t).vset f.w f.d
          (List.zipWith (g (s.tileArg t op f)) ((s.tile t).vget f.w f.a) ((s.tile t).vget f.w f.b))) 1 :=
      fun op g h1 h2 h3 h4 => issueTile_ok h4 (vector2_tileArg h1 h2 h3 g)
    cases i <;> simp only [vectorRow, Option.some.injEq, Prod.mk.injEq, reduceCtorEq] at hi <;> obtain ⟨rfl, rfl, rfl, rfl⟩ := hi <;>
      (refine (congrArg Host.Outcome.next (hstep _ _ rfl rfl rfl h)).trans ?_
       simp only [tileArg_q (op := 0x22) rfl rfl rfl, tileArg_q (op := 0x23) rfl rfl rfl, tileArg_q (op := 0x24) rfl rfl rfl, TileArg.bits,
         tileArg_f])
  · exact congrArg Host.Outcome.next (issueTile_ok h (vector1_tileArg rfl rfl rfl _))
  · exact congrArg Host.Outcome.next (issueTile_ok h (vector1_tileArg rfl rfl rfl _))
  · refine congrArg Host.Outcome.next (issueTile_ok h ?_)
    simp only [semVbcast, tileArg_x_of_no_draw (op := 0x2C) rfl rfl rfl, tileArg_f, if_neg hw, nextTile_sn]
    rfl
  · refine congrArg Host.Outcome.next (issueTile_ok h ?_)
    simp only [semVbcast, tileArg_x_of_no_draw (op := 0x2C) rfl rfl rfl, tileArg_f, nextTile_sn, TileArg.bits, hw]
    rfl
  · refine congrArg Host.Outcome.next (issueTile_ok h ?_)
    simp only [semVext, tileArg_x_of_no_draw (op := 0x2D) rfl rfl rfl, tileArg_f, nextTile_vget, hv, Option.getD_some]
    rfl
  · refine congrArg Host.Outcome.next (issueTile_ok h ?_)
    simp only [semVperm, tileArg_x_of_no_draw (op := 0x2E) rfl rfl rfl, tileArg_f, nextTile_vget, length_vget]
    rfl

end Sys2Proof.Machine
end

section
/-! PROOFS. Control flow, control registers and END of a tile (O17). -/

namespace Sys2Proof.Machine

/-! ### Control registers (Table 05-2) -/

/-- The control registers that are read. -/
theorem csr_of_mem {x : Tile} {e : Nat × Nat} (h : e ∈ [(0, x.cq16), (1, x.cq32), (2, x.pos), (3, x.size), (4, if x.pos = 0 then 1 else 0),
    (5, x.op), (6, x.param), (7, x.harden), (8, 0), (9, x.cycles), (10, if x.cflag then 1 else 0)]) : x.csr e.1 = some e.2 := by
  simp only [List.mem_cons, List.not_mem_nil, or_false] at h
  rcases h with rfl | rfl | rfl | rfl | rfl | rfl | rfl | rfl | rfl | rfl | rfl <;> rfl

theorem csr_undefined {x : Tile} {n : Nat} (h : 11 ≤ n) : x.csr n = none := by
  unfold Tile.csr
  split <;> first | omega | rfl

theorem modulusIn_iff {top v : Nat} : modulusIn top v = true ↔ v % 2 = 1 ∧ 3 ≤ v ∧ v ≤ top := by simp [modulusIn, and_assoc]

/-- The writes that CSRW refuses. -/
theorem csrSet_refused {x : Tile} {n v : Nat} (h : n ∉ [0, 1, 8, 10] ∨ (n ≤ 1 ∧ (v % 2 = 0 ∨ v < 3 ∨ 1073741823 < v)) ∨ (n = 0 ∧ 16383 < v) ∨
    (n = 8 ∧ x.phases ≤ v) ∨ (n = 10 ∧ 2 ≤ v)) : x.csrSet n v = none := by
  simp only [List.mem_cons, List.not_mem_nil, or_false, not_or] at h
  unfold Tile.csrSet
  split
  · exact if_neg fun hv => by have := modulusIn_iff.1 hv; omega
  · exact if_neg fun hv => by have := modulusIn_iff.1 hv; omega
  · exact if_neg (by omega)
  · exact if_neg (by omega)
  · rfl

/-! ### Tiles that leave their job -/

theorem freeTile_tile_ne (s : State) {t u : Nat} (h : u ≠ t) : (s.freeTile u).tile t = s.tile t := by
  unfold State.freeTile
  simp only
  split
  · rfl
  · rw [State.tile_setTile, if_neg h]
    unfold State.wipeTile
    simp only [State.tile_setTile, if_neg h]
    split <;> split <;> rfl

theorem freeTile_stops (s : State) (t : Nat) : ((s.freeTile t).tile t).running = false := by
  unfold State.freeTile
  simp only
  split
  · next h => simpa using h
  · rw [State.tile_setTile, if_pos rfl]
    unfold State.wipeTile
    simp only [State.tile_setTile, if_true]
    rfl

theorem wipeTile_out (s : State) (t : Nat) : (s.wipeTile t).out = s.out := by
  unfold State.wipeTile
  simp only
  split <;> rfl

theorem freeTile_out (s : State) (t : Nat) : (s.freeTile t).out = s.out := by
  unfold State.freeTile
  simp only
  split
  · rfl
  · rw [State.setTile_out, wipeTile_out]
    split <;> rfl

theorem freeShells_out (s : State) (x : Job) : (s.freeShells x).out = s.out := s.each_keeps (·.out) _ freeTile_out _

/-- Every tile of a job's shells stops. -/
theorem freeShells_stops {s : State} {x : Job} {t : Nat} (h : t ∈ x.shells.flatMap s.shellTiles) : ((s.freeShells x).tile t).running = false := by
  unfold State.freeShells State.each
  have hstay : ∀ (l : List Nat) (u : State), (u.tile t).running = false → ((l.foldl State.freeTile u).tile t).running = false := by
    intro l
    induction l with
    | nil => exact fun _ hu => hu
    | cons a l ih =>
      intro u hu
      refine ih _ ?_
      by_cases ha : a = t
      · exact ha ▸ freeTile_stops u a
      · rw [freeTile_tile_ne u ha]; exact hu
  obtain ⟨l, m, hlm⟩ := List.append_of_mem h
  rw [hlm, List.foldl_append, List.foldl_cons]
  exact hstay m _ (freeTile_stops _ t)

/-! ### END -/

/-- The accesses of END that the stroke tile makes. -/
theorem semEnd_finishes {s : State} {t : Nat} {f : TileFields} {a n : Nat} (ha : a = (s.tile t).sn f.a) (hn : n = (s.tile t).sn f.b)
    (hpos : (s.tile t).pos = 0) (hlen : n ≤ 16384) (hend : a + n ≤ 0x2E000) (hheld : (s.tile t).held a n = false) (hatt : s.attached t = false) :
    semEnd (s.tileArg t 0x02 f) = .finish ((s.tile t).bytes a n) (2 + (n + 127) / 128) := by
  have hx : (s.tileArg t 0x02 f).x = s.nextTile t := tileArg_x_of_no_draw rfl rfl rfl
  have hkey : inKeyArea a n = false := by simp [inKeyArea]; omega
  have hbounds : outOfBounds a n false = false := by simp [outOfBounds]; omega
  have hwatch : (s.tileArg t 0x02 f).watch a n false = false := by simp [State.tileArg, State.watchHit, hatt]
  have hbytes : (s.nextTile t).bytes a n = (s.tile t).bytes a n := rfl
  have hheld' : (s.nextTile t).held a n = false := hheld
  simp only [semEnd, hx, tileArg_f, nextTile_sn, nextTile_pos, hpos, ne_eq, not_true_eq_false, if_false, ← ha, ← hn, hkey, Bool.false_eq_true,
    show ¬ 16384 < n by omega, TileArg.access, Nat.mod_one, hbounds, hheld', hwatch, Bool.and_false, hbytes]

/-- A kernel's END on the stroke tile: its job has the output, and its shell is wiped. -/
theorem endKernel_settles {s : State} {t sh : Nat} {x : Job} (out : Bytes) (hsh : s.shellOf t = some sh) (ht : t ∈ s.shellTiles sh)
    (hx : (s.onUnit (.shell sh)).head? = some x) (hjob : s.job? x.id = some x) (hunit : x.unit = some (.shell sh)) (hpq : x.pq.unit = none) :
    ((s.endKernel t out).tile t).sealBuf = out ∧ ((s.endKernel t out).tile t).running = false ∧
      (∃ y, (s.endKernel t out).job? x.id = some y ∧ y.phase = .computed ∧ y.result = some (.done out)) ∧
      (∀ k, k ≠ x.id → (s.endKernel t out).job? k = s.job? k) ∧ (s.endKernel t out).slots = s.slots ∧ (s.endKernel t out).out = s.out := by
  obtain ⟨hsame, hjobs⟩ := settle_spec s x (.done out)
  have hend : s.endKernel t out = (s.settle x (.done out)).setTile t (fun y => { y with sealBuf := out, sealOf := some x.id }) := by
    simp [State.endKernel, hsh, hx, hpq]
  have hmem : t ∈ x.shells.flatMap s.shellTiles := List.mem_flatMap.2 ⟨sh, by simp [Job.shells, hunit], ht⟩
  have hjob' : ∀ k, (s.endKernel t out).job? k = (s.settle x (.done out)).job? k := fun k => by rw [hend]; rfl
  refine ⟨?_, ?_, ⟨_, by rw [hjob', hjobs, if_pos rfl, hjob]; rfl, rfl, rfl⟩, fun k hk => by rw [hjob', hjobs, if_neg hk],
    by rw [hend]; exact hsame.slots, ?_⟩
  · rw [hend, State.tile_setTile, if_pos rfl]
  · rw [hend, State.tile_setTile, if_pos rfl]
    exact freeShells_stops hmem
  · rw [hend]; exact freeShells_out s x

/-- Settles O17: each command's meaning, evaluated on the tile at its next instruction. -/
theorem controlInstructions : Obligations.ControlInstructions := by
  refine ⟨fun s t f => ⟨fun h => ?_, fun h hc => ?_, fun h hc => ?_, fun h => ?_, fun h hx => ?_, fun h hx => ?_⟩,
    fun s t v f hv => ⟨fun h e he hn => ?_, fun h hn h1 h2 h3 => ?_, fun h hn h1 h2 h3 => ?_, fun h hn h1 => ?_, fun h hn h1 => ?_,
      fun h hn => ?_, fun h hn => ?_⟩, fun s t a n f ha hn h => ⟨fun hpos h0 => ?_, fun hpos h0 => ?_, ?_⟩⟩
  · refine congrArg Host.Outcome.next (issueTile_ok h ?_)
    simp only [semNop, tileArg_x_of_no_draw (op := 0) rfl rfl rfl]
    rfl
  · refine congrArg Host.Outcome.next (issueTile_ok h ?_)
    simp only [semBr, tileArg_x_of_no_draw (op := 1) rfl rfl rfl, tileArg_f, nextTile_sreg, nextTile_cflag, hc, if_true]
  · refine congrArg Host.Outcome.next (issueTile_ok h ?_)
    simp only [semBr, tileArg_x_of_no_draw (op := 1) rfl rfl rfl, tileArg_f, nextTile_sreg, nextTile_cflag, hc, Bool.false_eq_true, if_false]
    rfl
  · refine congrArg Host.Outcome.next (issueTile_ok h ?_)
    simp only [semScmp, tileArg_x_of_no_draw (op := 0x1B) rfl rfl rfl, tileArg_f, nextTile_sreg, nextTile_cflag]
    rfl
  · refine congrArg Host.Outcome.next (issueTile_ok h ?_)
    simp only [semWait, tileArg_x_of_no_draw (op := 3) rfl rfl rfl, nextTile_xfers, hx, List.isEmpty_nil, if_true]
    rfl
  · refine congrArg Host.Outcome.next (issueTile_wait h ?_)
    have hne : (s.tile t).xfers.isEmpty = false := by simpa using hx
    simp only [semWait, tileArg_x_of_no_draw (op := 3) rfl rfl rfl, nextTile_xfers, hne, Bool.false_eq_true, if_false]
  · refine congrArg Host.Outcome.next (issueTile_ok h ?_)
    have hcsr : (s.nextTile t).csr e.1 = some e.2 := csr_of_mem he
    simp only [semCsrr, tileArg_x_of_no_draw (op := 4) rfl rfl rfl, tileArg_f, hn, hcsr]
    rfl
  · refine congrArg Host.Outcome.next (issueTile_ok h ?_)
    simp only [semCsrw, tileArg_x_of_no_draw (op := 5) rfl rfl rfl, tileArg_f, hn, nextTile_sn, ← hv, Tile.csrSet,
      modulusIn_iff.2 ⟨h1, h2, h3⟩, if_true]
    rfl
  · refine congrArg Host.Outcome.next (issueTile_ok h ?_)
    simp only [semCsrw, tileArg_x_of_no_draw (op := 5) rfl rfl rfl, tileArg_f, hn, nextTile_sn, ← hv, Tile.csrSet,
      modulusIn_iff.2 ⟨h1, h2, h3⟩, if_true]
    rfl
  · refine congrArg Host.Outcome.next (issueTile_ok h ?_)
    have hphase : v < (s.nextTile t).phases := h1
    simp only [semCsrw, tileArg_x_of_no_draw (op := 5) rfl rfl rfl, tileArg_f, hn, nextTile_sn, ← hv, Tile.csrSet, hphase, if_true]
    rfl
  · refine congrArg Host.Outcome.next (issueTile_ok h ?_)
    simp only [semCsrw, tileArg_x_of_no_draw (op := 5) rfl rfl rfl, tileArg_f, hn, nextTile_sn, ← hv, Tile.csrSet, h1, if_true]
    rfl
  · refine congrArg Host.Outcome.next (issueTile_fault h ?_)
    simp only [semCsrr, tileArg_x_of_no_draw (op := 4) rfl rfl rfl, tileArg_f, csr_undefined hn]
  · refine congrArg Host.Outcome.next (issueTile_fault h ?_)
    have hno : (s.nextTile t).csrSet (f.imm.toNat % 256) v = none := csrSet_refused hn
    simp only [semCsrw, tileArg_x_of_no_draw (op := 5) rfl rfl rfl, tileArg_f, nextTile_sn, ← hv, hno]
  · refine congrArg Host.Outcome.next (issueTile_ok h ?_)
    simp only [semEnd, tileArg_x_of_no_draw (op := 2) rfl rfl rfl, tileArg_f, nextTile_pos, nextTile_sn, ← hn, hpos, h0, ne_eq,
      not_false_eq_true, if_true]
  · refine congrArg Host.Outcome.next (issueTile_fault h ?_)
    simp only [semEnd, tileArg_x_of_no_draw (op := 2) rfl rfl rfl, tileArg_f, nextTile_pos, nextTile_sn, ← hn, ← ha, hpos, ne_eq,
      not_false_eq_true, if_true, if_neg h0]
  · intro x sh hpos hlen hend hheld hatt hsh ht hx hjob hunit hpq
    obtain ⟨-, hhalt, -⟩ := takes_iff.1 h
    have hsem := semEnd_finishes ha hn hpos hlen hend hheld hatt
    set out := (s.tile t).bytes a n
    set u := ({ s with freeCtr := s.freeCtr + 1 } : State).setTile t (·.spend (2 + (n + 127) / 128)) with hu
    have hexec : exec (.endKernel t f) s = .next (u.endKernel t out) := by
      refine congrArg Host.Outcome.next ((issueTile_of_takes h semEnd).trans ?_)
      unfold State.tileArg State.drawnTile at hsem
      simp only [State.runDrawn, hhalt, hsem]
      rfl
    obtain ⟨hbuf, hrun, ⟨y, hy, hphase, hres⟩, hothers, hslots, hout⟩ := endKernel_settles (s := u) out hsh ht hx hjob hunit hpq
    exact ⟨_, y, hexec, hbuf, hrun, hy, hphase, hres, hothers, hslots, hout⟩

end Sys2Proof.Machine
end

section
/-! PROOFS. Words a tile does not run to their end: undefined words, breakpoints, failed microcode; and the halt of an attached tile (O15). -/

namespace Sys2Proof.Machine

/-- Microcode that ends in a machine check names CS_PARITY or PATCH_PARITY (R205). -/
theorem uRun_cause {x : Tile} {c cause : Nat} {a : UAddr} : ∀ (fuel k : Nat) (q : Useq), x.uRun c fuel k q = .check cause a → cause = 1 ∨ cause = 2 := by
  have haddr : ∀ b : UAddr, b.cause = 1 ∨ b.cause = 2 := fun b => by unfold UAddr.cause; split <;> simp
  have hstep : ∀ (cond : Bool) (q : Useq) (e : Nat), x.uStep cond q = .check e → e = 1 ∨ e = 2 := by
    intro cond q e h
    simp only [Tile.uStep] at h
    split at h
    · injection h with h; exact h ▸ haddr _
    · split at h
      · cases h
      · split at h
        · cases h
        · injection h with h; exact h ▸ haddr _
  intro fuel
  induction fuel with
  | zero => intro k q h; cases h
  | succ fuel ih =>
    intro k q h
    rw [Tile.uRun] at h
    split at h
    · exact ih _ _ h
    · cases h
    · next e he => injection h with h1; exact h1 ▸ hstep _ _ _ he

/-- A tile's fault counter and its exception record leave the jobs and the tiles alone. -/
theorem countFault_frame (s : State) (t cause : Nat) : OnlyRegs [.tilKfaultCnt t] s (s.countFault t cause) := by
  unfold State.countFault
  split
  · exact .store (by simp) s _
  · exact ⟨fun _ _ => rfl, rfl⟩

/-- TIL_EXC_INFO of a precise exception: CAUSE, RESUME, PC and the valid bit; the zeros are the fields of an imprecise one. -/
def excInfoWord (cause resume pc : Nat) : DWord := BitVec.ofNat 64 (cause + 0 + resume * 2 ^ 8 + pc * 2 ^ 20 + 0 + 2 ^ 63)

theorem excInfoWord_fields {cause pc : Nat} (hcause : cause ≤ 11) (hpc : pc < 8192) : getF (excInfoWord cause 0 pc) 3 0 = cause ∧
    getF (excInfoWord cause 0 pc) 32 20 = pc ∧ getB (excInfoWord cause 0 pc) 63 = true := by
  have htop : (excInfoWord cause 0 pc).toNat / 2 ^ 63 % 2 = 1 := by simp only [excInfoWord, BitVec.toNat_ofNat]; omega
  refine ⟨by simp only [getF, excInfoWord, BitVec.toNat_ofNat]; omega, by simp only [getF, excInfoWord, BitVec.toNat_ofNat]; omega, ?_⟩
  rw [getB, Nat.testBit_eq_decide_div_mod_eq, htop, decide_eq_true_eq]

/-- The record of a precise exception. -/
theorem recordExc_precise (s : State) (t cause addr : Nat) : ∃ c, s.recordExc t cause addr 0 false =
    (({ s with freeCtr := c } : State).wr (.tilExcInfo t) (excInfoWord cause 0 (s.tile t).pc)).setFld (.tilExcAddr t) 17 0 addr := by
  have hdraw : ({ s with freeCtr := (s.draw 2).2.freeCtr } : State) = (s.draw 2).2 := rfl
  have htile : (s.draw 2).2.tile t = s.tile t := rfl
  refine ⟨(s.draw 2).2.freeCtr, ?_⟩
  rw [hdraw, ← htile]
  simp only [State.recordExc, excInfoWord, Bool.false_eq_true, if_false]

/-- A tile halted by a precise exception. -/
def Tile.haltedAt (cause : Nat) (instr : Option (Nat × TileFields)) (x : Tile) : Tile :=
  { x with halt := some ⟨cause, 0, .none, instr, false, false⟩, haltIn := none }

/-- The halt of an attached tile at a precise exception, when it holds no record. -/
theorem haltTile_precise {s : State} {t cause addr : Nat} (instr : Option (Nat × TileFields)) (hcause : cause ≤ 11)
    (hfree : s.bit (.tilExcInfo t) 63 = false) :
    (s.haltTile t cause addr 0 .none instr false).tile t = (s.tile t).haltedAt cause instr ∧
      (s.haltTile t cause addr 0 .none instr false).fld (.tilDbgStat t) 11 8 = cause ∧
      (s.haltTile t cause addr 0 .none instr false).rd (.tilExcInfo t) = excInfoWord cause 0 (s.tile t).pc ∧
      (s.haltTile t cause addr 0 .none instr false).jobs = s.jobs := by
  have hset : s.haltTile t cause addr 0 .none instr false =
      (((s.setTile t (Tile.haltedAt cause instr)).setFld (.tilDbgStat t) 11 8 cause).countFault t cause).noteExc t cause addr 0 false := rfl
  set u := (s.setTile t (Tile.haltedAt cause instr)).setFld (.tilDbgStat t) 11 8 cause with hu
  have hframe := countFault_frame u t cause
  have htiles : (u.countFault t cause).tiles = u.tiles := (congrArg State.tiles hframe.2 :)
  have htile : (u.countFault t cause).tile t = (s.tile t).haltedAt cause instr := by
    rw [State.tile, htiles, hu, State.setFld_tiles]
    exact (State.tile_setTile s t t _).trans (if_pos rfl)
  have hinfo : (u.countFault t cause).rd (.tilExcInfo t) = s.rd (.tilExcInfo t) := by
    rw [hframe.1 _ (by simp), hu, State.rd_setFld, if_neg (by simp)]; rfl
  have hstat : (u.countFault t cause).rd (.tilDbgStat t) = setF (s.rd (.tilDbgStat t)) 11 8 cause := by
    rw [hframe.1 _ (by simp), hu, State.rd_setFld, if_pos rfl]; rfl
  have hjobs : (u.countFault t cause).jobs = s.jobs := (congrArg State.jobs hframe.2 :)
  obtain ⟨c, hrec⟩ := recordExc_precise (u.countFault t cause) t cause addr
  have hnote : s.haltTile t cause addr 0 .none instr false = (u.countFault t cause).recordExc t cause addr 0 false := by
    have : (u.countFault t cause).bit (.tilExcInfo t) 63 = false := by rw [State.bit, hinfo]; exact hfree
    rw [hset, State.noteExc, this]; simp
  rw [hnote, hrec]
  refine ⟨?_, ?_, ?_, ?_⟩
  · exact htile
  · rw [State.fld, State.rd_setFld, if_neg (by simp), State.rd_wr, if_neg (by simp)]
    show getF ((u.countFault t cause).rd _) 11 8 = cause
    rw [hstat, getF_setF _ _ _ _ (by decide) (by decide)]
    omega
  · rw [State.rd_setFld, if_neg (by simp), State.rd_wr, if_pos rfl, htile]
    rfl
  · exact hjobs

/-- Settles O15: the checks of an instruction in their order, and the words a halt writes. -/
theorem tileChecksAndHalts : Obligations.TileChecksAndHalts := by
  refine ⟨fun i s t op f hi => ?_, fun s t op cause addr f hatt h1 h11 hpc himp hfree => ?_⟩
  · obtain ⟨sem, hsem⟩ : ∃ sem, semOf op = some sem := by
      cases i <;> simp only [tileRow, Option.some.injEq, Prod.mk.injEq, reduceCtorEq] at hi <;> obtain ⟨rfl, rfl, rfl⟩ := hi <;> exact ⟨_, rfl⟩
    rw [exec_tileRow hi hsem]
    refine ⟨fun h => ?_, fun h hb hp => ?_, fun h hb hl => ?_, fun cause a h hb hl h40 h4f hm => ⟨?_, uRun_cause _ _ _ hm⟩⟩
    · simp [State.issueTile, h]
    · simp [State.issueTile, State.runInstr, h, hb, hp]
    · simp [State.issueTile, State.runInstr, h, hb, hl]
    · have hmicro : isMicro op = true := by simp [isMicro, h40, h4f]
      simp [State.issueTile, State.runInstr, h, hb, hl, hmicro, hm]
  · obtain ⟨htile, hstat, hinfo, hjobs⟩ := haltTile_precise (addr := addr) (some (op, f)) h11 hfree
    obtain ⟨hc, hp, hv⟩ := excInfoWord_fields h11 hpc
    have hexc : s.except t op f cause addr 0 .none = s.haltTile t cause addr 0 .none (some (op, f)) false := by
      simp [State.except, hatt, himp]
    refine ⟨_, _, hexc, (congrArg Tile.halt htile :), rfl, rfl, (congrArg Tile.pc htile :), hstat, ?_, ?_, ?_, hjobs⟩
    · rw [State.fld, hinfo, hc]
    · rw [State.fld, hinfo, hp]
    · rw [State.bit, hinfo, hv]

end Sys2Proof.Machine
end

section
/-! PROOFS. The long-vector instructions, plain and masked (O19). -/

namespace Sys2Proof.Machine

/-- No share of source `i` is the register that the other share writes. -/
def SharesApart (f : TileFields) (i : Nat) : Prop := ∀ h h', h < shareCount f → h' < shareCount f → h' ≠ h → i + h ≠ f.d + h'

theorem sharesApart_of_even {f : TileFields} {i : Nat} (hi : isMasked f = true → i % 2 = 0) (hd : isMasked f = true → f.d % 2 = 0) :
    SharesApart f i := by
  intro h h' hh hh' hne
  unfold shareCount at hh hh'
  split at hh
  · next hm => have := hi hm; have := hd hm; simp only [hm, if_true] at hh'; omega
  · next hm => simp only [hm] at hh'; simp at hh'; omega

/-- Pieces of the mask. -/
theorem entry_piece {n k : Nat} (hk : k < n) (b : Nat) (l : List Nat) : entry l (n * b + k) = entry (piece n b l) k := by
  rw [entry, entry, getElem?_piece hk]

/-- Entry by entry, with a third list. -/
theorem map_range_entry3 {n : Nat} {d u v : List Nat} (hd : d.length = n) (hu : u.length = n) (hv : v.length = n) (f g : Nat → Nat → Nat) :
    (List.range n).map (fun k => f (entry d k) (g (entry u k) (entry v k))) = List.zipWith f d (List.zipWith g u v) := by
  refine List.ext_getElem (by simp [hd, hu, hv]) fun k h1 h2 => ?_
  have hk : k < n := by simpa using h1
  simp [entry, hd, hu, hv, hk]

theorem zipWith_right {l m : List Nat} (h : l.length = m.length) : List.zipWith (fun _ y => y) l m = m := by
  refine List.ext_getElem (by simp [h]) fun k h1 h2 => by simp

section
variable {a : TileArg} (hw : a.f.w ≤ 2)
include hw

/-- The lanes of a beat of a full tile's register. -/
theorem length_lanes_words {x : Tile} (hx : x.full = true) {b : Nat} (hb : b < 256 / beatElems a.f.w) (i : Nat) :
    (lanesOf a.f.w (x.words a.f.w i b)).length = beatLanes a.f.w := length_lanesOf hw (length_words hx hb i)

theorem length_mask : a.mask.length = beatLanes a.f.w * (256 / beatElems a.f.w) := by
  rcases width_cases hw with h | h | h <;> simp [TileArg.mask, TileArg.masks, h, beatLanes, beatElems]

variable (ha : a.AtStart)
include ha

/-- Two sources, share by share. -/
theorem long2_ok (op : TileArg → Nat → Nat → Nat) (hA : SharesApart a.f a.f.a) (hB : SharesApart a.f a.f.b) :
    ∃ y, long2 op a = .ok y (longTime a.f) ∧
      y.Alike (sharesSet a.x a.f fun h => List.zipWith (op a) (a.x.pget a.f.w (a.f.a + h)) (a.x.pget a.f.w (a.f.b + h))) := by
  refine long_shares ha hw (fun h hh => by simp [length_pget ha.full hw]) fun x h b hh hb hx _ hsame => ?_
  have hlen := length_lanes_words hw ha.full hb
  simp only [beatGet_eq, hsame _ fun h' hh' hne => hA h h' hh hh' hne, hsame _ fun h' hh' hne => hB h h' hh hh' hne]
  rw [lanes_eq ha, map_range_entry2 (hlen _) (hlen _), piece_zipWith, lanesOf_words hw, lanesOf_words hw]

/-- One source, share by share. -/
theorem long1_ok (op : TileArg → Nat → Nat) (hA : SharesApart a.f a.f.a) : ∃ y, long1 op a = .ok y (longTime a.f) ∧
    y.Alike (sharesSet a.x a.f fun h => (a.x.pget a.f.w (a.f.a + h)).map (op a)) := by
  refine long_shares ha hw (fun h hh => by simp [length_pget ha.full hw]) fun x h b hh hb hx _ hsame => ?_
  simp only [beatGet_eq, hsame _ fun h' hh' hne => hA h h' hh hh' hne]
  rw [lanes_eq ha, map_range_entry (length_lanes_words hw ha.full hb _), piece_map, lanesOf_words hw]

/-- Each share of B times the public source A, combined with the share of D. -/
theorem longMul_ok (op : TileArg → Nat → Nat → Nat) (hsrc : a.ctx.src = a.x.preg a.f.a) (hD : SharesApart a.f a.f.d)
    (hB : SharesApart a.f a.f.b) : ∃ y, longMul op a = .ok y (longTime a.f) ∧ y.Alike (sharesSet a.x a.f fun h =>
      List.zipWith (op a) (a.x.pget a.f.w (a.f.d + h))
        (List.zipWith (mulM (isRed a.f) a.bits a.q) (a.x.pget a.f.w a.f.a) (a.x.pget a.f.w (a.f.b + h)))) := by
  refine long_shares ha hw (fun h hh => by simp [length_pget ha.full hw]) fun x h b hh hb hx _ hsame => ?_
  have hlen := length_lanes_words hw ha.full hb
  have hu : a.srcBeat b = lanesOf a.f.w (a.x.words a.f.w a.f.a b) := by rw [TileArg.srcBeat, hsrc]; rfl
  simp only [hu, beatGet_eq, hsame _ fun h' hh' hne => hD h h' hh hh' hne, hsame _ fun h' hh' hne => hB h h' hh hh' hne]
  rw [lanes_eq ha, map_range_entry3 (hlen _) (hlen _) (hlen _), piece_zipWith, piece_zipWith, lanesOf_words hw, lanesOf_words hw,
    lanesOf_words hw]

/-- MSKP writes the mask. -/
theorem semMskp_ok (hm : isMasked a.f = false) : ∃ y, semMskp a = .ok y (longTime a.f) ∧ y.Alike (a.x.pset a.f.w a.f.d a.mask) := by
  have hshares : sharesSet a.x a.f (fun _ => a.mask) = a.x.pset a.f.w a.f.d a.mask := by simp [sharesSet, hm]
  rw [← hshares]
  unfold semMskp
  refine long_shares ha hw (fun _ _ => length_mask hw) fun x h b hh hb _ _ _ => ?_
  have hlen : (piece (beatLanes a.f.w) b a.mask).length = beatLanes a.f.w :=
    length_piece (by rw [length_mask hw]; exact Nat.mul_le_mul_left _ hb)
  obtain rfl : h = 0 := by simp [shareCount, hm] at hh; omega
  rw [lanes_eq ha, List.map_congr_left fun k hk => entry_piece (List.mem_range.1 hk) b a.mask, map_range_entry hlen (fun v => v),
    List.map_id', Nat.add_zero]

/-- MREFR adds the mask to share 0 and takes it from share 1. -/
theorem semMrefr_ok (hD : SharesApart a.f a.f.d) : ∃ y, semMrefr a = .ok y (longTime a.f) ∧ y.Alike (sharesSet a.x a.f fun h =>
    List.zipWith (if a.f.w = 2 then (· ^^^ ·) else if h = 0 then addM a.q else subM a.q) (a.x.pget a.f.w (a.f.d + h)) a.mask) := by
  unfold semMrefr
  refine long_shares ha hw (fun h _ => ?_) fun x h b hh hb _ _ hsame => ?_
  · rw [List.length_zipWith, length_pget ha.full hw, length_mask hw, Nat.min_self]
  have hlen := length_lanes_words hw ha.full hb
  have hmask : (piece (beatLanes a.f.w) b a.mask).length = beatLanes a.f.w :=
    length_piece (by rw [length_mask hw]; exact Nat.mul_le_mul_left _ hb)
  have hop : ∀ u r, (if a.f.w = 2 then u ^^^ r else if h = 0 then addM a.q u r else subM a.q u r) =
      (if a.f.w = 2 then (· ^^^ ·) else if h = 0 then addM a.q else subM a.q) u r := by
    intro u r; split <;> [rfl; (split <;> rfl)]
  simp only [beatGet_eq, hsame _ fun h' hh' hne => hD h h' hh hh' hne, hop]
  rw [lanes_eq ha, List.map_congr_left fun k hk => congrArg _ (entry_piece (List.mem_range.1 hk) b a.mask),
    map_range_entry2 (hlen _) hmask, piece_zipWith, lanesOf_words hw]

end

/-! ### The instructions -/

section
variable {s : State} {t op : Nat} {f : TileFields}

@[simp] theorem tileArg_bits : (s.tileArg t op f).bits = laneBits f.w := rfl
@[simp] theorem tileArg_dist : (s.tileArg t op f).dist = f.imm.toNat % 64 := rfl

theorem tileArg_modulus (s : State) (t op : Nat) (f : TileFields) : (s.tileArg t op f).q = (s.tile t).q f.w := drawnTile_q ..

theorem longTime_plain (h : isMasked f = false) : longTime f = if f.w = 0 then 8 else 16 := by simp [longTime, h]
theorem longTime_masked (h : isMasked f = true) : longTime f = if f.w = 0 then 16 else 32 := by
  simp only [longTime, h, if_true]; split <;> rfl

/-- A long-vector instruction that completes on the tile drawn from. -/
theorem exec_long {i : Instr} {sem : Sem} {val : Nat → List Nat} (hi : exec i s = .next (s.issueTile t op f sem)) (h : s.takes t op f = true)
    (hrun : ∃ y, sem (s.tileArg t op f) = .ok y (longTime f) ∧ y.Alike (sharesSet (s.drawnTile t op f) f val)) :
    (isMasked f = false → ∃ y, exec i s = .next (s.tileDone t y (if f.w = 0 then 8 else 16)) ∧
      y.Alike ((s.drawnTile t op f).pset f.w f.d (val 0))) ∧
    (isMasked f = true → ∃ y, exec i s = .next (s.tileDone t y (if f.w = 0 then 16 else 32)) ∧
      y.Alike (((s.drawnTile t op f).pset f.w f.d (val 0)).pset f.w (f.d + 1) (val 1))) := by
  obtain ⟨y, hy, halike⟩ := hrun
  refine ⟨fun hm => ⟨y, ?_, ?_⟩, fun hm => ⟨y, ?_, ?_⟩⟩
  · rw [← longTime_plain hm]; rw [hi, issueTile_ok h hy]
  · simpa [sharesSet, hm] using halike
  · rw [← longTime_masked hm]; rw [hi, issueTile_ok h hy]
  · simpa [sharesSet, hm] using halike

/-- The registers that a defined word may name leave its shares apart. -/
theorem Legal.apart {o : OpSpec} (hl : Legal o f) (hcond : o.cond = false) {bit v : Nat} (hv : legalField o f bit v = true)
    (hrow : o.mod.testBit 1 = false ∨ (o.use &&& 1 ≠ 0 ∧ o.p &&& 1 ≠ 0 ∧ o.pair &&& 1 ≠ 0 ∧ o.use &&& bit ≠ 0 ∧ o.p &&& bit ≠ 0 ∧ o.pair &&& bit ≠ 0)) :
    SharesApart f v := by
  rcases hrow with hmod | ⟨hd, hdp, hdpair, hb, hbp, hbpair⟩
  · refine sharesApart_of_even (fun hm => ?_) fun hm => ?_ <;> simp [hl.not_masked hcond hmod] at hm
  · exact sharesApart_of_even ((legalField_long hv hb hbp).2 hbpair) ((legalField_long hl.d hd hdp).2 hdpair)

/-- Defined widths are 0, 1 and 2. -/
theorem Legal.width_le {o : OpSpec} (hl : Legal o f) (hws : ∀ w ∈ o.ws, w ≤ 2) : f.w ≤ 2 := hws _ hl.width

theorem tileArg_src (hbeats : isBeats op = true) : (s.tileArg t op f).ctx.src = (s.tile t).preg (f.a % 16) :=
  (drawCtx_of_beats (s.tile t) hbeats f).2.2

theorem length_mask_tileArg : (s.tileArg t op f).mask.length = if f.w = 2 then 128 else 256 := by
  rw [TileArg.mask, TileArg.masks, List.length_map, List.length_range]; rfl

/-- A mask value is a canonical residue, or 64 random bits at W = 2. -/
theorem mask_lt : ∀ v ∈ (s.tileArg t op f).mask, v < if f.w = 2 then 2 ^ 64 else max 1 ((s.tile t).q f.w) := by
  intro v hv
  simp only [TileArg.mask, TileArg.masks, List.mem_map, tileArg_f, tileArg_modulus] at hv
  obtain ⟨i, -, rfl⟩ := hv
  unfold maskResidue
  split
  · exact Nat.mod_lt _ (by decide)
  · exact Nat.mod_lt _ (by omega)

end

/-- What the obligation's cases share: the instruction stands at its start, and its width is one of the tile's. -/
theorem long_start {s : State} {t op : Nat} {f : TileFields} {o : OpSpec} (ho : tileSpec op = some o) (hbeats : isBeats op = true)
    (hws : ∀ w ∈ o.ws, w ≤ 2) (h : s.takes t op f = true) (hfull : (s.tile t).full = true) :
    Legal o f ∧ f.w ≤ 2 ∧ (s.tileArg t op f).AtStart :=
  have hl := legal_of_wordLegal ho (legal_of_takes h)
  ⟨hl, hl.width_le hws, tileArg_atStart f hbeats hfull⟩

section
variable {s : State} {t op : Nat} {f : TileFields} {o : OpSpec} (ho : tileSpec op = some o) (hbeats : isBeats op = true)
  (hws : ∀ w ∈ o.ws, w ≤ 2) (hcond : o.cond = false) (h : s.takes t op f = true) (hfull : (s.tile t).full = true)
include ho hbeats hws hcond h hfull

/-- A two-source long-vector instruction that its tile takes. -/
theorem exec_long2 (hrow : o.mod.testBit 1 = false ∨ (o.use &&& 7 = 7 ∧ o.p &&& 7 = 7 ∧ o.pair &&& 7 = 7)) (i : Instr)
    (g : TileArg → Nat → Nat → Nat) (hi : exec i s = .next (s.issueTile t op f (long2 g))) :
    let share (k : Nat) := List.zipWith (g (s.tileArg t op f)) ((s.tile t).pget f.w (f.a + k)) ((s.tile t).pget f.w (f.b + k))
    (isMasked f = false → ∃ y, exec i s = .next (s.tileDone t y (if f.w = 0 then 8 else 16)) ∧
      y.Alike ((s.drawnTile t op f).pset f.w f.d (share 0))) ∧
    (isMasked f = true → ∃ y, exec i s = .next (s.tileDone t y (if f.w = 0 then 16 else 32)) ∧
      y.Alike (((s.drawnTile t op f).pset f.w f.d (share 0)).pset f.w (f.d + 1) (share 1))) := by
  obtain ⟨hl, hw, ha⟩ := long_start ho hbeats hws h hfull
  have hbits : ∀ n bit : Nat, n &&& 7 = 7 → 7 &&& bit ≠ 0 → n &&& bit ≠ 0 := fun n bit hn hbit h0 => hbit (by
    rw [← hn, Nat.and_right_comm, h0, Nat.zero_and])
  have hpair : ∀ bit, 7 &&& bit ≠ 0 → o.mod.testBit 1 = false ∨
      (o.use &&& 1 ≠ 0 ∧ o.p &&& 1 ≠ 0 ∧ o.pair &&& 1 ≠ 0 ∧ o.use &&& bit ≠ 0 ∧ o.p &&& bit ≠ 0 ∧ o.pair &&& bit ≠ 0) :=
    fun bit hbit => hrow.imp id fun ⟨hu, hp, hq⟩ => ⟨hbits _ _ hu (by decide), hbits _ _ hp (by decide), hbits _ _ hq (by decide),
      hbits _ _ hu hbit, hbits _ _ hp hbit, hbits _ _ hq hbit⟩
  have hrun := long2_ok hw ha g (hl.apart hcond hl.a (hpair 2 (by decide))) (hl.apart hcond hl.b (hpair 4 (by decide)))
  simpa using exec_long hi h hrun

end

/-- Settles O19: each instruction is a loop over beats whose beat writes that beat of the element-wise result. -/
theorem longVectorInstructions : Obligations.LongVectorInstructions := by
  refine ⟨fun i s t op f g hi h hfull => ?_, fun i s t op f g hi h hfull => ?_, fun s t f hfull => ?_, fun s t f hfull => ?_⟩
  · have hplain : ∀ {op : Nat} {o : OpSpec} {t : Nat} {f : TileFields}, tileSpec op = some o ∧ o.cond = false ∧ o.mod.testBit 1 = false →
        s.takes t op f = true → isMasked f = false := fun ho h => (legal_of_wordLegal ho.1 (legal_of_takes h)).not_masked ho.2.1 ho.2.2
    cases i <;> simp only [longRow, Option.some.injEq, Prod.mk.injEq, reduceCtorEq] at hi <;> obtain ⟨rfl, rfl, rfl, rfl⟩ := hi
    case padd t f => exact (exec_long2 rfl rfl (by decide) rfl h hfull (.inl rfl) (.padd t f) _ rfl).1 (hplain ⟨rfl, rfl, rfl⟩ h)
    case psub t f => exact (exec_long2 rfl rfl (by decide) rfl h hfull (.inl rfl) (.psub t f) _ rfl).1 (hplain ⟨rfl, rfl, rfl⟩ h)
    case pand t f => exact (exec_long2 rfl rfl (by decide) rfl h hfull (.inl rfl) (.pand t f) _ rfl).1 (hplain ⟨rfl, rfl, rfl⟩ h)
    case pmulh t f => exact (exec_long2 rfl rfl (by decide) rfl h hfull (.inl rfl) (.pmulh t f) _ rfl).1 (hplain ⟨rfl, rfl, rfl⟩ h)
  · cases i <;> simp only [sharedRow, Option.some.injEq, Prod.mk.injEq, reduceCtorEq] at hi <;> obtain ⟨rfl, rfl, rfl, rfl⟩ := hi
    case paddm t f => simpa [tileArg_modulus] using exec_long2 rfl rfl (by decide) rfl h hfull (.inr (by decide)) (.paddm t f) (fun a => addM a.q) rfl
    case psubm t f => simpa [tileArg_modulus] using exec_long2 rfl rfl (by decide) rfl h hfull (.inr (by decide)) (.psubm t f) (fun a => subM a.q) rfl
    case pxor t f => exact exec_long2 rfl rfl (by decide) rfl h hfull (.inr (by decide)) (.pxor t f) _ rfl
  · have hmul : ∀ op, op = 0x34 ∨ op = 0x35 → s.takes t op f = true → f.w ≤ 2 ∧ (s.tileArg t op f).AtStart ∧
        (s.tileArg t op f).ctx.src = (s.tile t).preg f.a ∧ SharesApart f f.d ∧ SharesApart f f.b := by
      intro op hop h
      have hspec : tileSpec op = some { ws := [0, 1], mod := 3, use := 7, p := 7, pair := 5 } := by rcases hop with rfl | rfl <;> rfl
      have hbeats : isBeats op = true := by rcases hop with rfl | rfl <;> rfl
      obtain ⟨hl, hw, ha⟩ := long_start hspec hbeats (by decide) h hfull
      have hlt : f.a < 16 := (legalField_long hl.a (by decide) (by decide)).1
      exact ⟨hw, ha, by rw [tileArg_src hbeats, Nat.mod_eq_of_lt hlt], hl.apart rfl hl.d (.inr (by decide)), hl.apart rfl hl.b (.inr (by decide))⟩
    have hlen : f.w ≤ 2 → ∀ k : Nat, ((s.tile t).pget f.w (f.d + k)).length = (List.zipWith (mulM (isRed f) (laneBits f.w) ((s.tile t).q f.w))
        ((s.tile t).pget f.w f.a) ((s.tile t).pget f.w (f.b + k))).length := fun hw k => by
      rw [List.length_zipWith, length_pget hfull hw, length_pget hfull hw, length_pget hfull hw, Nat.min_self]
    have hpmulm := fun h : s.takes t 0x34 f = true => by
      obtain ⟨hw, ha, hsrc, hD, hB⟩ := hmul _ (.inl rfl) h
      have := (exec_long (i := .pmulm t f) rfl h (longMul_ok hw ha (fun _ _ m => m) (by simpa using hsrc) hD hB))
      simp only [tileArg_f, tileArg_x, drawnTile_pget, zipWith_right (hlen hw _), tileArg_bits, tileArg_modulus] at this
      exact this
    have hpmacm := fun h : s.takes t 0x35 f = true => by
      obtain ⟨hw, ha, hsrc, hD, hB⟩ := hmul _ (.inr rfl) h
      have := exec_long (i := .pmacm t f) rfl h (longMul_ok hw ha (fun a => addM a.q) (by simpa using hsrc) hD hB)
      simp only [tileArg_f, tileArg_x, drawnTile_pget, tileArg_bits, tileArg_modulus] at this
      exact this
    exact ⟨fun h => (hpmulm h).1, fun h => (hpmulm h).2, fun h => (hpmacm h).1, fun h => (hpmacm h).2⟩
  · have hpmov := fun h : s.takes t 0x3C f = true => by
      obtain ⟨hl, hw, ha⟩ := long_start rfl rfl (by decide) h hfull
      have := exec_long (i := .pmov t f) rfl h (long1_ok hw ha (fun _ x => x) (hl.apart rfl hl.a (.inr (by decide))))
      simp only [tileArg_f, tileArg_x, drawnTile_pget, List.map_id'] at this
      exact this
    refine ⟨fun h => ?_, fun h => ?_, fun h => (hpmov h).1, fun h => (hpmov h).2, fun h => ?_, fun h => ?_⟩
    · obtain ⟨hl, hw, ha⟩ := long_start rfl rfl (by decide) h hfull
      have := (exec_long (i := .pshl t f) rfl h (long1_ok hw ha (fun a => shl a.bits a.dist) (hl.apart rfl hl.a (.inl rfl)))).1
        (hl.not_masked rfl rfl)
      simp only [tileArg_f, tileArg_x, drawnTile_pget] at this
      exact this
    · obtain ⟨hl, hw, ha⟩ := long_start rfl rfl (by decide) h hfull
      have := (exec_long (i := .pshr t f) rfl h (long1_ok hw ha (fun a => shrS a.bits a.dist (isRnd a.f)) (hl.apart rfl hl.a (.inl rfl)))).1
        (hl.not_masked rfl rfl)
      simpa using this
    · obtain ⟨hl, hw, ha⟩ := long_start rfl rfl (by decide) h hfull
      have hm := hl.not_masked rfl rfl
      obtain ⟨y, hy, halike⟩ := semMskp_ok hw ha hm
      exact ⟨_, y, length_mask_tileArg, mask_lt, by rw [← longTime_plain hm]; exact congrArg Host.Outcome.next (issueTile_ok h hy), halike⟩
    · obtain ⟨hl, hw, ha⟩ := long_start rfl rfl (by decide) h hfull
      have hm : isMasked f = true := by
        have := congrArg (fun n => n.testBit 1) (hl.mod rfl).2
        simpa [isMasked, show Nat.testBit 2 1 = true from rfl] using this
      obtain ⟨y, hy, halike⟩ := (exec_long (i := .mrefr t f) rfl h (semMrefr_ok hw ha (hl.apart rfl hl.d (.inr (by decide))))).2 hm
      refine ⟨(s.tileArg t 0x3D f).mask, y, length_mask_tileArg, mask_lt, hy, ?_⟩
      simpa [tileArg_modulus] using halike

end Sys2Proof.Machine
end

section
/-! PROOFS. The microcoded instructions without memory: butterflies in any order make the transforms' layers (O21). -/

namespace Sys2Proof.Machine

/-! ### One layer of butterflies -/

/-- The two results of a butterfly. -/
def butterfly (inv : Bool) (q z u v : Nat) : Nat × Nat :=
  if inv then (addM q u v, subM q v u * z % q) else (addM q u (v * z % q), subM q u (v * z % q))

/-- The low place of butterfly `f` in blocks of `2 * len`. -/
def flyPlace (len f : Nat) : Nat := 2 * len * (f / len) + f % len

/-- One butterfly on its two places. -/
def fly (inv : Bool) (q len : Nat) (zeta : Nat → Nat) (l : List Nat) (f : Nat) : List Nat :=
  (l.set (flyPlace len f) (butterfly inv q (zeta (f / len)) (entry l (flyPlace len f)) (entry l (flyPlace len f + len))).1).set
    (flyPlace len f + len) (butterfly inv q (zeta (f / len)) (entry l (flyPlace len f)) (entry l (flyPlace len f + len))).2

theorem flyLayer_eq (inv : Bool) (q len : Nat) (zeta : Nat → Nat) (order l : List Nat) :
    flyLayer inv q len zeta order l = order.foldl (fly inv q len zeta) l := by
  cases inv <;> rfl

theorem length_fly (inv : Bool) (q len : Nat) (zeta : Nat → Nat) (l : List Nat) (f : Nat) : (fly inv q len zeta l f).length = l.length := by
  simp [fly]

theorem length_flies (inv : Bool) (q len : Nat) (zeta : Nat → Nat) (order : List Nat) :
    ∀ l : List Nat, (order.foldl (fly inv q len zeta) l).length = l.length := by
  induction order with
  | nil => exact fun _ => rfl
  | cons f order ih => exact fun l => (ih _).trans (length_fly ..)

section
variable {len : Nat} (hlen : 0 < len)
include hlen

theorem flyPlace_div (f : Nat) : flyPlace len f / (2 * len) = f / len := by
  have := Nat.mod_lt f hlen
  rw [flyPlace, Nat.mul_add_div (by omega), Nat.div_eq_of_lt (a := f % len) (by omega), Nat.add_zero]

theorem flyPlace_mod (f : Nat) : flyPlace len f % (2 * len) = f % len := by
  have := Nat.mod_lt f hlen
  rw [flyPlace, Nat.mul_add_mod, Nat.mod_eq_of_lt (by omega)]

theorem flyPlace_high_mod (f : Nat) : (flyPlace len f + len) % (2 * len) = f % len + len := by
  have := Nat.mod_lt f hlen
  rw [flyPlace, Nat.add_assoc, Nat.mul_add_mod, Nat.mod_eq_of_lt (by omega)]

theorem flyPlace_inj {f g : Nat} (h : flyPlace len f = flyPlace len g) : f = g := by
  have hdiv := flyPlace_div hlen f; have hmod := flyPlace_mod hlen f
  rw [h, flyPlace_div hlen] at hdiv; rw [h, flyPlace_mod hlen] at hmod
  rw [← Nat.div_add_mod f len, ← Nat.div_add_mod g len, hdiv, hmod]

theorem flyPlace_ne_high (f g : Nat) : flyPlace len f ≠ flyPlace len g + len := fun h => by
  have hmod := flyPlace_mod hlen f
  rw [h, flyPlace_high_mod hlen] at hmod
  have := Nat.mod_lt f hlen
  omega

/-- What the butterflies of `order` leave in the places of butterfly `g`: its results if it is one of them, else what was there. -/
theorem entries_flies (inv : Bool) (q : Nat) (zeta : Nat → Nat) {n : Nat} : ∀ (order : List Nat) (l : List Nat), order.Nodup →
    (∀ f ∈ order, flyPlace len f + len < n) → l.length = n → ∀ g, flyPlace len g + len < n →
    let r := order.foldl (fly inv q len zeta) l
    let b := butterfly inv q (zeta (g / len)) (entry l (flyPlace len g)) (entry l (flyPlace len g + len))
    r.length = n ∧ entry r (flyPlace len g) = (if g ∈ order then b.1 else entry l (flyPlace len g)) ∧
      entry r (flyPlace len g + len) = if g ∈ order then b.2 else entry l (flyPlace len g + len) := by
  intro order
  induction order with
  | nil => intro l _ _ hl g _; exact ⟨hl, rfl, rfl⟩
  | cons f order ih =>
    intro l hnodup hlt hl g hg
    obtain ⟨hnot, hnodup⟩ := List.nodup_cons.1 hnodup
    have hf := hlt f (by simp)
    obtain ⟨hlen', hlow, hhigh⟩ := ih (fly inv q len zeta l f) hnodup (fun k hk => hlt k (by simp [hk])) (by rw [length_fly, hl]) g hg
    refine ⟨hlen', ?_⟩
    have hne1 := flyPlace_ne_high hlen f g; have hne2 := flyPlace_ne_high hlen g f
    by_cases hgf : g = f
    · subst hgf
      have h1 : entry (fly inv q len zeta l g) (flyPlace len g) =
          (butterfly inv q (zeta (g / len)) (entry l (flyPlace len g)) (entry l (flyPlace len g + len))).1 := by
        unfold fly
        rw [entry, List.getElem?_set_ne (by omega), List.getElem?_set_self (by omega)]; rfl
      have h2 : entry (fly inv q len zeta l g) (flyPlace len g + len) =
          (butterfly inv q (zeta (g / len)) (entry l (flyPlace len g)) (entry l (flyPlace len g + len))).2 := by
        unfold fly
        rw [entry, List.getElem?_set_self (by rw [List.length_set]; omega)]; rfl
      simp only [List.foldl_cons, List.mem_cons, true_or, if_true]
      rw [hlow, hhigh, if_neg hnot, if_neg hnot]
      exact ⟨h1, h2⟩
    · have hplace : flyPlace len f ≠ flyPlace len g := fun h => hgf (flyPlace_inj hlen h).symm
      have h1 : entry (fly inv q len zeta l f) (flyPlace len g) = entry l (flyPlace len g) := by
        unfold fly
        rw [entry, List.getElem?_set_ne (Ne.symm hne2), List.getElem?_set_ne hplace]; rfl
      have h2 : entry (fly inv q len zeta l f) (flyPlace len g + len) = entry l (flyPlace len g + len) := by
        unfold fly
        rw [entry, List.getElem?_set_ne (by omega), List.getElem?_set_ne hne1]; rfl
      simp only [List.foldl_cons, List.mem_cons, hgf, false_or]
      rw [hlow, hhigh, h1, h2]
      exact ⟨rfl, rfl⟩

/-- The layer of the whole transform, entry by entry. -/
theorem entries_nttLayer (inv : Bool) (q : Nat) (zeta : Nat → Nat) : ∀ (blocks i : Nat) (l : List Nat), l.length = 2 * len * blocks →
    (nttLayer inv q len zeta blocks i l).length = l.length ∧ ∀ b r, b < blocks → r < len →
      let f := butterfly inv q (zeta (i + b)) (entry l (2 * len * b + r)) (entry l (2 * len * b + r + len))
      entry (nttLayer inv q len zeta blocks i l) (2 * len * b + r) = f.1 ∧
        entry (nttLayer inv q len zeta blocks i l) (2 * len * b + r + len) = f.2 := by
  intro blocks
  induction blocks with
  | zero => intro i l hl; exact ⟨rfl, fun b r hb => absurd hb (Nat.not_lt_zero _)⟩
  | succ blocks ih =>
    intro i l hl
    rw [Nat.mul_succ] at hl
    obtain ⟨hrest, hih⟩ := ih (i + 1) (l.drop (2 * len)) (by simp; omega)
    obtain ⟨x, y, hxy, hx, hy, hget⟩ : ∃ x y, nttLayer inv q len zeta (blocks + 1) i l =
        x ++ y ++ nttLayer inv q len zeta blocks (i + 1) (l.drop (2 * len)) ∧ x.length = len ∧ y.length = len ∧ ∀ r, r < len →
          entry x r = (butterfly inv q (zeta i) (entry l r) (entry l (r + len))).1 ∧
          entry y r = (butterfly inv q (zeta i) (entry l r) (entry l (r + len))).2 := by
      have hget : ∀ r, r < len → ∃ u v, l[r]? = some u ∧ l[r + len]? = some v := fun r hr =>
        ⟨_, _, List.getElem?_eq_getElem (by omega), List.getElem?_eq_getElem (by omega)⟩
      cases inv
      all_goals
        refine ⟨_, _, rfl, by simp [zip2]; omega, by simp [zip2]; omega, fun r hr => ?_⟩
        obtain ⟨u, v, hu, hv⟩ := hget r hr
        simp [entry, butterfly, zip2, hu, hv, hr, Nat.add_comm len r, List.getElem?_zipWith]
    rw [hxy]
    refine ⟨by simp [hx, hy, hrest]; omega, fun b r hb hr => ?_⟩
    rcases b with _ | b
    · obtain ⟨h1, h2⟩ := hget r hr
      rw [Nat.mul_zero, Nat.zero_add, Nat.add_zero]
      refine ⟨h1 ▸ ?_, h2 ▸ ?_⟩
      · rw [entry, List.append_assoc, List.getElem?_append_left (by omega)]; rfl
      · rw [entry, List.append_assoc, List.getElem?_append_right (by omega), List.getElem?_append_left (by omega), hx, Nat.add_sub_cancel]; rfl
    · obtain ⟨h1, h2⟩ := hih b r (by omega) hr
      have hsplit : ∀ k, entry (x ++ y ++ nttLayer inv q len zeta blocks (i + 1) (l.drop (2 * len))) (2 * len + k) =
          entry (nttLayer inv q len zeta blocks (i + 1) (l.drop (2 * len))) k := fun k => by
        rw [entry, List.getElem?_append_right (by simp; omega)]
        simp only [List.length_append, hx, hy, ← Nat.two_mul, Nat.add_sub_cancel_left]; rfl
      have hdrop : ∀ k, entry (l.drop (2 * len)) k = entry l (2 * len + k) := fun k => by simp [entry]
      have hidx : 2 * len * (b + 1) + r = 2 * len + (2 * len * b + r) := by rw [Nat.mul_succ]; omega
      rw [hidx, Nat.add_assoc (2 * len), hsplit, hsplit, h1, h2, hdrop, hdrop, show i + (b + 1) = i + 1 + b by omega, Nat.add_assoc (2 * len * b)]
      exact ⟨rfl, rfl⟩

/-- Butterflies in any order make the layer. -/
theorem flyLayer_perm {order : List Nat} {blocks : Nat} (horder : order.Perm (List.range (len * blocks))) (inv : Bool) (q : Nat)
    (zeta : Nat → Nat) {l : List Nat} (hl : l.length = 2 * len * blocks) :
    flyLayer inv q len zeta order l = nttLayer inv q len zeta blocks 0 l := by
  have hplace : ∀ f, f < len * blocks → flyPlace len f + len < 2 * len * blocks := by
    intro f hf
    have hdiv : f / len < blocks := Nat.div_lt_of_lt_mul hf
    have hmod := Nat.mod_lt f hlen
    calc flyPlace len f + len < 2 * len * (f / len + 1) := by rw [flyPlace, Nat.mul_succ]; omega
      _ ≤ 2 * len * blocks := Nat.mul_le_mul_left _ hdiv
  have hmem : ∀ f, f ∈ order ↔ f < len * blocks := fun f => by rw [horder.mem_iff, List.mem_range]
  have hflies := entries_flies hlen inv q zeta order l (horder.nodup_iff.2 List.nodup_range) (fun f hf => hplace f ((hmem f).1 hf)) hl
  obtain ⟨hlength, hlayer⟩ := entries_nttLayer hlen inv q zeta blocks 0 l hl
  have hentry : ∀ j, j < 2 * len * blocks → entry (flyLayer inv q len zeta order l) j = entry (nttLayer inv q len zeta blocks 0 l) j := by
    intro j hj
    have hb : j / (2 * len) < blocks := Nat.div_lt_of_lt_mul hj
    have hr : j % (2 * len) < 2 * len := Nat.mod_lt _ (by omega)
    have hj' := Nat.div_add_mod j (2 * len)
    set b := j / (2 * len)
    have hfly : ∀ r, r < len → (b * len + r) / len = b ∧ flyPlace len (b * len + r) = 2 * len * b + r ∧ b * len + r < len * blocks := by
      intro r hr
      have hdiv : (b * len + r) / len = b := by rw [Nat.mul_comm, Nat.mul_add_div hlen, Nat.div_eq_of_lt hr, Nat.add_zero]
      refine ⟨hdiv, by rw [flyPlace, hdiv, Nat.mul_comm b, Nat.mul_add_mod, Nat.mod_eq_of_lt hr], ?_⟩
      calc b * len + r < len * (b + 1) := by rw [Nat.mul_succ, Nat.mul_comm b]; omega
        _ ≤ len * blocks := Nat.mul_le_mul_left _ hb
    rw [flyLayer_eq]
    rcases Nat.lt_or_ge (j % (2 * len)) len with hlow | hhigh
    · obtain ⟨hdiv, hat, hlt⟩ := hfly _ hlow
      obtain ⟨-, h1, -⟩ := hflies _ (hplace _ hlt)
      rw [if_pos ((hmem _).2 hlt), hdiv, hat] at h1
      have h2 := (hlayer b _ hb hlow).1
      rw [Nat.zero_add] at h2
      rw [← hj', h1, h2]
    · obtain ⟨hdiv, hat, hlt⟩ := hfly (j % (2 * len) - len) (by omega)
      obtain ⟨-, -, h1⟩ := hflies _ (hplace _ hlt)
      rw [if_pos ((hmem _).2 hlt), hdiv, hat] at h1
      have h2 := (hlayer b (j % (2 * len) - len) hb (by omega)).2
      rw [Nat.zero_add] at h2
      rw [← hj', show 2 * len * b + j % (2 * len) = 2 * len * b + (j % (2 * len) - len) + len by omega, h1, h2]
  have hflylen : (flyLayer inv q len zeta order l).length = 2 * len * blocks := by rw [flyLayer_eq, length_flies, hl]
  refine List.ext_getElem (by rw [hflylen, hlength, hl]) fun j h1 h2 => ?_
  have := hentry j (by omega)
  simpa [entry, h1, h2] using this

end

/-! ### Transforms -/

/-- A modulus with a transform has seven or eight layers. -/
theorem nttShape_le {q n root bits : Nat} (h : nttShape q = some (n, root, bits)) : n ≤ 8 := by
  unfold nttShape at h
  split at h
  · obtain ⟨rfl, -⟩ := h; omega
  · split at h
    · obtain ⟨rfl, -⟩ := h; omega
    · cases h

/-- Blocks and lengths of layer `g`. -/
theorem layer_shape {g : Nat} (h : g < 8) : 0 < 128 / 2 ^ g ∧ 128 / 2 ^ g * 2 ^ g = 128 := by
  have : ∀ g, g < 8 → 0 < 128 / 2 ^ g ∧ 128 / 2 ^ g * 2 ^ g = 128 := by decide
  exact this g h

section
variable {q n root bits k : Nat} {order l : List Nat} (horder : order.Perm (List.range 128)) (hl : l.length = 256)
include horder hl

/-- A layer of the tile is the transform's, whatever the order of its butterflies. -/
theorem tileLayer_forward (hk : k < 8) : tileLayer false q n root bits k order l = nttStep q root bits k l := by
  obtain ⟨hpos, hmul⟩ := layer_shape hk
  have hall : order.Perm (List.range (128 / 2 ^ k * 2 ^ k)) := hmul.symm ▸ horder
  unfold tileLayer nttStep
  exact flyLayer_perm hpos hall _ _ _ (by rw [hl, Nat.mul_assoc, hmul])

theorem tileLayer_inverse (hk : n - 1 - k < 8) : tileLayer true q n root bits k order l = inttStep q root bits (n - 1 - k) l := by
  obtain ⟨hpos, hmul⟩ := layer_shape hk
  have hall : order.Perm (List.range (128 / 2 ^ (n - 1 - k) * 2 ^ (n - 1 - k))) := hmul.symm ▸ horder
  unfold tileLayer inttStep
  exact flyLayer_perm hpos hall _ _ _ (by rw [hl, Nat.mul_assoc, hmul])

end

theorem length_tileLayer (inv : Bool) (q n root bits k : Nat) (order l : List Nat) : (tileLayer inv q n root bits k order l).length = l.length := by
  rw [tileLayer, flyLayer_eq, length_flies]

/-- Layers one after another, each in an order of its own. -/
theorem layers_eq (inv : Bool) (q n root bits lo : Nat) (orders : Nat → List Nat) (step : Nat → List Nat → List Nat) :
    ∀ (k : Nat) (l : List Nat), l.length = 256 →
      (∀ i l, i < k → l.length = 256 → tileLayer inv q n root bits (lo + i) (orders i) l = step i l) →
      ((List.range k).foldl (fun l i => tileLayer inv q n root bits (lo + i) (orders i) l) l).length = 256 ∧
        (List.range k).foldl (fun l i => tileLayer inv q n root bits (lo + i) (orders i) l) l = (List.range k).foldl (fun l i => step i l) l := by
  intro k
  induction k with
  | zero => intro l hl _; exact ⟨hl, rfl⟩
  | succ k ih =>
    intro l hl hstep
    obtain ⟨hlen, heq⟩ := ih l hl fun i l hi => hstep i l (by omega)
    simp only [List.range_succ, List.foldl_append, List.foldl_cons, List.foldl_nil]
    rw [length_tileLayer]
    exact ⟨hlen, by rw [hstep k _ (by omega) hlen, heq]⟩

/-- Every order of butterflies is a permutation. -/
theorem flyOrder_perm (a : TileArg) (i : Nat) : (a.flyOrder i).Perm (List.range 128) := by
  unfold TileArg.flyOrder
  split
  · exact permOf_perm _ _
  · exact .refl _

section
variable {a : TileArg} {n root bits lo k : Nat} {l : List Nat} (hshape : nttShape a.q = some (n, root, bits))
  (hlo : lo = paramOf a.f % 16) (hk : k = nttLayers a.f) (hpos : 0 < k) (hle : lo + k ≤ n) (hl : l.length = 256)
include hshape hlo hk hpos hle hl

/-- A share's forward transform by the layers named. -/
theorem transform_forward (h : Nat) : a.transform false h l = nttRange a.q root bits lo k (l.map (· % a.q)) := by
  have hn := nttShape_le hshape
  have hlayers := layers_eq false a.q n root bits lo (fun i => a.flyOrder (h * k + i)) (fun i => nttStep a.q root bits (lo + i)) k
    (l.map (· % a.q)) (by simpa using hl) fun i l hi hl => tileLayer_forward (flyOrder_perm _ _) hl (by omega)
  simp only [TileArg.transform, hshape, ← hlo, ← hk, hpos, hle, and_self, if_true, Bool.false_and, Bool.false_eq_true, if_false]
  exact hlayers.2

/-- A share's inverse transform by the layers named, scaled where PARAM says so. -/
theorem transform_inverse (h : Nat) : a.transform true h l =
    if (paramOf a.f).testBit 8 then
      (inttRange a.q root bits (n - lo - k) k (l.map (· % a.q))).map (fun x => x * powMod (2 ^ n) (a.q - 2) a.q % a.q)
    else inttRange a.q root bits (n - lo - k) k (l.map (· % a.q)) := by
  have hn := nttShape_le hshape
  have hlayers := layers_eq true a.q n root bits lo (fun i => a.flyOrder (h * k + i)) (fun i => inttStep a.q root bits (n - lo - k + (k - 1 - i))) k
    (l.map (· % a.q)) (by simpa using hl) fun i l hi hl => by
      rw [show n - lo - k + (k - 1 - i) = n - 1 - (lo + i) by omega]
      exact tileLayer_inverse (flyOrder_perm _ _) hl (by omega)
  simp only [TileArg.transform, hshape, ← hlo, ← hk, hpos, hle, and_self, if_true, Bool.true_and, hlayers.2]
  rfl

end

/-! ### Fresh masks -/

/-- Masks that an instruction draws, below their modulus. -/
theorem length_masks (a : TileArg) (k n q : Nat) : (a.masks k n q).length = n := by simp [TileArg.masks]

theorem masks_lt (a : TileArg) (k n q : Nat) : ∀ v ∈ a.masks k n q, v < max 1 q := by
  intro v hv
  obtain ⟨i, -, rfl⟩ := List.mem_map.1 hv
  exact Nat.mod_lt _ (by omega)

theorem masks_lt_two_pow (a : TileArg) (k n b : Nat) : ∀ v ∈ a.masks k n (2 ^ b), v < 2 ^ b := by
  have := Nat.one_le_two_pow (n := b)
  intro v hv
  have := masks_lt a k n (2 ^ b) v hv
  omega

/-- USEHINT on hints that are 0 or 1. -/
theorem useHints_eq {q g : Nat} {free : List Nat} : ∀ {a b : List Nat}, a.length ≤ free.length → (∀ h ∈ a, h < 2) →
    (List.zip (List.zip a b) free).map (fun e => if e.1.1 < 2 then useHint q g e.1.1 e.1.2 else e.2) = List.zipWith (useHint q g) a b := by
  induction free with
  | nil => intro a b ha _; simp_all
  | cons c free ih =>
    intro a b ha hh
    match a, b with
    | [], _ => rfl
    | _ :: _, [] => rfl
    | x :: a, y :: b =>
      simp only [List.zip_cons_cons, List.map_cons, List.zipWith_cons_cons]
      rw [if_pos (hh x (by simp)), ih (by simpa using ha) fun h hm => hh h (by simp [hm])]

/-- The width of an operation that has one. -/
theorem width_of_takes {s : State} {t op w : Nat} {f : TileFields} {o : OpSpec} (ho : tileSpec op = some o) (hws : o.ws = [w])
    (h : s.takes t op f = true) : f.w = w := by
  simpa [hws] using (legal_of_wordLegal ho (legal_of_takes h)).width

/-- Settles O21: the layers by `flyLayer_perm`, the others by their definitions on the fields the cases name. -/
theorem microcodedInstructions : Obligations.MicrocodedInstructions := by
  refine ⟨fun s t q n root bits lo k f hq hshape hlo hk hpos hle hfull => ?_, fun s t q g f hq hg hmask => ?_, fun s t q g f hq hg hmask => ?_⟩
  · subst hq
    have hshape' : ∀ op, nttShape (s.tileArg t op f).q = some (n, root, bits) := fun op => by rw [tileArg_modulus]; exact hshape
    have hrun : ∀ op, op = 0x40 ∨ op = 0x41 → s.takes t op f = true → paramOf f = f.imm.toNat ∧ ∀ i, ((s.tile t).pget f.w i).length = 256 := by
      intro op hop h
      have hw : f.w ≤ 1 ∧ f.imm.toNat < 2 ^ 9 := by
        rcases hop with rfl | rfl
        · have hl := legal_of_wordLegal (o := { ws := [0, 1], mod := 2, use := 3, p := 3, pair := 3, imm := 8 }) rfl (legal_of_takes h)
          have := hl.width; have := hl.imm; simp at *; omega
        · have hl := legal_of_wordLegal (o := { ws := [0, 1], mod := 2, use := 3, p := 3, pair := 3, imm := 9 }) rfl (legal_of_takes h)
          have := hl.width; have := hl.imm; simp at *; omega
      refine ⟨Nat.mod_eq_of_lt (by omega), fun i => ?_⟩
      rw [length_pget hfull (by omega)]
      rcases Nat.le_one_iff_eq_zero_or_eq_one.1 hw.1 with h0 | h1
      · rw [h0]; rfl
      · rw [h1]; rfl
    have hlo' : ∀ op, op = 0x40 ∨ op = 0x41 → s.takes t op f = true → lo = paramOf f % 16 ∧ k = nttLayers f := fun op hop h => by
      rw [nttLayers, (hrun op hop h).1]; exact ⟨hlo, hlo ▸ hk⟩
    refine ⟨fun h => ?_, fun h => ?_⟩
    · obtain ⟨hparam, hlen⟩ := hrun _ (.inl rfl) h
      obtain ⟨hlo', hk'⟩ := hlo' _ (.inl rfl) h
      refine congrArg Host.Outcome.next (issueTile_ok h ?_)
      have htr := fun h i => transform_forward (hshape' 0x40) hlo' hk' hpos hle (hlen i) h
      simp only [semNtt, semTransform, tileArg_f, tileArg_x, drawnTile_pget, htr, nttTime, ← hk', tileArg_modulus]
      rfl
    · obtain ⟨hparam, hlen⟩ := hrun _ (.inr rfl) h
      obtain ⟨hlo', hk'⟩ := hlo' _ (.inr rfl) h
      refine congrArg Host.Outcome.next (issueTile_ok h ?_)
      have htr := fun h i => transform_inverse (hshape' 0x41) hlo' hk' hpos hle (hlen i) h
      simp only [semIntt, semTransform, tileArg_f, tileArg_x, drawnTile_pget, htr, nttTime, ← hk', tileArg_modulus, hparam]
      rfl
  · subst hq hg
    have hok : ∀ {d : Nat}, 1 ≤ d → d ≤ 12 → dOk d = true := fun h1 h2 => by simp [dOk, h1, h2]
    have hgamma : paramOf f < 2 → 0 < gamma2 ((s.tile t).q f.w) (paramOf f) → gammaOk ((s.tile t).q f.w) (paramOf f) = true :=
      fun hp hg => by simp [gammaOk, hp, hg]
    refine ⟨fun h h1 h12 => ?_, fun h h1 h12 => ?_, fun h hp hg => ?_, fun h => ?_, fun h hp hg => ?_, fun h hp hg hh hlen => ?_, fun h => ?_⟩
    all_goals refine congrArg Host.Outcome.next (issueTile_ok h ?_)
    · have hx := drawnTile_of_no_draw (s := s) (t := t) (op := 0x46) (f := f) rfl (by simp [maskNeed, hmask]) rfl
      simp [semComp, hok h1 h12, hmask, tileArg_modulus, hx, width_of_takes rfl rfl h]
    · have hx := drawnTile_of_no_draw (s := s) (t := t) (op := 0x47) (f := f) rfl rfl rfl
      simp [semDecompr, hok h1 h12, tileArg_modulus, hx, width_of_takes rfl rfl h]
    · have hx := drawnTile_of_no_draw (s := s) (t := t) (op := 0x48) (f := f) rfl (by simp [maskNeed, hmask]) rfl
      have hw : f.w = 1 := width_of_takes rfl rfl h
      rw [hw] at hgamma
      simp [semDecomp, hgamma hp (hw ▸ hg), hmask, tileArg_modulus, hx, hw, Function.comp_def]
    · have hx := drawnTile_of_no_draw (s := s) (t := t) (op := 0x49) (f := f) rfl rfl rfl
      simp [semP2r, power2Round, tileArg_modulus, hx, width_of_takes rfl rfl h, Function.comp_def]
    · have hx := drawnTile_of_no_draw (s := s) (t := t) (op := 0x4A) (f := f) rfl rfl rfl
      have hw : f.w = 1 := width_of_takes rfl rfl h
      have hhint : ∀ q g, makeHint q g = fun z r => if (decompose q g r).1 ≠ (decompose q g (r + z)).1 then 1 else 0 := fun _ _ => rfl
      rw [hw] at hgamma
      simp [semMkhint, hgamma hp (hw ▸ hg), tileArg_modulus, hx, zip2, hw, hhint]
    · have hx := drawnTile_of_no_draw (s := s) (t := t) (op := 0x4B) (f := f) rfl rfl rfl
      have hw : f.w = 1 := width_of_takes rfl rfl h
      rw [hw] at hgamma hh hlen
      have hfree : ((s.tile t).pget 1 f.a).length ≤ ((s.tileArg t 0x4B f).freshList 0 256 ((s.tile t).q 1)).length := by
        rw [hlen]; simp [TileArg.freshList]
      simp only [semUsehint, tileArg_f, tileArg_x, tileArg_modulus, hw, hgamma hp (hw ▸ hg), hx, nextTile_pget, if_true]
      rw [useHints_eq hfree hh]
    · have hx := drawnTile_of_no_draw (s := s) (t := t) (op := 0x4C) (f := f) rfl rfl rfl
      simp [semNormchk, hmask, tileArg_modulus, hx, normReaches]
  · subst hq hg
    have hfresh : ∀ op k b, ((s.tileArg t op f).masks k 256 (2 ^ b)).length = 256 ∧ ∀ v ∈ (s.tileArg t op f).masks k 256 (2 ^ b), v < 2 ^ b :=
      fun op k b => ⟨length_masks .., masks_lt_two_pow _ _ _ _⟩
    refine ⟨fun h h1 h12 => ⟨_, hfresh 0x46 0 16, ?_⟩, fun h hp hg => ⟨_, _, hfresh 0x48 0 32, hfresh 0x48 1 32, ?_⟩, fun h => ?_,
      fun h hp => ⟨_, hfresh 0x4F 0 (laneBits f.w), ?_⟩, fun h hp => ⟨_, ⟨length_masks (s.tileArg t 0x4F f) 0 256 _, masks_lt _ _ _ _⟩, ?_⟩⟩
    all_goals refine congrArg Host.Outcome.next (issueTile_ok h ?_)
    · have hw : f.w = 0 := width_of_takes rfl rfl h
      have hok : dOk (paramOf f) = true := by simp [dOk, h1, h12]
      simp [semComp, hok, hmask, TileArg.psplit, TileArg.joined, tileArg_modulus, hw, laneBits, zip2]
    · have hw : f.w = 1 := width_of_takes rfl rfl h
      have hok : gammaOk ((s.tile t).q 1) (paramOf f) = true := by simp [gammaOk, hp, hw ▸ hg]
      simp [semDecomp, hok, hmask, TileArg.psplit, TileArg.joined, tileArg_modulus, hw, laneBits, zip2]
    · have hx := drawnTile_of_no_draw (s := s) (t := t) (op := 0x4C) (f := f) rfl rfl rfl
      simp [semNormchk, hmask, tileArg_modulus, hx, normReaches, TileArg.joined, zip2]
    · simp [semConv, hp, TileArg.psplit, TileArg.joined, tileArg_modulus, zip2]; rfl
    · simp [semConv, hp, tileArg_modulus, zip2]; rfl

end Sys2Proof.Machine
end

section
/-! PROOFS. Operand memory: accesses that no check stops, the samplers, CBD and packing (O22). -/

namespace Sys2Proof.Machine

@[simp] theorem drawnTile_bytes (s : State) (t op : Nat) (f : TileFields) (addr n : Nat) :
    (s.drawnTile t op f).bytes addr n = (s.tile t).bytes addr n := by rw [Tile.bytes, drawnTile_mem]; rfl
@[simp] theorem drawnTile_held (s : State) (t op : Nat) (f : TileFields) (addr n : Nat) :
    (s.drawnTile t op f).held addr n = (s.tile t).held addr n := by rw [Tile.held, drawnTile_xfers]; rfl
@[simp] theorem drawnTile_sponge (s : State) (t op : Nat) (f : TileFields) : (s.drawnTile t op f).sponge = (s.tile t).sponge := by
  rw [drawnTile_eq]
@[simp] theorem drawnTile_size (s : State) (t op : Nat) (f : TileFields) : (s.drawnTile t op f).size = (s.tile t).size := by
  rw [drawnTile_eq]
@[simp] theorem drawnTile_vreg (s : State) (t op : Nat) (f : TileFields) (i : Nat) : (s.drawnTile t op f).vreg i = (s.tile t).vreg i := by
  rw [drawnTile_eq]; rfl

/-! ### Accesses -/

theorem watchHit_of_unattached {s : State} {t : Nat} (h : s.attached t = false) (addr n : Nat) (write : Bool) : s.watchHit t addr n write = false := by
  simp [State.watchHit, h]

theorem outOfBounds_read {addr n : Nat} (h : addr + n ≤ 0x30000) : outOfBounds addr n false = false := by
  simp [outOfBounds]; omega

theorem outOfBounds_write {addr n : Nat} (h : 0x100 ≤ addr) (h' : addr + n ≤ 0x2E000) : outOfBounds addr n true = false := by
  simp [outOfBounds]; omega

section
variable {a : TileArg} {addr n align : Nat} {write : Bool}

/-- An access that no check stops. -/
theorem access_ok {go : TileOut} (halign : addr % align = 0) (hbounds : outOfBounds addr n write = false) (hheld : a.x.held addr n = false)
    (hwatch : a.watch addr n write = false) : a.access addr n align write go = go := by
  simp [TileArg.access, halign, hbounds, hheld, hwatch]

/-- The same inside a microcoded instruction that then completes. -/
theorem microAccess_ok {ds : List Nat} {x : Tile} {tc : Nat} (hbounds : outOfBounds addr n write = false) (hheld : a.x.held addr n = false)
    (hwatch : a.watch addr n write = false) : a.microAccess addr n write ds (.ok x tc) = .ok x tc := by
  rw [TileArg.microAccess, access_ok (Nat.mod_one _) hbounds hheld hwatch]

theorem access_align {go : TileOut} (halign : addr % align ≠ 0) : a.access addr n align write go = a.fault 2 addr := by
  simp [TileArg.access, halign]

theorem access_bounds {go : TileOut} (halign : addr % align = 0) (hbounds : outOfBounds addr n write = true) :
    a.access addr n align write go = a.fault 3 addr := by
  simp [TileArg.access, halign, hbounds]

end

theorem tileArg_watch {s : State} {t op : Nat} {f : TileFields} (h : s.attached t = false) (addr n : Nat) (write : Bool) :
    (s.tileArg t op f).watch addr n write = false := watchHit_of_unattached h _ _ _

/-! ### Sponges -/

/-- Sponges that differ at most in their count of permutations. -/
def Sponge.Alike (p r : Sponge) : Prop := ∃ c, r = { p with perms := c }

theorem Sponge.Alike.refl (p : Sponge) : p.Alike p := ⟨p.perms, rfl⟩

/-- A sponge whose count of permutations begins anew. -/
def Sponge.restarted (p : Sponge) : Sponge := { p with perms := 0 }

theorem restarted_alike (p : Sponge) : p.restarted.Alike p := ⟨p.perms, rfl⟩

theorem squeeze1_alike {p r : Sponge} (h : p.Alike r) : p.squeeze1.1 = r.squeeze1.1 ∧ p.squeeze1.2.Alike r.squeeze1.2 := by
  obtain ⟨c, rfl⟩ := h
  by_cases hp : p.pos = spongeRate p.mode
  · simp only [Sponge.squeeze1, hp, if_true]
    exact ⟨rfl, c + 1, rfl⟩
  · simp only [Sponge.squeeze1, hp, if_false]
    exact ⟨rfl, c, rfl⟩

theorem squeeze_alike (n : Nat) : ∀ {p r : Sponge}, p.Alike r → (p.squeeze n).1 = (r.squeeze n).1 ∧ (p.squeeze n).2.Alike (r.squeeze n).2 := by
  induction n with
  | zero => exact fun h => ⟨rfl, h⟩
  | succ n ih =>
    intro p r h
    obtain ⟨hb, h1⟩ := squeeze1_alike h
    obtain ⟨hbs, h2⟩ := ih h1
    exact ⟨by simp only [Sponge.squeeze, hb, hbs], h2⟩

theorem sibDraw_alike (i fuel : Nat) : ∀ {p r : Sponge}, p.Alike r → (sibDraw i fuel p).1 = (sibDraw i fuel r).1 ∧
    (sibDraw i fuel p).2.Alike (sibDraw i fuel r).2 := by
  induction fuel with
  | zero => exact fun h => ⟨rfl, h⟩
  | succ fuel ih =>
    intro p r h
    obtain ⟨hb, h1⟩ := squeeze1_alike h
    simp only [sibDraw, hb]
    split
    · exact ⟨rfl, h1⟩
    · exact ih h1

/-- SampleInBall does not depend on the count of permutations. -/
theorem sampleInBall_alike (q tau : Nat) {p r : Sponge} (h : p.Alike r) : (sampleInBall q tau p).1 = (sampleInBall q tau r).1 := by
  obtain ⟨hsg, hrest⟩ := squeeze_alike 8 h
  unfold sampleInBall
  simp only [hsg]
  generalize List.range tau = ks
  generalize List.replicate 256 0 = l
  revert hrest l
  generalize (p.squeeze 8).2 = p
  generalize (r.squeeze 8).2 = r
  induction ks generalizing p r with
  | nil => exact fun _ _ => rfl
  | cons k ks ih =>
    intro hrest l
    obtain ⟨hj, h1⟩ := sibDraw_alike (256 - tau + k) sampleFuel hrest
    simp only [List.foldl_cons, hj]
    exact ih _ _ h1 _

/-- Output squeezed in two parts. -/
theorem squeeze_add (m n : Nat) : ∀ p : Sponge, p.squeeze (m + n) =
    ((p.squeeze m).1 ++ ((p.squeeze m).2.squeeze n).1, ((p.squeeze m).2.squeeze n).2) := by
  induction m with
  | zero => intro p; simp [Sponge.squeeze]
  | succ m ih =>
    intro p
    rw [Nat.succ_add]
    simp only [Sponge.squeeze, ih, List.cons_append]

theorem length_squeeze (n : Nat) : ∀ p : Sponge, (p.squeeze n).1.length = n := by
  induction n with
  | zero => exact fun _ => rfl
  | succ n ih => exact fun p => congrArg Nat.succ (ih _)

/-- Rejection sampling takes the first candidates of the output. -/
theorem rejSample_take (step : Nat) (cand : Bytes → List Nat) (k : Nat) : ∀ (fuel want : Nat) (p : Sponge), k ≤ fuel →
    want ≤ ((groups step k (p.squeeze (step * k)).1).flatMap cand).length →
    (rejSample step cand fuel want p).1 = ((groups step k (p.squeeze (step * k)).1).flatMap cand).take want := by
  induction k with
  | zero =>
    intro fuel want p _ hw
    obtain rfl : want = 0 := by simpa [groups] using hw
    cases fuel <;> simp [rejSample]
  | succ k ih =>
    intro fuel want p hfuel hw
    obtain ⟨fuel, rfl⟩ : ∃ m, fuel = m + 1 := ⟨fuel - 1, by omega⟩
    have hsplit : groups step (k + 1) (p.squeeze (step * (k + 1))).1 =
        (p.squeeze step).1 :: groups step k ((p.squeeze step).2.squeeze (step * k)).1 := by
      rw [Nat.mul_succ, Nat.add_comm (step * k), squeeze_add, groups.eq_2, List.take_left' (length_squeeze _ _), List.drop_left' (length_squeeze _ _)]
    rw [hsplit, List.flatMap_cons] at hw ⊢
    rw [List.length_append] at hw
    rw [rejSample]
    split
    · next h0 => simp [h0]
    · have hrest := ih fuel (want - ((cand (p.squeeze step).1).take want).length) (p.squeeze step).2 (by omega)
        (by rw [List.length_take]; omega)
      show (cand (p.squeeze step).1).take want ++ (rejSample step cand fuel (want - ((cand (p.squeeze step).1).take want).length) (p.squeeze step).2).1 = _
      rw [hrest, List.take_append, List.length_take, show want - min want (cand (p.squeeze step).1).length = want - (cand (p.squeeze step).1).length by omega]

/-- A sampler whose sponge squeezes and whose candidates suffice. -/
theorem sample_ok {a : TileArg} {step k : Nat} {cand : Bytes → List Nat} (hsq : a.x.sponge.squeezing = true) (hk : k ≤ 4096)
    (hfound : 256 ≤ ((groups step k (a.x.sponge.squeeze (step * k)).1).flatMap cand).length) :
    ∃ p tc, a.sample step cand =
      .ok ({ a.x with sponge := p }.pset a.f.w a.f.d (((groups step k (a.x.sponge.squeeze (step * k)).1).flatMap cand).take 256)) tc := by
  have hbytes := (squeeze_alike (step * k) (restarted_alike a.x.sponge)).1
  have hrej := rejSample_take step cand k sampleFuel 256 a.x.sponge.restarted hk (by rw [hbytes]; exact hfound)
  rw [hbytes] at hrej
  have hlen : (((groups step k (a.x.sponge.squeeze (step * k)).1).flatMap cand).take 256).length = 256 := by rw [List.length_take]; omega
  have hrest : (a.freshList 0 256 a.q).drop 256 = [] := List.drop_eq_nil_of_le (by simp [TileArg.freshList])
  unfold TileArg.sample
  rw [if_neg (by simp [hsq])]
  split
  next l p' heq =>
    have hl : l = _ := (congrArg Prod.fst heq).symm.trans hrej
    subst hl
    exact ⟨p', 32 + 24 * p'.perms, by simp only [hlen, hrest, List.append_nil]⟩

/-- A coefficient as packed or unpacked. -/
theorem tileArg_flip (s : State) (t op : Nat) (f : TileFields) : (s.tileArg t op f).flip =
    fun x => if (paramOf f).testBit 6 then subM ((s.tile t).q f.w) ((s.tile t).sn f.c) x else x := by
  funext x
  simp only [TileArg.flip, tileArg_f, tileArg_x, tileArg_modulus, drawnTile_sn]

/-- The sponge after SIB, which squeezes at least three blocks. -/
def sibSponge (q tau : Nat) (p : Sponge) : Sponge :=
  if (sampleInBall q tau p.restarted).2.perms < 2 then (p.restarted.squeeze (3 * spongeRate p.mode)).2
  else { (sampleInBall q tau p.restarted).2 with pos := spongeRate p.mode }

/-- SIB on a sponge that squeezes. -/
theorem semSib_ok {a : TileArg} (hsq : a.x.sponge.squeezing = true) (htau : paramOf a.f ≤ 64) : ∃ p tc, 136 ≤ tc ∧
    semSib a = .ok ({ a.x with sponge := p }.pset 1 a.f.d (sampleInBall a.q (paramOf a.f) a.x.sponge).1) tc := by
  have hballs := sampleInBall_alike a.q (paramOf a.f) (restarted_alike a.x.sponge)
  unfold semSib
  simp only [if_neg (show ¬ (!a.x.sponge.squeezing) = true by simp [hsq]), if_pos htau]
  refine ⟨sibSponge a.q (paramOf a.f) a.x.sponge, 136 + 24 * ((sibSponge a.q (paramOf a.f) a.x.sponge).perms - 2), Nat.le_add_right _ _, ?_⟩
  rw [← hballs]
  rfl

/-- Settles O22: a sampler takes the candidates of its sponge's output in order; the others are the accesses no check stops. -/
theorem samplersAndPackingComplete : Obligations.SamplersAndPackingComplete := by
  refine ⟨fun s t eta n q a f h hatt heta h23 hn hq ha => ⟨fun hm hend hheld => ?_, fun hm hend hheld => ?_⟩,
    fun s t step k f cand hsq hk hfound => ⟨fun h hstep hcand => ?_, fun h hstep hcand => ?_⟩, fun s t f h hsq htau => ?_,
    fun s t b a f hatt hb h1 h32 ha => ⟨fun h hlo hhi hheld => ?_, fun h hend hheld => ?_⟩⟩
  · subst heta hn hq ha
    have hx := drawnTile_of_no_draw (s := s) (t := t) (op := 0x42) (f := f) rfl (by simp [maskNeed, hm]) rfl
    have hdef : ¬ (paramOf f ≠ 2 ∧ paramOf f ≠ 3) := by omega
    refine congrArg Host.Outcome.next (issueTile_ok h ?_)
    simp only [semCbd, tileArg_f, tileArg_x, hx, hdef, hm, if_false, Bool.false_eq_true, tileArg_modulus, nextTile_sn, Nat.mul_one]
    exact microAccess_ok (outOfBounds_read hend) (by simpa using hheld) (tileArg_watch hatt _ _ _)
  · subst heta hn hq ha
    have hdef : ¬ (paramOf f ≠ 2 ∧ paramOf f ≠ 3) := by omega
    refine ⟨(s.tileArg t 0x42 f).masks 0 256 ((s.tile t).q f.w), length_masks .., masks_lt _ _ _ _, congrArg Host.Outcome.next (issueTile_ok h ?_)⟩
    simp only [semCbd, tileArg_f, tileArg_x, hdef, hm, if_false, if_true, tileArg_modulus, drawnTile_sn, drawnTile_bytes]
    refine (microAccess_ok (outOfBounds_read hend) (by simpa using hheld) (tileArg_watch hatt _ _ _)).trans ?_
    have htime : (if paramOf f = 3 then 24 else 16) * 3 = if paramOf f = 3 then 72 else 48 := by split <;> rfl
    exact congrArg (TileOut.ok _) htime
  · subst hstep
    have hx := drawnTile_of_no_draw (s := s) (t := t) (op := 0x43) (f := f) rfl rfl rfl
    obtain ⟨p, tc, hp⟩ := sample_ok (a := s.tileArg t 0x43 f) (step := 3) (k := k) (cand := cand) (by simpa using hsq) hk (by simpa using hfound)
    refine ⟨p, tc, congrArg Host.Outcome.next (issueTile_ok h ?_)⟩
    rw [tileArg_f, tileArg_x, drawnTile_sponge, hx] at hp
    rw [← hp]
    obtain ⟨hparam, rfl⟩ | ⟨hparam, rfl⟩ := hcand <;> simp only [semSampu, tileArg_f, hparam, tileArg_modulus]
  · subst hstep
    have hx := drawnTile_of_no_draw (s := s) (t := t) (op := 0x44) (f := f) rfl rfl rfl
    obtain ⟨p, tc, hp⟩ := sample_ok (a := s.tileArg t 0x44 f) (step := 1) (k := k) (cand := cand) (by simpa using hsq) hk (by simpa using hfound)
    refine ⟨p, tc, congrArg Host.Outcome.next (issueTile_ok h ?_)⟩
    rw [tileArg_f, tileArg_x, drawnTile_sponge, hx] at hp
    rw [← hp]
    simp only [semSampeta, tileArg_f, hcand, tileArg_modulus]
  · have hx := drawnTile_of_no_draw (s := s) (t := t) (op := 0x45) (f := f) rfl rfl rfl
    obtain ⟨p, tc, htc, hp⟩ := semSib_ok (a := s.tileArg t 0x45 f) (by simpa using hsq) htau
    rw [tileArg_f, tileArg_x, tileArg_modulus, drawnTile_sponge, hx] at hp
    exact ⟨p, tc, htc, congrArg Host.Outcome.next (issueTile_ok h hp)⟩
  · subst hb ha
    have hx := drawnTile_of_no_draw (s := s) (t := t) (op := 0x4D) (f := f) rfl rfl rfl
    refine congrArg Host.Outcome.next (issueTile_ok h ?_)
    have hb : packBits f = paramOf f % 64 := rfl
    simp only [semPack, tileArg_f, tileArg_x, hx, nextTile_sn, nextTile_pget, packTime, hb, h1, h32, and_self, if_true]
    exact (microAccess_ok (outOfBounds_write hlo hhi) (by simpa using hheld) (tileArg_watch hatt _ _ _)).trans (by rw [tileArg_flip])
  · subst hb ha
    have hx := drawnTile_of_no_draw (s := s) (t := t) (op := 0x4E) (f := f) rfl rfl rfl
    refine congrArg Host.Outcome.next (issueTile_ok h ?_)
    have hb : packBits f = paramOf f % 64 := rfl
    simp only [semUnpack, tileArg_f, tileArg_x, hx, nextTile_sn, packTime, hb, h1, h32, and_self, if_true]
    exact (microAccess_ok (outOfBounds_read hend) (by simpa using hheld) (tileArg_watch hatt _ _ _)).trans (by rw [tileArg_flip]; rfl)

end Sys2Proof.Machine
end

section
/-! PROOFS. Loads and stores of operand memory (O23): whatever the order of beats, a long store leaves the bytes of a whole one. -/

namespace Sys2Proof.Machine

/-! ### Long loads and stores -/

section
variable {a : TileArg} (ha : a.AtStart) (halign : a.addr % 64 = 0) (hwatch : ∀ addr n write, a.watch addr n write = false)
include ha halign hwatch

/-- LDP and STP that no check stops run their beats in their order. -/
theorem semLong_eq (write : Bool) (hbounds : outOfBounds a.addr (beatBytes * beatCount a.f) write = false)
    (hheld : a.x.held a.addr (beatBytes * beatCount a.f) = false) :
    semLong write a = .ok (a.ctx.order.foldl (if write then a.storeBeat else a.loadBeat) a.x) (longTime a.f) := by
  have hlen : a.ctx.order.length = beatCount a.f := by rw [ha.order.length_eq, List.length_range]
  simp only [semLong, if_neg (show ¬ a.addr % 64 ≠ 0 by omega), hbounds, hheld, hwatch, Bool.false_eq_true, if_false]
  rw [runBeats_eq ha _ _ _ _ _ _ (by omega)]
  simp [TileArg.first, ha.resume]

end

/-- Beat `b` of share `h` of a load. -/
def TileArg.loadShare (a : TileArg) (x : Tile) (h b : Nat) : Tile :=
  x.beatSet a.f.w (a.f.d + h) b (a.lanes (fun k => leNat (x.bytes (a.addr + beatBytes * (a.perReg * h + b) + laneBytes a.f.w * k) (laneBytes a.f.w))))

theorem loadBeat_eq (a : TileArg) (x : Tile) (b : Nat) : a.loadBeat x b = a.loadShare x (beatPlace a.f b).1 (beatPlace a.f b).2 := by
  have hb : a.perReg * (beatPlace a.f b).1 + (beatPlace a.f b).2 = b := Nat.div_add_mod _ _
  rw [TileArg.loadShare, hb]; rfl

/-- Lanes of a register in memory. -/
def TileArg.loaded (a : TileArg) (h : Nat) : List Nat :=
  (List.range (beatLanes a.f.w * (256 / beatElems a.f.w))).map
    (fun k => leNat (a.x.bytes (a.addr + h * (beatBytes * a.perReg) + laneBytes a.f.w * k) (laneBytes a.f.w)))

theorem laneBytes_mul {w : Nat} (hw : w ≤ 2) : laneBytes w * beatLanes w = beatBytes := by
  rcases width_cases hw with rfl | rfl | rfl <;> rfl

/-- LDP brings in the lanes of each register. -/
theorem semLdp_ok {a : TileArg} (ha : a.AtStart) (hw : a.f.w ≤ 2) (halign : a.addr % 64 = 0) (hwatch : ∀ addr n write, a.watch addr n write = false)
    (hbounds : outOfBounds a.addr (beatBytes * beatCount a.f) false = false) (hheld : a.x.held a.addr (beatBytes * beatCount a.f) = false) :
    ∃ y, semLdp a = .ok y (longTime a.f) ∧ y.Alike (sharesSet a.x a.f a.loaded) := by
  have hlong : semLdp a = a.long a.loadShare := by
    rw [semLdp, semLong_eq ha halign hwatch false hbounds hheld, long_eq ha]
    simp only [Bool.false_eq_true, if_false, funext fun x => funext fun b => loadBeat_eq a x b]
  rw [hlong]
  refine long_shares ha hw (fun h _ => by simp [TileArg.loaded]) fun x h b hh hb _ hbut _ => ?_
  have hbytes : ∀ addr n, x.bytes addr n = a.x.bytes addr n := fun addr n => by
    unfold Tile.ButP at hbut
    rw [← hbut]; rfl
  rw [TileArg.loadShare, lanes_eq ha]
  congr 1
  refine List.ext_getElem? fun k => ?_
  by_cases hk : k < beatLanes a.f.w
  · have hin : beatLanes a.f.w * b + k < beatLanes a.f.w * (256 / beatElems a.f.w) :=
      calc beatLanes a.f.w * b + k < beatLanes a.f.w * (b + 1) := by rw [Nat.mul_succ]; omega
        _ ≤ _ := Nat.mul_le_mul_left _ hb
    have haddr : a.addr + beatBytes * (a.perReg * h + b) + laneBytes a.f.w * k =
        a.addr + h * (beatBytes * a.perReg) + laneBytes a.f.w * (beatLanes a.f.w * b + k) := by
      rw [Nat.mul_add (laneBytes _), ← Nat.mul_assoc (laneBytes _), laneBytes_mul hw]; ring
    rw [getElem?_piece hk, TileArg.loaded, List.getElem?_map, List.getElem?_map, List.getElem?_range hk, List.getElem?_range hin]
    simp only [Option.map_some, hbytes, haddr]
  · rw [List.getElem?_eq_none (by simpa using hk), List.getElem?_eq_none]
    rw [length_piece (by rw [TileArg.loaded, List.length_map, List.length_range]; exact Nat.mul_le_mul_left _ hb)]
    omega

/-! ### Stores in pieces -/

section
variable {α β : Type} {c : Nat} {f : α → List β} (hf : ∀ x, (f x).length = c)
include hf

theorem drop_flatMap (k : Nat) : ∀ l : List α, (l.flatMap f).drop (c * k) = (l.drop k).flatMap f := by
  induction k with
  | zero => simp
  | succ k ih =>
    intro l
    cases l with
    | nil => simp
    | cons x l => rw [Nat.mul_succ, Nat.add_comm, ← List.drop_drop, List.flatMap_cons, List.drop_left' (hf x), ih, List.drop_succ_cons]

theorem take_flatMap (k : Nat) : ∀ l : List α, (l.flatMap f).take (c * k) = (l.take k).flatMap f := by
  induction k with
  | zero => simp
  | succ k ih =>
    intro l
    cases l with
    | nil => simp
    | cons x l => rw [Nat.mul_succ, Nat.add_comm, List.flatMap_cons, List.take_succ_cons, List.flatMap_cons, ← hf x, List.take_length_add_append, hf x, ih]

/-- A piece of entries written out. -/
theorem piece_flatMap (n b : Nat) (l : List α) : piece (c * n) b (l.flatMap f) = (piece n b l).flatMap f := by
  rw [piece, Nat.mul_assoc, drop_flatMap hf, take_flatMap hf, piece]

theorem length_flatMap_const (l : List α) : (l.flatMap f).length = c * l.length := by
  rw [List.length_flatMap, List.map_congr_left fun x _ => hf x, List.map_const', List.sum_replicate, smul_eq_mul, Nat.mul_comm]

end

/-- Pieces of a list written one by one leave its bytes. -/
theorem get_writePieces (addr n : Nat) (out : Bytes) : ∀ (order : List Nat) {m : List (Nat × Byte)}, Memory.wf m = true →
    (∀ b ∈ order, n * (b + 1) ≤ out.length) →
    Memory.wf (order.foldl (fun m b => Memory.write (addr + n * b) (piece n b out) m) m) = true ∧
      ∀ z, Memory.get z (order.foldl (fun m b => Memory.write (addr + n * b) (piece n b out) m) m) =
        if ∃ b ∈ order, addr + n * b ≤ z ∧ z < addr + n * b + n then out.getD (z - addr) 0 else Memory.get z m := by
  intro order
  induction order with
  | nil => intro m hm _; exact ⟨hm, fun z => by simp⟩
  | cons b order ih =>
    intro m hm hle
    obtain ⟨hwf, hget⟩ := ih (Memory.write_wf (piece n b out) (addr + n * b) hm) fun b hb => hle b (by simp [hb])
    refine ⟨hwf, fun z => ?_⟩
    have hlen := length_piece (hle b (by simp))
    rw [List.foldl_cons, hget z, Memory.get_write _ _ _ hm, hlen]
    by_cases hrest : ∃ b ∈ order, addr + n * b ≤ z ∧ z < addr + n * b + n
    · rw [if_pos hrest, if_pos (hrest.imp fun b hb => ⟨by simp [hb.1], hb.2⟩)]
    · rw [if_neg hrest]
      by_cases hnow : addr + n * b ≤ z ∧ z < addr + n * b + n
      · have hz : n * b + (z - (addr + n * b)) = z - addr := by omega
        rw [if_pos hnow, if_pos ⟨b, by simp, hnow⟩, List.getD_eq_getElem?_getD, getElem?_piece (by omega), hz, List.getD_eq_getElem?_getD]
      · rw [if_neg hnow, if_neg]
        rintro ⟨b', hb', hz⟩
        rcases List.mem_cons.1 hb' with rfl | hb'
        · exact hnow hz
        · exact hrest ⟨b', hb', hz⟩

theorem length_leBytes (n : Nat) : ∀ v : Nat, (leBytes n v).length = n := by
  induction n with
  | zero => exact fun _ => rfl
  | succ n ih => exact fun v => congrArg Nat.succ (ih _)

/-- The lanes that STP stores. -/
def TileArg.stored (a : TileArg) : List Nat :=
  a.x.pget a.f.w a.f.d ++ if isMasked a.f then a.x.pget a.f.w (a.f.d + 1) else []

section
variable {a : TileArg} (ha : a.AtStart) (hw : a.f.w ≤ 2)
include ha hw

theorem length_stored : a.stored.length = beatLanes a.f.w * beatCount a.f := by
  rw [beatCount_eq, TileArg.stored, List.length_append, length_pget ha.full hw, shareCount]
  split
  · rw [length_pget ha.full hw]; ring
  · simp

/-- The lanes of a beat of the instruction. -/
theorem piece_stored {b : Nat} (hb : b < beatCount a.f) :
    piece (beatLanes a.f.w) b a.stored = lanesOf a.f.w (a.x.words a.f.w (a.f.d + (beatPlace a.f b).1) (beatPlace a.f b).2) := by
  have hpos : 0 < a.perReg := perReg_pos a
  have hdm := Nat.div_add_mod b a.perReg
  have hlen := length_pget ha.full hw a.f.d
  rw [lanesOf_words hw]
  change piece _ b a.stored = piece _ (b % a.perReg) (a.x.pget a.f.w (a.f.d + b / a.perReg))
  rw [beatCount_eq] at hb
  have hshare : b / a.perReg < shareCount a.f := Nat.div_lt_of_lt_mul hb
  have hmod := Nat.mod_lt b hpos
  have hin : beatLanes a.f.w * (b % a.perReg + 1) ≤ beatLanes a.f.w * a.perReg := Nat.mul_le_mul_left _ hmod
  rw [Nat.mul_succ] at hin
  have hlen' : (a.x.pget a.f.w a.f.d).length = beatLanes a.f.w * a.perReg := hlen
  generalize b / a.perReg = h at *
  generalize b % a.perReg = r at *
  refine List.ext_getElem? fun k => ?_
  by_cases hk : k < beatLanes a.f.w
  · rw [getElem?_piece hk, getElem?_piece hk, TileArg.stored]
    unfold shareCount at hshare
    have hcases : h = 0 ∨ (h = 1 ∧ isMasked a.f = true) := by
      split at hshare
      · next hm => simp only [hm, and_true]; omega
      · omega
    rcases hcases with rfl | ⟨rfl, hm⟩
    · obtain rfl : b = r := by omega
      rw [List.getElem?_append_left (by rw [hlen']; omega)]; rfl
    · have hb' : beatLanes a.f.w * b = beatLanes a.f.w * a.perReg + beatLanes a.f.w * r := by
        rw [← Nat.mul_add]; congr 1; omega
      rw [List.getElem?_append_right (by rw [hlen']; omega), hlen', hb', if_pos hm]
      congr 1
      omega
  · rw [List.getElem?_eq_none (by simp [piece]; omega), List.getElem?_eq_none (by simp [piece]; omega)]

/-- A beat of a store on a tile whose registers still stand. -/
theorem storeBeat_eq {x : Tile} (hp : x.p = a.x.p) {b : Nat} (hb : b < beatCount a.f) :
    a.storeBeat x b = x.store (a.addr + beatBytes * b) (piece beatBytes b (a.stored.flatMap (leBytes (laneBytes a.f.w)))) := by
  have hle : beatLanes a.f.w * (b + 1) ≤ a.stored.length := by rw [length_stored ha hw]; exact Nat.mul_le_mul_left _ hb
  have hd : x.beatGet a.f.w (a.f.d + (beatPlace a.f b).1) (beatPlace a.f b).2 = piece (beatLanes a.f.w) b a.stored := by
    rw [piece_stored ha hw hb, beatGet_eq, Tile.words, Tile.preg, hp]; rfl
  rw [TileArg.storeBeat, hd, lanes_eq ha, map_range_entry (length_piece hle) (fun v => v), List.map_id', ← laneBytes_mul hw,
    piece_flatMap (fun v => length_leBytes _ v)]

/-- STP leaves the bytes of its registers in memory, and nothing else. -/
theorem semStp_ok (halign : a.addr % 64 = 0) (hwatch : ∀ addr n write, a.watch addr n write = false)
    (hbounds : outOfBounds a.addr (beatBytes * beatCount a.f) true = false) (hheld : a.x.held a.addr (beatBytes * beatCount a.f) = false)
    (hmem : Memory.wf a.x.mem = true) :
    ∃ m, semStp a = .ok { a.x with mem := m } (longTime a.f) ∧ Memory.wf m = true ∧
      ∀ z, Memory.get z m = Memory.get z (Memory.write a.addr (a.stored.flatMap (leBytes (laneBytes a.f.w))) a.x.mem) := by
  set out := a.stored.flatMap (leBytes (laneBytes a.f.w)) with hout
  have hlen : out.length = beatBytes * beatCount a.f := by
    rw [hout, length_flatMap_const fun v => length_leBytes _ v, length_stored ha hw, ← Nat.mul_assoc, laneBytes_mul hw]
  have hmemb : ∀ b, b ∈ a.ctx.order ↔ b < beatCount a.f := fun b => by rw [ha.order.mem_iff, List.mem_range]
  have hfold : ∀ (order : List Nat) (m : List (Nat × Byte)), (∀ b ∈ order, b < beatCount a.f) →
      order.foldl a.storeBeat { a.x with mem := m } =
        { a.x with mem := order.foldl (fun m b => Memory.write (a.addr + beatBytes * b) (piece beatBytes b out) m) m } := by
    intro order
    induction order with
    | nil => exact fun m _ => rfl
    | cons b order ih =>
      intro m hlt
      rw [List.foldl_cons, storeBeat_eq ha hw (by rfl) (hlt b (by simp))]
      exact ih _ fun b hb => hlt b (by simp [hb])
  obtain ⟨hwf, hget⟩ := get_writePieces a.addr beatBytes out a.ctx.order hmem fun b hb => by
    rw [hlen]; exact Nat.mul_le_mul_left _ ((hmemb b).1 hb)
  refine ⟨_, ?_, hwf, fun z => ?_⟩
  · rw [semStp, semLong_eq ha halign hwatch true hbounds hheld, if_pos rfl]
    exact congrArg (fun x => TileOut.ok x _) (hfold a.ctx.order a.x.mem fun b hb => (hmemb b).1 hb)
  · rw [hget z, Memory.get_write _ _ _ hmem, hlen]
    refine if_congr ⟨fun ⟨b, hb, h1, h2⟩ => ?_, fun ⟨h1, h2⟩ => ⟨(z - a.addr) / beatBytes, (hmemb _).2 ?_, ?_, ?_⟩⟩ rfl rfl
    · have := (hmemb b).1 hb
      have : beatBytes * (b + 1) ≤ beatBytes * beatCount a.f := Nat.mul_le_mul_left _ this
      rw [Nat.mul_succ] at this
      omega
    · exact Nat.div_lt_of_lt_mul (by omega)
    · have := Nat.div_mul_le_self (z - a.addr) beatBytes
      rw [Nat.mul_comm]; omega
    · have := Nat.lt_div_mul_add (a := z - a.addr) (b := beatBytes) (by decide)
      rw [Nat.mul_comm]; omega

end

/-! ### Gathers -/

/-- The elements that LDPX brings in. -/
def TileArg.gathered (a : TileArg) : List Word := (List.range 256).map (fun i => BitVec.ofNat 32 (leNat (a.x.bytes (a.gatherAddr a.x i) 4)))

/-- The tile after `k` beats of LDPX. -/
structure TileArg.Gathering (a : TileArg) (k : Nat) (x : Tile) : Prop where
  full : x.full = true
  butP : a.x.ButP x
  preg : ∀ i, x.preg i = if i = a.f.d then a.gathered.take (32 * k) ++ (a.x.preg i).drop (32 * k) else a.x.preg i

/-- Tiles that differ in their table of long-vector registers alone are alike when the registers are. -/
theorem alike_of_butP {x y z : Tile} (hy : x.ButP y) (hz : x.ButP z) (h : ∀ i, y.preg i = z.preg i) : y.Alike z :=
  ⟨h, hz ▸ congrArg (fun y : Tile => { y with p := z.p }) hy.symm⟩

section
variable {a : TileArg} (hfull : a.x.full = true) (hhalt : a.haltIn = none) (hwatch : ∀ addr n write, a.watch addr n write = false)
  (hat : ∀ i, i < 256 → a.gatherAddr a.x i % 4 = 0 ∧ a.gatherAddr a.x i + 4 ≤ 0x30000)

/-- Elements not brought in yet still name their own address. -/
theorem TileArg.Gathering.addr {k : Nat} {x : Tile} (hx : a.Gathering k x) (hk : k < 8) (j : Nat) :
    a.gatherAddr x (32 * k + j) = a.gatherAddr a.x (32 * k + j) := by
  have hlen : (a.gathered.take (32 * k)).length = 32 * k := by simp [TileArg.gathered]; omega
  have : (x.preg a.f.b)[32 * k + j]? = (a.x.preg a.f.b)[32 * k + j]? := by
    rw [hx.preg]
    split
    · rw [List.getElem?_append_right (by omega), hlen, List.getElem?_drop]
      congr 1; omega
    · rfl
  rw [TileArg.gatherAddr, this, TileArg.gatherAddr]

/-- A beat of LDPX. -/
theorem TileArg.Gathering.beat {k : Nat} {x : Tile} (hx : a.Gathering k x) (hk : k < 8) :
    a.Gathering (k + 1) (x.psetAt a.f.d (32 * k)
      (((List.range 32).map (fun i => a.gatherAddr x (32 * k + i))).map (fun p => BitVec.ofNat 32 (leNat (x.bytes p 4))))) := by
  have hbytes : ∀ addr n, x.bytes addr n = a.x.bytes addr n := fun addr n => by
    have := hx.butP
    unfold Tile.ButP at this
    rw [← this]; rfl
  have hpiece : ((List.range 32).map (fun i => a.gatherAddr x (32 * k + i))).map (fun p => BitVec.ofNat 32 (leNat (x.bytes p 4))) =
      piece 32 k a.gathered := by
    refine List.ext_getElem? fun j => ?_
    by_cases hj : j < 32
    · have hin : 32 * k + j < 256 := by omega
      rw [getElem?_piece hj, TileArg.gathered, List.getElem?_map, List.getElem?_map, List.getElem?_map, List.getElem?_range hj,
        List.getElem?_range hin]
      simp only [Option.map_some, hx.addr hk, hbytes]
    · rw [List.getElem?_eq_none (by simpa using hj), List.getElem?_eq_none (by simp [piece]; omega)]
  have hlen : (piece 32 k a.gathered).length = 32 := length_piece (by simp [TileArg.gathered]; omega)
  rw [hpiece]
  have hpreg : ∀ i, (x.psetAt a.f.d (32 * k) (piece 32 k a.gathered)).preg i =
      if i = a.f.d then a.gathered.take (32 * (k + 1)) ++ (a.x.preg i).drop (32 * (k + 1)) else a.x.preg i := by
    intro i
    rw [preg_psetAt]
    by_cases hi : a.f.d = i
    · subst hi
      have htake : (a.gathered.take (32 * k)).length = 32 * k := by simp [TileArg.gathered]; omega
      rw [if_pos rfl, if_pos rfl, hx.preg, if_pos rfl, hlen, Nat.mul_succ, List.take_add, List.take_left' htake,
        List.drop_append, htake, List.drop_eq_nil_of_le (as := a.gathered.take (32 * k)) (by omega), List.nil_append, List.drop_drop]
      congr 2; omega
    · rw [if_neg hi, if_neg (Ne.symm hi), hx.preg, if_neg (Ne.symm hi)]
  refine ⟨?_, hx.butP.trans rfl, hpreg⟩
  have hxfull := hx.full
  have hxlen := length_preg hx.full a.f.d
  simp only [Tile.full, List.all_eq_true, beq_iff_eq] at hxfull ⊢
  refine full_tset hxfull ?_ _
  simp [hlen, hxlen]; omega

include hhalt hwatch hat

/-- The beats of LDPX one after another. -/
theorem runGather_ok : ∀ (fuel k : Nat) (x : Tile), k ≤ 8 → 8 < k + fuel → a.Gathering k x →
    ∃ y, a.runGather fuel k x = .ok y (a.took 32 8) ∧ a.Gathering 8 y := by
  intro fuel
  induction fuel with
  | zero => intro k x _ hlt _; omega
  | succ fuel ih =>
    intro k x hk hlt hx
    by_cases h8 : k = 8
    · subst h8
      exact ⟨x, by rw [TileArg.runGather, if_pos (Nat.le_refl 8)], hx⟩
    · have hk8 : k < 8 := by omega
      have hfine : ((List.range 32).map (fun i => a.gatherAddr x (32 * k + i))).find? (fun p => p % 4 != 0 || outOfBounds p 4 false) = none := by
        rw [List.find?_eq_none]
        intro p hp
        obtain ⟨i, hi, rfl⟩ := List.mem_map.1 hp
        rw [List.mem_range] at hi
        rw [hx.addr hk8]
        obtain ⟨hmod, hend⟩ := hat (32 * k + i) (by omega)
        simp [hmod, outOfBounds_read hend]
      have hunwatched : ((List.range 32).map (fun i => a.gatherAddr x (32 * k + i))).find? (fun p => a.watch p 4 false) = none := by
        simp [hwatch]
      obtain ⟨y, hy, hgath⟩ := ih (k + 1) _ (by omega) (by omega) (hx.beat hk8)
      refine ⟨y, ?_, hgath⟩
      rw [TileArg.runGather, if_neg (by omega)]
      simp only [TileArg.haltsAt, hhalt, Bool.false_eq_true, if_false, hfine, hunwatched]
      exact hy

include hfull

/-- LDPX brings in its elements, whatever register its addresses stand in. -/
theorem semLdpx_ok (hresume : a.resume = 0) (hheld : ∀ i, i < 256 → a.x.held (a.gatherAddr a.x i) 4 = false) :
    ∃ y, semLdpx a = .ok y (a.took 32 8) ∧
      y.Alike (a.x.pset 1 a.f.d ((List.range 256).map (fun i => leNat (a.x.bytes (a.gatherAddr a.x i) 4)))) := by
  have hstart : a.Gathering 0 a.x := ⟨hfull, .refl _, fun i => by simp⟩
  have hfirst : a.first = 0 := by simp [TileArg.first, hresume]
  have hfree : ((List.range 256).any (fun i => a.x.held (a.gatherAddr a.x i) 4)) = false := by
    rw [List.any_eq_false]
    intro i hi
    simp [hheld i (List.mem_range.1 hi)]
  obtain ⟨y, hy, hgath⟩ := runGather_ok hhalt hwatch hat 9 0 a.x (by omega) (by omega) hstart
  refine ⟨y, by rw [semLdpx, hfree, hfirst]; simpa using hy, alike_of_butP hgath.butP (butP_pset ..) fun i => ?_⟩
  · rw [hgath.preg, preg_pset]
    by_cases hi : i = a.f.d
    · have hdrop : (a.x.preg i).drop 256 = [] := List.drop_eq_nil_of_le (length_preg hfull i).le
      have htake : a.gathered.take 256 = a.gathered := List.take_of_length_le (by simp [TileArg.gathered])
      rw [if_pos hi, if_pos hi.symm, hdrop, htake, List.append_nil]
      simp [TileArg.gathered, elemsOf]
    · rw [if_neg hi, if_neg (Ne.symm hi)]

end

/-- The address of format M. -/
theorem tileArg_addr (s : State) (t op : Nat) (f : TileFields) :
    (s.tileArg t op f).addr = ((s.tile t).sreg f.a + f.imm.signExtend 32).toNat := by
  rw [TileArg.addr, tileArg_x, drawnTile_sreg]; rfl

/-- Settles O23: the accesses no check stops, the beats of the long ones in any order. -/
theorem tileLoadsAndStores : Obligations.TileLoadsAndStores := by
  refine ⟨fun s t f addr haddr hatt => ?_, fun s t addr n f haddr hatt hfull hn => ?_, fun s t addr f haddr e he h => ?_⟩
  · have hone : ∀ op n align write (i : Instr) (go : TileArg → Tile), isBeats op = false → maskNeed op f = 0 → flyNeed op f = 0 →
        exec i s = .next (s.issueTile t op f fun a => a.access a.addr n align write (.one (go a))) → s.takes t op f = true →
        addr % align = 0 → outOfBounds addr n write = false → (s.tile t).held addr n = false →
        exec i s = .next (s.tileDone t (go (s.tileArg t op f)) 1) := by
      intro op n align write i go hbeats hmask hfly hi h halign hbounds hheld
      rw [hi]
      refine congrArg Host.Outcome.next (issueTile_ok h ?_)
      rw [tileArg_addr, ← haddr]
      exact access_ok halign hbounds (by simpa using hheld) (tileArg_watch hatt _ _ _)
    have hx := fun op hb hm hf => drawnTile_of_no_draw (s := s) (t := t) (op := op) (f := f) hb hm hf
    refine ⟨fun h halign hend hheld => ?_, fun h halign hlo hend hheld => ?_, fun h halign hend hheld => ?_, fun h halign hlo hend hheld => ?_⟩
    · rw [hone 0x50 4 4 false (.lds t f) (fun a => a.x.setS a.f.d (BitVec.ofNat 32 (leNat (a.x.bytes a.addr 4)))) rfl rfl rfl rfl h halign
        (outOfBounds_read hend) hheld]
      simp only [tileArg_x, tileArg_f, tileArg_addr, ← haddr, hx 0x50 rfl rfl rfl]
      rfl
    · rw [hone 0x51 4 4 true (.sts t f) (fun a => a.x.store a.addr (leBytes 4 (a.x.sn a.f.d))) rfl rfl rfl rfl h halign
        (outOfBounds_write hlo hend) hheld]
      simp only [tileArg_x, tileArg_f, tileArg_addr, ← haddr, hx 0x51 rfl rfl rfl]
      rfl
    · rw [hone 0x52 32 32 false (.ldv t f) (fun a => { a.x with v := tset a.f.d (BitVec.ofNat 256 (leNat (a.x.bytes a.addr 32))) a.x.v }) rfl rfl
        rfl rfl h halign (outOfBounds_read hend) hheld]
      simp only [tileArg_x, tileArg_f, tileArg_addr, ← haddr, hx 0x52 rfl rfl rfl]
      rfl
    · rw [hone 0x53 32 32 true (.stv t f) (fun a => a.x.store a.addr (leBytes 32 (a.x.vreg a.f.d).toNat)) rfl rfl rfl rfl h halign
        (outOfBounds_write hlo hend) hheld]
      simp only [tileArg_x, tileArg_f, tileArg_addr, ← haddr, hx 0x53 rfl rfl rfl]
      rfl
  · have hwatch : ∀ op addr n write, (s.tileArg t op f).watch addr n write = false := fun op => tileArg_watch hatt
    have haddr' : ∀ op, (s.tileArg t op f).addr = addr := fun op => (tileArg_addr ..).trans haddr.symm
    have hper : f.w ≤ 2 → n = beatBytes * (256 / beatElems f.w) := by
      intro hw
      rw [hn]
      rcases width_cases hw with h | h | h <;> rw [h] <;> rfl
    have hcount : f.w ≤ 2 → (isMasked f = false → beatBytes * beatCount f = n) ∧ (isMasked f = true → beatBytes * beatCount f = 2 * n) := by
      intro hw
      rw [hper hw, beatCount]
      exact ⟨fun hm => by simp [hm], fun hm => by simp only [hm, if_true]; ring⟩
    refine ⟨fun h halign => ?_, fun h halign hlo hmem => ?_, fun h hat => ?_⟩
    · obtain ⟨hl, hw, ha⟩ := long_start (o := { ws := [0, 1, 2], mod := 2, use := 3, p := 1, pair := 1, imm := 30 }) rfl rfl (by decide) h hfull
      have hload : ∀ k, (s.tileArg t 0x54 f).loaded k = (List.range (n / (2 * 2 ^ f.w))).map
          (fun i => leNat ((s.tile t).bytes (addr + k * n + 2 * 2 ^ f.w * i) (2 * 2 ^ f.w))) := by
        intro k
        have hlanes : beatLanes f.w * (256 / beatElems f.w) = n / (2 * 2 ^ f.w) := by
          rw [hn]
          rcases width_cases hw with h | h | h <;> rw [h] <;> rfl
        rw [← hlanes]
        simp only [TileArg.loaded, tileArg_f, tileArg_x, haddr', drawnTile_bytes, TileArg.perReg, laneBytes, ← hper hw]
      have hall := fun hb hh => exec_long (i := .ldp t f) rfl h (semLdp_ok ha hw (by rw [haddr']; exact halign) (hwatch _) hb hh)
      simp only [haddr', tileArg_f, tileArg_x, drawnTile_held, hload] at hall
      refine ⟨fun hm hend hheld => ?_, fun hm hend hheld => ?_⟩
      · rw [(hcount hw).1 hm] at hall
        exact (hall (outOfBounds_read hend) hheld).1 hm
      · rw [(hcount hw).2 hm] at hall
        exact (hall (outOfBounds_read hend) hheld).2 hm
    · obtain ⟨hl, hw, ha⟩ := long_start (o := { ws := [0, 1, 2], mod := 2, use := 3, p := 1, pair := 1, imm := 30 }) rfl rfl (by decide) h hfull
      have hall := fun hb hh => semStp_ok ha hw (by rw [haddr']; exact halign) (hwatch _) hb hh (by simpa using hmem)
      simp only [haddr', tileArg_f, tileArg_x, drawnTile_held, drawnTile_mem, TileArg.stored, drawnTile_pget] at hall
      refine ⟨fun hm hend hheld => ?_, fun hm hend hheld => ?_⟩
      · rw [(hcount hw).1 hm] at hall
        obtain ⟨m, hm', hwf, hget⟩ := hall (outOfBounds_write hlo hend) hheld
        refine ⟨m, ?_, hwf, fun z => ?_⟩
        · rw [← longTime_plain hm]; exact congrArg Host.Outcome.next (issueTile_ok h hm')
        · rw [hget z]; simp [hm, laneBytes]
      · rw [(hcount hw).2 hm] at hall
        obtain ⟨m, hm', hwf, hget⟩ := hall (outOfBounds_write hlo hend) hheld
        refine ⟨m, ?_, hwf, fun z => ?_⟩
        · rw [← longTime_masked hm]; exact congrArg Host.Outcome.next (issueTile_ok h hm')
        · rw [hget z]; simp [hm, laneBytes]
    · have hx := drawnTile_of_no_draw (s := s) (t := t) (op := 0x56) (f := f) rfl rfl rfl
      have hl := legal_of_wordLegal (o := { ws := [1], use := 7, p := 5, imm := 30 }) rfl (legal_of_takes h)
      have hw : f.w = 1 := width_of_takes rfl rfl h
      have hm := hl.not_masked rfl rfl
      have hgather : ∀ i, (s.tileArg t 0x56 f).gatherAddr (s.tileArg t 0x56 f).x i =
          (BitVec.ofNat 32 addr + 4 * (((s.tile t).preg f.b)[i]?).getD 0).toNat := fun i => by
        rw [TileArg.gatherAddr, haddr', tileArg_x, drawnTile_preg]; rfl
      obtain ⟨y, hy, halike⟩ := semLdpx_ok (a := s.tileArg t 0x56 f) (by simpa using hfull) rfl (hwatch _)
        (fun i hi => by rw [hgather]; exact ⟨(hat i hi).1, (hat i hi).2.1⟩) rfl
        (fun i hi => by rw [hgather, tileArg_x, drawnTile_held]; exact (hat i hi).2.2)
      have htook : (s.tileArg t 0x56 f).took 32 8 = 32 := by
        simp [TileArg.took, TileArg.first, State.tileArg, beatCount, hw, hm, beatElems]
      rw [htook] at hy
      refine ⟨y, congrArg Host.Outcome.next (issueTile_ok h hy), ?_⟩
      simp only [hgather] at halike
      simp only [tileArg_x, tileArg_f, hx] at halike
      exact halike
  · have hfault : ∀ op n align write (i : Instr) (go : TileArg → TileOut), 
        exec i s = .next (s.issueTile t op f fun a => a.access a.addr n align write (go a)) → s.takes t op f = true →
        (addr % align ≠ 0 → exec i s = .next (s.tileFault t op f 2 addr)) ∧
        (addr % align = 0 → (0x30000 < addr + n ∨ (write = true ∧ (addr < 0x100 ∨ 0x2E000 < addr + n))) → 0 < n →
          exec i s = .next (s.tileFault t op f 3 addr)) := by
      intro op n align write i go hi h
      rw [hi]
      refine ⟨fun halign => ?_, fun halign hb hn => ?_⟩
      · refine congrArg Host.Outcome.next (issueTile_fault h ?_)
        rw [tileArg_addr, ← haddr]
        exact access_align halign
      · refine congrArg Host.Outcome.next (issueTile_fault h ?_)
        rw [tileArg_addr, ← haddr]
        refine access_bounds halign ?_
        simpa [outOfBounds, hn] using hb
    simp only [List.mem_cons, List.not_mem_nil, or_false] at he
    rcases he with rfl | rfl | rfl | rfl
    · exact (hfault _ _ _ _ _ _ rfl h).imp id fun hb halign hout => hb halign hout (by decide)
    · exact (hfault _ _ _ _ _ _ rfl h).imp id fun hb halign hout => hb halign hout (by decide)
    · exact (hfault _ _ _ _ _ _ rfl h).imp id fun hb halign hout => hb halign hout (by decide)
    · exact (hfault _ _ _ _ _ _ rfl h).imp id fun hb halign hout => hb halign hout (by decide)

end Sys2Proof.Machine
end

section
/-! PROOFS. A background copy from an input of length 0 (O24 fails): nothing is read, so the copy does not fail its code, and yet the
lines the copy names are counted as uncorrectable. -/

namespace Sys2Proof.Machine

/-- A started job on shell 3 whose descriptor gives IN2 in LPDDR5X the length 0. -/
def emptyIn2Job : Job where
  id := 7
  slice := 5
  queue := 320
  index := 0
  desc := leBytes 2 0x0101 ++ [4] ++ zeros 125
  gather := []
  phase := .started
  unit := some (.shell 3)
  pool := some 0
  failures := 0
  retried := false
  suspect := false
  ahead := false
  stretched := false
  yielded := false
  catches := 0
  journal := false
  slot := none
  attr := 0
  key := []
  attr2 := 0
  key2 := []
  sigIndex := none
  fillNo := 0
  memo := []
  ctrWait := false
  prGranted := false
  drawWait := false
  pqWait := false
  drawn := []
  gang := []
  main := []
  in2 := []
  in3 := []
  ctx := []
  result := none
  trav := []
  cellGen := 0
  epoch := none
  classical := ⟨.waiting, none, none, none⟩
  pq := ⟨.waiting, none, none, none⟩

/-- Its stroke tile copies four bytes of IN2; LPDDR5X can be read. -/
def emptyIn2State : State :=
  { State.reset with
    regs := [(.ddrStat, 6), (.fabShellMap 3, 0x01000001), (.fabTileStat 0, 0x301)]
    jobs := [emptyIn2Job]
    tiles := [(0, { Tile.idle with running := true, size := 1, xfers := [.input 1 0 0x100 4] })] }

/-- The copy ends with a code that fails: counted, though the copy gave its bytes. -/
theorem emptyIn2_counts : (match exec (.dmainComplete 0 (.ecc 0)) emptyIn2State with
    | .next t => t.rd .ddrUeCount == 1
    | _ => false) = true := by decide

/-- Refutes O24: DMAIN_COMPLETE with an uncorrectable error for an input of length 0 in LPDDR5X stores its bytes and still counts the
error, so the registers do not stand. -/
theorem not_spongeAndTransfers : ¬ Obligations.SpongeAndTransfers := by
  rintro ⟨-, -, hdma, -⟩
  obtain ⟨s', hs', -, -, hregs, -⟩ := hdma emptyIn2State 0 1 0 0x100 4 emptyIn2Job _ (.ecc 0) (by decide) (by decide) rfl
  have hcounts : (s'.rd .ddrUeCount == 1) = true := by
    have h := emptyIn2_counts
    rw [hs'] at h
    exact h
  have hstood : s'.rd .ddrUeCount = emptyIn2State.rd .ddrUeCount := by rw [State.rd, hregs (by decide)]; rfl
  rw [hstood] at hcounts
  exact absurd hcounts (by decide)

end Sys2Proof.Machine
end

section
/-! PROOFS. One step, the idle tick and the state after reset (O1, O2, O3, O60). -/

namespace Sys2Proof.Machine

/-- Settles O1: the two branches of `step`. -/
theorem stepRunsFrontCommand : Obligations.StepRunsFrontCommand :=
  ⟨fun _ _ _ => rfl, fun s h => by simp [step, h]⟩

/-! ### The parts of a tick -/

/-- What a tick leaves alone: registers outside `l`, jobs, key slots, scratch banks, OTP and the queue of commands. -/
structure TickKeeps (l : List Reg) (s t : State) : Prop where
  regs : ∀ r, r ∉ l → t.rd r = s.rd r
  jobs : t.jobs = s.jobs
  slots : t.slots = s.slots
  sram : t.sram = s.sram
  otp : t.otp = s.otp
  pending : t.pending = s.pending

theorem TickKeeps.refl (l : List Reg) (s : State) : TickKeeps l s s := ⟨fun _ _ => rfl, rfl, rfl, rfl, rfl, rfl⟩

theorem TickKeeps.trans {l : List Reg} {s t u : State} (h : TickKeeps l s t) (h' : TickKeeps l t u) : TickKeeps l s u :=
  ⟨fun r hr => (h'.regs r hr).trans (h.regs r hr), h'.jobs.trans h.jobs, h'.slots.trans h.slots, h'.sram.trans h.sram, h'.otp.trans h.otp,
    h'.pending.trans h.pending⟩

theorem TickKeeps.mono {l l' : List Reg} (hl : l ⊆ l') {s t : State} (h : TickKeeps l s t) : TickKeeps l' s t :=
  { h with regs := fun r hr => h.regs r fun hm => hr (hl hm) }

theorem TickKeeps.of_regsAndMessages {l : List Reg} {s t : State} (h : RegsAndMessages l s t) : TickKeeps l s t :=
  ⟨h.1, h.jobs, (congrArg State.slots h.2 :), (congrArg State.sram h.2 :), (congrArg State.otp h.2 :), (congrArg State.pending h.2 :)⟩

/-- The AON timestamp alone, and its rest. -/
theorem aonTick_keeps (s : State) : TickKeeps [.tmpTime] s s.aonTick ∧ s.aonTick.tiles = s.tiles ∧ s.aonTick.ddr = s.ddr := by
  have hstore : ∀ (u : State) (f : DWord → DWord), TickKeeps [.tmpTime] u (u.store .tmpTime f) := fun u f =>
    .of_regsAndMessages (.store (by simp) u f)
  unfold State.aonTick
  split
  · exact ⟨.refl _ s, rfl, rfl⟩
  · simp only
    generalize s.power.rest + 32768 = r
    have hrest : ∀ p, TickKeeps [.tmpTime] s { s with power := p } := fun _ => ⟨fun _ _ => rfl, rfl, rfl, rfl, rfl, rfl⟩
    split
    · exact ⟨hrest _, rfl, rfl⟩
    · split
      · exact ⟨((hrest _).trans (hstore _ _)).trans (hstore _ _), rfl, rfl⟩
      · exact ⟨(hrest _).trans (hstore _ _), rfl, rfl⟩

/-- RESET_N's pulse is the pin's alone. -/
theorem pulseTick_keeps (s : State) : TickKeeps [] s s.pulseTick ∧ s.pulseTick.tiles = s.tiles ∧ s.pulseTick.ddr = s.ddr ∧
    s.pulseTick.ddrFill = s.ddrFill := by
  unfold State.pulseTick
  split
  · exact ⟨.refl _ s, rfl, rfl, rfl⟩
  · exact ⟨⟨fun _ _ => rfl, rfl, rfl, rfl, rfl, rfl⟩, rfl, rfl, rfl⟩

/-- A fill zeroes bytes of its range, and only while it runs. -/
theorem fillTick_keeps (s : State) : TickKeeps [] s s.fillTick ∧ s.fillTick.tiles = s.tiles ∧
    (s.fld .ddrFillCtrl 5 4 ≠ 1 ∨ s.bit .genState 4 = true → s.fillTick.ddr = s.ddr) ∧
    ∀ a, a < s.ddrFill.1 ∨ s.ddrFill.1 + s.ddrFill.2 ≤ a → Memory.get a s.fillTick.ddr = Memory.get a s.ddr := by
  by_cases hrun : s.fld .ddrFillCtrl 5 4 ≠ 1 ∨ s.bit .genState 4 = true
  · have : s.fillTick = s := by rw [State.fillTick, if_pos hrun]
    rw [this]
    exact ⟨.refl _ s, rfl, fun _ => rfl, fun _ _ => rfl⟩
  · obtain ⟨n, hn, hfill⟩ : ∃ n ≤ s.ddrFill.2, s.fillTick = { s with
        freeCtr := s.freeCtr + 1
        ddr := if s.ddrReady then Memory.clear s.ddrFill.1 (s.ddrFill.1 + n) s.ddr else s.ddr
        ddrFill := (s.ddrFill.1 + n, s.ddrFill.2 - n) } := by
      refine ⟨leNat (s.draw 4).1 % (s.ddrFill.2 / 64 + 1) * 64, ?_, by rw [State.fillTick, if_neg hrun]; rfl⟩
      have hlt := Nat.mod_lt (leNat (s.draw 4).1) (Nat.succ_pos (s.ddrFill.2 / 64))
      have := Nat.div_mul_le_self s.ddrFill.2 64
      have : leNat (s.draw 4).1 % (s.ddrFill.2 / 64 + 1) * 64 ≤ s.ddrFill.2 / 64 * 64 := Nat.mul_le_mul_right _ (Nat.le_of_lt_succ hlt)
      omega
    rw [hfill]
    refine ⟨⟨fun _ _ => rfl, rfl, rfl, rfl, rfl, rfl⟩, rfl, fun h => absurd h hrun, fun a ha => ?_⟩
    dsimp only
    split
    · rw [Memory.get_clear, if_neg (by omega)]
    · rfl

/-- A core's reset touches its own state, the count of lost handles and their event. -/
theorem wipeCore_keeps (s : State) (c : Nat) : TickKeeps [.bneHandlesLost, .bneEvtStatus] s (s.wipeCore c) ∧ (s.wipeCore c).tiles = s.tiles ∧
    (s.wipeCore c).ddr = s.ddr ∧ (s.wipeCore c).ddrFill = s.ddrFill ∧ (s.wipeCore c).boot = s.boot := by
  have hcore : ∀ f : BCore → BCore, TickKeeps [.bneHandlesLost, .bneEvtStatus] s (s.setBcore c f) := fun f =>
    ⟨fun _ _ => rfl, rfl, rfl, rfl, rfl, rfl⟩
  unfold State.wipeCore
  simp only
  split
  · exact ⟨hcore _, rfl, rfl, rfl, rfl⟩
  · set u := s.setBcore c _ with hu
    have h : RegsAndMessages [.bneHandlesLost, .bneEvtStatus] u ((u.bump .bneHandlesLost
        ((s.bcore c).res.filter (fun e => e.2.owner.isSome)).length).bneEvt 4) :=
      (RegsAndMessages.store (by simp) u _).trans (.event (by simp) _ _ _ _)
    exact ⟨(hcore _).trans (.of_regsAndMessages h), (congrArg State.tiles h.2 :), (congrArg State.ddr h.2 :), (congrArg State.ddrFill h.2 :),
      (congrArg State.boot h.2 :)⟩

/-- Wiping tiles is a matter of the tiles alone. -/
theorem wipeEach_eq (l : List Nat) : ∀ s : State, ∃ ts, s.each l (fun s t => s.setTile t Tile.wipe) = { s with tiles := ts } ∧
    ∀ n, ({ s with tiles := ts } : State).tile n = if n ∈ l then (s.tile n).wipe else s.tile n := by
  induction l with
  | nil => exact fun s => ⟨s.tiles, rfl, fun n => by simp⟩
  | cons a l ih =>
    intro s
    obtain ⟨ts, heq, hget⟩ := ih (s.setTile a Tile.wipe)
    refine ⟨ts, heq, fun n => ?_⟩
    have := hget n
    rw [State.tile_setTile] at this
    refine this.trans ?_
    by_cases ha : a = n
    · subst ha; by_cases hl : a ∈ l <;> simp [hl, Tile.wipe]
    · by_cases hl : n ∈ l <;> simp [hl, ha, Ne.symm ha]

/-- A block's reset touches no more than its unit (R13 step 4). -/
theorem resetBlock_keeps (s : State) (k i : Nat) : TickKeeps [.bneHandlesLost, .bneEvtStatus] s (s.resetBlock k i) ∧
    (s.resetBlock k i).ddr = s.ddr ∧ (s.resetBlock k i).ddrFill = s.ddrFill ∧
    (k ≠ 4 → k ≠ 5 → ∀ n ∈ s.blockTiles k i, (s.resetBlock k i).tile n = (s.tile n).wipe) := by
  by_cases h4 : k = 4
  · subst h4; exact ⟨.refl _ s, rfl, rfl, fun h => absurd rfl h⟩
  by_cases h5 : k = 5
  · subst h5
    obtain ⟨h, -, hddr, hfill, -⟩ := wipeCore_keeps s i
    exact ⟨h, hddr, hfill, fun _ h => absurd rfl h⟩
  have hreset : s.resetBlock k i = s.each (s.blockTiles k i) (fun s t => s.setTile t Tile.wipe) := by
    unfold State.resetBlock
    split
    · exact absurd rfl h4
    · exact absurd rfl h5
    · rfl
  obtain ⟨ts, heq, hget⟩ := wipeEach_eq (s.blockTiles k i) s
  rw [hreset, heq]
  exact ⟨⟨fun _ _ => rfl, rfl, rfl, rfl, rfl, rfl⟩, rfl, rfl, fun _ _ n hn => (hget n).trans (if_pos hn)⟩

/-- A block reset's stage. -/
theorem blockAdvance_keeps (s : State) : TickKeeps [.rstBlockStat, .bneHandlesLost, .bneEvtStatus] s s.blockAdvance ∧
    s.blockAdvance.ddr = s.ddr ∧ s.blockAdvance.ddrFill = s.ddrFill ∧ (s.boot.block = none → s.blockAdvance = s) ∧
    ∀ k i, s.boot.block = some (k, i) →
      (s.blockPhase = 1 → s.blockAdvance.blockPhase = 2 ∧
        (k ≠ 4 → k ≠ 5 → ∀ n ∈ s.blockTiles k i, s.blockAdvance.tile n = (s.tile n).wipe)) ∧
      (s.blockPhase = 2 → s.blockAdvance.blockPhase = 3 ∧ s.blockAdvance.tiles = s.tiles) := by
  have hstage : ∀ (u : State) (x : Nat), TickKeeps [.rstBlockStat, .bneHandlesLost, .bneEvtStatus] u (u.setFld .rstBlockStat 5 4 x) :=
    fun u x => .of_regsAndMessages (.store (by simp) u _)
  have hphase : ∀ (u : State) (x : Nat), x < 4 → (u.setFld .rstBlockStat 5 4 x).blockPhase = x := fun u x hx => by
    rw [State.blockPhase, State.fld_setFld _ _ _ _ _ (by decide) (by decide)]; exact Nat.mod_eq_of_lt hx
  unfold State.blockAdvance
  split
  · next kind idx hblock h1 =>
    obtain ⟨hkeep, hddr, hfill, hwipe⟩ := resetBlock_keeps s kind idx
    refine ⟨(hkeep.mono (by simp)).trans (hstage _ _), hddr, hfill, fun h => (by rw [hblock] at h; cases h), fun k i hki => ⟨fun _ => ⟨hphase _ _ (by decide), ?_⟩, fun h2 => ?_⟩⟩
    · rw [hblock] at hki
      obtain ⟨rfl, rfl⟩ := Prod.mk.inj (Option.some.inj hki)
      exact hwipe
    · rw [h1] at h2; cases h2
  · next b hblock h2 =>
    refine ⟨hstage _ _, rfl, rfl, fun h => (by rw [hblock] at h; cases h), fun k i _ => ⟨fun h1 => ?_, fun _ => ⟨hphase _ _ (by decide), rfl⟩⟩⟩
    rw [h1] at h2; cases h2
  · next h1 h2 =>
    exact ⟨.refl _ s, rfl, rfl, fun _ => rfl, fun k i hki => ⟨fun h => absurd h (h1 k i hki), fun h => absurd h (h2 _ hki)⟩⟩

/-- Settles O2: the tick's parts one after another. -/
theorem idleTickCountsTime : Obligations.IdleTickCountsTime := by
  intro s hpend
  refine ⟨s.idleTick, by simp [step, hpend], ?_⟩
  by_cases hoff : s.power.backup = false ∧ s.power.io = true
  · set u := (s.bump64 .genTime).setBit .lcsPp 0 false with hu
    have hurd : ∀ r, u.rd r = if r = .lcsPp then setB (s.rd .lcsPp) 0 false else if r = .genTime then s.rd .genTime + 1 else s.rd r := by
      intro r
      rw [hu, State.rd_setBit]
      by_cases h1 : r = .lcsPp
      · subst h1
        rw [if_pos rfl, if_pos rfl, State.bump64, State.rd_wr, if_neg (by simp)]
      · rw [if_neg (Ne.symm h1), if_neg h1, State.bump64, State.rd_wr]
        by_cases h2 : r = .genTime
        · subst h2; rfl
        · rw [if_neg (Ne.symm h2), if_neg h2]
    have htick : s.idleTick = u.blockAdvance.pulseTick.fillTick.aonTick := by
      rw [State.idleTick, if_neg (by simp [hoff.1, hoff.2])]
    obtain ⟨hb, hbddr, hbfill, hbnone, hbsome⟩ := blockAdvance_keeps u
    obtain ⟨hp, hptiles, hpddr, hpfill⟩ := pulseTick_keeps u.blockAdvance
    obtain ⟨hf, hftiles, hfddr, hfget⟩ := fillTick_keeps u.blockAdvance.pulseTick
    obtain ⟨ha, hatiles, haddr⟩ := aonTick_keeps u.blockAdvance.pulseTick.fillTick
    have htiles : s.idleTick.tiles = u.blockAdvance.tiles := by rw [htick, hatiles, hftiles, hptiles]
    have hpf : TickKeeps [] u.blockAdvance u.blockAdvance.pulseTick.fillTick := hp.trans hf
    have hrest : TickKeeps [.tmpTime] u.blockAdvance s.idleTick := htick ▸ (hpf.mono (by simp)).trans ha
    have hall : TickKeeps [.tmpTime, .rstBlockStat, .bneHandlesLost, .bneEvtStatus] u s.idleTick :=
      (hb.mono (by simp)).trans (hrest.mono (by simp))
    have hphase : ∀ v w : State, v.rd .rstBlockStat = w.rd .rstBlockStat → v.blockPhase = w.blockPhase := fun v w h => by
      rw [State.blockPhase, State.fld, h]; rfl
    have huphase : u.blockPhase = s.blockPhase := hphase _ _ (by rw [hurd]; simp)
    have hublock : u.boot.block = s.boot.block := rfl
    have hutiles : ∀ k i, u.blockTiles k i = s.blockTiles k i := by
      intro k i
      have : ∀ sh, u.rd (.fabShellMap sh) = s.rd (.fabShellMap sh) := fun sh => by rw [hurd]; simp
      simp only [State.blockTiles, State.shellTiles, State.fld, this]
    have hpp : s.idleTick.rd .lcsPp = setB (s.rd .lcsPp) 0 false := by rw [hall.regs _ (by simp), hurd, if_pos rfl]
    refine ⟨?_, fun r hr => ?_, fun hnone => ⟨fun r h1 h2 h3 => ?_, ?_⟩, fun k i hki _ _ => ⟨fun h1 => ⟨?_, fun h4 h5 n hn => ?_⟩, fun h2 => ⟨?_, ?_⟩⟩,
      fun _ _ => ⟨?_, fun i hi => ?_⟩, fun h => ?_, fun a ha' => ?_, hall.jobs, hall.slots, hall.sram, hall.otp, hall.pending.trans hpend⟩
    · rw [if_pos hoff, hall.regs _ (by simp), hurd]; simp
    · simp only [List.mem_cons, List.not_mem_nil, or_false, not_or] at hr
      obtain ⟨h1, h2, h3, h4, h5, h6⟩ := hr
      rw [hall.regs _ (by simp [h2, h4, h5, h6]), hurd, if_neg h3, if_neg h1]
    · rw [hrest.regs _ (by simpa using h2), hbnone hnone, hurd, if_neg h3, if_neg h1]
    · rw [htiles, hbnone hnone]; rfl
    · rw [hphase _ _ (hrest.regs _ (by simp))]
      exact ((hbsome k i hki).1 (huphase.trans h1)).1
    · have := ((hbsome k i hki).1 (huphase.trans h1)).2 h4 h5 n (by rw [hutiles]; exact hn)
      rw [State.tile, htiles]; exact this
    · rw [hphase _ _ (hrest.regs _ (by simp))]
      exact ((hbsome k i hki).2 (huphase.trans h2)).1
    · rw [htiles, ((hbsome k i hki).2 (huphase.trans h2)).2]; rfl
    · rw [State.bit, hpp, getB_setB _ _ _ _ (by decide), if_pos rfl]
    · rw [State.bit, hpp, getB_setB _ _ _ _ (by decide), if_neg (Ne.symm hi)]; rfl
    · have hidle : u.blockAdvance.pulseTick.fld .ddrFillCtrl 5 4 ≠ 1 ∨ u.blockAdvance.pulseTick.bit .genState 4 = true := by
        have hrd : ∀ r, r = .ddrFillCtrl ∨ r = .genState → u.blockAdvance.pulseTick.rd r = s.rd r := fun r hr => by
          rw [hp.regs _ (by simp), hb.regs _ (by rcases hr with rfl | rfl <;> simp), hurd]
          rcases hr with rfl | rfl <;> simp
        rw [State.fld, State.bit, hrd _ (.inl rfl), hrd _ (.inr rfl)]
        exact h
      rw [htick, haddr, hfddr hidle, hpddr, hbddr]; rfl
    · rw [htick, haddr, hfget a (by rw [hpfill, hbfill]; exact ha'), hpddr, hbddr]; rfl
  · have htick : s.idleTick = s.aonTick := by
      rw [State.idleTick, if_pos]
      cases hb : s.power.backup <;> cases hi : s.power.io <;> simp_all
    obtain ⟨ha, hatiles, haddr⟩ := aonTick_keeps s
    rw [htick]
    refine ⟨by rw [if_neg hoff, ha.regs _ (by simp)], fun r hr => ha.regs r (by simp at hr ⊢; tauto), fun _ => ⟨fun r _ h2 _ => ha.regs r (by simpa using h2), hatiles⟩,
      fun k i _ hb hi => absurd ⟨hb, hi⟩ hoff, fun hb hi => absurd ⟨hb, hi⟩ hoff, fun _ => haddr, fun a _ => by rw [haddr], ha.jobs, ha.slots, ha.sram, ha.otp,
      ha.pending.trans hpend⟩

/-- Settles O3: the registers listed at reset are RST_CAUSE and PWR_RAILS. -/
theorem resetState : Obligations.ResetState := by
  refine ⟨fun r h1 h2 => ?_, fun _ => show attrValid 0 = false by decide, fun _ => rfl, fun q => ?_, fun n => ?_, rfl, rfl, rfl, rfl, rfl⟩
  · simp [State.rd, State.reset, tget, Ne.symm h1, Ne.symm h2]
  · simp [State.queueState, State.fld, State.rd, State.reset, tget, Reg.resetVal, getF]
  · simp [State.sliceState, State.fld, State.rd, State.reset, tget, Reg.resetVal, getF]

/-- Settles O60: nothing is listed at reset. -/
theorem resetIsSound : Obligations.ResetIsSound :=
  ⟨rfl, rfl, fun _ h => absurd h List.not_mem_nil, fun _ h => absurd h List.not_mem_nil, fun _ h => absurd h List.not_mem_nil⟩

end Sys2Proof.Machine
end

section
/-! PROOFS. Job commands: the result of a computation, the ones turned away, and raw modular arithmetic (O4, O5, O6). -/

namespace Sys2Proof.Machine

/-! ### What ending a computation leaves alone -/

theorem freeTile_rng (s : State) (t : Nat) : (s.freeTile t).rng = s.rng := by
  have hwipe : ∀ (u : State) (t : Nat), (u.wipeTile t).rng = u.rng := fun u t => by
    unfold State.wipeTile; simp only; split <;> rfl
  unfold State.freeTile
  simp only
  split
  · rfl
  · split
    · exact hwipe _ _
    · exact hwipe _ _

theorem settle_rng (s : State) (x : Job) (r : Result) : (s.settle x r).rng = s.rng :=
  s.each_keeps State.rng State.freeTile freeTile_rng (x.shells.flatMap s.shellTiles)

/-- The job that a settled computation leaves. -/
theorem job?_settle {s : State} {j : Nat} {x : Job} (h : s.job? j = some x) (r : Result) :
    (s.settle x r).job? j = some { x with phase := .computed, result := some r, drawWait := false, drawn := [] } := by
  have hid := job?_id h
  rw [(settle_spec s x r).2, if_pos hid.symm, h]; rfl

theorem job?_settle_ne {s : State} {j k : Nat} {x : Job} (h : s.job? j = some x) (r : Result) (hk : k ≠ j) :
    (s.settle x r).job? k = s.job? k := by
  rw [(settle_spec s x r).2, if_neg (by rw [job?_id h]; exact hk)]

/-- Settles O4: the draws are served, and the result is settled. -/
theorem jobCommandComputesItsResult : Obligations.JobCommandComputesItsResult := by
  intro i s s' j op x l hi hj hc hr hd
  obtain ⟨hsame, -, -, b, hjobs⟩ := drawAll_got hd
  have hid := job?_id hj
  have hj' : s'.job? j = some (x.stretch b) := by rw [hjobs, if_pos hid.symm, hj]; rfl
  have hstood : ∀ k, k ≠ j → s'.job? k = s.job? k := fun k hk => by rw [hjobs, if_neg (by rw [hid]; exact hk)]
  obtain ⟨hsame', hset⟩ := settle_spec s' x (op.result s' x l)
  refine ⟨_, { x.stretch b with phase := .computed, result := some (op.result s' x l), drawWait := false, drawn := [] },
    (exec_jobRow hi s).trans (congrArg Host.Outcome.next (runOp_computes hj hc hr hd)), ?_, rfl, rfl, rfl, fun k hk => ?_, hsame.trans hsame'⟩
  · rw [hset, if_pos hid.symm, hj']; rfl
  · rw [hset, if_neg (by rw [hid]; exact hk), hstood k hk]

/-- Settles O5: the two other branches of `State.runOp`. -/
theorem jobCommandTurnedAway : Obligations.JobCommandTurnedAway := by
  refine ⟨fun i s j op x r hi hj hc hr => ?_, fun i s j op hi hidle => ?_⟩
  · exact ⟨_, _, (exec_jobRow hi s).trans (congrArg Host.Outcome.next (runOp_rejects hj hc hr)), job?_settle hj r, rfl, rfl, settle_rng s x r,
      fun k hk => job?_settle_ne hj r hk, (settle_spec s x r).1⟩
  · exact (exec_jobRow hi s).trans (congrArg Host.Outcome.next (runOp_idle hidle))

/-! ### The extended Euclidean algorithm -/

/-- Two divisions halve the smaller argument. -/
theorem two_mod_lt {r t : Nat} (ht : 0 < t) (hlt : t < r) : 2 * (r % t) < r := by
  have hmod := Nat.mod_lt r ht
  rcases Nat.lt_or_ge r (2 * t) with h | h
  · have : r % t = r - t := by rw [Nat.mod_eq_sub_mod hlt.le, Nat.mod_eq_of_lt (by omega)]
    omega
  · omega

/-- With enough steps for the bits of its second argument, the algorithm ends with the greatest common divisor. -/
theorem egcd_fst (k : Nat) : ∀ (f r r' : Nat) (s s' : Int), r' < 2 ^ k → 2 * k + 1 ≤ f → (egcd f r r' s s').1 = r.gcd r' := by
  induction k with
  | zero =>
    intro f r r' s s' hr hf
    obtain ⟨f, rfl⟩ : ∃ n, f = n + 1 := ⟨f - 1, by omega⟩
    obtain rfl : r' = 0 := by omega
    simp [egcd]
  | succ k ih =>
    intro f r r' s s' hr hf
    obtain ⟨f, rfl⟩ : ∃ n, f = n + 2 := ⟨f - 2, by omega⟩
    rw [egcd]
    split
    · next h => simp [h]
    · next h =>
      have hpos : 0 < r' := Nat.pos_of_ne_zero h
      have hgcd : r.gcd r' = r'.gcd (r % r') := by rw [Nat.gcd_comm, Nat.gcd_rec, Nat.gcd_comm]
      rw [egcd, hgcd]
      split
      · next h0 => simp [h0]
      · next h0 =>
        have hhalf := two_mod_lt (Nat.pos_of_ne_zero h0) (Nat.mod_lt r hpos)
        rw [ih f _ _ _ _ (by rw [Nat.pow_succ] at hr; omega) (by omega), Nat.gcd_comm r' (r % r'), Nat.gcd_rec (r % r') r', Nat.gcd_comm]

/-- The coefficients keep their congruences modulo `m`. -/
theorem egcd_snd (a m : Int) : ∀ (f r r' : Nat) (s s' : Int), s * a ≡ r [ZMOD m] → s' * a ≡ r' [ZMOD m] →
    (egcd f r r' s s').2 * a ≡ ((egcd f r r' s s').1 : Nat) [ZMOD m] := by
  intro f
  induction f with
  | zero => intro r r' s s' h _; exact h
  | succ f ih =>
    intro r r' s s' h h'
    rw [egcd]
    split
    · exact h
    · refine ih _ _ _ _ h' ?_
      have hdiv : ((r % r' : Nat) : Int) = r - (r / r' : Nat) * r' := by
        have := congrArg (fun n : Nat => (n : Int)) (Nat.div_add_mod r r')
        push_cast at this ⊢
        linarith
      rw [hdiv, Int.sub_mul, Int.mul_assoc]
      exact h.sub (h'.mul_left _)

/-- What the algorithm gives for an inverse. -/
theorem egcd_inverse (a m : Nat) : (egcd (2 * m.log2 + 4) a m 1 0).1 = a.gcd m ∧
    (egcd (2 * m.log2 + 4) a m 1 0).2 * a ≡ (a.gcd m : Nat) [ZMOD m] := by
  have hfst := egcd_fst (m.log2 + 1) (2 * m.log2 + 4) a m 1 0 Nat.lt_log2_self (by omega)
  refine ⟨hfst, ?_⟩
  have := egcd_snd a m (2 * m.log2 + 4) a m 1 0 (by rw [Int.one_mul]) (by simp [Int.ModEq])
  rwa [hfst] at this

theorem invMod_eq (a m : Nat) : invMod a m =
    if a.gcd m = 1 then some ((egcd (2 * m.log2 + 4) a m 1 0).2 % (m : Int)).toNat else none := by
  simp only [invMod, (egcd_inverse a m).1]

/-- An inverse that is found is one, and is canonical. -/
theorem invMod_spec {a m x : Nat} (hm : 1 < m) (h : invMod a m = some x) : a * x % m = 1 ∧ x < m := by
  rw [invMod_eq] at h
  split at h
  · next hgcd =>
    obtain rfl := Option.some.inj h
    have hcong := (egcd_inverse a m).2
    rw [hgcd] at hcong
    set c := (egcd (2 * m.log2 + 4) a m 1 0).2
    have hpos : (0 : Int) < m := by omega
    have hnn := Int.emod_nonneg c (ne_of_gt hpos)
    have hlt := Int.emod_lt_of_pos c hpos
    refine ⟨?_, by omega⟩
    have hx : ((c % (m : Int)).toNat : Int) = c % m := Int.toNat_of_nonneg hnn
    have hprod : ((a * (c % (m : Int)).toNat % m : Nat) : Int) = 1 := by
      push_cast
      rw [hx, Int.mul_emod, Int.emod_emod_of_dvd _ (dvd_refl _), ← Int.mul_emod, Int.mul_comm]
      have := hcong.eq
      rw [this]
      exact Int.emod_eq_of_lt (by decide) (by exact_mod_cast hm)
    exact_mod_cast hprod
  · cases h

/-- Settles O6: in range nothing is refused and nothing drawn; the power by its bits, the inverse by Euclid's algorithm. -/
theorem rawArithmeticIsRight : Obligations.RawArithmeticIsRight := by
  have hrange : ∀ {o x m : Nat} {b : Bool}, 0 < x → x < m → (b = true → 2 ≤ x) → rangeFail o x m b = none := by
    intro o x m b h0 hm h2
    rw [rangeFail, if_neg (by omega), if_neg, if_neg (by omega)]
    cases b with
    | false => simp
    | true => have := h2 rfl; simp; omega
  have hodd : ∀ {m : Nat}, m % 2 = 1 → m ≠ 1 → oddFail m = none := fun h h1 => by
    rw [oddFail, if_neg (by omega), if_neg h1, if_neg (by omega)]
  have hrun : ∀ {s : State} {j : Nat} {x : Job} {o : JobOp}, s.job? j = some x → s.computing o.opcode x = true → o.reject s x = none →
      o.draws x = [] → (∀ l l', o.result s x l = o.result s x l') → s.runOp j o = s.settle x (o.result s x []) := by
    intro s j x o hj hc hr hd hres
    rw [runOp_computes (l := x.kept false) (s' := s) hj hc hr (by rw [hd]; simp [State.drawAll, State.drawMore]), hres _ []]
  refine ⟨fun s j x hj => ⟨fun hc ha0 ham hb0 hbm hm hm3 => ?_, fun hc ha2 ham hb0 hm => ?_, fun v hc ha2 ham hv => ?_, fun hc ha2 ham hv => ?_⟩,
    fun b e m _ => powMod_eq b e m, fun a m x hm => invMod_spec hm, fun a m _ => ?_⟩
  · refine congrArg Host.Outcome.next ((hrun (o := modmul) hj hc ?_ rfl fun _ _ => rfl).trans ?_)
    · simp [modmul, hrange ha0 ham, hrange hb0 hbm, hodd hm (by omega)]
    · simp only [modmul, rawOut]
  · refine congrArg Host.Outcome.next ((hrun (o := modexp) hj hc ?_ rfl fun _ _ => by simp only [modexp]).trans ?_)
    · simp [modexp, hrange (by omega) ham fun _ => ha2, hodd hm (by omega), Nat.ne_of_gt hb0]
    · simp only [modexp, rawOut]
  · refine congrArg Host.Outcome.next ((hrun (o := modinv) hj hc ?_ rfl fun _ _ => by simp only [modinv]).trans ?_)
    · simp [modinv, hrange (by omega) ham fun _ => ha2, show s.rawM x ≠ 0 by omega, show s.rawM x ≠ 1 by omega]
    · simp [modinv, hv, rawOut]
  · refine congrArg Host.Outcome.next ((hrun (o := modinv) hj hc ?_ rfl fun _ _ => by simp only [modinv]).trans ?_)
    · simp [modinv, hrange (by omega) ham fun _ => ha2, show s.rawM x ≠ 0 by omega, show s.rawM x ≠ 1 by omega]
    · simp [modinv, hv]
  · rw [invMod_eq, Nat.coprime_iff_gcd_eq_one]
    split <;> simp_all

end Sys2Proof.Machine
end

section
/-! PROOFS. However many tiles share a lattice operation, the job gives what one tile gives (O8). -/

namespace Sys2Proof.Machine

/-! ### Partial sums -/

theorem addM_comm (q x y : Nat) : addM q x y = addM q y x := by rw [addM, addM, Nat.add_comm]

theorem addM_assoc (q x y z : Nat) : addM q (addM q x y) z = addM q x (addM q y z) := by
  simp only [addM, Nat.mod_add_mod, Nat.add_mod_mod, Nat.add_assoc]

theorem addP_comm (q : Nat) (l m : List Nat) : addP q l m = addP q m l := List.zipWith_comm_of_comm (addM_comm q)

theorem addP_assoc (q : Nat) : ∀ l m n : List Nat, addP q (addP q l m) n = addP q l (addP q m n)
  | [], _, _ => rfl
  | _ :: _, [], _ => by simp [addP, zip2]
  | _ :: _, _ :: _, [] => by simp [addP, zip2]
  | a :: l, b :: m, c :: n => by
    have ih := addP_assoc q l m n
    simp only [addP, zip2, List.zipWith_cons_cons, addM_assoc] at ih ⊢
    rw [ih]

theorem addP_zero_zero (q : Nat) : addP q zeroPoly zeroPoly = zeroPoly := by
  rw [addP, zip2, zeroPoly, List.zipWith_replicate', addM, Nat.zero_mod]

/-- A sum that absorbs zero still does so after further terms. -/
theorem foldl_absorbs (q : Nat) (l : List (List Nat)) : ∀ a : List Nat, addP q a zeroPoly = a →
    addP q (l.foldl (addP q) a) zeroPoly = l.foldl (addP q) a := by
  induction l with
  | nil => exact fun _ h => h
  | cons b l ih =>
    intro a h
    refine ih _ ?_
    rw [addP_assoc, addP_comm q b, ← addP_assoc, h]

/-- A term is added before or after the others. -/
theorem addP_foldl (q : Nat) (l : List (List Nat)) : ∀ a b : List Nat, addP q a (l.foldl (addP q) b) = l.foldl (addP q) (addP q a b) := by
  induction l with
  | nil => exact fun _ _ => rfl
  | cons c l ih => intro a b; rw [List.foldl_cons, ih, List.foldl_cons, addP_assoc]

/-- Partial sums added are the whole sum. -/
theorem foldl_partialSums (q : Nat) (ls : List (List (List Nat))) : ∀ a : List Nat, addP q a zeroPoly = a →
    (ls.map (fun l => l.foldl (addP q) zeroPoly)).foldl (addP q) a = ls.flatten.foldl (addP q) a := by
  induction ls with
  | nil => exact fun _ _ => rfl
  | cons l ls ih =>
    intro a h
    rw [List.map_cons, List.foldl_cons, List.flatten_cons, List.foldl_append, addP_foldl, h]
    exact ih _ (foldl_absorbs q l a h)

/-! ### Dealing -/

/-- One unit more for one tile is one more for all. -/
theorem flatMap_insert_perm {α : Type} (x : α) (t₀ : Nat) (A : Nat → List α) : ∀ ts : List Nat, ts.Nodup → t₀ ∈ ts →
    (ts.flatMap (fun t => if t₀ = t then x :: A t else A t)).Perm (x :: ts.flatMap A) := by
  intro ts
  induction ts with
  | nil => intro _ h; cases h
  | cons t ts ih =>
    intro hnodup hmem
    obtain ⟨hnot, hnodup⟩ := List.nodup_cons.1 hnodup
    rw [List.flatMap_cons, List.flatMap_cons]
    by_cases ht : t₀ = t
    · subst ht
      have hrest : ts.flatMap (fun t => if t₀ = t then x :: A t else A t) = ts.flatMap A :=
        List.flatMap_congr fun t h => if_neg fun he : t₀ = t => hnot (he ▸ h)
      rw [if_pos rfl, hrest]; exact .refl _
    · rw [if_neg ht]
      have hmem' : t₀ ∈ ts := (List.mem_cons.1 hmem).resolve_left ht
      exact ((ih hnodup hmem').append_left _).trans List.perm_middle

/-- The tiles' units together are the units. -/
theorem dealt_perm {α : Type} {s : Nat} (hs : 0 < s) (us : List α) : ((List.range s).map (fun t => dealt s t us)).flatten.Perm us := by
  have hlist : ∀ l : List (α × Nat), ((List.range s).flatMap (fun t => (l.filter (fun e => e.2 % s = t)).map (·.1))).Perm (l.map (·.1)) := by
    intro l
    induction l with
    | nil => simp
    | cons e l ih =>
      have hins := flatMap_insert_perm e.1 (e.2 % s) (fun t => (l.filter (fun e => e.2 % s = t)).map (·.1)) (List.range s) List.nodup_range
        (List.mem_range.2 (Nat.mod_lt _ hs))
      have hfilter : (List.range s).flatMap (fun t => ((e :: l).filter (fun e => e.2 % s = t)).map (·.1)) = (List.range s).flatMap
          (fun t => if e.2 % s = t then e.1 :: (l.filter (fun e => e.2 % s = t)).map (·.1) else (l.filter (fun e => e.2 % s = t)).map (·.1)) := by
        refine List.flatMap_congr fun t _ => ?_
        by_cases ht : e.2 % s = t <;> simp [ht]
      rw [hfilter]
      exact hins.trans (ih.cons _)
  have := hlist us.zipIdx
  rwa [List.zipIdx_map_fst] at this

/-- However the products of a row are dealt, their sum is that of all. -/
theorem dot_eq_sum {q s : Nat} (hs : 0 < s) (row vec : List (List Nat)) :
    dot q s row vec = ((List.zipWith (fun a b => (a, b)) row vec).map (fun u => mulHat q u.1 u.2)).foldl (addP q) zeroPoly := by
  set us := List.zipWith (fun a b => (a, b)) row vec
  have hcomm : RightCommutative (addP q) := ⟨fun a b c => by rw [addP_assoc, addP_comm q b, ← addP_assoc]⟩
  have hparts : dot q s row vec = (((List.range s).map (fun t => (dealt s t us).map (fun u => mulHat q u.1 u.2))).map
      (fun l => l.foldl (addP q) zeroPoly)).foldl (addP q) zeroPoly := by
    rw [List.map_map]
    simp only [dot, us, Function.comp_def, List.foldl_map]
  rw [hparts, foldl_partialSums q _ _ (addP_zero_zero q)]
  have hflat : ((List.range s).map (fun t => (dealt s t us).map (fun u => mulHat q u.1 u.2))).flatten =
      ((List.range s).map (fun t => dealt s t us)).flatten.map (fun u => mulHat q u.1 u.2) := by
    rw [List.map_flatten, List.map_map]; rfl
  rw [hflat]
  exact List.Perm.foldl_eq ((dealt_perm hs us).map _) _

theorem dot_eq_one {s : Nat} (hs : 0 < s) (q : Nat) (row vec : List (List Nat)) : dot q s row vec = dot q 1 row vec := by
  rw [dot_eq_sum hs, dot_eq_sum Nat.one_pos]

theorem matVec_eq_one {s : Nat} (hs : 0 < s) (q : Nat) (m : List (List (List Nat))) (vec : List (List Nat)) :
    matVec q s m vec = matVec q 1 m vec := by
  simp only [matVec, dot_eq_one hs]

theorem dealMap_eq_one {s : Nat} (hs : 0 < s) {α β : Type} (f : α → β) (us : List α) : dealMap s f us = dealMap 1 f us := by
  rw [Laws.dealMap_eq s f us hs, Laws.dealMap_eq 1 f us Nat.one_pos]

/-! ### Lattice operations -/

section
variable {s : Nat} (hs : 0 < s)
include hs

theorem kemMatrix_eq_one (set : Nat) (rho : Bytes) : kemMatrix set s rho = kemMatrix set 1 rho := by
  simp only [kemMatrix, dealMap_eq_one hs]

theorem kemSmall_eq_one (eta : Nat) (seed : Bytes) (c n : Nat) : kemSmall s eta seed c n = kemSmall 1 eta seed c n := dealMap_eq_one hs _ _

theorem kemKeys_eq_one (set : Nat) (d : Bytes) : kemKeys set s d = kemKeys set 1 d := by
  simp only [kemKeys, kemMatrix_eq_one hs, kemSmall_eq_one hs, matVec_eq_one hs, dealMap_eq_one hs]

theorem kemEncrypt_eq_one (set : Nat) (ek m r : Bytes) : kemEncrypt set s ek m r = kemEncrypt set 1 ek m r := by
  simp only [kemEncrypt, kemMatrix_eq_one hs, kemSmall_eq_one hs, matVec_eq_one hs, dealMap_eq_one hs, dot_eq_one hs]

theorem kemDecrypt_eq_one (set : Nat) (sv ct : Bytes) : kemDecrypt set s sv ct = kemDecrypt set 1 sv ct := by
  simp only [kemDecrypt, dealMap_eq_one hs, dot_eq_one hs]

theorem kemSecret_eq_one (set : Nat) (mat : Bytes) : kemSecret set s mat = kemSecret set 1 mat := by
  simp only [kemSecret, kemExpand, kemKeys_eq_one hs]

theorem dsaMatrix_eq_one (p : DsaPar) (rho : Bytes) : dsaMatrix p s rho = dsaMatrix p 1 rho := by
  simp only [dsaMatrix, dealMap_eq_one hs]

theorem dsaT_eq_one (p : DsaPar) (rho : Bytes) (s1 s2 : List (List Nat)) : dsaT p s rho s1 s2 = dsaT p 1 rho s1 s2 := by
  simp only [dsaT, dsaMatrix_eq_one hs, matVec_eq_one hs, dealMap_eq_one hs]

theorem dsaSecret_eq_one (set : Nat) (mat : Bytes) : dsaSecret set s mat = dsaSecret set 1 mat := by
  simp only [dsaSecret, dsaFromSeed, dsaShort, dsaPubOf, dsaT_eq_one hs, dealMap_eq_one hs]

theorem dsaAttempt_eq_one (p : DsaPar) (x : DsaKey) (mu rho2 : Bytes) (kappa : Nat) :
    dsaAttempt p s x mu rho2 kappa = dsaAttempt p 1 x mu rho2 kappa := by
  simp only [dsaAttempt, dsaMask, dsaMatrix_eq_one hs, matVec_eq_one hs, dealMap_eq_one hs]
  rfl

theorem dsaVerify_eq_one (set : Nat) (pk msg sig : Bytes) : dsaVerify set s pk msg sig = dsaVerify set 1 pk msg sig := by
  simp only [dsaVerify, dsaMatrix_eq_one hs, matVec_eq_one hs, dealMap_eq_one hs]

end

/-! ### Rounds of attempts -/

/-- The sequential algorithm ends with the first attempt that passes. -/
theorem firstAttempt_spec {attempt : Nat → Option Bytes} {sig : Bytes} : ∀ {n j : Nat}, firstAttempt attempt n j = some sig →
    ∃ i, j ≤ i ∧ i < j + n ∧ attempt i = some sig ∧ ∀ k, j ≤ k → k < i → attempt k = none := by
  intro n
  induction n with
  | zero => intro j h; cases h
  | succ n ih =>
    intro j h
    rw [firstAttempt] at h
    split at h
    · next sig' ha =>
      obtain rfl := Option.some.inj h
      exact ⟨j, Nat.le_refl j, by omega, ha, fun k h1 h2 => by omega⟩
    · next ha =>
      obtain ⟨i, h1, h2, hi, hlow⟩ := ih h
      refine ⟨i, by omega, by omega, hi, fun k hk hki => ?_⟩
      rcases Nat.eq_or_lt_of_le hk with rfl | hk
      · exact ha
      · exact hlow k hk hki

/-- A round whose attempts all fail. -/
theorem laneRound_none {attempt : Nat → Option Bytes} {s r : Nat} (h : ∀ t, t < s → attempt (r * s + t) = none) :
    (laneRound attempt s r).findSome? id = none := by
  rw [List.findSome?_eq_none_iff]
  intro x hx
  obtain ⟨t, ht, rfl⟩ := List.mem_map.1 hx
  exact h t (List.mem_range.1 ht)

/-- A round gives its lowest attempt that passes. -/
theorem laneRound_some {attempt : Nat → Option Bytes} {s r t : Nat} {sig : Bytes} (ht : t < s) (h : attempt (r * s + t) = some sig)
    (hlow : ∀ t', t' < t → attempt (r * s + t') = none) : (laneRound attempt s r).findSome? id = some sig := by
  obtain ⟨d, rfl⟩ : ∃ d, s = t + (d + 1) := ⟨s - t - 1, by omega⟩
  have hbefore : ((List.range t).map (fun k => attempt (r * (t + (d + 1)) + k))).findSome? id = none := by
    rw [List.findSome?_eq_none_iff]
    intro x hx
    obtain ⟨k, hk, rfl⟩ := List.mem_map.1 hx
    exact hlow k (List.mem_range.1 hk)
  rw [laneRound, List.range_add, List.map_append, List.findSome?_append, hbefore, List.range_succ_eq_map]
  simp [h]

/-- Rounds end with the first attempt that passes (R149). -/
theorem laneRounds_first {attempt : Nat → Option Bytes} {s i : Nat} {sig : Bytes} (hi : attempt i = some sig)
    (hlow : ∀ k, k < i → attempt k = none) : ∀ n r, r * s ≤ i → i < (r + n) * s → laneRounds attempt s n r = some sig := by
  intro n
  induction n with
  | zero => intro r h1 h2; rw [Nat.add_zero] at h2; omega
  | succ n ih =>
    intro r h1 h2
    rw [laneRounds]
    by_cases hround : i < (r + 1) * s
    · rw [Nat.succ_mul] at hround
      obtain ⟨t, rfl⟩ : ∃ t, i = r * s + t := ⟨i - r * s, by omega⟩
      rw [laneRound_some (by omega) hi fun t' ht' => hlow _ (by omega)]
    · rw [laneRound_none fun t ht => hlow _ (by rw [Nat.succ_mul] at hround; omega)]
      exact ih (r + 1) (by omega) (by rwa [Nat.add_right_comm, Nat.add_assoc])

/-- Rounds give what the sequential algorithm gives. -/
theorem laneRounds_eq_first {attempt : Nat → Option Bytes} {s n : Nat} {sig : Bytes} (hs : 0 < s)
    (h : firstAttempt attempt n 0 = some sig) : laneRounds attempt s n 0 = some sig := by
  obtain ⟨i, -, hlt, hi, hlow⟩ := firstAttempt_spec h
  refine laneRounds_first hi (fun k hk => hlow k (Nat.zero_le k) hk) n 0 (by omega) ?_
  rw [Nat.zero_add] at hlt ⊢
  exact hlt.trans_le (Nat.le_mul_of_pos_right n hs)

/-- Settles O8: sums of products are the same however they are dealt, and the other units are dealt one by one. -/
theorem shellsComputeAsOneTile : Obligations.ShellsComputeAsOneTile := by
  refine ⟨fun q s row vec _ hs => dot_eq_one hs q row vec, fun set s hs => ⟨kemKeys_eq_one hs set, fun ek m => ?_, fun mat ct => ?_, fun mat => ?_,
    dsaVerify_eq_one hs set⟩, fun attempt s n sig hs h => laneRounds_eq_first hs h, fun set s mat msg rnd hs => ⟨?_, ?_⟩⟩
  · simp only [kemEncaps, kemEncrypt_eq_one hs]
  · simp only [kemDecaps, kemSecret_eq_one hs, kemEncrypt_eq_one hs, kemDecrypt_eq_one hs]
  · simp only [dsaPublic, dsaPubOf, dsaSecret_eq_one hs, dsaT_eq_one hs]
  · simp only [dsaSign, dsaSignIn, dsaSecret_eq_one hs, dsaAttempt_eq_one hs, Bool.false_eq_true, if_false]
  · cases h : dsaSign false set 1 mat msg rnd with
    | none => exact .inl rfl
    | some sig =>
      refine .inr ?_
      simp only [dsaSign, dsaSignIn, Bool.false_eq_true, if_false] at h
      simp only [dsaSign, dsaSignIn, dsaSecret_eq_one hs, if_true]
      exact laneRounds_eq_first hs h

end Sys2Proof.Machine
end

section
/-! PROOFS. RSA secret operations (O9). -/

namespace Sys2Proof.Machine

/-- A secret operation whose value passes the check with the public exponent settles its result. -/
theorem runPrivate_passes {s s' : State} {j : Nat} {o : JobOp} {rep : Job → List Bytes → Nat} {x : Job} {l : List Bytes} (hj : s.job? j = some x)
    (hc : s.computing o.opcode x = true) (hr : o.reject s x = none) (hd : s.drawAll x (o.draws x) = .got l s')
    (hp : powMod ((rsaKey x.key).crt (rep x l)) (rsaKey x.key).e (rsaKey x.key).n = rep x l) :
    s.runPrivate j o rep = s'.settle x (o.result s' x l) := by
  simp only [State.runPrivate, hj, hc, hr, hd, hp, Bool.not_true, Bool.false_eq_true, if_false, if_true]

/-- One whose value fails it is the machine check RESULT_CHECK of the job's core. -/
theorem runPrivate_fails {s s' : State} {j c : Nat} {o : JobOp} {rep : Job → List Bytes → Nat} {x : Job} {l : List Bytes} (hj : s.job? j = some x)
    (hc : s.computing o.opcode x = true) (hr : o.reject s x = none) (hd : s.drawAll x (o.draws x) = .got l s') (hcore : x.core = some c)
    (hp : powMod ((rsaKey x.key).crt (rep x l)) (rsaKey x.key).e (rsaKey x.key).n ≠ rep x l) :
    s.runPrivate j o rep = s'.bneCheck c 10 := by
  simp only [State.runPrivate, hj, hc, hr, hd, hp, hcore, Bool.not_true, Bool.false_eq_true, if_false]

/-- Settles O9: the two ends of `State.runPrivate`, for each of the three operations. -/
theorem rsaSecretOperationsComplete : Obligations.RsaSecretOperationsComplete := by
  refine ⟨fun s s' j x l hj => ⟨fun hc hr hd hp => ?_, fun hc hr hd hp => ?_, fun hc hr hd hp => ?_⟩,
    fun s s' j c x l hj hcore hr hd hp => ⟨fun hc => ?_, fun hc => ?_⟩⟩
  · exact congrArg Host.Outcome.next (runPrivate_passes (o := rsaSign) (rep := rsaSignRep) hj hc hr hd hp)
  · exact congrArg Host.Outcome.next (runPrivate_passes (o := rsaDecrypt) (rep := fun j _ => beNat j.main) hj hc hr hd hp)
  · exact congrArg Host.Outcome.next (runPrivate_passes (o := rawPrivate) (rep := fun j _ => beNat j.main) hj hc hr hd hp)
  · exact congrArg Host.Outcome.next (runPrivate_fails (o := rawPrivate) (rep := fun j _ => beNat j.main) hj hc hr hd hcore hp)
  · exact congrArg Host.Outcome.next (runPrivate_fails (o := rsaDecrypt) (rep := fun j _ => beNat j.main) hj hc hr hd hcore hp)

end Sys2Proof.Machine
end

section
/-! PROOFS. The units jobs run on: what leaving a unit, re-executing and ending a job can change at all. -/

namespace Sys2Proof.Machine

/-! ### Sound tiles -/

/-- The tile's memory is in canonical form and its long-vector registers are full. -/
def Tile.Fine (x : Tile) : Prop := Memory.wf x.mem = true ∧ x.full = true

/-- Every tile of the device is. -/
def State.TilesFine (s : State) : Prop := ∀ e ∈ s.tiles, e.2.Fine

theorem Tile.Fine.idle : Tile.idle.Fine := ⟨rfl, rfl⟩

theorem tget_mem {α β : Type} [DecidableEq α] {P : β → Prop} {d : β} {l : List (α × β)} (hd : P d) (h : ∀ e ∈ l, P e.2) (k : α) :
    P (tget d k l) := by
  induction l with
  | nil => exact hd
  | cons e l ih =>
    obtain ⟨a, b⟩ := e
    rw [tget]
    split
    · exact h (a, b) (by simp)
    · exact ih fun e he => h e (List.mem_cons_of_mem _ he)

theorem mem_tset {α β : Type} [DecidableEq α] {P : β → Prop} {l : List (α × β)} (h : ∀ e ∈ l, P e.2) {k : α} {v : β} (hv : P v) :
    ∀ e ∈ tset k v l, P e.2 := by
  intro e he
  rcases List.mem_cons.mp he with rfl | he
  · exact hv
  · exact h e (List.mem_of_mem_filter he)

theorem State.TilesFine.tile {s : State} (h : s.TilesFine) (t : Nat) : (s.tile t).Fine := tget_mem .idle h t

theorem State.TilesFine.setTile {s : State} (h : s.TilesFine) {t : Nat} {f : Tile → Tile} (hf : (s.tile t).Fine → (f (s.tile t)).Fine) :
    (s.setTile t f).TilesFine := mem_tset h (hf (h.tile t))

/-! ### Unit steps -/

/-- The registers that a job's leaving a unit, ending or being executed again may change. -/
def Reg.ofUnits : Reg → Bool
  | .fabTileStat _ | .fabShellMap _ | .fabEvtStatus | .tilBusyTc _ | .tilDbgStat _ | .bneCoreBusy _ | .bneCoreState _ | .bneHandlesLost
  | .bneEvtStatus | .rngDrbStat _ | .genRetryCnt | .genAbortCnt | .fabPoolRetry _ => true
  | _ => false

/-- From `s` to `t` units are left, wiped, repaired or retired: only their registers, tiles and cores change, demands for draws go, and
messages may be sent. -/
structure UnitsOnly (s t : State) : Prop where
  regs : ∀ r, r.ofUnits = false → t.rd r = s.rd r
  rest : ({ t with regs := s.regs, shadow := s.shadow, out := s.out, msixPend := s.msixPend, freeCtr := s.freeCtr, tiles := s.tiles
                   hcores := s.hcores, bcores := s.bcores, rng := s.rng } : State) = s
  fine : s.TilesFine → t.TilesFine

namespace UnitsOnly

theorem refl (s : State) : UnitsOnly s s := ⟨fun _ _ => rfl, rfl, id⟩

theorem trans {s t u : State} (h : UnitsOnly s t) (h' : UnitsOnly t u) : UnitsOnly s u :=
  ⟨fun r hr => (h'.regs r hr).trans (h.regs r hr),
    (congrArg (fun x : State => { x with regs := s.regs, shadow := s.shadow, out := s.out, msixPend := s.msixPend, freeCtr := s.freeCtr
                                         tiles := s.tiles, hcores := s.hcores, bcores := s.bcores, rng := s.rng }) h'.rest).trans h.rest,
    fun hs => h'.fine (h.fine hs)⟩

theorem jobs {s t : State} (h : UnitsOnly s t) : t.jobs = s.jobs := (congrArg State.jobs h.rest :)
theorem slots {s t : State} (h : UnitsOnly s t) : t.slots = s.slots := (congrArg State.slots h.rest :)
theorem cells {s t : State} (h : UnitsOnly s t) : t.cells = s.cells := (congrArg State.cells h.rest :)
theorem memo {s t : State} (h : UnitsOnly s t) : t.memo = s.memo := (congrArg State.memo h.rest :)
theorem sram {s t : State} (h : UnitsOnly s t) : t.sram = s.sram := (congrArg State.sram h.rest :)
theorem ddr {s t : State} (h : UnitsOnly s t) : t.ddr = s.ddr := (congrArg State.ddr h.rest :)
theorem tamper {s t : State} (h : UnitsOnly s t) : t.tamper = s.tamper := (congrArg State.tamper h.rest :)
theorem job? {s t : State} (h : UnitsOnly s t) (k : Nat) : t.job? k = s.job? k := by simp only [State.job?, h.jobs]

theorem store (s : State) {r : Reg} (hr : r.ofUnits = true) (f : DWord → DWord) : UnitsOnly s (s.store r f) :=
  ⟨fun r' h' => by rw [State.rd_store, if_neg fun h : r = r' => by simp [h, h'] at hr], rfl, id⟩

theorem setFld (s : State) {r : Reg} (hr : r.ofUnits = true) (hi lo x : Nat) : UnitsOnly s (s.setFld r hi lo x) := store s hr _
theorem setBit (s : State) {r : Reg} (hr : r.ofUnits = true) (i : Nat) (b : Bool) : UnitsOnly s (s.setBit r i b) := store s hr _
theorem bump (s : State) {r : Reg} (hr : r.ofUnits = true) (d : Nat) : UnitsOnly s (s.bump r d) := setFld s hr _ _ _

theorem setTile (s : State) (t : Nat) {f : Tile → Tile} (hf : (s.tile t).Fine → (f (s.tile t)).Fine) : UnitsOnly s (s.setTile t f) :=
  ⟨fun _ _ => rfl, rfl, fun h => h.setTile hf⟩

theorem setBcore (s : State) (c : Nat) (f : BCore → BCore) : UnitsOnly s (s.setBcore c f) := ⟨fun _ _ => rfl, rfl, id⟩
theorem setHcore (s : State) (k : Nat) (f : HCore → HCore) : UnitsOnly s (s.setHcore k f) := ⟨fun _ _ => rfl, rfl, id⟩
theorem setRng (s : State) (x : Rng) : UnitsOnly s { s with rng := x } := ⟨fun _ _ => rfl, rfl, id⟩
theorem draw (s : State) (n : Nat) : UnitsOnly s (s.draw n).2 := ⟨fun _ _ => rfl, rfl, id⟩

theorem sendMsix (s : State) (v : Nat) : UnitsOnly s (s.sendMsix v) := by
  unfold State.sendMsix
  split
  · exact refl s
  · split <;> exact ⟨fun _ _ => rfl, rfl, id⟩

theorem event (s : State) {stat : Reg} (h : stat.ofUnits = true) (en vec : Reg) (i : Nat) : UnitsOnly s (s.event stat en vec i) := by
  unfold State.event
  simp only
  split
  · exact (setBit s h i true).trans (sendMsix _ _)
  · exact setBit s h i true

theorem each {α : Type} {f : State → α → State} (hf : ∀ u a, UnitsOnly u (f u a)) (s : State) (l : List α) : UnitsOnly s (s.each l f) := by
  induction l generalizing s with
  | nil => exact refl s
  | cons a l ih => exact (hf s a).trans (ih (f s a))

theorem onlyIf {f : State → State} (hf : ∀ u, UnitsOnly u (f u)) (s : State) (c : Bool) : UnitsOnly s (s.onlyIf c f) := by
  cases c
  · exact refl s
  · exact hf s

/-! ### Tiles -/

theorem moreCycles (s : State) {r : Reg} (hr : r.ofUnits = true) (n : Nat) : UnitsOnly s (s.moreCycles r n) := store s hr fun _ => _

theorem addCycles (s : State) {r : Reg} (hr : r.ofUnits = true) : UnitsOnly s (s.addCycles r) := (draw s 4).trans (moreCycles _ hr _)

theorem wipeTile (s : State) (t : Nat) : UnitsOnly s (s.wipeTile t) := by
  have hwipe : ∀ x : Tile, x.wipe.Fine := fun x => Tile.Fine.idle
  unfold State.wipeTile
  simp only
  split
  · exact ((setBit s rfl 1 true).trans (setFld _ rfl 11 8 0)).trans (setTile _ t fun _ => hwipe _)
  · exact setTile s t fun _ => hwipe _

theorem freeTile (s : State) (t : Nat) : UnitsOnly s (s.freeTile t) := by
  unfold State.freeTile
  simp only
  split
  · exact refl s
  · refine .trans (.trans ?_ (wipeTile _ t)) (setTile _ t fun h => h)
    split
    · exact addCycles s rfl
    · exact moreCycles s rfl _

theorem freeShells (s : State) (x : Job) : UnitsOnly s (s.freeShells x) := each freeTile s _

/-! ### Shells -/

theorem restroke (s : State) (sh : Nat) : UnitsOnly s (s.restroke sh) :=
  (setFld s rfl 38 32 _).trans (each (fun u _ => setBit u rfl 15 _) _ _)

theorem setTileState (s : State) (t x : Nat) : UnitsOnly s (s.setTileState t x) := setFld s rfl 2 0 x
theorem setShellState (s : State) (sh x : Nat) : UnitsOnly s (s.setShellState sh x) := setFld s rfl 26 24 x

theorem joinShell (s : State) (t sh : Nat) : UnitsOnly s (s.joinShell t sh) := by
  unfold State.joinShell
  refine .trans (.trans (.trans (.trans (.trans ?_ (setBit _ rfl _ true)) (setTileState _ t 1)) (setFld _ rfl 14 8 sh)) (setTile _ t fun h => h)) (restroke _ sh)
  split
  · exact setFld s rfl 14 12 _
  · exact refl s

theorem leaveShell (s : State) (t x : Nat) : UnitsOnly s (s.leaveShell t x) := by
  unfold State.leaveShell
  cases s.shellOf t with
  | none => exact ((setTileState s t x).trans (setFld _ rfl 14 8 _)).trans (setBit _ rfl 15 false)
  | some sh =>
    exact ((((setBit s rfl _ false).trans (setTileState _ t x)).trans (setFld _ rfl 14 8 _)).trans (setBit _ rfl 15 false)).trans (restroke _ sh)

theorem reserve (sh n : Nat) : ∀ s : State, UnitsOnly s (s.reserve sh n).2 := by
  induction n with
  | zero => exact refl
  | succ n ih =>
    intro s
    rw [State.reserve]
    split
    · exact (setTile s _ fun h => h).trans (ih _)
    · exact refl s

theorem repairShell (s : State) (sh : Nat) (mc : Bool) : UnitsOnly s (s.repairShell sh mc) := by
  unfold State.repairShell
  simp only
  split
  · exact setShellState s sh _
  · split
    · exact setShellState s sh 3
    · split
      · exact (reserve sh _ s).trans (setShellState _ sh 2)
      · exact ((reserve sh _ s).trans (setShellState _ sh 3)).trans (onlyIf (fun u => event u rfl _ _ 2) _ _)

/-! ### Cores -/

theorem releaseFreed (s : State) (c : Nat) : UnitsOnly s (s.releaseFreed c) := setBcore s c _

theorem wipeCore (s : State) (c : Nat) : UnitsOnly s (s.wipeCore c) := by
  unfold State.wipeCore
  simp only
  split
  · exact setBcore s c _
  · exact ((setBcore s c _).trans (bump _ rfl _)).trans (event _ rfl _ _ 4)

theorem setBneState (s : State) (c x : Nat) : UnitsOnly s (s.setBneState c x) := setFld s rfl 2 0 x

theorem dropHandle (s : State) (n h : Nat) : UnitsOnly s (s.dropHandle n h) := setBcore s _ _

/-! ### Leaving -/

theorem vacated (s : State) (n : Nat) (u : JobUnit) : UnitsOnly s (s.vacated n u) := by
  unfold State.vacated
  cases u with
  | sc => exact refl s
  | hash k =>
    simp only
    split
    · exact setHcore s k _
    · exact refl s
  | bne c f =>
    simp only
    have hframe : UnitsOnly s (if s.bit (.slmSliceCtrl n) 4 then
        s.setBcore c (fun b => if f = 0 then { b with f0 := none } else { b with f1 := none }) else s) := by
      split
      · exact setBcore s c _
      · exact refl s
    revert hframe
    generalize (if s.bit (.slmSliceCtrl n) 4 then
        s.setBcore c (fun b => if f = 0 then { b with f0 := none } else { b with f1 := none }) else s) = u
    intro hframe
    split
    · exact (((hframe.trans (releaseFreed _ c)).trans (wipeCore _ c)).trans (setBneState _ c 3)).trans (setBcore _ c _)
    · exact hframe.trans (releaseFreed _ c)
  | shell sh =>
    simp only
    split
    · split
      · exact refl s
      · exact (each (fun u t => (leaveShell u t 4).trans (setTile _ t fun h => h)) s _).trans (repairShell _ sh false)
    · exact refl s

theorem vacateAll (s : State) (x : Job) : UnitsOnly s (s.vacateAll x) := each (fun u => vacated u x.slice) s _

theorem dropLoad (s : State) (x : Job) : UnitsOnly s (s.dropLoad x) := by
  unfold State.dropLoad
  split
  · split
    · exact refl s
    · exact setBcore s _ _
  · exact refl s

theorem dropDemand (s : State) (x : Job) : UnitsOnly s (s.dropDemand x) := by
  unfold State.dropDemand
  split
  · exact (setRng s _).trans (setFld _ rfl 17 8 _)
  · exact refl s

theorem lostCycles (s : State) (x : Job) : UnitsOnly s (s.lostCycles x) := by
  unfold State.lostCycles
  split
  · exact addCycles s rfl
  · exact refl s

theorem caughtCycles (s : State) (x : Job) : UnitsOnly s (s.caughtCycles x) := by
  unfold State.caughtCycles
  split
  · exact moreCycles s rfl _
  · exact refl s

end UnitsOnly

end Sys2Proof.Machine
end

section
/-! PROOFS. Jobs that end or are executed again: what that can change at all, and what it makes of the job itself. -/

namespace Sys2Proof.Machine

/-! ### What a job keeps -/

/-- What a job keeps until it leaves: its number, its place, its descriptor, the key it has read, and whether it was executed again. -/
structure Job.Follows (x y : Job) : Prop where
  id : y.id = x.id
  slice : y.slice = x.slice
  queue : y.queue = x.queue
  index : y.index = x.index
  desc : y.desc = x.desc
  retried : x.retried = true → y.retried = true

namespace Job.Follows

theorem refl (x : Job) : x.Follows x := ⟨rfl, rfl, rfl, rfl, rfl, fun h => h⟩

theorem trans {x y z : Job} (h : x.Follows y) (h' : y.Follows z) : x.Follows z :=
  ⟨h'.id.trans h.id, h'.slice.trans h.slice, h'.queue.trans h.queue, h'.index.trans h.index, h'.desc.trans h.desc, fun hr => h'.retried (h.retried hr)⟩

end Job.Follows

/-- From `s` to `t` jobs end, wait again or leave units: none joins or leaves those in flight, and beside them and the units only
counter cells change. -/
structure JobsOnly (s t : State) : Prop where
  regs : ∀ r, r.ofUnits = false → t.rd r = s.rd r
  rest : ({ t with regs := s.regs, shadow := s.shadow, out := s.out, msixPend := s.msixPend, freeCtr := s.freeCtr, tiles := s.tiles
                   hcores := s.hcores, bcores := s.bcores, rng := s.rng, jobs := s.jobs, cells := s.cells } : State) = s
  fine : s.TilesFine → t.TilesFine
  cells : (∀ e ∈ s.cells, e.2.Sound) → ∀ e ∈ t.cells, e.2.Sound
  jobs : ∃ f : Job → Job, t.jobs = s.jobs.map f ∧ ∀ x : Job, x.Follows (f x)

theorem UnitsOnly.jobsOnly {s t : State} (h : UnitsOnly s t) : JobsOnly s t :=
  ⟨h.regs, by rw [← h.jobs, ← h.cells]; exact h.rest, h.fine, by rw [h.cells]; exact id, fun hx => hx, by rw [h.jobs]; simp, .refl⟩

namespace JobsOnly

theorem refl (s : State) : JobsOnly s s := (UnitsOnly.refl s).jobsOnly

theorem trans {s t u : State} (h : JobsOnly s t) (h' : JobsOnly t u) : JobsOnly s u := by
  obtain ⟨f, hf, hfollows⟩ := h.jobs
  obtain ⟨g, hg, hfollows'⟩ := h'.jobs
  exact ⟨fun r hr => (h'.regs r hr).trans (h.regs r hr),
    (congrArg (fun x : State => { x with regs := s.regs, shadow := s.shadow, out := s.out, msixPend := s.msixPend, freeCtr := s.freeCtr
                                         tiles := s.tiles, hcores := s.hcores, bcores := s.bcores, rng := s.rng
                                         jobs := s.jobs, cells := s.cells }) h'.rest).trans h.rest,
    fun hs => h'.fine (h.fine hs), fun hs => h'.cells (h.cells hs), g ∘ f, by rw [hg, hf, List.map_map],
    fun x => (hfollows x).trans (hfollows' (f x))⟩

theorem slots {s t : State} (h : JobsOnly s t) : t.slots = s.slots := (congrArg State.slots h.rest :)
theorem memo {s t : State} (h : JobsOnly s t) : t.memo = s.memo := (congrArg State.memo h.rest :)
theorem sram {s t : State} (h : JobsOnly s t) : t.sram = s.sram := (congrArg State.sram h.rest :)
theorem ddr {s t : State} (h : JobsOnly s t) : t.ddr = s.ddr := (congrArg State.ddr h.rest :)
theorem tamper {s t : State} (h : JobsOnly s t) : t.tamper = s.tamper := (congrArg State.tamper h.rest :)

theorem sound {s t : State} (h : JobsOnly s t) (hs : s.Sound) : t.Sound := by
  have hfine := h.fine fun e he => ⟨hs.tiles e he, hs.vectors e he⟩
  exact ⟨h.sram ▸ hs.sram, h.ddr ▸ hs.ddr, fun e he => (hfine e he).1, fun e he => (hfine e he).2, h.cells hs.cells⟩

theorem setJob (s : State) (j : Nat) {f : Job → Job} (hf : ∀ x : Job, x.Follows (f x)) : JobsOnly s (s.setJob j f) :=
  ⟨fun _ _ => rfl, rfl, id, id, fun x => if x.id = j then f x else x, rfl, fun x => by dsimp only; split; exacts [hf x, .refl x]⟩

theorem each {α : Type} {f : State → α → State} (hf : ∀ u a, JobsOnly u (f u a)) (s : State) (l : List α) : JobsOnly s (s.each l f) := by
  induction l generalizing s with
  | nil => exact refl s
  | cons a l ih => exact (hf s a).trans (ih (f s a))

theorem onlyIf {f : State → State} (hf : ∀ u, JobsOnly u (f u)) (s : State) (c : Bool) : JobsOnly s (s.onlyIf c f) := by
  cases c
  · exact refl s
  · exact hf s

/-- A cell given back holds no key, and so keeps its bounds. -/
theorem dropCell (s : State) (x : Job) : JobsOnly s (s.dropCell x) := by
  unfold State.dropCell
  split
  · exact ⟨fun _ _ => rfl, rfl, id, fun h => mem_tset h ⟨nofun, nofun⟩, fun hx => hx, by simp, .refl⟩
  · exact refl s

/-! ### Ends -/

theorem endJob (s : State) (j : Nat) (r : Result) : JobsOnly s (s.endJob j r) := by
  unfold State.endJob
  cases s.job? j with
  | none => exact refl s
  | some x =>
    simp only
    split
    · exact refl s
    · have hcell : JobsOnly s (if r.commit = Commit.none then (s.freeShells x).dropCell x else s.freeShells x) := by
        split
        · exact (UnitsOnly.freeShells s x).jobsOnly.trans (dropCell _ x)
        · exact (UnitsOnly.freeShells s x).jobsOnly
      revert hcell
      generalize (if r.commit = Commit.none then (s.freeShells x).dropCell x else s.freeShells x) = u
      intro hcell
      refine .trans (.trans (.trans hcell ?_) (setJob _ j fun y => ?_)) (.trans (UnitsOnly.vacateAll _ x).jobsOnly
        (each (fun v c => (UnitsOnly.releaseFreed v c).jobsOnly) _ _))
      · refine .trans ?_ ((UnitsOnly.dropDemand _ x).trans (.dropLoad _ x)).jobsOnly
        split
        · exact each (fun v h => (UnitsOnly.dropHandle v _ h).jobsOnly) u _
        · exact refl u
      · exact ⟨rfl, rfl, rfl, rfl, rfl, fun h => h⟩

theorem setHalf_follows (x : Job) (pq : Bool) (h : Half) : x.Follows (x.setHalf pq h) := by
  cases pq <;> exact ⟨rfl, rfl, rfl, rfl, rfl, fun h => h⟩

theorem endHalf (s : State) (j : Nat) (pq : Bool) (r : Result) : JobsOnly s (s.endHalf j pq r) := by
  unfold State.endHalf
  cases s.job? j with
  | none => exact refl s
  | some x =>
    simp only
    split
    · exact refl s
    · refine .trans (.trans (.trans ?_ (setJob _ j fun y => ?_)) (onlyIf (fun v => (UnitsOnly.dropDemand v x).jobsOnly) _ _))
        (each (fun v u => (UnitsOnly.vacated v _ u).jobsOnly) _ _)
      · cases pq
        · exact refl s
        · exact (UnitsOnly.freeShells s x).jobsOnly
      · obtain ⟨h1, h2, h3, h4, h5, h6⟩ := setHalf_follows y pq { x.half pq with phase := .sealed, result := some r }
        exact ⟨h1, h2, h3, h4, h5, h6⟩

theorem abort (s : State) (j : Nat) : JobsOnly s (s.abort j) := (endJob s j _).trans (UnitsOnly.bump _ rfl 1).jobsOnly

theorem endPart (s : State) (x : Job) (k status : Nat) : JobsOnly s (s.endPart x k status) := by
  unfold State.endPart
  split
  · exact endHalf s _ _ _
  · split
    · exact abort s _
    · exact endJob s _ _

theorem dropUncarried (s : State) : JobsOnly s s.dropUncarried := by
  unfold State.dropUncarried
  refine each (fun u (x : Job) => each (fun v k => ?_) u x.needs) s _
  split
  · exact endPart v x k _
  · exact refl v

theorem departing {f : State → State} (hf : ∀ u, JobsOnly u (f u)) (s : State) : JobsOnly s (s.departing f) :=
  (hf s).trans (onlyIf dropUncarried _ _)

theorem jobEnds (s : State) (j : Nat) (r : Result) : JobsOnly s (s.jobEnds j r) := departing (fun u => endJob u j r) s

/-! ### Re-executions -/

/-- A retry counted at the pool it ran in, if any. -/
theorem bumpPool_of {s t : State} (h : JobsOnly s t) (p : Option Nat) :
    JobsOnly s (match p with | some p => t.bump (.fabPoolRetry p) | none => t) := by
  cases p with
  | none => exact h
  | some p => exact h.trans (UnitsOnly.bump t rfl 1).jobsOnly

theorem retry (s : State) (j : Nat) (counts : Bool) : JobsOnly s (s.retry j counts) := by
  unfold State.retry
  cases s.job? j with
  | none => exact refl s
  | some x =>
    simp only
    split
    · exact refl s
    · split
      · exact departing (fun u => abort u j) s
      · refine .trans ?_ (onlyIf dropUncarried _ _)
        refine bumpPool_of ?_ x.pool
        refine .trans (.trans (.trans ?_ (setJob _ j fun y => ?_)) (UnitsOnly.vacateAll _ x).jobsOnly) (UnitsOnly.bump _ rfl 1).jobsOnly
        · exact (((UnitsOnly.lostCycles s x).trans (.freeShells _ x)).trans ((UnitsOnly.dropDemand _ x).trans (.dropLoad _ x))).jobsOnly
        · exact ⟨rfl, rfl, rfl, rfl, rfl, fun _ => rfl⟩

theorem retryHalf (s : State) (j : Nat) (pq counts : Bool) : JobsOnly s (s.retryHalf j pq counts) := by
  unfold State.retryHalf
  cases s.job? j with
  | none => exact refl s
  | some x =>
    simp only
    split
    · exact refl s
    · split
      · exact departing (fun u => endHalf u j pq _) s
      · refine .trans ?_ (onlyIf dropUncarried _ _)
        refine bumpPool_of ?_ (x.half pq).pool
        refine .trans (.trans (.trans (.trans ?_ (setJob _ j fun y => ?_)) (onlyIf (fun v => (UnitsOnly.dropDemand v x).jobsOnly) _ _))
          (each (fun v u => (UnitsOnly.vacated v _ u).jobsOnly) _ _)) (UnitsOnly.bump _ rfl 1).jobsOnly
        · cases pq
          · exact (UnitsOnly.lostCycles s x).jobsOnly
          · exact (UnitsOnly.freeShells s x).jobsOnly
        · obtain ⟨h1, h2, h3, h4, h5, -⟩ := setHalf_follows y pq (x.half pq).again
          exact ⟨h1, h2, h3, h4, h5, fun _ => rfl⟩

theorem retryOn (s : State) (u : JobUnit) (counts : Bool) (x : Job) : JobsOnly s (s.retryOn u counts x) := by
  unfold State.retryOn
  split
  · exact retryHalf s _ _ _
  · split
    · exact retryHalf s _ _ _
    · exact retry s _ _

/-! ### Cancels -/

theorem cancel (s : State) (j : Nat) : JobsOnly s (s.cancel j) := endJob s j _

theorem cancelBne (s : State) (x : Job) : JobsOnly s (s.cancelBne x) := by
  refine (UnitsOnly.caughtCycles s x).jobsOnly.trans ?_
  unfold State.cancelBne
  simp only
  split
  · split
    · exact (endHalf _ _ _ _).trans (endHalf _ _ _ _)
    · exact endHalf _ _ _ _
  · exact cancel _ _

theorem cancelWaiting (s : State) (p : Job → Bool) (yields : Bool) : JobsOnly s (s.cancelWaiting p yields) :=
  each (fun u x => by
    split
    · exact cancelBne u x
    · exact cancel u x.id) s _

end JobsOnly

/-! ### What becomes of the job -/

/-- A job that has ended with a result. -/
def Job.ended (x : Job) (r : Result) : Job :=
  { x with phase := .sealed, result := some r, suspect := false, yielded := false, journal := x.journal && decide (r.commit ≠ .none) }

/-- A dip keeps a suspect job from ending so (R420). -/
def State.holdsBack (s : State) (x : Job) (r : Result) : Bool :=
  x.suspect && s.tamper.dip.isSome && !(decide (0x40 ≤ r.status) && decide (r.status ≤ 0x42))

theorem State.jobs_each {α : Type} {f : State → α → State} (hf : ∀ u a, UnitsOnly u (f u a)) (s : State) (l : List α) :
    (s.each l f).jobs = s.jobs := (UnitsOnly.each hf s l).jobs

theorem State.dropCell_jobs (s : State) (x : Job) : (s.dropCell x).jobs = s.jobs := by
  unfold State.dropCell; split <;> rfl

theorem endJob_jobs {s : State} {j : Nat} {x : Job} {r : Result} (hj : s.job? j = some x) (hheld : s.holdsBack x r = false) :
    (s.endJob j r).jobs = (s.setJob j (·.ended r)).jobs := by
  unfold State.holdsBack at hheld
  have hcell : (if r.commit = Commit.none then (s.freeShells x).dropCell x else s.freeShells x).jobs = s.jobs := by
    split
    · rw [State.dropCell_jobs, (UnitsOnly.freeShells s x).jobs]
    · exact (UnitsOnly.freeShells s x).jobs
  simp only [State.endJob, hj, hheld, Bool.false_eq_true, if_false]
  generalize (if r.commit = Commit.none then (s.freeShells x).dropCell x else s.freeShells x) = u at hcell ⊢
  rw [State.jobs_each UnitsOnly.releaseFreed, (UnitsOnly.vacateAll _ x).jobs]
  have hhandles : (if r.status = 0x40 ∨ r.status = 0x41 then u.each ((handlesOf x.desc).map (·.2)) (fun s h => s.dropHandle x.slice h) else u).jobs =
      s.jobs := by
    split
    · rw [State.jobs_each fun v h => UnitsOnly.dropHandle v _ h, hcell]
    · exact hcell
  simp only [State.setJob, (UnitsOnly.dropLoad _ x).jobs, (UnitsOnly.dropDemand _ x).jobs, hhandles, Job.ended]

theorem endJob_held {s : State} {j : Nat} {x : Job} {r : Result} (hj : s.job? j = some x) (hheld : s.holdsBack x r = true) : s.endJob j r = s := by
  unfold State.holdsBack at hheld
  simp only [State.endJob, hj, hheld, if_true]

theorem State.job?_congr {s t : State} (h : t.jobs = s.jobs) (k : Nat) : t.job? k = s.job? k := by simp only [State.job?, h]

theorem State.job?_setJob_self {s : State} {j : Nat} {x : Job} (hj : s.job? j = some x) (f : Job → Job) (hf : ∀ y, (f y).id = y.id) :
    (s.setJob j f).job? j = some (f x) := by
  rw [job?_setJob s j j f fun y hy => (hf y).trans hy, if_pos rfl, hj]; rfl

theorem State.job?_setJob_ne (s : State) {j k : Nat} (f : Job → Job) (hf : ∀ y, (f y).id = y.id) (hk : k ≠ j) :
    (s.setJob j f).job? k = s.job? k := by
  rw [job?_setJob s j k f fun y hy => (hf y).trans hy, if_neg hk]

/-- Ending one job leaves the others. -/
theorem endJob_job?_ne (s : State) {j k : Nat} (r : Result) (hk : k ≠ j) : (s.endJob j r).job? k = s.job? k := by
  cases hj : s.job? j with
  | none => simp only [State.endJob, hj]
  | some x =>
    cases hheld : s.holdsBack x r with
    | true => rw [endJob_held hj hheld]
    | false => rw [State.job?_congr (endJob_jobs hj hheld), State.job?_setJob_ne s (·.ended r) (fun _ => rfl) hk]

theorem endJob_job? {s : State} {j : Nat} {x : Job} {r : Result} (hj : s.job? j = some x) (hheld : s.holdsBack x r = false) :
    (s.endJob j r).job? j = some (x.ended r) := by
  rw [State.job?_congr (endJob_jobs hj hheld)]; exact State.job?_setJob_self hj _ fun _ => rfl

/-- A change of one job, after a step of the units or before it. -/
theorem UnitsOnly.setJob_congr {s t : State} (j : Nat) (f : Job → Job) (h : UnitsOnly s t) : UnitsOnly (s.setJob j f) (t.setJob j f) :=
  ⟨h.regs, congrArg (fun x : State => x.setJob j f) h.rest, h.fine⟩

theorem UnitsOnly.bumpPool_of {s t : State} (h : UnitsOnly s t) (p : Option Nat) :
    UnitsOnly s (match p with | some p => t.bump (.fabPoolRetry p) | none => t) := by
  cases p with
  | none => exact h
  | some p => exact h.trans (.bump t rfl 1)

/-- A job that waits to be executed once more. -/
def Job.retries (x : Job) (counts : Bool) : Job := { x.again with failures := x.failures + (if counts then 1 else 0) }

/-- A re-execution with no unit leaving: the job waits again, and beside the units only that changes. -/
theorem retry_spec {s : State} {j : Nat} {x : Job} {counts : Bool} (hj : s.job? j = some x) (hphase : x.phase ≠ .sealed ∧ x.phase ≠ .waiting)
    (hfail : counts = true → x.failures < 2) (hleave : s.leaving = false) :
    UnitsOnly (s.setJob j (·.retries counts)) (s.retry j counts) := by
  have hphase : ¬(x.phase = .sealed ∨ x.phase = .waiting) := not_or.mpr hphase
  have hfail : (counts && decide (2 ≤ x.failures)) = false := by cases counts <;> simp_all
  simp only [State.retry, hj, hphase, hfail, hleave, Bool.false_eq_true, if_false, State.onlyIf]
  refine UnitsOnly.bumpPool_of ?_ x.pool
  refine .trans (.trans ?_ (.vacateAll _ x)) (.bump _ rfl 1)
  exact .setJob_congr j _ (((UnitsOnly.lostCycles s x).trans (.freeShells _ x)).trans ((UnitsOnly.dropDemand _ x).trans (.dropLoad _ x)))

end Sys2Proof.Machine
end

section
/-! PROOFS. SLH-DSA signing with its memo, resident operands, DESTROY (O10). -/

namespace Sys2Proof.Machine

/-! ### SLHDSA_SIGN -/

theorem computing_phase {s : State} {op : Nat} {x : Job} (h : s.computing op x = true) : x.phase = .gathered := by
  simp only [State.computing, Bool.and_eq_true, decide_eq_true_eq] at h
  exact h.1.1.1.1.1

theorem exec_slhdsaSign {s s' : State} {j : Nat} {x : Job} {l : List Bytes} (ue : List Nat) (hj : s.job? j = some x)
    (hc : s.computing 0x0302 x = true) (hd : s.drawAll x (slhdsaSign.draws x) = .got l s') :
    exec (.slhdsaSign j ue) s = .next (s'.signMemo x l ue) := by
  have hc : s.computing slhdsaSign.opcode x = true := hc
  change execSlhdsaSign j s ue = _
  simp only [execSlhdsaSign, hj, hc, hd, Bool.not_true, Bool.false_eq_true, if_false]

theorem memoPath_of_depth_zero {x : Job} (h : attrMemo x.attr = 0) (rnd : Bytes) : memoPath x rnd = [] := by
  simp only [memoPath, h, below, Nat.sub_zero]
  rw [List.map_eq_nil_iff, List.filter_eq_nil_iff]
  intro i hi
  simpa using List.mem_range.mp hi

theorem writeMemo_nil (s : State) (x : Job) : s.writeMemo x [] = s := by
  simp [State.writeMemo]

theorem signMemo_of_depth_zero (s : State) {x : Job} (h : attrMemo x.attr = 0) (l : List Bytes) (ue : List Nat) :
    s.signMemo x l ue = s.settle x (.done (slhSign (pSet (dParam x.desc)) x.key (framed x.desc x.main x.ctx) (optRand x l))) := by
  have hheld : (s.memoOf x).filter (fun e => decide (e.1 ∈ ([] : List MemoKey))) = [] := by simp
  simp only [State.signMemo, memoPath_of_depth_zero h, writeMemo_nil, hheld]
  rfl

theorem memoUe_frame (s : State) : (s.memoUe).jobs = s.jobs ∧ s.memoUe.memo = s.memo ∧ s.memoUe.slots = s.slots ∧ s.memoUe.leaving = s.leaving := by
  have h := (ddrUe_frame (s.draw 5).2 (leNat (s.draw 5).1)).2
  exact ⟨(congrArg State.jobs h :), (congrArg State.memo h :), (congrArg State.slots h :), (congrArg State.leaving h :)⟩

/-- The entries on the path that the signature has, those among them that cannot be read, and those that cannot be used. -/
def State.memoHeld (s : State) (x : Job) (l : List Bytes) : List (MemoKey × Bytes) :=
  (s.memoOf x).filter (fun e => decide (e.1 ∈ memoPath x (optRand x l)))
def State.memoLost (s : State) (x : Job) (l : List Bytes) (ue : List Nat) : List (MemoKey × Bytes) :=
  (s.memoHeld x l).filter (fun e => decide (e.1.layer ∈ ue))
def State.memoBad (s : State) (x : Job) (l : List Bytes) (ue : List Nat) : List (MemoKey × Bytes) :=
  (s.memoHeld x l).filter (fun e => decide (e.1.layer ∈ ue) || !s.ddrReady || !memoOk s.memoKey e.2)

/-- Entries leave the memo, and job `j` forgets them. -/
def State.forget (s : State) (j : Nat) (bad : List (MemoKey × Bytes)) : State :=
  ({ s with memo := s.memo.filter (fun e => !decide (e ∈ bad)) } : State).setJob j (fun y =>
    { y with memo := y.memo.filter (fun e => !decide (e ∈ bad)) })

theorem signMemo_of_bad {s : State} {x : Job} {l : List Bytes} {ue : List Nat} (h : (s.memoBad x l ue).isEmpty = false) :
    s.signMemo x l ue = (((((s.each (s.memoLost x l ue) (fun s _ => s.memoUe)).forget x.id (s.memoBad x l ue)).bump .hsfMemoRebuilt
      (s.memoBad x l ue).length).hsfEvt 4).retry x.id true) := by
  unfold State.signMemo
  exact if_neg (by rw [State.memoBad, State.memoHeld] at h; simp only [h]; decide)

theorem hsfEvt_bit (s : State) (i : Nat) (hi : i < 64) : (s.hsfEvt i).bit .hsfEvtStatus i = true := by
  have hset : (s.setBit .hsfEvtStatus i true).bit .hsfEvtStatus i = true := by
    simp only [State.bit, State.rd_setBit, if_true]; simp [getB_setB, hi]
  unfold State.hsfEvt State.event
  simp only
  split
  · rw [State.bit, sendMsix_rd]; exact hset
  · exact hset

/-- An entry on the path that cannot be read goes, with its event, and the job is executed again. -/
theorem signMemo_of_unreadable {s : State} {x y : Job} {l : List Bytes} {ue : List Nat} {k : MemoKey} {b : Bytes}
    (hj : s.job? x.id = some y) (hphase : y.phase = .gathered) (hheld : (k, b) ∈ s.memoOf x) (hpath : k ∈ memoPath x (optRand x l))
    (hue : k.layer ∈ ue) (hfail : y.failures < 2) (hleave : s.leaving = false) :
    ∃ z, (k, b) ∉ (s.signMemo x l ue).memo ∧ (s.signMemo x l ue).job? x.id = some z ∧ z.phase = .waiting ∧ z.retried = true ∧
      (s.signMemo x l ue).bit .hsfEvtStatus 4 = true ∧ (s.signMemo x l ue).slots = s.slots := by
  have hbad : (k, b) ∈ s.memoBad x l ue := by simp [State.memoBad, State.memoHeld, hheld, hpath, hue]
  have hsome : (s.memoBad x l ue).isEmpty = false := by
    cases h : s.memoBad x l ue with
    | nil => rw [h] at hbad; cases hbad
    | cons a l => rfl
  rw [signMemo_of_bad hsome]
  revert hbad
  generalize s.memoBad x l ue = bad
  generalize s.memoLost x l ue = lost
  intro hbad
  obtain ⟨u, hu⟩ : ∃ u, u = s.each lost (fun s _ => s.memoUe) := ⟨_, rfl⟩
  have hjobs : u.jobs = s.jobs := hu ▸ s.each_keeps State.jobs _ (fun v _ => (memoUe_frame v).1) lost
  have hslots : u.slots = s.slots := hu ▸ s.each_keeps State.slots _ (fun v _ => (memoUe_frame v).2.2.1) lost
  have hleave' : u.leaving = s.leaving := hu ▸ s.each_keeps State.leaving _ (fun v _ => (memoUe_frame v).2.2.2) lost
  rw [← hu]
  obtain ⟨v, hv⟩ : ∃ v, v = ((u.forget x.id bad).bump .hsfMemoRebuilt bad.length).hsfEvt 4 := ⟨_, rfl⟩
  have hrest : RegsAndMessages [.hsfEvtStatus] ((u.forget x.id bad).bump .hsfMemoRebuilt bad.length) v := by
    rw [hv]; exact RegsAndMessages.event (List.mem_singleton_self _) _ _ _ 4
  have hbit : v.bit .hsfEvtStatus 4 = true := hv ▸ hsfEvt_bit _ 4 (by omega)
  have hvjobs : v.jobs = (u.forget x.id bad).jobs := (congrArg State.jobs hrest.2 :)
  have hvmemo : v.memo = (u.forget x.id bad).memo := (congrArg State.memo hrest.2 :)
  have hvslots : v.slots = u.slots := (congrArg State.slots hrest.2 :)
  have hvleave : v.leaving = u.leaving := (congrArg State.leaving hrest.2 :)
  rw [← hv]
  have hvj : v.job? x.id = some { y with memo := y.memo.filter (fun e => !decide (e ∈ bad)) } := by
    rw [State.job?_congr hvjobs]
    exact State.job?_setJob_self (by rw [← hj, ← State.job?_congr hjobs]; rfl) _ fun _ => rfl
  have hretry := retry_spec (counts := true) hvj (by simp [hphase]) (fun _ => hfail) (hvleave.trans (hleave'.trans hleave))
  have hdone : (v.retry x.id true).job? x.id = some (({ y with memo := y.memo.filter (fun e => !decide (e ∈ bad)) } : Job).retries true) := by
    rw [hretry.job?]; exact State.job?_setJob_self hvj _ fun _ => rfl
  refine ⟨_, ?_, hdone, rfl, rfl, ?_, ?_⟩
  · rw [hretry.memo]
    change (k, b) ∉ v.memo
    rw [hvmemo]
    change (k, b) ∉ u.memo.filter (fun e => !decide (e ∈ bad))
    simp [hbad]
  · rw [State.bit, hretry.regs _ rfl]; exact hbit
  · rw [hretry.slots]; exact hvslots.trans hslots

/-! ### Resident operands -/

theorem nextGen_ne_zero (g : Nat) : nextGen g ≠ 0 := by unfold nextGen; split <;> omega

/-- A settled job and what the units around it keep. -/
theorem settle_bcore (s : State) (x : Job) (r : Result) (c : Nat) : (s.settle x r).bcore c = s.bcore c :=
  congrArg (tget (⟨none, none, [], false, false⟩ : BCore) c) (settle_spec s x r).1.bcores

theorem settle_slots (s : State) (x : Job) (r : Result) : (s.settle x r).slots = s.slots := (settle_spec s x r).1.slots

/-- The state after entry `e` of core `c` has come to hold an operand of slice `n`. -/
def State.loads (s : State) (c e n : Nat) (v : Bytes) : State :=
  s.setBcore c (fun b => { b with res := tset e ⟨nextGen (tget ⟨0, none, []⟩ e (s.bcore c).res).gen, some n, v⟩ b.res })

theorem loads_entry (s : State) (c e n : Nat) (v : Bytes) :
    tget ⟨0, none, []⟩ e ((s.loads c e n v).bcore c).res = ⟨nextGen (tget ⟨0, none, []⟩ e (s.bcore c).res).gen, some n, v⟩ := by
  simp only [State.loads, State.bcore, State.setBcore, tget_tset, if_true]

theorem exec_loadOperand {s : State} {j c e : Nat} {x : Job} (hj : s.job? j = some x) (hc : s.computing 0x0B04 x = true) (ha : s.rawA x ≠ 0)
    (hcore : x.core = some c) (he : s.loadEntry x.slice c (8 * (pSet (dParam x.desc) + 1)) = some e) :
    exec (.loadOperand j) s = .next ((s.loads c e x.slice (leBytes (8 * (pSet (dParam x.desc) + 1)) (s.rawA x))).settle x
      ⟨0, handleOf c e (nextGen (tget ⟨0, none, []⟩ e (s.bcore c).res).gen), [], .none⟩) := by
  refine congrArg Host.Outcome.next ?_
  simp only [State.loadJob, hj, hc, ha, hcore, he, Bool.not_true, Bool.false_eq_true, if_false]
  rfl

/-- The state after the owner of the entry of handle `h` has gone, with the storage of freed entries. -/
def State.frees (s : State) (h : Nat) : State :=
  (s.setBcore (handleCore h) (fun b =>
    { b with res := tset (h % 64) { tget ⟨0, none, []⟩ (h % 64) b.res with owner := none } b.res })).releaseFreed (handleCore h)

theorem exec_freeHandle {s : State} {j : Nat} {x : Job} {v : Bytes} (hj : s.job? j = some x) (hc : s.computing 0x0B05 x = true)
    (hv : s.handleVal x.slice (leAt x.desc 96 4) = some v) :
    exec (.freeHandle j) s = .next ((s.frees (leAt x.desc 96 4)).settle x (.done [])) := by
  refine congrArg Host.Outcome.next ?_
  simp only [State.freeJob, hj, hc, hv, Bool.not_true, Bool.false_eq_true, if_false]
  rfl

/-- A change of entries that keeps their keys and owners keeps the owner read at each key. -/
theorem tget_map_owner (f : Nat × Resident → Nat × Resident) (hkey : ∀ e, (f e).1 = e.1) (howner : ∀ e, (f e).2.owner = e.2.owner)
    (k : Nat) (l : List (Nat × Resident)) : (tget ⟨0, none, []⟩ k (l.map f)).owner = (tget ⟨0, none, []⟩ k l).owner := by
  induction l with
  | nil => rfl
  | cons e l ih =>
    have hk := hkey e
    have ho := howner e
    rw [List.map_cons]
    obtain ⟨a, r⟩ := e
    generalize f (a, r) = e' at hk ho
    obtain ⟨a', r'⟩ := e'
    simp only at hk ho
    simp only [tget, hk]
    split
    · exact ho
    · exact ih

theorem releaseFreed_owner (s : State) (c k : Nat) :
    (tget ⟨0, none, []⟩ k ((s.releaseFreed c).bcore c).res).owner = (tget ⟨0, none, []⟩ k (s.bcore c).res).owner := by
  simp only [State.releaseFreed, State.bcore_setBcore, if_true]
  exact tget_map_owner _ (fun e => by split <;> rfl) (fun e => by split <;> rfl) k _

theorem handleVal_of_owner_none {s : State} {n h : Nat} (ho : (tget ⟨0, none, []⟩ (h % 64) (s.bcore (handleCore h)).res).owner = none) :
    s.handleVal n h = none := by
  simp [State.handleVal, ho]

/-- After a FREE the handle names nothing, for any slice. -/
theorem frees_handleVal (s : State) (h n : Nat) : (s.frees h).handleVal n h = none := by
  refine handleVal_of_owner_none ?_
  rw [State.frees, releaseFreed_owner, State.bcore_setBcore, if_pos rfl]
  simp only [tget_tset, if_true]

/-! ### DESTROY -/

theorem exec_destroy {s : State} {j : Nat} {x : Job} (hj : s.job? j = some x) (hc : s.computing 0x0D05 x = true) :
    exec (.destroy j) s = .next ((s.settle x ⟨0, 0, [], .empty (x.slot.getD 0)⟩).freeFirst (x.slot.getD 0)) := by
  refine congrArg Host.Outcome.next ?_
  simp only [State.destroyJob, hj, hc, Bool.not_true, Bool.false_eq_true, if_false]
  rfl

theorem lastOfCell_congr {s t : State} (hslots : t.slots = s.slots) (hcells : t.cells = s.cells) (a : Nat) : t.lastOfCell a = s.lastOfCell a := by
  have hslot : t.slotAt a = s.slotAt a := by simp only [State.slotAt, hslots]
  have hbound : ∀ c, t.cellSlots c = s.cellSlots c := fun c => by simp only [State.cellSlots, hslots]
  have hcell : ∀ c, t.cell c = s.cell c := fun c => by simp only [State.cell, hcells]
  simp only [State.lastOfCell, hslot, hbound, hcell]

/-- Settles O10: the memo of a signature, the entry of an operand, the cell of a destroyed slot. -/
theorem signingLoadingDestroying : Obligations.SigningLoadingDestroying := by
  refine ⟨⟨fun s s' j ue x l hj hc hd h0 => ?_, fun s s' j ue x l k b hj hc hd hheld hpath hue hfail hleave => ?_⟩,
    ⟨fun s j c e x hj hc ha hcore he => ?_, fun s j x v hj hc hv => ?_⟩, fun s j x hj hc => ⟨fun hlast => ?_, fun hlast => ?_⟩⟩
  · rw [exec_slhdsaSign ue hj hc hd, signMemo_of_depth_zero s' h0]
  · obtain ⟨hsame, htiles, -, st, hjobs⟩ := drawAll_got hd
    have hid := job?_id hj
    have hj' : s'.job? x.id = some (x.stretch st) := by rw [hjobs, if_pos rfl, hid, hj]; rfl
    have hphase : (x.stretch st).phase = .gathered := (computing_phase hc : x.phase = .gathered)
    have hleave' : s'.leaving = false := by rw [← hleave]; simp only [State.leaving, hsame.bcores, hsame.hcores, htiles]
    obtain ⟨z, hmemo, hz, hzphase, hzretried, hbit, hslots⟩ := signMemo_of_unreadable (l := l) (ue := ue) hj' hphase hheld hpath hue hfail hleave'
    exact ⟨_, z, exec_slhdsaSign ue hj hc hd, hmemo, hid ▸ hz, hzphase, hzretried, hbit, hslots.trans hsame.slots⟩
  · have hentry := loads_entry s c e x.slice (leBytes (8 * (pSet (dParam x.desc) + 1)) (s.rawA x))
    have hj' : (s.loads c e x.slice (leBytes (8 * (pSet (dParam x.desc) + 1)) (s.rawA x))).job? j = some x := hj
    refine ⟨_, _, _, exec_loadOperand hj hc ha hcore he, job?_settle hj' _, rfl, rfl, ?_⟩
    simp only [settle_bcore, hentry]
    exact ⟨trivial, trivial, trivial, nextGen_ne_zero _, settle_slots _ _ _⟩
  · have hj' : (s.frees (leAt x.desc 96 4)).job? j = some x := hj
    refine ⟨_, _, exec_freeHandle hj hc hv, job?_settle hj' _, rfl, fun n => ?_, settle_slots _ _ _⟩
    have := frees_handleVal s (leAt x.desc 96 4) n
    simpa only [State.handleVal, settle_bcore] using this
  · have hlast' := lastOfCell_congr (settle_slots s x ⟨0, 0, [], .empty (x.slot.getD 0)⟩) (settle_spec s x _).1.cells (x.slot.getD 0)
    rw [exec_destroy hj hc, State.freeFirst, hlast', hlast]; rfl
  · have hlast' := lastOfCell_congr (settle_slots s x ⟨0, 0, [], .empty (x.slot.getD 0)⟩) (settle_spec s x _).1.cells (x.slot.getD 0)
    have hfree : (s.settle x ⟨0, 0, [], .empty (x.slot.getD 0)⟩).freeFirst (x.slot.getD 0) = _ := if_pos (hlast'.trans hlast)
    refine ⟨_, _, (exec_destroy hj hc).trans (congrArg Host.Outcome.next hfree), ?_, job?_settle hj ⟨0, 0, [], .empty (x.slot.getD 0)⟩, rfl, rfl, settle_slots s x ⟨0, 0, [], .empty (x.slot.getD 0)⟩⟩
    simp only [State.slotAt, settle_slots, State.cell, State.setCell, tget_tset, if_true]

end Sys2Proof.Machine
end

section
/-! PROOFS. Counter cells and the stateful keys that use them (O11). -/

namespace Sys2Proof.Machine

/-! ### KEYGEN -/

/-- CELL of a new ATTR word. -/
theorem attrCell_newAttr (s : State) (c set owner a : Nat) (gen stateful extent : Bool) (cell : Nat) :
    attrCell (s.newAttr c set owner a gen stateful extent cell) = cell % 1024 := by
  have hflag : ∀ (b : Bool) (n : Nat), (if b then n else 0) ≤ n := fun b n => by cases b <;> simp
  have h1 := hflag gen 4
  have h2 := hflag (a.testBit 8) 8
  have h3 := hflag stateful 16
  have h4 := hflag s.testRoot 32
  have h5 := hflag extent 64
  have h6 := Nat.mod_lt a (show 0 < 64 by decide)
  have h7 := Nat.mod_lt set (show 0 < 256 by decide)
  have h8 := Nat.mod_lt c (show 0 < 256 by decide)
  have h9 := Nat.mod_lt owner (show 0 < 1024 by decide)
  have h10 := Nat.mod_lt cell (show 0 < 1024 by decide)
  unfold attrCell getF State.newAttr
  rw [BitVec.toNat_ofNat]
  omega

theorem attrCell_jobAttr (s : State) (x : Job) (gen : Bool) (n : Nat) (stateful : Bool) {c : Nat} (hc : c < 1024) :
    attrCell (s.jobAttr x gen n stateful c) = c := by
  rw [State.jobAttr, attrCell_newAttr, Nat.mod_eq_of_lt hc]

theorem firstBelow_lt {n i : Nat} {p : Nat → Bool} (h : firstBelow n p = some i) : i < n := List.mem_range.mp (List.mem_of_find?_eq_some h)

theorem onlyIf_ddr_cell (s : State) (b : Bool) (m : State → List Host.Cell) (c : Nat) :
    (s.onlyIf b (fun s => { s with ddr := m s })).cell c = s.cell c := by cases b <;> rfl

theorem putTrav_cell (s : State) (w : DWord) (mat : Bytes) (i : Nat) :
    (s.putTrav w mat i).cell (attrCell w) = { s.cell (attrCell w) with traversal := some (travOf w mat i).length } := by
  unfold State.putTrav
  rw [State.cell_setCell, if_pos rfl]

theorem putTrav_jobs (s : State) (w : DWord) (mat : Bytes) (i : Nat) : (s.putTrav w mat i).jobs = s.jobs := by
  unfold State.putTrav State.onlyIf
  simp only [State.setCell_jobs]
  split <;> rfl

/-- A cell as a KEYGEN takes it: it waits for the first LIMIT. -/
def State.takenCell (s : State) (x : Job) (c : Nat) : Cell :=
  { s.cell c with limit := 0, state := .used, next := some 0, cap := jobCapacity x, writing := some (min 512 (jobCapacity x))
                  freeing := false, waiters := [], rebuilding := false, traversal := none }

theorem takeCell_cell (s : State) (x : Job) {c : Nat} (seed : Bytes) (hc : c < 1024) :
    ∃ n, (s.takeCell x c seed).cell c = { s.takenCell x c with traversal := some n } := by
  have hw := attrCell_jobAttr (s.setCell c (s.takenCell x c)) x true (statefulMat x seed).length true hc
  have hcell := putTrav_cell (s.setCell c (s.takenCell x c))
    ((s.setCell c (s.takenCell x c)).jobAttr x true (statefulMat x seed).length true c) (statefulMat x seed) 0
  rw [hw, State.cell_setCell, if_pos rfl] at hcell
  exact ⟨_, hcell⟩

/-- A job whose key of cell `c` is made, with the result that waits for the acknowledgement. -/
def Job.keyMade (y : Job) (c : Nat) (r : Result) : Job := { y with sigIndex := some c, drawWait := false, drawn := [], result := some r }

/-- The result of a KEYGEN that has taken cell `c`. -/
def State.keygenResult (s : State) (x : Job) (c : Nat) (seed : Bytes) : Result :=
  let w := (s.setCell c (s.takenCell x c)).jobAttr x true (statefulMat x seed).length true c
  .fills (pubOf w (statefulMat x seed)) (.fill (x.slot.getD 0) w (statefulMat x seed))

theorem takeCell_job? {s : State} {x y : Job} (c : Nat) (seed : Bytes) (hj : s.job? x.id = some y) :
    (s.takeCell x c seed).job? x.id = some (y.keyMade c (s.keygenResult x c seed)) :=
  State.job?_setJob_self (f := (·.keyMade c (s.keygenResult x c seed))) ((State.job?_congr (putTrav_jobs (s.setCell c (s.takenCell x c)) _ _ _) x.id).trans hj) fun _ => rfl

theorem statefulKeygen_of {s s' : State} {j c op : Nat} {x : Job} {l : List Bytes} (hj : s.job? j = some x) (hc : s.computing op x = true)
    (hnew : x.newCell = none) (hfree : s.freeCell = some c) (hd : s.drawAll x [(true, statefulDraw x)] = .got l s') :
    s.statefulKeygen j op = s'.takeCell x c (nth l 0) := by
  simp only [State.statefulKeygen, hj, hc, hnew, hfree, hd, Bool.not_true, Bool.false_eq_true, if_false, Option.orElse_none]

/-- A KEYGEN with its draw takes the free cell and waits for the acknowledgement of its first LIMIT. -/
theorem statefulKeygen_takes {s s' : State} {j c op : Nat} {x : Job} {l : List Bytes} (hj : s.job? j = some x) (hc : s.computing op x = true)
    (hnew : x.newCell = none) (hfree : s.freeCell = some c) (hd : s.drawAll x [(true, statefulDraw x)] = .got l s') :
    ∃ t y, s.statefulKeygen j op = t ∧ (t.cell c).state = .used ∧ (t.cell c).next = some 0 ∧
        (t.cell c).limit = 0 ∧ (t.cell c).writing = some (min 512 (jobCapacity x)) ∧ (t.cell c).traversal.isSome = true ∧
        t.job? j = some y ∧ y.phase = .gathered ∧ y.sigIndex = some c ∧ y.result.isSome = true := by
  obtain ⟨-, -, -, b, hjobs⟩ := drawAll_got hd
  have hid := job?_id hj
  have hj' : s'.job? x.id = some (x.stretch b) := by rw [hjobs, if_pos rfl, hid, hj]; rfl
  obtain ⟨n, hcell⟩ := takeCell_cell s' x (nth l 0) (firstBelow_lt hfree)
  have hjob := takeCell_job? c (nth l 0) hj'
  rw [hid] at hjob
  refine ⟨_, _, statefulKeygen_of hj hc hnew hfree hd, ?_, ?_, ?_, ?_, ?_, hjob, (computing_phase hc : x.phase = .gathered), rfl, rfl⟩ <;> rw [hcell] <;> rfl

/-! ### SIGN -/

theorem statefulSign_of {s : State} {j i op : Nat} {x : Job} (hj : s.job? j = some x) (hc : s.computing op x = true) (hi : x.sigIndex = some i) :
    s.statefulSign j op = s.settle x (.done (statefulSig x i)) := by
  simp only [State.statefulSign, hj, hc, hi, Bool.not_true, Bool.false_eq_true, if_false]

/-! ### Acknowledgements -/

theorem sweepDue_of_none {s : State} (h : s.tamper.slotsDue = []) : s.sweepDue = s := by
  unfold State.sweepDue
  simp only [h, State.each, List.foldl_nil]
  obtain ⟨⟩ := s
  simp only at h ⊢
  congr
  rw [← h]

theorem lateWrites_of_none {s : State} (h : s.NothingDeferred) : s.lateWrites = s := by
  obtain ⟨hpressed, hmove⟩ := h
  have hfinish : s.finishPressed = s := by
    unfold State.finishPressed
    split
    · simp only [hpressed, Bool.false_and, Bool.false_eq_true, if_false]
    · rfl
  unfold State.lateWrites
  split
  · rfl
  · rw [hfinish]; simp only [State.resumeMove, hmove]

theorem giveIndices_of_none {s : State} {c : Nat} (h : (s.cell c).waiters = []) : s.giveIndices c = s := by
  simp only [State.giveIndices, h, State.each, List.foldl_nil]

theorem ready_keeps (x : Cell) : x.ready.limit = x.limit ∧ x.ready.waiters = x.waiters := by
  have hres : ∀ (y : Cell) n, (y.reserve n).limit = y.limit ∧ (y.reserve n).waiters = y.waiters := fun y n => by
    unfold Cell.reserve; split <;> exact ⟨rfl, rfl⟩
  unfold Cell.ready
  split
  · split
    · exact ⟨rfl, rfl⟩
    · exact hres _ _
  · split
    · exact hres _ _
    · exact ⟨rfl, rfl⟩

/-- The cell whose LIMIT in flight stands. -/
def Cell.acked (x : Cell) (l : Nat) : Cell := if x.next.isSome then ({ x with limit := l, writing := none } : Cell).ready else { x with limit := l, writing := none }

theorem acked_keeps (x : Cell) (l : Nat) : (x.acked l).limit = l ∧ (x.acked l).waiters = x.waiters := by
  unfold Cell.acked
  split
  · exact ready_keeps _
  · exact ⟨rfl, rfl⟩

theorem keygenAcked_cell (s : State) (c k : Nat) : (s.keygenAcked c).cell k = s.cell k :=
  s.each_keeps (·.cell k) (fun (u : State) (x : Job) => u.setJob x.id (fun y => { y with phase := .computed })) (fun _ _ => rfl) _

theorem keygenAcked_tamper (s : State) (c : Nat) : (s.keygenAcked c).tamper = s.tamper :=
  s.each_keeps State.tamper (fun (u : State) (x : Job) => u.setJob x.id (fun y => { y with phase := .computed })) (fun _ _ => rfl) _

theorem keygenAcked_deferred {s : State} (h : s.NothingDeferred) (c : Nat) : (s.keygenAcked c).NothingDeferred :=
  ⟨(s.each_keeps (·.mbx.pressed) (fun (u : State) (x : Job) => u.setJob x.id (fun y => { y with phase := .computed })) (fun _ _ => rfl) _).trans h.1,
    (s.each_keeps State.transition (fun (u : State) (x : Job) => u.setJob x.id (fun y => { y with phase := .computed })) (fun _ _ => rfl) _).trans h.2⟩

/-- An acknowledgement with nothing else due. -/
theorem exec_counterWriteAck {s : State} {c l : Nat} (hw : (s.cell c).writing = some l) (hdip : s.tamper.dip = none) (hnone : s.NothingDeferred)
    (hdue : s.tamper.slotsDue = []) (hwait : (s.cell c).waiters = []) :
    exec (.counterWriteAck c) s = .next ((s.setCell c ((s.cell c).acked l)).keygenAcked c) := by
  have hgive : ((s.setCell c ((s.cell c).acked l)).keygenAcked c).giveIndices c = (s.setCell c ((s.cell c).acked l)).keygenAcked c :=
    giveIndices_of_none (by rw [keygenAcked_cell, State.cell_setCell, if_pos rfl, (acked_keeps _ _).2, hwait])
  have hwritten : s.counterWritten c = (s.setCell c ((s.cell c).acked l)).keygenAcked c := by
    simp only [State.counterWritten, hw, hdip, Option.isSome_none, Bool.false_eq_true, if_false]
    exact hgive
  change Host.Outcome.next (s.counterWritten c).sweepDue.lateWrites = _
  rw [hwritten, sweepDue_of_none (by rw [keygenAcked_tamper]; exact hdue), lateWrites_of_none (keygenAcked_deferred (s := s.setCell c _) hnone c)]

/-- A job whose result stands. -/
def Job.standing (x : Job) : Job := { x with phase := .computed }

/-- Results that stand, one after another: a job of the list has its own. -/
theorem each_computed (l : List Job) (j : Nat) : ∀ {s : State} {x : Job}, s.job? j = some x → x.phase = .computed ∨ (∃ z ∈ l, z.id = j) →
    ∃ y, (s.each l (fun s z => s.setJob z.id Job.standing)).job? j = some y ∧ y.phase = .computed ∧
      y.result = x.result := by
  induction l with
  | nil =>
    intro s x hj h
    rcases h with h | ⟨z, hz, -⟩
    · exact ⟨x, hj, h, rfl⟩
    · cases hz
  | cons a l ih =>
    intro s x hj h
    by_cases ha : a.id = j
    · have hj' : (s.setJob a.id Job.standing).job? j = some x.standing := by
        rw [ha]; exact State.job?_setJob_self hj _ fun _ => rfl
      exact ih (s := s.setJob a.id Job.standing) (x := x.standing) hj' (.inl rfl)
    · have hj' : (s.setJob a.id Job.standing).job? j = some x := by
        rw [← hj]; exact State.job?_setJob_ne s _ (fun _ => rfl) (Ne.symm ha)
      refine ih (s := s.setJob a.id Job.standing) hj' (h.imp_right ?_)
      rintro ⟨z, hz, hzj⟩
      rcases List.mem_cons.mp hz with rfl | hz
      · exact absurd hzj ha
      · exact ⟨z, hz, hzj⟩

/-- An acknowledged KEYGEN's result stands. -/
theorem keygenAcked_job? {s : State} {c j : Nat} {x : Job} (hj : s.job? j = some x) (hcell : x.newCell = some c) (hphase : x.phase = .gathered)
    (hres : x.result.isSome = true) : ∃ y, (s.keygenAcked c).job? j = some y ∧ y.phase = .computed ∧ y.result = x.result :=
  each_computed _ j hj (.inr ⟨x, by simp [List.mem_of_find?_eq_some hj, hcell, hphase, hres], job?_id hj⟩)

theorem keygenAcked_of_none {s : State} {c : Nat} (h : ∀ x ∈ s.jobs, x.newCell = some c → x.phase = .gathered → x.result = none) :
    s.keygenAcked c = s := by
  have hnone : s.jobs.filter (fun j => decide (j.newCell = some c) && decide (j.phase = .gathered) && j.result.isSome) = [] := by
    rw [List.filter_eq_nil_iff]
    intro x hx hp
    simp only [Bool.and_eq_true, decide_eq_true_eq] at hp
    obtain ⟨⟨hcell, hphase⟩, hres⟩ := hp
    rw [h x hx hcell hphase] at hres
    cases hres
  simp only [State.keygenAcked, hnone, State.each, List.foldl_nil]

theorem exec_cellFreeAck {s : State} {c : Nat} (hf : (s.cell c).freeing = true) (hdip : s.tamper.dip = none) (hnone : s.NothingDeferred) :
    exec (.cellFreeAck c) s = .next (s.setCell c (s.cell c).release) := by
  have hfreed : s.cellFreed c = s.setCell c (s.cell c).release := by
    simp only [State.cellFreed, hf, hdip, Bool.not_true, Option.isSome_none, Bool.or_self, Bool.false_eq_true, if_false]
  change Host.Outcome.next (s.cellFreed c).lateWrites = _
  rw [hfreed, lateWrites_of_none (s := s.setCell c _) hnone]

theorem release_spec (x : Cell) :
    x.release.state = (if x.gen + 1 = 0xFFFF then .retired else .free) ∧ x.release.gen = x.gen + 1 ∧ x.release.freeing = false := by
  unfold Cell.release
  split
  · next h => exact ⟨rfl, h.symm, rfl⟩
  · exact ⟨rfl, rfl, rfl⟩

/-! ### The end of a rebuild -/

/-- The cell no longer being rebuilt. -/
def State.rebuilt (s : State) (c : Nat) : State := s.setCell c { s.cell c with rebuilding := false }

theorem putTrav_waiters {s : State} (w : DWord) (mat : Bytes) (i c : Nat) : ((s.putTrav w mat i).cell c).waiters = (s.cell c).waiters := by
  by_cases h : attrCell w = c
  · subst h; rw [putTrav_cell]
  · unfold State.putTrav
    rw [State.cell_setCell, if_neg h, onlyIf_ddr_cell]

theorem putTrav_tamper (s : State) (w : DWord) (mat : Bytes) (i : Nat) : (s.putTrav w mat i).tamper = s.tamper := by
  unfold State.putTrav State.onlyIf
  simp only [State.setCell_tamper]
  split <;> rfl

theorem exec_traversalRebuildDone_lost {s : State} {c : Nat} (hr : (s.cell c).rebuilding = true) (hwait : (s.cell c).waiters = [])
    (hdue : s.tamper.slotsDue = []) (hkey : s.cellKey c = none) : exec (.traversalRebuildDone c) s = .next (s.rebuilt c) := by
  have hkey : (s.rebuilt c).cellKey c = none := hkey
  have hdone : s.traversalRebuilt c = (s.rebuilt c).giveIndices c := by
    simp only [State.traversalRebuilt, hr, Bool.not_true, Bool.false_eq_true, if_false]
    rw [State.rebuilt] at hkey
    simp only [hkey, State.rebuilt]
  change Host.Outcome.next (s.traversalRebuilt c).sweepDue = _
  rw [hdone, giveIndices_of_none (by rw [State.rebuilt, State.cell_setCell, if_pos rfl]; exact hwait), sweepDue_of_none (s := s.rebuilt c) hdue]

theorem exec_traversalRebuildDone_key {s : State} {c i : Nat} {k : DWord × Bytes} (hr : (s.cell c).rebuilding = true)
    (hwait : (s.cell c).waiters = []) (hdue : s.tamper.slotsDue = []) (hkey : s.cellKey c = some k) (hi : (s.cell c).next = some i) :
    exec (.traversalRebuildDone c) s = .next ((s.rebuilt c).putTrav k.1 k.2 i) := by
  have hkey : (s.rebuilt c).cellKey c = some k := hkey
  have hi : ((s.rebuilt c).cell c).next = some i := by rw [State.rebuilt, State.cell_setCell, if_pos rfl]; exact hi
  have hdone : s.traversalRebuilt c = ((s.rebuilt c).putTrav k.1 k.2 i).giveIndices c := by
    simp only [State.traversalRebuilt, hr, Bool.not_true, Bool.false_eq_true, if_false]
    rw [State.rebuilt] at hkey hi
    simp only [hkey, hi, State.rebuilt]
  change Host.Outcome.next (s.traversalRebuilt c).sweepDue = _
  rw [hdone, giveIndices_of_none (by rw [putTrav_waiters, State.rebuilt, State.cell_setCell, if_pos rfl]; exact hwait),
    sweepDue_of_none (by rw [putTrav_tamper]; exact hdue)]

/-- Settles O11: the cell at a KEYGEN, a SIGN, an acknowledgement, and the end of a rebuild. -/
theorem statefulKeysUseTheirCells : Obligations.StatefulKeysUseTheirCells := by
  refine ⟨fun s s' j c x l hj hnew hfree hd => ⟨fun hc => ?_, fun hc => ?_⟩, fun s j i x hj hi => ⟨fun hc => ?_, fun hc => ?_⟩,
    fun s c l hw hdip hnone hdue hwait => ⟨fun hjobs n hn => ?_, fun j x hj hcell hphase hres => ?_⟩, fun s c hf hdip hnone => ?_,
    fun s c hr hwait hdue => ⟨fun hkey => exec_traversalRebuildDone_lost hr hwait hdue hkey,
      fun k i hkey hi => exec_traversalRebuildDone_key hr hwait hdue hkey hi⟩⟩
  · obtain ⟨t, y, ht, h⟩ := statefulKeygen_takes hj hc hnew hfree hd
    exact ⟨t, y, congrArg Host.Outcome.next ht, h⟩
  · obtain ⟨t, y, ht, h⟩ := statefulKeygen_takes hj hc hnew hfree hd
    exact ⟨t, y, congrArg Host.Outcome.next ht, h⟩
  · exact congrArg Host.Outcome.next (statefulSign_of hj hc hi)
  · exact congrArg Host.Outcome.next (statefulSign_of hj hc hi)
  · rw [exec_counterWriteAck hw hdip hnone hdue hwait, keygenAcked_of_none (s := s.setCell c _) hjobs, Cell.acked, if_pos (by rw [hn]; rfl)]
  · obtain ⟨y, hy, hphase', hres'⟩ := keygenAcked_job? (s := s.setCell c ((s.cell c).acked l)) hj hcell hphase hres
    refine ⟨_, y, exec_counterWriteAck hw hdip hnone hdue hwait, ?_, hy, hphase', hres'⟩
    rw [keygenAcked_cell, State.cell_setCell, if_pos rfl, (acked_keeps _ _).1]
  · obtain ⟨hstate, hgen, hfreeing⟩ := release_spec (s.cell c)
    refine ⟨_, exec_cellFreeAck hf hdip hnone, ?_, ?_, ?_, rfl, rfl⟩ <;> rw [State.cell_setCell, if_pos rfl]
    · exact hstate
    · exact hgen
    · exact hfreeing

end Sys2Proof.Machine
end

section
/-! PROOFS. Hybrid jobs: their halves and their join (O12). -/

namespace Sys2Proof.Machine

/-! ### Draws that fail -/

/-- Draws of which one finds no generator: those before it were served. -/
theorem drawMore_failed {j : Job} {pq : Bool} {l : List (Bool × Nat)} : ∀ {s t : State} {kept : List Bytes},
    s.drawMore j pq kept l = .failed t → SameElsewhere s t ∧ t.tiles = s.tiles ∧
      ∃ b, ∀ k, t.job? k = if k = j.id then (s.job? k).map (Job.stretch b) else s.job? k := by
  induction l with
  | nil => intro s t kept h; cases h
  | cons e l ih =>
    intro s t kept h
    obtain ⟨p, n⟩ := e
    simp only [State.drawMore] at h
    split at h
    · cases h
    · injection h with h
      subst h
      refine ⟨.refl _, rfl, false, fun k => ?_⟩
      by_cases hk : k = j.id
      · rw [if_pos hk]; cases s.job? k <;> simp [Job.stretch]
      · rw [if_neg hk]
    · rename_i bs st u hu
      obtain ⟨hsame, htiles, b, hjobs⟩ := jobDraw_got hu
      obtain ⟨hsame', htiles', b', hjobs'⟩ := ih h
      refine ⟨hsame.trans hsame', htiles'.trans htiles, b || b', fun k => ?_⟩
      rw [hjobs' k]
      by_cases hk : k = j.id
      · simp only [hk, if_true, hjobs]
        cases s.job? j.id <;> simp [Job.stretch, Bool.or_assoc]
      · simp [hk, hjobs]

/-! ### Halves -/

/-- A half of a job computed, with its result. -/
def Job.halfDone (y : Job) (pq : Bool) (r : Result) : Job :=
  { y.setHalf pq { y.half pq with phase := .computed, result := some r } with
      drawWait := pq && y.drawWait, pqWait := !pq && y.pqWait, drawn := y.drawn.filter (fun e => e.1 != pq) }

/-- The result of a half stands, and the shells of a post-quantum one are freed. -/
def State.settleHalf (s : State) (x : Job) (pq : Bool) (r : Result) : State :=
  (if pq then s.freeShells x else s).setJob x.id (·.halfDone pq r)

theorem job?_settleHalf {s : State} {x y : Job} (hj : s.job? x.id = some y) (pq : Bool) (r : Result) :
    (s.settleHalf x pq r).job? x.id = some (y.halfDone pq r) := by
  have hid : ∀ z : Job, (z.halfDone pq r).id = z.id := fun z => by cases pq <;> rfl
  refine State.job?_setJob_self ?_ _ hid
  cases pq
  · exact hj
  · exact ((UnitsOnly.freeShells s x).job? x.id).trans hj

theorem settleHalf_slots (s : State) (x : Job) (pq : Bool) (r : Result) : (s.settleHalf x pq r).slots = s.slots := by
  cases pq
  · rfl
  · exact (UnitsOnly.freeShells s x).slots

/-- The half runs: it has its inputs, the job is not sealed, and no unit of it is halted or yielded. -/
def State.halfRuns (s : State) (x : Job) (op : Nat) (pq : Bool) : Bool :=
  dOp x.desc == op && decide ((x.half pq).phase = .gathered) && decide (x.phase ≠ .sealed)
    && (if pq then s.unhalted x else !x.yielded && s.coresRun x)

theorem runHalf_of_other {s : State} {j op : Nat} (pq : Bool) {o : HalfOp} {x : Job} (hj : s.job? j = some x) (h : (x.half pq).phase ≠ .gathered) :
    s.runHalf j op pq o = s := by
  simp only [State.runHalf, hj, h, decide_false, Bool.and_false, Bool.false_and, Bool.not_false, if_true]

section
variable {s s' : State} {op : Nat} {pq : Bool} {o : HalfOp} {x : Job} {l : List Bytes} (hj : s.job? x.id = some x)
include hj

theorem runHalf_rejects {r : Result} (hruns : s.halfRuns x op pq = true) (hr : o.reject x = some r) :
    s.runHalf x.id op pq o = s.settleHalf x pq r := by
  unfold State.halfRuns at hruns
  simp only [State.runHalf, hj, hruns, hr, Bool.not_true, Bool.false_eq_true, if_false]
  rfl

theorem runHalf_fails (hruns : s.halfRuns x op pq = true) (hr : o.reject x = none) (hd : s.drawAll x (o.draws x) pq = .failed s') :
    s.runHalf x.id op pq o = s'.settleHalf x pq (.fail 0x30 0) := by
  unfold State.halfRuns at hruns
  simp only [State.runHalf, hj, hruns, hr, hd, Bool.not_true, Bool.false_eq_true, if_false]
  rfl

theorem runHalf_computes (hruns : s.halfRuns x op pq = true) (hr : o.reject x = none) (hd : s.drawAll x (o.draws x) pq = .got l s') :
    s.runHalf x.id op pq o = s'.settleHalf x pq (o.result s' x l) := by
  unfold State.halfRuns at hruns
  simp only [State.runHalf, hj, hruns, hr, hd, Bool.not_true, Bool.false_eq_true, if_false]
  rfl

end

/-- The halves a command of a hybrid job runs. -/
theorem exec_hybridRow {i : Instr} {j op : Nat} {pq cl : HalfOp} (h : hybridRow i = some (j, op, pq, cl)) (s : State) :
    exec i s = .next ((s.runHalf j op true pq).runHalf j op false cl) := by
  unfold hybridRow at h
  split at h
  · injection h with h; injection h with h1 h; injection h with h2 h; injection h with h3 h4; subst h1 h2 h3 h4; rfl
  · injection h with h; injection h with h1 h; injection h with h2 h; injection h with h3 h4; subst h1 h2 h3 h4; rfl
  · injection h with h; injection h with h1 h; injection h with h2 h; injection h with h3 h4; subst h1 h2 h3 h4; rfl
  · cases h

/-- What a served or failed draw leaves of the job. -/
theorem stretched_job? {s t : State} {j : Nat} {x : Job} {b : Bool} (hj : s.job? j = some x)
    (h : ∀ k, t.job? k = if k = x.id then (s.job? k).map (Job.stretch b) else s.job? k) : t.job? x.id = some (x.stretch b) := by
  rw [h, if_pos rfl, job?_id hj, hj]; rfl

/-! ### The join -/

section
variable {s : State} {j : Nat} {x : Job} {c p : Result} (hj : s.job? j = some x) (hclass : dClass x.desc = 0x10)
  (hcl : x.classical.phase = .sealed) (hpq : x.pq.phase = .sealed) (hc : x.classical.result = some c) (hp : x.pq.result = some p)
  (hr : x.result = none)
include hj hclass hcl hpq hc hp hr

theorem hybridJoin_fails {r : Result} (h : joinFail c p = some r) :
    s.hybridJoin j = (s.endJob j r).onlyIf (decide (r.status = 0x41)) (·.bump .genAbortCnt) := by
  simp only [State.hybridJoin, hj, hclass, hcl, hpq, hc, hp, hr, h, beq_self_eq_true, Option.isSome_none, Bool.false_eq_true, if_false]

theorem hybridJoin_joins {q k : Nat} (h : joinFail c p = none) (hcore : s.joinCore x = some (q, k)) :
    s.hybridJoin j = s.setJob j (fun y =>
      { y with unit := some (.hash k), pool := some q, phase := .computed, result := some (s.combine x c p) }) := by
  simp only [State.hybridJoin, hj, hclass, hcl, hpq, hc, hp, hr, h, hcore, beq_self_eq_true, Option.isSome_none, Bool.false_eq_true, if_false]

theorem hybridJoin_waits (h : joinFail c p = none) (hcore : s.joinCore x = none) : s.hybridJoin j = s := by
  simp only [State.hybridJoin, hj, hclass, hcl, hpq, hc, hp, hr, h, hcore, beq_self_eq_true, Option.isSome_none, Bool.false_eq_true, if_false]

end

theorem joinFail_done {c p : Result} (hc : c.status = 0) (hp : p.status = 0) : joinFail c p = none := by simp [joinFail, hc, hp]

theorem joinFail_classical {c p : Result} (hc : c.status ≠ 0) (hp : p.status = 0) : joinFail c p = some (.fail c.status 1) := by
  simp [joinFail, hc, hp]

theorem joinFail_pq {c p : Result} (hc : c.status = 0) (hp : p.status ≠ 0) : joinFail c p = some (.fail p.status 2) := by
  simp [joinFail, hc, hp]

theorem joinFail_both {c p : Result} (hc : c.status ≠ 0) (hp : p.status ≠ 0) : joinFail c p = some (.fail (min c.status p.status) 3) := by
  simp [joinFail, hc, hp]

theorem onlyIf_abort (s : State) {r : Result} (h : r.status ≠ 0x41) (f : State → State) : s.onlyIf (decide (r.status = 0x41)) f = s := by
  rw [State.onlyIf, decide_eq_false h]; rfl

/-- Settles O12: the two halves, run one after the other, and the join. -/
theorem hybridJobsComputeAndJoin : Obligations.HybridJobsComputeAndJoin := by
  refine ⟨fun i j op pq cl s s' x l hi hj hop hphase => ?_, fun s j x c p hj hclass hcl hpq hc hp hres =>
    ⟨fun h1 h2 q k hk => ?_, fun h1 h2 hk => ?_, fun h1 h2 h3 => ?_, fun h1 h2 h3 => ?_, fun h1 h2 h3 => ?_, fun h1 h2 => ?_, fun h1 h2 => ?_⟩⟩
  · obtain rfl := job?_id hj
    have hexec := exec_hybridRow hi s
    have hsecond : ∀ {u : State} {b : Bool} (r : Result), u.job? x.id = some (x.stretch b) → x.pq.phase = .gathered → x.classical.phase ≠ .gathered →
        (u.settleHalf x true r).runHalf x.id op false cl = u.settleHalf x true r := fun r hu _ hcl => by
      exact runHalf_of_other false (job?_settleHalf hu true r) hcl
    have hclassical : x.classical.phase = .gathered → x.yielded = false → s.coresRun x = true → s.halfRuns x op false = true :=
      fun h hy hrun => by simp [State.halfRuns, Job.half, hop, h, hphase, hy, hrun]
    refine ⟨fun hpq hcl hrun hr hd => ?_, fun hcl hpq hy hrun hr hd => ?_, fun r hcl hpq hy hrun hr => ?_, fun hcl hpq hy hrun hr hd => ?_⟩
    · have hruns : s.halfRuns x op true = true := by simp [State.halfRuns, Job.half, hop, hpq, hphase, hrun]
      obtain ⟨hsame, -, -, b, hjobs⟩ := drawAll_got hd
      have hy := job?_settleHalf (stretched_job? hj hjobs) true (pq.result s' x l)
      rw [runHalf_computes hj hruns hr hd, hsecond _ (stretched_job? hj hjobs) hpq hcl] at hexec
      exact ⟨_, _, hexec, hy, rfl, rfl, rfl, (settleHalf_slots _ _ _ _).trans hsame.slots⟩
    · obtain ⟨hsame, htiles, -, b, hjobs⟩ := drawAll_got hd
      have hy := job?_settleHalf (stretched_job? hj hjobs) false (cl.result s' x l)
      rw [runHalf_of_other true hj hpq, runHalf_computes hj (hclassical hcl ‹_› hrun) hr hd] at hexec
      exact ⟨_, _, hexec, hy, rfl, rfl, rfl, hsame.slots, htiles⟩
    · have hy := job?_settleHalf hj false r
      rw [runHalf_of_other true hj hpq, runHalf_rejects hj (hclassical hcl ‹_› hrun) hr] at hexec
      exact ⟨_, _, hexec, hy, rfl, rfl, rfl, rfl, rfl, rfl⟩
    · obtain ⟨hsame, htiles, b, hjobs⟩ := drawMore_failed hd
      have hy := job?_settleHalf (stretched_job? hj hjobs) false (.fail 0x30 0)
      rw [runHalf_of_other true hj hpq, runHalf_fails hj (hclassical hcl ‹_› hrun) hr hd] at hexec
      exact ⟨_, _, hexec, hy, rfl, rfl, rfl, hsame.slots, htiles⟩
  · exact congrArg Host.Outcome.next (hybridJoin_joins hj hclass hcl hpq hc hp hres (joinFail_done h1 h2) hk)
  · exact congrArg Host.Outcome.next (hybridJoin_waits hj hclass hcl hpq hc hp hres (joinFail_done h1 h2) hk)
  · exact congrArg Host.Outcome.next ((hybridJoin_fails hj hclass hcl hpq hc hp hres (joinFail_classical h1 h2)).trans (onlyIf_abort _ h3 _))
  · exact congrArg Host.Outcome.next ((hybridJoin_fails hj hclass hcl hpq hc hp hres (joinFail_pq h1 h2)).trans (onlyIf_abort _ h3 _))
  · exact congrArg Host.Outcome.next ((hybridJoin_fails hj hclass hcl hpq hc hp hres (joinFail_both h1 h2)).trans (onlyIf_abort _ h3 _))
  · have hfail := hybridJoin_fails hj hclass hcl hpq hc hp hres (joinFail_classical (by omega) h2)
    rw [h1] at hfail
    exact congrArg Host.Outcome.next hfail
  · have hfail := hybridJoin_fails hj hclass hcl hpq hc hp hres (joinFail_pq h1 (by omega))
    rw [h2] at hfail
    exact congrArg Host.Outcome.next hfail

end Sys2Proof.Machine
end

section
/-! PROOFS. Sealing in a supply dip (O13 fails): the command seals nothing then, but with a RETIRE waiting it still ends the jobs that no
pool carries any more. -/

namespace Sys2Proof.Machine

/-- A job that waits for a shell and that no pool carries. -/
def strandedJob : Job := { emptyIn2Job with phase := .waiting, unit := none, pool := none }

/-- The device in a supply dip, with a RETIRE of BNE core 0 waiting and that job in flight. -/
def strandedInDip : State :=
  { State.reset with
    jobs := [strandedJob]
    bcores := [(0, ⟨none, none, [], false, true⟩)]
    tamper := { State.reset.tamper with dip := some ⟨700, false, 0, false, false⟩ } }

theorem strandedInDip_ends : (match exec (.jobSealed 7) strandedInDip with
    | .next t => t.jobs.map Job.phase
    | _ => []) = [.sealed] := by decide

/-- Refutes O13: JOB_SEALED during a dip ends a job that no pool carries, where a unit waits to be retired. -/
theorem not_sealingRespectsDips : ¬ Obligations.SealingRespectsDips := by
  rintro ⟨-, -, hdip⟩
  have hends := strandedInDip_ends
  rw [hdip strandedInDip 7 _ rfl] at hends
  exact absurd hends (by decide)

end Sys2Proof.Machine
end

section
/-! PROOFS. Doorbells (O25). -/

namespace Sys2Proof.Machine

theorem hostTo_of_shown {s : State} {r : Reg} (h : s.hidden r = false) (f : State → State) : s.hostTo r f = f s := by
  rw [State.hostTo, h]; rfl

theorem sqDoorbell_ignored {s : State} {n i w : Nat} (v : DWord) (h : w ≠ 64 ∨ s.pageOpen n = false ∨ s.queueState (64 * n + i) = 0) :
    s.sqDoorbell n i w v = s := if_pos (by simpa using h)

theorem cqDoorbell_ignored {s : State} {n i w : Nat} (v : DWord) (h : w ≠ 64 ∨ s.pageOpen n = false ∨ s.queueState (64 * n + i) = 0) :
    s.cqDoorbell n i w v = s := if_pos (by simpa using h)

theorem sqDoorbell_rings {s : State} {n i : Nat} (v : DWord) (hopen : s.pageOpen n = true) (hq : s.queueState (64 * n + i) ≠ 0) :
    s.sqDoorbell n i 64 v = s.setFld (.qmgQSqTail (64 * n + i)) 15 0 (getF v 15 0 % s.ringSize (64 * n + i)) :=
  if_neg (by simp [hopen, hq])

/-- The entries a completion doorbell releases. -/
def State.releases (s : State) (q : Nat) (v : DWord) : Nat :=
  min ((getF v 15 0 % s.ringSize q + s.ringSize q - s.fld (.qmgQCqHead q) 15 0) % s.ringSize q) (s.queueX q).used

theorem cqDoorbell_rings {s : State} {n i : Nat} (v : DWord) (hopen : s.pageOpen n = true) (hq : s.queueState (64 * n + i) ≠ 0) :
    s.cqDoorbell n i 64 v = (s.setFld (.qmgQCqHead (64 * n + i)) 15 0
      ((s.fld (.qmgQCqHead (64 * n + i)) 15 0 + s.releases (64 * n + i) v) % s.ringSize (64 * n + i))).setQueueX (64 * n + i)
        (fun x => { x with used := x.used - s.releases (64 * n + i) v }) :=
  if_neg (by simp [hopen, hq])

/-- Settles O25: a doorbell that is shown, and one that is not a doorbell's write. -/
theorem doorbellsSetThePointers : Obligations.DoorbellsSetThePointers := by
  refine ⟨fun s n i v hshown hopen hq => ?_, fun s n i d v hshown hopen hq hpos hsize hd => ?_, fun s n i w v h => ⟨?_, ?_⟩⟩
  · have hlt : getF v 15 0 % s.ringSize (64 * n + i) < 2 ^ 16 := lt_of_le_of_lt (Nat.mod_le _ _) (getF_lt v 15 0)
    refine ⟨_, congrArg Host.Outcome.next ((hostTo_of_shown hshown _).trans (sqDoorbell_rings v hopen hq)), ?_, .store (List.mem_singleton_self _) s _⟩
    rw [State.fld_setFld _ _ _ _ _ (by omega) (by omega)]
    exact Nat.mod_eq_of_lt hlt
  · have hlt : (s.fld (.qmgQCqHead (64 * n + i)) 15 0 + s.releases (64 * n + i) v) % s.ringSize (64 * n + i) < 2 ^ 16 :=
      lt_of_lt_of_le (Nat.mod_lt _ hpos) hsize
    obtain rfl : d = s.releases (64 * n + i) v := hd
    refine ⟨_, congrArg Host.Outcome.next ((hostTo_of_shown hshown _).trans (cqDoorbell_rings v hopen hq)), ?_, ?_, fun q hne => ?_, fun r hr => ?_,
      rfl, rfl, rfl, rfl⟩
    · change (State.setFld s _ 15 0 _).fld _ 15 0 = _
      rw [State.fld_setFld _ _ _ _ _ (by omega) (by omega)]
      exact Nat.mod_eq_of_lt hlt
    · rw [State.queueX_setQueueX, if_pos rfl]; rfl
    · rw [State.queueX_setQueueX, if_neg hne.symm]; rfl
    · change (State.setFld s _ 15 0 _).rd r = _
      rw [State.rd_setFld, if_neg hr.symm]
  · refine congrArg Host.Outcome.next ?_
    unfold State.hostTo
    split
    · rfl
    · exact sqDoorbell_ignored v h
  · refine congrArg Host.Outcome.next ?_
    unfold State.hostTo
    split
    · rfl
    · exact cqDoorbell_ignored v h

end Sys2Proof.Machine
end

section
/-! PROOFS. Descriptors that arrive, jobs that start, inputs that are gathered (O27). -/

namespace Sys2Proof.Machine

/-! ### Reads of LPDDR5X -/

/-- The registers in which a read of LPDDR5X counts what it met. -/
def ddrRegs : List Reg := [.ddrUeCount, .ddrUeAddr, .ddrEvtStatus, .ddrCeCount]

theorem metLines_frame (s : State) (l : List (Nat × Nat)) (d : DmaResult) : RegsAndMessages ddrRegs s (s.metLines l d) := by
  cases d with
  | data bs => exact .refl _ s
  | fault e => exact .refl _ s
  | ecc k => exact (ddrUe_frame s _).mono (by simp [ddrRegs])
  | corrected => exact .store (by simp [ddrRegs]) s _

theorem metUe_frame (s : State) (n : Nat) (loc : Bool) (addr len : Nat) (d : DmaResult) : RegsAndMessages ddrRegs s (s.metUe n loc addr len d) := by
  unfold State.metUe
  split
  · exact metLines_frame s _ d
  · exact .refl _ s

theorem metMain_frame (s : State) (x : Job) (off len : Nat) (d : DmaResult) : RegsAndMessages ddrRegs s (s.metMain x off len d) := by
  unfold State.metMain
  split
  · exact metUe_frame s _ _ _ _ d
  · split
    · exact metLines_frame s _ d
    · exact .refl _ s

theorem RegsAndMessages.onlyIf {l : List Reg} {f : State → State} (hf : ∀ u, RegsAndMessages l u (f u)) (s : State) (c : Bool) :
    RegsAndMessages l s (s.onlyIf c f) := by
  cases c
  · exact .refl _ s
  · exact hf s

namespace RegsAndMessages
variable {l : List Reg} {s t : State} (h : RegsAndMessages l s t)
include h

theorem slots : t.slots = s.slots := (congrArg State.slots h.2 :)
theorem tiles : t.tiles = s.tiles := (congrArg State.tiles h.2 :)
theorem ddr : t.ddr = s.ddr := (congrArg State.ddr h.2 :)
theorem nextJob : t.nextJob = s.nextJob := (congrArg State.nextJob h.2 :)
theorem tamper : t.tamper = s.tamper := (congrArg State.tamper h.2 :)
theorem leaving : t.leaving = s.leaving := (congrArg State.leaving h.2 :)
theorem job? (k : Nat) : t.job? k = s.job? k := State.job?_congr h.jobs k

end RegsAndMessages

/-! ### A job that ends before it has a unit -/

/-- A job that has never had a unit or a cell. -/
structure Job.Unplaced (x : Job) : Prop where
  unit : x.unit = none
  gang : x.gang = []
  classical : x.classical.unit = none
  pq : x.pq.unit = none
  cell : x.sigIndex = none
  result : x.result = none

theorem freeShells_of_unplaced {s : State} {x : Job} (h : x.Unplaced) : s.freeShells x = s := by
  simp [State.freeShells, Job.shells, h.unit, h.pq, State.each]

theorem vacateAll_of_unplaced {s : State} {x : Job} (h : x.Unplaced) : s.vacateAll x = s := by
  simp [State.vacateAll, Job.units, h.unit, h.pq, h.classical, h.gang, State.each]

theorem dropCell_of_unplaced {s : State} {x : Job} (h : x.Unplaced) : s.dropCell x = s := by
  simp [State.dropCell, Job.newCell, h.cell]

theorem dropLoad_of_unplaced {s : State} {x : Job} (h : x.Unplaced) : s.dropLoad x = s := by
  unfold State.dropLoad
  rw [h.result]
  cases dOp x.desc == 0x0B04 <;> rfl

theorem dropDemand_tiles (s : State) (x : Job) : (s.dropDemand x).tiles = s.tiles := by
  unfold State.dropDemand; split <;> rfl

/-- No tile changes when a job ends that has had none. -/
theorem endJob_tiles {s : State} {j : Nat} {x : Job} (hj : s.job? j = some x) (h : x.Unplaced) (r : Result) : (s.endJob j r).tiles = s.tiles := by
  have hdrop : ∀ u : State, ∀ l : List Nat, (u.each l (fun s h => s.dropHandle x.slice h)).tiles = u.tiles := fun u l =>
    u.each_keeps State.tiles (fun s h => s.dropHandle x.slice h) (fun _ _ => rfl) l
  have hrelease : ∀ u : State, ∀ l : List Nat, (u.each l State.releaseFreed).tiles = u.tiles := fun u l =>
    u.each_keeps State.tiles State.releaseFreed (fun _ _ => rfl) l
  simp only [State.endJob, hj]
  split
  · rfl
  · rw [hrelease, vacateAll_of_unplaced h, State.setJob_tiles, dropLoad_of_unplaced h, dropDemand_tiles]
    simp only [freeShells_of_unplaced h, dropCell_of_unplaced h, ite_self]
    split
    · exact hdrop s _
    · rfl

/-! ### Descriptors -/

theorem newJob_unplaced (id n q idx : Nat) (d : Bytes) : (newJob id n q idx d).Unplaced := ⟨rfl, rfl, rfl, rfl, rfl, rfl⟩

/-- The job that a descriptor of queue `q` makes. -/
def State.fetched (s : State) (q : Nat) (bs : Bytes) : Job := newJob s.nextJob (q / 64) q (s.fld (.qmgQSqHead q) 15 0) (padTo 128 bs)

/-- The new job in flight. -/
def State.joined (s : State) (q : Nat) (bs : Bytes) : State := { s with nextJob := s.nextJob + 1, jobs := s.jobs ++ [s.fetched q bs] }

/-- The head moved past it, its report and the counts in flight. -/
def State.passed (s : State) (q head : Nat) : State :=
  let s := (s.setFld (.qmgQSqHead q) 15 0 head).unreport q
  let s := s.setFld (.qmgQInflight q) 10 0 (s.queueInflight q)
  s.setFld (.slmSliceStat (q / 64)) 26 16 (s.sliceInflight (q / 64))

/-- The state once the descriptor has arrived, before it is checked. -/
def State.arrived (s : State) (q : Nat) (bs : Bytes) : State :=
  (s.joined q bs).passed q ((s.fld (.qmgQSqHead q) 15 0 + 1) % s.ringSize q)

theorem joined_job? {s : State} (hids : ∀ x ∈ s.jobs, x.id < s.nextJob) (q : Nat) (bs : Bytes) (k : Nat) :
    (s.joined q bs).job? k = if k = s.nextJob then some (s.fetched q bs) else s.job? k := by
  have hnew : s.job? s.nextJob = none := by
    simp only [State.job?, List.find?_eq_none, decide_eq_true_eq]
    exact fun x hx h => absurd (hids x hx) (by omega)
  simp only [State.job?, State.joined, List.find?_append] at hnew ⊢
  by_cases hk : k = s.nextJob
  · subst hk; simp [hnew, State.fetched, newJob]
  · have : ([s.fetched q bs].find? (fun x => decide (x.id = k))) = none := by simp [State.fetched, newJob, Ne.symm hk]
    rw [this, if_neg hk, Option.or_none]

theorem unreport_rd (s : State) (q : Nat) {r : Reg} (h : .qmgQRptHead q ≠ r) : (s.unreport q).rd r = s.rd r :=
  (s.rd_setBit (.qmgQRptHead q) r 31 false).trans (if_neg h)

theorem passed_head (s : State) (q : Nat) {head : Nat} (h : head < 65536) : (s.passed q head).fld (.qmgQSqHead q) 15 0 = head := by
  have hother : (s.passed q head).rd (.qmgQSqHead q) = (s.setFld (.qmgQSqHead q) 15 0 head).rd (.qmgQSqHead q) := by
    unfold State.passed
    rw [State.rd_setFld, if_neg (by simp), State.rd_setFld, if_neg (by simp), unreport_rd _ _ (by simp)]
  rw [State.fld, hother]
  exact (State.fld_setFld s _ 15 0 head (by decide) (by decide)).trans (Nat.mod_eq_of_lt h)

theorem passed_sliceState (s : State) (q head : Nat) : (s.passed q head).sliceState (q / 64) = s.sliceState (q / 64) := by
  unfold State.sliceState State.passed
  rw [State.fld_setFld_ne _ _ _ _ _ _ _ _ (by decide) (by decide) (.inr (.inr (by decide)))]
  rw [State.fld, State.rd_setFld, if_neg (by simp), unreport_rd _ _ (by simp), State.rd_setFld, if_neg (by simp), State.fld]

/-- What the read of its gather list meets is counted. -/
def State.metHead (s : State) (q : Nat) (bs : Bytes) (gl : DmaResult) : State :=
  (s.arrived q bs).onlyIf ((s.arrived q bs).headFail (q / 64) (padTo 128 bs)).isNone
    (·.metUe (q / 64) (dFlag (padTo 128 bs) 2) (dInAddr (padTo 128 bs)) (16 * dSgl (padTo 128 bs)) gl)

/-- A descriptor that arrives for an ACTIVE slice: its job joins those in flight, and ends or waits with its gather list. -/
theorem takeDescriptor_of_data {s : State} {q : Nat} {d gl : DmaResult} {bs : Bytes} (hactive : s.sliceState (q / 64) ≠ 2)
    (hwin : s.inWindow (q / 64) (s.bit (.qmgQCtrl q) 1) (s.fld (.qmgQSqBase q) 63 12 * 4096 + 128 * s.fld (.qmgQSqHead q) 15 0) 128 = true)
    (hread : s.gatherRead (q / 64) (s.bit (.qmgQCtrl q) 1) (s.fld (.qmgQSqBase q) 63 12 * 4096 + 128 * s.fld (.qmgQSqHead q) 15 0) 128 d =
      .data bs) :
    ∃ m u, RegsAndMessages ddrRegs s m ∧ RegsAndMessages ddrRegs (m.arrived q bs) u ∧
      ((∃ r, s.takeDescriptor q d gl = u.endJob m.nextJob r) ∨
        ∃ es, s.takeDescriptor q d gl = u.setJob m.nextJob (fun j => { j with gather := es })) := by
  have hmet := metUe_frame s (q / 64) (s.bit (.qmgQCtrl q) 1) (s.fld (.qmgQSqBase q) 63 12 * 4096 + 128 * s.fld (.qmgQSqHead q) 15 0) 128 d
  generalize hm : s.metUe (q / 64) (s.bit (.qmgQCtrl q) 1) (s.fld (.qmgQSqBase q) 63 12 * 4096 + 128 * s.fld (.qmgQSqHead q) 15 0) 128 d = m
    at hmet
  have hhead : s.fld (.qmgQSqHead q) 15 0 = m.fld (.qmgQSqHead q) 15 0 := by simp only [State.fld, hmet.1 _ (show Reg.qmgQSqHead q ∉ ddrRegs by simp [ddrRegs])]
  have hstate : (m.arrived q bs).sliceState (q / 64) ≠ 2 := by
    rw [State.arrived, passed_sliceState]
    change m.sliceState (q / 64) ≠ 2
    rwa [State.sliceState, State.fld, hmet.1 _ (show Reg.slmSliceStat (q / 64) ∉ ddrRegs by simp [ddrRegs])]
  have htake : s.takeDescriptor q d gl = (match (m.arrived q bs).headerCheck (q / 64) (padTo 128 bs) gl with
        | (some r, _) => (m.metHead q bs gl).endJob m.nextJob r
        | (none, es) => (m.metHead q bs gl).setJob m.nextJob (fun j => { j with gather := es })) := by
    unfold State.takeDescriptor
    simp only [hwin, if_true, hread, hm]
    rw [hhead]
    exact if_neg hstate
  refine ⟨m, m.metHead q bs gl, hmet, .onlyIf (fun v => metUe_frame v _ _ _ _ gl) _ _, ?_⟩
  rw [htake]
  rcases (m.arrived q bs).headerCheck (q / 64) (padTo 128 bs) gl with ⟨_ | r, es⟩
  · exact .inr ⟨es, rfl⟩
  · exact .inl ⟨r, rfl⟩

theorem passed_frame (s : State) (q head : Nat) : (s.passed q head).jobs = s.jobs ∧ (s.passed q head).nextJob = s.nextJob ∧
    (s.passed q head).slots = s.slots ∧ (s.passed q head).tiles = s.tiles ∧ (s.passed q head).ddr = s.ddr := ⟨rfl, rfl, rfl, rfl, rfl⟩

/-- What a descriptor that arrives makes of the queue and of the jobs in flight. -/
structure Arrives (s t : State) (q : Nat) (bs : Bytes) (y : Job) : Prop where
  head : t.fld (.qmgQSqHead q) 15 0 = (s.fld (.qmgQSqHead q) 15 0 + 1) % s.ringSize q
  next : t.nextJob = s.nextJob + 1
  job : t.job? s.nextJob = some y
  desc : y.desc = padTo 128 bs
  slice : y.slice = q / 64
  queue : y.queue = q
  index : y.index = s.fld (.qmgQSqHead q) 15 0
  phase : y.phase = .waiting ∨ y.phase = .sealed
  others : ∀ k, k ≠ s.nextJob → t.job? k = s.job? k
  slots : t.slots = s.slots
  tiles : t.tiles = s.tiles
  ddr : t.ddr = s.ddr

section
variable {s u : State} {q : Nat} {bs : Bytes}

/-- The state in which the new job waits to be checked. -/
theorem arrives_of_arrived (hu : RegsAndMessages ddrRegs (s.arrived q bs) u) (hids : ∀ x ∈ s.jobs, x.id < s.nextJob)
    (hring : 0 < s.ringSize q ∧ s.ringSize q ≤ 65536) : Arrives s u q bs (s.fetched q bs) := by
  have hlt := lt_of_lt_of_le (Nat.mod_lt (s.fld (.qmgQSqHead q) 15 0 + 1) hring.1) hring.2
  obtain ⟨hjobs, hnext, hslots, htiles, hddr⟩ := passed_frame (s.joined q bs) q ((s.fld (.qmgQSqHead q) 15 0 + 1) % s.ringSize q)
  have hjob : ∀ k, u.job? k = if k = s.nextJob then some (s.fetched q bs) else s.job? k := fun k => by
    rw [hu.job?, State.arrived, State.job?_congr hjobs, joined_job? hids]
  refine ⟨?_, hu.nextJob.trans hnext, (hjob _).trans (if_pos rfl), rfl, rfl, rfl, rfl, .inl rfl, fun k hk => (hjob k).trans (if_neg hk),
    hu.slots.trans hslots, hu.tiles.trans htiles, hu.ddr.trans hddr⟩
  rw [State.fld, hu.1 _ (show Reg.qmgQSqHead q ∉ ddrRegs by simp [ddrRegs])]
  exact passed_head _ q hlt

/-- Its gather list stored. -/
theorem Arrives.setGather (h : Arrives s u q bs (s.fetched q bs)) (es : List (Nat × Nat)) :
    Arrives s (u.setJob s.nextJob (fun j => { j with gather := es })) q bs { s.fetched q bs with gather := es } :=
  { h with
    job := State.job?_setJob_self h.job _ fun _ => rfl
    others := fun k hk => (State.job?_setJob_ne u (fun j => { j with gather := es }) (fun _ => rfl) hk).trans (h.others k hk)
    phase := .inl rfl }

/-- Its end, where a check fails. -/
theorem Arrives.endJob (h : Arrives s u q bs (s.fetched q bs)) (r : Result) : Arrives s (u.endJob s.nextJob r) q bs ((s.fetched q bs).ended r) := by
  have hframe := JobsOnly.endJob u s.nextJob r
  exact
    { head := by rw [State.fld, hframe.regs _ rfl]; exact h.head
      next := (congrArg State.nextJob hframe.rest :).trans h.next
      job := endJob_job? h.job rfl
      desc := rfl, slice := rfl, queue := rfl, index := rfl, phase := .inr rfl
      others := fun k hk => (endJob_job?_ne u r hk).trans (h.others k hk)
      slots := hframe.slots.trans h.slots
      tiles := (endJob_tiles h.job (newJob_unplaced _ _ _ _ _) r).trans h.tiles
      ddr := hframe.ddr.trans h.ddr }

end

/-- A read that counts errors first does not change what arrives. -/
theorem Arrives.of_met {s m t : State} {q : Nat} {bs : Bytes} {y : Job} (hm : RegsAndMessages ddrRegs s m) (h : Arrives m t q bs y) :
    Arrives s t q bs y := by
  have hhead : m.fld (.qmgQSqHead q) 15 0 = s.fld (.qmgQSqHead q) 15 0 := by
    simp only [State.fld, hm.1 _ (show Reg.qmgQSqHead q ∉ ddrRegs by simp [ddrRegs])]
  have hsize : m.ringSize q = s.ringSize q := by
    simp only [State.ringSize, State.fld, hm.1 _ (show Reg.qmgQSize q ∉ ddrRegs by simp [ddrRegs])]
  exact
    { head := by rw [h.head, hhead, hsize]
      next := by rw [h.next, hm.nextJob]
      job := by rw [← hm.nextJob]; exact h.job
      desc := h.desc, slice := h.slice, queue := h.queue, index := h.index.trans hhead, phase := h.phase
      others := fun k hk => (h.others k (by rwa [hm.nextJob])).trans (hm.job? k)
      slots := h.slots.trans hm.slots
      tiles := h.tiles.trans hm.tiles
      ddr := h.ddr.trans hm.ddr }

theorem takeDescriptor_arrives {s : State} {q : Nat} {d gl : DmaResult} {bs : Bytes} (hactive : s.sliceState (q / 64) ≠ 2)
    (hids : ∀ x ∈ s.jobs, x.id < s.nextJob) (hring : 0 < s.ringSize q ∧ s.ringSize q ≤ 65536)
    (hwin : s.inWindow (q / 64) (s.bit (.qmgQCtrl q) 1) (s.fld (.qmgQSqBase q) 63 12 * 4096 + 128 * s.fld (.qmgQSqHead q) 15 0) 128 = true)
    (hread : s.gatherRead (q / 64) (s.bit (.qmgQCtrl q) 1) (s.fld (.qmgQSqBase q) 63 12 * 4096 + 128 * s.fld (.qmgQSqHead q) 15 0) 128 d =
      .data bs) :
    ∃ y, Arrives s (s.takeDescriptor q d gl) q bs y := by
  obtain ⟨m, u, hm, hu, htake⟩ := takeDescriptor_of_data (gl := gl) hactive hwin hread
  have hsize : m.ringSize q = s.ringSize q := by
    simp only [State.ringSize, State.fld, hm.1 _ (show Reg.qmgQSize q ∉ ddrRegs by simp [ddrRegs])]
  have harrived := arrives_of_arrived hu (by rw [hm.jobs, hm.nextJob]; exact hids) (by rw [hsize]; exact hring)
  rcases htake with ⟨r, h⟩ | ⟨es, h⟩
  · exact ⟨_, by rw [h]; exact .of_met hm (harrived.endJob r)⟩
  · exact ⟨_, by rw [h]; exact .of_met hm (harrived.setGather es)⟩

/-- The fetch of a queue that is due, or whose turn it is, is made in a state with other records of whose turn it is. -/
theorem fetch_of_live {s : State} {q : Nat} (h : s.fetchTurn = some q) (d gl : DmaResult) :
    ∃ a b c, s.fetch q d gl = ({ s with fetchSlice := a, fetchQueue := b, fetchDue := c } : State).takeDescriptor q d gl := by
  by_cases hdue : q ∈ s.fetchDue
  · exact ⟨_, _, _, fetch_of_due hdue d gl⟩
  · exact ⟨_, _, _, fetch_of_turn hdue h d gl⟩

/-! ### Inputs -/

theorem sweepJob_of_good {s : State} {j : Nat} {x : Job} (hj : s.job? j = some x) (h : s.sliceBad x.slice = false) : s.sweepJob j = s := by
  simp only [State.sweepJob, hj, Option.map_some, Option.toList_some, State.each, List.foldl_cons, List.foldl_nil, sweepSlice_of_good h]

/-- What the reads of a job's inputs meet is counted. -/
def State.metInputs (s : State) (x : Job) (main in2 in3 ctx : DmaResult) : State :=
  (((s.metMain x 0 (dInLen x.desc) main).metUe x.slice (dFlag x.desc 2) (dIn2Addr x.desc) (dIn2Len x.desc) in2).metUe x.slice (dFlag x.desc 2)
    (dIn3Addr x.desc) (dIn3Len x.desc) in3).metUe x.slice (dFlag x.desc 2) (dCtxAddr x.desc) (dCtxLen x.desc) ctx

theorem metInputs_frame (s : State) (x : Job) (main in2 in3 ctx : DmaResult) : RegsAndMessages ddrRegs s (s.metInputs x main in2 in3 ctx) :=
  (((metMain_frame s x 0 _ main).trans (metUe_frame _ _ _ _ _ in2)).trans (metUe_frame _ _ _ _ _ in3)).trans (metUe_frame _ _ _ _ _ ctx)

/-- A job whose inputs stand in its unit. -/
def Job.hasInputs (y : Job) (a b c e : Bytes) : Job :=
  { y with
    phase := .gathered, main := a, in2 := b, in3 := c, ctx := e
    classical := if y.classical.phase = .started then { y.classical with phase := .gathered } else y.classical
    pq := if y.pq.phase = .started then { y.pq with phase := .gathered } else y.pq }

section
variable {s : State} {j : Nat} {x : Job} {main in2 in3 ctx : DmaResult} {a b c e : Bytes} (hj : s.job? j = some x) (hphase : x.phase = .started)
  (hlink : s.pcie.dlActive = true) (hclass : dClass x.desc ≠ 0x0C) (ha : s.readMain x main = .data a)
  (hb : s.gatherRead x.slice (dFlag x.desc 2) (dIn2Addr x.desc) (dIn2Len x.desc) in2 = .data b)
  (hc : s.gatherRead x.slice (dFlag x.desc 2) (dIn3Addr x.desc) (dIn3Len x.desc) in3 = .data c)
  (he : s.gatherRead x.slice (dFlag x.desc 2) (dCtxAddr x.desc) (dCtxLen x.desc) ctx = .data e)
include hj hphase hlink hclass ha hb hc he

theorem takeInputs_gathers (hkind : x.wrongKind b = false) :
    s.takeInputs j main in2 in3 ctx = (s.metInputs x main in2 in3 ctx).setJob j (·.hasInputs a b c e) := by
  have hash : (dClass x.desc == 0x0C) = false := by simpa using hclass
  simp only [State.takeInputs, hj, hphase, hlink, hash, ha, hb, hc, he, dmaFail, dmaBytes, hkind, ne_eq, not_true_eq_false, Bool.not_true,
    Bool.false_eq_true, false_and, or_self, if_false]
  rfl

theorem takeInputs_moves (hkind : x.wrongKind b = true) :
    s.takeInputs j main in2 in3 ctx = (s.metInputs x main in2 in3 ctx).departing (·.moveKind x b) := by
  have hash : (dClass x.desc == 0x0C) = false := by simpa using hclass
  simp only [State.takeInputs, hj, hphase, hlink, hash, ha, hb, hc, he, dmaFail, dmaBytes, hkind, ne_eq, not_true_eq_false, Bool.not_true,
    Bool.false_eq_true, false_and, or_self, if_false, if_true]
  rfl

end

/-- A job on cores of the wrong kind waits again, ahead, with what its inline key was read from. -/
def Job.moved (y : Job) (in2 : Bytes) : Job := { y with phase := .waiting, unit := none, gang := [], ahead := true, in2 := in2 }

theorem moveKind_job? {s : State} {x : Job} (hj : s.job? x.id = some x) (in2 : Bytes) : (s.moveKind x in2).job? x.id = some (x.moved in2) :=
  ((UnitsOnly.vacateAll (s.setJob x.id (·.moved in2)) x).job? x.id).trans (State.job?_setJob_self hj _ fun _ => rfl)

theorem moveKind_job?_ne (s : State) (x : Job) (in2 : Bytes) {k : Nat} (hk : k ≠ x.id) : (s.moveKind x in2).job? k = s.job? k :=
  ((UnitsOnly.vacateAll (s.setJob x.id (·.moved in2)) x).job? k).trans (State.job?_setJob_ne s (·.moved in2) (fun _ => rfl) hk)

theorem moveKind_slots (s : State) (x : Job) (in2 : Bytes) : (s.moveKind x in2).slots = s.slots :=
  (UnitsOnly.vacateAll (s.setJob x.id (·.moved in2)) x).slots

theorem takeSegment_grows {s : State} {j n : Nat} {x : Job} {d : DmaResult} {bs : Bytes} (hj : s.job? j = some x) (hphase : x.phase = .started)
    (hlink : s.pcie.dlActive = true) (hclass : dClass x.desc = 0x0C) (hn : n = min 4096 (dInLen x.desc - x.main.length)) (hpos : 0 < n)
    (hsgl : dSgl x.desc = 0) (hread : s.gatherRead x.slice (dFlag x.desc 2) (dInAddr x.desc + x.main.length) n d = .data bs) :
    s.takeSegment j d = (s.metMain x x.main.length n d).setJob j (fun y => { y with main := y.main ++ bs }) := by
  simp only [State.takeSegment, hj, hphase, hlink, hclass, ← hn, hsgl, hread, dmaFail, dmaBytes, ne_eq, not_true_eq_false, Bool.not_true,
    Bool.false_eq_true, or_self, Nat.pos_iff_ne_zero.mp hpos, if_false, if_true]

/-! ### Dispatch -/

/-- The jobs hold the same place, inputs' units and keys. -/
structure Job.SamePlace (x y : Job) : Prop where
  phase : y.phase = x.phase
  unit : y.unit = x.unit
  classical : y.classical = x.classical
  pq : y.pq = x.pq
  slot : y.slot = x.slot
  attr : y.attr = x.attr
  key : y.key = x.key
  attr2 : y.attr2 = x.attr2
  key2 : y.key2 = x.key2
  desc : y.desc = x.desc

theorem Job.SamePlace.refl (x : Job) : x.SamePlace x := ⟨rfl, rfl, rfl, rfl, rfl, rfl, rfl, rfl, rfl, rfl⟩

/-- From `s` to `t` no job but `j` changes, and job `j` keeps its place and its keys; no slot becomes due. -/
structure Around (j : Nat) (s t : State) : Prop where
  tamper : t.tamper = s.tamper
  others : ∀ k, k ≠ j → t.job? k = s.job? k
  job : ∀ x, s.job? j = some x → ∃ y, t.job? j = some y ∧ x.SamePlace y

namespace Around
variable {j : Nat} {s t u : State}

theorem of_jobs (hj : t.jobs = s.jobs) (ht : t.tamper = s.tamper) : Around j s t :=
  ⟨ht, fun k _ => State.job?_congr hj k, fun x hx => ⟨x, (State.job?_congr hj j).trans hx, .refl x⟩⟩

theorem refl (j : Nat) (s : State) : Around j s s := of_jobs rfl rfl

theorem trans (h : Around j s t) (h' : Around j t u) : Around j s u := by
  refine ⟨h'.tamper.trans h.tamper, fun k hk => (h'.others k hk).trans (h.others k hk), fun x hx => ?_⟩
  obtain ⟨y, hy, a⟩ := h.job x hx
  obtain ⟨z, hz, b⟩ := h'.job y hy
  exact ⟨z, hz, b.phase.trans a.phase, b.unit.trans a.unit, b.classical.trans a.classical, b.pq.trans a.pq, b.slot.trans a.slot, b.attr.trans a.attr,
    b.key.trans a.key, b.attr2.trans a.attr2, b.key2.trans a.key2, b.desc.trans a.desc⟩

theorem setJob (s : State) (j : Nat) {f : Job → Job} (hid : ∀ x, (f x).id = x.id) (hf : ∀ x : Job, x.SamePlace (f x)) : Around j s (s.setJob j f) :=
  ⟨rfl, fun _ hk => State.job?_setJob_ne s f hid hk, fun x hx => ⟨f x, State.job?_setJob_self hx f hid, hf x⟩⟩

theorem regs {l : List Reg} (h : RegsAndMessages l s t) : Around j s t := of_jobs h.jobs h.tamper

theorem each {α : Type} {f : State → α → State} (hf : ∀ u a, Around j u (f u a)) (s : State) (l : List α) : Around j s (s.each l f) := by
  induction l generalizing s with
  | nil => exact refl j s
  | cons a l ih => exact (hf s a).trans (ih (f s a))

theorem setCell (s : State) (c : Nat) (x : Cell) : Around j s (s.setCell c x) := of_jobs rfl rfl

theorem ite {c : Prop} [Decidable c] (h : Around j s t) (h' : Around j s u) : Around j s (if c then t else u) := by split <;> assumption

theorem memEvt (s : State) (i : Nat) : Around j s (s.memEvt i) :=
  regs (RegsAndMessages.event (l := [.memEvtStatus]) (by simp) s .memEvtEnable .memEvtVector i)

theorem slotUe (s : State) (a : Nat) : Around j s (s.slotUe a) := by
  unfold State.slotUe
  split
  · split
    · exact regs (ddrUe_frame s _)
    · exact refl j s
  · exact (of_jobs rfl rfl : Around j s (s.bump .memSramUe)).trans (memEvt _ 2)

theorem slotCe (s : State) (a : Nat) : Around j s (s.slotCe a) := of_jobs rfl rfl

theorem keyUe (s : State) (n : Nat) (d : Bytes) (ue : SlotUe) : Around j s (s.keyUe n d ue) := by
  have hsram : Around j s ((s.bump .memSramUe).memEvt 2) := (of_jobs rfl rfl : Around j s (s.bump .memSramUe)).trans (memEvt _ 2)
  unfold State.keyUe
  split
  · exact refl j s
  · split
    · split
      · exact slotUe s _
      · exact refl j s
    · exact slotUe s _
    · exact hsram
    · split
      · exact hsram
      · exact refl j s
    · split
      · exact slotCe s _
      · exact refl j s
    · exact slotCe s _
    · exact of_jobs rfl rfl
    · exact refl j s

theorem putAttr (s : State) (a : Nat) (w : DWord) : Around j s (s.putAttr a w) := of_jobs rfl rfl

theorem place (s : State) (x : Job) (u : JobUnit) (e : Option KernelEntry) (harden : Nat) : Around x.id s (s.place x u e harden) := by
  unfold State.place
  cases u with
  | sc => exact refl _ s
  | bne c f => exact of_jobs rfl rfl
  | shell sh =>
    refine each (fun u e => ?_) s _
    exact of_jobs rfl rfl
  | hash k =>
    simp only
    split
    · exact refl _ s
    · split
      · exact refl _ s
      · exact setJob s x.id (fun _ => rfl) fun y => by constructor <;> rfl

theorem putTrav (s : State) (w : DWord) (mat : Bytes) (i : Nat) : Around j s (s.putTrav w mat i) :=
  of_jobs (putTrav_jobs s w mat i) (putTrav_tamper s w mat i)

theorem travUe (s : State) (c : Nat) (ue : SlotUe) : Around j s (s.travUe c ue) := by
  unfold State.travUe
  split
  · exact (regs (ddrUe_frame s _)).trans (setCell _ _ _)
  · exact refl j s

theorem tryIndex (s : State) (j : Nat) (w : DWord) (mat : Bytes) : Around j s (s.tryIndex j w mat).2 := by
  unfold State.tryIndex
  simp only
  split
  · exact setCell s _ _
  · split
    · exact setCell s _ _
    · split
      · exact setCell s _ _
      · split
        · exact setCell s _ _
        · exact .trans (.ite ((setCell s _ _).trans (putTrav _ _ _ _)) (setCell s _ _)) (setJob _ j (fun _ => rfl) fun y => by constructor <;> rfl)

theorem countWait (s : State) (c j : Nat) : Around j s (s.countWait c j) := by
  unfold State.countWait
  simp only
  split
  · exact .trans (.trans (of_jobs rfl rfl : Around j s (s.bump .hsfSctrWaits))
      (regs (RegsAndMessages.event (l := [.hsfEvtStatus]) (by simp) _ .hsfEvtEnable .hsfEvtVector 5))) (setJob _ j (fun _ => rfl) fun y => by constructor <;> rfl)
  · exact refl j s

theorem takeIndex (s : State) (j : Nat) (w : DWord) (mat : Bytes) : Around j s (s.takeIndex j w mat) := by
  have htry := tryIndex s j w mat
  by_cases hfirst : (s.cell (attrCell w)).waiters.isEmpty = true
  · simp only [State.takeIndex, hfirst, if_true]
    exact .ite htry (htry.trans ((setCell _ _ _).trans (countWait _ _ j)))
  · simp only [State.takeIndex, hfirst, if_false, Bool.false_eq_true]
    exact (setCell s _ _).trans (countWait _ _ j)

end Around

/-- A job with the key that its slot read found. -/
def Job.reads (x : Job) (slot : Option Nat) (attr : DWord) (mat : Bytes) (attr2 : DWord) (mat2 : Bytes) (gen : Nat) (epoch : Option (Bytes × Nat))
    (fillNo : Nat) (memo : List (MemoKey × Bytes)) : Job :=
  { x with slot := slot, attr := attr, key := mat, attr2 := attr2, key2 := mat2, cellGen := gen, epoch := epoch, fillNo := fillNo, memo := memo }

/-- A job, or the half of a hybrid job of kind `kind`, begun on a unit of a pool. -/
def Job.begins (x : Job) (d : Bytes) (kind : Nat) (pool : Option Nat) (u : JobUnit) : Job :=
  let x : Job := { x with journal := changesSlot d }
  if dClass d = 0x10 then
    { x.setHalf (kind == 1) ⟨if x.phase = .gathered then .gathered else .started, some u, pool, none⟩ with
      phase := if x.phase = .waiting then .started else x.phase }
  else { x with phase := .started, unit := some u, pool := pool }

theorem Job.begins_id (x : Job) (d : Bytes) (kind : Nat) (pool : Option Nat) (u : JobUnit) : (x.begins d kind pool u).id = x.id := by
  unfold Job.begins Job.setHalf
  simp only
  split
  · split <;> rfl
  · rfl

/-- A waiting job that begins is started there, itself or with a half; its key and its descriptor stand. -/
theorem Job.begins_spec {x : Job} (h : x.phase = .waiting) (kind : Nat) (pool : Option Nat) (u : JobUnit) (d : Bytes) :
    let y := x.begins d kind pool u
    y.phase = .started ∧ (y.unit = some u ∨ dClass d = 0x10 ∧ (y.pq.unit = some u ∨ y.classical.unit = some u)) ∧
      y.slot = x.slot ∧ y.attr = x.attr ∧ y.key = x.key ∧ y.attr2 = x.attr2 ∧ y.key2 = x.key2 ∧ y.desc = x.desc := by
  unfold Job.begins Job.setHalf
  simp only [h]
  split
  · next hc =>
    split
    · exact ⟨rfl, .inr ⟨hc, .inl rfl⟩, rfl, rfl, rfl, rfl, rfl, rfl⟩
    · exact ⟨rfl, .inr ⟨hc, .inr rfl⟩, rfl, rfl, rfl, rfl, rfl, rfl⟩
  · exact ⟨rfl, .inl rfl, rfl, rfl, rfl, rfl, rfl, rfl⟩

/-- A job begun on a unit, placed there. -/
def State.begun (s : State) (j : Job) (p : Option RigPool) (u : JobUnit) (e : Option KernelEntry) : State :=
  (s.setJob j.id (·.begins j.desc ((p.map (·.kind)).getD 0) (p.map (·.num)) u)).place j u e ((p.map (·.harden)).getD 0)

/-- The slot of a job that destroys its key after it marked as due to go. -/
def State.marked (s : State) (j : Job) (slot : Option Nat) (attr : DWord) : State :=
  match slot with
  | some a => if pDestroyAfter (dParam j.desc) then s.putAttr a (setB attr 1 true) else s
  | none => s

theorem Around.marked (k : Nat) (s : State) (j : Job) (slot : Option Nat) (attr : DWord) : Around k s (s.marked j slot attr) := by
  unfold State.marked
  split
  · split
    · exact .putAttr s _ _
    · exact .refl k s
  · exact .refl k s

/-- A job that waits for the first time and passes its checks reads its key and begins on the unit. -/
theorem start_ok {s : State} {j : Job} {p : Option RigPool} {u : JobUnit} {ue : SlotUe} {slot : Option Nat} {attr attr2 : DWord} {mat mat2 : Bytes}
    (hphase : j.phase = .waiting) (hahead : j.ahead = false) (hpre : s.preCheck j ue = .inr (.ok slot attr mat attr2 mat2)) :
    ∃ e gen epoch fillNo memo, Around j.id ((((s.keyUe j.slice j.desc ue).setJob j.id (·.reads slot attr mat attr2 mat2 gen epoch fillNo memo)).marked
      j slot attr).begun j p u e) (s.start j p u ue) := by
  refine ⟨p.bind (fun p => s.rig.bind (fun r => r.entry p (dOp j.desc) (kernelSet j.desc))), ((s.keyUe j.slice j.desc ue).cell (attrCell attr)).gen, (s.keyUe j.slice j.desc ue).bbram.epoch,
    (slot.map (s.keyUe j.slice j.desc ue).fillOf).getD 0,
    if dOp j.desc = 0x0302 then (s.keyUe j.slice j.desc ue).memo.filter (fun m => some m.1.slot = slot) else [], ?_⟩
  simp only [State.start, hphase, hahead, hpre, decide_true, Bool.not_false, Bool.and_self, Bool.not_true, Bool.false_eq_true, if_false]
  exact .ite ((Around.travUe (j := j.id) _ (attrCell attr) ue).trans (.takeIndex _ _ _ _)) (.refl _ _)

/-- What a first dispatch makes of the job. -/
structure Starts (s t : State) (j : Job) (u : JobUnit) (slot : Option Nat) (attr : DWord) (mat : Bytes) (attr2 : DWord) (mat2 : Bytes) (y : Job) :
    Prop where
  job : t.job? j.id = some y
  phase : y.phase = .started
  unit : y.unit = some u ∨ dClass j.desc = 0x10 ∧ (y.pq.unit = some u ∨ y.classical.unit = some u)
  slot : y.slot = slot
  attr : y.attr = attr
  key : y.key = mat
  attr2 : y.attr2 = attr2
  key2 : y.key2 = mat2
  desc : y.desc = j.desc
  others : ∀ k, k ≠ j.id → t.job? k = s.job? k

theorem start_starts {s : State} {j : Job} {p : Option RigPool} {u : JobUnit} {ue : SlotUe} {slot : Option Nat} {attr attr2 : DWord}
    {mat mat2 : Bytes} (hj : s.job? j.id = some j) (hphase : j.phase = .waiting) (hahead : j.ahead = false)
    (hpre : s.preCheck j ue = .inr (.ok slot attr mat attr2 mat2)) :
    (s.start j p u ue).tamper = s.tamper ∧ ∃ y, Starts s (s.start j p u ue) j u slot attr mat attr2 mat2 y := by
  obtain ⟨e, gen, epoch, fillNo, memo, hstart⟩ := start_ok (p := p) (u := u) hphase hahead hpre
  have hread : Around j.id s (s.keyUe j.slice j.desc ue) := .keyUe s _ _ ue
  obtain ⟨x, hx, hxj⟩ := hread.job j hj
  obtain ⟨v, hv⟩ : ∃ v, v = (s.keyUe j.slice j.desc ue).setJob j.id (·.reads slot attr mat attr2 mat2 gen epoch fillNo memo) := ⟨_, rfl⟩
  have hvj : v.job? j.id = some (x.reads slot attr mat attr2 mat2 gen epoch fillNo memo) := hv ▸ State.job?_setJob_self hx _ fun _ => rfl
  have hvo : ∀ k, k ≠ j.id → v.job? k = s.job? k := fun k hk =>
    (hv ▸ State.job?_setJob_ne _ (·.reads slot attr mat attr2 mat2 gen epoch fillNo memo) (fun _ => rfl) hk).trans (hread.others k hk)
  have hvt : v.tamper = s.tamper := hv ▸ hread.tamper
  rw [← hv] at hstart
  have hmark : Around j.id v (v.marked j slot attr) := .marked _ v j slot attr
  obtain ⟨z, hz, hzx⟩ := hmark.job _ hvj
  have hwait : z.phase = .waiting := hzx.phase.trans (hxj.phase.trans hphase)
  obtain ⟨h1, h2, h3, h4, h5, h6, h7, h8⟩ := Job.begins_spec hwait ((p.map (·.kind)).getD 0) (p.map (·.num)) u j.desc
  have hbegun : Around j.id ((v.marked j slot attr).setJob j.id (·.begins j.desc ((p.map (·.kind)).getD 0) (p.map (·.num)) u)) (s.start j p u ue) :=
    .trans (Around.place _ j u e _) hstart
  have hid : ∀ x : Job, (x.begins j.desc ((p.map (·.kind)).getD 0) (p.map (·.num)) u).id = x.id := fun x => x.begins_id _ _ _ _
  obtain ⟨y, hy, hyz⟩ := hbegun.job _ (State.job?_setJob_self hz _ hid)
  refine ⟨hbegun.tamper.trans (hmark.tamper.trans hvt), y, hy, hyz.phase.trans h1, ?_, hyz.slot.trans (h3.trans hzx.slot), hyz.attr.trans (h4.trans hzx.attr),
    hyz.key.trans (h5.trans hzx.key), hyz.attr2.trans (h6.trans hzx.attr2), hyz.key2.trans (h7.trans hzx.key2),
    hyz.desc.trans (h8.trans (hzx.desc.trans hxj.desc)),
    fun k hk => (hbegun.others k hk).trans ((State.job?_setJob_ne _ _ hid hk).trans ((hmark.others k hk).trans (hvo k hk)))⟩
  rw [hyz.unit, hyz.pq, hyz.classical]
  exact h2

theorem sweepSlices_of_good {s : State} {l : List Nat} (h : ∀ n ∈ l, s.sliceBad n = false) : s.each l State.sweepSlice = s := by
  induction l with
  | nil => rfl
  | cons n l ih =>
    change (s.sweepSlice n).each l State.sweepSlice = s
    rw [sweepSlice_of_good (h n (by simp)), ih fun m hm => h m (by simp [hm])]

theorem JobsOnly.dropUnmasked (s : State) : JobsOnly s s.dropUnmasked := JobsOnly.each (fun u x => .endPart u x 1 0x30) s _

/-- The jobs in flight when the cox chooses. -/
def State.sifted (s : State) : State := s.dropUncarried.dropUnmasked

theorem sifted_tamper (s : State) : s.sifted.tamper = s.tamper := ((JobsOnly.dropUncarried s).trans (.dropUnmasked _)).tamper

section
variable {s : State} (hdev : s.devState = 1) (hgen : s.bit .genState 4 = false)
include hdev hgen

theorem dispatch_sc {p : Nat} {ue : SlotUe} {j : Job}
    (hpick : pickJob (fun _ => 0) (s.sifted.jobs.filter (fun j => (opKinds (dOp j.desc)).isEmpty && decide (j.phase = .waiting)
      && s.sifted.fenceOk j && s.sifted.journalOk j && !s.sifted.sliceBad j.slice)) = some j) :
    s.dispatch p .sc ue = s.sifted.start j none .sc ue := by
  unfold State.sifted at hpick ⊢
  simp only [State.dispatch, hdev, hgen, hpick, ne_eq, not_true_eq_false, Bool.false_eq_true, or_self, if_false]

theorem dispatch_unit {p : Nat} {u : JobUnit} {ue : SlotUe} {j : Job} {r : Rig} {pr : RigPool} {c : CoxPool} (hu : u ≠ .sc)
    (hrig : s.sifted.rig = some r) (hpool : s.sifted.poolRec p = some pr) (hhold : s.sifted.bit (.fabPoolCtrl p) 0 = false)
    (hempty : s.sifted.poolState pr ≠ 3) (hrerig : s.sifted.poolState pr ≠ 4) (hchoose : s.sifted.coxChoose r pr u = (some j, c)) :
    s.dispatch p u ue = ({ s.sifted with cox := tset p c s.sifted.cox } : State).start j (some pr) u ue := by
  unfold State.sifted at *
  cases u with
  | sc => exact absurd rfl hu
  | shell sh =>
    simp only [State.dispatch, hdev, hgen, hrig, hpool, hhold, hempty, hrerig, hchoose, ne_eq, not_true_eq_false, Bool.false_eq_true, or_self, if_false]
  | bne k f =>
    simp only [State.dispatch, hdev, hgen, hrig, hpool, hhold, hempty, hrerig, hchoose, ne_eq, not_true_eq_false, Bool.false_eq_true, or_self, if_false]
  | hash k =>
    simp only [State.dispatch, hdev, hgen, hrig, hpool, hhold, hempty, hrerig, hchoose, ne_eq, not_true_eq_false, Bool.false_eq_true, or_self, if_false]

end

theorem exec_jobDispatch {s : State} {p : Nat} {u : JobUnit} {ue : SlotUe} (hgood : ∀ x ∈ s.jobs, s.sliceBad x.slice = false)
    (hdue : (s.dispatch p u ue).tamper.slotsDue = []) : exec (.jobDispatch p u ue) s = .next (s.dispatch p u ue) := by
  change Host.Outcome.next ((s.each (s.jobs.map (·.slice)) State.sweepSlice).dispatch p u ue).sweepDue = _
  rw [sweepSlices_of_good (by simpa using hgood), sweepDue_of_none hdue]

theorem Starts.final {s t : State} {j : Job} {u : JobUnit} {slot : Option Nat} {attr attr2 : DWord} {mat mat2 : Bytes} {y : Job}
    (h : Starts s t j u slot attr mat attr2 mat2 y) :
    t.job? j.id = some y ∧ y.phase = .started ∧ (y.unit = some u ∨ dClass j.desc = 0x10 ∧ (y.pq.unit = some u ∨ y.classical.unit = some u)) ∧
      y.slot = slot ∧ y.attr = attr ∧ y.key = mat ∧ y.attr2 = attr2 ∧ y.key2 = mat2 ∧ y.desc = j.desc ∧ ∀ k, k ≠ j.id → t.job? k = s.job? k :=
  ⟨h.job, h.phase, h.unit, h.slot, h.attr, h.key, h.attr2, h.key2, h.desc, h.others⟩

/-- Settles O27: the fetch, the dispatch, the inputs, and the next segment. -/
theorem fetchDispatchAndGather : Obligations.FetchDispatchAndGather := by
  refine ⟨fun s q d gl hgood hdue hturn => ?_, fun s q d gl bs hturn hgood hpos hsize hids hwin hread => ?_,
    fun s s' p u ue j slot attr attr2 mat mat2 hdev hgen hdue hgood hs' hpick hj hphase hahead hpre => ?_,
    fun s j x main in2 in3 ctx a b c e hj hphase hlink hgood hclass ha hb hc he => ?_,
    fun s j n x d bs hj hphase hclass hlink hgood hn hpos hsgl hread => ?_⟩
  · rw [exec_descriptorFetch hgood]
    simp [State.fetch, hdue, hturn]
  · obtain ⟨a, b, c, hfetch⟩ := fetch_of_live hturn d gl
    have hactive : s.sliceState (q / 64) ≠ 2 := by rw [sliceState_of_fetchTurn hturn]; decide
    obtain ⟨y, h⟩ := takeDescriptor_arrives (s := { s with fetchSlice := a, fetchQueue := b, fetchDue := c }) (gl := gl)
      hactive hids ⟨hpos, hsize⟩ hwin hread
    exact ⟨_, y, (exec_descriptorFetch hgood d gl).trans (congrArg Host.Outcome.next hfetch), h.head, h.next, h.job, h.desc, h.slice, h.queue, h.index,
      h.phase, h.others, h.slots, h.tiles, h.ddr⟩
  · subst hs'
    rcases hpick with ⟨rfl, hpick⟩ | ⟨hu, r, pr, c, hrig, hpool, hhold, hempty, hrerig, hchoose⟩
    · rw [if_pos rfl] at hpre
      obtain ⟨htamper, y, h⟩ := start_starts (p := none) (u := .sc) hj hphase hahead hpre
      have hdispatch := dispatch_sc (p := p) (ue := ue) hdev hgen hpick
      have hnone : (s.dispatch p .sc ue).tamper = s.tamper := (congrArg State.tamper hdispatch).trans (htamper.trans (sifted_tamper s))
      exact ⟨_, y, (exec_jobDispatch hgood (by rw [hnone, hdue])).trans (congrArg Host.Outcome.next hdispatch), h.final⟩
    · rw [if_neg hu] at hpre
      obtain ⟨htamper, y, h⟩ := start_starts (s := { s.sifted with cox := tset p c s.sifted.cox }) (p := some pr) (u := u) hj hphase hahead (hpre (tset p c s.sifted.cox))
      have hdispatch := dispatch_unit (ue := ue) hdev hgen hu hrig hpool hhold hempty hrerig hchoose
      have hnone : (s.dispatch p u ue).tamper = s.tamper := (congrArg State.tamper hdispatch).trans (htamper.trans (sifted_tamper s))
      exact ⟨_, y, (exec_jobDispatch hgood (by rw [hnone, hdue])).trans (congrArg Host.Outcome.next hdispatch), h.final⟩
  · have hmet := metInputs_frame s x main in2 in3 ctx
    have hsweep : exec (.inputsGathered j main in2 in3 ctx) s = .next (s.takeInputs j main in2 in3 ctx) := by
      change Host.Outcome.next ((s.sweepJob j).takeInputs j main in2 in3 ctx) = _
      rw [sweepJob_of_good hj hgood]
    refine ⟨fun hkind => ?_, fun hkind hleave => ?_⟩
    · rw [takeInputs_gathers hj hphase hlink hclass ha hb hc he hkind] at hsweep
      have hy := State.job?_setJob_self ((hmet.job? j).trans hj) (·.hasInputs a b c e) fun _ => rfl
      refine ⟨_, x.hasInputs a b c e, hsweep, hy, rfl, rfl, rfl, rfl, rfl, rfl, rfl, fun k hk => ?_, (State.setJob_slots _ _ _).trans hmet.slots⟩
      exact (State.job?_setJob_ne _ (·.hasInputs a b c e) (fun _ => rfl) hk).trans (hmet.job? k)
    · rw [takeInputs_moves hj hphase hlink hclass ha hb hc he hkind, State.departing, hmet.leaving, hleave] at hsweep
      have hmoved := moveKind_job? ((hmet.job? x.id).trans (job?_id hj ▸ hj)) b
      rw [job?_id hj] at hmoved
      exact ⟨_, _, hsweep, hmoved, rfl, rfl, rfl, rfl, rfl, fun k hk => (moveKind_job?_ne _ x b (by rwa [job?_id hj])).trans (hmet.job? k),
        (moveKind_slots _ x b).trans hmet.slots⟩
  · have hmet := metMain_frame s x x.main.length n d
    have hexec : exec (.messageSegmentFetch j d) s = .next (s.takeSegment j d) := by
      change Host.Outcome.next ((s.sweepJob j).takeSegment j d) = _
      rw [sweepJob_of_good hj hgood]
    rw [takeSegment_grows hj hphase hlink hclass hn hpos hsgl hread] at hexec
    have hy := State.job?_setJob_self ((hmet.job? j).trans hj) (fun y => { y with main := y.main ++ bs }) fun _ => rfl
    refine ⟨_, _, hexec, hy, rfl, rfl, fun k hk => ?_, (State.setJob_slots _ _ _).trans hmet.slots, (State.setJob_ddr _ _ _).trans hmet.ddr⟩
    exact (State.job?_setJob_ne _ (fun y => { y with main := y.main ++ bs }) (fun _ => rfl) hk).trans (hmet.job? k)

end Sys2Proof.Machine
end

section
/-! PROOFS. Enabling, disabling and restarting a queue (O29). -/

namespace Sys2Proof.Machine

/-! ### Entries that are written -/

/-- A register's last good state is its own matter and its shadow's. -/
theorem State.lastGood_congr {s t : State} {r : Reg} (hrd : t.rd r = s.rd r) (hshadow : t.shadow = s.shadow) : t.lastGood r = s.lastGood r := by
  unfold State.lastGood State.shadowBad State.shadowOf
  rw [hrd, hshadow]

/-- What decides whether an entry can be written: the registers beside the queue's tail and the states in its control register. -/
theorem cqWritable_congr {s t : State} {q : Nat} (hrd : ∀ r, r ≠ .qmgQCqTail q → r ≠ .qmgQCtrl q → t.rd r = s.rd r)
    (hspace : t.bit (.qmgQCtrl q) 2 = s.bit (.qmgQCtrl q) 2) (hshadow : t.shadow = s.shadow) (hpcie : t.pcie = s.pcie) (idx : Nat) (ue : Bool) :
    t.cqWritable q idx ue = s.cqWritable q idx ue := by
  have hfld (r : Reg) (hr : r ≠ .qmgQCqTail q) (hr' : r ≠ .qmgQCtrl q) (hi lo : Nat) : t.fld r hi lo = s.fld r hi lo :=
    congrArg (getF · hi lo) (hrd r hr hr')
  have hddr (i : Nat) : t.bit .ddrStat i = s.bit .ddrStat i := congrArg (getB · i) (hrd .ddrStat (by simp) (by simp))
  have hpasid (n : Nat) : t.pasidOf n = s.pasidOf n := by
    simp only [State.pasidOf, State.lastGood_congr (hrd (.slmSlicePasid n) (by simp) (by simp)) hshadow]
  have hwindow (n k addr len : Nat) : t.inDmaWindow n k addr len = s.inDmaWindow n k addr len := by
    simp only [State.inDmaWindow, hfld (.slmSliceDmawinBase n k) (by simp) (by simp), hfld (.slmSliceDmawinLimit n k) (by simp) (by simp)]
  have hin (n : Nat) (ddr : Bool) (addr len : Nat) : t.inWindow n ddr addr len = s.inWindow n ddr addr len := by
    unfold State.inWindow
    rw [hpasid, hfld (.slmSliceDdrSize n) (by simp) (by simp), funext fun k => hwindow n k addr len]
  unfold State.cqWritable State.cqAddr State.hostFault State.ddrReady
  dsimp only
  rw [hin, hpcie, hpasid, hfld (.qmgQCqBase q) (by simp) (by simp), hspace, hddr, hddr]

/-- From `s` to `t` entries of queue `q` are written: its tail and its further state change, memory is written, messages go. -/
structure Enters (q : Nat) (s t : State) : Prop where
  regs : ∀ r, r ≠ .qmgQCqTail q → t.rd r = s.rd r
  held : (t.queueX q).held = (s.queueX q).held
  rest : ({ t with regs := s.regs, out := s.out, msixPend := s.msixPend, ddr := s.ddr, qx := s.qx } : State) = s

namespace Enters
variable {q : Nat} {s t u : State}

theorem refl (q : Nat) (s : State) : Enters q s s := ⟨fun _ _ => rfl, rfl, rfl⟩

theorem trans (h : Enters q s t) (h' : Enters q t u) : Enters q s u :=
  ⟨fun r hr => (h'.regs r hr).trans (h.regs r hr), h'.held.trans h.held,
    (congrArg (fun x : State => { x with regs := s.regs, out := s.out, msixPend := s.msixPend, ddr := s.ddr, qx := s.qx }) h'.rest).trans h.rest⟩

theorem jobs (h : Enters q s t) : t.jobs = s.jobs := (congrArg State.jobs h.rest :)
theorem pcie (h : Enters q s t) : t.pcie = s.pcie := (congrArg State.pcie h.rest :)
theorem shadow (h : Enters q s t) : t.shadow = s.shadow := (congrArg State.shadow h.rest :)

theorem postWrite (s : State) (n : Nat) (ddr : Bool) (addr : Nat) (bs : Bytes) (relaxed : Bool) : Enters q s (s.postWrite n ddr addr bs relaxed) := by
  unfold State.postWrite
  split
  · exact refl q s
  · split
    · split
      · exact ⟨fun _ _ => rfl, rfl, rfl⟩
      · exact refl q s
    · exact ⟨fun _ _ => rfl, rfl, rfl⟩

theorem setQueueX (s : State) (f : QueueX → QueueX) (hf : (f (s.queueX q)).held = (s.queueX q).held) : Enters q s (s.setQueueX q f) :=
  ⟨fun _ _ => rfl, by simpa using hf, rfl⟩

theorem sendMsix (s : State) (v : Nat) : Enters q s (s.sendMsix v) := by
  unfold State.sendMsix
  split
  · exact refl q s
  · split <;> exact ⟨fun _ _ => rfl, rfl, rfl⟩

theorem sendQueue (s : State) : Enters q s (s.sendQueue q) := by
  unfold State.sendQueue
  cases s.queueVector q with
  | none => exact setQueueX s _ rfl
  | some v => exact (sendMsix s v).trans (setQueueX _ _ rfl)

theorem countInt (s : State) : Enters q s (s.countInt q) := by
  unfold State.countInt
  simp only
  split
  · exact (setQueueX s _ rfl).trans (sendQueue _)
  · exact setQueueX s _ rfl

theorem wrTail (s : State) (v : DWord) : Enters q s (s.wr (.qmgQCqTail q) v) := ⟨fun _ hr => s.rd_wr_ne v hr.symm, rfl, rfl⟩

theorem advanceCq (s : State) : Enters q s (s.advanceCq q) := (wrTail s _).trans (setQueueX (s.wr (.qmgQCqTail q) _) (fun x => { x with used := x.used + 1 }) rfl)

theorem putEntry (s : State) (h : Held) : Enters q s (s.putEntry q h) := by
  have hadvance (u : State) : Enters q u (if h.fresh then u.advanceCq q else u) := by
    split
    · exact advanceCq u
    · exact refl q u
  unfold State.putEntry
  simp only
  split
  · exact ((postWrite s _ _ _ _ false).trans (hadvance _)).trans (countInt _)
  · exact (postWrite s _ _ _ _ false).trans (hadvance _)

theorem cqWritable (h : Enters q s t) (idx : Nat) (ue : Bool) : t.cqWritable q idx ue = s.cqWritable q idx ue :=
  cqWritable_congr (fun r hr _ => h.regs r hr) (congrArg (getB · 2) (h.regs (.qmgQCtrl q) (by simp))) h.shadow h.pcie idx ue

theorem putEntries {s : State} {ue : List Nat} {l : List Held} (h : ∀ e ∈ l, s.cqWritable q e.idx (decide (e.idx ∈ ue)) = none) :
    Enters q s (s.putEntries q ue l) := by
  induction l generalizing s with
  | nil => exact refl q s
  | cons e l ih =>
    simp only [State.putEntries, h e List.mem_cons_self]
    have hput : Enters q s (s.putEntry q e) := putEntry s e
    exact hput.trans (ih fun x hx => (hput.cqWritable _ _).trans (h x (List.mem_cons_of_mem e hx)))

end Enters

/-! ### A restart -/

/-- The held entries go out, and the queue runs again. -/
structure Restarts (q : Nat) (s t : State) : Prop where
  state : t.queueState q = 1
  err : t.rd (.qmgQErr q) = 0
  held : (t.queueX q).held = []
  jobs : t.jobs = s.jobs
  head : t.rd (.qmgQSqHead q) = s.rd (.qmgQSqHead q)

/-- The first held entry still cannot be written: the queue stays in ERROR. -/
structure Refaults (q code : Nat) (l : List Held) (s t : State) : Prop where
  state : t.queueState q = 2
  code : t.fld (.qmgQErr q) 7 0 = code
  wher : t.fld (.qmgQErr q) 15 8 = 2
  held : (t.queueX q).held = l
  jobs : t.jobs = s.jobs

theorem cqWritable_lt {s : State} {q i code : Nat} {ue : Bool} (h : s.cqWritable q i ue = some code) : code < 256 := by
  have hcode : code = 0x19 ∨ code = 0x1A := by
    simp only [State.cqWritable] at h
    split at h
    · exact .inl (Option.some.inj h).symm
    · split at h
      · split at h
        · exact .inr (Option.some.inj h).symm
        · cases h
      · split at h
        · exact .inl (Option.some.inj h).symm
        · cases h
  omega

theorem cqUe_frame (s : State) (q : Nat) (ue : Bool) (idx : Nat) : RegsAndMessages ddrRegs s (s.cqUe q ue idx) := by
  unfold State.cqUe
  split
  · exact (ddrUe_frame s _).mono (by simp [ddrRegs])
  · exact .refl _ s

theorem restartQueue_of_running {s : State} {q : Nat} (h : s.queueState q ≠ 2) (ue : List Nat) : s.restartQueue q ue = s := by
  simp [State.restartQueue, h]

theorem restartQueue_restarts {s : State} {q : Nat} {ue : List Nat} (hstate : s.queueState q = 2)
    (h : ∀ e ∈ (s.queueX q).held, s.cqWritable q e.idx (decide (e.idx ∈ ue)) = none) : Restarts q s (s.restartQueue q ue) := by
  have hput : Enters q (s.setQueueX q (fun x => { x with held := [] }))
      ((s.setQueueX q (fun x => { x with held := [] })).putEntries q ue (s.queueX q).held) := Enters.putEntries h
  have hheld : (((s.setQueueX q (fun x => { x with held := [] })).putEntries q ue (s.queueX q).held).queueX q).held = [] := by
    rw [hput.held]; simp
  simp only [State.restartQueue, hstate, ne_eq, not_true_eq_false, if_false, hheld, List.isEmpty_nil, if_true]
  generalize (s.setQueueX q (fun x => { x with held := [] })).putEntries q ue (s.queueX q).held = u at hput hheld ⊢
  have hhead : u.rd (.qmgQSqHead q) = s.rd (.qmgQSqHead q) := hput.regs (.qmgQSqHead q) (by simp)
  exact ⟨State.fld_setFld _ _ 10 8 1 (by decide) (by decide), by simp [State.setQueueState], hheld, hput.jobs,
    by simpa [State.setQueueState] using hhead⟩

theorem queueError_state_of_error {s : State} {q : Nat} (h : s.queueState q = 2) (code wher index : Nat) :
    (s.queueError q code wher index).queueState q = 2 := by
  have hstill : (s.wr (.qmgQErr q) (queueErrWord code wher index)).queueState q = 2 := by simpa [State.queueState, State.fld] using h
  unfold State.queueError
  simp only
  rw [← queueErrWord, if_neg (by simp [hstill])]
  exact hstill

/-- What the fault of the first entry of a list makes of the queue. -/
theorem putEntries_of_fault {s : State} {q code : Nat} {ue : List Nat} {e : Held} {l : List Held}
    (h : s.cqWritable q e.idx (decide (e.idx ∈ ue)) = some code) : s.putEntries q ue (e :: l) =
      ((s.cqUe q (decide (e.idx ∈ ue)) e.idx).setQueueX q (fun x => { x with held := e :: l ++ x.held })).queueError q code 2 e.idx := by
  simp [State.putEntries, h]

theorem restartQueue_refaults {s : State} {q code : Nat} {ue : List Nat} {e : Held} {l : List Held} (hstate : s.queueState q = 2)
    (hheld : (s.queueX q).held = e :: l) (h : s.cqWritable q e.idx (decide (e.idx ∈ ue)) = some code) :
    Refaults q code (e :: l) s (s.restartQueue q ue) := by
  have hfault : (s.setQueueX q (fun x => { x with held := [] })).cqWritable q e.idx (decide (e.idx ∈ ue)) = some code := h
  have hue : RegsAndMessages ddrRegs (s.setQueueX q (fun x => { x with held := [] }))
    ((s.setQueueX q (fun x => { x with held := [] })).cqUe q (decide (e.idx ∈ ue)) e.idx) := cqUe_frame _ _ _ _
  obtain ⟨hc, hw, -⟩ := queueErrWord_fields e.idx (cqWritable_lt h) (show 2 < 256 by decide)
  have hemptied : ((s.setQueueX q (fun x => { x with held := [] })).queueX q).held = [] := by simp
  simp only [State.restartQueue, hstate, ne_eq, not_true_eq_false, if_false, hheld, putEntries_of_fault hfault]
  generalize (s.setQueueX q (fun x => { x with held := [] })).cqUe q (decide (e.idx ∈ ue)) e.idx = u at hue ⊢
  have hqx : u.qx = (s.setQueueX q (fun x => { x with held := [] })).qx := (congrArg State.qx hue.2 :)
  have hnow : (u.queueX q).held = [] := by rw [State.queueX, hqx]; exact hemptied
  have hctrl : (u.setQueueX q (fun x => { x with held := e :: l ++ x.held })).queueState q = 2 :=
    (congrArg (getF · 10 8) (hue.1 (.qmgQCtrl q) (by simp [ddrRegs]))).trans hstate
  have hkept : (((u.setQueueX q (fun x => { x with held := e :: l ++ x.held })).queueError q code 2 e.idx).queueX q).held = e :: l := by
    have hframe := queueError_frame (u.setQueueX q (fun x => { x with held := e :: l ++ x.held })) q code 2 e.idx
    have hsame := (congrArg State.qx hframe.2 :)
    rw [State.queueX, hsame]
    show ((u.setQueueX q (fun x => { x with held := e :: l ++ x.held })).queueX q).held = _
    simp [hnow]
  simp only [hkept, List.isEmpty_cons, Bool.false_eq_true, if_false]
  exact ⟨queueError_state_of_error hctrl _ _ _, by rw [State.fld, queueError_rd_err, hc], by rw [State.fld, queueError_rd_err, hw], hkept,
    (queueError_frame _ _ _ _ _).jobs.trans hue.jobs⟩

/-! ### Enabling -/

/-- The state that an enable leaves. -/
def State.enabled (s : State) (q : Nat) (v : DWord) : State :=
  ((((((s.setFld (.qmgQCtrl q) 5 4 (s.clampVector (q / 64) (getF v 5 4))).setBit (.qmgQCtrl q) 1 (getB v 1)).setBit (.qmgQCtrl q) 2
    (getB v 2)).clearQueue q).wr (.qmgQCompleted q) 0).setBit (.qmgQCtrl q) 0 true).setQueueState q 1

theorem enabled_state (s : State) (q : Nat) (v : DWord) : (s.enabled q v).queueState q = 1 := State.fld_setFld _ _ 10 8 1 (by decide) (by decide)

theorem writeQueueCtrl_enables {s : State} {q : Nat} (h : s.queueState q = 0) {v : DWord} (hv : getB v 0 = true) :
    s.writeQueueCtrl q v = s.enabled q v := by
  have hrestart : (s.enabled q v).restartQueue q [] = s.enabled q v := restartQueue_of_running (by simp [enabled_state]) []
  unfold State.writeQueueCtrl
  simp only [h, hv, beq_self_eq_true, Bool.and_self, if_true]
  show (if getB v 3 = true then (s.enabled q v).restartQueue q [] else s.enabled q v) = _
  rw [hrestart, ite_self]

theorem clearQueue_rd (s : State) (q : Nat) (r : Reg) : (s.clearQueue q).rd r =
    if r ∈ [Reg.qmgQSqTail q, .qmgQSqHead q, .qmgQCqHead q, .qmgQErr q, .qmgQInflight q] then 0
    else if r = .qmgQCqTail q then 0x10000 else s.rd r := by
  show (State.wr _ (Reg.qmgQCqTail q) 0x10000).rd r = _
  simp only [State.each, List.foldl_cons, List.foldl_nil, State.rd_wr, List.mem_cons, List.not_mem_nil, or_false]
  by_cases h : r = .qmgQCqTail q
  · subst h; simp
  · simp only [Ne.symm h, if_false, h]
    grind

theorem clearQueue_used (s : State) (q : Nat) : ((s.clearQueue q).queueX q).used = 0 := by
  show ((State.setQueueX _ q _).queueX q).used = _
  simp

theorem enabled_rd (s : State) (q : Nat) (v : DWord) {r : Reg} (hr : r ≠ .qmgQCtrl q) : (s.enabled q v).rd r =
    if r = .qmgQCompleted q then 0
    else if r ∈ [Reg.qmgQSqTail q, .qmgQSqHead q, .qmgQCqHead q, .qmgQErr q, .qmgQInflight q] then 0
    else if r = .qmgQCqTail q then 0x10000 else s.rd r := by
  have hr := Ne.symm hr
  by_cases hc : r = .qmgQCompleted q
  · subst hc; simp [State.enabled, State.setQueueState]
  · simp [State.enabled, State.setQueueState, hr, hc, Ne.symm hc, clearQueue_rd]

/-! ### Disabling -/

/-- The queue before its waiting jobs are cancelled. -/
def State.disabling (s : State) (q : Nat) (v : DWord) : State :=
  ((((s.setFld (.qmgQCtrl q) 5 4 (s.clampVector (q / 64) (getF v 5 4))).fetchEnded q).setBit (.qmgQCtrl q) 0 false).setQueueState q 3)

/-- The state that a disable leaves. -/
def State.disabledFrom (s : State) (q : Nat) : State :=
  ((s.cancelWaiting (fun j => j.queue == q) false).drained q).quiesced (q / 64)

theorem JobsOnly.queueInflight {s t : State} (h : JobsOnly s t) (q : Nat) : t.queueInflight q = s.queueInflight q := by
  obtain ⟨f, hf, hfollows⟩ := h.jobs
  simp only [State.queueInflight, hf, List.filter_map, List.length_map]
  exact congrArg List.length (List.filter_congr fun x _ => by simp [(hfollows x).queue])

/-- The end of quiescing, or its absence, leaves the queues' registers, the jobs and the slots. -/
theorem quiesced_keeps (s : State) (n : Nat) :
    (∀ r, r ≠ .slmSliceStat n → (s.quiesced n).rd r = s.rd r) ∧ (s.quiesced n).jobs = s.jobs ∧ (s.quiesced n).slots = s.slots := by
  unfold State.quiesced
  split
  · have hkeeps := State.each_keeps (fun u => (u.rd, u.jobs, u.slots)) (fun u i => u.sendQueue (64 * n + i)) (fun u i => ?_)
      (s.setFld (.slmSliceStat n) 2 0 3) (below 64 (fun i => decide (0 < (s.queueX (64 * n + i)).pendInt)))
    · obtain ⟨hrd, hjobs, hslots⟩ : _ ∧ _ ∧ _ := ⟨congrArg (·.1) hkeeps, congrArg (·.2.1) hkeeps, congrArg (·.2.2) hkeeps⟩
      exact ⟨fun r hr => (congrFun hrd r).trans (by simp [Ne.symm hr]), hjobs, hslots⟩
    · have hrest := (Enters.sendQueue (q := 64 * n + i) u).rest
      have hslots : (u.sendQueue (64 * n + i)).slots = u.slots := (congrArg State.slots hrest :)
      have hkeeps := sendQueue_keeps u (64 * n + i)
      simp_all
  · exact ⟨fun _ _ => rfl, rfl, rfl⟩

theorem drained_keeps (s : State) (q : Nat) :
    (∀ r, r ≠ .qmgQCtrl q → (s.drained q).rd r = s.rd r) ∧ (s.drained q).jobs = s.jobs ∧ (s.drained q).slots = s.slots := by
  unfold State.drained
  split
  · exact ⟨fun r hr => by simp [State.setQueueState, Ne.symm hr], rfl, rfl⟩
  · exact ⟨fun _ _ => rfl, rfl, rfl⟩

/-- A draining queue with nothing in flight is DISABLED. -/
theorem drained_spec {s : State} {q : Nat} (h : s.queueState q = 3) :
    (s.drained q).queueState q = (if s.queueInflight q = 0 then 0 else 3) ∧ (s.drained q).bit (.qmgQCtrl q) 0 = s.bit (.qmgQCtrl q) 0 := by
  unfold State.drained
  by_cases hnone : s.queueInflight q = 0
  · rw [if_pos ⟨h, hnone⟩, if_pos hnone]
    refine ⟨State.fld_setFld _ _ 10 8 0 (by decide) (by decide), ?_⟩
    simp [State.setQueueState, State.bit, getB_setF]
  · rw [if_neg (fun hc => hnone hc.2), if_neg hnone]
    exact ⟨h, rfl⟩

theorem writeQueueCtrl_disables {s : State} {q : Nat} (h : s.queueState q = 1 ∨ s.queueState q = 2) {v : DWord} (hv : getB v 0 = false) :
    s.writeQueueCtrl q v = (if getB v 3 then ((s.disabling q v).disabledFrom q).restartQueue q [] else (s.disabling q v).disabledFrom q) := by
  unfold State.writeQueueCtrl
  rcases h with h | h <;> simp only [h, hv] <;> rfl

/-- What a disable leaves of a queue that ran. -/
theorem disabledFrom_spec {s : State} {q : Nat} (h : s.queueState q = 3) (hb : s.bit (.qmgQCtrl q) 0 = false) :
    (s.disabledFrom q).queueState q = (if s.queueInflight q = 0 then 0 else 3) ∧ (s.disabledFrom q).bit (.qmgQCtrl q) 0 = false ∧
      (s.disabledFrom q).slots = s.slots ∧ (s.disabledFrom q).jobs = (s.cancelWaiting (fun j => j.queue == q) false).jobs := by
  have hcancel : JobsOnly s (s.cancelWaiting (fun j => j.queue == q) false) := .cancelWaiting s _ _
  have hinflight := hcancel.queueInflight q
  have hctrl := hcancel.regs (.qmgQCtrl q) rfl
  have hslots := hcancel.slots
  unfold State.disabledFrom
  generalize s.cancelWaiting (fun j => j.queue == q) false = u at hinflight hctrl hslots ⊢
  have hu : u.queueState q = 3 := (congrArg (getF · 10 8) hctrl).trans h
  have hub : u.bit (.qmgQCtrl q) 0 = false := (congrArg (getB · 0) hctrl).trans hb
  obtain ⟨hdrained, hbit⟩ := drained_spec hu
  obtain ⟨-, hdjobs, hdslots⟩ := drained_keeps u q
  obtain ⟨hqrd, hqjobs, hqslots⟩ := quiesced_keeps (u.drained q) (q / 64)
  have hqctrl := hqrd (.qmgQCtrl q) (by simp)
  exact ⟨(congrArg (getF · 10 8) hqctrl).trans (hdrained.trans (by rw [hinflight])), (congrArg (getB · 0) hqctrl).trans (hbit.trans hub),
    hqslots.trans (hdslots.trans hslots), hqjobs.trans hdjobs⟩

/-! ### Cancelled jobs -/

theorem endHalf_job?_ne (s : State) {j k : Nat} (pq : Bool) (r : Result) (hk : k ≠ j) : (s.endHalf j pq r).job? k = s.job? k := by
  unfold State.endHalf
  cases s.job? j with
  | none => rfl
  | some x =>
    simp only
    split
    · rfl
    · refine (UnitsOnly.each (fun v u => .vacated v _ u) _ _ |>.job? k).trans ((UnitsOnly.onlyIf (fun v => .dropDemand v x) _ _ |>.job? k).trans ?_)
      rw [State.job?_setJob_ne _ _ (fun y => by cases pq <;> rfl) hk]
      cases pq
      · rfl
      · exact (UnitsOnly.freeShells s x).job? k

theorem cancelBne_job?_ne (s : State) (x : Job) {k : Nat} (hk : k ≠ x.id) : (s.cancelBne x).job? k = s.job? k := by
  refine Eq.trans ?_ ((UnitsOnly.caughtCycles s x).job? k)
  unfold State.cancelBne
  simp only
  split
  · split
    · exact (endHalf_job?_ne _ true _ hk).trans (endHalf_job?_ne _ false _ hk)
    · exact endHalf_job?_ne _ false _ hk
  · exact endJob_job?_ne _ _ hk

/-- In a loop over jobs each of which changes at most its own job, what becomes of one of them is decided in its round. -/
theorem each_job? {s : State} {f : State → Job → State} {l : List Job} {x y : Job} (hne : ∀ u z k, k ≠ z.id → (f u z).job? k = u.job? k)
    (hf : ∀ u, u.job? x.id = some x → (f u x).job? x.id = some y) (hj : s.job? x.id = some x) (hx : x ∈ l) (hids : (l.map Job.id).Nodup) :
    (s.each l f).job? x.id = some y := by
  have hrest (t : State) (l : List Job) (k : Nat) (hk : ∀ z ∈ l, k ≠ z.id) : (t.each l f).job? k = t.job? k := by
    induction l generalizing t with
    | nil => rfl
    | cons z l ih => exact (ih (f t z) fun w hw => hk w (List.mem_cons_of_mem z hw)).trans (hne t z k (hk z List.mem_cons_self))
  induction l generalizing s with
  | nil => cases hx
  | cons z l ih =>
    rw [List.map_cons, List.nodup_cons] at hids
    have hnot (w : Job) (hw : w ∈ l) : z.id ≠ w.id := fun he => hids.1 (he ▸ List.mem_map_of_mem hw)
    rcases List.mem_cons.1 hx with rfl | hx
    · exact (hrest (f s x) l x.id hnot).trans (hf s hj)
    · exact ih ((hne s z x.id (hnot x hx).symm).trans hj) hx hids.2

theorem job?_of_mem {s : State} (hids : (s.jobs.map (·.id)).Nodup) {x : Job} (hx : x ∈ s.jobs) : s.job? x.id = some x := by
  unfold State.job?
  generalize s.jobs = l at hids hx
  induction l with
  | nil => cases hx
  | cons y l ih =>
    rw [List.map_cons, List.nodup_cons] at hids
    rcases List.mem_cons.1 hx with rfl | hx
    · simp
    · have hne : y.id ≠ x.id := fun he => hids.1 (he ▸ List.mem_map_of_mem (f := (·.id)) hx)
      simpa [hne] using ih hids.2 hx

/-- A cancel of the jobs that have not started ends those, whatever yielded jobs it ends. -/
theorem cancelWaiting_job? {s : State} (hids : (s.jobs.map (·.id)).Nodup) {p : Job → Bool} (yields : Bool) {x : Job} (hx : x ∈ s.jobs)
    (hp : p x = true) (hwait : x.phase = .waiting) (hahead : x.ahead = false) :
    (s.cancelWaiting p yields).job? x.id = some (x.ended (.fail 0x40 0)) := by
  have hstarted : x.started = false := by simp [Job.started, hwait, hahead]
  refine each_job? (fun u z k hk => ?_) (fun u hu => ?_) (job?_of_mem hids hx) (List.mem_filter.2 ⟨hx, ?_⟩) ?_
  · split
    · exact cancelBne_job?_ne u z hk
    · exact endJob_job?_ne u _ hk
  · rw [hstarted, if_neg Bool.false_ne_true]
    exact endJob_job? hu (by simp [State.holdsBack, Result.fail])
  · simp [hp, hwait, hstarted]
  · exact hids.sublist (List.filter_sublist.map _)

/-- Settles O29. -/
theorem queueControl : Obligations.QueueControl := by
  unfold Obligations.QueueControl
  refine ⟨fun s q v hshown hstate => ?_, fun s q v hshown hstate => ?_, fun s q v ue hshown hstate hv => ?_,
    fun s n q v ue hshown hopen hq hstate => ?_, fun s q ue h => restartQueue_of_running h ue⟩
  · have hexec : exec (.queueEnable q v) s = .next (s.enabled q (setB v 0 true)) :=
      congrArg Host.Outcome.next ((hostTo_of_shown hshown _).trans (writeQueueCtrl_enables hstate (by simp [getB_setB])))
    have hrd {r : Reg} (hr : r ≠ .qmgQCtrl q) := enabled_rd s q (setB v 0 true) hr
    have htail : (s.enabled q (setB v 0 true)).rd (.qmgQCqTail q) = 0x10000 := by rw [hrd (by simp)]; simp
    refine ⟨_, hexec, enabled_state _ _ _, ?_, ?_, ?_, ?_, ?_, ?_, ?_, ?_, ?_, rfl, fun r hr => ?_⟩
    · simp [State.enabled, State.setQueueState, State.bit, getB_setF, getB_setB]
    · rw [hrd (by simp)]; simp
    · rw [hrd (by simp)]; simp
    · rw [hrd (by simp)]; simp
    · rw [State.fld, htail]; decide
    · rw [State.fld, htail]; decide
    · rw [hrd (by simp)]; simp
    · rw [hrd (by simp)]; simp
    · exact clearQueue_used _ q
    · simp only [List.mem_cons, List.not_mem_nil, or_false, not_or] at hr
      rw [hrd hr.1]
      simp [hr]
  · generalize hw : setB v 0 false = w
    have hbit : getB w 0 = false := by rw [← hw]; simp [getB_setB]
    have h3 : (s.disabling q w).queueState q = 3 := State.fld_setFld _ _ 10 8 3 (by decide) (by decide)
    have hb : (s.disabling q w).bit (.qmgQCtrl q) 0 = false := by
      simp [State.disabling, State.setQueueState, State.bit, getB_setF, getB_setB]
    obtain ⟨hqs, hqb, hslots, hjobs⟩ := disabledFrom_spec h3 hb
    have hexec : exec (.queueDisable q v) s = .next ((s.disabling q w).disabledFrom q) := by
      refine congrArg Host.Outcome.next ((hostTo_of_shown hshown _).trans ?_)
      rw [hw, writeQueueCtrl_disables hstate hbit, restartQueue_of_running (by rw [hqs]; split <;> decide), ite_self]
    refine ⟨_, hexec, hqb, hslots, hqs, fun hids x hx hq hwait hahead => ⟨x.ended (.fail 0x40 0), ?_, rfl, rfl⟩⟩
    rw [State.job?_congr hjobs]
    exact cancelWaiting_job? (s := s.disabling q w) hids false hx (by simp [hq]) hwait hahead
  · have hctrl : s.writeQueueCtrl q (setB v 3 true) ue =
        (s.setFld (.qmgQCtrl q) 5 4 (s.clampVector (q / 64) (getF (setB v 3 true) 5 4))).restartQueue q ue := by
      unfold State.writeQueueCtrl
      simp [hstate, getB_setB, hv]
    have hexec (t : State) (ht : (s.setFld (.qmgQCtrl q) 5 4 (s.clampVector (q / 64) (getF (setB v 3 true) 5 4))).restartQueue q ue = t) :
        exec (.qmgQRestart q v ue) s = .next t :=
      congrArg Host.Outcome.next (((hostTo_of_shown hshown _).trans hctrl).trans ht)
    have hstate' : (s.setFld (.qmgQCtrl q) 5 4 (s.clampVector (q / 64) (getF (setB v 3 true) 5 4))).queueState q = 2 :=
      (State.fld_setFld_ne _ _ _ 5 4 10 8 _ (by decide) (by decide) (by simp)).trans hstate
    have hwrite (i : Nat) (b : Bool) := cqWritable_congr (q := q) (s := s)
      (t := s.setFld (.qmgQCtrl q) 5 4 (s.clampVector (q / 64) (getF (setB v 3 true) 5 4)))
      (fun r _ hr => by simp [Ne.symm hr]) (by simp [State.bit, getB_setF]) rfl rfl i b
    refine ⟨fun h => ?_, fun code e l hheld h => ?_⟩
    · have hr := restartQueue_restarts (ue := ue) hstate' fun e he => (hwrite _ _).trans (h e he)
      exact ⟨_, hexec _ rfl, hr.state, hr.err, hr.held, hr.jobs, hr.head.trans (by simp)⟩
    · have hr := restartQueue_refaults hstate' hheld ((hwrite _ _).trans h)
      exact ⟨_, hexec _ rfl, hr.state, hr.code, hr.wher, hr.held, hr.jobs⟩
  · subst hq
    have hexec : exec (.slmPgQrestart n v ue) s = .next (s.restartQueue (64 * n + getF v 5 0) ue) :=
      congrArg Host.Outcome.next ((hostTo_of_shown hshown _).trans (by rw [State.pageRestart, if_pos hopen]))
    refine ⟨fun h => ?_, fun code e l hheld h => ?_⟩
    · have hr := restartQueue_restarts hstate h
      exact ⟨_, hexec, hr.state, hr.err, hr.held, hr.jobs, hr.head⟩
    · have hr := restartQueue_refaults hstate hheld h
      exact ⟨_, hexec, hr.state, hr.code, hr.wher, hr.held, hr.jobs⟩

end Sys2Proof.Machine
end

section
/-! PROOFS. Writes of SLM_SLICE_CTRL that the device accepts, and other writes of the slice manager (O31). -/

namespace Sys2Proof.Machine

/-! ### What the queue manager changes -/

/-- The registers of the queues, and those in which LPDDR5X errors are counted. -/
def Reg.ofQueues : Reg → Bool
  | .qmgQCtrl _ | .qmgQSqTail _ | .qmgQSqHead _ | .qmgQCqTail _ | .qmgQCqHead _ | .qmgQRptHead _ | .qmgQErr _ | .qmgQInflight _
  | .qmgQCompleted _ | .ddrUeCount | .ddrUeAddr | .ddrEvtStatus | .ddrCeCount => true
  | _ => false

/-- From `s` to `t` queues change: their registers and further states, the memory of their rings, and messages. -/
structure QueuesOnly (s t : State) : Prop where
  regs : ∀ r, r.ofQueues = false → t.rd r = s.rd r
  rest : ({ t with regs := s.regs, out := s.out, msixPend := s.msixPend, ddr := s.ddr, qx := s.qx, reported := s.reported } : State) = s

namespace QueuesOnly
variable {s t u : State}

theorem refl (s : State) : QueuesOnly s s := ⟨fun _ _ => rfl, rfl⟩

theorem trans (h : QueuesOnly s t) (h' : QueuesOnly t u) : QueuesOnly s u :=
  ⟨fun r hr => (h'.regs r hr).trans (h.regs r hr),
    (congrArg (fun x : State => { x with regs := s.regs, out := s.out, msixPend := s.msixPend, ddr := s.ddr, qx := s.qx
                                         reported := s.reported }) h'.rest).trans h.rest⟩

theorem jobs (h : QueuesOnly s t) : t.jobs = s.jobs := (congrArg State.jobs h.rest :)
theorem slots (h : QueuesOnly s t) : t.slots = s.slots := (congrArg State.slots h.rest :)

theorem each {α : Type} {f : State → α → State} (hf : ∀ u a, QueuesOnly u (f u a)) (s : State) (l : List α) : QueuesOnly s (s.each l f) := by
  induction l generalizing s with
  | nil => exact refl s
  | cons a l ih => exact (hf s a).trans (ih (f s a))

theorem store (s : State) {r : Reg} (hr : r.ofQueues = true) (hshadow : r.shadowed = false) (f : DWord → DWord) : QueuesOnly s (s.store r f) :=
  ⟨fun r' h' => by rw [State.rd_store, if_neg fun h : r = r' => by simp [h, h'] at hr], by simp [State.store, hshadow]⟩

theorem setFld (s : State) {r : Reg} (hr : r.ofQueues = true) (hshadow : r.shadowed = false) (hi lo x : Nat) : QueuesOnly s (s.setFld r hi lo x) :=
  store s hr hshadow _
theorem setBit (s : State) {r : Reg} (hr : r.ofQueues = true) (hshadow : r.shadowed = false) (i : Nat) (b : Bool) : QueuesOnly s (s.setBit r i b) :=
  store s hr hshadow _
theorem wr (s : State) {r : Reg} (hr : r.ofQueues = true) (hshadow : r.shadowed = false) (v : DWord) : QueuesOnly s (s.wr r v) :=
  store s hr hshadow _

theorem setQueueX (s : State) (q : Nat) (f : QueueX → QueueX) : QueuesOnly s (s.setQueueX q f) := ⟨fun _ _ => rfl, rfl⟩

end QueuesOnly

theorem Enters.queuesOnly {q : Nat} {s t : State} (h : Enters q s t) : QueuesOnly s t :=
  ⟨fun r hr => h.regs r fun he => by simp [he, Reg.ofQueues] at hr, (congrArg (fun x : State => { x with reported := s.reported }) h.rest)⟩

namespace QueuesOnly

theorem queueError (s : State) (q code wher index : Nat) : QueuesOnly s (s.queueError q code wher index) := by
  unfold State.queueError
  simp only
  split
  · exact (wr s (r := .qmgQErr q) rfl rfl _).trans (setFld _ (r := .qmgQCtrl q) rfl rfl 10 8 2)
  · exact wr s (r := .qmgQErr q) rfl rfl _

theorem cqUe (s : State) (q : Nat) (ue : Bool) (idx : Nat) : QueuesOnly s (s.cqUe q ue idx) := by
  unfold State.cqUe
  split
  · unfold State.ddrUe State.ddrEvt State.event
    have hsend (u : State) (v : Nat) : QueuesOnly u (u.sendMsix v) := (Enters.sendMsix (q := q) u v).queuesOnly
    simp only
    have hcount : QueuesOnly s ((s.bump .ddrUeCount).setFld .ddrUeAddr 36 6 (s.ddrAddr (q / 64) (s.cqAddr q idx) / 64)) :=
      (setFld s (r := .ddrUeCount) rfl rfl _ _ _).trans (setFld _ (r := .ddrUeAddr) rfl rfl _ _ _)
    split
    · exact (hcount.trans (setBit _ (r := .ddrEvtStatus) rfl rfl _ _)).trans (hsend _ _)
    · exact hcount.trans (setBit _ (r := .ddrEvtStatus) rfl rfl _ _)
  · exact refl s

theorem putEntries (s : State) (q : Nat) (ue : List Nat) (l : List Held) : QueuesOnly s (s.putEntries q ue l) := by
  induction l generalizing s with
  | nil => exact refl s
  | cons e l ih =>
    simp only [State.putEntries]
    split
    · exact ((cqUe s q _ _).trans (setQueueX _ q _)).trans (queueError _ q _ _ _)
    · exact (Enters.putEntry (q := q) s e).queuesOnly.trans (ih _)

theorem clearQueue (s : State) (q : Nat) : QueuesOnly s (s.clearQueue q) := by
  have hzeros (l : List Reg) (u : State) (hl : ∀ r ∈ l, r.ofQueues = true ∧ r.shadowed = false) : QueuesOnly u (u.each l (fun u r => u.wr r 0)) := by
    induction l generalizing u with
    | nil => exact refl u
    | cons r l ih =>
      obtain ⟨hr, hs⟩ := hl r List.mem_cons_self
      exact (wr u hr hs 0).trans (ih _ fun r' h' => hl r' (List.mem_cons_of_mem r h'))
  unfold State.clearQueue
  refine ((hzeros _ s ?_).trans (wr _ (r := .qmgQCqTail q) rfl rfl 0x10000)).trans (setQueueX _ q _)
  simp [Reg.ofQueues, Reg.shadowed]

theorem unreport (s : State) (q : Nat) : QueuesOnly s (s.unreport q) :=
  (setBit s (r := .qmgQRptHead q) rfl rfl 31 false).trans
    (⟨fun _ _ => rfl, rfl⟩ : QueuesOnly (s.setBit (.qmgQRptHead q) 31 false) (s.unreport q))

theorem replay (s : State) (down q : Nat) : QueuesOnly s (s.replay down q) := by
  unfold State.replay
  split
  · exact refl s
  · exact putEntries s q [] _

end QueuesOnly

/-! ### The bits of an accepted write -/

/-- The BNE of a slice whose BNE_COMPAT is set, and its BNE_COMPAT, as a write leaves them. -/
def State.compatBit (s : State) (n : Nat) (v : DWord) : State :=
  if s.sliceState n = 0 then (if getB v 4 ∧ !s.bit (.slmSliceCtrl n) 4 then s.wipeSliceBne n else s).setBit (.slmSliceCtrl n) 4 (getB v 4) else s

/-- The bits of an accepted write taken, and MGR_STATUS OK. -/
def State.sliceBits (s : State) (n : Nat) (v : DWord) : State :=
  ((((s.compatBit n v).setBit (.slmSliceCtrl n) 0 (getB v 0)).setBit (.slmSliceCtrl n) 1 (getB v 1)).setBit (.slmSliceCtrl n) 3 (getB v 3)).mgrStatus n 0

/-- What follows the bits. -/
def State.sliceGoes (s : State) (n : Nat) (st : Nat) (v : DWord) : State :=
  if !getB v 0 then s
  else if getB v 1 then (if st = 0 ∨ st = 1 then s.quiesce n else s)
  else
    let s := if st = 0 then s else s.replaySlice n
    { s.setFld (.slmSliceStat n) 2 0 1 with fetchDue := s.fetchDue.filter (fun q => q / 64 ≠ n) }

theorem writeSliceCtrl_accepts {s : State} {n : Nat} {v : DWord} (hst : s.sliceState n ≠ 4) (hreset : getB v 2 = false)
    (henable : getB v 0 = false → s.sliceState n = 0) (hpasid : s.pasidOff n = true → s.sliceState n = 1 ∨ s.sliceState n = 0 ∧ getB v 0 = false) :
    s.writeSliceCtrl n v = (s.sliceBits n v).sliceGoes n (s.sliceState n) v := by
  have hdisable : (!getB v 0 && (s.sliceState n == 1 || s.sliceState n == 2)) = false := by
    cases hv : getB v 0 with
    | true => rfl
    | false => simp [henable hv]
  have hquiesced : (!getB v 0 && s.sliceState n == 3) = false := by
    cases hv : getB v 0 with
    | true => rfl
    | false => simp [henable hv]
  have hoff : (s.pasidOff n && ((getB v 0 && s.sliceState n == 0) || (!getB v 1 && (s.sliceState n == 2 || s.sliceState n == 3)))) = false := by
    cases hp : s.pasidOff n with
    | false => rfl
    | true => rcases hpasid hp with h | ⟨h, hv⟩ <;> simp [*]
  unfold State.writeSliceCtrl
  simp only [hst, if_false, hreset, Bool.false_eq_true, hdisable, hquiesced, hoff]
  unfold State.sliceBits State.compatBit State.sliceGoes
  by_cases h0 : s.sliceState n = 0
  · simp only [h0, true_and, if_true]
  · simp only [h0, false_and, if_false]

theorem wipeSliceBne_rest (s : State) (n : Nat) : ({ s.wipeSliceBne n with bcores := s.bcores } : State) = s :=
  State.each_keeps (fun u : State => ({ u with bcores := s.bcores } : State)) (fun u c => u.setBcore c _) (fun _ _ => rfl) s _

theorem wipeSliceBne_keeps {α : Type} (g : State → α) (hg : ∀ (u : State) l, g { u with bcores := l } = g u) (s : State) (n : Nat) :
    g (s.wipeSliceBne n) = g s := by
  have h := congrArg g (wipeSliceBne_rest s n)
  rwa [hg] at h

/-- What the bits of a write leave alone. -/
theorem sliceBits_rest (s : State) (n : Nat) (v : DWord) :
    ({ s.sliceBits n v with regs := s.regs, shadow := s.shadow, bcores := s.bcores } : State) = s := by
  show ({ s.compatBit n v with regs := s.regs, shadow := s.shadow, bcores := s.bcores } : State) = s
  unfold State.compatBit
  split
  · split
    · exact congrArg (fun u : State => { u with regs := s.regs, shadow := s.shadow }) (wipeSliceBne_rest s n)
    · rfl
  · rfl

theorem compatBit_rd (s : State) (n : Nat) (v : DWord) (r : Reg) : (s.compatBit n v).rd r =
    if s.sliceState n = 0 ∧ r = .slmSliceCtrl n then setB (s.rd r) 4 (getB v 4) else s.rd r := by
  unfold State.compatBit
  have hwipe : (if getB v 4 ∧ !s.bit (.slmSliceCtrl n) 4 then s.wipeSliceBne n else s).rd r = s.rd r := by
    split
    · exact wipeSliceBne_rd s n r
    · rfl
  split
  · rename_i h0
    by_cases hr : r = .slmSliceCtrl n
    · subst hr; simp only [State.rd_setBit, if_pos, hwipe, h0, and_self]
    · simp only [State.rd_setBit, if_neg (Ne.symm hr), hwipe, h0, hr, and_false, if_false]
  · rename_i h0
    rw [if_neg fun h => h0 h.1]

theorem sliceBits_rd (s : State) (n : Nat) (v : DWord) {r : Reg} (hc : r ≠ .slmSliceCtrl n) (hs : r ≠ .slmSliceStat n) :
    (s.sliceBits n v).rd r = s.rd r := by
  simp only [State.sliceBits, State.mgrStatus, State.rd_setFld, State.rd_setBit, if_neg (Ne.symm hc), if_neg (Ne.symm hs), compatBit_rd, hc,
    and_false, if_false]

/-- SLM_SLICE_CTRL as the bits leave it. -/
theorem sliceBits_ctrl (s : State) (n : Nat) (v : DWord) : (s.sliceBits n v).bit (.slmSliceCtrl n) 0 = getB v 0 ∧
    (s.sliceBits n v).bit (.slmSliceCtrl n) 1 = getB v 1 ∧
    (s.sliceBits n v).bit (.slmSliceCtrl n) 4 = (if s.sliceState n = 0 then getB v 4 else s.bit (.slmSliceCtrl n) 4) := by
  have hrd : (s.sliceBits n v).rd (.slmSliceCtrl n) = setB (setB (setB ((s.compatBit n v).rd (.slmSliceCtrl n)) 0 (getB v 0)) 1 (getB v 1)) 3
      (getB v 3) := by
    simp [State.sliceBits, State.mgrStatus]
  simp only [State.bit, hrd, compatBit_rd]
  refine ⟨by simp [getB_setB], by simp [getB_setB], ?_⟩
  by_cases h : s.sliceState n = 0 <;> simp [h, getB_setB]

/-- SLM_SLICE_STAT as the bits leave it. -/
theorem sliceBits_stat (s : State) (n : Nat) (v : DWord) : (s.sliceBits n v).fld (.slmSliceStat n) 15 8 = 0 ∧
    ∀ k, (s.sliceBits n v).sliceState k = s.sliceState k := by
  refine ⟨State.fld_setFld _ _ 15 8 0 (by decide) (by decide), fun k => ?_⟩
  refine (State.fld_setFld_ne _ _ _ 15 8 2 0 0 (by decide) (by decide) (by simp)).trans ?_
  simp only [State.sliceState, State.fld, State.rd_setBit, compatBit_rd]
  simp

/-! ### Whose turn it is -/

theorem filterMap_tset {α β γ : Type} [DecidableEq α] {g : α × β → Option γ} {k : α} (h : ∀ v, g (k, v) = none) (v : β) (l : List (α × β)) :
    (tset k v l).filterMap g = l.filterMap g := by
  have hfilter : (l.filter (fun e => decide (e.1 ≠ k))).filterMap g = l.filterMap g := by
    induction l with
    | nil => rfl
    | cons e l ih =>
      by_cases he : e.1 = k
      · have hnone : g e = none := by rw [← h e.2, ← he]
        rw [List.filter_cons_of_neg (by simp [he]), List.filterMap_cons_none hnone, ih]
      · rw [List.filter_cons_of_pos (by simp [he]), List.filterMap_cons, List.filterMap_cons, ih]
  rw [tset, List.filterMap_cons_none (h v), hfilter]

/-- The queues that are not DISABLED, after a store to a register that is not a queue's control register. -/
theorem liveQueues_store (s : State) {r : Reg} (hr : ∀ q, r ≠ .qmgQCtrl q) (f : DWord → DWord) : (s.store r f).liveQueues = s.liveQueues := by
  have hstate : (s.store r f).queueState = s.queueState := funext fun q => congrArg (getF · 10 8) (by rw [State.rd_store, if_neg (hr q)])
  unfold State.liveQueues
  rw [hstate, State.store]
  refine congrArg (List.filter _) (filterMap_tset (fun v => ?_) _ _)
  cases r <;> first | rfl | exact absurd rfl (hr _)

theorem shadowBad_store_ne (s : State) {r r' : Reg} (h : r ≠ r') (f : DWord → DWord) : (s.store r f).shadowBad r' = s.shadowBad r' := by
  have hof : (s.store r f).shadowOf r' = s.shadowOf r' := by
    unfold State.shadowOf
    rw [State.rd_store, if_neg h]
    unfold State.store
    dsimp only
    split
    · rw [tget_tset, if_neg h]
    · rfl
  unfold State.shadowBad
  rw [hof, State.rd_store, if_neg h]


theorem shadowBad_setBit_sliceCtrl {s : State} {n : Nat} (h : s.shadowBad (.slmSliceCtrl n) = false) (i : Nat) (b : Bool) :
    (s.setBit (.slmSliceCtrl n) i b).shadowBad (.slmSliceCtrl n) = false := by
  have hsame : ~~~(s.shadowOf (.slmSliceCtrl n)).1 = s.rd (.slmSliceCtrl n) := by simpa [State.shadowBad, Reg.shadowed, Reg.shadowBits] using h
  have hof : (s.setBit (.slmSliceCtrl n) i b).shadowOf (.slmSliceCtrl n) =
      (~~~setB (~~~(s.shadowOf (.slmSliceCtrl n)).1) i b, setB (s.shadowOf (.slmSliceCtrl n)).2 i b) := by
    simp [State.shadowOf, State.setBit, State.store, Reg.shadowed]
  unfold State.shadowBad
  rw [hof, State.rd_setBit, if_pos rfl, ← hsame]
  simp [Reg.shadowed, Reg.shadowBits]

theorem compatBit_shadowBad {s : State} {n : Nat} (v : DWord) (h : s.sliceBad n = false) (r : Reg) :
    (s.compatBit n v).shadowBad r = s.shadowBad r := by
  obtain ⟨hctrl, -, -⟩ := sliceBad_eq_false.1 h
  unfold State.compatBit
  have hwipe : (if getB v 4 ∧ !s.bit (.slmSliceCtrl n) 4 then s.wipeSliceBne n else s).shadowBad = s.shadowBad := by
    split
    · exact wipeSliceBne_keeps State.shadowBad (fun _ _ => rfl) s n
    · rfl
  split
  · by_cases hr : r = .slmSliceCtrl n
    · subst hr; rw [hctrl]; exact shadowBad_setBit_sliceCtrl (by rw [hwipe]; exact hctrl) 4 _
    · exact (shadowBad_store_ne _ (Ne.symm hr) _).trans (congrFun hwipe r)
  · rfl

/-- A register of the slice manager that agreed with its shadow still does, and no other changes its mind. -/
theorem sliceBits_shadowBad {s : State} {n : Nat} (v : DWord) (h : s.sliceBad n = false) (r : Reg) :
    (s.sliceBits n v).shadowBad r = s.shadowBad r := by
  obtain ⟨hctrl, -, -⟩ := sliceBad_eq_false.1 h
  have hcompat := compatBit_shadowBad v h
  unfold State.sliceBits State.mgrStatus
  generalize s.compatBit n v = u at hcompat
  by_cases hs : r = .slmSliceStat n
  · subst hs; rfl
  · refine (shadowBad_store_ne _ (Ne.symm hs) _).trans ?_
    by_cases hr : r = .slmSliceCtrl n
    · subst hr; rw [hctrl]
      exact shadowBad_setBit_sliceCtrl (shadowBad_setBit_sliceCtrl (shadowBad_setBit_sliceCtrl ((hcompat _).trans hctrl) _ _) _ _) _ _
    · exact ((shadowBad_store_ne _ (Ne.symm hr) _).trans ((shadowBad_store_ne _ (Ne.symm hr) _).trans (shadowBad_store_ne _ (Ne.symm hr) _))).trans
        (hcompat r)

theorem sliceBits_liveQueues (s : State) (n : Nat) (v : DWord) : (s.sliceBits n v).liveQueues = s.liveQueues := by
  have hcompat : (s.compatBit n v).liveQueues = s.liveQueues := by
    unfold State.compatBit
    split
    · refine (liveQueues_store _ (by simp) _).trans ?_
      split
      · exact wipeSliceBne_keeps State.liveQueues (fun _ _ => rfl) s n
      · rfl
    · rfl
  unfold State.sliceBits State.mgrStatus
  exact (liveQueues_store _ (by simp) _).trans ((liveQueues_store _ (by simp) _).trans ((liveQueues_store _ (by simp) _).trans
    ((liveQueues_store _ (by simp) _).trans hcompat)))

theorem sliceBits_mayFetch {s : State} {n : Nat} (v : DWord) (h : s.sliceBad n = false) (q : Nat) :
    (s.sliceBits n v).mayFetch q = s.mayFetch q := by
  obtain ⟨-, hstate⟩ := sliceBits_stat s n v
  have hrest := sliceBits_rest s n v
  have hjobs : (s.sliceBits n v).jobs = s.jobs := (congrArg State.jobs hrest :)
  have hqx : (s.sliceBits n v).qx = s.qx := (congrArg State.qx hrest :)
  have hpcie : (s.sliceBits n v).pcie = s.pcie := (congrArg State.pcie hrest :)
  have hfld (r : Reg) (hc : r ≠ .slmSliceCtrl n) (hs : r ≠ .slmSliceStat n) (hi lo : Nat) : (s.sliceBits n v).fld r hi lo = s.fld r hi lo :=
    congrArg (getF · hi lo) (sliceBits_rd s n v hc hs)
  have hdev : (s.sliceBits n v).devState = s.devState := hfld .genState (by simp) (by simp) _ _
  have hqstate : (s.sliceBits n v).queueState q = s.queueState q := hfld (.qmgQCtrl q) (by simp) (by simp) _ _
  have hring : (s.sliceBits n v).ringSize q = s.ringSize q := hfld (.qmgQSize q) (by simp) (by simp) _ _
  have hbad : (s.sliceBits n v).sliceBad (q / 64) = s.sliceBad (q / 64) := by simp only [State.sliceBad, sliceBits_shadowBad v h]
  have hin : (s.sliceBits n v).sliceInflight (q / 64) = s.sliceInflight (q / 64) := by simp only [State.sliceInflight, hjobs]
  have hqin : (s.sliceBits n v).queueInflight q = s.queueInflight q := by simp only [State.queueInflight, hjobs]
  have hx : (s.sliceBits n v).queueX q = s.queueX q := by simp only [State.queueX, hqx]
  unfold State.mayFetch
  dsimp only
  rw [hdev, hpcie, hqstate, hstate, hbad, hin, hjobs, hx, hqin, hring, hfld (.qmgQSqHead q) (by simp) (by simp),
    hfld (.qmgQSqTail q) (by simp) (by simp)]

theorem sliceBits_fetchTurn {s : State} {n : Nat} (v : DWord) (h : s.sliceBad n = false) : (s.sliceBits n v).fetchTurn = s.fetchTurn := by
  have hrest := sliceBits_rest s n v
  have hslice : (s.sliceBits n v).fetchSlice = s.fetchSlice := (congrArg State.fetchSlice hrest :)
  have hqueue : (s.sliceBits n v).fetchQueue = s.fetchQueue := (congrArg State.fetchQueue hrest :)
  have hrank : (s.sliceBits n v).fetchRank = s.fetchRank := funext fun q => by simp only [State.fetchRank, hslice, hqueue]
  have hmay : (s.sliceBits n v).mayFetch = s.mayFetch := funext (sliceBits_mayFetch v h)
  unfold State.fetchTurn
  rw [sliceBits_liveQueues, hrank, hmay]

/-! ### Quiescing -/

/-- The slice reads QUIESCING, with the fetch that has begun still due. -/
def State.quiescing (s : State) (n : Nat) : State :=
  { s.setFld (.slmSliceStat n) 2 0 2 with fetchDue := s.fetchDue ++ s.fetchTurn.toList.filter (fun q => q / 64 = n) }

theorem quiesce_eq (s : State) (n : Nat) : s.quiesce n = ((s.quiescing n).cancelWaiting (fun j => j.slice == n) true).quiesced n := rfl

theorem JobsOnly.sliceInflight {s t : State} (h : JobsOnly s t) (n : Nat) : t.sliceInflight n = s.sliceInflight n := by
  obtain ⟨f, hf, hfollows⟩ := h.jobs
  simp only [State.sliceInflight, hf, List.filter_map, List.length_map]
  exact congrArg List.length (List.filter_congr fun x _ => by simp [(hfollows x).slice])

theorem quiesced_state {s : State} {n : Nat} (h : s.sliceState n = 2) :
    (s.quiesced n).sliceState n = (if s.sliceInflight n = 0 ∧ s.fetchDue.all (fun q => q / 64 != n) then 3 else 2) := by
  unfold State.quiesced
  have hall : s.fetchDue.all (fun q => decide (q / 64 ≠ n)) = s.fetchDue.all (fun q => q / 64 != n) := by
    congr 1; funext q; by_cases hq : q / 64 = n <;> simp [hq]
  rw [hall]
  simp only [h, true_and]
  split
  · refine (State.each_keeps (fun u => u.sliceState n) (fun u i => u.sendQueue (64 * n + i)) (fun u i => ?_) _ _).trans
      (State.fld_setFld _ _ 2 0 3 (by decide) (by decide))
    exact congrArg (getF · 2 0) (congrFun (congrArg (·.1) (sendQueue_keeps u (64 * n + i))) _)
  · exact h

/-- What a quiesce leaves. -/
structure Quiesces (s t : State) (n : Nat) : Prop where
  state : t.sliceState n = (if s.sliceInflight n = 0 ∧ (s.fetchDue ++ s.fetchTurn.toList).all (fun q => q / 64 != n) then 3 else 2)
  ctrl : t.rd (.slmSliceCtrl n) = s.rd (.slmSliceCtrl n)
  slots : t.slots = s.slots
  cancels : (s.jobs.map (·.id)).Nodup → ∀ x ∈ s.jobs, x.slice = n → x.phase = .waiting → x.ahead = false →
    ∃ y, t.job? x.id = some y ∧ y.phase = .sealed ∧ y.result = some (.fail 0x40 0)

theorem quiesce_quiesces (s : State) (n : Nat) : Quiesces s (s.quiesce n) n := by
  rw [quiesce_eq]
  have hcancel : JobsOnly (s.quiescing n) ((s.quiescing n).cancelWaiting (fun j => j.slice == n) true) := .cancelWaiting _ _ _
  have hjob {x : Job} (hids : (s.jobs.map (·.id)).Nodup) (hx : x ∈ s.jobs) (hn : x.slice = n) :=
    cancelWaiting_job? (s := s.quiescing n) (p := fun j => j.slice == n) hids true hx (by simp [hn])
  generalize (s.quiescing n).cancelWaiting (fun j => j.slice == n) true = u at hcancel hjob ⊢
  have h2 : u.sliceState n = 2 :=
    (congrArg (getF · 2 0) (hcancel.regs (.slmSliceStat n) rfl)).trans (State.fld_setFld _ _ 2 0 2 (by decide) (by decide))
  have hdue : u.fetchDue = (s.quiescing n).fetchDue := (congrArg State.fetchDue hcancel.rest :)
  have hall : u.fetchDue.all (fun q => q / 64 != n) = (s.fetchDue ++ s.fetchTurn.toList).all (fun q => q / 64 != n) := by
    rw [hdue]
    simp only [State.quiescing, List.all_append, List.all_filter]
    congr 2; funext q; by_cases hq : q / 64 = n <;> simp [hq]
  obtain ⟨hrd, hjobs, hslots⟩ := quiesced_keeps u n
  refine ⟨?_, ?_, hslots.trans hcancel.slots, fun hids x hx hn hwait hahead => ⟨x.ended (.fail 0x40 0), ?_, rfl, rfl⟩⟩
  · rw [quiesced_state h2, hcancel.sliceInflight, hall]; rfl
  · rw [hrd _ (by simp), hcancel.regs _ rfl]; exact (State.rd_setFld _ _ _ _ _ _).trans (if_neg (by simp))
  · rw [State.job?_congr hjobs]
    exact hjob hids hx hn hwait hahead

/-! ### ACTIVE again -/

theorem replaySlice_frame (s : State) (n : Nat) : QueuesOnly { s with boot := (s.replaySlice n).boot } (s.replaySlice n) := by
  have hloop (u : State) (due : List Nat) : QueuesOnly u
      (u.each due (fun s down => s.each (below 64 (fun i => s.queueState (64 * n + i) != 0)) (fun s i => s.replay down (64 * n + i)))) :=
    .each (fun u down => .each (fun v i => .replay v down (64 * n + i)) u _) u due
  have h := hloop { s with boot := { s.boot with replays := s.boot.replays.filter (fun e => decide (e.1 ≠ n)) } }
    ((s.boot.replays.filter (fun e => decide (e.1 = n))).map (·.2))
  have hboot : (s.replaySlice n).boot = { s.boot with replays := s.boot.replays.filter (fun e => decide (e.1 ≠ n)) } := (congrArg State.boot h.rest :)
  rw [hboot]; exact h

/-- What an ACTIVE slice's write leaves. -/
structure Activates (s t : State) (n : Nat) : Prop where
  state : t.sliceState n = 1
  ctrl : t.rd (.slmSliceCtrl n) = s.rd (.slmSliceCtrl n)
  status : t.fld (.slmSliceStat n) 15 8 = s.fld (.slmSliceStat n) 15 8
  jobs : t.jobs = s.jobs
  slots : t.slots = s.slots

theorem sliceGoes_activates {s : State} {n st : Nat} {v : DWord} (henable : getB v 0 = true) (hquiesce : getB v 1 = false) :
    Activates s (s.sliceGoes n st v) n := by
  have hgoes : ∃ u, QueuesOnly { s with boot := u.boot } u ∧
      s.sliceGoes n st v = { u.setFld (.slmSliceStat n) 2 0 1 with fetchDue := u.fetchDue.filter (fun q => q / 64 ≠ n) } := by
    refine ⟨if st = 0 then s else s.replaySlice n, ?_, ?_⟩
    · split
      · exact .refl s
      · exact replaySlice_frame s n
    · simp only [State.sliceGoes, henable, hquiesce, Bool.not_true, Bool.false_eq_true, if_false]
  obtain ⟨u, hu, hgoes⟩ := hgoes
  rw [hgoes]
  have hctrl : u.rd (.slmSliceCtrl n) = s.rd (.slmSliceCtrl n) := hu.regs _ rfl
  have hstat : u.rd (.slmSliceStat n) = s.rd (.slmSliceStat n) := hu.regs _ rfl
  refine ⟨State.fld_setFld u _ 2 0 1 (by decide) (by decide), ?_, ?_, hu.jobs, hu.slots⟩
  · exact (State.rd_setFld _ _ _ _ _ _).trans ((if_neg (by simp)).trans hctrl)
  · exact (State.fld_setFld_ne u _ _ 2 0 15 8 1 (by decide) (by decide) (by simp)).trans (congrArg (getF · 15 8) hstat)

/-! ### What a slice reset leaves -/

/-- What every round of a loop that keeps `I` brings about for its own index, and no other round undoes, holds afterwards for every index. -/
theorem each_establishes_of {α : Type} {I : State → Prop} {P : State → α → Prop} {f : State → α → State} (hinv : ∀ u a, I u → I (f u a))
    (hset : ∀ u a, I u → P (f u a) a) (hkeep : ∀ u a b, I u → P u a → P (f u b) a) {s : State} (hs : I s) {l : List α} {a : α} (ha : a ∈ l) :
    P (s.each l f) a := by
  have hrest (u : State) (l : List α) (hu : I u) (h : P u a) : P (u.each l f) a := by
    induction l generalizing u with
    | nil => exact h
    | cons b l ih => exact ih (f u b) (hinv u b hu) (hkeep u a b hu h)
  induction l generalizing s with
  | nil => cases ha
  | cons b l ih =>
    rcases List.mem_cons.1 ha with rfl | ha
    · exact hrest (f s a) l (hinv s a hs) (hset s a hs)
    · exact ih (hinv s b hs) ha

theorem each_establishes {α : Type} {P : State → α → Prop} {f : State → α → State} (hset : ∀ u a, P (f u a) a)
    (hkeep : ∀ u a b, P u a → P (f u b) a) (s : State) {l : List α} {a : α} (ha : a ∈ l) : P (s.each l f) a :=
  each_establishes_of (I := fun _ => True) (fun _ _ _ => trivial) (fun u a _ => hset u a) (fun u a b _ => hkeep u a b) trivial ha

/-- BNE core `c` holds nothing of slice `n`. -/
def State.bneFree (s : State) (n c : Nat) : Prop :=
  (s.bcore c).f0 ≠ some n ∧ (s.bcore c).f1 ≠ some n ∧ ∀ e ∈ (s.bcore c).res, e.2.owner ≠ some n

theorem wipeSliceBne_free (s : State) (n : Nat) {c : Nat} (hc : c < 8) : (s.wipeSliceBne n).bneFree n c := by
  have hset (u : State) (b : Nat) : (u.setBcore b (fun b => { b with
      f0 := if b.f0 = some n then none else b.f0
      f1 := if b.f1 = some n then none else b.f1
      res := b.res.map (fun e => if e.2.owner = some n then (e.1, { e.2 with owner := none, val := [] }) else e) })).bneFree n b := by
    simp only [State.bneFree, State.bcore_setBcore, if_pos, List.mem_map]
    refine ⟨by split <;> simp_all, by split <;> simp_all, ?_⟩
    rintro _ ⟨e, -, rfl⟩
    split <;> simp_all
  refine each_establishes (P := fun u c => u.bneFree n c) hset (fun u a b h => ?_) s (List.mem_range.2 hc)
  by_cases hab : b = a
  · exact hab ▸ hset u b
  · simpa only [State.bneFree, State.bcore_setBcore, if_neg hab] using h

/-- Queue `q` as a reset of its slice leaves it. -/
def State.queueReset (s : State) (q : Nat) : Prop := s.queueState q = 0 ∧ s.rd (.qmgQErr q) = 0 ∧ s.queueX q = ⟨0, 0, [], []⟩

/-- One queue in a reset of its slice. -/
def State.resetQueue (s : State) (q : Nat) : State :=
  ((s.clearQueue q).unreport q |>.wr (.qmgQRptHead q) 0 |>.setBit (.qmgQCtrl q) 0 false).setQueueState q 0

theorem clearQueue_queueX (s : State) (q k : Nat) : (s.clearQueue q).queueX k = if q = k then ⟨0, 0, [], []⟩ else s.queueX k := by
  exact State.queueX_setQueueX _ q k _

theorem resetQueue_reset (s : State) (q : Nat) : (s.resetQueue q).queueReset q := by
  refine ⟨State.fld_setFld _ _ 10 8 0 (by decide) (by decide), ?_, ?_⟩
  · simp [State.resetQueue, State.setQueueState, unreport_rd, clearQueue_rd]
  · exact (clearQueue_queueX s q q).trans (if_pos rfl)

theorem resetQueue_keeps {s : State} {k q : Nat} (h : s.queueReset k) : (s.resetQueue q).queueReset k := by
  by_cases hq : q = k
  · exact hq ▸ resetQueue_reset s q
  · obtain ⟨hstate, herr, hx⟩ := h
    have hk := Ne.symm hq
    refine ⟨?_, ?_, ?_⟩
    · simpa [State.resetQueue, State.setQueueState, State.queueState, State.fld, unreport_rd, clearQueue_rd, hq, hk] using hstate
    · simpa [State.resetQueue, State.setQueueState, unreport_rd, clearQueue_rd, hq, hk] using herr
    · exact ((clearQueue_queueX s q k).trans (if_neg hq)).trans hx

theorem resetQueues_reset (s : State) (n : Nat) {i : Nat} (hi : i < 64) : (s.resetQueues n).queueReset (64 * n + i) :=
  each_establishes (P := fun u i => u.queueReset (64 * n + i)) (f := fun u i => u.resetQueue (64 * n + i)) (fun u _ => resetQueue_reset u _)
    (fun _ _ _ h => resetQueue_keeps h) s (List.mem_range.2 hi)

theorem resetQueues_slots (s : State) (n : Nat) : (s.resetQueues n).slots = s.slots :=
  State.each_keeps State.slots (fun u i => u.resetQueue (64 * n + i)) (fun _ _ => rfl) s _

theorem resetQueues_ddr (s : State) (n : Nat) : (s.resetQueues n).ddr = s.ddr :=
  State.each_keeps State.ddr (fun u i => u.resetQueue (64 * n + i)) (fun _ _ => rfl) s _

theorem rdeFree_rest (s : State) (c : Nat) : ({ s.rdeFree c with regs := s.regs, shadow := s.shadow, rde := s.rde } : State) = s := by
  unfold State.rdeFree State.rdeEmpty
  exact (State.each_keeps (fun u : State => ({ u with regs := s.regs, shadow := s.shadow, rde := s.rde } : State)) (fun u j => u.wr (.rdeExpect c j) 0)
    (fun _ _ => rfl) _ _).trans (State.each_keeps (fun u : State => ({ u with regs := s.regs, shadow := s.shadow, rde := s.rde } : State))
    (fun u j => u.wr (.rdeResult c j) 0) (fun _ _ => rfl) _ _)

theorem freeContexts_rest (s : State) (n : Nat) : ({ s.freeContexts n with regs := s.regs, shadow := s.shadow, rde := s.rde } : State) = s := by
  refine State.each_keeps (fun u : State => ({ u with regs := s.regs, shadow := s.shadow, rde := s.rde } : State)) _ (fun u c => ?_) s _
  split
  · exact congrArg (fun v : State => { v with regs := s.regs, shadow := s.shadow, rde := s.rde }) (rdeFree_rest u c)
  · rfl


theorem rdeFree_owner (s : State) (c k : Nat) : ((s.rdeFree c).rdeOf k).owner = if c = k then none else (s.rdeOf k).owner := by
  refine (congrArg Rde.owner (State.rdeOf_setRde _ c k _)).trans ?_
  split
  · rfl
  · rename_i hck
    have hexpect (u : State) (l : List Nat) : (u.each l (fun s j => s.wr (.rdeExpect c j) 0)).rde = u.rde :=
      State.each_keeps State.rde (fun u j => u.wr (.rdeExpect c j) 0) (fun _ _ => rfl) u l
    have hresult (u : State) (l : List Nat) : (u.each l (fun s j => s.wr (.rdeResult c j) 0)).rde = u.rde :=
      State.each_keeps State.rde (fun u j => u.wr (.rdeResult c j) 0) (fun _ _ => rfl) u l
    have hempty (u : State) : ((u.rdeEmpty c 0).rdeOf k).owner = (u.rdeOf k).owner := by
      refine (congrArg Rde.owner (State.rdeOf_setRde _ c k _)).trans ?_
      rw [if_neg hck]
      exact congrArg (fun l => (tget (⟨none, [], 0, [], [], 2, 0, 0, 0, []⟩ : Rde) k l).owner) (hresult _ _)
    exact (congrArg (fun l => (tget (⟨none, [], 0, [], [], 2, 0, 0, 0, []⟩ : Rde) k l).owner) (hexpect _ _)).trans (hempty s)

theorem freeContexts_owner (s : State) (n : Nat) {c : Nat} (hc : c < 16) : ((s.freeContexts n).rdeOf c).owner ≠ some (.slice n) := by
  have hround (u : State) (a b : Nat) (h : a = b ∨ (u.rdeOf a).owner ≠ some (.slice n)) :
      ((if (u.rdeOf b).owner = some (.slice n) then u.rdeFree b else u).rdeOf a).owner ≠ some (.slice n) := by
    split
    · rw [rdeFree_owner]
      split
      · simp
      · exact h.resolve_left fun he => ‹¬b = a› he.symm
    · rcases h with rfl | h
      · assumption
      · exact h
  exact each_establishes (P := fun u c => (u.rdeOf c).owner ≠ some (.slice n))
    (f := fun u c => if (u.rdeOf c).owner = some (.slice n) then u.rdeFree c else u) (fun u a => hround u a a (.inl rfl))
    (fun u a b h => hround u a b (.inr h)) s (List.mem_range.2 hc)

/-- What a reset of slice `n` leaves. -/
structure SliceReset (s t : State) (n : Nat) : Prop where
  queues : ∀ i, i < 64 → t.queueReset (64 * n + i)
  pending : ∀ w ∈ t.msixPend, w / 4 ≠ n
  contexts : ∀ c, c < 16 → (t.rdeOf c).owner ≠ some (.slice n)
  bne : ∀ c, c < 8 → t.bneFree n c
  slots : t.slots = s.slots
  ddr : t.ddr = s.ddr
  keywin : t.rd (.slmSliceKeywin n) = s.rd (.slmSliceKeywin n)

/-- The queues and the message tables stand through what does not concern them. -/
theorem State.queueReset.of_eq {s t : State} {q : Nat} (h : s.queueReset q) (hrd : ∀ r, r.ofQueues = true → t.rd r = s.rd r) (hqx : t.qx = s.qx) :
    t.queueReset q := by
  obtain ⟨hstate, herr, hx⟩ := h
  exact ⟨(congrArg (getF · 10 8) (hrd (.qmgQCtrl q) rfl)).trans hstate, (hrd (.qmgQErr q) rfl).trans herr, by rw [State.queueX, hqx]; exact hx⟩

/-- The registers of a digest context that its release clears. -/
def Reg.inContext : Reg → Bool
  | .rdeStatus _ | .rdeMode _ | .rdeKey _ | .rdeLen _ | .rdeCount _ | .rdeMsgs _ | .rdeExpect _ _ | .rdeResult _ _ => true
  | _ => false

theorem Reg.ne_of_inContext {r r' : Reg} (h : r'.inContext = true) (hr : r.inContext = false) : r' ≠ r := fun he => by simp [he, hr] at h

theorem rdeEmpty_rd (s : State) (c st : Nat) {r : Reg} (hr : r.inContext = false) : (s.rdeEmpty c st).rd r = s.rd r := by
  unfold State.rdeEmpty
  refine (State.rd_each r (fun u j => u.wr (.rdeResult c j) 0) (fun u j => State.rd_wr_ne _ _ (Reg.ne_of_inContext rfl hr)) _ _).trans ?_
  rw [State.rd_wr_ne _ _ (Reg.ne_of_inContext rfl hr), State.rd_wr_ne _ _ (Reg.ne_of_inContext rfl hr)]

theorem rdeFree_rd (s : State) (c : Nat) {r : Reg} (hr : r.inContext = false) : (s.rdeFree c).rd r = s.rd r := by
  unfold State.rdeFree
  refine (State.rd_each r (fun u j => u.wr (.rdeExpect c j) 0) (fun u j => State.rd_wr_ne _ _ (Reg.ne_of_inContext rfl hr)) _ _).trans ?_
  rw [State.rd_wr_ne _ _ (Reg.ne_of_inContext rfl hr), State.rd_wr_ne _ _ (Reg.ne_of_inContext rfl hr), State.rd_wr_ne _ _ (Reg.ne_of_inContext rfl hr),
    State.rd_wr_ne _ _ (Reg.ne_of_inContext rfl hr), rdeEmpty_rd s c 0 hr]

theorem freeContexts_rd (s : State) (n : Nat) {r : Reg} (hr : r.inContext = false) : (s.freeContexts n).rd r = s.rd r := by
  refine State.rd_each r _ (fun u c => ?_) s _
  split
  · exact rdeFree_rd u c hr
  · rfl

theorem resetQueues_rd (s : State) (n : Nat) {r : Reg} (hr : r.ofQueues = false) : (s.resetQueues n).rd r = s.rd r := by
  refine State.rd_each r (fun u i => u.resetQueue (64 * n + i)) (fun u i => ?_) s _
  exact (((((QueuesOnly.clearQueue u _).trans (.unreport _ _)).trans (.wr _ rfl rfl _)).trans (.setBit _ rfl rfl _ _)).trans
    (.setFld _ rfl rfl _ _ _)).regs r hr

/-- The parts of a slice reset after its queues. -/
theorem SliceReset.of_queues {s a : State} {n : Nat}
    (hslots : a.slots = s.slots) (hddr : a.ddr = s.ddr)
    (hreset : ∀ i, i < 64 → a.queueReset (64 * n + i)) (hkeywin : a.rd (.slmSliceKeywin n) = s.rd (.slmSliceKeywin n)) :
    SliceReset s ((((a.dropPending n).freeContexts n).wipeSliceBne n).mgrStatus n 0) n := by
  have hb := freeContexts_rest (a.dropPending n) n
  have howner (c : Nat) (hc : c < 16) := freeContexts_owner (a.dropPending n) n hc
  have hbrd (r : Reg) (hr : r.inContext = false) : ((a.dropPending n).freeContexts n).rd r = a.rd r := freeContexts_rd _ n hr
  generalize (a.dropPending n).freeContexts n = b at hb howner hbrd ⊢
  have hc := wipeSliceBne_rest b n
  have hcrd (r : Reg) := wipeSliceBne_rd b n r
  have hfree (c : Nat) (hc : c < 8) := wipeSliceBne_free b n hc
  generalize b.wipeSliceBne n = c at hc hfree hcrd ⊢
  have hrd (r : Reg) (hr : r.inContext = false) (hs : r ≠ .slmSliceStat n) : (c.mgrStatus n 0).rd r = a.rd r :=
    ((State.rd_setFld _ _ _ _ _ _).trans (if_neg (Ne.symm hs))).trans ((hcrd r).trans (hbrd r hr))
  constructor
  case queues =>
    refine fun i hi => (hreset i hi).of_eq (fun r hr => hrd r ?_ ?_) ((congrArg State.qx hc :).trans (congrArg State.qx hb :))
    · cases r <;> first | rfl | cases hr
    · rintro rfl; cases hr
  case pending =>
    have hpend : c.msixPend = (a.dropPending n).msixPend := (congrArg State.msixPend hc :).trans (congrArg State.msixPend hb :)
    intro w hw
    have hw : w ∈ (a.dropPending n).msixPend := hpend ▸ hw
    simpa [State.dropPending] using (List.mem_filter.1 hw).2
  case contexts =>
    have hrde : c.rde = b.rde := (congrArg State.rde hc :)
    intro k hk
    have h := howner k hk
    rwa [State.rdeOf, ← hrde] at h
  case bne => exact fun k hk => hfree k hk
  case slots => exact ((congrArg State.slots hc :).trans (congrArg State.slots hb :)).trans hslots
  case ddr => exact ((congrArg State.ddr hc :).trans (congrArg State.ddr hb :)).trans hddr
  case keywin => exact (hrd _ rfl (by simp)).trans hkeywin

theorem resetSlice_resets (s : State) (n : Nat) : SliceReset s (s.resetSlice n) n := by
  rw [resetSlice_eq]
  refine .of_queues (resetQueues_slots _ n) (resetQueues_ddr _ n) (fun i hi => resetQueues_reset _ n hi) ?_
  exact (resetQueues_rd _ n rfl).trans ((State.rd_setFld _ _ _ _ _ _).trans (if_neg (by simp)))

/-! ### VEC_COUNT -/

/-- VECTOR of the slice's queues is its old value or that value below the count, which stands. -/
structure Clamping (s : State) (n c : Nat) (u : State) : Prop where
  count : u.fld (.slmSliceMsix n) 2 0 = c
  vector : ∀ i, u.fld (.qmgQCtrl (64 * n + i)) 5 4 = s.fld (.qmgQCtrl (64 * n + i)) 5 4 ∨
    u.fld (.qmgQCtrl (64 * n + i)) 5 4 = min (s.fld (.qmgQCtrl (64 * n + i)) 5 4) (c - 1)

theorem Clamping.clamp {s u : State} {n c : Nat} (hc : c ≤ 4) (h : Clamping s n c u) (i : Nat) :
    (u.setFld (.qmgQCtrl (64 * n + i)) 5 4 (u.clampVector n (u.fld (.qmgQCtrl (64 * n + i)) 5 4))).fld (.qmgQCtrl (64 * n + i)) 5 4 =
      min (s.fld (.qmgQCtrl (64 * n + i)) 5 4) (c - 1) := by
  have hclamp : u.clampVector n (u.fld (.qmgQCtrl (64 * n + i)) 5 4) = min (s.fld (.qmgQCtrl (64 * n + i)) 5 4) (c - 1) := by
    rw [State.clampVector, h.count]
    rcases h.vector i with hv | hv <;> rw [hv]
    omega
  rw [hclamp, State.fld_setFld _ _ _ _ _ (by decide) (by decide)]
  exact Nat.mod_eq_of_lt (by omega)

theorem Clamping.step {s u : State} {n c : Nat} (hc : c ≤ 4) (h : Clamping s n c u) (k : Nat) :
    Clamping s n c (u.setFld (.qmgQCtrl (64 * n + k)) 5 4 (u.clampVector n (u.fld (.qmgQCtrl (64 * n + k)) 5 4))) := by
  refine ⟨(congrArg (getF · 2 0) ((State.rd_setFld _ _ _ _ _ _).trans (if_neg (by simp)))).trans h.count, fun i => ?_⟩
  by_cases hi : k = i
  · exact .inr (hi ▸ h.clamp hc k)
  · have hsame := congrArg (getF · 5 4) ((State.rd_setFld u (.qmgQCtrl (64 * n + k)) (.qmgQCtrl (64 * n + i)) 5 4
      (u.clampVector n (u.fld (.qmgQCtrl (64 * n + k)) 5 4))).trans (if_neg (by simp [hi])))
    exact (h.vector i).imp hsame.trans hsame.trans

/-- The loop that clamps the slice's queues. -/
def State.clampQueues (s : State) (n : Nat) : State :=
  s.each (List.range 64) (fun s i => s.setFld (.qmgQCtrl (64 * n + i)) 5 4 (s.clampVector n (s.fld (.qmgQCtrl (64 * n + i)) 5 4)))

theorem clampQueues_vector {s : State} {n c : Nat} (hc : c ≤ 4) (h : s.fld (.slmSliceMsix n) 2 0 = c) {i : Nat} (hi : i < 64) :
    (s.clampQueues n).fld (.qmgQCtrl (64 * n + i)) 5 4 = min (s.fld (.qmgQCtrl (64 * n + i)) 5 4) (c - 1) := by
  refine each_establishes_of (I := Clamping s n c)
    (P := fun u i => u.fld (.qmgQCtrl (64 * n + i)) 5 4 = min (s.fld (.qmgQCtrl (64 * n + i)) 5 4) (c - 1))
    (fun u k hu => hu.step hc k) (fun u k hu => hu.clamp hc k) (fun u a b hu ha => ?_) ⟨h, fun i => .inl rfl⟩ (List.mem_range.2 hi)
  by_cases hab : b = a
  · exact hab ▸ hu.clamp hc b
  · exact (congrArg (getF · 5 4) ((State.rd_setFld u (.qmgQCtrl (64 * n + b)) (.qmgQCtrl (64 * n + a)) 5 4
      (u.clampVector n (u.fld (.qmgQCtrl (64 * n + b)) 5 4))).trans (if_neg (by simp [hab])))).trans ha

theorem clampQueues_keeps (s : State) (n : Nat) : ((s.clampQueues n).jobs, (s.clampQueues n).out, (s.clampQueues n).msixPend,
    (s.clampQueues n).rd (.slmSliceMsix n)) = (s.jobs, s.out, s.msixPend, s.rd (.slmSliceMsix n)) :=
  State.each_keeps (fun u => (u.jobs, u.out, u.msixPend, u.rd (.slmSliceMsix n))) _ (fun u i => by
    simp only [State.rd_setFld, if_neg (by simp : (Reg.qmgQCtrl (64 * n + i)) ≠ .slmSliceMsix n)]; rfl) s _

/-! ### The commands -/

theorem sliceGoes_disabled {s : State} {n st : Nat} {v : DWord} (h : getB v 0 = false) : s.sliceGoes n st v = s := by simp [State.sliceGoes, h]

theorem sliceGoes_quiesces {s : State} {n st : Nat} {v : DWord} (h : getB v 0 = true) (hq : getB v 1 = true) (hst : st = 0 ∨ st = 1) :
    s.sliceGoes n st v = s.quiesce n := by simp [State.sliceGoes, h, hq, hst]

theorem sliceBits_jobs (s : State) (n : Nat) (v : DWord) : (s.sliceBits n v).jobs = s.jobs := (congrArg State.jobs (sliceBits_rest s n v) :)
theorem sliceBits_slots (s : State) (n : Nat) (v : DWord) : (s.sliceBits n v).slots = s.slots := (congrArg State.slots (sliceBits_rest s n v) :)

/-- BNE_COMPAT newly set wipes what the slice holds on the BNE. -/
theorem sliceBits_bneFree {s : State} {n : Nat} {v : DWord} (h0 : s.sliceState n = 0) (hv : getB v 4 = true)
    (hcompat : s.bit (.slmSliceCtrl n) 4 = false) {c : Nat} (hc : c < 8) : (s.sliceBits n v).bneFree n c := by
  have h := wipeSliceBne_free s n hc
  have hbits : (s.sliceBits n v).bcores = (s.wipeSliceBne n).bcores := by
    show (s.compatBit n v).bcores = _
    simp [State.compatBit, h0, hv, hcompat, State.setBit]
  unfold State.bneFree State.bcore at *
  rwa [hbits]

section
variable {s : State} {n : Nat} {v : DWord}

/-- A write with ENABLE 1 and QUIESCE 0 makes a slice ACTIVE. -/
theorem writeSliceCtrl_activates (hreset : getB v 2 = false) (henable : getB v 0 = true) (hquiesce : getB v 1 = false)
    (hst : s.sliceState n ≠ 4) (hpasid : s.pasidOff n = false) : ∃ t, s.writeSliceCtrl n v = t ∧ t.sliceState n = 1 ∧
      t.bit (.slmSliceCtrl n) 0 = true ∧ t.bit (.slmSliceCtrl n) 1 = false ∧ t.fld (.slmSliceStat n) 15 8 = 0 ∧ t.jobs = s.jobs ∧ t.slots = s.slots := by
  have ha := sliceGoes_activates (s := s.sliceBits n v) (n := n) (st := s.sliceState n) henable hquiesce
  obtain ⟨hb0, hb1, -⟩ := sliceBits_ctrl s n v
  exact ⟨_, writeSliceCtrl_accepts hst hreset (by simp [henable]) (by simp [hpasid]), ha.state,
    (congrArg (getB · 0) ha.ctrl).trans (hb0.trans henable), (congrArg (getB · 1) ha.ctrl).trans (hb1.trans hquiesce),
    ha.status.trans (sliceBits_stat _ _ _).1, ha.jobs.trans (sliceBits_jobs _ _ _), ha.slots.trans (sliceBits_slots _ _ _)⟩

/-- What the bits leave of what a quiesce looks at. -/
theorem Quiesces.of_sliceBits {t : State} (hgood : s.sliceBad n = false) (h : Quiesces (s.sliceBits n v) t n) : t.sliceState n =
    (if s.sliceInflight n = 0 ∧ (s.fetchDue ++ s.fetchTurn.toList).all (fun q => q / 64 != n) then 3 else 2) := by
  have hdue : (s.sliceBits n v).fetchDue = s.fetchDue := (congrArg State.fetchDue (sliceBits_rest s n v) :)
  have hin : (s.sliceBits n v).sliceInflight n = s.sliceInflight n := by rw [State.sliceInflight, sliceBits_jobs]; rfl
  rw [h.state, hdue, sliceBits_fetchTurn v hgood, hin]

theorem Quiesces.cancels_of_sliceBits {t : State} (h : Quiesces (s.sliceBits n v) t n) (hids : (s.jobs.map (·.id)).Nodup) {x : Job}
    (hx : x ∈ s.jobs) (hn : x.slice = n) (hwait : x.phase = .waiting) (hahead : x.ahead = false) :
    ∃ y, t.job? x.id = some y ∧ y.phase = .sealed ∧ y.result = some (.fail 0x40 0) := by
  have hjobs := sliceBits_jobs s n v
  exact h.cancels (by rw [hjobs]; exact hids) x (by rw [hjobs]; exact hx) hn hwait hahead

/-- A write with QUIESCE 1 of an ACTIVE slice quiesces it. -/
theorem writeSliceCtrl_quiesces (hreset : getB v 2 = false) (henable : getB v 0 = true) (hquiesce : getB v 1 = true) (hst : s.sliceState n = 1) :
    s.writeSliceCtrl n v = (s.sliceBits n v).quiesce n :=
  (writeSliceCtrl_accepts (by simp [hst]) hreset (by simp [henable]) (fun _ => .inl hst)).trans (sliceGoes_quiesces henable hquiesce (.inr hst))

/-- A write with ENABLE 0 of a DISABLED slice stores the other bits. -/
theorem writeSliceCtrl_stores (hreset : getB v 2 = false) (henable : getB v 0 = false) (hst : s.sliceState n = 0) :
    s.writeSliceCtrl n v = s.sliceBits n v :=
  (writeSliceCtrl_accepts (by simp [hst]) hreset (fun _ => hst) (fun _ => .inr ⟨hst, henable⟩)).trans (sliceGoes_disabled henable)

end

/-- VEC_COUNT taken, and the pending bits of removed vectors gone. -/
def State.counted (s : State) (n c : Nat) : State :=
  { s.setFld (.slmSliceMsix n) 2 0 c with msixPend := s.msixPend.filter (fun v => decide (v / 4 ≠ n) || decide (v % 4 < c)) }

theorem counted_clampQueues (s : State) (n : Nat) {c : Nat} (hc : c ≤ 4) : ((s.counted n c).clampQueues n).fld (.slmSliceMsix n) 2 0 = c ∧
    (∀ w, w ∈ ((s.counted n c).clampQueues n).msixPend ↔ w ∈ s.msixPend ∧ (w / 4 = n → w % 4 < c)) ∧
    (∀ i, i < 64 → ((s.counted n c).clampQueues n).fld (.qmgQCtrl (64 * n + i)) 5 4 = min (s.fld (.qmgQCtrl (64 * n + i)) 5 4) (c - 1)) ∧
    ((s.counted n c).clampQueues n).jobs = s.jobs ∧ ((s.counted n c).clampQueues n).out = s.out := by
  have hcount : (s.counted n c).fld (.slmSliceMsix n) 2 0 = c :=
    (State.fld_setFld s (.slmSliceMsix n) 2 0 c (by decide) (by decide)).trans (Nat.mod_eq_of_lt (by omega))
  have hkeeps := clampQueues_keeps (s.counted n c) n
  simp only [Prod.mk.injEq] at hkeeps
  obtain ⟨hjobs, hout, hpend, hmsix⟩ := hkeeps
  refine ⟨(congrArg (getF · 2 0) hmsix).trans hcount, fun w => ?_, fun i hi => ?_, hjobs, hout⟩
  · rw [hpend]
    simp only [State.counted, List.mem_filter, Bool.or_eq_true, decide_eq_true_eq]
    tauto
  · rw [clampQueues_vector hc hcount hi]
    exact congrArg (fun x => min (getF x 5 4) (c - 1)) ((State.rd_setFld s _ _ _ _ _).trans (if_neg (by simp)))

/-- Settles O31: each accepted write takes the bits, and then the slice goes on as QUIESCE and ENABLE say. -/
theorem sliceControl : Obligations.SliceControl := by
  unfold Obligations.SliceControl
  refine ⟨fun s n v hshown hgood hv2 => ⟨fun hst hpasid hv1 => ?_, fun hst hv0 => ?_, fun hst hpasid hv0 => ?_, fun hst hv0 => ?_⟩,
    fun s n v hshown hgood hv2 => ⟨fun hst => ?_, fun hst => ?_⟩, fun s n v hshown hgood hst hn => ?_, fun s n hst => ?_,
    fun s n v hshown => ?_, fun s p v hshown => ?_⟩
  · obtain ⟨t, ht, hstate, hb0, -, hstat, hjobs, hslots⟩ := writeSliceCtrl_activates (s := s) (n := n) (v := setB v 0 true)
      (by simp [getB_setB, hv2]) (by simp [getB_setB]) (by simp [getB_setB, hv1]) (by simp [hst]) hpasid
    exact ⟨t, (exec_sliceEnable hshown hgood v).trans (congrArg _ ht), hstate, hb0, hstat, hjobs, hslots⟩
  · have hexec := (exec_sliceQuiesce hshown hgood v).trans (congrArg Host.Outcome.next (writeSliceCtrl_quiesces (v := setB v 1 true)
      (by simp [getB_setB, hv2]) (by simp [getB_setB, hv0]) (by simp [getB_setB]) hst))
    have hq := quiesce_quiesces (s.sliceBits n (setB v 1 true)) n
    generalize (s.sliceBits n (setB v 1 true)).quiesce n = t at hexec hq
    obtain ⟨-, hb1, -⟩ := sliceBits_ctrl s n (setB v 1 true)
    refine ⟨t, hexec, hq.of_sliceBits hgood, ?_, hq.slots.trans (sliceBits_slots _ _ _), fun hids x => hq.cancels_of_sliceBits hids⟩
    exact (congrArg (getB · 1) hq.ctrl).trans (hb1.trans (by simp [getB_setB]))
  · obtain ⟨t, ht, hstate, -, hb1, -, hjobs, hslots⟩ := writeSliceCtrl_activates (s := s) (n := n) (v := setB v 1 false)
      (by simp [getB_setB, hv2]) (by simp [getB_setB, hv0]) (by simp [getB_setB]) (by omega) hpasid
    exact ⟨t, (exec_sliceUnquiesce hshown hgood v).trans (congrArg _ ht), hstate, hb1, hjobs, hslots⟩
  · have hexec := (exec_bneCompatSet hshown hgood v).trans (congrArg Host.Outcome.next (writeSliceCtrl_stores (v := setB v 4 true)
      (by simp [getB_setB, hv2]) (by simp [getB_setB, hv0]) hst))
    obtain ⟨-, -, hb4⟩ := sliceBits_ctrl s n (setB v 4 true)
    obtain ⟨-, hstate⟩ := sliceBits_stat s n (setB v 4 true)
    exact ⟨_, hexec, by rw [hb4, if_pos hst]; simp [getB_setB], (hstate n).trans hst, sliceBits_jobs _ _ _,
      fun hcompat c hc => sliceBits_bneFree hst (by simp [getB_setB]) hcompat hc⟩
  · have hexec := (exec_sliceDisable hshown hgood v).trans (congrArg Host.Outcome.next (writeSliceCtrl_resets hst (.inr (by simp [getB_setB]))))
    have hr := resetSlice_resets s n
    obtain ⟨hstat, hstate⟩ := resetSlice_resetting s n
    exact ⟨_, hexec, hstate, hstat, fun i hi => (hr.queues i hi).1, hr.slots, hr.ddr⟩
  · have hexec := (exec_sliceDisable hshown hgood v).trans (congrArg Host.Outcome.next (writeSliceCtrl_stores (v := setB v 0 false)
      (by simp [getB_setB, hv2]) (by simp [getB_setB]) hst))
    obtain ⟨hb0, hb1, hb4⟩ := sliceBits_ctrl s n (setB v 0 false)
    obtain ⟨hstat, hstate⟩ := sliceBits_stat s n (setB v 0 false)
    exact ⟨_, hexec, (hstate n).trans hst, hb0.trans (by simp [getB_setB]), hb1.trans (by simp [getB_setB]),
      hb4.trans (by rw [if_pos hst]; simp [getB_setB]), hstat, sliceBits_jobs _ _ _, sliceBits_slots _ _ _⟩
  · have hexec := (exec_sliceReset hshown hgood v).trans (congrArg Host.Outcome.next (writeSliceCtrl_resets hst (.inl (by simp [getB_setB]))))
    have hr := resetSlice_resets s n
    obtain ⟨hstat, hstate⟩ := resetSlice_resetting s n
    exact ⟨_, hexec, hstate, hstat, hr.queues, hr.pending, hr.contexts, fun c hc => (hr.bne c hc).2.2, hr.slots, hr.ddr, hr.keywin⟩
  · refine ⟨_, congrArg Host.Outcome.next (by rw [State.sliceResetDone, if_neg (by simp [hst])]), ?_, ?_, ?_, ?_⟩
    · simp only [State.sliceState, State.fld, State.rd_setBit, if_neg (by simp : (Reg.slmSliceCtrl n) ≠ .slmSliceStat n), State.rd_setFld, if_pos]
      exact getF_setF _ 2 0 0 (by decide) (by decide)
    · simp [State.bit, getB_setB]
    · simp [State.bit, getB_setB]
    · exact ((OnlyRegs.store (by simp) s _).trans (.store (by simp) _ _)).trans (.store (by simp) _ _)
  · exact ⟨_, congrArg Host.Outcome.next (hostTo_of_shown hshown (·.writeVecCount n v)), counted_clampQueues s n (Nat.min_le_left 4 _)⟩
  · exact ⟨_, congrArg Host.Outcome.next (hostTo_of_shown hshown _), (State.bit_setBit s _ 0 0 _ (by decide)).trans (if_pos rfl), .store (by simp) s _⟩

end Sys2Proof.Machine
end

section
/-! PROOFS. Machine checks of tiles (O32 fails): a machine check first ends a block reset under way, which gives the tile the state that the
reset noted; the statement leaves open that this is one in which the tile raises no machine check. -/

namespace Sys2Proof.Machine

/-- Tile 0, UNUSED, in a block reset that is to leave it OFFLINE. -/
def checkedInBlockReset : State :=
  { State.reset with
    tiles := [(0, { Tile.idle with bist := some .block, back := 3 })]
    boot := { State.reset.boot with block := some (0, 0) } }

theorem checkedInBlockReset_uncounted : (match exec (.tileIdleScrub 0 1) checkedInBlockReset with
    | .next t => t.fld .fabMcCount 31 0
    | _ => 0) = 0 := by decide

/-- Refutes O32: the machine check is not counted where the block reset that it ends leaves its tile OFFLINE. -/
theorem not_tileMachineChecks : ¬ Obligations.TileMachineChecks := by
  rintro ⟨hcheck, -⟩
  obtain ⟨t, hexec, -, -, -, hcount, -⟩ := hcheck (.tileIdleScrub 0 1) checkedInBlockReset 0 1 (by decide) (by decide)
    (.inr (.inr (.inl ⟨rfl, by decide⟩)))
  have hnone := checkedInBlockReset_uncounted
  rw [hexec] at hnone
  have hone : min (2 ^ 32 - 1) (checkedInBlockReset.fld .fabMcCount 31 0 + 1) = 1 := by decide
  simp only [hcount, hone] at hnone
  exact absurd hnone (by decide)

end Sys2Proof.Machine
end

section
/-! PROOFS. Machine checks of hash cores (O37 fails): of two jobs on the core, the first fails its third time; with a RETIRE waiting its end
ends the jobs that no pool carries any more, the other among them, before it could be executed again. -/

namespace Sys2Proof.Machine

/-- A job on hash core 0 that has failed twice. -/
def twiceFailedJob : Job := { emptyIn2Job with id := 1, unit := none, pool := none, phase := .started, gang := [0], failures := 2 }

/-- A hybrid job on hash core 0 whose join no pool carries. -/
def uncarriedHybrid : Job :=
  { emptyIn2Job with id := 2, unit := none, pool := none, phase := .started, gang := [0], failures := 0, desc := leBytes 2 0x1001 ++ zeros 126 }

/-- Both on hash core 0, with hash core 1 waiting to be retired. -/
def checkedWhileLeaving : State :=
  { State.reset with jobs := [twiceFailedJob, uncarriedHybrid], hcores := [(0, ⟨.inService, 0, false, false⟩), (1, ⟨.inService, 0, false, true⟩)] }

theorem checkedWhileLeaving_ends : (match exec (.hsfCoreMachineCheck 0) checkedWhileLeaving with
    | .next t => (t.job? 2).map Job.retried
    | _ => none) = some false := by decide

/-- Refutes O37: the end of the first job ends the second, which is not executed again. -/
theorem not_coreEvents : ¬ Obligations.CoreEvents := by
  rintro ⟨⟨hcheck, -⟩, -⟩
  obtain ⟨t, hexec, -, -, -, -, hjobs⟩ := hcheck checkedWhileLeaving 0 (by decide) (by decide)
  obtain ⟨y, hy, hretried, -⟩ := hjobs (by decide) uncarriedHybrid (by decide) (by decide) (by decide)
  have hends := checkedWhileLeaving_ends
  rw [hexec] at hends
  have hy : t.job? 2 = some y := hy
  simp [hy, hretried] at hends

end Sys2Proof.Machine
end

section
/-! PROOFS. Yields on a BNE core (O38 fails): with a RETIRE waiting, a catch point also ends the jobs whose parts no pool carries any more,
and so a hybrid job whose classical half has just yielded. -/

namespace Sys2Proof.Machine

/-- A pool of BNE cores. -/
def oneCorePool : RigPool := ⟨1, 2, 1, 0, 0, 0, 1, 2⟩

/-- A rig with that pool alone, of core 7, whose kernel takes raw multiplications. -/
def oneCoreRig : Rig where
  signed := []
  flags := 0
  stepping := 0
  version := 1
  svn := 0
  pos := 0
  minDdr := 0
  base := []
  mcLimit := 4
  memoBase := 0
  memoSize := 0
  islands := []
  roles := []
  shells := []
  pools := [oneCorePool]
  ksets := [⟨1, 2, 0, [⟨0x0B01, 0, 1, 100, 0, 1, []⟩], []⟩]
  parts := []
  groups := [⟨0, 1, 0x80, 8⟩]
  slices := []
  banks := []
  drbEnable := 0xFFFF
  drbScOnly := 0
  raise := []

/-- A raw multiplication of priority 0 that waits. -/
def waitingProduct : Job := { emptyIn2Job with id := 8, phase := .waiting, unit := none, pool := none, desc := leBytes 2 0x0B01 ++ zeros 126 }

/-- A hybrid job of priority 3 whose classical half runs on BNE core 7; no pool of its slice takes its join. -/
def yieldingHybrid : Job :=
  { emptyIn2Job with desc := leBytes 2 0x1001 ++ [0, 3] ++ zeros 124, phase := .started, unit := none,
                     classical := ⟨.gathered, some (.bne 7 0), none, none⟩, pq := ⟨.started, some (.shell 3), none, none⟩ }

/-- Both jobs, in a device in SERVICE that yields, with hash core 1 waiting to be retired. -/
def yieldWhileLeaving : State :=
  { State.reset with
    regs := [(.genState, 1), (.genXingQuiet, 0), (.bneCoreState 7, 1), (.bneGrpCfg 0, 0x8081), (.slmSlicePools 5, 2), (.slmSliceStat 5, 1), (.bneCtrl, 1)]
    jobs := [yieldingHybrid, waitingProduct]
    rig := some oneCoreRig
    hcores := [(1, ⟨.inService, 0, false, true⟩)] }

/-- The same after the count of the catch point. -/
def yieldCounted : State := yieldWhileLeaving.setJob 7 (fun y => { y with catches := y.catches + 1 })

theorem eq_mk_of_fst {α β : Type} {p : α × β} {a : α} (h : p.1 = a) : p = (a, p.2) := Prod.ext h rfl

theorem yieldCounted_first : ((yieldCounted.without 7).coxChoose oneCoreRig oneCorePool (.bne 7 1)).1 = some waitingProduct := by decide +kernel

theorem yieldCounted_chooses : (yieldCounted.without 7).coxChoose oneCoreRig oneCorePool (.bne 7 1) =
    (some waitingProduct, ((yieldCounted.without 7).coxChoose oneCoreRig oneCorePool (.bne 7 1)).2) :=
  eq_mk_of_fst yieldCounted_first

theorem yieldWhileLeaving_ends : (match exec (.catchPoint 7) yieldWhileLeaving with
    | .next t => (t.job? 7).map Job.yielded
    | _ => none) = some false := by decide +kernel

/-- Refutes O38: the job that yields is ended, and reads as not yielded. -/
theorem not_catchPointsAndYields : ¬ Obligations.CatchPointsAndYields := by
  rintro ⟨hcatch, -⟩
  obtain ⟨-, -, hyields⟩ := hcatch yieldWhileLeaving 7 yieldingHybrid (by decide) (by decide) (by decide)
  obtain ⟨t, y, hexec, hy, hyielded, -⟩ := hyields oneCoreRig oneCorePool waitingProduct _ yieldCounted (by decide) (by decide) (by decide) rfl (by decide) rfl (by decide)
    (by decide) (by decide) (by decide) (by decide) yieldCounted_chooses (by decide) (by decide +kernel)
  have hends := yieldWhileLeaving_ends
  rw [hexec] at hends
  have hy : t.job? 7 = some y := hy
  simp [hy, hyielded] at hends

end Sys2Proof.Machine
end

section
/-! PROOFS. Accesses through JTAG (O56 fails): a read under right 7 of a scratch bank with another owner than 0 is a violation of the bank and
answers zeros (log 83), not the bank's bytes. -/

namespace Sys2Proof.Machine

/-- The device out of reset, under debug right 7, with a byte in scratch bank 0, which the host owns. -/
def hostBankUnderDebug : State :=
  { State.reset with
    regs := [(.dbgRights, 0x80), (.memBankOwner 0, 4)]
    boot := { State.reset.boot with held := false }
    sram := [(0, 1)] }

theorem hostBankUnderDebug_readsZero : (match exec (.jtagAccess (.memRead false 0 1)) hostBankUnderDebug with
    | .next t => t.rdata
    | _ => []) = [0] := by decide

/-- Refutes O56: the byte read is zero, and the bank's is not. -/
theorem not_hostAccess : ¬ Obligations.HostAccess := by
  rintro ⟨-, -, -, -, -, hjtag⟩
  obtain ⟨-, -, -, -, -, hmem, -⟩ := hjtag hostBankUnderDebug [] false 7 0 1 (by decide) (by decide) (by decide) (by decide)
  obtain ⟨t, hexec, hread, -⟩ := hmem (by decide) (by decide)
  have hzero := hostBankUnderDebug_readsZero
  rw [hexec] at hzero
  have hone : Memory.read 0 1 hostBankUnderDebug.sram = [1] := by decide
  simp [hread, hone] at hzero

end Sys2Proof.Machine
end

section
/-! PROOFS. Statements about the security controller that fail: a stopped life-cycle move (O46), an alarm that ends a dip (O49), a
register whose shadow covers a part of it (O50), and the loss of main power in a reset by VDD_RESET (O55). -/

namespace Sys2Proof.Machine

/-! ### Life cycle -/

/-- A device out of reset in a move to INTEGRATOR that a dip of 5 ms has stopped. -/
def stoppedMove : State :=
  { State.reset with
    boot := { State.reset.boot with held := false }
    transition := some ⟨2, false, none, true⟩ }

theorem stoppedMove_stays : (match exec (.lcTransitionDrained .ok) stoppedMove with
    | .next t => t.transition.isSome
    | _ => false) = true := by decide +kernel

/-- Refutes O46: a move that a dip has stopped does not go on to program OTP. -/
theorem not_lifeCycleCommands : ¬ Obligations.LifeCycleCommands := by
  rintro ⟨-, -, hdrained⟩
  obtain ⟨⟨t, hexec, -, -, hmove, -⟩, -⟩ := hdrained stoppedMove _ _ [] rfl (by simp [stoppedMove, State.reset]) rfl rfl rfl rfl rfl
  have hstays := stoppedMove_stays
  simp [hexec, hmove] at hstays

/-! ### Tamper -/

/-- A device out of reset in a supply dip whose entry is not written yet. -/
def resetInDip : State :=
  { State.reset with
    regs := [(.genState, 1), (.tmpSrcCfg 10, 0)]
    boot := { State.reset.boot with held := false }
    tamper := { State.reset.tamper with dip := some ⟨700, false, 0, false, false⟩ } }

theorem resetInDip_logsTwice : (match exec (.tamperAlarm 10 0 false) resetInDip with
    | .next t => t.fld .tmpLogSeq 31 0
    | _ => 0) = 2 := by decide +kernel

/-- Refutes O49: VDD_RESET within a dip writes the dip's entry before its own, so SEQ rises by two. -/
theorem not_tamperAlarms : ¬ Obligations.TamperAlarms := by
  rintro ⟨halarm, -⟩
  obtain ⟨hlog, -⟩ := halarm resetInDip 10 0 (by decide) (by decide) (by decide) (by decide) (by decide) (by decide) (by decide)
  obtain ⟨t, hexec, -, -, -, -, hseq, -⟩ := hlog (by decide)
  have htwice := resetInDip_logsTwice
  rw [hexec] at htwice
  have hzero : resetInDip.fld .tmpLogSeq 31 0 = 0 := by decide
  simp [hseq, hzero] at htwice

/-- A device out of reset whose TMP_VDD disagrees with its shadow in WARN; the committed copy holds WARN alone. -/
def badWarnLevel : State :=
  { State.reset with
    regs := [(.genState, 1), (.tmpVdd, 2 ^ 16)]
    shadow := [(.tmpVdd, ~~~1, 1)]
    boot := { State.reset.boot with held := false } }

theorem badWarnLevel_keepsSample : (match exec .shadowSweep badWarnLevel with
    | .next t => t.rd .tmpVdd
    | _ => 0) = 2 ^ 16 + 1 := by decide +kernel

theorem badWarnLevel_only (x : Reg) (h : x ≠ .tmpVdd) : badWarnLevel.shadowBad x = false := by
  have hshadow : badWarnLevel.shadowOf x = (~~~badWarnLevel.rd x, badWarnLevel.rd x) := by
    simp [State.shadowOf, badWarnLevel, tget, h.symm]
  simp [State.shadowBad, hshadow]

theorem badWarnLevel_noSlots (a : Nat) : badWarnLevel.slotBad a = false := by
  simp [State.slotBad, State.slotAt, badWarnLevel, State.reset, tget]

/-- Refutes O50: a sweep restores the bits of TMP_VDD that its shadow covers, and the sample beside them stands. -/
theorem not_dipsHaltedAndShadows : ¬ Obligations.DipsHaltedAndShadows := by
  rintro ⟨-, -, -, -, -, -, hsweep⟩
  obtain ⟨-, hrestore⟩ := hsweep badWarnLevel (by decide) (by decide) (by decide) badWarnLevel_noSlots (by simp [badWarnLevel, State.reset])
  obtain ⟨t, hexec, hrd, -⟩ := hrestore .tmpVdd (~~~1) 1 (by decide) (by decide) badWarnLevel_only (by decide) (by decide)
  have hkeeps := badWarnLevel_keepsSample
  rw [hexec] at hkeeps
  have hone : t.rd .tmpVdd = 1 := hrd
  exact absurd (hone.symm.trans hkeeps) (by decide)

/-! ### Power -/

/-- A device with its cell, held in a reset whose VDD_RESET alarm is in TAMPER_SUMMARY and may still be discarded. -/
def vddResetHeld : State :=
  { State.reset with
    bbram := { State.reset.bbram with summary := 2 ^ 10 }
    tamper := { State.reset.tamper with vddUndo := some ⟨0, [], 0, 0, false, false, false, 0⟩ } }

theorem vddResetHeld_forgets : (match exec .mainPowerLoss vddResetHeld with
    | .next t => t.bbram.summary
    | _ => 1) = 0 := by decide +kernel

/-- Refutes O55: the loss of main power takes the discarded alarm out of TAMPER_SUMMARY, which BBRAM holds. -/
theorem not_powerAndLink : ¬ Obligations.PowerAndLink := by
  rintro ⟨hpower, -⟩
  obtain ⟨-, -, -, hloss, -⟩ := hpower vddResetHeld
  obtain ⟨t, hexec, -, -, -, -, -, -, -, -, hbbram, -⟩ := hloss rfl rfl
  have hkept : t.bbram = vddResetHeld.bbram := hbbram rfl (by decide)
  have hforgets := vddResetHeld_forgets
  rw [hexec] at hforgets
  simp [hkept, vddResetHeld] at hforgets

end Sys2Proof.Machine
end

section
/-! PROOFS. Entering SERVICE (O54 fails): the domains that come up clear bits 0 to 17 of GEN_XING_QUIET, and no others. -/

namespace Sys2Proof.Machine

/-- A rig without units. -/
def emptyRig : Rig := { oneCoreRig with pools := [], ksets := [], groups := [] }

/-- A start that is ready for SERVICE, with GEN_XING_QUIET set beyond its domains. -/
def readyBeyondDomains : State :=
  { State.reset with
    regs := [(.ddrStat, 6), (.genXingQuiet, 2 ^ 18)]
    rig := some emptyRig
    bbram := { State.reset.bbram with epoch := some ([], 0) }
    boot := { State.reset.boot with held := false, starting := true, firmware := some ⟨0, 1, 0, false, [], []⟩,
                                    patch := some ⟨0, 1, 0, false, [], [], []⟩ } }

theorem readyBeyondDomains_keeps : (match exec (.startComplete 0) readyBeyondDomains with
    | .next t => t.rd .genXingQuiet
    | _ => 0) = 2 ^ 18 := by decide +kernel

/-- Refutes O54: the bit beyond the domains stands in SERVICE. -/
theorem not_starts : ¬ Obligations.Starts := by
  rintro ⟨-, -, -, -, hservice, -⟩
  obtain ⟨-, henter⟩ := hservice readyBeyondDomains 0
  obtain ⟨t, hexec, -, -, -, hquiet, -⟩ := henter (by decide)
  have hkeeps := readyBeyondDomains_keeps
  rw [hexec] at hkeeps
  exact absurd (hquiet.symm.trans hkeeps) (by decide)

end Sys2Proof.Machine
end

section
/-! PROOFS. Opening debug (O47 fails): the checks of a certificate do not refuse a reserved number of its authority as a bad layout. -/

namespace Sys2Proof.Machine

/-- A device in SERVICE whose DRB0 is READY, with DBG_OPEN queued on channel 0: its certificate is empty but for the magic and the number 2
of an authority. -/
def thirdAuthority : State :=
  { State.reset with
    regs := [(.genState, 1), (.rngDrbStat 0, 1), (.mbxCmd 0, 0x0411), (.mbxReqLen 0, 5333), (.mbxReq 0 0, 0x020143444A46)]
    boot := { State.reset.boot with held := false }
    mbx := { State.reset.mbx with queue := [0] } }

theorem thirdAuthority_serves : thirdAuthority.Serves .dbgOpen 0 (thirdAuthority.mbxRequest 0) where
  row := ⟨_, rfl, by decide +kernel⟩
  head := by decide
  request := rfl
  slots a := by simp [State.slotBad, State.slotAt, thirdAuthority, State.reset, tget]
  shadows r := by simp [State.shadowBad, State.shadowOf, thirdAuthority, State.reset, tget]
  journal := by decide
  dip := rfl
  draws := by decide +kernel

theorem thirdAuthority_result : (match exec .dbgOpen thirdAuthority with
    | .next t => t.fld (.mbxStatus 0) 15 8
    | _ => 0) = 0x44 := by decide +kernel

theorem thirdAuthority_layout : thirdAuthority.fld .dbgRights 8 0 = 0 ∧ 1 < leAt (thirdAuthority.mbxRequest 0) 5 1 := by decide +kernel

/-- What the statement says of a certificate whose authority has a reserved number. -/
theorem debugCommands_layout (h : Obligations.DebugCommands) {s : State} {ch : Nat} {c : Bytes} (hserves : s.Serves .dbgOpen ch c)
    (hclosed : s.fld .dbgRights 8 0 = 0) (hauthority : 1 < leAt c 5 1) : ∃ t, exec .dbgOpen s = .next t ∧ t.Answered ch 0x42 0 [] := by
  obtain ⟨-, -, hopen, -⟩ := h
  obtain ⟨t, hexec, -, -, hends⟩ := hopen s ch c hserves
  rw [if_neg (by simp [hclosed]), if_pos (Or.inr (Or.inr (Or.inl hauthority)))] at hends
  exact ⟨t, hexec, hends⟩

/-- Refutes O47: the certificate ends NONCE, not LAYOUT. -/
theorem not_debugCommands : ¬ Obligations.DebugCommands := by
  intro h
  obtain ⟨t, hexec, hends⟩ := debugCommands_layout h thirdAuthority_serves thirdAuthority_layout.1 thirdAuthority_layout.2
  have hresult := thirdAuthority_result
  rw [hexec] at hresult
  exact absurd (hends.result.symm.trans hresult) (by decide)

end Sys2Proof.Machine
end

section
/-! PROOFS. Storing a key in the vault (O44 fails): a slot that is not said to be in an extent, and is, may have a key that cannot be read. -/

namespace Sys2Proof.Machine

/-- A device in SERVICE whose DRB0 is READY, with VAULT_STORE of slot 0 to entry 0 queued on channel 0: the slot's word is of an ML-KEM
key held in the slot, and the slot refers to an extent whose tag has a byte too many. -/
def strayExtent : State :=
  { State.reset with
    regs := [(.genState, 1), (.rngDrbStat 0, 1), (.mbxCmd 0, 0x0310), (.mbxReqLen 0, 8)]
    boot := { State.reset.boot with held := false }
    slots := [(0, ⟨[], 0x01000001, ~~~0x01000001, 0, some ⟨[], 0, zeros 17⟩⟩)]
    mbx := { State.reset.mbx with queue := [0] } }

theorem strayExtent_serves : strayExtent.Serves .vaultStore 0 (zeros 8) where
  row := ⟨_, rfl, by decide⟩
  head := by decide
  request := by decide
  slots a := by
    by_cases h : 0 = a
    · subst h
      decide
    · simp [State.slotBad, State.slotAt, strayExtent, State.reset, tget, h]
  shadows r := by simp [State.shadowBad, State.shadowOf, strayExtent, State.reset, tget]
  journal := by decide
  dip := rfl
  draws := by decide +kernel

theorem strayExtent_result : (match exec (.vaultStore) strayExtent with
    | .next t => t.fld (.mbxStatus 0) 15 8
    | _ => 0) = 0x36 := by decide +kernel

/-- Refutes O44: the key has no material, and the command ends IMPORT_INVALID (log 69). -/
theorem not_vaultCommands : ¬ Obligations.VaultCommands := by
  rintro ⟨hstore, -⟩
  obtain ⟨hdone, -⟩ := hstore strayExtent 0 (zeros 8) strayExtent_serves (by decide) (by decide) (by decide) (by decide) (by decide) (by decide)
  obtain ⟨t, hexec, hends, -⟩ := hdone (by decide)
  have hresult := strayExtent_result
  rw [hexec] at hresult
  exact absurd (hends.result.symm.trans hresult) (by decide)

end Sys2Proof.Machine
end

section
/-! PROOFS. Scratch banks, set and clear views, apertures, fills and scrubs (O52). -/

namespace Sys2Proof.Machine

/-! ### Counters and events -/

/-- A 32-bit counter that rises, up to its largest value. -/
theorem State.fld_bump (s : State) (r : Reg) (d : Nat) : (s.bump r d).fld r 31 0 = min (2 ^ 32 - 1) (s.fld r 31 0 + d) := by
  rw [State.bump, State.fld_setFld _ _ _ _ _ (by decide) (by decide), satAdd]
  exact Nat.mod_eq_of_lt (by omega)

theorem State.rd_bump_ne (s : State) {r r' : Reg} (h : r ≠ r') (d : Nat) : (s.bump r d).rd r' = s.rd r' := by
  simp [State.bump, h]

/-- The bit of an event is set. -/
theorem State.bit_event (s : State) (stat en vec : Reg) {i : Nat} (h : i < 64) : (s.event stat en vec i).bit stat i = true := by
  have hset : (s.setBit stat i true).bit stat i = true := by simp [State.bit_setBit _ _ _ _ _ h]
  unfold State.event
  dsimp only
  split
  · exact (congrArg (getB · i) (sendMsix_rd _ _ _)).trans hset
  · exact hset

theorem State.rd_event_ne (s : State) {stat r : Reg} (h : stat ≠ r) (en vec : Reg) (i : Nat) : (s.event stat en vec i).rd r = s.rd r :=
  (RegsAndMessages.event (List.mem_singleton_self stat) s en vec i).1 r (by simpa using h.symm)

/-- An event changes its status register and sends messages. -/
theorem memEvt_frame (s : State) (i : Nat) : RegsAndMessages [.memEvtStatus] s (s.memEvt i) := .event (by simp) s _ _ i
theorem ddrEvt_frame (s : State) (i : Nat) : RegsAndMessages [.ddrEvtStatus] s (s.ddrEvt i) := .event (by simp) s _ _ i

theorem RegsAndMessages.sram {l : List Reg} {s t : State} (h : RegsAndMessages l s t) : t.sram = s.sram := (congrArg State.sram h.2 :)

theorem OnlyRegs.refl (l : List Reg) (s : State) : OnlyRegs l s s := ⟨fun _ _ => rfl, rfl⟩

/-! ### Bytes of a memory -/

/-- A write of one byte leaves the others. -/
theorem Memory.get_put_ne {a a' : Nat} (h : a' ≠ a) (b : Byte) (m : List (Nat × Byte)) : Memory.get a' (Memory.put a b m) = Memory.get a' m := by
  induction m with
  | nil =>
    rw [Memory.put]
    split <;> simp [Memory.get, h.symm]
  | cons e m ih =>
    obtain ⟨k, v⟩ := e
    simp only [Memory.put]
    split
    · simp [Memory.get, ih]
    · split
      · rename_i hka
        subst hka
        split <;> simp [Memory.get, h.symm]
      · split <;> simp [Memory.get, h.symm]

/-- What byte `i` of a write under byte enables leaves, over the byte that was there. -/
def enabledByte (bs : List (Option Byte)) (i : Nat) (old : Byte) : Byte :=
  match bs[i]? with
  | some (some x) => x
  | _ => old

/-- A write under byte enables leaves the bytes outside its range. -/
theorem Memory.get_writeEnabled_outside (bs : List (Option Byte)) : ∀ (lo a : Nat) (m : List (Nat × Byte)), a < lo ∨ lo + bs.length ≤ a →
    Memory.get a (writeEnabled lo bs m) = Memory.get a m := by
  induction bs with
  | nil => intro lo a m _; rfl
  | cons b bs ih =>
    intro lo a m h
    simp only [List.length_cons] at h
    cases b with
    | none => exact ih (lo + 1) a m (by omega)
    | some x => exact (ih (lo + 1) a _ (by omega)).trans (Memory.get_put_ne (by omega) x m)

/-- The bytes of a canonical memory after a write under byte enables. -/
theorem Memory.get_writeEnabled (bs : List (Option Byte)) : ∀ (lo a : Nat) {m : List (Nat × Byte)}, Memory.wf m = true →
    Memory.get a (writeEnabled lo bs m) = if a < lo then Memory.get a m else enabledByte bs (a - lo) (Memory.get a m) := by
  induction bs with
  | nil => intro lo a m _; simp [writeEnabled, enabledByte]
  | cons b bs ih =>
    intro lo a m h
    by_cases hlt : a < lo
    · rw [if_pos hlt]
      exact Memory.get_writeEnabled_outside _ _ _ _ (.inl hlt)
    rw [if_neg hlt]
    rcases Nat.eq_or_lt_of_le (Nat.le_of_not_lt hlt) with rfl | hgt
    · cases b with
      | none => exact (Memory.get_writeEnabled_outside bs _ _ _ (.inl (by omega))).trans (by simp [enabledByte])
      | some x => exact (Memory.get_writeEnabled_outside bs _ _ _ (.inl (by omega))).trans (by simp [Memory.get_put h, enabledByte])
    · have hnext : a - lo = (a - (lo + 1)) + 1 := by omega
      have hnot : ¬ a < lo + 1 := by omega
      cases b with
      | none => exact (ih (lo + 1) a h).trans (by rw [if_neg hnot, hnext]; rfl)
      | some x =>
        refine (ih (lo + 1) a (Memory.put_wf h lo x)).trans ?_
        rw [if_neg hnot, hnext, Memory.get_put_ne (by omega)]
        rfl

/-- A string of `n` bytes is a number of `8 n` bits. -/
theorem leNat_lt (bs : Bytes) : leNat bs < 2 ^ (8 * bs.length) := by
  induction bs with
  | nil => simp [leNat]
  | cons b bs ih =>
    have hb := b.isLt
    have hpow : 2 ^ (8 * (bs.length + 1)) = 256 * 2 ^ (8 * bs.length) := by ring
    rw [leNat, List.length_cons, hpow]
    omega

theorem Memory.length_read (a n : Nat) (m : List (Nat × Byte)) : (Memory.read a n m).length = n := by simp [Memory.read]

/-- A word written is read back, and the bytes around it stand. -/
theorem Memory.leNat_read_write {m : List (Nat × Byte)} (h : Memory.wf m = true) (a : Nat) {n x : Nat} (hx : x < 2 ^ (8 * n)) :
    leNat (Memory.read a n (Memory.write a (leBytes n x) m)) = x := by
  have hback := Memory.read_write (leBytes n x) a h
  rw [length_leBytes] at hback
  rw [hback, leNat_leBytes_of_lt hx]

theorem Memory.get_write_outside {m : List (Nat × Byte)} (h : Memory.wf m = true) {a b : Nat} {bs : Bytes} (hb : b < a ∨ a + bs.length ≤ b) :
    Memory.get b (Memory.write a bs m) = Memory.get b m := by
  rw [Memory.get_write _ _ _ h, if_neg (by omega)]

/-! ### Handovers -/

/-- A handover from or to nobody is refused. -/
theorem bankHandover_refused {s : State} {b : Nat} {v : DWord} (hshown : s.hidden (.memBankHandover b) = false)
    (hnone : s.bankOwner b = 0 ∨ v.toNat % 16 = 0) : ∃ t, exec (.bankHandover b v) s = .next t ∧ t.fld (.memBankOwner b) 9 8 = 2 ∧
      OnlyRegs [.memBankOwner b] s t := by
  refine ⟨s.bankResult b 2, ?_, State.fld_setFld _ _ _ _ _ (by decide) (by decide), .store (by simp) s _⟩
  have hnobody : s.bankOwner b = 0 ∨ getF v 3 0 = 0 := by simpa [getF] using hnone
  refine congrArg Host.Outcome.next ((hostTo_of_shown hshown _).trans ?_)
  simp only [State.writeHandover, if_pos hnobody]

/-- A handover of a bank that changes hands is BUSY. -/
theorem bankHandover_busy {s : State} {b : Nat} {v : DWord} (hshown : s.hidden (.memBankHandover b) = false) (howner : s.bankOwner b ≠ 0)
    (hto : v.toNat % 16 ≠ 0) (hbusy : s.bankState b ≠ 0) : ∃ t, exec (.bankHandover b v) s = .next t ∧ t.fld (.memBankOwner b) 9 8 = 1 ∧
      OnlyRegs [.memBankOwner b] s t := by
  refine ⟨s.bankResult b 1, ?_, State.fld_setFld _ _ _ _ _ (by decide) (by decide), .store (by simp) s _⟩
  have hsomebody : ¬ (s.bankOwner b = 0 ∨ getF v 3 0 = 0) := by simpa [getF, howner] using hto
  refine congrArg Host.Outcome.next ((hostTo_of_shown hshown _).trans ?_)
  simp only [State.writeHandover, if_neg hsomebody, if_pos hbusy]

/-- An accepted handover closes the owner's port. -/
theorem bankHandover_drains {s : State} {b : Nat} {v : DWord} (hshown : s.hidden (.memBankHandover b) = false) (howner : s.bankOwner b ≠ 0)
    (hto : v.toNat % 16 ∈ [1, 2, 3, 4]) (hstill : s.bankState b = 0) : ∃ t, exec (.bankHandover b v) s = .next t ∧ t.bankState b = 1 ∧
      t.bankOwner b = s.bankOwner b ∧ t.bit (.memBankAper b) 0 = false ∧ t.fld (.memBankHandover b) 4 0 = v.toNat % 32 ∧
      OnlyRegs [.memBankOwner b, .memBankAper b, .memBankHandover b] s t := by
  have hfour : getF v 3 0 = v.toNat % 16 := by simp [getF]
  have hsomebody : ¬ (s.bankOwner b = 0 ∨ getF v 3 0 = 0) := by
    simp only [List.mem_cons, List.not_mem_nil, or_false] at hto
    omega
  have hknown : ¬ (5 ≤ getF v 3 0 ∧ getF v 3 0 ≤ 7) := by
    simp only [List.mem_cons, List.not_mem_nil, or_false] at hto
    omega
  refine ⟨_, congrArg Host.Outcome.next ((hostTo_of_shown hshown _).trans (by
    simp only [State.writeHandover, if_neg hsomebody, if_neg (not_not.2 hstill), if_neg hknown]; rfl)), ?_, ?_, ?_, ?_, ?_⟩
  · exact State.fld_setFld _ _ _ _ _ (by decide) (by decide)
  · exact (State.fld_setFld_ne _ _ _ _ _ _ _ _ (by decide) (by decide) (.inr (by decide))).trans (by simp [State.bankOwner, State.fld])
  · simp [State.bit, getB_setB]
  · simp only [State.fld, State.rd_setFld, State.rd_setBit, State.rd_wr]
    simp only [reduceCtorEq, if_false, if_true]
    rw [getF_setF _ _ _ _ (by decide) (by decide)]
    simp [getF]
  · exact ((OnlyRegs.store (by simp) s _).trans (.store (by simp) _ _)).trans (.store (by simp) _ _)

/-- The new owner's port opens. -/
theorem handOver_spec (s : State) (b : Nat) : (s.handOver b).bankState b = 0 ∧ (s.handOver b).bankOwner b = s.fld (.memBankHandover b) 3 0 ∧
    (s.handOver b).bit .memEvtStatus 3 = true ∧ (s.handOver b).sram = s.sram := by
  unfold State.handOver
  refine ⟨?_, ?_, State.bit_event _ _ _ _ (by decide), (memEvt_frame _ 3).sram⟩
  · refine (congrArg (getF · 5 4) (State.rd_event_ne _ (by simp) _ _ _)).trans ?_
    simp only [State.bankResult, State.rd_wr, State.rd_setBit, State.rd_setFld]
    simp only [reduceCtorEq, if_false, if_true]
    rw [getF_setF_ne _ _ _ _ _ _ (by decide) (by decide) (.inr (by decide)), getF_setF _ _ _ _ (by decide) (by decide)]
    rfl
  · refine (congrArg (getF · 3 0) (State.rd_event_ne _ (by simp) _ _ _)).trans ?_
    simp only [State.bankResult, State.rd_wr, State.rd_setBit, State.rd_setFld]
    simp only [reduceCtorEq, if_false, if_true]
    rw [getF_setF_ne _ _ _ _ _ _ (by decide) (by decide) (.inr (by decide)), getF_setF_ne _ _ _ _ _ _ (by decide) (by decide) (.inr (by decide)),
      getF_setF _ _ _ _ (by decide) (by decide)]
    exact Nat.mod_eq_of_lt (getF_lt _ _ _)

theorem bankHandoverDrained_wipes {s : State} {b : Nat} (hdraining : s.bankState b = 1) (hwipe : s.bit (.memBankHandover b) 4 = true) :
    ∃ t, exec (.bankHandoverDrained b) s = .next t ∧ t.bankState b = 2 ∧ OnlyRegs [.memBankOwner b] s t := by
  refine ⟨s.setFld (.memBankOwner b) 5 4 2, ?_, State.fld_setFld _ _ _ _ _ (by decide) (by decide), .store (by simp) s _⟩
  change execBankHandoverDrained b s = _
  rw [execBankHandoverDrained, if_neg (not_not.2 hdraining), if_pos hwipe]

theorem bankHandoverDrained_passes {s : State} {b : Nat} (hdraining : s.bankState b = 1) (hkeep : s.bit (.memBankHandover b) 4 = false) :
    exec (.bankHandoverDrained b) s = .next (s.handOver b) := by
  change execBankHandoverDrained b s = _
  rw [execBankHandoverDrained, if_neg (not_not.2 hdraining), if_neg (by simp [hkeep])]

theorem bankWipeDone_spec {s : State} {b : Nat} (hwiping : s.bankState b = 2) : ∃ t, exec (.bankWipeDone b) s = .next t ∧ t.bankState b = 0 ∧
    t.bankOwner b = s.fld (.memBankHandover b) 3 0 ∧ t.bit .memEvtStatus 3 = true ∧
    ∀ a, Memory.get a t.sram = (if bankSize * b ≤ a ∧ a < bankSize * (b + 1) then 0 else Memory.get a s.sram) := by
  obtain ⟨hstate, howner, hevent, hsram⟩ := handOver_spec { s with sram := Memory.clear (bankSize * b) (bankSize * (b + 1)) s.sram } b
  refine ⟨_, ?_, hstate, howner, hevent, fun a => (congrArg (Memory.get a) hsram).trans (Memory.get_clear _ _ _ _)⟩
  change execBankWipeDone b s = _
  rw [execBankWipeDone, if_neg (not_not.2 hwiping)]

/-! ### Host accesses -/

/-- An access that the owner's port does not let through is counted and reported. -/
theorem bankViolation_frame (s : State) (b : Nat) : RegsAndMessages [.memBankViol b, .memEvtStatus] s (s.bankViolation b) :=
  (OnlyRegs.regsAndMessages (List.Subset.refl _) (.store (by simp) s _)).trans ((memEvt_frame _ 0).mono (by simp))

theorem bankViolation_counts (s : State) (b : Nat) : (s.bankViolation b).bit .memEvtStatus 0 = true ∧
    (s.bankViolation b).fld (.memBankViol b) 31 0 = min (2 ^ 32 - 1) (s.fld (.memBankViol b) 31 0 + 1) :=
  ⟨State.bit_event _ _ _ _ (by decide), (congrArg (getF · 31 0) (State.rd_event_ne _ (by simp) _ _ _)).trans (s.fld_bump _ 1)⟩

theorem bar4Normal_refused {s : State} {off : Nat} (h : s.ownsBank 4 (off / bankSize) = false) (acc : MemAccess) (ecc : Ecc) :
    s.bar4Normal off acc ecc = (s.bankViolation (off / bankSize)).noAccess acc := by
  simp [State.bar4Normal, h]

theorem bar4Normal_bank {s : State} {off : Nat} (h : s.ownsBank 4 (off / bankSize) = true) (haper : s.bit (.memBankAper (off / bankSize)) 0 = false)
    (acc : MemAccess) (ecc : Ecc) : s.bar4Normal off acc ecc = s.bankAccess off acc ecc := by
  simp [State.bar4Normal, h, haper]

theorem bar4Normal_aperture {s : State} {off : Nat} (h : s.ownsBank 4 (off / bankSize) = true)
    (haper : s.bit (.memBankAper (off / bankSize)) 0 = true) (acc : MemAccess) (ecc : Ecc) : s.bar4Normal off acc ecc = s.aperture off acc ecc := by
  simp [State.bar4Normal, h, haper]

theorem aliasWrite_refused {s : State} {off : Nat} (h : s.ownsBank 4 (off / bankSize) = false) (set : Bool) (width : Nat) (v : DWord) :
    s.aliasWrite set off width v = s.bankViolation (off / bankSize) := by
  simp [State.aliasWrite, h]

/-- An accepted write of a set or clear view changes its word alone. -/
theorem aliasWrite_changes {s : State} {off width : Nat} (h : s.ownsBank 4 (off / bankSize) = true)
    (haper : s.bit (.memBankAper (off / bankSize)) 0 = false) (hwidth : width = 32 ∨ width = 64) (halign : off % (width / 8) = 0)
    (set : Bool) (v : DWord) : s.aliasWrite set off width v = { s with
      sram := Memory.write off (aliasWord set (leNat (Memory.read off (width / 8) s.sram)) (v.toNat % 2 ^ width) (width / 8)) s.sram } := by
  have hsize : (width / 8 = 4 ∨ width / 8 = 8) ∧ off % (width / 8) = 0 := ⟨by omega, halign⟩
  have hbits : 8 * (width / 8) = width := by omega
  unfold State.aliasWrite
  simp only [h, haper, Bool.not_true, Bool.false_eq_true, if_false, if_pos hsize, State.aliasChange, hbits]
  rfl

/-- The number of a changed word fits. -/
theorem aliasWord_lt (set : Bool) {old v n : Nat} (hold : old < 2 ^ (8 * n)) (hv : v < 2 ^ (8 * n)) :
    (if set then old ||| v else old &&& (old ^^^ v)) < 2 ^ (8 * n) := by
  split
  · exact Nat.or_lt_two_pow hold hv
  · exact Nat.lt_of_le_of_lt Nat.and_le_left hold

/-- What is read of a word after it has been changed, and beside it. -/
theorem aliasWord_written {m : List (Nat × Byte)} (h : Memory.wf m = true) (set : Bool) (a : Nat) {n v : Nat} (hv : v < 2 ^ (8 * n)) :
    (leNat (Memory.read a n (Memory.write a (aliasWord set (leNat (Memory.read a n m)) v n) m)) =
      if set then leNat (Memory.read a n m) ||| v else leNat (Memory.read a n m) &&& (leNat (Memory.read a n m) ^^^ v)) ∧
    ∀ b, b < a ∨ a + n ≤ b → Memory.get b (Memory.write a (aliasWord set (leNat (Memory.read a n m)) v n) m) = Memory.get b m := by
  have hold : leNat (Memory.read a n m) < 2 ^ (8 * n) := by simpa [Memory.length_read] using leNat_lt (Memory.read a n m)
  refine ⟨Memory.leNat_read_write h a (aliasWord_lt set hold hv), fun b hb => Memory.get_write_outside h ?_⟩
  rwa [aliasWord, length_leBytes]

/-- AND with the complement clears the bits of a mask. -/
theorem testBit_clear (old v i : Nat) : (old &&& (old ^^^ v)).testBit i = (old.testBit i && !v.testBit i) := by
  rw [Nat.testBit_and, Nat.testBit_xor]
  cases old.testBit i <;> cases v.testBit i <;> rfl

/-- SET_ALIAS_WRITE and CLEAR_ALIAS_WRITE. -/
theorem aliasViews_spec {s : State} {off width : Nat} {v : DWord} (h : s.ownsBank 4 (off / bankSize) = true)
    (haper : s.bit (.memBankAper (off / bankSize)) 0 = false) (hwidth : width = 32 ∨ width = 64) (halign : off % (width / 8) = 0)
    (hwf : Memory.wf s.sram = true) :
    (∃ t, exec (.setAliasWrite off width v) s = .next t ∧ Memory.read off (width / 8) t.sram =
      leBytes (width / 8) (leNat (Memory.read off (width / 8) s.sram) ||| v.toNat % 2 ^ width) ∧
      (∀ a, a < off ∨ off + width / 8 ≤ a → Memory.get a t.sram = Memory.get a s.sram) ∧ OnlyRegs [] s { t with sram := s.sram }) ∧
    (∃ t, exec (.clearAliasWrite off width v) s = .next t ∧
      (∀ i, i < width → (leNat (Memory.read off (width / 8) t.sram)).testBit i =
        ((leNat (Memory.read off (width / 8) s.sram)).testBit i && !v.toNat.testBit i)) ∧
      (∀ a, a < off ∨ off + width / 8 ≤ a → Memory.get a t.sram = Memory.get a s.sram) ∧ OnlyRegs [] s { t with sram := s.sram }) := by
  have hbits : 8 * (width / 8) = width := by omega
  have hv : v.toNat % 2 ^ width < 2 ^ (8 * (width / 8)) := by rw [hbits]; exact Nat.mod_lt _ (Nat.two_pow_pos _)
  constructor
  · obtain ⟨-, hbeside⟩ := aliasWord_written hwf true off hv
    refine ⟨_, congrArg Host.Outcome.next (aliasWrite_changes h haper hwidth halign true v), ?_, hbeside, .refl [] s⟩
    have hback := Memory.read_write (aliasWord true (leNat (Memory.read off (width / 8) s.sram)) (v.toNat % 2 ^ width) (width / 8)) off hwf
    rw [aliasWord, length_leBytes] at hback
    exact hback
  · obtain ⟨hword, hbeside⟩ := aliasWord_written hwf false off hv
    refine ⟨_, congrArg Host.Outcome.next (aliasWrite_changes h haper hwidth halign false v), fun i hi => ?_, hbeside, .refl [] s⟩
    refine (congrArg (Nat.testBit · i) hword).trans ?_
    rw [if_neg (by simp), testBit_clear, Nat.testBit_mod_two_pow, decide_eq_true hi, Bool.true_and]

/-! ### Fetch-and-set and fetch-and-clear -/

theorem fetchAnd_changes {s : State} {who a : Nat} (hwho : who ≠ 4) (h : s.ownsBank who (a / bankSize) = true) (set : Bool) (v : DWord) :
    s.fetchAnd set who a v .clean none = { s.answer (Memory.read (a / 8 * 8) 8 s.sram) with
      sram := Memory.write (a / 8 * 8) (aliasWord set (leNat (Memory.read (a / 8 * 8) 8 s.sram)) (v.toNat % 2 ^ (8 * 8)) 8) s.sram } := by
  unfold State.fetchAnd
  simp only [if_neg hwho, h, Bool.not_true, Bool.false_eq_true, if_false, State.aliasChange]
  rfl

/-- FETCH_AND_SET and FETCH_AND_CLEAR by an on-chip owner. -/
theorem fetchAnd_spec {s : State} {who a : Nat} {v : DWord} (hwho : who ≠ 4) (h : s.ownsBank who (a / bankSize) = true)
    (hwf : Memory.wf s.sram = true) :
    (∃ t, exec (.fetchAndSet who a v) s = .next t ∧ t.rdata = Memory.read (a / 8 * 8) 8 s.sram ∧
      leNat (Memory.read (a / 8 * 8) 8 t.sram) = leNat (Memory.read (a / 8 * 8) 8 s.sram) ||| v.toNat ∧
      ∀ b, b < a / 8 * 8 ∨ a / 8 * 8 + 8 ≤ b → Memory.get b t.sram = Memory.get b s.sram) ∧
    (∃ t, exec (.fetchAndClear who a v) s = .next t ∧ t.rdata = Memory.read (a / 8 * 8) 8 s.sram ∧
      (∀ i, i < 64 → (leNat (Memory.read (a / 8 * 8) 8 t.sram)).testBit i =
        ((leNat (Memory.read (a / 8 * 8) 8 s.sram)).testBit i && !v.toNat.testBit i)) ∧
      ∀ b, b < a / 8 * 8 ∨ a / 8 * 8 + 8 ≤ b → Memory.get b t.sram = Memory.get b s.sram) := by
  have hmod : v.toNat % 2 ^ (8 * 8) = v.toNat := Nat.mod_eq_of_lt v.isLt
  constructor
  · obtain ⟨hword, hbeside⟩ := aliasWord_written hwf true (a / 8 * 8) (n := 8) v.isLt
    rw [← hmod] at hword hbeside
    refine ⟨_, congrArg Host.Outcome.next (fetchAnd_changes hwho h true v), rfl, ?_, hbeside⟩
    exact hword.trans (by rw [if_pos rfl, hmod])
  · obtain ⟨hword, hbeside⟩ := aliasWord_written hwf false (a / 8 * 8) (n := 8) v.isLt
    rw [← hmod] at hword hbeside
    refine ⟨_, congrArg Host.Outcome.next (fetchAnd_changes hwho h false v), rfl, fun i _ => ?_, hbeside⟩
    refine (congrArg (Nat.testBit · i) hword).trans ?_
    rw [if_neg (by simp), testBit_clear, hmod]

/-! ### LPDDR5X -/

/-- What an aperture shows of an enabled slice's window. -/
theorem aperture_open {s : State} {off k o : Nat} {acc : MemAccess} (hk : k = s.fld (.memBankAper (off / bankSize)) 24 16)
    (ho : o = s.fld (.memBankAper (off / bankSize)) 45 32 * bankSize + off % bankSize) (hlo : 1 ≤ s.sliceState k) (hhi : s.sliceState k ≤ 3)
    (hready : s.ddrReady = true) (hin : s.inWindow k true o (accessLen acc) = true) (ecc : Ecc) :
    s.aperture off acc ecc = s.ddrAccess (s.ddrAddr k o) acc ecc := by
  subst hk ho
  simp [State.aperture, hlo, hhi, hready, hin]

theorem aperture_closed {s : State} {off k : Nat} (hk : k = s.fld (.memBankAper (off / bankSize)) 24 16)
    (h : s.sliceState k = 0 ∨ s.ddrReady = false) (acc : MemAccess) (ecc : Ecc) : s.aperture off acc ecc = s.noAccess acc := by
  subst hk
  rcases h with h | h <;> simp [State.aperture, h]

/-- GO starts a fill within the slice-usable region. -/
theorem fillGo_starts {s : State} (h : s.fld .ddrFillCtrl 5 4 ≠ 1) : s.fillGo.fld .ddrFillCtrl 5 4 = 1 ∧ s.ddrLow ≤ s.fillGo.ddrFill.1 ∧
    (s.fillGo.ddrFill.2 ≠ 0 → s.fillGo.ddrFill.1 + s.fillGo.ddrFill.2 ≤ s.ddrHigh) ∧ s.fillGo.ddr = s.ddr ∧ s.fillGo.jobs = s.jobs := by
  simp only [State.fillGo, if_neg h]
  refine ⟨State.fld_setFld _ _ _ _ _ (by decide) (by decide), Nat.le_max_right _ _, fun hne => ?_, rfl, rfl⟩
  simp only [State.setFld_ddrFill] at hne ⊢
  omega

/-- What is left of a fill's range is zero. -/
theorem ddrFillDone_spec {s : State} (hrun : s.fld .ddrFillCtrl 5 4 = 1) (hon : s.bit .genState 4 = false) (hready : s.ddrReady = true) :
    ∃ t, exec .ddrFillDone s = .next t ∧ t.fld .ddrFillCtrl 5 4 = 2 ∧ t.bit .ddrEvtStatus 1 = true ∧ t.sram = s.sram ∧
      ∀ a, Memory.get a t.ddr = (if s.ddrFill.1 ≤ a ∧ a < s.ddrFill.1 + s.ddrFill.2 then 0 else Memory.get a s.ddr) := by
  refine ⟨(State.setFld { s with ddr := Memory.clear s.ddrFill.1 (s.ddrFill.1 + s.ddrFill.2) s.ddr } .ddrFillCtrl 5 4 2).ddrEvt 1, ?_, ?_,
    State.bit_event _ _ _ _ (by decide), ?_, fun a => ?_⟩
  · change execDdrFillDone s = _
    rw [execDdrFillDone, if_neg (by simp [hrun, hon])]
    simp only [hready, if_true]
  · exact (congrArg (getF · 5 4) (State.rd_event_ne _ (by simp) _ _ _)).trans (State.fld_setFld _ _ _ _ _ (by decide) (by decide))
  · exact (ddrEvt_frame _ 1).sram
  · rw [(ddrEvt_frame _ 1).ddr]
    exact Memory.get_clear _ _ _ _

/-- Errors met one after another are counted, and change nothing but the controller's registers. -/
theorem each_ddrUe_spec (ue : List Nat) : ∀ s : State,
    (s.each ue State.ddrUe).fld .ddrUeCount 31 0 = min (2 ^ 32 - 1) (s.fld .ddrUeCount 31 0 + ue.length) ∧
      RegsAndMessages [.ddrUeCount, .ddrUeAddr, .ddrEvtStatus] s (s.each ue State.ddrUe) := by
  induction ue with
  | nil =>
    intro s
    refine ⟨?_, .refl _ s⟩
    have hlt := getF_lt (s.rd .ddrUeCount) 31 0
    simp only [State.each, List.foldl_nil, State.fld, List.length_nil] at hlt ⊢
    omega
  | cons a ue ih =>
    intro s
    obtain ⟨hcount, hframe⟩ := ih (s.ddrUe a)
    have hone : (s.ddrUe a).fld .ddrUeCount 31 0 = min (2 ^ 32 - 1) (s.fld .ddrUeCount 31 0 + 1) := by
      refine (congrArg (getF · 31 0) ((State.rd_event_ne _ (by simp) _ _ _).trans ?_)).trans (s.fld_bump _ 1)
      rw [State.rd_setFld, if_neg (by simp)]
    refine ⟨hcount.trans ?_, RegsAndMessages.trans ?_ hframe⟩
    · rw [hone, List.length_cons]
      omega
    · have hregs : RegsAndMessages [.ddrUeCount, .ddrUeAddr, .ddrEvtStatus] s ((s.bump .ddrUeCount).setFld .ddrUeAddr 36 6 (a / 64)) :=
        (RegsAndMessages.store (by simp) s _).trans (.store (by simp) _ _)
      exact hregs.trans ((ddrEvt_frame _ 0).mono (by simp))

/-- A scrub pass counts what it met. -/
theorem patrolScrubPass_spec {s : State} {ce : Nat} {ue : List Nat} (hscrub : s.bit .ddrScrubCtrl 8 = true) (hon : s.bit .genState 4 = false)
    (hready : s.ddrReady = true) : ∃ t, exec (.patrolScrubPass ce ue) s = .next t ∧
      t.fld .ddrCeCount 31 0 = min (2 ^ 32 - 1) (s.fld .ddrCeCount 31 0 + ce) ∧
      t.fld .ddrUeCount 31 0 = min (2 ^ 32 - 1) (s.fld .ddrUeCount 31 0 + ue.length) ∧ t.rd .ddrScrubLast = s.rd .genTime ∧
      t.bit .ddrEvtStatus 2 = true ∧ t.ddr = s.ddr ∧ t.jobs = s.jobs := by
  obtain ⟨hcount, hframe⟩ := each_ddrUe_spec ue (s.bump .ddrCeCount ce)
  refine ⟨((((s.bump .ddrCeCount ce).each ue State.ddrUe).wr .ddrScrubLast (((s.bump .ddrCeCount ce).each ue State.ddrUe).rd .genTime)).ddrEvt 2),
    ?_, ?_, ?_, ?_, State.bit_event _ _ _ _ (by decide), ?_, ?_⟩
  · change execPatrolScrubPass ce ue s = _
    rw [execPatrolScrubPass, if_neg (by simp [hscrub, hon, hready])]
  · refine (congrArg (getF · 31 0) ((State.rd_event_ne _ (by simp) _ _ _).trans (State.rd_wr_ne _ _ (by simp)))).trans ?_
    exact (congrArg (getF · 31 0) (hframe.1 _ (by simp))).trans (s.fld_bump _ ce)
  · refine (congrArg (getF · 31 0) ((State.rd_event_ne _ (by simp) _ _ _).trans (State.rd_wr_ne _ _ (by simp)))).trans ?_
    exact hcount.trans (by rw [State.fld, State.rd_bump_ne _ (by simp)]; rfl)
  · refine (State.rd_event_ne _ (by simp) _ _ _).trans ?_
    rw [State.rd_wr, if_pos rfl, hframe.1 _ (by simp), State.rd_bump_ne _ (by simp)]
  · exact (ddrEvt_frame _ 2).ddr.trans hframe.ddr
  · exact (ddrEvt_frame _ 2).jobs.trans hframe.jobs

/-- Each byte of LPDDR5X has its own place beside the codes. -/
theorem ddrPlace_spec (a b : Nat) : (ddrPlace a = ddrPlace b → a = b) ∧ (ddrPlace a).channel < 8 ∧ (ddrPlace a).byte < 960 ∧
    960 ≤ (ddrPlace a).code ∧ (ddrPlace a).code + 4 ≤ 1024 ∧
    ((ddrPlace a).group = (ddrPlace b).group → (ddrPlace a).code = (ddrPlace b).code → a / 64 = b / 64) := by
  simp only [ddrPlace, DdrPlace.mk.injEq]
  omega

/-! ### The statement -/

theorem memoryCommands_banks :
    (∀ (s : State) (off n : Nat) (bs : List (Option Byte)) (ecc : Ecc), s.ownsBank 4 (off / bankSize) = false →
      (∃ t, exec (.bar4NormalAccess off (.read n) ecc) s = .next t ∧ t.rdata = zeros n ∧ t.bit .memEvtStatus 0 = true ∧ t.sram = s.sram ∧
        t.fld (.memBankViol (off / bankSize)) 31 0 = min (2 ^ 32 - 1) (s.fld (.memBankViol (off / bankSize)) 31 0 + 1)) ∧
      (∃ t, exec (.bar4NormalAccess off (.write bs) ecc) s = .next t ∧ t.sram = s.sram ∧ t.ddr = s.ddr ∧ t.bit .memEvtStatus 0 = true)) ∧
    (∀ (s : State) (off n : Nat) (bs : List (Option Byte)), s.ownsBank 4 (off / bankSize) = true → s.bit (.memBankAper (off / bankSize)) 0 = false →
      (∃ t, exec (.bar4NormalAccess off (.read n) .clean) s = .next t ∧ t.rdata = Memory.read off n s.sram ∧ t.poisoned = false ∧
        OnlyRegs [] s { t with rdata := s.rdata, poisoned := s.poisoned }) ∧
      (∃ t, exec (.bar4NormalAccess off (.read n) .uncorrectable) s = .next t ∧ t.poisoned = true ∧ t.rdata.length = n ∧
        t.bit .memEvtStatus 1 = true ∧ t.sram = s.sram) ∧
      (∃ t, exec (.bar4NormalAccess off (.write bs) .clean) s = .next t ∧ OnlyRegs [] s { t with sram := s.sram } ∧
        (Memory.wf s.sram = true → ∀ a, Memory.get a t.sram = if a < off then Memory.get a s.sram
          else enabledByte bs (a - off) (Memory.get a s.sram)))) := by
  refine ⟨fun s off n bs ecc h => ?_, fun s off n bs h haper => ?_⟩
  · obtain ⟨hevent, hcount⟩ := bankViolation_counts s (off / bankSize)
    have hframe := bankViolation_frame s (off / bankSize)
    exact ⟨⟨_, congrArg Host.Outcome.next (bar4Normal_refused h _ ecc), rfl, hevent, hframe.sram, hcount⟩,
      _, congrArg Host.Outcome.next (bar4Normal_refused h _ ecc), hframe.sram, hframe.ddr, hevent⟩
  · have hread (ecc : Ecc) : exec (.bar4NormalAccess off (.read n) ecc) s = .next (s.bankAccess off (.read n) ecc) :=
      congrArg Host.Outcome.next (bar4Normal_bank h haper (.read n) ecc)
    refine ⟨⟨_, hread .clean, rfl, rfl, .refl [] s⟩, ⟨_, hread .uncorrectable, rfl, ?_, ?_, ?_⟩,
      _, congrArg Host.Outcome.next (bar4Normal_bank h haper (.write bs) .clean), .refl [] s, fun hwf a => Memory.get_writeEnabled bs off a hwf⟩
    · exact (List.length_map _).trans List.length_range
    · exact State.bit_event _ _ _ _ (by decide)
    · exact (memEvt_frame _ 1).sram

theorem memoryCommands_aliases :
    (∀ (s : State) (off width : Nat) (v : DWord), s.ownsBank 4 (off / bankSize) = false → ∃ t, exec (.setAliasWrite off width v) s = .next t ∧
      exec (.clearAliasWrite off width v) s = .next t ∧ t.sram = s.sram ∧ t.bit .memEvtStatus 0 = true) ∧
    ∀ (s : State) (a : Nat) (v : DWord), exec (.fetchAndSet 4 a v) s = .next s ∧ exec (.fetchAndClear 4 a v) s = .next s :=
  ⟨fun s _ width v h => ⟨_, congrArg Host.Outcome.next (aliasWrite_refused h true width v),
      congrArg Host.Outcome.next (aliasWrite_refused h false width v), (bankViolation_frame s _).sram, (bankViolation_counts s _).1⟩,
    fun _ _ _ => ⟨rfl, rfl⟩⟩

theorem memoryCommands_apertures (s : State) (off n k o : Nat) (bs : List (Option Byte)) (ecc : Ecc) (h : s.ownsBank 4 (off / bankSize) = true)
    (haper : s.bit (.memBankAper (off / bankSize)) 0 = true) (hk : k = s.fld (.memBankAper (off / bankSize)) 24 16)
    (ho : o = s.fld (.memBankAper (off / bankSize)) 45 32 * bankSize + off % bankSize) :
    (1 ≤ s.sliceState k → s.sliceState k ≤ 3 → s.ddrReady = true →
      (s.inWindow k true o n = true → ∃ t, exec (.apertureAccess off (.read n) .clean) s = .next t ∧
        t.rdata = Memory.read (s.ddrAddr k o) n s.ddr ∧ OnlyRegs [] s { t with rdata := s.rdata, poisoned := s.poisoned }) ∧
      (s.inWindow k true o bs.length = true → ∃ t, exec (.apertureAccess off (.write bs) .clean) s = .next t ∧ t.sram = s.sram ∧
        t.ddr = writeEnabled (s.ddrAddr k o) bs s.ddr ∧
        ∀ a, a < s.ddrAddr k o ∨ s.ddrAddr k o + bs.length ≤ a → Memory.get a t.ddr = Memory.get a s.ddr)) ∧
    (s.sliceState k = 0 ∨ s.ddrReady = false →
      (∃ t, exec (.apertureAccess off (.read n) ecc) s = .next t ∧ t.rdata = zeros n ∧ t.ddr = s.ddr ∧ t.sram = s.sram) ∧
      exec (.apertureAccess off (.write bs) ecc) s = .next s) := by
  have haccess (acc : MemAccess) (e : Ecc) : exec (.apertureAccess off acc e) s = .next (s.aperture off acc e) :=
    congrArg Host.Outcome.next (bar4Normal_aperture h haper acc e)
  refine ⟨fun hlo hhi hready => ⟨fun hin => ?_, fun hin => ?_⟩, fun hclosed => ⟨?_, ?_⟩⟩
  · exact ⟨_, (haccess _ _).trans (congrArg _ (aperture_open (acc := .read n) hk ho hlo hhi hready hin .clean)), rfl, .refl [] s⟩
  · exact ⟨_, (haccess _ _).trans (congrArg _ (aperture_open (acc := .write bs) hk ho hlo hhi hready hin .clean)), rfl, rfl,
      fun a ha => Memory.get_writeEnabled_outside bs _ a s.ddr ha⟩
  · exact ⟨_, (haccess _ _).trans (congrArg _ (aperture_closed hk hclosed _ ecc)), rfl, rfl, rfl⟩
  · exact (haccess _ _).trans (congrArg _ (aperture_closed hk hclosed _ ecc))

theorem memoryCommands_fills (s : State) :
    (s.hidden .ddrFillCtrl = false → s.fld .ddrFillCtrl 5 4 ≠ 1 → ∃ t, exec .ddrFillGo s = .next t ∧ t.fld .ddrFillCtrl 5 4 = 1 ∧
      s.ddrLow ≤ t.ddrFill.1 ∧ (t.ddrFill.2 ≠ 0 → t.ddrFill.1 + t.ddrFill.2 ≤ s.ddrHigh) ∧ t.ddr = s.ddr ∧ t.jobs = s.jobs) ∧
    (s.fld .ddrFillCtrl 5 4 = 1 → exec .ddrFillGo s = .next s) ∧ (s.bit .genState 4 = true → exec .ddrFillDone s = .next s) := by
  refine ⟨fun hshown hstill => ⟨_, congrArg Host.Outcome.next (hostTo_of_shown hshown _), fillGo_starts hstill⟩, fun hrun => ?_, fun hdip => ?_⟩
  · refine congrArg Host.Outcome.next ?_
    simp [State.hostTo, State.fillGo, hrun]
  · change execDdrFillDone s = _
    rw [execDdrFillDone, if_pos (.inr hdip)]

/-- Settles O52, one kind of access after another. -/
theorem memoryCommands : Obligations.MemoryCommands := by
  obtain ⟨hrefused, hbank⟩ := memoryCommands_banks
  obtain ⟨haliases, hhost⟩ := memoryCommands_aliases
  refine ⟨⟨?_, ?_, hrefused, hbank, ?_, ?_⟩, memoryCommands_apertures, ?_, ?_, ddrPlace_spec⟩
  · exact fun s b v hshown => ⟨bankHandover_refused hshown, bankHandover_busy hshown, bankHandover_drains hshown⟩
  · intro s b
    obtain ⟨hstate, howner, hevent, hsram⟩ := handOver_spec s b
    exact ⟨bankHandoverDrained_wipes, fun hd hk => ⟨_, bankHandoverDrained_passes hd hk, hstate, howner, hevent, hsram⟩, bankWipeDone_spec⟩
  · exact fun s off width v => ⟨fun h haper hw ha hwf => aliasViews_spec h haper hw ha hwf, haliases s off width v⟩
  · exact fun s who a v => ⟨hhost s a v, fun hwho h hwf => fetchAnd_spec hwho h hwf⟩
  · intro s
    obtain ⟨hgo, hstill, hdip⟩ := memoryCommands_fills s
    exact ⟨hgo, hstill, ddrFillDone_spec, hdip⟩
  · intro s ce ue
    refine ⟨patrolScrubPass_spec, fun hoff => ?_⟩
    change execPatrolScrubPass ce ue s = _
    rw [execPatrolScrubPass, if_pos (by simp [hoff])]

end Sys2Proof.Machine
end

section
/-! PROOFS. The mailbox: how a command's turn comes, what its end changes, and refusals (O40). -/

namespace Sys2Proof.Machine

/-! ### What the end of a command changes -/

/-- The registers that the end of a command changes. -/
def Reg.ofMailbox : Reg → Bool
  | .mbxStatus _ | .mbxDetail _ | .mbxRspLen _ | .mbxSeq _ | .dbgStat => true
  | _ => false

/-- From `s` to `t` only the mailbox's own state and registers change, and messages go. -/
def MailboxOnly (s t : State) : Prop :=
  (∀ r : Reg, r.ofMailbox = false → t.rd r = s.rd r) ∧
    ({ t with regs := s.regs, shadow := s.shadow, out := s.out, msixPend := s.msixPend, mbx := s.mbx } : State) = s

theorem MailboxOnly.refl (s : State) : MailboxOnly s s := ⟨fun _ _ => rfl, rfl⟩

theorem MailboxOnly.trans {s t u : State} (h : MailboxOnly s t) (h' : MailboxOnly t u) : MailboxOnly s u :=
  ⟨fun r hr => (h'.1 r hr).trans (h.1 r hr),
    (congrArg (fun x : State => { x with regs := s.regs, shadow := s.shadow, out := s.out, msixPend := s.msixPend, mbx := s.mbx }) h'.2).trans h.2⟩

theorem MailboxOnly.store {r : Reg} (hr : r.ofMailbox = true) (s : State) (f : DWord → DWord) : MailboxOnly s (s.store r f) :=
  ⟨fun r' h' => by
    have hne : r ≠ r' := fun h => by simp [h ▸ hr] at h'
    simp [hne], rfl⟩

theorem MailboxOnly.setMbx (s : State) (m : Mailbox) : MailboxOnly s { s with mbx := m } := ⟨fun _ _ => rfl, rfl⟩

theorem MailboxOnly.of_messages {s t : State} (h : RegsAndMessages [] s t) : MailboxOnly s t :=
  ⟨fun r _ => h.1 r List.not_mem_nil, congrArg (fun x : State => { x with mbx := s.mbx }) h.2⟩

theorem MailboxOnly.keepsStores {s t : State} (h : MailboxOnly s t) : KeepsStores s t where
  slots := (congrArg State.slots h.2 :)
  cells := (congrArg State.cells h.2 :)
  jobs := (congrArg State.jobs h.2 :)
  tiles := (congrArg State.tiles h.2 :)
  sram := (congrArg State.sram h.2 :)
  otp := (congrArg State.otp h.2 :)
  bbram := (congrArg State.bbram h.2 :)
  flash := (congrArg State.flash h.2 :)
  rig := (congrArg State.rig h.2 :)

theorem MailboxOnly.transition {s t : State} (h : MailboxOnly s t) : t.transition = s.transition := (congrArg State.transition h.2 :)
theorem MailboxOnly.boot {s t : State} (h : MailboxOnly s t) : t.boot = s.boot := (congrArg State.boot h.2 :)
theorem MailboxOnly.power {s t : State} (h : MailboxOnly s t) : t.power = s.power := (congrArg State.power h.2 :)
theorem MailboxOnly.mbxCode {s t : State} (h : MailboxOnly s t) (ch : Nat) : t.mbxCode ch = s.mbxCode ch := congrArg (getF · 15 0) (h.1 _ rfl)

/-- DONE's message changes nothing stored, and neither the mailbox. -/
theorem mbxSignal_frame (s : State) (ch : Nat) : RegsAndMessages [] s (s.mbxSignal ch) := by
  unfold State.mbxSignal
  split
  · exact .refl [] s
  split
  · exact .sendMsix [] s _
  split
  · exact ⟨fun _ _ => rfl, rfl⟩
  · exact .refl [] s

theorem mbxSignal_mbx (s : State) (ch : Nat) : (s.mbxSignal ch).mbx = s.mbx := (congrArg State.mbx (mbxSignal_frame s ch).2 :)

/-- A command's RESULT in MBX_STATUS, and in DBG_STAT if it is a debug command's. -/
def State.mbxResult (s : State) (ch result : Nat) : State :=
  let s := s.wr (.mbxStatus ch) (BitVec.ofNat 64 (3 + result * 2 ^ 8))
  if 0x0410 ≤ s.mbxCode ch ∧ s.mbxCode ch ≤ 0x0414 then s.setFld .dbgStat 15 8 result else s

/-- The registers of a command's end. -/
def State.mbxEndRegs (s : State) (ch result detail : Nat) (rsp : Bytes) : State :=
  (((s.mbxResult ch result).setFld (.mbxDetail ch) 31 0 detail).setFld (.mbxRspLen ch) 14 0 rsp.length).bump (.mbxSeq ch)

/-- The mailbox after a command's end. -/
def State.mbxEndMbx (s : State) (ch result detail : Nat) (rsp : Bytes) : Mailbox :=
  let mine := decide (s.mbx.busy.getD ch = ch)
  let rig := rigWork (s.mbxCode ch)
  { s.mbx with
    busy := if mine then none else s.mbx.busy, pressed := !mine && s.mbx.pressed, rsp := tset ch rsp s.mbx.rsp
    lastRig := if rig then result else s.mbx.lastRig, lastDetail := if rig then detail else s.mbx.lastDetail }

theorem mbxResult_only (s : State) (ch result : Nat) : MailboxOnly s (s.mbxResult ch result) := by
  unfold State.mbxResult
  dsimp only
  split
  · exact (MailboxOnly.store rfl s _).trans (.store rfl _ _)
  · exact .store rfl s _

theorem mbxResult_mbx (s : State) (ch result : Nat) : (s.mbxResult ch result).mbx = s.mbx := by
  unfold State.mbxResult
  dsimp only
  split <;> rfl

theorem mbxResult_rd (s : State) (ch result : Nat) : (s.mbxResult ch result).rd (.mbxStatus ch) = BitVec.ofNat 64 (3 + result * 2 ^ 8) := by
  unfold State.mbxResult
  dsimp only
  split <;> simp

theorem mbxEndRegs_only (s : State) (ch result detail : Nat) (rsp : Bytes) : MailboxOnly s (s.mbxEndRegs ch result detail rsp) :=
  (((mbxResult_only s ch result).trans (.store rfl _ _)).trans (.store rfl _ _)).trans (.store rfl _ _)

theorem mbxEndRegs_mbx (s : State) (ch result detail : Nat) (rsp : Bytes) : (s.mbxEndRegs ch result detail rsp).mbx = s.mbx :=
  mbxResult_mbx s ch result

theorem mbxEnd_eq (s : State) (ch result detail : Nat) (rsp : Bytes) : s.mbxEnd ch result detail rsp =
    ({ s.mbxEndRegs ch result detail rsp with mbx := (s.mbxEndRegs ch result detail rsp).mbxEndMbx ch result detail rsp } : State).mbxSignal ch :=
  rfl

theorem mbxEnd_only (s : State) (ch result detail : Nat) (rsp : Bytes) : MailboxOnly s (s.mbxEnd ch result detail rsp) :=
  ((mbxEndRegs_only s ch result detail rsp).trans (.setMbx _ _)).trans (.of_messages (mbxSignal_frame _ ch))

theorem mbxEnd_mbx (s : State) (ch result detail : Nat) (rsp : Bytes) : (s.mbxEnd ch result detail rsp).mbx = s.mbxEndMbx ch result detail rsp := by
  rw [mbxEnd_eq, mbxSignal_mbx]
  dsimp only
  rw [State.mbxEndMbx, State.mbxEndMbx, mbxEndRegs_mbx, (mbxEndRegs_only s ch result detail rsp).mbxCode]

theorem mbxEnd_queue (s : State) (ch result detail : Nat) (rsp : Bytes) : (s.mbxEnd ch result detail rsp).mbx.queue = s.mbx.queue := by
  rw [mbxEnd_mbx]
  rfl

/-- The registers of another channel stand. -/
theorem mbxEnd_rd_ne (s : State) {ch : Nat} {r : Reg} (hs : r ≠ .mbxStatus ch) (hd : r ≠ .mbxDetail ch) (hl : r ≠ .mbxRspLen ch) (hq : r ≠ .mbxSeq ch)
    (hg : r ≠ .dbgStat) (result detail : Nat) (rsp : Bytes) : (s.mbxEnd ch result detail rsp).rd r = s.rd r := by
  rw [mbxEnd_eq, (mbxSignal_frame _ ch).1 r List.not_mem_nil]
  change (s.mbxEndRegs ch result detail rsp).rd r = s.rd r
  rw [State.mbxEndRegs, State.rd_bump_ne _ hq.symm, State.rd_setFld, if_neg hl.symm, State.rd_setFld, if_neg hd.symm, State.mbxResult]
  split
  · rw [State.rd_setFld, if_neg hg.symm, State.rd_wr_ne _ _ hs.symm]
  · rw [State.rd_wr_ne _ _ hs.symm]

/-- DONE with a RESULT, a DETAIL and a response. -/
theorem mbxEnd_answered (s : State) (ch result detail : Nat) (rsp : Bytes) :
    (s.mbxEnd ch result detail rsp).Answered ch (result % 256) detail rsp := by
  have hstatus : (s.mbxEnd ch result detail rsp).rd (.mbxStatus ch) = BitVec.ofNat 64 (3 + result * 2 ^ 8) := by
    rw [mbxEnd_eq, (mbxSignal_frame _ ch).1 _ List.not_mem_nil]
    change (s.mbxEndRegs ch result detail rsp).rd (.mbxStatus ch) = _
    rw [State.mbxEndRegs, State.rd_bump_ne _ (by simp), State.rd_setFld, if_neg (by simp), State.rd_setFld, if_neg (by simp), mbxResult_rd]
  constructor
  case done =>
    rw [State.mbxState, State.fld, hstatus, getF, BitVec.toNat_ofNat]
    omega
  case result =>
    rw [State.fld, hstatus, getF, BitVec.toNat_ofNat]
    omega
  case detail =>
    rw [mbxEnd_eq, State.fld, (mbxSignal_frame _ ch).1 _ List.not_mem_nil]
    change getF ((s.mbxEndRegs ch result detail rsp).rd (.mbxDetail ch)) 31 0 = _
    rw [State.mbxEndRegs, State.rd_bump_ne _ (by simp), State.rd_setFld, if_neg (by simp), State.rd_setFld, if_pos rfl,
      getF_setF _ _ _ _ (by decide) (by decide)]
  case response =>
    rw [mbxEnd_mbx]
    simp [State.mbxEndMbx]

/-- An end is not touched by the end of another channel's command. -/
theorem State.Answered.mbxEnd_ne {t : State} {ch ch' x d : Nat} {rsp : Bytes} (h : t.Answered ch x d rsp) (hne : ch ≠ ch') (x' d' : Nat) (rsp' : Bytes) :
    (t.mbxEnd ch' x' d' rsp').Answered ch x d rsp where
  done := (congrArg (getF · 1 0) (mbxEnd_rd_ne t (by simpa using hne) (by simp) (by simp) (by simp) (by simp) _ _ _)).trans h.done
  result := (congrArg (getF · 15 8) (mbxEnd_rd_ne t (by simpa using hne) (by simp) (by simp) (by simp) (by simp) _ _ _)).trans h.result
  detail := (congrArg (getF · 31 0) (mbxEnd_rd_ne t (by simp) (by simpa using hne) (by simp) (by simp) (by simp) _ _ _)).trans h.detail
  response := by
    rw [mbxEnd_mbx]
    simpa [State.mbxEndMbx, hne.symm] using h.response

/-! ### The commands that follow -/

/-- No command of an undefined code waits on a channel. -/
def State.NoUnknown (s : State) (ch : Nat) : Prop := ch ∉ s.mbx.queue ∨ s.mbxCode ch ∈ mbxCodes

theorem mbxSkip_only (s : State) : MailboxOnly s s.mbxSkip := by
  unfold State.mbxSkip
  split
  · split
    · exact .refl s
    · exact (MailboxOnly.setMbx s _).trans (mbxEnd_only _ _ _ _ _)
  · exact .refl s

theorem mbxNext_only (s : State) : MailboxOnly s s.mbxNext := (mbxSkip_only s).trans (mbxSkip_only _)

theorem mbxDone_only (s : State) (ch result detail : Nat) (rsp : Bytes) : MailboxOnly s (s.mbxDone ch result detail rsp) :=
  (mbxEnd_only s ch result detail rsp).trans (mbxNext_only _)

theorem mem_queue_of_mbxHead {s : State} {ch : Nat} (h : s.mbxHead = some ch) : ch ∈ s.mbx.queue := by
  unfold State.mbxHead at h
  split at h
  · exact List.mem_of_mem_head? h
  · cases h

theorem State.NoUnknown.mbxSkip {s : State} {ch : Nat} (h : s.NoUnknown ch) : s.mbxSkip.NoUnknown ch := by
  rcases h with h | h
  · refine .inl ?_
    unfold State.mbxSkip
    split
    · split
      · exact h
      · rw [mbxEnd_queue]
        exact fun hm => h (List.mem_of_mem_drop hm)
    · exact h
  · exact .inr ((mbxSkip_only s).mbxCode ch ▸ h)

theorem State.Answered.mbxSkip {t : State} {ch x d : Nat} {rsp : Bytes} (h : t.Answered ch x d rsp) (hno : t.NoUnknown ch) :
    t.mbxSkip.Answered ch x d rsp := by
  unfold State.mbxSkip
  split
  · rename_i ch' hhead
    split
    · exact h
    · rename_i hunknown
      have hne : ch ≠ ch' := by
        rintro rfl
        exact hno.elim (fun hm => hm (mem_queue_of_mbxHead hhead)) hunknown
      exact State.Answered.mbxEnd_ne (t := { t with mbx := { t.mbx with queue := t.mbx.queue.drop 1 } })
        ⟨h.done, h.result, h.detail, h.response⟩ hne _ _ _
  · exact h

theorem State.Answered.mbxNext {t : State} {ch x d : Nat} {rsp : Bytes} (h : t.Answered ch x d rsp) (hno : t.NoUnknown ch) :
    t.mbxNext.Answered ch x d rsp := (h.mbxSkip hno).mbxSkip hno.mbxSkip

/-- A command that ends is DONE, whatever the SC takes next. -/
theorem mbxDone_answered {s : State} {ch : Nat} (hno : s.NoUnknown ch) (result detail : Nat) (rsp : Bytes) :
    (s.mbxDone ch result detail rsp).Answered ch (result % 256) detail rsp := by
  refine (mbxEnd_answered s ch result detail rsp).mbxNext ?_
  rcases hno with h | h
  · exact .inl (by rwa [mbxEnd_queue])
  · exact .inr ((mbxEnd_only s ch result detail rsp).mbxCode ch ▸ h)

/-! ### A command's turn -/

theorem mbxTaken_only (s : State) (ch : Nat) : MailboxOnly s (s.mbxTaken ch) := (MailboxOnly.setMbx s _).trans (.store rfl _ _)

theorem mbxTaken_noUnknown (s : State) (ch : Nat) : (s.mbxTaken ch).NoUnknown ch := .inl (by simp [State.mbxTaken])

/-- The head of the queue has the turn of its own code. -/
theorem mbxTurn_of_head {s : State} {ch code : Nat} (hhead : s.mbxHead = some ch) (hcode : s.mbxCode ch = code) : s.mbxTurn code = some ch := by
  simp [State.mbxTurn, hhead, hcode]

theorem mbxTry_of_head {s : State} {row : MbxRow} {ch : Nat} (hhead : s.mbxHead = some ch) (hcode : s.mbxCode ch = row.code)
    (f : State → Nat → Bytes → Option State) : s.mbxTry row f = match s.rowRefuses row ch with
      | some x => (s.mbxTaken ch).mbxDone ch x 0 []
      | none => (f (s.mbxTaken ch) ch (s.mbxRequest ch)).getD s := by
  simp only [State.mbxTry, mbxTurn_of_head hhead hcode, if_pos hhead]
  rfl

/-- A command that its row excludes ends with the refusal. -/
theorem mbxTry_refused {s : State} {row : MbxRow} {ch x : Nat} (hhead : s.mbxHead = some ch) (hcode : s.mbxCode ch = row.code)
    (hx : s.rowRefuses row ch = some x) (f : State → Nat → Bytes → Option State) : s.mbxTry row f = (s.mbxTaken ch).mbxDone ch x 0 [] := by
  simp only [mbxTry_of_head hhead hcode, hx]

/-- A command that its row admits has its effect. -/
theorem mbxTry_served {s : State} {row : MbxRow} {ch : Nat} (hhead : s.mbxHead = some ch) (hcode : s.mbxCode ch = row.code)
    (hx : s.rowRefuses row ch = none) (f : State → Nat → Bytes → Option State) :
    s.mbxTry row f = (f (s.mbxTaken ch) ch (s.mbxRequest ch)).getD s := by
  simp only [mbxTry_of_head hhead hcode, hx]

/-- Rows with the same members refuse alike. -/
theorem rowRefuses_congr (s : State) {row row' : MbxRow} (ch : Nat) (hchans : row.chans = row'.chans) (hstates : ∀ d, d ∈ row.states ↔ d ∈ row'.states)
    (hlen : row.okLen = row'.okLen) : s.rowRefuses row ch = s.rowRefuses row' ch := by
  simp only [State.rowRefuses, hchans, hlen, hstates]

/-! ### What a command waits for -/

/-- No word of a slot and no register disagrees with its shadow, a journal record is free, and no dip defers a write. -/
structure State.Undisturbed (s : State) : Prop where
  slots : ∀ a, s.slotBad a = false
  shadows : ∀ r, s.shadowBad r = false
  journal : s.journalUsed < 2048
  dip : s.tamper.dip = none

/-- A loop whose rounds change nothing. -/
theorem State.each_of_fixed {α : Type} {s : State} {f : State → α → State} (h : ∀ a, f s a = s) (l : List α) : s.each l f = s := by
  induction l with
  | nil => rfl
  | cons a l ih =>
    change (f s a).each l f = s
    rw [h a]
    exact ih

theorem sweepSlot_of_good {s : State} {a : Nat} (h : s.slotBad a = false) : s.sweepSlot a = s := by simp [State.sweepSlot, h]

theorem State.Undisturbed.mbxUses {s : State} (h : s.Undisturbed) (code : Nat) (regs : List Reg) (slots : State → Bytes → List Nat) :
    s.mbxUses code regs slots = s := by
  unfold State.mbxUses
  split
  · rw [State.each_of_fixed (f := State.sweepReg) fun r => sweepReg_of_good (h.shadows r)]
    exact State.each_of_fixed (fun a => sweepSlot_of_good (h.slots a)) _
  · rfl

theorem State.Undisturbed.mbxRunWrite {s : State} (h : s.Undisturbed) (row : MbxRow) (f : State → Nat → Bytes → State) :
    s.mbxRunWrite row f = s.mbxRun row f := by simp [State.mbxRunWrite, h.dip]

theorem State.Undisturbed.mbxRunSlots {s : State} (h : s.Undisturbed) (row : MbxRow) (slots : State → Bytes → List Nat)
    (f : State → Nat → Bytes → State) : s.mbxRunSlots row slots f = s.mbxRun row f := by rw [State.mbxRunSlots, h.mbxUses]

theorem State.Undisturbed.mbxRunChange {s : State} (h : s.Undisturbed) (row : MbxRow) (slots : State → Bytes → List Nat)
    (f : State → Nat → Bytes → State) : s.mbxRunChange row slots f = s.mbxRun row f := by
  have hfree : ¬ 2048 ≤ s.journalUsed := Nat.not_le.2 h.journal
  simp [State.mbxRunChange, hfree, h.mbxRunSlots]

theorem State.Undisturbed.mbxRunVault {s : State} (h : s.Undisturbed) (row : MbxRow) (slots : State → Bytes → List Nat)
    (f : State → Nat → Bytes → State) : s.mbxRunVault row slots f = s.mbxRun row f := by
  simp [State.mbxRunVault, h.dip, h.mbxRunSlots]

/-! ### Each command runs by its row -/

/-- The command `i` runs in `s` as one of its row: `f` is what it does. -/
def RunsAs (i : Instr) (s : State) (x : MbxRow) (f : State → Nat → Bytes → Option State) : Prop :=
  ∃ row : MbxRow, exec i s = .next (s.mbxTry row f) ∧ row.code = x.code ∧ row.chans = x.chans ∧ (∀ d, d ∈ row.states ↔ d ∈ x.states) ∧ row.okLen = x.okLen

/-- The command runs by the row as it stands. -/
theorem RunsAs.of_eq {i : Instr} {s t : State} {row : MbxRow} {f : State → Nat → Bytes → Option State} (h : exec i s = .next t)
    (ht : t = s.mbxTry row f) : RunsAs i s row f := ⟨row, ht ▸ h, rfl, rfl, fun _ => Iff.rfl, rfl⟩

theorem RunsAs.refused {i : Instr} {s : State} {x : MbxRow} {f : State → Nat → Bytes → Option State} {ch y : Nat} (h : RunsAs i s x f)
    (hhead : s.mbxHead = some ch) (hcode : s.mbxCode ch = x.code) (hy : s.rowRefuses x ch = some y) :
    exec i s = .next ((s.mbxTaken ch).mbxDone ch y 0 []) := by
  obtain ⟨row, hexec, hrow, hchans, hstates, hlen⟩ := h
  rw [hexec, mbxTry_refused hhead (hcode.trans hrow.symm) ((rowRefuses_congr s ch hchans hstates hlen).trans hy)]

theorem RunsAs.served {i : Instr} {s : State} {x : MbxRow} {f : State → Nat → Bytes → Option State} {ch : Nat} (h : RunsAs i s x f)
    (hhead : s.mbxHead = some ch) (hcode : s.mbxCode ch = x.code) (hy : s.rowRefuses x ch = none) :
    exec i s = .next ((f (s.mbxTaken ch) ch (s.mbxRequest ch)).getD s) := by
  obtain ⟨row, hexec, hrow, hchans, hstates, hlen⟩ := h
  rw [hexec, mbxTry_served hhead (hcode.trans hrow.symm) ((rowRefuses_congr s ch hchans hstates hlen).trans hy)]

/-- What a mailbox command does once it runs. -/
def mbxEffect : Instr → State → Nat → Bytes → Option State
  | .mbxPut => fun s ch r => some (s.putStaging ch r)
  | .rigStage d => fun s ch r => some (State.rigStage d s ch r)
  | .rigCheck => fun s ch r => some (s.rigCheckCmd ch r)
  | .rigWrite => fun s ch r => some (s.rigWrite ch r)
  | .rigPartial => fun s ch r => some (s.rigPartialCmd ch r)
  | .rigAuthRotate => fun s ch r => some (s.rigRotate ch r)
  | .rigInfo => fun s ch _ => some (s.mbxDone ch 0 0 s.rigInfoRsp)
  | .keyWrite d => fun s ch r => some (State.keyWrite d s ch r)
  | .keySetAttr => fun s ch r => some (s.keySetAttr ch r)
  | .keyDestroy => fun s ch r => some (s.keyDestroy ch r)
  | .keyGetPublic ue => fun s ch r => some (State.keyGetPublic ue s ch r)
  | .keyAttest ue => State.keyAttest ue
  | .getIdentity => State.getIdentity
  | .attestIdentity => State.attestIdentity
  | .vaultStore ue => fun s ch r => some (State.vaultStore ue s ch r)
  | .vaultLoad => fun s ch r => some (s.vaultLoad ch r)
  | .vaultErase => fun s ch r => some (s.vaultErase ch r)
  | .vaultClear => fun s ch _ => some (s.waitPresence ch)
  | .vaultInfo => fun s ch r => some (s.vaultInfo ch r)
  | .zeroise => fun s ch r => some (s.zeroiseCommand ch r)
  | .lcStatus => fun s ch _ => some (s.mbxDone ch 0 0 s.lcStatusRsp)
  | .lcAdvance => fun s ch r => some (s.lcAdvance ch r)
  | .dbgChallenge => State.dbgChallenge
  | .dbgOpen => fun s ch r => some (s.dbgOpen ch r)
  | .dbgClose => fun s ch r => some (s.dbgClose ch r)
  | .dbgSetAuth => fun s ch r => some (s.dbgSetAuth ch r)
  | .dbgRevoke => fun s ch r => some (s.dbgRevoke ch r)
  | .restart => fun s ch r => some (s.restartCmd ch r)
  | .fwWrite d ok => fun s ch r => some (State.writePart true d ok s ch r)
  | .patchWrite d ok => fun s ch r => some (State.writePart false d ok s ch r)
  | .bootInfo => fun s ch _ => some (s.mbxDone ch 0 0 s.bootInfoRsp)
  | _ => fun s _ _ => some s

theorem RunsAs.run {i : Instr} {s t : State} {row x : MbxRow} {f : State → Nat → Bytes → Option State} (h : exec i s = .next t)
    (ht : t = s.mbxTry row f) (hcode : row.code = x.code) (hchans : row.chans = x.chans) (hstates : ∀ d, d ∈ row.states ↔ d ∈ x.states)
    (hlen : row.okLen = x.okLen) : RunsAs i s x f := ⟨row, ht ▸ h, hcode, hchans, hstates, hlen⟩

/-- Every mailbox command that is not held up runs by its row. -/
theorem runsAs {i : Instr} {x : MbxRow} {s : State} {ch : Nat} (hrow : mbxRow i = some x) (h : s.Undisturbed) (hhead : s.mbxHead = some ch) :
    RunsAs i s x (mbxEffect i) := by
  have huses := h.mbxUses
  have hdip : s.tamper.dip.isSome = false := by simp [h.dip]
  unfold mbxRow at hrow
  split at hrow <;> cases hrow
  case h_2 | h_3 | h_4 | h_5 | h_6 | h_7 | h_17 | h_18 | h_19 | h_28 => exact .of_eq rfl rfl
  case h_1 | h_20 | h_31 => exact .run rfl rfl rfl rfl (by simp [anyState]; omega) rfl
  case h_12 | h_21 | h_23 | h_24 | h_25 | h_26 | h_27 => exact .of_eq rfl (by rw [huses]; rfl)
  case h_22 => exact .run (row := ⟨0x0402, [0, 1], [5, 1, 3], (· == 4)⟩) rfl (by rw [huses]; rfl) rfl rfl (by simp; omega) rfl
  case h_15 | h_16 | h_29 | h_30 => exact .of_eq rfl (h.mbxRunWrite _ _)
  case h_11 => exact .of_eq rfl (h.mbxRunSlots _ _ _)
  case h_13 => exact .of_eq rfl (h.mbxRunVault _ _ _)
  case h_8 | h_9 => exact .of_eq rfl (h.mbxRunChange _ _ _)
  case h_10 =>
    refine .of_eq (t := s.mbxRunChange ⟨0x0303, [0], [1], (· == 8)⟩ State.destroyed State.keyDestroy) ?_ (h.mbxRunChange _ _ _)
    change execKeyDestroy s = _
    simp [execKeyDestroy, hhead, hdip]
  case h_14 =>
    refine .of_eq rfl ?_
    rw [hdip, Bool.false_and, if_neg (by simp)]
    exact h.mbxRunChange _ _ _

/-! ### Refusals -/

/-- What a row refuses, check by check. -/
theorem rowRefuses_channel {s : State} {x : MbxRow} {ch : Nat} (hch : ch ∉ x.chans) (hst : s.devState ∉ [5, 6, 15] ∨ s.devState ∈ x.states) :
    s.rowRefuses x ch = some 0x32 := by
  unfold State.rowRefuses
  rw [if_neg fun h => hst.elim (fun hn => hn h.1) h.2, if_pos hch]

theorem rowRefuses_state {s : State} {x : MbxRow} {ch : Nat} (hch : ch ∈ x.chans ∨ s.devState ∈ [5, 6, 15]) (hst : s.devState ∉ x.states) :
    s.rowRefuses x ch = some 0x25 := by
  unfold State.rowRefuses
  by_cases hfew : s.devState ∈ [5, 6, 15]
  · rw [if_pos ⟨hfew, hst⟩]
  · rw [if_neg fun h => hfew h.1, if_neg (not_not.2 (hch.resolve_right hfew)), if_pos hst]

theorem rowRefuses_length {s : State} {x : MbxRow} {ch : Nat} (hch : ch ∈ x.chans) (hst : s.devState ∈ x.states)
    (hlen : x.okLen (s.mbxRequest ch).length = false) : s.rowRefuses x ch = some 0x31 := by
  unfold State.rowRefuses
  rw [if_neg fun h => h.2 hst, if_neg (not_not.2 hch), if_neg (not_not.2 hst), if_pos (by simp [hlen])]

theorem rowRefuses_none {s : State} {x : MbxRow} {ch : Nat} (hch : ch ∈ x.chans) (hst : s.devState ∈ x.states)
    (hlen : x.okLen (s.mbxRequest ch).length = true) : s.rowRefuses x ch = none := by
  unfold State.rowRefuses
  rw [if_neg fun h => h.2 hst, if_neg (not_not.2 hch), if_neg (not_not.2 hst), if_neg (by simp [hlen])]

/-- A command turned away ends, and stores nothing. -/
theorem refused_answered {i : Instr} {x : MbxRow} {s : State} {ch y : Nat} (hrow : mbxRow i = some x) (h : s.Undisturbed) (hhead : s.mbxHead = some ch)
    (hcode : s.mbxCode ch = x.code) (hy : s.rowRefuses x ch = some y) (hsmall : y < 256) :
    ∃ t, exec i s = .next t ∧ t.Answered ch y 0 [] ∧ KeepsStores s t := by
  refine ⟨_, (runsAs hrow h hhead).refused hhead hcode hy, ?_, ?_⟩
  · have hends := mbxDone_answered (mbxTaken_noUnknown s ch) y 0 []
    rwa [Nat.mod_eq_of_lt hsmall] at hends
  · exact ((mbxTaken_only s ch).trans (mbxDone_only _ _ _ _ _)).keepsStores

/-! ### A rig command beside another -/

/-- A rig command of the other channel has its turn beside the one in progress. -/
theorem mbxTurn_beside {s : State} {b ch : Nat} {rest : List Nat} (hserves : s.mbxServes = true) (hbusy : s.mbx.busy = some b)
    (hqueue : s.mbx.queue = ch :: rest) (hrigb : rigWork (s.mbxCode b) = true) (hrig : rigWork (s.mbxCode ch) = true)
    (hwaits : s.bit (.mbxStatus b) 2 = false) : s.mbxTurn (s.mbxCode ch) = some ch := by
  simp [State.mbxTurn, State.mbxHead, State.mbxBeside, hserves, hbusy, hqueue, hrigb, hrig, hwaits]

/-- The state in which a command beside another one runs. -/
def State.mbxBesideTaken (s : State) (ch : Nat) : State :=
  ({ s with mbx := { s.mbx with queue := s.mbx.queue.filter (· ≠ ch) } } : State).setFld (.mbxStatus ch) 1 0 2

theorem mbxTry_beside {s : State} {row : MbxRow} {b ch : Nat} (hturn : s.mbxTurn row.code = some ch) (hbusy : s.mbx.busy = some b)
    (hx : s.rowRefuses row ch = none) (f : State → Nat → Bytes → State) :
    s.mbxRun row f = f (s.mbxBesideTaken ch) ch (s.mbxRequest ch) := by
  have hhead : s.mbxHead = none := by simp [State.mbxHead, hbusy]
  simp only [State.mbxRun, State.mbxTry, hturn, hx, hhead]
  rfl

theorem mbxBesideTaken_noUnknown (s : State) (ch : Nat) : (s.mbxBesideTaken ch).NoUnknown ch := .inl (by simp [State.mbxBesideTaken])

theorem mbxBesideTaken_only (s : State) (ch : Nat) : MailboxOnly s (s.mbxBesideTaken ch) := (MailboxOnly.setMbx s _).trans (.store rfl _ _)

/-- While a command runs, the SC takes no other. -/
theorem mbxSkip_of_busy {s : State} {b : Nat} (h : s.mbx.busy = some b) : s.mbxSkip = s := by
  simp [State.mbxSkip, State.mbxHead, h]

theorem mbxEnd_busy {s : State} {b ch : Nat} (h : s.mbx.busy = some b) (hne : ch ≠ b) (result detail : Nat) (rsp : Bytes) :
    (s.mbxEnd ch result detail rsp).mbx.busy = some b := by
  rw [mbxEnd_mbx]
  simp [State.mbxEndMbx, h, hne.symm]

theorem mbxDone_busy {s : State} {b ch : Nat} (h : s.mbx.busy = some b) (hne : ch ≠ b) (result detail : Nat) (rsp : Bytes) :
    (s.mbxDone ch result detail rsp).mbx.busy = some b := by
  have hend := mbxEnd_busy h hne result detail rsp
  rw [State.mbxDone, State.mbxNext, mbxSkip_of_busy hend, mbxSkip_of_busy hend]
  exact hend

/-- A rig command beside another one is BUSY. -/
theorem rigBusy_answered {s : State} {row : MbxRow} {b ch : Nat} {f : State → Nat → Bytes → State} (hturn : s.mbxTurn row.code = some ch)
    (hbusy : s.mbx.busy = some b) (hne : ch ≠ b) (hx : s.rowRefuses row ch = none)
    (hf : f (s.mbxBesideTaken ch) ch (s.mbxRequest ch) = (s.mbxBesideTaken ch).mbxDone ch 0x23 0 []) :
    (s.mbxRun row f).Answered ch 0x23 0 [] ∧ (s.mbxRun row f).mbx.busy = some b ∧ KeepsStores s (s.mbxRun row f) := by
  rw [mbxTry_beside hturn hbusy hx, hf]
  exact ⟨mbxDone_answered (mbxBesideTaken_noUnknown s ch) 0x23 0 [], mbxDone_busy (s := s.mbxBesideTaken ch) hbusy hne _ _ _,
    ((mbxBesideTaken_only s ch).trans (mbxDone_only _ _ _ _ _)).keepsStores⟩

theorem mailboxRefusals_beside {s : State} {b ch : Nat} {rest : List Nat} (hserves : s.mbxServes = true) (hbusy : s.mbx.busy = some b)
    (hqueue : s.mbx.queue = ch :: rest) (hne : ch ≠ b) (hch : ch < 2) (hlo : 0x0201 ≤ s.mbxCode b) (hhi : s.mbxCode b ≤ 0x0205)
    (hwaits : s.bit (.mbxStatus b) 2 = false) (hdev : s.devState = 1) (hreq : s.mbxRequest ch = []) :
    ∀ i ∈ [Instr.rigCheck, .rigWrite, .rigPartial, .rigAuthRotate], (mbxRow i).any (fun x => s.mbxCode ch == x.code) = true →
      ∃ t, exec i s = .next t ∧ t.Answered ch 0x23 0 [] ∧ t.mbx.busy = some b ∧ KeepsStores s t := by
  have hrigb : rigWork (s.mbxCode b) = true := by simp [rigWork, hlo, hhi]
  have hin : ch ∈ [0, 1] := by
    simp only [List.mem_cons, List.not_mem_nil, or_false]
    omega
  have hturn (hrig : rigWork (s.mbxCode ch) = true) := mbxTurn_beside hserves hbusy hqueue hrigb hrig hwaits
  have hother : (s.mbxBesideTaken ch).mbx.busy ≠ some ch := fun h => hne (Option.some.inj (h.symm.trans hbusy))
  have hrigBusy : (s.mbxBesideTaken ch).rigBusy ch = true := by simp [State.rigBusy, hother]
  have hrow (states : List Nat) (hone : 1 ∈ states) (code : Nat) : s.rowRefuses ⟨code, [0, 1], states, (· == 0)⟩ ch = none :=
    rowRefuses_none hin (hdev ▸ hone) (by simp [hreq])
  intro i hi hcode
  simp only [List.mem_cons, List.not_mem_nil, or_false] at hi
  rcases hi with rfl | rfl | rfl | rfl <;> simp only [mbxRow, Option.any_some, beq_iff_eq] at hcode
  case inl =>
    exact ⟨_, rfl, rigBusy_answered (hcode ▸ hturn (by simp [rigWork, hcode])) hbusy hne (hrow _ (by simp) _) (by
      rw [State.rigCheckCmd, if_pos (.inr hother)])⟩
  case inr.inl =>
    exact ⟨_, rfl, rigBusy_answered (hcode ▸ hturn (by simp [rigWork, hcode])) hbusy hne (hrow _ (by simp) _) (by
      simp only [State.rigWrite, hrigBusy, if_true])⟩
  case inr.inr.inl =>
    exact ⟨_, rfl, rigBusy_answered (hcode ▸ hturn (by simp [rigWork, hcode])) hbusy hne (hrow _ (by simp) _) (by
      simp only [State.rigPartialCmd, hrigBusy, if_true])⟩
  case inr.inr.inr =>
    exact ⟨_, rfl, rigBusy_answered (hcode ▸ hturn (by simp [rigWork, hcode])) hbusy hne (hrow _ (by simp) _) (by
      simp only [State.rigRotate, hrigBusy, if_true])⟩

theorem tget_filter_self {α β : Type} [DecidableEq α] (d : β) (k : α) (l : List (α × β)) : tget d k (l.filter (fun e => e.1 ≠ k)) = d := by
  induction l with
  | nil => rfl
  | cons e l ih =>
    by_cases h : e.1 = k
    · simpa [h] using ih
    · simpa [h, tget] using ih

/-- CLEAR of a channel that is DONE. -/
theorem mbxClear_spec {s : State} {ch : Nat} (hshown : s.hidden (.mbxCtrl ch) = false) (hdone : s.mbxState ch = 3) :
    ∃ t, exec (.mbxClear ch) s = .next t ∧ t.mbxState ch = 0 ∧ tget [] ch t.mbx.rsp = [] ∧ t.rd (.mbxRspLen ch) = 0 ∧ KeepsStores s t := by
  refine ⟨_, congrArg Host.Outcome.next ((hostTo_of_shown hshown _).trans (if_neg (not_not.2 hdone))), ?_, ?_, ?_, ?_⟩
  · refine (congrArg (getF · 1 0) (State.rd_wr_ne _ _ (by simp))).trans ?_
    exact State.fld_setFld _ _ _ _ _ (by decide) (by decide)
  · exact tget_filter_self _ _ _
  · simp
  · exact MailboxOnly.keepsStores ((MailboxOnly.setMbx s _).trans ((MailboxOnly.store rfl _ _).trans (.store rfl _ _)))

/-- Settles O40, by the row of each command, by the turn beside another rig command, and by CLEAR's own effect. -/
theorem mailboxRefusals : Obligations.MailboxRefusals := by
  refine ⟨fun i x s ch hrow hhead hcode hslots hshadows hjournal hdip _ _ => ?_, fun s b ch rest => mailboxRefusals_beside, fun s ch => mbxClear_spec⟩
  have hgood : s.Undisturbed := ⟨hslots, hshadows, hjournal, hdip⟩
  exact ⟨fun hch hst => refused_answered hrow hgood hhead hcode (rowRefuses_channel hch hst) (by decide),
    fun hch hst => refused_answered hrow hgood hhead hcode (rowRefuses_state hch hst) (by decide),
    fun hch hst hlen => refused_answered hrow hgood hhead hcode (rowRefuses_length hch hst hlen) (by decide)⟩

end Sys2Proof.Machine
end

section
/-! PROOFS. Mailbox commands that are served, and the parts of firmware and patches (O45). -/

namespace Sys2Proof.Machine

/-! ### A command that is served -/

theorem State.Serves.undisturbed {s : State} {i : Instr} {ch : Nat} {r : Bytes} (h : s.Serves i ch r) : s.Undisturbed :=
  ⟨h.slots, h.shadows, h.journal, h.dip⟩

/-- A command that is served has its effect. -/
theorem State.Serves.run {s : State} {i : Instr} {ch : Nat} {r : Bytes} (h : s.Serves i ch r) :
    exec i s = .next ((mbxEffect i (s.mbxTaken ch) ch r).getD s) := by
  obtain ⟨x, hrow, hcode, hch, hdev, hlen⟩ := h.row
  have hnone := rowRefuses_none (s := s) hch hdev (h.request.symm ▸ hlen)
  rw [(runsAs hrow h.undisturbed h.head).served h.head hcode hnone, h.request]

theorem State.Serves.run_of {s t : State} {i : Instr} {ch : Nat} {r : Bytes} (h : s.Serves i ch r) (ht : mbxEffect i (s.mbxTaken ch) ch r = some t) :
    exec i s = .next t := by rw [h.run, ht, Option.getD_some]

theorem mbxTaken_keeps (s : State) (ch : Nat) : KeepsStores s (s.mbxTaken ch) := (mbxTaken_only s ch).keepsStores

theorem KeepsStores.trans {s t u : State} (h : KeepsStores s t) (h' : KeepsStores t u) : KeepsStores s u where
  slots := h'.slots.trans h.slots
  cells := h'.cells.trans h.cells
  jobs := h'.jobs.trans h.jobs
  tiles := h'.tiles.trans h.tiles
  sram := h'.sram.trans h.sram
  otp := h'.otp.trans h.otp
  bbram := h'.bbram.trans h.bbram
  flash := h'.flash.trans h.flash
  rig := h'.rig.trans h.rig

theorem mbxDone_keeps (s : State) (ch result detail : Nat) (rsp : Bytes) : KeepsStores s (s.mbxDone ch result detail rsp) :=
  (mbxDone_only s ch result detail rsp).keepsStores

/-- The rest of the mailbox's state: what the end of a command leaves. -/
theorem mbxEnd_session (s : State) (ch result detail : Nat) (rsp : Bytes) : (s.mbxEnd ch result detail rsp).mbx.session = s.mbx.session := by
  rw [mbxEnd_mbx]
  rfl

theorem mbxSkip_session (s : State) : s.mbxSkip.mbx.session = s.mbx.session := by
  unfold State.mbxSkip
  split
  · split
    · rfl
    · exact mbxEnd_session _ _ _ _ _
  · rfl

theorem mbxDone_session (s : State) (ch result detail : Nat) (rsp : Bytes) : (s.mbxDone ch result detail rsp).mbx.session = s.mbx.session :=
  (mbxSkip_session _).trans ((mbxSkip_session _).trans (mbxEnd_session s ch result detail rsp))

/-! ### Parts of a session -/

/-- What a part of a session is accepted for: its layout, and bytes that can be read. -/
structure State.PartOk (s : State) (fw : Bool) (ch : Nat) (r bs : Bytes) (d : DmaResult) : Prop where
  some_bytes : 0 < leAt r 8 4
  few_bytes : leAt r 8 4 ≤ 0x400000
  staged : leAt r 0 8 = stagingAddr → leAt r 8 4 ≤ stagingSize
  i3c : ch = 1 → leAt r 0 8 = stagingAddr
  flags : leAt r 16 1 < 4
  zeros : allZero (slice r 17 3) = true
  fits : leAt r 12 4 + leAt r 8 4 ≤ (if fw then 0x400000 else 24237)
  quiet : s.reRig = none
  data : s.requestData (leAt r 0 8) (leAt r 8 4) d = some bs

/-- The end of the part whose copy is `copy` and whose bytes, with those before it, are `image`. -/
def State.endPartOf (s : State) (fw last : Bool) (ch copy : Nat) (image : Bytes) : State :=
  if !last then ({ s with mbx := { s.mbx with session := some ⟨ch, copy, image⟩ } } : State).mbxDone ch 0 image.length []
  else match ({ s with mbx := { s.mbx with session := none } } : State).imageFail fw image with
    | some e => ({ s with mbx := { s.mbx with session := none } } : State).mbxDone ch e.1 e.2 []
    | none => (({ s with mbx := { s.mbx with session := none } } : State).setCopy copy image).mbxDone ch 0 image.length []

theorem State.PartOk.layout {s : State} {fw : Bool} {ch : Nat} {r bs : Bytes} {d : DmaResult} (h : s.PartOk fw ch r bs d)
    (hfirst : (leAt r 16 1).testBit 0 = true → leAt r 12 4 = 0) :
    ¬ (leAt r 8 4 = 0 ∨ 0x400000 < leAt r 8 4 ∨ (leAt r 0 8 = stagingAddr ∧ stagingSize < leAt r 8 4) ∨ (ch = 1 ∧ leAt r 0 8 ≠ stagingAddr) ∨
      4 ≤ leAt r 16 1 ∨ (!allZero (slice r 17 3)) = true ∨ ((leAt r 16 1).testBit 0 = true ∧ leAt r 12 4 ≠ 0) ∨
      (if fw then 0x400000 else 24237) < leAt r 12 4 + leAt r 8 4) := by
  rintro (h1 | h1 | h1 | h1 | h1 | h1 | h1 | h1)
  · exact absurd h.some_bytes (by omega)
  · exact absurd h.few_bytes (by omega)
  · exact absurd (h.staged h1.1) (by omega)
  · exact h1.2 (h.i3c h1.1)
  · exact absurd h.flags (by omega)
  · simp [h.zeros] at h1
  · exact h1.2 (hfirst h1.1)
  · exact absurd h.fits (by omega)

/-- The first part of a session empties the copy it writes. -/
theorem writePart_first {s : State} {fw : Bool} {ch : Nat} {r bs : Bytes} {d : DmaResult} (h : s.PartOk fw ch r bs d)
    (hfirst : (leAt r 16 1).testBit 0 = true) (hoff : leAt r 12 4 = 0) (hnone : s.mbx.session = none) :
    State.writePart fw d true s ch r = (s.setCopy (if fw then s.fwTarget else s.patchTarget) []).endPartOf fw ((leAt r 16 1).testBit 1) ch
      (if fw then s.fwTarget else s.patchTarget) bs := by
  unfold State.writePart
  dsimp only
  rw [if_neg (h.layout fun _ => hoff), hfirst, hnone, h.quiet, if_neg (by simp), if_neg (by simp), h.data]
  rfl

/-- A later part adds its bytes to the session's. -/
theorem writePart_later {s : State} {fw : Bool} {ch : Nat} {r bs : Bytes} {d : DmaResult} {x : Session} (h : s.PartOk fw ch r bs d)
    (hlater : (leAt r 16 1).testBit 0 = false) (hsome : s.mbx.session = some x) (hch : x.ch = ch) (hkind : decide (x.copy < 2) = fw)
    (hoff : x.bytes.length = leAt r 12 4) :
    State.writePart fw d true s ch r = s.endPartOf fw ((leAt r 16 1).testBit 1) ch x.copy (x.bytes ++ bs) := by
  have hmine : s.mbx.session.filter (fun x => x.ch == ch && decide (x.copy < 2) == fw) = some x := by
    rw [hsome, Option.filter_some, hch, hkind]
    simp
  unfold State.writePart
  dsimp only
  rw [if_neg (h.layout fun hf => by simp [hf] at hlater), hlater, hmine, h.quiet, if_neg (by simp), if_neg (by simp [hoff]), h.data]
  rfl

theorem imageFail_congr {s t : State} (hregs : t.regs = s.regs) (hotp : t.otp = s.otp) (hboot : t.boot = s.boot) (fw : Bool) (i : Bytes) :
    t.imageFail fw i = s.imageFail fw i := by
  have ht : t = { t with regs := s.regs, otp := s.otp, boot := s.boot } := by
    rw [← hregs, ← hotp, ← hboot]
  rw [ht]
  rfl

/-- The effect of a write of firmware or of a patch. -/
theorem writePart_run {s : State} {fw : Bool} {ch : Nat} {r : Bytes} {d : DmaResult}
    (h : s.Serves (if fw then .fwWrite d else .patchWrite d) ch r) :
    exec (if fw then .fwWrite d else .patchWrite d) s = .next (State.writePart fw d true (s.mbxTaken ch) ch r) := by
  refine h.run_of ?_
  cases fw <;> rfl

/-- A session's end leaves everything but flash, and is answered. -/
theorem endPartOf_last {s : State} {fw : Bool} {ch copy : Nat} {image : Bytes} (hno : s.NoUnknown ch) :
    (s.endPartOf fw true ch copy image).mbx.session = none ∧ (s.endPartOf fw true ch copy image).slots = s.slots ∧
      (s.endPartOf fw true ch copy image).rig = s.rig ∧
      match s.imageFail fw image with
      | some e => (s.endPartOf fw true ch copy image).Answered ch (e.1 % 256) e.2 [] ∧ (s.endPartOf fw true ch copy image).flash = s.flash
      | none => (s.endPartOf fw true ch copy image).Answered ch 0 image.length [] ∧ (s.endPartOf fw true ch copy image).copyAt copy = image := by
  have hfail : ({ s with mbx := { s.mbx with session := none } } : State).imageFail fw image = s.imageFail fw image := imageFail_congr rfl rfl rfl fw image
  unfold State.endPartOf
  rw [hfail, Bool.not_true, if_neg (by simp)]
  cases s.imageFail fw image with
  | some e =>
    dsimp only
    have hkeeps := mbxDone_keeps { s with mbx := { s.mbx with session := none } } ch e.1 e.2 []
    exact ⟨mbxDone_session _ _ _ _ _, hkeeps.slots, hkeeps.rig, mbxDone_answered (s := { s with mbx := { s.mbx with session := none } }) hno e.1 e.2 [], hkeeps.flash⟩
  | none =>
    dsimp only
    have hkeeps := mbxDone_keeps (({ s with mbx := { s.mbx with session := none } } : State).setCopy copy image) ch 0 image.length []
    refine ⟨mbxDone_session _ _ _ _ _, hkeeps.slots, hkeeps.rig, mbxDone_answered (s := ({ s with mbx := { s.mbx with session := none } } : State).setCopy copy image) hno 0
      image.length [], ?_⟩
    rw [State.copyAt, hkeeps.flash, State.setCopy, tget_tset, if_pos rfl]

/-- A part that is not the last goes into the session. -/
theorem endPartOf_open {s : State} {fw : Bool} {ch copy : Nat} {image : Bytes} (hno : s.NoUnknown ch) :
    (s.endPartOf fw false ch copy image).mbx.session = some ⟨ch, copy, image⟩ ∧ (s.endPartOf fw false ch copy image).Answered ch 0 image.length [] ∧
      (s.endPartOf fw false ch copy image).flash = s.flash ∧ (s.endPartOf fw false ch copy image).slots = s.slots := by
  unfold State.endPartOf
  rw [Bool.not_false, if_pos rfl]
  have hkeeps := mbxDone_keeps { s with mbx := { s.mbx with session := some ⟨ch, copy, image⟩ } } ch 0 image.length []
  exact ⟨mbxDone_session _ _ _ _ _, mbxDone_answered (s := { s with mbx := { s.mbx with session := some ⟨ch, copy, image⟩ } }) hno 0 image.length [], hkeeps.flash, hkeeps.slots⟩

section
variable {fw : Bool} {s : State} {ch : Nat} {r bs : Bytes} {d : DmaResult} (hserves : s.Serves (if fw then .fwWrite d else .patchWrite d) ch r)
  (hok : (s.mbxTaken ch).PartOk fw ch r bs d)
include hserves hok

theorem part_first_open (hkind : leAt r 16 1 = 1) (hoff : leAt r 12 4 = 0) (hnone : s.mbx.session = none) :
    ∃ t, exec (if fw then .fwWrite d else .patchWrite d) s = .next t ∧
      t.mbx.session = some ⟨ch, if fw then (s.mbxTaken ch).fwTarget else (s.mbxTaken ch).patchTarget, bs⟩ ∧ t.Answered ch 0 bs.length [] ∧
      t.copyAt (if fw then (s.mbxTaken ch).fwTarget else (s.mbxTaken ch).patchTarget) = [] ∧ t.slots = s.slots := by
  refine ⟨_, writePart_run hserves, ?_⟩
  rw [writePart_first hok (by rw [hkind]; rfl) hoff hnone, hkind]
  obtain ⟨hsession, hanswer, hflash, hslots⟩ := endPartOf_open (fw := fw) (image := bs)
    (s := (s.mbxTaken ch).setCopy (if fw then (s.mbxTaken ch).fwTarget else (s.mbxTaken ch).patchTarget) [])
    (copy := if fw then (s.mbxTaken ch).fwTarget else (s.mbxTaken ch).patchTarget) (mbxTaken_noUnknown s ch)
  refine ⟨hsession, hanswer, ?_, hslots⟩
  refine (congrArg (tget [] _) hflash).trans ?_
  rw [State.setCopy, tget_tset, if_pos rfl]

theorem part_later_open {x : Session} (hkind : leAt r 16 1 = 0) (hsome : s.mbx.session = some x) (hch : x.ch = ch) (hfw : decide (x.copy < 2) = fw)
    (hoff : x.bytes.length = leAt r 12 4) :
    ∃ t, exec (if fw then .fwWrite d else .patchWrite d) s = .next t ∧ t.mbx.session = some ⟨ch, x.copy, x.bytes ++ bs⟩ ∧
      t.Answered ch 0 (x.bytes ++ bs).length [] ∧ t.flash = s.flash := by
  refine ⟨_, writePart_run hserves, ?_⟩
  rw [writePart_later hok (by rw [hkind]; rfl) hsome hch hfw hoff, hkind]
  obtain ⟨hsession, hanswer, hflash, -⟩ := endPartOf_open (s := s.mbxTaken ch) (fw := fw) (copy := x.copy) (image := x.bytes ++ bs) (mbxTaken_noUnknown s ch)
  exact ⟨hsession, hanswer, hflash⟩

theorem part_later_last {x : Session} (hkind : leAt r 16 1 = 2) (hsome : s.mbx.session = some x) (hch : x.ch = ch) (hfw : decide (x.copy < 2) = fw)
    (hoff : x.bytes.length = leAt r 12 4) :
    ∃ t, exec (if fw then .fwWrite d else .patchWrite d) s = .next t ∧ t.mbx.session = none ∧ t.slots = s.slots ∧ t.rig = s.rig ∧
      match (s.mbxTaken ch).imageFail fw (x.bytes ++ bs) with
      | some e => t.Answered ch (e.1 % 256) e.2 [] ∧ t.flash = s.flash
      | none => t.Answered ch 0 (x.bytes ++ bs).length [] ∧ t.copyAt x.copy = x.bytes ++ bs := by
  refine ⟨_, writePart_run hserves, ?_⟩
  rw [writePart_later hok (by rw [hkind]; rfl) hsome hch hfw hoff, hkind]
  exact endPartOf_last (s := s.mbxTaken ch) (mbxTaken_noUnknown s ch)

theorem part_only (hkind : leAt r 16 1 = 3) (hoff : leAt r 12 4 = 0) (hnone : s.mbx.session = none) :
    ∃ t, exec (if fw then .fwWrite d else .patchWrite d) s = .next t ∧ t.mbx.session = none ∧ t.slots = s.slots ∧ t.rig = s.rig ∧
      match (s.mbxTaken ch).imageFail fw bs with
      | some e => t.Answered ch (e.1 % 256) e.2 [] ∧ t.copyAt (if fw then (s.mbxTaken ch).fwTarget else (s.mbxTaken ch).patchTarget) = []
      | none => t.Answered ch 0 bs.length [] ∧ t.copyAt (if fw then (s.mbxTaken ch).fwTarget else (s.mbxTaken ch).patchTarget) = bs := by
  refine ⟨_, writePart_run hserves, ?_⟩
  rw [writePart_first hok (by rw [hkind]; rfl) hoff hnone, hkind, show Nat.testBit 3 1 = true from rfl]
  obtain ⟨hsession, hslots, hrig, hend⟩ := endPartOf_last (fw := fw) (image := bs)
    (s := (s.mbxTaken ch).setCopy (if fw then (s.mbxTaken ch).fwTarget else (s.mbxTaken ch).patchTarget) [])
    (copy := if fw then (s.mbxTaken ch).fwTarget else (s.mbxTaken ch).patchTarget) (mbxTaken_noUnknown s ch)
  refine ⟨hsession, hslots, hrig, ?_⟩
  rw [imageFail_congr (s := s.mbxTaken ch) (t := (s.mbxTaken ch).setCopy (if fw then (s.mbxTaken ch).fwTarget else (s.mbxTaken ch).patchTarget) [])
    rfl rfl rfl] at hend
  cases hfail : (s.mbxTaken ch).imageFail fw bs with
  | none => simpa only [hfail] using hend
  | some e =>
    dsimp only
    simp only [hfail] at hend
    refine ⟨hend.1, (congrArg (tget [] _) hend.2).trans ?_⟩
    rw [State.setCopy, tget_tset, if_pos rfl]

end

theorem length_bootInfoRsp (s : State) : s.bootInfoRsp.length = 32 := by
  simp [State.bootInfoRsp, length_leBytes, b1, zeros]

/-- BOOT_INFO reports. -/
theorem bootInfo_spec {s : State} {ch : Nat} (h : s.Serves .bootInfo ch []) :
    ∃ t, exec .bootInfo s = .next t ∧ t.Answered ch 0 0 (s.mbxTaken ch).bootInfoRsp ∧ s.bootInfoRsp.length = 32 ∧ KeepsStores s t :=
  ⟨_, h.run_of rfl, mbxDone_answered (mbxTaken_noUnknown s ch) 0 0 _, length_bootInfoRsp s, (mbxTaken_keeps s ch).trans (mbxDone_keeps _ _ _ _ _)⟩

end Sys2Proof.Machine
end

section
/-! PROOFS. Work that completes: what the completion of a job changes, and what stands. -/

namespace Sys2Proof.Machine

/-! ### Work -/

/-- The registers that jobs' ends, completions and the queues change. -/
def Reg.ofWork (r : Reg) : Bool :=
  r.ofUnits || r.ofQueues || match r with
    | .slmSliceStat _ | .slmSliceCtrl _ | .slmSliceCancelCnt _ | .fabPoolDone _ | .bneGrpDone _ | .hsfPartDone _ | .fabIslJobs _ => true
    | _ => false

/-- From `s` to `t` jobs end or complete: beside them, what their ends, results and entries touch. -/
structure WorkOnly (s t : State) : Prop where
  regs : ∀ r, r.ofWork = false → t.rd r = s.rd r
  rest : ({ t with regs := s.regs, shadow := s.shadow, out := s.out, msixPend := s.msixPend, freeCtr := s.freeCtr, tiles := s.tiles
                   hcores := s.hcores, bcores := s.bcores, rng := s.rng, jobs := s.jobs, cells := s.cells, ddr := s.ddr, qx := s.qx
                   reported := s.reported, slots := s.slots, fills := s.fills, memo := s.memo, hmac := s.hmac
                   tamper := { t.tamper with slotsDue := s.tamper.slotsDue } } : State) = s
  sound : s.Sound → t.Sound

theorem Reg.ofWork_of_units {r : Reg} (h : r.ofUnits = true) : r.ofWork = true := by simp [Reg.ofWork, h]
theorem Reg.ofWork_of_queues {r : Reg} (h : r.ofQueues = true) : r.ofWork = true := by simp [Reg.ofWork, h]

theorem Reg.not_ofUnits_of_ofWork {r : Reg} (h : r.ofWork = false) : r.ofUnits = false := by
  by_contra hu
  rw [Reg.ofWork_of_units (by simpa using hu)] at h
  cases h

namespace WorkOnly
variable {s t u : State}

theorem refl (s : State) : WorkOnly s s := ⟨fun _ _ => rfl, rfl, id⟩

theorem trans (h : WorkOnly s t) (h' : WorkOnly t u) : WorkOnly s u :=
  ⟨fun r hr => (h'.regs r hr).trans (h.regs r hr),
    (congrArg (fun x : State => { x with
      regs := s.regs, shadow := s.shadow, out := s.out, msixPend := s.msixPend, freeCtr := s.freeCtr, tiles := s.tiles
      hcores := s.hcores, bcores := s.bcores, rng := s.rng, jobs := s.jobs, cells := s.cells, ddr := s.ddr, qx := s.qx
      reported := s.reported, slots := s.slots, fills := s.fills, memo := s.memo, hmac := s.hmac
      tamper := { x.tamper with slotsDue := s.tamper.slotsDue } }) h'.rest).trans h.rest,
    fun hs => h'.sound (h.sound hs)⟩

theorem each {α : Type} {f : State → α → State} (hf : ∀ u a, WorkOnly u (f u a)) (s : State) (l : List α) : WorkOnly s (s.each l f) := by
  induction l generalizing s with
  | nil => exact refl s
  | cons a l ih => exact (hf s a).trans (ih (f s a))

theorem onlyIf {f : State → State} (hf : ∀ u, WorkOnly u (f u)) (s : State) (c : Bool) : WorkOnly s (s.onlyIf c f) := by
  cases c
  · exact refl s
  · exact hf s

theorem ite {c : Prop} [Decidable c] (h : WorkOnly s t) (h' : WorkOnly s u) : WorkOnly s (if c then t else u) := by
  split
  · exact h
  · exact h'

/-- A change of what a job's end may touch, with sound contents. -/
theorem of_rest (hregs : ∀ r, r.ofWork = false → t.rd r = s.rd r)
    (hrest : ({ t with
      regs := s.regs, shadow := s.shadow, out := s.out, msixPend := s.msixPend, freeCtr := s.freeCtr, tiles := s.tiles
      hcores := s.hcores, bcores := s.bcores, rng := s.rng, jobs := s.jobs, cells := s.cells, ddr := s.ddr, qx := s.qx
      reported := s.reported, slots := s.slots, fills := s.fills, memo := s.memo, hmac := s.hmac
      tamper := { t.tamper with slotsDue := s.tamper.slotsDue } } : State) = s)
    (hcells : t.cells = s.cells := by rfl) (hddr : t.ddr = s.ddr := by rfl) (htiles : t.tiles = s.tiles := by rfl) : WorkOnly s t :=
  ⟨hregs, hrest, fun hs => ⟨(congrArg State.sram hrest :) ▸ hs.sram, hddr ▸ hs.ddr, htiles ▸ hs.tiles, htiles ▸ hs.vectors, hcells ▸ hs.cells⟩⟩

theorem of_jobs (h : JobsOnly s t) : WorkOnly s t where
  regs r hr := h.regs r (Reg.not_ofUnits_of_ofWork hr)
  rest := (congrArg (fun x : State => { x with
      ddr := s.ddr, qx := s.qx, reported := s.reported, slots := s.slots, fills := s.fills, memo := s.memo, hmac := s.hmac
      tamper := { x.tamper with slotsDue := s.tamper.slotsDue } }) h.rest)
  sound := h.sound

theorem of_units (h : UnitsOnly s t) : WorkOnly s t := of_jobs h.jobsOnly

theorem store (s : State) {r : Reg} (hr : r.ofWork = true) (f : DWord → DWord) : WorkOnly s (s.store r f) :=
  of_rest (fun r' h' => by rw [State.rd_store, if_neg fun h : r = r' => by simp [h, h'] at hr]) rfl

theorem setFld (s : State) {r : Reg} (hr : r.ofWork = true) (hi lo x : Nat) : WorkOnly s (s.setFld r hi lo x) := store s hr _
theorem setBit (s : State) {r : Reg} (hr : r.ofWork = true) (i : Nat) (b : Bool) : WorkOnly s (s.setBit r i b) := store s hr _
theorem wr (s : State) {r : Reg} (hr : r.ofWork = true) (v : DWord) : WorkOnly s (s.wr r v) := store s hr _
theorem bump (s : State) {r : Reg} (hr : r.ofWork = true) (d : Nat) : WorkOnly s (s.bump r d) := setFld s hr _ _ _
theorem bump64 (s : State) {r : Reg} (hr : r.ofWork = true) : WorkOnly s (s.bump64 r) := wr s hr _

theorem setQueueX (s : State) (q : Nat) (f : QueueX → QueueX) : WorkOnly s (s.setQueueX q f) := of_rest (fun _ _ => rfl) rfl

theorem sendMsix (s : State) (v : Nat) : WorkOnly s (s.sendMsix v) := of_units (.sendMsix s v)

theorem setDdr (s : State) {m : List (Nat × Byte)} (h : Memory.wf s.ddr = true → Memory.wf m = true) : WorkOnly s { s with ddr := m } :=
  ⟨fun _ _ => rfl, rfl, fun hs => ⟨hs.sram, h hs.ddr, hs.tiles, hs.vectors, hs.cells⟩⟩

theorem setCell (s : State) (c : Nat) {x : Cell} (h : (s.cell c).Sound → x.Sound) : WorkOnly s (s.setCell c x) :=
  ⟨fun _ _ => rfl, rfl, fun hs => ⟨hs.sram, hs.ddr, hs.tiles, hs.vectors, mem_tset hs.cells (h (tget_mem ⟨nofun, nofun⟩ hs.cells c))⟩⟩

/-! ### Entries and queues -/

theorem sendQueue (s : State) (q : Nat) : WorkOnly s (s.sendQueue q) := by
  unfold State.sendQueue
  dsimp only
  split
  · exact (sendMsix s _).trans (setQueueX _ q _)
  · exact setQueueX s q _

theorem countInt (s : State) (q : Nat) : WorkOnly s (s.countInt q) := by
  unfold State.countInt
  dsimp only
  split
  · exact (setQueueX s q _).trans (sendQueue _ q)
  · exact setQueueX s q _

theorem postWrite (s : State) (n : Nat) (ddr : Bool) (addr : Nat) (bs : Bytes) (relaxed : Bool) : WorkOnly s (s.postWrite n ddr addr bs relaxed) := by
  unfold State.postWrite
  split
  · exact refl s
  split
  · split
    · exact setDdr s (Memory.write_wf _ _)
    · exact refl s
  · exact of_rest (fun _ _ => rfl) rfl

theorem advanceCq (s : State) (q : Nat) : WorkOnly s (s.advanceCq q) := (wr s (r := .qmgQCqTail q) rfl _).trans (setQueueX (s.wr (.qmgQCqTail q) _) q (fun x => { x with used := x.used + 1 }))

theorem putEntry (s : State) (q : Nat) (h : Held) : WorkOnly s (s.putEntry q h) := by
  unfold State.putEntry
  dsimp only
  refine WorkOnly.trans (postWrite s (q / 64) (s.bit (.qmgQCtrl q) 2) (s.cqAddr q h.idx) h.entry false) ?_
  generalize s.postWrite (q / 64) (s.bit (.qmgQCtrl q) 2) (s.cqAddr q h.idx) h.entry = u
  have htail : WorkOnly u (if h.fresh = true then u.advanceCq q else u) := ite (advanceCq u q) (refl u)
  split
  · exact htail.trans (countInt _ q)
  · exact htail

theorem event (s : State) {stat : Reg} (h : stat.ofWork = true) (en vec : Reg) (i : Nat) : WorkOnly s (s.event stat en vec i) := by
  unfold State.event
  dsimp only
  split
  · exact (setBit s h i true).trans (sendMsix _ _)
  · exact setBit s h i true

theorem ddrUe (s : State) (a : Nat) : WorkOnly s (s.ddrUe a) :=
  ((bump s (r := .ddrUeCount) rfl 1).trans (setFld _ (r := .ddrUeAddr) rfl _ _ _)).trans (event _ (stat := .ddrEvtStatus) rfl _ _ _)

theorem cqUe (s : State) (q : Nat) (ue : Bool) (idx : Nat) : WorkOnly s (s.cqUe q ue idx) := by
  unfold State.cqUe
  split
  · exact ddrUe s _
  · exact refl s

theorem queueError (s : State) (q code wher index : Nat) : WorkOnly s (s.queueError q code wher index) := by
  unfold State.queueError
  dsimp only
  split
  · exact (wr s (r := .qmgQErr q) rfl _).trans (setFld _ (r := .qmgQCtrl q) rfl _ _ _)
  · exact wr s (r := .qmgQErr q) rfl _

theorem putEntries (s : State) (q : Nat) (ue : List Nat) (l : List Held) : WorkOnly s (s.putEntries q ue l) := by
  induction l generalizing s with
  | nil => exact refl s
  | cons e l ih =>
    simp only [State.putEntries]
    split
    · exact ((cqUe s q _ _).trans (setQueueX _ q _)).trans (queueError _ q _ _ _)
    · exact (putEntry s q e).trans (ih _)

theorem quiesced (s : State) (n : Nat) : WorkOnly s (s.quiesced n) := by
  unfold State.quiesced
  split
  · exact (setFld s (r := .slmSliceStat n) rfl _ _ _).trans (each (fun u i => sendQueue u _) _ _)
  · exact refl s

theorem drained (s : State) (q : Nat) : WorkOnly s (s.drained q) := by
  unfold State.drained
  split
  · exact setFld s (r := .qmgQCtrl q) rfl _ _ _
  · exact refl s

theorem dropJob (s : State) (j : Job) : WorkOnly s (s.dropJob j) := by
  unfold State.dropJob
  dsimp only
  refine .trans (t := { s with jobs := s.jobs.filter (fun x => x.id ≠ j.id) }) (of_rest (fun _ _ => rfl) rfl) ?_
  exact (((setFld _ (r := .qmgQInflight j.queue) rfl _ _ _).trans (setFld _ (r := .slmSliceStat j.slice) rfl _ _ _)).trans (drained _ _)).trans
    (quiesced _ _)

theorem putShadow (s : State) (q : Nat) (entry : Bytes) : WorkOnly s (s.putShadow q entry) :=
  onlyIf (fun u => setDdr u (Memory.write_wf _ _)) s _

theorem issue (s : State) (j : Job) (r : Result) (cqUe : Bool) : WorkOnly s (s.issue j r cqUe) := by
  unfold State.issue
  dsimp only
  refine WorkOnly.trans ?_ (dropJob _ j)
  have hcount (u : State) (f : QueueX → QueueX) (q : Nat) (e : Bytes) : WorkOnly u (((u.putShadow q e).bump64 (.qmgQCompleted q)).setQueueX q f) :=
    ((putShadow u q e).trans (bump64 _ rfl)).trans (setQueueX _ q f)
  exact ite ((hcount s _ _ _).trans (setQueueX _ _ _)) ((hcount s _ _ _).trans (putEntries _ _ _ _))

end WorkOnly

/-! ### The stages of a completion -/

/-- Output and slot change of a job that completes. -/
def State.outputOf (s : State) (j : Job) (r : Result) (outUe : LineUe) : Result × State :=
  let n := j.slice
  let ddr := dFlag j.desc 3
  let addr := dOutAddr j.desc
  let writes := decide (r.status = 0 ∨ (r.status = 0x21 ∧ dClass j.desc = 9)) && !r.out.isEmpty
  let stop := outStop addr r.out.length outUe
  let outFails := writes && (if ddr then stop.isSome && s.ddrReady else s.hostFault n)
  let parts := partialLines addr r.out.length
  let s := s.onlyIf (writes && ddr && s.ddrReady && outUe = .corrected && (parts.1 || parts.2)) (·.bump .ddrCeCount)
  if outFails then
    ((.fail 0x19 (if dClass j.desc = 0x10 then j.halvesFailed else 32) : Result), if ddr then
      (s.ddrUe (s.ddrAddr n (stop.getD 0))).postWrite n true addr (r.out.take (stop.getD 0 - addr)) else s)
  else
    let s := if writes then s.postWrite n ddr addr r.out s.pcie.relaxed else s
    let stale := dOp j.desc = 0x0D04 ∧ r.status = 0 ∧ isBlob j.desc ∧ getB (BitVec.ofNat 64 (leAt j.main 8 8)) 4 ∧ !s.blobLive j.main
    let (r, s) := if stale then (.fail 0x1B 0, s) else s.commitSlot j r
    (if dClass j.desc = 0x10 ∧ r.status ≠ 0 then { r with detail := j.halvesFailed } else r, s)

/-- The cell of a KEYGEN that fails after all, and that of a stateful key brought in. -/
def State.cellsOf (s : State) (j : Job) (done : Bool) (r : Result) : State :=
  let s := if done && r.status != 0 then s.dropCell j else s
  match dOp j.desc, r.status, r.commit with
  | 0x0D04, 0, .fill _ attr mat =>
    if getB attr 4 then
      let c := s.cell (attrCell attr)
      s.setCell (attrCell attr) { c with next := none, state := .used, traversal := none
                                         cap := (capacityOf (attrClass attr) (attrSet attr) (leAt mat 0 4) (slice mat 4 32)).getD 0 }
    else s
  | _, _, _ => s

/-- DESTROY_AFTER of a job that has not ended DONE. -/
def State.unmarks (s : State) (j : Job) (r : Result) : State :=
  if pDestroyAfter (dParam j.desc) && r.status != 0 then
    (match j.slot with
      | some a =>
        let s := s.dueSlots [a]
        if s.holdsKey j && !s.slotBad a then s.putAttr a (setB (s.slotAt a).attr 1 false) else s
      | none => s)
  else s

/-- What is counted, the wiped seal buffers, and a queue's fault. -/
def State.tallies (s : State) (j : Job) (r : Result) (wher : Nat) : State :=
  let s := if r.status = 0x40 then s.bump (.slmSliceCancelCnt j.slice) else s
  let s := s.each (j.pool.toList ++ j.classical.pool.toList ++ j.pq.pool.toList) State.countDone
  let s := s.each j.shells (fun s sh => s.bump64 (.fabIslJobs (s.fld (.fabShellMap sh) 14 12)))
  let s := s.each (below 96 (fun t => decide ((s.tile t).sealOf = some j.id))) (fun s t => s.setTile t (fun x => { x with sealBuf := [], sealOf := none }))
  if decide (r.status = 0x13) || decide (r.status = 0x19) then s.queueError j.queue r.status wher j.index else s

theorem finish_eq (s : State) (j : Job) (r : Result) (outUe : LineUe) (cqUe : Bool) : s.finish j r outUe cqUe =
    let x := s.outputOf j r outUe
    ((((x.2.cellsOf j (decide (r.status = 0)) x.1).unmarks j x.1).tallies j x.1
      (if (r.status = 0x19 ∧ r.detail = 16 ∧ dSgl j.desc ≠ 0) ∨ (r.status = 0x13 ∧ r.detail = 16) ∨ (r.status = 0x13 ∧ 0x80000000 ≤ r.detail)
        then 3 else 0)).issue j x.1 cqUe) := by
  unfold State.finish State.outputOf State.cellsOf State.unmarks State.tallies
  rfl

/-! ### What each stage changes -/

namespace WorkOnly
variable {s t u : State}

theorem ite_trans {c : Prop} [Decidable c] (h : WorkOnly s t) (h' : WorkOnly t u) : WorkOnly s (if c then u else t) := ite (h.trans h') h

theorem ite_snd {c : Prop} [Decidable c] {x y : Result × State} (h : WorkOnly s x.2) (h' : WorkOnly s y.2) : WorkOnly s (if c then x else y).2 := by
  split
  · exact h
  · exact h'

theorem emptySlot (s : State) (a : Nat) : WorkOnly s (s.emptySlot a) := by
  have hclear (u : State) : WorkOnly u (u.clearSlot a) := of_rest (fun _ _ => rfl) rfl
  have hwaiter (u : State) (c : Nat) (j : Nat) : WorkOnly u ((u.dropWaiter c j).endJob j (.fail 0x15 (keyDetail 0 1))) :=
    (setCell u c (x := { u.cell c with waiters := (u.cell c).waiters.filter (· ≠ j) }) fun h => ⟨h.next, h.writing⟩).trans (of_jobs (.endJob _ _ _))
  unfold State.emptySlot
  dsimp only
  refine ite (hclear s) ?_
  have hend := (each (fun u j => hwaiter u (attrCell (s.slotAt a).attr) j) s
    ((s.cell (attrCell (s.slotAt a).attr)).waiters.filter (fun j => (s.job? j).any (fun y => decide (y.slot = some a))))).trans (hclear _)
  exact ite (hend.trans (setCell _ _ fun h => ⟨h.next, h.writing⟩)) hend

theorem putSlot (s : State) (a : Nat) (mat : Bytes) (attr : DWord) (k : Nat) : WorkOnly s (s.putSlot a mat attr k) := by
  unfold State.putSlot State.sealExtent
  dsimp only
  have hfill : WorkOnly s { s with fills := tset a (s.fillOf a + 1) s.fills } := of_rest (fun _ _ => rfl) rfl
  refine hfill.trans (ite ?_ (of_rest (fun _ _ => rfl) rfl))
  refine .trans (of_units (.draw _ 12)) (.trans (onlyIf (fun u => setDdr u (Memory.write_wf _ _)) _ _) (of_rest (fun _ _ => rfl) rfl))

theorem setMemo (s : State) (a m : Nat) : WorkOnly s (s.setMemo a m) := of_rest (fun _ _ => rfl) rfl

theorem commitSlot (s : State) (j : Job) (r : Result) : WorkOnly s (s.commitSlot j r).2 := by
  unfold State.commitSlot
  split
  · exact refl s
  · split
    · exact refl s
    · exact putSlot s _ _ _ _
  · split
    · exact emptySlot s _
    · exact refl s
  · exact onlyIf (fun u => emptySlot u _) s _
  · split
    · exact refl s
    · split
      · exact setMemo s _ _
      · exact refl s

theorem outputOf (s : State) (j : Job) (r : Result) (outUe : LineUe) : WorkOnly s (s.outputOf j r outUe).2 := by
  unfold State.outputOf
  dsimp only
  have hce (u : State) (c : Bool) : WorkOnly u (u.onlyIf c (·.bump .ddrCeCount)) := onlyIf (fun u => bump u rfl 1) u c
  refine ite_snd ((hce s _).trans (ite ((ddrUe _ _).trans (postWrite _ _ _ _ _ _)) (refl _))) ?_
  have hout (u : State) : WorkOnly u (if (decide (r.status = 0 ∨ (r.status = 0x21 ∧ dClass j.desc = 9)) && !r.out.isEmpty) = true
      then u.postWrite j.slice (dFlag j.desc 3) (dOutAddr j.desc) r.out u.pcie.relaxed else u) := ite (postWrite _ _ _ _ _ _) (refl u)
  exact (hce s _).trans ((hout _).trans (ite_snd (refl _) (commitSlot _ j r)))

theorem cellsOf (s : State) (j : Job) (done : Bool) (r : Result) : WorkOnly s (s.cellsOf j done r) := by
  unfold State.cellsOf
  dsimp only
  have hdrop : WorkOnly s (if (done && r.status != 0) = true then s.dropCell j else s) := ite (of_jobs (.dropCell s j)) (refl s)
  generalize (if (done && r.status != 0) = true then s.dropCell j else s) = u at hdrop ⊢
  generalize dOp j.desc = op, r.status = status, r.commit = commit
  split
  · refine hdrop.trans (ite (setCell _ _ fun h => ⟨nofun, h.writing⟩) (refl u))
  · exact hdrop

theorem unmarks (s : State) (j : Job) (r : Result) : WorkOnly s (s.unmarks j r) := by
  unfold State.unmarks
  refine ite ?_ (refl s)
  split
  · rename_i a _
    have hdue : WorkOnly s (s.dueSlots [a]) := of_rest (fun _ _ => rfl) rfl
    exact ite (hdue.trans (of_rest (fun _ _ => rfl) rfl)) hdue
  · exact refl s

theorem countDone (s : State) (p : Nat) : WorkOnly s (s.countDone p) := by
  unfold State.countDone
  dsimp only
  have hgroup : WorkOnly s (match (s.bump64 (.fabPoolDone p)).groupOf p with
      | some g => (s.bump64 (.fabPoolDone p)).bump64 (.bneGrpDone g)
      | none => s.bump64 (.fabPoolDone p)) := by
    split
    · exact (bump64 s rfl).trans (bump64 _ rfl)
    · exact bump64 s rfl
  split
  · exact hgroup.trans (bump64 _ rfl)
  · exact hgroup

theorem tallies (s : State) (j : Job) (r : Result) (wher : Nat) : WorkOnly s (s.tallies j r wher) := by
  unfold State.tallies
  dsimp only
  have hseal (u : State) (k : Nat) : WorkOnly u (u.setTile k (fun x => { x with sealBuf := [], sealOf := none })) := of_units (.setTile u k id)
  have hcancel : WorkOnly s (if r.status = 0x40 then s.bump (.slmSliceCancelCnt j.slice) else s) := ite (bump s (r := .slmSliceCancelCnt j.slice) rfl 1) (refl s)
  have hpools := hcancel.trans (each countDone _ (j.pool.toList ++ j.classical.pool.toList ++ j.pq.pool.toList))
  refine ite_trans (.trans (hpools.trans ?_) (each hseal _ _)) (queueError _ _ _ _ _)
  exact each (fun u sh => bump64 u rfl) _ _

theorem finish (s : State) (j : Job) (r : Result) (outUe : LineUe) (cqUe : Bool) : WorkOnly s (s.finish j r outUe cqUe) := by
  rw [finish_eq]
  exact ((((outputOf s j r outUe).trans (cellsOf _ j _ _)).trans (unmarks _ j _)).trans (tallies _ j _ _)).trans (issue _ j _ _)

theorem complete (s : State) (j : Job) (r : Result) (outUe : LineUe) (cqUe : Bool) : WorkOnly s (s.complete j r outUe cqUe) := by
  unfold State.complete
  split
  · unfold State.freeFirst
    exact ite (setCell s _ fun h => ⟨h.next, h.writing⟩) (refl s)
  · exact finish s j r outUe cqUe

theorem flushEnded (s : State) : WorkOnly s s.flushEnded := by
  unfold State.flushEnded
  refine ite (refl s) (each (fun u j => ?_) s _)
  split
  · exact complete u _ _ _ _
  · exact refl u

end WorkOnly

end Sys2Proof.Machine
end

section
/-! PROOFS. System resets: what stands, what is lost, and the cause that is latched. -/

namespace Sys2Proof.Machine

/-! ### Registers after a reset -/

/-- What a system reset leaves of a register's value. -/
def Reg.kept (cold : Bool) (r : Reg) (v : DWord) : DWord := if cold then r.afterAny v else r.afterWarm v

theorem tget_map {α β γ : Type} [DecidableEq α] (d : β) (e : γ) (f : α → β → γ) (k : α) (hd : f k d = e) (l : List (α × β)) :
    tget e k (l.map (fun x => (x.1, f x.1 x.2))) = f k (tget d k l) := by
  induction l with
  | nil => exact hd.symm
  | cons x l ih =>
    by_cases h : x.1 = k
    · subst h
      simp [tget]
    · simpa [tget, h] using ih

/-- A register that keeps its reset value reads what is kept of its value. -/
theorem resetRegs_rd (s : State) (cold : Bool) {r : Reg} (h : r.kept cold r.resetVal = r.resetVal) : (s.resetRegs cold).rd r = r.kept cold (s.rd r) :=
  tget_map r.resetVal r.resetVal (Reg.kept cold) r h s.regs

/-! ### Before the registers are reset -/

/-- A system reset up to the reset of registers: heads reported, jobs not done, queues and slices settled. -/
def State.settledFor (s : State) (cold : Bool) : State :=
  let s := if s.transition.any (fun t => !t.wiped) then s.wipeSecure else s
  let s := if cold then s else s.reportHeads
  let s := s.abandonJobs
  let s := if cold then s else s.stopFill
  if cold then s else s.settleQueues

theorem Cell.Sound.idle {x : Cell} (hn : x.next = none) (hw : x.writing = none) : x.Sound := ⟨by simp [hn], by simp [hw]⟩

theorem sound_map_cells {l : List (Nat × Cell)} {f : Cell → Cell} (h : ∀ e ∈ l, e.2.Sound) (hf : ∀ x : Cell, x.Sound → (f x).Sound) :
    ∀ e ∈ l.map (fun e => (e.1, f e.2)), e.2.Sound := by
  intro e he
  obtain ⟨x, hx, rfl⟩ := List.mem_map.1 he
  exact hf _ (h x hx)

namespace WorkOnly

theorem wipeSecure (s : State) : WorkOnly s s.wipeSecure :=
  ⟨fun _ _ => rfl, rfl, fun hs => ⟨hs.sram, hs.ddr, hs.tiles, hs.vectors,
    sound_map_cells (f := fun x => { x with next := none }) hs.cells fun _ h => ⟨nofun, h.writing⟩⟩⟩

theorem reportHeads (s : State) : WorkOnly s s.reportHeads :=
  (each (fun u q => wr u (r := .qmgQRptHead q) rfl _) s s.knownQueues).trans (of_rest (fun _ _ => rfl) rfl)

theorem abandonJobs (s : State) : WorkOnly s s.abandonJobs := by
  have hcount (u : State) (j : Job) : WorkOnly u ((u.setFld (.qmgQInflight j.queue) 10 0 0).setFld (.slmSliceStat j.slice) 26 16 0) :=
    (setFld u (r := .qmgQInflight j.queue) rfl 10 0 0).trans (setFld _ (r := .slmSliceStat j.slice) rfl 26 16 0)
  have hgone (u : State) : WorkOnly u { u with jobs := [] } := of_rest (fun _ _ => rfl) rfl
  exact ((each (fun u j => of_jobs (.dropCell u j)) s s.jobs).trans (each hcount _ _)).trans (hgone _)

theorem stopFill (s : State) : WorkOnly s s.stopFill :=
  ite (refl s) ((of_units (.draw s 4)).trans (setDdr _ fun h => Memory.clear_wf h _ _))

theorem sliceResetDone (s : State) (n : Nat) : WorkOnly s (s.sliceResetDone n) :=
  ite (refl s) (((setFld s (r := .slmSliceStat n) rfl _ _ _).trans (setBit _ (r := .slmSliceCtrl n) rfl _ _)).trans
    (setBit _ (r := .slmSliceCtrl n) rfl _ _))

theorem settleQueues (s : State) : WorkOnly s s.settleQueues :=
  (each (fun u q => setFld u (r := .qmgQCtrl q) rfl 10 8 0) s _).trans
    (each (fun u n => ite (sliceResetDone u n)
      ((setFld u (r := .slmSliceStat n) rfl 2 0 3).trans (setBit _ (r := .slmSliceCtrl n) rfl 1 true))) _ _)

theorem settledFor (s : State) (cold : Bool) : WorkOnly s (s.settledFor cold) := by
  unfold State.settledFor
  dsimp only
  have hwipe : WorkOnly s (if (s.transition.any fun t => !t.wiped) = true then s.wipeSecure else s) := ite (wipeSecure s) (refl s)
  cases cold
  · exact ((((hwipe.trans (reportHeads _)).trans (abandonJobs _)).trans (stopFill _)).trans (settleQueues _))
  · exact hwipe.trans (abandonJobs _)

end WorkOnly

/-! ### What a system reset leaves -/

/-- The state after the reset of registers, link and engines. -/
def State.resetAll (s : State) (cold : Bool) : State :=
  let s := ((s.resetRegs cold).resetLink.wipeEngines cold).abandonWork
  if cold then s.loseCold else s

/-- The marks of a dip and of a memory that a warm reset keeps. -/
def State.resetMarks (s : State) (cold : Bool) : State :=
  let s := if s.tamper.dip.isSome then s.setBit .genState 4 true else s
  if cold then s else if s.bit .ddrStat 1 then s.setBit .ddrStat 3 true else s

theorem enterReset_eq (s : State) (cold : Bool) : s.enterReset cold =
    let t := ((s.settledFor cold).resetAll cold).resetMarks cold
    { t with
      boot := { t.boot with held := true, starting := false, cold := cold,
                            replays := if cold then [] else if s.pcie.dlActive then t.dueReplays s.now else t.boot.replays }
      pins := { t.pins with holdReleased := false, dynAddr := none, ibi := false, i3cAddr := 0, scan := [], tapReset := true, bypass := false } } :=
  rfl

theorem resetAll_rd {s : State} {cold : Bool} {r : Reg} (hkept : r.kept cold r.resetVal = r.resetVal) (hne : r ≠ .pwrState) :
    (s.resetAll cold).rd r = r.kept cold (s.rd r) := by
  have hlink : ((s.resetRegs cold).setBit .pwrState 18 false).rd r = r.kept cold (s.rd r) := by
    rw [State.setBit, State.rd_store, if_neg hne.symm, resetRegs_rd s cold hkept]
  cases cold <;> exact hlink

theorem resetMarks_rd {s : State} {cold : Bool} {r : Reg} (hstate : r ≠ .genState) (hddr : r ≠ .ddrStat) : (s.resetMarks cold).rd r = s.rd r := by
  have hdip (u : State) (c : Prop) [Decidable c] : (if c then u.setBit .genState 4 true else u).rd r = u.rd r := by
    split
    · rw [State.setBit, State.rd_store, if_neg hstate.symm]
    · rfl
  have hmem (u : State) (c : Prop) [Decidable c] : (if c then u.setBit .ddrStat 3 true else u).rd r = u.rd r := by
    split
    · rw [State.setBit, State.rd_store, if_neg hddr.symm]
    · rfl
  unfold State.resetMarks
  dsimp only
  cases cold
  · exact (hmem _ _).trans (hdip _ _)
  · exact hdip _ _

/-- A register after a system reset: what is kept of its value. -/
theorem enterReset_rd {s : State} {cold : Bool} {r : Reg} (hkept : r.kept cold r.resetVal = r.resetVal) (hpwr : r ≠ .pwrState) (hstate : r ≠ .genState)
    (hddr : r ≠ .ddrStat) : (s.enterReset cold).rd r = r.kept cold ((s.settledFor cold).rd r) := by
  rw [enterReset_eq]
  exact (resetMarks_rd hstate hddr).trans (resetAll_rd hkept hpwr)

/-- A register that work leaves alone. -/
theorem enterReset_rd_of_calm {s : State} {cold : Bool} {r : Reg} (hkept : r.kept cold r.resetVal = r.resetVal) (hwork : r.ofWork = false)
    (hpwr : r ≠ .pwrState) (hstate : r ≠ .genState) (hddr : r ≠ .ddrStat) : (s.enterReset cold).rd r = r.kept cold (s.rd r) := by
  rw [enterReset_rd hkept hpwr hstate hddr, (WorkOnly.settledFor s cold).regs r hwork]

/-- What a system reset leaves beside registers. -/
structure ResetFrom (s t : State) (cold : Bool) : Prop where
  held : t.boot.held = true
  starting : t.boot.starting = false
  kind : t.boot.cold = cold
  jobs : t.jobs = []
  rig : t.rig = none
  otp : t.otp = s.otp
  bbram : t.bbram = s.bbram
  flash : t.flash = s.flash
  power : t.power = s.power
  sram : t.sram = s.sram
  slots : cold = true → t.slots = []
  memo : cold = true → t.memo = []
  ddr : cold = true → t.ddr = []
  keys : cold = true → t.boot.keys = none
  due : t.tamper.slotsDue = []
  sound : s.Sound → t.Sound

/-- The last marks change registers alone. -/
theorem resetMarks_rest (s : State) (cold : Bool) : ({ s.resetMarks cold with regs := s.regs, shadow := s.shadow } : State) = s := by
  unfold State.resetMarks
  dsimp only
  cases cold <;> repeat' split
  all_goals rfl

/-- The cells once the work on them is abandoned. -/
theorem abandonWork_cells {s : State} (h : ∀ e ∈ s.cells, e.2.Sound) : ∀ e ∈ s.abandonWork.cells, e.2.Sound :=
  sound_map_cells (l := s.cells) (f := fun x : Cell =>
    { x with next := if x.state = .used then x.next else none, traversal := if x.state = .used then x.traversal else none
             writing := none, freeing := false, waiters := [], rebuilding := false }) h fun x hx => by
    refine ⟨fun n hn => ?_, nofun⟩
    dsimp only at hn ⊢
    split at hn
    · exact ⟨(hx.next n hn).1, (hx.next n hn).2.1, nofun⟩
    · cases hn

theorem loseCold_cells {s : State} (h : ∀ e ∈ s.cells, e.2.Sound) : ∀ e ∈ s.loseCold.cells, e.2.Sound :=
  sound_map_cells (l := s.cells) (f := fun x : Cell => { x with next := none, cap := 0, traversal := none }) h fun _ hx => ⟨nofun, hx.writing⟩

theorem resetAll_tiles (s : State) (cold : Bool) : (s.resetAll cold).tiles = [] := by cases cold <;> rfl
theorem resetAll_sram (s : State) (cold : Bool) : (s.resetAll cold).sram = s.sram := by cases cold <;> rfl

theorem resetAll_ddr {s : State} (cold : Bool) (h : Memory.wf s.ddr = true) : Memory.wf (s.resetAll cold).ddr = true := by
  cases cold
  · exact h
  · rfl

theorem resetAll_cells {s : State} (cold : Bool) (h : ∀ e ∈ s.cells, e.2.Sound) : ∀ e ∈ (s.resetAll cold).cells, e.2.Sound := by
  have hwork := abandonWork_cells (s := (s.resetRegs cold).resetLink.wipeEngines cold) h
  cases cold
  · exact hwork
  · exact loseCold_cells hwork

theorem resetAll_sound {s : State} (cold : Bool) (h : s.Sound) : (s.resetAll cold).Sound where
  sram := (resetAll_sram s cold).symm ▸ h.sram
  ddr := resetAll_ddr cold h.ddr
  tiles := by simp [resetAll_tiles]
  vectors := by simp [resetAll_tiles]
  cells := resetAll_cells cold h.cells

theorem resetAll_jobs (s : State) (cold : Bool) : (s.resetAll cold).jobs = s.jobs := by cases cold <;> rfl
theorem resetAll_rig (s : State) (cold : Bool) : (s.resetAll cold).rig = none := by cases cold <;> rfl
theorem resetAll_otp (s : State) (cold : Bool) : (s.resetAll cold).otp = s.otp := by cases cold <;> rfl
theorem resetAll_bbram (s : State) (cold : Bool) : (s.resetAll cold).bbram = s.bbram := by cases cold <;> rfl
theorem resetAll_flash (s : State) (cold : Bool) : (s.resetAll cold).flash = s.flash := by cases cold <;> rfl
theorem resetAll_power (s : State) (cold : Bool) : (s.resetAll cold).power = s.power := by cases cold <;> rfl
theorem resetAll_due (s : State) (cold : Bool) : (s.resetAll cold).tamper.slotsDue = [] := by cases cold <;> rfl

/-- Settling queues and slices changes their registers alone. -/
theorem settleQueues_rest (s : State) : ({ s.settleQueues with regs := s.regs, shadow := s.shadow } : State) = s := by
  have hqueue (u : State) (q : Nat) : ({ u.setQueueState q 0 with regs := s.regs, shadow := s.shadow } : State)
      = { u with regs := s.regs, shadow := s.shadow } := rfl
  have hslice (u : State) (n : Nat) : ({ (if u.sliceState n = 4 then u.sliceResetDone n
      else (u.setFld (.slmSliceStat n) 2 0 3).setBit (.slmSliceCtrl n) 1 true) with regs := s.regs, shadow := s.shadow } : State)
      = { u with regs := s.regs, shadow := s.shadow } := by
    unfold State.sliceResetDone
    split
    · split <;> rfl
    · rfl
  exact (State.each_keeps (fun u : State => ({ u with regs := s.regs, shadow := s.shadow } : State)) _ hslice _ _).trans
    (State.each_keeps (fun u : State => ({ u with regs := s.regs, shadow := s.shadow } : State)) _ hqueue _ _)

theorem settleQueues_jobs (s : State) : s.settleQueues.jobs = s.jobs := (congrArg State.jobs (settleQueues_rest s) :)
theorem settleQueues_slots (s : State) : s.settleQueues.slots = s.slots := (congrArg State.slots (settleQueues_rest s) :)

theorem abandonJobs_slots (s : State) : s.abandonJobs.slots = s.slots := by
  have hcell (u : State) (j : Job) : (u.dropCell j).slots = u.slots := by
    unfold State.dropCell
    split <;> rfl
  have hcount (u : State) (j : Job) : ((u.setFld (.qmgQInflight j.queue) 10 0 0).setFld (.slmSliceStat j.slice) 26 16 0).slots = u.slots := rfl
  exact (State.each_keeps State.slots (fun u (j : Job) => (u.setFld (.qmgQInflight j.queue) 10 0 0).setFld (.slmSliceStat j.slice) 26 16 0)
    hcount _ _).trans (State.each_keeps State.slots State.dropCell hcell _ _)

theorem reportHeads_slots (s : State) : s.reportHeads.slots = s.slots :=
  State.each_keeps State.slots (fun u q => u.wr (.qmgQRptHead q) (setF (setF 0 15 0 (u.fld (.qmgQSqHead q) 15 0)) 31 31 1)) (fun _ _ => rfl) _ _

theorem stopFill_jobs_slots (s : State) : s.stopFill.jobs = s.jobs ∧ s.stopFill.slots = s.slots := by
  unfold State.stopFill
  split <;> exact ⟨rfl, rfl⟩

/-- The state whose work a reset ends: without secure SRAM where a transition is cut off. -/
def State.cutOff (s : State) : State := if s.transition.any (fun t => !t.wiped) then s.wipeSecure else s

theorem settledFor_warm (s : State) : s.settledFor false = s.cutOff.reportHeads.abandonJobs.stopFill.settleQueues := rfl

/-- Abandoned jobs are gone, and nothing of a reset brings one back. -/
theorem settledFor_jobs (s : State) (cold : Bool) : (s.settledFor cold).jobs = [] := by
  cases cold
  · rw [settledFor_warm, settleQueues_jobs, (stopFill_jobs_slots _).1]
    rfl
  · rfl

/-- A warm reset that ends no transition keeps the slots. -/
theorem settledFor_slots {s : State} (h : s.transition = none ∨ ∃ m, s.transition = some m ∧ m.wiped = true) : (s.settledFor false).slots = s.slots := by
  have hnone : s.cutOff = s := by
    rcases h with h | ⟨m, h, hm⟩
    · simp [State.cutOff, h]
    · simp [State.cutOff, h, hm]
  rw [settledFor_warm, hnone, settleQueues_slots, (stopFill_jobs_slots _).2, abandonJobs_slots, reportHeads_slots]

theorem resetAll_slots (s : State) : (s.resetAll false).slots = s.slots := rfl

theorem enterReset_slots {s : State} (h : s.transition = none ∨ ∃ m, s.transition = some m ∧ m.wiped = true) : (s.enterReset false).slots = s.slots := by
  rw [enterReset_eq]
  exact (congrArg State.slots (resetMarks_rest ((s.settledFor false).resetAll false) false)).trans ((resetAll_slots _).trans (settledFor_slots h))

theorem enterReset_resets (s : State) (cold : Bool) : ResetFrom s (s.enterReset cold) cold := by
  have hwork := WorkOnly.settledFor s cold
  have hjobs := settledFor_jobs s cold
  rw [enterReset_eq]
  generalize s.settledFor cold = v at hwork hjobs
  have hall := resetMarks_rest (v.resetAll cold) cold
  generalize (v.resetAll cold).resetMarks cold = w at hall
  constructor
  case held | starting | kind => rfl
  case jobs => exact (congrArg State.jobs hall).trans ((resetAll_jobs v cold).trans hjobs)
  case rig => exact (congrArg State.rig hall).trans (resetAll_rig v cold)
  case otp => exact (congrArg State.otp hall).trans ((resetAll_otp v cold).trans (congrArg State.otp hwork.rest :))
  case bbram => exact (congrArg State.bbram hall).trans ((resetAll_bbram v cold).trans (congrArg State.bbram hwork.rest :))
  case flash => exact (congrArg State.flash hall).trans ((resetAll_flash v cold).trans (congrArg State.flash hwork.rest :))
  case power => exact (congrArg State.power hall).trans ((resetAll_power v cold).trans (congrArg State.power hwork.rest :))
  case sram => exact (congrArg State.sram hall).trans ((resetAll_sram v cold).trans (congrArg State.sram hwork.rest :))
  case slots => rintro rfl; exact (congrArg State.slots hall)
  case memo => rintro rfl; exact (congrArg State.memo hall)
  case ddr => rintro rfl; exact (congrArg State.ddr hall)
  case keys => rintro rfl; exact (congrArg (fun x : State => x.boot.keys) hall)
  case due => exact (congrArg (fun x : State => x.tamper.slotsDue) hall).trans (resetAll_due v cold)
  case sound =>
    intro hs
    have h := resetAll_sound cold (hwork.sound hs)
    rw [← hall] at h
    exact ⟨h.sram, h.ddr, h.tiles, h.vectors, h.cells⟩

/-! ### Taking a system reset -/

theorem ResetFrom.of_work {s s' t : State} {cold : Bool} (h : WorkOnly s s') (h' : ResetFrom s' t cold) : ResetFrom s t cold :=
  { h' with
    otp := h'.otp.trans (congrArg State.otp h.rest :)
    bbram := h'.bbram.trans (congrArg State.bbram h.rest :)
    flash := h'.flash.trans (congrArg State.flash h.rest :)
    power := h'.power.trans (congrArg State.power h.rest :)
    sram := h'.sram.trans (congrArg State.sram h.rest :)
    sound := fun hs => h'.sound (h.sound hs) }

/-- Registers and pins are changed beside. -/
theorem ResetFrom.of_rest {s t u : State} {cold : Bool} (h : ResetFrom s t cold)
    (hrest : ({ u with regs := t.regs, shadow := t.shadow, pins := t.pins } : State) = t) : ResetFrom s u cold where
  held := (congrArg (fun x : State => x.boot.held) hrest).trans h.held
  starting := (congrArg (fun x : State => x.boot.starting) hrest).trans h.starting
  kind := (congrArg (fun x : State => x.boot.cold) hrest).trans h.kind
  jobs := (congrArg State.jobs hrest).trans h.jobs
  rig := (congrArg State.rig hrest).trans h.rig
  otp := (congrArg State.otp hrest).trans h.otp
  bbram := (congrArg State.bbram hrest).trans h.bbram
  flash := (congrArg State.flash hrest).trans h.flash
  power := (congrArg State.power hrest).trans h.power
  sram := (congrArg State.sram hrest).trans h.sram
  slots hc := (congrArg State.slots hrest).trans (h.slots hc)
  memo hc := (congrArg State.memo hrest).trans (h.memo hc)
  ddr hc := (congrArg State.ddr hrest).trans (h.ddr hc)
  keys hc := (congrArg (fun x : State => x.boot.keys) hrest).trans (h.keys hc)
  due := (congrArg (fun x : State => x.tamper.slotsDue) hrest).trans h.due
  sound hs := by
    have hsound := h.sound hs
    rw [← hrest] at hsound
    exact ⟨hsound.sram, hsound.ddr, hsound.tiles, hsound.vectors, hsound.cells⟩

/-- A reset with its cause latched and RESET_N driven. -/
def State.resetFor (s : State) (cold : Bool) (cause src merged : Nat) : State := ((s.enterReset cold).latchCause cold cause src merged).driveReset cause

theorem driveReset_rd (s : State) (cause : Nat) (r : Reg) : (s.driveReset cause).rd r = s.rd r := by
  unfold State.driveReset
  split <;> rfl

theorem driveReset_rest (s : State) (cause : Nat) : ({ s.driveReset cause with pins := s.pins } : State) = s := by
  unfold State.driveReset
  split <;> rfl

theorem driveReset_resetLow (s : State) {cause : Nat} (h : cause ≠ 2) : (s.driveReset cause).pins.resetLow = true := by
  rw [State.driveReset, if_neg h]

/-- The cause's value in RST_CAUSE. -/
def causeWord (cold : Bool) (cause src merged : Nat) : DWord :=
  BitVec.ofNat 64 (cause + (if cold then 0 else 16) + src * 2 ^ 8 + min 255 merged * 2 ^ 16)

theorem getF_causeWord (cold : Bool) {cause src merged : Nat} (hcause : cause < 16) :
    getF (causeWord cold cause src merged) 3 0 = cause ∧ getF (causeWord cold cause src merged) 5 4 = if cold then 0 else 1 := by
  have hmin : min 255 merged ≤ 255 := Nat.min_le_left _ _
  unfold causeWord getF
  rw [BitVec.toNat_ofNat]
  generalize min 255 merged = m at hmin
  cases cold <;> simp only [Bool.false_eq_true, if_true, if_false] <;> omega

theorem latchCause_rd (s : State) (cold : Bool) (cause src merged : Nat) :
    (s.latchCause cold cause src merged).rd .rstCause = causeWord cold cause src merged := by
  rw [State.latchCause, State.rd_wr, if_pos rfl]
  rfl

/-- A system reset that is taken in a powered state, not in one. -/
theorem systemReset_eq {s : State} (hio : s.power.io = true) (hbackup : s.power.backup = false) (hheld : s.boot.held = false) (cold : Bool)
    (cause src : Nat) (count : Bool) : s.systemReset cold cause src count =
      (if cold then (s.flushEnded.enterReset cold).latchCause cold cause src 0
        else ((s.flushEnded.enterReset cold).latchCause cold cause src 0).bump .rstWarmCount).driveReset cause := by
  rw [State.systemReset, if_neg (by simp [hio, hbackup]), if_neg (by simp [hheld])]

section
variable {s : State} (hio : s.power.io = true) (hbackup : s.power.backup = false) (hheld : s.boot.held = false) (cold : Bool) (cause src : Nat)
  (count : Bool)
include hio hbackup hheld

theorem systemReset_resets : ResetFrom s (s.systemReset cold cause src count) cold := by
  rw [systemReset_eq hio hbackup hheld]
  refine .of_work (WorkOnly.flushEnded s) ?_
  refine (enterReset_resets s.flushEnded cold).of_rest ?_
  refine .trans (b := ({ (if cold then (s.flushEnded.enterReset cold).latchCause cold cause src 0
        else ((s.flushEnded.enterReset cold).latchCause cold cause src 0).bump .rstWarmCount) with
      regs := (s.flushEnded.enterReset cold).regs, shadow := (s.flushEnded.enterReset cold).shadow
      pins := (s.flushEnded.enterReset cold).pins } : State)) ?_ ?_
  · exact congrArg (fun x : State => { x with
      regs := (s.flushEnded.enterReset cold).regs, shadow := (s.flushEnded.enterReset cold).shadow
      pins := (s.flushEnded.enterReset cold).pins }) (driveReset_rest _ cause)
  · generalize s.flushEnded.enterReset cold = u
    cases cold <;> rfl

theorem systemReset_rd_of_ne {r : Reg} (hc : r ≠ .rstCause) (hw : r ≠ .rstWarmCount) :
    (s.systemReset cold cause src count).rd r = (s.flushEnded.enterReset cold).rd r := by
  rw [systemReset_eq hio hbackup hheld, driveReset_rd]
  cases cold
  · exact (State.rd_bump_ne _ hw.symm 1).trans (State.rd_wr_ne _ _ hc.symm)
  · exact State.rd_wr_ne _ _ hc.symm

/-- A register that work leaves alone reads what is kept of it. -/
theorem systemReset_rd {r : Reg} (hkept : r.kept cold r.resetVal = r.resetVal) (hwork : r.ofWork = false)
    (hne : r ∉ [Reg.rstCause, .rstWarmCount, .pwrState, .genState, .ddrStat]) :
    (s.systemReset cold cause src count).rd r = r.kept cold (s.rd r) := by
  simp only [List.mem_cons, List.not_mem_nil, or_false, not_or] at hne
  obtain ⟨hc, hw, hpwr, hstate, hddr⟩ := hne
  rw [systemReset_rd_of_ne hio hbackup hheld cold cause src count hc hw, enterReset_rd_of_calm hkept hwork hpwr hstate hddr,
    (WorkOnly.flushEnded s).regs r hwork]

theorem systemReset_cause : (s.systemReset cold cause src count).rd .rstCause = causeWord cold cause src 0 := by
  rw [systemReset_eq hio hbackup hheld, driveReset_rd]
  cases cold
  · exact (State.rd_bump_ne _ (by simp) 1).trans (latchCause_rd _ false cause src 0)
  · exact latchCause_rd _ true cause src 0

theorem systemReset_warmCount : (s.systemReset false cause src count).fld .rstWarmCount 31 0 = min (2 ^ 32 - 1) (s.fld .rstWarmCount 31 0 + 1) := by
  have hcount : (s.flushEnded.enterReset false).rd .rstWarmCount = s.rd .rstWarmCount := by
    rw [enterReset_rd_of_calm rfl rfl (by simp) (by simp) (by simp), (WorkOnly.flushEnded s).regs _ rfl]
    rfl
  rw [systemReset_eq hio hbackup hheld, State.fld, driveReset_rd]
  refine (State.fld_bump _ _ _).trans ?_
  rw [State.fld, State.latchCause, State.rd_wr_ne _ _ (by simp), hcount]
  rfl

theorem systemReset_resetLow {cause : Nat} (h : cause ≠ 2) : (s.systemReset cold cause src count).pins.resetLow = true := by
  rw [systemReset_eq hio hbackup hheld, driveReset_resetLow _ h]

end

/-! ### RESTART, and the firmware commands -/

theorem mbxServes_of_head {s : State} {ch : Nat} (h : s.mbxHead = some ch) : s.mbxServes = true := by
  unfold State.mbxHead at h
  split at h
  · rename_i hserves
    exact (by simpa using hserves : _ ∧ _).1
  · cases h

theorem powered_of_head {s : State} {ch : Nat} (h : s.mbxHead = some ch) : s.power.io = true ∧ s.power.backup = false ∧ s.boot.held = false := by
  have hserves := mbxServes_of_head h
  simp only [State.mbxServes, Bool.and_eq_true, Bool.not_eq_true'] at hserves
  obtain ⟨⟨⟨⟨hheld, -⟩, -⟩, hio⟩, hbackup⟩ := hserves
  exact ⟨hio, hbackup, hheld⟩

/-- RESTART takes the reset asked for, with BOOT_ATTEMPTS cleared. -/
theorem restart_spec {s : State} {ch : Nat} {r : Bytes} (h : s.Serves .restart ch r) (hkind : leAt r 0 1 < 2) (hzero : allZero (slice r 1 3) = true) :
    ∃ t, exec .restart s = .next t ∧ t.boot.held = true ∧ t.boot.cold = decide (leAt r 0 1 = 1) ∧
      t.fld .rstCause 3 0 = (if leAt r 0 1 = 1 then 9 else 8) ∧ t.fld .rstBoot 2 0 = 0 ∧ t.otp = s.otp := by
  obtain ⟨hio, hbackup, hheld⟩ := powered_of_head h.head
  have hcmd : (s.mbxTaken ch).restartCmd ch r =
      (s.mbxTaken ch).clearAttempts.systemReset (decide (leAt r 0 1 = 1)) (if leAt r 0 1 = 1 then 9 else 8) 0 := by
    rw [State.restartCmd, if_neg (by simp only [hzero]; simp; omega)]
  have hreset := systemReset_resets (s := (s.mbxTaken ch).clearAttempts) hio hbackup hheld (decide (leAt r 0 1 = 1)) (if leAt r 0 1 = 1 then 9 else 8) 0 true
  have hcause := systemReset_cause (s := (s.mbxTaken ch).clearAttempts) hio hbackup hheld (decide (leAt r 0 1 = 1)) (if leAt r 0 1 = 1 then 9 else 8) 0 true
  have hboot := systemReset_rd (s := (s.mbxTaken ch).clearAttempts) hio hbackup hheld (decide (leAt r 0 1 = 1)) (if leAt r 0 1 = 1 then 9 else 8) 0 true
    (r := .rstBoot) (by unfold Reg.kept; split <;> rfl) rfl (by simp)
  refine ⟨_, h.run_of rfl, ?_⟩
  rw [hcmd]
  refine ⟨hreset.held, hreset.kind, ?_, ?_, hreset.otp⟩
  · rw [State.fld, hcause]
    exact (getF_causeWord _ (by split <;> omega)).1
  · rw [State.fld, hboot]
    have hkept (c : Bool) (v : DWord) : Reg.kept c .rstBoot v = v := by cases c <;> rfl
    rw [hkept]
    exact State.fld_setFld _ _ _ _ _ (by decide) (by decide)

/-- Settles O45, part by part; RESTART by the system reset it takes. -/
theorem firmwareCommands : Obligations.FirmwareCommands := by
  refine ⟨?_, fun s ch r h hkind hzero => restart_spec h hkind hzero, fun s ch h => bootInfo_spec h⟩
  rintro fw s ch n off r bs d c u rfl rfl hserves rfl rfl hsome hfew hstaged hi3c hflags hzeros hfits hquiet hdata
  have hok : (s.mbxTaken ch).PartOk fw ch r bs d := ⟨hsome, hfew, hstaged, hi3c, hflags, hzeros, hfits, hquiet, hdata⟩
  exact ⟨part_first_open hserves hok, fun x => part_later_open hserves hok, fun x => part_later_last hserves hok, part_only hserves hok⟩

end Sys2Proof.Machine
end

section
/-! PROOFS. Units that are checked, tested and given back: what their handling changes, and what stands. -/

namespace Sys2Proof.Machine

/-- The registers that the handling of units and of their draws changes, with those of work. -/
def Reg.ofService (r : Reg) : Bool :=
  r.ofWork || match r with
    | .fabMclogTime _ | .fabMclogInfo _ | .fabMclogHead | .fabIslStat _ | .fabCeCount | .fabMcCount | .tilScrub _ | .tilKernel _
    | .hsfEvtStatus | .hsfMcCount | .bneMcCount | .rngDrbCount _ | .rngDrbMaxcount _ | .rngDrbReqs _ | .rngEvtStatus => true
    | _ => false

/-- From `s` to `t` units fail, are tested, are repaired or return, and jobs end or wait again with them. -/
structure Serviced (s t : State) : Prop where
  regs : ∀ r, r.ofService = false → t.rd r = s.rd r
  rest : ({ t with regs := s.regs, shadow := s.shadow, out := s.out, msixPend := s.msixPend, freeCtr := s.freeCtr, tiles := s.tiles
                   hcores := s.hcores, bcores := s.bcores, rng := s.rng, jobs := s.jobs, cells := s.cells, maskJobs := s.maskJobs
                   reRig := s.reRig, gateWait := s.gateWait } : State) = s
  fine : s.TilesFine → t.TilesFine
  cells : (∀ e ∈ s.cells, e.2.Sound) → ∀ e ∈ t.cells, e.2.Sound

theorem Reg.not_ofWork_of_ofService {r : Reg} (h : r.ofService = false) : r.ofWork = false := by
  by_contra hu
  simp [Reg.ofService, hu] at h

namespace Serviced
variable {s t u : State}

theorem refl (s : State) : Serviced s s := ⟨fun _ _ => rfl, rfl, id, id⟩

theorem trans (h : Serviced s t) (h' : Serviced t u) : Serviced s u :=
  ⟨fun r hr => (h'.regs r hr).trans (h.regs r hr),
    (congrArg (fun x : State => { x with
      regs := s.regs, shadow := s.shadow, out := s.out, msixPend := s.msixPend, freeCtr := s.freeCtr, tiles := s.tiles
      hcores := s.hcores, bcores := s.bcores, rng := s.rng, jobs := s.jobs, cells := s.cells, maskJobs := s.maskJobs
      reRig := s.reRig, gateWait := s.gateWait }) h'.rest).trans h.rest,
    fun hs => h'.fine (h.fine hs), fun hs => h'.cells (h.cells hs)⟩

theorem each {α : Type} {f : State → α → State} (hf : ∀ u a, Serviced u (f u a)) (s : State) (l : List α) : Serviced s (s.each l f) := by
  induction l generalizing s with
  | nil => exact refl s
  | cons a l ih => exact (hf s a).trans (ih (f s a))

theorem ite {c : Prop} [Decidable c] (h : Serviced s t) (h' : Serviced s u) : Serviced s (if c then t else u) := by
  split
  · exact h
  · exact h'

theorem ite_trans {c : Prop} [Decidable c] (h : Serviced s t) (h' : Serviced t u) : Serviced s (if c then u else t) := ite (h.trans h') h

theorem onlyIf {f : State → State} (hf : ∀ u, Serviced u (f u)) (s : State) (c : Bool) : Serviced s (s.onlyIf c f) := by
  cases c
  · exact refl s
  · exact hf s

/-- A change of registers and of what is not memory, tiles or cells. -/
theorem of_rest (hregs : ∀ r, r.ofService = false → t.rd r = s.rd r)
    (hrest : ({ t with
      regs := s.regs, shadow := s.shadow, out := s.out, msixPend := s.msixPend, freeCtr := s.freeCtr, tiles := s.tiles
      hcores := s.hcores, bcores := s.bcores, rng := s.rng, jobs := s.jobs, cells := s.cells, maskJobs := s.maskJobs
      reRig := s.reRig, gateWait := s.gateWait } : State) = s) (htiles : t.tiles = s.tiles := by rfl) (hcells : t.cells = s.cells := by rfl) : Serviced s t :=
  ⟨hregs, hrest, fun h e he => h e (htiles ▸ he), fun h e he => h e (hcells ▸ he)⟩

theorem of_jobs (h : JobsOnly s t) : Serviced s t where
  regs r hr := h.regs r (Reg.not_ofUnits_of_ofWork (Reg.not_ofWork_of_ofService hr))
  rest := (congrArg (fun x : State => { x with maskJobs := s.maskJobs, reRig := s.reRig, gateWait := s.gateWait }) h.rest)
  fine := h.fine
  cells := h.cells

theorem of_units (h : UnitsOnly s t) : Serviced s t := of_jobs h.jobsOnly

theorem store (s : State) {r : Reg} (hr : r.ofService = true) (f : DWord → DWord) : Serviced s (s.store r f) :=
  of_rest (fun r' h' => by rw [State.rd_store, if_neg fun h : r = r' => by simp [h, h'] at hr]) rfl

theorem setFld (s : State) {r : Reg} (hr : r.ofService = true) (hi lo x : Nat) : Serviced s (s.setFld r hi lo x) := store s hr _
theorem setBit (s : State) {r : Reg} (hr : r.ofService = true) (i : Nat) (b : Bool) : Serviced s (s.setBit r i b) := store s hr _
theorem wr (s : State) {r : Reg} (hr : r.ofService = true) (v : DWord) : Serviced s (s.wr r v) := store s hr _
theorem bump (s : State) {r : Reg} (hr : r.ofService = true) (d : Nat) : Serviced s (s.bump r d) := setFld s hr _ _ _
theorem bump64 (s : State) {r : Reg} (hr : r.ofService = true) : Serviced s (s.bump64 r) := wr s hr _

theorem event (s : State) {stat : Reg} (h : stat.ofService = true) (en vec : Reg) (i : Nat) : Serviced s (s.event stat en vec i) := by
  unfold State.event
  exact ite ((setBit s h i true).trans (of_units (.sendMsix _ _))) (setBit s h i true)

theorem fabEvt (s : State) (i : Nat) : Serviced s (s.fabEvt i) := event s rfl _ _ i
theorem hsfEvt (s : State) (i : Nat) : Serviced s (s.hsfEvt i) := event s rfl _ _ i
theorem bneEvt (s : State) (i : Nat) : Serviced s (s.bneEvt i) := event s rfl _ _ i
theorem rngEvt (s : State) (i : Nat) : Serviced s (s.rngEvt i) := event s rfl _ _ i

theorem sound (h : Serviced s t) (hs : s.Sound) : t.Sound := by
  have hfine := h.fine fun e he => ⟨hs.tiles e he, hs.vectors e he⟩
  exact ⟨(congrArg State.sram h.rest :) ▸ hs.sram, (congrArg State.ddr h.rest :) ▸ hs.ddr, fun e he => (hfine e he).1,
    fun e he => (hfine e he).2, h.cells hs.cells⟩

theorem setTile (s : State) (t : Nat) {f : Tile → Tile} (hf : (s.tile t).Fine → (f (s.tile t)).Fine) : Serviced s (s.setTile t f) := of_units (.setTile s t hf)

/-! ### Draws -/

theorem request {k n : Nat} {bs : Bytes} {b : Bool} (h : s.request k n = .got bs b t) : Serviced s t := by
  unfold State.request at h
  split at h
  · cases h
  dsimp only at h
  split at h
  · cases h
  cases h
  refine .trans ?_ (of_units (.setRng _ _))
  refine .trans ?_ (onlyIf (fun u => rngEvt u 3) _ _)
  refine .trans ?_ (setBit _ (r := .rngDrbStat k) rfl _ _)
  refine .trans ?_ (bump64 _ (r := .rngDrbReqs k) rfl)
  exact (setFld s (r := .rngDrbCount k) rfl _ _ _).trans (setFld _ (r := .rngDrbMaxcount k) rfl _ _ _)

theorem seedTile {k : Nat} {bs : Bytes} {b : Bool} (h : s.seedTile k = .got bs b t) : Serviced s t := by
  unfold State.seedTile at h
  split at h
  · rename_i hreq
    cases h
    have hmask (u : State) : Serviced u { u with maskJobs := tset k 0 u.maskJobs } := of_rest (fun _ _ => rfl) rfl
    exact (((request hreq).trans (hmask _)).trans (setTile _ k id)).trans (setBit _ (r := .fabTileStat k) rfl _ _)
  · cases h
  · cases h

/-! ### Tiles -/

theorem loadPatch (s : State) (t : Nat) : Serviced s (s.loadPatch t) := setTile s t fun h => by
  cases s.boot.patch <;> exact h

theorem loadKernels (s : State) (t p : Nat) : Serviced s (s.loadKernels t p) := by
  unfold State.loadKernels
  split
  · exact refl s
  · exact (wr s (r := .tilKernel t) rfl _).trans (setTile _ t id)

theorem loadShellKernels (s : State) (t : Nat) : Serviced s (s.loadShellKernels t) := by
  unfold State.loadShellKernels
  split
  · exact loadKernels s t _
  · exact refl s

theorem shellWhole (s : State) (sh : Nat) : Serviced s (s.shellWhole sh) := of_units (.setShellState s sh _)

theorem placeTile (s : State) (t : Nat) : Serviced s (s.placeTile t) := by
  unfold State.placeTile
  split
  · exact ite_trans (of_units (.joinShell s t _)) (shellWhole _ _)
  · exact of_units (.leaveShell s t 2)

theorem setTileState (s : State) (t x : Nat) : Serviced s (s.setTileState t x) := of_units (.setTileState s t x)

theorem toRole (s : State) (t back : Nat) : Serviced s (s.toRole t back) := by
  unfold State.toRole
  split
  · exact (setTileState s t 1).trans (loadShellKernels _ t)
  · exact setTileState s t 0
  · exact setTileState s t 2
  · exact setTileState s t 4
  · exact (placeTile s t).trans (loadShellKernels _ t)

theorem afterLoss (s : State) (sh : Option Nat) (mc : Bool) : Serviced s (s.afterLoss sh mc) := by
  unfold State.afterLoss
  split
  · exact refl s
  · exact ite (refl s) (of_units (.repairShell s _ mc))

theorem logOutcome (s : State) (t e now x : Nat) : Serviced s (s.logOutcome t e now x) :=
  ite (setFld s (r := .fabMclogInfo e) rfl _ _ _) (refl s)

theorem logCheck (s : State) (t cause : Nat) (sh : Option Nat) (job : Nat) (at_ : Option Nat) : Serviced s (s.logCheck t cause sh job at_) := by
  unfold State.logCheck
  dsimp only
  have hlost : Serviced s (if s.bit (.fabMclogInfo (s.fld .fabMclogHead 5 0)) 63 = true then s.setBit .fabMclogHead 31 true else s) :=
    ite (setBit s (r := .fabMclogHead) rfl _ _) (refl s)
  refine .trans ?_ (wr _ (r := .fabMclogInfo _) rfl _)
  refine .trans ?_ (wr _ (r := .fabMclogTime _) rfl _)
  refine .trans ?_ (of_units (.draw _ 2))
  exact hlost.trans (setFld _ (r := .fabMclogHead) rfl _ _ _)

theorem retireSpare (s : State) (t : Nat) : Serviced s (s.retireSpare t) :=
  ((of_units (.leaveShell s t 4)).trans (setTile _ t id)).trans (afterLoss _ _ _)

/-! ### Islands -/

theorem dropUncarried (s : State) : Serviced s s.dropUncarried := of_jobs (.dropUncarried s)

theorem holdGate (s : State) (n : Nat) : Serviced s (s.holdGate n) := of_rest (fun _ _ => rfl) rfl

theorem drainIsland (s : State) (n : Nat) : Serviced s (s.drainIsland n) :=
  ((setFld s (r := .fabIslStat n) rfl 6 4 1).trans (each (fun u sh => of_units (.setShellState u sh 4)) _ _)).trans (dropUncarried _)

theorem gateIsland (s : State) (n : Nat) : Serviced s (s.gateIsland n) := by
  unfold State.gateIsland
  split
  · exact ite (holdGate s n) (drainIsland s n)
  · exact holdGate s n
  · exact refl s

theorem ungateIsland (s : State) (n : Nat) : Serviced s (s.ungateIsland n) := by
  unfold State.ungateIsland
  split
  · exact (setFld s (r := .fabIslStat n) rfl 6 4 0).trans (each (fun u sh => of_units (.repairShell u sh false)) _ _)
  · exact setFld s (r := .fabIslStat n) rfl 6 4 2
  · exact refl s

theorem settleGate (s : State) (n : Nat) : Serviced s (s.settleGate n) := by
  have hwait : Serviced s { s with gateWait := s.gateWait.filter (· ≠ n) } := of_rest (fun _ _ => rfl) rfl
  exact ite (hwait.trans (gateIsland _ n)) (hwait.trans (ungateIsland _ n))

theorem wakeDone (s : State) (n : Nat) : Serviced s (s.wakeDone n) := by
  unfold State.wakeDone
  refine ite (refl s) ?_
  dsimp only
  refine .trans ?_ (dropUncarried _)
  refine ite_trans ?_ (settleGate _ n)
  exact (setFld s (r := .fabIslStat n) rfl 6 4 0).trans (each (fun u sh => of_units (.repairShell u sh false)) _ _)

/-! ### The end of a BIST -/

theorem placed (s : State) (t : Nat) : Serviced s ((s.placeTile t).loadShellKernels t) := (placeTile s t).trans (loadShellKernels _ t)

theorem returned (s : State) (t back : Nat) : Serviced s ((s.toRole t back).setTile t (fun x => { x with back := 0 })) :=
  (toRole s t back).trans (setTile _ t id)

theorem bistPassed (s : State) (t : Nat) (why : BistFor) : Serviced s (s.bistPassed t why) := by
  unfold State.bistPassed
  cases why with
  | check e now =>
    refine ite ?_ (((placed s t).trans (logOutcome _ _ _ _ _)).trans (wakeDone _ _))
    exact ((((of_units (.leaveShell s t 4)).trans (logOutcome _ _ _ _ _)).trans (fabEvt _ _)).trans (wakeDone _ _)).trans (dropUncarried _)
  | spare => exact placed s t
  | bringUp => exact (placed s t).trans (fabEvt _ _)
  | wake => exact (returned s t _).trans (wakeDone _ _)
  | block =>
    dsimp only
    split
    · exact ite_trans (returned s t _) (of_units (.repairShell _ _ _))
    · exact returned s t _
  | join => exact ite (refl s) (placed s t)

theorem bistFailed (s : State) (t : Nat) (why : BistFor) : Serviced s (s.bistFailed t why) := by
  have hleft : Serviced s (s.leaveShell t 4) := of_units (.leaveShell s t 4)
  unfold State.bistFailed
  cases why with
  | check e now => exact (((hleft.trans (logOutcome _ _ _ _ _)).trans (fabEvt _ _)).trans (wakeDone _ _)).trans (dropUncarried _)
  | bringUp => exact hleft.trans (fabEvt _ _)
  | wake => exact (hleft.trans (fabEvt _ _)).trans (wakeDone _ _)
  | block => exact ((hleft.trans (fabEvt _ _)).trans (afterLoss _ _ _)).trans (dropUncarried _)
  | join | spare => exact hleft.trans (fabEvt _ _)

theorem periodicDone (s : State) (t : Nat) (ok : Bool) : Serviced s (s.periodicDone t ok) := by
  have hback (u : State) : Serviced u (u.setTile t (fun x => { x with periodic := false })) := setTile u t id
  have hresult (u : State) (x : Nat) : Serviced u (u.setFld (.fabTileStat t) 25 24 x) := setFld u rfl _ _ _
  unfold State.periodicDone
  dsimp only
  refine ite (((((hresult s 2).trans (hback _)).trans (retireSpare _ t)).trans (fabEvt _ _)).trans (dropUncarried _)) ?_
  split
  · rename_i hseed
    exact (((seedTile hseed).trans (loadPatch _ t)).trans (hresult _ 1)).trans (hback _)
  · refine .trans ?_ (dropUncarried _)
    refine .trans ?_ (afterLoss _ _ _)
    exact ((of_units (.leaveShell s t 3)).trans (hresult _ 3)).trans (setTile _ t id)
  · exact refl s

theorem tileBistDone (s : State) (t : Nat) (ok : Bool) : Serviced s (s.tileBistDone t ok) := by
  have hscrub (u : State) : Serviced u (u.wr (.tilScrub t) (u.rd .genTime)) := wr u rfl _
  have hresult (u : State) (x : Nat) : Serviced u (u.setFld (.fabTileStat t) 25 24 x) := setFld u rfl _ _ _
  unfold State.tileBistDone
  split
  · exact ite ((hscrub s).trans (periodicDone _ t ok)) (refl s)
  · refine ite (refl s) (ite ?_ ?_)
    · exact ((hresult s 2).trans (setTile _ t id)).trans (bistFailed _ t _)
    · have hloaded := (hscrub s).trans (loadPatch _ t)
      split
      · rename_i hseed
        exact ((((hloaded.trans (seedTile hseed)).trans (hresult _ 1)).trans (setTile _ t id))).trans (bistPassed _ t _)
      · exact (hloaded.trans (hresult _ 3)).trans (setTile _ t id)
      · exact refl s

theorem seedWaiting (s : State) : Serviced s s.seedWaiting :=
  each (fun u t => ite (refl u) ((setTile u t id).trans (tileBistDone _ t true))) s _

/-! ### Cores -/

theorem setHcore (s : State) (k : Nat) (f : HCore → HCore) : Serviced s (s.setHcore k f) := of_units (.setHcore s k f)

theorem tested (s : State) (k : Nat) : Serviced s (s.tested k) := of_rest (fun _ _ => rfl) rfl

theorem hashBistDone (s : State) (k : Nat) (ok : Bool) : Serviced s (s.hashBistDone k ok) := by
  unfold State.hashBistDone
  refine ite (refl s) (ite ?_ (ite (ite ((setHcore s k _).trans (hsfEvt _ _)) ((setHcore s k _).trans (hsfEvt _ _)))
    (ite (setHcore s k _) (ite (setHcore s k _) (((setHcore s k _).trans (hsfEvt _ _)).trans (dropUncarried _))))))
  exact ite ((tested s k).trans (setHcore _ k _)) (((tested s k).trans (setHcore _ k _)).trans (hsfEvt _ _))

theorem setBneState (s : State) (c x : Nat) : Serviced s (s.setBneState c x) := of_units (.setBneState s c x)

theorem bneBistDone (s : State) (c : Nat) (ok : Bool) : Serviced s (s.bneBistDone c ok) := by
  have hresult (u : State) (x : Nat) : Serviced u (u.setFld (.bneCoreState c) 21 20 x) := setFld u rfl _ _ _
  have hjoined : Serviced s (s.bneJoined c ok) := by
    have h := ((tested s c).trans (hresult _ (if ok then 1 else 2))).trans (setBneState _ c (if ok then 0 else 3))
    exact ite h (h.trans (bneEvt _ _))
  have hended : Serviced s ((s.setFld (.bneCoreState c) 21 20 (if ok then 1 else 2)).setBcore c (fun b => { b with cmd := false, leaving := false })) :=
    (hresult s _).trans (of_units (.setBcore _ c _))
  unfold State.bneBistDone
  refine ite (refl s) (ite hjoined (ite (ite ?_ ?_) (ite ?_ (ite ?_ ?_))))
  · exact (hended.trans (setBneState _ c _)).trans (bneEvt _ _)
  · exact (hended.trans (setBneState _ c _)).trans (bneEvt _ _)
  · exact hended.trans (setBneState _ c _)
  · exact hended.trans (setBneState _ c _)
  · exact ((hended.trans (setBneState _ c _)).trans (bneEvt _ _)).trans (dropUncarried _)

end Serviced

/-! ### Machine checks -/

/-- Units are handled, once a block reset of the unit in question may have ended. -/
def ServicedOrEnded (s t : State) : Prop := Serviced s t ∨ Serviced s.endBlock t

namespace ServicedOrEnded
variable {s t u : State}

theorem refl (s : State) : ServicedOrEnded s s := .inl (.refl s)

theorem trans (h : ServicedOrEnded s t) (h' : Serviced t u) : ServicedOrEnded s u := h.imp (·.trans h') (·.trans h')

theorem ite {c : Prop} [Decidable c] (h : ServicedOrEnded s t) (h' : ServicedOrEnded s u) : ServicedOrEnded s (if c then t else u) := by
  split
  · exact h
  · exact h'

theorem otp (h : ServicedOrEnded s t) : t.otp = s.otp := h.elim (fun h => (congrArg State.otp h.rest :)) fun h => (congrArg State.otp h.rest :)

theorem held (h : ServicedOrEnded s t) : t.boot.held = s.boot.held :=
  h.elim (fun h => (congrArg (fun x : State => x.boot.held) h.rest :)) fun h => (congrArg (fun x : State => x.boot.held) h.rest :)

theorem sound (h : ServicedOrEnded s t) (hs : s.Sound) : t.Sound :=
  h.elim (fun h => h.sound hs) fun h => h.sound ⟨hs.sram, hs.ddr, hs.tiles, hs.vectors, hs.cells⟩

theorem rd (h : ServicedOrEnded s t) {r : Reg} (hr : r.ofService = false) (hne : r ≠ .rstBlockStat) : t.rd r = s.rd r := by
  rcases h with h | h
  · exact h.regs r hr
  · refine (h.regs r hr).trans ?_
    change ((s.setFld .rstBlockStat 1 0 1).setFld .rstBlockStat 5 4 0).rd r = s.rd r
    rw [State.rd_setFld, if_neg hne.symm, State.rd_setFld, if_neg hne.symm]

theorem tileBlockEnds (s : State) (t : Nat) : ServicedOrEnded s (s.tileBlockEnds t) :=
  ite (.inr ((Serviced.setTileState _ t _).trans (.setTile _ t id))) (refl s)

theorem retryOn (s : State) (u : JobUnit) (counts : Bool) (x : Job) : Serviced s (s.retryOn u counts x) := .of_jobs (.retryOn s u counts x)

theorem tileCheck (s : State) (t cause : Nat) (at_ : Option Nat) : ServicedOrEnded s (s.tileCheck t cause at_) := by
  unfold State.tileCheck
  refine ite (tileBlockEnds s t) ?_
  dsimp only
  generalize hends : s.tileBlockEnds t = u
  have hcount (x n : Nat) : Serviced u (((u.setFld (.fabTileStat t) 19 16 x).setFld (.fabTileStat t) 23 20 n).bump .fabMcCount) :=
    ((Serviced.setFld u (r := .fabTileStat t) rfl _ _ _).trans (.setFld _ (r := .fabTileStat t) rfl _ _ _)).trans (.bump _ (r := .fabMcCount) rfl 1)
  have hretry (v : State) (j : Option Job) (sh : Option Nat) : Serviced v (match j, sh with
      | some x, some n => v.retryOn (.shell n) true x
      | _, _ => v) := by
    split
    · exact retryOn _ _ _ _
    · exact .refl v
  have hlogged (v : State) (sh : Option Nat) (job : Nat) : Serviced v ((v.logCheck t cause sh job at_).fabEvt 0) := (Serviced.logCheck v t cause sh job at_).trans (.fabEvt _ 0)
  have hwiped (v : State) (e n : Nat) : Serviced v ((v.leaveShell t 3).setTile t
      (fun x => { x.wipe with bist := some (.check e n), joining := none, back := 0, periodic := false })) :=
    (Serviced.of_units (.leaveShell v t 3)).trans (.setTile _ t fun _ => ⟨rfl, rfl⟩)
  have hchecked := ((hcount (satAdd 4 (u.fld (.fabTileStat t) 19 16) 1) cause).trans (hretry _ (u.shellJob (u.shellOf t)) (u.shellOf t)))
  have hstart : ServicedOrEnded s u := hends ▸ tileBlockEnds s t
  refine ite (hstart.trans ((hchecked.trans (hlogged _ _ _)).trans (.dropUncarried _))) (hstart.trans ?_)
  exact ((((hchecked.trans (hlogged _ _ _)).trans (hwiped _ _ _)).trans (.afterLoss _ _ _)).trans (.afterLoss _ _ _)).trans (.dropUncarried _)

theorem hashCheck (s : State) (k : Nat) : ServicedOrEnded s (s.hashCheck k) := by
  unfold State.hashCheck
  have hends : ServicedOrEnded s (if s.boot.block = some (4, k) then s.endBlock.setHcore k (fun h => { h with state := .inService }) else s) :=
    ite (.inr (.setHcore _ k _)) (refl s)
  refine ite hends (hends.trans ?_)
  refine .trans ?_ (.dropUncarried _)
  refine .trans ?_ (.each (fun u (j : Job) => .of_jobs (.retry u j.id true)) _ _)
  exact ((Serviced.setHcore _ k _).trans (.bump _ (r := .hsfMcCount) rfl 1)).trans (.hsfEvt _ 0)

theorem coreLost (s : State) (c : Nat) (x : Job) : Serviced s (s.coreLost c x) :=
  .ite (retryOn _ _ _ _) (.of_jobs ((UnitsOnly.lostCycles s x).jobsOnly.trans (.abort _ _)))

theorem bneCheck (s : State) (c cause : Nat) : ServicedOrEnded s (s.bneCheck c cause) := by
  unfold State.bneCheck
  have hends : ServicedOrEnded s (if s.boot.block = some (5, c) then s.endBlock.setBneState c 1 else s) :=
    ite (.inr (.setBneState _ c 1)) (refl s)
  refine ite hends (hends.trans ?_)
  refine .trans ?_ (.dropUncarried _)
  refine .trans ?_ (.each (fun u j => coreLost u c j) _ _)
  refine .trans ?_ (.of_units (.wipeCore _ c))
  refine .trans ?_ (.bneEvt _ 0)
  refine .trans ?_ (.bump _ (r := .bneMcCount) rfl 1)
  exact ((Serviced.setBneState _ c 2).trans (.setFld _ (r := .bneCoreState c) rfl _ _ _)).trans (.setFld _ (r := .bneCoreState c) rfl _ _ _)

/-- A draw before the check. -/
theorem of_draw {n : Nat} (h : ServicedOrEnded (s.draw n).2 t) : ServicedOrEnded s t := by
  have hends : Serviced s.endBlock (s.draw n).2.endBlock := ⟨fun _ _ => rfl, rfl, id, id⟩
  rcases h with h | h
  · exact .inl (.trans (.of_units (.draw s n)) h)
  · exact .inr (hends.trans h)

theorem unitCheck (s : State) (u : ResetUnit) : ServicedOrEnded s (s.unitCheck u) := by
  unfold State.unitCheck
  dsimp only
  cases u with
  | tile t => exact (tileCheck _ t _ _).of_draw
  | hash k => exact (hashCheck _ k).of_draw
  | bne c => exact (bneCheck _ c _).of_draw
  | other => exact (refl _).of_draw

end ServicedOrEnded

end Sys2Proof.Machine
end

section
/-! PROOFS. Reset triggers, crossings that do not quiet, and block resets (O53). -/

namespace Sys2Proof.Machine

/-! ### Warm and cold triggers -/

theorem reset_levels {s t : State} {cold : Bool} (hio : s.power.io = true) (h : ResetFrom s t cold) :
    t.level .clkreqN = .low ∧ t.level .ddr = (if cold then .highZ else .selfRefresh) ∧ t.level .ddrResetN = (if cold then .low else .high) := by
  have hpower : t.power.io = true := by rw [h.power, hio]
  simp [State.level, hpower, State.poweredLevel, h.held, h.kind]

theorem flushEnded_of_unsealed {s : State} (h : ∀ j ∈ s.jobs, j.phase ≠ .sealed) : s.flushEnded = s := by
  have hnone : s.jobs.filter (fun j => decide (j.phase = .sealed)) = [] := by
    rw [List.filter_eq_nil_iff]
    exact fun j hj => by simpa using h j hj
  unfold State.flushEnded
  split
  · rfl
  · rw [hnone]
    rfl

/-- A warm reset that completes no job and ends no transition keeps the slots. -/
theorem systemReset_slots {s : State} (hio : s.power.io = true) (hbackup : s.power.backup = false) (hheld : s.boot.held = false) (cause src : Nat)
    (count : Bool) (hjobs : ∀ j ∈ s.jobs, j.phase ≠ .sealed) (h : s.transition = none ∨ ∃ m, s.transition = some m ∧ m.wiped = true) :
    (s.systemReset false cause src count).slots = s.slots := by
  have hdrive (u : State) : (u.driveReset cause).slots = u.slots := (congrArg State.slots (driveReset_rest u cause) :)
  rw [systemReset_eq hio hbackup hheld, hdrive, flushEnded_of_unsealed hjobs]
  exact enterReset_slots h

section
variable {s : State} (hio : s.power.io = true) (hbackup : s.power.backup = false) (hheld : s.boot.held = false)
include hio hbackup hheld

theorem warmReset_spec {cause : Nat} (hcause : cause < 16) :
    ∃ t, (Host.Outcome.next (s.systemReset false cause 0) : Answer) = .next t ∧ t.boot.held = true ∧ t.boot.cold = false ∧ t.fld .rstCause 3 0 = cause ∧
      t.fld .rstCause 5 4 = 1 ∧ t.fld .rstWarmCount 31 0 = min (2 ^ 32 - 1) (s.fld .rstWarmCount 31 0 + 1) ∧ t.jobs = [] ∧ t.rig = none ∧
      ((∀ j ∈ s.jobs, j.phase ≠ .sealed) → (s.transition = none ∨ ∃ m, s.transition = some m ∧ m.wiped = true) → t.slots = s.slots) ∧
      t.otp = s.otp ∧ t.bbram = s.bbram ∧ t.rd .genTime = s.rd .genTime ∧ t.rd .genBootSeq = s.rd .genBootSeq ∧
      t.level .clkreqN = .low ∧ t.level .ddr = .selfRefresh ∧ t.level .ddrResetN = .high ∧
      (cause ≠ 2 → t.pins.resetLow = true) ∧ ∀ n, t.rd (.slmSlicePasid n) = s.rd (.slmSlicePasid n) := by
  have hreset := systemReset_resets hio hbackup hheld false cause 0 true
  have hlatched := systemReset_cause hio hbackup hheld false cause 0 true
  have hword := getF_causeWord false (src := 0) (merged := 0) hcause
  obtain ⟨hclk, hddr, hddrReset⟩ := reset_levels hio hreset
  refine ⟨_, rfl, hreset.held, hreset.kind, ?_, ?_, systemReset_warmCount hio hbackup hheld cause 0 true, hreset.jobs, hreset.rig,
    systemReset_slots hio hbackup hheld cause 0 true, hreset.otp, hreset.bbram, ?_, ?_, hclk, hddr, hddrReset,
    systemReset_resetLow hio hbackup hheld false 0 true, fun n => ?_⟩
  · rw [State.fld, hlatched, hword.1]
  · rw [State.fld, hlatched, hword.2]
    rfl
  · rw [systemReset_rd hio hbackup hheld false cause 0 true rfl rfl (by simp)]
    rfl
  · rw [systemReset_rd hio hbackup hheld false cause 0 true rfl rfl (by simp)]
    rfl
  · rw [systemReset_rd hio hbackup hheld false cause 0 true rfl rfl (by simp)]
    rfl

/-- What a cold reset leaves. -/
structure ColdReset (s t : State) (cause : Nat) : Prop extends ResetFrom s t true where
  cause : t.fld .rstCause 3 0 = cause
  coldKind : t.fld .rstCause 5 4 = 0
  bootSeq : t.rd .genBootSeq = s.rd .genBootSeq
  time : t.rd .genTime = 0
  low : t.pins.resetLow = true

theorem coldReset_spec {cause : Nat} (hcause : cause < 16) (hpin : cause ≠ 2) : ColdReset s (s.systemReset true cause 0) cause := by
  have hlatched := systemReset_cause hio hbackup hheld true cause 0 true
  have hword := getF_causeWord true (src := 0) (merged := 0) hcause
  refine ⟨systemReset_resets hio hbackup hheld true cause 0 true, ?_, ?_, ?_, ?_, systemReset_resetLow hio hbackup hheld true 0 true hpin⟩
  · rw [State.fld, hlatched, hword.1]
  · rw [State.fld, hlatched, hword.2]
    rfl
  · rw [systemReset_rd hio hbackup hheld true cause 0 true rfl rfl (by simp)]
    rfl
  · rw [systemReset_rd hio hbackup hheld true cause 0 true rfl rfl (by simp)]
    rfl

end

/-- What the statement says of a cold reset. -/
theorem ColdReset.spec {s t : State} {cause : Nat} (hio : s.power.io = true) (h : ColdReset s t cause) :
    ∃ x, (Host.Outcome.next t : Answer) = .next x ∧ x.boot.held = true ∧ x.boot.cold = true ∧ x.fld .rstCause 3 0 = cause ∧ x.fld .rstCause 5 4 = 0 ∧
      x.jobs = [] ∧ x.rig = none ∧ x.slots = [] ∧ x.memo = [] ∧ x.ddr = [] ∧ x.boot.keys = none ∧ x.otp = s.otp ∧ x.bbram = s.bbram ∧
      x.rd .genBootSeq = s.rd .genBootSeq ∧ x.rd .genTime = 0 ∧ x.pins.resetLow = true ∧
      x.level .clkreqN = .low ∧ x.level .ddr = .highZ ∧ x.level .ddrResetN = .low := by
  obtain ⟨hclk, hddr, hddrReset⟩ := reset_levels hio h.toResetFrom
  exact ⟨t, rfl, h.held, h.kind, h.cause, h.coldKind, h.jobs, h.rig, h.slots rfl, h.memo rfl, h.ddr rfl, h.keys rfl, h.otp, h.bbram, h.bootSeq, h.time,
    h.low, hclk, hddr, hddrReset⟩

/-! ### The triggers -/

theorem writeRstCtrl_warm {s : State} (h : s.rstActs = true) : exec .rstCtrlWarm s = .next (s.systemReset false 8 0) := by
  refine congrArg Host.Outcome.next ?_
  rw [State.writeRstCtrl, if_neg (by simp [h]), if_neg (by decide), if_pos (by decide)]

theorem writeRstCtrl_cold {s : State} (h : s.rstActs = true) : exec .rstCtrlCold s = .next (s.systemReset true 9 0) := by
  refine congrArg Host.Outcome.next ?_
  rw [State.writeRstCtrl, if_neg (by simp [h]), if_pos (by decide)]

theorem writeRstCtrl_idle {s : State} (h : s.rstActs = false) (v : DWord) : s.writeRstCtrl v = s := by
  rw [State.writeRstCtrl, if_pos (by simp [h])]

/-- Every warm trigger that acts takes the warm reset of its cause. -/
theorem warmTrigger {c : Instr} {cause : Nat} {s : State} (hheld : s.boot.held = false)
    (h : c = .rstCtrlWarm ∧ cause = 8 ∧ s.rstActs = true ∨ c = .scWatchdogExpiry ∧ cause = 3 ∧ s.firmwareRuns = true ∨
      c = .scFatal ∧ cause = 4 ∧ s.boot.starting = false ∨
      (∃ ns, c = .resetNInput ns ∧ 500 ≤ ns) ∧ cause = 2 ∧ s.pins.resetLow = false ∧ s.pins.resetLeft = 0 ∧ s.power.por = false) :
    exec c s = .next (s.systemReset false cause 0) ∧ cause < 16 := by
  rcases h with ⟨rfl, rfl, h⟩ | ⟨rfl, rfl, h⟩ | ⟨rfl, rfl, h⟩ | ⟨⟨ns, rfl, hns⟩, rfl, hlow, hleft, hpor⟩
  · exact ⟨writeRstCtrl_warm h, by decide⟩
  · refine ⟨?_, by decide⟩
    change execScWatchdogExpiry s = _
    rw [execScWatchdogExpiry, if_pos h]
  · refine ⟨?_, by decide⟩
    change execScFatal s = _
    rw [execScFatal, State.scFatal, if_neg (by simp [hheld]), if_neg (by simp [h])]
  · refine ⟨?_, by decide⟩
    change execResetNInput ns s = _
    rw [execResetNInput, if_neg (by simp [hlow, hleft, hpor]; omega)]

/-- The LPDDR5X controller's machine check takes its cold reset. -/
theorem ddrCheck_spec {s : State} (hio : s.power.io = true) (hbackup : s.power.backup = false) (hheld : s.boot.held = false) (cause : Nat) :
    ColdReset s (s.ddrCheck cause) 11 := by
  have h := coldReset_spec (s := s.setFld .ddrMcCause 2 0 cause) hio hbackup hheld (cause := 11) (by decide) (by decide)
  rw [State.ddrCheck, if_neg (by simp [hio, hbackup, hheld])]
  exact { held := h.held, starting := h.starting, kind := h.kind, jobs := h.jobs, rig := h.rig, otp := h.otp, bbram := h.bbram, flash := h.flash
          power := h.power, sram := h.sram, slots := h.slots, memo := h.memo, ddr := h.ddr, keys := h.keys, due := h.due
          sound := fun hs =>
            have hsound := h.sound ⟨hs.sram, hs.ddr, hs.tiles, hs.vectors, hs.cells⟩
            ⟨hsound.sram, hsound.ddr, hsound.tiles, hsound.vectors, hsound.cells⟩
          cause := h.cause, coldKind := h.coldKind
          bootSeq := h.bootSeq.trans (by rw [State.rd_setFld, if_neg (by simp)])
          time := h.time, low := h.low }

theorem coldTrigger {c : Instr} {cause : Nat} {s : State} (hio : s.power.io = true) (hbackup : s.power.backup = false) (hheld : s.boot.held = false)
    (h : c = .rstCtrlCold ∧ cause = 9 ∧ s.rstActs = true ∨ (∃ x, c = .ddrMachineCheck x) ∧ cause = 11) :
    ∃ t, exec c s = .next t ∧ ColdReset s t cause := by
  rcases h with ⟨rfl, rfl, h⟩ | ⟨⟨x, rfl⟩, rfl⟩
  · exact ⟨_, writeRstCtrl_cold h, coldReset_spec hio hbackup hheld (by decide) (by decide)⟩
  · exact ⟨_, rfl, ddrCheck_spec hio hbackup hheld x⟩

/-! ### Crossings that do not quiet -/

/-- A warm reset in force becomes cold. -/
theorem becomeCold_spec (s : State) (src merged : Nat) : ResetFrom s (s.becomeCold 11 src merged) true ∧ (s.becomeCold 11 src merged).fld .rstCause 3 0 = 11 := by
  have hdrive := driveReset_rest ((s.enterReset true).latchCause true 11 src merged) 11
  refine ⟨(enterReset_resets s true).of_rest ?_, ?_⟩
  · exact congrArg (fun x : State => { x with regs := (s.enterReset true).regs, shadow := (s.enterReset true).shadow, pins := (s.enterReset true).pins }) hdrive
  · rw [State.becomeCold, State.fld, driveReset_rd, latchCause_rd]
    exact (getF_causeWord true (by decide)).1

/-- Outside a reset, the domain's bit is set and the unit answers for it. -/
theorem crossing_unit {s : State} {dm : Nat} (u : ResetUnit) (hdm : dm < 16) (hheld : s.boot.held = false) :
    ((s.setBit .genXingTmo dm true).unitCheck u).bit .genXingTmo dm = true ∧ ((s.setBit .genXingTmo dm true).unitCheck u).boot.held = false ∧
      ((s.setBit .genXingTmo dm true).unitCheck u).otp = s.otp := by
  have h := ServicedOrEnded.unitCheck (s.setBit .genXingTmo dm true) u
  refine ⟨?_, h.held.trans hheld, h.otp⟩
  rw [State.bit, h.rd rfl (by simp)]
  exact (State.bit_setBit s .genXingTmo dm dm true (by omega)).trans (if_pos rfl)

theorem crossingQuietTimeout_spec (s : State) (dm : Nat) (u : ResetUnit) (hdm : dm < 16) :
    (s.boot.held = true → s.boot.cold = false → ∃ t, exec (.crossingQuietTimeout dm u) s = .next t ∧ t.boot.held = true ∧
      t.boot.cold = true ∧ t.slots = [] ∧ t.ddr = [] ∧ t.fld .rstCause 3 0 = 11 ∧ t.otp = s.otp) ∧
    (s.boot.held = true → s.boot.cold = true → exec (.crossingQuietTimeout dm u) s = .next s) ∧
    (s.boot.held = false → 4 ≤ dm → dm ≤ 13 → ∃ t, exec (.crossingQuietTimeout dm u) s = .next t ∧ t.bit .genXingTmo dm = true ∧
      t.boot.held = false ∧ t.otp = s.otp) := by
  refine ⟨fun hheld hcold => ?_, fun hheld hcold => ?_, fun hheld hlo hhi => ?_⟩
  · obtain ⟨hreset, hcause⟩ := becomeCold_spec s 0 (s.fld .rstCause 23 16)
    refine ⟨_, ?_, hreset.held, hreset.kind, hreset.slots rfl, hreset.ddr rfl, hcause, hreset.otp⟩
    change execCrossingQuietTimeout dm u s = _
    rw [execCrossingQuietTimeout, if_pos hheld, if_neg (by simp [hcold])]
  · change execCrossingQuietTimeout dm u s = _
    rw [execCrossingQuietTimeout, if_pos hheld, if_pos hcold]
  · refine ⟨_, ?_, crossing_unit u hdm hheld⟩
    change execCrossingQuietTimeout dm u s = _
    rw [execCrossingQuietTimeout, if_neg (by simp [hheld])]
    exact if_pos ⟨hlo, hhi⟩

/-! ### Block resets -/

theorem blockResult_spec (s : State) {x : Nat} (hx : x < 4) : (s.blockResult x).fld .rstBlockStat 1 0 = x ∧ OnlyRegs [.rstBlockStat] s (s.blockResult x) :=
  ⟨(State.fld_setFld _ _ _ _ _ (by decide) (by decide)).trans (Nat.mod_eq_of_lt (by simpa using hx)), .store (by simp) s _⟩

/-- A block reset that does not begin answers BUSY or REFUSED. -/
theorem blockReset_answers {s : State} {kind idx : Nat} (hacts : s.rstActs = true) (hlo : 1 ≤ kind) (hhi : kind ≤ 5) :
    (s.boot.block.isSome = true ∨ s.blockTaken kind idx = true ∨ s.blockAllowed kind idx = true ∧ s.blockIdle kind idx = false →
      s.blockReset kind idx = s.blockResult 1) ∧
    (s.boot.block = none → s.blockTaken kind idx = false → s.blockAllowed kind idx = false → s.blockReset kind idx = s.blockResult 2) ∧
    (s.boot.block = none → s.blockTaken kind idx = false → s.blockAllowed kind idx = true → s.blockIdle kind idx = true →
      s.blockReset kind idx = s.beginBlock kind idx) := by
  have hkind : ¬ ((!s.rstActs) = true ∨ kind = 0 ∨ 6 ≤ kind) := by simp [hacts]; omega
  have hsplit : s.blockReset kind idx = if s.boot.block.isSome then s.blockResult 1 else if s.blockTaken kind idx then s.blockResult 1
      else if !s.blockAllowed kind idx then s.blockResult 2 else if !s.blockIdle kind idx then s.blockResult 1 else s.beginBlock kind idx := by
    rw [State.blockReset, if_neg (by simpa [or_assoc] using hkind)]
  refine ⟨fun h => ?_, fun hblock htaken hallowed => ?_, fun hblock htaken hallowed hidle => ?_⟩
  · rw [hsplit]
    rcases h with h | h | ⟨hallowed, hidle⟩
    · rw [if_pos h]
    · simp [h]
    · simp [hallowed, hidle]
  · simp [hsplit, hblock, htaken, hallowed]
  · simp [hsplit, hblock, htaken, hallowed, hidle]

/-- What stands while units leave service: RST_BLOCK_STAT, the start, jobs. -/
def State.blockFrame (s : State) : DWord × Boot × List Job := (s.rd .rstBlockStat, s.boot, s.jobs)

/-- The marks of a block reset that begins. -/
def State.blockMarks (s : State) (kind idx : Nat) : State :=
  { ((s.blockResult 0).setFld .rstBlockStat 9 8 0).setFld .rstBlockStat 5 4 1 with boot := { s.boot with block := some (kind, idx) } }

/-- The tile leaves service for the block reset. -/
def State.blockTile (s : State) (t : Nat) : State :=
  (s.setTileState t 3).setTile t (fun x => { x with bist := some .block, back := s.tileState t, periodic := false })

theorem beginBlock_tiles {s : State} {kind idx : Nat} (h4 : kind ≠ 4) (h5 : kind ≠ 5) : s.beginBlock kind idx =
    ((s.blockMarks kind idx).each (((s.blockMarks kind idx).shellsOf ((s.blockMarks kind idx).blockTiles kind idx)).filter
      (fun sh => (s.blockMarks kind idx).shellState sh == 1)) (fun s sh => s.setShellState sh 2)).each ((s.blockMarks kind idx).blockTiles kind idx)
      State.blockTile := by
  unfold State.beginBlock
  split
  · exact absurd rfl h4
  · exact absurd rfl h5
  · rfl

theorem blockTile_frame (s : State) (t : Nat) : (s.blockTile t).blockFrame = s.blockFrame :=
  Prod.ext (show (s.setTileState t 3).rd .rstBlockStat = _ by simp [State.setTileState, State.blockFrame]) rfl

theorem beginBlock_frame (s : State) (kind idx : Nat) : (s.beginBlock kind idx).blockFrame = (s.blockMarks kind idx).blockFrame := by
  by_cases h4 : kind = 4
  · subst h4; rfl
  by_cases h5 : kind = 5
  · subst h5
    exact Prod.ext (show ((s.blockMarks 5 idx).setBneState idx 2).rd .rstBlockStat = _ by simp [State.setBneState, State.blockFrame]) rfl
  have hshell (u : State) (sh : Nat) : (u.setShellState sh 2).blockFrame = u.blockFrame :=
    Prod.ext (show (u.setShellState sh 2).rd .rstBlockStat = _ by simp [State.setShellState, State.blockFrame]) rfl
  rw [beginBlock_tiles h4 h5, State.each_keeps State.blockFrame State.blockTile blockTile_frame,
    State.each_keeps State.blockFrame (fun s sh => s.setShellState sh 2) hshell]

theorem blockMarks_spec (s : State) (kind idx : Nat) : (s.blockMarks kind idx).fld .rstBlockStat 1 0 = 0 ∧ (s.blockMarks kind idx).blockPhase = 1 := by
  have hrd : (s.blockMarks kind idx).rd .rstBlockStat = setF (setF (setF (s.rd .rstBlockStat) 1 0 0) 9 8 0) 5 4 1 := by
    change (((s.blockResult 0).setFld .rstBlockStat 9 8 0).setFld .rstBlockStat 5 4 1).rd .rstBlockStat = _
    simp [State.blockResult]
  constructor
  · rw [State.fld, hrd, getF_setF_ne _ _ _ _ _ _ (by decide) (by decide) (by decide), getF_setF_ne _ _ _ _ _ _ (by decide) (by decide) (by decide), getF_setF _ _ _ _ (by decide) (by decide)]
    rfl
  · rw [State.blockPhase, State.fld, hrd, getF_setF _ _ _ _ (by decide) (by decide)]
    rfl

theorem hcore_setHcore (s : State) (k : Nat) (f : HCore → HCore) : (s.setHcore k f).hcore k = f (s.hcore k) := by simp [State.hcore, State.setHcore]

theorem bneState_setBneState (s : State) (c : Nat) {x : Nat} (hx : x < 8) : (s.setBneState c x).bneState c = x :=
  (State.fld_setFld _ _ _ _ _ (by decide) (by decide)).trans (Nat.mod_eq_of_lt (by simpa using hx))

theorem blockTile_spec (s : State) (t : Nat) : (s.blockTile t).tileState t = 3 ∧ ((s.blockTile t).tile t).bist = some .block := by
  refine ⟨State.fld_setFld _ _ _ _ _ (by decide) (by decide), ?_⟩
  simp [State.blockTile]

/-- The unit of a block reset that begins has left service. -/
theorem beginBlock_unit (s : State) (kind idx : Nat) :
    (kind = 1 → (s.beginBlock kind idx).tileState idx = 3 ∧ ((s.beginBlock kind idx).tile idx).bist = some .block) ∧
    (kind = 4 → ((s.beginBlock kind idx).hcore idx).state = .offline) ∧ (kind = 5 → (s.beginBlock kind idx).bneState idx = 2) := by
  refine ⟨?_, ?_, ?_⟩
  · rintro rfl
    exact blockTile_spec _ idx
  · rintro rfl
    exact congrArg HCore.state (hcore_setHcore (s.blockMarks 4 idx) idx _)
  · rintro rfl
    exact bneState_setBneState (s.blockMarks 5 idx) idx (by decide)

theorem rstBlock_spec (s : State) (kind idx : Nat) :
    (s.rstActs = false ∨ kind = 0 ∨ 6 ≤ kind → exec (.rstBlock kind idx) s = .next s) ∧
    (s.rstActs = true → 1 ≤ kind → kind ≤ 5 →
      (s.boot.block.isSome = true ∨ s.blockTaken kind idx = true ∨ s.blockAllowed kind idx = true ∧ s.blockIdle kind idx = false →
        ∃ t, exec (.rstBlock kind idx) s = .next t ∧ t.fld .rstBlockStat 1 0 = 1 ∧ OnlyRegs [.rstBlockStat] s t) ∧
      (s.boot.block = none → s.blockTaken kind idx = false → s.blockAllowed kind idx = false →
        ∃ t, exec (.rstBlock kind idx) s = .next t ∧ t.fld .rstBlockStat 1 0 = 2 ∧ OnlyRegs [.rstBlockStat] s t) ∧
      (s.boot.block = none → s.blockTaken kind idx = false → s.blockAllowed kind idx = true → s.blockIdle kind idx = true →
        ∃ t, exec (.rstBlock kind idx) s = .next t ∧ t.fld .rstBlockStat 1 0 = 0 ∧ t.boot.block = some (kind, idx) ∧ t.blockPhase = 1 ∧ t.jobs = s.jobs ∧
          (kind = 1 → t.tileState idx = 3 ∧ (t.tile idx).bist = some .block) ∧ (kind = 4 → (t.hcore idx).state = .offline) ∧
          (kind = 5 → t.bneState idx = 2))) := by
  refine ⟨fun h => ?_, fun hacts hlo hhi => ?_⟩
  · refine congrArg Host.Outcome.next ?_
    rw [State.blockReset, if_pos (by simpa [or_assoc] using h)]
  obtain ⟨hbusy, hrefused, hbegins⟩ := blockReset_answers (idx := idx) hacts hlo hhi
  refine ⟨fun h => ?_, fun hblock htaken hallowed => ?_, fun hblock htaken hallowed hidle => ?_⟩
  · exact ⟨_, congrArg Host.Outcome.next (hbusy h), blockResult_spec s (by decide)⟩
  · exact ⟨_, congrArg Host.Outcome.next (hrefused hblock htaken hallowed), blockResult_spec s (by decide)⟩
  · have hframe := beginBlock_frame s kind idx
    obtain ⟨hresult, hphase⟩ := blockMarks_spec s kind idx
    obtain ⟨hstat, hrest⟩ := Prod.mk.inj hframe
    obtain ⟨hboot, hjobs⟩ := Prod.mk.inj hrest
    refine ⟨_, congrArg Host.Outcome.next (hbegins hblock htaken hallowed hidle), ?_, ?_, ?_, hjobs, beginBlock_unit s kind idx⟩
    · rw [State.fld, hstat]
      exact hresult
    · rw [hboot]
      rfl
    · rw [State.blockPhase, State.fld, hstat]
      exact hphase

/-! ### The end of a block reset -/

theorem resetBlock_boot (s : State) (kind idx : Nat) : (s.resetBlock kind idx).boot = s.boot := by
  unfold State.resetBlock
  split
  · rfl
  · exact (wipeCore_keeps s idx).2.2.2.2
  · exact State.each_keeps State.boot (fun s t => s.setTile t Tile.wipe) (fun _ _ => rfl) _ _

theorem blockAdvance_boot (s : State) : s.blockAdvance.boot = s.boot := by
  unfold State.blockAdvance
  split
  · exact resetBlock_boot s _ _
  · rfl
  · rfl

/-- The registers and the start once the unit's BIST has ended. -/
def State.blockEnded (s : State) (ok : Bool) : State :=
  { (s.setFld .rstBlockStat 5 4 0).setFld .rstBlockStat 9 8 (if ok then 1 else 2) with boot := { s.boot with block := none } }

/-- What becomes of the unit. -/
def State.blockUnit (s : State) (kind idx : Nat) (ok : Bool) : State :=
  match kind with
  | 4 => if ok then s.setHcore idx (fun h => { h with state := .inService }) else s.hashBistDone idx false
  | 5 => if ok then (s.setFld (.bneCoreState idx) 21 20 1).setBneState idx 1 else s.bneBistDone idx false
  | _ => s.each ((s.blockTiles kind idx).filter (fun t => decide ((s.tile t).bist = some .block))) (fun s t => s.tileBistDone t ok)

theorem blockUnit_serviced (s : State) (kind idx : Nat) (ok : Bool) : Serviced s (s.blockUnit kind idx ok) := by
  unfold State.blockUnit
  split
  · exact .ite (.setHcore s idx _) (.hashBistDone s idx false)
  · exact .ite ((Serviced.setFld s (r := .bneCoreState idx) rfl _ _ _).trans (.setBneState _ idx 1)) (.bneBistDone s idx false)
  · exact .each (fun u t => .tileBistDone u t ok) s _

theorem blockDone_of_some {s : State} {kind idx : Nat} (h : s.boot.block = some (kind, idx)) (ok : Bool) :
    s.blockDone ok = (s.blockAdvance.blockAdvance.blockEnded ok).blockUnit kind idx ok := by
  have hboot : s.blockAdvance.blockAdvance.boot.block = some (kind, idx) := by rw [blockAdvance_boot, blockAdvance_boot, h]
  unfold State.blockDone
  simp only [hboot]
  rfl

theorem blockDone_of_none {s : State} (h : s.boot.block = none) (ok : Bool) : s.blockDone ok = s := by
  have hkeep : s.blockAdvance = s := (blockAdvance_keeps s).2.2.2.1 h
  unfold State.blockDone
  simp only [hkeep, h]

theorem blockEnded_stat (s : State) (ok : Bool) : (s.blockEnded ok).blockPhase = 0 ∧ (s.blockEnded ok).fld .rstBlockStat 9 8 = (if ok then 1 else 2) := by
  have hrd : (s.blockEnded ok).rd .rstBlockStat = setF (setF (s.rd .rstBlockStat) 5 4 0) 9 8 (if ok then 1 else 2) := by
    change ((s.setFld .rstBlockStat 5 4 0).setFld .rstBlockStat 9 8 (if ok then 1 else 2)).rd .rstBlockStat = _
    simp
  constructor
  · rw [State.blockPhase, State.fld, hrd, getF_setF_ne _ _ _ _ _ _ (by decide) (by decide) (by decide), getF_setF _ _ _ _ (by decide) (by decide)]
    rfl
  · rw [State.fld, hrd, getF_setF _ _ _ _ (by decide) (by decide)]
    cases ok <;> rfl

theorem blockDone_spec {s : State} {kind idx : Nat} (ok : Bool) (h : s.boot.block = some (kind, idx)) :
    ∃ t, exec (.blockResetBistDone ok) s = .next t ∧ t.boot.block = none ∧ t.blockPhase = 0 ∧ t.fld .rstBlockStat 9 8 = (if ok then 1 else 2) ∧
      (kind = 4 → ok = true → (t.hcore idx).state = .inService ∧ t.jobs = s.jobs) ∧ (kind = 5 → ok = true → t.bneState idx = 1 ∧ t.jobs = s.jobs) := by
  have hjobs : (s.blockAdvance.blockAdvance.blockEnded ok).jobs = s.jobs := (blockAdvance_keeps s.blockAdvance).1.jobs.trans (blockAdvance_keeps s).1.jobs
  generalize hu : s.blockAdvance.blockAdvance.blockEnded ok = u at hjobs
  have hserviced := blockUnit_serviced u kind idx ok
  obtain ⟨hphase, hresult⟩ := blockEnded_stat s.blockAdvance.blockAdvance ok
  rw [hu] at hphase hresult
  have hstat : (u.blockUnit kind idx ok).rd .rstBlockStat = u.rd .rstBlockStat := hserviced.regs _ rfl
  have hboot : (u.blockUnit kind idx ok).boot = u.boot := (congrArg State.boot hserviced.rest :)
  refine ⟨u.blockUnit kind idx ok, congrArg Host.Outcome.next ((blockDone_of_some h ok).trans (by rw [hu])), ?_, ?_, ?_, ?_, ?_⟩
  · rw [hboot, ← hu]
    rfl
  · rw [State.blockPhase, State.fld, hstat]
    exact hphase
  · rw [State.fld, hstat]
    exact hresult
  · rintro rfl rfl
    exact ⟨congrArg HCore.state (hcore_setHcore u idx (fun h => { h with state := .inService })), hjobs⟩
  · rintro rfl rfl
    exact ⟨bneState_setBneState _ idx (by decide), hjobs⟩

theorem rstActs_idle {s : State} {ns : Nat} : (s.rstActs = false → exec .rstCtrlWarm s = .next s ∧ exec .rstCtrlCold s = .next s) ∧
    (s.firmwareRuns = false → exec .scWatchdogExpiry s = .next s) ∧ (ns < 500 → exec (.resetNInput ns) s = .next s) := by
  refine ⟨fun h => ⟨congrArg Host.Outcome.next (writeRstCtrl_idle h 1), congrArg Host.Outcome.next (writeRstCtrl_idle h 2)⟩, fun h => ?_, fun h => ?_⟩
  · change execScWatchdogExpiry s = _
    rw [execScWatchdogExpiry, if_neg (by simp [h])]
  · change execResetNInput ns s = _
    rw [execResetNInput, if_pos (by simp [h])]

/-- Settles O53, trigger by trigger: the reset layer says what a warm and a cold reset leave. -/
theorem resetTriggers : Obligations.ResetTriggers := by
  refine ⟨fun c cause s hio hbackup hheld => ⟨fun h => ?_, fun h => ?_⟩, fun s ns => rstActs_idle, crossingQuietTimeout_spec, rstBlock_spec, fun s ok =>
    ⟨fun h => congrArg Host.Outcome.next (blockDone_of_none h ok), fun kind idx h => blockDone_spec ok h⟩⟩
  · obtain ⟨hexec, hcause⟩ := warmTrigger hheld h
    rw [hexec]
    exact warmReset_spec hio hbackup hheld hcause
  · obtain ⟨t, hexec, hcold⟩ := coldTrigger hio hbackup hheld h
    rw [hexec]
    exact hcold.spec hio

end Sys2Proof.Machine
end

section
/-! PROOFS. A zeroisation that follows a completion clears QMG_Q_COMPLETED (O28). -/

namespace Sys2Proof.Machine

/-! ### What a response needs to take its reset -/

/-- Supplies and the hold of a system reset: what decides whether a reset is taken. -/
def State.supply (s : State) : Power × Bool := (s.power, s.boot.held)

theorem WorkOnly.supply {s t : State} (h : WorkOnly s t) : t.supply = s.supply := (congrArg State.supply h.rest :)
theorem MailboxOnly.supply {s t : State} (h : MailboxOnly s t) : t.supply = s.supply := (congrArg State.supply h.2 :)

theorem endAll_supply (s : State) (status : Nat) (count : Bool) : (s.endAll status count).supply = s.supply := by
  refine State.each_keeps State.supply _ (fun u (j : Job) => ?_) _ _
  have hend : (u.endJob j.id (.fail status 0)).supply = u.supply := (WorkOnly.of_jobs (.endJob u j.id _)).supply
  cases count
  · exact hend
  · exact hend

theorem rdeFree_supply (s : State) (c : Nat) : (s.rdeFree c).supply = s.supply := (congrArg State.supply (rdeFree_rest s c) :)

/-- What the zeroisation line clears at once. -/
def State.wipeKeys (s : State) : State :=
  { s with
    bbram := { s.bbram with vault := [], epoch := none, summary := 0 }
    cells := []
    slots := []
    hmac := []
    memo := []
    maskJobs := []
    tiles := s.tiles.map (fun e : Nat × Tile => (e.1, { e.2.wipe with gen := [], fifo := [] }))
    bcores := []
    rng := { s.rng with limitOrder := [], prWait := [], inst := [] }
    boot := { s.boot with keys := none } }

/-- The zeroisation line ends work before it clears keys. -/
def State.endsWork (s : State) : State :=
  (((s.flushEnded.endAll 0x42 false).flushEnded).uninstantiateAll).each (List.range 16) State.rdeFree

theorem zeroiseLine_eq (s : State) (why : Nat) :
    s.zeroiseLine why = ((s.endsWork.wipeKeys.setBit .ddrStat 1 false).logEvent 2 0xFF 0 0 why).mbxZeroised := rfl

theorem endsWork_supply (s : State) : s.endsWork.supply = s.supply := by
  have hdrbg (u : State) : u.uninstantiateAll.supply = u.supply :=
    State.each_keeps State.supply (fun s k => (s.uninstantiate k).showPr k) (fun _ _ => rfl) u (List.range 16)
  unfold State.endsWork
  rw [State.each_keeps State.supply State.rdeFree rdeFree_supply, hdrbg, (WorkOnly.flushEnded _).supply, endAll_supply, (WorkOnly.flushEnded s).supply]

theorem mbxZeroised_supply (s : State) : s.mbxZeroised.supply = s.supply := by
  unfold State.mbxZeroised
  split
  · exact (mbxDone_only _ _ _ _ _).supply
  · rfl

theorem zeroiseLine_supply (s : State) (why : Nat) : (s.zeroiseLine why).supply = s.supply := by
  have hlog (u : State) : ((u.wipeKeys.setBit .ddrStat 1 false).logEvent 2 0xFF 0 0 why).supply = u.supply := rfl
  rw [zeroiseLine_eq, mbxZeroised_supply, hlog, endsWork_supply]

/-! ### A response of class ZEROISE -/

/-- A powered device that no system reset holds. -/
def State.Powered (s : State) : Prop := s.supply.1.io = true ∧ s.supply.1.backup = false ∧ s.supply.2 = false

theorem State.Powered.of_eq {s t : State} (h : s.Powered) (ht : t.supply = s.supply) : t.Powered := by
  unfold State.Powered
  rwa [ht]

/-- The cold reset clears the counts of completions. -/
theorem coldReset_completed {s : State} (h : s.Powered) (cause src : Nat) (count : Bool) (q : Nat) :
    (s.systemReset true cause src count).rd (.qmgQCompleted q) = 0 := by
  rw [systemReset_rd_of_ne h.1 h.2.1 h.2.2 true cause src count (by simp) (by simp), enterReset_rd rfl (by simp) (by simp) (by simp)]
  rfl

theorem respond_zeroise_completed {s : State} (h : s.Powered) (k : Nat) (count : Bool) (q : Nat) : (s.respond k 5 count).rd (.qmgQCompleted q) = 0 := by
  have hhold (u : State) : (u.holdFor k).rd (.qmgQCompleted q) = u.rd (.qmgQCompleted q) := by
    unfold State.holdFor
    split <;> rfl
  have hreset : s.tamperZeroise k false count = (s.zeroiseLine 0).systemReset true 6 k count := by
    rw [State.tamperZeroise]
    simp only [Bool.false_eq_true, if_false]
  rw [State.respond, if_neg (by decide), hhold, hreset]
  exact coldReset_completed (h.of_eq (zeroiseLine_supply s 0)) 6 k count q

theorem alarmMessage_supply (s : State) : s.alarmMessage.supply = s.supply := by
  unfold State.alarmMessage State.sendMsix
  repeat' split
  all_goals rfl

theorem driveAlarm_supply (s : State) (k : Nat) : (s.driveAlarm k).supply = s.supply := rfl

theorem driveGroup_supply (s : State) (k run : Nat) : (s.driveGroup k run).supply = s.supply := by
  unfold State.driveGroup
  split
  · rfl
  · have hdrive := State.each_keeps State.supply (fun s e => s.driveAlarm (s.fld (.tmpLogWord e 1) 15 8)) (fun _ _ => rfl) s
      (below 32 (fun e => s.logSeq e != 0 && decide (s.logSeq e ∈ s.tamper.group)))
    unfold State.onlyIf
    split <;> exact hdrive

theorem regroup_supply (s : State) (cls : Nat) : (s.regroup cls).supply = s.supply :=
  State.each_keeps State.supply (fun s e => s.setFld (.tmpLogWord e 1) 23 16 cls) (fun _ _ => rfl) s _

theorem endLcWait_supply (s : State) (cls : Nat) : (s.endLcWait cls).supply = s.supply := by
  unfold State.endLcWait
  split
  · split
    · exact (mbxDone_only _ _ _ _ _).supply
    · rfl
  · rfl

theorem logAlarm_supply (s : State) (time : DWord) (k cls flags val : Nat) : (s.logAlarm time k cls flags val).supply = s.supply := by
  unfold State.logAlarm State.latchAlarm State.noteSummary
  split <;> rfl

/-- The integrity response of class ZEROISE. -/
theorem act_zeroise_completed {s : State} (h : s.Powered) (k q : Nat) : (s.act k 5).rd (.qmgQCompleted q) = 0 :=
  respond_zeroise_completed (h.of_eq ((driveAlarm_supply _ k).trans (alarmMessage_supply s))) k true q

theorem answerGroup_zeroise_completed {s : State} (h : s.Powered) (k eff q : Nat) : (s.answerGroup k eff 5 0 false).rd (.qmgQCompleted q) = 0 := by
  unfold State.answerGroup
  dsimp only
  rw [if_neg (by decide), if_pos (by decide)]
  refine respond_zeroise_completed (h.of_eq ?_) k _ q
  rw [alarmMessage_supply, endLcWait_supply, driveGroup_supply, regroup_supply]
  rfl

/-- An alarm of INTEGRITY latched and logged as a group of its own. -/
def State.integrityLogged (s : State) (val : Nat) : State :=
  let s' := (s.setBit .tmpActive 17 true).openGroup
  let u := s'.logAlarm (s'.rd .tmpTime) 17 (max (s.execClass (s.effClass 17)) 0) 0 val
  { u with tamper := { u.tamper with group := u.tamper.group ++ [u.fld .tmpLogSeq 31 0] } }

theorem integrityLogged_supply (s : State) (val : Nat) : (s.integrityLogged val).supply = s.supply :=
  (logAlarm_supply (s.setBit .tmpActive 17 true).openGroup _ 17 _ 0 val)

theorem alarm_integrity (s : State) (val : Nat) :
    s.alarm 17 val false = (s.integrityLogged val).answerGroup 17 (s.effClass 17) (s.execClass (s.effClass 17)) 0 false := by
  simp only [State.alarm, State.alarmSide, Bool.false_and, Bool.false_eq_true, if_false, State.integrityLogged, Nat.reduceEqDiff]

theorem alarm_zeroise_completed {s : State} (h : s.Powered) (hclass : s.execClass (s.effClass 17) = 5) (val q : Nat) :
    (s.alarm 17 val false).rd (.qmgQCompleted q) = 0 := by
  rw [alarm_integrity, hclass]
  exact answerGroup_zeroise_completed (h.of_eq (integrityLogged_supply s val)) 17 _ q

/-! ### The sweep of a slot that a completion has found in disagreement -/

/-- The restore of a slot's record with its response. -/
theorem integrity_completed {s : State} (h : s.Powered) (row q : Nat)
    (hclass : ((s.bump .tmpIntegCount).logEvent 6 17 0 0 row).execClass (((s.bump .tmpIntegCount).logEvent 6 17 0 0 row).effClass 17) = 5) :
    (s.integrity row).rd (.qmgQCompleted q) = 0 := by
  have halarm := alarm_zeroise_completed (s := (s.bump .tmpIntegCount).logEvent 6 17 0 0 row) h hclass row q
  rw [State.integrity, State.setBit, State.rd_store, if_neg (by simp)]
  exact halarm

theorem integrityZeroise_completed {s : State} (h : s.Powered) (row q : Nat) : (s.integrityZeroise row).rd (.qmgQCompleted q) = 0 := by
  have hact := act_zeroise_completed (s := (s.openGroup.bump .tmpIntegCount).logAlarm (s.rd .tmpTime) 17 5 0 row)
    (h.of_eq (logAlarm_supply _ _ 17 5 0 row)) 17 q
  rw [State.integrityZeroise, State.setBit, State.rd_store, if_neg (by simp)]
  exact hact

/-! ### The counterexample -/

/-- A job that has ended with a failure, whose key is to be destroyed after it (DESTROY_AFTER). -/
def unmarkJob : Job :=
  { emptyIn2Job with
    desc := leBytes 2 0x0102 ++ zeros 10 ++ leBytes 4 0x20000 ++ zeros 112, phase := .sealed, unit := none, pool := none, slot := some 9
    result := some (.fail 0x20 0) }

/-- Its key's ATTR record disagrees with its inverse, and INTEGRITY has class ZEROISE. -/
def unmarkState : State :=
  { State.reset.setFld (.tmpSrcCfg 17) 10 8 5 with
    jobs := [unmarkJob], pcie := { State.reset.pcie with dlActive := true }, slots := [(9, ⟨[], 1, 0, 0, none⟩)]
    boot := { State.reset.boot with held := false } }

/-- The state after the job's entry, before the slot found in disagreement is swept. -/
def unmarkDone : State :=
  { unmarkState.completeJob 7 .none false false with tamper := { (unmarkState.completeJob 7 .none false false).tamper with slotsDue := [] } }

/-- An entry after which one slot is swept. -/
theorem completionEntryWrite_due {s : State} {j a : Nat} {x : Job} (hj : s.job? j = some x) (hgood : s.sliceBad x.slice = false)
    (hdue : (s.completeJob j .none false false).tamper.slotsDue = [a]) : exec (.completionEntryWrite j .none false) s =
      .next (({ s.completeJob j .none false false with tamper := { (s.completeJob j .none false false).tamper with slotsDue := [] } } : State).sweepSlot a) := by
  change Host.Outcome.next ((s.sweepJob j).completeJob j .none false false).sweepDue = _
  rw [sweepJob_of_good hj hgood, State.sweepDue, hdue]
  rfl

theorem unmark_exec : exec (.completionEntryWrite 7 .none false) unmarkState = .next (unmarkDone.sweepSlot 9) :=
  completionEntryWrite_due (x := unmarkJob) (by decide) (by decide) (by decide)

/-- The class that an alarm of INTEGRITY executes. -/
def State.integrityClass (s : State) : Nat := s.execClass (s.effClass 17)

theorem integrityClass_store (s : State) {r : Reg} (hr : r ≠ .tmpSrcCfg 17) (hg : r ≠ .genState) (f : DWord → DWord) :
    (s.store r f).integrityClass = s.integrityClass := by
  have hfld (hi lo : Nat) : (s.store r f).fld (.tmpSrcCfg 17) hi lo = s.fld (.tmpSrcCfg 17) hi lo := by rw [State.fld, State.rd_store, if_neg hr]; rfl
  have hdev : (s.store r f).devState = s.devState := by rw [State.devState, State.fld, State.rd_store, if_neg hg]; rfl
  have hcommitted : (s.store r f).committedClass 17 = s.committedClass 17 := rfl
  unfold State.integrityClass State.effClass State.execClass
  rw [shadowBad_store_ne s hr, hfld, hdev, hcommitted]

theorem integrityClass_logEvent (s : State) (kind source cls flags value : Nat) :
    (s.logEvent kind source cls flags value).integrityClass = s.integrityClass := by
  have hword (u : State) (e w : Nat) (v : DWord) : (u.wr (.tmpLogWord e w) v).integrityClass = u.integrityClass := integrityClass_store u (by simp) (by simp) _
  have hhead (u : State) (x : Nat) : (u.setFld .tmpLogHead 4 0 x).integrityClass = u.integrityClass := integrityClass_store u (by simp) (by simp) _
  have hseq (u : State) (x : Nat) : (u.setFld .tmpLogSeq 31 0 x).integrityClass = u.integrityClass := integrityClass_store u (by simp) (by simp) _
  unfold State.logEvent State.logAt
  dsimp only
  rw [hseq, hhead, hword, hword, hword]

theorem integrityClass_bump (s : State) {r : Reg} (hr : r ≠ .tmpSrcCfg 17) (hg : r ≠ .genState) (d : Nat) : (s.bump r d).integrityClass = s.integrityClass :=
  integrityClass_store s hr hg _

theorem integrityClass_putAttr (s : State) (a : Nat) (w : DWord) : (s.putAttr a w).integrityClass = s.integrityClass := rfl
theorem integrityClass_draw (s : State) (n : Nat) : (s.draw n).2.integrityClass = s.integrityClass := rfl

/-- Whichever copy of the record is taken, the response zeroises. -/
theorem sweepSlot_completed {s : State} {a : Nat} (h : s.Powered) (hbad : s.slotBad a = true) (q : Nat)
    (hclass : s.integrityClass = 5) :
    (s.sweepSlot a).rd (.qmgQCompleted q) = 0 := by
  have hpowered (w : DWord) : (((s.bump .keyShadowErr).draw 1).2.putAttr a w).Powered := h.of_eq rfl
  have hlogged (w : DWord) : (((((s.bump .keyShadowErr).draw 1).2.putAttr a w).bump .tmpIntegCount).logEvent 6 17 0 0 3).integrityClass = 5 := by
    rw [integrityClass_logEvent, integrityClass_bump _ (by simp) (by simp), integrityClass_putAttr, integrityClass_draw,
      integrityClass_bump _ (by simp) (by simp), hclass]
  have hrestored (w : DWord) : ((((s.bump .keyShadowErr).draw 1).2.putAttr a w).integrity 3).rd (.qmgQCompleted q) = 0 := integrity_completed (hpowered w) 3 q (hlogged w)
  rw [State.sweepSlot, if_neg (by simp [hbad])]
  dsimp only
  split
  · exact hrestored _
  · exact hrestored _
  · have hdrawn : ((s.bump .keyShadowErr).draw 1).2.Powered := h.of_eq rfl
    exact integrityZeroise_completed hdrawn 3 q

/-- Refutes O28: DESTROY_AFTER reads the ATTR record of the job's key, which its slot change does not name; found in disagreement,
the response of class ZEROISE takes the cold reset that clears QMG_Q_COMPLETED. -/
theorem not_completionsAreWritten : ¬ Obligations.CompletionsAreWritten := by
  unfold Obligations.CompletionsAreWritten
  rintro ⟨h, -⟩
  obtain ⟨t, ht, -, hcount, -⟩ := h unmarkState 7 320 _ unmarkJob (.fail 0x20 0) .none false (by decide) rfl rfl rfl (by decide) rfl
    (by decide) (by decide) rfl rfl
  rw [unmark_exec] at ht
  cases ht
  rw [sweepSlot_completed ⟨by decide, by decide, by decide⟩ (by decide) 320 (by decide)] at hcount
  exact absurd hcount (by decide)

end Sys2Proof.Machine
end

section
/-! PROOFS. O39: the digest contexts of the register digest engine. -/

namespace Sys2Proof.Machine

/-! ### One rule per operation on a context -/

section
variable (s : State) (c : Nat) (who : Claimant)

@[simp] theorem rdeReport_cmd (x : Nat) : tget 0 who ((s.rdeReport c who x).rdeOf c).cmd = x := by
  simp [State.rdeReport]

@[simp] theorem rdeReport_rdeState (x : Nat) : (s.rdeReport c who x).rdeState c = s.rdeState c := rfl

theorem rdeReport_rdeOf (x : Nat) : (s.rdeReport c who x).rdeOf c = { s.rdeOf c with cmd := tset who x (s.rdeOf c).cmd } := by
  simp [State.rdeReport]

theorem rdeBusy_rd {r : Reg} (h : r ≠ .rdeStatus c) : (s.rdeBusy c).rd r = s.rd r := by
  rw [State.rdeBusy, State.setBit, State.rd_store, if_neg h.symm]

theorem rdeBusy_rdStatus : (s.rdeBusy c).rd (.rdeStatus c) =
    setB (s.rd (.rdeStatus c)) 3 (s.rdeState c == 3 || (s.rdeState c == 2 && decide (2 * (s.rdeOf c).blockWords ≤ (s.rdeOf c).buffered))) := by
  rw [State.rdeBusy, State.setBit, State.rd_store, if_pos rfl]

theorem rdeBusy_fld {hi lo : Nat} (h : 3 < lo ∨ hi < 3) : (s.rdeBusy c).fld (.rdeStatus c) hi lo = s.fld (.rdeStatus c) hi lo := by
  rw [State.fld, rdeBusy_rdStatus, getF_setB _ _ _ _ _ (by decide) h]
  rfl

@[simp] theorem rdeBusy_rdeState : (s.rdeBusy c).rdeState c = s.rdeState c := rdeBusy_fld s c (.inr (by decide))

theorem rdeBusy_busy : (s.rdeBusy c).bit (.rdeStatus c) 3 =
    (s.rdeState c == 3 || (s.rdeState c == 2 && decide (2 * (s.rdeOf c).blockWords ≤ (s.rdeOf c).buffered))) := by
  rw [State.bit, rdeBusy_rdStatus, getB_setB _ _ _ _ (by decide), if_pos rfl]

@[simp] theorem rdeBusy_rdeOf (k : Nat) : (s.rdeBusy c).rdeOf k = s.rdeOf k := rfl

theorem rdeGo_rd (x : Nat) {r : Reg} (h : r ≠ .rdeStatus c) : (s.rdeGo c x).rd r = s.rd r := by
  rw [State.rdeGo, rdeBusy_rd _ _ h, State.setFld, State.rd_store, if_neg h.symm]

@[simp] theorem rdeGo_rdeState {x : Nat} (h : x < 8) : (s.rdeGo c x).rdeState c = x := by
  rw [State.rdeGo, rdeBusy_rdeState, State.rdeState, State.fld_setFld _ _ _ _ _ (by decide) (by decide)]
  exact Nat.mod_eq_of_lt h

@[simp] theorem rdeGo_rdeOf (x k : Nat) : (s.rdeGo c x).rdeOf k = s.rdeOf k := rfl

@[simp] theorem rdePoison_rdeState (x : Nat) : (s.rdePoison c who x).rdeState c = 5 := by
  rw [State.rdePoison, rdeReport_rdeState, rdeGo_rdeState _ _ (by decide)]

@[simp] theorem rdePoison_cmd (x : Nat) : tget 0 who ((s.rdePoison c who x).rdeOf c).cmd = x := rdeReport_cmd _ c who x

/-! ### A context without a message, and one that is free -/

theorem rdeEmpty_rdeOf (st : Nat) : (s.rdeEmpty c st).rdeOf c = { s.rdeOf c with msg := [], buffered := 0, heldWords := [], key := [] } := by
  refine (State.rdeOf_setRde _ c c _).trans ?_
  rw [if_pos rfl]
  have h : (State.each ((s.wr (.rdeStatus c) (setF 0 2 0 st)).wr (.rdeCount c) 0) (List.range 8) (fun s j => s.wr (.rdeResult c j) 0)).rde = s.rde :=
    State.each_keeps State.rde (fun u j => u.wr (.rdeResult c j) 0) (fun _ _ => rfl) _ _
  rw [State.rdeOf, h]
  rfl

theorem rdeEmpty_tamper (st : Nat) : (s.rdeEmpty c st).tamper = s.tamper := by
  unfold State.rdeEmpty
  exact State.each_keeps State.tamper (fun u j => u.wr (.rdeResult c j) 0) (fun _ _ => rfl) _ _

/-- What stands in the registers of the results is not what the context's emptying touches besides. -/
theorem rdeEmpty_rd_of {st : Nat} {r : Reg} (hr : ∀ j, .rdeResult c j ≠ r) :
    (s.rdeEmpty c st).rd r = ((s.wr (.rdeStatus c) (setF 0 2 0 st)).wr (.rdeCount c) 0).rd r :=
  State.rd_each r (fun u j => u.wr (.rdeResult c j) 0) (fun _ j => State.rd_wr_ne _ _ (hr j)) _ _

theorem rdeEmpty_rdStatus (st : Nat) : (s.rdeEmpty c st).rd (.rdeStatus c) = setF 0 2 0 st := by
  rw [rdeEmpty_rd_of _ _ (fun _ => by simp)]
  simp

theorem rdeEmpty_rdeState {st : Nat} (h : st < 8) : (s.rdeEmpty c st).rdeState c = st := by
  rw [State.rdeState, State.fld, rdeEmpty_rdStatus, getF_setF _ _ _ _ (by decide) (by decide)]
  exact Nat.mod_eq_of_lt h

theorem rdeEmpty_rdCount (st : Nat) : (s.rdeEmpty c st).rd (.rdeCount c) = 0 := by
  rw [rdeEmpty_rd_of _ _ (fun _ => by simp)]
  simp

/-- MODE, KEY and LEN stand while a context is emptied. -/
theorem rdeEmpty_rd_setup (st : Nat) {r : Reg} (hr : r = .rdeMode c ∨ r = .rdeKey c ∨ r = .rdeLen c) : (s.rdeEmpty c st).rd r = s.rd r := by
  rcases hr with rfl | rfl | rfl <;>
    · rw [rdeEmpty_rd_of _ _ (fun _ => by simp)]
      simp

theorem rdeEmpty_rdResult (st : Nat) {j : Nat} (hj : j < 8) : (s.rdeEmpty c st).rd (.rdeResult c j) = 0 := by
  have h : ((s.wr (.rdeStatus c) (setF 0 2 0 st)).wr (.rdeCount c) 0 |>.each (List.range 8) (fun s j => s.wr (.rdeResult c j) 0)).rd (.rdeResult c j) = 0 :=
    each_establishes (P := fun u j => u.rd (.rdeResult c j) = 0) (f := fun u j => u.wr (.rdeResult c j) 0) (fun u j => by simp)
      (fun u a b h => by
        rw [State.rd_wr]
        split
        · rfl
        · exact h) _ (List.mem_range.2 hj)
  exact h

theorem rdeFree_rd_of {r : Reg} (hmode : r ≠ .rdeMode c) (hkey : r ≠ .rdeKey c) (hlen : r ≠ .rdeLen c) (hmsgs : r ≠ .rdeMsgs c)
    (hexpect : ∀ j, r ≠ .rdeExpect c j) : (s.rdeFree c).rd r = (s.rdeEmpty c 0).rd r := by
  refine (State.rd_each r (fun u j => u.wr (.rdeExpect c j) 0) (fun _ j => State.rd_wr_ne _ _ (hexpect j).symm) _ _).trans ?_
  rw [State.rd_wr_ne _ _ hmsgs.symm, State.rd_wr_ne _ _ hlen.symm, State.rd_wr_ne _ _ hkey.symm, State.rd_wr_ne _ _ hmode.symm]

theorem rdeFree_rdeState : (s.rdeFree c).rdeState c = 0 := by
  rw [State.rdeState, State.fld, rdeFree_rd_of _ _ (by simp) (by simp) (by simp) (by simp) (by simp)]
  exact rdeEmpty_rdeState s c (by decide)

theorem rdeFree_rdResult {j : Nat} (hj : j < 8) : (s.rdeFree c).rd (.rdeResult c j) = 0 := by
  rw [rdeFree_rd_of _ _ (by simp) (by simp) (by simp) (by simp) (by simp), rdeEmpty_rdResult s c 0 hj]

theorem rdeFree_rdeOf : (s.rdeFree c).rdeOf c = { s.rdeOf c with
    msg := [], buffered := 0, heldWords := [], key := [], owner := none, hash := 2, mac := 0, tagLen := 0, len := 0 } := by
  refine (State.rdeOf_setRde _ c c _).trans ?_
  rw [if_pos rfl]
  have h (u : State) : (u.each (List.range 8) (fun s j => s.wr (.rdeExpect c j) 0)).rdeOf c = u.rdeOf c :=
    State.each_keeps (State.rdeOf · c) (fun u j => u.wr (.rdeExpect c j) 0) (fun _ _ => rfl) _ _
  rw [h]
  have hwr (u : State) (r : Reg) (v : DWord) : (u.wr r v).rdeOf c = u.rdeOf c := rfl
  rw [hwr, hwr, hwr, hwr, rdeEmpty_rdeOf]

theorem rdeFree_jobs : (s.rdeFree c).jobs = s.jobs := (congrArg State.jobs (rdeFree_rest s c) :)

end

/-! ### Claims, releases and set-up (R236, R237, R240) -/

section
variable {s : State} {c : Nat} {who : Claimant}

theorem asOwner_owner (hpath : s.rdePath c who = true) (hown : (s.rdeOf c).owner = some who) (f : State → State) : s.asOwner c who f = f s := by
  simp [State.asOwner, hpath, hown]

theorem asOwner_closed (hpath : s.rdePath c who = false) (f : State → State) : s.asOwner c who f = s := by
  simp [State.asOwner, hpath]

theorem asOwner_other (hpath : s.rdePath c who = true) (hown : (s.rdeOf c).owner ≠ some who) (f : State → State) :
    s.asOwner c who f = s.rdeReport c who 2 := by
  simp [State.asOwner, hpath, hown]

theorem rdeClaim_free (hpath : s.rdePath c who = true) (hcode : claimantCode who < 1024) (hown : (s.rdeOf c).owner = none) :
    ((s.rdeClaim c who).rdeOf c).owner = some who ∧ (s.rdeClaim c who).rdeState c = 1 ∧
      (s.rdeClaim c who).fld (.rdeStatus c) 25 16 = claimantCode who ∧ tget 0 who ((s.rdeClaim c who).rdeOf c).cmd = 0 ∧
      (s.rdeClaim c who).jobs = s.jobs := by
  have heq : s.rdeClaim c who = (((s.rdeFree c |>.rdeGo c 1).setFld (.rdeStatus c) 25 16 (claimantCode who)).setRde c
      (fun r => { r with owner := some who })).rdeReport c who 0 := by
    simp [State.rdeClaim, hpath, hown]
  rw [heq]
  refine ⟨?_, ?_, ?_, rdeReport_cmd _ c who 0, rdeFree_jobs s c⟩
  · rw [rdeReport_rdeOf, State.rdeOf_setRde, if_pos rfl]
  · refine (State.fld_setFld_ne _ _ _ _ _ _ _ _ (by decide) (by decide) (.inr (.inr (by decide)))).trans ?_
    exact rdeGo_rdeState _ c (by decide)
  · refine (State.fld_setFld _ _ _ _ _ (by decide) (by decide)).trans ?_
    exact Nat.mod_eq_of_lt hcode

theorem rdeClaim_taken (hpath : s.rdePath c who = true) {o : Claimant} (hown : (s.rdeOf c).owner = some o) (ho : o ≠ who) :
    s.rdeClaim c who = s.rdeReport c who 1 := by
  simp [State.rdeClaim, hpath, hown, ho]

theorem rdeRelease_spec (hpath : s.rdePath c who = true) (hown : (s.rdeOf c).owner = some who) :
    ((s.rdeRelease c who).rdeOf c).owner = none ∧ (s.rdeRelease c who).rdeState c = 0 ∧ ((s.rdeRelease c who).rdeOf c).msg = [] ∧
      ∀ j, j < 8 → (s.rdeRelease c who).rd (.rdeResult c j) = 0 := by
  rw [State.rdeRelease, asOwner_owner hpath hown]
  refine ⟨?_, rdeFree_rdeState s c, ?_, fun j hj => rdeFree_rdResult s c hj⟩
  · rw [rdeReport_rdeOf, rdeFree_rdeOf]
  · rw [rdeReport_rdeOf, rdeFree_rdeOf]

theorem rdeClear_spec (hpath : s.rdePath c who = true) (hown : (s.rdeOf c).owner = some who) :
    ((s.rdeClear c who).rdeOf c).owner = some who ∧ (s.rdeClear c who).rdeState c = 1 ∧ ((s.rdeClear c who).rdeOf c).msg = [] ∧
      (s.rdeClear c who).rd (.rdeCount c) = 0 ∧ (s.rdeClear c who).rd (.rdeMode c) = s.rd (.rdeMode c) ∧
      (s.rdeClear c who).rd (.rdeKey c) = s.rd (.rdeKey c) ∧ (s.rdeClear c who).rd (.rdeLen c) = s.rd (.rdeLen c) := by
  rw [State.rdeClear, asOwner_owner hpath hown]
  have hrd {r : Reg} (hr : r ≠ .rdeStatus c) :
      ((((s.rdeEmpty c 1).setFld (.rdeStatus c) 25 16 (claimantCode who)).rdeBusy c).rdeReport c who 0).rd r = (s.rdeEmpty c 1).rd r := by
    refine (rdeBusy_rd _ c hr).trans ?_
    rw [State.setFld, State.rd_store, if_neg hr.symm]
  have hof : ((((s.rdeEmpty c 1).setFld (.rdeStatus c) 25 16 (claimantCode who)).rdeBusy c).rdeReport c who 0).rdeOf c =
      { (s.rdeEmpty c 1).rdeOf c with cmd := tset who 0 ((s.rdeEmpty c 1).rdeOf c).cmd } := by
    rw [rdeReport_rdeOf]
    rfl
  refine ⟨?_, ?_, ?_, ?_, ?_, ?_, ?_⟩
  · rw [hof, rdeEmpty_rdeOf]
    exact hown
  · refine (rdeBusy_rdeState _ c).trans ?_
    refine (State.fld_setFld_ne _ _ _ _ _ _ _ _ (by decide) (by decide) (.inr (.inr (by decide)))).trans ?_
    exact rdeEmpty_rdeState s c (by decide)
  · rw [hof, rdeEmpty_rdeOf]
  · rw [hrd (by simp), rdeEmpty_rdCount]
  · rw [hrd (by simp), rdeEmpty_rd_setup s c 1 (.inl rfl)]
  · rw [hrd (by simp), rdeEmpty_rd_setup s c 1 (.inr (.inl rfl))]
  · rw [hrd (by simp), rdeEmpty_rd_setup s c 1 (.inr (.inr rfl))]

theorem rdeSetup_idle (hpath : s.rdePath c who = true) (hown : (s.rdeOf c).owner = some who) (hidle : s.rdeState c = 1 ∨ s.rdeState c = 4)
    (v : DWord) :
    s.rdeSetup c who .mode v = (s.rdeReport c who 0).wr (.rdeMode c)
      (setF (setF (setF 0 3 0 (getF v 3 0)) 5 4 (getF v 5 4)) 14 8 (clampTag (getF v 3 0) (getF v 14 8))) ∧
    s.rdeSetup c who .key v = (s.rdeReport c who 0).setFld (.rdeKey c) 16 0 (getF v 16 0) ∧
    s.rdeSetup c who .len v = (s.rdeReport c who 0).setFld (.rdeLen c) 47 0 (getF v 47 0) :=
  ⟨(asOwner_owner hpath hown _).trans (if_neg (by omega)), (asOwner_owner hpath hown _).trans (if_neg (by omega)),
    (asOwner_owner hpath hown _).trans (if_neg (by omega))⟩

theorem rdeSetup_running (hpath : s.rdePath c who = true) (hown : (s.rdeOf c).owner = some who) (hrun : s.rdeState c = 2 ∨ s.rdeState c = 3)
    (r : RdeSetup) (v : DWord) : s.rdeSetup c who r v = s.rdeReport c who 3 := by
  rw [State.rdeSetup, asOwner_owner hpath hown, if_pos (by omega)]

theorem clampTag_lt (h : Nat) {t : Nat} (ht : t < 128) : clampTag h t < 128 := by
  unfold clampTag
  dsimp only
  split_ifs <;> omega

/-- What a write of RDE_MODE leaves in each field. -/
theorem modeWord_fields (v : DWord) :
    let w := setF (setF (setF 0 3 0 (getF v 3 0)) 5 4 (getF v 5 4)) 14 8 (clampTag (getF v 3 0) (getF v 14 8))
    getF w 3 0 = getF v 3 0 ∧ getF w 5 4 = getF v 5 4 ∧ getF w 14 8 = clampTag (getF v 3 0) (getF v 14 8) := by
  have h30 : getF v 3 0 < 2 ^ 4 := getF_lt v 3 0
  have h54 : getF v 5 4 < 2 ^ 2 := getF_lt v 5 4
  have h148 : getF v 14 8 < 2 ^ 7 := getF_lt v 14 8
  refine ⟨?_, ?_, ?_⟩
  · rw [getF_setF_ne _ _ _ _ _ _ (by decide) (by decide) (.inr (by decide)), getF_setF_ne _ _ _ _ _ _ (by decide) (by decide) (.inr (by decide)),
      getF_setF _ _ _ _ (by decide) (by decide)]
    exact Nat.mod_eq_of_lt h30
  · rw [getF_setF_ne _ _ _ _ _ _ (by decide) (by decide) (.inr (by decide)), getF_setF _ _ _ _ (by decide) (by decide)]
    exact Nat.mod_eq_of_lt h54
  · rw [getF_setF _ _ _ _ (by decide) (by decide)]
    exact Nat.mod_eq_of_lt (clampTag_lt _ h148)

end

/-! ### Messages (R238 to R242) -/

section
variable {s : State} {c : Nat} {who : Claimant}

theorem hashBlock_pos (h : Nat) : 0 < hashBlock h / 8 := by
  unfold hashBlock
  split <;> decide

/-- A word that the context takes. -/
theorem rdeWord_taken (v : DWord) (hbusy : s.bit (.rdeStatus c) 3 = false)
    (hroom : s.fld (.rdeCount c) 47 0 / 8 < ((s.rdeOf c).len + 7) / 8) (hcount : s.fld (.rdeCount c) 47 0 + 8 < 2 ^ 48) :
    (s.rdeWord c v).fld (.rdeCount c) 47 0 = s.fld (.rdeCount c) 47 0 + 8 ∧ (s.rdeWord c v).rdeState c = s.rdeState c ∧
      (s.rdeWord c v).rdeOf c = { s.rdeOf c with msg := (s.rdeOf c).msg ++ leBytes 8 v.toNat, buffered := (s.rdeOf c).buffered + 1 } ∧
      (s.rdeWord c v).tamper = s.tamper := by
  have heq : s.rdeWord c v = ((s.setFld (.rdeCount c) 47 0 (s.fld (.rdeCount c) 47 0 + 8)).setRde c
      (fun r => { r with msg := r.msg ++ leBytes 8 v.toNat, buffered := r.buffered + 1 })).rdeBusy c := by
    simp [State.rdeWord, hbusy, hroom]
  rw [heq]
  refine ⟨?_, ?_, ?_, rfl⟩
  · rw [State.fld, rdeBusy_rd _ _ (by simp)]
    refine (State.fld_setFld s _ _ _ _ (by decide) (by decide)).trans ?_
    exact Nat.mod_eq_of_lt hcount
  · rw [rdeBusy_rdeState]
    exact State.fld_setFld_ne s _ _ _ _ _ _ _ (by decide) (by decide) (.inl (by simp))
  · rw [rdeBusy_rdeOf, State.rdeOf_setRde, if_pos rfl]
    rfl

/-- A word that finds the context busy or the message complete is dropped. -/
theorem rdeWord_dropped (v : DWord) (h : s.bit (.rdeStatus c) 3 = true ∨ ((s.rdeOf c).len + 7) / 8 ≤ s.fld (.rdeCount c) 47 0 / 8) :
    s.rdeWord c v = s.setBit (.rdeStatus c) 4 true := by
  rw [State.rdeWord, if_pos (by simpa using h)]
  rfl

/-- An emptied context whose message is to begin, its claimant noted. -/
def State.rdeCleared (s : State) (c : Nat) (who : Claimant) : State :=
  ((s.rdeEmpty c 2).setFld (.rdeStatus c) 25 16 (claimantCode who)).rdeReport c who 0

/-- The settings in force for the message that begins. -/
def State.rdeSettings (s u : State) (c : Nat) (key : Bytes) (r : Rde) : Rde :=
  { r with key := key, hash := getF (s.rd (.rdeMode c)) 3 0, mac := getF (s.rd (.rdeMode c)) 5 4, tagLen := getF (s.rd (.rdeMode c)) 14 8,
           len := u.fld (.rdeLen c) 47 0 }

theorem rdeAbsorb_eq (s : State) (c : Nat) (who : Claimant) (key : Bytes) :
    s.rdeAbsorb c who key = ((s.rdeCleared c who).setRde c (s.rdeSettings (s.rdeCleared c who) c key)).rdeBusy c := rfl

theorem rdeCleared_rdeState (s : State) (c : Nat) (who : Claimant) : (s.rdeCleared c who).rdeState c = 2 :=
  (State.fld_setFld_ne _ _ _ _ _ _ _ _ (by decide) (by decide) (.inr (.inr (by decide)))).trans (rdeEmpty_rdeState s c (by decide))

theorem rdeCleared_rd (s : State) (c : Nat) (who : Claimant) {r : Reg} (h : r ≠ .rdeStatus c) : (s.rdeCleared c who).rd r = (s.rdeEmpty c 2).rd r := by
  refine Eq.trans (b := ((s.rdeEmpty c 2).setFld (.rdeStatus c) 25 16 (claimantCode who)).rd r) rfl ?_
  rw [State.setFld, State.rd_store, if_neg h.symm]

theorem rdeCleared_rdeOf (s : State) (c : Nat) (who : Claimant) : (s.rdeCleared c who).rdeOf c =
    { s.rdeOf c with msg := [], buffered := 0, heldWords := [], key := [], cmd := tset who 0 (s.rdeOf c).cmd } := by
  rw [State.rdeCleared, rdeReport_rdeOf]
  exact congrArg (fun r : Rde => { r with cmd := tset who 0 r.cmd }) (rdeEmpty_rdeOf s c 2)

/-- A context that absorbs and has nothing buffered is not busy. -/
theorem rdeBusy_of_empty {s : State} {c : Nat} (hstate : s.rdeState c = 2) (hbuf : (s.rdeOf c).buffered = 0) :
    (s.rdeBusy c).bit (.rdeStatus c) 3 = false := by
  have hblock : 0 < (s.rdeOf c).blockWords := hashBlock_pos _
  rw [rdeBusy_busy, hstate, hbuf]
  simpa using hblock.ne'

/-- What a message that begins finds (R238 step 3). -/
theorem rdeAbsorb_spec (s : State) (c : Nat) (who : Claimant) (key : Bytes) :
    (s.rdeAbsorb c who key).rdeState c = 2 ∧ (s.rdeAbsorb c who key).bit (.rdeStatus c) 3 = false ∧
      (s.rdeAbsorb c who key).fld (.rdeCount c) 47 0 = 0 ∧
      (s.rdeAbsorb c who key).rdeOf c = s.rdeSettings s c key { s.rdeOf c with
        msg := [], buffered := 0, heldWords := [], key := [], cmd := tset who 0 (s.rdeOf c).cmd } ∧
      (s.rdeAbsorb c who key).tamper = s.tamper := by
  have hlen : (s.rdeCleared c who).fld (.rdeLen c) 47 0 = s.fld (.rdeLen c) 47 0 := by
    rw [State.fld, rdeCleared_rd _ _ _ (by simp), rdeEmpty_rd_setup s c 2 (.inr (.inr rfl))]
    rfl
  have hof : ((s.rdeCleared c who).setRde c (s.rdeSettings (s.rdeCleared c who) c key)).rdeOf c = s.rdeSettings s c key { s.rdeOf c with
        msg := [], buffered := 0, heldWords := [], key := [], cmd := tset who 0 (s.rdeOf c).cmd } := by
    rw [State.rdeOf_setRde, if_pos rfl, rdeCleared_rdeOf, State.rdeSettings, State.rdeSettings, hlen]
  rw [rdeAbsorb_eq]
  refine ⟨?_, ?_, ?_, ?_, rdeEmpty_tamper s c 2⟩
  · rw [rdeBusy_rdeState]
    exact rdeCleared_rdeState s c who
  · refine rdeBusy_of_empty (rdeCleared_rdeState s c who) ?_
    rw [hof, State.rdeSettings]
  · rw [State.fld, rdeBusy_rd _ _ (by simp)]
    refine Eq.trans (b := getF ((s.rdeCleared c who).rd (.rdeCount c)) 47 0) rfl ?_
    rw [rdeCleared_rd _ _ _ (by simp), rdeEmpty_rdCount]
    rfl
  · rw [rdeBusy_rdeOf, hof]

/-- The first word of a message that begins. -/
theorem rdeAbsorb_word {s : State} {c : Nat} {who : Claimant} (v : DWord) (key : Bytes) (hlen : 0 < s.fld (.rdeLen c) 47 0) {u : State}
    (hrd : ∀ r : Reg, r = .rdeStatus c ∨ r = .rdeCount c → u.rd r = (s.rdeAbsorb c who key).rd r)
    (hrde : u.rde = (s.rdeAbsorb c who key).rde) (htamper : u.tamper = s.tamper) :
    u.rdeState c = 2 ∧ (u.rdeWord c v).rdeState c = 2 ∧ (u.rdeWord c v).fld (.rdeCount c) 47 0 = 8 ∧
      (u.rdeWord c v).rdeOf c = { s.rdeSettings s c key (s.rdeOf c) with
        msg := leBytes 8 v.toNat, buffered := 1, heldWords := [], cmd := tset who 0 (s.rdeOf c).cmd } ∧
      (u.rdeWord c v).tamper = s.tamper := by
  obtain ⟨hstate, hbusy, hcount, hof, -⟩ := rdeAbsorb_spec s c who key
  have hstatus : u.rd (.rdeStatus c) = (s.rdeAbsorb c who key).rd (.rdeStatus c) := hrd _ (.inl rfl)
  have hstate' : u.rdeState c = 2 := (congrArg (getF · 2 0) hstatus).trans hstate
  have hbusy' : u.bit (.rdeStatus c) 3 = false := (congrArg (getB · 3) hstatus).trans hbusy
  have hcount' : u.fld (.rdeCount c) 47 0 = 0 := (congrArg (getF · 47 0) (hrd _ (.inr rfl))).trans hcount
  have hof' : u.rdeOf c = (s.rdeAbsorb c who key).rdeOf c := by rw [State.rdeOf, State.rdeOf, hrde]
  rw [hof] at hof'
  obtain ⟨hc, hs, ho, ht⟩ := rdeWord_taken v hbusy' (by rw [hcount', hof', State.rdeSettings]; simp only; omega) (by rw [hcount']; decide)
  refine ⟨hstate', hs.trans hstate', by rw [hc, hcount'], ?_, ht.trans htamper⟩
  rw [ho, hof']
  simp [State.rdeSettings]

end

/-! ### The commands of a context's owner -/

section
variable {s : State} {c : Nat} {who : Claimant}

theorem sweepClaimant_of_good (h : ∀ n, who = .slice n → s.sliceBad n = false) : s.sweepClaimant who = s := by
  cases who with
  | slice n => exact sweepSlice_of_good (h n rfl)
  | manager => rfl
  | sc => rfl

/-- A message word of 64 bits, where no comparison of shadows finds a disagreement. -/
theorem exec_rdeData (v : DWord) (hgood : ∀ n, who = .slice n → s.sliceBad n = false) :
    exec (.rdeData c who 64 v) s = .next (s.asOwner c who (fun s => s.rdeTake c who v .none)).sweepDue := by
  refine (congrArg Host.Outcome.next ?_ : Host.Outcome.next ((s.sweepClaimant who).asOwner c who (fun s => s.rdeTake c who v .none)).sweepDue = _)
  rw [sweepClaimant_of_good hgood]

theorem exec_rdeFinish (v : DWord) (hgood : ∀ n, who = .slice n → s.sliceBad n = false) :
    exec (.rdeFinish c who v) s = .next (s.rdeFinish c who (getF v 47 0) .none).sweepDue := by
  refine (congrArg Host.Outcome.next ?_ : Host.Outcome.next ((s.sweepClaimant who).rdeFinish c who (getF v 47 0) .none).sweepDue = _)
  rw [sweepClaimant_of_good hgood]

/-- A word of the owner is what `rdeTake` makes of it, while no slot's words disagree. -/
theorem exec_rdeData_owner {v : DWord} {t : State} (hpath : s.rdePath c who = true) (hown : (s.rdeOf c).owner = some who)
    (hdue : s.tamper.slotsDue = []) (hgood : ∀ n, who = .slice n → s.sliceBad n = false) (ht : s.rdeTake c who v .none = t)
    (htamper : t.tamper = s.tamper) : exec (.rdeData c who 64 v) s = .next t := by
  rw [exec_rdeData v hgood, asOwner_owner hpath hown, ht, sweepDue_of_none (by rw [htamper, hdue])]

theorem exec_rdeFinish_owner {v : DWord} (hpath : s.rdePath c who = true) (hown : (s.rdeOf c).owner = some who)
    (hdue : s.tamper.slotsDue = []) (hgood : ∀ n, who = .slice n → s.sliceBad n = false) (hstate : s.rdeState c = 2) :
    exec (.rdeFinish c who v) s =
      .next (if s.rdeLengthsOk c (getF v 47 0) then (s.rdeGo c 3).rdeReport c who 0 else s.rdePoison c who 0x12) := by
  rw [exec_rdeFinish v hgood, State.rdeFinish, asOwner_owner hpath hown]
  have hbegin : (if s.rdeState c = 1 ∨ s.rdeState c = 4 then s.rdeBegin c who .none else s) = s := if_neg (by omega)
  dsimp only
  rw [hbegin, if_neg (by simp [hstate])]
  refine congrArg Host.Outcome.next (sweepDue_of_none ?_)
  split
  · exact hdue
  · exact hdue

/-! ### A first word begins its message -/

theorem rdeTake_begins (v : DWord) (hidle : s.rdeState c = 1 ∨ s.rdeState c = 4) {u : State} (hu : s.rdeBegin c who .none = u) :
    s.rdeTake c who v .none = if u.rdeState c = 2 then u.rdeWord c v else u := by
  rw [← hu]
  rcases hidle with h | h <;> simp only [State.rdeTake, h]

theorem rdeTake_absorbing (v : DWord) (h : s.rdeState c = 2) : s.rdeTake c who v .none = s.rdeWord c v := by
  simp only [State.rdeTake, h]

theorem rdeTake_poisoned (v : DWord) (hidle : s.rdeState c = 1 ∨ s.rdeState c = 4) {x : Nat} (hu : s.rdeBegin c who .none = s.rdePoison c who x) :
    s.rdeTake c who v .none = s.rdePoison c who x := by
  rw [rdeTake_begins v hidle hu, if_neg (by simp)]

/-- The mode does not begin a message (R238 step 1). -/
theorem rdeBegin_badMode (h : s.fld (.rdeMode c) 3 0 = 0 ∨ 10 < s.fld (.rdeMode c) 3 0 ∨ s.fld (.rdeMode c) 5 4 = 3) :
    s.rdeBegin c who .none = s.rdePoison c who 0x10 := by
  rw [State.rdeBegin, if_pos h]

theorem rdeBegin_plain (h1 : 1 ≤ s.fld (.rdeMode c) 3 0) (h10 : s.fld (.rdeMode c) 3 0 ≤ 10) (hmac : s.fld (.rdeMode c) 5 4 = 0) :
    s.rdeBegin c who .none = s.rdeAbsorb c who [] := by
  rw [State.rdeBegin, if_neg (by omega), if_pos hmac]

/-- The key of a keyed message does not pass its check. -/
theorem rdeBegin_refused (h1 : 1 ≤ s.fld (.rdeMode c) 3 0) (h10 : s.fld (.rdeMode c) 3 0 ≤ 10) (hm1 : 1 ≤ s.fld (.rdeMode c) 5 4)
    (hm2 : s.fld (.rdeMode c) 5 4 ≤ 2) {a x : Nat} (hslot : s.rdeSlot c who = some a) (hgood : s.slotBad a = false)
    (hx : s.rdeKeyCheck c who .none = .inl x) : s.rdeBegin c who .none = s.rdePoison c who x := by
  rw [State.rdeBegin, if_neg (by omega), if_neg (by omega), hslot, hx]
  simp only [hgood, Bool.false_eq_true, if_false]
  cases x == 0x1A <;> rfl

theorem rdeBegin_keyed (h1 : 1 ≤ s.fld (.rdeMode c) 3 0) (h10 : s.fld (.rdeMode c) 3 0 ≤ 10) (hm1 : 1 ≤ s.fld (.rdeMode c) 5 4)
    (hm2 : s.fld (.rdeMode c) 5 4 ≤ 2) {a : Nat} {mat : Bytes} (hslot : s.rdeSlot c who = some a) (hgood : s.slotBad a = false)
    (hx : s.rdeKeyCheck c who .none = .inr (a, mat)) :
    s.rdeBegin c who .none = (s.rdeAbsorb c who mat).useHmac a (s.fld (.rdeMode c) 3 0) mat := by
  rw [State.rdeBegin, if_neg (by omega), if_neg (by omega), hslot, hx]
  simp only [hgood, Bool.false_eq_true, if_false]
  rfl

theorem useHmac_rd (s : State) (a h : Nat) (key : Bytes) {r : Reg} (hr : r ≠ .keyHmacHits) (hr' : r ≠ .keyHmacMisses) :
    (s.useHmac a h key).rd r = s.rd r := by
  refine State.rd_bump_ne s ?_ 1
  split
  · exact hr.symm
  · exact hr'.symm

/-- A first word that begins its message. -/
theorem rdeTake_first {v : DWord} {key : Bytes} (hidle : s.rdeState c = 1 ∨ s.rdeState c = 4) (hlen : 0 < s.fld (.rdeLen c) 47 0) {u : State}
    (hu : s.rdeBegin c who .none = u) (hrd : ∀ r : Reg, r = .rdeStatus c ∨ r = .rdeCount c → u.rd r = (s.rdeAbsorb c who key).rd r)
    (hrde : u.rde = (s.rdeAbsorb c who key).rde) (htamper : u.tamper = s.tamper) :
    (s.rdeTake c who v .none).rdeState c = 2 ∧ (s.rdeTake c who v .none).fld (.rdeCount c) 47 0 = 8 ∧
      (s.rdeTake c who v .none).rdeOf c = { s.rdeSettings s c key (s.rdeOf c) with
        msg := leBytes 8 v.toNat, buffered := 1, heldWords := [], cmd := tset who 0 (s.rdeOf c).cmd } ∧
      (s.rdeTake c who v .none).tamper = s.tamper := by
  obtain ⟨hstate, h1, h2, h3, h4⟩ := rdeAbsorb_word v key hlen hrd hrde htamper
  rw [rdeTake_begins v hidle hu, if_pos hstate]
  exact ⟨h1, h2, h3, h4⟩

/-! ### The end of a message (R240, R241) and the compression of a block -/

/-- A hash that is complete, before its value is shown. -/
def State.rdeComplete (s : State) (c : Nat) : State := ((s.rdeGo c 4).setBit (.rdeStatus c) 6 true).bump (.rdeMsgs c)

/-- The value of the message of a complete context is shown in the results, or compared with what is expected. -/
def State.rdeShow (s : State) (c : Nat) (r : Rde) (n : Nat) : State :=
  if r.mac = 2 then s.setBit (.rdeStatus c) 5 (r.value.take n == (s.rdeExpected c).take n)
  else s.each (List.range 8) (fun s j => s.wr (.rdeResult c j) (BitVec.ofNat 64 (leAt r.value (8 * j) 8)))

theorem rdeDone_eq (hstate : s.rdeState c = 3) (hrun : s.jtagHalted 5 (128 + c) = false) (hheld : (s.rdeOf c).heldWords = []) :
    s.rdeDone c = ((s.rdeComplete c).rdeShow c (s.rdeOf c) (if (s.rdeOf c).tagLen = 0 then hashLen (s.rdeOf c).hash else (s.rdeOf c).tagLen)).setRde c
      (fun r => { r with msg := [], buffered := 0, heldWords := [] }) := by
  rw [State.rdeDone, if_neg (by simp [hstate, hrun])]
  dsimp only
  rw [hheld]
  split <;> rfl

theorem rdeComplete_rd (s : State) (c : Nat) {r : Reg} (h : r ≠ .rdeStatus c) (h' : r ≠ .rdeMsgs c) : (s.rdeComplete c).rd r = s.rd r := by
  rw [State.rdeComplete, State.rd_bump_ne _ h'.symm, State.setBit, State.rd_store, if_neg h.symm, rdeGo_rd _ _ _ h]

theorem rdeComplete_rdStatus (s : State) (c : Nat) : (s.rdeComplete c).rd (.rdeStatus c) = setB ((s.rdeGo c 4).rd (.rdeStatus c)) 6 true := by
  rw [State.rdeComplete, State.rd_bump_ne _ (by simp), State.setBit, State.rd_store, if_pos rfl]

theorem rdeComplete_rdeState (s : State) (c : Nat) : (s.rdeComplete c).rdeState c = 4 := by
  rw [State.rdeState, State.fld, rdeComplete_rdStatus, getF_setB _ _ _ _ _ (by decide) (.inr (by decide))]
  exact rdeGo_rdeState s c (by decide)

theorem rdeComplete_done (s : State) (c : Nat) : (s.rdeComplete c).bit (.rdeStatus c) 6 = true := by
  rw [State.bit, rdeComplete_rdStatus, getB_setB _ _ _ _ (by decide), if_pos rfl]

theorem rdeComplete_msgs (s : State) (c : Nat) : (s.rdeComplete c).fld (.rdeMsgs c) 31 0 = min (2 ^ 32 - 1) (s.fld (.rdeMsgs c) 31 0 + 1) := by
  rw [State.rdeComplete, State.fld_bump]
  refine congrArg (fun v => min (2 ^ 32 - 1) (getF v 31 0 + 1)) ?_
  rw [State.setBit, State.rd_store, if_neg (by simp), rdeGo_rd _ _ _ (by simp)]

theorem rdeExpected_rdeComplete (s : State) (c : Nat) : (s.rdeComplete c).rdeExpected c = s.rdeExpected c := by
  unfold State.rdeExpected
  congr 1
  funext j
  rw [rdeComplete_rd _ _ (by simp) (by simp)]

theorem rdeShow_digest (s : State) (c : Nat) {r : Rde} (hmac : r.mac ≠ 2) (n : Nat) :
    (∀ r', (∀ j, .rdeResult c j ≠ r') → (s.rdeShow c r n).rd r' = s.rd r') ∧
      (∀ j, j < 8 → (s.rdeShow c r n).rd (.rdeResult c j) = BitVec.ofNat 64 (leAt r.value (8 * j) 8)) ∧ (s.rdeShow c r n).tamper = s.tamper := by
  rw [State.rdeShow, if_neg hmac]
  refine ⟨fun r' h => ?_, fun j hj => ?_, ?_⟩
  · exact State.rd_each r' (fun u j => u.wr (.rdeResult c j) (BitVec.ofNat 64 (leAt r.value (8 * j) 8))) (fun _ j => State.rd_wr_ne _ _ (h j)) s _
  · refine each_establishes (P := fun u j => u.rd (.rdeResult c j) = BitVec.ofNat 64 (leAt r.value (8 * j) 8))
      (f := fun u j => u.wr (.rdeResult c j) (BitVec.ofNat 64 (leAt r.value (8 * j) 8))) (fun u j => by simp) (fun u a b h => ?_) s (List.mem_range.2 hj)
    by_cases hab : b = a
    · rw [hab, State.rd_wr, if_pos rfl]
    · rw [State.rd_wr_ne _ _ (by simpa using hab)]
      exact h
  · exact State.each_keeps State.tamper (fun u j => u.wr (.rdeResult c j) (BitVec.ofNat 64 (leAt r.value (8 * j) 8))) (fun _ _ => rfl) s _

theorem rdeShow_verdict (s : State) (c : Nat) {r : Rde} (hmac : r.mac = 2) (n : Nat) :
    s.rdeShow c r n = s.setBit (.rdeStatus c) 5 (r.value.take n == (s.rdeExpected c).take n) := if_pos hmac

end

/-! ### O39 -/

/-- The owner of a context: its release, its CLEAR and its set-up. -/
theorem rde_ownerCommands {s : State} {c : Nat} {who : Claimant} (hpath : s.rdePath c who = true) (hown : (s.rdeOf c).owner = some who) :
    (∃ t, exec (.rdeRelease c who) s = .next t ∧ (t.rdeOf c).owner = none ∧ t.rdeState c = 0 ∧ (t.rdeOf c).msg = [] ∧
      ∀ j, j < 8 → t.rd (.rdeResult c j) = 0) ∧
    (∃ t, exec (.rdeClear c who) s = .next t ∧ (t.rdeOf c).owner = some who ∧ t.rdeState c = 1 ∧ (t.rdeOf c).msg = [] ∧
      t.rd (.rdeCount c) = 0 ∧ t.rd (.rdeMode c) = s.rd (.rdeMode c) ∧ t.rd (.rdeKey c) = s.rd (.rdeKey c) ∧
      t.rd (.rdeLen c) = s.rd (.rdeLen c)) ∧
    (∀ v : DWord, s.rdeState c = 1 ∨ s.rdeState c = 4 →
      (∃ t, exec (.rdeSetupWrite c who .key v) s = .next t ∧ t.fld (.rdeKey c) 16 0 = getF v 16 0 ∧ ∀ r, r ≠ .rdeKey c → t.rd r = s.rd r) ∧
      (∃ t, exec (.rdeSetupWrite c who .len v) s = .next t ∧ t.fld (.rdeLen c) 47 0 = getF v 47 0 ∧ ∀ r, r ≠ .rdeLen c → t.rd r = s.rd r) ∧
      (∃ t, exec (.rdeSetupWrite c who .mode v) s = .next t ∧ t.fld (.rdeMode c) 3 0 = getF v 3 0 ∧ t.fld (.rdeMode c) 5 4 = getF v 5 4 ∧
        t.fld (.rdeMode c) 14 8 = clampTag (getF v 3 0) (getF v 14 8) ∧ ∀ r, r ≠ .rdeMode c → t.rd r = s.rd r)) ∧
    (∀ (v : DWord) (x : RdeSetup), s.rdeState c = 2 ∨ s.rdeState c = 3 →
      ∃ t, exec (.rdeSetupWrite c who x v) s = .next t ∧ tget 0 who (t.rdeOf c).cmd = 3 ∧ t.regs = s.regs) := by
  have hne {r r' : Reg} (h : r' ≠ r) (f : DWord → DWord) : ((s.rdeReport c who 0).store r f).rd r' = s.rd r' := by
    rw [State.rd_store, if_neg h.symm]
    rfl
  refine ⟨⟨_, rfl, rdeRelease_spec hpath hown⟩, ⟨_, rfl, rdeClear_spec hpath hown⟩, fun v hidle => ⟨?_, ?_, ?_⟩, fun v x hrun => ?_⟩
  · refine ⟨_, congrArg Host.Outcome.next ((rdeSetup_idle hpath hown hidle v).2.1), ?_, fun r hr => hne hr _⟩
    rw [State.fld_setFld _ _ _ _ _ (by decide) (by decide)]
    exact Nat.mod_eq_of_lt (getF_lt v 16 0)
  · refine ⟨_, congrArg Host.Outcome.next ((rdeSetup_idle hpath hown hidle v).2.2), ?_, fun r hr => hne hr _⟩
    rw [State.fld_setFld _ _ _ _ _ (by decide) (by decide)]
    exact Nat.mod_eq_of_lt (getF_lt v 47 0)
  · obtain ⟨h1, h2, h3⟩ := modeWord_fields v
    refine ⟨_, congrArg Host.Outcome.next ((rdeSetup_idle hpath hown hidle v).1), ?_, ?_, ?_, fun r hr => hne hr _⟩
    · rw [State.fld, State.rd_wr, if_pos rfl, h1]
    · rw [State.fld, State.rd_wr, if_pos rfl, h2]
    · rw [State.fld, State.rd_wr, if_pos rfl, h3]
  · exact ⟨_, congrArg Host.Outcome.next (rdeSetup_running hpath hown hrun x v), rdeReport_cmd _ c who 3, rfl⟩

/-- Who does not own a context learns it, and a path that is closed does nothing. -/
theorem rde_turnedAway {s : State} {c w : Nat} {who : Claimant} {v : DWord} {x : RdeSetup} (hdue : s.tamper.slotsDue = [])
    (hgood : ∀ n, who = .slice n → s.sliceBad n = false) :
    ∀ i ∈ [Instr.rdeRelease c who, .rdeClear c who, .rdeSetupWrite c who x v, .rdeData c who 64 v, .rdeFinish c who v],
      (s.rdePath c who = false → exec i s = .next s ∧ exec (.rdeClaim c who) s = .next s) ∧
      (s.rdePath c who = true → (s.rdeOf c).owner ≠ some who →
        ∃ t, exec i s = .next t ∧ tget 0 who (t.rdeOf c).cmd = 2 ∧ t.regs = s.regs ∧ (t.rdeOf c).msg = (s.rdeOf c).msg ∧
          (t.rdeOf c).owner = (s.rdeOf c).owner) ∧
      (w ≠ 64 → exec (.rdeData c who w v) s = .next s) := by
  have hasOwner : ∀ i ∈ [Instr.rdeRelease c who, .rdeClear c who, .rdeSetupWrite c who x v, .rdeData c who 64 v, .rdeFinish c who v],
      ∀ t, (∀ f, s.asOwner c who f = t) → t.tamper = s.tamper → exec i s = .next t := by
    intro i hi t ht htamper
    have hsweep : t.sweepDue = t := sweepDue_of_none (by rw [htamper, hdue])
    simp only [List.mem_cons, List.not_mem_nil, or_false] at hi
    rcases hi with rfl | rfl | rfl | rfl | rfl
    · exact congrArg Host.Outcome.next (ht _)
    · exact congrArg Host.Outcome.next (ht _)
    · exact congrArg Host.Outcome.next (ht _)
    · rw [exec_rdeData v hgood, ht, hsweep]
    · rw [exec_rdeFinish v hgood, State.rdeFinish, ht, hsweep]
  intro i hi
  refine ⟨fun hpath => ⟨hasOwner i hi s (fun f => asOwner_closed hpath f) rfl, ?_⟩, fun hpath hown => ?_, fun hw => if_pos hw⟩
  · refine congrArg Host.Outcome.next ?_
    simp [State.rdeClaim, hpath]
  · refine ⟨_, hasOwner i hi _ (fun f => asOwner_other hpath hown f) rfl, rdeReport_cmd _ c who 2, rfl, ?_, ?_⟩
    · rw [rdeReport_rdeOf]
    · rw [rdeReport_rdeOf]

/-- The words and the FINISH of a context's owner. -/
theorem rde_message {s : State} {c : Nat} {who : Claimant} {v : DWord} (hpath : s.rdePath c who = true) (hown : (s.rdeOf c).owner = some who)
    (hdue : s.tamper.slotsDue = []) (hgood : ∀ n, who = .slice n → s.sliceBad n = false) :
    (s.rdeState c = 1 ∨ s.rdeState c = 4 → 1 ≤ s.fld (.rdeMode c) 3 0 → s.fld (.rdeMode c) 3 0 ≤ 10 → s.fld (.rdeMode c) 5 4 = 0 →
      0 < s.fld (.rdeLen c) 47 0 →
      ∃ t, exec (.rdeData c who 64 v) s = .next t ∧ t.rdeState c = 2 ∧ (t.rdeOf c).msg = leBytes 8 v.toNat ∧
        t.fld (.rdeCount c) 47 0 = 8 ∧ (t.rdeOf c).len = s.fld (.rdeLen c) 47 0 ∧ (t.rdeOf c).owner = some who) ∧
    (s.rdeState c = 1 ∨ s.rdeState c = 4 → s.fld (.rdeMode c) 3 0 = 0 ∨ 10 < s.fld (.rdeMode c) 3 0 ∨ s.fld (.rdeMode c) 5 4 = 3 →
      ∃ t, exec (.rdeData c who 64 v) s = .next t ∧ t.rdeState c = 5 ∧ tget 0 who (t.rdeOf c).cmd = 0x10) ∧
    (∀ a, s.rdeState c = 1 ∨ s.rdeState c = 4 → 1 ≤ s.fld (.rdeMode c) 3 0 → s.fld (.rdeMode c) 3 0 ≤ 10 →
      1 ≤ s.fld (.rdeMode c) 5 4 → s.fld (.rdeMode c) 5 4 ≤ 2 → s.rdeSlot c who = some a → s.slotBad a = false →
      (∀ x, s.rdeKeyCheck c who = .inl x →
        ∃ t, exec (.rdeData c who 64 v) s = .next t ∧ t.rdeState c = 5 ∧ tget 0 who (t.rdeOf c).cmd = x) ∧
      (∀ mat, s.rdeKeyCheck c who = .inr (a, mat) → 0 < s.fld (.rdeLen c) 47 0 →
        ∃ t, exec (.rdeData c who 64 v) s = .next t ∧ t.rdeState c = 2 ∧ (t.rdeOf c).key = mat ∧ (t.rdeOf c).msg = leBytes 8 v.toNat)) ∧
    (s.rdeState c = 2 → s.bit (.rdeStatus c) 3 = false → s.fld (.rdeCount c) 47 0 / 8 < ((s.rdeOf c).len + 7) / 8 →
      s.fld (.rdeCount c) 47 0 + 8 < 2 ^ 48 →
      ∃ t, exec (.rdeData c who 64 v) s = .next t ∧ t.fld (.rdeCount c) 47 0 = s.fld (.rdeCount c) 47 0 + 8 ∧
        (t.rdeOf c).msg = (s.rdeOf c).msg ++ leBytes 8 v.toNat ∧ (t.rdeOf c).buffered = (s.rdeOf c).buffered + 1) ∧
    (s.rdeState c = 2 → s.bit (.rdeStatus c) 3 = true ∨ ((s.rdeOf c).len + 7) / 8 ≤ s.fld (.rdeCount c) 47 0 / 8 →
      ∃ t, exec (.rdeData c who 64 v) s = .next t ∧ t.bit (.rdeStatus c) 4 = true ∧ OnlyRegs [.rdeStatus c] s t) ∧
    (s.rdeState c = 3 → ∃ t, exec (.rdeData c who 64 v) s = .next t ∧ (t.rdeOf c).heldWords = (s.rdeOf c).heldWords ++ [v] ∧ t.regs = s.regs) ∧
    (s.rdeState c = 2 →
      (s.rdeLengthsOk c (getF v 47 0) = true →
        ∃ t, exec (.rdeFinish c who v) s = .next t ∧ t.rdeState c = 3 ∧ tget 0 who (t.rdeOf c).cmd = 0 ∧ (t.rdeOf c).msg = (s.rdeOf c).msg) ∧
      (s.rdeLengthsOk c (getF v 47 0) = false →
        ∃ t, exec (.rdeFinish c who v) s = .next t ∧ t.rdeState c = 5 ∧ tget 0 who (t.rdeOf c).cmd = 0x12)) := by
  have hexec {t : State} (ht : s.rdeTake c who v .none = t) (htamper : t.tamper = s.tamper) : exec (.rdeData c who 64 v) s = .next t :=
    exec_rdeData_owner hpath hown hdue hgood ht htamper
  refine ⟨fun hidle h1 h10 hmac hlen => ?_, fun hidle hbad => ?_, fun a hidle h1 h10 hm1 hm2 hslot hslotGood => ⟨fun x hx => ?_, fun mat hx hlen => ?_⟩,
    fun hst hbusy hroom hcount => ?_, fun hst hfull => ?_, fun hst => ?_, fun hst => ⟨fun hok => ?_, fun hbad => ?_⟩⟩
  · obtain ⟨hstate, hcount, hof, htamper⟩ := rdeTake_first (v := v) hidle hlen (rdeBegin_plain h1 h10 hmac) (fun _ _ => rfl) rfl
      (rdeAbsorb_spec s c who []).2.2.2.2
    refine ⟨_, hexec rfl htamper, hstate, ?_, hcount, ?_, ?_⟩
    · rw [hof]
    · rw [hof]
      rfl
    · rw [hof]
      exact hown
  · exact ⟨_, hexec (rdeTake_poisoned v hidle (rdeBegin_badMode hbad)) rfl, rdePoison_rdeState s c who _, rdePoison_cmd s c who _⟩
  · exact ⟨_, hexec (rdeTake_poisoned v hidle (rdeBegin_refused h1 h10 hm1 hm2 hslot hslotGood hx)) rfl, rdePoison_rdeState s c who _,
      rdePoison_cmd s c who _⟩
  · obtain ⟨hstate, -, hof, htamper⟩ := rdeTake_first (v := v) (key := mat) hidle hlen (rdeBegin_keyed h1 h10 hm1 hm2 hslot hslotGood hx)
      (fun r hr => useHmac_rd _ _ _ _ (by rcases hr with rfl | rfl <;> simp) (by rcases hr with rfl | rfl <;> simp)) rfl
      (rdeAbsorb_spec s c who mat).2.2.2.2
    refine ⟨_, hexec rfl htamper, hstate, ?_, ?_⟩
    · rw [hof]
      rfl
    · rw [hof]
  · obtain ⟨hc, -, hof, htamper⟩ := rdeWord_taken v hbusy hroom hcount
    refine ⟨_, hexec (rdeTake_absorbing v hst) htamper, hc, ?_, ?_⟩
    · rw [hof]
    · rw [hof]
  · refine ⟨_, hexec ((rdeTake_absorbing v hst).trans (rdeWord_dropped v hfull)) rfl, ?_, fun r hr => ?_, rfl⟩
    · rw [State.bit_setBit _ _ _ _ _ (by decide), if_pos rfl]
    · rw [State.setBit, State.rd_store, if_neg (fun h => hr (by simp [h]))]
  · refine ⟨s.setRde c (fun r => { r with heldWords := r.heldWords ++ [v] }), hexec (by simp only [State.rdeTake, hst]) rfl, ?_, rfl⟩
    rw [State.rdeOf_setRde, if_pos rfl]
  · refine ⟨_, (exec_rdeFinish_owner hpath hown hdue hgood hst).trans (congrArg _ (if_pos hok)), ?_, rdeReport_cmd _ c who 0, ?_⟩
    · rw [rdeReport_rdeState, rdeGo_rdeState _ _ (by decide)]
    · rw [rdeReport_rdeOf, rdeGo_rdeOf]
  · exact ⟨_, (exec_rdeFinish_owner hpath hown hdue hgood hst).trans (congrArg _ (if_neg (by simp [hbad]))), rdePoison_rdeState s c who _,
      rdePoison_cmd s c who _⟩

/-- A verdict stands in bit 5 of a context's status. -/
theorem verdict_shown (u : State) (c : Nat) (x y : Bytes) (f : Rde → Rde) :
    ((u.setBit (.rdeStatus c) 5 (x == y)).setRde c f).rdeState c = u.rdeState c ∧
      (((u.setBit (.rdeStatus c) 5 (x == y)).setRde c f).bit (.rdeStatus c) 5 = true ↔ x = y) ∧
      ∀ r, r ≠ .rdeStatus c → ((u.setBit (.rdeStatus c) 5 (x == y)).setRde c f).rd r = u.rd r := by
  have hrd (r : Reg) : ((u.setBit (.rdeStatus c) 5 (x == y)).setRde c f).rd r = if .rdeStatus c = r then setB (u.rd (.rdeStatus c)) 5 (x == y) else u.rd r :=
    State.rd_store u (.rdeStatus c) r (fun v => setB v 5 (x == y))
  refine ⟨?_, ?_, fun r hr => by rw [hrd, if_neg hr.symm]⟩
  · rw [State.rdeState, State.fld, hrd, if_pos rfl, getF_setB _ _ _ _ _ (by decide) (.inr (by decide))]
    rfl
  · rw [State.bit, hrd, if_pos rfl, getB_setB _ _ _ _ (by decide), if_pos rfl, beq_iff_eq]

/-- The hash of a context is complete. -/
theorem rde_finishDone {s : State} {c : Nat} (hstate : s.rdeState c = 3) (hrun : s.jtagHalted 5 (128 + c) = false)
    (hheld : (s.rdeOf c).heldWords = []) (hdue : s.tamper.slotsDue = []) :
    ((s.rdeOf c).mac ≠ 2 → ∃ t, exec (.rdeFinishDone c) s = .next t ∧ t.rdeState c = 4 ∧ t.bit (.rdeStatus c) 6 = true ∧
      t.fld (.rdeMsgs c) 31 0 = min (2 ^ 32 - 1) (s.fld (.rdeMsgs c) 31 0 + 1) ∧
      ∀ j, j < 8 → t.rd (.rdeResult c j) = BitVec.ofNat 64 (leAt (s.rdeOf c).value (8 * j) 8)) ∧
    ((s.rdeOf c).mac = 2 → ∃ t, exec (.rdeFinishDone c) s = .next t ∧ t.rdeState c = 4 ∧
      (∀ n, n = (if (s.rdeOf c).tagLen = 0 then hashLen (s.rdeOf c).hash else (s.rdeOf c).tagLen) →
        (t.bit (.rdeStatus c) 5 = true ↔ (s.rdeOf c).value.take n = (s.rdeExpected c).take n)) ∧
      ∀ j, t.rd (.rdeResult c j) = s.rd (.rdeResult c j)) := by
  have hexec {t : State} (ht : s.rdeDone c = t) (htamper : t.tamper = s.tamper) : exec (.rdeFinishDone c) s = .next t := by
    refine (congrArg Host.Outcome.next ?_ : Host.Outcome.next (s.rdeDone c).sweepDue = _)
    rw [ht, sweepDue_of_none (by rw [htamper, hdue])]
  refine ⟨fun hmac => ?_, fun hmac => ?_⟩
  · obtain ⟨hrd, hres, htamper⟩ := rdeShow_digest (s.rdeComplete c) c hmac
      (if (s.rdeOf c).tagLen = 0 then hashLen (s.rdeOf c).hash else (s.rdeOf c).tagLen)
    refine ⟨_, hexec (rdeDone_eq hstate hrun hheld) htamper, ?_, ?_, ?_, hres⟩
    · exact (congrArg (getF · 2 0) (hrd _ (by simp))).trans (rdeComplete_rdeState s c)
    · exact (congrArg (getB · 6) (hrd _ (by simp))).trans (rdeComplete_done s c)
    · exact (congrArg (getF · 31 0) (hrd _ (by simp))).trans (rdeComplete_msgs s c)
  · have heq := rdeDone_eq hstate hrun hheld
    rw [rdeShow_verdict _ _ hmac] at heq
    have hverdict := verdict_shown (s.rdeComplete c) c
      ((s.rdeOf c).value.take (if (s.rdeOf c).tagLen = 0 then hashLen (s.rdeOf c).hash else (s.rdeOf c).tagLen))
      (((s.rdeComplete c).rdeExpected c).take (if (s.rdeOf c).tagLen = 0 then hashLen (s.rdeOf c).hash else (s.rdeOf c).tagLen))
      (fun r => { r with msg := [], buffered := 0, heldWords := [] })
    rw [← heq, rdeExpected_rdeComplete] at hverdict
    obtain ⟨hst, hbit, hrd⟩ := hverdict
    refine ⟨_, hexec rfl (heq ▸ rfl), hst.trans (rdeComplete_rdeState s c), fun n hn => hn ▸ hbit, fun j => ?_⟩
    exact (hrd _ (by simp)).trans (rdeComplete_rd s c (by simp) (by simp))

/-- Settles O39: each clause from the rules of the operations on a context. -/
theorem digestContexts : Obligations.DigestContexts := by
  unfold Obligations.DigestContexts
  refine ⟨⟨fun s c who hpath hcode => ⟨fun hown => ⟨_, rfl, rdeClaim_free hpath hcode hown⟩, fun o hown ho => ?_,
    fun hown => rde_ownerCommands hpath hown⟩, fun s c w who v x hdue hgood => rde_turnedAway hdue hgood⟩,
    fun s c who v hpath hown hdue hgood => rde_message hpath hown hdue hgood,
    fun s c hstate hrun hheld hdue => rde_finishDone hstate hrun hheld hdue, fun s c hblock hstate hrun => ?_⟩
  · refine ⟨_, congrArg Host.Outcome.next (rdeClaim_taken hpath hown ho), rdeReport_cmd _ c who 1, ?_, rfl⟩
    rw [rdeReport_rdeOf]
    exact hown
  · refine ⟨_, if_pos ⟨hblock, hstate, hrun⟩, ?_, ?_, rdeBusy_rdeState _ c, fun r hr => rdeBusy_rd _ c hr⟩
    · rw [rdeBusy_rdeOf, State.rdeOf_setRde, if_pos rfl]
    · rw [rdeBusy_rdeOf, State.rdeOf_setRde, if_pos rfl]

end Sys2Proof.Machine
end

section
/-! PROOFS. O48: presence serves, or ends, the command that waits for it. -/

namespace Sys2Proof.Machine

/-! ### Entries of the event log are registers -/

/-- The registers that an entry of the event log changes. -/
def Reg.inLog : Reg → Bool
  | .tmpLogWord _ _ | .tmpLogHead | .tmpLogSeq => true
  | _ => false

theorem Reg.ne_of_inLog {r r' : Reg} (h : r'.inLog = true) (hr : r.inLog = false) : r' ≠ r := fun he => by simp [he, hr] at h

theorem logAt_rd (s : State) (time : DWord) (kind source cls flags value : Nat) {r : Reg} (hr : r.inLog = false) :
    (s.logAt time kind source cls flags value).rd r = s.rd r := by
  unfold State.logAt
  dsimp only
  simp only [State.setFld, State.rd_store, State.rd_wr]
  simp only [if_neg (Reg.ne_of_inLog (r' := .tmpLogSeq) rfl hr), if_neg (Reg.ne_of_inLog (r' := .tmpLogHead) rfl hr),
    if_neg (Reg.ne_of_inLog (r' := .tmpLogWord _ _) rfl hr)]

theorem logEvent_rd (s : State) (kind source cls flags value : Nat) {r : Reg} (hr : r.inLog = false) :
    (s.logEvent kind source cls flags value).rd r = s.rd r := logAt_rd s _ kind source cls flags value hr

/-! ### The state that a press serves -/

/-- The command of channel `ch` is asked of `u` as of `s`: they differ in the presence registers and the channel's status alone. -/
def Pressed (s u : State) (ch : Nat) : Prop := OnlyRegs [.lcsPp, .mbxStatus ch] s u

namespace Pressed
variable {s u : State} {ch : Nat} (h : Pressed s u ch)
include h

theorem rd {r : Reg} (hpp : r ≠ .lcsPp) (hstatus : r ≠ .mbxStatus ch) : u.rd r = s.rd r := h.1 r (by simp [hpp, hstatus])

theorem keeps : KeepsStores s u where
  slots := (congrArg State.slots h.2 :)
  cells := (congrArg State.cells h.2 :)
  jobs := (congrArg State.jobs h.2 :)
  tiles := (congrArg State.tiles h.2 :)
  sram := (congrArg State.sram h.2 :)
  otp := (congrArg State.otp h.2 :)
  bbram := (congrArg State.bbram h.2 :)
  flash := (congrArg State.flash h.2 :)
  rig := (congrArg State.rig h.2 :)

theorem mbx : u.mbx = s.mbx := (congrArg State.mbx h.2 :)
theorem rng : u.rng = s.rng := (congrArg State.rng h.2 :)
theorem dip : u.tamper.dip = s.tamper.dip := (congrArg (fun v : State => v.tamper.dip) h.2 :)

theorem fld {r : Reg} (hpp : r ≠ .lcsPp) (hstatus : r ≠ .mbxStatus ch) (hi lo : Nat) : u.fld r hi lo = s.fld r hi lo :=
  congrArg (getF · hi lo) (h.rd hpp hstatus)

theorem mbxCode : u.mbxCode ch = s.mbxCode ch := h.fld (by simp) (by simp) 15 0

theorem mbxRequest : u.mbxRequest ch = s.mbxRequest ch := by
  unfold State.mbxRequest
  rw [h.fld (r := .mbxReqLen ch) (by simp) (by simp)]
  simp only [h.rd (r := .mbxReq ch _) (by simp) (by simp)]

theorem stagedImage : u.stagedImage = s.stagedImage := by
  rw [State.stagedImage, h.mbx, h.keeps.sram]
  rfl

theorem rigPosition : u.rigPosition = s.rigPosition := by
  rw [State.rigPosition, h.keeps.otp]
  rfl

theorem rotatable : u.rotatable = s.rotatable := by
  rw [State.rotatable, h.rigPosition, h.stagedImage]
  rfl

theorem endorsementOk (i : Bytes) : u.endorsementOk i = s.endorsementOk i := by
  rw [State.endorsementOk, h.rigPosition, State.posDigest, h.keeps.otp]
  rfl

theorem ddrFitted : u.ddrFitted = s.ddrFitted := by
  rw [State.ddrFitted, h.fld (by simp) (by simp)]
  rfl

theorem checkRig (i : Bytes) (p : Nat) (d : Bytes) : u.checkRig i p d = s.checkRig i p d := by
  rw [State.checkRig, h.fld (by simp) (by simp), h.keeps.otp, h.ddrFitted]
  rfl

theorem copyAt (k : Nat) : u.copyAt k = s.copyAt k := congrArg (tget [] k) h.keeps.flash

theorem rigCopyOk (k : Nat) : u.rigCopyOk k = s.rigCopyOk k := by
  rw [State.rigCopyOk, State.rigCheck, h.checkRig, h.rigPosition, State.posDigest, h.keeps.otp, h.copyAt]
  rfl

theorem rigTarget : u.rigTarget = s.rigTarget := by
  rw [State.rigTarget, h.keeps.rig, h.fld (by simp) (by simp), h.rigCopyOk, h.rigCopyOk, State.rigOrder, h.copyAt, h.copyAt]
  rfl

end Pressed

/-! ### What presence serves, command by command -/

/-- A command that ends over a state that keeps the stores and the channel's code. -/
theorem answered_over {s u : State} {ch result : Nat} (hk : KeepsStores s u) (hcode : u.mbxCode ch = s.mbxCode ch) (h : s.mbxCode ch ∈ mbxCodes)
    (hr : result < 256) (detail : Nat) (rsp : Bytes) :
    (u.mbxDone ch result detail rsp).Answered ch result detail rsp ∧ KeepsStores s (u.mbxDone ch result detail rsp) := by
  have hanswer := mbxDone_answered (s := u) (ch := ch) (.inr (by rwa [hcode])) result detail rsp
  rw [Nat.mod_eq_of_lt hr] at hanswer
  exact ⟨hanswer, hk.trans (mbxDone_keeps _ _ _ _ _)⟩

/-- A store of a register keeps what the device stores. -/
theorem store_keeps (s : State) (r : Reg) (f : DWord → DWord) : KeepsStores s (s.store r f) := ⟨rfl, rfl, rfl, rfl, rfl, rfl, rfl, rfl, rfl⟩

theorem mbxCode_store (s : State) {r : Reg} (f : DWord → DWord) {ch : Nat} (h : r ≠ .mbxCmd ch) : (s.store r f).mbxCode ch = s.mbxCode ch := by
  rw [State.mbxCode, State.fld, State.rd_store, if_neg h]
  rfl

/-- Presence is missing: the command ends PRESENCE. -/
theorem noPresence_spec {s : State} {ch : Nat} (hcode : s.mbxCode ch ∈ mbxCodes) :
    (s.noPresence ch).Answered ch 0x27 0 [] ∧ KeepsStores s (s.noPresence ch) := by
  unfold State.noPresence
  dsimp only
  split
  · exact answered_over ((store_keeps s _ _).trans (store_keeps _ _ _)) ((mbxCode_store _ _ (by simp)).trans (mbxCode_store s _ (by simp))) hcode
      (by decide) 0 []
  · exact answered_over ⟨rfl, rfl, rfl, rfl, rfl, rfl, rfl, rfl, rfl⟩ rfl hcode (by decide) 0 []

/-- A transition that is under way, before the work stops. -/
def State.transitionNoted (s : State) (target : Nat) : State :=
  ((({ s with transition := some ⟨target, false, none, false⟩, pins := { s.pins with holdReleased := false } } : State).setFld .genState 3 0 2).setFld
    .lcsState 6 4 2).setFld .lcsState 10 8 target

/-- The command being served no longer waits. -/
def State.waitEnded (s : State) : State :=
  match s.mbx.busy with
  | some ch => s.setBit (.mbxStatus ch) 2 false
  | none => s

theorem beginTransition_eq (s : State) (target : Nat) : s.beginTransition target =
    ((s.transitionNoted target).waitEnded.cancelWaiting (fun _ => true) true).logEvent 4 0xFF 0 0 target := rfl

theorem waitEnded_frame (s : State) : (∀ r, (∀ ch, r ≠ .mbxStatus ch) → s.waitEnded.rd r = s.rd r) ∧
    ({ s.waitEnded with regs := s.regs, shadow := s.shadow } : State) = s := by
  unfold State.waitEnded
  cases s.mbx.busy with
  | none => exact ⟨fun _ _ => rfl, rfl⟩
  | some ch => exact ⟨fun r hr => (State.rd_store _ _ _ _).trans (if_neg (hr ch).symm), rfl⟩

/-- A life-cycle transition that begins. -/
theorem beginTransition_spec (s : State) (target : Nat) :
    (s.beginTransition target).transition = some ⟨target, false, none, false⟩ ∧ (s.beginTransition target).devState = 2 ∧
      (s.beginTransition target).slots = s.slots ∧ (s.beginTransition target).otp = s.otp := by
  obtain ⟨hrd, hrest⟩ := waitEnded_frame (s.transitionNoted target)
  rw [beginTransition_eq]
  have hcancel := JobsOnly.cancelWaiting (s.transitionNoted target).waitEnded (fun _ => true) true
  generalize (s.transitionNoted target).waitEnded.cancelWaiting (fun _ => true) true = u at hcancel ⊢
  generalize (s.transitionNoted target).waitEnded = w at hcancel hrd hrest
  have hgen : w.rd .genState = setF (s.rd .genState) 3 0 2 := by
    rw [hrd _ (by simp), State.transitionNoted, State.setFld, State.rd_store, if_neg (by simp), State.setFld, State.rd_store, if_neg (by simp),
      State.setFld, State.rd_store, if_pos rfl]
    rfl
  refine ⟨?_, ?_, ?_, ?_⟩
  · exact (congrArg State.transition hcancel.rest :).trans (congrArg State.transition hrest :)
  · rw [State.devState, State.fld, logEvent_rd _ _ _ _ _ _ rfl, hcancel.regs _ rfl, hgen, getF_setF _ _ _ _ (by decide) (by decide)]
    rfl
  · exact (congrArg State.slots hcancel.rest :).trans (congrArg State.slots hrest :)
  · exact (congrArg State.otp hcancel.rest :).trans (congrArg State.otp hrest :)

/-- The test root, where a certificate names an invasive right. -/
def State.invasiveRoot (s : State) (c : Bytes) : State := if certRights c / 4 ≠ 0 then { s with hmac := [] }.setBit .genState 5 true else s

/-- The rights of a certificate that come into force, before they are logged. -/
def State.rightsNoted (s : State) (c : Bytes) : State :=
  let u := ({ s with dbg := { s.dbg with record := certRights c, halted := s.dbg.halted.filter (fun x => (certRights c).testBit x.1) } } : State).wr
    .dbgRights (BitVec.ofNat 64 (certRights c))
  ((u.setFld .dbgStat 5 5 (leAt c 5 1)).wr .dbgOpenTime (u.rd .genTime)).bump .dbgOpens

theorem openRights_eq (s : State) (c : Bytes) : s.openRights c = ((s.invasiveRoot c).rightsNoted c).logEvent 5 0xFF 0 0 (certRights c) := rfl

theorem invasiveRoot_spec (s : State) (c : Bytes) : (4 ≤ certRights c → (s.invasiveRoot c).bit .genState 5 = true ∧ (s.invasiveRoot c).hmac = []) ∧
    (∀ ch, (s.invasiveRoot c).mbxCode ch = s.mbxCode ch) ∧ KeepsStores s (s.invasiveRoot c) := by
  unfold State.invasiveRoot
  split
  · refine ⟨fun _ => ⟨?_, rfl⟩, fun ch => mbxCode_store _ _ (by simp), ⟨rfl, rfl, rfl, rfl, rfl, rfl, rfl, rfl, rfl⟩⟩
    rw [State.bit_setBit _ _ _ _ _ (by decide), if_pos rfl]
  · exact ⟨fun h => by omega, fun _ => rfl, ⟨rfl, rfl, rfl, rfl, rfl, rfl, rfl, rfl, rfl⟩⟩

theorem rightsNoted_rd (s : State) (c : Bytes) {r : Reg} (h1 : r ≠ .dbgOpens) (h2 : r ≠ .dbgOpenTime) (h3 : r ≠ .dbgStat) :
    (s.rightsNoted c).rd r = if .dbgRights = r then BitVec.ofNat 64 (certRights c) else s.rd r := by
  rw [State.rightsNoted, State.rd_bump_ne _ h1.symm, State.rd_wr_ne _ _ h2.symm, State.setFld, State.rd_store, if_neg h3.symm, State.rd_wr]
  rfl

theorem rightsNoted_keeps (s : State) (c : Bytes) : KeepsStores s (s.rightsNoted c) := ⟨rfl, rfl, rfl, rfl, rfl, rfl, rfl, rfl, rfl⟩

theorem rightsNoted_record (s : State) (c : Bytes) : (s.rightsNoted c).dbg.record = certRights c ∧ (s.rightsNoted c).hmac = s.hmac := ⟨rfl, rfl⟩

theorem logEvent_keeps (s : State) (kind source cls flags value : Nat) : KeepsStores s (s.logEvent kind source cls flags value) :=
  ⟨rfl, rfl, rfl, rfl, rfl, rfl, rfl, rfl, rfl⟩

theorem logEvent_dbg (s : State) (kind source cls flags value : Nat) : (s.logEvent kind source cls flags value).dbg = s.dbg ∧
    (s.logEvent kind source cls flags value).hmac = s.hmac := ⟨rfl, rfl⟩

/-- The rights of a certificate come into force. -/
theorem openRights_spec (s : State) (c : Bytes) : (s.openRights c).rd .dbgRights = BitVec.ofNat 64 (certRights c) ∧
    (s.openRights c).dbg.record = certRights c ∧ (4 ≤ certRights c → (s.openRights c).bit .genState 5 = true ∧ (s.openRights c).hmac = []) ∧
    (∀ ch, (s.openRights c).mbxCode ch = s.mbxCode ch) ∧ KeepsStores s (s.openRights c) := by
  obtain ⟨hroot, hcode, hkeeps⟩ := invasiveRoot_spec s c
  obtain ⟨hrecord, hhmac⟩ := rightsNoted_record (s.invasiveRoot c) c
  have hkeeps' := hkeeps.trans (rightsNoted_keeps (s.invasiveRoot c) c)
  have hrights := fun r => rightsNoted_rd (s.invasiveRoot c) c (r := r)
  rw [openRights_eq]
  generalize (s.invasiveRoot c).rightsNoted c = u at hrecord hhmac hkeeps' hrights
  obtain ⟨hdbg, hlogHmac⟩ := logEvent_dbg u 5 0xFF 0 0 (certRights c)
  refine ⟨?_, by rw [hdbg, hrecord], fun h => ⟨?_, by rw [hlogHmac, hhmac, (hroot h).2]⟩, fun ch => ?_, hkeeps'.trans (logEvent_keeps u _ _ _ _ _)⟩
  · rw [logEvent_rd _ _ _ _ _ _ rfl, hrights _ (by simp) (by simp) (by simp), if_pos rfl]
  · rw [State.bit, logEvent_rd _ _ _ _ _ _ rfl, hrights _ (by simp) (by simp) (by simp), if_neg (by simp)]
    exact (hroot h).1
  · rw [State.mbxCode, State.fld, logEvent_rd _ _ _ _ _ _ rfl, hrights _ (by simp) (by simp) (by simp), if_neg (by simp)]
    exact hcode ch

/-! ### The draws of VAULT_CLEAR -/

/-- DRB0 cannot be reseeded for the SC at once (R344). -/
def State.prBlocked (s : State) : Prop :=
  s.srcState ≠ 2 ∨ s.bit .genState 4 ∨ s.drbState 0 = 0 ∨ s.poolBytes < 48 ∨ !s.rng.prWait.isEmpty
    ∨ (firstBelow 16 (fun k => s.bit (.rngDrbStat k) 4 && s.drbState k == 0)).isSome

/-- DRB0 reseeded for the SC's draw. -/
def State.prReseeded (s : State) : State := ((s.setPool (s.rng.pool.drop 48)).reseed 0 (s.rng.pool.take 48)).bump .rngPrCount

theorem prDraw_blocked {s : State} (h : s.prBlocked) (n : Nat) : s.prDraw n = none := if_pos h

theorem prDraw_free {s : State} (h : ¬ s.prBlocked) (n : Nat) : s.prDraw n = s.prReseeded.scDraw n := if_neg h

theorem reseed_rd (s : State) (k : Nat) (bs : Bytes) {r : Reg} (h1 : r ≠ .rngDrbReseeds k) (h2 : r ≠ .rngReseeds) : (s.reseed k bs).rd r =
    (((s.setFld (.rngDrbCount k) 20 0 0).setFld (.rngDrbStat k) 1 0 1).setBit (.rngDrbStat k) 2 false).rd r := by
  refine Eq.trans (b := (((((s.setDrbg k (drbgReseed (s.drbg k) bs)).setFld (.rngDrbCount k) 20 0 0).setFld (.rngDrbStat k) 1 0 1).setBit
    (.rngDrbStat k) 2 false).bump64 (.rngDrbReseeds k) |>.bump64 .rngReseeds).rd r) rfl ?_
  rw [State.bump64, State.rd_wr_ne _ _ h2.symm, State.bump64, State.rd_wr_ne _ _ h1.symm]
  rfl

theorem prReseeded_rd (s : State) {r : Reg} (h1 : r ≠ .rngDrbReseeds 0) (h2 : r ≠ .rngReseeds) (h3 : r ≠ .rngPrCount) : s.prReseeded.rd r =
    (((s.setFld (.rngDrbCount 0) 20 0 0).setFld (.rngDrbStat 0) 1 0 1).setBit (.rngDrbStat 0) 2 false).rd r := by
  rw [State.prReseeded, State.rd_bump_ne _ h3.symm, reseed_rd _ _ _ h1 h2]
  rfl

theorem prReseeded_ready (s : State) : s.prReseeded.drbState 0 = 1 ∧ s.prReseeded.fld (.rngDrbCount 0) 20 0 = 0 := by
  have hstat := prReseeded_rd s (r := .rngDrbStat 0) (by simp) (by simp) (by simp)
  have hcount := prReseeded_rd s (r := .rngDrbCount 0) (by simp) (by simp) (by simp)
  rw [State.setBit, State.rd_store, if_pos rfl, State.setFld, State.rd_store, if_pos rfl] at hstat
  rw [State.setBit, State.rd_store, if_neg (by simp), State.setFld, State.rd_store, if_neg (by simp), State.setFld, State.rd_store, if_pos rfl] at hcount
  refine ⟨?_, ?_⟩
  · rw [State.drbState, State.fld, hstat, getF_setB _ _ _ _ _ (by decide) (.inr (by decide)), getF_setF _ _ _ _ (by decide) (by decide)]
    rfl
  · rw [State.fld, hcount, getF_setF _ _ _ _ (by decide) (by decide)]
    rfl

theorem prReseeded_rest (s : State) : ({ s.prReseeded with regs := s.regs, shadow := s.shadow, rng := s.rng } : State) = s := rfl

theorem prReseeded_mbxCode (s : State) (ch : Nat) : s.prReseeded.mbxCode ch = s.mbxCode ch := by
  rw [State.mbxCode, State.fld, prReseeded_rd s (by simp) (by simp) (by simp), State.setBit, State.rd_store, if_neg (by simp), State.setFld, State.rd_store,
    if_neg (by simp), State.setFld, State.rd_store, if_neg (by simp)]
  rfl

/-- A READY generator with no requests yet serves one. -/
theorem request_fresh {s : State} {k : Nat} (hready : s.drbState k = 1) (hcount : s.fld (.rngDrbCount k) 20 0 = 0) (n : Nat) :
    ∃ bs b t, s.request k n = .got bs b t := by
  unfold State.request
  rw [if_neg (by omega)]
  dsimp only
  rw [if_neg (by omega)]
  exact ⟨_, _, _, rfl⟩

/-- The SC's draw where DRB0 can be reseeded for it: what it leaves alone. -/
theorem prDraw_got {s : State} (h : ¬ s.prBlocked) (n : Nat) : ∃ bs t, s.prDraw n = some (bs, t) ∧ t.mbx = s.mbx ∧ t.slots = s.slots ∧
    t.bbram = s.bbram ∧ ∀ ch, t.mbxCode ch = s.mbxCode ch := by
  obtain ⟨hready, hcount⟩ := prReseeded_ready s
  obtain ⟨bs, b, t, hgot⟩ := request_fresh hready hcount n
  have hserved := Serviced.request hgot
  have hrest := prReseeded_rest s
  refine ⟨bs, t, ?_, ?_, ?_, ?_, fun ch => ?_⟩
  · rw [prDraw_free h, State.scDraw, hgot]
  · exact (congrArg State.mbx hserved.rest :).trans (congrArg State.mbx hrest :)
  · exact (congrArg State.slots hserved.rest :).trans (congrArg State.slots hrest :)
  · exact (congrArg State.bbram hserved.rest :).trans (congrArg State.bbram hrest :)
  · exact (congrArg (getF · 15 0) (hserved.regs (.mbxCmd ch) rfl)).trans (prReseeded_mbxCode s ch)

theorem Pressed.prBlocked {s u : State} {ch : Nat} (h : Pressed s u ch) : u.prBlocked ↔ s.prBlocked := by
  have hrng := h.rng
  have hsrc : u.srcState = s.srcState := h.fld (by simp) (by simp) 2 0
  have hdrb (k : Nat) : u.drbState k = s.drbState k := h.fld (by simp) (by simp) 1 0
  have hbit (r : Reg) (hpp : r ≠ .lcsPp) (hstatus : r ≠ .mbxStatus ch) (i : Nat) : u.bit r i = s.bit r i := congrArg (getB · i) (h.rd hpp hstatus)
  have hpool : u.poolBytes = s.poolBytes := by rw [State.poolBytes, hrng, State.poolBytes]
  unfold State.prBlocked
  simp only [hsrc, hdrb, hrng, hpool, hbit .genState (by simp) (by simp), hbit (.rngDrbStat _) (by simp) (by simp)]

/-- VAULT_CLEAR once presence is shown and its draw served. -/
theorem clearVault_spec {s : State} {ch : Nat} (h : ¬ s.prBlocked) (hcode : s.mbxCode ch ∈ mbxCodes) :
    (s.clearVault ch).bbram.vault = [] ∧ (s.clearVault ch).bbram.epoch.isSome = true ∧ (s.clearVault ch).bbram.summary = 0 ∧
      (s.clearVault ch).slots = s.slots ∧ (s.clearVault ch).Answered ch 0 0 [] := by
  obtain ⟨bs, t, hgot, hmbx, hslots, hbbram, htcode⟩ := prDraw_got h 36
  have heq : s.clearVault ch = (({ t with bbram := { t.bbram with vault := [] } } : State).newEpoch bs).mbxDone ch 0 0 [] := by
    rw [State.clearVault, hgot]
    rfl
  have hkeeps := mbxDone_keeps (({ t with bbram := { t.bbram with vault := [] } } : State).newEpoch bs) ch 0 0 []
  rw [heq]
  refine ⟨by rw [hkeeps.bbram]; rfl, by rw [hkeeps.bbram]; rfl, by rw [hkeeps.bbram]; rfl, hkeeps.slots.trans hslots, ?_⟩
  exact mbxDone_answered (.inr ((htcode ch).symm ▸ hcode)) 0 0 []

/-! ### O48 -/

/-- The OTP that a command writes, and its end. -/
theorem otpWrite_spec {s : State} {ch : Nat} (hcode : s.mbxCode ch ∈ mbxCodes) (o : Otp) (detail : Nat) :
    (({ s with otp := o } : State).mbxDone ch 0 detail []).otp = o ∧ (({ s with otp := o } : State).mbxDone ch 0 detail []).Answered ch 0 detail [] ∧
      (({ s with otp := o } : State).mbxDone ch 0 detail []).slots = s.slots := by
  have hkeeps := mbxDone_keeps ({ s with otp := o } : State) ch 0 detail []
  exact ⟨hkeeps.otp, mbxDone_answered (s := ({ s with otp := o } : State)) (.inr hcode) 0 detail [], hkeeps.slots⟩

/-- A rotation once presence is shown. -/
theorem rotate_spec {s : State} {ch : Nat} (hcode : s.mbxCode ch ∈ mbxCodes) :
    (s.rotate ch).slots = s.slots ∧ (s.rotate ch).otp = s.otp ∧
      if s.rotatable = false ∨ s.endorsementOk s.stagedImage = false then (s.rotate ch).Answered ch 0x26 0 []
      else match s.checkRig s.stagedImage (s.rigPosition + 1)
          (authDigest (slice s.stagedImage (80 + rigBody s.stagedImage) 1952) (slice s.stagedImage (80 + rigBody s.stagedImage + 1952) 97)) with
        | .inl e => (s.rotate ch).Answered ch (e.1 % 256) e.2 []
        | .inr _ => (s.rotate ch).mbx.flash = some ⟨ch, s.rigTarget, s.stagedImage, .rotate (s.rigPosition + 1)⟩ ∧
          (s.rotate ch).copyAt s.rigTarget = [] := by
  have hdone (result detail : Nat) : (s.mbxDone ch result detail []).slots = s.slots ∧ (s.mbxDone ch result detail []).otp = s.otp :=
    ⟨(mbxDone_keeps s ch result detail []).slots, (mbxDone_keeps s ch result detail []).otp⟩
  unfold State.rotate
  dsimp only
  by_cases hbad : s.rotatable = false ∨ s.endorsementOk s.stagedImage = false
  · rw [if_pos (by simpa using hbad), if_pos hbad]
    exact ⟨(hdone _ _).1, (hdone _ _).2, mbxDone_answered (.inr hcode) _ _ _⟩
  · rw [if_neg (by simpa using hbad), if_neg hbad]
    generalize s.checkRig _ _ _ = x
    cases x with
    | inl e => exact ⟨(hdone _ _).1, (hdone _ _).2, mbxDone_answered (.inr hcode) _ _ _⟩
    | inr rig =>
      refine ⟨rfl, rfl, rfl, ?_⟩
      exact (tget_tset [] [] s.rigTarget s.rigTarget s.flash).trans (if_pos rfl)

/-- The state in which the press finds the command that waits. -/
def State.presenceShown (s : State) (jmp sealOpen : Bool) : State :=
  (((s.setBit .lcsPp 0 true).setBit .lcsPp 1 jmp).setBit .lcsPp 2 sealOpen).setBit .lcsPp 4 true

theorem presenceShown_pressed (s : State) (jmp sealOpen : Bool) (ch : Nat) : Pressed s (s.presenceShown jmp sealOpen) ch := by
  have hstore (u : State) (f : DWord → DWord) : OnlyRegs [.lcsPp, .mbxStatus ch] u (u.store .lcsPp f) := .store (by simp) u f
  exact (((hstore s _).trans (hstore _ _)).trans (hstore _ _)).trans (hstore _ _)

theorem Pressed.presenceOk {s u : State} {ch : Nat} (h : Pressed s u ch) (jmp sealOpen : Bool) : u.presenceOk ch jmp sealOpen = s.presenceOk ch jmp sealOpen := by
  rw [State.presenceOk, h.mbxCode, h.mbxRequest]
  rfl

/-- A press for the command that waits. -/
theorem exec_presencePress {s : State} {ch : Nat} {jmp sealOpen : Bool} (hio : s.power.io = true) (hbackup : s.power.backup = false)
    (hheld : s.boot.held = false) (hbusy : s.mbx.busy = some ch) (hwaits : s.bit (.mbxStatus ch) 2 = true) :
    exec (.presencePress jmp sealOpen) s = .next (if s.presenceOk ch jmp sealOpen then (s.presenceShown jmp sealOpen).serve ch
      else (s.presenceShown jmp sealOpen).noPresence ch) := by
  have hp := presenceShown_pressed s jmp sealOpen ch
  have hbit : (s.presenceShown jmp sealOpen).bit (.mbxStatus ch) 2 = true := by
    rw [← hwaits]
    simp [State.presenceShown, State.bit, State.setBit]
  have hok := hp.presenceOk jmp sealOpen
  have hbusy' : (s.presenceShown jmp sealOpen).mbx.busy = some ch := by rw [hp.mbx, hbusy]
  change execPresencePress jmp sealOpen s = _
  rw [execPresencePress, if_neg (by simp [hio, hbackup, hheld])]
  change (match (s.presenceShown jmp sealOpen).mbx.busy with
    | none => .next (s.presenceShown jmp sealOpen)
    | some ch => if !(s.presenceShown jmp sealOpen).bit (.mbxStatus ch) 2 then .next (s.presenceShown jmp sealOpen)
      else if (s.presenceShown jmp sealOpen).presenceOk ch jmp sealOpen then .next ((s.presenceShown jmp sealOpen).serve ch)
      else .next ((s.presenceShown jmp sealOpen).noPresence ch) : Answer) = _
  rw [hbusy']
  dsimp only
  rw [if_neg (by simp [hbit]), hok]
  split <;> rfl

/-- Presence serves at once what no dip defers. -/
theorem serve_eq {s : State} {ch : Nat} (hdip : s.tamper.dip = none) : s.serve ch = (s.setBit (.mbxStatus ch) 2 false).served ch := by
  have h : (writesLate ((s.setBit (.mbxStatus ch) 2 false).mbxCode ch) && (s.setBit (.mbxStatus ch) 2 false).tamper.dip.isSome) = false := by
    rw [show (s.setBit (.mbxStatus ch) 2 false).tamper.dip = none from hdip]
    simp
  rw [State.serve]
  dsimp only
  rw [h, if_neg (by simp)]

section
variable {s u : State} {ch : Nat}

/-- The state in which the served command runs. -/
theorem serving_pressed (s : State) (jmp sealOpen : Bool) (ch : Nat) : Pressed s ((s.presenceShown jmp sealOpen).setBit (.mbxStatus ch) 2 false) ch :=
  (presenceShown_pressed s jmp sealOpen ch).trans (.store (by simp) _ _)

theorem Pressed.openRights_served (h : Pressed s u ch) (hcode : s.mbxCode ch ∈ mbxCodes) (heq : s.mbxCode ch = 0x0411) :
    (u.served ch).rd .dbgRights = BitVec.ofNat 64 (certRights (s.mbxRequest ch)) ∧ (u.served ch).dbg.record = certRights (s.mbxRequest ch) ∧
      (4 ≤ certRights (s.mbxRequest ch) → (u.served ch).bit .genState 5 = true ∧ (u.served ch).hmac = []) ∧ (u.served ch).Answered ch 0 0 [] ∧
      KeepsStores s (u.served ch) := by
  have hserved : u.served ch = (u.openRights (s.mbxRequest ch)).mbxDone ch 0 0 [] := by
    simp only [State.served, h.mbxCode, heq, h.mbxRequest]
  obtain ⟨hrights, hrecord, hroot, hc, hkeeps⟩ := openRights_spec u (s.mbxRequest ch)
  obtain ⟨hanswered, hstores⟩ := answered_over (s := s) (u := u.openRights (s.mbxRequest ch)) (ch := ch) (result := 0) (h.keeps.trans hkeeps)
    ((hc ch).trans h.mbxCode) hcode (by decide) 0 []
  rw [hserved]
  generalize u.openRights (s.mbxRequest ch) = v at hrights hrecord hroot hanswered hstores
  obtain ⟨hrd, hrest⟩ := mbxDone_only v ch 0 0 []
  refine ⟨(hrd _ rfl).trans hrights, ?_, fun h4 => ⟨?_, ?_⟩, hanswered, hstores⟩
  · exact (congrArg (fun w : State => w.dbg.record) hrest :).trans hrecord
  · exact (congrArg (getB · 5) (hrd _ rfl)).trans (hroot h4).1
  · exact (congrArg State.hmac hrest :).trans (hroot h4).2

theorem Pressed.transition_served (h : Pressed s u ch) (heq : s.mbxCode ch = 0x0402) :
    (u.served ch).transition = some ⟨leAt (s.mbxRequest ch) 0 1, false, none, false⟩ ∧ (u.served ch).devState = 2 ∧ (u.served ch).slots = s.slots ∧
      (u.served ch).otp = s.otp := by
  have hserved : u.served ch = u.beginTransition (leAt (s.mbxRequest ch) 0 1) := by
    simp only [State.served, h.mbxCode, heq, h.mbxRequest]
  obtain ⟨htrans, hstate, hslots, hotp⟩ := beginTransition_spec u (leAt (s.mbxRequest ch) 0 1)
  rw [hserved]
  exact ⟨htrans, hstate, hslots.trans h.keeps.slots, hotp.trans h.keeps.otp⟩

theorem Pressed.programAuth_served (h : Pressed s u ch) (hcode : s.mbxCode ch ∈ mbxCodes) (heq : s.mbxCode ch = 0x0413) :
    (u.served ch).otp.authI.1 = hashOf 3 (s.mbxRequest ch) ∧ (u.served ch).Answered ch 0 (leAt (hashOf 3 (s.mbxRequest ch)) 0 4) [] ∧
      (u.served ch).slots = s.slots := by
  have hserved : u.served ch = u.programAuth ch (s.mbxRequest ch) := by
    simp only [State.served, h.mbxCode, heq, h.mbxRequest]
  obtain ⟨hotp, hanswered, hslots⟩ := otpWrite_spec (s := u) (ch := ch) (h.mbxCode ▸ hcode)
    { u.otp with authI := (hashOf 3 (s.mbxRequest ch), checkWord (hashOf 3 (s.mbxRequest ch))) } (leAt (hashOf 3 (s.mbxRequest ch)) 0 4)
  rw [hserved]
  exact ⟨congrArg (fun o : Otp => o.authI.1) hotp, hanswered, hslots.trans h.keeps.slots⟩

theorem Pressed.raiseMin_served (h : Pressed s u ch) (hcode : s.mbxCode ch ∈ mbxCodes) (heq : s.mbxCode ch = 0x0414) :
    (u.served ch).otp.debugMin = max s.otp.debugMin (leAt (s.mbxRequest ch) 0 1) ∧
      (u.served ch).Answered ch 0 (max s.otp.debugMin (leAt (s.mbxRequest ch) 0 1)) [] ∧ (u.served ch).slots = s.slots := by
  have hserved : u.served ch = u.raiseMin ch (s.mbxRequest ch) := by
    simp only [State.served, h.mbxCode, heq, h.mbxRequest]
  obtain ⟨hotp, hanswered, hslots⟩ := otpWrite_spec (s := u) (ch := ch) (h.mbxCode ▸ hcode)
    { u.otp with debugMin := max u.otp.debugMin (leAt (s.mbxRequest ch) 0 1) } (max u.otp.debugMin (leAt (s.mbxRequest ch) 0 1))
  rw [hserved, ← h.keeps.otp]
  exact ⟨congrArg (fun o : Otp => o.debugMin) hotp, hanswered, hslots.trans h.keeps.slots⟩

theorem Pressed.clearVault_served (h : Pressed s u ch) (hcode : s.mbxCode ch ∈ mbxCodes) (heq : s.mbxCode ch = 0x0313)
    (hdraw : (s.prDraw 36).isSome = true) : (u.served ch).bbram.vault = [] ∧ (u.served ch).bbram.epoch.isSome = true ∧
      (u.served ch).bbram.summary = 0 ∧ (u.served ch).slots = s.slots ∧ (u.served ch).Answered ch 0 0 [] := by
  have hserved : u.served ch = u.clearVault ch := by
    simp only [State.served, h.mbxCode, heq]
  have hfree : ¬ u.prBlocked := fun hb => by
    rw [prDraw_blocked (h.prBlocked.1 hb)] at hdraw
    simp at hdraw
  obtain ⟨h1, h2, h3, h4, h5⟩ := clearVault_spec hfree (h.mbxCode ▸ hcode : u.mbxCode ch ∈ mbxCodes)
  rw [hserved]
  exact ⟨h1, h2, h3, h4.trans h.keeps.slots, h5⟩

theorem Pressed.rotate_served (h : Pressed s u ch) (hcode : s.mbxCode ch ∈ mbxCodes) (heq : s.mbxCode ch = 0x0205) :
    (u.served ch).slots = s.slots ∧ (u.served ch).otp = s.otp ∧
      if s.rotatable = false ∨ s.endorsementOk s.stagedImage = false then (u.served ch).Answered ch 0x26 0 []
      else match s.checkRig s.stagedImage (s.rigPosition + 1)
          (authDigest (slice s.stagedImage (80 + rigBody s.stagedImage) 1952) (slice s.stagedImage (80 + rigBody s.stagedImage + 1952) 97)) with
        | .inl e => (u.served ch).Answered ch (e.1 % 256) e.2 []
        | .inr _ => (u.served ch).mbx.flash = some ⟨ch, s.rigTarget, s.stagedImage, .rotate (s.rigPosition + 1)⟩ ∧
          (u.served ch).copyAt s.rigTarget = [] := by
  have hserved : u.served ch = u.rotate ch := by
    simp only [State.served, h.mbxCode, heq]
  obtain ⟨hslots, hotp, hcases⟩ := rotate_spec (h.mbxCode ▸ hcode : u.mbxCode ch ∈ mbxCodes)
  rw [h.rotatable, h.endorsementOk, h.stagedImage, h.checkRig, h.rigPosition, h.rigTarget] at hcases
  rw [hserved]
  exact ⟨hslots.trans h.keeps.slots, hotp.trans h.keeps.otp, hcases⟩

end

/-- Settles O48: each command's effect on the state in which the press finds it. -/
theorem presenceServes : Obligations.PresenceServes := by
  unfold Obligations.PresenceServes
  refine ⟨fun s ch jmp sealOpen hio hbackup hheld hbusy hwaits hcode => ?_, fun s ch hbusy hwaits hcode => ?_⟩
  · have hexec := exec_presencePress (jmp := jmp) (sealOpen := sealOpen) hio hbackup hheld hbusy hwaits
    have hp := serving_pressed s jmp sealOpen ch
    refine ⟨fun hok => ?_, fun hok hdip => ?_⟩
    · have hshown := presenceShown_pressed s jmp sealOpen ch
      obtain ⟨hanswered, hkeeps⟩ := noPresence_spec (s := s.presenceShown jmp sealOpen) (ch := ch) (hshown.mbxCode ▸ hcode)
      exact ⟨_, hexec.trans (by rw [hok, if_neg (by simp)]), hanswered, hshown.keeps.trans hkeeps⟩
    · have hserve : exec (.presencePress jmp sealOpen) s = .next (((s.presenceShown jmp sealOpen).setBit (.mbxStatus ch) 2 false).served ch) := by
        rw [hexec, if_pos hok, serve_eq ((presenceShown_pressed s jmp sealOpen ch).dip.trans hdip)]
      refine ⟨fun h => ⟨_, hserve, hp.transition_served h⟩, fun h => ⟨_, hserve, hp.openRights_served hcode h⟩,
        fun h => ⟨_, hserve, hp.programAuth_served hcode h⟩, fun h => ⟨_, hserve, hp.raiseMin_served hcode h⟩,
        fun h hdraw => ⟨_, hserve, hp.clearVault_served hcode h hdraw⟩, fun i b p hi hb hpos h => ⟨_, hserve, ?_⟩⟩
      subst hi hb hpos
      exact hp.rotate_served hcode h
  · have hexec : exec .presenceTimeout s = .next (s.noPresence ch) := by
      change execPresenceTimeout s = _
      rw [execPresenceTimeout, hbusy]
      dsimp only
      rw [if_pos hwaits]
    exact ⟨_, hexec, noPresence_spec hcode⟩

end Sys2Proof.Machine
end

section
/-! PROOFS. O43: mailbox commands on key slots, and signed statements. -/

namespace Sys2Proof.Machine

/-! ### Statements are over what no draw changes -/

/-- What statements are made over is alike. -/
structure StatesAlike (s t : State) : Prop where
  otp : t.otp = s.otp
  bbram : t.bbram = s.bbram
  boot : t.boot = s.boot
  rig : t.rig = s.rig
  genState : t.rd .genState = s.rd .genState
  lcsState : t.rd .lcsState = s.rd .lcsState
  rights : t.rd .dbgRights = s.rd .dbgRights
  bootSeq : t.rd .genBootSeq = s.rd .genBootSeq

namespace StatesAlike
variable {s t u : State}

theorem trans (h : StatesAlike s t) (h' : StatesAlike t u) : StatesAlike s u where
  otp := h'.otp.trans h.otp
  bbram := h'.bbram.trans h.bbram
  boot := h'.boot.trans h.boot
  rig := h'.rig.trans h.rig
  genState := h'.genState.trans h.genState
  lcsState := h'.lcsState.trans h.lcsState
  rights := h'.rights.trans h.rights
  bootSeq := h'.bootSeq.trans h.bootSeq

theorem of_serviced (h : Serviced s t) : StatesAlike s t where
  otp := (congrArg State.otp h.rest :)
  bbram := (congrArg State.bbram h.rest :)
  boot := (congrArg State.boot h.rest :)
  rig := (congrArg State.rig h.rest :)
  genState := h.regs _ rfl
  lcsState := h.regs _ rfl
  rights := h.regs _ rfl
  bootSeq := h.regs _ rfl

theorem of_mailbox (h : MailboxOnly s t) : StatesAlike s t where
  otp := (congrArg State.otp h.2 :)
  bbram := (congrArg State.bbram h.2 :)
  boot := (congrArg State.boot h.2 :)
  rig := (congrArg State.rig h.2 :)
  genState := h.1 _ rfl
  lcsState := h.1 _ rfl
  rights := h.1 _ rfl
  bootSeq := h.1 _ rfl

section
variable (h : StatesAlike s t)
include h

theorem fld_genState (hi lo : Nat) : t.fld .genState hi lo = s.fld .genState hi lo := congrArg (getF · hi lo) h.genState
theorem testRoot : t.testRoot = s.testRoot := congrArg (getB · 5) h.genState
theorem testFlag : t.testFlag = s.testFlag := by rw [State.testFlag, h.testRoot, State.testFlag]
theorem serial : t.serial = s.serial := congrArg Otp.serial h.otp
theorem epochId : t.epochId = s.epochId := by rw [State.epochId, h.bbram, State.epochId]
theorem bootSeqNumber : t.bootSeq = s.bootSeq := congrArg (getF · 31 0) h.bootSeq
theorem sealedAttr (w : DWord) : t.sealedAttr w = s.sealedAttr w := by rw [State.sealedAttr, h.testRoot, State.sealedAttr]

theorem root : t.root = s.root := by
  rw [State.root, h.testRoot, h.serial, State.deviceSecret, h.otp]
  rfl

theorem deviceKey (kak : Bool) : t.deviceKey kak = s.deviceKey kak := by
  rw [State.deviceKey, State.vaultRoot, h.root, State.epochSecret, h.bbram, h.epochId, h.serial]
  rfl

theorem originStatement (nonce : Bytes) (w : DWord) (slot : Nat) (mat x y : Bytes) :
    t.originStatement nonce w slot mat x y = s.originStatement nonce w slot mat x y := by
  rw [State.originStatement, h.deviceKey, State.originBody, h.testFlag, h.serial, h.epochId, h.bootSeqNumber]
  rfl

theorem identityRecord (x y : Bytes) : t.identityRecord x y = s.identityRecord x y := by
  rw [State.identityRecord, h.deviceKey, h.deviceKey, h.testFlag, h.serial, h.epochId]
  rfl

theorem measureStatement (nonce x y : Bytes) : t.measureStatement nonce x y = s.measureStatement nonce x y := by
  have hlcs : t.fld .lcsState 3 0 = s.fld .lcsState 3 0 := congrArg (getF · 3 0) h.lcsState
  have hrights : t.fld .dbgRights 31 0 = s.fld .dbgRights 31 0 := congrArg (getF · 31 0) h.rights
  unfold State.measureStatement
  rw [h.deviceKey, h.testFlag, h.serial, h.epochId, h.bootSeqNumber, h.fld_genState, h.fld_genState, hlcs, hrights, h.otp, h.bbram, h.boot, h.rig]

end

end StatesAlike

/-! ### The draws of a statement -/

theorem scDraw_serviced {s t : State} {n : Nat} {bs : Bytes} (h : s.scDraw n = some (bs, t)) : Serviced s t := by
  unfold State.scDraw at h
  split at h
  · next hgot =>
    cases h
    exact .request hgot
  · cases h

theorem signDraws_serviced {s t : State} {x y : Bytes} (h : s.signDraws = some (x, y, t)) : Serviced s t := by
  unfold State.signDraws at h
  split at h
  · cases h
  · next h1 =>
    split at h
    · cases h
    · next h2 =>
      cases h
      exact (scDraw_serviced h1).trans (scDraw_serviced h2)

theorem Serviced.slotAt {s t : State} (h : Serviced s t) (a : Nat) : t.slotAt a = s.slotAt a :=
  (congrArg (tget ⟨[], 0, BitVec.allOnes 64, 0, none⟩ a) (congrArg State.slots h.rest :) :)

theorem rngEvt_keeps (s : State) (i : Nat) : KeepsStores s (s.rngEvt i) := by
  have h : RegsAndMessages [.rngEvtStatus] s (s.rngEvt i) := .event (by simp) s _ _ i
  exact ⟨(congrArg State.slots h.2 :), (congrArg State.cells h.2 :), (congrArg State.jobs h.2 :), (congrArg State.tiles h.2 :),
    (congrArg State.sram h.2 :), (congrArg State.otp h.2 :), (congrArg State.bbram h.2 :), (congrArg State.flash h.2 :), (congrArg State.rig h.2 :)⟩

theorem bump64_keeps (s : State) (r : Reg) : KeepsStores s (s.bump64 r) := store_keeps s r (fun _ => s.rd r + 1)

theorem setDrbg_keeps (s : State) (k : Nat) (x : DrbgState) : KeepsStores s (s.setDrbg k x) := ⟨rfl, rfl, rfl, rfl, rfl, rfl, rfl, rfl, rfl⟩

theorem request_keeps {s t : State} {k n : Nat} {bs : Bytes} {b : Bool} (h : s.request k n = .got bs b t) : KeepsStores s t := by
  unfold State.request at h
  split at h
  · cases h
  dsimp only at h
  split at h
  · cases h
  cases h
  have honly (u : State) (c : Bool) : KeepsStores u (u.onlyIf c (·.rngEvt 3)) := by
    cases c
    · exact ⟨rfl, rfl, rfl, rfl, rfl, rfl, rfl, rfl, rfl⟩
    · exact rngEvt_keeps u 3
  refine .trans ?_ (setDrbg_keeps _ _ _)
  refine .trans ?_ (honly _ _)
  refine .trans ?_ (store_keeps _ (.rngDrbStat k) _)
  refine .trans ?_ (bump64_keeps _ _)
  exact .trans (store_keeps s (.rngDrbCount k) _) (store_keeps _ (.rngDrbMaxcount k) _)

theorem scDraw_keeps {s t : State} {n : Nat} {bs : Bytes} (h : s.scDraw n = some (bs, t)) : KeepsStores s t := by
  unfold State.scDraw at h
  split at h
  · next hgot =>
    cases h
    exact request_keeps hgot
  · cases h

theorem signDraws_keeps {s t : State} {x y : Bytes} (h : s.signDraws = some (x, y, t)) : KeepsStores s t := by
  unfold State.signDraws at h
  split at h
  · cases h
  · next h1 =>
    split at h
    · cases h
    · next h2 =>
      cases h
      exact (scDraw_keeps h1).trans (scDraw_keeps h2)

/-- A command that ends with its answer after the SC took it and drew what it needs. -/
theorem answered_after_draws {s u : State} {ch : Nat} {x y : Bytes} (hu : (s.mbxTaken ch).signDraws = some (x, y, u)) (rsp : Bytes) :
    KeepsStores s (u.mbxDone ch 0 0 rsp) ∧ (u.mbxDone ch 0 0 rsp).Answered ch 0 0 rsp := by
  have hserved := signDraws_serviced hu
  have hno : u.NoUnknown ch := by
    have hqueue : u.mbx = (s.mbxTaken ch).mbx := (congrArg State.mbx hserved.rest :)
    exact .inl (by rw [hqueue]; simp [State.mbxTaken])
  exact ⟨((mbxTaken_keeps s ch).trans (signDraws_keeps hu)).trans (mbxDone_keeps _ _ _ _ _), mbxDone_answered hno 0 0 rsp⟩

theorem drawn_alike {s u : State} {ch : Nat} {x y : Bytes} (hu : (s.mbxTaken ch).signDraws = some (x, y, u)) : StatesAlike s u :=
  (StatesAlike.of_mailbox (mbxTaken_only s ch)).trans (.of_serviced (signDraws_serviced hu))

/-! ### Keys of slots -/

theorem mbxTaken_slotAt (s : State) (ch a : Nat) : (s.mbxTaken ch).slotAt a = s.slotAt a := congrArg (tget _ a) (mbxTaken_keeps s ch).slots

theorem mbxTaken_alike (s : State) (ch : Nat) : StatesAlike s (s.mbxTaken ch) := .of_mailbox (mbxTaken_only s ch)

theorem mbxTaken_usable (s : State) (ch a : Nat) : (s.mbxTaken ch).usable a = s.usable a := by
  rw [State.usable, mbxTaken_slotAt, State.usable]

theorem keyRefused_none {s : State} {a : Nat} (husable : s.usable a = true) (hseal : s.sealedAttr (s.slotAt a).attr = false) : s.keyRefused a = none := by
  rw [State.keyRefused, husable, hseal]
  rfl

theorem mbxTaken_keyRefused {s : State} {a : Nat} (husable : s.usable a = true) (hseal : s.sealedAttr (s.slotAt a).attr = false) (ch : Nat) :
    (s.mbxTaken ch).keyRefused a = none :=
  keyRefused_none (by rw [mbxTaken_usable, husable]) (by rw [mbxTaken_slotAt, (mbxTaken_alike s ch).sealedAttr, hseal])

theorem withKey_of_usable {s : State} {a : Nat} (h : s.keyRefused a = none) (ch : Nat) (f : State → State) : s.withKey ch a f = f s := by
  rw [State.withKey, h]

theorem mbxTaken_material (s : State) (ch a : Nat) : (s.mbxTaken ch).material a = s.material a := by
  have hrd (r : Reg) (hr : r.ofMailbox = false) : (s.mbxTaken ch).rd r = s.rd r := (mbxTaken_only s ch).1 r hr
  have hready : (s.mbxTaken ch).ddrReady = s.ddrReady := by rw [State.ddrReady, State.bit, State.bit, hrd _ rfl]; rfl
  have haddr : (s.mbxTaken ch).extentAddr a = s.extentAddr a := by rw [State.extentAddr, State.fld, hrd _ rfl]; rfl
  have hkey : (s.mbxTaken ch).extentKey = s.extentKey := rfl
  have hddr : (s.mbxTaken ch).ddr = s.ddr := rfl
  unfold State.material State.extentBytes
  rw [mbxTaken_slotAt, hready, haddr, hkey, hddr]

theorem keyMet_none {s : State} {a : Nat} {m : Option Bytes} (h : s.material a = m) : s.keyMet a .none = (s, m) := by
  subst h
  unfold State.keyMet
  cases s.material a <;> rfl

/-! ### Slots written, narrowed and emptied -/

/-- FORM and CLASS of a new ATTR word. -/
theorem newAttr_fields (s : State) (c set owner a : Nat) (gen stateful extent : Bool) (cell : Nat) :
    getF (s.newAttr c set owner a gen stateful extent cell) 7 6 = (if extent then 1 else 0) ∧
      attrClass (s.newAttr c set owner a gen stateful extent cell) = c % 256 := by
  have hflag : ∀ (b : Bool) (n : Nat), (if b then n else 0) ≤ n := fun b n => by cases b <;> simp
  have h1 := hflag gen 4
  have h2 := hflag (a.testBit 8) 8
  have h3 := hflag stateful 16
  have h4 := hflag s.testRoot 32
  have h6 := Nat.mod_lt a (show 0 < 64 by decide)
  have h7 := Nat.mod_lt set (show 0 < 256 by decide)
  have h8 := Nat.mod_lt c (show 0 < 256 by decide)
  have h9 := Nat.mod_lt owner (show 0 < 1024 by decide)
  have h10 := Nat.mod_lt cell (show 0 < 1024 by decide)
  have hextent : (if extent then 64 else 0) = 64 * (if extent then 1 else 0) := by cases extent <;> rfl
  have hbit : (if extent then 1 else 0) ≤ 1 := hflag extent 1
  unfold attrClass getF State.newAttr
  rw [BitVec.toNat_ofNat, hextent]
  omega

theorem putAttr_slotAt (s : State) (a b : Nat) (w : DWord) :
    (s.putAttr a w).slotAt b = if a = b then { s.slotAt a with attr := w, inv := ~~~w } else s.slotAt b :=
  tget_tset _ _ b a s.slots

/-- A slot of a table with one entry replaced. -/
theorem slotAt_tset (l : List (Nat × Slot)) (a b : Nat) (v : Slot) : tget (⟨[], 0, BitVec.allOnes 64, 0, none⟩ : Slot) b (tset a v l) =
    if a = b then v else tget ⟨[], 0, BitVec.allOnes 64, 0, none⟩ b l := tget_tset _ _ b a l

theorem putSlot_plain (s : State) (a : Nat) (mat : Bytes) {attr : DWord} (k : Nat) (hform : getF attr 7 6 ≠ 1) :
    (∀ b, (s.putSlot a mat attr k).slotAt b = if a = b then ⟨mat, attr, ~~~attr, k, none⟩ else s.slotAt b) ∧ (s.putSlot a mat attr k).ddr = s.ddr := by
  unfold State.putSlot
  rw [if_neg hform]
  exact ⟨fun b => slotAt_tset s.slots a b _, rfl⟩

theorem putSlot_extent (s : State) (a : Nat) (mat : Bytes) {attr : DWord} (k : Nat) (hform : getF attr 7 6 = 1) {m x : Bytes}
    (hm : m = if attrClass attr = 0x0A then mat.drop 4 else mat) (hx : x = gcmSeal s.extentKey (s.draw 12).1 [] m) :
    (∀ b, (s.putSlot a mat attr k).slotAt b =
      if a = b then ⟨[], attr, ~~~attr, k, some ⟨(s.draw 12).1, m.length, x.drop m.length⟩⟩ else s.slotAt b) ∧
      (s.putSlot a mat attr k).ddr = if s.ddrReady then Memory.write (s.extentAddr a) (x.take m.length) s.ddr else s.ddr := by
  have honly (u : State) (c : Bool) (d : State → List Host.Cell) : (u.onlyIf c (fun s => { s with ddr := d s })).slots = u.slots ∧
      (u.onlyIf c (fun s => { s with ddr := d s })).ddr = if c then d u else u.ddr := by cases c <;> exact ⟨rfl, rfl⟩
  subst hm hx
  unfold State.putSlot State.sealExtent
  rw [if_pos hform]
  refine ⟨fun b => ?_, (honly _ _ _).2⟩
  refine (slotAt_tset _ a b _).trans ?_
  rw [(honly _ _ _).1]
  rfl

/-- A key's write into a slot, as `State.Holds` says it. -/
theorem putSlot_holds (s : State) {a c k : Nat} {mat : Bytes} {attr : DWord} (hform : getF attr 7 6 = if inExtent c mat.length then 1 else 0)
    (hclass : attrClass attr = c) (hk : k = if c = 0x0A then leAt mat 0 4 else 0) :
    (s.putSlot a mat attr k).Holds s a c mat ∧ ((s.putSlot a mat attr k).slotAt a).attr = attr ∧
      ((s.putSlot a mat attr k).slotAt a).inv = ~~~attr ∧ ∀ b, b ≠ a → (s.putSlot a mat attr k).slotAt b = s.slotAt b := by
  subst hk
  unfold State.Holds
  by_cases hext : inExtent c mat.length = true
  · rw [if_pos hext] at hform
    obtain ⟨hslot, hddr⟩ := putSlot_extent s a mat (if c = 0x0A then leAt mat 0 4 else 0) hform rfl rfl
    rw [hclass] at hslot hddr
    have ha := hslot a
    rw [if_pos rfl] at ha
    rw [ha, if_pos hext]
    exact ⟨⟨rfl, rfl, rfl, hddr⟩, rfl, rfl, fun b hb => (hslot b).trans (if_neg hb.symm)⟩
  · rw [if_neg hext] at hform
    obtain ⟨hslot, hddr⟩ := putSlot_plain s a mat (if c = 0x0A then leAt mat 0 4 else 0) (by omega : getF attr 7 6 ≠ 1)
    have ha := hslot a
    rw [if_pos rfl] at ha
    rw [ha, if_neg hext]
    exact ⟨⟨rfl, rfl, hddr⟩, rfl, rfl, fun b hb => (hslot b).trans (if_neg hb.symm)⟩

/-- What the holding of a key is told by. -/
theorem State.Holds.congr {s s' t t' : State} {a c : Nat} {mat : Bytes} (h : t.Holds s a c mat) (hslots : t'.slots = t.slots) (hddr : t'.ddr = t.ddr)
    (hboot : s'.boot = s.boot) (hctr : s'.freeCtr = s.freeCtr) (hready : s'.ddrReady = s.ddrReady) (haddr : s'.extentAddr a = s.extentAddr a)
    (hmem : s'.ddr = s.ddr) : t'.Holds s' a c mat := by
  have hslot : t'.slotAt a = t.slotAt a := congrArg (tget _ a) hslots
  have hkey : s'.extentKey = s.extentKey := by rw [State.extentKey, hboot, State.extentKey]
  have hdraw : (s'.draw 12).1 = (s.draw 12).1 := congrArg (fun n => bytesOf 12 (Config.random n)) hctr
  unfold State.Holds at h ⊢
  rw [hslot, hddr, hkey, hdraw, hready, haddr, hmem]
  exact h

/-- A slot that holds nothing. -/
def Slot.empty : Slot := ⟨[], 0, BitVec.allOnes 64, 0, none⟩

theorem clearSlot_slotAt (s : State) (a b : Nat) : (s.clearSlot a).slotAt b = if b = a then .empty else s.slotAt b := by
  have h : (s.clearSlot a).slotAt b = tget Slot.empty b (s.slots.filter (fun e => e.1 ≠ a)) := rfl
  rw [h]
  split
  · next hab => rw [hab, tget_filter_self]
  · next hab => exact tget_filter_ne _ _ _ _ (Ne.symm hab)

theorem emptySlot_slotAt (s : State) (a b : Nat) : (s.emptySlot a).slotAt b = if b = a then .empty else s.slotAt b := by
  have hcongr (u : State) (h : u.slots = s.slots) : (u.clearSlot a).slotAt b = if b = a then .empty else s.slotAt b := by
    rw [clearSlot_slotAt]
    exact congrArg (fun l => if b = a then Slot.empty else tget Slot.empty b l) h
  have hwaiter (u : State) (c j : Nat) : ((u.dropWaiter c j).endJob j (.fail 0x15 (keyDetail 0 1))).slots = u.slots :=
    (congrArg State.slots (JobsOnly.endJob (u.dropWaiter c j) j (.fail 0x15 (keyDetail 0 1))).rest :)
  unfold State.emptySlot
  dsimp only
  split
  · exact hcongr s rfl
  · have hend := hcongr _ (State.each_keeps State.slots (fun u j => (u.dropWaiter (attrCell (s.slotAt a).attr) j).endJob j (.fail 0x15 (keyDetail 0 1)))
      (fun u j => hwaiter u _ j) s ((s.cell (attrCell (s.slotAt a).attr)).waiters.filter (fun j => (s.job? j).any (fun y => decide (y.slot = some a)))))
    split
    · exact hend
    · exact hend

theorem destroySlot_slotAt (s : State) (a b : Nat) : (s.destroySlot a).slotAt b = if b = a then .empty else s.slotAt b := by
  unfold State.destroySlot
  dsimp only
  rw [emptySlot_slotAt]
  split
  · rfl
  · split <;> rfl

theorem destroySlot_work (s : State) (a : Nat) : WorkOnly s (s.destroySlot a) := by
  unfold State.destroySlot
  dsimp only
  refine .trans (.ite (.setCell s _ fun h => ?_) (.refl s)) (.emptySlot _ a)
  unfold Cell.release
  split
  · exact ⟨h.next, h.writing⟩
  · exact ⟨h.next, h.writing⟩

/-- A range of slots destroyed one after another. -/
theorem destroyed_slotAt (l : List Nat) (s : State) (b : Nat) : (s.each l State.destroySlot).slotAt b = if b ∈ l then .empty else s.slotAt b := by
  induction l generalizing s with
  | nil => simp [State.each]
  | cons a l ih =>
    have h : s.each (a :: l) State.destroySlot = (s.destroySlot a).each l State.destroySlot := rfl
    rw [h, ih, destroySlot_slotAt]
    by_cases hb : b ∈ l
    · simp [hb]
    · by_cases hba : b = a
      · simp [hba]
      · simp [hb, hba]

/-- What a list of pairs gives is the default or stands in it. -/
theorem tget_default_or_mem {α β : Type} [DecidableEq α] (d : β) (k : α) (l : List (α × β)) : tget d k l = d ∨ (k, tget d k l) ∈ l := by
  induction l with
  | nil => exact .inl rfl
  | cons e l ih =>
    rw [tget]
    split
    · next h => exact .inr (by simp [← h])
    · exact ih.imp_right (List.mem_cons_of_mem _)

theorem Slot.filled_empty : Slot.empty.filled = false := by decide

/-- A slot that is filled stands in the range that holds it. -/
theorem mem_filledIn {s : State} {first count a : Nat} (hfilled : (s.slotAt a).filled = true) (hlo : first ≤ a) (hhi : a < first + count) :
    a ∈ s.filledIn first count := by
  have hmem : (a, s.slotAt a) ∈ s.slots := by
    refine (tget_default_or_mem Slot.empty a s.slots).resolve_left fun h => ?_
    have hempty : s.slotAt a = Slot.empty := h
    rw [hempty, Slot.filled_empty] at hfilled
    cases hfilled
  unfold State.filledIn
  rw [List.mem_mergeSort, List.mem_map]
  exact ⟨(a, s.slotAt a), by simp [hmem, hfilled, hlo, hhi], rfl⟩

theorem range_of_filledIn {s : State} {first count a : Nat} (h : a ∈ s.filledIn first count) : first ≤ a ∧ a < first + count := by
  unfold State.filledIn at h
  rw [List.mem_mergeSort, List.mem_map] at h
  obtain ⟨e, he, rfl⟩ := h
  simp only [List.mem_filter, Bool.and_eq_true, decide_eq_true_eq] at he
  exact ⟨he.2.1.2, he.2.2⟩

/-! ### O43 -/

theorem mbxTaken_queue (s : State) (ch : Nat) : ch ∉ (s.mbxTaken ch).mbx.queue := by simp [State.mbxTaken]

theorem WorkOnly.mbx {s t : State} (h : WorkOnly s t) : t.mbx = s.mbx := (congrArg State.mbx h.rest :)

/-- A command that has changed something beside the mailbox answers. -/
theorem answered_of_mbx {s u : State} {ch : Nat} (h : u.mbx = (s.mbxTaken ch).mbx) (detail : Nat) (rsp : Bytes) :
    (u.mbxDone ch 0 detail rsp).Answered ch 0 detail rsp := mbxDone_answered (.inl (h ▸ mbxTaken_queue s ch)) 0 detail rsp

/-- A command that the SC has taken and turns away. -/
theorem taken_answered (s : State) {ch result : Nat} (hr : result < 256) (detail : Nat) (rsp : Bytes) :
    ((s.mbxTaken ch).mbxDone ch result detail rsp).Answered ch result detail rsp ∧ KeepsStores s ((s.mbxTaken ch).mbxDone ch result detail rsp) := by
  have h := mbxDone_answered (mbxTaken_noUnknown s ch) result detail rsp
  rw [Nat.mod_eq_of_lt hr] at h
  exact ⟨h, (mbxTaken_keeps s ch).trans (mbxDone_keeps _ _ _ _ _)⟩

theorem mbxDone_slotAt (s : State) (ch result detail : Nat) (rsp : Bytes) (a : Nat) : (s.mbxDone ch result detail rsp).slotAt a = s.slotAt a :=
  congrArg (tget _ a) (mbxDone_keeps s ch result detail rsp).slots

theorem mbxPut_served {s : State} {ch : Nat} {r : Bytes} (h : s.Serves .mbxPut ch r) (halign : leAt r 0 4 % 8 = 0) (hoff : leAt r 0 4 < stagingSize)
    (hzero : leAt r 4 4 = 0) (hfit : leAt r 0 4 + (r.length - 8) ≤ stagingSize) :
    ∃ t, exec .mbxPut s = .next t ∧ t.Answered ch 0 0 [] ∧ t.sram = Memory.write (leAt r 0 4) (r.drop 8) s.sram ∧ t.slots = s.slots := by
  have hmbx : ((s.mbxTaken ch).stage (leAt r 0 4) (r.drop 8)).mbx = (s.mbxTaken ch).mbx := rfl
  refine ⟨_, h.run_of (t := ((s.mbxTaken ch).stage (leAt r 0 4) (r.drop 8)).mbxDone ch 0 0 []) ?_, answered_of_mbx hmbx 0 [], ?_, ?_⟩
  · refine congrArg some ?_
    rw [State.putStaging, if_neg (by omega)]
  · exact (mbxDone_keeps _ _ _ _ _).sram
  · exact (mbxDone_keeps _ _ _ _ _).slots

/-- The staging buffer zeroed is the scratch memory alone. -/
theorem zeroStaged_rest (s : State) (addr n : Nat) : ({ s.zeroStaged addr n with sram := s.sram } : State) = s := by
  unfold State.zeroStaged
  split <;> rfl

theorem keyWrite_refused {s : State} {ch why : Nat} {r bs : Bytes} {d : DmaResult} (hok : keyWriteOk r = true)
    (hempty : (s.slotAt (leAt r 0 4)).filled = false)
    (hbs : (if leAt r 16 8 = 0 then some (r.drop 24) else s.requestData (leAt r 16 8) (leAt r 12 4) d) = some bs)
    (hclear : clearFail (leAt r 4 1) (leAt r 5 1) bs = some why) :
    State.keyWrite d s ch r = (s.zeroStaged (leAt r 16 8) (leAt r 12 4)).mbxDone ch 0x36 (1 + 256 * why) [] := by
  simp only [State.keyWrite, hok, hempty, hbs, hclear, Bool.not_true, Bool.false_eq_true, if_false]

theorem keyWrite_taken {s : State} {ch : Nat} {r bs : Bytes} {d : DmaResult} (hok : keyWriteOk r = true)
    (hempty : (s.slotAt (leAt r 0 4)).filled = false)
    (hbs : (if leAt r 16 8 = 0 then some (r.drop 24) else s.requestData (leAt r 16 8) (leAt r 12 4) d) = some bs)
    (hclear : clearFail (leAt r 4 1) (leAt r 5 1) bs = none) :
    State.keyWrite d s ch r = ((s.zeroStaged (leAt r 16 8) (leAt r 12 4)).putSlot (leAt r 0 4) (matOfClear (leAt r 4 1) bs)
          ((s.zeroStaged (leAt r 16 8) (leAt r 12 4)).newAttr (leAt r 4 1) (leAt r 5 1) (leAt r 8 2) (leAt r 6 2) false false
            (inExtent (leAt r 4 1) (matOfClear (leAt r 4 1) bs).length) 0)
          (if leAt r 4 1 = 0x0A then leAt (matOfClear (leAt r 4 1) bs) 0 4 else 0)).mbxDone ch 0 0 [] := by
  simp only [State.keyWrite, hok, hempty, hbs, hclear, Bool.not_true, Bool.false_eq_true, if_false]

theorem leAt_one_lt (r : Bytes) (i : Nat) : leAt r i 1 < 256 := by simpa [slice, leAt] using leNat_lt (slice r i 1)

theorem mbxDone_ddr (s : State) (ch result detail : Nat) (rsp : Bytes) : (s.mbxDone ch result detail rsp).ddr = s.ddr :=
  (congrArg State.ddr (mbxDone_only s ch result detail rsp).2 :)

theorem keyWrite_served {s : State} {ch : Nat} {r bs : Bytes} {d : DmaResult} (h : s.Serves (.keyWrite d) ch r) (hok : keyWriteOk r = true)
    (hempty : (s.slotAt (leAt r 0 4)).filled = false)
    (hbs : (if leAt r 16 8 = 0 then some (r.drop 24) else s.requestData (leAt r 16 8) (leAt r 12 4) d) = some bs) :
    (clearFail (leAt r 4 1) (leAt r 5 1) bs = none →
      ∃ t, exec (.keyWrite d) s = .next t ∧ t.Answered ch 0 0 [] ∧
        t.Holds s (leAt r 0 4) (leAt r 4 1) (matOfClear (leAt r 4 1) bs) ∧
        (t.slotAt (leAt r 0 4)).attr = s.newAttr (leAt r 4 1) (leAt r 5 1) (leAt r 8 2) (leAt r 6 2) false false
          (inExtent (leAt r 4 1) (matOfClear (leAt r 4 1) bs).length) 0 ∧
        (t.slotAt (leAt r 0 4)).inv = ~~~(t.slotAt (leAt r 0 4)).attr ∧ ∀ a, a ≠ leAt r 0 4 → t.slotAt a = s.slotAt a) ∧
    (∀ why, clearFail (leAt r 4 1) (leAt r 5 1) bs = some why →
      ∃ t, exec (.keyWrite d) s = .next t ∧ t.Answered ch 0x36 (1 + 256 * why) [] ∧ t.slots = s.slots) := by
  have hempty' := (congrArg Slot.filled (mbxTaken_slotAt s ch (leAt r 0 4))).trans hempty
  have hfail := fun why => keyWrite_refused (s := s.mbxTaken ch) (ch := ch) (why := why) hok hempty' hbs
  have heq := keyWrite_taken (s := s.mbxTaken ch) (ch := ch) hok hempty' hbs
  generalize hu : (s.mbxTaken ch).zeroStaged (leAt r 16 8) (leAt r 12 4) = u at heq hfail
  have hrest : ({ u with sram := s.sram } : State) = s.mbxTaken ch := hu ▸ zeroStaged_rest _ _ _
  have hmbx : u.mbx = (s.mbxTaken ch).mbx := (congrArg State.mbx hrest :)
  have hrd (r : Reg) (hr : r.ofMailbox = false) : u.rd r = s.rd r :=
    ((congrArg (fun v : State => v.rd r) hrest :) : u.rd r = (s.mbxTaken ch).rd r).trans ((mbxTaken_only s ch).1 r hr)
  have hslotAt (a : Nat) : u.slotAt a = s.slotAt a :=
    ((congrArg (fun v : State => v.slotAt a) hrest :) : u.slotAt a = (s.mbxTaken ch).slotAt a).trans (mbxTaken_slotAt s ch a)
  have hboot : u.boot = s.boot := (congrArg State.boot hrest :)
  have hctr : u.freeCtr = s.freeCtr := (congrArg State.freeCtr hrest :)
  have hddr : u.ddr = s.ddr := (congrArg State.ddr hrest :)
  have hslots : u.slots = s.slots := (congrArg State.slots hrest :)
  have hready : u.ddrReady = s.ddrReady := by
    rw [State.ddrReady, State.bit, State.bit, hrd _ rfl]
    rfl
  have haddr : u.extentAddr (leAt r 0 4) = s.extentAddr (leAt r 0 4) := by
    rw [State.extentAddr, State.fld, hrd _ rfl]
    rfl
  have hattr (c set owner a : Nat) (gen stateful extent : Bool) (cell : Nat) :
      u.newAttr c set owner a gen stateful extent cell = s.newAttr c set owner a gen stateful extent cell := by
    rw [State.newAttr, State.testRoot, State.bit, hrd _ rfl]
    rfl
  rw [hattr] at heq
  refine ⟨fun hclear => ?_, fun why hclear => ?_⟩
  · obtain ⟨hform, hclass⟩ := newAttr_fields s (leAt r 4 1) (leAt r 5 1) (leAt r 8 2) (leAt r 6 2) false false
      (inExtent (leAt r 4 1) (matOfClear (leAt r 4 1) bs).length) 0
    rw [Nat.mod_eq_of_lt (leAt_one_lt r 4)] at hclass
    obtain ⟨hholds, hattr, hinv, hother⟩ := putSlot_holds u (a := leAt r 0 4) hform hclass rfl
    have hput := WorkOnly.putSlot u (leAt r 0 4) (matOfClear (leAt r 4 1) bs) (s.newAttr (leAt r 4 1) (leAt r 5 1) (leAt r 8 2) (leAt r 6 2) false false
      (inExtent (leAt r 4 1) (matOfClear (leAt r 4 1) bs).length) 0) (if leAt r 4 1 = 0x0A then leAt (matOfClear (leAt r 4 1) bs) 0 4 else 0)
    refine ⟨_, h.run_of (congrArg some (heq hclear)), answered_of_mbx (hput.mbx.trans hmbx) 0 [], ?_, ?_, ?_, fun a ha => ?_⟩
    · exact hholds.congr (mbxDone_keeps _ ch 0 0 []).slots (mbxDone_ddr _ ch 0 0 []) hboot.symm hctr.symm hready.symm haddr.symm hddr.symm
    · rw [mbxDone_slotAt, hattr]
    · rw [mbxDone_slotAt, hattr, hinv]
    · rw [mbxDone_slotAt, hother a ha, hslotAt]
  · refine ⟨_, h.run_of (congrArg some (hfail why hclear)), mbxDone_answered (s := u) (.inl (hmbx ▸ mbxTaken_queue s ch)) 0x36 _ [], ?_⟩
    exact (mbxDone_keeps u ch 0x36 _ []).slots.trans hslots

theorem keySetAttr_served {s : State} {ch : Nat} {r : Bytes} (h : s.Serves .keySetAttr ch r) (hslot : leAt r 0 4 < 131072) (hclear : leAt r 4 1 < 64)
    (hnonexp : leAt r 5 1 < 2) (hzero : leAt r 6 2 = 0) (howner : leAt r 8 2 = 0xFFFF ∨ ownerOk (leAt r 8 2) = true)
    (husable : s.usable (leAt r 0 4) = true) (hseal : s.sealedAttr (s.slotAt (leAt r 0 4)).attr = false) :
    ∃ t, exec .keySetAttr s = .next t ∧ t.Answered ch 0 0 [] ∧
      (t.slotAt (leAt r 0 4)).attr = narrowed (s.slotAt (leAt r 0 4)).attr (leAt r 4 1) (leAt r 5 1 == 1) (leAt r 8 2) ∧
      (t.slotAt (leAt r 0 4)).mat = (s.slotAt (leAt r 0 4)).mat ∧ (t.slotAt (leAt r 0 4)).ext = (s.slotAt (leAt r 0 4)).ext ∧
      ∀ a, a ≠ leAt r 0 4 → t.slotAt a = s.slotAt a := by
  have heq : (s.mbxTaken ch).keySetAttr ch r = ((s.mbxTaken ch).putAttr (leAt r 0 4)
      (narrowed (s.slotAt (leAt r 0 4)).attr (leAt r 4 1) (leAt r 5 1 == 1) (leAt r 8 2))).mbxDone ch 0 0 [] := by
    have hbad : ¬ (131072 ≤ leAt r 0 4 ∨ 64 ≤ leAt r 4 1 ∨ 2 ≤ leAt r 5 1 ∨ leAt r 6 2 ≠ 0 ∨ (leAt r 8 2 ≠ 0xFFFF ∧ !ownerOk (leAt r 8 2))) := by
      rcases howner with ho | ho <;> simp [ho] <;> omega
    rw [State.keySetAttr, if_neg hbad, withKey_of_usable (mbxTaken_keyRefused husable hseal ch), mbxTaken_slotAt]
  have hslots := fun b => putAttr_slotAt (s.mbxTaken ch) (leAt r 0 4) b
    (narrowed (s.slotAt (leAt r 0 4)).attr (leAt r 4 1) (leAt r 5 1 == 1) (leAt r 8 2))
  have hmbx : ((s.mbxTaken ch).putAttr (leAt r 0 4)
      (narrowed (s.slotAt (leAt r 0 4)).attr (leAt r 4 1) (leAt r 5 1 == 1) (leAt r 8 2))).mbx = (s.mbxTaken ch).mbx := rfl
  have hself := hslots (leAt r 0 4)
  rw [if_pos rfl, mbxTaken_slotAt] at hself
  refine ⟨_, h.run_of (congrArg some heq), answered_of_mbx hmbx 0 [], ?_, ?_, ?_, fun a ha => ?_⟩
  · rw [mbxDone_slotAt, hself]
  · rw [mbxDone_slotAt, hself]
  · rw [mbxDone_slotAt, hself]
  · rw [mbxDone_slotAt, hslots, if_neg ha.symm, mbxTaken_slotAt]

theorem keyDestroy_served {s : State} {ch : Nat} {r : Bytes} (h : s.Serves .keyDestroy ch r) (hcount : leAt r 4 4 ≠ 0)
    (hfit : leAt r 0 4 + leAt r 4 4 ≤ 131072) :
    ∃ t, exec .keyDestroy s = .next t ∧ t.Answered ch 0 (s.filledIn (leAt r 0 4) (leAt r 4 4)).length [] ∧
      ∀ a, (leAt r 0 4 ≤ a ∧ a < leAt r 0 4 + leAt r 4 4 → (t.slotAt a).filled = false) ∧
        (a < leAt r 0 4 ∨ leAt r 0 4 + leAt r 4 4 ≤ a → t.slotAt a = s.slotAt a) := by
  have hl : (s.mbxTaken ch).filledIn (leAt r 0 4) (leAt r 4 4) = s.filledIn (leAt r 0 4) (leAt r 4 4) := by
    unfold State.filledIn
    rw [(mbxTaken_keeps s ch).slots]
  have heq : (s.mbxTaken ch).keyDestroy ch r = ((s.mbxTaken ch).each (s.filledIn (leAt r 0 4) (leAt r 4 4)) State.destroySlot).mbxDone ch 0
      (s.filledIn (leAt r 0 4) (leAt r 4 4)).length [] := by
    rw [State.keyDestroy]
    dsimp only
    rw [if_neg (by omega), hl]
  have hwork : WorkOnly (s.mbxTaken ch) ((s.mbxTaken ch).each (s.filledIn (leAt r 0 4) (leAt r 4 4)) State.destroySlot) :=
    .each (fun u a => destroySlot_work u a) _ _
  have hslots := destroyed_slotAt (s.filledIn (leAt r 0 4) (leAt r 4 4)) (s.mbxTaken ch)
  refine ⟨_, h.run_of (congrArg some heq), answered_of_mbx hwork.mbx _ [], fun a => ⟨fun ⟨hlo, hhi⟩ => ?_, fun hout => ?_⟩⟩
  · rw [mbxDone_slotAt, hslots]
    split
    · exact Slot.filled_empty
    · next hmem =>
      rw [mbxTaken_slotAt]
      by_contra hfilled
      exact hmem (mem_filledIn (by simpa using hfilled) hlo hhi)
  · rw [mbxDone_slotAt, hslots, if_neg fun hmem => by
      obtain ⟨hlo, hhi⟩ := range_of_filledIn hmem
      omega, mbxTaken_slotAt]

theorem keyGetPublic_served {s : State} {ch : Nat} {r mat : Bytes} (h : s.Serves .keyGetPublic ch r) (hslot : leAt r 0 4 < 131072)
    (husable : s.usable (leAt r 0 4) = true) (hseal : s.sealedAttr (s.slotAt (leAt r 0 4)).attr = false)
    (hclass : attrClass (s.slotAt (leAt r 0 4)).attr ≠ 0x0D) (hmat : s.material (leAt r 0 4) = some mat) :
    ∃ t, exec .keyGetPublic s = .next t ∧ KeepsStores s t ∧ t.Answered ch 0 0 (pubOf (s.slotAt (leAt r 0 4)).attr mat) := by
  have hmet : (s.mbxTaken ch).keyMet (leAt r 0 4) .none = (s.mbxTaken ch, some mat) := keyMet_none ((mbxTaken_material s ch _).trans hmat)
  have heq : State.keyGetPublic .none (s.mbxTaken ch) ch r = (s.mbxTaken ch).mbxDone ch 0 0 (pubOf (s.slotAt (leAt r 0 4)).attr mat) := by
    rw [State.keyGetPublic, if_neg (by omega), withKey_of_usable (mbxTaken_keyRefused husable hseal ch), mbxTaken_slotAt, if_neg hclass]
    simp only [State.withMaterial, hmet, mbxTaken_slotAt]
  obtain ⟨hanswered, hkeeps⟩ := taken_answered s (ch := ch) (result := 0) (by decide) 0 (pubOf (s.slotAt (leAt r 0 4)).attr mat)
  exact ⟨_, h.run_of (congrArg some heq), hkeeps, hanswered⟩

theorem keyAttest_served {s u : State} {ch : Nat} {r x y mat : Bytes} (hmat : s.material (leAt r 0 4) = some mat) (h : s.Serves .keyAttest ch r)
    (hslot : leAt r 0 4 < 131072) (hzero : leAt r 4 4 = 0) (husable : s.usable (leAt r 0 4) = true)
    (hseal : s.sealedAttr (s.slotAt (leAt r 0 4)).attr = false) (hu : (s.mbxTaken ch).signDraws = some (x, y, u)) :
    ∃ t, exec .keyAttest s = .next t ∧ KeepsStores s t ∧ t.Answered ch 0 0
      (s.originStatement (slice r 8 32) (s.slotAt (leAt r 0 4)).attr (leAt r 0 4) mat x y) := by
  have hmet : (s.mbxTaken ch).keyMet (leAt r 0 4) .none = (s.mbxTaken ch, some mat) := keyMet_none ((mbxTaken_material s ch _).trans hmat)
  have hslotAt : u.slotAt (leAt r 0 4) = s.slotAt (leAt r 0 4) := ((signDraws_serviced hu).slotAt _).trans (mbxTaken_slotAt s ch _)
  have heq : State.keyAttest .none (s.mbxTaken ch) ch r =
      some (u.mbxDone ch 0 0 (s.originStatement (slice r 8 32) (s.slotAt (leAt r 0 4)).attr (leAt r 0 4) mat x y)) := by
    rw [State.keyAttest]
    dsimp only
    rw [if_neg (by omega), mbxTaken_keyRefused husable hseal ch]
    simp only [hmet, hu, Option.map_some, hslotAt, (drawn_alike hu).originStatement]
  obtain ⟨hkeeps, hanswered⟩ := answered_after_draws hu (s.originStatement (slice r 8 32) (s.slotAt (leAt r 0 4)).attr (leAt r 0 4) mat x y)
  exact ⟨_, h.run_of heq, hkeeps, hanswered⟩

/-- A command that changes a slot waits for a journal record. -/
theorem mbxRunChange_waits {s : State} {row : MbxRow} (hjournal : 2048 ≤ s.journalUsed) (hrefused : s.mbxRefused row = false)
    (slots : State → Bytes → List Nat) (f : State → Nat → Bytes → State) : s.mbxRunChange row slots f = s := by
  rw [State.mbxRunChange, if_pos (by simp [hjournal, hrefused])]

theorem keyCommands_wait {s : State} {d : DmaResult} {x : MbxRow} (hjournal : 2048 ≤ s.journalUsed) (hdip : s.tamper.dip = none) :
    ∀ i ∈ [Instr.keyWrite d, .keySetAttr, .keyDestroy, .vaultLoad], mbxRow i = some x → s.mbxRefused x = false → exec i s = .next s := by
  intro i hi hrow hrefused
  simp only [List.mem_cons, List.not_mem_nil, or_false] at hi
  rcases hi with rfl | rfl | rfl | rfl <;> simp only [mbxRow, Option.some.injEq] at hrow <;> subst hrow
  · exact congrArg Host.Outcome.next (mbxRunChange_waits hjournal hrefused _ _)
  · exact congrArg Host.Outcome.next (mbxRunChange_waits hjournal hrefused _ _)
  · change execKeyDestroy s = _
    unfold execKeyDestroy
    dsimp only
    split
    · rw [if_neg (by simp [hdip])]
      exact congrArg Host.Outcome.next (mbxRunChange_waits hjournal hrefused _ _)
    · rfl
  · refine congrArg Host.Outcome.next ?_
    rw [hdip]
    exact mbxRunChange_waits hjournal hrefused _ _

/-- Settles O43: each command's effect, and the statements over what the draws leave alone. -/
theorem keyCommands : Obligations.KeyCommands := by
  unfold Obligations.KeyCommands
  refine ⟨⟨fun s ch r h halign hoff hzero hfit => mbxPut_served h halign hoff hzero hfit,
    fun s ch r bs d h hok hempty hbs => keyWrite_served h hok hempty hbs,
    fun s ch r h hslot hclear hnonexp hzero howner husable hseal => keySetAttr_served h hslot hclear hnonexp hzero howner husable hseal,
    fun s ch r h hcount hfit => keyDestroy_served h hcount hfit,
    fun s ch r mat h hslot husable hseal hclass hmat => keyGetPublic_served h hslot husable hseal hclass hmat,
    fun s d x hjournal hdip => keyCommands_wait hjournal hdip⟩,
    fun s u ch r x y mat hmat h hslot hzero husable hseal hu => keyAttest_served hmat h hslot hzero husable hseal hu,
    fun s u ch x y h hu => ?_, fun s u ch r x y h hu => ?_⟩
  · have heq : (s.mbxTaken ch).getIdentity ch [] = some (u.mbxDone ch 0 0 (s.identityRecord x y)) := by
      simp only [State.getIdentity, hu, Option.map_some, (drawn_alike hu).identityRecord]
    obtain ⟨hkeeps, hanswered⟩ := answered_after_draws hu (s.identityRecord x y)
    exact ⟨_, h.run_of heq, hkeeps, hanswered⟩
  · have heq : (s.mbxTaken ch).attestIdentity ch r = some (u.mbxDone ch 0 0 (s.measureStatement (slice r 0 32) x y)) := by
      simp only [State.attestIdentity, hu, Option.map_some, (drawn_alike hu).measureStatement]
    obtain ⟨hkeeps, hanswered⟩ := answered_after_draws hu (s.measureStatement (slice r 0 32) x y)
    exact ⟨_, h.run_of heq, hkeeps, hanswered⟩

end Sys2Proof.Machine
end

section
/-! PROOFS. O41 and O42: rig commands, flash commits and the live re-rig of one pool. -/

namespace Sys2Proof.Machine

/-! ### What the end of a command leaves of the mailbox's state -/

/-- A part of the mailbox's state that the end of a command does not name. -/
def EndsKeep {α : Type} (g : Mailbox → α) : Prop :=
  ∀ (m : Mailbox) (b : Option Nat) (p : Bool) (rsp : List (Nat × Bytes)) (l d : Nat) (q : List Nat),
    g { m with busy := b, pressed := p, rsp := rsp, lastRig := l, lastDetail := d, queue := q } = g m

theorem mbxEnd_part {α : Type} {g : Mailbox → α} (hg : EndsKeep g) (s : State) (ch result detail : Nat) (rsp : Bytes) :
    g (s.mbxEnd ch result detail rsp).mbx = g s.mbx := by
  rw [mbxEnd_mbx]
  exact hg s.mbx _ _ _ _ _ s.mbx.queue

theorem mbxSkip_part {α : Type} {g : Mailbox → α} (hg : EndsKeep g) (s : State) : g s.mbxSkip.mbx = g s.mbx := by
  unfold State.mbxSkip
  split
  · split
    · rfl
    · rw [mbxEnd_part hg]
      exact hg s.mbx s.mbx.busy s.mbx.pressed s.mbx.rsp s.mbx.lastRig s.mbx.lastDetail _
  · rfl

theorem mbxDone_part {α : Type} {g : Mailbox → α} (hg : EndsKeep g) (s : State) (ch result detail : Nat) (rsp : Bytes) :
    g (s.mbxDone ch result detail rsp).mbx = g s.mbx :=
  (mbxSkip_part hg _).trans ((mbxSkip_part hg _).trans (mbxEnd_part hg s ch result detail rsp))

theorem mbxDone_staged (s : State) (ch result detail : Nat) (rsp : Bytes) : (s.mbxDone ch result detail rsp).mbx.staged = s.mbx.staged :=
  mbxDone_part (g := Mailbox.staged) (fun _ _ _ _ _ _ _ => rfl) s ch result detail rsp

theorem mbxDone_flash (s : State) (ch result detail : Nat) (rsp : Bytes) : (s.mbxDone ch result detail rsp).mbx.flash = s.mbx.flash :=
  mbxDone_part (g := Mailbox.flash) (fun _ _ _ _ _ _ _ => rfl) s ch result detail rsp

theorem mbxDone_copyAt (s : State) (ch result detail : Nat) (rsp : Bytes) (k : Nat) : (s.mbxDone ch result detail rsp).copyAt k = s.copyAt k :=
  congrArg (tget [] k) (mbxDone_keeps s ch result detail rsp).flash

/-! ### O41 -/

theorem taken_stagedImage (s : State) (ch : Nat) : (s.mbxTaken ch).stagedImage = s.stagedImage := rfl

theorem taken_rotatable (s : State) (ch : Nat) : (s.mbxTaken ch).rotatable = s.rotatable := rfl

theorem taken_versionOk (s : State) (ch v : Nat) : (s.mbxTaken ch).versionOk v = s.versionOk v := rfl

theorem rigStage_served {s : State} {ch : Nat} {r bs : Bytes} {d : DmaResult} (h : s.Serves (.rigStage d) ch r) (hpos : 0 < leAt r 8 4)
    (hfit : leAt r 8 4 ≤ stagingSize) (haddr : ch = 1 → leAt r 0 8 = stagingAddr) (hrig : s.reRig = none)
    (hbs : s.requestData (leAt r 0 8) (leAt r 8 4) d = some bs) :
    ∃ t, exec (.rigStage d) s = .next t ∧ t.Answered ch 0 0 [] ∧ t.mbx.staged = leAt r 8 4 ∧
      t.sram = (if leAt r 0 8 = stagingAddr then s.sram else Memory.write 0 bs s.sram) ∧ t.rig = s.rig ∧ t.flash = s.flash := by
  have hfree : ¬ ((s.mbxTaken ch).reRig.isSome = true ∨ (s.mbxTaken ch).mbx.busy ≠ some ch) := by
    rintro (h1 | h1)
    · have : (s.mbxTaken ch).reRig = none := hrig
      simp [this] at h1
    · exact h1 rfl
  have hbs' : (s.mbxTaken ch).requestData (leAt r 0 8) (leAt r 8 4) d = some bs := hbs
  obtain ⟨u, hu, hsram, hmbx, hrest⟩ : ∃ u : State, u = (if leAt r 0 8 = stagingAddr then s.mbxTaken ch else (s.mbxTaken ch).stage 0 bs) ∧
      u.sram = (if leAt r 0 8 = stagingAddr then s.sram else Memory.write 0 bs s.sram) ∧ u.mbx = (s.mbxTaken ch).mbx ∧
      u.rig = s.rig ∧ u.flash = s.flash := by
    refine ⟨_, rfl, ?_⟩
    split
    · exact ⟨rfl, rfl, rfl, rfl⟩
    · exact ⟨rfl, rfl, rfl, rfl⟩
  have heq : State.rigStage d (s.mbxTaken ch) ch r = ({ u with mbx := { u.mbx with staged := leAt r 8 4 } } : State).mbxDone ch 0 0 [] := by
    rw [State.rigStage]
    dsimp only
    rw [if_neg hfree, if_neg (by rintro (h1 | h1 | ⟨h1, h2⟩); exacts [by omega, by omega, h2 (haddr h1)]), hbs', hu]
  generalize hv : ({ u with mbx := { u.mbx with staged := leAt r 8 4 } } : State) = v at heq
  have hkeeps := mbxDone_keeps v ch 0 0 []
  have hqueue : v.mbx.queue = (s.mbxTaken ch).mbx.queue := by
    rw [← hv, ← hmbx]
  refine ⟨_, h.run_of (congrArg some heq), mbxDone_answered (.inl (hqueue ▸ mbxTaken_queue s ch)) 0 0 [], ?_, ?_, ?_, ?_⟩
  · rw [mbxDone_staged, ← hv]
  · rw [hkeeps.sram, ← hsram, ← hv]
  · rw [hkeeps.rig, ← hrest.1, ← hv]
  · rw [hkeeps.flash, ← hrest.2, ← hv]

/-- No other rig command is in progress where the SC has taken this one. -/
theorem taken_rigFree {s : State} {ch : Nat} (hrig : s.reRig = none) : ¬ ((s.mbxTaken ch).reRig.isSome = true ∨ (s.mbxTaken ch).mbx.busy ≠ some ch) := by
  rintro (h1 | h1)
  · have hnone : (s.mbxTaken ch).reRig = none := hrig
    simp [hnone] at h1
  · exact h1 rfl

theorem taken_done (s : State) (ch result detail : Nat) :
    ((s.mbxTaken ch).mbxDone ch result detail []).Answered ch (result % 256) detail [] ∧ KeepsStores s ((s.mbxTaken ch).mbxDone ch result detail []) :=
  ⟨mbxDone_answered (mbxTaken_noUnknown s ch) result detail [], (mbxTaken_keeps s ch).trans (mbxDone_keeps _ _ _ _ _)⟩

/-- A flash write that begins. -/
theorem startFlash_spec (u : State) (ch copy : Nat) (i : Bytes) (why : FlashFor) : (u.startFlash ch copy i why).mbx.flash = some ⟨ch, copy, i, why⟩ ∧
    (u.startFlash ch copy i why).copyAt copy = [] ∧ (∀ k, k ≠ copy → (u.startFlash ch copy i why).copyAt k = u.copyAt k) ∧
    (u.startFlash ch copy i why).mbxState ch = u.mbxState ch := by
  have hcopy (k : Nat) : (u.startFlash ch copy i why).copyAt k = if copy = k then [] else u.copyAt k := tget_tset [] [] k copy u.flash
  exact ⟨rfl, by rw [hcopy, if_pos rfl], fun k hk => by rw [hcopy, if_neg hk.symm], rfl⟩

theorem taken_mbxState (s : State) (ch : Nat) : (s.mbxTaken ch).mbxState ch = 2 := by
  refine (State.fld_setFld _ _ _ _ _ (by decide) (by decide)).trans ?_
  rfl

theorem waitPresence_keeps (s : State) (ch : Nat) : KeepsStores s (s.waitPresence ch) := store_keeps s (.mbxStatus ch) (fun v => setB v 2 true)

/-- Settles O41: each rig command's effect on the state in which the SC has taken it. -/
theorem rigCommands : Obligations.RigCommands := by
  unfold Obligations.RigCommands
  refine ⟨fun s ch r bs d h hpos hfit haddr hrig hbs => rigStage_served h hpos hfit haddr hrig hbs, fun s u ch h hrig hu => ?_,
    fun s u ch h hu hfree => ?_, fun s ch h hfree => ?_, fun s ch h => ?_⟩
  · subst hu
    have hrun := h.run_of (congrArg some (show State.rigCheckCmd (s.mbxTaken ch) ch [] = _ from if_neg (taken_rigFree hrig)))
    rw [taken_stagedImage] at hrun
    generalize (s.mbxTaken ch).rigCheck s.stagedImage = x at hrun ⊢
    cases x with
    | inl e => exact ⟨_, hrun, (taken_done s ch e.1 e.2).2, (taken_done s ch e.1 e.2).1⟩
    | inr r => exact ⟨_, hrun, (taken_done s ch 0 0).2, (taken_done s ch 0 0).1⟩
  · subst hu
    have hrun := h.run_of (congrArg some (show State.rigWrite (s.mbxTaken ch) ch [] = _ from if_neg (by simp [hfree])))
    rw [taken_stagedImage] at hrun
    generalize (s.mbxTaken ch).rigCheck s.stagedImage = x at hrun ⊢
    have hended (result detail : Nat) := (taken_done s ch result detail).2
    cases x with
    | inl e =>
      exact ⟨_, hrun, (hended _ _).rig, (hended _ _).slots, (hended _ _).otp, (taken_done s ch e.1 e.2).1, (hended _ _).flash⟩
    | inr r =>
      dsimp only at hrun ⊢
      by_cases hpartial : r.flags.testBit 0 = true
      · rw [if_pos hpartial] at hrun
        refine ⟨_, hrun, (hended _ _).rig, (hended _ _).slots, (hended _ _).otp, ?_⟩
        rw [if_pos hpartial]
        exact ⟨(taken_done s ch 0x20 0).1, (hended _ _).flash⟩
      rw [if_neg hpartial] at hrun
      by_cases hver : s.versionOk r.version = false
      · rw [if_pos (by rw [taken_versionOk, hver]; rfl)] at hrun
        refine ⟨_, hrun, (hended _ _).rig, (hended _ _).slots, (hended _ _).otp, ?_⟩
        rw [if_neg hpartial, if_pos hver]
        exact ⟨(taken_done s ch 0x22 0).1, (hended _ _).flash⟩
      · rw [if_neg (by rw [taken_versionOk]; simpa using hver)] at hrun
        obtain ⟨hflash, hcopy, hother, hstate⟩ := startFlash_spec (s.mbxTaken ch) ch (s.mbxTaken ch).rigTarget s.stagedImage .rigWrite
        refine ⟨_, hrun, rfl, rfl, rfl, ?_⟩
        rw [if_neg hpartial, if_neg hver]
        exact ⟨hflash, hcopy, hstate.trans (taken_mbxState s ch), hother⟩
  · have hrun := h.run_of (congrArg some (show State.rigRotate (s.mbxTaken ch) ch [] = _ from if_neg (by simp [hfree])))
    rw [taken_rotatable] at hrun
    by_cases hrot : s.rotatable = true
    · rw [if_neg (by simp [hrot])] at hrun
      refine ⟨_, hrun, (mbxTaken_keeps s ch).trans (waitPresence_keeps _ ch), ?_⟩
      rw [if_pos hrot]
      refine ⟨rfl, ?_, ?_⟩
      · exact (congrArg (getF · 1 0) (State.rd_store _ _ _ _)).trans (by
          rw [if_pos rfl, getF_setB _ _ _ _ _ (by decide) (.inr (by decide))]
          exact taken_mbxState s ch)
      · exact (State.bit_setBit _ _ _ _ _ (by decide)).trans (if_pos rfl)
    · rw [if_pos (by simpa using hrot)] at hrun
      refine ⟨_, hrun, (taken_done s ch 0x26 0).2, ?_⟩
      rw [if_neg hrot]
      exact (taken_done s ch 0x26 0).1
  · obtain ⟨hanswered, hkeeps⟩ := taken_answered s (ch := ch) (result := 0) (by decide) 0 (s.mbxTaken ch).rigInfoRsp
    exact ⟨_, h.run_of rfl, hanswered, hkeeps⟩

/-! ### O42: what a re-rig rewires -/

/-- From `s` to `t` a re-rig rewires: registers, tiles and cores change, and messages go. -/
structure Rewired (s t : State) : Prop where
  rest : ({ t with regs := s.regs, shadow := s.shadow, out := s.out, msixPend := s.msixPend, freeCtr := s.freeCtr, tiles := s.tiles
                   hcores := s.hcores, bcores := s.bcores, rng := s.rng } : State) = s
  fine : s.TilesFine → t.TilesFine

namespace Rewired
variable {s t u : State}

theorem refl (s : State) : Rewired s s := ⟨rfl, id⟩

theorem trans (h : Rewired s t) (h' : Rewired t u) : Rewired s u :=
  ⟨(congrArg (fun v : State => ({ v with regs := s.regs, shadow := s.shadow, out := s.out, msixPend := s.msixPend, freeCtr := s.freeCtr
                                         tiles := s.tiles, hcores := s.hcores, bcores := s.bcores, rng := s.rng } : State)) h'.rest).trans h.rest,
    h'.fine ∘ h.fine⟩

theorem of_units (h : UnitsOnly s t) : Rewired s t := ⟨h.rest, h.fine⟩
theorem store (s : State) (r : Reg) (f : DWord → DWord) : Rewired s (s.store r f) := ⟨rfl, id⟩
theorem wr (s : State) (r : Reg) (v : DWord) : Rewired s (s.wr r v) := ⟨rfl, id⟩
theorem setFld (s : State) (r : Reg) (hi lo x : Nat) : Rewired s (s.setFld r hi lo x) := ⟨rfl, id⟩
theorem setTile (s : State) (t : Nat) {f : Tile → Tile} (hf : (s.tile t).Fine → (f (s.tile t)).Fine) : Rewired s (s.setTile t f) :=
  of_units (.setTile s t hf)

theorem ite {c : Prop} [Decidable c] (h : Rewired s t) (h' : Rewired s u) : Rewired s (if c then t else u) := by
  split
  · exact h
  · exact h'

theorem ite_trans {c : Prop} [Decidable c] (h : Rewired s t) (h' : Rewired t u) : Rewired s (if c then u else t) := ite (h.trans h') h

theorem each {α : Type} {f : State → α → State} (hf : ∀ u a, Rewired u (f u a)) (s : State) (l : List α) : Rewired s (s.each l f) := by
  induction l generalizing s with
  | nil => exact refl s
  | cons a l ih => exact (hf s a).trans (ih (f s a))

theorem jobs (h : Rewired s t) : t.jobs = s.jobs := (congrArg State.jobs h.rest :)
theorem slots (h : Rewired s t) : t.slots = s.slots := (congrArg State.slots h.rest :)
theorem rig (h : Rewired s t) : t.rig = s.rig := (congrArg State.rig h.rest :)
theorem reRig (h : Rewired s t) : t.reRig = s.reRig := (congrArg State.reRig h.rest :)
theorem mbx (h : Rewired s t) : t.mbx = s.mbx := (congrArg State.mbx h.rest :)
theorem flash (h : Rewired s t) : t.flash = s.flash := (congrArg State.flash h.rest :)

theorem loadKernels (s : State) (t p : Nat) : Rewired s (s.loadKernels t p) := by
  unfold State.loadKernels
  split
  · exact refl s
  · exact (wr s _ _).trans (setTile _ t id)

theorem loadPool (s : State) (r : Rig) (p : RigPool) : Rewired s (s.loadPool r p) := wr s _ _

theorem leaveForRole (s : State) (new : Rig) (t : Nat) : Rewired s (s.leaveForRole new t) := by
  unfold State.leaveForRole
  dsimp only
  exact (of_units (.leaveShell s t _)).trans (setTile _ t fun _ => ⟨rfl, rfl⟩)

theorem buildShell (s : State) (p : Nat) (x : RigShell) : Rewired s (s.buildShell p x) := by
  have hone (u : State) (t : Nat) : Rewired u
      (let gated := u.tileState t == 5
       let s := (u.setFld (.fabTileStat t) 14 8 x.num).setTileState t (if gated then 5 else 1)
       (s.setTile t (fun y => { y with back := if gated then 1 else 0 })).loadKernels t p) :=
    (((setFld u _ _ _ _).trans (of_units (.setTileState _ t _))).trans (setTile _ t id)).trans (loadKernels _ t p)
  unfold State.buildShell
  refine ite (wr s _ _) ?_
  refine .trans ?_ (of_units (.restroke _ x.num))
  exact (wr s _ _).trans (each hone _ _)

theorem switchShells (s : State) (new : Rig) (p : Nat) : Rewired s (s.switchShells new p) := by
  unfold State.switchShells
  dsimp only
  refine .trans ?_ (each (fun u x => buildShell u p x) _ _)
  refine .trans ?_ (each (fun u x => loadPool u new x) _ _)
  exact (each (fun u t => leaveForRole u new t) s _).trans (each (fun u t => leaveForRole u new t) _ _)

theorem switchPart (s : State) (new : Rig) (p : Nat) : Rewired s (s.switchPart new p) := by
  refine each (fun u (x : RigPart) => ?_) s _
  dsimp only
  refine .trans ?_ (wr _ _ _)
  refine .trans ?_ (wr _ _ _)
  refine .trans ?_ (wr _ _ _)
  exact each (fun v k => of_units (.setHcore v k fun h => { h with state := .unused })) u _

theorem switchGroup (s : State) (new : Rig) (p : Nat) : Rewired s (s.switchGroup new p) := by
  refine each (fun u (x : RigGroup) => ?_) s _
  refine .trans (each (fun v c => ?_) u _) (wr _ _ _)
  exact ((of_units (.wipeCore v c)).trans (setFld _ (.bneCoreState c) 10 8 0)).trans (ite (of_units (.setBneState _ c 0)) (refl _))

theorem testJoiners (s : State) : Rewired s s.testJoiners :=
  each (fun u t => (of_units (.setTileState u t 3)).trans (setTile _ t fun _ => ⟨rfl, rfl⟩)) s _

theorem dropJoiners (s : State) : Rewired s s.dropJoiners := by
  unfold State.dropJoiners
  dsimp only
  refine .trans ?_ (each (fun u c => of_units (.setBneState u c 0)) _ _)
  refine .trans ?_ (each (fun u k => of_units (.setHcore u k fun h => { h with state := .unused })) _ _)
  exact each (fun u t => (of_units (.setTileState u t 0)).trans (setTile _ t id)) s _

end Rewired

/-! ### Steps 5 to 7 leave the re-rig's own record -/

theorem settleGate_reRig (s : State) (n : Nat) : (s.settleGate n).reRig = s.reRig := by
  have hdrop (u : State) : u.dropUncarried.reRig = u.reRig := (congrArg State.reRig (JobsOnly.dropUncarried u).rest :)
  have hshell (u : State) (sh : Nat) : (u.repairShell sh false).reRig = u.reRig := (congrArg State.reRig (UnitsOnly.repairShell u sh false).rest :)
  have hdrain (u : State) : (u.drainIsland n).reRig = u.reRig :=
    (hdrop _).trans (State.each_keeps State.reRig (fun u sh => u.setShellState sh 4) (fun _ _ => rfl) _ _)
  unfold State.settleGate
  dsimp only
  split
  · unfold State.gateIsland
    split
    · split
      · rfl
      · exact hdrain _
    · rfl
    · rfl
  · unfold State.ungateIsland
    split
    · exact State.each_keeps State.reRig (fun u sh => u.repairShell sh false) (fun u sh => hshell u sh) _ _
    · rfl
    · rfl

theorem applyGates_reRig (s : State) : s.applyGates.reRig = s.reRig := by
  refine State.each_keeps State.reRig _ (fun u n => ?_) s s.gateWait
  split
  · rfl
  · exact settleGate_reRig u n

theorem Serviced.applyGates (s : State) : Serviced s s.applyGates := each (fun u n => ite (refl u) (settleGate u n)) s s.gateWait

/-! ### Flash commits -/

/-- A flash write that commits, before its command ends. -/
def State.flashDone (s : State) : State := { s with mbx := { s.mbx with flash := none } }

theorem flashDone_noUnknown {s : State} {ch : Nat} (hcode : s.mbxCode ch ∈ mbxCodes) : s.flashDone.NoUnknown ch := .inr hcode

theorem copyAt_setCopy (s : State) (k k' : Nat) (bs : Bytes) : (s.setCopy k bs).copyAt k' = if k = k' then bs else s.copyAt k' :=
  tget_tset [] bs k' k s.flash

theorem exec_flashWriteCommit {s : State} {j : FlashJob} (hj : s.mbx.flash = some j) (hdip : s.tamper.dip = none)
    (hwhy : ∀ p, j.why ≠ .rigPartial p) (ok : Bool) : exec (.flashWriteCommit ok) s = .next (s.flashCommit j ok) := by
  change execFlashWriteCommit ok s = _
  simp only [execFlashWriteCommit, hj, hdip, Option.isSome_none, Bool.false_eq_true, if_false]

theorem flashCommit_failed (s : State) (j : FlashJob) : s.flashCommit j false = s.flashDone.mbxDone j.ch 0x24 0 [] := by
  simp only [State.flashCommit, Bool.not_false, if_true]
  rfl

theorem flashCommit_rigWrite (s : State) {j : FlashJob} (h : j.why = .rigWrite) :
    s.flashCommit j true = (s.flashDone.setCopy j.copy j.image).mbxDone j.ch 0 0 [] := by
  simp only [State.flashCommit, h, Bool.not_true, Bool.false_eq_true, if_false]
  rfl

/-- The OTP after a rotation programs position `pos` with a digest. -/
def Otp.rotated (o : Otp) (pos : Nat) (dig : Bytes) : Otp :=
  { o with rigPos := o.rigPos.mapIdx (fun i x => if i = pos then (dig, checkWord dig) else x) }

theorem rigPos_rotated (o : Otp) {pos : Nat} (dig : Bytes) (h : pos < o.rigPos.length) :
    ((o.rotated pos dig).rigPos[pos]?).map (·.1) = some dig ∧ ∀ k, k ≠ pos → (o.rotated pos dig).rigPos[k]? = o.rigPos[k]? := by
  refine ⟨?_, fun k hk => ?_⟩
  · simp [Otp.rotated, h]
  · simp only [Otp.rotated, List.getElem?_mapIdx, hk, if_false, Option.map_id']

/-- The digest that a rotation by an image programs. -/
def rotationDigest (i : Bytes) : Bytes := authDigest (slice i (80 + rigBody i) 1952) (slice i (80 + rigBody i + 1952) 97)

theorem flashCommit_rotate (s : State) {j : FlashJob} {pos : Nat} (h : j.why = .rotate pos) :
    s.flashCommit j true =
      ({ s.flashDone.setCopy j.copy j.image with otp := s.otp.rotated pos (rotationDigest j.image) } : State).mbxDone j.ch 0 0 [] := by
  simp only [State.flashCommit, h, Bool.not_true, Bool.false_eq_true, if_false]
  rfl

theorem flashCommit_rigWrite_spec {s : State} {j : FlashJob} (hcode : s.mbxCode j.ch ∈ mbxCodes) (hwhy : j.why = .rigWrite) (ok : Bool) :
    (s.flashCommit j ok).mbx.flash = none ∧ (s.flashCommit j ok).copyAt j.copy = (if ok then j.image else s.copyAt j.copy) ∧
      (s.flashCommit j ok).Answered j.ch (if ok then 0 else 0x24) 0 [] ∧ (s.flashCommit j ok).rig = s.rig ∧
      (s.flashCommit j ok).slots = s.slots ∧ (s.flashCommit j ok).otp = s.otp := by
  cases ok with
  | false =>
    have hkeeps := mbxDone_keeps s.flashDone j.ch 0x24 0 []
    rw [flashCommit_failed, mbxDone_flash, mbxDone_copyAt]
    exact ⟨rfl, rfl, mbxDone_answered (s := s.flashDone) (flashDone_noUnknown hcode) 0x24 0 [], hkeeps.rig, hkeeps.slots, hkeeps.otp⟩
  | true =>
    have hkeeps := mbxDone_keeps (s.flashDone.setCopy j.copy j.image) j.ch 0 0 []
    have hno : (s.flashDone.setCopy j.copy j.image).NoUnknown j.ch := .inr hcode
    rw [flashCommit_rigWrite s hwhy, mbxDone_flash, mbxDone_copyAt, copyAt_setCopy, if_pos rfl]
    exact ⟨rfl, rfl, mbxDone_answered hno 0 0 [], hkeeps.rig, hkeeps.slots, hkeeps.otp⟩

theorem flashCommit_rotate_spec {s : State} {j : FlashJob} {pos : Nat} (hcode : s.mbxCode j.ch ∈ mbxCodes) (hwhy : j.why = .rotate pos)
    (hpos : pos < s.otp.rigPos.length) :
    (s.flashCommit j true).copyAt j.copy = j.image ∧ (s.flashCommit j true).Answered j.ch 0 0 [] ∧
      ((s.flashCommit j true).otp.rigPos[pos]?).map (·.1) = some (rotationDigest j.image) ∧
      ∀ k, k ≠ pos → (s.flashCommit j true).otp.rigPos[k]? = s.otp.rigPos[k]? := by
  obtain ⟨hset, hother⟩ := rigPos_rotated s.otp (rotationDigest j.image) hpos
  rw [flashCommit_rotate s hwhy]
  generalize s.otp.rotated pos _ = o at hset hother
  generalize hu : ({ s.flashDone.setCopy j.copy j.image with otp := o } : State) = u
  have hkeeps := mbxDone_keeps u j.ch 0 0 []
  have hotp : u.otp = o := by rw [← hu]
  have hno : u.NoUnknown j.ch := .inr (by rw [← hu]; exact hcode)
  refine ⟨?_, mbxDone_answered hno 0 0 [], ?_, fun k hk => ?_⟩
  · rw [mbxDone_copyAt, ← hu]
    exact (copyAt_setCopy s.flashDone j.copy j.copy j.image).trans (if_pos rfl)
  · rw [hkeeps.otp, hotp, hset]
  · rw [hkeeps.otp, hotp, hother k hk]

/-! ### RIG_PARTIAL -/

theorem tileState_congr {s t : State} {k : Nat} (h : t.rd (.fabTileStat k) = s.rd (.fabTileStat k)) : t.tileState k = s.tileState k := congrArg (getF · 2 0) h

theorem tileState_setTileState (s : State) (t k : Nat) {x : Nat} (hx : x < 8) : (s.setTileState t x).tileState k = if t = k then x else s.tileState k := by
  have hrd := State.rd_store s (.fabTileStat t) (.fabTileStat k) (fun v => setF v 2 0 x)
  refine (congrArg (getF · 2 0) hrd).trans ?_
  by_cases h : t = k
  · subst h
    rw [if_pos rfl, if_pos rfl, getF_setF _ _ _ _ (by decide) (by decide)]
    exact Nat.mod_eq_of_lt hx
  · rw [if_neg (by simpa using h), if_neg h]
    rfl

/-- Tiles of a list that go into BIST one after another. -/
theorem tileState_each_bist (f : Tile → Tile) (l : List Nat) (s : State) (k : Nat) :
    (s.each l (fun s t => (s.setTileState t 3).setTile t f)).tileState k = if k ∈ l then 3 else s.tileState k := by
  induction l generalizing s with
  | nil => simp [State.each]
  | cons a l ih =>
    have h : s.each (a :: l) (fun s t => (s.setTileState t 3).setTile t f) =
        ((s.setTileState a 3).setTile a f).each l (fun s t => (s.setTileState t 3).setTile t f) := rfl
    have hone : ((s.setTileState a 3).setTile a f).tileState k = if a = k then 3 else s.tileState k := tileState_setTileState s a k (by decide)
    rw [h, ih, hone]
    by_cases hk : k ∈ l
    · simp [hk]
    · by_cases hka : a = k
      · simp [hka]
      · simp [hk, hka, Ne.symm hka]

theorem testJoiners_tileState (s : State) {k : Nat} (hk : k < 96) :
    s.testJoiners.tileState k = if s.claimed k && s.tileState k == 0 then 3 else s.tileState k := by
  have h := tileState_each_bist (fun x => { x.wipe with bist := some .join }) (below 96 (fun t => s.claimed t && s.tileState t == 0)) s k
  refine h.trans ?_
  simp only [below, List.mem_filter, List.mem_range, hk, true_and]

theorem claimed_congr {s t : State} (h : t.reRig = s.reRig) (k : Nat) : t.claimed k = s.claimed k := by rw [State.claimed, h, State.claimed]

/-- The cores of step 2 before the re-rig is noted. -/
theorem testCores_spec (s : State) (r : ReRig) : ∃ (l : List Nat) (v : State), s.testCores r = { v with reRig := some { r with testing := l } } ∧
    Rewired s v ∧ ∀ k, v.tileState k = s.tileState k := by
  refine ⟨_, _, rfl, ?_, fun k => tileState_congr ?_⟩
  · exact (Rewired.each (fun u k => .of_units (.setHcore u k _)) s _).trans (.each (fun u c => .of_units (.setBneState u c 2)) _ _)
  · refine (State.rd_each _ (fun u c => u.setBneState c 2) (fun u c => ?_) _ _).trans ?_
    · exact (State.rd_store _ _ _ _).trans (if_neg (by simp))
    · exact State.rd_each _ (fun u k => u.setHcore k (fun h => { h with state := .offline })) (fun _ _ => rfl) s _

/-- A partial image whose checks have passed: the write of the other copy begins, and the joining units run BIST. -/
theorem partialBegun_spec (u : State) (ch p : Nat) (new old : Rig) (i : Bytes) (target : Nat) :
    let t := (u.testCores ⟨p, new, old, i, target, false, false, []⟩).testJoiners.startFlash ch target i (.rigPartial p)
    t.rig = u.rig ∧ t.slots = u.slots ∧ t.jobs = u.jobs ∧ (∃ l, t.reRig = some ⟨p, new, old, i, target, false, false, l⟩) ∧ t.copyAt target = [] ∧
      t.mbx.flash = some ⟨ch, target, i, .rigPartial p⟩ ∧
      ∀ k, k < 96 → t.tileState k = (if t.claimed k && u.tileState k == 0 then 3 else u.tileState k) := by
  obtain ⟨l, v, heq, hv, hstate⟩ := testCores_spec u ⟨p, new, old, i, target, false, false, []⟩
  intro t
  have ht : t = (State.testJoiners { v with reRig := some ⟨p, new, old, i, target, false, false, l⟩ }).startFlash ch target i (.rigPartial p) :=
    congrArg (fun x : State => x.testJoiners.startFlash ch target i (.rigPartial p)) heq
  generalize hw : ({ v with reRig := some ⟨p, new, old, i, target, false, false, l⟩ } : State) = w at ht
  have hjoin := Rewired.testJoiners w
  obtain ⟨hflash, hcopy, -, -⟩ := startFlash_spec w.testJoiners ch target i (.rigPartial p)
  have hre : w.testJoiners.reRig = some ⟨p, new, old, i, target, false, false, l⟩ := by rw [hjoin.reRig, ← hw]
  refine ⟨?_, ?_, ?_, ⟨l, ?_⟩, ?_, ?_, fun k hk => ?_⟩
  · rw [ht, ← hv.rig, show v.rig = w.rig by rw [← hw], ← hjoin.rig]
    rfl
  · rw [ht, ← hv.slots, show v.slots = w.slots by rw [← hw], ← hjoin.slots]
    rfl
  · rw [ht, ← hv.jobs, show v.jobs = w.jobs by rw [← hw], ← hjoin.jobs]
    rfl
  · rw [ht, ← hre]
    rfl
  · rw [ht, hcopy]
  · rw [ht, hflash]
  · have hw' : w.tileState k = u.tileState k := by rw [← hstate k, ← hw]; rfl
    have hclaimed : t.claimed k = w.claimed k := by
      rw [ht]
      exact (claimed_congr rfl k).trans (claimed_congr hjoin.reRig k)
    rw [hclaimed, ← hw', ht]
    exact testJoiners_tileState w hk

/-! ### Commit, drain and completion of a live re-rig -/

/-- The rig in force once MAGIC is written. -/
theorem exec_rigPartialCommit_ok {s : State} {j : FlashJob} {r : ReRig} {p : Nat} (hj : s.mbx.flash = some j) (hr : s.reRig = some r)
    (hcommit : r.committed = false) (hwhy : j.why = .rigPartial p) (hdip : s.tamper.dip = none) :
    exec (.rigPartialCommit true) s = .next { (s.flashDone.setCopy j.copy j.image).setFld .genState 6 6 (j.copy - 4) with
      rig := some r.image, reRig := some { r with committed := true } } := by
  change execRigPartialCommit true s = _
  simp only [execRigPartialCommit, hj, hr, hcommit, hwhy, hdip, Option.isSome_none, Bool.or_self, Bool.false_eq_true, if_false, if_true]
  rfl

theorem exec_rigPartialCommit_failed {s : State} {j : FlashJob} {r : ReRig} {p : Nat} (hj : s.mbx.flash = some j) (hr : s.reRig = some r)
    (hcommit : r.committed = false) (hwhy : j.why = .rigPartial p) (hdip : s.tamper.dip = none) :
    exec (.rigPartialCommit false) s = .next (s.flashDone.dropReRig.mbxDone j.ch 0x24 0 []) := by
  change execRigPartialCommit false s = _
  simp only [execRigPartialCommit, hj, hr, hcommit, hwhy, hdip, Option.isSome_none, Bool.or_self, Bool.false_eq_true, if_false]
  rw [← hr]
  rfl

/-- A re-rig dropped before the waiting gates are looked at. -/
def State.reRigDropped (s : State) : State := { s.dropJoiners with reRig := none, mbx := { s.mbx with flash := none } }

theorem dropReRig_eq (s : State) : s.dropReRig = s.reRigDropped.applyGates := rfl

theorem Serviced.dropJoiners (s : State) : Serviced s s.dropJoiners := by
  unfold State.dropJoiners
  dsimp only
  refine .trans ?_ (each (fun u c => of_units (.setBneState u c 0)) _ _)
  refine .trans ?_ (each (fun u k => of_units (.setHcore u k fun h => { h with state := .unused })) _ _)
  exact each (fun u t => (of_units (.setTileState u t 0)).trans (setTile _ t id)) s _

theorem reRigDropped_rd (s : State) {r : Reg} (hr : r.ofService = false) : s.reRigDropped.rd r = s.rd r := (Serviced.dropJoiners s).regs r hr

/-- A live re-rig that is dropped. -/
theorem dropReRig_spec (s : State) : s.dropReRig.reRig = none ∧ (∀ ch, s.dropReRig.mbxCode ch = s.mbxCode ch) ∧ s.dropReRig.rig = s.rig ∧
    s.dropReRig.flash = s.flash ∧ (s.gateWait = [] → s.dropReRig.jobs = s.jobs) := by
  have hgates := Serviced.applyGates s.reRigDropped
  have hjoin := Rewired.dropJoiners s
  rw [dropReRig_eq]
  refine ⟨applyGates_reRig _, fun ch => ?_, ?_, ?_, fun hwait => ?_⟩
  · exact (congrArg (getF · 15 0) (hgates.regs _ rfl)).trans (congrArg (getF · 15 0) (reRigDropped_rd s rfl))
  · exact (congrArg State.rig hgates.rest :).trans hjoin.rig
  · exact (congrArg State.flash hgates.rest :).trans hjoin.flash
  · have hnone : s.reRigDropped.gateWait = [] := ((congrArg State.gateWait hjoin.rest :) : s.dropJoiners.gateWait = s.gateWait).trans hwait
    rw [State.applyGates, hnone]
    exact hjoin.jobs

theorem reRig_commit {s : State} {j : FlashJob} {r : ReRig} {p : Nat} (hj : s.mbx.flash = some j) (hr : s.reRig = some r)
    (hcommit : r.committed = false) (hwhy : j.why = .rigPartial p) (hdip : s.tamper.dip = none) (hcode : s.mbxCode j.ch ∈ mbxCodes)
    (hcopy : j.copy = 4 ∨ j.copy = 5) :
    (∃ t, exec (.rigPartialCommit true) s = .next t ∧ t.reRig = some { r with committed := true } ∧ t.copyAt j.copy = j.image ∧
      t.fld .genState 6 6 = j.copy - 4 ∧ t.rig = some r.image ∧ t.jobs = s.jobs) ∧
    (∃ t, exec (.rigPartialCommit false) s = .next t ∧ t.reRig = none ∧ t.Answered j.ch 0x24 0 [] ∧ t.rig = s.rig ∧ t.flash = s.flash ∧
      (s.gateWait = [] → t.jobs = s.jobs)) := by
  refine ⟨⟨_, exec_rigPartialCommit_ok hj hr hcommit hwhy hdip, rfl, ?_, ?_, rfl, rfl⟩, ⟨_, exec_rigPartialCommit_failed hj hr hcommit hwhy hdip, ?_⟩⟩
  · exact (copyAt_setCopy s.flashDone j.copy j.copy j.image).trans (if_pos rfl)
  · refine (State.fld_setFld (s.flashDone.setCopy j.copy j.image) .genState 6 6 (j.copy - 4) (by decide) (by decide)).trans ?_
    exact Nat.mod_eq_of_lt (by omega)
  · obtain ⟨hnone, hc, hrig, hflash, hjobs⟩ := dropReRig_spec s.flashDone
    have hkeeps := mbxDone_keeps s.flashDone.dropReRig j.ch 0x24 0 []
    have hre : (s.flashDone.dropReRig.mbxDone j.ch 0x24 0 []).reRig = s.flashDone.dropReRig.reRig :=
      (congrArg State.reRig (mbxDone_only s.flashDone.dropReRig j.ch 0x24 0 []).2 :)
    have hno : s.flashDone.dropReRig.NoUnknown j.ch := .inr (by rw [hc]; exact hcode)
    exact ⟨hre.trans hnone, mbxDone_answered hno 0x24 0 [], hkeeps.rig.trans hrig, hkeeps.flash.trans hflash,
      fun hwait => hkeeps.jobs.trans (hjobs hwait)⟩

/-- Steps 5 and 6. -/
theorem reRig_drained {s : State} {r : ReRig} (hr : s.reRig = some r) (hcommit : r.committed = true) (hdip : s.tamper.dip = none)
    (hdrained : r.drained = false) (hidle : (s.poolRec r.pool).any s.poolRuns = false) :
    ∃ t, exec .rigPartialDrained s = .next t ∧ t.rig = s.rig ∧ t.reRig = some { r with drained := true } ∧ t.jobs = s.jobs ∧ t.slots = s.slots := by
  have hrewired (u : State) (kind : Nat) : Rewired u (match kind with
      | 1 => u.switchShells r.image r.pool
      | 2 => u.switchGroup r.image r.pool
      | _ => u.switchPart r.image r.pool) := by
    split
    · exact .switchShells u _ _
    · exact .switchGroup u _ _
    · exact .switchPart u _ _
  have hexec : exec .rigPartialDrained s = execRigPartialDrained s := rfl
  rw [hexec]
  unfold execRigPartialDrained
  rw [hr]
  dsimp only
  rw [if_neg (by simp [hcommit, hdrained, hdip, hidle])]
  have h := hrewired { s with reRig := some { r with drained := true } } (((s.poolRec r.pool).map (·.kind)).getD 1)
  exact ⟨_, rfl, h.rig, h.reRig, h.jobs, h.slots⟩

/-! ### Step 7 -/

namespace Serviced

theorem buildShell (s : State) (p : Nat) (x : RigShell) : Serviced s (s.buildShell p x) := by
  have hone (u : State) (t : Nat) : Serviced u
      (let gated := u.tileState t == 5
       let s := (u.setFld (.fabTileStat t) 14 8 x.num).setTileState t (if gated then 5 else 1)
       (s.setTile t (fun y => { y with back := if gated then 1 else 0 })).loadKernels t p) :=
    (((setFld u (r := .fabTileStat t) rfl _ _ _).trans (setTileState _ t _)).trans (setTile _ t id)).trans (loadKernels _ t p)
  unfold State.buildShell
  refine ite (wr s (r := .fabShellMap x.num) rfl _) ?_
  refine .trans ?_ (of_units (.restroke _ x.num))
  exact (wr s (r := .fabShellMap x.num) rfl _).trans (each hone _ _)

theorem hashJoined (s : State) (k : Nat) (ok : Bool) : Serviced s (s.hashJoined k ok) := by
  have h := (tested s k).trans (setHcore _ k fun h => { h with state := if ok then .unused else .retired })
  exact ite h (h.trans (hsfEvt _ 1))

theorem bneJoined (s : State) (c : Nat) (ok : Bool) : Serviced s (s.bneJoined c ok) := by
  have h := ((tested s c).trans (setFld _ (r := .bneCoreState c) rfl 21 20 (if ok then 1 else 2))).trans (setBneState _ c (if ok then 0 else 3))
  exact ite h (h.trans (bneEvt _ 1))

theorem endCores (s : State) (failed : List Nat) : Serviced s (s.endCores failed) :=
  (each (fun u k => hashJoined u k _) s _).trans (each (fun u c => bneJoined u c _) _ _)

theorem joinCores (s : State) (r : ReRig) : Serviced s (s.joinCores r) := by
  have hgroup (u : State) (x : RigGroup) (c : Nat) : Serviced u
      (let s := u.setFld (.bneCoreState c) 10 8 x.num
       if s.bneState c = 0 then s.setBneState c 1 else s) :=
    (setFld u (r := .bneCoreState c) rfl 10 8 x.num).trans (ite (setBneState _ c 1) (refl _))
  unfold State.joinCores
  dsimp only
  refine .trans ?_ (each (fun u (x : RigGroup) => each (fun v c => hgroup v x c) u _) _ _)
  exact each (fun u (x : RigPart) => each (fun v k => setHcore v k _) u _) s _

theorem endJoiners (s : State) (failed : List Nat) : Serviced s (s.endJoiners failed) := each (fun u t => tileBistDone u t _) s _

end Serviced

namespace UnitsOnly

theorem loadShellState (s : State) (x : RigShell) : UnitsOnly s (s.loadShellState x) := by
  unfold State.loadShellState
  split
  · exact refl s
  · split
    · exact setShellState s _ _
    · exact repairShell s _ _

theorem testLeavers (s : State) (new : Rig) : UnitsOnly s (s.testLeavers new) :=
  each (fun u t => (setTileState u t 3).trans (setTile _ t id)) s _

end UnitsOnly

/-- The joining units have come in. -/
def State.reRigJoined (s : State) (r : ReRig) (failed : List Nat) : State :=
  ((((s.endJoiners failed).each (r.image.reShells r.pool (fun n => decide (n ∈ below 96 (s.shellIn r.pool)))) (fun s x => s.buildShell r.pool x)).endCores
    failed).joinCores r)

/-- Shells and tiles after a re-rig take the states that follow from their tiles. -/
def State.reRigSettled (s : State) (r : ReRig) : State :=
  (({ s with reRig := none } : State).each (r.image.shells.filter (fun x => x.ofPool r.pool)) State.loadShellState).testLeavers r.image

/-- What a re-rig leaves when it has ended, but for its command's answer. -/
def State.reRigEnded (s : State) (r : ReRig) (failed : List Nat) : State :=
  ((s.reRigJoined r failed).reRigSettled r).raiseRigSvn.applyGates.dropUncarried

theorem finishReRig_eq (s : State) (r : ReRig) (failed : List Nat) : s.finishReRig r failed = match (s.reRigEnded r failed).mbx.busy with
    | some ch => if (s.reRigEnded r failed).mbxCode ch = 0x0204 then (s.reRigEnded r failed).mbxDone ch 0 0 [] else s.reRigEnded r failed
    | none => s.reRigEnded r failed := rfl

theorem reRigJoined_serviced (s : State) (r : ReRig) (failed : List Nat) : Serviced s (s.reRigJoined r failed) := by
  refine .trans (.trans (.trans ?_ (.each (fun u x => .buildShell u r.pool x) _ _)) (.endCores _ failed)) (.joinCores _ r)
  exact .endJoiners s failed

theorem reRigSettled_units (s : State) (r : ReRig) : UnitsOnly { s with reRig := none } (s.reRigSettled r) :=
  (UnitsOnly.each (fun u x => .loadShellState u x) _ _).trans (.testLeavers _ _)

theorem raiseRigSvn_rest (s : State) : ({ s.raiseRigSvn with otp := s.otp } : State) = s := by
  unfold State.raiseRigSvn
  split
  · split <;> rfl
  · rfl

theorem reRigEnded_spec (s : State) (r : ReRig) (failed : List Nat) : (s.reRigEnded r failed).reRig = none ∧ (s.reRigEnded r failed).rig = s.rig ∧
    (s.reRigEnded r failed).slots = s.slots ∧ (s.reRigEnded r failed).mbx = s.mbx ∧ ∀ ch, (s.reRigEnded r failed).mbxCode ch = s.mbxCode ch := by
  have hjoined := reRigJoined_serviced s r failed
  have hsettled := reRigSettled_units (s.reRigJoined r failed) r
  unfold State.reRigEnded
  generalize s.reRigJoined r failed = a at hjoined hsettled ⊢
  generalize a.reRigSettled r = b at hsettled ⊢
  have hraise := raiseRigSvn_rest b
  generalize b.raiseRigSvn = c at hraise ⊢
  have hgates := Serviced.applyGates c
  have hgatesRe := applyGates_reRig c
  generalize c.applyGates = d at hgates hgatesRe ⊢
  have hdrop := JobsOnly.dropUncarried d
  generalize d.dropUncarried = e at hdrop ⊢
  refine ⟨?_, ?_, ?_, ?_, fun ch => ?_⟩
  · calc e.reRig = d.reRig := (congrArg State.reRig hdrop.rest :)
      _ = c.reRig := hgatesRe
      _ = b.reRig := (congrArg State.reRig hraise :)
      _ = none := (congrArg State.reRig hsettled.rest :)
  · calc e.rig = d.rig := (congrArg State.rig hdrop.rest :)
      _ = c.rig := (congrArg State.rig hgates.rest :)
      _ = b.rig := (congrArg State.rig hraise :)
      _ = a.rig := (congrArg State.rig hsettled.rest :)
      _ = s.rig := (congrArg State.rig hjoined.rest :)
  · calc e.slots = d.slots := (congrArg State.slots hdrop.rest :)
      _ = c.slots := (congrArg State.slots hgates.rest :)
      _ = b.slots := (congrArg State.slots hraise :)
      _ = a.slots := (congrArg State.slots hsettled.rest :)
      _ = s.slots := (congrArg State.slots hjoined.rest :)
  · calc e.mbx = d.mbx := (congrArg State.mbx hdrop.rest :)
      _ = c.mbx := (congrArg State.mbx hgates.rest :)
      _ = b.mbx := (congrArg State.mbx hraise :)
      _ = a.mbx := (congrArg State.mbx hsettled.rest :)
      _ = s.mbx := (congrArg State.mbx hjoined.rest :)
  · have hrd : e.rd (.mbxCmd ch) = s.rd (.mbxCmd ch) := calc
      e.rd (.mbxCmd ch) = d.rd (.mbxCmd ch) := hdrop.regs _ rfl
      _ = c.rd (.mbxCmd ch) := hgates.regs _ rfl
      _ = b.rd (.mbxCmd ch) := (congrArg (State.rd · (.mbxCmd ch)) hraise :)
      _ = a.rd (.mbxCmd ch) := hsettled.regs _ rfl
      _ = s.rd (.mbxCmd ch) := hjoined.regs _ rfl
    exact congrArg (getF · 15 0) hrd

/-- Step 7. -/
theorem reRig_completed {s : State} {r : ReRig} (hr : s.reRig = some r) (hcommit : r.committed = true) (hdip : s.tamper.dip = none)
    (hdrained : r.drained = true) (failed : List Nat) :
    ∃ t, exec (.rigPartialComplete failed) s = .next t ∧ t.reRig = none ∧ t.rig = s.rig ∧ t.slots = s.slots ∧
      (∀ ch, s.mbx.busy = some ch → s.mbxCode ch = 0x0204 → t.Answered ch 0 0 []) := by
  have hexec : exec (.rigPartialComplete failed) s = .next (s.finishReRig r failed) := by
    change execRigPartialComplete failed s = _
    simp only [execRigPartialComplete, hr, hcommit, hdrained, hdip, Option.isSome_none, Bool.not_true, Bool.or_self, Bool.false_eq_true, if_false]
  obtain ⟨hnone, hrig, hslots, hmbx, hcode⟩ := reRigEnded_spec s r failed
  rw [finishReRig_eq] at hexec
  generalize s.reRigEnded r failed = e at hexec hnone hrig hslots hmbx hcode
  refine ⟨_, hexec, ?_⟩
  have hdone (ch : Nat) : (e.mbxDone ch 0 0 []).reRig = none ∧ (e.mbxDone ch 0 0 []).rig = s.rig ∧ (e.mbxDone ch 0 0 []).slots = s.slots :=
    ⟨((congrArg State.reRig (mbxDone_only e ch 0 0 []).2 :)).trans hnone, (mbxDone_keeps e ch 0 0 []).rig.trans hrig,
      (mbxDone_keeps e ch 0 0 []).slots.trans hslots⟩
  cases hbusy : e.mbx.busy with
  | none =>
    refine ⟨hnone, hrig, hslots, fun ch hch => ?_⟩
    rw [← hmbx, hbusy] at hch
    cases hch
  | some ch =>
    dsimp only
    by_cases hc : e.mbxCode ch = 0x0204
    · rw [if_pos hc]
      refine ⟨(hdone ch).1, (hdone ch).2.1, (hdone ch).2.2, fun ch' hch' hcode' => ?_⟩
      rw [← hmbx, hbusy] at hch'
      cases hch'
      exact mbxDone_answered (.inr (by rw [hc]; decide)) 0 0 []
    · rw [if_neg hc]
      refine ⟨hnone, hrig, hslots, fun ch' hch' hcode' => ?_⟩
      rw [← hmbx, hbusy] at hch'
      cases hch'
      exact absurd ((hcode _).trans hcode') hc

/-- Settles O42: the flash's commits, and a live re-rig step by step. -/
theorem flashAndReRig : Obligations.FlashAndReRig := by
  unfold Obligations.FlashAndReRig
  refine ⟨fun s j hj hdip hcode => ⟨fun ok hwhy => ⟨_, exec_flashWriteCommit hj hdip (by simp [hwhy]) ok, flashCommit_rigWrite_spec hcode hwhy ok⟩,
    fun pos hwhy hpos => ⟨_, exec_flashWriteCommit hj hdip (by simp [hwhy]) true, flashCommit_rotate_spec hcode hwhy hpos⟩⟩,
    fun s u ch old h hold hu hfree => ?_,
    fun s j r p hj hr hcommit hwhy hdip hcode hcopy => reRig_commit hj hr hcommit hwhy hdip hcode hcopy,
    fun s r hr hcommit hdip => ⟨fun hdrained hidle => reRig_drained hr hcommit hdip hdrained hidle,
      fun failed hdrained => reRig_completed hr hcommit hdip hdrained failed⟩⟩
  subst hu
  have hrun := h.run_of (congrArg some (show State.rigPartialCmd (s.mbxTaken ch) ch [] = _ from if_neg (by simp [hfree])))
  have hrig : (s.mbxTaken ch).rig = some old := hold
  have hidle : s.reRig = none := by
    have hnone : (s.mbxTaken ch).reRig.isSome = false := by
      rw [State.rigBusy] at hfree
      simp only [Bool.or_eq_false_iff] at hfree
      exact hfree.1.1.1
    have heq : (s.mbxTaken ch).reRig = none := by simpa using hnone
    exact heq
  rw [taken_stagedImage, hrig] at hrun
  have hended (result detail : Nat) := (taken_done s ch result detail).2
  have hre (result detail : Nat) : ((s.mbxTaken ch).mbxDone ch result detail []).reRig = none :=
    ((congrArg State.reRig (mbxDone_only (s.mbxTaken ch) ch result detail []).2 :)).trans hidle
  generalize (s.mbxTaken ch).rigCheck s.stagedImage = x at hrun ⊢
  cases x with
  | inl e => exact ⟨_, hrun, (hended _ _).rig, (hended _ _).slots, (hended _ _).jobs, (taken_done s ch e.1 e.2).1, hre _ _⟩
  | inr new =>
    dsimp only at hrun ⊢
    by_cases hver : new.version ≤ old.version
    · rw [if_pos hver] at hrun
      refine ⟨_, hrun, (hended _ _).rig, (hended _ _).slots, (hended _ _).jobs, ?_⟩
      rw [if_pos hver]
      exact (taken_done s ch 0x22 0).1
    rw [if_neg hver] at hrun
    by_cases hbase : new.flags.testBit 0 = false ∨ new.base ≠ old.digest
    · rw [if_pos (by simpa using hbase)] at hrun
      refine ⟨_, hrun, (hended _ _).rig, (hended _ _).slots, (hended _ _).jobs, ?_⟩
      rw [if_neg hver, if_pos hbase]
      exact (taken_done s ch 0x20 0).1
    rw [if_neg (by simpa using hbase)] at hrun
    simp only [if_neg hver, if_neg hbase]
    generalize firstBelow 32 (partialScope old new) = y at hrun ⊢
    cases y with
    | none => exact ⟨_, hrun, (hended _ _).rig, (hended _ _).slots, (hended _ _).jobs, (taken_done s ch 0x21 0).1⟩
    | some p =>
      obtain ⟨h1, h2, h3, h4, h5, h6, h7⟩ := partialBegun_spec (s.mbxTaken ch) ch p new old s.stagedImage (s.mbxTaken ch).rigTarget
      exact ⟨_, hrun, h1, h2, h3, h4, h5, h6, h7⟩

end Sys2Proof.Machine
end

section
/-! PROOFS. Jobs that leave their units: what becomes of tiles, of event bits and of the instances' states. -/

namespace Sys2Proof.Machine

/-! ### Units that are to leave -/

theorem leaving_eq_false (s : State) : s.leaving = false ↔
    (∀ e ∈ s.bcores, e.2.leaving = false) ∧ (∀ e ∈ s.hcores, e.2.leaving = false) ∧ ∀ e ∈ s.tiles, e.2.back ≠ 4 := by
  simp [State.leaving, and_assoc]

/-- The registers in which a departure leaves some fields. -/
def Reg.tracked : Reg → Bool
  | .fabTileStat _ | .fabEvtStatus | .tilDbgStat _ | .rngDrbStat _ => true
  | _ => false

/-- From `s` to `t` jobs leave their units: a tile goes out of service only to be RETIRED as its RETIRE asks, wiped tiles keep what is
not a kernel's, events are not withdrawn, and instances keep their states. -/
structure Departs (s t : State) : Prop where
  stat : ∀ k hi lo, 16 ≤ lo → t.fld (.fabTileStat k) hi lo = s.fld (.fabTileStat k) hi lo
  statBit : ∀ k i, 16 ≤ i → t.bit (.fabTileStat k) i = s.bit (.fabTileStat k) i
  state : ∀ k, t.tileState k = s.tileState k ∨ (t.tileState k = 4 ∧ (s.tile k).back = 4)
  back : ∀ k, (s.tile k).back ≠ 4 → (t.tile k).back = (s.tile k).back
  bist : ∀ k, (t.tile k).bist = (s.tile k).bist
  unseeded : ∀ k, (t.tile k).unseeded = (s.tile k).unseeded
  periodic : ∀ k, (t.tile k).periodic = (s.tile k).periodic
  joining : ∀ k, s.tileState k ≠ 2 → (t.tile k).joining = (s.tile k).joining ∨ (t.tile k).joining = none
  evt : ∀ i, s.bit .fabEvtStatus i = true → t.bit .fabEvtStatus i = true
  dbg : ∀ k, s.bit (.tilDbgStat k) 1 = true → t.bit (.tilDbgStat k) 1 = true
  drb : ∀ k hi lo, hi < 8 → t.fld (.rngDrbStat k) hi lo = s.fld (.rngDrbStat k) hi lo
  drbBit : ∀ k i, i < 8 → t.bit (.rngDrbStat k) i = s.bit (.rngDrbStat k) i
  leaving : s.leaving = false → t.leaving = false
  pool : t.rng.pool = s.rng.pool

namespace Departs
variable {s t u : State}

theorem refl (s : State) : Departs s s where
  stat _ _ _ _ := rfl
  statBit _ _ _ := rfl
  state _ := .inl rfl
  back _ _ := rfl
  bist _ := rfl
  unseeded _ := rfl
  periodic _ := rfl
  joining _ _ := .inl rfl
  evt _ := id
  dbg _ := id
  drb _ _ _ _ := rfl
  drbBit _ _ _ := rfl
  leaving := id
  pool := rfl

theorem trans (h : Departs s t) (h' : Departs t u) : Departs s u where
  stat k hi lo hlo := (h'.stat k hi lo hlo).trans (h.stat k hi lo hlo)
  statBit k i hi := (h'.statBit k i hi).trans (h.statBit k i hi)
  state k := by
    rcases h'.state k with h2 | ⟨h2, hb⟩
    · rw [h2]
      exact h.state k
    · refine .inr ⟨h2, ?_⟩
      by_contra hne
      exact hne ((h.back k hne).symm.trans hb)
  back k hb := (h'.back k (by rwa [h.back k hb])).trans (h.back k hb)
  bist k := (h'.bist k).trans (h.bist k)
  unseeded k := (h'.unseeded k).trans (h.unseeded k)
  periodic k := (h'.periodic k).trans (h.periodic k)
  joining k hk := by
    have hk' : t.tileState k ≠ 2 := by
      rcases h.state k with h1 | ⟨h1, -⟩
      · rwa [h1]
      · rw [h1]
        decide
    rcases h'.joining k hk' with h2 | h2
    · rw [h2]
      exact h.joining k hk
    · exact .inr h2
  evt i hi := h'.evt i (h.evt i hi)
  dbg k hk := h'.dbg k (h.dbg k hk)
  drb k hi lo hhi := (h'.drb k hi lo hhi).trans (h.drb k hi lo hhi)
  drbBit k i hi := (h'.drbBit k i hi).trans (h.drbBit k i hi)
  leaving hl := h'.leaving (h.leaving hl)
  pool := h'.pool.trans h.pool

theorem each {α : Type} {f : State → α → State} (hf : ∀ u a, Departs u (f u a)) (s : State) (l : List α) : Departs s (s.each l f) := by
  induction l generalizing s with
  | nil => exact refl s
  | cons a l ih => exact (hf s a).trans (ih (f s a))

theorem ite {c : Prop} [Decidable c] (h : Departs s t) (h' : Departs s u) : Departs s (if c then t else u) := by
  split
  · exact h
  · exact h'

theorem ite_trans {c : Prop} [Decidable c] (h : Departs s t) (h' : Departs t u) : Departs s (if c then u else t) := ite (h.trans h') h

theorem onlyIf {f : State → State} (hf : ∀ u, Departs u (f u)) (s : State) (c : Bool) : Departs s (s.onlyIf c f) := by
  cases c
  · exact refl s
  · exact hf s

/-! ### Steps -/

/-- Nothing that a departure is told by changes. -/
theorem of_still (hrd : ∀ r, r.tracked = true → t.rd r = s.rd r) (htiles : t.tiles = s.tiles)
    (hleaving : s.leaving = false → t.leaving = false) (hpool : t.rng.pool = s.rng.pool := by rfl) : Departs s t := by
  have htile (k : Nat) : t.tile k = s.tile k := by rw [State.tile, htiles, State.tile]
  have hfld (r : Reg) (hr : r.tracked = true) (hi lo : Nat) : t.fld r hi lo = s.fld r hi lo := congrArg (getF · hi lo) (hrd r hr)
  have hbit (r : Reg) (hr : r.tracked = true) (i : Nat) : t.bit r i = s.bit r i := congrArg (getB · i) (hrd r hr)
  exact {
    stat := fun k hi lo _ => hfld _ rfl hi lo
    statBit := fun k i _ => hbit _ rfl i
    state := fun k => .inl (hfld _ rfl 2 0)
    back := fun k _ => by rw [htile]
    bist := fun k => by rw [htile]
    unseeded := fun k => by rw [htile]
    periodic := fun k => by rw [htile]
    joining := fun k _ => .inl (by rw [htile])
    evt := fun i hi => (hbit .fabEvtStatus rfl i).trans hi
    dbg := fun k hk => (hbit (.tilDbgStat k) rfl 1).trans hk
    drb := fun k hi lo _ => hfld _ rfl hi lo
    drbBit := fun k i _ => hbit _ rfl i
    leaving := hleaving
    pool := hpool }

theorem store (s : State) {r : Reg} (hr : r.tracked = false) (f : DWord → DWord) : Departs s (s.store r f) :=
  of_still (fun r' h' => by rw [State.rd_store, if_neg fun h : r = r' => by simp [h, h'] at hr]) rfl id

theorem setFld (s : State) {r : Reg} (hr : r.tracked = false) (hi lo x : Nat) : Departs s (s.setFld r hi lo x) := store s hr _
theorem setBit (s : State) {r : Reg} (hr : r.tracked = false) (i : Nat) (b : Bool) : Departs s (s.setBit r i b) := store s hr _
theorem bump (s : State) {r : Reg} (hr : r.tracked = false) (d : Nat) : Departs s (s.bump r d) := setFld s hr _ _ _

theorem sendMsix (s : State) (v : Nat) : Departs s (s.sendMsix v) := by
  have h := RegsAndMessages.sendMsix [] s v
  exact of_still (fun r _ => h.1 r List.not_mem_nil) h.tiles (fun hl => h.leaving.trans hl) (congrArg (fun u : State => u.rng.pool) h.2 :)

theorem draw (s : State) (n : Nat) : Departs s (s.draw n).2 := of_still (fun _ _ => rfl) rfl id
theorem setJob (s : State) (j : Nat) (f : Job → Job) : Departs s (s.setJob j f) := of_still (fun _ _ => rfl) rfl id
theorem setCell (s : State) (c : Nat) (x : Cell) : Departs s (s.setCell c x) := of_still (fun _ _ => rfl) rfl id
theorem setRng (s : State) {x : Rng} (hx : x.pool = s.rng.pool) : Departs s { s with rng := x } := of_still (fun _ _ => rfl) rfl id hx

/-- A fabric event sets its bit. -/
theorem setEvt (s : State) {i : Nat} (hi : i < 64) : Departs s (s.setBit .fabEvtStatus i true) := by
  have hrd (r : Reg) (hr : r ≠ .fabEvtStatus) : (s.setBit .fabEvtStatus i true).rd r = s.rd r := by rw [State.setBit, State.rd_store, if_neg hr.symm]
  have hfld (r : Reg) (hr : r ≠ .fabEvtStatus) (hi lo : Nat) : (s.setBit .fabEvtStatus i true).fld r hi lo = s.fld r hi lo :=
    congrArg (getF · hi lo) (hrd r hr)
  have hbit (r : Reg) (hr : r ≠ .fabEvtStatus) (n : Nat) : (s.setBit .fabEvtStatus i true).bit r n = s.bit r n := congrArg (getB · n) (hrd r hr)
  exact { refl s with
    stat := fun k hi lo _ => hfld _ (by simp) hi lo
    statBit := fun k n _ => hbit _ (by simp) n
    state := fun k => .inl (hfld _ (by simp) 2 0)
    evt := fun n hn => by rw [State.bit_setBit _ _ _ _ _ hi, hn, ite_self]
    dbg := fun k hk => (hbit _ (by simp) 1).trans hk
    drb := fun k hi lo _ => hfld _ (by simp) hi lo
    drbBit := fun k n _ => hbit _ (by simp) n }

theorem fabEvt (s : State) {i : Nat} (hi : i < 64) : Departs s (s.fabEvt i) :=
  ite ((setEvt s hi).trans (sendMsix _ _)) (setEvt s hi)

theorem event (s : State) {stat : Reg} (h : stat.tracked = false) (en vec : Reg) (i : Nat) : Departs s (s.event stat en vec i) :=
  ite ((setBit s h i true).trans (sendMsix _ _)) (setBit s h i true)

/-- A tile keeps what a departure leaves. -/
theorem setTile (s : State) (t : Nat) {f : Tile → Tile} (hback : (s.tile t).back ≠ 4 → (f (s.tile t)).back = (s.tile t).back)
    (hbist : (f (s.tile t)).bist = (s.tile t).bist) (hunseeded : (f (s.tile t)).unseeded = (s.tile t).unseeded)
    (hperiodic : (f (s.tile t)).periodic = (s.tile t).periodic)
    (hjoining : s.tileState t ≠ 2 → (f (s.tile t)).joining = (s.tile t).joining ∨ (f (s.tile t)).joining = none) : Departs s (s.setTile t f) := by
  have htile (k : Nat) : (s.setTile t f).tile k = if t = k then f (s.tile t) else s.tile k := State.tile_setTile s t k f
  exact { refl s with
    back := fun k hk => by
      rw [htile]; split
      · subst t; exact hback hk
      · rfl
    bist := fun k => by
      rw [htile]; split
      · subst t; exact hbist
      · rfl
    unseeded := fun k => by
      rw [htile]; split
      · subst t; exact hunseeded
      · rfl
    periodic := fun k => by
      rw [htile]; split
      · subst t; exact hperiodic
      · rfl
    joining := fun k hk => by
      rw [htile]; split
      · subst t; exact hjoining hk
      · exact .inl rfl
    leaving := fun hl => by
      obtain ⟨hb, hh, ht⟩ := (leaving_eq_false s).1 hl
      have hst : (s.tile t).back ≠ 4 := tget_mem (P := fun x : Tile => x.back ≠ 4) (by decide) ht t
      exact (leaving_eq_false _).2 ⟨hb, hh, mem_tset (P := fun x : Tile => x.back ≠ 4) ht (by rw [hback hst]; exact hst)⟩ }

theorem setBcore (s : State) (c : Nat) {f : BCore → BCore} (hf : ∀ b, b.leaving = false → (f b).leaving = false) : Departs s (s.setBcore c f) :=
  of_still (fun _ _ => rfl) rfl fun hl => by
    obtain ⟨hb, hh, ht⟩ := (leaving_eq_false s).1 hl
    exact (leaving_eq_false _).2 ⟨mem_tset (P := fun x : BCore => x.leaving = false) hb
      (hf _ (tget_mem (P := fun x : BCore => x.leaving = false) rfl hb c)), hh, ht⟩

theorem setHcore (s : State) (k : Nat) {f : HCore → HCore} (hf : ∀ h, h.leaving = false → (f h).leaving = false) : Departs s (s.setHcore k f) :=
  of_still (fun _ _ => rfl) rfl fun hl => by
    obtain ⟨hb, hh, ht⟩ := (leaving_eq_false s).1 hl
    exact (leaving_eq_false _).2 ⟨hb, mem_tset (P := fun x : HCore => x.leaving = false) hh
      (hf _ (tget_mem (P := fun x : HCore => x.leaving = false) rfl hh k)), ht⟩

/-! ### Tiles -/

theorem moreCycles (s : State) {r : Reg} (hr : r.tracked = false) (n : Nat) : Departs s (s.moreCycles r n) :=
  store s hr (fun _ => s.rd r + BitVec.ofNat 64 n)

theorem addCycles (s : State) {r : Reg} (hr : r.tracked = false) : Departs s (s.addCycles r) := (draw s 4).trans (moreCycles _ hr _)

/-- A halt that ends ABANDONED. -/
theorem abandoned (s : State) (t : Nat) : Departs s ((s.setBit (.tilDbgStat t) 1 true).setFld (.tilDbgStat t) 11 8 0) := by
  have hrd (r : Reg) (hr : r ≠ .tilDbgStat t) : ((s.setBit (.tilDbgStat t) 1 true).setFld (.tilDbgStat t) 11 8 0).rd r = s.rd r := by
    rw [State.setFld, State.rd_store, if_neg hr.symm, State.setBit, State.rd_store, if_neg hr.symm]
  have hfld (r : Reg) (hr : r ≠ .tilDbgStat t) (hi lo : Nat) := congrArg (getF · hi lo) (hrd r hr)
  have hbit (r : Reg) (hr : r ≠ .tilDbgStat t) (n : Nat) := congrArg (getB · n) (hrd r hr)
  exact { refl s with
    stat := fun k hi lo _ => hfld (.fabTileStat k) (by simp) hi lo
    statBit := fun k n _ => hbit (.fabTileStat k) (by simp) n
    state := fun k => .inl (hfld (.fabTileStat k) (by simp) 2 0)
    evt := fun n hn => (hbit .fabEvtStatus (by simp) n).trans hn
    dbg := fun k hk => by
      by_cases hkt : k = t
      · subst hkt
        rw [State.bit, State.setFld, State.rd_store, if_pos rfl, getB_setF _ _ _ _ _ (by decide) (by decide) (.inl (by decide)), State.setBit,
          State.rd_store, if_pos rfl, getB_setB _ _ _ _ (by decide), if_pos rfl]
      · exact (hbit (.tilDbgStat k) (by simpa using hkt) 1).trans hk
    drb := fun k hi lo _ => hfld (.rngDrbStat k) (by simp) hi lo
    drbBit := fun k n _ => hbit (.rngDrbStat k) (by simp) n }

theorem wipeTile (s : State) (t : Nat) : Departs s (s.wipeTile t) := by
  have hwipe (u : State) : Departs u (u.setTile t Tile.wipe) := setTile u t (fun _ => rfl) rfl rfl rfl (fun _ => .inr rfl)
  unfold State.wipeTile
  dsimp only
  split
  · exact (abandoned s t).trans (hwipe _)
  · exact hwipe s

theorem freeTile (s : State) (t : Nat) : Departs s (s.freeTile t) := by
  unfold State.freeTile
  dsimp only
  refine ite (refl s) ?_
  refine .trans (.trans ?_ (wipeTile _ t)) (setTile _ t (fun _ => rfl) rfl rfl rfl (fun _ => .inl rfl))
  exact ite (addCycles s rfl) (moreCycles s rfl _)

theorem freeShells (s : State) (x : Job) : Departs s (s.freeShells x) := each freeTile s _

end Departs

namespace Departs
variable {s t u : State}

/-! ### Shells -/

/-- A write of a tile's status that leaves its fields from bit 16 on. -/
theorem lowStat (s : State) (k : Nat) {f : DWord → DWord} (hfld : ∀ v hi lo, 16 ≤ lo → getF (f v) hi lo = getF v hi lo)
    (hbit : ∀ v i, 16 ≤ i → getB (f v) i = getB v i) (hstate : getF (f (s.rd (.fabTileStat k))) 2 0 = s.tileState k ∨
      (getF (f (s.rd (.fabTileStat k))) 2 0 = 4 ∧ (s.tile k).back = 4)) : Departs s (s.store (.fabTileStat k) f) := by
  have hrd (r : Reg) (hr : r ≠ .fabTileStat k) : (s.store (.fabTileStat k) f).rd r = s.rd r := by rw [State.rd_store, if_neg hr.symm]
  have hself : (s.store (.fabTileStat k) f).rd (.fabTileStat k) = f (s.rd (.fabTileStat k)) := by rw [State.rd_store, if_pos rfl]
  have hfld' (r : Reg) (hr : r ≠ .fabTileStat k) (hi lo : Nat) := congrArg (getF · hi lo) (hrd r hr)
  have hbit' (r : Reg) (hr : r ≠ .fabTileStat k) (n : Nat) := congrArg (getB · n) (hrd r hr)
  exact { refl s with
    stat := fun j hi lo h => by
      by_cases hj : j = k
      · subst hj
        rw [State.fld, hself, hfld _ _ _ h]
        rfl
      · exact hfld' (.fabTileStat j) (by simpa using hj) hi lo
    statBit := fun j i h => by
      by_cases hj : j = k
      · subst hj
        rw [State.bit, hself, hbit _ _ h]
        rfl
      · exact hbit' (.fabTileStat j) (by simpa using hj) i
    state := fun j => by
      by_cases hj : j = k
      · subst hj
        rw [State.tileState, State.fld, hself]
        exact hstate
      · exact .inl (hfld' (.fabTileStat j) (by simpa using hj) 2 0)
    evt := fun n hn => (hbit' .fabEvtStatus (by simp) n).trans hn
    dbg := fun j hj => (hbit' (.tilDbgStat j) (by simp) 1).trans hj
    drb := fun j hi lo _ => hfld' (.rngDrbStat j) (by simp) hi lo
    drbBit := fun j n _ => hbit' (.rngDrbStat j) (by simp) n }

theorem setStroke (s : State) (k : Nat) (b : Bool) : Departs s (s.setBit (.fabTileStat k) 15 b) :=
  lowStat s k (fun v hi lo h => getF_setB v 15 hi lo b (by decide) (.inl (by omega)))
    (fun v i h => by rw [getB_setB v 15 i b (by decide), if_neg (by omega)]) (.inl (getF_setB _ 15 2 0 b (by decide) (.inr (by decide))))

theorem setShell (s : State) (k x : Nat) : Departs s (s.setFld (.fabTileStat k) 14 8 x) :=
  lowStat s k (fun v hi lo h => getF_setF_ne v 14 8 hi lo x (by decide) (by decide) (.inl (by omega)))
    (fun v i h => getB_setF v 14 8 x i (by decide) (by decide) (.inr (by omega)))
    (.inl (getF_setF_ne _ 14 8 2 0 x (by decide) (by decide) (.inr (by decide))))

/-- A tile that its RETIRE has marked is RETIRED. -/
theorem setRetired (s : State) {k : Nat} (hback : (s.tile k).back = 4) : Departs s (s.setTileState k 4) :=
  lowStat s k (fun v hi lo h => getF_setF_ne v 2 0 hi lo 4 (by decide) (by decide) (.inl (by omega)))
    (fun v i h => getB_setF v 2 0 4 i (by decide) (by decide) (.inr (by omega)))
    (.inr ⟨getF_setF _ 2 0 4 (by decide) (by decide), hback⟩)

theorem restroke (s : State) (sh : Nat) : Departs s (s.restroke sh) :=
  (Departs.setFld s (r := .fabShellMap sh) rfl 38 32 _).trans (each (fun u t => setStroke u t _) _ _)

theorem leaveShell (s : State) {t : Nat} (hback : (s.tile t).back = 4) : Departs s (s.leaveShell t 4) := by
  have hout (u : State) (hu : (u.tile t).back = 4) : Departs u (((u.setTileState t 4).setFld (.fabTileStat t) 14 8 0x7F).setBit (.fabTileStat t) 15 false) :=
    ((setRetired u hu).trans (setShell _ t 0x7F)).trans (setStroke _ t false)
  unfold State.leaveShell
  cases s.shellOf t with
  | none => exact hout s hback
  | some sh => exact ((setBit s (r := .fabShellMap sh) rfl _ false).trans (hout _ hback)).trans (restroke _ sh)

theorem leaveShell_tile (s : State) (t x k : Nat) : (s.leaveShell t x).tile k = s.tile k := by
  have h : (s.leaveShell t x).tiles = s.tiles := by
    have hstroke (u : State) (sh : Nat) : (u.restroke sh).tiles = u.tiles :=
      State.each_keeps State.tiles (fun v (t : Nat) => v.setBit (.fabTileStat t) 15 (decide ((u.shellTiles sh).head? = some t))) (fun _ _ => rfl) _ _
    unfold State.leaveShell
    cases s.shellOf t with
    | none => rfl
    | some sh => exact hstroke _ sh
  rw [State.tile, h, State.tile]

theorem nodup_shellTiles (s : State) (sh : Nat) : (s.shellTiles sh).Nodup :=
  (List.nodup_range.filter _).map fun a b h => by simpa using h

/-- Tiles that RETIRE has marked leave their shell one after another. -/
theorem eachRetired : ∀ (l : List Nat) (s : State), l.Nodup → (∀ t ∈ l, (s.tile t).back = 4) →
    Departs s (s.each l (fun s t => (s.leaveShell t 4).setTile t (fun x => { x with back := 0 })))
  | [], s, _, _ => refl s
  | t :: l, s, hnodup, hback => by
    obtain ⟨htl, hl⟩ := List.nodup_cons.1 hnodup
    have ht : (s.tile t).back = 4 := hback t List.mem_cons_self
    have hfirst : Departs s ((s.leaveShell t 4).setTile t (fun x => { x with back := 0 })) := by
      have h := leaveShell s ht
      exact { h with
        back := fun k hk => by
          rw [State.tile_setTile, if_neg fun htk : t = k => hk (htk ▸ ht), leaveShell_tile]
        bist := fun k => by
          rw [State.tile_setTile, leaveShell_tile, leaveShell_tile]
          split
          · next htk => subst htk; rfl
          · rfl
        unseeded := fun k => by
          rw [State.tile_setTile, leaveShell_tile, leaveShell_tile]
          split
          · next htk => subst htk; rfl
          · rfl
        periodic := fun k => by
          rw [State.tile_setTile, leaveShell_tile, leaveShell_tile]
          split
          · next htk => subst htk; rfl
          · rfl
        joining := fun k _ => .inl (by
          rw [State.tile_setTile, leaveShell_tile, leaveShell_tile]
          split
          · next htk => subst htk; rfl
          · rfl)
        leaving := fun hleaving => by
          obtain ⟨-, -, htiles⟩ := (leaving_eq_false s).1 hleaving
          exact absurd ht (tget_mem (P := fun x : Tile => x.back ≠ 4) (by decide) htiles t) }
    refine hfirst.trans (eachRetired l _ hl fun k hk => ?_)
    rw [State.tile_setTile, if_neg fun htk => htl (by rwa [htk]), leaveShell_tile]
    exact hback k (List.mem_cons_of_mem _ hk)

theorem orElse_cases {α : Type} {a : Option α} {f : Unit → Option α} {x : α} (h : a.orElse f = some x) : a = some x ∨ f () = some x := by
  cases a with
  | none => exact .inr h
  | some y => exact .inl h

/-- The spare that is chosen is a SPARE below 96 on its way to no shell. -/
theorem chooseSpare_spare {s : State} {sh t : Nat} (h : s.chooseSpare sh = some t) : t < 96 ∧ s.tileState t = 2 ∧ (s.tile t).joining = none := by
  have hfree {p : Nat → Bool} (hp : firstBelow 96 p = some t)
      (hpf : p t = true → (s.tileState t == 2 && (s.tile t).joining.isNone && !(s.claimed t && s.reRig.any (·.committed))) = true) :
      t < 96 ∧ s.tileState t = 2 ∧ (s.tile t).joining = none := by
    have hs := hpf (List.find?_some hp)
    simp only [Bool.and_eq_true, beq_iff_eq, Option.isNone_iff_eq_none] at hs
    exact ⟨firstBelow_lt hp, hs.1.1, hs.1.2⟩
  unfold State.chooseSpare at h
  rcases orElse_cases h with h1 | h1
  · exact hfree h1 fun hp => (Bool.and_eq_true_iff.1 (Bool.and_eq_true_iff.1 hp).1).1
  rcases orElse_cases h1 with h2 | h2
  · exact hfree h2 fun hp => (Bool.and_eq_true_iff.1 (Bool.and_eq_true_iff.1 hp).1).1
  rcases orElse_cases h2 with h3 | h3
  · exact hfree h3 fun hp => (Bool.and_eq_true_iff.1 hp).1
  · exact hfree h3 fun hp => (Bool.and_eq_true_iff.1 hp).1

theorem reserve (sh n : Nat) : ∀ s : State, Departs s (s.reserve sh n).2 := by
  induction n with
  | zero => exact refl
  | succ n ih =>
    intro s
    rw [State.reserve]
    split
    · next t h =>
      obtain ⟨-, hspare, -⟩ := chooseSpare_spare h
      exact (setTile s t (fun _ => rfl) rfl rfl rfl fun hne => absurd hspare hne).trans (ih _)
    · exact refl s

theorem setShellState (s : State) (sh x : Nat) : Departs s (s.setShellState sh x) := setFld s (r := .fabShellMap sh) rfl 26 24 x

theorem repairShell (s : State) (sh : Nat) (mc : Bool) : Departs s (s.repairShell sh mc) := by
  unfold State.repairShell
  dsimp only
  refine ite (setShellState s sh _) (ite (setShellState s sh 3) ?_)
  refine ite ((reserve sh _ s).trans (setShellState _ sh 2)) ?_
  exact ((reserve sh _ s).trans (setShellState _ sh 3)).trans (onlyIf (fun u => fabEvt u (by decide)) _ _)

/-! ### Cores, demands and jobs -/

theorem releaseFreed (s : State) (c : Nat) : Departs s (s.releaseFreed c) := setBcore s c fun _ h => h

theorem wipeCore (s : State) (c : Nat) : Departs s (s.wipeCore c) := by
  unfold State.wipeCore
  dsimp only
  refine ite (setBcore s c fun _ h => h) ?_
  refine .trans ?_ (event _ (stat := .bneEvtStatus) rfl _ _ 4)
  refine .trans ?_ (bump _ (r := .bneHandlesLost) rfl _)
  exact setBcore s c fun _ h => h

theorem setBneState (s : State) (c x : Nat) : Departs s (s.setBneState c x) := setFld s (r := .bneCoreState c) rfl 2 0 x

theorem vacated (s : State) (n : Nat) (u : JobUnit) : Departs s (s.vacated n u) := by
  unfold State.vacated
  cases u with
  | sc => exact refl s
  | hash k =>
    dsimp only
    refine ite (setHcore s k fun _ _ => rfl) (refl s)
  | bne c f =>
    have hframe (b : BCore) (h : b.leaving = false) : (if f = 0 then { b with f0 := none } else { b with f1 := none } : BCore).leaving = false := by
      split <;> exact h
    dsimp only
    refine ite ?_ (.trans ?_ (releaseFreed _ c))
    · refine .trans (.trans (.trans (.trans ?_ (releaseFreed _ c)) (wipeCore _ c)) (setBneState _ c 3)) (setBcore _ c fun _ _ => rfl)
      exact ite (setBcore s c hframe) (refl s)
    · exact ite (setBcore s c hframe) (refl s)
  | shell sh =>
    dsimp only
    refine ite (ite (refl s) (.trans (eachRetired _ s ?_ ?_) (repairShell _ sh false))) (refl s)
    · exact (nodup_shellTiles s sh).filter _
    · intro t ht
      simpa using (List.mem_filter.1 ht).2

theorem vacateAll (s : State) (x : Job) : Departs s (s.vacateAll x) := each (fun u => vacated u x.slice) s _

theorem dropHandle (s : State) (n h : Nat) : Departs s (s.dropHandle n h) := setBcore s _ fun _ h => h

theorem dropLoad (s : State) (x : Job) : Departs s (s.dropLoad x) := by
  unfold State.dropLoad
  split
  · exact ite (refl s) (setBcore s _ fun _ h => h)
  · exact refl s

theorem showPr (s : State) (k : Nat) : Departs s (s.showPr k) := by
  have hrd (r : Reg) (hr : r ≠ .rngDrbStat k) : (s.showPr k).rd r = s.rd r := (State.rd_store _ _ _ _).trans (if_neg hr.symm)
  have hfld (r : Reg) (hr : r ≠ .rngDrbStat k) (hi lo : Nat) := congrArg (getF · hi lo) (hrd r hr)
  have hbit (r : Reg) (hr : r ≠ .rngDrbStat k) (n : Nat) := congrArg (getB · n) (hrd r hr)
  exact { refl s with
    stat := fun j hi lo _ => hfld (.fabTileStat j) (by simp) hi lo
    statBit := fun j n _ => hbit (.fabTileStat j) (by simp) n
    state := fun j => .inl (hfld (.fabTileStat j) (by simp) 2 0)
    evt := fun n hn => (hbit .fabEvtStatus (by simp) n).trans hn
    dbg := fun j hj => (hbit (.tilDbgStat j) (by simp) 1).trans hj
    drb := fun j hi lo h => by
      by_cases hj : j = k
      · subst hj
        refine (congrArg (getF · hi lo) ((State.rd_store _ _ _ _).trans (if_pos rfl))).trans ?_
        exact getF_setF_ne _ 17 8 hi lo _ (by decide) (by decide) (.inr (by omega))
      · exact hfld (.rngDrbStat j) (by simpa using hj) hi lo
    drbBit := fun j n h => by
      by_cases hj : j = k
      · subst hj
        refine (congrArg (getB · n) ((State.rd_store _ _ _ _).trans (if_pos rfl))).trans ?_
        exact getB_setF _ 17 8 _ n (by decide) (by decide) (.inl (by omega))
      · exact hbit (.rngDrbStat j) (by simpa using hj) n }

theorem dropDemand (s : State) (x : Job) : Departs s (s.dropDemand x) := by
  unfold State.dropDemand
  refine ite ?_ (refl s)
  exact (setRng s (x := { s.rng with prWait := s.rng.prWait.filter (fun e => decide (e.2.1 ≠ some x.id)) }) rfl).trans (showPr _ _)

theorem lostCycles (s : State) (x : Job) : Departs s (s.lostCycles x) := by
  unfold State.lostCycles
  split
  · exact addCycles s (r := .bneCoreBusy _) rfl
  · exact refl s

theorem caughtCycles (s : State) (x : Job) : Departs s (s.caughtCycles x) := by
  unfold State.caughtCycles
  split
  · exact moreCycles s (r := .bneCoreBusy _) rfl _
  · exact refl s

theorem dropCell (s : State) (x : Job) : Departs s (s.dropCell x) := by
  unfold State.dropCell
  split
  · exact setCell s _ _
  · exact refl s

theorem endJob (s : State) (j : Nat) (r : Result) : Departs s (s.endJob j r) := by
  unfold State.endJob
  split
  · exact refl s
  · next x _ =>
    refine ite (refl s) ?_
    dsimp only
    refine .trans ?_ (each (fun u c => releaseFreed u c) _ _)
    refine .trans ?_ (vacateAll _ x)
    refine .trans ?_ (setJob _ j _)
    refine .trans ?_ (dropLoad _ x)
    refine .trans ?_ (dropDemand _ x)
    have hfree : Departs s (if r.commit = Commit.none then (s.freeShells x).dropCell x else s.freeShells x) :=
      ite ((freeShells s x).trans (dropCell _ x)) (freeShells s x)
    exact ite_trans hfree (each (fun u h => dropHandle u x.slice h) _ _)

theorem endHalf (s : State) (j : Nat) (pq : Bool) (r : Result) : Departs s (s.endHalf j pq r) := by
  unfold State.endHalf
  split
  · exact refl s
  · next x _ =>
    dsimp only
    refine ite (refl s) ?_
    refine .trans ?_ (each (fun u => vacated u x.slice) _ _)
    refine .trans ?_ (onlyIf (fun u => dropDemand u x) _ _)
    exact (ite (freeShells s x) (refl s)).trans (setJob _ j _)

theorem abort (s : State) (j : Nat) : Departs s (s.abort j) := (endJob s j _).trans (bump _ (r := .genAbortCnt) rfl 1)

theorem endPart (s : State) (x : Job) (k status : Nat) : Departs s (s.endPart x k status) :=
  ite (endHalf s _ _ _) (ite (abort s _) (endJob s _ _))

theorem dropUncarried (s : State) : Departs s s.dropUncarried := by
  refine each (fun u (j : Job) => each (fun v k => ?_) u _) s _
  split
  · exact endPart v j k _
  · exact refl v

theorem departing {f : State → State} (hf : ∀ u, Departs u (f u)) (s : State) : Departs s (s.departing f) :=
  (hf s).trans (onlyIf dropUncarried _ _)

theorem jobEnds (s : State) (j : Nat) (r : Result) : Departs s (s.jobEnds j r) := departing (fun u => endJob u j r) s

theorem bumpPool_of (h : Departs s t) (p : Option Nat) :
    Departs s (match p with | some p => t.bump (.fabPoolRetry p) | none => t) := by
  cases p with
  | none => exact h
  | some p => exact h.trans (bump t (r := .fabPoolRetry p) rfl 1)

theorem retry (s : State) (j : Nat) (counts : Bool) : Departs s (s.retry j counts) := by
  unfold State.retry
  split
  · exact refl s
  · next x _ =>
    refine ite (refl s) (ite (departing (fun u => abort u j) s) ?_)
    dsimp only
    refine .trans ?_ (onlyIf dropUncarried _ _)
    refine bumpPool_of ?_ x.pool
    refine .trans ?_ (bump _ (r := .genRetryCnt) rfl 1)
    refine .trans ?_ (vacateAll _ x)
    refine .trans ?_ (setJob _ j _)
    exact (((lostCycles s x).trans (freeShells _ x)).trans (dropDemand _ x)).trans (dropLoad _ x)

end Departs
end Sys2Proof.Machine
end

section
/-! PROOFS. The entropy source and the service of the DRBG instances (O51). -/

namespace Sys2Proof.Machine

/-! ### Restarts of the source -/

/-- The registers of the source's state and of its failures. -/
def Reg.ofSource : Reg → Bool
  | .rngStatus | .rngCellStat _ | .rngFailInfo | .rngFailTime | .rngHtFails | .rngEvtStatus => true
  | _ => false

theorem setPassed_rd (s : State) (b : Bool) {r : Reg} (hr : ∀ k, r ≠ .rngCellStat k) : (s.setPassed b).rd r = s.rd r :=
  State.rd_each r (fun s k => s.setBit (.rngCellStat k) 0 b) (fun u k => by rw [State.setBit, State.rd_store, if_neg (hr k).symm]) s (List.range 4)

theorem setPassed_bit (s : State) (b : Bool) {k : Nat} (hk : k < 4) : (s.setPassed b).bit (.rngCellStat k) 0 = b :=
  each_establishes (P := fun u k => u.bit (.rngCellStat k) 0 = b) (f := fun s k => s.setBit (.rngCellStat k) 0 b)
    (fun u k => by simp [State.bit_setBit]) (fun u k k' h => by
      by_cases hk : k' = k
      · subst hk; simp [State.bit_setBit]
      · rw [State.bit, State.setBit, State.rd_store, if_neg (by simpa using hk)]
        exact h) s (List.mem_range.2 hk)

theorem setPassed_rest (s : State) (b : Bool) : ({ s.setPassed b with regs := s.regs, shadow := s.shadow } : State) = s :=
  State.each_keeps (fun u : State => ({ u with regs := s.regs, shadow := s.shadow } : State)) (fun s k => s.setBit (.rngCellStat k) 0 b)
    (fun _ _ => rfl) s (List.range 4)

/-- A restart that begins: SRC_STATE RESTARTING, no cell passed. -/
structure Restarting (s t : State) (k : Nat) : Prop where
  state : t.srcState = 3
  failed : t.failedRestarts = s.failedRestarts
  passed : ∀ c, c < 4 → t.bit (.rngCellStat c) 0 = false
  regs : ∀ r, r ≠ .rngStatus → (∀ c, r ≠ .rngCellStat c) → t.rd r = s.rd r
  rest : ({ t with regs := s.regs, shadow := s.shadow, rng := s.rng } : State) = s
  rng : t.rng = { s.rng with restart := k, tests := [] }

theorem beginRestart_spec (s : State) (k : Nat) : Restarting s (s.beginRestart k) k where
  state := by
    refine (congrArg (getF · 2 0) (setPassed_rd _ false (by simp))).trans ?_
    exact State.fld_setFld _ _ _ _ _ (by decide) (by decide)
  failed := by
    refine (congrArg (getF · 5 4) (setPassed_rd _ false (by simp))).trans ?_
    exact State.fld_setFld_ne s .rngStatus .rngStatus 2 0 5 4 3 (by decide) (by decide) (by decide)
  passed c hc := setPassed_bit (s.setSrc 3) false hc
  regs r hr hc := (setPassed_rd (s.setSrc 3) false hc).trans (by rw [State.setSrc, State.rd_setFld, if_neg hr.symm])
  rest := congrArg (fun x : State => { x with regs := s.regs, shadow := s.shadow, rng := s.rng }) (setPassed_rest (s.setSrc 3) false)
  rng := congrArg (fun x : State => { x.rng with restart := k, tests := [] }) (setPassed_rest (s.setSrc 3) false)

theorem Restarting.jobs {s t : State} {k : Nat} (h : Restarting s t k) : t.jobs = s.jobs := (congrArg State.jobs h.rest :)

/-- A failure recorded: its registers, the event, an empty pool. -/
structure Recorded (s t : State) (cell test : Nat) : Prop where
  info : t.fld .rngFailInfo 3 0 = ((if test = 3 then 0 else cell) + 4 * test) % 16
  time : t.rd .rngFailTime = s.rd .genTime
  fails : t.fld .rngHtFails 31 0 = min (2 ^ 32 - 1) (s.fld .rngHtFails 31 0 + 1)
  event : t.bit .rngEvtStatus 0 = true
  regs : ∀ r, r.ofSource = false ∨ r = .rngStatus → t.rd r = s.rd r
  rest : ({ t with regs := s.regs, shadow := s.shadow, out := s.out, msixPend := s.msixPend, rng := s.rng } : State) = s
  rng : t.rng = { s.rng with pool := [] }

theorem rngEvt_frame (s : State) (i : Nat) : RegsAndMessages [.rngEvtStatus] s (s.rngEvt i) := .event (by simp) s _ _ i

/-- The state in which the failure's event comes. -/
def State.failNoted (s : State) (cell test : Nat) : State :=
  ((((s.setFld .rngFailInfo 3 0 ((if test = 3 then 0 else cell) + 4 * test)).wr .rngFailTime (s.rd .genTime)).bump .rngHtFails).setPool [])

theorem recordFail_eq {s : State} {cell test : Nat} (h : s.srcState = 2 ∨ test = 3) : s.recordFail cell test = (s.failNoted cell test).rngEvt 0 := by
  have htime : (s.setFld .rngFailInfo 3 0 ((if test = 3 then 0 else cell) + 4 * test)).rd .genTime = s.rd .genTime := by simp
  rw [State.recordFail, if_pos h, State.failNoted]
  simp only [htime]

theorem failNoted_recorded (s : State) (cell test : Nat) : Recorded s ((s.failNoted cell test).rngEvt 0) cell test := by
  have hframe := rngEvt_frame (s.failNoted cell test) 0
  have hrd (r : Reg) (hr : r ≠ .rngEvtStatus) : ((s.failNoted cell test).rngEvt 0).rd r = (s.failNoted cell test).rd r := hframe.1 r (by simpa using hr)
  refine ⟨?_, ?_, ?_, State.bit_event _ _ _ _ (by decide), fun r hr => ?_, ?_, ?_⟩
  · rw [State.fld, hrd _ (by simp)]
    change getF ((((s.setFld .rngFailInfo 3 0 _).wr .rngFailTime _).bump .rngHtFails).rd .rngFailInfo) 3 0 = _
    rw [State.rd_bump_ne _ (by simp), State.rd_wr_ne _ _ (by simp), State.rd_setFld, if_pos rfl, getF_setF _ _ _ _ (by decide) (by decide)]
    rfl
  · rw [hrd _ (by simp)]
    change (((s.setFld .rngFailInfo 3 0 _).wr .rngFailTime _).bump .rngHtFails).rd .rngFailTime = _
    rw [State.rd_bump_ne _ (by simp), State.rd_wr, if_pos rfl]
  · rw [State.fld, hrd _ (by simp)]
    refine (State.fld_bump ((s.setFld .rngFailInfo 3 0 ((if test = 3 then 0 else cell) + 4 * test)).wr .rngFailTime (s.rd .genTime)) .rngHtFails 1).trans ?_
    rw [State.fld, State.rd_wr_ne _ _ (by simp), State.rd_setFld, if_neg (by simp)]
    rfl
  · have hne : Reg.rngFailInfo ≠ r ∧ Reg.rngFailTime ≠ r ∧ Reg.rngHtFails ≠ r ∧ r ≠ .rngEvtStatus := by
      rcases hr with hr | rfl
      · refine ⟨?_, ?_, ?_, ?_⟩ <;> (rintro rfl; cases hr)
      · simp
    rw [hrd r hne.2.2.2]
    change (((s.setFld .rngFailInfo 3 0 _).wr .rngFailTime _).bump .rngHtFails).rd r = _
    rw [State.rd_bump_ne _ hne.2.2.1, State.rd_wr_ne _ _ hne.2.1, State.rd_setFld, if_neg hne.1]
  · exact congrArg (fun x : State => { x with regs := s.regs, shadow := s.shadow, out := s.out, msixPend := s.msixPend, rng := s.rng }) hframe.2
  · exact (congrArg State.rng hframe.2 :)

theorem Recorded.jobs {s t : State} {cell test : Nat} (h : Recorded s t cell test) : t.jobs = s.jobs := (congrArg State.jobs h.rest :)
theorem Recorded.srcState {s t : State} {cell test : Nat} (h : Recorded s t cell test) : t.srcState = s.srcState := congrArg (getF · 2 0) (h.regs _ (.inr rfl))
theorem Recorded.failedRestarts {s t : State} {cell test : Nat} (h : Recorded s t cell test) : t.failedRestarts = s.failedRestarts :=
  congrArg (getF · 5 4) (h.regs _ (.inr rfl))

/-- A failure outside RUNNING is recorded as one of the start-up test. -/
theorem recordFail_recorded (s : State) (cell test : Nat) :
    Recorded s (s.recordFail cell test) cell (if s.srcState = 2 ∨ test = 3 then test else 2) := by
  by_cases h : s.srcState = 2 ∨ test = 3
  · rw [if_pos h, recordFail_eq h]
    exact failNoted_recorded s cell test
  · have hstart : s.recordFail cell test = (s.failNoted cell 2).rngEvt 0 := by
      have htime : (s.setFld .rngFailInfo 3 0 ((if (2 : Nat) = 3 then 0 else cell) + 4 * 2)).rd .genTime = s.rd .genTime := by simp
      rw [State.recordFail, if_neg h, State.failNoted]
      simp only [htime]
    rw [if_neg h, hstart]
    exact failNoted_recorded s cell 2

/-! ### Jobs that end while units leave -/

theorem JobsOnly.ids {s t : State} (h : JobsOnly s t) : t.jobs.map (·.id) = s.jobs.map (·.id) := by
  obtain ⟨f, hf, hfollows⟩ := h.jobs
  rw [hf, List.map_map]
  exact List.map_congr_left fun x _ => (hfollows x).id

theorem endPart_job?_ne (s : State) (x : Job) (k status : Nat) {j : Nat} (hj : j ≠ x.id) : (s.endPart x k status).job? j = s.job? j := by
  unfold State.endPart
  split
  · exact endHalf_job?_ne s _ _ hj
  · split
    · exact endJob_job?_ne s _ hj
    · exact endJob_job?_ne s _ hj

/-- A loop whose rounds leave one job leaves it. -/
theorem each_job?_keep {α : Type} {f : State → α → State} {j : Nat} (s : State) (l : List α) (hf : ∀ a ∈ l, ∀ u : State, (f u a).job? j = u.job? j) :
    (s.each l f).job? j = s.job? j := by
  induction l generalizing s with
  | nil => rfl
  | cons a l ih => exact (ih (f s a) fun b hb => hf b (List.mem_cons_of_mem a hb)).trans (hf a List.mem_cons_self s)

/-- A job that waits for no unit is not ended because a pool is gone. -/
theorem dropUncarried_job? {s : State} (hids : (s.jobs.map (·.id)).Nodup) {j : Nat} {y : Job} (hy : s.job? j = some y) (hneeds : y.needs = []) :
    s.dropUncarried.job? j = some y := by
  refine (each_job?_keep s _ fun x hx u => ?_).trans hy
  by_cases hj : j = x.id
  · have hxy : x = y := by
      rw [hj, job?_of_mem hids (List.mem_of_mem_filter hx)] at hy
      exact Option.some.inj hy
    rw [hxy, hneeds]
    rfl
  · refine each_job?_keep u _ fun k _ v => ?_
    split
    · exact endPart_job?_ne v x k _ hj
    · rfl

/-- The end of another job, and of those whose pool went with it, leaves a job that waits for no unit, and any job if no unit goes. -/
theorem jobEnds_job?_ne {s : State} (hids : (s.jobs.map (·.id)).Nodup) {j k : Nat} (r : Result) (hk : k ≠ j) {y : Job} (hy : s.job? k = some y)
    (hstays : y.needs = [] ∨ s.leaving = false) : (s.jobEnds j r).job? k = some y := by
  have hended : (s.endJob j r).job? k = some y := (endJob_job?_ne s r hk).trans hy
  unfold State.jobEnds State.departing
  cases hl : s.leaving with
  | false => exact hended
  | true => exact dropUncarried_job? ((JobsOnly.endJob s j r).ids ▸ hids) hended (hstays.resolve_right (by simp [hl]))

theorem jobEnds_job? {s : State} (hids : (s.jobs.map (·.id)).Nodup) {j : Nat} {x : Job} {r : Result} (hj : s.job? j = some x)
    (hheld : s.holdsBack x r = false) : (s.jobEnds j r).job? j = some (x.ended r) := by
  have hended := endJob_job? hj hheld
  unfold State.jobEnds State.departing
  cases hl : s.leaving with
  | false => exact hended
  | true => exact dropUncarried_job? ((JobsOnly.endJob s j r).ids ▸ hids) hended (by simp [Job.needs, Job.ended])

/-- In a loop that ends jobs one after another, each ends with its result. -/
theorem each_jobEnds_job? {r : Result} {x : Job} : ∀ (l : List Job) (s : State), (s.jobs.map (·.id)).Nodup → (l.map (·.id)).Nodup → x ∈ l →
    s.job? x.id = some x → s.tamper.dip = none → x.needs = [] ∨ s.leaving = false →
    (s.each l (fun s (j : Job) => s.jobEnds j.id r)).job? x.id = some (x.ended r)
  | [], _, _, _, hx, _, _, _ => nomatch hx
  | z :: l, s, hids, hl, hx, hjob, hdip, hstays => by
    have hz := JobsOnly.jobEnds s z.id r
    have hids' := hz.ids ▸ hids
    obtain ⟨hzl, hnodup⟩ := List.nodup_cons.1 (List.map_cons ▸ hl)
    have hne (w : Job) (hw : w ∈ l) : w.id ≠ z.id := fun he => hzl (he ▸ List.mem_map_of_mem (f := (·.id)) hw)
    rcases List.mem_cons.1 hx with rfl | hx
    · have hended := jobEnds_job? hids hjob (by simp [State.holdsBack, hdip] : s.holdsBack x r = false)
      have hrest (l : List Job) (u : State) (hu : (u.jobs.map (·.id)).Nodup) (hw : ∀ w ∈ l, w.id ≠ x.id) (hj : u.job? x.id = some (x.ended r)) :
          (u.each l (fun s (j : Job) => s.jobEnds j.id r)).job? x.id = some (x.ended r) := by
        induction l generalizing u with
        | nil => exact hj
        | cons w l ih =>
          exact ih _ ((JobsOnly.jobEnds u w.id r).ids ▸ hu) (fun v hv => hw v (List.mem_cons_of_mem w hv))
            (jobEnds_job?_ne hu r (hw w List.mem_cons_self).symm hj (.inl (by simp [Job.needs, Job.ended])))
      exact hrest l _ hids' hne hended
    · exact each_jobEnds_job? l _ hids' hnodup hx (jobEnds_job?_ne hids r (hne x hx) hjob hstays) (by rw [hz.tamper]; exact hdip)
        (hstays.imp_right (Departs.jobEnds s z.id r).leaving)

/-! ### The source FAILED -/

theorem uninstantiated_drbState (s : State) (k j : Nat) : ((s.uninstantiate k).showPr k).drbState j = if k = j then 0 else s.drbState j := by
  have hshow : ((s.uninstantiate k).showPr k).drbState j = (s.uninstantiate k).drbState j := (Departs.showPr _ k).drb j 1 0 (by decide)
  have hcount : (s.uninstantiate k).drbState j = (s.setFld (.rngDrbStat k) 2 0 0).drbState j :=
    congrArg (getF · 1 0) ((State.rd_setFld _ _ _ _ _ _).trans (if_neg (by simp)))
  rw [hshow, hcount, State.drbState, State.fld, State.rd_setFld]
  by_cases hkj : k = j
  · subst hkj
    have hzero : getF (setF (s.rd (.rngDrbStat k)) 2 0 0) 2 0 = 0 := getF_setF _ 2 0 0 (by decide) (by decide)
    rw [if_pos rfl, if_pos rfl]
    simp only [getF, Nat.pow_zero, Nat.div_one] at hzero ⊢
    omega
  · rw [if_neg (by simpa using hkj), if_neg hkj]
    rfl

/-- What the loss of every generator leaves: all registers but the generators' own, and everything but the service of draws. -/
theorem uninstantiateAll_keeps (s : State) : (∀ r, (∀ k, r ≠ .rngDrbStat k ∧ r ≠ .rngDrbCount k) → s.uninstantiateAll.rd r = s.rd r) ∧
    ({ s.uninstantiateAll with regs := s.regs, shadow := s.shadow, rng := s.rng } : State) = s := by
  constructor
  · intro r hr
    refine State.rd_each r (fun u k => (u.uninstantiate k).showPr k) (fun u k => ?_) s (List.range 16)
    have hne := hr k
    calc ((u.uninstantiate k).showPr k).rd r = (u.uninstantiate k).rd r := (State.rd_setFld _ _ _ _ _ _).trans (if_neg hne.1.symm)
      _ = (u.setFld (.rngDrbStat k) 2 0 0).rd r := (State.rd_setFld _ _ _ _ _ _).trans (if_neg hne.2.symm)
      _ = u.rd r := (State.rd_setFld _ _ _ _ _ _).trans (if_neg hne.1.symm)
  · exact State.each_keeps (fun u : State => ({ u with regs := s.regs, shadow := s.shadow, rng := s.rng } : State))
      (fun u k => (u.uninstantiate k).showPr k) (fun _ _ => rfl) s (List.range 16)

theorem uninstantiateAll_drbState (s : State) {k : Nat} (hk : k < 16) : s.uninstantiateAll.drbState k = 0 :=
  each_establishes (P := fun u k => u.drbState k = 0) (fun u a => by rw [uninstantiated_drbState, if_pos rfl])
    (fun u a b h => by rw [uninstantiated_drbState]; split <;> [rfl; exact h]) s (List.mem_range.2 hk)

/-- The failure of the source in the event log. -/
def State.failureNoted (s : State) : State := s.logEvent 3 0xFF 0 0 (s.fld .rngFailInfo 31 0)

/-- No restart is under way, nor has one just ended. -/
def State.restartOver (s : State) : State := { s with rng := { s.rng with restart := 0, recent := false } }

theorem restartOver_rd (s : State) (r : Reg) : s.restartOver.rd r = s.rd r := rfl

theorem failureNoted_rd (s : State) {r : Reg} (hr : r.inLog = false) : s.failureNoted.restartOver.rd r = s.rd r :=
  (restartOver_rd _ r).trans (logEvent_rd s _ _ _ _ _ hr)

theorem failureNoted_keeps (s : State) : s.failureNoted.restartOver.jobs = s.jobs ∧ s.failureNoted.restartOver.tamper = s.tamper ∧
    s.failureNoted.restartOver.leaving = s.leaving := ⟨rfl, rfl, rfl⟩

/-- The source is FAILED and its instances are lost; the jobs that wait for draws have still to end. -/
def State.sourceLost (s : State) : State :=
  ((((s.setSrc 4).uninstantiateAll).rngEvt 2).rngEvt 5).failureNoted.restartOver

/-- The jobs that wait for a draw. -/
def State.awaitingDraws (s : State) : List Job := s.jobs.filter (fun j => (j.drawWait || j.pqWait) && decide (j.phase ≠ .sealed))

theorem sourceFailed_eq (s : State) : s.sourceFailed = s.sourceLost.each s.sourceLost.awaitingDraws (fun s j => s.jobEnds j.id (.fail 0x30 0)) := rfl

/-- A further event leaves an event's bit. -/
theorem State.bit_event_of_bit {s : State} {stat : Reg} {j : Nat} (h : s.bit stat j = true) (en vec : Reg) {i : Nat} (hi : i < 64) :
    (s.event stat en vec i).bit stat j = true := by
  have hset : (s.setBit stat i true).bit stat j = true := by simp [State.bit_setBit _ _ _ _ _ hi, h]
  unfold State.event
  dsimp only
  split
  · exact (congrArg (getB · j) (sendMsix_rd _ _ _)).trans hset
  · exact hset

/-- What the loss of the source says: FAILED, no generator, both events. -/
structure SourceLost (s t : State) : Prop where
  state : t.srcState = 4
  failed : t.failedRestarts = s.failedRestarts
  drb : ∀ k, k < 16 → t.drbState k = 0
  lost : t.bit .rngEvtStatus 2 = true
  down : t.bit .rngEvtStatus 5 = true

theorem SourceLost.of_jobs {s t u : State} (h : SourceLost s t) (hj : JobsOnly t u) (hd : Departs t u) : SourceLost s u where
  state := (congrArg (getF · 2 0) (hj.regs .rngStatus rfl)).trans h.state
  failed := (congrArg (getF · 5 4) (hj.regs .rngStatus rfl)).trans h.failed
  drb k hk := (hd.drb k 1 0 (by decide)).trans (h.drb k hk)
  lost := (congrArg (getB · 2) (hj.regs .rngEvtStatus rfl)).trans h.lost
  down := (congrArg (getB · 5) (hj.regs .rngEvtStatus rfl)).trans h.down

theorem sourceLost_spec (s : State) : SourceLost s s.sourceLost ∧ s.sourceLost.jobs = s.jobs ∧ s.sourceLost.tamper = s.tamper ∧
    s.sourceLost.leaving = s.leaving := by
  obtain ⟨hregs, hrest⟩ := uninstantiateAll_keeps (s.setSrc 4)
  have hlost := rngEvt_frame (s.setSrc 4).uninstantiateAll 2
  have hdown := rngEvt_frame ((s.setSrc 4).uninstantiateAll.rngEvt 2) 5
  have hlog (r : Reg) (hr : r.inLog = false) : s.sourceLost.rd r = (((s.setSrc 4).uninstantiateAll.rngEvt 2).rngEvt 5).rd r :=
    failureNoted_rd _ hr
  have hsource (r : Reg) (hr : r.inLog = false) (hevt : r ≠ .rngEvtStatus) : s.sourceLost.rd r = (s.setSrc 4).uninstantiateAll.rd r := by
    rw [hlog r hr, hdown.1 r (by simpa using hevt), hlost.1 r (by simpa using hevt)]
  have hstatus : s.sourceLost.rd .rngStatus = (s.setSrc 4).rd .rngStatus := (hsource _ rfl (by simp)).trans (hregs _ (by simp))
  obtain ⟨hjobs, htamper, hleaving⟩ := failureNoted_keeps (((s.setSrc 4).uninstantiateAll.rngEvt 2).rngEvt 5)
  have hkeeps {α : Type} (f : State → α) (hevt : ∀ v i, f (v.rngEvt i) = f v) (hall : f (s.setSrc 4).uninstantiateAll = f s) :
      f (((s.setSrc 4).uninstantiateAll.rngEvt 2).rngEvt 5) = f s := (hevt _ 5).trans ((hevt _ 2).trans hall)
  refine ⟨⟨?_, ?_, fun k hk => ?_, ?_, ?_⟩, hjobs.trans (hkeeps State.jobs (fun v i => (congrArg State.jobs (rngEvt_frame v i).2 :)) (congrArg State.jobs hrest :)),
    htamper.trans (hkeeps State.tamper (fun v i => (congrArg State.tamper (rngEvt_frame v i).2 :)) (congrArg State.tamper hrest :)),
    hleaving.trans (hkeeps State.leaving (fun v i => (congrArg State.leaving (rngEvt_frame v i).2 :)) (congrArg State.leaving hrest :))⟩
  · exact (congrArg (getF · 2 0) hstatus).trans (State.fld_setFld _ _ _ _ _ (by decide) (by decide))
  · exact (congrArg (getF · 5 4) hstatus).trans (State.fld_setFld_ne s .rngStatus .rngStatus 2 0 5 4 4 (by decide) (by decide) (by decide))
  · exact (congrArg (getF · 1 0) (hsource (.rngDrbStat k) rfl (by simp))).trans (uninstantiateAll_drbState _ hk)
  · rw [State.bit, hlog _ rfl]
    exact State.bit_event_of_bit (State.bit_event _ _ _ _ (by decide)) _ _ (by decide)
  · rw [State.bit, hlog _ rfl]
    exact State.bit_event _ _ _ _ (by decide)

/-! ### A failed health test -/

theorem healthFail_restarts {s : State} (h : s.srcState = 2 ∧ s.rng.recent = false) (cell test : Nat) :
    s.healthFail cell test = (s.recordFail cell test).beginRestart 1 := by simp only [State.healthFail, h.1, h.2, Bool.false_eq_true, if_false]

theorem healthFail_counts {s : State} (h : s.srcState = 3 ∧ s.rng.restart ≠ 4 ∨ s.srcState = 2 ∧ s.rng.recent = true) (cell test : Nat) :
    s.healthFail cell test = (s.recordFail cell test).countFail := by
  rcases h with ⟨h, hr⟩ | ⟨h, hr⟩
  · simp only [State.healthFail, h, if_neg hr]
  · simp only [State.healthFail, h, hr, if_true]

theorem healthFail_off {s : State} (h : s.srcState = 0 ∨ s.srcState = 4) (cell test : Nat) : s.healthFail cell test = s := by
  rcases h with h | h <;> simp only [State.healthFail, h]

/-- A failed restart, counted. -/
def State.failCounted (s : State) : State := s.setFld .rngStatus 5 4 (s.failedRestarts + 1)

theorem countFail_restarts {s : State} (h : s.failedRestarts < 2) : s.countFail = s.failCounted.beginRestart (s.failedRestarts + 2) := by
  unfold State.countFail State.failCounted
  exact if_neg (by omega)

theorem countFail_fails {s : State} (h : s.failedRestarts = 2) : s.countFail = s.failCounted.sourceFailed := by
  unfold State.countFail State.failCounted
  exact if_pos (by omega)

theorem failCounted_failedRestarts {s : State} (h : s.failedRestarts ≤ 2) : s.failCounted.failedRestarts = s.failedRestarts + 1 := by
  refine (State.fld_setFld s .rngStatus 5 4 _ (by decide) (by decide)).trans (Nat.mod_eq_of_lt ?_)
  omega

/-- A failure in RUNNING, no restart just ended: recorded, and a restart begins. -/
theorem healthFail_running {s : State} (h : s.srcState = 2) (hrecent : s.rng.recent = false) {cell test : Nat} (hcell : cell < 4) (htest : test < 4) :
    ∃ t, exec (.healthTestFailure cell test) s = .next t ∧ t.srcState = 3 ∧
      t.fld .rngFailInfo 3 0 = (if test = 3 then 0 else cell) + 4 * test ∧ t.rd .rngFailTime = s.rd .genTime ∧ t.poolBytes = 0 ∧
      t.fld .rngHtFails 31 0 = min (2 ^ 32 - 1) (s.fld .rngHtFails 31 0 + 1) ∧ t.bit .rngEvtStatus 0 = true ∧ t.rng.restart = 1 ∧
      t.jobs = s.jobs := by
  have hr := recordFail_recorded s cell test
  rw [if_pos (.inl h)] at hr
  have hb := beginRestart_spec (s.recordFail cell test) 1
  refine ⟨_, congrArg Host.Outcome.next (healthFail_restarts ⟨h, hrecent⟩ cell test), hb.state, ?_, (hb.regs _ (by simp) (by simp)).trans hr.time, ?_,
    ?_, ?_, by rw [hb.rng], hb.jobs.trans hr.jobs⟩
  · rw [State.fld, hb.regs _ (by simp) (by simp)]
    refine hr.info.trans (Nat.mod_eq_of_lt ?_)
    split <;> omega
  · rw [State.poolBytes, hb.rng, hr.rng]
    rfl
  · exact (congrArg (getF · 31 0) (hb.regs _ (by simp) (by simp))).trans hr.fails
  · exact (congrArg (getB · 0) (hb.regs _ (by simp) (by simp))).trans hr.event

/-- A failure of a restart, not the third: counted, and the next begins. -/
theorem healthFail_again {s : State} (h : s.srcState = 3 ∧ s.rng.restart ≠ 4 ∨ s.srcState = 2 ∧ s.rng.recent = true) (hfew : s.failedRestarts < 2)
    (cell test : Nat) : ∃ t, exec (.healthTestFailure cell test) s = .next t ∧ t.srcState = 3 ∧
      t.failedRestarts = s.failedRestarts + 1 ∧ t.poolBytes = 0 ∧ t.jobs = s.jobs := by
  have hr := recordFail_recorded s cell test
  have hfew' : (s.recordFail cell test).failedRestarts < 2 := by rwa [hr.failedRestarts]
  have hb := beginRestart_spec (s.recordFail cell test).failCounted ((s.recordFail cell test).failedRestarts + 2)
  refine ⟨_, congrArg Host.Outcome.next ((healthFail_counts h cell test).trans (countFail_restarts hfew')), hb.state, ?_, ?_, hb.jobs.trans hr.jobs⟩
  · rw [hb.failed, failCounted_failedRestarts (by omega), hr.failedRestarts]
  · rw [State.poolBytes, hb.rng]
    exact congrArg (fun x : Rng => x.pool.length) hr.rng

/-- The third failed restart: the source is FAILED, and the jobs that wait for draws end. -/
theorem healthFail_third {s : State} (h : s.srcState = 3 ∧ s.rng.restart ≠ 4 ∨ s.srcState = 2 ∧ s.rng.recent = true) (htwo : s.failedRestarts = 2)
    (hdip : s.tamper.dip = none) (cell test : Nat) : ∃ t, exec (.healthTestFailure cell test) s = .next t ∧ t.srcState = 4 ∧ t.failedRestarts = 3 ∧
      (∀ k, k < 16 → t.drbState k = 0) ∧ t.bit .rngEvtStatus 2 = true ∧ t.bit .rngEvtStatus 5 = true ∧
      ((s.jobs.map (·.id)).Nodup → ∀ x ∈ s.jobs, x.drawWait = true ∨ x.pqWait = true → x.phase ≠ .sealed →
        x.needs = [] ∨ s.leaving = false → ∃ y, t.job? x.id = some y ∧ y.phase = .sealed ∧ y.result = some (.fail 0x30 0)) := by
  have hr := recordFail_recorded s cell test
  have htwo' : (s.recordFail cell test).failedRestarts = 2 := hr.failedRestarts.trans htwo
  generalize hu : (s.recordFail cell test).failCounted = u
  have hcount : u.failedRestarts = 3 := by
    rw [← hu, failCounted_failedRestarts (by omega), htwo']
  have hujobs : u.jobs = s.jobs := by rw [← hu]; exact hr.jobs
  have hudip : u.tamper.dip = none := by
    rw [← hu]
    exact (congrArg (fun v : State => v.tamper.dip) hr.rest).trans hdip
  have huleaving : u.leaving = s.leaving := by
    rw [← hu]
    exact (congrArg State.leaving hr.rest :)
  obtain ⟨hlost, hjobs, htamper, hleaving⟩ := sourceLost_spec u
  have hended := hlost.of_jobs (JobsOnly.each (fun v (j : Job) => .jobEnds v j.id _) u.sourceLost u.sourceLost.awaitingDraws)
    (Departs.each (fun v (j : Job) => .jobEnds v j.id (.fail 0x30 0)) u.sourceLost u.sourceLost.awaitingDraws)
  refine ⟨_, congrArg Host.Outcome.next ((healthFail_counts h cell test).trans ((countFail_fails htwo').trans
      ((congrArg State.sourceFailed hu).trans (sourceFailed_eq u)))), hended.state, hended.failed.trans hcount, hended.drb, hended.lost, hended.down, ?_⟩
  intro hids x hx hwaits hphase hstays
  have hljobs : u.sourceLost.jobs = s.jobs := hjobs.trans hujobs
  have hids' : (u.sourceLost.jobs.map (·.id)).Nodup := by rwa [hljobs]
  have hx' : x ∈ u.sourceLost.jobs := by rwa [hljobs]
  have hxl : x ∈ u.sourceLost.awaitingDraws := List.mem_filter.2 ⟨hx', by simpa [hphase] using hwaits⟩
  exact ⟨_, each_jobEnds_job? _ _ hids' (hids'.sublist (List.filter_sublist.map _)) hxl (job?_of_mem hids' hx') (by rw [htamper]; exact hudip)
    (hstays.imp_right fun h => by rw [hleaving, huleaving]; exact h), rfl, rfl⟩

/-! ### Restarts that end, and commanded ones -/

/-- The source RUNNING, before the event of a restart's end. -/
def State.running (s : State) : State :=
  let t := (s.setSrc 2).setPassed true
  { t with rng := { t.rng with restart := 0, recent := (s.srcState == 3) && (t.rng.recent || decide (t.rng.restart ≠ 4)) } }

theorem sourceRuns_eq (s : State) : s.sourceRuns = s.running.onlyIf (s.srcState == 3) (·.rngEvt 1) := rfl

theorem running_spec (s : State) : s.running.srcState = 2 ∧ (∀ k, k < 4 → s.running.bit (.rngCellStat k) 0 = true) ∧ s.running.jobs = s.jobs := by
  refine ⟨?_, fun k hk => setPassed_bit (s.setSrc 2) true hk, (congrArg State.jobs (setPassed_rest (s.setSrc 2) true) :)⟩
  exact (congrArg (getF · 2 0) (setPassed_rd (s.setSrc 2) true (by simp))).trans (State.fld_setFld _ _ _ _ _ (by decide) (by decide))

theorem restartEnd_passed {s : State} (h : s.srcState = 1 ∨ s.srcState = 3) : ∃ t, exec (.sourceRestartEnd none) s = .next t ∧ t.srcState = 2 ∧
    (∀ k, k < 4 → t.bit (.rngCellStat k) 0 = true) ∧ (s.srcState = 3 → t.bit .rngEvtStatus 1 = true) ∧ t.jobs = s.jobs := by
  have hexec : exec (.sourceRestartEnd none) s = .next s.sourceRuns := by
    change execSourceRestartEnd none s [] = _
    unfold execSourceRestartEnd
    rw [if_neg (by omega)]
    rfl
  obtain ⟨hstate, hpassed, hjobs⟩ := running_spec s
  rcases h with h | h
  · refine ⟨s.running, hexec.trans (congrArg _ ?_), hstate, hpassed, fun h3 => by omega, hjobs⟩
    rw [sourceRuns_eq, h]
    rfl
  · have hframe := rngEvt_frame s.running 1
    refine ⟨s.running.rngEvt 1, hexec.trans (congrArg _ ?_), ?_, fun k hk => ?_, fun _ => State.bit_event _ _ _ _ (by decide), ?_⟩
    · rw [sourceRuns_eq, h]
      rfl
    · exact (congrArg (getF · 2 0) (hframe.1 .rngStatus (by simp))).trans hstate
    · exact (congrArg (getB · 0) (hframe.1 (.rngCellStat k) (by simp))).trans (hpassed k hk)
    · exact (congrArg State.jobs hframe.2 :).trans hjobs

theorem restartEnd_failed {s : State} (h : s.srcState = 1 ∨ s.srcState = 3) (cell test : Nat) :
    exec (.sourceRestartEnd (some (cell, test))) s = exec (.healthTestFailure cell test) s := by
  change execSourceRestartEnd (some (cell, test)) s [] = _
  unfold execSourceRestartEnd
  rw [if_neg (by omega)]
  rfl

theorem restartCountClear_spec {s : State} (h : s.srcState = 2) :
    ∃ t, exec .restartCountClear s = .next t ∧ t.failedRestarts = 0 ∧ t.rng.recent = false ∧ t.srcState = 2 ∧ t.jobs = s.jobs := by
  have hset := State.fld_setFld { s with rng := { s.rng with recent := false } } .rngStatus 5 4 0 (by decide) (by decide)
  have hstate := State.fld_setFld_ne { s with rng := { s.rng with recent := false } } .rngStatus .rngStatus 5 4 2 0 0 (by decide) (by decide) (by decide)
  exact ⟨_, if_pos h, hset, rfl, hstate.trans h, rfl⟩

theorem rearm_failed {s : State} (hshown : s.hidden .rngCtrl = false) (h : s.srcState = 4) :
    ∃ t, exec .rngRearm s = .next t ∧ t.srcState = 3 ∧ t.failedRestarts = 0 ∧ t.jobs = s.jobs := by
  have hb := beginRestart_spec (s.setFld .rngStatus 5 4 0) 1
  refine ⟨(s.setFld .rngStatus 5 4 0).beginRestart 1, ?_, hb.state, hb.failed.trans (State.fld_setFld _ _ _ _ _ (by decide) (by decide)), hb.jobs⟩
  change execRngRearm s = _
  rw [execRngRearm, State.hostTo, hshown, if_neg Bool.false_ne_true, State.rearm, if_pos h]

theorem rearm_other {s : State} (h : s.srcState ≠ 4) : exec .rngRearm s = .next s := by
  change execRngRearm s = _
  rw [execRngRearm, State.hostTo, State.rearm, if_neg h, ite_self]

theorem commandRestart_begins {s : State} (hshown : s.hidden .rngCtrl = false) (h : s.srcState = 1 ∨ s.srcState = 2) :
    ∃ t, exec .rngRestart s = .next t ∧ t.srcState = 3 ∧ t.rng.restart = 4 ∧
      (∀ k, k < 4 → t.bit (.rngCellStat k) 0 = false) ∧ t.poolBytes = s.poolBytes ∧ t.jobs = s.jobs := by
  have hb := beginRestart_spec s 4
  refine ⟨s.beginRestart 4, ?_, hb.state, by rw [hb.rng], hb.passed, by rw [State.poolBytes, hb.rng, State.poolBytes], hb.jobs⟩
  change execRngRestart s = _
  rw [execRngRestart, State.hostTo, hshown, if_neg Bool.false_ne_true, State.commandRestart, if_pos h]

theorem commandRestart_other {s : State} (h1 : s.srcState ≠ 1) (h2 : s.srcState ≠ 2) : exec .rngRestart s = .next s := by
  change execRngRestart s = _
  rw [execRngRestart, State.hostTo, State.commandRestart, if_neg (not_or.2 ⟨h1, h2⟩), ite_self]

/-! ### Conditioned blocks -/

/-- From `s` to `t` samples are noted in the registers of the cells and in their tests. -/
structure Noted (s t : State) : Prop where
  regs : ∀ r, (∀ k, r ≠ .rngCellStat k ∧ r ≠ .rngCellRctMax k ∧ r ≠ .rngCellAptMax k ∧ r ≠ .rngCellSamples k) → t.rd r = s.rd r
  rest : ({ t with regs := s.regs, shadow := s.shadow, rng := s.rng } : State) = s
  pool : t.rng.pool = s.rng.pool

theorem Noted.refl (s : State) : Noted s s := ⟨fun _ _ => rfl, rfl, rfl⟩

theorem Noted.trans {s t u : State} (h : Noted s t) (h' : Noted t u) : Noted s u :=
  ⟨fun r hr => (h'.regs r hr).trans (h.regs r hr),
    (congrArg (fun x : State => { x with regs := s.regs, shadow := s.shadow, rng := s.rng }) h'.rest).trans h.rest, h'.pool.trans h.pool⟩

/-- The latest completed window of a cell, shown. -/
def State.showWindow (s : State) (k : Nat) (x : CellTest) : State := match x.aptLast with
  | some c => s.setFld (.rngCellStat k) 18 8 c
  | none => s

theorem Noted.store (s : State) {r : Reg} (k : Nat) (f : DWord → DWord)
    (hr : r = .rngCellStat k ∨ r = .rngCellRctMax k ∨ r = .rngCellAptMax k ∨ r = .rngCellSamples k) : Noted s (s.store r f) :=
  ⟨fun r' h => by
    have hne : r ≠ r' := by
      have h := h k
      rintro rfl
      rcases hr with hr | hr | hr | hr <;> simp [hr] at h
    rw [State.rd_store, if_neg hne], rfl, rfl⟩

theorem noteCell_noted (s : State) (k n : Nat) (x : CellTest) : Noted s (s.noteCell k n x) := by
  have htests (u : State) (l : List (Nat × CellTest)) : Noted u { u with rng := { u.rng with tests := l } } := ⟨fun _ _ => rfl, rfl, rfl⟩
  unfold State.noteCell
  dsimp only
  refine .trans ?_ (htests _ _)
  refine .trans ?_ (.store _ (r := .rngCellSamples k) k _ (by simp))
  refine .trans ?_ (.store _ (r := .rngCellAptMax k) k _ (by simp))
  refine .trans ?_ (.store _ (r := .rngCellRctMax k) k _ (by simp))
  split
  · exact .store s k _ (.inl rfl)
  · exact .refl s

theorem takeSamples_noted (s : State) (cellOf : Nat → Nat) (bits : List Bool) : Noted s (s.takeSamples cellOf bits).2 := by
  have hloop (l : List Nat) (u : State) (g : Nat → Nat) (c : Nat → CellTest) : Noted u (u.each l (fun s k => s.noteCell k (g k) (c k))) := by
    induction l generalizing u with
    | nil => exact .refl u
    | cons k l ih => exact (noteCell_noted u k _ _).trans (ih _)
  exact hloop _ _ _ _

theorem conditionedBlock_passed {s u : State} {bs : Bytes} (h : s.srcState = 2) (hdip : s.bit .genState 4 = false)
    (hu : s.takeSamples (· % 4) (bitsOf bs) = (none, u)) : ∃ t, exec (.conditionedBlock bs) s = .next t ∧
      t.rng.pool = (if 512 < s.poolBytes + 32 then s.rng.pool else s.rng.pool ++ sha3 32 bs) ∧ t.srcState = 2 ∧ t.jobs = s.jobs ∧ t.slots = s.slots := by
  have hn : Noted s u := by simpa only [hu] using takeSamples_noted s (· % 4) (bitsOf bs)
  have hstate : u.srcState = 2 := (congrArg (getF · 2 0) (hn.regs .rngStatus (by simp))).trans h
  have hpool : u.poolBytes = s.poolBytes := congrArg List.length hn.pool
  refine ⟨if 512 < u.poolBytes + 32 then u else u.setPool (u.rng.pool ++ sha3 32 bs), ?_, ?_, ?_, ?_, ?_⟩
  · change execConditionedBlock s bs = _
    unfold execConditionedBlock
    rw [if_pos ⟨h, by simp [hdip]⟩, hu]
  · rw [hpool]
    split
    · exact hn.pool
    · rw [← hn.pool]
      rfl
  · split <;> exact hstate
  · split <;> exact (congrArg State.jobs hn.rest :)
  · split <;> exact (congrArg State.slots hn.rest :)

theorem conditionedBlock_failed {s u : State} {bs : Bytes} {cell test : Nat} (h : s.srcState = 2) (hdip : s.bit .genState 4 = false)
    (hu : s.takeSamples (· % 4) (bitsOf bs) = (some (cell, test), u)) : exec (.conditionedBlock bs) s = exec (.healthTestFailure cell test) u := by
  change execConditionedBlock s bs = execHealthTestFailure cell test u
  unfold execConditionedBlock
  rw [if_pos ⟨h, by simp [hdip]⟩, hu]
  rfl

theorem conditionedBlock_off {s : State} (h : s.srcState ≠ 2 ∨ s.bit .genState 4 = true) (bs : Bytes) : exec (.conditionedBlock bs) s = .next s :=
  if_neg fun ⟨h2, hdip⟩ => h.elim (fun h => h h2) fun h => by simp [h] at hdip

/-! ### The tests of a cell -/

/-- The 76th equal sample fails the repetition count. -/
theorem CellTest.take_run {x : CellTest} {b : Bool} (hlast : x.last = some b) (hrun : x.run = 75) : (x.take b).fails = some 0 := by
  have h : (x.take b).run = 76 := by
    unfold CellTest.take
    dsimp only
    rw [if_pos hlast, hrun]
    split <;> rfl
  rw [CellTest.fails, h]
  rfl

/-- The 861st sample of a window equal to its first fails the adaptive proportion. -/
theorem CellTest.take_count {x : CellTest} {b : Bool} (hlast : x.last = some !b) (hfirst : x.first = b) (hcount : x.count = 860) (hpos : 0 < x.pos) :
    (x.take b).fails = some 1 := by
  have h : (x.take b).run = 1 ∧ (x.take b).count = 861 := by
    have hne : x.last ≠ some b := by rw [hlast]; cases b <;> decide
    unfold CellTest.take
    dsimp only
    simp only [if_neg hne, if_neg (Nat.ne_of_gt hpos), if_pos hfirst.symm, hcount]
    split <;> exact ⟨rfl, rfl⟩
  rw [CellTest.fails, h.1, h.2]
  rfl

/-! ### The pool and the instances while tiles are tested -/

/-- From `s` to `t` the instances keep their states, and the pool its bytes. -/
structure Feeds (s t : State) : Prop where
  drb : ∀ k, t.drbState k = s.drbState k
  pool : t.rng.pool = s.rng.pool

namespace Feeds
variable {s t u : State}

theorem refl (s : State) : Feeds s s := ⟨fun _ => rfl, rfl⟩
theorem trans (h : Feeds s t) (h' : Feeds t u) : Feeds s u := ⟨fun k => (h'.drb k).trans (h.drb k), h'.pool.trans h.pool⟩
theorem of_departs (h : Departs s t) : Feeds s t := ⟨fun k => h.drb k 1 0 (by decide), h.pool⟩

theorem each {α : Type} {f : State → α → State} (hf : ∀ u a, Feeds u (f u a)) (s : State) (l : List α) : Feeds s (s.each l f) := by
  induction l generalizing s with
  | nil => exact refl s
  | cons a l ih => exact (hf s a).trans (ih (f s a))

theorem ite {c : Prop} [Decidable c] (h : Feeds s t) (h' : Feeds s u) : Feeds s (if c then t else u) := by
  split
  · exact h
  · exact h'

theorem ite_trans {c : Prop} [Decidable c] (h : Feeds s t) (h' : Feeds t u) : Feeds s (if c then u else t) := ite (h.trans h') h

theorem onlyIf {f : State → State} (hf : ∀ u, Feeds u (f u)) (s : State) (c : Bool) : Feeds s (s.onlyIf c f) := by
  cases c
  · exact refl s
  · exact hf s

theorem store (s : State) {r : Reg} (hr : ∀ k, r ≠ .rngDrbStat k) (f : DWord → DWord) : Feeds s (s.store r f) :=
  ⟨fun k => congrArg (getF · 1 0) ((State.rd_store _ _ _ _).trans (if_neg (hr k))), rfl⟩

theorem setFld (s : State) {r : Reg} (hr : ∀ k, r ≠ .rngDrbStat k) (hi lo x : Nat) : Feeds s (s.setFld r hi lo x) := store s hr _
theorem setBit (s : State) {r : Reg} (hr : ∀ k, r ≠ .rngDrbStat k) (i : Nat) (b : Bool) : Feeds s (s.setBit r i b) := store s hr _
theorem wr (s : State) {r : Reg} (hr : ∀ k, r ≠ .rngDrbStat k) (v : DWord) : Feeds s (s.wr r v) := store s hr _

theorem setTile (s : State) (t : Nat) (f : Tile → Tile) : Feeds s (s.setTile t f) := ⟨fun _ => rfl, rfl⟩

theorem fabEvt (s : State) {i : Nat} (hi : i < 64) : Feeds s (s.fabEvt i) := of_departs (.fabEvt s hi)

theorem dropUncarried (s : State) : Feeds s s.dropUncarried := of_departs (.dropUncarried s)

theorem rngEvt (s : State) (i : Nat) : Feeds s (s.rngEvt i) := of_departs (.event s (stat := .rngEvtStatus) rfl _ _ i)

theorem setDrbg (s : State) (k : Nat) (x : DrbgState) : Feeds s (s.setDrbg k x) := ⟨fun _ => rfl, rfl⟩

/-- The overdue bit of a generator. -/
theorem setOverdue (s : State) (k : Nat) (b : Bool) : Feeds s (s.setBit (.rngDrbStat k) 2 b) where
  drb j := by
    rw [State.drbState, State.fld, State.setBit, State.rd_store]
    by_cases hkj : k = j
    · subst hkj
      rw [if_pos rfl, getF_setB _ _ _ _ _ (by decide) (.inr (by decide))]
      rfl
    · rw [if_neg (by simpa using hkj)]
      rfl
  pool := rfl

theorem request {k n : Nat} {bs : Bytes} {b : Bool} (h : s.request k n = .got bs b t) : Feeds s t := by
  unfold State.request at h
  split at h
  · cases h
  · dsimp only at h
    split at h
    · cases h
    · cases h
      refine .trans ?_ (setDrbg _ k _)
      refine .trans ?_ (onlyIf (fun u => rngEvt u 3) _ _)
      refine .trans ?_ (setOverdue _ k _)
      refine .trans ?_ (wr _ (r := .rngDrbReqs k) (by simp) _)
      exact (setFld s (r := .rngDrbCount k) (by simp) 20 0 _).trans (setFld _ (r := .rngDrbMaxcount k) (by simp) 20 0 _)

theorem seedTile {k : Nat} {bs : Bytes} {b : Bool} (h : s.seedTile k = .got bs b t) : Feeds s t := by
  unfold State.seedTile at h
  split at h
  · next hreq =>
    cases h
    refine (request hreq).trans ?_
    refine .trans ?_ (setBit _ (r := .fabTileStat k) (by simp) 26 false)
    exact ⟨fun _ => rfl, rfl⟩
  · cases h
  · cases h

theorem loadPatch (s : State) (t : Nat) : Feeds s (s.loadPatch t) := setTile s t _

theorem loadShellKernels (s : State) (t : Nat) : Feeds s (s.loadShellKernels t) := by
  have hload (u : State) (p : Nat) : Feeds u (u.loadKernels t p) := by
    unfold State.loadKernels
    split
    · exact refl u
    · exact (wr u (r := .tilKernel t) (by simp) _).trans (setTile _ t _)
  unfold State.loadShellKernels
  split
  · exact hload s _
  · exact refl s

theorem setTileState (s : State) (t x : Nat) : Feeds s (s.setTileState t x) := setFld s (r := .fabTileStat t) (by simp) 2 0 x

theorem restroke (s : State) (sh : Nat) : Feeds s (s.restroke sh) := of_departs (.restroke s sh)

theorem leaveShell (s : State) (t x : Nat) : Feeds s (s.leaveShell t x) := by
  have hout (u : State) : Feeds u (((u.setTileState t x).setFld (.fabTileStat t) 14 8 0x7F).setBit (.fabTileStat t) 15 false) :=
    ((setTileState u t x).trans (setFld _ (by simp) 14 8 0x7F)).trans (setBit _ (by simp) 15 false)
  unfold State.leaveShell
  cases s.shellOf t with
  | none => exact hout s
  | some sh => exact ((setBit s (r := .fabShellMap sh) (by simp) _ false).trans (hout _)).trans (restroke _ sh)

theorem joinShell (s : State) (t sh : Nat) : Feeds s (s.joinShell t sh) := by
  unfold State.joinShell
  dsimp only
  refine .trans ?_ (restroke _ sh)
  refine .trans ?_ (setTile _ t _)
  refine .trans ?_ (setFld _ (r := .fabTileStat t) (by simp) 14 8 sh)
  refine .trans ?_ (setTileState _ t 1)
  exact (ite (setFld s (r := .fabShellMap sh) (by simp) 14 12 _) (refl s)).trans (setBit _ (r := .fabShellMap sh) (by simp) _ true)

theorem placeTile (s : State) (t : Nat) : Feeds s (s.placeTile t) := by
  unfold State.placeTile
  split
  · exact ite_trans (joinShell s t _) (of_departs (.setShellState _ _ _))
  · exact leaveShell s t 2

theorem placed (s : State) (t : Nat) : Feeds s ((s.placeTile t).loadShellKernels t) := (placeTile s t).trans (loadShellKernels _ t)

theorem toRole (s : State) (t back : Nat) : Feeds s (s.toRole t back) := by
  unfold State.toRole
  split
  · exact (setTileState s t 1).trans (loadShellKernels _ t)
  · exact setTileState s t 0
  · exact setTileState s t 2
  · exact setTileState s t 4
  · exact placed s t

theorem repairShell (s : State) (sh : Nat) (mc : Bool) : Feeds s (s.repairShell sh mc) := of_departs (.repairShell s sh mc)

theorem afterLoss (s : State) (sh : Option Nat) (mc : Bool) : Feeds s (s.afterLoss sh mc) := by
  unfold State.afterLoss
  split
  · exact refl s
  · exact ite (refl s) (repairShell s _ mc)

theorem logOutcome (s : State) (t e now x : Nat) : Feeds s (s.logOutcome t e now x) :=
  ite (setFld s (r := .fabMclogInfo e) (by simp) _ _ _) (refl s)

theorem gateIsland (s : State) (n : Nat) : Feeds s (s.gateIsland n) := by
  have hhold : Feeds s (s.holdGate n) := ⟨fun _ => rfl, rfl⟩
  have hdrain : Feeds s (s.drainIsland n) :=
    ((setFld s (r := .fabIslStat n) (by simp) 6 4 1).trans (each (fun u sh => of_departs (.setShellState u sh 4)) _ _)).trans (dropUncarried _)
  unfold State.gateIsland
  split
  · exact ite hhold hdrain
  · exact hhold
  · exact refl s

theorem ungateIsland (s : State) (n : Nat) : Feeds s (s.ungateIsland n) := by
  unfold State.ungateIsland
  split
  · exact (setFld s (r := .fabIslStat n) (by simp) 6 4 0).trans (each (fun u sh => repairShell u sh false) _ _)
  · exact setFld s (r := .fabIslStat n) (by simp) 6 4 2
  · exact refl s

theorem settleGate (s : State) (n : Nat) : Feeds s (s.settleGate n) := by
  have hwait : Feeds s { s with gateWait := s.gateWait.filter (· ≠ n) } := ⟨fun _ => rfl, rfl⟩
  exact ite (hwait.trans (gateIsland _ n)) (hwait.trans (ungateIsland _ n))

theorem wakeDone (s : State) (n : Nat) : Feeds s (s.wakeDone n) := by
  unfold State.wakeDone
  refine ite (refl s) ?_
  dsimp only
  refine .trans ?_ (dropUncarried _)
  refine ite_trans ?_ (settleGate _ n)
  exact (setFld s (r := .fabIslStat n) (by simp) 6 4 0).trans (each (fun u sh => repairShell u sh false) _ _)

theorem bistPassed (s : State) (t : Nat) (why : BistFor) : Feeds s (s.bistPassed t why) := by
  have hreturned (back : Nat) : Feeds s ((s.toRole t back).setTile t (fun x => { x with back := 0 })) := (toRole s t back).trans (setTile _ t _)
  unfold State.bistPassed
  cases why with
  | check e now =>
    refine ite ?_ (((placed s t).trans (logOutcome _ _ _ _ _)).trans (wakeDone _ _))
    exact ((((leaveShell s t 4).trans (logOutcome _ _ _ _ _)).trans (fabEvt _ (by decide))).trans (wakeDone _ _)).trans (dropUncarried _)
  | spare => exact placed s t
  | bringUp => exact (placed s t).trans (fabEvt _ (by decide))
  | wake => exact (hreturned _).trans (wakeDone _ _)
  | block =>
    dsimp only
    split
    · exact ite_trans (hreturned _) (repairShell _ _ _)
    · exact hreturned _
  | join => exact ite (refl s) (placed s t)

theorem periodicDone (s : State) (t : Nat) : Feeds s (s.periodicDone t true) := by
  have hback (u : State) : Feeds u (u.setTile t (fun x => { x with periodic := false })) := setTile u t _
  have hresult (u : State) (x : Nat) : Feeds u (u.setFld (.fabTileStat t) 25 24 x) := setFld u (by simp) _ _ _
  unfold State.periodicDone
  dsimp only
  split
  · contradiction
  · split
    · next hseed => exact (((seedTile hseed).trans (loadPatch _ t)).trans (hresult _ 1)).trans (hback _)
    · refine .trans ?_ (dropUncarried _)
      refine .trans ?_ (afterLoss _ _ _)
      exact ((leaveShell s t 3).trans (hresult _ 3)).trans (setTile _ t _)
    · exact refl s

theorem tileBistDone (s : State) (t : Nat) : Feeds s (s.tileBistDone t true) := by
  have hresult (u : State) (x : Nat) : Feeds u (u.setFld (.fabTileStat t) 25 24 x) := setFld u (by simp) _ _ _
  have hscrub : Feeds s (s.wr (.tilScrub t) (s.rd .genTime)) := wr s (by simp) _
  unfold State.tileBistDone
  split
  · exact ite (hscrub.trans (periodicDone _ t)) (refl s)
  · next why _ =>
    refine ite (refl s) ?_
    split
    · contradiction
    · have hloaded := hscrub.trans (loadPatch _ t)
      split
      · next hseed => exact (((hloaded.trans (seedTile hseed)).trans (hresult _ 1)).trans (setTile _ t _)).trans (bistPassed _ t why)
      · exact (hloaded.trans (hresult _ 3)).trans (setTile _ t _)
      · exact refl s

theorem seedWaiting (s : State) : Feeds s s.seedWaiting :=
  each (fun u t => ite (refl u) ((setTile u t _).trans (tileBistDone _ t))) s _

end Feeds
/-! ### Requests and reseeds -/

/-- A request served is counted, and touches neither the demands that wait nor a job. -/
theorem request_counted {s t : State} {k n : Nat} {bs : Bytes} {b : Bool} (h : s.request k n = .got bs b t) :
    t.fld (.rngDrbCount k) 20 0 = s.fld (.rngDrbCount k) 20 0 + 1 ∧ t.rng.prWait = s.rng.prWait ∧ t.jobs = s.jobs := by
  unfold State.request at h
  split at h
  · cases h
  dsimp only at h
  split at h
  · cases h
  next hlimit =>
  have hevt (u : State) (c : Bool) : RegsAndMessages [.rngEvtStatus] u (u.onlyIf c (·.rngEvt 3)) := by
    cases c
    · exact .refl _ u
    · exact rngEvt_frame u 3
  generalize hu : (((s.setFld (.rngDrbCount k) 20 0 (s.fld (.rngDrbCount k) 20 0 + 1)).setFld (.rngDrbMaxcount k) 20 0 _).bump64 (.rngDrbReqs k)).setBit
    (.rngDrbStat k) 2 _ = u at h
  have hcount : u.fld (.rngDrbCount k) 20 0 = s.fld (.rngDrbCount k) 20 0 + 1 := by
    rw [← hu, State.fld, State.setBit, State.rd_store, if_neg (by simp), State.bump64, State.rd_wr_ne _ _ (by simp), State.rd_setFld, if_neg (by simp),
      State.rd_setFld, if_pos rfl, getF_setF _ _ _ _ (by decide) (by decide)]
    exact Nat.mod_eq_of_lt (by omega)
  have hwait : u.rng.prWait = s.rng.prWait := by rw [← hu]; rfl
  have hjobs : u.jobs = s.jobs := by rw [← hu]; rfl
  have hframe := hevt u (decide (s.fld (.rngDrbCount k) 20 0 = 4096))
  cases h
  refine ⟨(congrArg (getF · 20 0) (hframe.1 (.rngDrbCount k) (by simp))).trans hcount, ?_, (congrArg State.jobs hframe.2 :).trans hjobs⟩
  exact (congrArg (fun v : State => v.rng.prWait) hframe.2 :).trans hwait

/-- A reseed leaves its generator READY with no request counted. -/
theorem reseed_ready (s : State) (k : Nat) (bs : Bytes) : (s.reseed k bs).drbState k = 1 ∧ (s.reseed k bs).fld (.rngDrbCount k) 20 0 = 0 := by
  have hstat := reseed_rd s k bs (r := .rngDrbStat k) (by simp) (by simp)
  have hcount := reseed_rd s k bs (r := .rngDrbCount k) (by simp) (by simp)
  rw [State.setBit, State.rd_store, if_pos rfl, State.setFld, State.rd_store, if_pos rfl] at hstat
  rw [State.setBit, State.rd_store, if_neg (by simp), State.setFld, State.rd_store, if_neg (by simp), State.setFld, State.rd_store, if_pos rfl] at hcount
  refine ⟨?_, ?_⟩
  · rw [State.drbState, State.fld, hstat, getF_setB _ _ _ _ _ (by decide) (.inr (by decide)), getF_setF _ _ _ _ (by decide) (by decide)]
    rfl
  · rw [State.fld, hcount, getF_setF _ _ _ _ (by decide) (by decide)]
    rfl

/-- The pool output that serves a demand has left the pool. -/
def State.tapped (s : State) (n : Nat) : State := s.setPool (s.rng.pool.drop n)

theorem takePool_enough {s : State} {n : Nat} (h : n ≤ s.poolBytes) (f : State → Bytes → State) :
    s.takePool n f = f (s.tapped n) (s.rng.pool.take n) := if_pos h

theorem takePool_short {s : State} {n : Nat} (h : s.poolBytes < n) (f : State → Bytes → State) : s.takePool n f = s := if_neg (by omega)

theorem tapped_poolBytes (s : State) (n : Nat) : (s.tapped n).poolBytes = s.poolBytes - n := List.length_drop

/-! ### The next demand -/

/-- The first generator that is to be instantiated. -/
def State.uninstantiated (s : State) : Option Nat := firstBelow 16 (fun k => s.bit (.rngDrbStat k) 4 && s.drbState k == 0)

theorem uninstantiated_none {s : State} (h : ∀ k, k < 16 → s.bit (.rngDrbStat k) 4 = true → s.drbState k ≠ 0) : s.uninstantiated = none := by
  refine List.find?_eq_none.2 fun k hk => ?_
  simpa using h k (List.mem_range.1 hk)

theorem servePool_off {s : State} (h : s.srcState ≠ 2 ∨ s.bit .genState 4 = true) (sc : State → Bytes → State) : s.servePool sc = s := if_pos h

theorem servePool_instantiates {s : State} (h : s.srcState = 2) (hdip : s.bit .genState 4 = false) {k : Nat} (hk : s.uninstantiated = some k)
    (sc : State → Bytes → State) : s.servePool sc = s.takePool 64 (fun s bs => (s.instantiate k bs).seedWaiting) := by
  unfold State.uninstantiated at hk
  unfold State.servePool
  rw [if_neg (by simp [h, hdip])]
  simp only [hk]

theorem servePool_pr {s : State} (h : s.srcState = 2) (hdip : s.bit .genState 4 = false) (hnone : s.uninstantiated = none) {k n : Nat}
    {who : Option Nat} {l : List (Nat × Option Nat × Nat)} (hwait : s.rng.prWait = (k, who, n) :: l) (sc : State → Bytes → State) :
    s.servePool sc = s.takePool 48 (·.servePr sc k who n ·) := by
  unfold State.uninstantiated at hnone
  unfold State.servePool
  rw [if_neg (by simp [h, hdip])]
  simp only [hnone, hwait]

theorem servePool_limit {s : State} (h : s.srcState = 2) (hdip : s.bit .genState 4 = false) (hnone : s.uninstantiated = none)
    (hwait : s.rng.prWait = []) {k : Nat} {l : List Nat} (hlimit : s.rng.limitOrder = k :: l) (sc : State → Bytes → State) :
    s.servePool sc = s.takePool 48 (·.reseed k ·) := by
  unfold State.uninstantiated at hnone
  unfold State.servePool
  rw [if_neg (by simp [h, hdip])]
  simp only [hnone, hwait, hlimit]

/-- A pool with less than 48 B serves none but the instances that are to be instantiated. -/
theorem servePool_short {s : State} (hnone : s.uninstantiated = none) (hshort : s.poolBytes < 48) (sc : State → Bytes → State) : s.servePool sc = s := by
  unfold State.uninstantiated at hnone
  unfold State.servePool
  split
  · rfl
  simp only [hnone, takePool_short hshort]
  split
  · rfl
  · split <;> rfl

/-- Beside what the pool serves, RESEED_SERVED does nothing where neither the mesh nor a life-cycle move waits. -/
theorem exec_reseedServed {s t : State} (h : s.servePool State.scServed = t) (hmesh : t.tamper.meshDue = false) (hmove : t.transition = none) :
    exec .reseedServed s = .next t := by
  have hmesh' : t.seedMesh = t := if_pos (by simp [hmesh])
  have hmove' : t.resumeMove = t := by simp only [State.resumeMove, hmove]
  change execReseedServed s = _
  rw [execReseedServed, h, hmesh', hmove']

/-- A loop over nothing: no tile waits for a seed. -/
theorem seedWaiting_none {s : State} (h : ∀ i, i < 96 → (s.tile i).unseeded = false) : s.seedWaiting = s := by
  have hnone : below 96 (fun t => (s.tile t).unseeded) = [] := by
    simp only [below, List.filter_eq_nil_iff, List.mem_range]
    intro i hi
    simp [h i hi]
  rw [State.seedWaiting, hnone]
  rfl

/-- The first prediction-resistant demand has gone. -/
def State.prTaken (s : State) : State := { s with rng := { s.rng with prWait := s.rng.prWait.drop 1 } }

/-- What serving a prediction-resistant demand leaves, before its request. -/
def State.prServed (s : State) (k : Nat) (bs : Bytes) : State := ((s.reseed k bs).bump .rngPrCount).prTaken.showPr k

theorem prTaken_rd (s : State) (r : Reg) : s.prTaken.rd r = s.rd r := rfl

/-- What a job has of a demand that is served. -/
def Job.granted (x : Job) (out : Bytes) : Job :=
  { x with prGranted := true, drawn := x.drawn ++ [(x.prHalf, out)], drawWait := x.prHalf && x.drawWait, pqWait := !x.prHalf && x.pqWait }

theorem servePr_job {s t : State} {k n j : Nat} {bs out : Bytes} {b : Bool} (h : (s.prServed k bs).request k n = .got out b t) (sc : State → Bytes → State) :
    s.servePr sc k (some j) n bs = t.setJob j (·.granted out) := by
  unfold State.prServed State.prTaken at h
  unfold State.servePr
  dsimp only at h ⊢
  rw [h]
  rfl

theorem prServed_spec (s : State) (k : Nat) (bs : Bytes) : (s.prServed k bs).drbState k = 1 ∧ (s.prServed k bs).fld (.rngDrbCount k) 20 0 = 0 ∧
    (s.prServed k bs).rng.prWait = s.rng.prWait.drop 1 ∧ (s.prServed k bs).rng.pool = s.rng.pool ∧
    ({ s.prServed k bs with regs := s.regs, shadow := s.shadow, rng := s.rng } : State) = s := by
  obtain ⟨hready, hcount⟩ := reseed_ready s k bs
  have hrd (r : Reg) (hr : r ≠ .rngPrCount) : ((s.reseed k bs).bump .rngPrCount).prTaken.rd r = (s.reseed k bs).rd r :=
    (prTaken_rd _ r).trans (State.rd_bump_ne _ hr.symm 1)
  have hkeeps : (s.prServed k bs).rng.prWait = s.rng.prWait.drop 1 ∧ (s.prServed k bs).rng.pool = s.rng.pool ∧
    ({ s.prServed k bs with regs := s.regs, shadow := s.shadow, rng := s.rng } : State) = s := ⟨rfl, rfl, rfl⟩
  refine ⟨?_, ?_, hkeeps⟩
  · have hshown : (s.prServed k bs).drbState k = _ := (Departs.showPr ((s.reseed k bs).bump .rngPrCount).prTaken k).drb k 1 0 (by decide)
    have hstat := congrArg (getF · 1 0) (hrd (.rngDrbStat k) (by simp))
    exact (hshown.trans hstat).trans hready
  · have hshown : (s.prServed k bs).rd (.rngDrbCount k) = ((s.reseed k bs).bump .rngPrCount).prTaken.rd (.rngDrbCount k) :=
      (State.rd_setFld _ _ _ _ _ _).trans (if_neg (by simp))
    have hcounted := congrArg (getF · 20 0) (hshown.trans (hrd (.rngDrbCount k) (by simp)))
    exact hcounted.trans hcount

theorem reseedServed_pr {s : State} (h : s.srcState = 2) (hdip : s.bit .genState 4 = false) (hmesh : s.tamper.meshDue = false)
    (hmove : s.transition = none) (hnone : s.uninstantiated = none) {k j n : Nat} {l : List (Nat × Option Nat × Nat)}
    (hwait : s.rng.prWait = (k, some j, n) :: l) (hpool : 48 ≤ s.poolBytes) :
    ∃ t, exec .reseedServed s = .next t ∧ t.poolBytes = s.poolBytes - 48 ∧ t.drbState k = 1 ∧ t.fld (.rngDrbCount k) 20 0 = 1 ∧ t.rng.prWait = l ∧
      ∀ x, s.job? j = some x → ∃ y bs, t.job? j = some y ∧ y.prGranted = true ∧ y.drawn = x.drawn ++ [(x.prHalf, bs)] ∧ y.phase = x.phase := by
  obtain ⟨hready, hcount, hleft, hpool', hrest⟩ := prServed_spec (s.tapped 48) k (s.rng.pool.take 48)
  generalize hu : (s.tapped 48).prServed k (s.rng.pool.take 48) = u at hready hcount hleft hpool' hrest
  obtain ⟨out, b, t, hgot⟩ := request_fresh hready hcount n
  obtain ⟨hcounted, hwaits, hjobs⟩ := request_counted hgot
  have hserved := Serviced.request hgot
  have hfed := Feeds.request hgot
  have htamper : t.tamper = s.tamper := (congrArg State.tamper hserved.rest :).trans (congrArg State.tamper hrest :)
  have htransition : t.transition = s.transition := (congrArg State.transition hserved.rest :).trans (congrArg State.transition hrest :)
  refine ⟨t.setJob j (·.granted out), exec_reseedServed ?_ (htamper ▸ hmesh) (htransition.trans hmove), ?_, (hfed.drb k).trans hready,
    hcounted.trans (by rw [hcount]), hwaits.trans (hleft.trans ?_), fun x hx => ⟨x.granted out, out, ?_, rfl, rfl, rfl⟩⟩
  · rw [servePool_pr h hdip hnone hwait, takePool_enough hpool]
    exact servePr_job (hu ▸ hgot) _
  · exact (congrArg List.length (hfed.pool.trans hpool')).trans (tapped_poolBytes s 48)
  · exact congrArg (List.drop 1) hwait
  · refine State.job?_setJob_self ?_ (·.granted out) (fun _ => rfl)
    exact (State.job?_congr (hjobs.trans (congrArg State.jobs hrest :)) j).trans hx

theorem reseedServed_limit {s : State} (h : s.srcState = 2) (hdip : s.bit .genState 4 = false) (hmesh : s.tamper.meshDue = false)
    (hmove : s.transition = none) (hnone : s.uninstantiated = none) (hwait : s.rng.prWait = []) {k : Nat} {l : List Nat}
    (hlimit : s.rng.limitOrder = k :: l) (hpool : 48 ≤ s.poolBytes) :
    ∃ t, exec .reseedServed s = .next t ∧ t.poolBytes = s.poolBytes - 48 ∧ t.drbState k = 1 ∧ t.fld (.rngDrbCount k) 20 0 = 0 ∧
      k ∉ t.rng.limitOrder ∧ t.jobs = s.jobs := by
  obtain ⟨hready, hcount⟩ := reseed_ready (s.tapped 48) k (s.rng.pool.take 48)
  refine ⟨(s.tapped 48).reseed k (s.rng.pool.take 48), exec_reseedServed ?_ hmesh hmove, tapped_poolBytes s 48, hready, hcount, ?_, rfl⟩
  · rw [servePool_limit h hdip hnone hwait hlimit, takePool_enough hpool]
  · exact fun hk => by simpa using (List.mem_filter.1 hk).2

/-- A slice within a list is what the list has there. -/
theorem drop_take_eq_slice {bs : Bytes} {a n : Nat} (h : a + n ≤ bs.length) : (bs.take (a + n)).drop a = slice bs a n := by
  refine List.ext_getElem (by simp [slice]; omega) fun i hi _ => ?_
  have hi' : a + i < bs.length := by simp at hi; omega
  simp [slice, hi']

theorem instantiate_spec (s : State) (k : Nat) (bs : Bytes) : (s.instantiate k bs).drbState k = 1 ∧ (s.instantiate k bs).rng.pool = s.rng.pool ∧
    (s.instantiate k bs).drbg k = drbgInstantiate (bs.take 48) (bs.drop 48) (s.otp.serial ++ [BitVec.ofNat 8 k]) ∧
    ({ s.instantiate k bs with regs := s.regs, shadow := s.shadow, rng := s.rng } : State) = s := by
  refine ⟨?_, rfl, (tget_tset _ _ _ _ _).trans (if_pos rfl), rfl⟩
  have hstat : (((s.setDrb k 1).setFld (.rngDrbCount k) 20 0 0).wr (.rngDrbReseeds k) 0).rd (.rngDrbStat k) = (s.setDrb k 1).rd (.rngDrbStat k) := by
    rw [State.rd_wr_ne _ _ (by simp), State.rd_setFld, if_neg (by simp)]
  exact (congrArg (getF · 1 0) hstat).trans (State.fld_setFld _ _ _ _ _ (by decide) (by decide))

theorem reseedServed_instantiates {s : State} (h : s.srcState = 2) (hdip : s.bit .genState 4 = false) (hmesh : s.tamper.meshDue = false)
    (hmove : s.transition = none) {k : Nat} (hk : s.uninstantiated = some k) (hpool : 64 ≤ s.poolBytes) :
    ∃ t, exec .reseedServed s = .next t ∧ t.drbState k = 1 ∧ t.poolBytes = s.poolBytes - 64 ∧
      ((∀ i, i < 96 → (s.tile i).unseeded = false) → t.drbg k =
        drbgInstantiate (s.rng.pool.take 48) (slice s.rng.pool 48 16) (s.otp.serial ++ [BitVec.ofNat 8 k])) := by
  obtain ⟨hready, hleft, hstate, hrest⟩ := instantiate_spec (s.tapped 64) k (s.rng.pool.take 64)
  generalize hu : (s.tapped 64).instantiate k (s.rng.pool.take 64) = u at hready hleft hstate hrest
  have hserved := Serviced.seedWaiting u
  have hfed := Feeds.seedWaiting u
  have htamper : u.seedWaiting.tamper = s.tamper := (congrArg State.tamper hserved.rest :).trans (congrArg State.tamper hrest :)
  have htransition : u.seedWaiting.transition = s.transition := (congrArg State.transition hserved.rest :).trans (congrArg State.transition hrest :)
  refine ⟨u.seedWaiting, exec_reseedServed ?_ (htamper ▸ hmesh) (htransition.trans hmove), (hfed.drb k).trans hready, ?_, fun hseeded => ?_⟩
  · rw [servePool_instantiates h hdip hk, takePool_enough hpool]
    exact congrArg State.seedWaiting hu
  · exact (congrArg List.length (hfed.pool.trans hleft)).trans (tapped_poolBytes s 64)
  · have htiles : u.tiles = s.tiles := (congrArg State.tiles hrest :)
    rw [seedWaiting_none fun i hi => by rw [State.tile, htiles]; exact hseeded i hi, hstate]
    congr 1
    · rw [List.take_take]
      rfl
    · exact drop_take_eq_slice (bs := s.rng.pool) (a := 48) (n := 16) hpool

/-- A generator that has joined those at their limit. -/
def State.limited (s : State) (k : Nat) : State := { s with rng := { s.rng with limitOrder := s.rng.limitOrder ++ [k] } }

theorem drbgAtLimit_stops {s : State} {k : Nat} (h : s.drbState k = 1 ∨ s.drbState k = 2) (hcount : 1048576 ≤ s.fld (.rngDrbCount k) 20 0) :
    ∃ t, exec (.drbgAtLimit k) s = .next t ∧ t.drbState k = 3 ∧ t.rng.limitOrder = s.rng.limitOrder ++ [k] ∧
      t.bit .rngEvtStatus 4 = true ∧ t.jobs = s.jobs := by
  have hstopped : ((s.limited k).setDrb k 3).drbState k = 3 := State.fld_setFld _ _ _ _ _ (by decide) (by decide)
  have horder : ((s.limited k).setDrb k 3).rng.limitOrder = s.rng.limitOrder ++ [k] := rfl
  have hjobs : ((s.limited k).setDrb k 3).jobs = s.jobs := rfl
  have hexec : exec (.drbgAtLimit k) s = .next (((s.limited k).setDrb k 3).rngEvt 4) := if_pos ⟨h, hcount⟩
  have hframe := rngEvt_frame ((s.limited k).setDrb k 3) 4
  have hevt : (((s.limited k).setDrb k 3).rngEvt 4).bit .rngEvtStatus 4 = true := State.bit_event _ _ _ _ (by decide)
  generalize (s.limited k).setDrb k 3 = u at hstopped horder hjobs hexec hframe hevt
  have hstat : (u.rngEvt 4).drbState k = u.drbState k := congrArg (getF · 1 0) (hframe.1 (.rngDrbStat k) (by simp))
  exact ⟨u.rngEvt 4, hexec, hstat.trans hstopped, (congrArg (fun v : State => v.rng.limitOrder) hframe.2 :).trans horder, hevt,
    (congrArg State.jobs hframe.2 :).trans hjobs⟩

/-- Settles O51: each trigger of the entropy source and of the instances, with what it leaves. -/
theorem randomService : Obligations.RandomService := by
  refine ⟨fun s cell test hcell htest => ⟨fun h hr => healthFail_running h hr hcell htest, fun h hfew => healthFail_again h hfew cell test,
      fun h htwo hdip => healthFail_third h htwo hdip cell test, fun h => congrArg Host.Outcome.next (healthFail_off h cell test),
      fun h => restartEnd_failed h cell test⟩,
    fun s => ⟨restartEnd_passed, restartCountClear_spec, fun hshown => ⟨rearm_failed hshown, rearm_other, commandRestart_begins hshown,
      commandRestart_other⟩, fun bs => ⟨fun h hdip => ⟨fun u hu => conditionedBlock_passed h hdip hu,
      fun u cell test hu => conditionedBlock_failed h hdip hu⟩, fun h => conditionedBlock_off h bs⟩⟩,
    fun x b => ⟨CellTest.take_run, CellTest.take_count⟩, fun s k => ⟨fun h hcount => ?_, drbgAtLimit_stops⟩,
    fun s => ⟨fun h hmesh hmove => exec_reseedServed (servePool_off h _) hmesh hmove, fun h hdip hmesh hmove => ⟨fun k hk hpool =>
      reseedServed_instantiates h hdip hmesh hmove hk hpool, fun hinst => ?_⟩⟩⟩
  · exact ⟨s.setDrb k 2, if_pos ⟨h, hcount⟩, State.fld_setFld _ _ _ _ _ (by decide) (by decide), .store (List.mem_singleton_self _) s _⟩
  · have hnone := uninstantiated_none hinst
    exact ⟨fun k j n l hwait _ _ hpool => reseedServed_pr h hdip hmesh hmove hnone hwait hpool,
      fun k l hwait hlimit hpool => reseedServed_limit h hdip hmesh hmove hnone hwait hlimit hpool,
      fun hshort => exec_reseedServed (servePool_short hnone hshort _) hmesh hmove⟩

end Sys2Proof.Machine
end

section
/-! PROOFS. Commands on tiles and islands: what jobs that wait leave alone, and what shells are told (O35, O36). -/

namespace Sys2Proof.Machine

/-! ### Jobs off the shells -/

/-- Status and maps of tiles and shells. -/
def Reg.ofShells : Reg → Bool
  | .fabTileStat _ | .fabShellMap _ => true
  | _ => false

/-- From `s` to `t` no tile and no shell changes. -/
structure Aside (s t : State) : Prop where
  tiles : t.tiles = s.tiles
  regs : ∀ r, r.ofShells = true → t.rd r = s.rd r

/-- The units of a job and of its halves, sealed or not. -/
def Job.allUnits (x : Job) : List JobUnit := x.unit.toList ++ x.classical.unit.toList ++ x.pq.unit.toList

/-- A job has no shell. -/
def Job.OffShells (x : Job) : Prop := ∀ sh, .shell sh ∉ x.allUnits

namespace Aside
variable {s t u : State}

theorem refl (s : State) : Aside s s := ⟨rfl, fun _ _ => rfl⟩
theorem trans (h : Aside s t) (h' : Aside t u) : Aside s u := ⟨h'.tiles.trans h.tiles, fun r hr => (h'.regs r hr).trans (h.regs r hr)⟩

theorem each {α : Type} {f : State → α → State} {l : List α} (hf : ∀ u, ∀ a ∈ l, Aside u (f u a)) (s : State) : Aside s (s.each l f) := by
  induction l generalizing s with
  | nil => exact refl s
  | cons a l ih => exact (hf s a List.mem_cons_self).trans (ih (fun u b hb => hf u b (List.mem_cons_of_mem a hb)) (f s a))

theorem ite {c : Prop} [Decidable c] (h : Aside s t) (h' : Aside s u) : Aside s (if c then t else u) := by
  split
  · exact h
  · exact h'

theorem ite_trans {c : Prop} [Decidable c] (h : Aside s t) (h' : Aside t u) : Aside s (if c then u else t) := ite (h.trans h') h

theorem onlyIf {f : State → State} (hf : ∀ u, Aside u (f u)) (s : State) (c : Bool) : Aside s (s.onlyIf c f) := by
  cases c
  · exact refl s
  · exact hf s

theorem store (s : State) {r : Reg} (hr : r.ofShells = false) (f : DWord → DWord) : Aside s (s.store r f) :=
  ⟨rfl, fun r' h' => by rw [State.rd_store, if_neg fun h : r = r' => by simp [h, h'] at hr]⟩

theorem setFld (s : State) {r : Reg} (hr : r.ofShells = false) (hi lo x : Nat) : Aside s (s.setFld r hi lo x) := store s hr _
theorem bump (s : State) {r : Reg} (hr : r.ofShells = false) (d : Nat) : Aside s (s.bump r d) := setFld s hr _ _ _
theorem setBcore (s : State) (c : Nat) (f : BCore → BCore) : Aside s (s.setBcore c f) := ⟨rfl, fun _ _ => rfl⟩
theorem setHcore (s : State) (k : Nat) (f : HCore → HCore) : Aside s (s.setHcore k f) := ⟨rfl, fun _ _ => rfl⟩
theorem setJob (s : State) (j : Nat) (f : Job → Job) : Aside s (s.setJob j f) := ⟨rfl, fun _ _ => rfl⟩

theorem event (s : State) {stat : Reg} (h : stat.ofShells = false) (en vec : Reg) (i : Nat) : Aside s (s.event stat en vec i) := by
  have hframe := RegsAndMessages.event (List.mem_singleton_self stat) s en vec i
  refine ⟨hframe.tiles, fun r hr => hframe.1 r fun hm => ?_⟩
  rw [List.mem_singleton.1 hm, h] at hr
  exact absurd hr Bool.false_ne_true

theorem releaseFreed (s : State) (c : Nat) : Aside s (s.releaseFreed c) := setBcore s c _

theorem wipeCore (s : State) (c : Nat) : Aside s (s.wipeCore c) := by
  unfold State.wipeCore
  dsimp only
  refine ite (setBcore s c _) ?_
  refine .trans ?_ (event _ (stat := .bneEvtStatus) rfl _ _ 4)
  exact (setBcore s c _).trans (bump _ (r := .bneHandlesLost) rfl _)

/-- A job that leaves a core leaves the tiles alone. -/
theorem vacated (s : State) (n : Nat) {u : JobUnit} (hu : ∀ sh, u ≠ .shell sh) : Aside s (s.vacated n u) := by
  unfold State.vacated
  cases u with
  | sc => exact refl s
  | shell sh => exact absurd rfl (hu sh)
  | hash k =>
    dsimp only
    exact ite (setHcore s k _) (refl s)
  | bne c f =>
    dsimp only
    refine ite ?_ (.trans ?_ (releaseFreed _ c))
    · refine .trans (.trans (.trans (.trans ?_ (releaseFreed _ c)) (wipeCore _ c)) (setFld _ (r := .bneCoreState c) rfl 2 0 3)) (setBcore _ c _)
      exact ite (setBcore s c _) (refl s)
    · exact ite (setBcore s c _) (refl s)

theorem dropCell (s : State) (x : Job) : Aside s (s.dropCell x) := by
  unfold State.dropCell
  split
  · exact ⟨rfl, fun _ _ => rfl⟩
  · exact refl s

theorem dropLoad (s : State) (x : Job) : Aside s (s.dropLoad x) := by
  unfold State.dropLoad
  split
  · exact ite (refl s) (setBcore s _ _)
  · exact refl s

theorem dropDemand (s : State) (x : Job) : Aside s (s.dropDemand x) := by
  unfold State.dropDemand
  exact ite ⟨rfl, fun r hr => (State.rd_store _ _ _ _).trans (if_neg fun h => by rw [← h] at hr; exact absurd hr Bool.false_ne_true)⟩ (refl s)

/-- A job without a shell frees none. -/
theorem freeShells (s : State) {x : Job} (hx : x.OffShells) : s.freeShells x = s := by
  have hnone : x.shells = [] := by
    refine List.filterMap_eq_nil_iff.2 fun u hu => ?_
    cases u with
    | shell sh =>
      refine absurd ?_ (hx sh)
      simp only [Job.allUnits, List.mem_append] at hu ⊢
      exact hu.imp_left .inl
    | _ => rfl
  rw [State.freeShells, hnone]
  rfl

theorem vacateAll (s : State) {x : Job} (hx : x.OffShells) : Aside s (s.vacateAll x) := by
  refine each (fun u v hv => vacated u x.slice fun sh hsh => ?_) s
  subst hsh
  simp only [List.mem_append, List.mem_map, reduceCtorEq, and_false, exists_false, or_false, Job.units] at hv
  refine hx sh ?_
  simp only [Job.allUnits, List.mem_append]
  refine hv.imp (Or.imp_right fun h => ?_) fun h => ?_
  · split at h
    · simp at h
    · exact h
  · split at h
    · simp at h
    · exact h

theorem endJob {s : State} {j : Nat} (hj : ∀ x, s.job? j = some x → x.OffShells) (r : Result) : Aside s (s.endJob j r) := by
  unfold State.endJob
  split
  · exact refl s
  · next x hx =>
    have hoff := hj x hx
    refine ite (refl s) ?_
    dsimp only
    refine .trans ?_ (each (fun u c _ => releaseFreed u c) _)
    refine .trans ?_ (vacateAll _ hoff)
    refine .trans ?_ (setJob _ j _)
    refine .trans ?_ (dropLoad _ x)
    refine .trans ?_ (dropDemand _ x)
    rw [freeShells s hoff]
    exact ite_trans (ite (dropCell s x) (refl s)) (each (fun u h _ => setBcore u _ _) _)

theorem endHalf {s : State} {j : Nat} (hj : ∀ x, s.job? j = some x → x.OffShells) (pq : Bool) (r : Result) : Aside s (s.endHalf j pq r) := by
  unfold State.endHalf
  split
  · exact refl s
  · next x hx =>
    have hoff := hj x hx
    dsimp only
    refine ite (refl s) ?_
    rw [freeShells s hoff, ite_self]
    refine .trans ?_ (each (fun u v hv => vacated u x.slice fun sh hsh => ?_) _)
    · exact (setJob s j _).trans (onlyIf (fun u => dropDemand u x) _ _)
    · subst hsh
      refine hoff sh ?_
      simp only [Job.allUnits, List.mem_append]
      cases pq
      · exact .inl (.inr hv)
      · exact .inr hv

end Aside

/-! ### Waiting jobs that end leave the shells -/

/-- Job `k`, if it is in flight, has no shell. -/
def State.OffShells (s : State) (k : Nat) : Prop := ∀ x, s.job? k = some x → x.OffShells

theorem State.OffShells.setJob {s : State} {k : Nat} (h : s.OffShells k) (j : Nat) {f : Job → Job} (hid : ∀ x, (f x).id = x.id)
    (hf : ∀ x, s.job? j = some x → (f x).allUnits = x.allUnits) : (s.setJob j f).OffShells k := by
  intro y hy
  by_cases hk : k = j
  · subst hk
    cases hj : s.job? k with
    | none =>
      rw [job?_setJob s k k f fun x hx => (hid x).trans hx, hj] at hy
      simp at hy
    | some x =>
      rw [State.job?_setJob_self hj f hid] at hy
      rw [Job.OffShells, ← Option.some.inj hy, hf x hj]
      exact h x hj
  · rw [State.job?_setJob_ne s f hid hk] at hy
    exact h y hy

theorem State.OffShells.congr {s t : State} {k : Nat} (h : s.OffShells k) (hjobs : t.jobs = s.jobs) : t.OffShells k :=
  fun x hx => h x ((State.job?_congr hjobs k).symm.trans hx)

theorem State.OffShells.endJob {s : State} {k : Nat} (h : s.OffShells k) (j : Nat) (r : Result) : (s.endJob j r).OffShells k := by
  cases hj : s.job? j with
  | none =>
    rw [State.endJob, hj]
    exact h
  | some x =>
    cases hheld : s.holdsBack x r with
    | true => rwa [endJob_held hj hheld]
    | false => exact (h.setJob j (f := (·.ended r)) (fun _ => rfl) fun _ _ => rfl).congr (endJob_jobs hj hheld)

theorem State.OffShells.endHalf {s : State} {k : Nat} (h : s.OffShells k) (j : Nat) (pq : Bool) (r : Result) : (s.endHalf j pq r).OffShells k := by
  unfold State.endHalf
  cases hj : s.job? j with
  | none => exact h
  | some x =>
    dsimp only
    split
    · exact h
    · refine .congr (.congr (.setJob (s := if pq then s.freeShells x else s) (.congr h ?_) j ?_ ?_)
        (UnitsOnly.onlyIf (fun v => .dropDemand v x) _ _).jobs) (UnitsOnly.each (fun v u => .vacated v _ u) _ _).jobs
      · split
        · exact (UnitsOnly.freeShells s x).jobs
        · rfl
      · intro y
        cases pq <;> rfl
      · intro y hy
        have hyx : y = x := by
          refine Option.some.inj (hy.symm.trans ((State.job?_congr ?_ j).trans hj))
          split
          · exact (UnitsOnly.freeShells s x).jobs
          · rfl
        subst hyx
        cases pq <;> rfl

/-- The end of a part of a job that has no shell leaves the shells, and every job that has none without one. -/
theorem endPart_aside {s : State} {x : Job} (h : s.OffShells x.id) (k status : Nat) : Aside s (s.endPart x k status) := by
  unfold State.endPart
  exact .ite (.endHalf h _ _) (.ite ((Aside.endJob h _).trans (.bump _ (r := .genAbortCnt) rfl 1)) (.endJob h _))

theorem State.OffShells.endPart {s : State} {j : Nat} (h : s.OffShells j) (x : Job) (k status : Nat) : (s.endPart x k status).OffShells j := by
  unfold State.endPart
  split
  · exact h.endHalf _ _ _
  · split
    · exact h.endJob _ _
    · exact h.endJob _ _

/-- The parts of a job that no pool carries any more. -/
def State.dropParts (s : State) (x : Job) : State := s.each x.needs (fun s k => match s.lostPool x k with
  | some status => s.endPart x k status
  | none => s)

theorem dropUncarried_eq (s : State) : s.dropUncarried = s.each (s.jobs.filter (fun j => !s.reRigHolds j)) State.dropParts := rfl

theorem dropParts_aside {s : State} {x : Job} (h : s.OffShells x.id) : Aside s (s.dropParts x) ∧ ∀ j, s.OffShells j → (s.dropParts x).OffShells j := by
  unfold State.dropParts
  generalize x.needs = l
  induction l generalizing s with
  | nil => exact ⟨.refl s, fun _ hj => hj⟩
  | cons k l ih =>
    cases hlost : s.lostPool x k with
    | none =>
      have hnext := ih h
      simpa only [State.each, List.foldl_cons, hlost] using hnext
    | some status =>
      obtain ⟨hrest, hkeep⟩ := ih (h.endPart x k status)
      have hboth : Aside s ((s.endPart x k status).each l _) ∧ ∀ j, s.OffShells j → ((s.endPart x k status).each l _).OffShells j :=
        ⟨(endPart_aside h k status).trans hrest, fun j hj => hkeep j (hj.endPart x k status)⟩
      simpa only [State.each, List.foldl_cons, hlost] using hboth

/-- Where jobs that wait for units have no shell, the end of those whose pool is gone leaves the shells. -/
theorem dropUncarried_aside {s : State} (h : s.WaitersOff) : Aside s s.dropUncarried := by
  have hloop (l : List Job) (u : State) (hl : ∀ x ∈ l, x.needs ≠ [] → u.OffShells x.id) : Aside u (u.each l State.dropParts) := by
    induction l generalizing u with
    | nil => exact .refl u
    | cons x l ih =>
      by_cases hx : x.needs = []
      · have hnone : u.dropParts x = u := by rw [State.dropParts, hx]; rfl
        change Aside u ((u.dropParts x).each l State.dropParts)
        rw [hnone]
        exact ih u fun y hy => hl y (List.mem_cons_of_mem x hy)
      · obtain ⟨hparts, hkeep⟩ := dropParts_aside (hl x List.mem_cons_self hx)
        exact hparts.trans (ih _ fun y hy hneeds => hkeep _ (hl y (List.mem_cons_of_mem x hy) hneeds))
  rw [dropUncarried_eq]
  refine hloop _ s fun x hx hneeds y hy => ?_
  obtain ⟨hself, hoff⟩ := h x (List.mem_of_mem_filter hx) hneeds
  rw [← Option.some.inj (hself.symm.trans hy)]
  exact hoff

theorem Aside.tileState {s t : State} (h : Aside s t) (k : Nat) : t.tileState k = s.tileState k := congrArg (getF · 2 0) (h.regs (.fabTileStat k) rfl)
theorem Aside.shellState {s t : State} (h : Aside s t) (sh : Nat) : t.shellState sh = s.shellState sh := congrArg (getF · 26 24) (h.regs (.fabShellMap sh) rfl)
theorem Aside.tile {s t : State} (h : Aside s t) (k : Nat) : t.tile k = s.tile k := by rw [State.tile, h.tiles, State.tile]

/-! ### A tile's status as its shell changes -/

/-- A new stroke tile shows in bit 15 of the tiles' status alone. -/
theorem restroke_fld (s : State) (sh k : Nat) {hi lo : Nat} (h : hi < 15 ∨ 15 < lo) :
    (s.restroke sh).fld (.fabTileStat k) hi lo = s.fld (.fabTileStat k) hi lo := by
  refine (State.each_keeps (fun u : State => u.fld (.fabTileStat k) hi lo)
    (fun u (t : Nat) => u.setBit (.fabTileStat t) 15 (decide ((s.shellTiles sh).head? = some t))) (fun u t => ?_) _ _).trans ?_
  · by_cases ht : t = k
    · subst ht
      exact (congrArg (getF · hi lo) ((State.rd_store _ _ _ _).trans (if_pos rfl))).trans (getF_setB _ 15 hi lo _ (by decide) h.symm)
    · exact congrArg (getF · hi lo) ((State.rd_store _ _ _ _).trans (if_neg (by simpa using ht)))
  · exact congrArg (getF · hi lo) ((State.rd_setFld _ _ _ _ _ _).trans (if_neg (by simp)))

/-- The status of a tile that is out of its shell. -/
def State.outOf (s : State) (t x : Nat) : State := ((s.setTileState t x).setFld (.fabTileStat t) 14 8 0x7F).setBit (.fabTileStat t) 15 false

theorem outOf_fld (s : State) (t x k : Nat) {hi lo : Nat} (h : 15 < lo) : (s.outOf t x).fld (.fabTileStat k) hi lo = s.fld (.fabTileStat k) hi lo := by
  have hd : hi < 15 ∨ 15 < lo := .inr h
  by_cases ht : t = k
  · subst ht
    have hrd : (s.outOf t x).rd (.fabTileStat t) = setB (setF (setF (s.rd (.fabTileStat t)) 2 0 x) 14 8 0x7F) 15 false := by
      simp only [State.outOf, State.setBit, State.setTileState, State.setFld, State.rd_store, if_true]
    rw [State.fld, hrd, getF_setB _ _ _ _ _ (by decide) (.inl h), getF_setF_ne _ 14 8 hi lo _ (by decide) (by decide) (.inl (by omega)),
      getF_setF_ne _ 2 0 hi lo _ (by decide) (by decide) (.inl (by omega))]
    rfl
  · refine congrArg (getF · hi lo) ?_
    simp only [State.outOf, State.setBit, State.setTileState, State.setFld, State.rd_store, Reg.fabTileStat.injEq, if_neg ht]

theorem outOf_tileState (s : State) (t x k : Nat) : (s.outOf t x).tileState k = if t = k then x % 8 else s.tileState k := by
  by_cases ht : t = k
  · subst ht
    have hrd : (s.outOf t x).rd (.fabTileStat t) = setB (setF (setF (s.rd (.fabTileStat t)) 2 0 x) 14 8 0x7F) 15 false := by
      simp only [State.outOf, State.setBit, State.setTileState, State.setFld, State.rd_store, if_true]
    rw [if_pos rfl, State.tileState, State.fld, hrd, getF_setB _ _ _ _ _ (by decide) (.inr (by decide)),
      getF_setF_ne _ 14 8 2 0 _ (by decide) (by decide) (.inr (by decide)), getF_setF _ _ _ _ (by decide) (by decide)]
    rfl
  · rw [if_neg ht]
    refine congrArg (getF · 2 0) ?_
    simp only [State.outOf, State.setBit, State.setTileState, State.setFld, State.rd_store, Reg.fabTileStat.injEq, if_neg ht]

theorem leaveShell_none {s : State} {t : Nat} (h : s.shellOf t = none) (x : Nat) : s.leaveShell t x = s.outOf t x := by
  simp only [State.leaveShell, h]
  rfl

theorem leaveShell_some {s : State} {t sh : Nat} (h : s.shellOf t = some sh) (x : Nat) :
    s.leaveShell t x = ((s.setBit (.fabShellMap sh) (t % 12) false).outOf t x).restroke sh := by
  simp only [State.leaveShell, h]
  rfl

/-- What a tile's leaving its shell does to the states of tiles. -/
theorem leaveShell_tileState (s : State) (t x k : Nat) : (s.leaveShell t x).tileState k = if t = k then x % 8 else s.tileState k := by
  cases h : s.shellOf t with
  | none => rw [leaveShell_none h, outOf_tileState]
  | some sh =>
    have hmap : (s.setBit (.fabShellMap sh) (t % 12) false).tileState k = s.tileState k :=
      congrArg (getF · 2 0) ((State.rd_store _ _ _ _).trans (if_neg (by simp)))
    rw [leaveShell_some h, State.tileState, restroke_fld _ _ _ (.inl (by decide)), ← State.tileState, outOf_tileState, hmap]

theorem leaveShell_fld (s : State) (t x k : Nat) {hi lo : Nat} (hd : 15 < lo) :
    (s.leaveShell t x).fld (.fabTileStat k) hi lo = s.fld (.fabTileStat k) hi lo := by
  cases h : s.shellOf t with
  | none => rw [leaveShell_none h, outOf_fld s t x k hd]
  | some sh =>
    have hmap : (s.setBit (.fabShellMap sh) (t % 12) false).fld (.fabTileStat k) hi lo = s.fld (.fabTileStat k) hi lo :=
      congrArg (getF · hi lo) ((State.rd_store _ _ _ _).trans (if_neg (by simp)))
    rw [leaveShell_some h, restroke_fld _ _ _ (.inr hd), outOf_fld _ t x k hd, hmap]

/-! ### Commands on tiles -/

theorem tileResult_spec (s : State) (t : Nat) {x : Nat} (hx : x < 8) : (s.tileResult t x).fld (.fabTileStat t) 30 28 = x ∧
    OnlyRegs [.fabTileStat t] s (s.tileResult t x) :=
  ⟨(State.fld_setFld _ _ _ _ _ (by decide) (by decide)).trans (Nat.mod_eq_of_lt hx), .store (List.mem_singleton_self _) s _⟩

theorem tileResult_tileState (s : State) (t x k : Nat) : (s.tileResult t x).tileState k = s.tileState k := by
  by_cases ht : t = k
  · subst ht
    exact State.fld_setFld_ne s (.fabTileStat t) (.fabTileStat t) 30 28 2 0 x (by decide) (by decide) (.inr (by decide))
  · exact congrArg (getF · 2 0) ((State.rd_setFld _ _ _ _ _ _).trans (if_neg (by simpa using ht)))

theorem exec_bringUp {s : State} {t : Nat} (hshown : s.hidden (.fabTileCmd t) = false) : exec (.fabTileBringUp t) s = .next (s.tileCmd t 1) := by
  change execFabTileBringUp t s = _
  rw [execFabTileBringUp, State.hostTo, hshown]
  rfl

theorem exec_retire {s : State} {t : Nat} (hshown : s.hidden (.fabTileCmd t) = false) : exec (.fabTileRetire t) s = .next (s.tileCmd t 2) := by
  change execFabTileRetire t s = _
  rw [execFabTileRetire, State.hostTo, hshown]
  rfl

theorem tileCmd_busy {s : State} {t cmd : Nat} (hcmd : cmd = 1 ∨ cmd = 2) (h : s.tileState t = 3) : s.tileCmd t cmd = s.tileResult t 1 := by
  simp only [State.tileCmd]
  rw [if_neg (by omega), if_pos (.inl h)]

theorem tileCmd_gated {s : State} {t cmd : Nat} (hcmd : cmd = 1 ∨ cmd = 2) (h : s.tileState t = 5) (hrig : s.tileReRigging t = false) :
    s.tileCmd t cmd = s.tileResult t 2 := by
  simp only [State.tileCmd]
  rw [if_neg (by omega), if_neg (by simp [h, hrig]), if_pos h]

theorem tileCmd_inService {s : State} {t : Nat} (h : s.tileState t = 1 ∨ s.tileState t = 2) (hrig : s.tileReRigging t = false) :
    s.tileCmd t 1 = s.tileResult t 2 := by
  simp only [State.tileCmd]
  rw [if_neg (by omega), if_neg (by simp [hrig]; omega), if_neg (by omega), if_pos trivial, if_pos h]

theorem tileCmd_bringUp {s : State} {t : Nat} (h : s.tileState t = 0 ∨ s.tileState t = 4) (hrig : s.tileReRigging t = false) :
    s.tileCmd t 1 = ((s.tileResult t 0).leaveShell t 3).setTile t (fun x => { x.wipe with bist := some .bringUp, back := 0 }) := by
  simp only [State.tileCmd]
  rw [if_neg (by omega), if_neg (by simp [hrig]; omega), if_neg (by omega), if_pos trivial, if_neg (by omega)]

theorem tileCmd_retireSpare {s : State} {t : Nat} (h : s.tileState t = 2) (hrig : s.tileReRigging t = false) :
    s.tileCmd t 2 = ((s.tileResult t 0).retireSpare t).dropUncarried := by
  simp only [State.tileCmd]
  rw [if_neg (by omega), if_neg (by simp [h, hrig]), if_neg (by omega), if_neg (by decide), h]
  rfl

theorem tileCmd_retire {s : State} {t sh : Nat} (h : s.tileState t = 1) (hsh : s.shellOf t = some sh) (hrig : s.tileReRigging t = false) :
    s.tileCmd t 2 = ((((s.tileResult t 0).setTile t (fun x => { x with back := 4 })).setShellState sh 4).vacated 0 (.shell sh)).dropUncarried := by
  have hshell : (s.tileResult t 0).shellOf t = some sh := by
    have hfld : (s.tileResult t 0).fld (.fabTileStat t) 14 8 = s.fld (.fabTileStat t) 14 8 :=
      State.fld_setFld_ne s (.fabTileStat t) (.fabTileStat t) 30 28 14 8 0 (by decide) (by decide) (.inr (by decide))
    rw [← hsh, State.shellOf, State.shellOf, hfld, tileResult_tileState]
  simp only [State.tileCmd]
  rw [if_neg (by omega), if_neg (by simp [h, hrig]), if_neg (by omega), if_neg (by decide), h, hshell]
  rfl

theorem bringUp_spec (s : State) (t : Nat) : ∃ r, ((s.tileResult t 0).leaveShell t 3).setTile t (fun x => { x.wipe with bist := some .bringUp, back := 0 }) = r ∧
    r.fld (.fabTileStat t) 30 28 = 0 ∧ r.tileState t = 3 ∧ (r.tile t).bist = some .bringUp ∧ r.jobs = s.jobs := by
  refine ⟨_, rfl, ?_, ?_, ?_, ?_⟩
  · exact (leaveShell_fld (s.tileResult t 0) t 3 t (by decide)).trans (tileResult_spec s t (by decide)).1
  · exact (leaveShell_tileState (s.tileResult t 0) t 3 t).trans (if_pos rfl)
  · rw [State.tile_setTile, if_pos rfl]
  · exact (UnitsOnly.leaveShell (s.tileResult t 0) t 3).jobs

/-- A tile that is RETIRED stays so while jobs leave. -/
theorem Departs.state_retired {s t : State} (h : Departs s t) {k : Nat} (hk : s.tileState k = 4) : t.tileState k = 4 :=
  (h.state k).elim (·.trans hk) (·.1)

/-- A spare that is retired: RETIRED, on its way to no shell. -/
theorem retireSpare_spec (s : State) (t : Nat) : (s.retireSpare t).tileState t = 4 ∧ ((s.retireSpare t).tile t).joining = none ∧
    ∀ hi lo, 15 < lo → (s.retireSpare t).fld (.fabTileStat t) hi lo = s.fld (.fabTileStat t) hi lo := by
  have hstate : ((s.leaveShell t 4).setTile t (fun x => { x with joining := none, periodic := false })).tileState t = 4 :=
    (leaveShell_tileState s t 4 t).trans (if_pos rfl)
  have hfld (hi lo : Nat) (h : 15 < lo) : ((s.leaveShell t 4).setTile t (fun x => { x with joining := none, periodic := false })).fld (.fabTileStat t) hi lo =
      s.fld (.fabTileStat t) hi lo := leaveShell_fld s t 4 t h
  have hjoin : (((s.leaveShell t 4).setTile t (fun x => { x with joining := none, periodic := false })).tile t).joining = none := by
    rw [State.tile_setTile, if_pos rfl]
  unfold State.retireSpare
  dsimp only
  generalize (s.leaveShell t 4).setTile t (fun x => { x with joining := none, periodic := false }) = u at hstate hfld hjoin ⊢
  have hloss (was : Option Nat) : Departs u (u.afterLoss was false) := by
    unfold State.afterLoss
    cases was with
    | none => exact .refl u
    | some sh => exact .ite (.refl u) (.repairShell u sh false)
  generalize (s.tile t).joining = was
  refine ⟨(hloss was).state_retired hstate, ?_, fun hi lo h => ((hloss was).stat t hi lo (by omega)).trans (hfld hi lo h)⟩
  rcases (hloss was).joining t (by omega) with h | h
  · exact h.trans hjoin
  · exact h

/-! ### A tile of a shell that is to be retired -/

/-- Tile `t` is to be RETIRED once its shell `sh`, now LEAVING, is idle. -/
def State.retiring (s : State) (t sh : Nat) : State := ((s.tileResult t 0).setTile t (fun x => { x with back := 4 })).setShellState sh 4

theorem retiring_spec (s : State) (t sh : Nat) : (s.retiring t sh).shellState sh = 4 ∧ (s.retiring t sh).shellTiles sh = s.shellTiles sh ∧
    (s.retiring t sh).fld (.fabTileStat t) 30 28 = 0 ∧ (s.retiring t sh).tileState t = s.tileState t ∧ ((s.retiring t sh).tile t).back = 4 ∧
    (s.retiring t sh).jobs = s.jobs := by
  have hmap (hi lo : Nat) (h : 26 < lo ∨ hi < 24) : (s.retiring t sh).fld (.fabShellMap sh) hi lo = s.fld (.fabShellMap sh) hi lo := by
    refine (State.fld_setFld_ne _ (.fabShellMap sh) (.fabShellMap sh) 26 24 hi lo 4 (by decide) (by decide) (.inr h)).trans ?_
    have hresult : (s.tileResult t 0).rd (.fabShellMap sh) = s.rd (.fabShellMap sh) := (State.rd_setFld _ _ _ _ _ _).trans (if_neg (by simp))
    exact congrArg (getF · hi lo) hresult
  have hstat (hi lo : Nat) : (s.retiring t sh).fld (.fabTileStat t) hi lo = (s.tileResult t 0).fld (.fabTileStat t) hi lo :=
    congrArg (getF · hi lo) ((State.rd_setFld _ _ _ _ _ _).trans (if_neg (by simp)))
  refine ⟨State.fld_setFld _ _ _ _ _ (by decide) (by decide), ?_, (hstat 30 28).trans (tileResult_spec s t (by decide)).1,
    (hstat 2 0).trans (tileResult_tileState s t 0 t), ?_, rfl⟩
  · rw [State.shellTiles, hmap 11 0 (.inr (by decide)), hmap 14 12 (.inr (by decide)), State.shellTiles]
  · change (((s.tileResult t 0).setTile t (fun x => { x with back := 4 })).tile t).back = 4
    rw [State.tile_setTile, if_pos rfl]

theorem vacated_shell_busy {s : State} {sh : Nat} (h : s.onUnit (.shell sh) ≠ []) (n : Nat) : s.vacated n (.shell sh) = s :=
  if_neg fun ⟨_, hnone⟩ => h (List.isEmpty_iff.1 hnone)

/-- The tiles of a shell that are to be retired. -/
def State.goers (s : State) (sh : Nat) : List Nat := (s.shellTiles sh).filter (fun t => (s.tile t).back == 4)

theorem vacated_shell_idle {s : State} {sh : Nat} (hstate : s.shellState sh = 4) (h : s.onUnit (.shell sh) = []) (n : Nat) {t : Nat}
    (ht : t ∈ s.shellTiles sh) (hback : (s.tile t).back = 4) : s.vacated n (.shell sh) =
      (s.each (s.goers sh) (fun s t => (s.leaveShell t 4).setTile t (fun x => { x with back := 0 }))).repairShell sh false := by
  have hgo : (s.goers sh).isEmpty = false := by
    have hmem : t ∈ s.goers sh := List.mem_filter.2 ⟨ht, by simp [hback]⟩
    cases hl : s.goers sh with
    | nil => rw [hl] at hmem; cases hmem
    | cons => rfl
  unfold State.goers at hgo
  refine (if_pos ⟨hstate, by rw [h]; rfl⟩).trans ?_
  rw [hgo]
  rfl

/-- Each tile that is to go is RETIRED. -/
theorem eachRetired_tileState {t : Nat} : ∀ (l : List Nat) (s : State), l.Nodup → (∀ k ∈ l, (s.tile k).back = 4) → t ∈ l →
    (s.each l (fun s t => (s.leaveShell t 4).setTile t (fun x => { x with back := 0 }))).tileState t = 4
  | [], _, _, _, ht => nomatch ht
  | k :: l, s, hnodup, hback, ht => by
    obtain ⟨hkl, hl⟩ := List.nodup_cons.1 hnodup
    have hrest : ∀ j ∈ l, (((s.leaveShell k 4).setTile k (fun x => { x with back := 0 })).tile j).back = 4 := fun j hj => by
      rw [State.tile_setTile, if_neg fun hkj => hkl (by rwa [hkj]), Departs.leaveShell_tile]
      exact hback j (List.mem_cons_of_mem k hj)
    rcases List.mem_cons.1 ht with rfl | ht
    · exact (Departs.eachRetired l _ hl hrest).state_retired ((leaveShell_tileState s t 4 t).trans (if_pos rfl))
    · exact eachRetired_tileState l _ hl hrest ht

theorem State.onUnit_congr {s t : State} (h : t.jobs = s.jobs) (u : JobUnit) : t.onUnit u = s.onUnit u := by rw [State.onUnit, h, State.onUnit]

theorem retire_spec {s : State} {t sh : Nat} (h : s.tileState t = 1) (hsh : s.shellOf t = some sh) (ht : t ∈ s.shellTiles sh)
    (hrig : s.tileReRigging t = false) : (s.tileCmd t 2).fld (.fabTileStat t) 30 28 = 0 ∧
      (s.onUnit (.shell sh) = [] → (s.tileCmd t 2).tileState t = 4) ∧
      (s.onUnit (.shell sh) ≠ [] → s.WaitersOff → (s.tileCmd t 2).tileState t = 1 ∧ ((s.tileCmd t 2).tile t).back = 4) := by
  have hcmd : s.tileCmd t 2 = ((s.retiring t sh).vacated 0 (.shell sh)).dropUncarried := tileCmd_retire h hsh hrig
  obtain ⟨hleaving, htiles, hresult, hstate, hback, hjobs⟩ := retiring_spec s t sh
  rw [hcmd]
  generalize s.retiring t sh = u at hleaving htiles hresult hstate hback hjobs ⊢
  have hunit := State.onUnit_congr hjobs (.shell sh)
  refine ⟨?_, fun hidle => ?_, fun hbusy hoff => ?_⟩
  · exact (((Departs.vacated u 0 (.shell sh)).trans (.dropUncarried _)).stat t 30 28 (by decide)).trans hresult
  · rw [vacated_shell_idle hleaving (hunit.trans hidle) 0 (htiles ▸ ht) hback]
    refine (Departs.trans (.repairShell _ sh false) (.dropUncarried _)).state_retired ?_
    refine eachRetired_tileState _ u ((Departs.nodup_shellTiles u sh).filter _) (fun k hk => ?_) (List.mem_filter.2 ⟨htiles ▸ ht, by simp [hback]⟩)
    simpa using (List.mem_filter.1 hk).2
  · rw [vacated_shell_busy (by rwa [hunit])]
    have hu : u.WaitersOff := by
      unfold State.WaitersOff at hoff ⊢
      simpa only [hjobs, State.job?] using hoff
    have haside := dropUncarried_aside hu
    exact ⟨(haside.tileState t).trans (hstate.trans h), by rw [haside.tile]; exact hback⟩

/-- Settles O35: each command of Table 04-10 in each state of its tile. -/
theorem tileCommands : Obligations.TileCommands := by
  intro s t hshown
  have hresult (x : Nat) (hx : x < 8) := tileResult_spec s t hx
  refine ⟨fun h hrig => ?_, fun h hrig => ?_, fun sh h hsh ht hrig => ⟨_, exec_retire hshown, retire_spec h hsh ht hrig⟩, fun h => ⟨?_, ?_⟩,
    fun h hrig => ⟨?_, ?_⟩, fun h hrig => ?_⟩
  · obtain ⟨r, hr, hspec⟩ := bringUp_spec s t
    exact ⟨r, (exec_bringUp hshown).trans (congrArg Host.Outcome.next ((tileCmd_bringUp h hrig).trans hr)), hspec⟩
  · obtain ⟨hstate, hjoin, hfld⟩ := retireSpare_spec (s.tileResult t 0) t
    have hdrop := Departs.dropUncarried ((s.tileResult t 0).retireSpare t)
    refine ⟨_, (exec_retire hshown).trans (congrArg Host.Outcome.next (tileCmd_retireSpare h hrig)), ?_, hdrop.state_retired hstate, ?_⟩
    · exact (hdrop.stat t 30 28 (by decide)).trans ((hfld 30 28 (by decide)).trans (hresult 0 (by decide)).1)
    · exact (hdrop.joining t (by omega)).elim (·.trans hjoin) id
  · exact ⟨_, (exec_bringUp hshown).trans (congrArg _ (tileCmd_busy (.inl rfl) h)), hresult 1 (by decide)⟩
  · exact ⟨_, (exec_retire hshown).trans (congrArg _ (tileCmd_busy (.inr rfl) h)), hresult 1 (by decide)⟩
  · exact ⟨_, (exec_bringUp hshown).trans (congrArg _ (tileCmd_gated (.inl rfl) h hrig)), hresult 2 (by decide)⟩
  · exact ⟨_, (exec_retire hshown).trans (congrArg _ (tileCmd_gated (.inr rfl) h hrig)), hresult 2 (by decide)⟩
  · exact ⟨_, (exec_bringUp hshown).trans (congrArg _ (tileCmd_inService h hrig)), hresult 2 (by decide)⟩

end Sys2Proof.Machine
end

section
/-! PROOFS. O36: the clocks and the power gates of islands. -/

namespace Sys2Proof.Machine

/-! ### FREQ and GATE -/

theorem hostTo_shown {s : State} {r : Reg} (h : s.hidden r = false) (f : State → State) : s.hostTo r f = f s := by
  rw [State.hostTo, h]
  rfl

theorem writeFreq_spec (s : State) (n fq : Nat) : (s.writeFreq n fq).fld (.fabIslCtrl n) 1 0 = min 2 fq ∧
    (s.writeFreq n fq).fld (.fabIslStat n) 1 0 = max (min 2 fq) (s.fld (.fabIslStat n) 3 2) ∧
    (s.writeFreq n fq).fld (.fabIslStat n) 3 2 = s.fld (.fabIslStat n) 3 2 ∧ OnlyRegs [.fabIslCtrl n, .fabIslStat n] s (s.writeFreq n fq) := by
  have hctrl : (s.setFld (.fabIslCtrl n) 1 0 (min 2 fq)).fld (.fabIslCtrl n) 1 0 = min 2 fq :=
    (State.fld_setFld _ _ _ _ _ (by decide) (by decide)).trans (Nat.mod_eq_of_lt (by omega))
  have hstat (hi lo : Nat) : (s.setFld (.fabIslCtrl n) 1 0 (min 2 fq)).fld (.fabIslStat n) hi lo = s.fld (.fabIslStat n) hi lo :=
    congrArg (getF · hi lo) ((State.rd_setFld _ _ _ _ _ _).trans (if_neg (by simp)))
  have honly : OnlyRegs [.fabIslCtrl n, .fabIslStat n] s (s.setFld (.fabIslCtrl n) 1 0 (min 2 fq)) := .store (by simp) s _
  unfold State.writeFreq State.effFreq
  generalize s.setFld (.fabIslCtrl n) 1 0 (min 2 fq) = u at hctrl hstat honly ⊢
  have hceil : u.fld (.fabIslStat n) 3 2 < 4 := getF_lt _ 3 2
  refine ⟨?_, ?_, ?_, honly.trans (.store (by simp) u _)⟩
  · exact (congrArg (getF · 1 0) ((State.rd_setFld _ _ _ _ _ _).trans (if_neg (by simp)))).trans hctrl
  · refine (State.fld_setFld _ _ _ _ _ (by decide) (by decide)).trans ?_
    rw [hctrl, hstat 3 2]
    exact Nat.mod_eq_of_lt (by rw [hstat] at hceil; omega)
  · exact (State.fld_setFld_ne u (.fabIslStat n) (.fabIslStat n) 1 0 3 2 _ (by decide) (by decide) (.inr (by decide))).trans (hstat 3 2)

/-- GATE reaches neither the shells nor the island's state. -/
theorem setGate_rd (s : State) (n : Nat) (b : Bool) {r : Reg} (hr : r ≠ .fabIslCtrl n) : (s.setBit (.fabIslCtrl n) 4 b).rd r = s.rd r :=
  (State.rd_store _ _ _ _).trans (if_neg hr.symm)

theorem setGate_gateHeld (s : State) (n : Nat) (b : Bool) (m : Nat) : (s.setBit (.fabIslCtrl n) 4 b).gateHeld m = s.gateHeld m := by
  have hmap (sh hi lo : Nat) : (s.setBit (.fabIslCtrl n) 4 b).fld (.fabShellMap sh) hi lo = s.fld (.fabShellMap sh) hi lo :=
    congrArg (getF · hi lo) (setGate_rd s n b (by simp))
  simp only [State.gateHeld, State.shellIn, State.shellState, hmap]
  rfl

theorem gateHeld_none {s : State} (h : s.reRig = none) (n : Nat) : s.gateHeld n = false := by rw [State.gateHeld, h]; rfl

/-- The shells of an island that it takes out of their pools. -/
def State.islandShells (s : State) (n x : Nat) : List Nat := below 96 (fun sh => s.shellState sh == x && s.fld (.fabShellMap sh) 14 12 == n)

/-- The shells of a draining island are LEAVING. -/
def State.draining (s : State) (n : Nat) : State := (s.setFld (.fabIslStat n) 6 4 1).each ((s.setFld (.fabIslStat n) 6 4 1).islandShells n 1)
  (fun s sh => s.setShellState sh 4)

theorem drainIsland_eq (s : State) (n : Nat) : s.drainIsland n = (s.draining n).dropUncarried := rfl

theorem setShellState_shellState (s : State) (sh x k : Nat) : (s.setShellState sh x).shellState k = if sh = k then x % 8 else s.shellState k := by
  by_cases hk : sh = k
  · subst hk
    rw [if_pos rfl]
    exact State.fld_setFld _ _ _ _ _ (by decide) (by decide)
  · rw [if_neg hk]
    exact congrArg (getF · 26 24) ((State.rd_setFld _ _ _ _ _ _).trans (if_neg (by simpa using hk)))

theorem each_setShellState {l : List Nat} {sh : Nat} (hsh : sh ∈ l) (s : State) {x : Nat} (hx : x < 8) :
    (s.each l (fun s sh => s.setShellState sh x)).shellState sh = x :=
  each_establishes (P := fun u sh => u.shellState sh = x) (fun u a => by rw [setShellState_shellState, if_pos rfl]; exact Nat.mod_eq_of_lt hx)
    (fun u a b h => by rw [setShellState_shellState]; split <;> [exact Nat.mod_eq_of_lt hx; exact h]) s hsh

theorem each_setShellState_rd (l : List Nat) (s : State) (x : Nat) {r : Reg} (hr : ∀ sh, r ≠ .fabShellMap sh) :
    (s.each l (fun s sh => s.setShellState sh x)).rd r = s.rd r :=
  State.rd_each r (fun s sh => s.setShellState sh x) (fun _ sh => (State.rd_setFld _ _ _ _ _ _).trans (if_neg (hr sh).symm)) s l

theorem each_setShellState_rest (l : List Nat) (s : State) (x : Nat) :
    ({ s.each l (fun s sh => s.setShellState sh x) with regs := s.regs, shadow := s.shadow } : State) = s :=
  State.each_keeps (fun u : State => ({ u with regs := s.regs, shadow := s.shadow } : State)) (fun s sh => s.setShellState sh x) (fun _ _ => rfl) s l

theorem State.WaitersOff.congr {s t : State} (h : s.WaitersOff) (hjobs : t.jobs = s.jobs) : t.WaitersOff := by
  unfold State.WaitersOff at h ⊢
  simpa only [hjobs, State.job?] using h

theorem gate_spec {s : State} {n : Nat} (hstat : s.fld (.fabIslStat n) 6 4 = 0) (hrig : s.reRig = none) :
    (s.writeGate n).bit (.fabIslCtrl n) 4 = true ∧ (s.writeGate n).fld (.fabIslStat n) 6 4 = 1 ∧
      (s.WaitersOff → ∀ sh, sh < 96 → s.fld (.fabShellMap sh) 14 12 = n → s.shellState sh = 1 → (s.writeGate n).shellState sh = 4) := by
  have hbit : (s.setBit (.fabIslCtrl n) 4 true).bit (.fabIslCtrl n) 4 = true := by
    rw [State.bit, State.setBit, State.rd_store, if_pos rfl, getB_setB _ _ _ _ (by decide), if_pos rfl]
  have hgate : s.writeGate n = ((s.setBit (.fabIslCtrl n) 4 true).draining n).dropUncarried := by
    have hheld : (s.setBit (.fabIslCtrl n) 4 true).gateHeld n = false := (setGate_gateHeld s n true n).trans (gateHeld_none hrig n)
    have hon : (s.setBit (.fabIslCtrl n) 4 true).fld (.fabIslStat n) 6 4 = 0 :=
      (congrArg (getF · 6 4) (setGate_rd s n true (by simp))).trans hstat
    simp only [State.writeGate, State.gateIsland, hon, hheld, Bool.false_eq_true, if_false, drainIsland_eq]
  have hshell (sh hi lo : Nat) : ((s.setBit (.fabIslCtrl n) 4 true).setFld (.fabIslStat n) 6 4 1).fld (.fabShellMap sh) hi lo = s.fld (.fabShellMap sh) hi lo :=
    congrArg (getF · hi lo) (((State.rd_setFld _ _ _ _ _ _).trans (if_neg (by simp))).trans (setGate_rd s n true (by simp)))
  have hjobs : ((s.setBit (.fabIslCtrl n) 4 true).setFld (.fabIslStat n) 6 4 1).jobs = s.jobs := rfl
  have hctrl : ((s.setBit (.fabIslCtrl n) 4 true).setFld (.fabIslStat n) 6 4 1).bit (.fabIslCtrl n) 4 = true :=
    (congrArg (getB · 4) ((State.rd_setFld _ _ _ _ _ _).trans (if_neg (by simp)))).trans hbit
  have hoff : ((s.setBit (.fabIslCtrl n) 4 true).setFld (.fabIslStat n) 6 4 1).fld (.fabIslStat n) 6 4 = 1 :=
    State.fld_setFld _ _ _ _ _ (by decide) (by decide)
  rw [hgate, State.draining]
  generalize (s.setBit (.fabIslCtrl n) 4 true).setFld (.fabIslStat n) 6 4 1 = u at hshell hjobs hctrl hoff ⊢
  have hdrop := JobsOnly.dropUncarried (u.each (u.islandShells n 1) (fun s sh => s.setShellState sh 4))
  refine ⟨?_, ?_, fun hwait sh hsh hisl hstate => ?_⟩
  · exact (congrArg (getB · 4) ((hdrop.regs (.fabIslCtrl n) rfl).trans (each_setShellState_rd _ u 4 (by simp)))).trans hctrl
  · exact (congrArg (getF · 6 4) ((hdrop.regs (.fabIslStat n) rfl).trans (each_setShellState_rd _ u 4 (by simp)))).trans hoff
  · have hmem : sh ∈ u.islandShells n 1 := List.mem_filter.2 ⟨List.mem_range.2 hsh, by simp [State.shellState, hshell, hisl]; exact hstate⟩
    have hwait' : (u.each (u.islandShells n 1) (fun s sh => s.setShellState sh 4)).WaitersOff := hwait.congr ((congrArg State.jobs (each_setShellState_rest (u.islandShells n 1) u 4) :).trans hjobs)
    exact ((dropUncarried_aside hwait').shellState sh).trans (each_setShellState hmem u (by decide))

/-! ### Power off -/

/-- A tile is GATED. -/
def State.gateTile (s : State) (t : Nat) : State := (s.setTile t (·.gate (s.tileState t))).setTileState t 5

/-- The tiles of an island. -/
def islandTiles (n : Nat) : List Nat := (List.range 12).map (12 * n + ·)

theorem islandTiles_nodup (n : Nat) : (islandTiles n).Nodup := List.nodup_range.map fun a b h => by simpa using h

theorem mem_islandTiles {n i : Nat} (h : i < 12) : 12 * n + i ∈ islandTiles n := List.mem_map.2 ⟨i, List.mem_range.2 h, rfl⟩

theorem setTileState_tileState (s : State) (t k : Nat) {x : Nat} (hx : x < 8) : (s.setTileState t x).tileState k = if t = k then x else s.tileState k := by
  by_cases hk : t = k
  · subst hk
    rw [if_pos rfl]
    exact (State.fld_setFld _ _ _ _ _ (by decide) (by decide)).trans (Nat.mod_eq_of_lt hx)
  · rw [if_neg hk]
    exact congrArg (getF · 2 0) ((State.rd_setFld _ _ _ _ _ _).trans (if_neg (by simpa using hk)))

theorem gateTile_tileState (s : State) (t k : Nat) : (s.gateTile t).tileState k = if t = k then 5 else s.tileState k :=
  setTileState_tileState _ t k (by decide)

theorem gateTile_tile (s : State) (t k : Nat) : (s.gateTile t).tile k = if t = k then (s.tile t).gate (s.tileState t) else s.tile k :=
  State.tile_setTile s t k (·.gate (s.tileState t))

/-- A loop whose rounds leave something leaves it. -/
theorem State.each_leaves {α β : Type} (φ : State → β) (f : State → α → State) {l : List α} (h : ∀ a ∈ l, ∀ u, φ (f u a) = φ u) (s : State) :
    φ (s.each l f) = φ s := by
  induction l generalizing s with
  | nil => rfl
  | cons a l ih => exact (ih (fun b hb => h b (List.mem_cons_of_mem a hb)) (f s a)).trans (h a List.mem_cons_self s)

/-- Each tile of a list is gated from the state it was in. -/
theorem each_gateTile {k : Nat} : ∀ (l : List Nat) (s : State), l.Nodup → k ∈ l →
    (s.each l State.gateTile).tileState k = 5 ∧ (s.each l State.gateTile).tile k = (s.tile k).gate (s.tileState k)
  | [], _, _, hk => nomatch hk
  | t :: l, s, hnodup, hk => by
    obtain ⟨htl, hl⟩ := List.nodup_cons.1 hnodup
    by_cases htk : t = k
    · subst htk
      have hne (a : Nat) (ha : a ∈ l) : a ≠ t := fun h => htl (h ▸ ha)
      have hstate := State.each_leaves (State.tileState · t) State.gateTile (fun a ha u => (gateTile_tileState u a t).trans (if_neg (hne a ha))) (s.gateTile t)
      have htile := State.each_leaves (State.tile · t) State.gateTile (fun a ha u => (gateTile_tile u a t).trans (if_neg (hne a ha))) (s.gateTile t)
      exact ⟨hstate.trans ((gateTile_tileState s t t).trans (if_pos rfl)), htile.trans ((gateTile_tile s t t).trans (if_pos rfl))⟩
    · obtain ⟨h1, h2⟩ := each_gateTile l (s.gateTile t) hl ((List.mem_cons.1 hk).resolve_left fun h => htk h.symm)
      refine ⟨h1, h2.trans ?_⟩
      rw [gateTile_tile, if_neg htk, gateTile_tileState, if_neg htk]

theorem each_gateTile_jobs (l : List Nat) (s : State) : (s.each l State.gateTile).jobs = s.jobs :=
  State.each_keeps State.jobs State.gateTile (fun _ _ => rfl) s l

/-- The shells on an island. -/
def State.shellsOn (s : State) (n : Nat) : List Nat := below 96 (fun sh => s.shellState sh != 0 && s.fld (.fabShellMap sh) 14 12 == n)

/-- The island without power. -/
def State.poweredDown (s : State) (n : Nat) : State :=
  ((s.each (islandTiles n) State.gateTile).each (s.shellsOn n) (fun s sh => s.setShellState sh 5)).setFld (.fabIslStat n) 6 4 3

theorem powerOff_eq {s : State} {n : Nat} (hstat : s.fld (.fabIslStat n) 6 4 = 1) (hidle : ∀ i, i < 12 → (s.tile (12 * n + i)).running = false)
    (hunits : ∀ sh, sh < 96 → s.shellState sh ≠ 0 → s.fld (.fabShellMap sh) 14 12 = n → s.onUnit (.shell sh) = []) :
    s.powerOff n = (s.poweredDown n).dropUncarried := by
  have htiles : ((List.range 12).map (12 * n + ·)).any (fun t => (s.tile t).running) = false := by
    simp only [List.any_map, List.any_eq_false, List.mem_range, Function.comp_apply]
    exact fun i hi => by simp [hidle i hi]
  have hshells : (s.shellsOn n).any (fun sh => !(s.onUnit (.shell sh)).isEmpty) = false := by
    simp only [State.shellsOn, below, List.any_eq_false, List.mem_filter, List.mem_range, Bool.and_eq_true, bne_iff_ne, beq_iff_eq]
    exact fun sh ⟨hsh, h0, hisl⟩ => by simp [hunits sh hsh h0 hisl]
  unfold State.shellsOn at hshells
  simp only [State.powerOff, htiles, hshells, hstat]
  rfl

theorem powerOff_spec {s : State} {n : Nat} (hwait : s.WaitersOff) : ((s.poweredDown n).dropUncarried).fld (.fabIslStat n) 6 4 = 3 ∧
    (∀ i, i < 12 → ((s.poweredDown n).dropUncarried).tileState (12 * n + i) = 5 ∧ (((s.poweredDown n).dropUncarried).tile (12 * n + i)).mem = [] ∧
      (((s.poweredDown n).dropUncarried).tile (12 * n + i)).back = s.tileState (12 * n + i)) ∧
    ∀ sh, sh < 96 → s.shellState sh ≠ 0 → s.fld (.fabShellMap sh) 14 12 = n → ((s.poweredDown n).dropUncarried).shellState sh = 5 := by
  have hgated (i : Nat) (hi : i < 12) := each_gateTile (islandTiles n) s (islandTiles_nodup n) (mem_islandTiles hi)
  have hgjobs := each_gateTile_jobs (islandTiles n) s
  have hpower : (s.poweredDown n).fld (.fabIslStat n) 6 4 = 3 := State.fld_setFld _ _ _ _ _ (by decide) (by decide)
  unfold State.poweredDown at hpower ⊢
  generalize s.each (islandTiles n) State.gateTile = u at hgated hgjobs hpower ⊢
  have hvrd (r : Reg) (hr : ∀ sh, r ≠ .fabShellMap sh) := each_setShellState_rd (s.shellsOn n) u 5 hr
  have hvrest := each_setShellState_rest (s.shellsOn n) u 5
  have hshell (sh : Nat) (h : sh ∈ s.shellsOn n) := each_setShellState h u (x := 5) (by decide)
  generalize u.each (s.shellsOn n) (fun s sh => s.setShellState sh 5) = v at hpower hvrd hvrest hshell ⊢
  have hvtiles : v.tiles = u.tiles := (congrArg State.tiles hvrest :)
  have hwait' : (v.setFld (.fabIslStat n) 6 4 3).WaitersOff := hwait.congr ((congrArg State.jobs hvrest :).trans hgjobs)
  have hstat (r : Reg) (hr : r ≠ .fabIslStat n) : (v.setFld (.fabIslStat n) 6 4 3).rd r = v.rd r := (State.rd_setFld _ _ _ _ _ _).trans (if_neg hr.symm)
  have haside := dropUncarried_aside hwait'
  refine ⟨(congrArg (getF · 6 4) ((JobsOnly.dropUncarried _).regs (.fabIslStat n) rfl)).trans hpower, fun i hi => ?_, fun sh hsh h0 hisl => ?_⟩
  · obtain ⟨hst, htile⟩ := hgated i hi
    have htile' : ((v.setFld (.fabIslStat n) 6 4 3).dropUncarried).tile (12 * n + i) = (s.tile (12 * n + i)).gate (s.tileState (12 * n + i)) := by
      have hv : (v.setFld (.fabIslStat n) 6 4 3).tile (12 * n + i) = u.tile (12 * n + i) := by
        change tget _ _ v.tiles = _
        rw [hvtiles, State.tile]
      rw [haside.tile, hv, htile]
    refine ⟨?_, by rw [htile']; rfl, by rw [htile']; rfl⟩
    rw [haside.tileState]
    exact (congrArg (getF · 2 0) ((hstat _ (by simp)).trans (hvrd _ (by simp)))).trans hst
  · rw [haside.shellState]
    refine (congrArg (getF · 26 24) (hstat (.fabShellMap sh) (by simp))).trans (hshell sh ?_)
    exact List.mem_filter.2 ⟨List.mem_range.2 hsh, by simp [h0, hisl]⟩

/-! ### Power on -/

/-- A gated tile begins its BIST. -/
def State.wakeTile (s : State) (t : Nat) : State :=
  if s.tileState t = 5 then (s.setTileState t 3).setTile t (fun x => { x with bist := some (x.bist.getD .wake) }) else s

theorem powerOn_eq {s : State} {n : Nat} (h : s.fld (.fabIslStat n) 6 4 = 2) : s.powerOn n = s.each (islandTiles n) State.wakeTile :=
  if_neg (by simp [h])

theorem wakeTile_ne (s : State) {t k : Nat} (h : t ≠ k) : (s.wakeTile t).tileState k = s.tileState k ∧ (s.wakeTile t).tile k = s.tile k := by
  unfold State.wakeTile
  split
  · exact ⟨(setTileState_tileState s t k (by decide)).trans (if_neg h), (State.tile_setTile _ t k _).trans (if_neg h)⟩
  · exact ⟨rfl, rfl⟩

theorem wakeTile_gated {s : State} {t : Nat} (h : s.tileState t = 5) : (s.wakeTile t).tileState t = 3 ∧
    ((s.wakeTile t).tile t).bist = some ((s.tile t).bist.getD .wake) := by
  rw [State.wakeTile, if_pos h]
  refine ⟨(setTileState_tileState s t t (by decide)).trans (if_pos rfl), ?_⟩
  rw [State.tile_setTile, if_pos rfl]
  rfl

theorem each_wakeTile {k : Nat} : ∀ (l : List Nat) (s : State), l.Nodup → k ∈ l → s.tileState k = 5 →
    (s.each l State.wakeTile).tileState k = 3 ∧ ((s.each l State.wakeTile).tile k).bist = some ((s.tile k).bist.getD .wake)
  | [], _, _, hk, _ => nomatch hk
  | t :: l, s, hnodup, hk, hgated => by
    obtain ⟨htl, hl⟩ := List.nodup_cons.1 hnodup
    by_cases htk : t = k
    · subst htk
      have hne (a : Nat) (ha : a ∈ l) : a ≠ t := fun h => htl (h ▸ ha)
      obtain ⟨hstate, hbist⟩ := wakeTile_gated hgated
      have hstate' := State.each_leaves (State.tileState · t) State.wakeTile (fun a ha u => (wakeTile_ne u (hne a ha)).1) (s.wakeTile t)
      have htile' := State.each_leaves (State.tile · t) State.wakeTile (fun a ha u => (wakeTile_ne u (hne a ha)).2) (s.wakeTile t)
      exact ⟨hstate'.trans hstate, (congrArg Tile.bist htile').trans hbist⟩
    · obtain ⟨h3, h4⟩ := wakeTile_ne s htk
      obtain ⟨h1, h2⟩ := each_wakeTile l (s.wakeTile t) hl ((List.mem_cons.1 hk).resolve_left fun h => htk h.symm) (h3.trans hgated)
      exact ⟨h1, h2.trans (by rw [h4])⟩

theorem powerOn_spec {s : State} {n : Nat} (h : s.fld (.fabIslStat n) 6 4 = 2) : (∀ i, i < 12 → s.tileState (12 * n + i) = 5 →
    (s.powerOn n).tileState (12 * n + i) = 3 ∧ ((s.powerOn n).tile (12 * n + i)).bist = some ((s.tile (12 * n + i)).bist.getD .wake)) ∧
    (s.powerOn n).jobs = s.jobs := by
  rw [powerOn_eq h]
  refine ⟨fun i hi hgated => each_wakeTile (islandTiles n) s (islandTiles_nodup n) (mem_islandTiles hi) hgated, ?_⟩
  exact State.each_keeps State.jobs State.wakeTile (fun u t => by unfold State.wakeTile; split <;> rfl) s _

/-! ### A drain that is cancelled -/

theorem reserve_rd (sh : Nat) (r : Reg) : ∀ (n : Nat) (s : State), (s.reserve sh n).2.rd r = s.rd r
  | 0, _ => rfl
  | n + 1, s => by
    rw [State.reserve]
    split
    · exact (reserve_rd sh r n _).trans rfl
    · rfl

theorem shellWhole_rd (s : State) (sh : Nat) {r : Reg} (hr : r ≠ .fabShellMap sh) : (s.shellWhole sh).rd r = s.rd r :=
  (State.rd_setFld _ _ _ _ _ _).trans (if_neg hr.symm)

theorem setShellState_rd (s : State) (sh x : Nat) {r : Reg} (hr : r ≠ .fabShellMap sh) : (s.setShellState sh x).rd r = s.rd r :=
  (State.rd_setFld _ _ _ _ _ _).trans (if_neg hr.symm)

/-- A shell's repair shows in its map and in the fabric's events alone. -/
theorem repairShell_rd (s : State) (sh : Nat) (mc : Bool) {r : Reg} (hr : r ≠ .fabShellMap sh) (hevt : r ≠ .fabEvtStatus) :
    (s.repairShell sh mc).rd r = s.rd r := by
  have hevents (u : State) : (u.fabEvt 2).rd r = u.rd r := State.rd_event_ne u hevt.symm _ _ 2
  have hset (u : State) (x : Nat) : (u.setShellState sh x).rd r = u.rd r := setShellState_rd u sh x hr
  have honly (u : State) : (u.onlyIf mc (·.fabEvt 2)).rd r = u.rd r := by
    cases mc
    · rfl
    · exact hevents u
  have hreserved := reserve_rd sh r (s.shellSize sh - (s.shellTiles sh).length - (s.joiners sh).length) s
  unfold State.repairShell
  dsimp only
  generalize s.reserve sh (s.shellSize sh - (s.shellTiles sh).length - (s.joiners sh).length) = found at hreserved ⊢
  split
  · exact shellWhole_rd s sh hr
  · split
    · exact hset s 3
    · obtain ⟨all, u⟩ := found
      cases all
      · exact ((honly _).trans (hset u 3)).trans hreserved
      · exact (hset u 2).trans hreserved

/-- A shell has all its tiles, and its island does not drain. -/
def State.Whole (s : State) (sh : Nat) : Prop :=
  (s.shellTiles sh).length = s.shellSize sh ∧ s.fld (.fabIslStat (s.fld (.fabShellMap sh) 14 12)) 6 4 ≠ 1

theorem State.Whole.congr {s t : State} {sh : Nat} (h : s.Whole sh) (hrd : ∀ r, (∀ k, k ≠ sh → r ≠ .fabShellMap k) → r ≠ .fabEvtStatus → t.rd r = s.rd r) :
    t.Whole sh := by
  have hmap (hi lo : Nat) : t.fld (.fabShellMap sh) hi lo = s.fld (.fabShellMap sh) hi lo := congrArg (getF · hi lo) (hrd _ (fun k hk => by simpa using hk.symm) (by simp))
  have hpool (p : Nat) : t.fld (.fabPoolCfg p) 5 4 = s.fld (.fabPoolCfg p) 5 4 := congrArg (getF · 5 4) (hrd _ (by simp) (by simp))
  have hisl (n : Nat) : t.fld (.fabIslStat n) 6 4 = s.fld (.fabIslStat n) 6 4 := congrArg (getF · 6 4) (hrd _ (by simp) (by simp))
  unfold State.Whole at h ⊢
  simpa only [State.shellTiles, State.shellSize, State.shellPool, hmap, hpool, hisl] using h

theorem State.Whole.repaired {s : State} {sh : Nat} (h : s.Whole sh) (mc : Bool) : (s.repairShell sh mc).shellState sh = 1 := by
  obtain ⟨hsize, hisl⟩ := h
  have hmissing : s.shellSize sh - (s.shellTiles sh).length = 0 := by omega
  have hwhole : s.repairShell sh mc = s.setShellState sh 1 := by
    simp only [State.repairShell, hmissing, if_true, State.shellWhole, if_neg hisl]
  rw [hwhole, setShellState_shellState, if_pos rfl]

/-- In a loop that repairs shells, a whole one returns to service. -/
theorem each_repairShell {sh : Nat} : ∀ (l : List Nat) (s : State), l.Nodup → sh ∈ l → s.Whole sh →
    (s.each l (fun s sh => s.repairShell sh false)).shellState sh = 1
  | [], _, _, h, _ => nomatch h
  | k :: l, s, hnodup, hsh, hwhole => by
    obtain ⟨hkl, hl⟩ := List.nodup_cons.1 hnodup
    by_cases hk : k = sh
    · subst hk
      refine (State.each_leaves (State.shellState · k) (fun s sh => s.repairShell sh false) (fun a (ha : a ∈ l) u => ?_) (s.repairShell k false)).trans (hwhole.repaired false)
      have hak : a ≠ k := fun h => hkl (h ▸ ha)
      exact congrArg (getF · 26 24) (repairShell_rd u a false (by simpa using hak.symm) (by simp))
    · refine each_repairShell l (s.repairShell k false) hl ((List.mem_cons.1 hsh).resolve_left fun h => hk h.symm) (hwhole.congr fun r hr hevt => ?_)
      exact repairShell_rd s k false (hr k hk) hevt

/-- The shells that a cancelled drain gives back. -/
def State.returning (s : State) (n : Nat) : List Nat :=
  below 96 (fun sh => s.shellState sh == 4 && s.fld (.fabShellMap sh) 14 12 == n && (s.shellTiles sh).all (fun t => (s.tile t).back != 4))

/-- GATE 0 without a live re-rig in the way. -/
def State.ungating (s : State) (n : Nat) : State := { s.setBit (.fabIslCtrl n) 4 false with gateWait := s.gateWait.filter (· ≠ n) }

theorem writeUngate_eq {s : State} {n : Nat} (hheld : s.gateHeld n = false) : s.writeUngate n = (s.ungating n).ungateIsland n := by
  have hheld' : (s.setBit (.fabIslCtrl n) 4 false).gateHeld n = false := (setGate_gateHeld s n false n).trans hheld
  have hbit : (s.ungating n).bit (.fabIslCtrl n) 4 = false := by
    change (s.setBit (.fabIslCtrl n) 4 false).bit (.fabIslCtrl n) 4 = false
    rw [State.bit, State.setBit, State.rd_store, if_pos rfl, getB_setB _ _ _ _ (by decide), if_pos rfl]
  simp only [State.writeUngate, hheld', Bool.false_eq_true, if_false, State.settleGate]
  exact if_neg fun h => Bool.false_ne_true (hbit.symm.trans h)

theorem ungating_spec (s : State) (n : Nat) : (s.ungating n).bit (.fabIslCtrl n) 4 = false ∧
    (∀ r, r ≠ .fabIslCtrl n → (s.ungating n).rd r = s.rd r) ∧ (s.ungating n).tiles = s.tiles ∧ (s.ungating n).jobs = s.jobs := by
  refine ⟨?_, fun r hr => setGate_rd s n false hr, rfl, rfl⟩
  change (s.setBit (.fabIslCtrl n) 4 false).bit (.fabIslCtrl n) 4 = false
  rw [State.bit, State.setBit, State.rd_store, if_pos rfl, getB_setB _ _ _ _ (by decide), if_pos rfl]

theorem ungate_off {s : State} {n : Nat} (hstat : s.fld (.fabIslStat n) 6 4 = 3) (hheld : s.gateHeld n = false) :
    (s.writeUngate n).bit (.fabIslCtrl n) 4 = false ∧ (s.writeUngate n).fld (.fabIslStat n) 6 4 = 2 ∧ (s.writeUngate n).tiles = s.tiles ∧
      (s.writeUngate n).jobs = s.jobs := by
  obtain ⟨hbit, hrd, htiles, hjobs⟩ := ungating_spec s n
  rw [writeUngate_eq hheld]
  generalize s.ungating n = u at hbit hrd htiles hjobs ⊢
  have hu : u.fld (.fabIslStat n) 6 4 = 3 := (congrArg (getF · 6 4) (hrd _ (by simp))).trans hstat
  have heq : u.ungateIsland n = u.setFld (.fabIslStat n) 6 4 2 := by simp only [State.ungateIsland, hu]
  rw [heq]
  exact ⟨(congrArg (getB · 4) ((State.rd_setFld _ _ _ _ _ _).trans (if_neg (by simp)))).trans hbit,
    State.fld_setFld _ _ _ _ _ (by decide) (by decide), htiles, hjobs⟩

theorem mem_insertNat (n : Nat) (l : List Nat) : n ∈ insertNat n l := by
  unfold insertNat
  split
  · assumption
  · simp

theorem ungate_held {s : State} {n : Nat} (hheld : s.gateHeld n = true) : (s.writeUngate n).bit (.fabIslCtrl n) 4 = false ∧
    n ∈ (s.writeUngate n).gateWait ∧ OnlyRegs [.fabIslCtrl n] { s with gateWait := (s.writeUngate n).gateWait } (s.writeUngate n) := by
  have hheld' : (s.setBit (.fabIslCtrl n) 4 false).gateHeld n = true := (setGate_gateHeld s n false n).trans hheld
  have heq : s.writeUngate n = (s.setBit (.fabIslCtrl n) 4 false).holdGate n := if_pos hheld'
  have hbit : (s.setBit (.fabIslCtrl n) 4 false).bit (.fabIslCtrl n) 4 = false := by
    rw [State.bit, State.setBit, State.rd_store, if_pos rfl, getB_setB _ _ _ _ (by decide), if_pos rfl]
  rw [heq]
  exact ⟨hbit, mem_insertNat n s.gateWait, fun r hr => setGate_rd s n false (by simpa using hr), rfl⟩

theorem ungate_cancels {s : State} {n : Nat} (hstat : s.fld (.fabIslStat n) 6 4 = 1) (hheld : s.gateHeld n = false) :
    (s.writeUngate n).bit (.fabIslCtrl n) 4 = false ∧ (s.writeUngate n).fld (.fabIslStat n) 6 4 = 0 ∧ (s.writeUngate n).jobs = s.jobs ∧
      ∀ sh, sh < 96 → s.shellState sh = 4 → s.fld (.fabShellMap sh) 14 12 = n → (∀ t ∈ s.shellTiles sh, (s.tile t).back ≠ 4) →
        (s.shellTiles sh).length = s.shellSize sh → (s.writeUngate n).shellState sh = 1 := by
  obtain ⟨hbit, hrd, htiles, hjobs⟩ := ungating_spec s n
  rw [writeUngate_eq hheld]
  generalize s.ungating n = u at hbit hrd htiles hjobs ⊢
  have hu : u.fld (.fabIslStat n) 6 4 = 1 := (congrArg (getF · 6 4) (hrd _ (by simp))).trans hstat
  have heq : u.ungateIsland n = (u.setFld (.fabIslStat n) 6 4 0).each ((u.setFld (.fabIslStat n) 6 4 0).returning n) (fun s sh => s.repairShell sh false) := by
    simp only [State.ungateIsland, hu]
    rfl
  have hoff : (u.setFld (.fabIslStat n) 6 4 0).fld (.fabIslStat n) 6 4 = 0 := State.fld_setFld _ _ _ _ _ (by decide) (by decide)
  have hvrd (r : Reg) (hr : r ≠ .fabIslStat n) (hr' : r ≠ .fabIslCtrl n) : (u.setFld (.fabIslStat n) 6 4 0).rd r = s.rd r :=
    ((State.rd_setFld _ _ _ _ _ _).trans (if_neg hr.symm)).trans (hrd r hr')
  have hvbit : (u.setFld (.fabIslStat n) 6 4 0).bit (.fabIslCtrl n) 4 = false :=
    (congrArg (getB · 4) ((State.rd_setFld _ _ _ _ _ _).trans (if_neg (by simp)))).trans hbit
  have hvtiles : (u.setFld (.fabIslStat n) 6 4 0).tiles = s.tiles := htiles
  have hvjobs : (u.setFld (.fabIslStat n) 6 4 0).jobs = s.jobs := hjobs
  rw [heq]
  generalize u.setFld (.fabIslStat n) 6 4 0 = v at hoff hvrd hvbit hvtiles hvjobs ⊢
  have hloop (r : Reg) (hr : ∀ sh, r ≠ .fabShellMap sh) (hevt : r ≠ .fabEvtStatus) : (v.each (v.returning n) (fun s sh => s.repairShell sh false)).rd r = v.rd r :=
    State.rd_each r (fun s sh => s.repairShell sh false) (fun w sh => repairShell_rd w sh false (hr sh) hevt) v _
  have hmap (sh hi lo : Nat) : v.fld (.fabShellMap sh) hi lo = s.fld (.fabShellMap sh) hi lo := congrArg (getF · hi lo) (hvrd _ (by simp) (by simp))
  have hpool (p : Nat) : v.fld (.fabPoolCfg p) 5 4 = s.fld (.fabPoolCfg p) 5 4 := congrArg (getF · 5 4) (hvrd _ (by simp) (by simp))
  refine ⟨(congrArg (getB · 4) (hloop _ (by simp) (by simp))).trans hvbit, (congrArg (getF · 6 4) (hloop _ (by simp) (by simp))).trans hoff,
    (UnitsOnly.each (fun w sh => .repairShell w sh false) v _).jobs.trans hvjobs, fun sh hsh hstate hisl hback hsize => ?_⟩
  have htile (t : Nat) : v.tile t = s.tile t := by rw [State.tile, hvtiles, State.tile]
  have htiles' : v.shellTiles sh = s.shellTiles sh := by simp only [State.shellTiles, hmap]
  refine each_repairShell _ v (List.nodup_range.filter _) (List.mem_filter.2 ⟨List.mem_range.2 hsh, ?_⟩) ⟨?_, ?_⟩
  · simp only [State.shellState, hmap, hisl, htiles', htile, Bool.and_eq_true, beq_iff_eq, and_true, List.all_eq_true, bne_iff_ne]
    exact ⟨hstate, hback⟩
  · rw [htiles', hsize]
    simp only [State.shellSize, State.shellPool, hmap, hpool]
  · rw [hmap, hisl, hoff]
    decide

/-- Settles O36: each trigger of an island's clock and power gate. -/
theorem islandClocksAndGates : Obligations.IslandClocksAndGates := by
  refine ⟨fun s n fq hshown => ?_, fun s n hshown hstat hrig => ?_, fun s n hstat hidle hunits hwait => ?_, fun s n hshown => ?_, fun s n hstat => ?_⟩
  · exact ⟨s.writeFreq n fq, congrArg Host.Outcome.next (hostTo_shown hshown _), writeFreq_spec s n fq⟩
  · exact ⟨s.writeGate n, congrArg Host.Outcome.next (hostTo_shown hshown _), gate_spec hstat hrig⟩
  · exact ⟨_, congrArg Host.Outcome.next (powerOff_eq hstat hidle hunits), powerOff_spec hwait⟩
  · have hexec : exec (.islandUngate n) s = .next (s.writeUngate n) := congrArg Host.Outcome.next (hostTo_shown hshown _)
    exact ⟨fun hstat hheld => ⟨_, hexec, ungate_off hstat hheld⟩, fun hheld => ⟨_, hexec, ungate_held hheld⟩,
      fun hstat hheld => ⟨_, hexec, ungate_cancels hstat hheld⟩⟩
  · exact ⟨s.powerOn n, rfl, powerOn_spec hstat⟩

end Sys2Proof.Machine
end

section
/-! PROOFS. O34: the debug commands of a tile. -/

namespace Sys2Proof.Machine

/-! ### A job executed again -/

/-- A job stays what it is, but for what `Job.Follows` allows. -/
theorem JobsOnly.job? {s t : State} (h : JobsOnly s t) {k : Nat} {x : Job} (hx : s.job? k = some x) : ∃ y, t.job? k = some y ∧ x.Follows y := by
  obtain ⟨f, hf, hfollows⟩ := h.jobs
  refine ⟨f x, ?_, hfollows x⟩
  have hfind : t.job? k = (s.job? k).map f := by
    unfold State.job?
    rw [hf, List.find?_map]
    congr 2
    funext y
    simp [(hfollows y).id]
  rw [hfind, hx]
  rfl

/-- A job that is marked as executed again stays so while jobs end. -/
theorem retried_of_setJob {s t : State} {j : Nat} {x : Job} (hj : s.job? j = some x) {f : Job → Job} (hid : ∀ y, (f y).id = y.id) (hf : (f x).retried = true)
    (h : JobsOnly (s.setJob j f) t) : ∃ y, t.job? j = some y ∧ y.retried = true := by
  obtain ⟨y, hy, hfollows⟩ := h.job? (State.job?_setJob_self hj f hid)
  exact ⟨y, hy, hfollows.retried hf⟩

theorem retry_retried {s : State} {j : Nat} {x : Job} (hj : s.job? j = some x) (hphase : x.phase ≠ .sealed ∧ x.phase ≠ .waiting) (hfew : x.failures < 2) :
    ∃ y, (s.retry j true).job? j = some y ∧ y.retried = true := by
  have hphase : ¬(x.phase = .sealed ∨ x.phase = .waiting) := not_or.mpr hphase
  have hfew : ¬ 2 ≤ x.failures := by omega
  simp only [State.retry, hj, if_neg hphase, Bool.true_and, decide_eq_true_eq, if_neg hfew]
  have hleft : UnitsOnly s ((((s.lostCycles x).freeShells x).dropDemand x).dropLoad x) :=
    (((UnitsOnly.lostCycles s x).trans (.freeShells _ x)).trans (.dropDemand _ x)).trans (.dropLoad _ x)
  generalize (((s.lostCycles x).freeShells x).dropDemand x).dropLoad x = u at hleft ⊢
  refine retried_of_setJob ((State.job?_congr hleft.jobs j).trans hj) (f := fun y => { y.again with failures := y.failures + 1 }) (fun _ => rfl) rfl ?_
  refine .trans ?_ (.onlyIf JobsOnly.dropUncarried _ _)
  refine .bumpPool_of ?_ x.pool
  exact ((UnitsOnly.vacateAll _ x).trans (.bump _ rfl 1)).jobsOnly

/-- A half as it waits again. -/
def Job.halfAgain (x : Job) (pq : Bool) : Job → Job := fun y =>
  { y.setHalf pq (x.half pq).again with retried := true, ahead := true, suspect := false, yielded := pq && y.yielded
                                        drawWait := pq && y.drawWait, pqWait := !pq && y.pqWait, drawn := y.drawn.filter (fun e => e.1 != pq)
                                        prGranted := y.prGranted && pq != x.prHalf
                                        catches := if pq then y.catches else 0, failures := y.failures + 1 }

theorem retryHalf_retried {s : State} {j : Nat} {x : Job} {pq : Bool} (hj : s.job? j = some x) (hphase : x.phase ≠ .sealed)
    (hhalf : (x.half pq).phase ≠ .sealed ∧ (x.half pq).phase ≠ .waiting) (hfew : x.failures < 2) :
    ∃ y, (s.retryHalf j pq true).job? j = some y ∧ y.retried = true := by
  have hphase : ¬(x.phase = .sealed ∨ (x.half pq).phase = .sealed ∨ (x.half pq).phase = .waiting) := by simp [hphase, hhalf]
  have hfew : ¬ 2 ≤ x.failures := by omega
  simp only [State.retryHalf, hj, if_neg hphase, Bool.true_and, decide_eq_true_eq, if_neg hfew]
  have hleft : UnitsOnly s (if pq then s.freeShells x else s.lostCycles x) := by
    cases pq
    · exact .lostCycles s x
    · exact .freeShells s x
  generalize (if pq then s.freeShells x else s.lostCycles x) = u at hleft ⊢
  refine retried_of_setJob ((State.job?_congr hleft.jobs j).trans hj) (f := x.halfAgain pq) (fun y => by cases pq <;> rfl) rfl ?_
  refine .trans ?_ (.onlyIf JobsOnly.dropUncarried _ _)
  refine .bumpPool_of ?_ (x.half pq).pool
  exact (((UnitsOnly.onlyIf (fun v => .dropDemand v x) _ _).trans (.each (fun v u => .vacated v _ u) _ _)).trans (.bump _ rfl 1)).jobsOnly

/-- What runs on a unit and has failed less than twice is executed again. -/
theorem retryOn_retried {s : State} {u : JobUnit} {x : Job} (hj : s.job? x.id = some x) (hon : x.On u) (hphase : x.phase ≠ .sealed) (hfew : x.failures < 2) :
    ∃ y, (s.retryOn u true x).job? x.id = some y ∧ y.retried = true := by
  unfold State.retryOn
  rcases hon with ⟨-, hpq, hcl, hwaiting⟩ | ⟨hpq, hwaiting, hsealed⟩ | ⟨hcl, hpq, hwaiting, hsealed⟩
  · rw [if_neg fun h => hpq h.1, if_neg fun h => hcl h.1]
    exact retry_retried hj ⟨hphase, hwaiting⟩ hfew
  · rw [if_pos ⟨hpq, hsealed⟩]
    exact retryHalf_retried hj hphase ⟨hsealed, hwaiting⟩ hfew
  · rw [if_neg fun h => hpq h.1, if_pos ⟨hcl, hsealed⟩]
    exact retryHalf_retried hj hphase ⟨hsealed, hwaiting⟩ hfew

namespace Departs

theorem retryHalf (s : State) (j : Nat) (pq counts : Bool) : Departs s (s.retryHalf j pq counts) := by
  unfold State.retryHalf
  split
  · exact refl s
  · next x _ =>
    refine ite (refl s) (ite (departing (fun u => endHalf u j pq _) s) ?_)
    dsimp only
    refine .trans ?_ (onlyIf dropUncarried _ _)
    refine bumpPool_of ?_ (x.half pq).pool
    refine .trans ?_ (bump _ (r := .genRetryCnt) rfl 1)
    refine .trans ?_ (each (fun u => vacated u x.slice) _ _)
    refine .trans ?_ (onlyIf (fun u => dropDemand u x) _ _)
    exact (ite (freeShells s x) (lostCycles s x)).trans (setJob _ j _)

theorem retryOn (s : State) (u : JobUnit) (counts : Bool) (x : Job) : Departs s (s.retryOn u counts x) :=
  ite (retryHalf s x.id true counts) (ite (retryHalf s x.id false counts) (retry s x.id counts))

theorem abandonJob (s : State) (t : Nat) : Departs s (s.abandonJob t) := by
  unfold State.abandonJob
  split
  · exact wipeTile s t
  · split
    · exact retryOn s _ true _
    · exact wipeTile s t

end Departs

/-! ### Halts between two instructions -/

theorem noteExc_keeps (s : State) (t cause addr resume : Nat) (imp : Bool) : (s.noteExc t cause addr resume imp).tiles = s.tiles ∧
    (s.noteExc t cause addr resume imp).jobs = s.jobs ∧
    ∀ r, r ≠ .tilExcInfo t → r ≠ .tilExcAddr t → (s.noteExc t cause addr resume imp).rd r = s.rd r := by
  unfold State.noteExc
  split
  · exact ⟨rfl, rfl, fun _ _ _ => rfl⟩
  · refine ⟨rfl, rfl, fun r hinfo haddr => ?_⟩
    unfold State.recordExc
    dsimp only
    rw [State.rd_setFld, if_neg haddr.symm, State.rd_wr_ne _ _ hinfo.symm]
    rfl

theorem rd_withTiles (s : State) (l : List (Nat × Tile)) (r : Reg) : ({ s with tiles := l } : State).rd r = s.rd r := rfl

theorem setTile_rd (s : State) (t : Nat) (f : Tile → Tile) (r : Reg) : (s.setTile t f).rd r = s.rd r := rfl

/-- Registers that change beside one tile. -/
theorem OnlyRegs.of_setTile {l : List Reg} {s u : State} {t : Nat} {f : Tile → Tile} (h : OnlyRegs l (s.setTile t f) u) :
    OnlyRegs l s { u with tiles := s.tiles } :=
  ⟨fun r hr => ((rd_withTiles u s.tiles r).trans (h.1 r hr)).trans (setTile_rd s t f r), congrArg (fun v : State => { v with tiles := s.tiles }) h.2⟩

/-- A stop of a debugger, whatever record the tile holds. -/
theorem haltTile_debug (s : State) (t : Nat) {cause : Nat} (hcause : 7 < cause) (hc : cause < 16) :
    (s.haltTile t cause 0 0 .none none false).tile t = (s.tile t).haltedAt cause none ∧
      (∀ u, u ≠ t → (s.haltTile t cause 0 0 .none none false).tile u = s.tile u) ∧
      (s.haltTile t cause 0 0 .none none false).fld (.tilDbgStat t) 11 8 = cause ∧ (s.haltTile t cause 0 0 .none none false).jobs = s.jobs := by
  have hset : s.haltTile t cause 0 0 .none none false =
      (((s.setTile t (Tile.haltedAt cause none)).setFld (.tilDbgStat t) 11 8 cause).countFault t cause).noteExc t cause 0 0 false := rfl
  have hcount (u : State) : u.countFault t cause = u := if_neg (by omega)
  have hstat : ((s.setTile t (Tile.haltedAt cause none)).setFld (.tilDbgStat t) 11 8 cause).fld (.tilDbgStat t) 11 8 = cause :=
    (State.fld_setFld _ _ _ _ _ (by decide) (by decide)).trans (Nat.mod_eq_of_lt hc)
  have htile (k : Nat) : ((s.setTile t (Tile.haltedAt cause none)).setFld (.tilDbgStat t) 11 8 cause).tile k =
      if t = k then (s.tile t).haltedAt cause none else s.tile k := State.tile_setTile s t k _
  have hjobs : ((s.setTile t (Tile.haltedAt cause none)).setFld (.tilDbgStat t) 11 8 cause).jobs = s.jobs := rfl
  rw [hset, hcount]
  generalize (s.setTile t (Tile.haltedAt cause none)).setFld (.tilDbgStat t) 11 8 cause = u at hstat htile hjobs ⊢
  obtain ⟨htiles', hjobs', hrd⟩ := noteExc_keeps u t cause 0 0 false
  have htile' (k : Nat) : (u.noteExc t cause 0 0 false).tile k = u.tile k := by rw [State.tile, htiles', State.tile]
  exact ⟨by rw [htile', htile, if_pos rfl], fun k hk => by rw [htile', htile, if_neg hk.symm],
    (congrArg (getF · 11 8) (hrd _ (by simp) (by simp))).trans hstat, hjobs'.trans hjobs⟩

/-! ### The commands -/

theorem debugging_of {s : State} {t : Nat} (hdebug : s.tileDebug = true) (hatt : s.attached t = true) : s.debugging t = true := by
  rw [State.debugging, hdebug, hatt]
  rfl

section
variable {s : State} {t : Nat}

theorem exec_tilDbgAttach (hgood : s.shadowBad .dbgRights = false) (hshown : s.hidden (.tilDbgCtrl t) = false) (on : Bool) :
    exec (.tilDbgAttach t on) s = .next (s.writeAttach t on) := by
  change execTilDbgAttach t on s = _
  rw [execTilDbgAttach, hostTo_shown hshown, sweepReg_of_good hgood]

theorem exec_tilDbgHalt (hgood : s.shadowBad .dbgRights = false) (hshown : s.hidden (.tilDbgCtrl t) = false) (n : Nat) :
    exec (.tilDbgHalt t n) s = .next (s.haltRequest t n) := by
  change execTilDbgHalt t s n = _
  rw [execTilDbgHalt, hostTo_shown hshown, sweepReg_of_good hgood]

theorem exec_tilDbgResume (hgood : s.shadowBad .dbgRights = false) (hshown : s.hidden (.tilDbgCtrl t) = false) :
    exec (.tilDbgResume t) s = .next (s.resumeRequest t) := by
  change execTilDbgResume t s = _
  rw [execTilDbgResume, hostTo_shown hshown, sweepReg_of_good hgood]

theorem exec_tilDbgStep (hgood : s.shadowBad .dbgRights = false) (hshown : s.hidden (.tilDbgCtrl t) = false) :
    exec (.tilDbgStep t) s = .next (s.stepRequest t) := by
  change execTilDbgStep t s = _
  rw [execTilDbgStep, hostTo_shown hshown, sweepReg_of_good hgood]

theorem exec_tilDbgAbandon (hgood : s.shadowBad .dbgRights = false) (hshown : s.hidden (.tilDbgCtrl t) = false) :
    exec (.tilDbgAbandon t) s = .next (s.abandonRequest t) := by
  change execTilDbgAbandon t s = _
  rw [execTilDbgAbandon, hostTo_shown hshown, sweepReg_of_good hgood]

/-- Without the right no command does anything. -/
theorem tilDbg_refused (hdebug : s.tileDebug = false) (hgood : s.shadowBad .dbgRights = false) (n : Nat) (on : Bool) :
    ∀ c ∈ [Instr.tilDbgAttach t on, .tilDbgHalt t n, .tilDbgResume t, .tilDbgStep t, .tilDbgAbandon t], exec c s = .next s := by
  have hnot : s.debugging t = false := by rw [State.debugging, hdebug]; rfl
  have hto (f : State → State) (hf : f s = s) : s.hostTo (.tilDbgCtrl t) (fun s => f (s.sweepReg .dbgRights)) = s := by
    rw [State.hostTo, sweepReg_of_good hgood, hf, ite_self]
  intro c hc
  fin_cases hc
  · exact congrArg Host.Outcome.next (hto (·.writeAttach t on) (if_pos (by simp [hdebug])))
  · exact congrArg Host.Outcome.next (hto (·.haltRequest t n) (if_pos (by simp [hnot])))
  · exact congrArg Host.Outcome.next (hto (·.resumeRequest t) (if_neg (by simp [hnot])))
  · exact congrArg Host.Outcome.next (hto (·.stepRequest t) (if_neg (by simp [hnot])))
  · exact congrArg Host.Outcome.next (hto (·.abandonRequest t) (if_neg (by simp [hnot])))

theorem attach_spec (hdebug : s.tileDebug = true) : (s.writeAttach t true).attached t = true ∧ OnlyRegs [.tilDbgCtrl t] s (s.writeAttach t true) := by
  have heq : s.writeAttach t true = s.setBit (.tilDbgCtrl t) 0 true := by simp [State.writeAttach, hdebug]
  rw [heq]
  refine ⟨?_, .store (List.mem_singleton_self _) s _⟩
  rw [State.attached, State.bit, State.setBit, State.rd_store, if_pos rfl, getB_setB _ _ _ _ (by decide), if_pos rfl]

/-- Breakpoints, watchpoint and ATTACH of a tile off. -/
def State.stopsOff (s : State) (t : Nat) : State :=
  (((s.setBit (.tilDbgBp0 t) 31 false).setBit (.tilDbgBp1 t) 31 false).setBit (.tilDbgWp t) 63 false).setBit (.tilDbgCtrl t) 0 false

theorem stopsOff_spec (s : State) (t : Nat) : (s.stopsOff t).attached t = false ∧ (s.stopsOff t).bit (.tilDbgBp0 t) 31 = false ∧
    (s.stopsOff t).bit (.tilDbgBp1 t) 31 = false ∧ (s.stopsOff t).bit (.tilDbgWp t) 63 = false ∧
    OnlyRegs [.tilDbgCtrl t, .tilDbgBp0 t, .tilDbgBp1 t, .tilDbgWp t] s (s.stopsOff t) := by
  have hset (u : State) (r : Reg) {i : Nat} (hi : i < 64) : (u.setBit r i false).bit r i = false := by
    rw [State.bit, State.setBit, State.rd_store, if_pos rfl, getB_setB _ _ _ _ hi, if_pos rfl]
  have hne (u : State) {r r' : Reg} (h : r ≠ r') (i j : Nat) : (u.setBit r i false).bit r' j = u.bit r' j :=
    congrArg (getB · j) ((State.rd_store _ _ _ _).trans (if_neg h))
  refine ⟨hset _ _ (by decide), ?_, ?_, ?_, .trans (.trans (.trans (.store (by simp) s _) (.store (by simp) _ _)) (.store (by simp) _ _)) (.store (by simp) _ _)⟩
  · rw [State.stopsOff, hne _ (by simp), hne _ (by simp), hne _ (by simp), hset _ _ (by decide)]
  · rw [State.stopsOff, hne _ (by simp), hne _ (by simp), hset _ _ (by decide)]
  · rw [State.stopsOff, hne _ (by simp), hset _ _ (by decide)]

/-- A tile with no HALT request. -/
def Tile.unarmed (x : Tile) : Tile := { x with haltIn := none }

theorem detach_spec (hdebug : s.tileDebug = true) (hrun : (s.tile t).halt = none) : (s.writeAttach t false).attached t = false ∧
    (s.writeAttach t false).bit (.tilDbgBp0 t) 31 = false ∧ (s.writeAttach t false).bit (.tilDbgBp1 t) 31 = false ∧
    (s.writeAttach t false).bit (.tilDbgWp t) 63 = false ∧ (s.writeAttach t false).tile t = (s.tile t).unarmed ∧
    OnlyRegs [.tilDbgCtrl t, .tilDbgBp0 t, .tilDbgBp1 t, .tilDbgWp t] s { s.writeAttach t false with tiles := s.tiles } := by
  obtain ⟨hatt, hbp0, hbp1, hwp, honly⟩ := stopsOff_spec (s.setTile t Tile.unarmed) t
  have htile : ((s.setTile t Tile.unarmed).stopsOff t).tile t = (s.tile t).unarmed := by
    have htiles : ((s.setTile t Tile.unarmed).stopsOff t).tiles = (s.setTile t Tile.unarmed).tiles := (congrArg State.tiles honly.2 :)
    rw [State.tile, htiles, ← State.tile, State.tile_setTile, if_pos rfl]
  have heq : s.writeAttach t false = ((s.setTile t Tile.unarmed).stopsOff t).resumeTile t := by
    simp only [State.writeAttach, hdebug, Bool.not_true, Bool.false_eq_true, if_false]
    rfl
  generalize (s.setTile t Tile.unarmed).stopsOff t = u at hatt hbp0 hbp1 hwp honly htile heq
  have hresume : u.resumeTile t = u := by
    have hnone : (u.tile t).halt = none := by rw [htile]; exact hrun
    simp only [State.resumeTile, hnone]
  rw [heq, hresume]
  exact ⟨hatt, hbp0, hbp1, hwp, htile, honly.of_setTile⟩

end

section
variable {s : State} {t : Nat}

theorem haltRequest_now (hdebug : s.debugging t = true) (hrun : (s.tile t).halt = none) : s.haltRequest t 0 = s.haltTile t 10 0 0 .none none false := by
  simp [State.haltRequest, hdebug, hrun]

theorem haltRequest_later (hdebug : s.debugging t = true) (hrun : (s.tile t).halt = none) {n : Nat} (hn : 0 < n) :
    s.haltRequest t n = s.setTile t (fun x => { x with haltIn := some n }) := by
  simp [State.haltRequest, hdebug, hrun, Nat.ne_of_gt hn]

/-- A tile whose halt is over. -/
def Tile.unhalted (x : Tile) : Tile := { x with halt := none }

/-- The end of a stop between two instructions. -/
theorem resume_spec (hdebug : s.debugging t = true) {h : Halt} (hhalt : (s.tile t).halt = some h) (hprecise : h.imprecise = false)
    (hcause : h.cause = 11 ∨ (h.cause = 10 ∧ h.instr = none)) : (s.resumeRequest t).tile t = (s.tile t).unhalted ∧
      (s.resumeRequest t).fld (.tilDbgStat t) 11 8 = 0 ∧ OnlyRegs [.tilDbgStat t] s { s.resumeRequest t with tiles := s.tiles } := by
  have heq : s.resumeRequest t = (s.setTile t Tile.unhalted).setFld (.tilDbgStat t) 11 8 0 := by
    have hresume : s.resumeTile t = s.unhalt t id := by
      rcases hcause with hc | ⟨hc, hi⟩
      · simp only [State.resumeTile, hhalt, hprecise, Bool.false_and, Bool.false_eq_true, if_false, hc]
      · simp only [State.resumeTile, hhalt, hprecise, Bool.false_and, Bool.false_eq_true, if_false, hc, hi]
    rw [State.resumeRequest, hdebug, if_pos rfl, hresume]
    rfl
  have hstat : ((s.setTile t Tile.unhalted).setFld (.tilDbgStat t) 11 8 0).fld (.tilDbgStat t) 11 8 = 0 :=
    State.fld_setFld _ _ _ _ _ (by decide) (by decide)
  have htile : ((s.setTile t Tile.unhalted).setFld (.tilDbgStat t) 11 8 0).tile t = (s.tile t).unhalted := (State.tile_setTile s t t _).trans (if_pos rfl)
  have honly : OnlyRegs [.tilDbgStat t] (s.setTile t Tile.unhalted) ((s.setTile t Tile.unhalted).setFld (.tilDbgStat t) 11 8 0) :=
    .store (List.mem_singleton_self _) _ _
  rw [heq]
  exact ⟨htile, hstat, honly.of_setTile⟩

/-! ### A step over a NOP -/

/-- A tile about to run its next instruction for a STEP after a stop between two. -/
def Tile.stepping (h : Halt) (x : Tile) : Tile := { x with halt := none, passBp := x.passBp || h.cause == 8 }

/-- The device as a STEP runs its instruction. -/
def State.stepping (s : State) (t : Nat) (h : Halt) : State := (s.setTile t (Tile.stepping h)).setFld (.tilDbgStat t) 11 8 0

theorem stepping_tile (s : State) (t : Nat) (h : Halt) : (s.stepping t h).tile t = (s.tile t).stepping h := (State.tile_setTile s t t _).trans (if_pos rfl)

theorem stepping_rd (s : State) (t : Nat) (h : Halt) {r : Reg} (hr : r ≠ .tilDbgStat t) : (s.stepping t h).rd r = s.rd r :=
  ((State.rd_setFld _ _ _ _ _ _).trans (if_neg hr.symm)).trans (setTile_rd s t _ r)

theorem stepping_breakHit (s : State) (t : Nat) (h : Halt) (pc : Nat) : (s.stepping t h).breakHit t pc = s.breakHit t pc := by
  have hbit (r : Reg) (hr : r ≠ .tilDbgStat t) (i : Nat) : (s.stepping t h).bit r i = s.bit r i := congrArg (getB · i) (stepping_rd s t h hr)
  have hfld (r : Reg) (hr : r ≠ .tilDbgStat t) (hi lo : Nat) : (s.stepping t h).fld r hi lo = s.fld r hi lo := congrArg (getF · hi lo) (stepping_rd s t h hr)
  simp only [State.breakHit, State.attached, hbit (.tilDbgCtrl t) (by simp), hbit (.tilDbgBp0 t) (by simp), hbit (.tilDbgBp1 t) (by simp),
    hfld (.tilDbgBp0 t) (by simp), hfld (.tilDbgBp1 t) (by simp)]

/-- A NOP moves its tile to the next instruction. -/
def Tile.afterNop (x : Tile) : Tile := Tile.spend { x with pc := (x.pc + 1) % 8192, passBp := false } 1

theorem runWord_nop {s : State} {t : Nat} {f : TileFields} (hlegal : wordLegal 0 f = true) (hbreak : s.breakHit t (s.tile t).pc = false)
    (harmed : (s.tile t).haltIn = none) : s.runWord t 0 f none 0 false = ({ s with freeCtr := s.freeCtr + 1 } : State).setTile t (fun _ => (s.tile t).afterNop) := by
  have hdraw : ((s.tile t).drawCtx 0 f).2 = s.tile t := drawCtx_of_no_draw rfl rfl rfl
  have hinstr : s.runWord t 0 f none 0 false = s.runDrawn t 0 f semNop ((s.tile t).drawCtx 0 f).1 ((s.tile t).drawCtx 0 f).2 0 false := by
    change s.runInstr t 0 f semNop none 0 false = _
    simp only [State.runInstr, hbreak, hlegal]
    rfl
  rw [hinstr, hdraw]
  have hnone : (s.tile t).haltIn.isSome = false := by rw [harmed]; rfl
  simp only [State.runDrawn, semNop, TileOut.one, hnone, Bool.false_eq_true, if_false]
  rfl

/-- A STEP from a stop between two instructions at a NOP. -/
theorem step_nop {f : TileFields} {w : Nat} {h : Halt} (hdebug : s.debugging t = true) (hhalt : (s.tile t).halt = some h) (hprecise : h.imprecise = false)
    (hcause : h.cause = 11 ∨ (h.cause = 10 ∧ h.instr = none)) (hrun : (s.tile t).running = true) (hended : (s.tile t).ended = false)
    (hword : (s.tile t).imem[(s.tile t).pc]? = some w) (hdecode : decodeTile w = (0, f)) (hlegal : wordLegal 0 f = true)
    (hbreak : s.breakHit t (s.tile t).pc = false) (harmed : (s.tile t).haltIn = none) :
    ((s.stepRequest t).tile t).pc = ((s.tile t).pc + 1) % 8192 ∧ ((s.stepRequest t).tile t).halt = some ⟨11, 0, .none, none, false, false⟩ ∧
      ((s.stepRequest t).tile t).mem = (s.tile t).mem := by
  have htile := stepping_tile s t h
  have hstep : s.unhalt t (fun x => { x with pc := if decide (h.cause ≤ 7) && !h.imprecise then (x.pc + 1) % 8192 else x.pc, passBp := x.passBp || h.cause == 8 }) =
      s.stepping t h := by
    have hfault : decide (h.cause ≤ 7) = false := by
      rcases hcause with hc | ⟨hc, -⟩ <;> simp [hc]
    simp only [hfault, Bool.false_and, Bool.false_eq_true, if_false]
    rfl
  have hnext : (s.stepping t h).nextWord t h = ((0, f), none, 0, false) := by
    have hdec : decodeTile ((((s.stepping t h).tile t).imem[((s.stepping t h).tile t).pc]?).getD 0) = (0, f) := by
      rw [htile]
      change decodeTile (((s.tile t).imem[(s.tile t).pc]?).getD 0) = _
      rw [hword]
      exact hdecode
    rcases hcause with hc | ⟨hc, hi⟩
    · cases hi : h.instr with
      | none => simp only [State.nextWord, hi, hdec]
      | some i => simp only [State.nextWord, hi, hc, hdec]
    · simp only [State.nextWord, hi, hdec]
  have hran := runWord_nop (s := s.stepping t h) hlegal (by rw [stepping_breakHit, htile]; exact hbreak) (by rw [htile]; exact harmed)
  have hrtile : ((s.stepping t h).runWord t 0 f none 0 false).tile t = ((s.tile t).stepping h).afterNop := by
    rw [hran, State.tile_setTile, if_pos rfl, htile]
  have hmoved : ((s.tile t).stepping h).afterNop ≠ (s.tile t).stepping h := fun he => by
    have hpc : ((s.tile t).pc + 1) % 8192 = (s.tile t).pc := congrArg Tile.pc he
    omega
  have heq : s.stepRequest t = ((s.stepping t h).runWord t 0 f none 0 false).haltTile t 11 0 0 .none none false := by
    rw [State.stepRequest, hdebug, if_pos rfl]
    simp only [State.stepTile, hhalt]
    rw [if_neg (by simp [hprecise, hrun, hended]), hstep, hnext]
    dsimp only
    rw [if_neg (by rwa [hrtile, htile]), if_neg (by rw [hrtile]; exact Bool.false_ne_true)]
  obtain ⟨hhalted, -⟩ := haltTile_debug ((s.stepping t h).runWord t 0 f none 0 false) t (cause := 11) (by decide) (by decide)
  rw [heq, hhalted, hrtile]
  exact ⟨rfl, rfl, rfl⟩

/-! ### ABANDON -/

theorem abandonRequest_eq (hdebug : s.debugging t = true) (hhalt : (s.tile t).halt.isSome = true) (hrun : (s.tile t).running = true) :
    s.abandonRequest t = (s.setBit (.tilDbgStat t) 1 true).abandonJob t := if_pos (by simp [hdebug, hhalt, hrun])

theorem abandon_shown (t : Nat) : ((s.setBit (.tilDbgStat t) 1 true).abandonJob t).bit (.tilDbgStat t) 1 = true := by
  refine (Departs.abandonJob (s.setBit (.tilDbgStat t) 1 true) t).dbg t ?_
  rw [State.bit, State.setBit, State.rd_store, if_pos rfl, getB_setB _ _ _ _ (by decide), if_pos rfl]

theorem abandon_retries {x : Job} {sh : Nat} (hsh : s.shellOf t = some sh) (hhead : (s.onUnit (.shell sh)).head? = some x) (hj : s.job? x.id = some x)
    (hon : x.On (.shell sh)) (hfew : x.failures < 2) :
    ∃ y, ((s.setBit (.tilDbgStat t) 1 true).abandonJob t).job? x.id = some y ∧ y.retried = true := by
  have hphase : x.phase ≠ .sealed := by
    have hmem := List.mem_of_mem_filter (List.mem_of_mem_head? hhead)
    have hp := (List.mem_filter.1 (List.mem_of_mem_head? hhead)).2
    simp only [Bool.and_eq_true, decide_eq_true_eq] at hp
    exact hp.2
  have hshell : (s.setBit (.tilDbgStat t) 1 true).shellOf t = some sh := by
    have hfld (hi lo : Nat) : (s.setBit (.tilDbgStat t) 1 true).fld (.fabTileStat t) hi lo = s.fld (.fabTileStat t) hi lo :=
      congrArg (getF · hi lo) ((State.rd_store _ _ _ _).trans (if_neg (by simp)))
    rw [← hsh, State.shellOf, State.shellOf, State.tileState, hfld, hfld, State.tileState]
  have hhead' : ((s.setBit (.tilDbgStat t) 1 true).onUnit (.shell sh)).head? = some x := hhead
  have heq : (s.setBit (.tilDbgStat t) 1 true).abandonJob t = (s.setBit (.tilDbgStat t) 1 true).retryOn (.shell sh) true x := by
    simp only [State.abandonJob, hshell, hhead']
  rw [heq]
  exact retryOn_retried hj hon hphase hfew

end

/-- Settles O34: without the right nothing; under it each command in turn. -/
theorem tileDebugCommands : Obligations.TileDebugCommands := by
  refine ⟨fun s t n on hdebug hgood => tilDbg_refused hdebug hgood n on, fun s t hdebug hgood hshown => ⟨⟨_, exec_tilDbgAttach hgood hshown true, attach_spec hdebug⟩,
    fun hrun => ⟨_, exec_tilDbgAttach hgood hshown false, detach_spec hdebug hrun⟩, fun hatt => ?_⟩⟩
  have hon := debugging_of hdebug hatt
  refine ⟨fun hrun => ⟨?_, fun n hn => ?_⟩, fun h hhalt hprecise hcause => ⟨?_, fun f w hr hended hword hdecode hlegal hbreak harmed => ?_⟩,
    fun hhalt hrun => ⟨?_, fun x sh hsh hhead hj hunit hfew => ?_⟩⟩
  · obtain ⟨htile, hothers, hstat, hjobs⟩ := haltTile_debug s t (cause := 10) (by decide) (by decide)
    exact ⟨_, (exec_tilDbgHalt hgood hshown 0).trans (congrArg _ (haltRequest_now hon hrun)), htile, hstat, hothers, hjobs⟩
  · refine ⟨_, (exec_tilDbgHalt hgood hshown n).trans (congrArg _ (haltRequest_later hon hrun hn)), ?_, fun u hu => ?_, rfl, rfl⟩
    · rw [State.tile_setTile, if_pos rfl]
    · rw [State.tile_setTile, if_neg hu.symm]
  · exact ⟨_, exec_tilDbgResume hgood hshown, resume_spec hon hhalt hprecise hcause⟩
  · exact ⟨_, exec_tilDbgStep hgood hshown, step_nop hon hhalt hprecise hcause hr hended hword hdecode hlegal hbreak harmed⟩
  · exact ⟨_, (exec_tilDbgAbandon hgood hshown).trans (congrArg _ (abandonRequest_eq hon hhalt hrun)), abandon_shown t⟩
  · obtain ⟨y, hy, hretried⟩ := abandon_retries hsh hhead hj hunit hfew
    exact ⟨_, y, (exec_tilDbgAbandon hgood hshown).trans (congrArg _ (abandonRequest_eq hon hhalt hrun)), hy, hretried⟩

end Sys2Proof.Machine
end

section
/-! PROOFS. O33: spares, the ends of BIST and the mask budgets of tiles. -/

namespace Sys2Proof.Machine

/-! ### Seeds -/

/-- The registers of the instances that serve requests, and of the generator's events. -/
def Reg.ofDraws : Reg → Bool
  | .rngDrbStat _ | .rngDrbCount _ | .rngDrbMaxcount _ | .rngDrbReqs _ | .rngEvtStatus => true
  | _ => false

/-- From `s` to `t` a request is served. -/
structure RequestServed (s t : State) : Prop where
  regs : ∀ r, r.ofDraws = false → t.rd r = s.rd r
  rest : ({ t with regs := s.regs, shadow := s.shadow, out := s.out, msixPend := s.msixPend, rng := s.rng } : State) = s

namespace RequestServed
variable {s t u : State}

theorem refl (s : State) : RequestServed s s := ⟨fun _ _ => rfl, rfl⟩

theorem trans (h : RequestServed s t) (h' : RequestServed t u) : RequestServed s u :=
  ⟨fun r hr => (h'.regs r hr).trans (h.regs r hr),
    (congrArg (fun x : State => { x with regs := s.regs, shadow := s.shadow, out := s.out, msixPend := s.msixPend, rng := s.rng }) h'.rest).trans h.rest⟩

theorem store (s : State) {r : Reg} (hr : r.ofDraws = true) (f : DWord → DWord) : RequestServed s (s.store r f) :=
  ⟨fun r' h' => by rw [State.rd_store, if_neg fun h : r = r' => by simp [h, h'] at hr], rfl⟩

theorem rngEvt (s : State) (i : Nat) : RequestServed s (s.rngEvt i) :=
  ⟨fun r hr => (rngEvt_frame s i).1 r fun hm => by rw [List.mem_singleton.1 hm] at hr; exact absurd hr (by decide),
    congrArg (fun x : State => { x with rng := s.rng }) (rngEvt_frame s i).2⟩

theorem request {k n : Nat} {bs : Bytes} {b : Bool} (h : s.request k n = .got bs b t) : RequestServed s t := by
  have hdrbg (u : State) (x : DrbgState) : RequestServed u (u.setDrbg k x) := ⟨fun _ _ => rfl, rfl⟩
  have hevt (u : State) (c : Bool) : RequestServed u (u.onlyIf c (·.rngEvt 3)) := by
    cases c
    · exact refl u
    · exact rngEvt u 3
  unfold State.request at h
  split at h
  · cases h
  · dsimp only at h
    split at h
    · cases h
    · cases h
      refine .trans ?_ (hdrbg _ _)
      refine .trans ?_ (hevt _ _)
      refine .trans ?_ (store _ (r := .rngDrbStat k) rfl _)
      refine .trans ?_ (store _ (r := .rngDrbReqs k) rfl (fun _ => _))
      exact (store s (r := .rngDrbCount k) rfl _).trans (store _ (r := .rngDrbMaxcount k) rfl _)

theorem tile (h : RequestServed s t) (k : Nat) : t.tile k = s.tile k := by
  have htiles : t.tiles = s.tiles := (congrArg State.tiles h.rest :)
  rw [State.tile, htiles, State.tile]

end RequestServed

/-- Tile `t` is seeded with `bs`. -/
structure Seeded (s u : State) (t : Nat) (bs : Bytes) : Prop where
  tile : ∀ k, u.tile k = if t = k then (s.tile t).seed bs else s.tile k
  budget : tget 0 t u.maskJobs = 0
  due : u.bit (.fabTileStat t) 26 = false
  stat : ∀ k hi lo, hi < 26 ∨ 26 < lo → u.fld (.fabTileStat k) hi lo = s.fld (.fabTileStat k) hi lo
  regs : ∀ r, r.ofDraws = false → r ≠ .fabTileStat t → u.rd r = s.rd r
  jobs : u.jobs = s.jobs

/-- A tile with its mask generator seeded and its count of jobs at 0. -/
def State.seededWith (s : State) (t : Nat) (bs : Bytes) : State :=
  (({ s with maskJobs := tset t 0 s.maskJobs } : State).setTile t (·.seed bs)).setBit (.fabTileStat t) 26 false

theorem seededWith_spec (s : State) (t : Nat) (bs : Bytes) : Seeded s (s.seededWith t bs) t bs where
  tile k := State.tile_setTile { s with maskJobs := tset t 0 s.maskJobs } t k (·.seed bs)
  budget := (tget_tset _ _ _ _ _).trans (if_pos rfl)
  due := by rw [State.bit, State.seededWith, State.setBit, State.rd_store, if_pos rfl, getB_setB _ _ _ _ (by decide), if_pos rfl]
  stat k hi lo h := by
    by_cases hk : t = k
    · subst hk
      exact (congrArg (getF · hi lo) ((State.rd_store _ _ _ _).trans (if_pos rfl))).trans (getF_setB _ 26 hi lo _ (by decide) (by omega))
    · exact congrArg (getF · hi lo) ((State.rd_store _ _ _ _).trans (if_neg (by simpa using hk)))
  regs r _ hr := (State.rd_store _ _ _ _).trans (if_neg hr.symm)
  jobs := rfl

/-- A generator that serves requests seeds the tile. -/
theorem seedTile_served {s : State} {t : Nat} (h : s.seedServed t = true) : ∃ bs b u, s.seedTile t = .got bs b u ∧ Seeded s u t bs := by
  simp only [State.seedServed, Bool.and_eq_true, bne_iff_ne, decide_eq_true_eq] at h
  obtain ⟨⟨hinst, hlimit⟩, hcount⟩ := h
  obtain ⟨bs, b, v, hgot⟩ : ∃ bs b v, s.request (s.maskDrb t) 32 = .got bs b v := by
    unfold State.request
    rw [if_neg hinst]
    dsimp only
    rw [if_neg (by omega)]
    exact ⟨_, _, _, rfl⟩
  have hdrawn := RequestServed.request hgot
  have hv := seededWith_spec v t bs
  refine ⟨bs, b, v.seededWith t bs, ?_, fun k => ?_, hv.budget, hv.due, fun k hi lo hd => ?_, fun r hr hne => (hv.regs r hr hne).trans (hdrawn.regs r hr),
    hv.jobs.trans (congrArg State.jobs hdrawn.rest :)⟩
  · rw [State.seedTile, hgot]
    rfl
  · rw [hv.tile, hdrawn.tile, hdrawn.tile]
  · exact (hv.stat k hi lo hd).trans (congrArg (getF · hi lo) (hdrawn.regs (.fabTileStat k) rfl))

theorem seedTile_failed {s : State} {t : Nat} (h : s.drbState (s.maskDrb t) = 0) : s.seedTile t = .failed := by
  have hreq : s.request (s.maskDrb t) 32 = .failed := if_pos h
  rw [State.seedTile, hreq]

/-- Whether a tile's generator serves its seed is told by the registers of its island and of the generator. -/
theorem seedServed_congr {s u : State} (h : ∀ r, (r.ofDraws = true ∨ ∃ n, r = .fabIslMaskdrb n) → u.rd r = s.rd r) (t : Nat) : u.seedServed t = s.seedServed t := by
  have hmask : u.maskDrb t = s.maskDrb t := congrArg (getF · 3 0) (h _ (.inr ⟨_, rfl⟩))
  have hstat (k : Nat) : u.drbState k = s.drbState k := congrArg (getF · 1 0) (h _ (.inl rfl))
  have hcount (k : Nat) : u.fld (.rngDrbCount k) 20 0 = s.fld (.rngDrbCount k) 20 0 := congrArg (getF · 20 0) (h _ (.inl rfl))
  simp only [State.seedServed, hmask, hstat, hcount]

/-! ### A tile that joins a shell -/

/-- The map of a shell that takes a tile. -/
def State.mapJoin (s : State) (t sh : Nat) : State :=
  (if (s.shellTiles sh).isEmpty then s.setFld (.fabShellMap sh) 14 12 (islandOf t) else s).setBit (.fabShellMap sh) (t % 12) true

/-- The status of a tile that is in a shell. -/
def State.statJoin (s : State) (t sh : Nat) : State := (s.setTileState t 1).setFld (.fabTileStat t) 14 8 sh

/-- A tile that is on its way nowhere. -/
def Tile.arrived (x : Tile) : Tile := { x with joining := none }

theorem joinShell_eq (s : State) (t sh : Nat) : s.joinShell t sh = (((s.mapJoin t sh).statJoin t sh).setTile t Tile.arrived).restroke sh := rfl

theorem mapJoin_fld (s : State) (t sh k hi lo : Nat) : (s.mapJoin t sh).fld (.fabTileStat k) hi lo = s.fld (.fabTileStat k) hi lo := by
  have hset (u : State) : (u.setBit (.fabShellMap sh) (t % 12) true).fld (.fabTileStat k) hi lo = u.fld (.fabTileStat k) hi lo :=
    congrArg (getF · hi lo) ((State.rd_store _ _ _ _).trans (if_neg (by simp)))
  rw [State.mapJoin, hset]
  split
  · exact congrArg (getF · hi lo) ((State.rd_setFld _ _ _ _ _ _).trans (if_neg (by simp)))
  · rfl

theorem statJoin_rd (s : State) (t sh k : Nat) : (s.statJoin t sh).rd (.fabTileStat k) =
    if t = k then setF (setF (s.rd (.fabTileStat t)) 2 0 1) 14 8 sh else s.rd (.fabTileStat k) := by
  simp only [State.statJoin, State.setTileState, State.setFld, State.rd_store, Reg.fabTileStat.injEq]
  by_cases h : t = k
  · simp [h]
  · simp [h]

theorem joinShell_tileState (s : State) (t sh : Nat) : (s.joinShell t sh).tileState t = 1 := by
  rw [joinShell_eq, State.tileState, restroke_fld _ _ _ (.inl (by decide))]
  refine (congrArg (getF · 2 0) ((statJoin_rd (s.mapJoin t sh) t sh t).trans (if_pos rfl))).trans ?_
  exact (getF_setF_ne _ 14 8 2 0 sh (by decide) (by decide) (.inr (by decide))).trans (getF_setF _ 2 0 1 (by decide) (by decide))

theorem joinShell_shell (s : State) (t : Nat) {sh : Nat} (hsh : sh < 96) : (s.joinShell t sh).fld (.fabTileStat t) 14 8 = sh := by
  rw [joinShell_eq, restroke_fld _ _ _ (.inl (by decide))]
  refine (congrArg (getF · 14 8) ((statJoin_rd (s.mapJoin t sh) t sh t).trans (if_pos rfl))).trans ?_
  exact (getF_setF _ 14 8 sh (by decide) (by decide)).trans (Nat.mod_eq_of_lt (by omega))

theorem joinShell_fld (s : State) (t sh k : Nat) {hi lo : Nat} (h : 15 < lo) : (s.joinShell t sh).fld (.fabTileStat k) hi lo = s.fld (.fabTileStat k) hi lo := by
  rw [joinShell_eq, restroke_fld _ _ _ (.inr h), ← mapJoin_fld s t sh k hi lo]
  refine (congrArg (getF · hi lo) (statJoin_rd (s.mapJoin t sh) t sh k)).trans ?_
  split
  · next hk =>
    subst hk
    exact (getF_setF_ne _ 14 8 hi lo sh (by decide) (by decide) (.inl (by omega))).trans
      (getF_setF_ne _ 2 0 hi lo 1 (by decide) (by decide) (.inl (by omega)))
  · rfl

theorem joinShell_tile (s : State) (t sh k : Nat) : (s.joinShell t sh).tile k = if t = k then (s.tile t).arrived else s.tile k := by
  have hstroke (u : State) : (u.restroke sh).tiles = u.tiles :=
    State.each_keeps State.tiles (fun v (t : Nat) => v.setBit (.fabTileStat t) 15 (decide ((u.shellTiles sh).head? = some t))) (fun _ _ => rfl) _ _
  have hmap : (s.mapJoin t sh).tiles = s.tiles := by
    unfold State.mapJoin
    split <;> rfl
  have hset := State.tile_setTile ((s.mapJoin t sh).statJoin t sh) t k Tile.arrived
  have hbase (k : Nat) : ((s.mapJoin t sh).statJoin t sh).tile k = s.tile k := by
    change tget _ _ (s.mapJoin t sh).tiles = _
    rw [hmap, State.tile]
  rw [joinShell_eq, State.tile, hstroke, ← State.tile, hset, hbase, hbase]

theorem joinShell_rd (s : State) (t sh : Nat) {r : Reg} (hr : r.ofUnits = false) : (s.joinShell t sh).rd r = s.rd r := (UnitsOnly.joinShell s t sh).regs r hr

/-! ### A proven tile in its place -/

/-- What a placed tile keeps. -/
structure Placed (s u : State) (t : Nat) : Prop where
  state : u.tileState t = 1 ∨ u.tileState t = 2
  stat : ∀ hi lo, 15 < lo → u.fld (.fabTileStat t) hi lo = s.fld (.fabTileStat t) hi lo
  back : (u.tile t).back = (s.tile t).back
  regs : ∀ r, r.ofUnits = false → r ≠ .tilKernel t → u.rd r = s.rd r

theorem loadShellKernels_spec (s : State) (t : Nat) : (∀ r, r ≠ .tilKernel t → (s.loadShellKernels t).rd r = s.rd r) ∧
    (∀ k, ((s.loadShellKernels t).tile k).back = (s.tile k).back ∧ ((s.loadShellKernels t).tile k).joining = (s.tile k).joining) ∧
    (s.loadShellKernels t).jobs = s.jobs ∧ (s.loadShellKernels t).maskJobs = s.maskJobs := by
  have hload (p : Nat) : (∀ r, r ≠ .tilKernel t → (s.loadKernels t p).rd r = s.rd r) ∧
      (∀ k, ((s.loadKernels t p).tile k).back = (s.tile k).back ∧ ((s.loadKernels t p).tile k).joining = (s.tile k).joining) ∧
      (s.loadKernels t p).jobs = s.jobs ∧ (s.loadKernels t p).maskJobs = s.maskJobs := by
    unfold State.loadKernels
    split
    · exact ⟨fun _ _ => rfl, fun _ => ⟨rfl, rfl⟩, rfl, rfl⟩
    · next c _ =>
      refine ⟨fun r hr => (setTile_rd _ t _ r).trans (State.rd_wr_ne s _ hr.symm), fun k => ?_, rfl, rfl⟩
      rw [State.tile_setTile]
      split
      · next hk => subst hk; exact ⟨rfl, rfl⟩
      · exact ⟨rfl, rfl⟩
  unfold State.loadShellKernels
  split
  · exact hload _
  · exact ⟨fun _ _ => rfl, fun _ => ⟨rfl, rfl⟩, rfl, rfl⟩

theorem placeTile_spec (s : State) (t : Nat) : ((s.placeTile t).tileState t = 1 ∨ (s.placeTile t).tileState t = 2) ∧
    (∀ hi lo, 15 < lo → (s.placeTile t).fld (.fabTileStat t) hi lo = s.fld (.fabTileStat t) hi lo) ∧
    ((s.placeTile t).tile t).back = (s.tile t).back ∧ ∀ r, r.ofUnits = false → (s.placeTile t).rd r = s.rd r := by
  unfold State.placeTile
  split
  · next sh _ =>
    have hstate := joinShell_tileState s t sh
    have hstat (hi lo : Nat) (h : 15 < lo) := joinShell_fld s t sh t (hi := hi) h
    have hback : ((s.joinShell t sh).tile t).back = (s.tile t).back := by rw [joinShell_tile, if_pos rfl]; rfl
    have hregs (r : Reg) (hr : r.ofUnits = false) := joinShell_rd s t sh hr
    generalize s.joinShell t sh = u at hstate hstat hback hregs ⊢
    dsimp only
    split
    · have hwhole (hi lo : Nat) : (u.shellWhole sh).fld (.fabTileStat t) hi lo = u.fld (.fabTileStat t) hi lo :=
        congrArg (getF · hi lo) (shellWhole_rd u sh (by simp))
      refine ⟨.inl ((hwhole 2 0).trans hstate), fun hi lo h => (hwhole hi lo).trans (hstat hi lo h), hback, fun r hr => ?_⟩
      exact (shellWhole_rd u sh fun he => by simp [he, Reg.ofUnits] at hr).trans (hregs r hr)
    · exact ⟨.inl hstate, hstat, hback, hregs⟩
  · exact ⟨.inr ((leaveShell_tileState s t 2 t).trans (if_pos rfl)), fun hi lo h => leaveShell_fld s t 2 t h, by rw [Departs.leaveShell_tile],
      fun r hr => (UnitsOnly.leaveShell s t 2).regs r hr⟩

theorem placed_spec (s : State) (t : Nat) : Placed s ((s.placeTile t).loadShellKernels t) t := by
  obtain ⟨hstate, hstat, hback, hregs⟩ := placeTile_spec s t
  obtain ⟨hrd, htile, -, -⟩ := loadShellKernels_spec (s.placeTile t) t
  have hfld (hi lo : Nat) : ((s.placeTile t).loadShellKernels t).fld (.fabTileStat t) hi lo = (s.placeTile t).fld (.fabTileStat t) hi lo :=
    congrArg (getF · hi lo) (hrd _ (by simp))
  exact ⟨hstate.imp (hfld 2 0).trans (hfld 2 0).trans, fun hi lo h => (hfld hi lo).trans (hstat hi lo h), (htile t).1.trans hback,
    fun r hr hne => (hrd r hne).trans (hregs r hr)⟩

/-! ### What follows a BIST -/

namespace Departs
variable {s : State}

theorem afterLoss (s : State) (sh : Option Nat) (mc : Bool) : Departs s (s.afterLoss sh mc) := by
  unfold State.afterLoss
  split
  · exact refl s
  · exact ite (refl s) (repairShell s _ mc)

theorem logOutcome (s : State) (t e now x : Nat) : Departs s (s.logOutcome t e now x) := ite (setFld s (r := .fabMclogInfo e) rfl _ _ _) (refl s)

theorem gateIsland (s : State) (n : Nat) : Departs s (s.gateIsland n) := by
  have hhold : Departs s (s.holdGate n) := of_still (fun _ _ => rfl) rfl id
  have hdrain : Departs s (s.drainIsland n) :=
    ((setFld s (r := .fabIslStat n) rfl 6 4 1).trans (each (fun u sh => setShellState u sh 4) _ _)).trans (dropUncarried _)
  unfold State.gateIsland
  split
  · exact ite hhold hdrain
  · exact hhold
  · exact refl s

theorem ungateIsland (s : State) (n : Nat) : Departs s (s.ungateIsland n) := by
  unfold State.ungateIsland
  split
  · exact (setFld s (r := .fabIslStat n) rfl 6 4 0).trans (each (fun u sh => repairShell u sh false) _ _)
  · exact setFld s (r := .fabIslStat n) rfl 6 4 2
  · exact refl s

theorem settleGate (s : State) (n : Nat) : Departs s (s.settleGate n) := by
  have hwait : Departs s { s with gateWait := s.gateWait.filter (· ≠ n) } := of_still (fun _ _ => rfl) rfl id
  exact ite (hwait.trans (gateIsland _ n)) (hwait.trans (ungateIsland _ n))

theorem wakeDone (s : State) (n : Nat) : Departs s (s.wakeDone n) := by
  unfold State.wakeDone
  refine ite (refl s) ?_
  dsimp only
  refine .trans ?_ (dropUncarried _)
  refine ite_trans ?_ (settleGate _ n)
  exact (setFld s (r := .fabIslStat n) rfl 6 4 0).trans (each (fun u sh => repairShell u sh false) _ _)

theorem bistFailed (s : State) (t : Nat) (why : BistFor) : Departs (s.leaveShell t 4) (s.bistFailed t why) := by
  unfold State.bistFailed
  cases why with
  | check e now => exact (((logOutcome _ t e now 2).trans (fabEvt _ (by decide))).trans (wakeDone _ _)).trans (dropUncarried _)
  | bringUp => exact fabEvt _ (by decide)
  | wake => exact (fabEvt _ (by decide)).trans (wakeDone _ _)
  | block => exact ((fabEvt _ (by decide)).trans (afterLoss _ _ _)).trans (dropUncarried _)
  | join => exact fabEvt _ (by decide)
  | spare => exact fabEvt _ (by decide)

end Departs

/-- The log of machine checks stands while an island wakes. -/
theorem wakeDone_mclog (s : State) (n e : Nat) : (s.wakeDone n).rd (.fabMclogInfo e) = s.rd (.fabMclogInfo e) := by
  have hrepair (u : State) (sh : Nat) : (u.repairShell sh false).rd (.fabMclogInfo e) = u.rd (.fabMclogInfo e) :=
    repairShell_rd u sh false (by simp) (by simp)
  have hset (u : State) (x : Nat) : (u.setFld (.fabIslStat n) 6 4 x).rd (.fabMclogInfo e) = u.rd (.fabMclogInfo e) :=
    (State.rd_setFld _ _ _ _ _ _).trans (if_neg (by simp))
  have hdrop (u : State) : u.dropUncarried.rd (.fabMclogInfo e) = u.rd (.fabMclogInfo e) := (JobsOnly.dropUncarried u).regs _ rfl
  have hgate (u : State) : (u.gateIsland n).rd (.fabMclogInfo e) = u.rd (.fabMclogInfo e) := by
    unfold State.gateIsland
    split
    · split
      · rfl
      · exact (hdrop _).trans ((each_setShellState_rd _ _ 4 (by simp)).trans (hset u 1))
    · rfl
    · rfl
  have hungate (u : State) : (u.ungateIsland n).rd (.fabMclogInfo e) = u.rd (.fabMclogInfo e) := by
    unfold State.ungateIsland
    split
    · exact (State.rd_each _ (fun s sh => s.repairShell sh false) hrepair _ _).trans (hset u 0)
    · exact hset u 2
    · rfl
  have hsettle (u : State) : (u.settleGate n).rd (.fabMclogInfo e) = u.rd (.fabMclogInfo e) := by
    unfold State.settleGate
    dsimp only
    split
    · exact (hgate _).trans rfl
    · exact (hungate _).trans rfl
  unfold State.wakeDone
  dsimp only
  split
  · rfl
  · rw [hdrop]
    split
    · exact (hsettle _).trans ((State.rd_each _ (fun s sh => s.repairShell sh false) hrepair _ _).trans (hset s 0))
    · exact (State.rd_each _ (fun s sh => s.repairShell sh false) hrepair _ _).trans (hset s 0)

/-! ### The outcome in the log -/

/-- The entry of the log of machine checks is still that of tile `t`'s check at `now`. -/
def State.logged (s : State) (t e now : Nat) : Prop := s.fld (.fabMclogInfo e) 6 0 = t ∧ s.fld (.fabMclogTime e) 63 0 = now

theorem logOutcome_shown {s : State} {t e now x : Nat} (h : s.logged t e now) (hx : x < 8) : (s.logOutcome t e now x).fld (.fabMclogInfo e) 34 32 = x := by
  have heq : s.logOutcome t e now x = s.setFld (.fabMclogInfo e) 34 32 x := if_pos h
  rw [heq]
  exact (State.fld_setFld _ _ _ _ _ (by decide) (by decide)).trans (Nat.mod_eq_of_lt hx)

theorem State.logged.congr {s u : State} {t e now : Nat} (h : s.logged t e now) (hinfo : u.rd (.fabMclogInfo e) = s.rd (.fabMclogInfo e))
    (htime : u.rd (.fabMclogTime e) = s.rd (.fabMclogTime e)) : u.logged t e now :=
  ⟨(congrArg (getF · 6 0) hinfo).trans h.1, (congrArg (getF · 63 0) htime).trans h.2⟩

/-! ### The ends of a BIST -/

/-- The control store's scrub is noted and patch RAM reloaded. -/
def State.bistLoaded (s : State) (t : Nat) : State := (s.wr (.tilScrub t) (s.rd .genTime)).loadPatch t

theorem bistLoaded_spec (s : State) (t : Nat) : (∀ r, r ≠ .tilScrub t → (s.bistLoaded t).rd r = s.rd r) ∧
    (∀ k, ((s.bistLoaded t).tile k).back = (s.tile k).back) ∧ (s.bistLoaded t).jobs = s.jobs := by
  refine ⟨fun r hr => (setTile_rd _ t _ r).trans (State.rd_wr_ne s _ hr.symm), fun k => ?_, rfl⟩
  refine (congrArg Tile.back (State.tile_setTile (s.wr (.tilScrub t) (s.rd .genTime)) t k _)).trans ?_
  split
  · next hk =>
    subst hk
    split <;> rfl
  · rfl

/-- The result of a BIST, 1 passed, 2 failed, 3 without a seed, in the tile's status. -/
def State.bistResult (s : State) (t x : Nat) : State := s.setFld (.fabTileStat t) 25 24 x

/-- A tile's BIST is over. -/
def Tile.bistOver (x : Tile) : Tile := { x with bist := none }

theorem bistResult_fld (s : State) (t : Nat) {x : Nat} (hx : x < 4) : (s.bistResult t x).fld (.fabTileStat t) 25 24 = x :=
  (State.fld_setFld _ _ _ _ _ (by decide) (by decide)).trans (Nat.mod_eq_of_lt hx)

theorem bistResult_fld_ne (s : State) (t x : Nat) {hi lo : Nat} (h : 25 < lo ∨ hi < 24) :
    (s.bistResult t x).fld (.fabTileStat t) hi lo = s.fld (.fabTileStat t) hi lo :=
  State.fld_setFld_ne s (.fabTileStat t) (.fabTileStat t) 25 24 hi lo x (by decide) (by decide) (.inr h)

theorem bistResult_rd (s : State) (t x : Nat) {r : Reg} (hr : r ≠ .fabTileStat t) : (s.bistResult t x).rd r = s.rd r :=
  (State.rd_setFld _ _ _ _ _ _).trans (if_neg hr.symm)

section
variable {s : State} {t : Nat} {why : BistFor}

theorem tileBistDone_failed (hbist : (s.tile t).bist = some why) (hseeded : (s.tile t).unseeded = false) (hon : s.tileState t ≠ 5) :
    s.tileBistDone t false = ((s.bistResult t 2).setTile t Tile.bistOver).bistFailed t why := by
  simp only [State.tileBistDone, hbist]
  rw [if_neg (by simp [hseeded, hon])]
  rfl

theorem tileBistDone_seeded (hbist : (s.tile t).bist = some why) (hseeded : (s.tile t).unseeded = false) (hon : s.tileState t ≠ 5) {bs : Bytes} {b : Bool}
    {u : State} (hgot : (s.bistLoaded t).seedTile t = .got bs b u) :
    s.tileBistDone t true = ((u.bistResult t 1).setTile t Tile.bistOver).bistPassed t why := by
  unfold State.bistLoaded at hgot
  simp only [State.tileBistDone, hbist, hgot]
  rw [if_neg (by simp [hseeded, hon])]
  rfl

theorem tileBistDone_unseeded (hbist : (s.tile t).bist = some why) (hseeded : (s.tile t).unseeded = false) (hon : s.tileState t ≠ 5)
    (hfail : (s.bistLoaded t).seedTile t = .failed) :
    s.tileBistDone t true = ((s.bistLoaded t).bistResult t 3).setTile t (fun x => { x with unseeded := true }) := by
  unfold State.bistLoaded at hfail
  simp only [State.tileBistDone, hbist, hfail]
  rw [if_neg (by simp [hseeded, hon])]
  rfl

theorem bistFailed_spec (hbist : (s.tile t).bist = some why) (hseeded : (s.tile t).unseeded = false) (hon : s.tileState t ≠ 5) :
    (s.tileBistDone t false).tileState t = 4 ∧ (s.tileBistDone t false).fld (.fabTileStat t) 25 24 = 2 ∧ ((s.tileBistDone t false).tile t).bist = none := by
  rw [tileBistDone_failed hbist hseeded hon]
  have hresult : ((s.bistResult t 2).setTile t Tile.bistOver).fld (.fabTileStat t) 25 24 = 2 := bistResult_fld s t (by decide)
  have hover : (((s.bistResult t 2).setTile t Tile.bistOver).tile t).bist = none := by rw [State.tile_setTile, if_pos rfl]; rfl
  generalize (s.bistResult t 2).setTile t Tile.bistOver = u at hresult hover ⊢
  have hdep := Departs.bistFailed u t why
  refine ⟨hdep.state_retired ((leaveShell_tileState u t 4 t).trans (if_pos rfl)), ?_, ?_⟩
  · exact (hdep.stat t 25 24 (by decide)).trans ((leaveShell_fld u t 4 t (by decide)).trans hresult)
  · rw [hdep.bist, Departs.leaveShell_tile]
    exact hover

/-- A tile whose BIST has passed, seeded, before it goes where it was meant to. -/
structure Proven (s v : State) (t : Nat) : Prop where
  state : v.tileState t = s.tileState t
  stat : ∀ hi lo, hi < 24 → v.fld (.fabTileStat t) hi lo = s.fld (.fabTileStat t) hi lo
  result : v.fld (.fabTileStat t) 25 24 = 1
  back : (v.tile t).back = (s.tile t).back
  regs : ∀ r, r.ofDraws = false → r ≠ .fabTileStat t → r ≠ .tilScrub t → v.rd r = s.rd r

theorem bistPassed_eq (hbist : (s.tile t).bist = some why) (hseeded : (s.tile t).unseeded = false) (hon : s.tileState t ≠ 5)
    (hserved : s.seedServed t = true) : ∃ v, s.tileBistDone t true = v.bistPassed t why ∧ Proven s v t := by
  obtain ⟨hrd, hback, -⟩ := bistLoaded_spec s t
  have hserved' : (s.bistLoaded t).seedServed t = true := by
    rw [seedServed_congr (fun r hr => hrd r fun he => ?_) t]
    · exact hserved
    · rcases hr with hr | ⟨n, hr⟩
      · simp [he, Reg.ofDraws] at hr
      · simp [he] at hr
  obtain ⟨bs, b, u, hgot, hu⟩ := seedTile_served hserved'
  have hfld (hi lo : Nat) : (s.bistLoaded t).fld (.fabTileStat t) hi lo = s.fld (.fabTileStat t) hi lo := congrArg (getF · hi lo) (hrd _ (by simp))
  have hstat (hi lo : Nat) (h : hi < 24) : (u.bistResult t 1).fld (.fabTileStat t) hi lo = s.fld (.fabTileStat t) hi lo :=
    ((bistResult_fld_ne u t 1 (.inr h)).trans (hu.stat t hi lo (.inl (by omega)))).trans (hfld hi lo)
  refine ⟨(u.bistResult t 1).setTile t Tile.bistOver, tileBistDone_seeded hbist hseeded hon hgot, hstat 2 0 (by decide), hstat,
    bistResult_fld u t (by decide), ?_, fun r hr hne hscrub => ?_⟩
  · rw [State.tile_setTile, if_pos rfl]
    change (u.tile t).back = _
    rw [hu.tile, if_pos rfl]
    exact hback t
  · exact ((bistResult_rd u t 1 hne).trans (hu.regs r hr hne)).trans (hrd r hscrub)

theorem bringUp_passed {v : State} (hv : Proven s v t) : ((v.bistPassed t .bringUp).tileState t = 1 ∨ (v.bistPassed t .bringUp).tileState t = 2) ∧
    (v.bistPassed t .bringUp).fld (.fabTileStat t) 25 24 = 1 ∧ (v.bistPassed t .bringUp).bit .fabEvtStatus 4 = true := by
  have hp := placed_spec v t
  have heq : v.bistPassed t .bringUp = ((v.placeTile t).loadShellKernels t).fabEvt 4 := rfl
  rw [heq]
  generalize (v.placeTile t).loadShellKernels t = u at hp ⊢
  have hfld (hi lo : Nat) : (u.fabEvt 4).fld (.fabTileStat t) hi lo = u.fld (.fabTileStat t) hi lo := congrArg (getF · hi lo) (State.rd_event_ne u (by simp) _ _ 4)
  exact ⟨hp.state.imp (hfld 2 0).trans (hfld 2 0).trans, (hfld 25 24).trans ((hp.stat 25 24 (by decide)).trans hv.result), State.bit_event _ _ _ _ (by decide)⟩

theorem checked_returns {v : State} (hv : Proven s v t) (hback : (s.tile t).back ≠ 4) (hfew : s.fld (.fabTileStat t) 19 16 < s.fld .fabMcLimit 3 0) (e now : Nat) :
    ((v.bistPassed t (.check e now)).tileState t = 1 ∨ (v.bistPassed t (.check e now)).tileState t = 2) ∧
      (s.logged t e now → (v.bistPassed t (.check e now)).fld (.fabMclogInfo e) 34 32 = 1) := by
  have hlimit : v.fld .fabMcLimit 3 0 = s.fld .fabMcLimit 3 0 := congrArg (getF · 3 0) (hv.regs _ rfl (by simp) (by simp))
  have hbelow : decide (v.fld .fabMcLimit 3 0 ≤ v.fld (.fabTileStat t) 19 16) = false := by
    rw [hlimit, hv.stat 19 16 (by decide)]
    simpa using hfew
  have heq : v.bistPassed t (.check e now) = (((v.placeTile t).loadShellKernels t).logOutcome t e now 1).wakeDone (islandOf t) := by
    simp only [State.bistPassed, hbelow, Bool.false_eq_true, if_false]
  have hp := placed_spec v t
  rw [heq]
  have hlog (hs : s.logged t e now) : ((v.placeTile t).loadShellKernels t).logged t e now :=
    hs.congr ((hp.regs _ rfl (by simp)).trans (hv.regs _ rfl (by simp) (by simp))) ((hp.regs _ rfl (by simp)).trans (hv.regs _ rfl (by simp) (by simp)))
  have hpback : (((v.placeTile t).loadShellKernels t).tile t).back ≠ 4 := by rw [hp.back, hv.back]; exact hback
  have hpstate := hp.state
  generalize (v.placeTile t).loadShellKernels t = u at hlog hpback hpstate ⊢
  have hdep := (Departs.logOutcome u t e now 1).trans (.wakeDone _ (islandOf t))
  refine ⟨?_, fun hs => (congrArg (getF · 34 32) (wakeDone_mclog _ _ e)).trans (logOutcome_shown (hlog hs) (by decide))⟩
  rcases hdep.state t with h | ⟨-, h⟩
  · rw [h]
    exact hpstate
  · exact absurd h hpback

theorem checked_retires {v : State} (hv : Proven s v t) (hmany : s.fld .fabMcLimit 3 0 ≤ s.fld (.fabTileStat t) 19 16) (e now : Nat) :
    (v.bistPassed t (.check e now)).tileState t = 4 ∧ (v.bistPassed t (.check e now)).bit .fabEvtStatus 3 = true ∧
      (s.logged t e now → (v.bistPassed t (.check e now)).fld (.fabMclogInfo e) 34 32 = 3) := by
  have hlimit : v.fld .fabMcLimit 3 0 = s.fld .fabMcLimit 3 0 := congrArg (getF · 3 0) (hv.regs _ rfl (by simp) (by simp))
  have hat : decide (v.fld .fabMcLimit 3 0 ≤ v.fld (.fabTileStat t) 19 16) = true := by
    rw [hlimit, hv.stat 19 16 (by decide)]
    simpa using hmany
  have heq : v.bistPassed t (.check e now) = ((((v.leaveShell t 4).logOutcome t e now 3).fabEvt 3).wakeDone (islandOf t)).dropUncarried := by
    simp only [State.bistPassed, hat, if_true]
  have hstate : (v.leaveShell t 4).tileState t = 4 := (leaveShell_tileState v t 4 t).trans (if_pos rfl)
  have hlog (hs : s.logged t e now) : (v.leaveShell t 4).logged t e now :=
    hs.congr (((UnitsOnly.leaveShell v t 4).regs _ rfl).trans (hv.regs _ rfl (by simp) (by simp)))
      (((UnitsOnly.leaveShell v t 4).regs _ rfl).trans (hv.regs _ rfl (by simp) (by simp)))
  rw [heq]
  generalize v.leaveShell t 4 = u at hstate hlog ⊢
  have hevt : Departs (u.logOutcome t e now 3) ((u.logOutcome t e now 3).fabEvt 3) := .fabEvt _ (by decide)
  have hrest : Departs ((u.logOutcome t e now 3).fabEvt 3) ((((u.logOutcome t e now 3).fabEvt 3).wakeDone (islandOf t)).dropUncarried) :=
    .trans (.wakeDone _ (islandOf t)) (.dropUncarried _)
  refine ⟨(((Departs.logOutcome u t e now 3).trans hevt).trans hrest).state_retired hstate, hrest.evt 3 (State.bit_event _ _ _ _ (by decide)), fun hs => ?_⟩
  refine (congrArg (getF · 34 32) (((JobsOnly.dropUncarried _).regs (.fabMclogInfo e) rfl).trans (wakeDone_mclog _ _ e))).trans ?_
  exact (congrArg (getF · 34 32) (State.rd_event_ne (u.logOutcome t e now 3) (by simp) _ _ 3)).trans (logOutcome_shown (hlog hs) (by decide))

end

section
variable {s : State} {t : Nat}

theorem OnlyRegs.setTile_of {l : List Reg} {s u : State} (h : OnlyRegs l s { u with tiles := s.tiles }) (t : Nat) (f : Tile → Tile) :
    OnlyRegs l s { u.setTile t f with tiles := s.tiles } := h

/-- The registers of a BIST that ends without a seed. -/
theorem unseeded_only (s : State) (t : Nat) (f : Tile → Tile) :
    OnlyRegs [.fabTileStat t, .tilScrub t] s { ((s.bistLoaded t).bistResult t 3).setTile t f with tiles := s.tiles } := by
  obtain ⟨g, hg⟩ : ∃ g, s.bistLoaded t = (s.wr (.tilScrub t) (s.rd .genTime)).setTile t g := by
    unfold State.bistLoaded State.loadPatch
    exact ⟨_, rfl⟩
  have hscrub : OnlyRegs [.fabTileStat t, .tilScrub t] s (s.wr (.tilScrub t) (s.rd .genTime)) := .store (by simp) s _
  have htiles : (s.wr (.tilScrub t) (s.rd .genTime)).tiles = s.tiles := rfl
  rw [hg]
  generalize s.wr (.tilScrub t) (s.rd .genTime) = v at hscrub htiles ⊢
  have hresult : OnlyRegs [.fabTileStat t, .tilScrub t] (v.setTile t g) ((v.setTile t g).bistResult t 3) := .store (by simp) _ _
  refine .setTile_of ?_ t f
  rw [← htiles]
  exact hscrub.trans hresult.of_setTile

/-- A tile that no generator seeds. -/
theorem unseeded_spec {why : BistFor} (hbist : (s.tile t).bist = some why) (hseeded : (s.tile t).unseeded = false) (hon : s.tileState t ≠ 5)
    (hdrb : s.drbState (s.maskDrb t) = 0) : ((s.tileBistDone t true).tile t).unseeded = true ∧ (s.tileBistDone t true).fld (.fabTileStat t) 25 24 = 3 ∧
      (s.tileBistDone t true).tileState t = s.tileState t ∧ OnlyRegs [.fabTileStat t, .tilScrub t] s { s.tileBistDone t true with tiles := s.tiles } := by
  obtain ⟨hrd, -, -⟩ := bistLoaded_spec s t
  have hmask : (s.bistLoaded t).maskDrb t = s.maskDrb t := congrArg (getF · 3 0) (hrd _ (by simp))
  have hfail : (s.bistLoaded t).seedTile t = .failed := by
    refine seedTile_failed ?_
    rw [hmask]
    exact (congrArg (getF · 1 0) (hrd _ (by simp))).trans hdrb
  rw [tileBistDone_unseeded hbist hseeded hon hfail]
  have hfld (u : State) (f : Tile → Tile) (hi lo : Nat) : (u.setTile t f).fld (.fabTileStat t) hi lo = u.fld (.fabTileStat t) hi lo := rfl
  refine ⟨by rw [State.tile_setTile, if_pos rfl], (hfld _ _ 25 24).trans (bistResult_fld (s.bistLoaded t) t (by decide)), ?_, unseeded_only s t _⟩
  exact ((hfld _ _ 2 0).trans (bistResult_fld_ne (s.bistLoaded t) t 3 (.inr (by decide)))).trans (congrArg (getF · 2 0) (hrd _ (by simp)))

/-- A spare's background BIST that passes. -/
theorem periodic_passed (hbist : (s.tile t).bist = none) (hperiodic : (s.tile t).periodic = true) (hserved : s.seedServed t = true) :
    ((s.tileBistDone t true).tile t).periodic = false ∧ (s.tileBistDone t true).fld (.fabTileStat t) 25 24 = 1 ∧
      tget 0 t (s.tileBistDone t true).maskJobs = 0 ∧ (s.tileBistDone t true).tileState t = s.tileState t ∧ (s.tileBistDone t true).jobs = s.jobs := by
  have hwr (r : Reg) (hr : r ≠ .tilScrub t) : (s.wr (.tilScrub t) (s.rd .genTime)).rd r = s.rd r := State.rd_wr_ne s _ hr.symm
  have hserved' : (s.wr (.tilScrub t) (s.rd .genTime)).seedServed t = true := by
    rw [seedServed_congr (fun r hr => hwr r fun he => ?_) t]
    · exact hserved
    · rcases hr with hr | ⟨n, hr⟩
      · simp [he, Reg.ofDraws] at hr
      · simp [he] at hr
  obtain ⟨bs, b, u, hgot, hu⟩ := seedTile_served hserved'
  have heq : s.tileBistDone t true = ((u.loadPatch t).bistResult t 1).setTile t (fun x => { x with periodic := false }) := by
    simp only [State.tileBistDone, hbist, hperiodic, if_true, State.periodicDone, hgot]
    rfl
  have hloaded (hi lo : Nat) : (u.loadPatch t).fld (.fabTileStat t) hi lo = u.fld (.fabTileStat t) hi lo := rfl
  rw [heq]
  refine ⟨by rw [State.tile_setTile, if_pos rfl], bistResult_fld (u.loadPatch t) t (by decide), hu.budget, ?_, hu.jobs⟩
  have hstate : u.tileState t = s.tileState t := (hu.stat t 2 0 (.inl (by decide))).trans (congrArg (getF · 2 0) (hwr _ (by simp)))
  exact ((bistResult_fld_ne (u.loadPatch t) t 1 (.inr (by decide))).trans (hloaded 2 0)).trans hstate

/-! ### A spare that joins its shell -/

theorem spareJoin_spec {sh : Nat} (hjoin : (s.tile t).joining = some sh) (hperiodic : (s.tile t).periodic = false) (hspare : s.tileState t = 2)
    (hon : s.fld (.fabIslStat (islandOf t)) 6 4 = 0) (hsh : sh < 96) (hserved : s.seedServed t = true) :
    ∃ r, exec (.spareJoin t sh true) s = .next r ∧ r.tileState t = 1 ∧ r.shellOf t = some sh ∧ (r.tile t).joining = none ∧
      tget 0 t r.maskJobs = 0 ∧ r.bit .fabEvtStatus 1 = true ∧ r.jobs = s.jobs := by
  obtain ⟨bs, b, u, hgot, hu⟩ := seedTile_served hserved
  obtain ⟨hrd, htile, hjobs, hmask⟩ := loadShellKernels_spec (u.joinShell t sh) t
  have hjstate := joinShell_tileState u t sh
  have hjshell := joinShell_shell u t hsh
  have hjtile : ((u.joinShell t sh).tile t).joining = none := by rw [joinShell_tile, if_pos rfl]; rfl
  have hjjobs : (u.joinShell t sh).jobs = s.jobs := (UnitsOnly.joinShell u t sh).jobs.trans hu.jobs
  have hjmask : tget 0 t (u.joinShell t sh).maskJobs = 0 := by
    rw [(congrArg State.maskJobs (UnitsOnly.joinShell u t sh).rest :)]
    exact hu.budget
  have hexec : exec (.spareJoin t sh true) s = .next ((if (((u.joinShell t sh).loadShellKernels t).shellTiles sh).length =
      ((u.joinShell t sh).loadShellKernels t).shellSize sh then ((u.joinShell t sh).loadShellKernels t).shellWhole sh else (u.joinShell t sh).loadShellKernels t).fabEvt 1) := by
    change execSpareJoin t sh true s = _
    simp only [execSpareJoin, hgot]
    rw [if_neg (by simp [hjoin, hperiodic, hspare, hon])]
    rfl
  have hstat (hi lo : Nat) : ((u.joinShell t sh).loadShellKernels t).fld (.fabTileStat t) hi lo = (u.joinShell t sh).fld (.fabTileStat t) hi lo :=
    congrArg (getF · hi lo) (hrd _ (by simp))
  have hvstate := (hstat 2 0).trans hjstate
  have hvshell := (hstat 14 8).trans hjshell
  have hvjoin := (htile t).2.trans hjtile
  have hvmask : tget 0 t ((u.joinShell t sh).loadShellKernels t).maskJobs = 0 := by rw [hmask]; exact hjmask
  have hvjobs := hjobs.trans hjjobs
  refine ⟨_, hexec, ?_⟩
  generalize (u.joinShell t sh).loadShellKernels t = v at hvstate hvshell hvjoin hvmask hvjobs ⊢
  obtain ⟨hwrd, hwrest⟩ : (∀ r, r ≠ .fabShellMap sh → (if (v.shellTiles sh).length = v.shellSize sh then v.shellWhole sh else v).rd r = v.rd r) ∧
      ({ (if (v.shellTiles sh).length = v.shellSize sh then v.shellWhole sh else v) with regs := v.regs, shadow := v.shadow } : State) = v := by
    split
    · exact ⟨fun r hr => shellWhole_rd v sh hr, rfl⟩
    · exact ⟨fun _ _ => rfl, rfl⟩
  generalize (if (v.shellTiles sh).length = v.shellSize sh then v.shellWhole sh else v) = w at hwrd hwrest ⊢
  have hframe : RegsAndMessages [.fabEvtStatus] w (w.fabEvt 1) := .event (by simp) w _ _ 1
  have hrd' (hi lo : Nat) : (w.fabEvt 1).fld (.fabTileStat t) hi lo = v.fld (.fabTileStat t) hi lo :=
    congrArg (getF · hi lo) ((hframe.1 (.fabTileStat t) (by simp)).trans (hwrd _ (by simp)))
  have hstate : (w.fabEvt 1).tileState t = 1 := (hrd' 2 0).trans hvstate
  have htiles : (w.fabEvt 1).tiles = v.tiles := hframe.tiles.trans (congrArg State.tiles hwrest :)
  have hmask' : (w.fabEvt 1).maskJobs = v.maskJobs := (congrArg State.maskJobs hframe.2 :).trans (congrArg State.maskJobs hwrest :)
  refine ⟨hstate, ?_, ?_, by rw [hmask']; exact hvmask, State.bit_event _ _ _ _ (by decide),
    ((congrArg State.jobs hframe.2 :).trans (congrArg State.jobs hwrest :)).trans hvjobs⟩
  · simp only [State.shellOf, hstate, hrd' 14 8, hvshell]
    rw [if_neg (by omega)]
  · rw [State.tile, htiles, ← State.tile]
    exact hvjoin

/-- A spare that fails its loading. -/
theorem spareJoin_failed {sh : Nat} (hjoin : (s.tile t).joining = some sh) (hperiodic : (s.tile t).periodic = false) (hspare : s.tileState t = 2)
    (hon : s.fld (.fabIslStat (islandOf t)) 6 4 = 0) :
    ∃ r, exec (.spareJoin t sh false) s = .next r ∧ r.tileState t = 4 ∧ (r.tile t).joining = none ∧ r.bit .fabEvtStatus 3 = true := by
  have hexec : exec (.spareJoin t sh false) s = .next (((s.retireSpare t).fabEvt 3).dropUncarried) := by
    change execSpareJoin t sh false s = _
    simp only [execSpareJoin]
    rw [if_neg (by simp [hjoin, hperiodic, hspare, hon])]
    rfl
  obtain ⟨hstate, hnone, -⟩ := retireSpare_spec s t
  refine ⟨_, hexec, ?_⟩
  generalize s.retireSpare t = u at hstate hnone ⊢
  have hevt : Departs u (u.fabEvt 3) := .fabEvt u (by decide)
  have hdrop := Departs.dropUncarried (u.fabEvt 3)
  have hall := hevt.trans hdrop
  exact ⟨hall.state_retired hstate, (hall.joining t (by omega)).elim (·.trans hnone) id, hdrop.evt 3 (State.bit_event _ _ _ _ (by decide))⟩

/-! ### Mask budgets -/

theorem maskReseed_running (hmany : 3584 ≤ tget 0 t s.maskJobs) (hrun : (s.tile t).running = true) :
    ∃ r, exec (.maskReseedRequest t) s = .next r ∧ r.bit (.fabTileStat t) 26 = true ∧ OnlyRegs [.fabTileStat t] s r := by
  have hexec : exec (.maskReseedRequest t) s = .next (s.setBit (.fabTileStat t) 26 true) := by
    change execMaskReseedRequest t s = _
    rw [execMaskReseedRequest, if_neg (by omega)]
    exact if_pos hrun
  refine ⟨_, hexec, ?_, .store (List.mem_singleton_self _) s _⟩
  rw [State.bit, State.setBit, State.rd_store, if_pos rfl, getB_setB _ _ _ _ (by decide), if_pos rfl]

theorem maskReseed_idle (hmany : 3584 ≤ tget 0 t s.maskJobs) (hidle : (s.tile t).running = false) (hserved : s.seedServed t = true) :
    ∃ r, exec (.maskReseedRequest t) s = .next r ∧ tget 0 t r.maskJobs = 0 ∧ r.bit (.fabTileStat t) 26 = false ∧ (r.tile t).fifo = [] ∧ r.jobs = s.jobs := by
  have hserved' : (s.setBit (.fabTileStat t) 26 true).seedServed t = true := by
    have hset (r : Reg) (hr : r ≠ .fabTileStat t) : (s.setBit (.fabTileStat t) 26 true).rd r = s.rd r := (State.rd_store _ _ _ _).trans (if_neg hr.symm)
    rw [seedServed_congr (fun r hr => hset r fun he => ?_) t]
    · exact hserved
    · rcases hr with hr | ⟨n, hr⟩
      · simp [he, Reg.ofDraws] at hr
      · simp [he] at hr
  obtain ⟨bs, b, u, hgot, hu⟩ := seedTile_served hserved'
  have hexec : exec (.maskReseedRequest t) s = .next u := by
    change execMaskReseedRequest t s = _
    have hidle' : ((s.setBit (.fabTileStat t) 26 true).tile t).running = false := hidle
    simp only [execMaskReseedRequest]
    rw [if_neg (by omega), if_neg (by simp [hidle']), hgot]
  refine ⟨u, hexec, hu.budget, hu.due, ?_, hu.jobs⟩
  rw [hu.tile, if_pos rfl]
  rfl

theorem dropUnmasked_keeps (s : State) : JobsOnly s s.dropUnmasked ∧ Departs s s.dropUnmasked :=
  ⟨.each (fun u (x : Job) => .endPart u x 1 0x30) s _, .each (fun u (x : Job) => .endPart u x 1 0x30) s _⟩

theorem maskBudgetSpent_spec (hmany : 4096 ≤ tget 0 t s.maskJobs) : ∃ r, exec (.maskBudgetSpent t) s = .next r ∧ r.maskJobs = s.maskJobs ∧
    ((∀ e ∈ s.maskJobs, e.1 ≠ t → e.2 < 4096) → r.bit .fabEvtStatus 6 = true) := by
  have hexec : exec (.maskBudgetSpent t) s = .next ((s.onlyIf (!s.maskJobs.any (fun e => decide (e.1 ≠ t) && decide (4096 ≤ e.2))) (·.fabEvt 6)).dropUnmasked) := by
    change execMaskBudgetSpent t s = _
    rw [execMaskBudgetSpent, if_neg (by omega)]
  have hevt : RegsAndMessages [.fabEvtStatus] s (s.fabEvt 6) := .event (by simp) s _ _ 6
  refine ⟨_, hexec, ?_, fun hfirst => ?_⟩
  · refine (congrArg State.maskJobs (dropUnmasked_keeps _).1.rest :).trans ?_
    cases s.maskJobs.any (fun e => decide (e.1 ≠ t) && decide (4096 ≤ e.2))
    · exact (congrArg State.maskJobs hevt.2 :)
    · rfl
  · have hnone : s.maskJobs.any (fun e => decide (e.1 ≠ t) && decide (4096 ≤ e.2)) = false := by
      simp only [List.any_eq_false, Bool.and_eq_true, decide_eq_true_eq, not_and, not_le]
      exact hfirst
    rw [hnone]
    exact (dropUnmasked_keeps _).2.evt 6 (State.bit_event _ _ _ _ (by decide))

theorem maskRequests_early (hfew : tget 0 t s.maskJobs < 3584) : exec (.maskReseedRequest t) s = .next s ∧ exec (.maskBudgetSpent t) s = .next s :=
  ⟨if_pos hfew, if_pos (by omega)⟩

end

/-- Settles O33: spares, the ends of a BIST and the mask budgets, each in its cases. -/
theorem sparesBistAndBudgets : Obligations.SparesBistAndBudgets := by
  refine ⟨⟨fun s t sh hjoin hperiodic hspare hon _ hsh hserved => spareJoin_spec hjoin hperiodic hspare hon hsh hserved,
      fun s t sh hjoin hperiodic hspare hon => spareJoin_failed hjoin hperiodic hspare hon, fun s t why hbist hseeded hon hback => ?_,
      fun s t hbist hperiodic hserved => ⟨_, rfl, periodic_passed hbist hperiodic hserved⟩⟩,
    fun s t hmany => ⟨maskReseed_running hmany, maskReseed_idle hmany⟩, fun s t hmany => maskBudgetSpent_spec hmany,
    fun s t hfew => maskRequests_early hfew⟩
  refine ⟨⟨_, rfl, bistFailed_spec hbist hseeded hon⟩, fun hserved => ?_, fun hdrb => ⟨_, rfl, unseeded_spec hbist hseeded hon hdrb⟩⟩
  obtain ⟨v, hv, hproven⟩ := bistPassed_eq hbist hseeded hon hserved
  have hexec : exec (.tileBistComplete t true) s = .next (v.bistPassed t why) := congrArg Host.Outcome.next hv
  refine ⟨fun hwhy => ?_, fun e now hwhy hfew => ?_, fun e now hwhy hmany => ?_⟩
  · subst hwhy
    exact ⟨_, hexec, bringUp_passed hproven⟩
  · subst hwhy
    obtain ⟨hstate, hlog⟩ := checked_returns hproven hback hfew e now
    exact ⟨_, hexec, hstate, fun h1 h2 => hlog ⟨h1, h2⟩⟩
  · subst hwhy
    obtain ⟨hstate, hevt, hlog⟩ := checked_retires hproven hmany e now
    exact ⟨_, hexec, hstate, hevt, fun h1 h2 => hlog ⟨h1, h2⟩⟩

end Sys2Proof.Machine
end

section
/-! PROOFS. What keeps a state sound: the steps from which every command is built. -/

namespace Sys2Proof.Machine

/-! ### Memories and draws -/

theorem Memory.writeEnabled_wf (a : Nat) (bs : List (Option Byte)) {m : List (Nat × Byte)} (h : Memory.wf m = true) :
    Memory.wf (writeEnabled a bs m) = true := by
  induction bs generalizing a m with
  | nil => exact h
  | cons b bs ih =>
    cases b with
    | none => exact ih _ h
    | some x => exact ih _ (Memory.put_wf h a x)

theorem Memory.foldl_writeEnabled_wf (l : List (Nat × List (Option Byte))) {m : List (Nat × Byte)} (h : Memory.wf m = true) :
    Memory.wf (l.foldl (fun m x => writeEnabled x.1 x.2 m) m) = true := by
  induction l generalizing m with
  | nil => exact h
  | cons e l ih => exact ih (Memory.writeEnabled_wf _ _ h)

/-- The state that the draws of a job leave, whatever they meet. -/
def Drawn.state : Drawn → State
  | .got _ s => s
  | .wait _ s => s
  | .failed s => s

/-! ### The relations of the other parts -/

/-- What leaves the memories, the tiles and the cells as they are keeps the state sound. -/
theorem State.Sound.of_eq {s t : State} (h : s.Sound) (hsram : t.sram = s.sram) (hddr : t.ddr = s.ddr) (htiles : t.tiles = s.tiles)
    (hcells : t.cells = s.cells) : t.Sound :=
  ⟨hsram ▸ h.sram, hddr ▸ h.ddr, htiles ▸ h.tiles, htiles ▸ h.vectors, hcells ▸ h.cells⟩

/-- So does an update of other fields. -/
theorem State.Sound.upd {s : State} (h : s.Sound)
    {regs} {pcie} {msix} {msixPend} {qx} {jobs} {nextJob} {cox} {fetchSlice} {fetchQueue} {fetchDue} {rig} {reRig} {maskJobs} {slots} {fills} {hmac}
    {memo} {hcores} {bcores} {rde} {rng} {ddrFill} {shadow} {reported} {gateWait} {otp} {bbram} {flash} {mbx} {transition} {tamper} {boot} {power}
    {pins} {dbg} {rdata} {poisoned} {out} {freeCtr} {pending} : ({
      regs, pcie, msix, msixPend, qx, jobs, nextJob, cox, fetchSlice, fetchQueue, fetchDue, rig, reRig, maskJobs, slots, fills, hmac, memo,
      cells := s.cells, hcores, bcores, rde, rng, sram := s.sram, ddr := s.ddr, ddrFill, shadow, reported, tiles := s.tiles, gateWait, otp, bbram,
      flash, mbx, transition, tamper, boot, power, pins, dbg, rdata, poisoned, out, freeCtr, pending } : State).Sound :=
  ⟨h.sram, h.ddr, h.tiles, h.vectors, h.cells⟩

/-- Or of the cells, when they keep their bounds. -/
theorem State.Sound.updCells {s : State} (h : s.Sound)
    {regs} {pcie} {msix} {msixPend} {qx} {jobs} {nextJob} {cox} {fetchSlice} {fetchQueue} {fetchDue} {rig} {reRig} {maskJobs} {slots} {fills} {hmac}
    {memo} {hcores} {bcores} {rde} {rng} {ddrFill} {shadow} {reported} {gateWait} {otp} {bbram} {flash} {mbx} {transition} {tamper} {boot} {power}
    {pins} {dbg} {rdata} {poisoned} {out} {freeCtr} {pending} {cells}
    (hcells : (∀ e ∈ s.cells, e.2.Sound) → ∀ e ∈ cells, e.2.Sound) : ({
      regs, pcie, msix, msixPend, qx, jobs, nextJob, cox, fetchSlice, fetchQueue, fetchDue, rig, reRig, maskJobs, slots, fills, hmac, memo,
      cells, hcores, bcores, rde, rng, sram := s.sram, ddr := s.ddr, ddrFill, shadow, reported, tiles := s.tiles, gateWait, otp, bbram,
      flash, mbx, transition, tamper, boot, power, pins, dbg, rdata, poisoned, out, freeCtr, pending } : State).Sound :=
  ⟨h.sram, h.ddr, h.tiles, h.vectors, hcells h.cells⟩

/-- Or of the banks, when their memory stays in canonical form. -/
theorem State.Sound.updSram {s : State} (h : s.Sound)
    {regs} {pcie} {msix} {msixPend} {qx} {jobs} {nextJob} {cox} {fetchSlice} {fetchQueue} {fetchDue} {rig} {reRig} {maskJobs} {slots} {fills} {hmac}
    {memo} {hcores} {bcores} {rde} {rng} {ddrFill} {shadow} {reported} {gateWait} {otp} {bbram} {flash} {mbx} {transition} {tamper} {boot} {power}
    {pins} {dbg} {rdata} {poisoned} {out} {freeCtr} {pending} {sram}
    (hsram : Memory.wf s.sram = true → Memory.wf sram = true) : ({
      regs, pcie, msix, msixPend, qx, jobs, nextJob, cox, fetchSlice, fetchQueue, fetchDue, rig, reRig, maskJobs, slots, fills, hmac, memo,
      cells := s.cells, hcores, bcores, rde, rng, sram, ddr := s.ddr, ddrFill, shadow, reported, tiles := s.tiles, gateWait, otp, bbram,
      flash, mbx, transition, tamper, boot, power, pins, dbg, rdata, poisoned, out, freeCtr, pending } : State).Sound :=
  ⟨hsram h.sram, h.ddr, h.tiles, h.vectors, h.cells⟩

/-- Or of tiles and cells that are sound themselves. -/
theorem State.Sound.updUnits {s : State} (h : s.Sound)
    {regs} {pcie} {msix} {msixPend} {qx} {jobs} {nextJob} {cox} {fetchSlice} {fetchQueue} {fetchDue} {rig} {reRig} {maskJobs} {slots} {fills} {hmac}
    {memo} {hcores} {bcores} {rde} {rng} {ddrFill} {shadow} {reported} {gateWait} {otp} {bbram} {flash} {mbx} {transition} {tamper} {boot} {power}
    {pins} {dbg} {rdata} {poisoned} {out} {freeCtr} {pending} {tiles cells}
    (htiles : ∀ e ∈ tiles, e.2.Fine) (hcells : ∀ e ∈ cells, e.2.Sound) : ({
      regs, pcie, msix, msixPend, qx, jobs, nextJob, cox, fetchSlice, fetchQueue, fetchDue, rig, reRig, maskJobs, slots, fills, hmac, memo,
      cells, hcores, bcores, rde, rng, sram := s.sram, ddr := s.ddr, ddrFill, shadow, reported, tiles, gateWait, otp, bbram,
      flash, mbx, transition, tamper, boot, power, pins, dbg, rdata, poisoned, out, freeCtr, pending } : State).Sound :=
  ⟨h.sram, h.ddr, fun e he => (htiles e he).1, fun e he => (htiles e he).2, hcells⟩

theorem UnitsOnly.sound {s t : State} (h : UnitsOnly s t) : s.Sound → t.Sound := h.jobsOnly.sound

theorem Rewired.sound {s t : State} (h : Rewired s t) (hs : s.Sound) : t.Sound := by
  have hfine := h.fine fun e he => ⟨hs.tiles e he, hs.vectors e he⟩
  exact ⟨(congrArg State.sram h.rest :) ▸ hs.sram, (congrArg State.ddr h.rest :) ▸ hs.ddr, fun e he => (hfine e he).1,
    fun e he => (hfine e he).2, (congrArg State.cells h.rest :) ▸ hs.cells⟩

theorem MailboxOnly.sound {s t : State} (h : MailboxOnly s t) (hs : s.Sound) : t.Sound :=
  hs.of_eq (congrArg State.sram h.2 :) (congrArg State.ddr h.2 :) (congrArg State.tiles h.2 :) (congrArg State.cells h.2 :)

theorem RegsAndMessages.sound {l : List Reg} {s t : State} (h : RegsAndMessages l s t) (hs : s.Sound) : t.Sound :=
  hs.of_eq (congrArg State.sram h.2 :) (congrArg State.ddr h.2 :) (congrArg State.tiles h.2 :) (congrArg State.cells h.2 :)

/-! ### Cells and tiles -/

namespace Cell.Sound
variable {x : Cell}

/-- NEXT, LIMIT and the write in flight stand. -/
theorem upd (h : x.Sound) {gen state cap freeing waiters rebuilding traversal} :
    ({ limit := x.limit, gen, state, next := x.next, cap, writing := x.writing, freeing, waiters, rebuilding, traversal } : Cell).Sound :=
  ⟨h.next, h.writing⟩

theorem release (h : x.Sound) : x.release.Sound := by
  unfold Cell.release
  split
  · exact h.upd
  · exact h.upd

/-- A reservation of at most 512 above LIMIT and NEXT. -/
theorem reserve (h : x.Sound) {upto : Nat} (hlimit : upto ≤ x.limit + 512) (hnext : ∀ n, x.next = some n → upto ≤ n + 512) :
    (x.reserve upto).Sound := by
  unfold Cell.reserve
  split
  · next hc =>
    have hlt : x.limit < min upto x.cap := by simp at hc; omega
    refine ⟨fun n hn => ?_, fun l hl => ?_⟩
    · obtain ⟨hle, hge, -⟩ := h.next n hn
      exact ⟨hle, hge, fun l hl => by cases hl; exact (Nat.min_le_left ..).trans (hnext n hn)⟩
    · cases hl
      exact ⟨hlt.le, (Nat.min_le_left ..).trans hlimit⟩
  · exact h

/-- NEXT after a loss stands at LIMIT. -/
theorem regain (h : x.Sound) (hw : x.writing = none) : ({ x with next := some x.limit } : Cell).Sound :=
  ⟨fun n hn => by cases hn; exact ⟨le_rfl, Nat.le_add_right .., fun l hl => by rw [show x.writing = some l from hl] at hw; cases hw⟩, h.writing⟩

theorem ready (h : x.Sound) : x.ready.Sound := by
  unfold Cell.ready
  split
  · split
    · exact h
    · next hw =>
      exact (h.regain (by simpa using hw)).reserve le_rfl fun n hn => by cases hn; exact le_rfl
  · next i hi =>
    split
    · next hle => exact h.reserve (by omega) fun n hn => by rw [hi] at hn; cases hn; omega
    · exact h

/-- The write in flight ends. -/
theorem written (h : x.Sound) {l : Nat} (hl : x.writing = some l) : ({ x with limit := l, writing := none } : Cell).Sound := by
  obtain ⟨hle, -⟩ := h.writing l hl
  refine ⟨fun n hn => ?_, by simp⟩
  obtain ⟨hn', -, hw⟩ := h.next n hn
  exact ⟨hn'.trans hle, hw l hl, by simp⟩

/-- An index below LIMIT is taken. -/
theorem take (h : x.Sound) {i : Nat} (hi : x.next = some i) (hlt : i < x.limit) : ({ x with next := some (i + 1) } : Cell).Sound := by
  obtain ⟨-, hge, hw⟩ := h.next i hi
  exact ⟨fun n hn => by cases hn; exact ⟨hlt, hge.trans (by omega), fun l hl => (hw l hl).trans (by omega)⟩, h.writing⟩

end Cell.Sound

namespace Tile.Fine
variable {x : Tile}

theorem wipe : x.wipe.Fine := .idle
theorem clear : x.clear.Fine := .idle
theorem gate {st : Nat} : (x.gate st).Fine := .idle
theorem spend (h : x.Fine) {tc : Nat} : (x.spend tc).Fine := h
theorem seed (h : x.Fine) {bs : Bytes} : (x.seed bs).Fine := h
theorem store (h : x.Fine) {addr : Nat} {bs : Bytes} : (x.store addr bs).Fine := ⟨Memory.write_wf _ _ h.1, h.2⟩

theorem setS (h : x.Fine) {i : Nat} {v : Word} : (x.setS i v).Fine := by
  unfold Tile.setS
  split
  · exact h
  · exact h

theorem pset (h : x.Fine) {w : Nat} (hw : w ≤ 2) {l : List Nat} (hl : l.length = beatLanes w * (256 / beatElems w)) {i : Nat} :
    (x.pset w i l).Fine := ⟨h.1, full_pset h.2 hw hl i⟩

theorem begin {d key : Bytes} {pos size : Nat} {entry : Option KernelEntry} {harden : Nat} : (x.begin d key pos size entry harden).Fine := by
  refine ⟨?_, rfl⟩
  have hframe : Memory.wf (Memory.write 0x80 (leBytes 4 (dInLen d) ++ leBytes 4 key.length) (Memory.write 0 d [])) = true :=
    Memory.write_wf _ _ (Memory.write_wf _ _ rfl)
  unfold Tile.begin
  dsimp only
  split
  · exact Memory.write_wf _ _ hframe
  · exact hframe

end Tile.Fine

namespace State.Sound
variable {s t : State}

/-! ### Ways on -/

theorem ite {c : Prop} [Decidable c] (h : s.Sound) (h' : t.Sound) : (if c then s else t).Sound := by
  split
  · exact h
  · exact h'

theorem ite_snd {α : Type} {c : Prop} [Decidable c] {x y : α × State} (h : x.2.Sound) (h' : y.2.Sound) : (if c then x else y).2.Sound := by
  split
  · exact h
  · exact h'

theorem ifThen {c : Prop} [Decidable c] (h : s.Sound) (ht : s.Sound → t.Sound) : (if c then t else s).Sound := ite (ht h) h

theorem ifElse {c : Prop} [Decidable c] (h : s.Sound) (ht : s.Sound → t.Sound) : (if c then s else t).Sound := ite h (ht h)

theorem onlyIf (h : s.Sound) {c : Bool} {f : State → State} (hf : s.Sound → (f s).Sound) : (s.onlyIf c f).Sound := ite (hf h) h

theorem hostTo (h : s.Sound) {r : Reg} {f : State → State} (hf : s.Sound → (f s).Sound) : (s.hostTo r f).Sound := ite h (hf h)

theorem foldl {α : Type} {f : State → α → State} {l : List α} (h : s.Sound) (hf : ∀ u a, u.Sound → (f u a).Sound) : (l.foldl f s).Sound := by
  induction l generalizing s with
  | nil => exact h
  | cons a l ih => exact ih (hf s a h)

theorem each (h : s.Sound) {α : Type} {f : State → α → State} {l : List α} (hf : ∀ u a, u.Sound → (f u a).Sound) : (s.each l f).Sound :=
  h.foldl hf

/-! ### Registers and messages -/

theorem store (h : s.Sound) {r : Reg} {f : DWord → DWord} : (s.store r f).Sound := h.upd
theorem wr (h : s.Sound) {r : Reg} {v : DWord} : (s.wr r v).Sound := h.upd
theorem setFld (h : s.Sound) {r : Reg} {hi lo x : Nat} : (s.setFld r hi lo x).Sound := h.upd
theorem setBit (h : s.Sound) {r : Reg} {i : Nat} {b : Bool} : (s.setBit r i b).Sound := h.upd
theorem bump (h : s.Sound) {r : Reg} {d : Nat} : (s.bump r d).Sound := h.upd
theorem bump64 (h : s.Sound) {r : Reg} : (s.bump64 r).Sound := h.upd
theorem draw (h : s.Sound) {n : Nat} : (s.draw n).2.Sound := h.upd
theorem setQueueState (h : s.Sound) {q x : Nat} : (s.setQueueState q x).Sound := h.upd
theorem setQueueX (h : s.Sound) {q : Nat} {f : QueueX → QueueX} : (s.setQueueX q f).Sound := h.upd
theorem unreport (h : s.Sound) {q : Nat} : (s.unreport q).Sound := h.upd
theorem moreCycles (h : s.Sound) {r : Reg} {n : Nat} : (s.moreCycles r n).Sound := h.upd
theorem addCycles (h : s.Sound) {r : Reg} : (s.addCycles r).Sound := h.upd

theorem sendMsix (h : s.Sound) {v : Nat} : (s.sendMsix v).Sound := (UnitsOnly.sendMsix s v).sound h
theorem flushMsix (h : s.Sound) : s.flushMsix.Sound := ite h h.upd
theorem event (h : s.Sound) {stat en vec : Reg} {i : Nat} : (s.event stat en vec i).Sound := ite h.setBit.sendMsix h.setBit
theorem fabEvt (h : s.Sound) {i : Nat} : (s.fabEvt i).Sound := h.event
theorem hsfEvt (h : s.Sound) {i : Nat} : (s.hsfEvt i).Sound := h.event
theorem bneEvt (h : s.Sound) {i : Nat} : (s.bneEvt i).Sound := h.event
theorem rngEvt (h : s.Sound) {i : Nat} : (s.rngEvt i).Sound := h.event
theorem memEvt (h : s.Sound) {i : Nat} : (s.memEvt i).Sound := h.event
theorem ddrEvt (h : s.Sound) {i : Nat} : (s.ddrEvt i).Sound := h.event
theorem ddrUe (h : s.Sound) {a : Nat} : (s.ddrUe a).Sound := h.bump.setFld.ddrEvt

/-! ### Memories, tiles, cells and jobs -/

theorem setSram (h : s.Sound) {m : List Host.Cell} (hm : Memory.wf s.sram = true → Memory.wf m = true) : ({ s with sram := m } : State).Sound :=
  ⟨hm h.sram, h.ddr, h.tiles, h.vectors, h.cells⟩

theorem setDdr (h : s.Sound) {m : List Host.Cell} (hm : Memory.wf s.ddr = true → Memory.wf m = true) : ({ s with ddr := m } : State).Sound :=
  ⟨h.sram, hm h.ddr, h.tiles, h.vectors, h.cells⟩

/-- The memory of LPDDR5X with bytes written. -/
theorem writeDdr (h : s.Sound) {a : Nat} {bs : Bytes} : ({ s with ddr := Memory.write a bs s.ddr } : State).Sound :=
  h.setDdr (Memory.write_wf _ _)

theorem setTile (h : s.Sound) {k : Nat} {f : Tile → Tile} (hf : (s.tile k).Fine → (f (s.tile k)).Fine) : (s.setTile k f).Sound :=
  (UnitsOnly.setTile s k hf).sound h

theorem tile (h : s.Sound) (k : Nat) : (s.tile k).Fine := State.TilesFine.tile (fun e he => ⟨h.tiles e he, h.vectors e he⟩) k

theorem setCell (h : s.Sound) {c : Nat} {x : Cell} (hx : (s.cell c).Sound → x.Sound) : (s.setCell c x).Sound := (WorkOnly.setCell s c hx).sound h

theorem cell (h : s.Sound) (c : Nat) : (s.cell c).Sound := tget_mem (.idle rfl rfl) h.cells c

theorem setJob (h : s.Sound) {j : Nat} {f : Job → Job} : (s.setJob j f).Sound := h.upd
theorem setDrbg (h : s.Sound) {k : Nat} {d : DrbgState} : (s.setDrbg k d).Sound := h.upd

/-- What a request gave the generator that served it. -/
theorem request (h : s.Sound) {k n : Nat} {bs : Bytes} {b : Bool} (he : s.request k n = .got bs b t) : t.Sound := (Serviced.request he).sound h

/-! ### Units, jobs, queues and slices -/

theorem enterReset (h : s.Sound) {cold : Bool} : (s.enterReset cold).Sound := (enterReset_resets ..).sound h

theorem putEntries (h : s.Sound) {q : Nat} {ue : List Nat} {l : List Held} : (s.putEntries q ue l).Sound := (WorkOnly.putEntries ..).sound h
theorem metUe (h : s.Sound) {n : Nat} {ddr : Bool} {addr len : Nat} {d : DmaResult} : (s.metUe n ddr addr len d).Sound := (metUe_frame ..).sound h
theorem commitSlot (h : s.Sound) {j : Job} {r : Result} : (s.commitSlot j r).2.Sound := (WorkOnly.commitSlot ..).sound h
theorem metLines (h : s.Sound) {l : List (Nat × Nat)} {d : DmaResult} : (s.metLines l d).Sound := (metLines_frame ..).sound h

theorem wipeTile (h : s.Sound) {t : Nat} : (s.wipeTile t).Sound := (UnitsOnly.wipeTile ..).sound h
theorem freeTile (h : s.Sound) {t : Nat} : (s.freeTile t).Sound := (UnitsOnly.freeTile ..).sound h
theorem freeShells (h : s.Sound) {j : Job} : (s.freeShells j).Sound := (UnitsOnly.freeShells ..).sound h
theorem setHcore (h : s.Sound) {k : Nat} {f : HCore → HCore} : (s.setHcore k f).Sound := (UnitsOnly.setHcore ..).sound h
theorem setBcore (h : s.Sound) {c : Nat} {f : BCore → BCore} : (s.setBcore c f).Sound := (UnitsOnly.setBcore ..).sound h
theorem setBneState (h : s.Sound) {c x : Nat} : (s.setBneState c x).Sound := (UnitsOnly.setBneState ..).sound h
theorem releaseFreed (h : s.Sound) {c : Nat} : (s.releaseFreed c).Sound := (UnitsOnly.releaseFreed ..).sound h
theorem wipeCore (h : s.Sound) {c : Nat} : (s.wipeCore c).Sound := (UnitsOnly.wipeCore ..).sound h
theorem setTileState (h : s.Sound) {t x : Nat} : (s.setTileState t x).Sound := (UnitsOnly.setTileState ..).sound h
theorem setShellState (h : s.Sound) {sh x : Nat} : (s.setShellState sh x).Sound := (UnitsOnly.setShellState ..).sound h
theorem restroke (h : s.Sound) {sh : Nat} : (s.restroke sh).Sound := (UnitsOnly.restroke ..).sound h
theorem joinShell (h : s.Sound) {t sh : Nat} : (s.joinShell t sh).Sound := (UnitsOnly.joinShell ..).sound h
theorem leaveShell (h : s.Sound) {t x : Nat} : (s.leaveShell t x).Sound := (UnitsOnly.leaveShell ..).sound h
theorem vacated (h : s.Sound) {n : Nat} {u : JobUnit} : (s.vacated n u).Sound := (UnitsOnly.vacated ..).sound h
theorem vacateAll (h : s.Sound) {j : Job} : (s.vacateAll j).Sound := (UnitsOnly.vacateAll ..).sound h
theorem dropLoad (h : s.Sound) {j : Job} : (s.dropLoad j).Sound := (UnitsOnly.dropLoad ..).sound h
theorem loadShellState (h : s.Sound) {x : RigShell} : (s.loadShellState x).Sound := (UnitsOnly.loadShellState ..).sound h
theorem testLeavers (h : s.Sound) {new : Rig} : (s.testLeavers new).Sound := (UnitsOnly.testLeavers ..).sound h

theorem dropCell (h : s.Sound) {j : Job} : (s.dropCell j).Sound := (JobsOnly.dropCell ..).sound h
theorem endJob (h : s.Sound) {j : Nat} {r : Result} : (s.endJob j r).Sound := (JobsOnly.endJob ..).sound h
theorem dropUncarried (h : s.Sound) : (s.dropUncarried).Sound := (JobsOnly.dropUncarried ..).sound h
theorem jobEnds (h : s.Sound) {j : Nat} {r : Result} : (s.jobEnds j r).Sound := (JobsOnly.jobEnds ..).sound h
theorem retry (h : s.Sound) {j : Nat} {counts : Bool} : (s.retry j counts).Sound := (JobsOnly.retry ..).sound h
theorem retryHalf (h : s.Sound) {j : Nat} {pq : Bool} {counts : Bool} : (s.retryHalf j pq counts).Sound := (JobsOnly.retryHalf ..).sound h
theorem retryOn (h : s.Sound) {u : JobUnit} {counts : Bool} {j : Job} : (s.retryOn u counts j).Sound := (JobsOnly.retryOn ..).sound h
theorem cancelBne (h : s.Sound) {x : Job} : (s.cancelBne x).Sound := (JobsOnly.cancelBne ..).sound h
theorem cancelWaiting (h : s.Sound) {p : Job → Bool} {yields : Bool} : (s.cancelWaiting p yields).Sound := (JobsOnly.cancelWaiting ..).sound h
theorem dropUnmasked (h : s.Sound) : (s.dropUnmasked).Sound := (JobsOnly.dropUnmasked ..).sound h

theorem sendQueue (h : s.Sound) {q : Nat} : (s.sendQueue q).Sound := (WorkOnly.sendQueue ..).sound h
theorem cqUe (h : s.Sound) {q : Nat} {ue : Bool} {idx : Nat} : (s.cqUe q ue idx).Sound := (WorkOnly.cqUe ..).sound h
theorem quiesced (h : s.Sound) {n : Nat} : (s.quiesced n).Sound := (WorkOnly.quiesced ..).sound h
theorem drained (h : s.Sound) {q : Nat} : (s.drained q).Sound := (WorkOnly.drained ..).sound h
theorem finish (h : s.Sound) {j : Job} {r : Result} {outUe : LineUe} {cqUe : Bool} : (s.finish j r outUe cqUe).Sound := (WorkOnly.finish ..).sound h
theorem sliceResetDone (h : s.Sound) {n : Nat} : (s.sliceResetDone n).Sound := (WorkOnly.sliceResetDone ..).sound h
theorem reportHeads (h : s.Sound) : (s.reportHeads).Sound := (WorkOnly.reportHeads ..).sound h
theorem settleQueues (h : s.Sound) : (s.settleQueues).Sound := (WorkOnly.settleQueues ..).sound h
theorem wipeSecure (h : s.Sound) : (s.wipeSecure).Sound := (WorkOnly.wipeSecure ..).sound h
theorem flushEnded (h : s.Sound) : (s.flushEnded).Sound := (WorkOnly.flushEnded ..).sound h
theorem emptySlot (h : s.Sound) {a : Nat} : (s.emptySlot a).Sound := (WorkOnly.emptySlot ..).sound h
theorem stopFill (h : s.Sound) : (s.stopFill).Sound := (WorkOnly.stopFill ..).sound h

theorem shellWhole (h : s.Sound) {sh : Nat} : (s.shellWhole sh).Sound := (Serviced.shellWhole ..).sound h
theorem bneBistDone (h : s.Sound) {c : Nat} {ok : Bool} : (s.bneBistDone c ok).Sound := (Serviced.bneBistDone ..).sound h
theorem loadPatch (h : s.Sound) {t : Nat} : (s.loadPatch t).Sound := (Serviced.loadPatch ..).sound h
theorem loadShellKernels (h : s.Sound) {t : Nat} : (s.loadShellKernels t).Sound := (Serviced.loadShellKernels ..).sound h
theorem retireSpare (h : s.Sound) {t : Nat} : (s.retireSpare t).Sound := (Serviced.retireSpare ..).sound h
theorem gateIsland (h : s.Sound) {n : Nat} : (s.gateIsland n).Sound := (Serviced.gateIsland ..).sound h
theorem settleGate (h : s.Sound) {n : Nat} : (s.settleGate n).Sound := (Serviced.settleGate ..).sound h
theorem applyGates (h : s.Sound) : (s.applyGates).Sound := (Serviced.applyGates ..).sound h
theorem tileBistDone (h : s.Sound) {t : Nat} {ok : Bool} : (s.tileBistDone t ok).Sound := (Serviced.tileBistDone ..).sound h
theorem seedWaiting (h : s.Sound) : (s.seedWaiting).Sound := (Serviced.seedWaiting ..).sound h
theorem hashBistDone (h : s.Sound) {k : Nat} {ok : Bool} : (s.hashBistDone k ok).Sound := (Serviced.hashBistDone ..).sound h
theorem dropJoiners (h : s.Sound) : (s.dropJoiners).Sound := (Serviced.dropJoiners ..).sound h
theorem buildShell (h : s.Sound) {p : Nat} {x : RigShell} : (s.buildShell p x).Sound := (Serviced.buildShell ..).sound h
theorem endCores (h : s.Sound) {failed : List Nat} : (s.endCores failed).Sound := (Serviced.endCores ..).sound h
theorem joinCores (h : s.Sound) {r : ReRig} : (s.joinCores r).Sound := (Serviced.joinCores ..).sound h
theorem endJoiners (h : s.Sound) {failed : List Nat} : (s.endJoiners failed).Sound := (Serviced.endJoiners ..).sound h
theorem afterLoss (h : s.Sound) {sh : Option Nat} {mc : Bool} : (s.afterLoss sh mc).Sound := (Serviced.afterLoss ..).sound h

theorem loadPool (h : s.Sound) {r : Rig} {p : RigPool} : (s.loadPool r p).Sound := (Rewired.loadPool ..).sound h
theorem testJoiners (h : s.Sound) : (s.testJoiners).Sound := (Rewired.testJoiners ..).sound h
theorem switchShells (h : s.Sound) {new : Rig} {p : Nat} : (s.switchShells new p).Sound := (Rewired.switchShells ..).sound h
theorem switchPart (h : s.Sound) {new : Rig} {p : Nat} : (s.switchPart new p).Sound := (Rewired.switchPart ..).sound h
theorem switchGroup (h : s.Sound) {new : Rig} {p : Nat} : (s.switchGroup new p).Sound := (Rewired.switchGroup ..).sound h

theorem bneCheck (h : s.Sound) {c cause : Nat} : (s.bneCheck c cause).Sound := (ServicedOrEnded.bneCheck ..).sound h
theorem hashCheck (h : s.Sound) {k : Nat} : (s.hashCheck k).Sound := (ServicedOrEnded.hashCheck ..).sound h
theorem unitCheck (h : s.Sound) {u : ResetUnit} : (s.unitCheck u).Sound := (ServicedOrEnded.unitCheck ..).sound h


end State.Sound
end Sys2Proof.Machine
end

section
/-! PROOFS. O58: every instruction of a tile leaves its memory in canonical form and its long-vector registers full. -/

namespace Sys2Proof.Machine

/-- The tile that an instruction leaves, if it leaves one, is as every tile is. -/
def TileOut.Fine : TileOut → Prop
  | .ok x _ => x.Fine
  | .wait => True
  | .stop _ _ x _ _ => x.Fine
  | .finish _ _ => True

namespace TileOut.Fine

theorem ite {c : Prop} [Decidable c] {o o' : TileOut} (h : o.Fine) (h' : o'.Fine) : (if c then o else o').Fine := by
  split
  · exact h
  · exact h'

theorem access {a : TileArg} (h : a.x.Fine) {addr n align : Nat} {write : Bool} {go : TileOut} (hgo : go.Fine) :
    (a.access addr n align write go).Fine :=
  .ite h (.ite h (.ite trivial (.ite h hgo)))

end TileOut.Fine

/-! ### Lists of a register's length -/

theorem length_freshList (a : TileArg) (k n q : Nat) : (a.freshList k n q).length = n := by simp [TileArg.freshList]

theorem length_zip2 {f : Nat → Nat → Nat} {l m : List Nat} {n : Nat} (hl : l.length = n) (hm : m.length = n) : (zip2 f l m).length = n := by
  simp [zip2, hl, hm]

theorem length_byLane (lanes : List Nat) (n : Nat) (f : Nat → Nat) : (byLane lanes n f).length = n := by
  unfold byLane
  suffices h : ∀ l : List Nat, (lanes.foldl (fun l i => l.set i (f i)) l).length = l.length by rw [h, List.length_replicate]
  induction lanes with
  | nil => exact fun _ => rfl
  | cons i lanes ih => exact fun l => (ih _).trans List.length_set

theorem length_splitBits (b n x : Nat) : (splitBits b n x).length = n := by
  induction n generalizing x with
  | zero => rfl
  | succ n ih => simp [splitBits, ih]

theorem length_rejSample_le (step : Nat) (cand : Bytes → List Nat) (fuel : Nat) : ∀ (want : Nat) (p : Sponge),
    (rejSample step cand fuel want p).1.length ≤ want := by
  induction fuel with
  | zero => exact fun _ _ => Nat.zero_le _
  | succ fuel ih =>
    intro want p
    unfold rejSample
    split
    · exact Nat.zero_le _
    · have h := ih (want - ((cand (p.squeeze step).1).take want).length) (p.squeeze step).2
      simp only [List.length_append, List.length_take] at h ⊢
      omega

theorem length_sampleInBall (q tau : Nat) (p : Sponge) : (sampleInBall q tau p).1.length = 256 := by
  unfold sampleInBall
  dsimp only
  generalize List.range tau = ks
  suffices h : ∀ r : List Nat × Sponge, r.1.length = 256 → (ks.foldl (fun (r : List Nat × Sponge) k =>
      ((r.1.set (256 - tau + k) ((r.1[(sibDraw (256 - tau + k) sampleFuel r.2).1]?).getD 0)).set (sibDraw (256 - tau + k) sampleFuel r.2).1
        (if bitAt (p.squeeze 8).1 k = 1 then q - 1 else 1), (sibDraw (256 - tau + k) sampleFuel r.2).2)) r).1.length = 256 from
    h _ List.length_replicate
  induction ks with
  | nil => exact fun _ h => h
  | cons k ks ih => exact fun r h => ih _ (by simpa using h)

/-! ### Writes of registers -/

namespace Tile.Fine
variable {x : Tile}

/-- A register written with 256 lanes of 16 or 32 bits. -/
theorem pset256 (h : x.Fine) {w : Nat} (hw : w ≤ 1) {l : List Nat} (hl : l.length = 256) {i : Nat} : (x.pset w i l).Fine :=
  h.pset (by omega) (by
    rcases Nat.le_one_iff_eq_zero_or_eq_one.mp hw with rfl | rfl
    · exact hl
    · exact hl)

theorem length_pget256 (h : x.Fine) {w : Nat} (hw : w ≤ 1) (i : Nat) : (x.pget w i).length = 256 := by
  rw [length_pget h.2 (by omega)]
  rcases Nat.le_one_iff_eq_zero_or_eq_one.mp hw with rfl | rfl
  · rfl
  · rfl

theorem beatSet (h : x.Fine) {w b : Nat} (hw : w ≤ 2) (hb : b < 256 / beatElems w) {l : List Nat} (hl : l.length = beatLanes w) {i : Nat} :
    (x.beatSet w i b l).Fine := ⟨h.1, full_beatSet h.2 hw hb hl i⟩

/-- The elements of a gather's beat. -/
theorem psetAt (h : x.Fine) {i e : Nat} {l : List Word} (hl : e + l.length ≤ 256) : (x.psetAt i e l).Fine := by
  refine ⟨h.1, ?_⟩
  have hfull := h.2
  have hlen := length_preg h.2 i
  simp only [Tile.full, List.all_eq_true, beq_iff_eq] at hfull ⊢
  refine full_tset hfull ?_ i
  simp [hlen]
  omega

/-- What an instruction draws leaves the tile as it is, but for its generator. -/
theorem drawCtx (h : x.Fine) {op : Nat} {f : TileFields} : (x.drawCtx op f).2.Fine := by
  have hfifo : ∀ (n : Nat) (y : Tile), y.Fine → (y.fillFifo n).Fine := by
    intro n
    induction n with
    | zero => exact fun _ hy => hy
    | succ n ih => exact fun y hy => ih _ hy
  have hdraw : ∀ (y : Tile) (n : Nat), y.Fine → (y.drawMask n).2.Fine := fun y n hy => hfifo _ y hy
  unfold Tile.drawCtx
  dsimp only
  split
  · exact hdraw _ _ h
  · split
    · exact hdraw _ _ (hdraw _ _ h)
    · exact hdraw _ _ h

end Tile.Fine

/-! ### Beats -/

section
variable {a : TileArg}

theorem length_lanes (f : Nat → Nat) : (a.lanes f).length = beatLanes a.f.w := length_byLane _ _ _

theorem beatPlace_lt (f : TileFields) (b : Nat) : (beatPlace f b).2 < 256 / beatElems f.w :=
  Nat.mod_lt _ (by unfold beatElems; split <;> decide)

theorem fine_runBeats {watched : Nat → Bool} {addr : Nat → Nat} {one : Tile → Nat → Tile} (hone : ∀ x b, x.Fine → (one x b).Fine)
    (tc fuel : Nat) : ∀ (k : Nat) (x : Tile), x.Fine → (a.runBeats watched addr one tc fuel k x).Fine := by
  induction fuel with
  | zero => exact fun _ _ hx => hx
  | succ fuel ih =>
    intro k x hx
    unfold TileArg.runBeats
    split
    · exact hx
    · exact .ite hx (.ite hx (ih _ _ (hone _ _ hx)))

theorem fine_long (hx : a.x.Fine) {one : Tile → Nat → Nat → Tile}
    (hone : ∀ x h b, b < 256 / beatElems a.f.w → x.Fine → (one x h b).Fine) : (a.long one).Fine :=
  fine_runBeats (fun x _ hx => hone x _ _ (beatPlace_lt _ _) hx) _ _ _ _ hx

/-- A beat's lanes written to one register. -/
theorem fine_lanes {x : Tile} (hx : x.Fine) (hw : a.f.w ≤ 2) {b : Nat} (hb : b < 256 / beatElems a.f.w) {f : Nat → Nat} {i : Nat} :
    (x.beatSet a.f.w i b (a.lanes f)).Fine := hx.beatSet hw hb (length_lanes f)

variable (hx : a.x.Fine) (hw : a.f.w ≤ 2)
include hx hw

theorem fine_long2 (op : TileArg → Nat → Nat → Nat) : (long2 op a).Fine := fine_long hx fun _ _ _ hb hx => fine_lanes hx hw hb
theorem fine_long1 (op : TileArg → Nat → Nat) : (long1 op a).Fine := fine_long hx fun _ _ _ hb hx => fine_lanes hx hw hb
theorem fine_longMul (op : TileArg → Nat → Nat → Nat) : (longMul op a).Fine := fine_long hx fun _ _ _ hb hx => fine_lanes hx hw hb

theorem fine_semMrefr : (semMrefr a).Fine := by
  unfold semMrefr
  exact fine_long hx fun _ _ _ hb hx => fine_lanes hx hw hb

theorem fine_semMskp : (semMskp a).Fine := by
  unfold semMskp
  exact fine_long hx fun _ _ _ hb hx => fine_lanes hx hw hb

theorem fine_semLong (write : Bool) : (semLong write a).Fine := by
  refine .ite hx (.ite hx (.ite trivial (fine_runBeats (fun x _ hx => ?_) _ _ _ _ hx)))
  cases write
  · exact fine_lanes hx hw (beatPlace_lt _ _)
  · exact hx.store

omit hw in
theorem fine_semPclmul (hw : a.f.w = 2) : (semPclmul a).Fine := by
  refine fine_long hx fun x _ b hb hx => ?_
  rw [hw] at hb
  have hlen (f : Nat → Nat) : (a.lanes f).length = beatLanes 2 := (length_lanes f).trans (by rw [hw])
  exact (hx.beatSet le_rfl hb (hlen _)).beatSet le_rfl hb (hlen _)

end

/-! ### Microcoded instructions -/

section
variable {a : TileArg} (hx : a.x.Fine)
include hx

omit hx in
theorem length_transform (inv : Bool) (h : Nat) {l : List Nat} (hl : l.length = 256) : (a.transform inv h l).length = 256 := by
  have hlayers : ∀ (g : List Nat → Nat → List Nat), (∀ m i, (g m i).length = m.length) → ∀ (is m : List Nat),
      (is.foldl g m).length = m.length := by
    intro g hg is
    induction is with
    | nil => exact fun _ => rfl
    | cons i is ih => exact fun m => (ih _).trans (hg m i)
  unfold TileArg.transform
  dsimp only
  split
  · split
    · split
      · simp [scaleP, hlayers _ (fun _ _ => length_tileLayer ..), hl]
      · simp [hlayers _ (fun _ _ => length_tileLayer ..), hl]
    · exact length_freshList ..
  · exact length_freshList ..

theorem fine_semTransform (hw : a.f.w ≤ 1) (inv : Bool) : (semTransform inv a).Fine := by
  have hlen (h i : Nat) := length_transform (a := a) inv h (hx.length_pget256 hw i)
  have hy := hx.pset256 (i := a.f.d) hw (hlen 0 a.f.a)
  change Tile.Fine (if _ then _ else _)
  split
  · exact hy.pset256 hw (hlen 1 _)
  · exact hy

theorem fine_microAccess {addr n : Nat} {write : Bool} {ds : List Nat} {go : TileOut} (hgo : go.Fine) :
    (a.microAccess addr n write ds go).Fine := by
  have hfresh : ∀ (ks : List Nat) (x : Tile), x.Fine →
      (ks.foldl (fun x k => x.pset 1 ((ds[k]?).getD 0) (a.freshList k 256 (2 ^ 32))) x).Fine := by
    intro ks
    induction ks with
    | nil => exact fun _ hx => hx
    | cons k ks ih => exact fun x hx => ih _ (hx.pset256 le_rfl (length_freshList ..))
  have hacc := TileOut.Fine.access hx (addr := addr) (n := n) (align := 1) (write := write) hgo
  unfold TileArg.microAccess
  split
  · next he => exact hfresh _ _ (by rw [he] at hacc; exact hacc)
  · exact hacc

theorem fine_semCbd : (semCbd a).Fine := by
  have hfree := hx.pset256 (w := 0) (i := a.f.d) (by omega) (length_freshList a 0 256 a.q)
  have hbits (f : Nat → Nat) : ((List.range 256).map f).length = 256 := by simp
  refine .ite ?_ (.ite (fine_microAccess hx ?_) (fine_microAccess hx (hx.pset256 (by omega) (hbits _))))
  · change Tile.Fine (if _ then _ else _)
    split
    · exact hfree.pset256 (by omega) (length_freshList ..)
    · exact hfree
  · exact (hx.pset256 (by omega) (length_masks ..)).pset256 (by omega) (length_zip2 (hbits _) (length_masks ..))

theorem fine_sample (hw : a.f.w ≤ 1) (step : Nat) (cand : Bytes → List Nat) : (a.sample step cand).Fine := by
  unfold TileArg.sample
  dsimp only
  refine .ite hx ?_
  have hle := length_rejSample_le step cand sampleFuel 256 { a.x.sponge with perms := 0 }
  generalize rejSample step cand sampleFuel 256 _ = r at hle ⊢
  refine Tile.Fine.pset256 (x := { a.x with sponge := r.2 }) hx hw ?_
  simp only [List.length_append, List.length_drop, length_freshList]
  omega

theorem fine_semSampu (hw : a.f.w ≤ 1) : (semSampu a).Fine := by
  unfold semSampu
  split
  · exact fine_sample hx hw _ _
  · exact fine_sample hx hw _ _
  · exact fine_sample hx hw _ _

theorem fine_semSib : (semSib a).Fine := by
  unfold semSib
  dsimp only
  refine .ite hx ?_
  have hlen : (if paramOf a.f ≤ 64 then sampleInBall a.q (paramOf a.f) { a.x.sponge with perms := 0 }
      else (a.freshList 0 256 a.q, { a.x.sponge with perms := 0 })).1.length = 256 := by
    split
    · exact length_sampleInBall ..
    · exact length_freshList ..
  exact Tile.Fine.pset256 (x := { a.x with sponge := _ }) hx le_rfl hlen

theorem length_joined (hw : a.f.w ≤ 1) (i : Nat) : (a.joined i).length = 256 :=
  length_zip2 (hx.length_pget256 hw _) (hx.length_pget256 hw _)

omit hx in
theorem fine_psplit {x : Tile} (hx : x.Fine) (hw : a.f.w ≤ 1) {i k : Nat} {l : List Nat} (hl : l.length = 256) : (a.psplit x i k l).Fine :=
  (hx.pset256 hw (length_masks ..)).pset256 hw (length_zip2 hl (length_masks ..))

omit hx in
/-- What a defined parameter computes element by element, and an undefined one leaves free. -/
theorem length_orFree {c : Prop} [Decidable c] {l : List Nat} {k q : Nat} (hl : l.length = 256) :
    (if c then l else a.freshList k 256 q).length = 256 := by
  split
  · exact hl
  · exact length_freshList ..

theorem fine_semComp (hw : a.f.w = 0) : (semComp a).Fine := by
  have hw' : a.f.w ≤ 1 := by omega
  refine .ite (fine_psplit hx hw' ?_) (hx.pset256 (by omega) ?_)
  · exact length_orFree ((List.length_map _).trans (length_joined hx hw' _))
  · exact length_orFree ((List.length_map _).trans (hx.length_pget256 (by omega) _))

theorem fine_semDecompr : (semDecompr a).Fine :=
  hx.pset256 (by omega) (length_orFree ((List.length_map _).trans (hx.length_pget256 (by omega) _)))

theorem fine_semDecomp (hw : a.f.w = 1) : (semDecomp a).Fine := by
  have hw' : a.f.w ≤ 1 := hw.le
  unfold semDecomp
  dsimp only
  split
  · have hl := length_joined hx hw' a.f.a
    refine fine_psplit (fine_psplit hx hw' ?_) hw' ?_
    · split
      · simp [hl]
      · exact length_freshList ..
    · split
      · simp [hl]
      · exact length_freshList ..
  · have hl := hx.length_pget256 le_rfl a.f.a
    refine (hx.pset256 le_rfl ?_).pset256 le_rfl ?_
    · split
      · simp [hl]
      · exact length_freshList ..
    · split
      · simp [hl]
      · exact length_freshList ..

theorem fine_semP2r : (semP2r a).Fine := by
  have hl := hx.length_pget256 le_rfl a.f.a
  exact (hx.pset256 le_rfl (by simp [hl])).pset256 le_rfl (by simp [hl])

theorem fine_semMkhint : (semMkhint a).Fine :=
  (hx.pset256 le_rfl (length_orFree (length_zip2 (hx.length_pget256 le_rfl _) (hx.length_pget256 le_rfl _)))).setS

theorem fine_semUsehint : (semUsehint a).Fine := by
  refine hx.pset256 le_rfl (length_orFree ?_)
  simp [hx.length_pget256 le_rfl, length_freshList]

theorem fine_semPack : (semPack a).Fine := fine_microAccess hx hx.store

theorem fine_semUnpack (hw : a.f.w ≤ 1) : (semUnpack a).Fine :=
  fine_microAccess hx (hx.pset256 hw (length_orFree ((List.length_map _).trans (length_splitBits ..))))

theorem fine_semConv (hw : a.f.w ≤ 1) : (semConv a).Fine := by
  unfold semConv
  dsimp only
  split
  · exact fine_psplit hx hw (length_joined hx hw _)
  · exact (hx.pset256 hw (length_masks ..)).pset256 hw
      (length_zip2 (length_zip2 (hx.length_pget256 hw _) (hx.length_pget256 hw _)) (length_masks ..))
  · exact (hx.pset256 hw (length_freshList ..)).pset256 hw (length_freshList ..)

end

/-! ### Scalars, memory and transfers -/

section
variable {a : TileArg} (hx : a.x.Fine)
include hx

theorem fine_semBr : (semBr a).Fine := .ite hx hx

theorem fine_semEnd : (semEnd a).Fine := .ite (.ite hx hx) (.ite hx (.ite hx (.access hx trivial)))

theorem fine_semWait : (semWait a).Fine := .ite hx trivial

theorem fine_semCsrr : (semCsrr a).Fine := by
  unfold semCsrr
  split
  · exact hx.setS
  · exact hx

theorem fine_csrSet {n v : Nat} {y : Tile} (h : a.x.csrSet n v = some y) : y.Fine := by
  unfold Tile.csrSet at h
  have hsome {c : Prop} [Decidable c] {z : Tile} (h : (if c then some z else none) = some y) (hz : z.Fine) : y.Fine := by
    split at h
    · cases h
      exact hz
    · cases h
  split at h
  · exact hsome h hx
  · exact hsome h hx
  · exact hsome h hx
  · exact hsome h hx
  · cases h

theorem fine_semCsrw : (semCsrw a).Fine := by
  unfold semCsrw
  dsimp only
  split
  · next hy => exact fine_csrSet hx hy
  · exact hx

omit hx in
theorem fine_gather (fuel : Nat) : ∀ (k : Nat) (x : Tile), x.Fine → (a.runGather fuel k x).Fine := by
  induction fuel with
  | zero => exact fun _ _ hx => hx
  | succ fuel ih =>
    intro k x hx
    unfold TileArg.runGather
    split
    · exact hx
    next hk =>
    have hbeat (g : Nat → Word) : (x.psetAt a.f.d (32 * k) (((List.range 32).map (fun i => a.gatherAddr x (32 * k + i))).map g)).Fine :=
      hx.psetAt (by simp; omega)
    dsimp only
    split
    · exact hx
    · split
      · exact hx
      · exact .ite (ih _ _ (hbeat _)) hx
      · exact ih _ _ (hbeat _)

theorem fine_semLdpx : (semLdpx a).Fine := .ite trivial (fine_gather _ _ _ hx)

theorem fine_semSpsqz : (semSpsqz a).Fine :=
  .ite hx (.ite hx (.access hx (Tile.Fine.store (x := { a.x with sponge := _ }) hx)))

theorem fine_semRsend : (semRsend a).Fine := .ite hx (.ite hx (.access hx hx))

end

/-- A defined word carries out its instruction on a tile that stays as every tile is. -/
theorem fine_sem {op : Nat} {sem : Sem} {a : TileArg} (hs : semOf op = some sem) (hl : wordLegal op a.f = true) (hx : a.x.Fine) : (sem a).Fine := by
  have h1 {o : OpSpec} (ho : tileSpec op = some o) (hws : ∀ w ∈ o.ws, w ≤ 1) : a.f.w ≤ 1 := hws _ (legal_of_wordLegal ho hl).width
  have h2 {o : OpSpec} (ho : tileSpec op = some o) (hws : ∀ w ∈ o.ws, w ≤ 2) : a.f.w ≤ 2 := hws _ (legal_of_wordLegal ho hl).width
  unfold semOf at hs
  split at hs
  all_goals cases hs
  -- control and scalars
  case h_1 => exact hx
  case h_2 => exact fine_semBr hx
  case h_3 => exact fine_semEnd hx
  case h_4 => exact fine_semWait hx
  case h_5 => exact fine_semCsrr hx
  case h_6 => exact fine_semCsrw hx
  case h_7 => exact hx.setS
  case h_8 => exact hx.setS
  case h_9 => exact hx.setS
  case h_10 => exact hx.setS
  case h_11 => exact hx.setS
  case h_12 => exact hx.setS
  case h_13 => exact hx.setS
  case h_14 => exact hx.setS
  case h_15 => exact hx.setS
  case h_16 => exact hx.setS
  case h_17 => exact hx.setS
  case h_18 => exact hx
  -- short vectors
  case h_19 => exact hx
  case h_20 => exact hx
  case h_21 => exact hx
  case h_22 => exact hx
  case h_23 => exact hx
  case h_24 => exact hx
  case h_25 => exact hx
  case h_26 => exact hx
  case h_27 => exact hx
  case h_28 => exact hx
  case h_29 => exact hx
  case h_30 => exact hx
  case h_31 => exact hx
  case h_32 => exact hx.setS
  case h_33 => exact hx
  -- long vectors
  case h_34 => exact fine_long2 hx (h2 rfl (by decide)) _
  case h_35 => exact fine_long2 hx (h2 rfl (by decide)) _
  case h_36 => exact fine_long2 hx (h2 rfl (by decide)) _
  case h_37 => exact fine_long2 hx (h2 rfl (by decide)) _
  case h_38 => exact fine_longMul hx (h2 rfl (by decide)) _
  case h_39 => exact fine_longMul hx (h2 rfl (by decide)) _
  case h_40 => exact fine_long2 hx (h2 rfl (by decide)) _
  case h_41 => exact fine_long2 hx (h2 rfl (by decide)) _
  case h_42 => exact fine_long1 hx (h2 rfl (by decide)) _
  case h_43 => exact fine_long1 hx (h2 rfl (by decide)) _
  case h_44 => exact fine_long2 hx (h2 rfl (by decide)) _
  case h_45 => exact fine_semPclmul hx (List.mem_singleton.mp (legal_of_wordLegal rfl hl).width)
  case h_46 => exact fine_long1 hx (h2 rfl (by decide)) _
  case h_47 => exact fine_semMrefr hx (h2 rfl (by decide))
  case h_48 => exact fine_semMskp hx (h2 rfl (by decide))
  -- microcode
  case h_49 => exact fine_semTransform hx (h1 rfl (by decide)) _
  case h_50 => exact fine_semTransform hx (h1 rfl (by decide)) _
  case h_51 => exact fine_semCbd hx
  case h_52 => exact fine_semSampu hx (h1 rfl (by decide))
  case h_53 => exact fine_sample hx (h1 rfl (by decide)) _ _
  case h_54 => exact fine_semSib hx
  case h_55 => exact fine_semComp hx (List.mem_singleton.mp (legal_of_wordLegal rfl hl).width)
  case h_56 => exact fine_semDecompr hx
  case h_57 => exact fine_semDecomp hx (List.mem_singleton.mp (legal_of_wordLegal rfl hl).width)
  case h_58 => exact fine_semP2r hx
  case h_59 => exact fine_semMkhint hx
  case h_60 => exact fine_semUsehint hx
  case h_61 => exact hx
  case h_62 => exact fine_semPack hx
  case h_63 => exact fine_semUnpack hx (h1 rfl (by decide))
  case h_64 => exact fine_semConv hx (h1 rfl (by decide))
  -- memory, sponge and transfers
  case h_65 => exact .access hx hx.setS
  case h_66 => exact .access hx hx.store
  case h_67 => exact .access hx hx
  case h_68 => exact .access hx hx.store
  case h_69 => exact fine_semLong hx (h2 rfl (by decide)) false
  case h_70 => exact fine_semLong hx (h2 rfl (by decide)) true
  case h_71 => exact fine_semLdpx hx
  case h_72 => exact hx
  case h_73 => exact .ite hx (.access hx hx)
  case h_74 => exact hx
  case h_75 => exact fine_semSpsqz hx
  case h_76 => exact fine_semRsend hx
  case h_77 => exact .ite hx (.access hx hx)
  case h_78 => exact .ite hx (.access hx hx)
  case h_79 => exact .ite hx (.access hx hx)

end Sys2Proof.Machine
end

section
/-! PROOFS. What keeps a state sound: keys, completions, queues and the jobs of every engine. -/

namespace Sys2Proof.Machine

namespace State.Sound

variable {s t : State}

/-! ### Random bytes and the parts of the state -/

theorem dropHmac (h : s.Sound) {a : Nat} : (s.dropHmac a).Sound := h.upd
theorem putAttr (h : s.Sound) {a : Nat} {attr : DWord} : (s.putAttr a attr).Sound := h.upd.dropHmac
theorem dueSlots (h : s.Sound) {l : List Nat} : (s.dueSlots l).Sound := h.upd

/-! ### Key slots and handles -/

theorem blockResult (h : s.Sound) {x : Nat} : (s.blockResult x).Sound := h.setFld
theorem endBlock (h : s.Sound) : (s.endBlock).Sound := h.blockResult.setFld.upd
theorem tileBlockEnds (h : s.Sound) {t : Nat} : (s.tileBlockEnds t).Sound := .ite (.setTile h.endBlock.setTileState id) h
theorem showPr (h : s.Sound) {k : Nat} : (s.showPr k).Sound := h.setFld

/-! ### Draws of jobs -/

theorem reseed (h : s.Sound) {k : Nat} {bs : Bytes} : (s.reseed k bs).Sound := h.setDrbg.setFld.setFld.setBit.bump64.bump64.upd

theorem jobDraw (h : s.Sound) {j : Job} {pr : Bool} {n : Nat} {bs : Bytes} {b : Bool} (he : s.jobDraw j pr n = .got bs b t) : t.Sound := by
  unfold State.jobDraw at he
  dsimp only at he
  split at he
  · cases he
  split at he
  · cases he
  split at he
  · next hu => cases he; exact (h.request hu).setJob
  · cases he
  · cases he

theorem waitDraw (h : s.Sound) {j : Job} {pr : Option Nat} {pq : Bool} : (s.waitDraw j pr pq).Sound := by
  unfold State.waitDraw
  dsimp only
  split
  · exact .ifElse h.setJob fun h1 => h1.upd.showPr
  · exact h.setJob

/-! ### Keys and extents -/

theorem sealExtent (h : s.Sound) {a : Nat} {mat : Bytes} : (s.sealExtent a mat).2.Sound := by
  unfold State.sealExtent
  dsimp only [State.draw]
  exact h.upd.onlyIf fun hu => hu.writeDdr

theorem putSlot (h : s.Sound) {a : Nat} {mat : Bytes} {attr : DWord} {k : Nat} : (s.putSlot a mat attr k).Sound :=
  .ite h.upd.sealExtent.upd.dropHmac h.upd.upd.dropHmac

theorem slotUe (h : s.Sound) {a : Nat} : (s.slotUe a).Sound := .ite (.ite h.ddrUe h) h.bump.memEvt
theorem slotCe (h : s.Sound) {a : Nat} : (s.slotCe a).Sound := h.bump

theorem keyUe (h : s.Sound) {n : Nat} {d : Bytes} {ue : SlotUe} : (s.keyUe n d ue).Sound := by
  unfold State.keyUe
  split
  · exact h
  · split
    · exact .ite h.slotUe h
    · exact h.slotUe
    · exact h.bump.memEvt
    · exact .ite h.bump.memEvt h
    · exact .ite h.slotCe h
    · exact h.slotCe
    · exact h.bump
    · exact h

theorem putTrav (h : s.Sound) {w : DWord} {mat : Bytes} {i : Nat} : (s.putTrav w mat i).Sound := by
  unfold State.putTrav
  exact .setCell (h.onlyIf fun hu => hu.writeDdr) fun _ => (h.cell _).upd

theorem travUe (h : s.Sound) {c : Nat} {ue : SlotUe} : (s.travUe c ue).Sound := by
  unfold State.travUe
  exact .ite (h.ddrUe.setCell fun _ => (h.cell c).upd) h

theorem tryIndex (h : s.Sound) {j : Nat} {w : DWord} {mat : Bytes} : (s.tryIndex j w mat).2.Sound := by
  have hx := (h.cell (attrCell w)).ready
  unfold State.tryIndex
  dsimp only
  split
  · exact h.setCell fun _ => hx
  · next i hi =>
    split
    · exact h.setCell fun _ => hx
    split
    · exact h.setCell fun _ => hx.upd
    split
    · exact h.setCell fun _ => hx
    · next hlt =>
      have htaken := h.setCell (c := attrCell w) fun _ => (hx.take hi (by omega)).ready
      exact .setJob (htaken.ifThen fun hu => hu.putTrav)

theorem countWait (h : s.Sound) {c j : Nat} : (s.countWait c j).Sound := .ite h.bump.hsfEvt.setJob h

theorem takeIndex (h : s.Sound) {j : Nat} {w : DWord} {mat : Bytes} : (s.takeIndex j w mat).Sound :=
  .ifElse (.ite_snd h.tryIndex h) fun h1 => (h1.setCell fun hx => hx.upd).countWait

theorem dropWaiter (h : s.Sound) {c j : Nat} : (s.dropWaiter c j).Sound := h.setCell fun hx => hx.upd

theorem giveIndices (h : s.Sound) {c : Nat} : (s.giveIndices c).Sound := by
  unfold State.giveIndices
  refine h.each ?_
  intro u a hu1
  split
  · exact hu1.dropWaiter
  · exact .ifElse hu1.dropWaiter fun h2 => .ite hu1.dueSlots (.ite h2.endJob (.ite h2.endJob (.ite hu1.tryIndex.dropWaiter
      hu1.tryIndex.countWait)))

/-! ### Completions -/

theorem freeFirst (h : s.Sound) {a : Nat} : (s.freeFirst a).Sound := .ite (h.setCell fun hx => hx.upd) h

theorem queueError (h : s.Sound) {q code wher index : Nat} : (s.queueError q code wher index).Sound :=
  .ifThen h.wr fun h1 => h1.setQueueState

theorem complete (h : s.Sound) {j : Job} {r : Result} {outUe : LineUe} {cqUe : Bool} : (s.complete j r outUe cqUe).Sound := by
  unfold State.complete
  split
  · exact h.freeFirst
  · exact h.finish

theorem departing (h : s.Sound) {f : State → State} (hf : s.Sound → (f s).Sound) : (s.departing f).Sound := (hf h).onlyIf fun hu => hu.dropUncarried
theorem cancel (h : s.Sound) {j : Nat} : (s.cancel j).Sound := h.endJob

theorem endAll (h : s.Sound) {status : Nat} {count : Bool} : (s.endAll status count).Sound :=
  h.each fun _ _ h1 => h1.endJob.onlyIf fun h2 => h2.bump

/-! ### Queues -/

theorem sqDoorbell (h : s.Sound) {n i width : Nat} {v : DWord} : (s.sqDoorbell n i width v).Sound := .ite h h.setFld
theorem cqDoorbell (h : s.Sound) {n i width : Nat} {v : DWord} : (s.cqDoorbell n i width v).Sound := .ite h h.setFld.setQueueX
theorem tookTurn (h : s.Sound) {q : Nat} : (s.tookTurn q).Sound := h.upd
theorem fetchEnded (h : s.Sound) {q : Nat} : (s.fetchEnded q).Sound := h.upd
theorem fetchFails (h : s.Sound) {q code head : Nat} : (s.fetchFails q code head).Sound := h.queueError.quiesced

theorem takeDescriptor (h : s.Sound) {q : Nat} {d gl : DmaResult} : (s.takeDescriptor q d gl).Sound := by
  unfold State.takeDescriptor
  dsimp only
  split
  · next _ _ hu => exact h.fetchFails
  · next _ _ hu => exact h.metUe.fetchFails
  · next _ hu => exact h
  · next _ _ hu =>
    split
    · next _ _ _ => exact h.metUe.upd.setFld.unreport.setFld.setFld.cancel
    · next _ _ _ =>
      split
      · next _ _ _ _ _ _ _ => exact (h.metUe.upd.setFld.unreport.setFld.setFld.onlyIf fun h1 => h1.metUe).endJob
      · next _ _ _ _ _ _ => exact (h.metUe.upd.setFld.unreport.setFld.setFld.onlyIf fun h1 => h1.metUe).setJob

theorem fetch (h : s.Sound) {q : Nat} {d gl : DmaResult} : (s.fetch q d gl).Sound :=
  .ite h.fetchEnded.takeDescriptor (.ite h.tookTurn.takeDescriptor h)

theorem place (h : s.Sound) {j : Job} {u : JobUnit} {entry : Option KernelEntry} {harden : Nat} : (s.place j u entry harden).Sound := by
  unfold State.place
  split
  · exact h.setBcore
  · split
    · exact h
    · split
      · exact h
      · exact h.setJob
  · exact h.each fun _ _ h1 => .setTile h1.upd.bump64 fun _ => Tile.Fine.begin
  · exact h

theorem start (h : s.Sound) {j : Job} {p : Option RigPool} {u : JobUnit} {ue : SlotUe} : (s.start j p u ue).Sound := by
  unfold State.start
  dsimp only
  split
  · split
    · exact h.endJob
    · exact h.setJob.place
  · split
    · exact h.endJob
    · exact .endJob (.ite h.keyUe h)
    · exact h.dueSlots
    · split
      · refine .takeIndex (.travUe (.place (.setJob ?_)))
        split
        · exact .ifThen h.keyUe.setJob fun h1 => h1.putAttr
        · exact h.keyUe.setJob
      · refine .place (.setJob ?_)
        split
        · exact .ifThen h.keyUe.setJob fun h1 => h1.putAttr
        · exact h.keyUe.setJob

theorem dispatch (h : s.Sound) {p : Nat} {u : JobUnit} {ue : SlotUe} : (s.dispatch p u ue).Sound := by
  unfold State.dispatch
  split
  · exact h
  · dsimp only
    split
    · split
      · exact h.dropUncarried.dropUnmasked.start
      · exact h.dropUncarried.dropUnmasked
    · split
      · split
        · exact h.dropUncarried.dropUnmasked
        · split
          · exact h.dropUncarried.dropUnmasked.upd
          · exact h.dropUncarried.dropUnmasked.upd.start
      · exact h.dropUncarried.dropUnmasked

theorem metMain (h : s.Sound) {j : Job} {off len : Nat} {d : DmaResult} : (s.metMain j off len d).Sound := .ite h.metUe (.ite h.metLines h)
theorem moveKind (h : s.Sound) {j : Job} {in2 : Bytes} : (s.moveKind j in2).Sound := h.setJob.vacateAll

theorem takeInputs (h : s.Sound) {j : Nat} {main in2 in3 ctx : DmaResult} : (s.takeInputs j main in2 in3 ctx).Sound := by
  unfold State.takeInputs
  split
  · exact h
  · dsimp only
    split
    · exact h
    · split
      · exact .jobEnds (.metUe (.metUe (.metUe (.ite h h.metMain))))
      · exact .jobEnds (.metUe (.metUe (.metUe (.ite h h.metMain))))
      · exact .jobEnds (.metUe (.metUe (.metUe (.ite h h.metMain))))
      · exact .jobEnds (.metUe (.metUe (.metUe (.ite h h.metMain))))
      · exact .ite (.departing (.metUe (.metUe (.metUe (.ite h h.metMain)))) fun h1 => h1.moveKind) (.setJob (.metUe (.metUe (.metUe (.ite h
          h.metMain)))))

theorem takeSegment (h : s.Sound) {j : Nat} {d : DmaResult} : (s.takeSegment j d).Sound := by
  unfold State.takeSegment
  split
  · exact h
  · dsimp only
    split
    · exact h
    · split
      · exact h.metMain.jobEnds
      · exact h.metMain.setJob

theorem completeJob (h : s.Sound) {j : Nat} {outUe : LineUe} {cqUe : Bool} {cqCe : Bool} : (s.completeJob j outUe cqUe cqCe).Sound := by
  unfold State.completeJob
  split
  · exact h
  · split
    · exact .ite h (.ite ((h.onlyIf fun _ => h.bump).complete) h.dueSlots)
    · exact h

theorem clearQueue (h : s.Sound) {q : Nat} : (s.clearQueue q).Sound := by
  unfold State.clearQueue
  exact .setQueueX ((h.each fun _ _ h1 => h1.wr).wr)

theorem restartQueue (h : s.Sound) {q : Nat} {ue : List Nat} : (s.restartQueue q ue).Sound :=
  .ite h (.ifThen h.setQueueX.putEntries fun h1 => h1.wr.setQueueState)

theorem writeQueueCtrl (h : s.Sound) {q : Nat} {v : DWord} {ue : List Nat} : (s.writeQueueCtrl q v ue).Sound :=
  .ifThen (.ite (.setQueueState (.setBit (.wr (.clearQueue (.ifThen h.setFld fun h1 => h1.setBit.setBit))))) (.ifThen (.ifThen h.setFld fun
    h1 => h1.setBit.setBit) fun h1 => h1.fetchEnded.setBit.setQueueState.cancelWaiting.drained.quiesced)) fun h1 => h1.restartQueue

theorem pageRestart (h : s.Sound) {n : Nat} {v : DWord} {ue : List Nat} : (s.pageRestart n v ue).Sound := .ite h.restartQueue h

/-! ### Jobs -/

theorem settle (h : s.Sound) {x : Job} {r : Result} : (s.settle x r).Sound := h.freeShells.setJob

theorem drawMore {j : Job} {pq : Bool} {kept : List Bytes} {l : List (Bool × Nat)} (h : s.Sound) : (s.drawMore j pq kept l).state.Sound := by
  induction l generalizing s kept with
  | nil => exact h
  | cons e l ih =>
    unfold State.drawMore
    dsimp only
    split
    · exact h.setJob
    · exact h
    · next hu => exact ih (h.jobDraw hu)

theorem drawAll (h : s.Sound) {j : Job} {l : List (Bool × Nat)} {pq : Bool} {d : Drawn} (he : s.drawAll j l pq = d) : d.state.Sound :=
  he ▸ h.drawMore

theorem runOp (h : s.Sound) {j : Nat} {o : JobOp} : (s.runOp j o).Sound := by
  unfold State.runOp
  split
  · exact h
  · split
    · exact h
    · split
      · exact h.settle
      · split
        · next hu => exact (h.drawAll hu).jobEnds
        · next hu => exact (h.drawAll hu).waitDraw
        · next hu => exact (h.drawAll hu).settle

/-! ### Bignum cores -/

theorem without (h : s.Sound) {j : Nat} : (s.without j).Sound := h.setJob

theorem catchPoint (h : s.Sound) {c : Nat} : (s.catchPoint c).Sound := by
  unfold State.catchPoint
  split
  · exact h
  · split
    · exact h
    · dsimp only
      split
      · exact h.setJob.cancelBne.quiesced
      · split
        · split
          · exact h.setJob
          · split
            · exact .ifThen h.setJob fun h1 => h1.setJob.bump.bump.upd.start
            · exact h.setJob
        · exact h.setJob

theorem bneResult (h : s.Sound) {x : Nat} : (s.bneResult x).Sound := h.setFld

theorem bneCmd (h : s.Sound) {c cmd : Nat} : (s.bneCmd c cmd).Sound :=
  .ite h (.ite h.bneResult (.ite (.ite h.bneResult (.ite h.bneResult.wipeCore.setBneState.dropUncarried h.bneResult.setBcore)) (.ifThen
    h.bneResult fun h1 => h1.wipeCore.setBneState.setBcore)))

/-! ### Raw arithmetic -/

theorem loadJob (h : s.Sound) {j : Nat} : (s.loadJob j).Sound := by
  unfold State.loadJob
  split
  · exact h
  · split
    · exact h
    · split
      · exact h.settle
      · split
        · exact h
        · split
          · exact h.settle
          · exact h.setBcore.settle

theorem freeJob (h : s.Sound) {j : Nat} : (s.freeJob j).Sound := by
  unfold State.freeJob
  split
  · exact h
  · split
    · exact h
    · dsimp only
      split
      · exact h.settle
      · exact h.setBcore.releaseFreed.settle

/-! ### Microcode -/

theorem loadPatches (h : s.Sound) : (s.loadPatches).Sound := h.each fun _ _ h1 => h1.loadPatch

/-! ### Tiles, islands and shells -/

theorem seedTile (h : s.Sound) {k : Nat} {bs : Bytes} {b : Bool} (he : s.seedTile k = .got bs b t) : t.Sound := by
  unfold State.seedTile at he
  split at he
  · next hu => cases he; exact .setBit (.setTile (h.request hu).upd id)
  · cases he
  · cases he

theorem logCheck (h : s.Sound) {t cause : Nat} {sh : Option Nat} {job : Nat} {at_ : Option Nat} : (s.logCheck t cause sh job at_).Sound := by
  unfold State.logCheck
  simp only [State.draw]
  exact .wr (.wr (.upd (.setFld (.ite h.setBit h))))

theorem tileCheck (h : s.Sound) {t' cause : Nat} {at_ : Option Nat} : (s.tileCheck t' cause at_).Sound := by
  unfold State.tileCheck
  extract_lets u sh was j v w x job e now y z
  have hu : u.Sound := h.tileBlockEnds
  have hx : x.Sound := by
    dsimp only [x, j, sh]
    split
    · exact hu.setFld.setFld.bump.retryOn
    · exact hu.setFld.setFld.bump
  have hy : y.Sound := hx.logCheck.fabEvt
  have hz : z.Sound := hy.leaveShell.setTile fun _ => .idle
  exact .ite hu (.ite hy.dropUncarried hz.afterLoss.afterLoss.dropUncarried)

theorem holdGate (h : s.Sound) {n : Nat} : (s.holdGate n).Sound := h.upd
theorem tileResult (h : s.Sound) {t x : Nat} : (s.tileResult t x).Sound := h.setFld

theorem tileCmd (h : s.Sound) {t cmd : Nat} : (s.tileCmd t cmd).Sound := by
  unfold State.tileCmd
  dsimp only
  split
  · exact h
  · split
    · exact h.tileResult
    · split
      · exact h.tileResult
      · split
        · exact .ite h.tileResult (.setTile h.tileResult.leaveShell fun _ => Tile.Fine.idle)
        · split
          · exact .dropUncarried (.vacated (.setShellState (.setTile h.tileResult id)))
          · exact h.tileResult.retireSpare.dropUncarried
          · exact h.tileResult

theorem effFreq (h : s.Sound) {n : Nat} : (s.effFreq n).Sound := h.setFld
theorem writeFreq (h : s.Sound) {n fq : Nat} : (s.writeFreq n fq).Sound := h.setFld.effFreq
theorem writeGate (h : s.Sound) {n : Nat} : (s.writeGate n).Sound := h.setBit.gateIsland

theorem powerOff (h : s.Sound) {n : Nat} : (s.powerOff n).Sound := by
  refine .ite h (.dropUncarried (.setFld (.each (h.each fun u t hu => ?_) fun _ _ hu => hu.setShellState)))
  exact .setTileState (.setTile (f := (·.gate (u.tileState t))) hu fun _ => Tile.Fine.gate)

theorem writeUngate (h : s.Sound) {n : Nat} : (s.writeUngate n).Sound := .ite h.setBit.holdGate h.setBit.settleGate
theorem powerOn (h : s.Sound) {n : Nat} : (s.powerOn n).Sound := .ite h (h.each fun _ _ h1 => .ite (.setTile h1.setTileState id) h1)

/-! ### Stateful signatures -/

theorem writeMemo (h : s.Sound) {x : Job} {path : List MemoKey} : (s.writeMemo x path).Sound := h.upd

theorem memoUe (h : s.Sound) : (s.memoUe).Sound := by
  unfold State.memoUe
  simp only [State.draw]
  exact h.upd.ddrUe

theorem signMemo (h : s.Sound) {x : Job} {l : List Bytes} {ue : List Nat} : (s.signMemo x l ue).Sound :=
  .ite (.settle ((h.each fun _ _ h1 => h1.memoUe).writeMemo)) (.retry (.hsfEvt (.bump (.setJob ((h.each fun _ _ h1 => h1.memoUe).upd)))))

theorem takeCell (h : s.Sound) {x : Job} {c : Nat} {seed : Bytes} : (s.takeCell x c seed).Sound := by
  unfold State.takeCell
  refine .setJob (.putTrav (h.setCell fun _ => ⟨fun n hn => ?_, fun l hl => ?_⟩))
  · cases hn
    exact ⟨le_rfl, Nat.zero_le _, fun l hl => by cases hl; omega⟩
  · cases hl
    exact ⟨Nat.zero_le _, by simp⟩

theorem statefulKeygen (h : s.Sound) {j op : Nat} : (s.statefulKeygen j op).Sound := by
  unfold State.statefulKeygen
  split
  · exact h
  · split
    · exact h
    · split
      · exact h.settle
      · split
        · next hu => exact (h.drawAll hu).jobEnds
        · next hu => exact (h.drawAll hu).waitDraw
        · next hu => exact (h.drawAll hu).takeCell

theorem statefulSign (h : s.Sound) {j op : Nat} : (s.statefulSign j op).Sound := by
  unfold State.statefulSign
  split
  · exact h
  · split
    · exact h
    · split
      · exact h.settle
      · exact .ite h.settle (.ite h.dropWaiter.settle h)

theorem keygenAcked (h : s.Sound) {c : Nat} : (s.keygenAcked c).Sound := h.each fun _ _ h1 => h1.setJob

theorem counterWritten (h : s.Sound) {c : Nat} : (s.counterWritten c).Sound := by
  unfold State.counterWritten
  split
  · exact h
  · next l hl =>
    have hx := (h.cell c).written hl
    refine h.ifElse fun _ => .giveIndices (.keygenAcked (h.setCell fun _ => ?_))
    split
    · exact hx.ready
    · exact hx

theorem cellFreed (h : s.Sound) {c : Nat} : (s.cellFreed c).Sound := .ite h (h.setCell fun hx => hx.release)

theorem traversalRebuilt (h : s.Sound) {c : Nat} : (s.traversalRebuilt c).Sound := by
  unfold State.traversalRebuilt
  split
  · exact h
  · dsimp only
    refine .giveIndices ?_
    split
    · exact (h.setCell fun hx => hx.upd).putTrav
    · exact h.setCell fun hx => hx.upd

/-! ### RSA -/

theorem runPrivate (h : s.Sound) {j : Nat} {o : JobOp} {rep : Job → List Bytes → Nat} : (s.runPrivate j o rep).Sound := by
  unfold State.runPrivate
  split
  · exact h
  · split
    · exact h
    · split
      · exact h.settle
      · split
        · next hu => exact (h.drawAll hu).jobEnds
        · next hu => exact (h.drawAll hu).waitDraw
        · next hu =>
          refine .ite (h.drawAll hu).settle ?_
          split
          · exact (h.drawAll hu).bneCheck
          · exact h.drawAll hu

/-! ### Key commands of the queues -/

theorem destroyJob (h : s.Sound) {j : Nat} : (s.destroyJob j).Sound := by
  unfold State.destroyJob
  split
  · exact h
  · exact .ite h h.settle.freeFirst

/-! ### OTP -/

theorem showOtp (h : s.Sound) : (s.showOtp).Sound := h.wr.wr.wr.wr.wr

end State.Sound

end Sys2Proof.Machine
end

section
/-! PROOFS. What keeps a state sound: tiles, hash cores, mailbox, memories, slices and digest contexts. -/

namespace Sys2Proof.Machine

namespace State.Sound

variable {s t : State}

/-! ### Tile instructions -/

theorem recordExc (h : s.Sound) {t' cause addr resume : Nat} {imp : Bool} : (s.recordExc t' cause addr resume imp).Sound :=
  .setFld (.wr (h.draw (n := 2)))

theorem abandonJob (h : s.Sound) {t : Nat} : (s.abandonJob t).Sound := by
  unfold State.abandonJob
  split
  · exact h.wipeTile
  · split
    · exact h.retryOn
    · exact h.wipeTile

theorem noteExc (h : s.Sound) {t cause addr resume : Nat} {imp : Bool} : (s.noteExc t cause addr resume imp).Sound := .ite h h.recordExc
theorem countFault (h : s.Sound) {t cause : Nat} : (s.countFault t cause).Sound := .ite h.bump h

theorem kernelFault (h : s.Sound) {t cause addr resume : Nat} {imp : Bool} : (s.kernelFault t cause addr resume imp).Sound :=
  h.countFault.noteExc.abandonJob

theorem haltTile (h : s.Sound) {t cause addr resume : Nat} {ctx : BeatCtx} {instr : Option (Nat × TileFields)} {imp : Bool} : (s.haltTile t
    cause addr resume ctx instr imp).Sound :=
  .noteExc (.countFault (.setFld (.setTile h id)))

theorem except (h : s.Sound) {t op : Nat} {f : TileFields} {cause addr resume : Nat} {ctx : BeatCtx} : (s.except t op f cause addr resume
    ctx).Sound :=
  .ite h.haltTile h.kernelFault

theorem endKernel (h : s.Sound) {t : Nat} {out : Bytes} : (s.endKernel t out).Sound := by
  unfold State.endKernel
  dsimp only
  refine .setTile ?_ id
  split
  · exact h.freeTile
  · exact .ite h.freeShells.setJob h.settle

theorem runDrawn (h : s.Sound) {t' op : Nat} {f : TileFields} {sem : Sem} {ctx : BeatCtx} {y : Tile} {resume : Nat} {pass : Bool}
    (hs : semOf op = some sem) (hl : wordLegal op f = true) (hy : y.Fine) : (s.runDrawn t' op f sem ctx y resume pass).Sound := by
  have hout (a : TileArg) (hf : a.f = f) (hx : a.x.Fine) : (sem a).Fine := fine_sem hs (hf ▸ hl) hx
  unfold State.runDrawn
  dsimp only
  split
  · exact h
  · next z tc hz =>
    have hfine : TileOut.Fine (.ok z tc) := hz ▸ hout _ rfl hy
    exact .ifThen (.setTile h.upd fun _ => hfine) fun hu => hu.haltTile
  · exact .ifThen (.endKernel (.setTile h.upd fun hx => hx.spend)) fun hu => hu.haltTile
  · next cause addr z r tc hz =>
    have hfine : TileOut.Fine (.stop cause addr z r tc) := hz ▸ hout _ rfl hy
    exact .except (.setTile h.upd fun _ => ⟨hfine.1, hfine.2⟩)

theorem runInstr (h : s.Sound) {t' op : Nat} {f : TileFields} {sem : Sem} {held : Option BeatCtx} {resume : Nat} {pass : Bool}
    (hs : semOf op = some sem) : (s.runInstr t' op f sem held resume pass).Sound := by
  have hx := h.tile t'
  unfold State.runInstr
  refine .ite h.except ?_
  split
  · exact h.except
  next hl =>
  have hlegal : wordLegal op f = true := by simpa using hl
  cases held with
  | none =>
    dsimp only
    split
    · exact h.tileCheck
    · exact h
    · exact h.runDrawn hs hlegal hx.drawCtx
  | some c =>
    dsimp only
    split
    · exact h.tileCheck
    · exact h
    · exact h.runDrawn hs hlegal hx

theorem issueTile (h : s.Sound) {t' op : Nat} {f : TileFields} {sem : Sem} (hs : semOf op = some sem) : (s.issueTile t' op f sem).Sound :=
  .ite (h.runInstr hs) h

/-! ### Hash cores -/

theorem hashResult (h : s.Sound) {x : Nat} : (s.hashResult x).Sound := h.setFld

theorem hashCmd (h : s.Sound) {k cmd : Nat} : (s.hashCmd k cmd).Sound :=
  .ite h (.ite h.hashResult (.ite (.ite h.hashResult (.ite h.hashResult.setHcore.dropUncarried h.hashResult.setHcore)) (.ifThen h.hashResult
    fun h1 => h1.setHcore)))

/-! ### Mailbox -/

theorem mbxSignal (h : s.Sound) {ch : Nat} : (s.mbxSignal ch).Sound := .ite h (.ite h.sendMsix (.ite h.upd h))

theorem mbxEnd (h : s.Sound) {ch result detail : Nat} {rsp : Bytes} : (s.mbxEnd ch result detail rsp).Sound :=
  .mbxSignal (.upd (.bump (.setFld (.setFld (.ifThen h.wr fun h1 => h1.setFld)))))

theorem mbxSkip (h : s.Sound) : (s.mbxSkip).Sound := by
  unfold State.mbxSkip
  split
  · exact .ite h h.upd.mbxEnd
  · exact h

theorem mbxNext (h : s.Sound) : (s.mbxNext).Sound := h.mbxSkip.mbxSkip
theorem mbxDone (h : s.Sound) {ch result detail : Nat} {rsp : Bytes} : (s.mbxDone ch result detail rsp).Sound := h.mbxEnd.mbxNext

theorem mbxZeroised (h : s.Sound) : (s.mbxZeroised).Sound := by
  unfold State.mbxZeroised
  split
  · exact h.upd.mbxDone
  · exact h

theorem mbxGo (h : s.Sound) {ch : Nat} : (s.mbxGo ch).Sound := .ite h.upd.setFld.mbxNext h
theorem mbxClear (h : s.Sound) {ch : Nat} : (s.mbxClear ch).Sound := .ite h h.upd.setFld.wr
theorem writeMbxCtrl (h : s.Sound) {ch : Nat} {v : DWord} : (s.writeMbxCtrl ch v).Sound := .ifThen (.ite h.mbxClear h) fun h1 => h1.mbxGo

theorem writeMbxReq (h : s.Sound) {r : Reg} {ch : Nat} {v : DWord} : (s.writeMbxReq r ch v).Sound := by
  unfold State.writeMbxReq
  split
  · exact h
  · split
    · exact h.setFld
    · exact h.setFld
    · exact h.wr

theorem mbxTry (h : s.Sound) {row : MbxRow} {f : State → Nat → Bytes → Option State}
    (hf : ∀ u ch r, u.Sound → ∀ v, f u ch r = some v → v.Sound) : (s.mbxTry row f).Sound := by
  unfold State.mbxTry
  split
  · exact h
  · dsimp only
    split
    · exact .mbxDone (.setFld h.upd)
    · generalize hv : f _ _ _ = v
      cases v with
      | none => exact h
      | some v => exact hf _ _ _ (.setFld h.upd) v hv

theorem mbxRun (h : s.Sound) {row : MbxRow} {f : State → Nat → Bytes → State} (hf : ∀ u ch r, u.Sound → (f u ch r).Sound) :
    (s.mbxRun row f).Sound :=
  h.mbxTry fun u ch r hu v hv => by cases hv; exact hf u ch r hu

/-! ### Scratch banks and LPDDR5X -/

theorem bankViolation (h : s.Sound) {b : Nat} : (s.bankViolation b).Sound := h.bump.memEvt
theorem answer (h : s.Sound) {bs : Bytes} : (s.answer bs).Sound := h.upd

theorem answerPoisoned (h : s.Sound) {n : Nat} : (s.answerPoisoned n).Sound := by
  unfold State.answerPoisoned
  simp only [State.draw]
  exact h.upd

theorem bankResult (h : s.Sound) {b x : Nat} : (s.bankResult b x).Sound := h.setFld

theorem writeHandover (h : s.Sound) {b : Nat} {v : DWord} : (s.writeHandover b v).Sound :=
  .ite h.bankResult (.ite h.bankResult (.ite h.bankResult h.wr.setBit.setFld))

theorem handOver (h : s.Sound) {b : Nat} : (s.handOver b).Sound := h.setFld.setFld.bankResult.setBit.wr.memEvt

theorem writeAper (h : s.Sound) {b : Nat} {v : DWord} : (s.writeAper b v).Sound :=
  .ite h.setFld.setFld.setBit (.ifThen h.setFld.setFld fun h1 => h1.setBit)

theorem noAccess (h : s.Sound) {v0 : MemAccess} : (s.noAccess v0).Sound := by
  unfold State.noAccess
  split
  · exact h.answer
  · exact h

theorem bankAccess (h : s.Sound) {off : Nat} {acc : MemAccess} {ecc : Ecc} : (s.bankAccess off acc ecc).Sound := by
  unfold State.bankAccess
  extract_lets b u
  have hu : u.Sound := by
    dsimp only [u]
    split
    · exact h
    · exact h.bump
    · exact h.bump.memEvt
  split
  · exact .ite hu.answerPoisoned hu.answer
  · exact hu.setSram (Memory.writeEnabled_wf _ _)

theorem ddrAccess (h : s.Sound) {a : Nat} {acc : MemAccess} {ecc : Ecc} : (s.ddrAccess a acc ecc).Sound := by
  unfold State.ddrAccess
  split
  · split
    · exact h.answer
    · exact h.bump.answer
    · exact h.ddrUe.answerPoisoned
  · dsimp only
    split
    · exact h.setDdr (Memory.writeEnabled_wf _ _)
    · exact h.bump.setDdr fun _ => Memory.writeEnabled_wf _ _ h.ddr
    · exact (h.each fun _ _ hu => hu.ddrUe).setDdr fun _ => Memory.foldl_writeEnabled_wf _ h.ddr

theorem aperture (h : s.Sound) {off : Nat} {acc : MemAccess} {ecc : Ecc} : (s.aperture off acc ecc).Sound := .ite h.ddrAccess h.noAccess

theorem bar4Normal (h : s.Sound) {off : Nat} {acc : MemAccess} {ecc : Ecc} : (s.bar4Normal off acc ecc).Sound :=
  .ite h.bankViolation.noAccess (.ite h.aperture h.bankAccess)

theorem aliasChange (h : s.Sound) {set : Bool} {a n : Nat} {v : DWord} {ecc : Ecc} : (s.aliasChange set a n v ecc).Sound := by
  unfold State.aliasChange
  split
  · exact h.bump.memEvt
  · exact (h.onlyIf fun hu => hu.bump).setSram fun _ => Memory.write_wf _ _ h.sram

theorem aliasWrite (h : s.Sound) {set : Bool} {off width : Nat} {v : DWord} {ecc : Ecc} : (s.aliasWrite set off width v ecc).Sound :=
  .ite h.bankViolation (.ite h (.ite h.aliasChange h))

theorem aliasRead (h : s.Sound) {off n : Nat} {ecc : Ecc} : (s.aliasRead off n ecc).Sound :=
  .ite h.bankViolation.answer (.ite h.answer h.bankAccess)

theorem fetchAnd (h : s.Sound) {set : Bool} {who a : Nat} {v : DWord} {ecc : Ecc} {job : Option Nat} : (s.fetchAnd set who a v ecc
    job).Sound := by
  unfold State.fetchAnd
  dsimp only
  split
  · exact h
  · split
    · exact h.bankViolation.answer.each fun _ _ h1 => h1.retry
    · split
      · exact h.answerPoisoned.aliasChange.each fun _ _ h1 => h1.retry
      · exact h.answer.aliasChange

theorem writeFillBase (h : s.Sound) {v : DWord} : (s.writeFillBase v).Sound := h.setFld
theorem writeFillLen (h : s.Sound) {v : DWord} : (s.writeFillLen v).Sound := h.setFld
theorem fillGo (h : s.Sound) : (s.fillGo).Sound := .ite h h.upd.setFld
theorem writeScrub (h : s.Sound) {v : DWord} : (s.writeScrub v).Sound := h.setFld.setBit

/-! ### MAC jobs -/

theorem useHmac (h : s.Sound) {a h' : Nat} {key : Bytes} : (s.useHmac a h' key).Sound := h.bump.upd
theorem jobHmac (h : s.Sound) {x : Job} : (s.jobHmac x).Sound := .ite h.useHmac h.bump

theorem runMac (h : s.Sound) {j : Nat} {o : JobOp} : (s.runMac j o).Sound := by
  unfold State.runMac
  split
  · exact h
  · exact h.runOp.onlyIf fun h1 => h1.jobHmac

/-! ### Slices -/

theorem mgrStatus (h : s.Sound) {n x : Nat} : (s.mgrStatus n x).Sound := h.setFld
theorem wipeSliceBne (h : s.Sound) {n : Nat} : (s.wipeSliceBne n).Sound := h.each fun _ _ h1 => h1.setBcore
theorem setRde (h : s.Sound) {c : Nat} {f : Rde → Rde} : (s.setRde c f).Sound := h.upd

theorem rdeEmpty (h : s.Sound) {c st : Nat} : (s.rdeEmpty c st).Sound := by
  unfold State.rdeEmpty
  exact (h.wr.wr.each fun _ _ h1 => h1.wr).setRde

theorem rdeFree (h : s.Sound) {c : Nat} : (s.rdeFree c).Sound := by
  unfold State.rdeFree
  exact (h.rdeEmpty.wr.wr.wr.wr.each fun _ _ h1 => h1.wr).setRde

theorem resetSlice (h : s.Sound) {n : Nat} : (s.resetSlice n).Sound :=
  .mgrStatus (.wipeSliceBne (.each ((h.setFld.each fun _ _ h1 => h1.clearQueue.unreport.wr.setBit.setQueueState).upd) fun _ _ h1 => .ite
    h1.rdeFree h1))

theorem quiesce (h : s.Sound) {n : Nat} : (s.quiesce n).Sound := h.setFld.upd.cancelWaiting.quiesced
theorem replay (h : s.Sound) {down q : Nat} : (s.replay down q).Sound := .ite h h.putEntries
theorem replaySlice (h : s.Sound) {n : Nat} : (s.replaySlice n).Sound := h.upd.each fun _ _ h1 => h1.each fun _ _ h2 => h2.replay

theorem writeSliceCtrl (h : s.Sound) {n : Nat} {v : DWord} : (s.writeSliceCtrl n v).Sound :=
  .ifElse h.mgrStatus fun h1 => .ite (.ite h.resetSlice h1) (.ite h1 (.ite h.resetSlice (.ite h.mgrStatus (.ifElse (.mgrStatus (.setBit
    (.setBit (.setBit (.ifThen (.ite h.wipeSliceBne h) fun h2 => h2.setBit))))) fun h2 => .ite (.ite h2.quiesce h2) (.upd (.setFld (.ite h2
    h2.replaySlice)))))))

theorem writeVecCount (h : s.Sound) {n : Nat} {v : DWord} : (s.writeVecCount n v).Sound := h.setFld.upd.each fun _ _ h1 => h1.setFld
theorem writePoolHold (h : s.Sound) {p : Nat} {v : DWord} : (s.writePoolHold p v).Sound := h.setBit

theorem writeSliceCfg (h : s.Sound) {r : Reg} {v : DWord} : (s.writeSliceCfg r v).Sound := by
  unfold State.writeSliceCfg
  dsimp only
  split
  · exact .ite h.wr h
  · exact .ite h.setFld h
  · exact .ite h.wr h
  · exact h.setFld
  · exact h.each fun _ _ h1 => h1.setFld
  · exact .ite h.setFld h
  · exact .ite h.setFld.setFld h
  · exact .ite h.setFld h
  · exact .ite h.setFld h
  · exact .ite h.setFld h
  · exact h

theorem writeQueueCfg (h : s.Sound) {r : Reg} {v : DWord} : (s.writeQueueCfg r v).Sound := by
  unfold State.writeQueueCfg
  split
  · exact .ite h.setFld h
  · exact .ite h.setFld h
  · exact .ite h.setFld h
  · exact h.setFld.setFld
  · exact h

/-! ### Digest contexts -/

theorem rdeReport (h : s.Sound) {c : Nat} {who : Claimant} {x : Nat} : (s.rdeReport c who x).Sound := h.setRde
theorem rdeBusy (h : s.Sound) {c : Nat} : (s.rdeBusy c).Sound := h.setBit
theorem rdeGo (h : s.Sound) {c x : Nat} : (s.rdeGo c x).Sound := h.setFld.rdeBusy

theorem asOwner (h : s.Sound) {c : Nat} {who : Claimant} {f : State → State} (hf : s.Sound → (f s).Sound) : (s.asOwner c who f).Sound :=
  .ite h (.ite (hf h) h.rdeReport)

theorem rdeClaim (h : s.Sound) {c : Nat} {who : Claimant} : (s.rdeClaim c who).Sound := by
  unfold State.rdeClaim
  split
  · exact h
  · split
    · exact h.rdeFree.rdeGo.setFld.setRde.rdeReport
    · exact h.rdeReport

theorem rdeRelease (h : s.Sound) {c : Nat} {who : Claimant} : (s.rdeRelease c who).Sound := h.asOwner fun _ => h.rdeFree.rdeReport

theorem rdeClear (h : s.Sound) {c : Nat} {who : Claimant} : (s.rdeClear c who).Sound :=
  h.asOwner fun _ => h.rdeEmpty.setFld.rdeBusy.rdeReport

theorem rdeCommand (h : s.Sound) {c : Nat} {who : Claimant} {x : Nat} : (s.rdeCommand c who x).Sound := by
  unfold State.rdeCommand
  split
  · exact h.rdeClaim
  · exact h.rdeRelease
  · exact h.rdeClear
  · exact h

theorem rdeSetup (h : s.Sound) {c : Nat} {who : Claimant} {r : RdeSetup} {v : DWord} : (s.rdeSetup c who r v).Sound := by
  unfold State.rdeSetup
  refine h.asOwner ?_
  intro hu1
  split
  · exact h.rdeReport
  · dsimp only
    split
    · exact h.rdeReport.wr
    · exact h.rdeReport.setFld
    · exact h.rdeReport.setFld

theorem rdeMet (h : s.Sound) {ue : SlotUe} : (s.rdeMet ue).Sound := by
  unfold State.rdeMet
  split
  · exact h.bump.memEvt
  · exact h.bump.memEvt
  · exact h.bump
  · exact h.bump
  · exact h

theorem rdePoison (h : s.Sound) {c : Nat} {who : Claimant} {status : Nat} : (s.rdePoison c who status).Sound := h.rdeGo.rdeReport

theorem rdeAbsorb (h : s.Sound) {c : Nat} {who : Claimant} {key : Bytes} : (s.rdeAbsorb c who key).Sound :=
  h.rdeEmpty.setFld.rdeReport.setRde.rdeBusy

theorem rdeBegin (h : s.Sound) {c : Nat} {who : Claimant} {ue : SlotUe} : (s.rdeBegin c who ue).Sound := by
  unfold State.rdeBegin
  dsimp only
  split
  · exact h.rdePoison
  · split
    · exact h.rdeAbsorb
    · split
      · split
        · exact h.dueSlots
        · split
          · exact (h.onlyIf fun _ => h.rdeMet).rdePoison
          · exact h.rdeMet.rdeAbsorb.useHmac
      · exact h.rdePoison

theorem rdeDrop (h : s.Sound) {c : Nat} : (s.rdeDrop c).Sound := h.setBit
theorem rdeWord (h : s.Sound) {c : Nat} {v : DWord} : (s.rdeWord c v).Sound := .ite h.rdeDrop h.setFld.setRde.rdeBusy

theorem rdeTake (h : s.Sound) {c : Nat} {who : Claimant} {v : DWord} {ue : SlotUe} : (s.rdeTake c who v ue).Sound := by
  unfold State.rdeTake
  split
  · exact .ifThen h.rdeBegin fun h1 => h1.rdeWord
  · exact .ifThen h.rdeBegin fun h1 => h1.rdeWord
  · exact h.rdeWord
  · exact h.setRde
  · exact h

theorem rdeFinish (h : s.Sound) {c : Nat} {who : Claimant} {count : Nat} {ue : SlotUe} : (s.rdeFinish c who count ue).Sound :=
  h.asOwner fun _ => .ifElse (.ite h.rdeBegin h) fun h2 => .ite h2.rdeGo.rdeReport h2.rdePoison

theorem rdeDone (h : s.Sound) {c : Nat} : (s.rdeDone c).Sound := by
  unfold State.rdeDone
  split
  · exact h
  · dsimp only
    split
    · exact .each (.setRde (.ite h.rdeGo.setBit.bump.setBit (h.rdeGo.setBit.bump.each fun _ _ h1 => h1.wr))) fun _ _ h1 => h1.rdeTake
    · exact .setRde (.ite h.rdeGo.setBit.bump.setBit (h.rdeGo.setBit.bump.each fun _ _ h1 => h1.wr))

end State.Sound

end Sys2Proof.Machine
end

section
/-! PROOFS. What keeps a state sound: the event log, random service, tamper, tile debug and shadows. -/

namespace Sys2Proof.Machine

namespace State.Sound

variable {s t : State}

/-! ### The event log -/

theorem logAt (h : s.Sound) {time : DWord} {kind source cls flags value : Nat} : (s.logAt time kind source cls flags value).Sound :=
  h.wr.wr.wr.setFld.setFld

theorem logEvent (h : s.Sound) {kind source cls flags value : Nat} : (s.logEvent kind source cls flags value).Sound := h.logAt

/-! ### Random service -/

theorem setSrc (h : s.Sound) {x : Nat} : (s.setSrc x).Sound := h.setFld
theorem setPool (h : s.Sound) {bs : Bytes} : (s.setPool bs).Sound := h.upd
theorem setPassed (h : s.Sound) {b : Bool} : (s.setPassed b).Sound := h.each fun _ _ h1 => h1.setBit
theorem beginRestart (h : s.Sound) {k : Nat} : (s.beginRestart k).Sound := h.setSrc.setPassed.upd
theorem recordFail (h : s.Sound) {cell test : Nat} : (s.recordFail cell test).Sound := h.setFld.wr.bump.setPool.rngEvt
theorem uninstantiate (h : s.Sound) {k : Nat} : (s.uninstantiate k).Sound := h.setFld.setFld.upd
theorem uninstantiateAll (h : s.Sound) : (s.uninstantiateAll).Sound := h.each fun _ _ h1 => h1.uninstantiate.showPr

theorem sourceFailed (h : s.Sound) : (s.sourceFailed).Sound :=
  h.setSrc.uninstantiateAll.rngEvt.rngEvt.logEvent.upd.each fun _ _ h1 => h1.jobEnds

theorem countFail (h : s.Sound) : (s.countFail).Sound := .ite h.setFld.sourceFailed h.setFld.beginRestart

theorem healthFail (h : s.Sound) {cell test : Nat} : (s.healthFail cell test).Sound := by
  unfold State.healthFail
  split
  · exact h.recordFail.beginRestart
  · exact .ite h.recordFail.countFail h.recordFail.beginRestart
  · exact .ite h.recordFail.beginRestart h.recordFail.countFail
  · exact h

theorem sourceRuns (h : s.Sound) : (s.sourceRuns).Sound := by
  unfold State.sourceRuns
  exact h.setSrc.setPassed.upd.onlyIf fun h1 => h1.rngEvt

theorem noteCell (h : s.Sound) {k n : Nat} {x : CellTest} : (s.noteCell k n x).Sound := by
  unfold State.noteCell
  dsimp only
  refine State.Sound.upd (s := ?_) ?_
  refine .wr (.setFld (.setFld ?_))
  split
  · exact h.setFld
  · exact h

theorem takeSamples (h : s.Sound) {cellOf : Nat → Nat} {bits : List Bool} : (s.takeSamples cellOf bits).2.Sound :=
  h.each fun _ _ h1 => h1.noteCell

theorem takeSamples_eq (h : s.Sound) {cellOf : Nat → Nat} {bits : List Bool} {x : Option (Nat × Nat)} (he : s.takeSamples cellOf bits = (x, t)) :
    t.Sound := by
  have hu := h.takeSamples (cellOf := cellOf) (bits := bits)
  rwa [he] at hu

theorem rearm (h : s.Sound) : (s.rearm).Sound := .ite h.setFld.beginRestart h
theorem commandRestart (h : s.Sound) : (s.commandRestart).Sound := .ite h.beginRestart h
theorem writeRngCtrl (h : s.Sound) {v : DWord} : (s.writeRngCtrl v).Sound := .ifThen (.ite h.rearm h) fun h1 => h1.commandRestart
theorem setDrb (h : s.Sound) {k x : Nat} : (s.setDrb k x).Sound := h.setFld
theorem instantiate (h : s.Sound) {k : Nat} {bs : Bytes} : (s.instantiate k bs).Sound := h.setDrb.setFld.wr.setDrbg

theorem servePr (h : s.Sound) {sc : State → Bytes → State} {k : Nat} {who : Option Nat} {n : Nat} {bs : Bytes}
    (hsc : ∀ u b, u.Sound → (sc u b).Sound) : (s.servePr sc k who n bs).Sound := by
  have hu := (h.reseed (k := k) (bs := bs)).bump (r := .rngPrCount) (d := 1)
  unfold State.servePr
  dsimp only
  split
  · next he =>
    have hv := (State.Sound.showPr hu.upd).request he
    split
    · exact hv.setJob
    · exact hsc _ _ hv
  · exact .showPr hu.upd

theorem takePool (h : s.Sound) {n : Nat} {f : State → Bytes → State} (hf : ∀ u bs, u.Sound → (f u bs).Sound) : (s.takePool n f).Sound :=
  .ite (hf _ _ h.setPool) h

theorem servePool (h : s.Sound) {sc : State → Bytes → State} (hsc : ∀ u b, u.Sound → (sc u b).Sound) : (s.servePool sc).Sound := by
  refine .ite h ?_
  split
  · exact h.takePool fun _ _ hu => hu.instantiate.seedWaiting
  · split
    · exact h.takePool fun _ _ hu => hu.servePr hsc
    · split
      · exact h.takePool fun _ _ hu => hu.reseed
      · exact h.takePool fun _ _ hu => hu.reseed
      · exact h

/-! ### What a reset leaves -/

theorem resetLink (h : s.Sound) : (s.resetLink).Sound := h.setBit.upd
theorem latchCause (h : s.Sound) {cold : Bool} {cause src merged : Nat} : (s.latchCause cold cause src merged).Sound := h.wr
theorem driveReset (h : s.Sound) {cause : Nat} : (s.driveReset cause).Sound := .ite h h.upd
theorem becomeCold (h : s.Sound) {cause src merged : Nat} : (s.becomeCold cause src merged).Sound := h.enterReset.latchCause.driveReset

theorem mergeReset (h : s.Sound) {cold : Bool} {cause src : Nat} {count : Bool} : (s.mergeReset cold cause src count).Sound :=
  .ite h.becomeCold h.setFld

theorem systemReset (h : s.Sound) {cold : Bool} {cause src : Nat} {count : Bool} : (s.systemReset cold cause src count).Sound :=
  .ite h (.ite h.mergeReset (.driveReset (.ifElse h.flushEnded.enterReset.latchCause fun h1 => h1.bump)))

theorem zeroiseLine (h : s.Sound) {why : Nat} : (s.zeroiseLine why).Sound := by
  unfold State.zeroiseLine
  refine .mbxZeroised (.logEvent (.setBit ?_))
  have hu : ((s.flushEnded.endAll 0x42 false).flushEnded.uninstantiateAll.each (List.range 16) State.rdeFree).Sound :=
    h.flushEnded.endAll.flushEnded.uninstantiateAll.each fun _ _ hu => hu.rdeFree
  refine hu.updUnits (fun e he => ?_) (by simp)
  obtain ⟨-, -, rfl⟩ := List.mem_map.mp he
  exact .idle

theorem countLink (h : s.Sound) {v0 : LinkEvent} : (s.countLink v0).Sound := by
  unfold State.countLink
  split
  · exact h.setFld.setFld
  · exact h.setFld.setFld
  · exact h.setFld.setFld

theorem endDebug (h : s.Sound) : (s.endDebug).Sound := h.upd.wr.wr

theorem endWork (h : s.Sound) : (s.endWork).Sound :=
  .each (.each (.upd ((h.reportHeads.each fun _ _ h1 => h1.freeShells.dropLoad.dropCell).each fun _ _ h1 => h1.setFld.setFld)) fun _ _ h1 =>
    h1.showPr) fun _ _ h1 => h1.vacateAll

theorem linkReset (h : s.Sound) {k : LinkEvent} : (s.linkReset k).Sound :=
  .ite h (.ite (.upd (.ifElse ((h.countLink.endWork.settleQueues.resetLink.each fun _ _ h1 => h1.rdeFree).endDebug) fun h1 => h1.setFld))
    (.ifElse h.countLink.resetLink fun h1 => h1.endDebug))

theorem bumpBoot (h : s.Sound) : (s.bumpBoot).Sound := h.setFld

/-! ### Tamper -/

theorem loadClasses (h : s.Sound) : (s.loadClasses).Sound := (h.each fun _ _ h1 => h1.wr).upd
theorem noteSummary (h : s.Sound) {k : Nat} : (s.noteSummary k).Sound := .ite h.upd h
theorem latchAlarm (h : s.Sound) {time : DWord} {k : Nat} : (s.latchAlarm time k).Sound := h.setBit.bump.wr.noteSummary
theorem logAlarm (h : s.Sound) {time : DWord} {k cls flags val : Nat} : (s.logAlarm time k cls flags val).Sound := h.logAt.latchAlarm
theorem regroup (h : s.Sound) {cls : Nat} : (s.regroup cls).Sound := (h.each fun _ _ h1 => h1.setFld).upd
theorem openGroup (h : s.Sound) : (s.openGroup).Sound := h.upd
theorem logDip (h : s.Sound) {d : Dip} : (s.logDip d).Sound := .ifThen h.logAt fun h1 => h1.upd

theorem endDip (h : s.Sound) : (s.endDip).Sound := by
  unfold State.endDip
  split
  · exact h
  · exact .setBit (.upd (.ite h h.logDip))

theorem undoVdd (h : s.Sound) {u : VddUndo} : (s.undoVdd u).Sound :=
  .ifThen h.setBit.wr.upd fun h1 => .ifThen (h1.each fun _ _ h2 => h2.wr) fun h2 => h2.setFld.setFld

theorem driveAlarm (h : s.Sound) {k : Nat} : (s.driveAlarm k).Sound := h.upd
theorem alarmMessage (h : s.Sound) : (s.alarmMessage).Sound := .ite h.sendMsix h
theorem dropReRig (h : s.Sound) : (s.dropReRig).Sound := h.dropJoiners.upd.applyGates

theorem haltReRig (h : s.Sound) : (s.haltReRig).Sound := by
  unfold State.haltReRig
  split
  · exact .ifThen (.ite h h.dropReRig) fun h1 => h1.mbxDone
  · exact h

theorem enterHalted (h : s.Sound) {k : Nat} : (s.enterHalted k).Sound := h.setFld.setBit.setFld

theorem haltService (h : s.Sound) {k : Nat} : (s.haltService k).Sound := by
  unfold State.haltService
  split
  · exact h.upd
  · split
    · exact .ite h.endAll.enterHalted h.upd
    · exact h.endAll.enterHalted.haltReRig
    · exact h

theorem tamperReset (h : s.Sound) {k : Nat} {count : Bool} : (s.tamperReset k count).Sound := h.systemReset

theorem tamperZeroise (h : s.Sound) {k : Nat} {lock count : Bool} : (s.tamperZeroise k lock count).Sound :=
  .systemReset (.ifThen h.zeroiseLine fun h1 => h1.upd)

theorem holdFor (h : s.Sound) {k : Nat} : (s.holdFor k).Sound := .ite h.upd h

theorem respond (h : s.Sound) {k cls : Nat} {count : Bool} : (s.respond k cls count).Sound := by
  unfold State.respond
  split
  · exact h
  · split
    · exact h.haltService
    · exact h.tamperReset.holdFor
    · exact h.tamperZeroise.holdFor
    · exact h.tamperZeroise.holdFor

theorem act (h : s.Sound) {k cls : Nat} : (s.act k cls).Sound := .ite h h.alarmMessage.driveAlarm.respond

theorem endLcWait (h : s.Sound) {cls : Nat} : (s.endLcWait cls).Sound := by
  unfold State.endLcWait
  split
  · exact .ite h.setFld.setFld.mbxDone h
  · exact h

theorem alarmSide (h : s.Sound) {k : Nat} : (s.alarmSide k).Sound :=
  .ite (.ifElse (h.each fun _ _ h1 => h1.setFld.effFreq) fun h1 => h1.fabEvt) (.ite h.commandRestart (.ite h.setBit h))

theorem driveGroup (h : s.Sound) {k run : Nat} : (s.driveGroup k run).Sound :=
  .ite h (.driveAlarm ((h.each fun _ _ h1 => h1.driveAlarm).onlyIf fun h1 => h1.driveAlarm))

theorem answerGroup (h : s.Sound) {k eff cls prev : Nat} {joined : Bool} : (s.answerGroup k eff cls prev joined).Sound :=
  .ifElse (.ifThen h.upd.regroup.driveGroup.endLcWait fun h1 => h1.alarmMessage) fun h1 => h1.respond

theorem alarm (h : s.Sound) {k val : Nat} {same : Bool} : (s.alarm k val same).Sound :=
  .answerGroup (.upd (.logAlarm (.ifElse (.alarmSide (.setBit (.ite h.endDip h))) fun h1 => h1.openGroup)))

theorem beginDip (h : s.Sound) {mv : Nat} {same : Bool} : (s.beginDip mv same).Sound :=
  .answerGroup (.each (.latchAlarm (.setBit (.setBit (.upd (.ite h h.openGroup))))) fun _ _ h1 => h1.freeTile)

theorem supplyDip (h : s.Sound) {mv : Nat} {same : Bool} : (s.supplyDip mv same).Sound := .ite h h.beginDip

theorem redo (h : s.Sound) {j : Job} : (s.redo j).Sound :=
  .ite (.setJob (.ite (.retryHalf (.ite h.retryHalf h)) (.ite h.retryHalf h))) h.retry

theorem recoverDip (h : s.Sound) {mv us : Nat} : (s.recoverDip mv us).Sound := by
  unfold State.recoverDip
  split
  · exact h
  · split
    · exact h.setBit
    · exact .setFld (.bump (.setBit (.setBit (.each (.upd (.ite h h.logDip)) fun _ _ h1 => h1.redo))))

theorem haltDip (h : s.Sound) {mv : Nat} : (s.haltDip mv).Sound := by
  unfold State.haltDip
  split
  · exact h
  · exact .ite h (.ifElse (.ifThen h.logDip.upd.endLcWait fun h1 => h1.upd) fun h1 => .respond ((h1.onlyIf fun _ =>
      h1.alarmMessage).driveAlarm))

theorem writeTmpVdd (h : s.Sound) {v : DWord} : (s.writeTmpVdd v).Sound := h.setFld
theorem writeTempCtrl (h : s.Sound) {v : DWord} : (s.writeTempCtrl v).Sound := .ifThen h.setFld fun h1 => h1.alarmSide

theorem inactive (h : s.Sound) {k : Nat} : (s.inactive k).Sound :=
  .ite h (.ite (.each (.ifThen h.setBit fun h1 => h1.setBit) fun _ _ h1 => h1.setFld.effFreq) (.upd (.ifThen h.setBit fun h1 => h1.setBit)))

theorem resume (h : s.Sound) : (s.resume).Sound := .ite h.setFld (.upd (.ifElse h.setFld.setBit.setFld fun h1 => h1.wr))
theorem settleAlarmN (h : s.Sound) : (s.settleAlarmN).Sound := h.upd
theorem writeTmpAlarm (h : s.Sound) {v : DWord} : (s.writeTmpAlarm v).Sound := h.setFld.settleAlarmN
theorem writeTmpStatus (h : s.Sound) {v : DWord} : (s.writeTmpStatus v).Sound := .ite h.setBit h

theorem backupAlarm (h : s.Sound) {k val : Nat} : (s.backupAlarm k val).Sound := by
  unfold State.backupAlarm
  exact .logAlarm (.setBit (.alarmSide (.setBit (h.updCells fun _ => by simp))))

theorem latchTime (h : s.Sound) : (s.latchTime).Sound := h.wr

/-! ### Transfers of tiles -/

theorem metInput (h : s.Sound) {j : Job} {which off n : Nat} {d : DmaResult} : (s.metInput j which off n d).Sound := by
  unfold State.metInput
  dsimp only
  split
  · exact h
  · split
    · exact h.metMain
    · exact h.metUe
    · exact h.metUe
    · exact h.metUe
    · exact h

/-! ### Tile debug -/

theorem unhalt (h : s.Sound) {t' : Nat} {f : Tile → Tile} (hf : ∀ x : Tile, x.Fine → (f x).Fine) : (s.unhalt t' f).Sound := by
  unfold State.unhalt
  exact .setFld (.setTile h fun hx => hf { s.tile t' with halt := none } hx)

theorem runWord (h : s.Sound) {t' op : Nat} {f : TileFields} {held : Option BeatCtx} {resume : Nat} {pass : Bool} :
    (s.runWord t' op f held resume pass).Sound := by
  unfold State.runWord
  split
  · next hs => exact h.runInstr hs
  · exact h.except

theorem resumeTile (h : s.Sound) {t : Nat} : (s.resumeTile t).Sound := by
  unfold State.resumeTile
  split
  · exact h
  · split
    · exact h
    · split
      · exact .unhalt h fun _ hx => hx
      · exact .runWord (.unhalt h fun _ hx => hx)
      · exact .runWord (.unhalt h fun _ hx => hx)
      · exact .unhalt h fun _ hx => hx
      · exact .unhalt h fun _ hx => hx
      · exact .ite (.unhalt h fun _ hx => hx) (.unhalt h fun _ hx => hx)
      · exact .unhalt h fun _ hx => hx

theorem writeAttach (h : s.Sound) {t : Nat} {on : Bool} : (s.writeAttach t on).Sound :=
  .ite h (.ite h.setBit (.resumeTile (.setBit (.setBit (.setBit (.setBit (.setTile h id)))))))

theorem haltRequest (h : s.Sound) {t beats : Nat} : (s.haltRequest t beats).Sound := .ite h (.ite h.haltTile (.setTile h id))
theorem resumeRequest (h : s.Sound) {t : Nat} : (s.resumeRequest t).Sound := .ite h.resumeTile h

theorem stepTile (h : s.Sound) {t' : Nat} : (s.stepTile t').Sound := by
  unfold State.stepTile
  split
  · exact h
  · refine .ite h ?_
    dsimp only
    generalize hu : s.unhalt _ _ = u
    have husound : u.Sound := hu ▸ .unhalt h fun _ hx => hx
    exact .ite h (.ite husound.runWord husound.runWord.haltTile)

theorem stepRequest (h : s.Sound) {t : Nat} : (s.stepRequest t).Sound := .ite h.stepTile h
theorem abandonRequest (h : s.Sound) {t : Nat} : (s.abandonRequest t).Sound := .ite h.setBit.abandonJob h

theorem writeDbgCtrl (h : s.Sound) {t : Nat} {v : DWord} : (s.writeDbgCtrl t v).Sound :=
  .ifThen (.ifThen (.ifThen (.ifThen h.writeAttach fun h1 => h1.haltRequest) fun h1 => h1.resumeRequest) fun h1 => h1.stepRequest) fun h1 =>
    h1.abandonRequest

theorem writeRsel (h : s.Sound) {t : Nat} {v : DWord} : (s.writeRsel t v).Sound := .ite h h.wr

theorem dbgWrite (h : s.Sound) {t' : Nat} {v : DWord} : (s.dbgWrite t' v).Sound := by
  refine .ite h (h.setTile fun hx => ?_)
  split
  · exact hx.setS
  · exact hx
  · exact hx.pset le_rfl (by rw [List.length_set]; exact length_pget hx.2 le_rfl _)
  · exact hx.store

/-! ### Shadows -/

theorem integrity (h : s.Sound) {row : Nat} : (s.integrity row).Sound := h.bump.logEvent.alarm.setBit
theorem integrityZeroise (h : s.Sound) {row : Nat} : (s.integrityZeroise row).Sound := h.openGroup.bump.logAlarm.act.setBit
theorem sweepReg (h : s.Sound) {r : Reg} : (s.sweepReg r).Sound := .ite h h.wr.integrity
theorem sweepSlice (h : s.Sound) {n : Nat} : (s.sweepSlice n).Sound := h.each fun _ _ h1 => h1.sweepReg

theorem sweepSlot (h : s.Sound) {a : Nat} : (s.sweepSlot a).Sound := by
  unfold State.sweepSlot
  split
  · exact h
  · dsimp only
    split
    · exact h.bump.draw.putAttr.integrity
    · exact h.bump.draw.putAttr.integrity
    · exact h.bump.draw.integrityZeroise

theorem sweepAon (h : s.Sound) {k : Nat} : (s.sweepAon k).Sound := by
  unfold State.sweepAon
  split
  · exact .ite h h.upd.integrity
  · exact h

theorem sweepDue (h : s.Sound) : (s.sweepDue).Sound := h.upd.each fun _ _ h1 => h1.sweepSlot

theorem mbxUses (h : s.Sound) {code : Nat} {regs : List Reg} {slots : State → Bytes → List Nat} : (s.mbxUses code regs slots).Sound := by
  unfold State.mbxUses
  split
  · exact (h.each fun _ _ h1 => h1.sweepReg).each fun _ _ h1 => h1.sweepSlot
  · exact h

theorem sweep (h : s.Sound) : (s.sweep).Sound :=
  .ite h (.each ((h.each fun _ _ h1 => h1.sweepReg).each fun _ _ h1 => h1.sweepAon) fun _ _ h1 => h1.sweepSlot)

theorem sweepJob (h : s.Sound) {j : Nat} : (s.sweepJob j).Sound := h.each fun _ _ h1 => h1.sweepSlice
theorem sliceCtrl (h : s.Sound) {n : Nat} {v : DWord} : (s.sliceCtrl n v).Sound := h.sweepSlice.writeSliceCtrl

theorem sweepClaimant (h : s.Sound) {v0 : Claimant} : (s.sweepClaimant v0).Sound := by
  unfold State.sweepClaimant
  split
  · exact h.sweepSlice
  · exact h

theorem dipBegins (h : s.Sound) {mv : Nat} {same : Bool} : (s.dipBegins mv same).Sound := (h.onlyIf fun _ => h.sweepReg.sweepReg).supplyDip

theorem sourceAlarm (h : s.Sound) {k val : Nat} {same : Bool} : (s.sourceAlarm k val same).Sound :=
  .ite h ((h.sweepReg.onlyIf fun h1 => h1.sweepReg).alarm)

theorem aonAlarm (h : s.Sound) {k val : Nat} {same : Bool} : (s.aonAlarm k val same).Sound :=
  .ite (h.onlyIf fun _ => h.backupAlarm) h.sourceAlarm

theorem meshPeriod (h : s.Sound) {ins : List (Bool × Bool)} : (s.meshPeriod ins).Sound :=
  .ite h ((h.upd.each fun _ _ h1 => h1.aonAlarm).each fun _ _ h1 => h1.setBit)

theorem resumeNow (h : s.Sound) : (s.resumeNow).Sound := (h.each fun _ _ h1 => h1.sweepReg).resume

end State.Sound

end Sys2Proof.Machine
end

section
/-! PROOFS. What keeps a state sound: life cycle, mailbox commands, rigs, presence and firmware. -/

namespace Sys2Proof.Machine

namespace State.Sound

variable {s t : State}

/-! ### Life cycle and debug rights -/

theorem waitPresence (h : s.Sound) {ch : Nat} : (s.waitPresence ch).Sound := h.setBit

theorem scDraw (h : s.Sound) {n : Nat} {bs : Bytes} (he : s.scDraw n = some (bs, t)) : t.Sound := by
  unfold State.scDraw at he
  split at he
  · next hu => cases he; exact h.request hu
  · cases he

theorem mbxRunWrite (h : s.Sound) {row : MbxRow} {f : State → Nat → Bytes → State} (hf : ∀ u ch r, u.Sound → (f u ch r).Sound) :
    (s.mbxRunWrite row f).Sound := .ite h (h.mbxRun hf)

theorem beginTransition (h : s.Sound) {target : Nat} : (s.beginTransition target).Sound := by
  unfold State.beginTransition
  dsimp only
  refine .logEvent (.cancelWaiting ?_)
  split
  · exact h.upd.setFld.setFld.setFld.setBit
  · exact h.upd.setFld.setFld.setFld

theorem lcAdvance (h : s.Sound) {ch : Nat} {req : Bytes} : (s.lcAdvance ch req).Sound :=
  .ite h.mbxDone (.ite h.mbxDone (.ite h.mbxDone (.ite h.mbxDone (.ite h.beginTransition h.setFld.setFld.waitPresence))))

theorem wipeForMove (h : s.Sound) {target : Nat} : (s.wipeForMove target).Sound := .ite h.upd.zeroiseLine.upd h.wipeSecure

theorem moveSecret (h : s.Sound) {target : Nat} {ws : List Nat} (he : s.moveSecret target = some (ws, t)) : t.Sound := by
  unfold State.moveSecret at he
  split at he
  · cases he; exact h
  split at he
  · next hu => cases he; exact h.scDraw hu
  · cases he

theorem failIntent (h : s.Sound) {target : Nat} {sec : List Nat} : (s.failIntent target sec).Sound := by
  unfold State.failIntent
  simp only [State.draw]
  exact .ite h.upd h.upd

theorem failGroup (h : s.Sound) {target words : Nat} {sec : List Nat} : (s.failGroup target words sec).Sound := by
  unfold State.failGroup
  simp only [State.draw]
  exact h.upd

theorem wipeStep (h : s.Sound) {t : Transition} : (s.wipeStep t).Sound := .ite h h.setFld.wipeForMove

theorem programMove (h : s.Sound) {target : Nat} {w : OtpOutcome} : (s.programMove target w).Sound := by
  unfold State.programMove
  split
  · next _ hu => exact h
  · next _ _ _ hu =>
    dsimp only
    refine .systemReset (.setFld ?_)
    split
    · next _ _ _ _ => exact (h.moveSecret hu).upd
    · next _ _ _ _ =>
      split
      · next _ _ _ _ _ _ _ => exact .mbxEnd ((h.moveSecret hu).failIntent)
      · next _ _ _ _ _ _ => exact (h.moveSecret hu).failIntent
    · next _ _ _ _ _ => exact (h.moveSecret hu).failGroup

theorem resumeMove (h : s.Sound) : (s.resumeMove).Sound := by
  unfold State.resumeMove
  split
  · exact .ite h h.programMove
  · exact h

theorem finishTransition (h : s.Sound) {w : OtpOutcome} : (s.finishTransition w).Sound := by
  unfold State.finishTransition
  split
  · exact h
  · exact .ite h h.wipeStep.setFld.upd.resumeMove

theorem dropChallenge (h : s.Sound) : (s.dropChallenge).Sound := h.upd.wr

theorem dbgChallenge (h : s.Sound) {ch : Nat} {r : Bytes} (he : s.dbgChallenge ch r = some t) : t.Sound := by
  unfold State.dbgChallenge at he
  obtain ⟨⟨n, u⟩, hu, rfl⟩ := Option.map_eq_some_iff.mp he
  exact (State.Sound.wr (h.scDraw hu).upd).mbxDone

theorem dbgOpen (h : s.Sound) {ch : Nat} {c : Bytes} : (s.dbgOpen ch c).Sound :=
  .ite h.mbxDone (.ite h.mbxDone (.ite h.mbxDone (.ite h.dropChallenge.mbxDone (.ite h.dropChallenge.mbxDone (.ite h.dropChallenge.mbxDone
    (.ite h.dropChallenge.mbxDone (.ite h.dropChallenge.mbxDone h.dropChallenge.waitPresence)))))))

theorem openRights (h : s.Sound) {c : Bytes} : (s.openRights c).Sound :=
  .logEvent (.bump (.wr (.setFld (.wr (.upd (.ite h.upd.setBit h))))))

theorem dbgClose (h : s.Sound) {ch : Nat} {r0 : Bytes} : (s.dbgClose ch r0).Sound := h.upd.wr.mbxDone
theorem dbgSetAuth (h : s.Sound) {ch : Nat} {r0 : Bytes} : (s.dbgSetAuth ch r0).Sound := .ite h.mbxDone (.ite h.mbxDone h.waitPresence)
theorem programAuth (h : s.Sound) {ch : Nat} {pk : Bytes} : (s.programAuth ch pk).Sound := h.upd.mbxDone
theorem dbgRevoke (h : s.Sound) {ch : Nat} {req : Bytes} : (s.dbgRevoke ch req).Sound := .ite h.mbxDone (.ite h.mbxDone h.waitPresence)
theorem raiseMin (h : s.Sound) {ch : Nat} {req : Bytes} : (s.raiseMin ch req).Sound := h.upd.mbxDone

/-! ### Key and vault commands -/

theorem stage (h : s.Sound) {off : Nat} {bs : Bytes} : (s.stage off bs).Sound := h.setSram (Memory.write_wf _ _)
theorem putStaging (h : s.Sound) {ch : Nat} {req : Bytes} : (s.putStaging ch req).Sound := .ite h.mbxDone h.stage.mbxDone

theorem mbxRunSlots (h : s.Sound) {row : MbxRow} {slots : State → Bytes → List Nat} {f : State → Nat → Bytes → State}
    (hf : ∀ u ch r, u.Sound → (f u ch r).Sound) : (s.mbxRunSlots row slots f).Sound := h.mbxUses.mbxRun hf

theorem mbxRunChange (h : s.Sound) {row : MbxRow} {slots : State → Bytes → List Nat} {f : State → Nat → Bytes → State}
    (hf : ∀ u ch r, u.Sound → (f u ch r).Sound) : (s.mbxRunChange row slots f).Sound := .ite h (h.mbxRunSlots hf)

theorem withKey (h : s.Sound) {ch a : Nat} {f : State → State} (hf : s.Sound → (f s).Sound) : (s.withKey ch a f).Sound := by
  unfold State.withKey
  split
  · exact h.mbxDone
  · exact hf h

theorem keyMet (h : s.Sound) {a : Nat} {ue : SlotUe} {m : Option Bytes} (he : s.keyMet a ue = (t, m)) : t.Sound := by
  unfold State.keyMet at he
  split at he
  · cases he; exact h.slotUe
  · cases he; exact h.bump.memEvt
  · cases he; exact h.slotCe
  · cases he; exact h.bump
  · cases he; exact h

theorem keyUnread (h : s.Sound) {ch : Nat} : (s.keyUnread ch).Sound := h.mbxDone

theorem withMaterial (h : s.Sound) {ch a : Nat} {ue : SlotUe} {f : State → Bytes → State} (hf : ∀ u m, u.Sound → (f u m).Sound) :
    (s.withMaterial ch a ue f).Sound := by
  unfold State.withMaterial
  split
  · next hu => exact hf _ _ (h.keyMet hu)
  · next hu => exact (h.keyMet hu).keyUnread

theorem zeroStaged (h : s.Sound) {addr n : Nat} : (s.zeroStaged addr n).Sound := .ite h.stage h

theorem keyWrite (h : s.Sound) {d : DmaResult} {ch : Nat} {r : Bytes} : (s.keyWrite d ch r).Sound := by
  unfold State.keyWrite
  dsimp only
  split
  · exact h.mbxDone
  · split
    · exact h.mbxDone
    · split
      · next _ _ _ hu => exact h.mbxDone
      · next _ _ _ _ hu =>
        split
        · next _ _ _ _ _ _ _ => exact h.zeroStaged.mbxDone
        · next _ _ _ _ _ _ => exact h.zeroStaged.putSlot.mbxDone

theorem keySetAttr (h : s.Sound) {ch : Nat} {r : Bytes} : (s.keySetAttr ch r).Sound := .ite h.mbxDone (h.withKey fun _ => h.putAttr.mbxDone)
theorem destroySlot (h : s.Sound) {a : Nat} : (s.destroySlot a).Sound := .emptySlot (.ite (h.setCell fun hx => hx.release) h)

theorem keyDestroy (h : s.Sound) {ch : Nat} {r : Bytes} : (s.keyDestroy ch r).Sound :=
  .ite h.mbxDone ((h.each fun _ _ h1 => h1.destroySlot).mbxDone)

theorem keyGetPublic (h : s.Sound) {ue : SlotUe} {ch : Nat} {r : Bytes} : (s.keyGetPublic ue ch r).Sound :=
  .ite h.mbxDone (h.withKey fun _ => .ite h.mbxDone (h.withMaterial fun _ _ h2 => h2.mbxDone))

theorem signDraws (h : s.Sound) {x y : Bytes} (he : s.signDraws = some (x, y, t)) : t.Sound := by
  unfold State.signDraws at he
  split at he
  · cases he
  next hu =>
    split at he
    · cases he
    · next hv => cases he; exact (h.scDraw hu).scDraw hv

theorem keyAttest (h : s.Sound) {ue : SlotUe} {ch : Nat} {r : Bytes} (he : State.keyAttest ue s ch r = some t) : t.Sound := by
  unfold State.keyAttest at he
  dsimp only at he
  split at he
  · cases he; exact h.mbxDone
  split at he
  · cases he; exact h.mbxDone
  split at he
  · next hu => cases he; exact (h.keyMet hu).keyUnread
  · next hu =>
    obtain ⟨⟨x, y, v⟩, hv, rfl⟩ := Option.map_eq_some_iff.mp he
    exact ((h.keyMet hu).signDraws hv).mbxDone

theorem getIdentity (h : s.Sound) {ch : Nat} {r : Bytes} (he : s.getIdentity ch r = some t) : t.Sound := by
  obtain ⟨⟨x, y, v⟩, hv, rfl⟩ := Option.map_eq_some_iff.mp he
  exact (h.signDraws hv).mbxDone

theorem attestIdentity (h : s.Sound) {ch : Nat} {r : Bytes} (he : s.attestIdentity ch r = some t) : t.Sound := by
  obtain ⟨⟨x, y, v⟩, hv, rfl⟩ := Option.map_eq_some_iff.mp he
  exact (h.signDraws hv).mbxDone

theorem dropEntry (h : s.Sound) {e : Nat} : (s.dropEntry e).Sound := h.upd

theorem vaultStore (h : s.Sound) {ue : SlotUe} {ch : Nat} {r : Bytes} : (s.vaultStore ue ch r).Sound :=
  .ite h.mbxDone (h.withKey fun _ => .ite h.mbxDone (.ite h.mbxDone (h.withMaterial fun _ _ h2 => h2.upd.mbxDone)))

theorem mbxRunVault (h : s.Sound) {row : MbxRow} {slots : State → Bytes → List Nat} {f : State → Nat → Bytes → State}
    (hf : ∀ u ch r, u.Sound → (f u ch r).Sound) : (s.mbxRunVault row slots f).Sound := .ite h (h.mbxRunSlots hf)

theorem vaultLoad (h : s.Sound) {ch : Nat} {r : Bytes} : (s.vaultLoad ch r).Sound := by
  unfold State.vaultLoad
  dsimp only
  split
  · exact h.mbxDone
  · split
    · exact h.mbxDone
    · exact .ite h.mbxDone (.ite h.mbxDone h.putSlot.mbxDone)

theorem vaultErase (h : s.Sound) {ch : Nat} {r : Bytes} : (s.vaultErase ch r).Sound := .ite h.mbxDone (.ite h.mbxDone h.dropEntry.mbxDone)
theorem vaultInfo (h : s.Sound) {ch : Nat} {r0 : Bytes} : (s.vaultInfo ch r0).Sound := h.mbxDone

theorem prDraw (h : s.Sound) {n : Nat} {bs : Bytes} (he : s.prDraw n = some (bs, t)) : t.Sound := by
  unfold State.prDraw at he
  split at he
  · cases he
  · exact (h.setPool.reseed.bump).scDraw he

theorem demandEpoch (h : s.Sound) : (s.demandEpoch).Sound := h.upd.showPr

theorem newEpoch (h : s.Sound) {bs : Bytes} : (s.newEpoch bs).Sound :=
  ⟨h.sram, h.ddr, h.tiles, h.vectors, fun e he => h.cells e (List.mem_of_mem_filter he)⟩

theorem vaultCleared (h : s.Sound) {ch : Nat} {bs : Bytes} : (s.vaultCleared ch bs).Sound := h.upd.newEpoch.mbxDone

theorem clearVault (h : s.Sound) {ch : Nat} : (s.clearVault ch).Sound := by
  unfold State.clearVault
  split
  · next _ _ _ hu => exact (h.prDraw hu).vaultCleared
  · next _ hu => exact h.demandEpoch.upd

theorem zeroiseCommand (h : s.Sound) {r0 : Nat} {r1 : Bytes} : (s.zeroiseCommand r0 r1).Sound := h.zeroiseLine.systemReset

/-! ### Loading a rig -/

theorem loadSlices (h : s.Sound) {r : Rig} : (s.loadSlices r).Sound :=
  h.upd.each fun _ _ h1 => h1.each fun _ _ h2 => h2.wr.wr.each fun _ _ h3 => h3.wr

theorem loadIsland (h : s.Sound) {n : Nat} {x : Nat × Nat × Nat} : (s.loadIsland n x).Sound := h.wr.wr.setFld.setFld.effFreq

theorem loadTile (h : s.Sound) {r : Rig} {t : Nat} : (s.loadTile r t).Sound :=
  .ite h (.setBit (.setFld (.setTile h.setTileState fun _ => Tile.Fine.idle)))

theorem loadShellMap (h : s.Sound) {x : RigShell} : (s.loadShellMap x).Sound := .ite h.wr h.wr.restroke
theorem loadParts (h : s.Sound) {r : Rig} : (s.loadParts r).Sound := (h.each fun _ _ h1 => h1.wr.wr.wr).each fun _ _ h1 => h1.wr.wr.wr
theorem loadHash (h : s.Sound) {k : Nat} : (s.loadHash k).Sound := .ite h h.setHcore
theorem loadGroups (h : s.Sound) {r : Rig} : (s.loadGroups r).Sound := (h.each fun _ _ h1 => h1.wr).each fun _ _ h1 => h1.wr

theorem loadBneCore (h : s.Sound) {r : Rig} {c : Nat} : (s.loadBneCore r c).Sound := by
  unfold State.loadBneCore
  split
  · exact .ifElse h.setFld fun h1 => h1.setBneState
  · exact .ifElse h.setFld fun h1 => h1.setBneState

theorem loadDdrBase (h : s.Sound) : (s.loadDdrBase).Sound := h.wr
theorem bringUp (h : s.Sound) {ds : List Nat} : (s.bringUp ds).Sound := h.each fun _ _ h1 => h1.setBit
theorem wakeDomains (h : s.Sound) : (s.wakeDomains).Sound := h.bringUp

theorem loadRig (h : s.Sound) {r : Rig} {copy : Nat} : (s.loadRig r copy).Sound :=
  .wakeDomains (.loadClasses (.each (.each (.loadSlices (.each (.loadGroups (.each (.loadParts (.each (.each (.each (.each
    ((h.upd.setFld.wr.wr.wr.loadDdrBase.each fun _ _ h1 => h1.loadIsland).each fun _ _ h1 => h1.loadPool) fun _ _ h1 => h1.loadTile) fun _ _
    h1 => h1.loadShellMap) fun _ _ h1 => h1.loadShellState) fun _ _ h1 => h1.loadShellKernels)) fun _ _ h1 => h1.loadHash)) fun _ _ h1 =>
    h1.loadBneCore)) fun _ _ h1 => h1.wr) fun _ _ h1 => h1.setBit.setBit))

/-! ### Rig commands -/

theorem setCopy (h : s.Sound) {k : Nat} {bs : Bytes} : (s.setCopy k bs).Sound := h.upd

theorem rigStage (h : s.Sound) {d : DmaResult} {ch : Nat} {r : Bytes} : (s.rigStage d ch r).Sound := by
  unfold State.rigStage
  dsimp only
  split
  · exact h.mbxDone
  · split
    · exact h.mbxDone
    · split
      · exact h.mbxDone
      · exact .mbxDone (.upd (.ite h h.stage))

theorem rigCheckCmd (h : s.Sound) {ch : Nat} {r0 : Bytes} : (s.rigCheckCmd ch r0).Sound := by
  unfold State.rigCheckCmd
  split
  · exact h.mbxDone
  · split
    · exact h.mbxDone
    · exact h.mbxDone

theorem startFlash (h : s.Sound) {ch copy : Nat} {image : Bytes} {why : FlashFor} : (s.startFlash ch copy image why).Sound := h.setCopy.upd

theorem rigWrite (h : s.Sound) {ch : Nat} {r0 : Bytes} : (s.rigWrite ch r0).Sound := by
  unfold State.rigWrite
  dsimp only
  split
  · exact h.mbxDone
  · split
    · exact h.mbxDone
    · exact .ite h.mbxDone (.ite h.mbxDone h.startFlash)

theorem flashCommit (h : s.Sound) {j : FlashJob} {ok : Bool} : (s.flashCommit j ok).Sound := by
  unfold State.flashCommit
  dsimp only
  split
  · exact h.upd.mbxDone
  · split
    · exact h.upd.setCopy.upd.mbxDone
    · exact h.upd.setCopy.mbxDone

theorem testCores (h : s.Sound) {r : ReRig} : (s.testCores r).Sound :=
  .upd ((h.each fun _ _ h1 => h1.setHcore).each fun _ _ h1 => h1.setBneState)

theorem rigPartialCmd (h : s.Sound) {ch : Nat} {r0 : Bytes} : (s.rigPartialCmd ch r0).Sound := by
  unfold State.rigPartialCmd
  dsimp only
  split
  · exact h.mbxDone
  · split
    · exact h.mbxDone
    · exact h.mbxDone
    · split
      · exact h.mbxDone
      · split
        · exact h.mbxDone
        · split
          · exact h.mbxDone
          · exact h.testCores.testJoiners.startFlash

theorem raiseRigSvn (h : s.Sound) : (s.raiseRigSvn).Sound := by
  unfold State.raiseRigSvn
  split
  · exact .ite h.upd h
  · exact h

theorem finishReRig (h : s.Sound) {r : ReRig} {failed : List Nat} : (s.finishReRig r failed).Sound := by
  unfold State.finishReRig
  dsimp only
  split
  · exact .ifThen (.dropUncarried (.applyGates (.raiseRigSvn (.testLeavers (.each (.upd (.joinCores ((h.endJoiners.each fun _ _ h1 =>
      h1.buildShell).endCores))) fun _ _ h1 => h1.loadShellState))))) fun h1 => h1.mbxDone
  · exact .dropUncarried (.applyGates (.raiseRigSvn (.testLeavers (.each (.upd (.joinCores ((h.endJoiners.each fun _ _ h1 =>
      h1.buildShell).endCores))) fun _ _ h1 => h1.loadShellState))))

theorem rigRotate (h : s.Sound) {ch : Nat} {r0 : Bytes} : (s.rigRotate ch r0).Sound := .ite h.mbxDone (.ite h.mbxDone h.waitPresence)

theorem rotate (h : s.Sound) {ch : Nat} : (s.rotate ch).Sound := by
  unfold State.rotate
  dsimp only
  split
  · exact h.mbxDone
  · split
    · exact h.mbxDone
    · exact h.startFlash

/-! ### Presence -/

theorem noPresence (h : s.Sound) {ch : Nat} : (s.noPresence ch).Sound := .mbxDone (.ite h.setFld.setFld h)

theorem served (h : s.Sound) {ch : Nat} : (s.served ch).Sound := by
  unfold State.served
  dsimp only
  split
  · exact h.beginTransition
  · exact h.openRights.mbxDone
  · exact h.programAuth
  · exact h.raiseMin
  · exact h.rotate
  · exact h.clearVault

theorem finishPressed (h : s.Sound) : (s.finishPressed).Sound := by
  unfold State.finishPressed
  split
  · exact .ite h.served h
  · exact h

theorem lateWrites (h : s.Sound) : (s.lateWrites).Sound := .ite h h.finishPressed.resumeMove
theorem serve (h : s.Sound) {ch : Nat} : (s.serve ch).Sound := .ite h.setBit.upd h.setBit.served

/-! ### Firmware -/

theorem writePart (h : s.Sound) {fw : Bool} {d : DmaResult} {flashOk : Bool} {ch : Nat} {r : Bytes} :
    (State.writePart fw d flashOk s ch r).Sound := by
  unfold State.writePart
  extract_lets addr n off first last most mine done
  refine .ite h.mbxDone (.ite h.mbxDone (.ite h.mbxDone ?_))
  split
  · exact h.mbxDone
  · dsimp only
    have hu {copy : Nat} {image : Bytes} : (if first = true then s.setCopy copy image else s).Sound := h.ifThen fun hu => hu.setCopy
    refine .ite (.mbxDone hu.upd) (.ite (.mbxDone hu.upd) ?_)
    split
    · exact .mbxDone hu.upd
    · exact .mbxDone (.setCopy hu.upd)

theorem clearAttempts (h : s.Sound) : (s.clearAttempts).Sound := h.setFld
theorem restartCmd (h : s.Sound) {ch : Nat} {r : Bytes} : (s.restartCmd ch r).Sound := .ite h.mbxDone h.clearAttempts.systemReset

end State.Sound

end Sys2Proof.Machine
end

section
/-! PROOFS. What keeps a state sound: hybrid halves, starts, resets, power, accesses, sealing and the idle device. -/

namespace Sys2Proof.Machine

namespace State.Sound

variable {s t : State}

/-! ### Hybrid halves -/

theorem runHalf (h : s.Sound) {j op : Nat} {pq : Bool} {o : HalfOp} : (s.runHalf j op pq o).Sound := by
  unfold State.runHalf
  split
  · exact h
  · extract_lets go settle
    have hsettle {u : State} {r : Result} (hu : u.Sound) : (settle u r).Sound := .setJob (.ite hu.freeShells hu)
    refine .ite h ?_
    split
    · exact hsettle h
    · split
      · next hu => exact hsettle (h.drawAll hu)
      · next hu => exact (h.drawAll hu).waitDraw
      · next hu => exact hsettle (h.drawAll hu)

theorem hybridJoin (h : s.Sound) {j : Nat} : (s.hybridJoin j).Sound := by
  unfold State.hybridJoin
  split
  · exact h
  · split
    · split
      · exact h
      · split
        · exact h.endJob.onlyIf fun h1 => h1.bump
        · split
          · exact h
          · exact h.setJob
    · exact h

/-! ### Starts -/

theorem initBbram (h : s.Sound) : s.initBbram.Sound := by
  unfold State.initBbram
  exact .wr (h.updCells fun _ => by simp)

theorem decodeState (h : s.Sound) : (s.decodeState).Sound := by
  unfold State.decodeState
  dsimp only
  refine .showOtp (.wr ?_)
  refine State.Sound.upd (s := ?_) ?_
  split
  · next _ _ hu => exact h.upd
  · next _ hu => exact h

theorem rootAtStart (h : s.Sound) {cold : Bool} : (s.rootAtStart cold).Sound := .ite h.setBit (.ite h.setBit h)
theorem endStart (h : s.Sound) {dev : Nat} : (s.endStart dev).Sound := h.upd.setFld
theorem freeReset (h : s.Sound) : (s.freeReset).Sound := h.upd
theorem enterBlank (h : s.Sound) : (s.enterBlank).Sound := h.upd.wr.clearAttempts.endStart
theorem enterScrapped (h : s.Sound) : (s.enterScrapped).Sound := h.clearAttempts.endStart
theorem takeFirmware (h : s.Sound) : (s.takeFirmware).Sound := h.upd.setFld
theorem enterRecovery (h : s.Sound) : (s.enterRecovery).Sound := h.takeFirmware.setBit.upd.endStart.freeReset
theorem enterLocked (h : s.Sound) : (s.enterLocked).Sound := h.clearAttempts.setBit.endStart.freeReset.upd

theorem continueStart (h : s.Sound) {cold : Bool} : (s.continueStart cold).Sound := by
  unfold State.continueStart
  dsimp only
  split
  · exact h.takeFirmware
  · split
    · exact h.takeFirmware.enterLocked
    · split
      · exact .ifElse h.takeFirmware.upd.loadPatches fun h1 => h1.demandEpoch
      · split
        · exact .loadRig (.bringUp (.setBit (.ifElse h.takeFirmware.upd.loadPatches fun h1 => h1.demandEpoch)))
        · exact .bringUp (.setBit (.ifElse h.takeFirmware.upd.loadPatches fun h1 => h1.demandEpoch))

theorem startSteps (h : s.Sound) : s.startSteps.Sound := by
  unfold State.startSteps
  dsimp only
  generalize hu : State.setBit _ .rstBoot 3 false = u
  have hsound : u.Sound := hu ▸ .setBit (.setFld (.ifThen (.setBit (.setSrc (.upd (.loadClasses (.rootAtStart (.decodeState
    (.ifElse (h.updSram fun _ => rfl) fun hu => hu.initBbram))))))) fun hu => hu.setBit))
  exact .ite hsound.enterRecovery (.ite hsound (.ite hsound.enterBlank (.ite hsound.enterScrapped hsound.continueStart)))

theorem romGo (h : s.Sound) : (s.romGo).Sound := .ite h.startSteps h

theorem bistAndSeed (h : s.Sound) : (s.bistAndSeed).Sound := by
  unfold State.bistAndSeed
  dsimp only
  refine (h.each ?_).each fun _ _ h1 => h1.setFld
  intro u a hu1
  split
  · next _ _ _ _ hu => exact (hu1.setFld.seedTile hu)
  · exact hu1.setFld

theorem startEpoch (h : s.Sound) {bs : Bytes} : (s.startEpoch bs).Sound := h.newEpoch.upd

theorem scServed (h : s.Sound) {bs : Bytes} : (s.scServed bs).Sound := by
  unfold State.scServed
  split
  · exact .ite h.vaultCleared h.startEpoch
  · exact h.startEpoch

theorem raiseSvns (h : s.Sound) : (s.raiseSvns).Sound := by
  unfold State.raiseSvns
  dsimp only
  split
  · split
    · refine State.Sound.upd (s := ?_) ?_
      split
      · exact .ifThen h.raiseRigSvn fun h1 => h1.upd
      · exact h.raiseRigSvn
    · split
      · exact .ifThen h.raiseRigSvn fun h1 => h1.upd
      · exact h.raiseRigSvn
  · split
    · exact .ifThen h.raiseRigSvn fun h1 => h1.upd
    · exact h.raiseRigSvn

theorem payHalt (h : s.Sound) : (s.payHalt).Sound := by
  unfold State.payHalt
  split
  · exact h.upd.enterHalted
  · exact h

theorem seedMesh (h : s.Sound) : (s.seedMesh).Sound := by
  unfold State.seedMesh
  split
  · exact h
  · split
    · next _ _ _ _ hu => exact (h.scDraw hu).upd
    · next _ _ hu => exact h

theorem enterService (h : s.Sound) {us : Nat} : (s.enterService us).Sound :=
  h.bistAndSeed.raiseSvns.bumpBoot.endStart.bringUp.freeReset.setFld.wr.upd.payHalt.mbxNext

theorem failStart (h : s.Sound) {why : StartFault} : (s.failStart why).Sound := .ite h h.setFld.systemReset

/-! ### Resets -/

theorem writeRstCtrl (h : s.Sound) {v : DWord} : (s.writeRstCtrl v).Sound := .ite h (.ite h.systemReset (.ite h.systemReset h))
theorem scFatal (h : s.Sound) : (s.scFatal).Sound := .ite h (.ite h.failStart h.systemReset)
theorem ddrCheck (h : s.Sound) {cause : Nat} : (s.ddrCheck cause).Sound := .ite h h.setFld.systemReset.upd

theorem beginBlock (h : s.Sound) {kind idx : Nat} : (s.beginBlock kind idx).Sound := by
  unfold State.beginBlock
  dsimp only
  split
  · exact h.blockResult.setFld.setFld.upd.setHcore
  · exact h.blockResult.setFld.setFld.upd.setBneState
  · exact (h.blockResult.setFld.setFld.upd.each fun _ _ h1 => h1.setShellState).each fun _ _ h1 => .setTile h1.setTileState id

theorem resetBlock (h : s.Sound) {kind idx : Nat} : (s.resetBlock kind idx).Sound := by
  unfold State.resetBlock
  split
  · exact h
  · exact h.wipeCore
  · exact h.each fun _ _ h1 => .setTile h1 fun _ => Tile.Fine.idle

theorem blockAdvance (h : s.Sound) : (s.blockAdvance).Sound := by
  unfold State.blockAdvance
  split
  · exact h.resetBlock.setFld
  · exact h.setFld
  · exact h

theorem blockReset (h : s.Sound) {kind idx : Nat} : (s.blockReset kind idx).Sound :=
  .ite h (.ifElse h.blockResult fun h1 => .ite h1 (.ite h.blockResult (.ite h1 h.beginBlock)))

theorem writeRstBlock (h : s.Sound) {v : DWord} : (s.writeRstBlock v).Sound := h.blockReset

theorem blockDone (h : s.Sound) {ok : Bool} : (s.blockDone ok).Sound := by
  unfold State.blockDone
  dsimp only
  split
  · exact h.blockAdvance.blockAdvance
  · split
    · exact .ite h.blockAdvance.blockAdvance.setFld.setFld.upd.setHcore h.blockAdvance.blockAdvance.setFld.setFld.upd.hashBistDone
    · exact .ite h.blockAdvance.blockAdvance.setFld.setFld.upd.setFld.setBneState h.blockAdvance.blockAdvance.setFld.setFld.upd.bneBistDone
    · exact h.blockAdvance.blockAdvance.setFld.setFld.upd.each fun _ _ h1 => h1.tileBistDone

/-! ### Power and link -/

theorem finishWrites (h : s.Sound) : s.finishWrites.Sound := by
  refine ⟨h.sram, h.ddr, h.tiles, h.vectors, fun e he => ?_⟩
  obtain ⟨⟨c, x⟩, hmem, rfl⟩ := List.mem_map.mp he
  have hx : x.Sound := h.cells _ hmem
  cases hw : x.writing with
  | none =>
    simp only
    split
    · exact hx.release
    · exact hx
  | some l =>
    simp only
    split
    · exact (hx.written hw).release
    · exact hx.written hw

theorem dropVddReset (h : s.Sound) : (s.dropVddReset).Sound := by
  unfold State.dropVddReset
  split
  · exact .ite h.undoVdd.upd h
  · exact h

theorem loseAon (h : s.Sound) : (s.loseAon).Sound := h.initBbram.upd.upd

theorem alarmsOnCell (h : s.Sound) : (s.alarmsOnCell).Sound := by
  unfold State.alarmsOnCell
  simp only [State.draw]
  exact h.each fun _ _ h1 => h1.upd.backupAlarm

theorem losePower (h : s.Sound) : (s.losePower).Sound :=
  .ite h.dropVddReset.finishWrites.enterReset.wr.setFld.setFld.upd.alarmsOnCell
    h.dropVddReset.finishWrites.enterReset.wr.setFld.setFld.upd.loseAon

theorem gateAll (h : s.Sound) : s.gateAll.Sound := by
  unfold State.gateAll
  refine .upd (.each (.each (h.each fun u t hu => ?_) fun _ _ hu => hu.setShellState) fun _ _ hu => hu.setFld)
  exact .setTileState (.setTile (f := (·.gate (u.tileState t))) hu fun _ => Tile.Fine.gate)

theorem standby (h : s.Sound) : (s.standby).Sound :=
  .bump (.setFld (.setBit (.gateAll (.upd (.ifThen (.ite h.upd h) fun h1 => h1.endWork.settleQueues)))))

theorem wakeIslands (h : s.Sound) : (s.wakeIslands).Sound := h.upd.setBit.each fun _ _ h1 => h1.setFld.powerOn
theorem backToService (h : s.Sound) : (s.backToService).Sound := h.setFld.wr.payHalt

theorem configWrite (h : s.Sound) {w : ConfigWrite} : (s.configWrite w).Sound := by
  unfold State.configWrite
  split
  · exact h.upd
  · exact h.upd
  · exact h.upd
  · exact h.upd.flushMsix
  · exact h.upd
  · exact h.upd.flushMsix
  · exact h.upd.flushMsix
  · exact h.upd.flushMsix

theorem sample (h : s.Sound) {m : Sample} : (s.sample m).Sound := by
  unfold State.sample
  split
  · exact h.upd.setFld.setFld
  · exact h.setFld.setFld
  · exact h.setFld
  · exact h.meshPeriod
  · exact h.setFld.setFld.upd
  · split
    · exact h
    · split
      · next _ _ _ _ _ _ _ _ hu => exact (h.takeSamples_eq hu).healthFail
      · next _ _ _ _ _ _ hu => exact (h.takeSamples_eq hu)

theorem sysclkAt (h : s.Sound) {m : Sample} : (s.sysclkAt m).Sound := by
  unfold State.sysclkAt
  split
  · exact .ite h.upd h
  · exact h

/-! ### Host and debug accesses -/

theorem writeFields (h : s.Sound) {r : Reg} {v : DWord} : (s.writeFields r v).Sound := h.wr

theorem writeIslCtrl (h : s.Sound) {n : Nat} {v : DWord} : (s.writeIslCtrl n v).Sound :=
  .ite h.writeFreq.writeGate (.ifThen h.writeFreq fun h1 => h1.writeUngate)

theorem writeRde (h : s.Sound) {who : Claimant} {r : Reg} {v : DWord} : (s.writeRde who r v).Sound := by
  unfold State.writeRde
  split
  · exact h.rdeCommand
  · exact h.rdeSetup
  · exact h.rdeSetup
  · exact h.rdeSetup
  · exact (h.sweepClaimant.asOwner fun h1 => h1.rdeTake).sweepDue
  · exact h.sweepClaimant.rdeFinish.sweepDue
  · exact h.asOwner fun _ => h.wr
  · exact h

theorem writeTileDebug (h : s.Sound) {r : Reg} {v : DWord} : (s.writeTileDebug r v).Sound := by
  unfold State.writeTileDebug
  dsimp only
  split
  · exact h.sweepReg.writeDbgCtrl
  · exact h.sweepReg.writeRsel
  · exact h.sweepReg.dbgWrite
  · exact .ifThen h.sweepReg fun h1 => h1.writeFields

theorem writeReg (h : s.Sound) {r : Reg} {v : DWord} : (s.writeReg r v).Sound := by
  unfold State.writeReg
  split
  · exact h.sliceCtrl
  · exact h.writeSliceCfg
  · exact h.writeSliceCfg
  · exact h.writeSliceCfg
  · exact h.writeSliceCfg
  · exact h.writeSliceCfg
  · exact h.writeSliceCfg
  · exact h.writeSliceCfg
  · exact h.writeSliceCfg
  · exact h.writeSliceCfg
  · exact h.writeSliceCfg
  · exact h.writeVecCount
  · exact h.sqDoorbell
  · exact h.cqDoorbell
  · exact h.pageRestart
  · exact h.writeQueueCtrl
  · exact h.writeQueueCfg
  · exact h.writeQueueCfg
  · exact h.writeQueueCfg
  · exact h.writeQueueCfg
  · exact h.setFld
  · exact h.writeIslCtrl
  · exact h.writePoolHold
  · exact h.tileCmd
  · exact h.writeTileDebug
  · exact h.writeTileDebug
  · exact h.writeTileDebug
  · exact h.writeTileDebug
  · exact h.writeTileDebug
  · exact h.writeTileDebug
  · exact h.writeTileDebug
  · exact h.hashCmd
  · exact h.writeRde
  · exact h.writeRde
  · exact h.writeRde
  · exact h.writeRde
  · exact h.writeRde
  · exact h.writeRde
  · exact h.writeRde
  · exact h.setFld
  · exact h.bneCmd
  · exact h.writeMbxCtrl
  · exact h.writeMbxReq
  · exact h.writeMbxReq
  · exact h.writeMbxReq
  · exact h.writeRngCtrl
  · exact h.writeHandover
  · exact h.writeAper
  · exact h.writeScrub
  · exact h.writeFillBase
  · exact h.writeFillLen
  · exact .ite h.fillGo h
  · exact h.writeTmpAlarm
  · exact h.writeTmpStatus
  · exact .ite h.resumeNow h
  · exact h.writeTmpVdd
  · exact h.writeTempCtrl
  · exact h.writeRstCtrl
  · exact h.writeRstBlock
  · exact h.writeFields

theorem writeMsix (h : s.Sound) {e part width : Nat} {v : DWord} : (s.writeMsix e part width v).Sound := h.upd.flushMsix

theorem busWrite (h : s.Sound) {bus : Bus} {off width : Nat} {v : DWord} : (s.busWrite bus off width v).Sound := by
  unfold State.busWrite
  dsimp only
  split
  · exact .ite (h.hostTo fun _ => h.writeReg) h
  · exact .ite h.writeRde h
  · exact .ite h.writeMsix h
  · exact h.bar4Normal
  · exact h.aliasWrite
  · exact h
  · exact h

theorem clearRc (h : s.Sound) {r : Reg} {ev : Nat} : (s.clearRc r ev).Sound := .ite h.wr h

theorem readUses (h : s.Sound) {r : Reg} : (s.readUses r).Sound := by
  unfold State.readUses
  split
  · exact h.sweepSlot
  · exact h.sweepReg
  · exact h.sweepReg
  · exact h.sweepReg
  · exact h.sweepReg
  · exact h.sweepReg
  · exact h.sweepReg
  · exact h.sweepReg
  · exact .ite h.sweepReg h

theorem readOf (h : s.Sound) {r : Reg} {width ev : Nat} : (s.readOf r width ev).Sound :=
  .ite (.answer (.ite h h.readUses)) (.ite (.answer (.latchTime (.ite h h.readUses))) (.answer (.clearRc (.ite h h.readUses))))

theorem busRead (h : s.Sound) {bus : Bus} {off width ev : Nat} {ecc : Ecc} : (s.busRead bus off width ev ecc).Sound := by
  unfold State.busRead
  split
  · exact .ite h.readOf h.answer
  · exact h.answer
  · exact h.answer
  · exact h.answer
  · exact h.bar4Normal
  · exact h.aliasRead
  · exact h.answer

theorem i3cCommand (h : s.Sound) {cc : I3cCommand} : (s.i3cCommand cc).Sound := by
  unfold State.i3cCommand
  split
  · exact .ite h.upd h
  · exact .ite h.upd h
  · exact .ite h.upd h
  · exact h.upd
  · exact h.upd
  · exact h.upd
  · exact h.answer
  · exact h.answer
  · exact h.answer
  · simp only [State.draw]
    exact h.upd.answer
  · exact h.answer
  · exact h.answer

theorem debugDdr (h : s.Sound) {a : Nat} {acc : MemAccess} : (s.debugDdr a acc).Sound := .ite h.ddrAccess h.noAccess

theorem debugBank (h : s.Sound) {a : Nat} {acc : MemAccess} : (s.debugBank a acc).Sound := by
  unfold State.debugBank
  split
  · exact h.noAccess
  · split
    · exact h.bankViolation.noAccess
    · exact h.bankAccess

theorem tapRun (h : s.Sound) : (s.tapRun).Sound := h.upd

/-! ### Sealing -/

theorem countSealed (h : s.Sound) {u : JobUnit} {j : Job} {r : Option Result} : (s.countSealed u j r).Sound := by
  unfold State.countSealed
  split
  · dsimp only
    split
    · exact h.bump64.moreCycles
    · exact h.bump64.addCycles
  · exact h
  · exact h
  · exact h

theorem sealUnit (h : s.Sound) {j : Job} {u : Option JobUnit} {r : Option Result} : (s.sealUnit j u r).Sound := by
  unfold State.sealUnit
  split
  · exact h.countSealed.vacated
  · exact h

theorem sealHalf (h : s.Sound) {j : Nat} {pq : Bool} : (s.sealHalf j pq).Sound := by
  unfold State.sealHalf
  split
  · exact h
  · exact .ite h (.ite h.retryHalf h.setJob.sealUnit)

theorem sealJob (h : s.Sound) {j : Nat} : (s.sealJob j).Sound := by
  unfold State.sealJob
  split
  · exact h
  · exact .ite h (.ite (.ite h.retry (h.setJob.sealUnit.each fun _ _ h1 => h1.vacated)) (.ite h.sealHalf.sealHalf h))

/-! ### The idle device -/

theorem aonTick (h : s.Sound) : (s.aonTick).Sound := .ite h (.ifElse h.upd fun h1 => .ite h1.setFld.setFld h1.setFld)
theorem pulseTick (h : s.Sound) : (s.pulseTick).Sound := .ite h h.upd

theorem fillTick (h : s.Sound) : s.fillTick.Sound := by
  refine .ite h ⟨h.sram, ?_, h.tiles, h.vectors, h.cells⟩
  change Memory.wf (if _ then Memory.clear _ _ s.ddr else s.ddr) = true
  split
  · exact Memory.clear_wf h.ddr _ _
  · exact h.ddr

theorem idleTick (h : s.Sound) : (s.idleTick).Sound := .aonTick (.ite h h.bump64.setBit.blockAdvance.pulseTick.fillTick)

end State.Sound

end Sys2Proof.Machine
end

section
/-! PROOFS. O58: every command leaves a sound state, and so does every step. -/

namespace Sys2Proof.Machine

/-- What an answer leaves, if it leaves a state, is sound. -/
def Answer.Sound (a : Answer) : Prop := ∀ t, a = .next t → t.Sound

namespace Answer.Sound

variable {s : State} {a b : Answer}

theorem next (h : s.Sound) : Answer.Sound (.next s) := fun _ ht => by cases ht; exact h

theorem refused {r : Refusal} : Answer.Sound (.refused r) := fun _ ht => by cases ht

theorem ite {c : Prop} [Decidable c] (ha : a.Sound) (hb : b.Sound) : Answer.Sound (if c then a else b) := by
  split
  · exact ha
  · exact hb

theorem coreDebug (h : s.Sound) {k : Nat} {op : CoreOp} : Answer.Sound (s.coreDebug k op) := by
  cases op with
  | read a n => exact .next (.answer (h.draw (n := n)))
  | halt u => exact .ite (.next h.upd) .refused
  | resume u => exact .ite (.next h.upd) .refused
  | step u => exact .ite (.next h) .refused

end Answer.Sound

theorem State.Sound.release {s : State} (h : s.Sound) {cold groupOk : Bool} : (s.release cold groupOk).Sound :=
  .romGo (.bringUp (.wr (.onlyIf (.setFld h.upd) fun hu => hu.setBit)))

/-! ### Commands whose answer takes cases -/

namespace Answer.Sound

variable {s : State}

theorem bneResume (h : s.Sound) {c : Nat} : Answer.Sound (execBneResume c s) := by
  unfold execBneResume
  split
  · exact .next h.setJob
  · exact .next h

theorem ringTimeout (h : s.Sound) {t' : Nat} : Answer.Sound (execRingTimeout t' s) := by
  unfold execRingTimeout
  split
  · exact .ite (.next h.tileCheck) (.next h)
  · exact .next h

theorem tileIdleScrub (h : s.Sound) {t' found : Nat} : Answer.Sound (execTileIdleScrub t' found s) := by
  unfold execTileIdleScrub
  split
  · exact .next h
  · split
    · exact .next h.bump
    · split
      · exact .next h.tileCheck
      · split
        · exact .next h
        · split
          · exact .next h.tileCheck
          · exact .next h.wr

theorem spareJoin (h : s.Sound) {t' sh : Nat} {ok : Bool} : Answer.Sound (execSpareJoin t' sh ok s) := by
  unfold execSpareJoin
  dsimp only
  split
  · exact .next h
  · split
    · exact .next h.retireSpare.fabEvt.dropUncarried
    · split
      · next _ _ _ _ _ _ hu => exact .next (.fabEvt (.ifThen (.loadShellKernels ((h.seedTile hu).joinShell)) fun h2 => h2.shellWhole))
      · exact .next h

theorem maskReseedRequest (h : s.Sound) {t' : Nat} : Answer.Sound (execMaskReseedRequest t' s) := by
  unfold execMaskReseedRequest
  split
  · exact .next h
  · dsimp only
    split
    · exact .next h.setBit
    · split
      · next _ _ _ _ _ _ hu => exact .next (h.setBit.seedTile hu)
      · exact .next h.setBit

theorem slhdsaSign (h : s.Sound) {j : Nat} {ue : List Nat} : Answer.Sound (execSlhdsaSign j s ue) := by
  unfold execSlhdsaSign
  split
  · exact .next h
  · split
    · exact .next h
    · split
      · next _ _ _ _ _ _ hu => exact .next ((h.drawAll hu).jobEnds)
      · next _ _ _ _ _ _ _ hu => exact .next ((h.drawAll hu).waitDraw)
      · next _ _ _ _ _ _ _ hu => exact .next ((h.drawAll hu).signMemo)

theorem bankWipeDone (h : s.Sound) {b : Nat} : Answer.Sound (execBankWipeDone b s) :=
  .ite (.next h) (.next (State.Sound.handOver (h.setSram fun hm => Memory.clear_wf hm _ _)))

theorem ddrFillDone (h : s.Sound) : Answer.Sound (execDdrFillDone s) :=
  .ite (.next h) (.next (.ddrEvt (.setFld (h.ifThen fun hu => hu.setDdr fun hm => Memory.clear_wf hm _ _))))

theorem sourceRestartEnd (h : s.Sound) {fail : Option (Nat × Nat)} {samples : Bytes} : Answer.Sound (execSourceRestartEnd fail s samples) := by
  unfold execSourceRestartEnd
  split
  · exact .next h
  · split
    · split
      · exact .next h.sourceRuns
      · dsimp only
        split
        · exact .next h.takeSamples.healthFail
        · exact .next h.takeSamples.sourceRuns
    · exact .next h.healthFail

theorem conditionedBlock (h : s.Sound) {samples : Bytes} : Answer.Sound (execConditionedBlock s samples) := by
  unfold execConditionedBlock
  split
  · split
    · next _ _ _ _ _ hu => exact .next ((h.takeSamples_eq hu).healthFail)
    · next _ _ _ hu => exact .next (.ite (h.takeSamples_eq hu) ((h.takeSamples_eq hu).setPool))
  · exact .next h

theorem ringTransferArrival (h : s.Sound) {t' : Nat} {parityOk : Bool} : Answer.Sound (execRingTransferArrival t' s parityOk) := by
  unfold execRingTransferArrival
  split
  · exact .next h
  · refine .ite (.next h.tileCheck) ?_
    dsimp only
    generalize hu : s.setTile _ _ = u
    have husound : u.Sound := hu ▸ .setTile h id
    exact .next (.setTile husound fun hx => hx.store)

theorem dmainComplete (h : s.Sound) {t' : Nat} {d : DmaResult} : Answer.Sound (execDmainComplete t' d s) := by
  unfold execDmainComplete
  extract_lets x
  split
  · dsimp only [State.draw]
    split
    · exact .next h.metInput.jobEnds
    · exact .next (.setTile h.upd.metInput fun hx => hx.store)
  · exact .next h

theorem randComplete (h : s.Sound) {t' : Nat} : Answer.Sound (execRandComplete t' s) := by
  unfold execRandComplete
  extract_lets x
  split
  · extract_lets pq pr land
    have hland {u : State} {bs : Bytes} (hu : u.Sound) : (land u bs).Sound := .setTile hu fun hx => hx.store
    split
    · exact .next (hland h).setJob
    · split
      · next hu => exact .next (hland (h.jobDraw hu))
      · exact .next h.waitDraw
      · exact .next h.jobEnds
  · exact .next h

theorem dbgChallenge (h : s.Sound) : Answer.Sound (execDbgChallenge s) :=
  .next (h.mbxUses.mbxTry fun _ _ _ hu _ hv => hu.dbgChallenge hv)

theorem keyDestroy (h : s.Sound) : Answer.Sound (execKeyDestroy s) := by
  unfold execKeyDestroy
  dsimp only
  split
  · exact .ite (.next h) (.next (h.mbxRunChange fun _ _ _ h1 => h1.keyDestroy))
  · exact .next h

theorem keyAttest (h : s.Sound) {ue : SlotUe} : Answer.Sound (execKeyAttest s ue) :=
  .next (h.mbxUses.mbxTry fun _ _ _ hu _ hv => hu.keyAttest hv)

theorem getIdentity (h : s.Sound) : Answer.Sound (execGetIdentity s) := .next (h.mbxTry fun _ _ _ hu _ hv => hu.getIdentity hv)

theorem attestIdentity (h : s.Sound) : Answer.Sound (execAttestIdentity s) := .next (h.mbxTry fun _ _ _ hu _ hv => hu.attestIdentity hv)

theorem flashWriteCommit (h : s.Sound) {ok : Bool} : Answer.Sound (execFlashWriteCommit ok s) := by
  unfold execFlashWriteCommit
  split
  · exact .next h
  · split
    · exact .next h
    · split
      · exact .next h
      · exact .next h.flashCommit

theorem rigPartialCommit (h : s.Sound) {ok : Bool} : Answer.Sound (execRigPartialCommit ok s) := by
  unfold execRigPartialCommit
  split
  · split
    · exact .next h
    · split
      · exact .ite (.next h.upd.setCopy.setFld.upd) (.next h.upd.dropReRig.mbxDone)
      · exact .next h
  · exact .next h

theorem rigPartialDrained (h : s.Sound) : Answer.Sound (execRigPartialDrained s) := by
  unfold execRigPartialDrained
  split
  · exact .next h
  · split
    · exact .next h
    · dsimp only
      refine .next ?_
      split
      · exact h.upd.switchShells
      · exact h.upd.switchGroup
      · exact h.upd.switchPart

theorem rigPartialComplete (h : s.Sound) {failed : List Nat} : Answer.Sound (execRigPartialComplete failed s) := by
  unfold execRigPartialComplete
  split
  · exact .ite (.next h) (.next h.finishReRig)
  · exact .next h

theorem presencePress (h : s.Sound) {jmp sealOpen : Bool} : Answer.Sound (execPresencePress jmp sealOpen s) := by
  unfold execPresencePress
  split
  · exact .next h
  · dsimp only
    split
    · exact .next h.setBit.setBit.setBit.setBit
    · exact .ite (.next h.setBit.setBit.setBit.setBit) (.ite (.next h.setBit.setBit.setBit.setBit.serve) (.next
        h.setBit.setBit.setBit.setBit.noPresence))

theorem presenceTimeout (h : s.Sound) : Answer.Sound (execPresenceTimeout s) := by
  unfold execPresenceTimeout
  split
  · exact .ite (.next h.noPresence) (.next h)
  · exact .next h

theorem resetRelease (h : s.Sound) {refreshOk groupOk : Bool} : Answer.Sound (execResetRelease refreshOk s groupOk) :=
  .ite (.next h) (.ite (.next (State.Sound.release h.becomeCold).mbxNext) (.next (State.Sound.release h).mbxNext))

theorem ddrTrainingDone (h : s.Sound) {mask gib mts : Nat} : Answer.Sound (execDdrTrainingDone mask gib mts s) := by
  unfold execDdrTrainingDone
  split
  · exact .next h
  · dsimp only
    split
    · exact .next h.setFld.setFld.freeReset
    · split
      · next _ _ _ hu => exact .next h.setFld.setFld.freeReset
      · next _ _ _ _ _ hu => exact .next (.upd (.wr (.wr (.bringUp (.setFld ((h.setFld.setFld.freeReset.scDraw hu).setFld))))))

theorem ddrInitDone (h : s.Sound) : Answer.Sound (execDdrInitDone s) := by
  have hu : ({ s.setBit .ddrStat 2 true with ddr := [] } : State).Sound := h.setBit.setDdr fun _ => rfl
  unfold execDdrInitDone
  refine .ite (.next h) ?_
  dsimp only
  split
  · exact .next hu.loadRig
  · exact .next hu

theorem monitorSample (h : s.Sound) {m : Sample} : Answer.Sound (execMonitorSample m s) := by
  unfold execMonitorSample
  dsimp only
  split
  · exact .next h.sysclkAt.meshPeriod
  · exact .ite (.next h.sysclkAt.sample) (.next h.sysclkAt)

theorem jtagAccess (h : s.Sound) {op : JtagOp} : Answer.Sound (execJtagAccess op s) := by
  have hu : (s.sweepReg .dbgRights).Sound := h.sweepReg
  have htap := hu.tapRun
  unfold execJtagAccess
  refine .ite (.next h) ?_
  cases op with
  | trst => exact .next hu.upd
  | idcode => exact .next htap.answer
  | bypass b => exact .next (.upd htap.answer)
  | sample ps => exact .next htap.answer
  | extest ps => exact .ite (.next htap.upd) (.next hu)
  | intest ps => exact .ite (.next htap.upd) (.next hu)
  | trace a n => exact .ite (.next hu.debugDdr) (.next hu)
  | perf off =>
    dsimp only
    split
    · exact .ite (.next hu.readOf) (.next hu)
    · exact .next hu
  | memRead ddr a n => exact .ite (.next hu) (.next (.ite hu.debugDdr hu.debugBank))
  | memWrite ddr a bs => exact .ite (.next hu) (.next (.ite hu.debugDdr hu.debugBank))
  | coreDebug k op => exact .ite (coreDebug hu) (.next hu)

end Answer.Sound

/-! ### Every command -/

theorem exec_sound (i : Instr) {s : State} (h : s.Sound) : Answer.Sound (exec i s) := by
  cases i with
  | nop | br | endKernel | wait | csrr | csrw | sadd | ssub | smul | sand | sor | sxor | sshl | sshr | saddi | sli | slh | scmp | vadd
  | vsub | vaddm | vsubm | vmulm | vand | vor | vxor | vshl | vshr | vmulh | vclmul | vbcast | vext | vperm | padd | psub | paddm
  | psubm | pmulm | pmacm | pand | pxor | pshl | pshr | pmulh | pclmul | pmov | mrefr | mskp | ntt | intt | cbd | sampu | sampeta | sib
  | comp | decompr | decomp | p2r | mkhint | usehint | normchk | pack | unpack | conv | lds | sts | ldv | stv | ldp | stp | ldpx
  | spinit | spabs | spfin | spsqz | rsend | rrecv | dmain | rand => exact .next (h.issueTile rfl)
  | mlkemKeygen | mlkemEncaps | mlkemDecaps | mldsaKeygen | mldsaSign | mldsaVerify | slhdsaKeygen | slhdsaVerify | lmsVerify
  | xmssVerify | hqcKeygen | hqcEncaps | hqcDecaps | eccKeygen | eccSign | eccVerify | eccDerive | checkPublic | edmontKeygen
  | edmontSign | edmontVerify | edmontDerive | rsaKeygen | rsaVerify | rsaEncrypt | rawPublic | modmul | modexp | modinv | digest | xof
  | generate | importKey | wrap | unwrap | attest | setMemoDepth | getPublic | randomBytes => exact .next h.runOp
  | sliceEnable | sliceQuiesce | sliceUnquiesce | sliceReset | sliceDisable | bneCompatSet => exact .next (h.hostTo fun _ => h.sliceCtrl)
  | registerWrite => exact .ite (.ite (.next h) (.next h.upd.busWrite)) (.next h.busWrite)
  | rcRead => exact .ite (.ite (.next h) (.next h.upd.busRead)) (.next h.busRead)
  | pcieConfigWrite => exact .ite (.next h.configWrite) (.next h)
  | sqDoorbell => exact .next (h.hostTo fun _ => h.sqDoorbell)
  | cqDoorbell => exact .next (h.hostTo fun _ => h.cqDoorbell)
  | descriptorFetch => exact .next h.sweepSlice.fetch
  | jobDispatch => exact .next (.sweepDue ((h.each fun _ _ h1 => h1.sweepSlice).dispatch))
  | jobSealed => exact .next (h.departing fun _ => h.sealJob)
  | completionEntryWrite => exact .next h.sweepJob.completeJob.sweepDue
  | modTimeExpiry => exact .ite (.next h.sendQueue) (.next h)
  | hybridJoin => exact .next h.hybridJoin
  | queueEnable | queueDisable | qmgQRestart => exact .next (h.hostTo fun _ => h.writeQueueCtrl)
  | slmPgQrestart => exact .next (h.hostTo fun _ => h.pageRestart)
  | sliceResetComplete => exact .next h.sliceResetDone
  | vecCountWrite => exact .next (h.hostTo fun _ => h.writeVecCount)
  | poolHoldWrite => exact .next (h.hostTo fun _ => h.writePoolHold)
  | slhdsaSign => exact .slhdsaSign h
  | lmsKeygen | xmssKeygen => exact .next h.statefulKeygen
  | lmsSign | xmssSign => exact .next h.statefulSign
  | rsaSign | rsaDecrypt | rawPrivate => exact .next h.runPrivate
  | loadOperand => exact .next h.loadJob
  | freeHandle => exact .next h.freeJob
  | macTag | macVerify => exact .next h.runMac
  | destroy => exact .next h.destroyJob
  | hybridKeygen | hybridEncaps | hybridDecaps => exact .next h.runHalf.runHalf
  | linkReset => exact .ite (.next h.upd.resetLink) (.next h.upd.linkReset)
  | d0Wake =>
    exact .ite (.next h) (.ite (.next h.upd) (.next (.upd (.ifThen h.upd.wakeIslands.backToService.setFld fun h1 => h1.bumpBoot))))
  | watchdogExpiry => exact .ite (.next h.tileCheck) (.next h)
  | ringTimeout => exact .ringTimeout h
  | tileIdleScrub => exact .tileIdleScrub h
  | sparePeriodicBist => exact .ite (.next (.setTile h fun _ => Tile.Fine.idle)) (.next h)
  | spareJoin => exact .spareJoin h
  | tileBistComplete => exact .next h.tileBistDone
  | maskReseedRequest => exact .maskReseedRequest h
  | maskBudgetSpent => exact .ite (.next h) (.next ((h.onlyIf fun _ => h.fabEvt).dropUnmasked))
  | tilDbgAttach => exact .next (h.hostTo fun _ => h.sweepReg.writeAttach)
  | tilDbgHalt => exact .next (h.hostTo fun _ => h.sweepReg.haltRequest)
  | tilDbgResume => exact .next (h.hostTo fun _ => h.sweepReg.resumeRequest)
  | tilDbgStep => exact .next (h.hostTo fun _ => h.sweepReg.stepRequest)
  | tilDbgAbandon => exact .next (h.hostTo fun _ => h.sweepReg.abandonRequest)
  | fabTileBringUp | fabTileRetire => exact .next (h.hostTo fun _ => h.tileCmd)
  | islandFreqWrite => exact .next (h.hostTo fun _ => h.writeFreq)
  | islandGate => exact .next (h.hostTo fun _ => h.writeGate)
  | islandPowerOff => exact .next h.powerOff
  | islandUngate => exact .next (h.hostTo fun _ => h.writeUngate)
  | islandPowerOn => exact .next h.powerOn
  | ringTransferArrival => exact .ringTransferArrival h
  | dmainComplete => exact .dmainComplete h
  | randComplete => exact .randComplete h
  | hsfCoreMachineCheck => exact .next h.hashCheck
  | hsfCoreBistComplete => exact .next h.hashBistDone
  | hsfCoreBringUp | hsfCoreRetire => exact .next (h.hostTo fun _ => h.hashCmd)
  | messageSegmentFetch => exact .next h.sweepJob.takeSegment
  | counterWriteAck => exact .next h.counterWritten.sweepDue.lateWrites
  | cellFreeAck => exact .next h.cellFreed.lateWrites
  | traversalRebuildDone => exact .next h.traversalRebuilt.sweepDue
  | rdeClaim => exact .next h.rdeClaim
  | rdeRelease => exact .next h.rdeRelease
  | rdeClear => exact .next h.rdeClear
  | rdeSetupWrite => exact .next h.rdeSetup
  | rdeData => exact .ite (.next h) (.next ((h.sweepClaimant.asOwner fun h1 => h1.rdeTake).sweepDue))
  | rdeFinish => exact .next h.sweepClaimant.rdeFinish.sweepDue
  | rdeFinishDone => exact .next h.rdeDone.sweepDue
  | catchPoint => exact .next (h.departing fun _ => h.catchPoint)
  | bneResume => exact .bneResume h
  | bneMachineCheck => exact .next (.ite h.bump h.bneCheck)
  | bneCoreBistComplete => exact .next h.bneBistDone
  | bneCoreBringUp | bneCoreRetire => exact .next (h.hostTo fun _ => h.bneCmd)
  | rigStage => exact .next (h.mbxRun fun _ _ _ h1 => h1.rigStage)
  | flashWriteCommit => exact .flashWriteCommit h
  | rigPartialCommit => exact .rigPartialCommit h
  | rigPartialComplete => exact .rigPartialComplete h
  | mbxClear => exact .next (h.hostTo fun _ => h.mbxClear)
  | keyWrite => exact .next (h.mbxRunChange fun _ _ _ h1 => h1.keyWrite)
  | lcTransitionDrained => exact .next h.finishTransition
  | presencePress => exact .presencePress h
  | fwWrite | patchWrite => exact .next (h.mbxRunWrite fun _ _ _ h1 => h1.writePart)
  | tamperAlarm => exact .ite (.next h.dipBegins) (.next h.sourceAlarm)
  | sourceInactive => exact .next h.inactive.romGo.mbxNext
  | supplyDip => exact .next h.dipBegins
  | dipRecovery => exact .next h.sweepReg.recoverDip.lateWrites.romGo.mbxNext
  | dipHalt => exact .next h.haltDip
  | backupAlarm => exact .ite (.next h) (.next h.backupAlarm)
  | tmpVddWrite => exact .next (h.hostTo fun _ => h.writeTmpVdd)
  | tmpTempCtrlWrite => exact .next (h.hostTo fun _ => h.writeTempCtrl)
  | healthTestFailure => exact .next h.healthFail
  | sourceRestartEnd => exact .sourceRestartEnd h
  | drbgReseedRequest => exact .ite (.next h.setDrb) (.next h)
  | drbgAtLimit => exact .ite (.next h.upd.setDrb.rngEvt) (.next h)
  | bankHandover => exact .next (h.hostTo fun _ => h.writeHandover)
  | bankHandoverDrained => exact .ite (.next h) (.ite (.next h.setFld) (.next h.handOver))
  | bankWipeDone => exact .bankWipeDone h
  | bar4NormalAccess | apertureAccess => exact .next h.bar4Normal
  | setAliasWrite | clearAliasWrite => exact .next h.aliasWrite
  | fetchAndSet | fetchAndClear => exact .next h.fetchAnd
  | patrolScrubPass => exact .ite (.next h) (.next (.ddrEvt ((h.bump.each fun _ _ h1 => h1.ddrUe).wr)))
  | ddrMachineCheck => exact .next h.ddrCheck
  | crossingQuietTimeout =>
    exact .ite (.ite (.next h) (.next h.becomeCold)) (.ite (.next h.setBit.unitCheck) (.ite (.next h.setBit.ddrCheck) (.next
      h.setBit.scFatal)))
  | rstBlock => exact .next h.blockReset
  | blockResetBistDone => exact .next h.blockDone
  | resetNInput => exact .ite (.next h) (.next h.systemReset)
  | resetRelease => exact .resetRelease h
  | ddrTrainingDone => exact .ddrTrainingDone h
  | startComplete => exact .next (.ite h.enterService h)
  | startFailure | startTimeout => exact .next h.failStart
  | rdeBlockProcessed => exact .ite (.next h.setRde.rdeBusy) (.next h)
  | inputsGathered => exact .next h.sweepJob.takeInputs
  | railRangeChange => exact .ite (.next h.setBit.upd) (.next h.setBit)
  | jtagAccess => exact .jtagAccess h
  | i3cCommonCommand => exact .ite (.next h.i3cCommand) (.next h)
  | monitorSample => exact .monitorSample h
  | pwrMwUpdate => exact .ite (.next h) (.next h.setFld.setFld)
  | aspmL12Change => exact .next h.setBit
  | linkUp =>
    exact .ite (.next h) (.ite (.next h.upd) (.next (.bumpBoot (.ifThen (.ifThen h.upd.upd fun h1 => h1.wakeIslands.setFld) fun h1 =>
      h1.backToService))))
  | d3hotEntry => exact .ite (.next h) (.ite (.next h.upd.standby) (.next h.upd))
  | rigCheck => exact .next (h.mbxRun fun _ _ _ h1 => h1.rigCheckCmd)
  | rigWrite => exact .next (h.mbxRun fun _ _ _ h1 => h1.rigWrite)
  | rigPartial => exact .next (h.mbxRun fun _ _ _ h1 => h1.rigPartialCmd)
  | rigPartialDrained => exact .rigPartialDrained h
  | rigAuthRotate => exact .next (h.mbxRun fun _ _ _ h1 => h1.rigRotate)
  | rigInfo | bootInfo => exact .next (h.mbxRun fun _ _ _ h1 => h1.mbxDone)
  | mbxPut => exact .next (h.mbxRun fun _ _ _ h1 => h1.putStaging)
  | keySetAttr => exact .next (h.mbxRunChange fun _ _ _ h1 => h1.keySetAttr)
  | keyDestroy => exact .keyDestroy h
  | keyGetPublic => exact .next (h.mbxRunSlots fun _ _ _ h1 => h1.keyGetPublic)
  | keyAttest => exact .keyAttest h
  | vaultStore => exact .next (h.mbxRunVault fun _ _ _ h1 => h1.vaultStore)
  | vaultLoad => exact .next (.ite h (h.mbxRunChange fun _ _ _ h1 => h1.vaultLoad))
  | vaultErase => exact .next (h.mbxRunWrite fun _ _ _ h1 => h1.vaultErase)
  | vaultClear => exact .next (h.mbxRunWrite fun _ _ _ h1 => h1.waitPresence)
  | vaultInfo => exact .next (h.mbxRun fun _ _ _ h1 => h1.vaultInfo)
  | getIdentity => exact .getIdentity h
  | attestIdentity => exact .attestIdentity h
  | zeroise => exact .next (h.mbxRun fun _ _ _ h1 => h1.zeroiseCommand)
  | lcStatus => exact .next (h.mbxUses.mbxRun fun _ _ _ h1 => h1.mbxDone)
  | lcAdvance => exact .next (h.mbxUses.mbxRun fun _ _ _ h1 => h1.lcAdvance)
  | dbgChallenge => exact .dbgChallenge h
  | dbgOpen => exact .next (h.mbxUses.mbxRun fun _ _ _ h1 => h1.dbgOpen)
  | dbgClose => exact .next (h.mbxUses.mbxRun fun _ _ _ h1 => h1.dbgClose)
  | dbgSetAuth => exact .next (h.mbxUses.mbxRun fun _ _ _ h1 => h1.dbgSetAuth)
  | dbgRevoke => exact .next (h.mbxUses.mbxRun fun _ _ _ h1 => h1.dbgRevoke)
  | challengeLapse => exact .ite (.next h.dropChallenge) (.next h)
  | presenceTimeout => exact .presenceTimeout h
  | restart => exact .next (h.mbxRun fun _ _ _ h1 => h1.restartCmd)
  | shadowSweep => exact .next h.sweep
  | tmpResume => exact .next (h.hostTo fun _ => h.resumeNow)
  | tmpTimeRead => exact .ite (.next h.answer) (.next h.latchTime.answer)
  | conditionedBlock => exact .conditionedBlock h
  | reseedServed => exact .next (.resumeMove ((h.servePool fun _ _ h1 => h1.scServed).seedMesh))
  | restartCountClear => exact .ite (.next h.upd.setFld) (.next h)
  | rngRearm => exact .next (h.hostTo fun _ => h.rearm)
  | rngRestart => exact .next (h.hostTo fun _ => h.commandRestart)
  | ddrFillGo => exact .next (h.hostTo fun _ => h.fillGo)
  | ddrFillDone => exact .ddrFillDone h
  | rstCtrlWarm | rstCtrlCold => exact .next h.writeRstCtrl
  | scWatchdogExpiry => exact .ite (.next h.systemReset) (.next h)
  | scFatal => exact .next h.scFatal
  | ddrInitDone => exact .ddrInitDone h
  | bootAttemptsClear => exact .ite (.next h.clearAttempts) (.next h)
  | mainPowerOn => exact .ite (.next h) (.next h.setBit.upd.settleAlarmN)
  | porRelease => exact .ite (.next h) (.next h.upd.loadClasses.latchCause)
  | mainPowerLoss => exact .ite (.next h.losePower) (.next h)
  | vbatApplied => exact .next h.setBit.upd
  | aonSupplyLoss => exact .ite (.next h) (.next h.loseAon.setBit)
  | crystalStart | crystalStop => exact .next h.upd

/-- Settles O58: what every function of the state keeps, every command keeps, and so does a tick. -/
theorem stepKeepsSound : Obligations.StepKeepsSound := by
  intro s t h ht
  unfold step at ht
  split at ht
  · exact Answer.Sound.next h.idleTick t ht
  · exact exec_sound _ h.upd t ht

end Sys2Proof.Machine
end
